-- ==== Sys2Proof/Word.lean ====
section
/-!
DEFINITION. Word.lean: the word types of the module (spec/00_scope.md R2, R3). Unit numbers of R9 are natural numbers; WellFormed.lean
bounds them.
-/
namespace Sys2Proof

/-- A 32-bit management register word, or an FP32 or INT32 value as bits. -/
abbrev Word := BitVec 32

/-- One byte. -/
abbrev Byte := BitVec 8

end Sys2Proof
end

