-- ==== Sys2Proof/Machine/Table.lean ====
section
/-!
DEFINITION. Machine/Table.lean: sparse tables in one canonical form: keys strictly rising, no entry equal to what an
unlisted key reads as. Memory, registers and every large array of the module are held this way (log entry 5).
-/
namespace Sys2Proof.Machine

/-- A sparse table: listed keys with their values, keys rising. -/
abbrev Tbl (α : Type) := List (Nat × α)

/-- The value at key k; an unlisted key reads d. -/
def tget {α : Type} (d : α) (t : Tbl α) (k : Nat) : α :=
  match t with
  | [] => d
  | (j, v) :: r => if j = k then v else tget d r k

/-- Put a listed value at key k, keeping the keys rising. -/
def tput {α : Type} (t : Tbl α) (k : Nat) (v : α) : Tbl α :=
  match t with
  | [] => [(k, v)]
  | (j, w) :: r => if j < k then (j, w) :: tput r k v else if j = k then (k, v) :: r else (k, v) :: (j, w) :: r

/-- Remove key k. -/
def tdel {α : Type} (t : Tbl α) (k : Nat) : Tbl α := t.filter (fun e => decide (e.1 ≠ k))

/-- Write v at key k; writing the value an unlisted key reads as removes the entry. -/
def tset {α : Type} [DecidableEq α] (d : α) (t : Tbl α) (k : Nat) (v : α) : Tbl α :=
  if v = d then tdel t k else tput t k v

/-- Change every listed value; one that becomes what an unlisted key reads as leaves the table. -/
def tmap {α : Type} [DecidableEq α] (d : α) (f : Nat → α → α) (t : Tbl α) : Tbl α :=
  (t.map (fun e => (e.1, f e.1 e.2))).filter (fun e => decide (e.2 ≠ d))

/-- Keys from lo rise strictly, and no entry holds the value an unlisted key reads as. -/
def tblFrom {α : Type} [DecidableEq α] (d : Nat → α) : Nat → Tbl α → Bool
  | _, [] => true
  | lo, (j, v) :: r => decide (lo ≤ j) && decide (v ≠ d j) && tblFrom d (j + 1) r

/-- The canonical form. -/
def tblWf {α : Type} [DecidableEq α] (d : Nat → α) (t : Tbl α) : Bool := tblFrom d 0 t

/-- Remove every key from a to a + n - 1. -/
def tclear {α : Type} (t : Tbl α) (a n : Nat) : Tbl α := t.filter (fun e => decide (e.1 < a) || decide (a + n ≤ e.1))

/-- n bits of a number from bit lo on. -/
def bitsAt (w lo n : Nat) : Nat := w / 2 ^ lo % 2 ^ n

/-- Index of an element of a list, its length if absent. -/
def indexOf (l : List Nat) (x : Nat) : Nat := (l.takeWhile (fun y => decide (y ≠ x))).length

end Sys2Proof.Machine
end

