-- ==== Sys2Proof/Syntax.lean ====
section
/-!
DEFINITION. Syntax.lean: the commands of the module, one constructor of Instr per row of spec/opcode_table.json
(spec/95_what_each_step_holds.md). The table gives no operands; those here carry what the row's rule takes from outside:
the fields of a message, a flit or a register write, a reading of the analogue parts, a verdict of a check (log entry 9).
-/
namespace Sys2Proof

/-- Bytes in memory (R231): of a logical core's scratchpad, or of the stacks. -/
inductive Place where
  /-- scratchpad of a logical core -/
  | pad (core addr : Nat)
  /-- stack memory -/
  | stack (addr : Nat)
deriving DecidableEq, Repr

/-- A narrowed or wide operand in memory (R157, R159, R189): first element, format, bytes from row to row, scale plane, elements along the
reduction, and the FP32 scale of a format without block scaling. -/
structure Operand where
  base : Place
  fmt : Nat
  stride : Nat
  plane : Place
  length : Nat
  scale : Word
deriving DecidableEq, Repr

/-- Attention of one query block (R270 to R272): layer, shard, position of the block's first row, its rows, keys of the sequence; Q, K and V in
BF16, K and V by position; the output in FP32, O in BF16 and the FP32 log-sums as they are saved; for the backward dO in FP32 and the three
gradients. -/
structure AttnWork where
  layer : Nat
  shard : Nat
  first : Nat
  rows : Nat
  keys : Nat
  q : Place
  k : Place
  v : Place
  out : Place
  o : Place
  lse : Place
  dO : Place
  dq : Place
  dk : Place
  dv : Place
deriving DecidableEq, Repr

/-- A procedure that the frame programs carry out on a context's data in one phase (R237), and where its data lie: FP32 row by row, but for what
a rule saves in BF16. Counts are elements, rows or samples. -/
inductive PhaseWork where
  /-- a function of R247 on z, and what its backward reads -/
  | act (layer n : Nat) (z y : Place) (save : Option Place)
  /-- its backward, from the saved values -/
  | actBack (layer n : Nat) (saved dy dz : Place)
  /-- a normalisation or soft maximum of R248 over rows, and what its backward reads: the rows in BF16 and rstd -/
  | norm (layer rows : Nat) (x gamma beta y : Place) (save : Option (Place × Place))
  /-- its backward; `more` adds to the sums of the gains that earlier samples left -/
  | normBack (layer rows : Nat) (saved rstd gamma dy dx dgamma dbeta : Place) (more : Bool)
  /-- dropout of elements `first` on (R255) -/
  | drop (layer first n : Nat) (src dst : Place)
  /-- the loss of samples and its gradient, over outputs and targets in a format (R258, R259) -/
  | loss (samples width fmt : Nat) (out target losses seeds : Place)
  /-- activation gradients of a layer on a batt, or of a digital layer against its narrowed weights (R249, R252, R253) -/
  | gradIn (layer batt samples : Nat) (weights : Option Operand) (dy dx : Place)
  /-- weight and bias gradients from what the forward saved, or from the narrowed input of a digital layer (R250, R253); `more` adds to the
  bias gradient that earlier samples left -/
  | gradW (layer batt samples : Nat) (saved : Place) (stride : Nat) (input : Option Operand) (dy dw db : Place) (more : Bool)
  /-- partial gradients of micro-batches from `first` on into the accumulated gradient (R241, R254) -/
  | gradSum (tensor first micro stride : Nat) (src : Place)
  /-- saved bytes of a layer to the spill region of the neighbour (R266) -/
  | spill (layer : Nat) (src : Place) (offset bytes : Nat)
  /-- attention forward (R272) -/
  | attn (a : AttnWork)
  /-- attention backward (R272) -/
  | attnBack (a : AttnWork)
deriving DecidableEq, Repr

/-- A message as its last segment arrives: port, header fields of R351, source address (bits as in HSESS_ADDR0-3, ADDR0 on top)
and UDP port, and the arrival time in ns after the last tick. -/
structure Req where
  port : Nat
  session : Nat
  tag : Nat
  ctx : Nat
  gen : Nat
  arg0 : Nat
  arg1 : Nat
  len : Nat
  addr : Nat
  v6 : Bool
  udp : Nat
  t : Nat
deriving DecidableEq, Repr

/-- A wait (R371, R372): counter, mode, targets. -/
structure Wait where
  ctr : Nat
  mode : Nat
  target : Nat
  bytes : Nat
deriving DecidableEq, Repr

/-- A work item that the frame programs or upkeep offer to the plan of a frame (R71): its class (1 upkeep, 2 class 1, 3 class 2),
context and phase (R237), the time in ns charged on each unit (logical core x 16 + engine code of R400), bytes by stack, Aeline Link flits by
port x 8 + VC, egress bytes by Ethernet port, the waits whose signals it needs by logical core, rows blocked and fulling reads by batt (R58,
R116), the context switches on its cores as logical core and context (R380), its frame program of the image's schedule, none for the module's
own upkeep (R538), and what it does on the context's data. -/
structure WorkItem where
  cls : Nat
  ctx : Nat
  phase : Nat
  units : List (Nat × Nat)
  mem : List (Nat × Nat)
  flits : List (Nat × Nat)
  eth : List (Nat × Nat)
  gates : List (Nat × Wait)
  blocks : List (Nat × Nat)
  reads : List (Nat × Nat)
  switches : List (Nat × Nat)
  program : Option Nat
  works : List PhaseWork
deriving DecidableEq, Repr

/-- What TICK takes from outside: the work offered to the coming plan in its order; the queries released at this tick with points that did
not complete, as number, points k complete, and whether path data was lost (R68, R325); the PTP time of the tick as the ports measured it
(R348); CP1's random picks for duplicate execution as pairs of physical core and item (R420); the words that the memories of a core corrected
in the closing frame, by physical core (R216). -/
structure TickArgs where
  items : List WorkItem
  short : List (Nat × Nat × Bool)
  ptpSec : Nat
  ptpNs : Nat
  dup : List (Nat × Nat)
  ecc : List (Nat × Nat)
deriving DecidableEq, Repr

/-- A received datagram that does not complete its message (R347, R351, R353): what the filters saw, and its header. -/
structure Segment where
  port : Nat
  toUs : Bool
  vlanOk : Bool
  plain : Bool
  portOk : Bool
  macsecOk : Bool
  udpLen : Nat
  version : Nat
  type : Nat
  segOfs : Nat
  segLen : Nat
  hdr : Req
deriving DecidableEq, Repr

/-- A received IEEE 1588 message (R348): whether its domain and master are the port's, and the lock the slave clock has after it. -/
structure PtpMsg where
  port : Nat
  domain : Nat
  locked : Bool
  sec : Nat
  ns : Nat
deriving DecidableEq, Repr

/-- Eye width and ring margin of a lane in percent as CAL_LANE shows them (R498). -/
structure LaneFig where
  lane : Nat
  eye : Nat
  margin : Nat
deriving DecidableEq, Repr

/-- One sample of a SAMPLE message: its position count L (zero for a context without a sequence) and its bytes. -/
structure SampleData where
  positions : Nat
  data : List Byte
deriving DecidableEq, Repr

/-- One entry of a MGMT_WRITE (R355). -/
structure WriteEntry where
  addr : Nat
  value : Nat
  mask : Nat
deriving DecidableEq, Repr

/-- What CP3's check finds of a credential proof (R363, R510, R511): whether it is good, whether its role is owner, and the credential's
SERIAL. -/
structure ProofVerdict where
  good : Bool
  owner : Bool
  serial : Nat
deriving DecidableEq, Repr

/-- A model package as its last byte lands (R515, R517): the 64-byte header as one big-endian number, the ID_HASH of its wrap entries in
their order as big-endian numbers, and whether this module's wrap tag and then the body tag verify. -/
structure Package where
  header : Nat
  wraps : List Nat
  wrapOk : Bool
  bodyOk : Bool
deriving DecidableEq, Repr

/-- A LOAD_MODEL (R384): its request, and the package that its payload is. -/
structure LoadReq where
  req : Req
  pkg : Package
deriving DecidableEq, Repr

/-- What CP3's check of a credential proof finds (R510): whether the root's signature of the credential verifies, and whether the
credential's key signed the claim. -/
structure SignatureCheck where
  rootOk : Bool
  credOk : Bool
deriving DecidableEq, Repr

/-- A SIGNAL instruction (R371): context and generation of the issuing core, destination logical core, counter, increment, bytes. -/
structure SignalOp where
  ctx : Nat
  gen : Nat
  core : Nat
  ctr : Nat
  inc : Nat
  bytes : Nat
deriving DecidableEq, Repr

/-- A signal to a core of another module (R48, R321). -/
structure SignalEntry where
  core : Nat
  ctr : Nat
  inc : Nat
  bytes : Nat
deriving DecidableEq, Repr

/-- Header of a WRITE, SIGNAL or MSG flit as it matters at the destination (R319): port, VC, source, context, generation, FTAG. -/
structure FlitHead where
  port : Nat
  vc : Nat
  src : Nat
  ctx : Nat
  gen : Nat
  ftag : Nat
deriving DecidableEq, Repr

/-- Header of a flit in transit (R319, R336). -/
structure Transit where
  vc : Nat
  type : Nat
  alt : Bool
  hops : Nat
  dst : Nat
  src : Nat
deriving DecidableEq, Repr

/-- A received seal group (R310, R311): arrival, corrected and uncorrectable symbols, verdict of the tag, seal fields, and the flits
of the group that are not for this module. `theta` is the offset sample of the block (R338), in 1/16 ns. -/
structure SealGroup where
  port : Nat
  t : Nat
  corrected : Nat
  uncorrectable : Bool
  tagOk : Bool
  seq : Nat
  group : Nat
  state : Nat
  unaligned : Bool
  depth : Nat
  nak : Bool
  ack : Nat
  credits : List Nat
  theta : Int
  flits : List Transit
deriving DecidableEq, Repr

/-- A peer HELLO (R331): module ID, port number, frame period and TOPO. -/
structure HelloMsg where
  port : Nat
  peer : Nat
  peerPort : Nat
  periodUs : Nat
  topo : Nat
  t : Nat
deriving DecidableEq, Repr

/-- A KEX1 or KEX2 (R326): the peer's identity public key, its 68 bytes as one big-endian number, the verdict of the signature, and the shared
secret and transcript hash as ML-KEM-1024 gives them at this module, one number of 96 bytes. -/
structure KexMsg where
  port : Nat
  idPk : Nat
  sigOk : Bool
  secret : Nat
deriving DecidableEq, Repr

/-- A JOIN from the tick parent (R342). -/
structure JoinMsg where
  port : Nat
  frame : Nat
  depth : Nat
  theta : Int
deriving DecidableEq, Repr

/-- What the two runs of a calibration item found (R491): kind 0 OFFSET, 1 GAIN, 2 MIRROR, 3 AMP, 4 STEP, 5 FWD_SIGMA, 6 P_IDLE,
7 MON_REF, 8 SENSOR_MAP, 9 RING_BIAS; column, ring or part; both results in the unit of calAgree; whether the
junction temperature moved by more than 0.5 K during a run (R492). -/
structure CalItem where
  kind : Nat
  col : Nat
  first : Int
  second : Int
  moved : Bool
deriving DecidableEq, Repr

/-- Readings of a batt's reference columns P and Z for one block of rows, in product units (R102, R103). -/
structure RefReading where
  batt : Nat
  block : Nat
  p : List Int
  z : List Int
deriving DecidableEq, Repr

/-- A matrix descriptor (R204) and the generation of the context that issued it (R389). -/
structure MatrixDesc where
  gen : Nat
  fmtA : Nat
  fmtB : Nat
  acc : Nat
  chunk : Nat
  resume : Bool
  stream : Bool
  outFmt : Nat
  slot : Nat
  tcx : Nat
  outRule : Nat
  m : Nat
  n : Nat
  k : Nat
  opId : Nat
  aAddr : Nat
  aStride : Nat
  bAddr : Nat
  bStride : Nat
  aScaleAddr : Nat
  bScaleAddr : Nat
  scaleA : Word
  scaleB : Word
  outAddr : Nat
  outStride : Nat
  sigCtr : Nat
deriving DecidableEq, Repr

/-- A DMA descriptor (R232) without its operation, and the generation of the context that issued it (R232, R389). -/
structure DmaDesc where
  gen : Nat
  dims : Nat
  esize : Nat
  srcKind : Nat
  dstKind : Nat
  vc : Nat
  peer : Nat
  sigCtr : Nat
  sigCore : Nat
  srcAddr : Nat
  dstAddr : Nat
  dstModule : Nat
  x : Nat
  y : Nat
  z : Nat
  srcY : Int
  srcZ : Int
  dstY : Int
  dstZ : Int
  fill : Word
deriving DecidableEq, Repr

/-- A vector instruction without its operation code (R222); `op` is the operation's index within the frame program (R207). -/
structure VecInstr where
  type : Nat
  mask : Nat
  mzero : Bool
  bimm : Bool
  count : Nat
  dst : Nat
  srcA : Nat
  aux : Nat
  rnd : Nat
  tcx : Nat
  srcB : Nat
  op : Nat
deriving DecidableEq, Repr

/-- The tile that a TCHK checks, as the image's tensor table has it: layer, tile, format it was narrowed to, thresholds (R165, R174); whether
its consumer is class-0 work, the time in ns by engine that narrowing it again and reading it at the wider rate add, and what remains of
the item from the consumer on (R172, R173). -/
structure TileRef where
  layer : Nat
  tile : Nat
  fmt : Nat
  satMax : Nat
  zeroMax : Nat
  queryWork : Bool
  again : List (Nat × Nat)
  rest : WorkItem
deriving DecidableEq, Repr

/-- The tile of a pack group (R226): layer, tile, and the first format of its kind. -/
structure PackTile where
  layer : Nat
  tile : Nat
  first : Nat
deriving DecidableEq, Repr

/-- A PACK (R226): its instruction, and the tile of the pack group it belongs to. -/
structure PackOp where
  vec : VecInstr
  tile : Option PackTile
deriving DecidableEq, Repr

/-- A forward pass on a batt (R86 to R100): batt index, layer, running number of the query whose point it is, whether it is a recompute of
R267, the inputs of the rows as FP32, the converter readings of the high and low phase by sub-pass and
logical column, and for a FORWARD the hatbox address that takes what its backward reads: the codes, then the static rows' inputs in BF16,
then the dynamic rows' 64 bytes (R245, R246). -/
structure BattPass where
  batt : Nat
  layer : Nat
  query : Option Nat
  recompute : Bool
  xs : List Word
  readings : List (List (Int × Int))
  save : Option Nat
deriving DecidableEq, Repr

/-- One blocking operation on a row (R119, R121): what its iterations' verify reads find, in order: levels of G+, G-, g+, g- in 1/64 by
physical column. -/
structure RowTry where
  iters : List (List (Nat × List Int))
deriving DecidableEq, Repr

/-- A blocking operation (R118 to R124): batt index, row, generation of the context it works for, kind (0 transfer debt, 1 a load of every
row, 2 fulling re-block, 3 spare fill), whether it is the first row of a load, the operation and its repeat, and the time of its end after the last tick. -/
structure RowOp where
  batt : Nat
  row : Nat
  gen : Nat
  kind : Nat
  first : Bool
  tries : List RowTry
  t : Nat
deriving DecidableEq, Repr

/-- A fulling read (R139): batt index, row, conductances in 1/64 of 0.5 µS by physical column. -/
structure FulRead where
  batt : Nat
  row : Nat
  cells : List (Nat × List Int)
deriving DecidableEq, Repr

/-- The three readings of columns P and Z of a batt in the reference slot, in 1/16 LSB (R102). -/
structure RefSlot where
  batt : Nat
  p : List Int
  z : List Int
deriving DecidableEq, Repr

/-- A shadowed pass (R423): batt index, its staged codes, its results Y by logical column, and its largest LSB in product units. -/
structure ShadowOp where
  batt : Nat
  codes : List Int
  ys : List Word
  lsb : Nat
deriving DecidableEq, Repr

/-- A shard of a carding entry (R242, R243): module, logical core, 0 for its scratchpad or 2 for a stack, address, and the element range
first and count along each of the three axes, stored row-major; for an MX tensor the address of the shard's scale plane. -/
structure Shard where
  module : Nat
  core : Nat
  kind : Nat
  addr : Nat
  lo0 : Nat
  n0 : Nat
  lo1 : Nat
  n1 : Nat
  lo2 : Nat
  n2 : Nat
  plane : Nat
deriving DecidableEq, Repr

/-- The last write of a source shard of a carding entry (R243): context, number of the entry, number of the shard in its source map. -/
structure CardOp where
  ctx : Nat
  card : Nat
  shard : Nat
deriving DecidableEq, Repr

/-- A portion of a transfer of exchange data (R279, R284): kind, tensor, first element and elements, the member it goes to, the address of
its header in that member's receive region, and the counter to signal; `src` is where the data lies for the kinds that have no place of
their own (1 to 4, 6 and 7), `chunk` the chunk of a copy or a result. -/
structure Xfer where
  kind : Nat
  tensor : Nat
  first : Nat
  count : Nat
  member : Nat
  addr : Nat
  core : Nat
  ctr : Nat
  src : Nat
  chunk : Nat
deriving DecidableEq, Repr

/-- UPDATE work (R261): where the step's per-sample losses lie, in FP32 by step index (R259), the tensors whose owned rows it updates, the
operation numbers of its BF16 roundings (R207, R262), and the masters it sends (R288). -/
structure UpdateOp where
  ctx : Nat
  losses : Nat
  tensors : List Nat
  opM : Nat
  opV : Nat
  xfers : List Xfer
deriving DecidableEq, Repr

/-- A step record as applied (R280): head of its flit and its fields. -/
structure StepRec where
  head : FlitHead
  step : Nat
  attempt : Nat
  type : Nat
  sender : Nat
  holder : Bool
  arg : Nat
  frame : Nat
  nonFinite : Bool
deriving DecidableEq, Repr

/-- Exchange work of a member (R284, R292): the tensor, addresses of the headers of the portions it reads, where its own part lies, and what
it sends; `last` says that the module's last sum of the step is formed, and `losses` where the losses of its samples lie, none on a module
that forms no loss (R287). -/
structure SumOp where
  ctx : Nat
  tensor : Nat
  srcs : List Nat
  own : Nat
  xfers : List Xfer
  last : Bool
  losses : Option Nat
deriving DecidableEq, Repr

/-- Work on a chunk under the dual-path check (R295 to R297): number, sum (0 dense, 1 P, 2 Q), tensor, first element and elements; where the
module's own part or sum lies, headers of the portions or results it reads, what it sends, and its own cores that formed the sum. -/
structure ChunkOp where
  ctx : Nat
  chunk : Nat
  sum : Nat
  tensor : Nat
  first : Nat
  count : Nat
  own : Nat
  srcs : List Nat
  xfers : List Xfer
  cores : List Nat
deriving DecidableEq, Repr

/-- Gathered masters of an owner (R288): its member index, headers of the portions, and whether they are its last. -/
structure GatherOp where
  ctx : Nat
  owner : Nat
  srcs : List Nat
  last : Bool
deriving DecidableEq, Repr

/-- A DIGEST message as applied (R429). -/
structure DigestMsg where
  head : FlitHead
  step : Nat
  attempt : Nat
  scope : Nat
  sender : Nat
  subject : Nat
  d1 : Nat
  d2 : Nat
  check : Nat
deriving DecidableEq, Repr

/-- A duplicated candidate (R420 to R422): core, engine and item of the original, the core that ran the duplicate, both digests, whether it
could be charged and completed, and the time. -/
structure DupOp where
  core : Nat
  engine : Nat
  item : Nat
  other : Nat
  orig : Nat
  dup : Nat
  ran : Bool
  t : Nat
deriving DecidableEq, Repr

end Sys2Proof

namespace Sys2Proof.Machine

/-! Data that commands carry and State holds: the image, and what a section set holds. -/

/-- An installed MACsec association (R551). -/
structure Assoc where
  key : List Word
  ssci : Word
  salt : List Word
  rxPn : Nat
  txPn : Nat
deriving DecidableEq, Repr

/-- A region entry of a context record (R382): kind 1 private stack, 2 receive region, 3 hatbox or intake, 4 scratchpad of core. -/
structure Region where
  base : Nat
  limit : Nat
  kind : Nat
  core : Nat
  ctr : Nat
deriving DecidableEq, Repr

/-- A tensor in rotating slots (R51): its bit in SLOTS, its two stack addresses and the declared size of a slot. -/
structure Rot where
  bit : Nat
  a0 : Nat
  a1 : Nat
  size : Nat
deriving DecidableEq, Repr

/-- A parameter tensor of a template, as the phase mappings, the exchange plan and the optimizer read it (R237, R277, R291): layer, whether
it is the weight matrix of that layer, index of its first parameter, λ, thinning rank (0 for a dense tensor) and BF16 factors, owners as
(first row, member index) in ascending rows, the slices of the UPDATE mapping by their first rows (R237, R260), the slots of its accumulated
gradient (R254), and where its sum, P̂ and the Q sum lie. Elements are row-major, FP32. -/
structure Tensor where
  id : Nat
  layer : Nat
  weights : Bool
  rows : Nat
  cols : Nat
  index : Nat
  lambda : Word
  rank : Nat
  bf16 : Bool
  owners : List (Nat × Nat)
  slices : List Nat
  part : Rot
  sum : Nat
  phat : Nat
  qsum : Nat
  master : Rot
  m : Rot
  v : Rot
  resid : Rot
  qp : Rot
deriving DecidableEq, Repr

/-- Function of a layer entry (R247, R248, R255, R270, R536). -/
inductive LayerFn where
  /-- none -/
  | linear
  /-- elementwise, R247 -/
  | relu
  | leaky
  | tanh
  | sigmoid
  | elu
  | softplus
  | silu
  | gelu
  /-- over rows, R248 -/
  | layerNorm
  | rmsNorm
  | softMax
  /-- R255 -/
  | dropout
  /-- R272 -/
  | attention
deriving DecidableEq, Repr

/-- Attention of a layer (R270, R271): query and key block, head dimension, mask (0 none, 1 causal, 2 a sliding window of W positions), W,
whether the QK and PV operands are MXFP8, and the shards of the sequence in ring order as first key block and blocks. -/
structure AttnPlan where
  bq : Nat
  bk : Nat
  d : Nat
  mask : Nat
  window : Nat
  narrow : Bool
  shards : List (Nat × Nat)
deriving DecidableEq, Repr

/-- A loss term (R258): 0 MSE, 1 relative L2, 2 Huber, its weight, and δ of a Huber term. -/
structure LossTerm where
  kind : Nat
  weight : Word
  delta : Word
deriving DecidableEq, Repr

/-- The mapping of one phase for one layer (R237, R238): the cores and modules that do its work, and the batt of a layer's forward. -/
structure PhaseMap where
  phase : Nat
  layer : Nat
  cores : List Nat
  modules : List Nat
  batt : Option Nat
deriving DecidableEq, Repr

/-- A layer entry of a template (R536): what the rules read of it. `scaleAddr` and `bandAddr` are where the scratchpad of the batt's core holds
G and the band table (R177, R572). `batts` are batt indices of the image, empty for a digital layer;
`sx` is the exponent of the first s_x; `allow` is D_l; `cycles` is a digital layer's matrix interval per point at the BF16 rate; `droppable` the bytes saved per sample that recompute or spill may drop; `saved` all saved bytes; `fn` to `attn` its function and what backward
needs of it;
`scales` the column-group scales that the image gives (R167). -/
structure Layer where
  batts : List Nat
  core : Nat
  rows : Nat
  cols : Nat
  subpasses : Nat
  splitting : Bool
  outFmt : Nat
  scaleAddr : Nat
  bandAddr : Nat
  fn : LayerFn
  alpha : Word
  eps : Word
  bwdFmt : Nat
  derivCodes : Bool
  dropT : Nat
  attn : AttnPlan
  sx : Int
  staticRows : List (Nat × Bool)
  adaptive : List Bool
  lambda : Word
  rank : Nat
  allow : Nat
  cycles : Nat
  saved : Nat
  droppable : Nat
  sequence : Bool
  scales : List Word
deriving DecidableEq, Repr

/-- A context template (R536) as the loader reads it. `members` lists the modules of the context by context index, `group` those of the
module's data group by member index (R275, R277); `cards` are the carding entries as 256-bit words (R242) and `maps` the shard maps they name. -/
structure Template where
  index : Nat
  digitalOnly : Bool
  masterBwd : Bool
  clip : Bool
  bf16Moments : Bool
  hbxPolicy : Nat
  adamw : Bool
  skipLimit : Nat
  stepSamples : Nat
  stepWait : Nat
  weight : Nat
  mbSamples : Nat
  hbxSize : Nat
  logSize : Nat
  intakeSlots : Nat
  queryBuf : Nat
  lMax : Nat
  exportPeriod : Nat
  exportSession : Nat
  noiseGain : Word
  package : Bool
  spillModule : Nat
  spillBase : Nat
  spillSize : Nat
  seedKey : Nat
  cores : List Nat
  batts : List Nat
  inBytes : Nat
  outBytes : Nat
  targetBytes : Nat
  ioStack : Nat
  crossings : Nat
  crossFlits : Nat
  allotment : Nat
  layers : List Layer
  dropList : List Nat
  schedule : List (Nat × Word)
  beta1 : Word
  beta2 : Word
  omb1 : Word
  omb2 : Word
  eps : Word
  mu : Word
  clipNorm : Word
  members : List Nat
  ownIndex : Nat
  exchFmt : Nat
  regions : List Region
  intakeBase : Nat
  logBase : Nat
  group : List Nat
  tensors : List Tensor
  cards : List Nat
  maps : List (List Shard)
  phases : List PhaseMap
  losses : List LossTerm
  epsR : Word
deriving DecidableEq, Repr

/-- An entry of the context table (R535). -/
structure CtxEntry where
  template : Option Nat
  init : Nat
deriving DecidableEq, Repr

/-- Network addresses of one port (R533), as numbers; 0 for none. -/
structure NetPort where
  ip4 : Nat
  gw4 : Nat
  ip6 : Nat
  gw6 : Nat
  vlanOn : Bool
  vid : Nat
  macsecOn : Bool
  saks : List Assoc
deriving DecidableEq, Repr

/-- A host session of the image's table (R533). -/
structure SessEntry where
  session : Nat
  cfg : Word
  addr : List Word
deriving DecidableEq, Repr

/-- A declared link port pairing (R537): peer module, peer port, valid, fibre length in 0.1 m. -/
structure Pairing where
  peer : Nat
  peerPort : Nat
  valid : Bool
  fibre : Nat
deriving DecidableEq, Repr

/-- One module's entry of the topology (R537). -/
structure TopoEntry where
  idHash : Nat
  ports : List Pairing
  holder0 : Nat
  holder1 : Nat
deriving DecidableEq, Repr

/-- A persistent scratchpad region and its stack home (R539): context, logical core, scratchpad offset, home address, length. -/
structure Persist where
  ctx : Nat
  core : Nat
  offset : Nat
  home : Nat
  length : Nat
deriving DecidableEq, Repr

/-- A range that a frame program reads or writes (R52, R538): scratchpad of its core, its accumulator file, stack memory, or part of the
current or the free slot of a rotated tensor. -/
inductive Extent where
  /-- own scratchpad -/
  | pad (first len : Nat)
  /-- own accumulator file -/
  | acc (first len : Nat)
  /-- stack memory -/
  | mem (first len : Nat)
  /-- rotating slot -/
  | slot (rot : Rot) (free : Bool) (first len : Nat)
deriving DecidableEq, Repr

/-- A frame program (R538): logical core, context, phase, its streams as engine code and words (a 64-byte descriptor or a 128-bit vector
instruction as one number), what it reads and writes in order (true for a write), the receive regions it reads as base and length, the
counters its work waits on, and the programs that remain after its cut points. -/
structure Program where
  core : Nat
  ctx : Nat
  phase : Nat
  streams : List (Nat × List Nat)
  accesses : List (Bool × Extent)
  receives : List (Nat × Nat)
  gates : List Nat
  cuts : List Nat
deriving DecidableEq, Repr

/-- A Walor image (R528 to R539) as the module's readers see it: header, firmware SVN and build, the measurements M_FW and M_IMAGE and TOPO
(R331, R508), policy words by their offset, network,
topology, monitor table words, context table, templates, persistent regions; `reserves` are the checkpoint reserves as source module, base and
limit (R441). `parent`, `children` and `standbyParent` are those of the two trees (R334), none in an image as read.
`imageHome` gives by batt the stack address of its programmed image (R125), `plans` the plan table of the schedule as template, phase and
numbers of programs (R538), `exportKey` whether the owner's export key is declared (R518, R533). -/
structure Image where
  build : Nat
  svn : Nat
  mFw : Nat
  mImage : Nat
  topoHash : Nat
  policy : Tbl Nat
  net : List NetPort
  sessions : List SessEntry
  anchor : Nat
  standby : Nat
  modules : Nat
  holders : Nat
  topo : Tbl TopoEntry
  monLength : Nat
  monitor : List Word
  contexts : Tbl CtxEntry
  templates : List Template
  persist : List Persist
  reserves : List (Nat × Nat × Nat)
  parent : Option Nat
  children : List Nat
  standbyParent : Option Nat
  imageHome : List (Nat × Nat)
  programs : List Program
  plans : List (Nat × Nat × List Nat)
  exportKey : Bool
deriving DecidableEq, Repr

/-- A queued sample (R26, R240): session, sequence number, frame of admission, position count and payload. -/
structure Sample where
  session : Nat
  seq : Nat
  frame : Nat
  positions : Nat
  data : List Byte
deriving DecidableEq, Repr

/-- An escalated tile (R170, R174): tile, the formats below its rung from the first one on, rung, steps left of its hold, hold length. -/
structure EscTile where
  tile : Nat
  below : List Nat
  rung : Nat
  left : Nat
  hold : Nat
deriving DecidableEq, Repr

/-- Run-time state of a layer: sub-pass charge raised so far and at the next tick, frames of passes beyond it (R68); s_x, Q and the passes
since the last commit (R166); candidates by row and clamps (R178, R179); steps of fallback left, rescale and reference loss (R168, R186,
R425); escalation map (R174); quiet steps of adapted rows, those loud since the commit, the static list with its ADAPTED bits, entries
that join at a frame and rows that are to leave (R179); number of the first plan that runs the layer in substitution (R168, R186). -/
structure LayerSt where
  raised : Nat
  raising : Nat
  overs : List Nat
  sx : Int
  q : Word
  passes : Nat
  cand : Tbl Nat
  overflow : Nat
  fallback : Nat
  rescale : Bool
  refLost : Bool
  esc : List EscTile
  quiet : Tbl Nat
  loud : List Nat
  staticRows : List (Nat × Bool)
  joining : List (Nat × Nat)
  leaving : List Nat
  subFrom : Nat
deriving DecidableEq, Repr

/-- Counters of one context on one core: VALUE, LANDED, PROMISED, VALUE_B, LANDED_B (R368, R378). -/
structure Counter where
  value : Nat
  landed : Nat
  promised : Nat
  valueB : Nat
  landedB : Nat
deriving DecidableEq, Repr

/-- A counter set and the saved waits of a context on a core (R377, R378). -/
structure SaveArea where
  ctrs : Tbl Counter
  baseFrame : Nat
  waits : List (Nat × Wait)
deriving DecidableEq, Repr

/-- A section set as the module knows it (R438, R442): generation, s_c, the record fields it restores, sessions with accepted and
consumed numbers, save areas by physical core, tensors by number, kind (0 masters, 1 and 2 moments, 3 residual, 4 Qp), first element and bytes, probe loss, and
whether every holder still has it. -/
structure Generation where
  gen : Nat
  step : Nat
  roundPos : Nat
  updates : Nat
  p1 : Word
  p2 : Word
  lrScale : Word
  loss : Word
  seedKey : Nat
  slots : Nat
  template : Nat
  sessions : List (Nat × Nat × Nat)
  layers : Tbl LayerSt
  saves : List (Nat × SaveArea)
  data : List (Nat × Nat × Nat × List Byte)
  samples : List Sample
  probe : Option Word
  intact : Bool
deriving DecidableEq, Repr

end Sys2Proof.Machine

namespace Sys2Proof

/-- What a holder has of a member's section set (R446): the member, its context and s_c, and LANDED and PROMISED of the region's counter. -/
structure HolderOp where
  source : Nat
  ctx : Nat
  step : Nat
  landed : Nat
  promised : Nat
deriving DecidableEq, Repr

/-- Work of a restore or of a package (R457): the section set as read or decrypted, none where the module's own record of the generation is what
its holder returns; whether a holder delivered it and every digest matched (R440); whether it is a MODEL package, which needs no acceptance;
the portions of own masters to send, and gathered masters as tensor, first element and bytes, with `last` once all are there. -/
structure RestoreOp where
  ctx : Nat
  given : Option Machine.Generation
  found : Bool
  digests : Bool
  model : Bool
  xfers : List Xfer
  gathered : List (Nat × Nat × List Byte)
  last : Bool
deriving DecidableEq, Repr

/-- What the checks of a start find in one image slot (R507, R530, R532): whether the firmware's
signature and those of the configuration verify, the verdict on sections that the module does not hold decoded, the decoded image, and the slot
offset and section kind of the first item that the loader refuses. -/
structure SlotCheck where
  signOk : Bool
  credOk : Bool
  loaderOk : Bool
  image : Machine.Image
  failOfs : Nat
  failKind : Nat
deriving DecidableEq, Repr

/-- What a start reads and measures (R488, R505, R527, R150, R497): the two slots, module-state records without
a valid copy (0 to 1535 batt records, 1536 fault, 1537 security, 1538 network), whether a signature-state record is valid, calibration
records lost in both copies, and the drift check: reference blocks, fulling reads of every row, and CAL_RESID by batt. -/
structure BootArgs where
  slotA : SlotCheck
  slotB : SlotCheck
  stateLost : List Nat
  sigOk : Bool
  calLost : List Nat
  refs : List RefReading
  rows : List FulRead
  resid : List (Nat × Nat)
deriving DecidableEq, Repr

/-- A command: one row of the table of operations and events. -/
inductive Instr where
  /-- TICK (R43). -/
  | tick (o : TickArgs)
  /-- WORK_DEADLINE (R41). -/
  | workDeadline (running : Bool)
  /-- COMMIT_WINDOW (R48). -/
  | commitWindow
  /-- REFERENCE_PASSES (R102). -/
  | referencePasses (reads : List RefSlot)
  /-- REF_RECOVERY_COMPLETE (R425). -/
  | refRecoveryComplete (batt : Nat)
  /-- STREAM_OUT (R37). -/
  | streamOut
  /-- NOSTEP_WINDOW_CLOSE (R209). -/
  | nostepWindowClose
  /-- TRP_SEGMENT (R353). -/
  | trpSegment (o : Segment)
  /-- REASSEMBLY_TIMEOUT (R354). -/
  | reassemblyTimeout (session : Nat) (type : Nat) (tag : Nat) (t : Nat)
  /-- IDENTITY_QUIET_EXPIRY (R354). -/
  | identityQuietExpiry (session : Nat) (type : Nat) (tag : Nat) (t : Nat)
  /-- ICMP_ECHO (R346). -/
  | icmpEcho (port : Nat) (accepted : Bool) (t : Nat)
  /-- ARP_REQUEST (R35). -/
  | arpRequest (port : Nat) (target : Nat) (v6 : Bool)
  /-- NEIGHBOUR_RESOLVE (R35). -/
  | neighbourResolve (port : Nat) (target : Nat) (v6 : Bool)
  /-- PTP_MESSAGE (R348). -/
  | ptpMessage (o : PtpMsg)
  /-- DELAY_REQ (R348). -/
  | delayReq (port : Nat)
  /-- ETH_LINK_DOWN (R358). -/
  | ethLinkDown (port : Nat)
  /-- ETH_LINK_UP (R498). -/
  | ethLinkUp (port : Nat) (lanes : List LaneFig)
  /-- QUERY (R66). -/
  | query (r : Req)
  /-- SAMPLE (R69). -/
  | sample (r : Req) (samples : List SampleData)
  /-- LOAD_MODEL (R25). -/
  | loadModel (r : LoadReq)
  /-- LOAD_COMPLETE (R384). -/
  | loadComplete (ctx : Nat)
  /-- LOAD_FAILED (R384). -/
  | loadFailed (ctx : Nat) (status : Nat) (ind : Nat)
  /-- EXPORT (R453). -/
  | exportReq (r : Req) (size : Nat)
  /-- EXPORT_RESEND (R355). -/
  | exportResend (r : Req) (id : Nat) (offset : Nat) (length : Nat)
  /-- MGMT_READ (R553). -/
  | mgmtRead (r : Req)
  /-- MGMT_WRITE (R366). -/
  | mgmtWrite (r : Req) (entries : List WriteEntry)
  /-- CLAIM_OBSERVE (R363). -/
  | claimObserve (r : Req) (nonce : Nat) (cred : Nat)
  /-- CLAIM_OWN (R364). -/
  | claimOwn (r : Req) (nonce : Nat) (cred : Nat)
  /-- RENEW (R365). -/
  | renew (r : Req) (nonce : Nat)
  /-- CLAIM_PROOF_VERIFIED (R363). -/
  | claimProofVerified (session : Nat) (tag : Nat) (nonce : Nat) (v : SignatureCheck)
  /-- RELEASE (R365). -/
  | release (r : Req)
  /-- RELEASE_CLOSE (R365). -/
  | releaseClose (r : Req)
  /-- HANDOVER (R365). -/
  | handover (r : Req)
  /-- LEASE_EXPIRY (R364). -/
  | leaseExpiry
  /-- SESSION_IDLE_CLOSE (R362). -/
  | sessionIdleClose (session : Nat)
  /-- HSESS_CFG_WRITE (R361). -/
  | hsessCfgWrite (r : Req) (entries : List WriteEntry)
  /-- PARK (R384). -/
  | park (r : Req) (ctx : Nat)
  /-- UNPARK (R384). -/
  | unpark (r : Req) (ctx : Nat)
  /-- TEARDOWN (R388). -/
  | teardown (r : Req) (ctx : Nat)
  /-- TEARDOWN_FENCE (R388). -/
  | teardownFence (ctx : Nat)
  /-- CONTEXT_RELEASE (R388). -/
  | contextRelease (ctx : Nat) (outstanding : Nat)
  /-- DRAIN_TIMEOUT (R388). -/
  | drainTimeout (ctx : Nat)
  /-- RELEASED_MEMORY_ZEROED (R520). -/
  | releasedMemoryZeroed (ctx : Nat)
  /-- UNPARK_COMPLETE (R384). -/
  | unparkComplete (ctx : Nat)
  /-- CONTEXT_FAULT (R387). -/
  | contextFault (ctx : Nat)
  /-- PAUSE_WRITE (R264). -/
  | pauseWrite (r : Req) (ctx : Nat) (value : Bool)
  /-- FLT_RESET (R406). -/
  | fltReset (r : Req)
  /-- FLT_OOS (R405). -/
  | fltOos (r : Req)
  /-- RESTORE_LATEST (R456). -/
  | restoreLatest (r : Req) (ctx : Nat)
  /-- RESTORE_PREVIOUS (R456). -/
  | restorePrevious (r : Req) (ctx : Nat)
  /-- CAL_BATT_ITEMS (R493). -/
  | calBattItems (r : Req) (unit : Nat) (pattern : Bool)
  /-- CAL_FWD_SIGMA (R493). -/
  | calFwdSigma (r : Req)
  /-- CAL_P_IDLE (R493). -/
  | calPIdle (r : Req)
  /-- CAL_MON_REF (R493). -/
  | calMonRef (r : Req)
  /-- CAL_SENSOR_MAP (R493). -/
  | calSensorMap (r : Req) (core : Nat)
  /-- CAL_RING_BIAS (R493). -/
  | calRingBias (r : Req) (port : Nat)
  /-- CAL_RUN_COMPLETE (R491). -/
  | calRunComplete (items : List CalItem) (resid : Nat)
  /-- QUOTE_GO (R513). -/
  | quoteGo (r : Req) (confirm : Nat)
  /-- QUOTE_READY (R513). -/
  | quoteReady
  /-- SVN_COMMIT (R503). -/
  | svnCommit (r : Req) (confirm : Nat)
  /-- LOCK (R501). -/
  | lock (r : Req) (confirm : Nat)
  /-- DBG_DISABLE (R501). -/
  | dbgDisable (r : Req) (confirm : Nat) (mask : Nat)
  /-- FUSE_BLOW_COMPLETE (R501). -/
  | fuseBlowComplete (readBack : List Nat)
  /-- SEC_CRED_EPOCH_WRITE (R512). -/
  | secCredEpochWrite (r : Req) (value : Nat) (mask : Nat)
  /-- DBG_OPEN (R522). -/
  | dbgOpen (r : Req) (facilities : Nat) (purpose : Nat)
  /-- DBG_CLOSE (R524). -/
  | dbgClose (r : Req)
  /-- IMG_ERASE (R542). -/
  | imgErase (r : Req) (confirm : Nat) (slot : Nat)
  /-- IMG_ERASE_COMPLETE (R542). -/
  | imgEraseComplete (slot : Nat)
  /-- IMG_SEAL (R542). -/
  | imgSeal (r : Req) (confirm : Nat) (slot : Nat)
  /-- IMG_RESTART (R542). -/
  | imgRestart (r : Req) (confirm : Nat)
  /-- IMG_WIN_WRITE (R542). -/
  | imgWinWrite (r : Req) (entries : List WriteEntry)
  /-- RETRAIN (R330). -/
  | retrain (r : Req) (port : Nat)
  /-- UNFENCE (R330). -/
  | unfence (r : Req) (port : Nat)
  /-- INSTALL (R551). -/
  | install (r : Req) (port : Nat) (mask : Nat)
  /-- TX_AN_SWITCH (R551). -/
  | txAnSwitch (r : Req) (port : Nat) (an : Nat)
  /-- SIGNAL (R371). -/
  | signal (o : SignalOp)
  /-- WAIT (R372). -/
  | wait (core : Nat) (waiter : Nat) (ctr : Nat) (mode : Nat) (target : Nat) (bytes : Nat)
  /-- WAIT_RELEASE (R373). -/
  | waitRelease (core : Nat) (waiter : Nat)
  /-- CONTEXT_SWITCH (R379). -/
  | contextSwitch (core : Nat) (ctx : Nat)
  /-- MATRIX_OPERATION (R203). -/
  | matrixOperation (core : Nat) (d : MatrixDesc)
  /-- COPY (R233). -/
  | copy (core : Nat) (d : DmaDesc)
  /-- FILL (R233). -/
  | fill (core : Nat) (d : DmaDesc)
  /-- TRANSPOSE (R233). -/
  | transpose (core : Nat) (d : DmaDesc)
  /-- ADD (R224). -/
  | add (core : Nat) (x : VecInstr)
  /-- SUB (R224). -/
  | sub (core : Nat) (x : VecInstr)
  /-- MUL (R224). -/
  | mul (core : Nat) (x : VecInstr)
  /-- FMA (R224). -/
  | fma (core : Nat) (x : VecInstr)
  /-- MIN (R224). -/
  | vMin (core : Nat) (x : VecInstr)
  /-- MAX (R224). -/
  | vMax (core : Nat) (x : VecInstr)
  /-- ABS (R224). -/
  | abs (core : Nat) (x : VecInstr)
  /-- NEG (R224). -/
  | neg (core : Nat) (x : VecInstr)
  /-- MOV (R224). -/
  | mov (core : Nat) (x : VecInstr)
  /-- CMP (R224). -/
  | cmp (core : Nat) (x : VecInstr)
  /-- CMPS (R224). -/
  | cmps (core : Nat) (x : VecInstr)
  /-- SEL (R224). -/
  | sel (core : Nat) (x : VecInstr)
  /-- SELP (R224). -/
  | selp (core : Nat) (x : VecInstr)
  /-- EXP2 (R225). -/
  | exp2 (core : Nat) (x : VecInstr)
  /-- LOG2 (R225). -/
  | log2 (core : Nat) (x : VecInstr)
  /-- RSQRT (R225). -/
  | rsqrt (core : Nat) (x : VecInstr)
  /-- RCP (R225). -/
  | rcp (core : Nat) (x : VecInstr)
  /-- CVT (R224). -/
  | cvt (core : Nat) (x : VecInstr)
  /-- PACK (R226). -/
  | pack (core : Nat) (x : PackOp)
  /-- UNPACK (R226). -/
  | unpack (core : Nat) (x : VecInstr)
  /-- PERM (R227). -/
  | perm (core : Nat) (x : VecInstr)
  /-- SHUF (R227). -/
  | shuf (core : Nat) (x : VecInstr)
  /-- RSUM (R228). -/
  | rsum (core : Nat) (x : VecInstr)
  /-- RMAX (R229). -/
  | rmax (core : Nat) (x : VecInstr)
  /-- RMIN (R229). -/
  | rmin (core : Nat) (x : VecInstr)
  /-- TOPK (R230). -/
  | topk (core : Nat) (x : VecInstr)
  /-- TOPKM (R230). -/
  | topkm (core : Nat) (x : VecInstr)
  /-- PSUM (R210). -/
  | psum (core : Nat) (x : VecInstr)
  /-- TCHK (R226). -/
  | tchk (core : Nat) (x : VecInstr) (t : TileRef)
  /-- KSET (R224). -/
  | kset (core : Nat) (x : VecInstr)
  /-- KOP (R224). -/
  | kop (core : Nat) (x : VecInstr)
  /-- UNCORRECTABLE_ECC (R216). -/
  | uncorrectableEcc (core : Nat) (engine : Nat) (again : Bool) (t : Nat)
  /-- BATT_PASS (R89). -/
  | battPass (o : BattPass)
  /-- NUM_SPLIT_RAISED (R68). -/
  | numSplitRaised (ctx : Nat)
  /-- BLOCKING (R119). -/
  | blocking (o : RowOp)
  /-- DEBT_STARVED (R134). -/
  | debtStarved (ctx : Nat)
  /-- FULLING_INTERVAL_EXPIRY (R141). -/
  | fullingIntervalExpiry (batt : Nat) (t : Nat)
  /-- FULLING_READ (R139). -/
  | fullingRead (o : FulRead)
  /-- FULLING_PASS_END (R141). -/
  | fullingPassEnd (batt : Nat) (t : Nat)
  /-- WEAR_CEILING_WRITE (R142). -/
  | wearCeilingWrite (batt : Nat) (row : Nat)
  /-- ROW_WORN (R143). -/
  | rowWorn (batt : Nat) (row : Nat)
  /-- COLUMN_RETIRE (R146). -/
  | columnRetire (batt : Nat) (column : Nat)
  /-- SPARE_FILL (R146). -/
  | spareFill (o : RowOp)
  /-- SPARE_FILL_COMPLETE (R146). -/
  | spareFillComplete (batt : Nat) (column : Nat)
  /-- BATT_RECORD_WRITE (R149). -/
  | battRecordWrite (batt : Nat)
  /-- SHADOW_PASS (R423). -/
  | shadowPass (o : ShadowOp)
  /-- STEP_BEGIN (R240). -/
  | stepBegin (ctx : Nat)
  /-- CARDING (R243). -/
  | carding (o : CardOp)
  /-- STEP_COMMIT (R265). -/
  | stepCommit (ctx : Nat)
  /-- SKIP_LIMIT_PAUSE (R264). -/
  | skipLimitPause (ctx : Nat)
  /-- HOLD_RETRY (R131). -/
  | holdRetry (ctx : Nat)
  /-- ESC_HOLD_EXPIRY (R174). -/
  | escHoldExpiry (ctx : Nat)
  /-- STATIC_LIST_LEAVE (R179). -/
  | staticListLeave (batt : Nat) (row : Nat)
  /-- RESCALE_COMPLETE (R168). -/
  | rescaleComplete (batt : Nat)
  /-- FALLBACK_ENTRY (R186). -/
  | fallbackEntry (ctx : Nat) (layer : Nat)
  /-- FALLBACK_END (R186). -/
  | fallbackEnd (ctx : Nat) (layer : Nat)
  /-- STEP_READY (R282). -/
  | stepReady (o : StepRec)
  /-- EXCH_SCATTER (R284). -/
  | exchScatter (ctx : Nat) (xfers : List Xfer)
  /-- OWNER_SUM (R285). -/
  | ownerSum (o : SumOp)
  /-- THIN_P_SUM (R292). -/
  | thinPSum (o : SumOp)
  /-- THIN_Q_PARTIAL (R292). -/
  | thinQPartial (o : SumOp)
  /-- THIN_Q_SUM (R292). -/
  | thinQSum (o : SumOp)
  /-- SCALAR (R287). -/
  | scalar (o : StepRec)
  /-- OPTIMIZER_UPDATE (R261). -/
  | optimizerUpdate (o : UpdateOp)
  /-- MASTERS_APPLY (R288). -/
  | mastersApply (o : GatherOp)
  /-- VOTE (R289). -/
  | vote (o : StepRec)
  /-- RESUME (R289). -/
  | resume (o : StepRec)
  /-- CHECK_COPY_SUM (R296). -/
  | checkCopySum (o : ChunkOp)
  /-- CHECK_COMPARE (R297). -/
  | checkCompare (o : ChunkOp)
  /-- REREDUCE (R297). -/
  | rereduce (o : StepRec) (copies : List Xfer)
  /-- REFEREE_SUM (R297). -/
  | refereeSum (o : ChunkOp)
  /-- REFEREE_DECISION (R297). -/
  | refereeDecision (o : ChunkOp)
  /-- ABANDON (R298). -/
  | abandon (o : StepRec)
  /-- EXCH_RERUN (R298). -/
  | exchRerun (ctx : Nat)
  /-- MEMBER_LATE (R300). -/
  | memberLate (ctx : Nat) (member : Nat) (due : Nat)
  /-- LOSS_REPORT (R300). -/
  | lossReport (head : FlitHead) (member : Nat) (frame : Nat)
  /-- MEMBER_REMOVAL (R300). -/
  | memberRemoval (ctx : Nat)
  /-- STATE_RECORD (R301). -/
  | stateRecord (o : StepRec)
  /-- STATE_DECISION (R301). -/
  | stateDecision (ctx : Nat)
  /-- STEP_RECORD (R280). -/
  | stepRecord (o : StepRec) (copies : List Xfer)
  /-- DIGEST (R429). -/
  | digest (o : DigestMsg)
  /-- FULL_DIGEST (R431). -/
  | fullDigest (ctx : Nat)
  /-- DIGEST_DECISION (R432). -/
  | digestDecision (ctx : Nat)
  /-- DUPLICATE_COMPARE (R421). -/
  | duplicateCompare (o : DupOp)
  /-- DUPLICATE_REFEREE (R422). -/
  | duplicateReferee (o : DupOp)
  /-- OBSERVATION_EXPIRY (R417). -/
  | observationExpiry (core : Nat) (t : Nat)
  /-- MARGIN_FRAME (R433). -/
  | marginFrame (core : Nat)
  /-- KNOWN_ANSWER_TEST (R435). -/
  | knownAnswerTest (core : Nat) (failed : Option Nat)
  /-- ENGINE_WATCHDOG (R395). -/
  | engineWatchdog (core : Nat) (engine : Nat) (t : Nat)
  /-- DMA_WATCHDOG (R395). -/
  | dmaWatchdog (core : Nat) (t : Nat)
  /-- BATT_WATCHDOG (R395). -/
  | battWatchdog (core : Nat) (batt : Nat) (t : Nat)
  /-- PLAN_WATCHDOG (R395). -/
  | planWatchdog (t : Nat)
  /-- CONTROL_CORE_WATCHDOG (R395). -/
  | controlCoreWatchdog (cp : Nat) (t : Nat)
  /-- MGMT_WATCHDOG (R395). -/
  | mgmtWatchdog
  /-- ENGINE_RESET (R391). -/
  | engineReset (core : Nat) (engine : Nat) (t : Nat)
  /-- CORE_RESET (R391). -/
  | coreReset (core : Nat) (t : Nat)
  /-- DIE_RESET (R391). -/
  | dieReset (die : Nat) (t : Nat)
  /-- DEVICE_RESET (R402). -/
  | deviceReset (t : Nat)
  /-- RESET_TIMEOUT (R392). -/
  | resetTimeout (level : Nat) (unit : Nat) (engine : Nat) (t : Nat)
  /-- RESET_COMPLETE (R403). -/
  | resetComplete (level : Nat) (unit : Nat) (engine : Nat)
  /-- DEVICE_RESET_COMPLETE (R402). -/
  | deviceResetComplete (hashOk : Bool) (o : BootArgs)
  /-- RESET_REBUILD (R393). -/
  | resetRebuild (core : Nat) (readings : List RefReading)
  /-- MANAGEMENT_RESET (R544). -/
  | managementReset (o : BootArgs)
  /-- OOS_ENTRY (R405). -/
  | oosEntry
  /-- CORE_FENCE (R411). -/
  | coreFence
  /-- SPARE_TEST (R412). -/
  | spareTest (core : Nat) (pass : Bool)
  /-- SPARE_REBLOCK_COMPLETE (R412). -/
  | spareReblockComplete (ctx : Nat)
  /-- EVENT_LOG_WRITE (R408). -/
  | eventLogWrite
  /-- CKPT_START (R444). -/
  | ckptStart (ctx : Nat)
  /-- CKPT (R444). -/
  | ckpt (o : StepRec)
  /-- HOLDER_DONE (R446). -/
  | holderDone (o : HolderOp)
  /-- SELF_HOLD_COPY_DONE (R447). -/
  | selfHoldCopyDone (ctx : Nat)
  /-- DONE (R446). -/
  | done (o : StepRec)
  /-- CKPT_ABANDON (R448). -/
  | ckptAbandon (ctx : Nat) (cause : Nat) (module : Nat)
  /-- CKPT_LIMIT_EXPIRY (R448). -/
  | ckptLimitExpiry (ctx : Nat)
  /-- PROBE (R459). -/
  | probe (ctx : Nat) (loss : Word)
  /-- EXPORT_SCHEDULED (R453). -/
  | exportScheduled (ctx : Nat) (size : Nat)
  /-- EXPORT_HOLD_EXPIRY (R455). -/
  | exportHoldExpiry (ctx : Nat) (id : Nat)
  /-- RESTORE (R457). -/
  | restore (o : RestoreOp)
  /-- RESTORED (R457). -/
  | restored (o : StepRec)
  /-- ACCEPTANCE_REPLAY (R459). -/
  | acceptanceReplay (ctx : Nat) (loss : Word)
  /-- LOG_RECOMPUTE (R460). -/
  | logRecompute (ctx : Nat) (common : Nat)
  /-- MOMENT_FETCH (R461). -/
  | momentFetch (ctx : Nat) (module : Nat) (data : List (Nat × Nat × Nat × List Byte)) (last : Bool)
  /-- ADOPT_ZERO (R461). -/
  | adoptZero (ctx : Nat) (module : Nat)
  /-- INIT_RESTORE_TIMEOUT (R535). -/
  | initRestoreTimeout (ctx : Nat)
  /-- ENABLE_CLOSE (R543). -/
  | enableClose (mv : Nat) (o : BootArgs)
  /-- SIG_STATE_RESERVE (R505). -/
  | sigStateReserve
  /-- SIGNING_REQUEST (R506). -/
  | signingRequest (quote : Bool)
  /-- ENABLE_OPEN (R464). -/
  | enableOpen
  /-- UNDER_VOLTAGE_STOP (R463). -/
  | underVoltageStop (mv : Nat) (us : Nat)
  /-- OVER_VOLTAGE_STOP (R463). -/
  | overVoltageStop (mv : Nat) (us : Nat)
  /-- CURRENT_LIMIT_STOP (R463). -/
  | currentLimitStop (us : Nat)
  /-- MONITOR_CONVERSION (R481). -/
  | monitorConversion (value : Int)
  /-- MONITOR_ENTRY_COMPLETE (R481). -/
  | monitorEntryComplete (t : Nat)
  /-- URGENT_REQUEST (R482). -/
  | urgentRequest (channel : Nat)
  /-- FRAME_ENERGY_CHECK (R469). -/
  | frameEnergyCheck (frame : Nat)
  /-- OVERDRAW (R471). -/
  | overdraw (mw : Nat) (t : Nat)
  /-- RESERVE_DECAY (R471). -/
  | reserveDecay (t : Nat)
  /-- THERMAL_SHUTDOWN (R475). -/
  | thermalShutdown (channel : Nat) (value : Int)
  /-- LASER_LOW (R306). -/
  | laserLow (fibre : Nat)
  /-- SEAL_GROUP_RECEIVE (R311). -/
  | sealGroupReceive (o : SealGroup)
  /-- NAK (R317). -/
  | nak (port : Nat) (group : Nat) (sent : Nat) (t : Nat)
  /-- WRITE_FLIT (R323). -/
  | writeFlit (h : FlitHead) (addr : Nat) (data : List Byte)
  /-- SIGNAL_FLIT (R324). -/
  | signalFlit (h : FlitHead) (entries : List SignalEntry)
  /-- WITHDRAW (R399). -/
  | withdraw (h : FlitHead) (entries : List (Nat × Nat))
  /-- JOIN (R342). -/
  | join (o : JoinMsg)
  /-- READY_COUNT (R343). -/
  | readyCount (child : Nat) (count : Nat)
  /-- SYS_WAIT_EXPIRY (R343). -/
  | sysWaitExpiry
  /-- MGMT_RELAY (R320). -/
  | mgmtRelay (src : Nat) (payload : List Nat)
  /-- ANCHOR_MOVE (R341). -/
  | anchorMove (frame : Nat)
  /-- ANCHOR_LOST (R341). -/
  | anchorLost
  /-- HELLO (R331). -/
  | hello (o : HelloMsg)
  /-- KEX1 (R326). -/
  | kex1 (o : KexMsg) (t : Nat)
  /-- KEX2 (R326). -/
  | kex2 (o : KexMsg) (t : Nat)
  /-- FIN (R327). -/
  | fin (port : Nat) (value : Nat) (lanes : List LaneFig) (t : Nat)
  /-- REKEY_TRIGGER (R329). -/
  | rekeyTrigger (port : Nat) (txSeq : Nat) (rxSeq : Nat) (t : Nat)
  /-- REKEY1 (R329). -/
  | rekey1 (o : KexMsg) (t : Nat)
  /-- REKEY2 (R329). -/
  | rekey2 (o : KexMsg) (ownSeq : Nat) (t : Nat)
  /-- REKEY_FIN (R329). -/
  | rekeyFin (port : Nat) (value : Nat) (ownSeq : Nat) (switchSeq : Nat) (t : Nat)
  /-- KEY_SWITCH (R329). -/
  | keySwitch (port : Nat) (sending : Bool) (seq : Nat)
  /-- REKEY_TIMEOUT (R329). -/
  | rekeyTimeout (port : Nat) (t : Nat)
  /-- KEY_RATCHET (R328). -/
  | keyRatchet (port : Nat) (sending : Bool) (seq : Nat)
  /-- LIGHT_DETECT (R330). -/
  | lightDetect (port : Nat) (lit : Bool) (t : Nat)
  /-- RINGS_LOCKED (R330). -/
  | ringsLocked (port : Nat)
  /-- LANES_TRAINED (R330). -/
  | lanesTrained (port : Nat)
  /-- FEC_ALIGNED (R330). -/
  | fecAligned (port : Nat)
  /-- ATTEMPT_TIMEOUT (R330). -/
  | attemptTimeout (port : Nat) (t : Nat)
  /-- AUTH_TIMEOUT (R330). -/
  | authTimeout (port : Nat) (t : Nat)
  /-- WAIT_EXPIRY (R330). -/
  | waitExpiry (port : Nat) (t : Nat)
  /-- DOWN_EXPIRY (R330). -/
  | downExpiry (port : Nat) (t : Nat)
  /-- SEAL_LOSS (R330). -/
  | sealLoss (port : Nat) (t : Nat)
  /-- BER_EXCESS (R330). -/
  | berExcess (port : Nat)
  /-- RESEND_LIMIT (R318). -/
  | resendLimit (port : Nat) (t : Nat)
  /-- LIGHT_LOST (R330). -/
  | lightLost (port : Nat)
  /-- THETA_UPDATE (R338). -/
  | thetaUpdate (samples : List Int)
  /-- PARENT_SWITCH (R339). -/
  | parentSwitch
  /-- TICK_UNALIGNED (R340). -/
  | tickUnaligned (t : Nat)
  /-- TICK_REJOIN (R340). -/
  | tickRejoin (theta : Int) (frame : Nat)
  /-- START_THRESHOLD (R463). -/
  | startThreshold (mv : Nat) (o : BootArgs)
  /-- CURRENT_LIMIT_REACHED (R463). -/
  | currentLimitReached
  /-- REFERENCE_CLOCK_LOSS (R477). -/
  | referenceClockLoss
  /-- IMG_SEAL_COMPLETE (R542). -/
  | imgSealComplete (slot : Nat)
  /-- UNLISTED_TYPE (R352). -/
  | unlistedType (version : Nat) (type : Nat) (r : Req)
  /-- FAILED_TEST_EXPIRY (R409). -/
  | failedTestExpiry (t : Nat)
  /-- SLIDING_WINDOW_EXPIRY (R404). -/
  | slidingWindowExpiry (t : Nat)
deriving DecidableEq, Repr

end Sys2Proof
end

