-- ==== Sys2Proof/Decode.lean ====
section
/-!
DEFINITION. Decode.lean: the words of spec/opcode_table.json. The table gives no row any bits: the part takes messages, flits, register
writes and events, not instruction words, so no word spells a command.
-/
namespace Sys2Proof

/-- The command that a word of the table spells: none, since no row has bits. -/
def decodeTableWord (_nbits _w : Nat) : Option Instr := none

end Sys2Proof
end

