-- ==== Sys2Proof/Config.lean ====
section
/-!
DEFINITION. Config.lean: the free values of the model. Each is an opaque constant without a body: nothing can prove
a value of it (log entry 1).
-/
namespace Sys2Proof.Config

/-- A fresh free number, applied to the counter State.freeCtr (log entry 1). -/
opaque freeNat : Nat → Nat

/-- EXP2 of an FP32 word outside its special inputs (R225, log entry 11). -/
opaque exp2Bits : Word → Word

/-- LOG2 of an FP32 word outside its special inputs (R225, log entry 11). -/
opaque log2Bits : Word → Word

/-- Which of the RSQRT results within 1 ulp the hardware gives for an operand (R225, log entry 11). -/
opaque rsqrtBits : Word → Word

/-- Which of the RCP results within 1 ulp the hardware gives for an operand (R225, log entry 11). -/
opaque rcpBits : Word → Word

/-- Which of two NaN operands a result propagates: true for the first (R217, log entry 14). -/
opaque nanPick : Word → Word → Bool

/-- Sign and payload of a NaN that an operation makes from operands that are no NaN (R217, log entry 14). -/
opaque nanMade : Word → Word → Word

/-- Sign and payload of a NaN that a conversion makes, for a format of so many bits (R161, R200, log entry 14). -/
opaque nanCode : Nat → Nat

/-- A byte of a query result: context, generation, step, query number, byte index (R28, log entry 12). -/
opaque resultByte : Nat → Nat → Nat → Nat → Nat → Byte

/-- A byte of an export package of a context's generation (R454, R518, log entry 12). -/
opaque exportByte : Nat → Nat → Nat → Byte

/-- Bytes 0 to 35 of ID_PK, its OID and root, as the standard's key generation gives them over SK_SEED and PUB_SEED (R504, log entry 197). -/
opaque idHead : Nat → Nat → Nat → Byte

/-- A byte of EK, as ML-KEM key generation gives it over d and z (R504, log entry 197). -/
opaque ekByte : Nat → Nat → Byte

/-- A byte of DEV_SIG, written at manufacture (R514, log entry 197). -/
opaque devSigByte : Nat → Byte

/-- A byte of a quote beyond the fields the model holds: slot and offset (R514, log entry 13). -/
opaque quoteByte : Nat → Nat → Byte

/-- Code of a calibration item in its record and in CAL_REFUSED (R488, R492, log entry 17). -/
opaque calItemCode : Nat → Nat

end Sys2Proof.Config
end

