-- ==== Sys2Proof/Machine/Float.lean ====
section
/-!
DEFINITION. Machine/Float.lean: number formats and their arithmetic (spec/05_formats_and_band_path.md R154 to R164,
spec/06_core_digital.md R206, R217, R225). A finite value is kept exactly as plus or minus m x 2^e; every rounding goes through roundFrac.
-/
namespace Sys2Proof.Machine

/-- An element format: exponent bits, mantissa bits, bias, encoding of the largest finite value, of infinity (none: the format
has no infinity), of its NaN, and the exponent of its largest binade (emax of R164). -/
structure Fmt where
  eb : Nat
  mb : Nat
  bias : Nat
  maxFin : Nat
  inf : Option Nat
  nan : Option Nat
  emax : Int
deriving DecidableEq, Repr

/-- A quiet NaN of an IEEE 754 format with eb exponent and mb mantissa bits, its sign and payload free (log entry 14). -/
def nanOf (eb mb : Nat) : Nat :=
  let n := Config.nanCode (1 + eb + mb)
  (2 ^ eb - 1) * 2 ^ mb + 2 ^ (mb - 1) + n % 2 ^ (mb - 1) + n / 2 ^ (mb - 1) % 2 * 2 ^ (eb + mb)

namespace Fmt
/-- FP32 (R154). -/
def fp32 : Fmt := ⟨8, 23, 127, 0x7F7FFFFF, some 0x7F800000, some (nanOf 8 23), 127⟩
/-- BF16 (R154). -/
def bf16 : Fmt := ⟨8, 7, 127, 0x7F7F, some 0x7F80, some (nanOf 8 7), 127⟩
/-- FP16 (R154). -/
def fp16 : Fmt := ⟨5, 10, 15, 0x7BFF, some 0x7C00, some (nanOf 5 10), 15⟩
/-- FP8 E4M3: no infinity, NaN 0x7F. -/
def e4m3 : Fmt := ⟨4, 3, 7, 0x7E, none, some 0x7F, 8⟩
/-- FP8 E5M2: infinity 0x7C, NaN 0x7F (R161). -/
def e5m2 : Fmt := ⟨5, 2, 15, 0x7B, some 0x7C, some 0x7F, 15⟩
/-- FP6 E3M2: neither infinity nor NaN. -/
def e3m2 : Fmt := ⟨3, 2, 3, 0x1F, none, none, 4⟩
/-- FP6 E2M3. -/
def e2m3 : Fmt := ⟨2, 3, 1, 0x1F, none, none, 2⟩
/-- FP4 E2M1. -/
def e2m1 : Fmt := ⟨2, 1, 1, 0x7, none, none, 2⟩
end Fmt

/-- Bits of a format. -/
def Fmt.width (f : Fmt) : Nat := 1 + f.eb + f.mb

/-- A decoded value. -/
inductive FVal where
  | nan
  | inf (neg : Bool)
  | fin (neg : Bool) (m : Nat) (e : Int)
deriving DecidableEq, Repr

/-- Decode the bits of a format (R154, R155). -/
def Fmt.dec (f : Fmt) (b : Nat) : FVal :=
  let neg := decide ((b / 2 ^ (f.eb + f.mb)) % 2 = 1)
  let mag := b % 2 ^ (f.eb + f.mb)
  if f.inf = some mag then .inf neg
  else if f.maxFin < mag ∧ f.nan.isSome then .nan
  else
    let ex := mag / 2 ^ f.mb
    let man := mag % 2 ^ f.mb
    if ex = 0 then .fin neg man (1 - (f.bias : Int) - f.mb)
    else .fin neg (2 ^ f.mb + man) ((ex : Int) - f.bias - f.mb)

/-- Rounding modes: nearest ties to even, toward zero, stochastic with a 12-bit draw, toward minus and plus infinity
(R206, R222). -/
inductive Rnd where
  | near
  | zero
  | stoch (r : Nat)
  | down
  | up
deriving DecidableEq, Repr

/-- n x 2^k as a fraction: numerator and denominator. -/
def scaleFrac (num den : Nat) (k : Int) : Nat × Nat :=
  if 0 ≤ k then (num * 2 ^ k.toNat, den) else (num, den * 2 ^ (-k).toNat)

/-- Floor of the binary logarithm of num / den, both positive. -/
def ilog2 (num den : Nat) : Int :=
  let e : Int := (Nat.log2 num : Int) - Nat.log2 den
  let p := scaleFrac num den (-e)
  if p.1 < p.2 then e - 1 else e

/-- One integer rounding of num / den under a mode and sign. -/
def roundInt (md : Rnd) (neg : Bool) (num den : Nat) : Nat :=
  let q := num / den
  let r := num % den
  match md with
  | .near => if 2 * r < den then q else if den < 2 * r then q + 1 else if q % 2 = 0 then q else q + 1
  | .zero => q
  | .stoch d => if d < r * 4096 / den then q + 1 else q
  | .down => if neg ∧ 0 < r then q + 1 else q
  | .up => if ¬neg ∧ 0 < r then q + 1 else q

/-- What a result beyond the largest finite value becomes: the largest finite value where the format has no infinity, the
rounding is stochastic (R206) or the mode points back toward zero; infinity otherwise. -/
def Fmt.overs (f : Fmt) (md : Rnd) (neg : Bool) : Nat :=
  match f.inf, md with
  | some i, .near => i
  | some i, .up => if neg then f.maxFin else i
  | some i, .down => if neg then i else f.maxFin
  | _, _ => f.maxFin

/-- Round the magnitude num / den (den positive) with a sign into format f. -/
def Fmt.roundFrac (f : Fmt) (md : Rnd) (neg : Bool) (num den : Nat) : Nat :=
  let sign := if neg then 2 ^ (f.eb + f.mb) else 0
  if num = 0 then (if md matches .stoch _ then 0 else sign)
  else
    let emin : Int := 1 - (f.bias : Int)
    let q : Int := max (ilog2 num den) emin - f.mb
    let p := scaleFrac num den (-q)
    let n := roundInt md neg p.1 p.2
    let bits := (q - (emin - f.mb)).toNat * 2 ^ f.mb + n
    let mag := if f.maxFin < bits then f.overs md neg else bits
    if md matches .stoch _ then (if mag = 0 then 0 else sign + mag) else sign + mag

/-- Round plus or minus m x 2^e into format f. -/
def Fmt.enc (f : Fmt) (md : Rnd) (neg : Bool) (m : Nat) (e : Int) : Nat :=
  let p := scaleFrac m 1 e
  f.roundFrac md neg p.1 p.2

/-- Signed infinity, or the largest finite value where there is none. -/
def Fmt.infBits (f : Fmt) (neg : Bool) : Nat := (f.inf.getD f.maxFin) + if neg then 2 ^ (f.eb + f.mb) else 0

/-- The format's NaN; zero where it has none. -/
def Fmt.nanBits (f : Fmt) : Nat := f.nan.getD 0

/-- Convert a decoded value into format f under a mode (R162). -/
def Fmt.ofVal (f : Fmt) (md : Rnd) (v : FVal) : Nat :=
  match v with
  | .nan => f.nanBits
  | .inf n => f.infBits n
  | .fin n m e => f.enc md n m e

/-- Signed mantissa of a finite value. -/
def smant (n : Bool) (m : Nat) : Int := if n then -(m : Int) else m

/-- Exact product. -/
def FVal.mul (a b : FVal) : FVal :=
  match a, b with
  | .nan, _ => .nan
  | _, .nan => .nan
  | .inf n, .inf k => .inf (n != k)
  | .inf n, .fin k m _ => if m = 0 then .nan else .inf (n != k)
  | .fin k m _, .inf n => if m = 0 then .nan else .inf (n != k)
  | .fin n m e, .fin k p g => .fin (n != k) (m * p) (e + g)

/-- Exact sum; an exact zero sum is +0 unless both terms are negative (IEEE 754, round to nearest). -/
def FVal.add (a b : FVal) : FVal :=
  match a, b with
  | .nan, _ => .nan
  | _, .nan => .nan
  | .inf n, .inf k => if n = k then .inf n else .nan
  | .inf n, .fin _ _ _ => .inf n
  | .fin _ _ _, .inf n => .inf n
  | .fin n m e, .fin k p g =>
    let lo := min e g
    let x := smant n m * 2 ^ (e - lo).toNat + smant k p * 2 ^ (g - lo).toNat
    if x = 0 then .fin (n && k) 0 lo else .fin (decide (x < 0)) x.natAbs lo

/-- Negation. -/
def FVal.neg : FVal → FVal
  | .nan => .nan
  | .inf n => .inf (!n)
  | .fin n m e => .fin (!n) m e

/-- Magnitude. -/
def FVal.abs : FVal → FVal
  | .nan => .nan
  | .inf _ => .inf false
  | .fin _ m e => .fin false m e

/-- a ≤ b for numbers; false with a NaN. -/
def FVal.le (a b : FVal) : Bool :=
  match a, b with
  | .nan, _ => false
  | _, .nan => false
  | .inf n, .inf k => n || !k
  | .inf n, .fin _ _ _ => n
  | .fin _ _ _, .inf k => !k
  | .fin n m e, .fin k p g =>
    let lo := min e g
    decide (smant n m * 2 ^ (e - lo).toNat ≤ smant k p * 2 ^ (g - lo).toNat)

/-- a < b for numbers. -/
def FVal.lt (a b : FVal) : Bool := a.le b && !(b.le a)

/-- The value is a NaN. -/
def FVal.isNan : FVal → Bool
  | .nan => true
  | _ => false

/-- The value is a finite number. -/
def FVal.isFin : FVal → Bool
  | .fin _ _ _ => true
  | _ => false

/-- Decode an FP32 word. -/
def f32 (w : Word) : FVal := Fmt.fp32.dec w.toNat

/-- FP32 word of a value, rounded to nearest even. -/
def toF32 (v : FVal) : Word := BitVec.ofNat 32 (Fmt.fp32.ofVal .near v)

/-- A quiet NaN made from operands that are no NaN: sign and payload free (R217, log entry 14). -/
def madeNan (a b : Word) : Word := 0x7FC00000 ||| (Config.nanMade a b &&& 0x803FFFFF)

/-- The quiet NaN the arithmetic answers: a NaN operand made quiet, either one of two; a new one where no operand is a NaN (R217, log
entry 14). -/
def quiet (a b : Word) : Word :=
  if (f32 a).isNan then (if (f32 b).isNan && !Config.nanPick a b then b else a) ||| 0x00400000
  else if (f32 b).isNan then b ||| 0x00400000
  else madeNan a b

/-- Finish an FP32 operation on operands a and b: an exact value is rounded, a NaN is quiet. -/
def fin32 (a b : Word) (v : FVal) : Word := if v.isNan then quiet a b else toF32 v

/-- FP32 addition (R217). -/
def fadd (a b : Word) : Word := fin32 a b ((f32 a).add (f32 b))

/-- FP32 negation flips the sign bit. -/
def fneg (a : Word) : Word := a ^^^ 0x80000000

/-- FP32 magnitude clears the sign bit. -/
def fabs (a : Word) : Word := a &&& 0x7FFFFFFF

/-- FP32 subtraction. -/
def fsub (a b : Word) : Word := if (f32 b).isNan then quiet a b else fadd a (fneg b)

/-- FP32 multiplication. -/
def fmul (a b : Word) : Word := fin32 a b ((f32 a).mul (f32 b))

/-- a x b + c with one rounding (R224, R261). -/
def ffma (a b c : Word) : Word :=
  let v := ((f32 a).mul (f32 b)).add (f32 c)
  if v.isNan then (if (f32 a).isNan ∨ (f32 b).isNan then quiet a b else quiet c c) else toF32 v

/-- FP32 division, rounded to nearest even (R259, R260). -/
def fdiv (a b : Word) : Word :=
  match f32 a, f32 b with
  | .nan, _ => quiet a b
  | _, .nan => quiet a b
  | .inf _, .inf _ => madeNan a b
  | .inf n, .fin k _ _ => BitVec.ofNat 32 (Fmt.fp32.infBits (n != k))
  | .fin n _ _, .inf k => if n != k then 0x80000000 else 0
  | .fin n m e, .fin k p g =>
    if p = 0 then (if m = 0 then madeNan a b else BitVec.ofNat 32 (Fmt.fp32.infBits (n != k)))
    else
      let q := scaleFrac m p (e - g)
      BitVec.ofNat 32 (Fmt.fp32.roundFrac .near (n != k) q.1 q.2)

/-- FP32 word of a natural number. -/
def f32Nat (n : Nat) : Word := toF32 (.fin false n 0)

/-- FP32 word of an integer. -/
def f32Int (n : Int) : Word := toF32 (.fin (decide (n < 0)) n.natAbs 0)

/-- FP32 word of the fraction num / den. -/
def f32Frac (num den : Nat) : Word := BitVec.ofNat 32 (Fmt.fp32.roundFrac .near false num (max den 1))

/-- The power of two 2^k as an FP32 word. -/
def f32Pow2 (k : Int) : Word := toF32 (.fin false 1 k)

/-- BF16 rounding of an FP32 word, kept as 16 bits (R162). -/
def bf16 (w : Word) : Nat :=
  match f32 w with
  | .nan => Fmt.bf16.nanBits
  | v => Fmt.bf16.ofVal .near v

/-- Widen BF16 bits to FP32: exact. -/
def ofBf16 (n : Nat) : Word := BitVec.ofNat 32 (n % 2 ^ 16 * 2 ^ 16)

/-- BF16 rounding of an FP32 word, widened again. -/
def bfRound (w : Word) : Word := ofBf16 (bf16 w)

/-- FP32 a < b. -/
def flt (a b : Word) : Bool := (f32 a).lt (f32 b)

/-- FP32 a ≤ b. -/
def fle (a b : Word) : Bool := (f32 a).le (f32 b)

/-- The larger magnitude of two FP32 words; a NaN gives way. -/
def fmaxAbs (a b : Word) : Word := if flt (fabs a) (fabs b) then fabs b else fabs a

/-- Sum of FP32 words in order, starting from the first exactly, one rounding per addition (R210). -/
def fsum : List Word → Word
  | [] => 0
  | x :: r => r.foldl fadd x

/-- Pairwise tree: adjacent results are added level by level (R228); the fuel is the number of levels. -/
def treeLevel (f : Word → Word → Word) : List Word → List Word
  | a :: b :: r => f a b :: treeLevel f r
  | l => l

/-- The tree of treeLevel to a single value. -/
def treeSum (f : Word → Word → Word) : Nat → List Word → Word
  | 0, l => l.headD 0
  | k + 1, l => treeSum f k (treeLevel f l)

/-! Approximations (R225). An exact result is held as a fraction num / den; EXP2, LOG2 and RSQRT hold theirs to well below the bound. -/

/-- Exponent of the FP32 spacing at a positive fraction; 2^-149 below the normal range. -/
def ulpExp (num den : Nat) : Int := max (ilog2 num den) (-126) - 23

/-- A result lies within a bound of the exact value, itself num / den with a sign; all three as fractions. -/
def nearFrac (x : FVal) (neg : Bool) (num den : Nat) (bound : Nat × Nat) : Bool :=
  match x with
  | .fin n m e =>
    let p := scaleFrac m 1 e
    decide ((smant n (p.1 * den) - smant neg (num * p.2)).natAbs * bound.2 ≤ bound.1 * (p.2 * den))
  | _ => false

/-- k ulp at num / den as a fraction, a part in 2^40 wider: what the computed fraction leaves off the exact value (log entry 11). -/
def ulpBound (k num den : Nat) : Nat × Nat := scaleFrac (k * (2 ^ 40 + 1)) (2 ^ 40) (ulpExp num den)

/-- A result of an approximation: a free value inside the bound, and the exact value rounded where the free one lies outside. -/
def approx (free : Word) (neg : Bool) (num den : Nat) (bound : Nat × Nat) : Word :=
  if nearFrac (f32 free) neg num den bound then free else BitVec.ofNat 32 (Fmt.fp32.roundFrac .near neg num den)

/-- RCP: 1/a within 1 ulp; special inputs as R225. -/
def frcp (a : Word) : Word :=
  match f32 a with
  | .nan => quiet a a
  | .inf n => if n then 0x80000000 else 0
  | .fin n m e =>
    if m = 0 then BitVec.ofNat 32 (Fmt.fp32.infBits n)
    else
      let q := scaleFrac 1 m (-e)
      approx (Config.rcpBits a) n q.1 q.2 (scaleFrac 1 1 (ulpExp q.1 q.2))

/-- 1/√(m x 2^e) as a numerator over 2^200. -/
def rootRecip (m : Nat) (e : Int) : Nat := let q := scaleFrac (2 ^ 400) m (-e); Nat.sqrt (q.1 / q.2)

/-- RSQRT: 1/√a within 1 ulp; special inputs as R225. -/
def frsqrt (a : Word) : Word :=
  match f32 a with
  | .nan => quiet a a
  | .inf n => if n then madeNan a a else 0
  | .fin n m e =>
    if m = 0 then BitVec.ofNat 32 (Fmt.fp32.infBits n)
    else if n then madeNan a a
    else
      let r := rootRecip m e
      approx (Config.rsqrtBits a) false r (2 ^ 200) (ulpBound 1 r (2 ^ 200))

/-- 2^(f / 2^k) as a numerator over 2^100, from the bits of f from the highest: `root` is 2^(1/2), then its own root at each bit. -/
def pow2Frac : Nat → Nat → Nat → Nat → Nat
  | 0, _, _, acc => acc
  | k + 1, f, root, acc =>
    pow2Frac k (f % 2 ^ k) (Nat.sqrt (root * 2 ^ 100)) (if 2 ^ k ≤ f then acc * root / 2 ^ 100 else acc)

/-- √2 as a numerator over 2^100. -/
def rootTwo : Nat := Nat.sqrt (2 ^ 201)

/-- 2^v of a finite v as a fraction: the power of its whole part, and 80 bits of the rest. -/
def pow2Of (v : FVal) : Nat × Nat :=
  match v with
  | .fin n m e =>
    let p := scaleFrac m 1 (e + 80)
    let t : Int := smant n (p.1 / p.2)
    scaleFrac (pow2Frac 80 (t % 2 ^ 80).toNat rootTwo (2 ^ 100)) (2 ^ 100) (t / 2 ^ 80)
  | _ => (0, 1)

/-- EXP2: 2^a within 2 ulp; special inputs as R225. -/
def fexp2 (a : Word) : Word :=
  match f32 a with
  | .nan => quiet a a
  | .inf n => if n then 0 else 0x7F800000
  | v => if (FVal.fin false 128 0).le v then 0x7F800000
         else if v.lt (.fin true 149 0) then 0
         else approx (Config.exp2Bits a) false (pow2Of v).1 (pow2Of v).2 (ulpBound 2 (pow2Of v).1 (pow2Of v).2)

/-- The first k bits of the binary logarithm of x / 2^100, for 1 ≤ x / 2^100 < 2: each squaring gives one. -/
def log2Frac : Nat → Nat → Nat → Nat
  | 0, _, acc => acc
  | k + 1, x, acc =>
    let y := x * x / 2 ^ 100
    if 2 ^ 101 ≤ y then log2Frac k (y / 2) (2 * acc + 1) else log2Frac k y (2 * acc)

/-- log2 of m x 2^e, m positive, times 2^80. -/
def log2Of (m : Nat) (e : Int) : Int := ((Nat.log2 m : Int) + e) * 2 ^ 80 + log2Frac 80 (m * 2 ^ 100 / 2 ^ Nat.log2 m) 0

/-- LOG2: within 2 ulp, and within 2^-22 for 0.5 ≤ a ≤ 2 (log entry 11); special inputs as R225. -/
def flog2 (a : Word) : Word :=
  match f32 a with
  | .nan => quiet a a
  | .inf n => if n then madeNan a a else 0x7F800000
  | .fin n m e =>
    if m = 0 then 0xFF800000
    else if n then madeNan a a
    else
      let v := log2Of m e
      let one := decide (v.natAbs ≤ 2 ^ 80)
      approx (Config.log2Bits a) (decide (v < 0)) v.natAbs (2 ^ 80) (if one then (1, 2 ^ 22) else ulpBound 2 v.natAbs (2 ^ 80))

/-- Float to a two's complement integer of w bits under a mode: saturating, NaN gives 0 (R224). -/
def toIntSat (w : Nat) (md : Rnd) (v : FVal) : Int :=
  let hi : Int := 2 ^ (w - 1) - 1
  let lo : Int := -(2 ^ (w - 1))
  match v with
  | .nan => 0
  | .inf n => if n then lo else hi
  | .fin n m e =>
    let p := scaleFrac m 1 e
    let k := smant n (roundInt md n p.1 p.2)
    max lo (min hi k)

/-- Round a value to an integer, ties to even, no limit; 0 for a NaN or infinity. -/
def roundHalfEven (v : FVal) : Int :=
  match v with
  | .fin n m e => let p := scaleFrac m 1 e; smant n (roundInt .near n p.1 p.2)
  | _ => 0

end Sys2Proof.Machine
end

