-- ==== Sys2Proof/Machine/RegMap.lean ====
section
/-!
DEFINITION. Machine/RegMap.lean: the management register map (spec/19_management_registers.md R546 to R551) and the field
tables of every chapter: address, index stride, bits, access code and reset value of each field. The resets that the
spec sources from image, flash, fuses, boot or factory are the model's choice (log entry 3).
-/
namespace Sys2Proof.Machine

/-- Access codes of R10; rsv is a reserved field (R7). -/
inductive Acc where
  | ro | rw | w1c | wo | rwl | ow | rsv
deriving DecidableEq, Repr

/-- A register field: address at index 0, bytes from one index to the next, how many indices there are, high and low bit. -/
structure Fld where
  base : Nat
  stride : Nat
  count : Nat
  hi : Nat
  lo : Nat
deriving DecidableEq, Repr

/-- One field of a register row: high bit, low bit, access, reset value. -/
structure RowFld where
  hi : Nat
  lo : Nat
  acc : Acc
  reset : Nat
deriving DecidableEq, Repr

/-- A register, or an array of one register per index. -/
structure RegRow where
  base : Nat
  stride : Nat
  count : Nat
  fields : List RowFld
deriving DecidableEq, Repr

namespace F

/-- BATT_GAIN.KAPPA (R115). -/
def BATT_GAIN_KAPPA : Fld := ⟨0x200000, 0x40, 1536, 31, 16⟩
/-- BATT_GAIN.RANGE_TRIM (R115). -/
def BATT_GAIN_RANGE_TRIM : Fld := ⟨0x200000, 0x40, 1536, 15, 8⟩
/-- BATT_GAIN.REF_BLOCK (R115). -/
def BATT_GAIN_REF_BLOCK : Fld := ⟨0x200000, 0x40, 1536, 3, 0⟩
/-- BATT_PASSES.PASSES (R115). -/
def BATT_PASSES_PASSES : Fld := ⟨0x200004, 0x40, 1536, 31, 0⟩
/-- BATT_SPLITS.SPLITS (R115). -/
def BATT_SPLITS_SPLITS : Fld := ⟨0x200008, 0x40, 1536, 31, 16⟩
/-- BATT_SPLITS.ZERO_PASSES (R115). -/
def BATT_SPLITS_ZERO_PASSES : Fld := ⟨0x200008, 0x40, 1536, 15, 0⟩
/-- BATT_FAULTS.SPARES_USED (R115). -/
def BATT_FAULTS_SPARES_USED : Fld := ⟨0x20000C, 0x40, 1536, 25, 20⟩
/-- BATT_FAULTS.REF_DISCARDS (R115). -/
def BATT_FAULTS_REF_DISCARDS : Fld := ⟨0x20000C, 0x40, 1536, 19, 16⟩
/-- BATT_FAULTS.BATT_CLIPS (R115). -/
def BATT_FAULTS_BATT_CLIPS : Fld := ⟨0x20000C, 0x40, 1536, 15, 8⟩
/-- BATT_FAULTS.BATT_I16_CLAMPS (R115). -/
def BATT_FAULTS_BATT_I16_CLAMPS : Fld := ⟨0x20000C, 0x40, 1536, 7, 0⟩
/-- BATT_EVT.REF_FAIL (R115). -/
def BATT_EVT_REF_FAIL : Fld := ⟨0x200010, 0x40, 1536, 3, 3⟩
/-- BATT_EVT.I16_CLAMP (R115). -/
def BATT_EVT_I16_CLAMP : Fld := ⟨0x200010, 0x40, 1536, 2, 2⟩
/-- BATT_EVT.HOT (R115). -/
def BATT_EVT_HOT : Fld := ⟨0x200010, 0x40, 1536, 1, 1⟩
/-- BATT_EVT.CLIPPED (R115). -/
def BATT_EVT_CLIPPED : Fld := ⟨0x200010, 0x40, 1536, 0, 0⟩
/-- BLK_CFG.THRESH (R153). -/
def BLK_CFG_THRESH : Fld := ⟨0x1000, 0x4, 1, 31, 24⟩
/-- BLK_CFG.FUL_THRESH (R153). -/
def BLK_CFG_FUL_THRESH : Fld := ⟨0x1000, 0x4, 1, 23, 16⟩
/-- BLK_CFG.ROW_REST (R153). -/
def BLK_CFG_ROW_REST : Fld := ⟨0x1000, 0x4, 1, 15, 6⟩
/-- BLK_LIMITS.STEP_ROWS (R153). -/
def BLK_LIMITS_STEP_ROWS : Fld := ⟨0x1004, 0x4, 1, 31, 16⟩
/-- BLK_LIMITS.WEAR_LIMIT (R153). -/
def BLK_LIMITS_WEAR_LIMIT : Fld := ⟨0x1004, 0x4, 1, 15, 0⟩
/-- FUL_CFG.FUL_MIN (R153). -/
def FUL_CFG_FUL_MIN : Fld := ⟨0x1008, 0x4, 1, 31, 22⟩
/-- FUL_CFG.FUL_MAX (R153). -/
def FUL_CFG_FUL_MAX : Fld := ⟨0x1008, 0x4, 1, 21, 12⟩
/-- FUL_CFG.TARGET (R153). -/
def FUL_CFG_TARGET : Fld := ⟨0x1008, 0x4, 1, 11, 0⟩
/-- BLK_WEAR.ROW_WEAR_MAX (R153). -/
def BLK_WEAR_ROW_WEAR_MAX : Fld := ⟨0x200014, 0x40, 1536, 31, 12⟩
/-- BLK_WEAR.WORN_ROWS (R153). -/
def BLK_WEAR_WORN_ROWS : Fld := ⟨0x200014, 0x40, 1536, 11, 1⟩
/-- BLK_COLS.RETIRED (R153). -/
def BLK_COLS_RETIRED : Fld := ⟨0x200018, 0x40, 1536, 31, 21⟩
/-- BLK_COLS.DARK (R153). -/
def BLK_COLS_DARK : Fld := ⟨0x200018, 0x40, 1536, 20, 10⟩
/-- BLK_NAP.NAP (R153). -/
def BLK_NAP_NAP : Fld := ⟨0x200034, 0x40, 1536, 14, 0⟩
/-- FUL_STATE.INTERVAL (R153). -/
def FUL_STATE_INTERVAL : Fld := ⟨0x20001C, 0x40, 1536, 31, 22⟩
/-- FUL_STATE.LAST_ROWS (R153). -/
def FUL_STATE_LAST_ROWS : Fld := ⟨0x20001C, 0x40, 1536, 21, 11⟩
/-- FUL_STATE.AGE (R153). -/
def FUL_STATE_AGE : Fld := ⟨0x20001C, 0x40, 1536, 10, 0⟩
/-- BLK_EVT.UNSOUND (R153). -/
def BLK_EVT_UNSOUND : Fld := ⟨0x200020, 0x40, 1536, 7, 7⟩
/-- BLK_EVT.REF_BLOCK_FAIL (R153). -/
def BLK_EVT_REF_BLOCK_FAIL : Fld := ⟨0x200020, 0x40, 1536, 6, 6⟩
/-- BLK_EVT.STARVED (R153). -/
def BLK_EVT_STARVED : Fld := ⟨0x200020, 0x40, 1536, 5, 5⟩
/-- BLK_EVT.WORN (R153). -/
def BLK_EVT_WORN : Fld := ⟨0x200020, 0x40, 1536, 4, 4⟩
/-- BLK_EVT.DARK (R153). -/
def BLK_EVT_DARK : Fld := ⟨0x200020, 0x40, 1536, 3, 3⟩
/-- BLK_EVT.RETIRED (R153). -/
def BLK_EVT_RETIRED : Fld := ⟨0x200020, 0x40, 1536, 2, 2⟩
/-- BLK_EVT.STUCK (R153). -/
def BLK_EVT_STUCK : Fld := ⟨0x200020, 0x40, 1536, 1, 1⟩
/-- BLK_EVT.SHORT (R153). -/
def BLK_EVT_SHORT : Fld := ⟨0x200020, 0x40, 1536, 0, 0⟩
/-- BLK_DEBT_W.WEIGHTS (R153). -/
def BLK_DEBT_W_WEIGHTS : Fld := ⟨0x30003C, 0x100, 1024, 31, 0⟩
/-- BLK_DEBT_R.HOLDS (R153). -/
def BLK_DEBT_R_HOLDS : Fld := ⟨0x300040, 0x100, 1024, 31, 21⟩
/-- BLK_DEBT_R.ROWS (R153). -/
def BLK_DEBT_R_ROWS : Fld := ⟨0x300040, 0x100, 1024, 20, 0⟩
/-- NUM_CFG.ESC_HOLD (R188). -/
def NUM_CFG_ESC_HOLD : Fld := ⟨0x100C, 0x4, 1, 31, 24⟩
/-- NUM_CFG.FALLBACK_STEPS (R188). -/
def NUM_CFG_FALLBACK_STEPS : Fld := ⟨0x100C, 0x4, 1, 23, 12⟩
/-- BAND_CFG.OVF_LIMIT (R188). -/
def BAND_CFG_OVF_LIMIT : Fld := ⟨0x1010, 0x4, 1, 31, 16⟩
/-- BAND_CFG.ADD_RATE (R188). -/
def BAND_CFG_ADD_RATE : Fld := ⟨0x1010, 0x4, 1, 15, 8⟩
/-- NUM_SAT.SAT (R188). -/
def NUM_SAT_SAT : Fld := ⟨0x300044, 0x100, 1024, 31, 0⟩
/-- NUM_ZERO.ZERO (R188). -/
def NUM_ZERO_ZERO : Fld := ⟨0x300048, 0x100, 1024, 31, 0⟩
/-- NUM_ESC.ESCALATIONS (R188). -/
def NUM_ESC_ESCALATIONS : Fld := ⟨0x30004C, 0x100, 1024, 31, 16⟩
/-- NUM_ESC.NAN_BLOCKS (R188). -/
def NUM_ESC_NAN_BLOCKS : Fld := ⟨0x30004C, 0x100, 1024, 15, 0⟩
/-- BAND_OVF.OVF (R188). -/
def BAND_OVF_OVF : Fld := ⟨0x300050, 0x100, 1024, 31, 0⟩
/-- NUM_EVT.NAN (R188). -/
def NUM_EVT_NAN : Fld := ⟨0x300054, 0x100, 1024, 3, 3⟩
/-- NUM_EVT.TOP_RUNG (R188). -/
def NUM_EVT_TOP_RUNG : Fld := ⟨0x300054, 0x100, 1024, 2, 2⟩
/-- NUM_EVT.ESCALATED (R188). -/
def NUM_EVT_ESCALATED : Fld := ⟨0x300054, 0x100, 1024, 1, 1⟩
/-- NUM_EVT.FALLBACK (R188). -/
def NUM_EVT_FALLBACK : Fld := ⟨0x300054, 0x100, 1024, 0, 0⟩
/-- BAND_BATT.STATIC (R188). -/
def BAND_BATT_STATIC : Fld := ⟨0x200024, 0x40, 1536, 24, 18⟩
/-- BAND_BATT.FALLBACK (R188). -/
def BAND_BATT_FALLBACK : Fld := ⟨0x200024, 0x40, 1536, 17, 17⟩
/-- BAND_BATT.ADAPT (R188). -/
def BAND_BATT_ADAPT : Fld := ⟨0x200024, 0x40, 1536, 16, 16⟩
/-- BAND_BATT.FALLBACK_LEFT (R188). -/
def BAND_BATT_FALLBACK_LEFT : Fld := ⟨0x200024, 0x40, 1536, 15, 0⟩
/-- NUM_ACC.I32_SAT (R236). -/
def NUM_ACC_I32_SAT : Fld := ⟨0x100000, 0x20, 192, 31, 20⟩
/-- NUM_ACC.NAN_SCALE (R236). -/
def NUM_ACC_NAN_SCALE : Fld := ⟨0x100000, 0x20, 192, 19, 8⟩
/-- NUM_ACC.ECC_CORR (R236). -/
def NUM_ACC_ECC_CORR : Fld := ⟨0x100000, 0x20, 192, 7, 0⟩
/-- NUM_CORE_EVT.ECC_CORR (R236). -/
def NUM_CORE_EVT_ECC_CORR : Fld := ⟨0x100004, 0x20, 192, 3, 3⟩
/-- NUM_CORE_EVT.DMA_BOUNDS (R236). -/
def NUM_CORE_EVT_DMA_BOUNDS : Fld := ⟨0x100004, 0x20, 192, 2, 2⟩
/-- NUM_CORE_EVT.NAN_SCALE (R236). -/
def NUM_CORE_EVT_NAN_SCALE : Fld := ⟨0x100004, 0x20, 192, 1, 1⟩
/-- NUM_CORE_EVT.I32_SAT (R236). -/
def NUM_CORE_EVT_I32_SAT : Fld := ⟨0x100004, 0x20, 192, 0, 0⟩
/-- CTX_STEP_LO.STEP_LO (R274). -/
def CTX_STEP_LO_STEP_LO : Fld := ⟨0x300014, 0x100, 1024, 31, 0⟩
/-- CTX_STEP_HI.STEP_HI (R274). -/
def CTX_STEP_HI_STEP_HI : Fld := ⟨0x300018, 0x100, 1024, 31, 0⟩
/-- CTX_TRAIN.HBX_POLICY (R274). -/
def CTX_TRAIN_HBX_POLICY : Fld := ⟨0x30001C, 0x100, 1024, 7, 6⟩
/-- CTX_TRAIN.MASTER_BWD (R274). -/
def CTX_TRAIN_MASTER_BWD : Fld := ⟨0x30001C, 0x100, 1024, 5, 5⟩
/-- CTX_TRAIN.CLIP (R274). -/
def CTX_TRAIN_CLIP : Fld := ⟨0x30001C, 0x100, 1024, 4, 4⟩
/-- CTX_TRAIN.OPT (R274). -/
def CTX_TRAIN_OPT : Fld := ⟨0x30001C, 0x100, 1024, 3, 2⟩
/-- CTX_TRAIN.AUTO_PAUSED (R274). -/
def CTX_TRAIN_AUTO_PAUSED : Fld := ⟨0x30001C, 0x100, 1024, 1, 1⟩
/-- CTX_TRAIN.PAUSE (R274). -/
def CTX_TRAIN_PAUSE : Fld := ⟨0x30001C, 0x100, 1024, 0, 0⟩
/-- CTX_LR_SCALE.LR_SCALE (R274). -/
def CTX_LR_SCALE_LR_SCALE : Fld := ⟨0x300020, 0x100, 1024, 31, 0⟩
/-- CTX_LOSS.LOSS (R274). -/
def CTX_LOSS_LOSS : Fld := ⟨0x300024, 0x100, 1024, 31, 0⟩
/-- CTX_TRAIN_STAT.SKIPPED (R274). -/
def CTX_TRAIN_STAT_SKIPPED : Fld := ⟨0x300028, 0x100, 1024, 31, 16⟩
/-- CTX_TRAIN_STAT.CONSEC_SKIP (R274). -/
def CTX_TRAIN_STAT_CONSEC_SKIP : Fld := ⟨0x300028, 0x100, 1024, 15, 8⟩
/-- CTX_TRAIN_STAT.SHRUNK (R274). -/
def CTX_TRAIN_STAT_SHRUNK : Fld := ⟨0x300028, 0x100, 1024, 7, 0⟩
/-- HBX_SIZE.SIZE (R274). -/
def HBX_SIZE_SIZE : Fld := ⟨0x300030, 0x100, 1024, 31, 0⟩
/-- HBX_PEAK.PEAK (R274). -/
def HBX_PEAK_PEAK : Fld := ⟨0x300034, 0x100, 1024, 31, 0⟩
/-- HBX_COUNTS.RECOMP_STEPS (R274). -/
def HBX_COUNTS_RECOMP_STEPS : Fld := ⟨0x300038, 0x100, 1024, 31, 16⟩
/-- HBX_COUNTS.ABORTS (R274). -/
def HBX_COUNTS_ABORTS : Fld := ⟨0x300038, 0x100, 1024, 15, 0⟩
/-- CTX_TRAIN_EVT.SPILLED (R274). -/
def CTX_TRAIN_EVT_SPILLED : Fld := ⟨0x30002C, 0x100, 1024, 4, 4⟩
/-- CTX_TRAIN_EVT.ABORTED (R274). -/
def CTX_TRAIN_EVT_ABORTED : Fld := ⟨0x30002C, 0x100, 1024, 3, 3⟩
/-- CTX_TRAIN_EVT.SHRUNK (R274). -/
def CTX_TRAIN_EVT_SHRUNK : Fld := ⟨0x30002C, 0x100, 1024, 2, 2⟩
/-- CTX_TRAIN_EVT.RECOMPUTED (R274). -/
def CTX_TRAIN_EVT_RECOMPUTED : Fld := ⟨0x30002C, 0x100, 1024, 1, 1⟩
/-- CTX_TRAIN_EVT.NONFINITE (R274). -/
def CTX_TRAIN_EVT_NONFINITE : Fld := ⟨0x30002C, 0x100, 1024, 0, 0⟩
/-- EXCH_CFG.CHK_T (R303). -/
def EXCH_CFG_CHK_T : Fld := ⟨0x1014, 0x4, 1, 31, 16⟩
/-- EXCH_CFG.EXCH_WAIT (R303). -/
def EXCH_CFG_EXCH_WAIT : Fld := ⟨0x1014, 0x4, 1, 15, 0⟩
/-- EXCH_STEP.ATTEMPT (R303). -/
def EXCH_STEP_ATTEMPT : Fld := ⟨0x300058, 0x100, 1024, 31, 24⟩
/-- EXCH_STEP.RETRIES (R303). -/
def EXCH_STEP_RETRIES : Fld := ⟨0x300058, 0x100, 1024, 21, 18⟩
/-- EXCH_STEP.MEMBERS (R303). -/
def EXCH_STEP_MEMBERS : Fld := ⟨0x300058, 0x100, 1024, 17, 0⟩
/-- EXCH_CHK.CHECKED (R303). -/
def EXCH_CHK_CHECKED : Fld := ⟨0x30005C, 0x100, 1024, 31, 16⟩
/-- EXCH_CHK.MISMATCH (R303). -/
def EXCH_CHK_MISMATCH : Fld := ⟨0x30005C, 0x100, 1024, 15, 8⟩
/-- EXCH_CHK.ABANDONED (R303). -/
def EXCH_CHK_ABANDONED : Fld := ⟨0x30005C, 0x100, 1024, 7, 0⟩
/-- EXCH_LOST.LOST (R303). -/
def EXCH_LOST_LOST : Fld := ⟨0x300060, 0x100, 1024, 31, 24⟩
/-- EXCH_LOST.LAST_VALID (R303). -/
def EXCH_LOST_LAST_VALID : Fld := ⟨0x300060, 0x100, 1024, 17, 17⟩
/-- EXCH_LOST.LAST (R303). -/
def EXCH_LOST_LAST : Fld := ⟨0x300060, 0x100, 1024, 16, 0⟩
/-- EXCH_STALE.STALE (R303). -/
def EXCH_STALE_STALE : Fld := ⟨0x300064, 0x100, 1024, 31, 0⟩
/-- EXCH_EVT.HELD (R303). -/
def EXCH_EVT_HELD : Fld := ⟨0x300068, 0x100, 1024, 4, 4⟩
/-- EXCH_EVT.SHARED_PATH (R303). -/
def EXCH_EVT_SHARED_PATH : Fld := ⟨0x300068, 0x100, 1024, 3, 3⟩
/-- EXCH_EVT.MEMBER_LOST (R303). -/
def EXCH_EVT_MEMBER_LOST : Fld := ⟨0x300068, 0x100, 1024, 2, 2⟩
/-- EXCH_EVT.ABANDONED (R303). -/
def EXCH_EVT_ABANDONED : Fld := ⟨0x300068, 0x100, 1024, 1, 1⟩
/-- EXCH_EVT.MISMATCH (R303). -/
def EXCH_EVT_MISMATCH : Fld := ⟨0x300068, 0x100, 1024, 0, 0⟩
/-- LNK_ID.UNLISTED (R345). -/
def LNK_ID_UNLISTED : Fld := ⟨0x9000, 0x4, 1, 19, 19⟩
/-- LNK_ID.ROLE (R345). -/
def LNK_ID_ROLE : Fld := ⟨0x9000, 0x4, 1, 18, 17⟩
/-- LNK_ID.MODULE_ID (R345). -/
def LNK_ID_MODULE_ID : Fld := ⟨0x9000, 0x4, 1, 16, 0⟩
/-- LNK_TICK.UNALIGNED (R345). -/
def LNK_TICK_UNALIGNED : Fld := ⟨0x9004, 0x4, 1, 15, 15⟩
/-- LNK_TICK.TREE (R345). -/
def LNK_TICK_TREE : Fld := ⟨0x9004, 0x4, 1, 14, 14⟩
/-- LNK_TICK.DEPTH (R345). -/
def LNK_TICK_DEPTH : Fld := ⟨0x9004, 0x4, 1, 13, 11⟩
/-- LNK_TICK.PARENT_PORT (R345). -/
def LNK_TICK_PARENT_PORT : Fld := ⟨0x9004, 0x4, 1, 10, 6⟩
/-- LNK_TICK_OFS.THETA (R345). -/
def LNK_TICK_OFS_THETA : Fld := ⟨0x9008, 0x4, 1, 31, 0⟩
/-- LNK_PORT.PEER_ID (R345). -/
def LNK_PORT_PEER_ID : Fld := ⟨0x9100, 0x20, 32, 31, 15⟩
/-- LNK_PORT.PEER_PORT (R345). -/
def LNK_PORT_PEER_PORT : Fld := ⟨0x9100, 0x20, 32, 14, 10⟩
/-- LNK_PORT.ATTEMPTS (R345). -/
def LNK_PORT_ATTEMPTS : Fld := ⟨0x9100, 0x20, 32, 9, 4⟩
/-- LNK_PORT.STATE (R345). -/
def LNK_PORT_STATE : Fld := ⟨0x9100, 0x20, 32, 3, 0⟩
/-- LNK_FEC_CORR.CORR (R345). -/
def LNK_FEC_CORR_CORR : Fld := ⟨0x9104, 0x20, 32, 31, 0⟩
/-- LNK_FEC_UNC.UNCORR (R345). -/
def LNK_FEC_UNC_UNCORR : Fld := ⟨0x9108, 0x20, 32, 31, 16⟩
/-- LNK_FEC_UNC.RESENDS (R345). -/
def LNK_FEC_UNC_RESENDS : Fld := ⟨0x9108, 0x20, 32, 15, 0⟩
/-- LNK_ERR.TAG_FAILS (R345). -/
def LNK_ERR_TAG_FAILS : Fld := ⟨0x910C, 0x20, 32, 31, 24⟩
/-- LNK_ERR.DROP_HOPS (R345). -/
def LNK_ERR_DROP_HOPS : Fld := ⟨0x910C, 0x20, 32, 23, 16⟩
/-- LNK_ERR.DROP_UNROUTE (R345). -/
def LNK_ERR_DROP_UNROUTE : Fld := ⟨0x910C, 0x20, 32, 15, 8⟩
/-- LNK_ERR.DROP_BOUNDS (R345). -/
def LNK_ERR_DROP_BOUNDS : Fld := ⟨0x910C, 0x20, 32, 7, 0⟩
/-- LNK_KEY.EXCHANGES (R345). -/
def LNK_KEY_EXCHANGES : Fld := ⟨0x9110, 0x20, 32, 31, 16⟩
/-- LNK_KEY.EPOCH (R345). -/
def LNK_KEY_EPOCH : Fld := ⟨0x9110, 0x20, 32, 15, 0⟩
/-- LNK_CTRL.RETRAIN (R345). -/
def LNK_CTRL_RETRAIN : Fld := ⟨0x9114, 0x20, 32, 1, 1⟩
/-- LNK_CTRL.UNFENCE (R345). -/
def LNK_CTRL_UNFENCE : Fld := ⟨0x9114, 0x20, 32, 0, 0⟩
/-- LNK_EVT.LASER_LOW (R345). -/
def LNK_EVT_LASER_LOW : Fld := ⟨0x9118, 0x20, 32, 4, 4⟩
/-- LNK_EVT.RESEND_LIMIT (R345). -/
def LNK_EVT_RESEND_LIMIT : Fld := ⟨0x9118, 0x20, 32, 3, 3⟩
/-- LNK_EVT.DOWN (R345). -/
def LNK_EVT_DOWN : Fld := ⟨0x9118, 0x20, 32, 2, 2⟩
/-- LNK_EVT.AUTH_FAIL (R345). -/
def LNK_EVT_AUTH_FAIL : Fld := ⟨0x9118, 0x20, 32, 1, 1⟩
/-- LNK_EVT.MISMATCH (R345). -/
def LNK_EVT_MISMATCH : Fld := ⟨0x9118, 0x20, 32, 0, 0⟩
/-- LNK_ROUTE.ENTRY (R345). -/
def LNK_ROUTE_ENTRY : Fld := ⟨0x800000, 0x4, 131072, 31, 0⟩
/-- ETH_PORT.LINK_UP (R367). -/
def ETH_PORT_LINK_UP : Fld := ⟨0x8100, 0x100, 2, 31, 31⟩
/-- ETH_PORT.MACSEC_ON (R367). -/
def ETH_PORT_MACSEC_ON : Fld := ⟨0x8100, 0x100, 2, 30, 30⟩
/-- ETH_PORT.VLAN_ON (R367). -/
def ETH_PORT_VLAN_ON : Fld := ⟨0x8100, 0x100, 2, 29, 29⟩
/-- ETH_PORT.PTP_LOCKED (R367). -/
def ETH_PORT_PTP_LOCKED : Fld := ⟨0x8100, 0x100, 2, 28, 28⟩
/-- ETH_PORT.VID (R367). -/
def ETH_PORT_VID : Fld := ⟨0x8100, 0x100, 2, 27, 16⟩
/-- ETH_PORT_MAC_LO.MAC (R367). -/
def ETH_PORT_MAC_LO_MAC : Fld := ⟨0x8104, 0x100, 2, 31, 0⟩
/-- ETH_PORT_MAC_HI.MAC (R367). -/
def ETH_PORT_MAC_HI_MAC : Fld := ⟨0x8108, 0x100, 2, 15, 0⟩
/-- ETH_DROP.FILTER (R367). -/
def ETH_DROP_FILTER : Fld := ⟨0x810C, 0x100, 2, 31, 24⟩
/-- ETH_DROP.SESSION (R367). -/
def ETH_DROP_SESSION : Fld := ⟨0x810C, 0x100, 2, 23, 16⟩
/-- ETH_DROP.REASM (R367). -/
def ETH_DROP_REASM : Fld := ⟨0x810C, 0x100, 2, 15, 8⟩
/-- ETH_DROP.MACSEC (R367). -/
def ETH_DROP_MACSEC : Fld := ⟨0x810C, 0x100, 2, 7, 0⟩
/-- ETH_TX_LOST.RESPONSES (R367). -/
def ETH_TX_LOST_RESPONSES : Fld := ⟨0x8000, 0x4, 1, 31, 16⟩
/-- ETH_TX_LOST.STREAMS (R367). -/
def ETH_TX_LOST_STREAMS : Fld := ⟨0x8000, 0x4, 1, 15, 0⟩
/-- HSESS_CFG.VALID (R367). -/
def HSESS_CFG_VALID : Fld := ⟨0x400000, 0x20, 4096, 31, 31⟩
/-- HSESS_CFG.V6 (R367). -/
def HSESS_CFG_V6 : Fld := ⟨0x400000, 0x20, 4096, 30, 30⟩
/-- HSESS_CFG.STREAM (R367). -/
def HSESS_CFG_STREAM : Fld := ⟨0x400000, 0x20, 4096, 29, 29⟩
/-- HSESS_CFG.HOME_PORT (R367). -/
def HSESS_CFG_HOME_PORT : Fld := ⟨0x400000, 0x20, 4096, 28, 28⟩
/-- HSESS_CFG.CTX (R367). -/
def HSESS_CFG_CTX : Fld := ⟨0x400000, 0x20, 4096, 25, 16⟩
/-- HSESS_CFG.PEER_PORT (R367). -/
def HSESS_CFG_PEER_PORT : Fld := ⟨0x400000, 0x20, 4096, 15, 0⟩
/-- HSESS_ADDR0.ADDR (R367). -/
def HSESS_ADDR0_ADDR : Fld := ⟨0x400004, 0x20, 4096, 31, 0⟩
/-- HSESS_ADDR1.ADDR (R367). -/
def HSESS_ADDR1_ADDR : Fld := ⟨0x400008, 0x20, 4096, 31, 0⟩
/-- HSESS_ADDR2.ADDR (R367). -/
def HSESS_ADDR2_ADDR : Fld := ⟨0x40000C, 0x20, 4096, 31, 0⟩
/-- HSESS_ADDR3.ADDR (R367). -/
def HSESS_ADDR3_ADDR : Fld := ⟨0x400010, 0x20, 4096, 31, 0⟩
/-- HSESS_SEQ_LO.SEQ (R367). -/
def HSESS_SEQ_LO_SEQ : Fld := ⟨0x400014, 0x20, 4096, 31, 0⟩
/-- HSESS_SEQ_HI.SEQ (R367). -/
def HSESS_SEQ_HI_SEQ : Fld := ⟨0x400018, 0x20, 4096, 31, 0⟩
/-- HSESS_DISC.DISCARDED (R367). -/
def HSESS_DISC_DISCARDED : Fld := ⟨0x40001C, 0x20, 4096, 31, 0⟩
/-- OWN_STATE.OWNER (R367). -/
def OWN_STATE_OWNER : Fld := ⟨0x7000, 0x4, 1, 31, 16⟩
/-- OWN_STATE.OPEN (R367). -/
def OWN_STATE_OPEN : Fld := ⟨0x7000, 0x4, 1, 15, 8⟩
/-- OWN_STATE.LEASE (R367). -/
def OWN_STATE_LEASE : Fld := ⟨0x7000, 0x4, 1, 7, 0⟩
/-- OWN_SESS.STATE (R367). -/
def OWN_SESS_STATE : Fld := ⟨0x7010, 0x4, 8, 31, 30⟩
/-- OWN_SESS.OWNER_ROLE (R367). -/
def OWN_SESS_OWNER_ROLE : Fld := ⟨0x7010, 0x4, 8, 29, 29⟩
/-- OWN_SESS.IDLE (R367). -/
def OWN_SESS_IDLE : Fld := ⟨0x7010, 0x4, 8, 23, 16⟩
/-- CTX_STATE.GEN (R390). -/
def CTX_STATE_GEN : Fld := ⟨0x300000, 0x100, 1024, 31, 16⟩
/-- CTX_STATE.UNPARK_PENDING (R390). -/
def CTX_STATE_UNPARK_PENDING : Fld := ⟨0x300000, 0x100, 1024, 7, 7⟩
/-- CTX_STATE.MODULE_HELD (R390). -/
def CTX_STATE_MODULE_HELD : Fld := ⟨0x300000, 0x100, 1024, 6, 6⟩
/-- CTX_STATE.DIGITAL_ONLY (R390). -/
def CTX_STATE_DIGITAL_ONLY : Fld := ⟨0x300000, 0x100, 1024, 5, 5⟩
/-- CTX_STATE.STATE (R390). -/
def CTX_STATE_STATE : Fld := ⟨0x300000, 0x100, 1024, 2, 0⟩
/-- CTX_CTRL.WEIGHT (R390). -/
def CTX_CTRL_WEIGHT : Fld := ⟨0x300004, 0x100, 1024, 31, 24⟩
/-- CTX_CTRL.CMD (R390). -/
def CTX_CTRL_CMD : Fld := ⟨0x300004, 0x100, 1024, 2, 0⟩
/-- CTX_FAULT.FRAME (R390). -/
def CTX_FAULT_FRAME : Fld := ⟨0x300008, 0x100, 1024, 31, 16⟩
/-- CTX_FAULT.CAUSE (R390). -/
def CTX_FAULT_CAUSE : Fld := ⟨0x300008, 0x100, 1024, 7, 0⟩
/-- CTX_STALE.DATA (R390). -/
def CTX_STALE_DATA : Fld := ⟨0x30000C, 0x100, 1024, 31, 16⟩
/-- CTX_STALE.SIGNALS (R390). -/
def CTX_STALE_SIGNALS : Fld := ⟨0x30000C, 0x100, 1024, 15, 0⟩
/-- CTX_EVT.CMD_IGNORED (R390). -/
def CTX_EVT_CMD_IGNORED : Fld := ⟨0x300010, 0x100, 1024, 3, 3⟩
/-- CTX_EVT.FAULTED (R390). -/
def CTX_EVT_FAULTED : Fld := ⟨0x300010, 0x100, 1024, 2, 2⟩
/-- CTX_EVT.DRAIN_FORCED (R390). -/
def CTX_EVT_DRAIN_FORCED : Fld := ⟨0x300010, 0x100, 1024, 1, 1⟩
/-- CTX_EVT.STALE (R390). -/
def CTX_EVT_STALE : Fld := ⟨0x300010, 0x100, 1024, 0, 0⟩
/-- SYNC_CORE.ACTIVE_CTX (R390). -/
def SYNC_CORE_ACTIVE_CTX : Fld := ⟨0x100008, 0x20, 192, 31, 22⟩
/-- SYNC_CORE.CACHED (R390). -/
def SYNC_CORE_CACHED : Fld := ⟨0x100008, 0x20, 192, 21, 18⟩
/-- SYNC_CORE.WAITING (R390). -/
def SYNC_CORE_WAITING : Fld := ⟨0x100008, 0x20, 192, 11, 0⟩
/-- SYNC_SWITCH.SWITCHES (R390). -/
def SYNC_SWITCH_SWITCHES : Fld := ⟨0x10000C, 0x20, 192, 31, 16⟩
/-- SYNC_SWITCH.MISSES (R390). -/
def SYNC_SWITCH_MISSES : Fld := ⟨0x10000C, 0x20, 192, 15, 0⟩
/-- SYNC_VAL.WORD (R390). -/
def SYNC_VAL_WORD : Fld := ⟨0x110000, 0x4, 12288, 31, 0⟩
/-- SYNC_LANDED.WORD (R390). -/
def SYNC_LANDED_WORD : Fld := ⟨0x120000, 0x4, 12288, 31, 0⟩
/-- SYNC_PROMISED.WORD (R390). -/
def SYNC_PROMISED_WORD : Fld := ⟨0x130000, 0x4, 12288, 31, 0⟩
/-- FLT_STATE.OOS (R414). -/
def FLT_STATE_OOS : Fld := ⟨0x2000, 0x4, 1, 31, 31⟩
/-- FLT_STATE.CAUSE (R414). -/
def FLT_STATE_CAUSE : Fld := ⟨0x2000, 0x4, 1, 30, 27⟩
/-- FLT_STATE.IN_SERVICE (R414). -/
def FLT_STATE_IN_SERVICE : Fld := ⟨0x2000, 0x4, 1, 26, 19⟩
/-- FLT_STATE.MIN_CORES (R414). -/
def FLT_STATE_MIN_CORES : Fld := ⟨0x2000, 0x4, 1, 18, 11⟩
/-- FLT_STATE.FENCE_FAILS (R414). -/
def FLT_STATE_FENCE_FAILS : Fld := ⟨0x2000, 0x4, 1, 10, 7⟩
/-- FLT_STATE.RESETTING (R414). -/
def FLT_STATE_RESETTING : Fld := ⟨0x2000, 0x4, 1, 6, 3⟩
/-- FLT_RATES.KILLS_1S (R414). -/
def FLT_RATES_KILLS_1S : Fld := ⟨0x2004, 0x4, 1, 31, 16⟩
/-- FLT_RATES.DEV_10MIN (R414). -/
def FLT_RATES_DEV_10MIN : Fld := ⟨0x2004, 0x4, 1, 15, 8⟩
/-- FLT_COUNTS.KILLS (R414). -/
def FLT_COUNTS_KILLS : Fld := ⟨0x2008, 0x4, 1, 31, 16⟩
/-- FLT_COUNTS.DEVICE (R414). -/
def FLT_COUNTS_DEVICE : Fld := ⟨0x2008, 0x4, 1, 15, 12⟩
/-- FLT_COUNTS.DIE (R414). -/
def FLT_COUNTS_DIE : Fld := ⟨0x2008, 0x4, 1, 11, 8⟩
/-- FLT_COUNTS.CORE (R414). -/
def FLT_COUNTS_CORE : Fld := ⟨0x2008, 0x4, 1, 7, 0⟩
/-- FLT_CTRL.OOS (R414). -/
def FLT_CTRL_OOS : Fld := ⟨0x200C, 0x4, 1, 1, 1⟩
/-- FLT_CTRL.RESET (R414). -/
def FLT_CTRL_RESET : Fld := ⟨0x200C, 0x4, 1, 0, 0⟩
/-- FLT_CORE.ROLE (R414). -/
def FLT_CORE_ROLE : Fld := ⟨0x100010, 0x20, 192, 31, 30⟩
/-- FLT_CORE.OBSERVED (R414). -/
def FLT_CORE_OBSERVED : Fld := ⟨0x100010, 0x20, 192, 29, 29⟩
/-- FLT_CORE.FAILS (R414). -/
def FLT_CORE_FAILS : Fld := ⟨0x100010, 0x20, 192, 28, 25⟩
/-- FLT_CORE.LOGICAL (R414). -/
def FLT_CORE_LOGICAL : Fld := ⟨0x100010, 0x20, 192, 24, 17⟩
/-- FLT_LOG.NEXT (R414). -/
def FLT_LOG_NEXT : Fld := ⟨0x2010, 0x4, 1, 31, 8⟩
/-- FLT_LOG.LOST (R414). -/
def FLT_LOG_LOST : Fld := ⟨0x2010, 0x4, 1, 7, 0⟩
/-- FLT_SE_CFG.DIGEST_STEPS (R437). -/
def FLT_SE_CFG_DIGEST_STEPS : Fld := ⟨0x101C, 0x4, 1, 31, 28⟩
/-- FLT_SE_CFG.MARGIN_EVERY (R437). -/
def FLT_SE_CFG_MARGIN_EVERY : Fld := ⟨0x101C, 0x4, 1, 27, 16⟩
/-- FLT_SE_CFG.RANGE_E (R437). -/
def FLT_SE_CFG_RANGE_E : Fld := ⟨0x101C, 0x4, 1, 15, 11⟩
/-- FLT_SE_CFG.RANGE_ACTION (R437). -/
def FLT_SE_CFG_RANGE_ACTION : Fld := ⟨0x101C, 0x4, 1, 10, 10⟩
/-- FLT_SE_CFG.F_NUM (R437). -/
def FLT_SE_CFG_F_NUM : Fld := ⟨0x101C, 0x4, 1, 9, 3⟩
/-- FLT_DUP.DUPLICATED (R437). -/
def FLT_DUP_DUPLICATED : Fld := ⟨0x100014, 0x20, 192, 31, 16⟩
/-- FLT_DUP.SKIPPED (R437). -/
def FLT_DUP_SKIPPED : Fld := ⟨0x100014, 0x20, 192, 15, 8⟩
/-- FLT_DUP.MISMATCH (R437). -/
def FLT_DUP_MISMATCH : Fld := ⟨0x100014, 0x20, 192, 7, 0⟩
/-- FLT_MARGIN.VISITS (R437). -/
def FLT_MARGIN_VISITS : Fld := ⟨0x100018, 0x20, 192, 31, 16⟩
/-- FLT_MARGIN.FAILS (R437). -/
def FLT_MARGIN_FAILS : Fld := ⟨0x100018, 0x20, 192, 15, 8⟩
/-- FLT_MARGIN.LAST_TEST (R437). -/
def FLT_MARGIN_LAST_TEST : Fld := ⟨0x100018, 0x20, 192, 7, 0⟩
/-- FLT_OBS.FINDINGS (R437). -/
def FLT_OBS_FINDINGS : Fld := ⟨0x10001C, 0x20, 192, 31, 24⟩
/-- FLT_OBS.OBS_LEFT (R437). -/
def FLT_OBS_OBS_LEFT : Fld := ⟨0x10001C, 0x20, 192, 16, 0⟩
/-- FLT_SHADOW.SHADOWS (R437). -/
def FLT_SHADOW_SHADOWS : Fld := ⟨0x200028, 0x40, 1536, 31, 16⟩
/-- FLT_SHADOW.MISMATCH (R437). -/
def FLT_SHADOW_MISMATCH : Fld := ⟨0x200028, 0x40, 1536, 15, 8⟩
/-- FLT_SHADOW.REF_REPEAT (R437). -/
def FLT_SHADOW_REF_REPEAT : Fld := ⟨0x200028, 0x40, 1536, 7, 0⟩
/-- FLT_DIGEST.COMPARES (R437). -/
def FLT_DIGEST_COMPARES : Fld := ⟨0x30006C, 0x100, 1024, 31, 16⟩
/-- FLT_DIGEST.DISPUTES (R437). -/
def FLT_DIGEST_DISPUTES : Fld := ⟨0x30006C, 0x100, 1024, 15, 8⟩
/-- FLT_DIGEST.EXPELLED (R437). -/
def FLT_DIGEST_EXPELLED : Fld := ⟨0x30006C, 0x100, 1024, 7, 4⟩
/-- FLT_DIGEST.HELD (R437). -/
def FLT_DIGEST_HELD : Fld := ⟨0x30006C, 0x100, 1024, 3, 0⟩
/-- FLT_RANGE.FAILS (R437). -/
def FLT_RANGE_FAILS : Fld := ⟨0x300070, 0x100, 1024, 31, 16⟩
/-- FLT_RANGE.SKIPPED (R437). -/
def FLT_RANGE_SKIPPED : Fld := ⟨0x300070, 0x100, 1024, 15, 0⟩
/-- FLT_SE_EVT.DIGEST_HELD (R437). -/
def FLT_SE_EVT_DIGEST_HELD : Fld := ⟨0x2014, 0x4, 1, 6, 6⟩
/-- FLT_SE_EVT.EXPELLED (R437). -/
def FLT_SE_EVT_EXPELLED : Fld := ⟨0x2014, 0x4, 1, 5, 5⟩
/-- FLT_SE_EVT.RANGE (R437). -/
def FLT_SE_EVT_RANGE : Fld := ⟨0x2014, 0x4, 1, 4, 4⟩
/-- FLT_SE_EVT.REF_REPEAT (R437). -/
def FLT_SE_EVT_REF_REPEAT : Fld := ⟨0x2014, 0x4, 1, 3, 3⟩
/-- FLT_SE_EVT.SHADOW (R437). -/
def FLT_SE_EVT_SHADOW : Fld := ⟨0x2014, 0x4, 1, 2, 2⟩
/-- FLT_SE_EVT.MARGIN (R437). -/
def FLT_SE_EVT_MARGIN : Fld := ⟨0x2014, 0x4, 1, 1, 1⟩
/-- FLT_SE_EVT.DUP_MISMATCH (R437). -/
def FLT_SE_EVT_DUP_MISMATCH : Fld := ⟨0x2014, 0x4, 1, 0, 0⟩
/-- CKPT_CFG.CKPT_MIN (R462). -/
def CKPT_CFG_CKPT_MIN : Fld := ⟨0x1018, 0x4, 1, 31, 22⟩
/-- CKPT_CFG.CKPT_MAX (R462). -/
def CKPT_CFG_CKPT_MAX : Fld := ⟨0x1018, 0x4, 1, 21, 8⟩
/-- CKPT_CFG.ACCEPT_K_M1 (R462). -/
def CKPT_CFG_ACCEPT_K_M1 : Fld := ⟨0x1018, 0x4, 1, 7, 4⟩
/-- CKPT_CFG.HOLDERS (R462). -/
def CKPT_CFG_HOLDERS : Fld := ⟨0x1018, 0x4, 1, 3, 2⟩
/-- CKPT_GEN.GEN (R462). -/
def CKPT_GEN_GEN : Fld := ⟨0x300074, 0x100, 1024, 31, 0⟩
/-- CKPT_STEP_LO.STEP (R462). -/
def CKPT_STEP_LO_STEP : Fld := ⟨0x300078, 0x100, 1024, 31, 0⟩
/-- CKPT_STEP_HI.STEP (R462). -/
def CKPT_STEP_HI_STEP : Fld := ⟨0x30007C, 0x100, 1024, 31, 0⟩
/-- CKPT_TIME.TAU (R462). -/
def CKPT_TIME_TAU : Fld := ⟨0x300080, 0x100, 1024, 31, 16⟩
/-- CKPT_TIME.LAST_C (R462). -/
def CKPT_TIME_LAST_C : Fld := ⟨0x300080, 0x100, 1024, 15, 0⟩
/-- CKPT_MTBF.M (R462). -/
def CKPT_MTBF_M : Fld := ⟨0x300084, 0x100, 1024, 31, 4⟩
/-- CKPT_MTBF.FAILS (R462). -/
def CKPT_MTBF_FAILS : Fld := ⟨0x300084, 0x100, 1024, 3, 0⟩
/-- LOG_USE.USED (R462). -/
def LOG_USE_USED : Fld := ⟨0x300088, 0x100, 1024, 31, 0⟩
/-- CKPT_STATS.STALLS (R462). -/
def CKPT_STATS_STALLS : Fld := ⟨0x30008C, 0x100, 1024, 31, 16⟩
/-- CKPT_STATS.ABANDONED (R462). -/
def CKPT_STATS_ABANDONED : Fld := ⟨0x30008C, 0x100, 1024, 15, 8⟩
/-- CKPT_STATS.EXPORTS_SKIPPED (R462). -/
def CKPT_STATS_EXPORTS_SKIPPED : Fld := ⟨0x30008C, 0x100, 1024, 7, 0⟩
/-- CKPT_RESTORE.LAST_REASON (R462). -/
def CKPT_RESTORE_LAST_REASON : Fld := ⟨0x300090, 0x100, 1024, 11, 8⟩
/-- CKPT_RESTORE.SOURCE (R462). -/
def CKPT_RESTORE_SOURCE : Fld := ⟨0x300090, 0x100, 1024, 1, 0⟩
/-- CKPT_REPLAY.RECOMPUTED (R462). -/
def CKPT_REPLAY_RECOMPUTED : Fld := ⟨0x300094, 0x100, 1024, 31, 16⟩
/-- CKPT_REPLAY.DIVERGED (R462). -/
def CKPT_REPLAY_DIVERGED : Fld := ⟨0x300094, 0x100, 1024, 15, 8⟩
/-- CKPT_REPLAY.PROBE_EMPTY (R462). -/
def CKPT_REPLAY_PROBE_EMPTY : Fld := ⟨0x300094, 0x100, 1024, 7, 0⟩
/-- CKPT_EVT.ADOPT_ZERO (R462). -/
def CKPT_EVT_ADOPT_ZERO : Fld := ⟨0x300098, 0x100, 1024, 5, 5⟩
/-- CKPT_EVT.DIVERGED (R462). -/
def CKPT_EVT_DIVERGED : Fld := ⟨0x300098, 0x100, 1024, 4, 4⟩
/-- CKPT_EVT.REFUSED (R462). -/
def CKPT_EVT_REFUSED : Fld := ⟨0x300098, 0x100, 1024, 3, 3⟩
/-- CKPT_EVT.RESTORED (R462). -/
def CKPT_EVT_RESTORED : Fld := ⟨0x300098, 0x100, 1024, 2, 2⟩
/-- CKPT_EVT.FAILED (R462). -/
def CKPT_EVT_FAILED : Fld := ⟨0x300098, 0x100, 1024, 1, 1⟩
/-- CKPT_EVT.DONE (R462). -/
def CKPT_EVT_DONE : Fld := ⟨0x300098, 0x100, 1024, 0, 0⟩
/-- PWR_IN.VIN (R485). -/
def PWR_IN_VIN : Fld := ⟨0x3000, 0x4, 1, 31, 16⟩
/-- PWR_IN.IIN (R485). -/
def PWR_IN_IIN : Fld := ⟨0x3000, 0x4, 1, 15, 0⟩
/-- PWR_MEAS.P_IN (R485). -/
def PWR_MEAS_P_IN : Fld := ⟨0x3004, 0x4, 1, 31, 16⟩
/-- PWR_MEAS.P_STAND (R485). -/
def PWR_MEAS_P_STAND : Fld := ⟨0x3004, 0x4, 1, 15, 0⟩
/-- PWR_ESCHED.E_SCHED (R485). -/
def PWR_ESCHED_E_SCHED : Fld := ⟨0x3008, 0x4, 1, 31, 0⟩
/-- PWR_BUDGET.RESERVE (R485). -/
def PWR_BUDGET_RESERVE : Fld := ⟨0x300C, 0x4, 1, 31, 24⟩
/-- PWR_BUDGET.THROTTLE (R485). -/
def PWR_BUDGET_THROTTLE : Fld := ⟨0x300C, 0x4, 1, 23, 16⟩
/-- PWR_BUDGET.OVERDRAWS (R485). -/
def PWR_BUDGET_OVERDRAWS : Fld := ⟨0x300C, 0x4, 1, 15, 0⟩
/-- PWR_EVT.SHUTDOWN (R485). -/
def PWR_EVT_SHUTDOWN : Fld := ⟨0x3010, 0x4, 1, 4, 4⟩
/-- PWR_EVT.HALT (R485). -/
def PWR_EVT_HALT : Fld := ⟨0x3010, 0x4, 1, 3, 3⟩
/-- PWR_EVT.THROTTLE (R485). -/
def PWR_EVT_THROTTLE : Fld := ⟨0x3010, 0x4, 1, 2, 2⟩
/-- PWR_EVT.CURRENT (R485). -/
def PWR_EVT_CURRENT : Fld := ⟨0x3010, 0x4, 1, 1, 1⟩
/-- PWR_EVT.OVERDRAW (R485). -/
def PWR_EVT_OVERDRAW : Fld := ⟨0x3010, 0x4, 1, 0, 0⟩
/-- PWR_THERM.TEMP (R485). -/
def PWR_THERM_TEMP : Fld := ⟨0x3020, 0x4, 5, 31, 16⟩
/-- PWR_THERM.STATE (R485). -/
def PWR_THERM_STATE : Fld := ⟨0x3020, 0x4, 5, 3, 2⟩
/-- MON_CFG.LENGTH (R485). -/
def MON_CFG_LENGTH : Fld := ⟨0x3040, 0x4, 1, 31, 23⟩
/-- MON_CFG.POSITION (R485). -/
def MON_CFG_POSITION : Fld := ⟨0x3040, 0x4, 1, 22, 15⟩
/-- MON_CFG.CYCLE (R485). -/
def MON_CFG_CYCLE : Fld := ⟨0x3040, 0x4, 1, 14, 0⟩
/-- MON_COUNTS.CYCLES (R485). -/
def MON_COUNTS_CYCLES : Fld := ⟨0x3044, 0x4, 1, 31, 16⟩
/-- MON_COUNTS.ABORTS (R485). -/
def MON_COUNTS_ABORTS : Fld := ⟨0x3044, 0x4, 1, 15, 8⟩
/-- MON_COUNTS.REFUSED (R485). -/
def MON_COUNTS_REFUSED : Fld := ⟨0x3044, 0x4, 1, 7, 0⟩
/-- MON_ENTRY.WORD (R485). -/
def MON_ENTRY_WORD : Fld := ⟨0x4000, 0x4, 1024, 31, 0⟩
/-- MON_RESULT.VALUE (R485). -/
def MON_RESULT_VALUE : Fld := ⟨0x3200, 0x4, 128, 31, 8⟩
/-- MON_RESULT.AGE (R485). -/
def MON_RESULT_AGE : Fld := ⟨0x3200, 0x4, 128, 7, 0⟩
/-- MON_LIMIT.CROSSED (R485). -/
def MON_LIMIT_CROSSED : Fld := ⟨0x3050, 0x4, 4, 31, 0⟩
/-- CAL_CTRL.GO (R499). -/
def CAL_CTRL_GO : Fld := ⟨0x5000, 0x4, 1, 31, 31⟩
/-- CAL_CTRL.PATTERN (R499). -/
def CAL_CTRL_PATTERN : Fld := ⟨0x5000, 0x4, 1, 30, 30⟩
/-- CAL_CTRL.SCOPE (R499). -/
def CAL_CTRL_SCOPE : Fld := ⟨0x5000, 0x4, 1, 29, 27⟩
/-- CAL_CTRL.UNIT (R499). -/
def CAL_CTRL_UNIT : Fld := ⟨0x5000, 0x4, 1, 26, 11⟩
/-- CAL_STATUS.BUSY (R499). -/
def CAL_STATUS_BUSY : Fld := ⟨0x5004, 0x4, 1, 31, 31⟩
/-- CAL_STATUS.RUN (R499). -/
def CAL_STATUS_RUN : Fld := ⟨0x5004, 0x4, 1, 30, 29⟩
/-- CAL_STATUS.ACCEPTED (R499). -/
def CAL_STATUS_ACCEPTED : Fld := ⟨0x5004, 0x4, 1, 15, 8⟩
/-- CAL_STATUS.REFUSED (R499). -/
def CAL_STATUS_REFUSED : Fld := ⟨0x5004, 0x4, 1, 7, 0⟩
/-- CAL_MOD.FWD_SIGMA (R499). -/
def CAL_MOD_FWD_SIGMA : Fld := ⟨0x5008, 0x4, 1, 31, 16⟩
/-- CAL_MOD.P_IDLE (R499). -/
def CAL_MOD_P_IDLE : Fld := ⟨0x5008, 0x4, 1, 15, 0⟩
/-- CAL_BATT.RESID (R499). -/
def CAL_BATT_RESID : Fld := ⟨0x20002C, 0x40, 1536, 31, 24⟩
/-- CAL_BATT.AMP (R499). -/
def CAL_BATT_AMP : Fld := ⟨0x20002C, 0x40, 1536, 23, 16⟩
/-- CAL_BATT.STEP (R499). -/
def CAL_BATT_STEP : Fld := ⟨0x20002C, 0x40, 1536, 15, 10⟩
/-- CAL_BATT.REFUSED_COLS (R499). -/
def CAL_BATT_REFUSED_COLS : Fld := ⟨0x20002C, 0x40, 1536, 9, 0⟩
/-- CAL_UNIT.SOURCE (R499). -/
def CAL_UNIT_SOURCE : Fld := ⟨0x200030, 0x40, 1536, 31, 31⟩
/-- CAL_UNIT.AGE (R499). -/
def CAL_UNIT_AGE : Fld := ⟨0x200030, 0x40, 1536, 30, 0⟩
/-- CAL_LANE.EYE (R499). -/
def CAL_LANE_EYE : Fld := ⟨0x5400, 0x4, 264, 31, 24⟩
/-- CAL_LANE.MARGIN (R499). -/
def CAL_LANE_MARGIN : Fld := ⟨0x5400, 0x4, 264, 23, 12⟩
/-- CAL_LANE.BIAS (R499). -/
def CAL_LANE_BIAS : Fld := ⟨0x5400, 0x4, 264, 11, 2⟩
/-- CAL_EVT.BUSY_IGNORED (R499). -/
def CAL_EVT_BUSY_IGNORED : Fld := ⟨0x500C, 0x4, 1, 3, 3⟩
/-- CAL_EVT.LANE_LOW (R499). -/
def CAL_EVT_LANE_LOW : Fld := ⟨0x500C, 0x4, 1, 2, 2⟩
/-- CAL_EVT.RESID_HIGH (R499). -/
def CAL_EVT_RESID_HIGH : Fld := ⟨0x500C, 0x4, 1, 1, 1⟩
/-- CAL_EVT.REFUSED (R499). -/
def CAL_EVT_REFUSED : Fld := ⟨0x500C, 0x4, 1, 0, 0⟩
/-- SEC_FUSE.LOCK (R525). -/
def SEC_FUSE_LOCK : Fld := ⟨0x6000, 0x4, 1, 31, 31⟩
/-- SEC_FUSE.OWNER_SET (R525). -/
def SEC_FUSE_OWNER_SET : Fld := ⟨0x6000, 0x4, 1, 30, 30⟩
/-- SEC_FUSE.DEBUG_POLICY (R525). -/
def SEC_FUSE_DEBUG_POLICY : Fld := ⟨0x6000, 0x4, 1, 29, 26⟩
/-- SEC_FUSE.SVN_FUSED (R525). -/
def SEC_FUSE_SVN_FUSED : Fld := ⟨0x6000, 0x4, 1, 25, 19⟩
/-- SEC_CTRL.CONFIRM (R525). -/
def SEC_CTRL_CONFIRM : Fld := ⟨0x6004, 0x4, 1, 31, 24⟩
/-- SEC_CTRL.QUOTE_GO (R525). -/
def SEC_CTRL_QUOTE_GO : Fld := ⟨0x6004, 0x4, 1, 7, 7⟩
/-- SEC_CTRL.SVN_COMMIT (R525). -/
def SEC_CTRL_SVN_COMMIT : Fld := ⟨0x6004, 0x4, 1, 6, 6⟩
/-- SEC_CTRL.LOCK (R525). -/
def SEC_CTRL_LOCK : Fld := ⟨0x6004, 0x4, 1, 5, 5⟩
/-- SEC_CTRL.DBG_DISABLE (R525). -/
def SEC_CTRL_DBG_DISABLE : Fld := ⟨0x6004, 0x4, 1, 3, 0⟩
/-- SEC_BOOT.SLOT (R525). -/
def SEC_BOOT_SLOT : Fld := ⟨0x6008, 0x4, 1, 31, 31⟩
/-- SEC_BOOT.A_REASON (R525). -/
def SEC_BOOT_A_REASON : Fld := ⟨0x6008, 0x4, 1, 30, 28⟩
/-- SEC_BOOT.SVN_FW (R525). -/
def SEC_BOOT_SVN_FW : Fld := ⟨0x6008, 0x4, 1, 27, 21⟩
/-- SEC_SIG_LO.NEXT (R525). -/
def SEC_SIG_LO_NEXT : Fld := ⟨0x600C, 0x4, 1, 31, 0⟩
/-- SEC_SIG_HI.NEXT (R525). -/
def SEC_SIG_HI_NEXT : Fld := ⟨0x6010, 0x4, 1, 7, 0⟩
/-- SEC_CRED_EPOCH.EPOCH (R525). -/
def SEC_CRED_EPOCH_EPOCH : Fld := ⟨0x6014, 0x4, 1, 31, 0⟩
/-- SEC_QUOTE_NONCE.NONCE (R525). -/
def SEC_QUOTE_NONCE_NONCE : Fld := ⟨0x6018, 0x4, 4, 31, 0⟩
/-- SEC_STAT.QUOTE_BUSY (R525). -/
def SEC_STAT_QUOTE_BUSY : Fld := ⟨0x6028, 0x4, 1, 31, 31⟩
/-- SEC_STAT.CRED_REFUSED (R525). -/
def SEC_STAT_CRED_REFUSED : Fld := ⟨0x6028, 0x4, 1, 23, 16⟩
/-- SEC_STAT.BINDING_REFUSED (R525). -/
def SEC_STAT_BINDING_REFUSED : Fld := ⟨0x6028, 0x4, 1, 15, 8⟩
/-- SEC_STAT.QUOTES (R525). -/
def SEC_STAT_QUOTES : Fld := ⟨0x6028, 0x4, 1, 7, 0⟩
/-- SEC_EVT.QUOTE_DONE (R525). -/
def SEC_EVT_QUOTE_DONE : Fld := ⟨0x602C, 0x4, 1, 4, 4⟩
/-- SEC_EVT.BINDING (R525). -/
def SEC_EVT_BINDING : Fld := ⟨0x602C, 0x4, 1, 3, 3⟩
/-- SEC_EVT.OWNER_ROOT_SET (R525). -/
def SEC_EVT_OWNER_ROOT_SET : Fld := ⟨0x602C, 0x4, 1, 2, 2⟩
/-- SEC_EVT.SVN_COMMITTED (R525). -/
def SEC_EVT_SVN_COMMITTED : Fld := ⟨0x602C, 0x4, 1, 1, 1⟩
/-- SEC_EVT.BOOT_FALLBACK (R525). -/
def SEC_EVT_BOOT_FALLBACK : Fld := ⟨0x602C, 0x4, 1, 0, 0⟩
/-- DBG_CTRL.CMD (R525). -/
def DBG_CTRL_CMD : Fld := ⟨0x6100, 0x4, 1, 31, 30⟩
/-- DBG_CTRL.FACILITIES (R525). -/
def DBG_CTRL_FACILITIES : Fld := ⟨0x6100, 0x4, 1, 29, 26⟩
/-- DBG_CTRL.PURPOSE (R525). -/
def DBG_CTRL_PURPOSE : Fld := ⟨0x6100, 0x4, 1, 15, 0⟩
/-- DBG_STATE.OPEN (R525). -/
def DBG_STATE_OPEN : Fld := ⟨0x6104, 0x4, 1, 31, 31⟩
/-- DBG_STATE.FACILITIES (R525). -/
def DBG_STATE_FACILITIES : Fld := ⟨0x6104, 0x4, 1, 30, 27⟩
/-- DBG_STATE.SESSION (R525). -/
def DBG_STATE_SESSION : Fld := ⟨0x6104, 0x4, 1, 26, 24⟩
/-- DBG_STATE.COUNT (R525). -/
def DBG_STATE_COUNT : Fld := ⟨0x6104, 0x4, 1, 23, 0⟩
/-- DBG_MEM_ADDR_LO.ADDR (R525). -/
def DBG_MEM_ADDR_LO_ADDR : Fld := ⟨0x6108, 0x4, 1, 31, 0⟩
/-- DBG_MEM_ADDR_HI.ADDR (R525). -/
def DBG_MEM_ADDR_HI_ADDR : Fld := ⟨0x610C, 0x4, 1, 8, 0⟩
/-- IMG_CTRL.CONFIRM (R545). -/
def IMG_CTRL_CONFIRM : Fld := ⟨0xA000, 0x4, 1, 31, 24⟩
/-- IMG_CTRL.SLOT (R545). -/
def IMG_CTRL_SLOT : Fld := ⟨0xA000, 0x4, 1, 3, 3⟩
/-- IMG_CTRL.CMD (R545). -/
def IMG_CTRL_CMD : Fld := ⟨0xA000, 0x4, 1, 2, 0⟩
/-- IMG_OFS.OFFSET (R545). -/
def IMG_OFS_OFFSET : Fld := ⟨0xA004, 0x4, 1, 31, 0⟩
/-- IMG_WIN.DATA (R545). -/
def IMG_WIN_DATA : Fld := ⟨0xB000, 0x4, 1024, 31, 0⟩
/-- IMG_STAT.BUSY (R545). -/
def IMG_STAT_BUSY : Fld := ⟨0xA008, 0x4, 1, 31, 31⟩
/-- IMG_STAT.SEALED_A (R545). -/
def IMG_STAT_SEALED_A : Fld := ⟨0xA008, 0x4, 1, 30, 30⟩
/-- IMG_STAT.SEALED_B (R545). -/
def IMG_STAT_SEALED_B : Fld := ⟨0xA008, 0x4, 1, 29, 29⟩
/-- IMG_STAT.B_REASON (R545). -/
def IMG_STAT_B_REASON : Fld := ⟨0xA008, 0x4, 1, 28, 26⟩
/-- IMG_STAT.SEAL_FAIL (R545). -/
def IMG_STAT_SEAL_FAIL : Fld := ⟨0xA008, 0x4, 1, 25, 25⟩
/-- IMG_STAT.STATE_LOST (R545). -/
def IMG_STAT_STATE_LOST : Fld := ⟨0xA008, 0x4, 1, 24, 24⟩
/-- IMG_STAT.PROGRAMMED (R545). -/
def IMG_STAT_PROGRAMMED : Fld := ⟨0xA008, 0x4, 1, 17, 0⟩
/-- DEV_ID.PART (R550). -/
def DEV_ID_PART : Fld := ⟨0x0, 0x4, 1, 31, 16⟩
/-- DEV_ID.STEPPING (R550). -/
def DEV_ID_STEPPING : Fld := ⟨0x0, 0x4, 1, 15, 8⟩
/-- DEV_SERIAL_LO.SERIAL (R550). -/
def DEV_SERIAL_LO_SERIAL : Fld := ⟨0x4, 0x4, 1, 31, 0⟩
/-- DEV_SERIAL_HI.SERIAL (R550). -/
def DEV_SERIAL_HI_SERIAL : Fld := ⟨0x8, 0x4, 1, 31, 0⟩
/-- DEV_STATE.PHASE (R550). -/
def DEV_STATE_PHASE : Fld := ⟨0xC, 0x4, 1, 31, 29⟩
/-- DEV_STATE.UNALIGNED (R550). -/
def DEV_STATE_UNALIGNED : Fld := ⟨0xC, 0x4, 1, 28, 28⟩
/-- DEV_STATE.SLOT (R550). -/
def DEV_STATE_SLOT : Fld := ⟨0xC, 0x4, 1, 27, 27⟩
/-- DEV_BUILD_LO.BUILD (R550). -/
def DEV_BUILD_LO_BUILD : Fld := ⟨0x10, 0x4, 1, 31, 0⟩
/-- DEV_BUILD_HI.BUILD (R550). -/
def DEV_BUILD_HI_BUILD : Fld := ⟨0x14, 0x4, 1, 31, 0⟩
/-- DEV_UPTIME.SECONDS (R550). -/
def DEV_UPTIME_SECONDS : Fld := ⟨0x18, 0x4, 1, 31, 0⟩
/-- FRM_NUM_LO.FRAME (R550). -/
def FRM_NUM_LO_FRAME : Fld := ⟨0x20, 0x4, 1, 31, 0⟩
/-- FRM_NUM_HI.FRAME (R550). -/
def FRM_NUM_HI_FRAME : Fld := ⟨0x24, 0x4, 1, 31, 0⟩
/-- FRM_PERIOD.P_US (R550). -/
def FRM_PERIOD_P_US : Fld := ⟨0x28, 0x4, 1, 13, 0⟩
/-- ETH_SA_CTRL.INSTALL (R551). -/
def ETH_SA_CTRL_INSTALL : Fld := ⟨0x8110, 0x100, 2, 5, 4⟩
/-- ETH_SA_CTRL.RX_EN (R551). -/
def ETH_SA_CTRL_RX_EN : Fld := ⟨0x8110, 0x100, 2, 3, 2⟩
/-- ETH_SA_CTRL.TX_AN (R551). -/
def ETH_SA_CTRL_TX_AN : Fld := ⟨0x8110, 0x100, 2, 0, 0⟩
/-- ETH_SA0_W0.DATA (R551). -/
def ETH_SA0_W0_DATA : Fld := ⟨0x8140, 0x100, 2, 31, 0⟩
/-- ETH_SA0_W1.DATA (R551). -/
def ETH_SA0_W1_DATA : Fld := ⟨0x8144, 0x100, 2, 31, 0⟩
/-- ETH_SA0_W2.DATA (R551). -/
def ETH_SA0_W2_DATA : Fld := ⟨0x8148, 0x100, 2, 31, 0⟩
/-- ETH_SA0_W3.DATA (R551). -/
def ETH_SA0_W3_DATA : Fld := ⟨0x814C, 0x100, 2, 31, 0⟩
/-- ETH_SA0_W4.DATA (R551). -/
def ETH_SA0_W4_DATA : Fld := ⟨0x8150, 0x100, 2, 31, 0⟩
/-- ETH_SA0_W5.DATA (R551). -/
def ETH_SA0_W5_DATA : Fld := ⟨0x8154, 0x100, 2, 31, 0⟩
/-- ETH_SA0_W6.DATA (R551). -/
def ETH_SA0_W6_DATA : Fld := ⟨0x8158, 0x100, 2, 31, 0⟩
/-- ETH_SA0_W7.DATA (R551). -/
def ETH_SA0_W7_DATA : Fld := ⟨0x815C, 0x100, 2, 31, 0⟩
/-- ETH_SA0_W8.DATA (R551). -/
def ETH_SA0_W8_DATA : Fld := ⟨0x8160, 0x100, 2, 31, 0⟩
/-- ETH_SA0_W9.DATA (R551). -/
def ETH_SA0_W9_DATA : Fld := ⟨0x8164, 0x100, 2, 31, 0⟩
/-- ETH_SA0_W10.DATA (R551). -/
def ETH_SA0_W10_DATA : Fld := ⟨0x8168, 0x100, 2, 31, 0⟩
/-- ETH_SA0_W11.DATA (R551). -/
def ETH_SA0_W11_DATA : Fld := ⟨0x816C, 0x100, 2, 31, 0⟩
/-- ETH_SA1_W0.DATA (R551). -/
def ETH_SA1_W0_DATA : Fld := ⟨0x8180, 0x100, 2, 31, 0⟩
/-- ETH_SA1_W1.DATA (R551). -/
def ETH_SA1_W1_DATA : Fld := ⟨0x8184, 0x100, 2, 31, 0⟩
/-- ETH_SA1_W2.DATA (R551). -/
def ETH_SA1_W2_DATA : Fld := ⟨0x8188, 0x100, 2, 31, 0⟩
/-- ETH_SA1_W3.DATA (R551). -/
def ETH_SA1_W3_DATA : Fld := ⟨0x818C, 0x100, 2, 31, 0⟩
/-- ETH_SA1_W4.DATA (R551). -/
def ETH_SA1_W4_DATA : Fld := ⟨0x8190, 0x100, 2, 31, 0⟩
/-- ETH_SA1_W5.DATA (R551). -/
def ETH_SA1_W5_DATA : Fld := ⟨0x8194, 0x100, 2, 31, 0⟩
/-- ETH_SA1_W6.DATA (R551). -/
def ETH_SA1_W6_DATA : Fld := ⟨0x8198, 0x100, 2, 31, 0⟩
/-- ETH_SA1_W7.DATA (R551). -/
def ETH_SA1_W7_DATA : Fld := ⟨0x819C, 0x100, 2, 31, 0⟩
/-- ETH_SA1_W8.DATA (R551). -/
def ETH_SA1_W8_DATA : Fld := ⟨0x81A0, 0x100, 2, 31, 0⟩
/-- ETH_SA1_W9.DATA (R551). -/
def ETH_SA1_W9_DATA : Fld := ⟨0x81A4, 0x100, 2, 31, 0⟩
/-- ETH_SA1_W10.DATA (R551). -/
def ETH_SA1_W10_DATA : Fld := ⟨0x81A8, 0x100, 2, 31, 0⟩
/-- ETH_SA1_W11.DATA (R551). -/
def ETH_SA1_W11_DATA : Fld := ⟨0x81AC, 0x100, 2, 31, 0⟩

end F

/-- Registers of the block at 0x0 (R546, R548, R549). -/
def rowsDev : List RegRow :=
  [⟨0x0, 0x4, 1, [⟨31, 16, .ro, 0x1536⟩, ⟨15, 8, .ro, 0x0⟩, ⟨7, 0, .rsv, 0x0⟩]⟩,
   ⟨0x4, 0x4, 1, [⟨31, 0, .ro, 0x0⟩]⟩,
   ⟨0x8, 0x4, 1, [⟨31, 0, .ro, 0x0⟩]⟩,
   ⟨0xC, 0x4, 1, [⟨31, 29, .ro, 0x0⟩, ⟨28, 28, .ro, 0x1⟩, ⟨27, 27, .ro, 0x0⟩, ⟨26, 0, .rsv, 0x0⟩]⟩,
   ⟨0x10, 0x4, 1, [⟨31, 0, .ro, 0x0⟩]⟩,
   ⟨0x14, 0x4, 1, [⟨31, 0, .ro, 0x0⟩]⟩,
   ⟨0x18, 0x4, 1, [⟨31, 0, .ro, 0x0⟩]⟩,
   ⟨0x20, 0x4, 1, [⟨31, 0, .ro, 0x0⟩]⟩,
   ⟨0x24, 0x4, 1, [⟨31, 0, .ro, 0x0⟩]⟩,
   ⟨0x28, 0x4, 1, [⟨31, 14, .rsv, 0x0⟩, ⟨13, 0, .ro, 0x64⟩]⟩]

/-- Registers of the block at 0x1000 (R546, R548, R549). -/
def rowsCfg : List RegRow :=
  [⟨0x1000, 0x4, 1, [⟨31, 24, .ro, 0x4B⟩, ⟨23, 16, .ro, 0x23⟩, ⟨15, 6, .ro, 0x1E⟩, ⟨5, 0, .rsv, 0x0⟩]⟩,
   ⟨0x1004, 0x4, 1, [⟨31, 16, .ro, 0x800⟩, ⟨15, 0, .ro, 0x9470⟩]⟩,
   ⟨0x1008, 0x4, 1, [⟨31, 22, .ro, 0xA⟩, ⟨21, 12, .ro, 0x258⟩, ⟨11, 0, .ro, 0x100⟩]⟩,
   ⟨0x100C, 0x4, 1, [⟨31, 24, .ro, 0x40⟩, ⟨23, 12, .ro, 0x100⟩, ⟨11, 0, .rsv, 0x0⟩]⟩,
   ⟨0x1010, 0x4, 1, [⟨31, 16, .ro, 0x400⟩, ⟨15, 8, .ro, 0x40⟩, ⟨7, 0, .rsv, 0x0⟩]⟩,
   ⟨0x1014, 0x4, 1, [⟨31, 16, .ro, 0x400⟩, ⟨15, 0, .ro, 0x40⟩]⟩,
   ⟨0x1018, 0x4, 1, [⟨31, 22, .ro, 0xA⟩, ⟨21, 8, .ro, 0xE10⟩, ⟨7, 4, .ro, 0x3⟩, ⟨3, 2, .ro, 0x1⟩, ⟨1, 0, .rsv, 0x0⟩]⟩,
   ⟨0x101C, 0x4, 1, [⟨31, 28, .ro, 0x8⟩, ⟨27, 16, .ro, 0x3E8⟩, ⟨15, 11, .ro, 0x8⟩, ⟨10, 10, .ro, 0x1⟩, ⟨9, 3, .ro, 0x1⟩, ⟨2, 0, .rsv, 0x0⟩]⟩]

/-- Registers of the block at 0x2000 (R546, R548, R549). -/
def rowsFlt : List RegRow :=
  [⟨0x2000, 0x4, 1, [⟨31, 31, .ro, 0x0⟩, ⟨30, 27, .ro, 0x0⟩, ⟨26, 19, .ro, 0xB0⟩, ⟨18, 11, .ro, 0xA0⟩, ⟨10, 7, .ro, 0x3⟩, ⟨6, 3, .ro, 0x0⟩, ⟨2, 0, .rsv, 0x0⟩]⟩,
   ⟨0x2004, 0x4, 1, [⟨31, 16, .ro, 0x0⟩, ⟨15, 8, .ro, 0x0⟩, ⟨7, 0, .rsv, 0x0⟩]⟩,
   ⟨0x2008, 0x4, 1, [⟨31, 16, .ro, 0x0⟩, ⟨15, 12, .ro, 0x0⟩, ⟨11, 8, .ro, 0x0⟩, ⟨7, 0, .ro, 0x0⟩]⟩,
   ⟨0x200C, 0x4, 1, [⟨31, 2, .rsv, 0x0⟩, ⟨1, 1, .ow, 0x0⟩, ⟨0, 0, .ow, 0x0⟩]⟩,
   ⟨0x2010, 0x4, 1, [⟨31, 8, .ro, 0x0⟩, ⟨7, 0, .ro, 0x0⟩]⟩,
   ⟨0x2014, 0x4, 1, [⟨31, 7, .rsv, 0x0⟩, ⟨6, 6, .w1c, 0x0⟩, ⟨5, 5, .w1c, 0x0⟩, ⟨4, 4, .w1c, 0x0⟩, ⟨3, 3, .w1c, 0x0⟩, ⟨2, 2, .w1c, 0x0⟩, ⟨1, 1, .w1c, 0x0⟩, ⟨0, 0, .w1c, 0x0⟩]⟩]

/-- Registers of the block at 0x3000 (R546, R548, R549). -/
def rowsPwr : List RegRow :=
  [⟨0x3000, 0x4, 1, [⟨31, 16, .ro, 0x0⟩, ⟨15, 0, .ro, 0x0⟩]⟩,
   ⟨0x3004, 0x4, 1, [⟨31, 16, .ro, 0x0⟩, ⟨15, 0, .ro, 0xA00⟩]⟩,
   ⟨0x3008, 0x4, 1, [⟨31, 0, .ro, 0x0⟩]⟩,
   ⟨0x300C, 0x4, 1, [⟨31, 24, .ro, 0x32⟩, ⟨23, 16, .ro, 0x64⟩, ⟨15, 0, .ro, 0x0⟩]⟩,
   ⟨0x3010, 0x4, 1, [⟨31, 5, .rsv, 0x0⟩, ⟨4, 4, .w1c, 0x0⟩, ⟨3, 3, .w1c, 0x0⟩, ⟨2, 2, .w1c, 0x0⟩, ⟨1, 1, .w1c, 0x0⟩, ⟨0, 0, .w1c, 0x0⟩]⟩,
   ⟨0x3020, 0x4, 5, [⟨31, 16, .ro, 0x0⟩, ⟨15, 4, .rsv, 0x0⟩, ⟨3, 2, .ro, 0x0⟩, ⟨1, 0, .rsv, 0x0⟩]⟩,
   ⟨0x3040, 0x4, 1, [⟨31, 23, .ro, 0x8D⟩, ⟨22, 15, .ro, 0x0⟩, ⟨14, 0, .ro, 0x0⟩]⟩,
   ⟨0x3044, 0x4, 1, [⟨31, 16, .ro, 0x0⟩, ⟨15, 8, .ro, 0x0⟩, ⟨7, 0, .ro, 0x0⟩]⟩,
   ⟨0x3050, 0x4, 4, [⟨31, 0, .w1c, 0x0⟩]⟩,
   ⟨0x3200, 0x4, 128, [⟨31, 8, .ro, 0x0⟩, ⟨7, 0, .ro, 0xFF⟩]⟩,
   ⟨0x4000, 0x4, 1024, [⟨31, 0, .ro, 0x0⟩]⟩]

/-- Registers of the block at 0x5000 (R546, R548, R549). -/
def rowsCal : List RegRow :=
  [⟨0x5000, 0x4, 1, [⟨31, 31, .ow, 0x0⟩, ⟨30, 30, .ow, 0x0⟩, ⟨29, 27, .ow, 0x0⟩, ⟨26, 11, .ow, 0x0⟩, ⟨10, 0, .rsv, 0x0⟩]⟩,
   ⟨0x5004, 0x4, 1, [⟨31, 31, .ro, 0x0⟩, ⟨30, 29, .ro, 0x0⟩, ⟨28, 16, .rsv, 0x0⟩, ⟨15, 8, .ro, 0x0⟩, ⟨7, 0, .ro, 0x0⟩]⟩,
   ⟨0x5008, 0x4, 1, [⟨31, 16, .ro, 0x0⟩, ⟨15, 0, .ro, 0x8A0⟩]⟩,
   ⟨0x500C, 0x4, 1, [⟨31, 4, .rsv, 0x0⟩, ⟨3, 3, .w1c, 0x0⟩, ⟨2, 2, .w1c, 0x0⟩, ⟨1, 1, .w1c, 0x0⟩, ⟨0, 0, .w1c, 0x0⟩]⟩,
   ⟨0x5400, 0x4, 264, [⟨31, 24, .ro, 0x0⟩, ⟨23, 12, .ro, 0x0⟩, ⟨11, 2, .ro, 0x0⟩, ⟨1, 0, .rsv, 0x0⟩]⟩]

/-- Registers of the block at 0x6000 (R546, R548, R549). -/
def rowsSec : List RegRow :=
  [⟨0x6000, 0x4, 1, [⟨31, 31, .ro, 0x0⟩, ⟨30, 30, .ro, 0x0⟩, ⟨29, 26, .ro, 0x0⟩, ⟨25, 19, .ro, 0x0⟩, ⟨18, 0, .rsv, 0x0⟩]⟩,
   ⟨0x6004, 0x4, 1, [⟨31, 24, .wo, 0x0⟩, ⟨23, 8, .rsv, 0x0⟩, ⟨7, 7, .ow, 0x0⟩, ⟨6, 6, .ow, 0x0⟩, ⟨5, 5, .rwl, 0x0⟩, ⟨4, 4, .rsv, 0x0⟩, ⟨3, 0, .rwl, 0x0⟩]⟩,
   ⟨0x6008, 0x4, 1, [⟨31, 31, .ro, 0x0⟩, ⟨30, 28, .ro, 0x0⟩, ⟨27, 21, .ro, 0x0⟩, ⟨20, 0, .rsv, 0x0⟩]⟩,
   ⟨0x600C, 0x4, 1, [⟨31, 0, .ro, 0x0⟩]⟩,
   ⟨0x6010, 0x4, 1, [⟨7, 0, .ro, 0x0⟩, ⟨31, 8, .rsv, 0x0⟩]⟩,
   ⟨0x6014, 0x4, 1, [⟨31, 0, .ow, 0x0⟩]⟩,
   ⟨0x6018, 0x4, 4, [⟨31, 0, .ow, 0x0⟩]⟩,
   ⟨0x6028, 0x4, 1, [⟨31, 31, .ro, 0x0⟩, ⟨30, 24, .rsv, 0x0⟩, ⟨23, 16, .ro, 0x0⟩, ⟨15, 8, .ro, 0x0⟩, ⟨7, 0, .ro, 0x0⟩]⟩,
   ⟨0x602C, 0x4, 1, [⟨31, 5, .rsv, 0x0⟩, ⟨4, 4, .w1c, 0x0⟩, ⟨3, 3, .w1c, 0x0⟩, ⟨2, 2, .w1c, 0x0⟩, ⟨1, 1, .w1c, 0x0⟩, ⟨0, 0, .w1c, 0x0⟩]⟩,
   ⟨0x6100, 0x4, 1, [⟨31, 30, .ow, 0x0⟩, ⟨29, 26, .ow, 0x0⟩, ⟨25, 16, .rsv, 0x0⟩, ⟨15, 0, .ow, 0x0⟩]⟩,
   ⟨0x6104, 0x4, 1, [⟨31, 31, .ro, 0x0⟩, ⟨30, 27, .ro, 0x0⟩, ⟨26, 24, .ro, 0x0⟩, ⟨23, 0, .ro, 0x0⟩]⟩,
   ⟨0x6108, 0x4, 1, [⟨31, 0, .ow, 0x0⟩]⟩] ++
  [⟨0x610C, 0x4, 1, [⟨8, 0, .ow, 0x0⟩, ⟨31, 9, .rsv, 0x0⟩]⟩]

/-- Registers of the block at 0x7000 (R546, R548, R549). -/
def rowsOwn : List RegRow :=
  [⟨0x7000, 0x4, 1, [⟨31, 16, .ro, 0xFFFF⟩, ⟨15, 8, .ro, 0x0⟩, ⟨7, 0, .ro, 0x0⟩]⟩,
   ⟨0x7010, 0x4, 8, [⟨31, 30, .ro, 0x0⟩, ⟨29, 29, .ro, 0x0⟩, ⟨28, 24, .rsv, 0x0⟩, ⟨23, 16, .ro, 0x0⟩, ⟨15, 0, .rsv, 0x0⟩]⟩]

/-- Registers of the block at 0x8000 (R546, R548, R549). -/
def rowsEth : List RegRow :=
  [⟨0x8000, 0x4, 1, [⟨31, 16, .ro, 0x0⟩, ⟨15, 0, .ro, 0x0⟩]⟩,
   ⟨0x8100, 0x100, 2, [⟨31, 31, .ro, 0x0⟩, ⟨30, 30, .ro, 0x0⟩, ⟨29, 29, .ro, 0x0⟩, ⟨28, 28, .ro, 0x0⟩, ⟨27, 16, .ro, 0x0⟩, ⟨15, 0, .rsv, 0x0⟩]⟩,
   ⟨0x8104, 0x100, 2, [⟨31, 0, .ro, 0x0⟩]⟩,
   ⟨0x8108, 0x100, 2, [⟨15, 0, .ro, 0x0⟩, ⟨31, 16, .rsv, 0x0⟩]⟩,
   ⟨0x810C, 0x100, 2, [⟨31, 24, .ro, 0x0⟩, ⟨23, 16, .ro, 0x0⟩, ⟨15, 8, .ro, 0x0⟩, ⟨7, 0, .ro, 0x0⟩]⟩,
   ⟨0x8110, 0x100, 2, [⟨31, 6, .rsv, 0x0⟩, ⟨5, 4, .ow, 0x0⟩, ⟨3, 2, .ow, 0x0⟩, ⟨1, 1, .rsv, 0x0⟩, ⟨0, 0, .ow, 0x0⟩]⟩,
   ⟨0x8140, 0x100, 2, [⟨31, 0, .wo, 0x0⟩]⟩,
   ⟨0x8144, 0x100, 2, [⟨31, 0, .wo, 0x0⟩]⟩,
   ⟨0x8148, 0x100, 2, [⟨31, 0, .wo, 0x0⟩]⟩,
   ⟨0x814C, 0x100, 2, [⟨31, 0, .wo, 0x0⟩]⟩,
   ⟨0x8150, 0x100, 2, [⟨31, 0, .wo, 0x0⟩]⟩,
   ⟨0x8154, 0x100, 2, [⟨31, 0, .wo, 0x0⟩]⟩] ++
  [⟨0x8158, 0x100, 2, [⟨31, 0, .wo, 0x0⟩]⟩,
   ⟨0x815C, 0x100, 2, [⟨31, 0, .wo, 0x0⟩]⟩,
   ⟨0x8160, 0x100, 2, [⟨31, 0, .wo, 0x0⟩]⟩,
   ⟨0x8164, 0x100, 2, [⟨31, 0, .wo, 0x0⟩]⟩,
   ⟨0x8168, 0x100, 2, [⟨31, 0, .wo, 0x0⟩]⟩,
   ⟨0x816C, 0x100, 2, [⟨31, 0, .wo, 0x0⟩]⟩,
   ⟨0x8180, 0x100, 2, [⟨31, 0, .wo, 0x0⟩]⟩,
   ⟨0x8184, 0x100, 2, [⟨31, 0, .wo, 0x0⟩]⟩,
   ⟨0x8188, 0x100, 2, [⟨31, 0, .wo, 0x0⟩]⟩,
   ⟨0x818C, 0x100, 2, [⟨31, 0, .wo, 0x0⟩]⟩,
   ⟨0x8190, 0x100, 2, [⟨31, 0, .wo, 0x0⟩]⟩,
   ⟨0x8194, 0x100, 2, [⟨31, 0, .wo, 0x0⟩]⟩] ++
  [⟨0x8198, 0x100, 2, [⟨31, 0, .wo, 0x0⟩]⟩,
   ⟨0x819C, 0x100, 2, [⟨31, 0, .wo, 0x0⟩]⟩,
   ⟨0x81A0, 0x100, 2, [⟨31, 0, .wo, 0x0⟩]⟩,
   ⟨0x81A4, 0x100, 2, [⟨31, 0, .wo, 0x0⟩]⟩,
   ⟨0x81A8, 0x100, 2, [⟨31, 0, .wo, 0x0⟩]⟩,
   ⟨0x81AC, 0x100, 2, [⟨31, 0, .wo, 0x0⟩]⟩]

/-- Registers of the block at 0x9000 (R546, R548, R549). -/
def rowsLnk : List RegRow :=
  [⟨0x9000, 0x4, 1, [⟨31, 20, .rsv, 0x0⟩, ⟨19, 19, .ro, 0x0⟩, ⟨18, 17, .ro, 0x0⟩, ⟨16, 0, .ro, 0x0⟩]⟩,
   ⟨0x9004, 0x4, 1, [⟨31, 16, .rsv, 0x0⟩, ⟨15, 15, .ro, 0x1⟩, ⟨14, 14, .ro, 0x0⟩, ⟨13, 11, .ro, 0x0⟩, ⟨10, 6, .ro, 0x0⟩, ⟨5, 0, .rsv, 0x0⟩]⟩,
   ⟨0x9008, 0x4, 1, [⟨31, 0, .ro, 0x0⟩]⟩,
   ⟨0x9100, 0x20, 32, [⟨31, 15, .ro, 0x0⟩, ⟨14, 10, .ro, 0x0⟩, ⟨9, 4, .ro, 0x0⟩, ⟨3, 0, .ro, 0x0⟩]⟩,
   ⟨0x9104, 0x20, 32, [⟨31, 0, .ro, 0x0⟩]⟩,
   ⟨0x9108, 0x20, 32, [⟨31, 16, .ro, 0x0⟩, ⟨15, 0, .ro, 0x0⟩]⟩,
   ⟨0x910C, 0x20, 32, [⟨31, 24, .ro, 0x0⟩, ⟨23, 16, .ro, 0x0⟩, ⟨15, 8, .ro, 0x0⟩, ⟨7, 0, .ro, 0x0⟩]⟩,
   ⟨0x9110, 0x20, 32, [⟨31, 16, .ro, 0x0⟩, ⟨15, 0, .ro, 0x0⟩]⟩,
   ⟨0x9114, 0x20, 32, [⟨31, 2, .rsv, 0x0⟩, ⟨1, 1, .ow, 0x0⟩, ⟨0, 0, .ow, 0x0⟩]⟩,
   ⟨0x9118, 0x20, 32, [⟨31, 5, .rsv, 0x0⟩, ⟨4, 4, .w1c, 0x0⟩, ⟨3, 3, .w1c, 0x0⟩, ⟨2, 2, .w1c, 0x0⟩, ⟨1, 1, .w1c, 0x0⟩, ⟨0, 0, .w1c, 0x0⟩]⟩]

/-- Registers of the block at 0xA000 (R546, R548, R549). -/
def rowsImg : List RegRow :=
  [⟨0xA000, 0x4, 1, [⟨31, 24, .wo, 0x0⟩, ⟨23, 4, .rsv, 0x0⟩, ⟨3, 3, .ow, 0x0⟩, ⟨2, 0, .ow, 0x0⟩]⟩,
   ⟨0xA004, 0x4, 1, [⟨31, 0, .ow, 0x0⟩]⟩,
   ⟨0xA008, 0x4, 1, [⟨31, 31, .ro, 0x0⟩, ⟨30, 30, .ro, 0x0⟩, ⟨29, 29, .ro, 0x0⟩, ⟨28, 26, .ro, 0x0⟩, ⟨25, 25, .w1c, 0x0⟩, ⟨24, 24, .w1c, 0x0⟩, ⟨23, 18, .rsv, 0x0⟩, ⟨17, 0, .ro, 0x0⟩]⟩,
   ⟨0xB000, 0x4, 1024, [⟨31, 0, .ow, 0x0⟩]⟩]

/-- Registers of the block at 0x100000 (R546, R548, R549). -/
def rowsCore : List RegRow :=
  [⟨0x100000, 0x20, 192, [⟨31, 20, .ro, 0x0⟩, ⟨19, 8, .ro, 0x0⟩, ⟨7, 0, .ro, 0x0⟩]⟩,
   ⟨0x100004, 0x20, 192, [⟨31, 4, .rsv, 0x0⟩, ⟨3, 3, .w1c, 0x0⟩, ⟨2, 2, .w1c, 0x0⟩, ⟨1, 1, .w1c, 0x0⟩, ⟨0, 0, .w1c, 0x0⟩]⟩,
   ⟨0x100008, 0x20, 192, [⟨31, 22, .ro, 0x0⟩, ⟨21, 18, .ro, 0x0⟩, ⟨17, 12, .rsv, 0x0⟩, ⟨11, 0, .ro, 0x0⟩]⟩,
   ⟨0x10000C, 0x20, 192, [⟨31, 16, .ro, 0x0⟩, ⟨15, 0, .ro, 0x0⟩]⟩,
   ⟨0x100010, 0x20, 192, [⟨31, 30, .ro, 0x0⟩, ⟨29, 29, .ro, 0x0⟩, ⟨28, 25, .ro, 0x0⟩, ⟨24, 17, .ro, 0x0⟩, ⟨16, 0, .rsv, 0x0⟩]⟩,
   ⟨0x100014, 0x20, 192, [⟨31, 16, .ro, 0x0⟩, ⟨15, 8, .ro, 0x0⟩, ⟨7, 0, .ro, 0x0⟩]⟩,
   ⟨0x100018, 0x20, 192, [⟨31, 16, .ro, 0x0⟩, ⟨15, 8, .ro, 0x0⟩, ⟨7, 0, .ro, 0x0⟩]⟩,
   ⟨0x10001C, 0x20, 192, [⟨31, 24, .ro, 0x0⟩, ⟨23, 17, .rsv, 0x0⟩, ⟨16, 0, .ro, 0x0⟩]⟩]

/-- Registers of the block at 0x110000 (R546, R548, R549). -/
def rowsSync : List RegRow :=
  [⟨0x110000, 0x4, 12288, [⟨31, 0, .ro, 0x0⟩]⟩,
   ⟨0x120000, 0x4, 12288, [⟨31, 0, .ro, 0x0⟩]⟩,
   ⟨0x130000, 0x4, 12288, [⟨31, 0, .ro, 0x0⟩]⟩]

/-- Registers of the block at 0x200000 (R546, R548, R549). -/
def rowsBatt : List RegRow :=
  [⟨0x200000, 0x40, 1536, [⟨31, 16, .ro, 0x4000⟩, ⟨15, 8, .ro, 0x80⟩, ⟨7, 4, .rsv, 0x0⟩, ⟨3, 0, .ro, 0x0⟩]⟩,
   ⟨0x200004, 0x40, 1536, [⟨31, 0, .ro, 0x0⟩]⟩,
   ⟨0x200008, 0x40, 1536, [⟨31, 16, .ro, 0x0⟩, ⟨15, 0, .ro, 0x0⟩]⟩,
   ⟨0x20000C, 0x40, 1536, [⟨31, 26, .rsv, 0x0⟩, ⟨25, 20, .ro, 0x0⟩, ⟨19, 16, .ro, 0x0⟩, ⟨15, 8, .ro, 0x0⟩, ⟨7, 0, .ro, 0x0⟩]⟩,
   ⟨0x200010, 0x40, 1536, [⟨31, 4, .rsv, 0x0⟩, ⟨3, 3, .w1c, 0x0⟩, ⟨2, 2, .w1c, 0x0⟩, ⟨1, 1, .w1c, 0x0⟩, ⟨0, 0, .w1c, 0x0⟩]⟩,
   ⟨0x200014, 0x40, 1536, [⟨31, 12, .ro, 0x0⟩, ⟨11, 1, .ro, 0x0⟩, ⟨0, 0, .rsv, 0x0⟩]⟩,
   ⟨0x200018, 0x40, 1536, [⟨31, 21, .ro, 0x0⟩, ⟨20, 10, .ro, 0x0⟩, ⟨9, 0, .rsv, 0x0⟩]⟩,
   ⟨0x20001C, 0x40, 1536, [⟨31, 22, .ro, 0x3C⟩, ⟨21, 11, .ro, 0x0⟩, ⟨10, 0, .ro, 0x0⟩]⟩,
   ⟨0x200020, 0x40, 1536, [⟨31, 8, .rsv, 0x0⟩, ⟨7, 7, .w1c, 0x0⟩, ⟨6, 6, .w1c, 0x0⟩, ⟨5, 5, .w1c, 0x0⟩, ⟨4, 4, .w1c, 0x0⟩, ⟨3, 3, .w1c, 0x0⟩, ⟨2, 2, .w1c, 0x0⟩, ⟨1, 1, .w1c, 0x0⟩, ⟨0, 0, .w1c, 0x0⟩]⟩,
   ⟨0x200024, 0x40, 1536, [⟨31, 25, .rsv, 0x0⟩, ⟨24, 18, .ro, 0x0⟩, ⟨17, 17, .ro, 0x0⟩, ⟨16, 16, .ro, 0x0⟩, ⟨15, 0, .ro, 0x0⟩]⟩,
   ⟨0x200028, 0x40, 1536, [⟨31, 16, .ro, 0x0⟩, ⟨15, 8, .ro, 0x0⟩, ⟨7, 0, .ro, 0x0⟩]⟩,
   ⟨0x20002C, 0x40, 1536, [⟨31, 24, .ro, 0x0⟩, ⟨23, 16, .ro, 0x0⟩, ⟨15, 10, .ro, 0x0⟩, ⟨9, 0, .ro, 0x0⟩]⟩] ++
  [⟨0x200030, 0x40, 1536, [⟨31, 31, .ro, 0x0⟩, ⟨30, 0, .ro, 0x0⟩]⟩,
   ⟨0x200034, 0x40, 1536, [⟨31, 15, .rsv, 0x0⟩, ⟨14, 0, .ro, 0x0⟩]⟩]

/-- Registers of the block at 0x300000 (R546, R548, R549). -/
def rowsCtx : List RegRow :=
  [⟨0x300000, 0x100, 1024, [⟨31, 16, .ro, 0x0⟩, ⟨15, 8, .rsv, 0x0⟩, ⟨7, 7, .ro, 0x0⟩, ⟨6, 6, .ro, 0x0⟩, ⟨5, 5, .ro, 0x0⟩, ⟨4, 3, .rsv, 0x0⟩, ⟨2, 0, .ro, 0x0⟩]⟩,
   ⟨0x300004, 0x100, 1024, [⟨31, 24, .ow, 0x0⟩, ⟨23, 3, .rsv, 0x0⟩, ⟨2, 0, .ow, 0x0⟩]⟩,
   ⟨0x300008, 0x100, 1024, [⟨31, 16, .ro, 0x0⟩, ⟨15, 8, .rsv, 0x0⟩, ⟨7, 0, .ro, 0x0⟩]⟩,
   ⟨0x30000C, 0x100, 1024, [⟨31, 16, .ro, 0x0⟩, ⟨15, 0, .ro, 0x0⟩]⟩,
   ⟨0x300010, 0x100, 1024, [⟨31, 4, .rsv, 0x0⟩, ⟨3, 3, .w1c, 0x0⟩, ⟨2, 2, .w1c, 0x0⟩, ⟨1, 1, .w1c, 0x0⟩, ⟨0, 0, .w1c, 0x0⟩]⟩,
   ⟨0x300014, 0x100, 1024, [⟨31, 0, .ro, 0x0⟩]⟩,
   ⟨0x300018, 0x100, 1024, [⟨31, 0, .ro, 0x0⟩]⟩,
   ⟨0x30001C, 0x100, 1024, [⟨31, 8, .rsv, 0x0⟩, ⟨7, 6, .ro, 0x0⟩, ⟨5, 5, .ro, 0x0⟩, ⟨4, 4, .ro, 0x0⟩, ⟨3, 2, .ro, 0x0⟩, ⟨1, 1, .ro, 0x0⟩, ⟨0, 0, .ow, 0x0⟩]⟩,
   ⟨0x300020, 0x100, 1024, [⟨31, 0, .ow, 0x3F800000⟩]⟩,
   ⟨0x300024, 0x100, 1024, [⟨31, 0, .ro, 0x7FC00000⟩]⟩,
   ⟨0x300028, 0x100, 1024, [⟨31, 16, .ro, 0x0⟩, ⟨15, 8, .ro, 0x0⟩, ⟨7, 0, .ro, 0x0⟩]⟩,
   ⟨0x30002C, 0x100, 1024, [⟨31, 5, .rsv, 0x0⟩, ⟨4, 4, .w1c, 0x0⟩, ⟨3, 3, .w1c, 0x0⟩, ⟨2, 2, .w1c, 0x0⟩, ⟨1, 1, .w1c, 0x0⟩, ⟨0, 0, .w1c, 0x0⟩]⟩] ++
  [⟨0x300030, 0x100, 1024, [⟨31, 0, .ro, 0x0⟩]⟩,
   ⟨0x300034, 0x100, 1024, [⟨31, 0, .ro, 0x0⟩]⟩,
   ⟨0x300038, 0x100, 1024, [⟨31, 16, .ro, 0x0⟩, ⟨15, 0, .ro, 0x0⟩]⟩,
   ⟨0x30003C, 0x100, 1024, [⟨31, 0, .ro, 0x0⟩]⟩,
   ⟨0x300040, 0x100, 1024, [⟨31, 21, .ro, 0x0⟩, ⟨20, 0, .ro, 0x0⟩]⟩,
   ⟨0x300044, 0x100, 1024, [⟨31, 0, .ro, 0x0⟩]⟩,
   ⟨0x300048, 0x100, 1024, [⟨31, 0, .ro, 0x0⟩]⟩,
   ⟨0x30004C, 0x100, 1024, [⟨31, 16, .ro, 0x0⟩, ⟨15, 0, .ro, 0x0⟩]⟩,
   ⟨0x300050, 0x100, 1024, [⟨31, 0, .ro, 0x0⟩]⟩,
   ⟨0x300054, 0x100, 1024, [⟨31, 4, .rsv, 0x0⟩, ⟨3, 3, .w1c, 0x0⟩, ⟨2, 2, .w1c, 0x0⟩, ⟨1, 1, .w1c, 0x0⟩, ⟨0, 0, .w1c, 0x0⟩]⟩,
   ⟨0x300058, 0x100, 1024, [⟨31, 24, .ro, 0x0⟩, ⟨23, 22, .rsv, 0x0⟩, ⟨21, 18, .ro, 0x3⟩, ⟨17, 0, .ro, 0x0⟩]⟩,
   ⟨0x30005C, 0x100, 1024, [⟨31, 16, .ro, 0x0⟩, ⟨15, 8, .ro, 0x0⟩, ⟨7, 0, .ro, 0x0⟩]⟩] ++
  [⟨0x300060, 0x100, 1024, [⟨31, 24, .ro, 0x0⟩, ⟨23, 18, .rsv, 0x0⟩, ⟨17, 17, .ro, 0x0⟩, ⟨16, 0, .ro, 0x0⟩]⟩,
   ⟨0x300064, 0x100, 1024, [⟨31, 0, .ro, 0x0⟩]⟩,
   ⟨0x300068, 0x100, 1024, [⟨31, 5, .rsv, 0x0⟩, ⟨4, 4, .w1c, 0x0⟩, ⟨3, 3, .w1c, 0x0⟩, ⟨2, 2, .w1c, 0x0⟩, ⟨1, 1, .w1c, 0x0⟩, ⟨0, 0, .w1c, 0x0⟩]⟩,
   ⟨0x30006C, 0x100, 1024, [⟨31, 16, .ro, 0x0⟩, ⟨15, 8, .ro, 0x0⟩, ⟨7, 4, .ro, 0x0⟩, ⟨3, 0, .ro, 0x0⟩]⟩,
   ⟨0x300070, 0x100, 1024, [⟨31, 16, .ro, 0x0⟩, ⟨15, 0, .ro, 0x0⟩]⟩,
   ⟨0x300074, 0x100, 1024, [⟨31, 0, .ro, 0x0⟩]⟩,
   ⟨0x300078, 0x100, 1024, [⟨31, 0, .ro, 0x0⟩]⟩,
   ⟨0x30007C, 0x100, 1024, [⟨31, 0, .ro, 0x0⟩]⟩,
   ⟨0x300080, 0x100, 1024, [⟨31, 16, .ro, 0x0⟩, ⟨15, 0, .ro, 0x0⟩]⟩,
   ⟨0x300084, 0x100, 1024, [⟨31, 4, .ro, 0x0⟩, ⟨3, 0, .ro, 0x0⟩]⟩,
   ⟨0x300088, 0x100, 1024, [⟨31, 0, .ro, 0x0⟩]⟩,
   ⟨0x30008C, 0x100, 1024, [⟨31, 16, .ro, 0x0⟩, ⟨15, 8, .ro, 0x0⟩, ⟨7, 0, .ro, 0x0⟩]⟩] ++
  [⟨0x300090, 0x100, 1024, [⟨31, 12, .rsv, 0x0⟩, ⟨11, 8, .ro, 0x0⟩, ⟨7, 2, .rsv, 0x0⟩, ⟨1, 0, .ow, 0x0⟩]⟩,
   ⟨0x300094, 0x100, 1024, [⟨31, 16, .ro, 0x0⟩, ⟨15, 8, .ro, 0x0⟩, ⟨7, 0, .ro, 0x0⟩]⟩,
   ⟨0x300098, 0x100, 1024, [⟨31, 6, .rsv, 0x0⟩, ⟨5, 5, .w1c, 0x0⟩, ⟨4, 4, .w1c, 0x0⟩, ⟨3, 3, .w1c, 0x0⟩, ⟨2, 2, .w1c, 0x0⟩, ⟨1, 1, .w1c, 0x0⟩, ⟨0, 0, .w1c, 0x0⟩]⟩]

/-- Registers of the block at 0x400000 (R546, R548, R549). -/
def rowsHsess : List RegRow :=
  [⟨0x400000, 0x20, 4096, [⟨31, 31, .ow, 0x0⟩, ⟨30, 30, .ow, 0x0⟩, ⟨29, 29, .ow, 0x0⟩, ⟨28, 28, .ow, 0x0⟩, ⟨27, 26, .rsv, 0x0⟩, ⟨25, 16, .ow, 0x0⟩, ⟨15, 0, .ow, 0x0⟩]⟩,
   ⟨0x400004, 0x20, 4096, [⟨31, 0, .ow, 0x0⟩]⟩,
   ⟨0x400008, 0x20, 4096, [⟨31, 0, .ow, 0x0⟩]⟩,
   ⟨0x40000C, 0x20, 4096, [⟨31, 0, .ow, 0x0⟩]⟩,
   ⟨0x400010, 0x20, 4096, [⟨31, 0, .ow, 0x0⟩]⟩,
   ⟨0x400014, 0x20, 4096, [⟨31, 0, .ro, 0x0⟩]⟩,
   ⟨0x400018, 0x20, 4096, [⟨31, 0, .ro, 0x0⟩]⟩,
   ⟨0x40001C, 0x20, 4096, [⟨31, 0, .ro, 0x0⟩]⟩]

/-- Registers of the block at 0x800000 (R546, R548, R549). -/
def rowsRoute : List RegRow :=
  [⟨0x800000, 0x4, 131072, [⟨31, 0, .ro, 0x0⟩]⟩]

/-- The register rows that can hold address a. -/
def rowsAt (a : Nat) : List RegRow :=
  if 0x0 ≤ a ∧ a < 0x1000 then rowsDev else
  if 0x1000 ≤ a ∧ a < 0x2000 then rowsCfg else
  if 0x2000 ≤ a ∧ a < 0x3000 then rowsFlt else
  if 0x3000 ≤ a ∧ a < 0x5000 then rowsPwr else
  if 0x5000 ≤ a ∧ a < 0x6000 then rowsCal else
  if 0x6000 ≤ a ∧ a < 0x7000 then rowsSec else
  if 0x7000 ≤ a ∧ a < 0x8000 then rowsOwn else
  if 0x8000 ≤ a ∧ a < 0x9000 then rowsEth else
  if 0x9000 ≤ a ∧ a < 0xA000 then rowsLnk else
  if 0xA000 ≤ a ∧ a < 0xC000 then rowsImg else
  if 0x100000 ≤ a ∧ a < 0x110000 then rowsCore else
  if 0x110000 ≤ a ∧ a < 0x140000 then rowsSync else
  if 0x200000 ≤ a ∧ a < 0x300000 then rowsBatt else
  if 0x300000 ≤ a ∧ a < 0x400000 then rowsCtx else
  if 0x400000 ≤ a ∧ a < 0x800000 then rowsHsess else
  if 0x800000 ≤ a ∧ a < 0x880000 then rowsRoute else
  []

/-- Address a names a word of the row. -/
def RegRow.holds (r : RegRow) (a : Nat) : Bool :=
  decide (r.base ≤ a) && decide ((a - r.base) % r.stride = 0) && decide ((a - r.base) / r.stride < r.count)

/-- The register row at address a, none for a reserved word, a window or an unmapped word. -/
def rowAt (a : Nat) : Option RegRow := (rowsAt a).find? (fun r => r.holds a)

/-- Reset word of FLT_CORE of physical core c at manufacture: cores 44 to 47 of each die are spares, the others serve
logical core die x 44 + index (R411, log entry 3). -/
def fltCoreReset (c : Nat) : Nat :=
  if c % 48 < 44 then ((c / 48) * 44 + c % 48) * 2 ^ 17 else 2 ^ 30 + 0xFF * 2 ^ 17

/-- The reset word at address a: each field's reset value in its place (R556); a reserved word reads zero (R546). -/
def resetWord (a : Nat) : Word :=
  match rowAt a with
  | none => 0
  | some r =>
    if r.base = 0x100010 then BitVec.ofNat 32 (fltCoreReset ((a - r.base) / r.stride))
    else BitVec.ofNat 32 (r.fields.foldl (fun n f => n + f.reset * 2 ^ f.lo) 0)

/-- Windows of R546 other than IMG_WIN. -/
def isWindow (a : Nat) : Bool :=
  (decide (0x01000000 ≤ a) && decide (a ≤ 0x0100FFFF)) || (decide (0x02000000 ≤ a) && decide (a ≤ 0x020FFFFF)) ||
  (decide (0x02100000 ≤ a) && decide (a ≤ 0x021BFFFF)) || (decide (0x03000000 ≤ a) && decide (a ≤ 0x03FFFFFF)) ||
  (decide (0x10000000 ≤ a) && decide (a ≤ 0x1FFFFFFF))

/-- The word at address a is mapped (R546); a multiple of 4 is asked of it (R553, R554). -/
def isMapped (a : Nat) : Bool :=
  decide (a % 4 = 0) &&
  (decide (a ≤ 0xBFFF) || (decide (0x100000 ≤ a) && decide (a ≤ 0x1017FF)) ||
   (decide (0x110000 ≤ a) && decide (a ≤ 0x11BFFF)) || (decide (0x120000 ≤ a) && decide (a ≤ 0x12BFFF)) ||
   (decide (0x130000 ≤ a) && decide (a ≤ 0x13BFFF)) || (decide (0x200000 ≤ a) && decide (a ≤ 0x217FFF)) ||
   (decide (0x300000 ≤ a) && decide (a ≤ 0x33FFFF)) || (decide (0x400000 ≤ a) && decide (a ≤ 0x41FFFF)) ||
   (decide (0x800000 ≤ a) && decide (a ≤ 0x87FFFF)) || isWindow a)

/-- Field f of word w. -/
def Fld.of (f : Fld) (w : Word) : Nat := (w.toNat / 2 ^ f.lo) % 2 ^ (f.hi + 1 - f.lo)

/-- Word w with field f set to v, taken modulo the field's width. -/
def Fld.put (f : Fld) (w : Word) (v : Nat) : Word :=
  BitVec.ofNat 32 (w.toNat - (w.toNat / 2 ^ f.lo % 2 ^ (f.hi + 1 - f.lo)) * 2 ^ f.lo + v % 2 ^ (f.hi + 1 - f.lo) * 2 ^ f.lo)

/-- The word's address of index i. -/
def Fld.addr (f : Fld) (i : Nat) : Nat := f.base + f.stride * i

end Sys2Proof.Machine
end

