-- ==== Sys2Proof/Machine/State.lean ====
section
/-!
DEFINITION. Machine/State.lean: everything the module holds (INVENTORY.md, State). Registers are words of the management map; the
structures below hold the rest. Lists of units are sparse tables (Machine/Table.lean).
-/
namespace Sys2Proof.Machine

/-- What a message sent by the module carries (R355, R356, R513). -/
inductive Body where
  /-- no payload -/
  | none
  /-- register words of a MGMT_READ -/
  | words (l : List Word)
  /-- an event record: frame, unit kind, unit index, DETAIL0, DETAIL1 -/
  | event (frame kind index d0 d1 : Nat)
  /-- query outputs of the first k points of an admitted query, drawn byte by byte from Config.resultByte -/
  | result (query k : Nat)
  /-- a STREAM_OUT payload, as bytes -/
  | stream (l : List Byte)
  /-- a range of an export: context, CKPT_GEN, offset, length -/
  | exportData (ctx gen offset length : Nat) (head : List Byte)
deriving DecidableEq, Repr

/-- A message the module sends (R351). -/
structure OutMsg where
  type : Nat
  port : Nat
  session : Nat
  tag : Nat
  ctx : Nat
  gen : Nat
  status : Nat
  ind : Nat
  arg0 : Nat
  arg1 : Nat
  len : Nat
  body : Body
deriving DecidableEq, Repr

/-- The route that a flit leaves its source on (R336): the standby tree's (ALT) or the anchor tree's, first port and HOPS. -/
structure Route where
  alt : Bool
  port : Nat
  hops : Nat
deriving DecidableEq, Repr

/-- A message that is sent below TRP (R35, R346, R348), or a flit or record that leaves on a link. -/
inductive Wire where
  /-- a TRP message on a port -/
  | trp (port : Nat) (m : OutMsg)
  /-- an ICMP echo reply -/
  | echoReply (port : Nat)
  /-- an ARP request or neighbour solicitation for an address -/
  | solicit (port target : Nat) (v6 : Bool)
  /-- an ARP reply or neighbour advertisement -/
  | advertise (port target : Nat) (v6 : Bool)
  /-- an IEEE 1588 Delay_Req -/
  | delayReq (port : Nat)
  /-- flits of a link port: VC, kind of R320 and its payload as numbers -/
  | flit (port vc kind : Nat) (payload : List Nat)
  /-- a record to another module or to a member of a context: its route, VC, kind (MSG_KIND of R320; 256 for WRITE flits, 512 for SIGNAL
  flits), payload -/
  | record (route : Route) (dest vc kind : Nat) (payload : List Nat)
deriving DecidableEq, Repr

/-- A message held for the tick: class 0 a query result with its query's running number, 1 and 2 the message classes (R45). -/
structure HeldMsg where
  cls : Nat
  num : Nat
  msg : OutMsg
deriving DecidableEq, Repr

/-- An admitted query in a plan (R64, R65): request fields, running number, points, sizes, charged time, stages' cores, split headroom,
module boundaries crossed, energy, the stack of its input and output and the bytes moved there, whether a candidate was clamped (R184) and
whether it is to be answered with a refusal (R387). -/
structure PlacedQuery where
  num : Nat
  port : Nat
  session : Nat
  tag : Nat
  ctx : Nat
  gen : Nat
  points : Nat
  outBytes : Nat
  wire : Nat
  time : Nat
  cores : List Nat
  headroom : Nat
  cross : Nat
  energy : Nat
  stack : Nat
  bytes : Nat
  clamped : Bool
  refused : Bool
deriving DecidableEq, Repr

/-- A plan (R54, R64, R71): the number of the frame it was made for (R135), class-0 queries, dispatched items, dispatched debt rows (batt
and row), contexts with work, the energy charged, class-1 energy by context (R386), and CP1's picks for duplication (R420). -/
structure Plan where
  number : Nat
  queries : List PlacedQuery
  items : List WorkItem
  rows : List (Nat × Nat)
  contexts : List Nat
  charged : Nat
  charged1 : List (Nat × Nat)
  dup : List (Nat × Nat)
deriving DecidableEq, Repr

/-- A query whose path crosses modules and is not answered yet: ticks until its release after the closing one (R74), and the step that
answers (R28). -/
structure Flying where
  query : PlacedQuery
  left : Nat
  step : Nat
deriving DecidableEq, Repr

/-- A signal to another module, held to the commit window (R48). -/
structure HeldSignal where
  dest : Nat
  ctx : Nat
  gen : Nat
  core : Nat
  ctr : Nat
  inc : Nat
  bytes : Nat
deriving DecidableEq, Repr

/-- A step record or DIGEST held to the commit window (R48, R280, R429): MSG_KIND, the modules it goes to and its payload. -/
structure HeldRec where
  ctx : Nat
  gen : Nat
  kind : Nat
  dests : List Nat
  bytes : List Nat
deriving DecidableEq, Repr

/-- WRITE bytes that the frame sent to a receive region of another module (R399). -/
structure SentBytes where
  dest : Nat
  ctx : Nat
  gen : Nat
  addr : Nat
  bytes : Nat
deriving DecidableEq, Repr

/-- What the executing plan has charged and what is left (R56, R58, R59, R117, R380): time by unit (physical core x 16 + engine) in thirds
of ns, flits by port x 8 + VC, egress bytes by Ethernet port, row-operation time by core in ns, context switches by core,
blockings by batt that have not ended, energy and the
12 stacks' bytes left to the class being placed; time beyond its charge by unit, and energy from the reserve (R68, R183). -/
structure Ledger where
  units : Tbl Nat
  flits : Tbl Nat
  eth : Tbl Nat
  rows : Tbl Nat
  swaps : Tbl Nat
  blocks : Tbl Nat
  pool : List Nat
  extra : Tbl Nat
  reserve : Nat
deriving DecidableEq, Repr

/-- The frame machinery (02_frames.md). -/
structure FrameSt where
  /-- cause of the kill of this frame (R400), none while it is alive -/
  killed : Option Nat
  /-- plans; the head executes in this frame -/
  plans : List Plan
  flying : List Flying
  /-- VC0 flits of cross-module pipelines: context, frame, flits (R65) -/
  xfer : List (Nat × Nat × Nat)
  q1 : Nat
  q2 : Nat
  /-- energy excess carried to the next plan (R469) -/
  carry : Nat
  /-- queries admitted so far: the running number -/
  queries : Nat
  signals : List HeldSignal
  records : List HeldRec
  wrote : List SentBytes
  held : List HeldMsg
  ledger : Ledger
  /-- fill work that did not fit and waits for returned charges (R59) -/
  waiting : List WorkItem
  /-- remainders of items that stopped at a cut point: first in the next plan (R172) -/
  cuts : List WorkItem
  /-- class-2 messages of a tick that wait behind its STREAM_OUT (R45) -/
  tail : List OutMsg
deriving DecidableEq, Repr

/-- A message in reassembly, or an identity kept quiet after a rejection (R353, R354). -/
structure Reasm where
  session : Nat
  type : Nat
  tag : Nat
  port : Nat
  len : Nat
  gen : Nat
  ctx : Nat
  arg0 : Nat
  arg1 : Nat
  ranges : List (Nat × Nat)
  last : Nat
  quiet : Bool
deriving DecidableEq, Repr

/-- A host session beyond its registers: port last used, sequence number of its EVENT and STREAM_OUT (R357), highest consumed
sample (R37), and whether its sample numbers restart at the tick (R361). -/
structure HostSess where
  lastPort : Option Nat
  seq : Nat
  consumed : Nat
  restart : Bool
deriving DecidableEq, Repr

/-- A management session beyond OWN_SESS (R362, R363). -/
structure MgmtSess where
  addr : Nat
  v6 : Bool
  udp : Nat
  nonce : Nat
  lastMsg : Nat
  lastPort : Nat
  seq : Nat
  serial : Nat
deriving DecidableEq, Repr

/-- A claim under verification or waiting for its decision (R363, R364), with the fixed part of its credential as one big-endian number
(R509). -/
structure Claim where
  own : Bool
  req : Req
  nonce : Nat
  frame : Nat
  arrived : Nat
  cred : Nat
  verdict : Option ProofVerdict
deriving DecidableEq, Repr

/-- An admitted RELEASE without CLOSE (0), RELEASE with CLOSE (1) or HANDOVER (2) waiting for the tick (R364). -/
structure OwnReq where
  kind : Nat
  req : Req
deriving DecidableEq, Repr

/-- Ethernet ports, reassembly and sessions (10_host_ports.md). -/
structure PortSt where
  reasm : List Reasm
  /-- times of the echo replies of the last second: port and time -/
  echoes : List (Nat × Nat)
  neighbours : List (Nat × Nat)
  assocs : Tbl Assoc
  ptpSec : Nat
  ptpNs : Nat
  ptpPort : Option Nat
  hosts : Tbl HostSess
  mgmt : Tbl MgmtSess
  lease : Nat
  nonces : List Nat
  claims : List Claim
  requests : List OwnReq
  /-- time at which the module entered service after its start (R543) -/
  inServiceAt : Nat
deriving DecidableEq, Repr

/-- An entry of the input-and-seed log (R450): kind 1 samples, kind 2 step. `units` is its size in 64-byte units, `data` the samples of a sample entry. -/
structure LogEntry where
  kind : Nat
  pos : Nat
  units : Nat
  session : Nat
  count : Nat
  firstSeq : Nat
  frame : Nat
  bytes : Nat
  closed : Bool
  skipped : Bool
  heldOnce : Bool
  step : Nat
  roundPos : Nat
  firstEntry : Nat
  firstIndex : Nat
  nTot : Nat
  loss : Word
  lrScale : Word
  updates : Nat
  hash : Nat
  data : List Sample
deriving DecidableEq, Repr

/-- A step in progress (R240, R265): number, samples taken, hatbox outcome (layers dropped or spilled, or ABORT), frame of its beginning.
`stage` is 0 until the scalars of R260 stand, 1 until UPDATE is complete, 2 until the votes are, 3 when the step may commit. `amax` holds
a_t by tensor, `ranged` the tensors that failed the range check once, `skipRange` that R427 skips the step. `held` waits for a retry of
R131 against `naps` (batt and length of its list at the last attempt). `replay` is a step recomputed from the log (R460) and
`replayLoss` the LOSS of its entry. -/
structure StepRun where
  step : Nat
  samples : List Sample
  dropped : List Nat
  spilled : List Nat
  abort : Bool
  begun : Nat
  stage : Nat
  loss : Word
  nTot : Nat
  grad2 : Word
  nonFinite : Bool
  amax : List (Nat × Word)
  ranged : List Nat
  skipRange : Bool
  lrScale : Word
  eta : Word
  p1 : Word
  p2 : Word
  invN : Word
  clip : Word
  updated : List Nat
  held : Bool
  heldOnce : Bool
  naps : List (Nat × Nat)
  replay : Bool
  replayLoss : Word
deriving DecidableEq, Repr

/-- A row of transfer debt (R130, R132): batt, row, weights, frame it was queued in, whether STARVED was sent. -/
structure DebtRow where
  batt : Nat
  row : Nat
  weights : Nat
  since : Nat
  starved : Bool
deriving DecidableEq, Repr

/-- A load or restore in progress (R384, R457): the request that waits for the response, whether it is a restore, its source (1 latest, 2
previous), its stage (1 sections awaited, 2 RESTORED awaited, 4 masters awaited, 6 acceptance awaited, 7 accepted, 9 refused), the frame it
began in, the section set, CKPT_GEN by member whose RESTORED has been applied, votes, whether INIT 2 began it, and the package of a LOAD_MODEL
(R515). -/
structure LoadRun where
  request : Option Req
  restore : Bool
  source : Nat
  stage : Nat
  begun : Nat
  set_ : Option Generation
  members : List (Nat × Nat)
  votes : List (Nat × Bool)
  init2 : Bool
  pkg : Option Package
deriving DecidableEq, Repr

/-- A checkpoint being taken (R444 to R448): s_c, generation number, the members that take it, T(c) once reached, holders and members that
have sent DONE, the sessions' consumed numbers at T(c), and the section set. -/
structure CkptRun where
  step : Nat
  gen : Nat
  members : List Nat
  taken : Option Nat
  tFrame : Nat
  holdersDone : List Nat
  membersDone : List Nat
  consumed : List (Nat × Nat)
  snap : Option Generation
deriving DecidableEq, Repr

/-- An export held in the export area (R453 to R455). -/
structure ExportRun where
  id : Nat
  gen : Nat
  ckpt : Nat
  setId : Nat
  key : Nat
  length : Nat
  sent : Nat
  session : Nat
  port : Nat
  tag : Nat
  lastSent : Nat
  busy : Bool
  displaceable : Bool
deriving DecidableEq, Repr

/-- Checkpoint state of a context beyond its registers (14_checkpoint_and_replay.md): the generations, when a checkpoint last started, C and
τ of R449 in ns (0 before the first completion), the time since which M counts, the last generation number named, whether a step has
committed since the last complete checkpoint, failures, lost holders and exports. -/
structure CkptSt where
  run : Option CkptRun
  latest : Option Generation
  previous : Option Generation
  lastStart : Option Nat
  lastC : Nat
  tau : Nat
  lastGen : Nat
  fresh : Bool
  sinceReady : Option Nat
  fails : List Nat
  lostHolders : List Nat
  exports : List ExportRun
  nextExportId : Nat
deriving DecidableEq, Repr

/-- Fields of a SCALAR record (R287) by context index. -/
structure Scal where
  idx : Nat
  loss : Word
  g : Word
  nonFinite : Bool
deriving DecidableEq, Repr

/-- A DIGEST received for the running exchange (R429). -/
structure Dig where
  scope : Nat
  sender : Nat
  subject : Nat
  d1 : Nat
  d2 : Nat
deriving DecidableEq, Repr

/-- The gradient exchange of a context (08_gradient_exchange.md) and its digests (13_silent_errors.md). Members of the context are named by
context index, those of the data group by member index. `lost` holds lost modules with their effective frame, `pending` reports not yet in
effect, `adopting` the modules whose moments are being read, from which frame, and whether they have landed (R461). `summed` and `applied`
hold the tensors summed and the owners whose masters are applied in this attempt, `refereed` the chunks under a referee. `ad` is AD(X) at
the last commit and `adNew` the digest of X's rows as applied in this attempt, with the module's own WD and its RD in `ownRd`. `full` and
`fullStep` are the scope-1 digests of the step they name; `tries` counts the decisions of R432 in this step;
`stopped` says that the module's own ABANDON waits for the commit window. -/
structure ExchSt where
  attempt : Nat
  ready : Bool
  startAt : Option Nat
  rerunAt : Option Nat
  resumeAt : Option Nat
  stateAt : Option Nat
  scalars : List Scal
  votes : List (Nat × Nat)
  voted : Bool
  resumes : List Nat
  states : List (Nat × Bool)
  lost : List (Nat × Nat)
  pending : List (Nat × Nat)
  adopting : List (Nat × Nat × Bool)
  summed : List Nat
  applied : List Nat
  compared : List Nat
  refereed : List Nat
  digests : List Dig
  ad : Tbl Nat
  adNew : Tbl Nat
  ownRd : Nat
  full : List (Nat × Nat)
  fullStep : Nat
  disputes : List (Nat × Nat)
  digestAt : Option Nat
  tries : Nat
  stopped : Bool
deriving DecidableEq, Repr

/-- Values of the service counters at the last STREAM_OUT (R37, R356). -/
structure StreamBase where
  sat : Nat
  zero : Nat
  ovf : Nat
  esc : Nat
deriving DecidableEq, Repr

/-- A context beyond its registers: the record (R381), queue, log, step, layers (and as the last tick left them, R397), debt, and the
engines that serve it; `replays` lists the logged steps still to be recomputed (R460), `escSent` says that the window of R175 has had
its EVENT. -/
structure Ctx where
  template : Option Nat
  held : Bool
  roundPos : Nat
  updates : Nat
  p1 : Word
  p2 : Word
  vtime : Nat
  seedKey : Nat
  logPos : Nat
  logNext : Nat
  cores : List Nat
  batts : List Nat
  slots : Nat
  regions : List Region
  intake : List Sample
  log : List LogEntry
  step : Option StepRun
  cmd : Option Nat
  loading : Option LoadRun
  reserved : Bool
  fence : Option Nat
  fenced : Bool
  faultDue : Option Nat
  unsound : List (Nat × Nat)
  layers : Tbl LayerSt
  opening : Tbl LayerSt
  openStep : Option StepRun
  openExch : ExchSt
  debt : List DebtRow
  dispatched : Nat
  window : Nat
  trained : Nat
  base : StreamBase
  escSent : Bool
  skips : Nat
  ckpt : CkptSt
  exch : ExchSt
  mstat : Tbl (List Word)
  restoreCmd : Option Nat
  zeroing : Bool
  replays : List Nat
  exportDue : Nat
deriving DecidableEq, Repr

/-- A weight of a batt's nap list (R130): row, column, BF16 difference as FP32. -/
structure Nap where
  row : Nat
  col : Nat
  delta : Word
deriving DecidableEq, Repr

/-- What a row operation of the frame wrote to the row's free slot (R129): row, its bytes by logical column, verify records by key; the tick
commits it unless the frame is killed. `kind` is that of the operation (R116, R138). -/
structure RowResult where
  row : Nat
  bytes : List (Nat × Byte)
  verify : List (Nat × Byte)
  kind : Nat
deriving DecidableEq, Repr

/-- A spare column being filled (R146): the logical column, the spare, and the bytes of the rows filled so far. -/
structure Fill where
  col : Nat
  spare : Nat
  rows : List (Nat × Byte)
deriving DecidableEq, Repr

/-- A batt's record in flash (R149): load owner (context, generation, layer), column scales, column map, retired, dark and worn sets and
column fault counts; the wear ceilings are written apart (R142). -/
structure BattRecord where
  owner : Option (Nat × Nat × Nat)
  scale : List Word
  map : Tbl Nat
  retired : List Nat
  dark : List Nat
  worn : List Nat
  faults : Tbl Nat
deriving DecidableEq, Repr

/-- A batt: cells in 1/64 level, and what its record keeps (R149) as it is in force. Its programmed image and verify record lie in memory.
Cells are keyed (row x 1058 + column) x 4 + cell (G+, G-, g+, g-); physical columns 0-1055, P 1056 and Z 1057. Changes of the column map,
the dark and worn sets and the scales wait for the record (`recordDue`); `record` is what flash holds, and with `recorded` it takes effect
at the tick, `loadIn` with the rows `loaded` for its scales (R168). `faulted` holds the columns with a fault since the last fulling pass; `fulRows` the rows read by the running pass with q_P in
1/64 q unit; times in ns. `refSum` holds the latest κ_k of each block as a fraction, `refRun` the blocks whose last read was discarded,
`refWin` the frames of discards. `busy` and `ran` say that a row operation, or a pass, ran in this frame (R53, R117); `openFill`,
`openRows` and `openMarks` are the fills and the fulling pass as the opening tick left them (R397). -/
structure Batt where
  owner : Option Nat
  cells : Tbl Int
  scale : List Word
  newScale : Option (List Word)
  colMap : Tbl Nat
  newMap : List (Nat × Nat)
  retired : List Nat
  dark : List Nat
  newDark : List Nat
  worn : List Nat
  newWorn : List Nat
  wear : Tbl Nat
  ceiling : Tbl Nat
  colFaults : Tbl Nat
  faulted : List Nat
  lastBlock : Tbl Nat
  naps : List Nap
  staged : List RowResult
  loaded : List RowResult
  filling : List Fill
  recordDue : Bool
  recorded : Bool
  loadIn : Bool
  record : BattRecord
  fulRows : List (Nat × Int)
  fulMarked : List Nat
  fulCount : Nat
  fulBusy : Bool
  fulNow : Bool
  fulStart : Option Nat
  fulEnd : Option Nat
  fulInterval : Nat
  refSum : Tbl (Nat × Nat)
  refRun : List Nat
  refWin : List Nat
  outParity : Bool
  open_ : Bool
  pattern : Bool
  busy : Bool
  ran : Bool
  openFill : List Fill
  openRows : List (Nat × Int)
  openMarks : List Nat
deriving DecidableEq, Repr

/-- A narrowed tile whose check has not passed (R171): context, tile counter, keys and lengths of its narrowed bytes and of its wide source, and
whether its last check found trouble. -/
structure Guard where
  ctx : Nat
  tcx : Nat
  dst : Nat
  dstLen : Nat
  src : Nat
  srcLen : Nat
  failed : Bool
deriving DecidableEq, Repr

/-- A physical core: counter sets and saved waits by context (the active one, the cached and the saved ones), the same sets as the
last tick left them, cross-module arrivals since that tick (VALUE, LANDED, PROMISED by context x 64 + counter), the cached contexts most
recent first, armed waits by waiter, mask registers k1 to k7, times of failed
tests, end of observation, whether it is rebuilding (R393), level of the reset in progress, engines in reset, HALT of its die, whether
it is a spare under test (R412), the save areas of the cached contexts as they stood when these were loaded, and the tiles whose check has not
passed, now and at the opening tick. -/
structure Core where
  sets : Tbl SaveArea
  opening : Tbl SaveArea
  arrived : Tbl (Nat × Nat × Nat)
  cached : List Nat
  waits : List (Nat × Wait)
  masks : Tbl (BitVec 64)
  failed : List Nat
  obsUntil : Option Nat
  rebuilding : Bool
  resetting : Option Nat
  engines : List Nat
  halted : Bool
  testing : Bool
  saved : Tbl SaveArea
  guards : List Guard
  openGuards : List Guard
deriving DecidableEq, Repr

/-- A reset in progress (R391): level 1 engine to 4 device, unit, engine, time it began, frames by which plans were deferred. -/
structure ResetRun where
  level : Nat
  unit : Nat
  engine : Nat
  start : Nat
  frames : Nat
deriving DecidableEq, Repr

/-- A duplicated item (R420 to R422): core, item, the digest kept, the other core, and whether the referee is pending. -/
structure Dup where
  core : Nat
  item : Nat
  other : Nat
  first : Nat
  second : Nat
  engine : Nat
deriving DecidableEq, Repr

/-- A record of the event log (R408): sequence number, status, the fields of the EVENT payload, PTP time. -/
structure LogRec where
  seq : Nat
  status : Nat
  frame : Nat
  kind : Nat
  index : Nat
  d0 : Nat
  d1 : Nat
  sec : Nat
  ns : Nat
deriving DecidableEq, Repr

/-- Faults, resets, silent errors and the event log (12_faults_and_resets.md, 13_silent_errors.md). `marginCore` is the core of the coming
margin frame, `marginRun` that of this one and whether it has been tested; `marginNext` and `marginVisits` say how far the round has come. -/
structure FaultSt where
  kills : List Nat
  devResets : List Nat
  resets : List ResetRun
  ownerReset : Bool
  oosDue : Option Nat
  logBuf : List LogRec
  log : Tbl LogRec
  logSeq : Nat
  referee : Option Dup
  marginNext : Nat
  marginCore : Option Nat
  marginRun : Option (Nat × Bool)
  marginVisits : Tbl Nat
  marginOdd : Bool
  mgmtDue : Bool
  roles : Tbl Nat
deriving DecidableEq, Repr

/-- Keys of one direction (R327, R328): key as a number, salt, epoch. -/
structure DirKey where
  key : Nat
  salt : Nat
  epoch : Nat
deriving DecidableEq, Repr

/-- A link port beyond its registers (09_aeline_link.md). `timer` is the start of the running attempt, auth, wait or down timer;
`keyState` 0 no key, 1 secret agreed (KEX done), 2 UP keys; `rekey` the state of a fresh exchange: start time, secret, switch SEQs. -/
structure Link where
  timer : Nat
  failures : Nat
  txSeq : Nat
  txGroup : Nat
  rxGroup : Nat
  rxSeq : Nat
  lastBlock : Nat
  nak : Bool
  acked : Nat
  resends : List Nat
  credits : Tbl Nat
  queue : List (Nat × Transit)
  secret : Nat
  finSent : Bool
  tx : Option DirKey
  rx : Option DirKey
  rekeyStart : Option Nat
  newSecret : Nat
  rekeyFinSent : Option Nat
  rekeyFinGot : Option Nat
  lastExchange : Nat
  firstSeal : Bool
  peerState : Nat
  peerUnaligned : Bool
  peerDepth : Nat
  lost : Bool
deriving DecidableEq, Repr

/-- A withdrawal in force (R399): late WRITEs of the source, context and FTAG are credited and not written until a frame. -/
structure Suppress where
  src : Nat
  ctx : Nat
  ftag : Nat
  until_ : Nat
deriving DecidableEq, Repr

/-- A signal entry or withdrawal from another module waiting for the next tick (R48, R399): withdrawals come first. -/
structure Arrived where
  src : Nat
  ctx : Nat
  gen : Nat
  withdraw : Bool
  core : Nat
  ctr : Nat
  inc : Nat
  bytes : Nat
deriving DecidableEq, Repr

/-- Tick alignment, routing and the system's readiness (09_aeline_link.md). -/
structure LinkSt where
  ports : Tbl Link
  arrived : List Arrived
  suppress : List Suppress
  theta : Int
  noParentSince : Option Nat
  slew : Int
  bridging : Option (Nat × Nat × Nat)
  anchorMoveAt : Option Nat
  anchorMoved : Bool
  childCounts : Tbl Nat
  countSent : Nat
  readySent : Bool
  partialSent : Bool
  joinSent : Bool
  bootAt : Nat
  relay : List (List Nat)
deriving DecidableEq, Repr

/-- Power, thermal state and the monitor converter (15_power_and_monitor.md). Energies in 1/30 pJ. `readings` holds the frames' input-power
readings in milliwatts with their times, `pastEnergy` the frames' charges with the times of their opening ticks. `hot` holds by unit (dies 0 to
3, hub 4, stacks from 5 on) the hottest reading of the last monitor cycle in 1/16 °C and how many cycles in a row it has been beyond HALT,
`level` the units' levels (R474). -/
structure PowerSt where
  converting : Bool
  enable : Bool
  clock : Bool
  pstand : Nat
  reserve : Nat
  reserveAt : Nat
  readings : List (Nat × Nat)
  pastEnergy : List (Nat × Nat)
  hot : Tbl (Int × Nat)
  level : Tbl Nat
  cycleDone : Bool
  cycleStart : Nat
  conversions : List Int
  aborts : Nat
  waiting : Bool
  urgent : List Nat
  announced : List Nat
  resultAt : Tbl Nat
  checked : List Nat
  deduct : Nat
  tripped : Bool
deriving DecidableEq, Repr

/-- A calibration request in progress (R491 to R496). -/
structure CalRun where
  scope : Nat
  unit : Nat
  session : Nat
deriving DecidableEq, Repr

/-- Calibration values (R486): items by unit and index, in the record's units; `staged` take effect at the tick, `lost` had no valid copy. -/
structure CalSt where
  run : Option CalRun
  items : Tbl Int
  staged : List (Nat × Int)
  lost : List Nat
deriving DecidableEq, Repr

/-- A fuse blow in progress (R501): address and bits. -/
structure FuseBlow where
  lo : Nat
  bits : Nat
  kind : Nat
  started : Bool
deriving DecidableEq, Repr

/-- Security, quotes and debug (17_security.md): the fuses, the long-term keys derived at each start (ID_PK as its 68 bytes, ID_HASH, and
the seed of the binding key), the signature state, the quotes and the debug log. -/
structure SecSt where
  fuses : Tbl Bool
  idPk : List Nat
  idHash : Nat
  bindSeed : Nat
  blow : List FuseBlow
  nextIndex : Nat
  limit : Nat
  recordSeq : Nat
  signed : Option Nat
  quotes : Tbl Nat
  quoteNonce : List Word
  quoteBusy : Option Nat
  lastQuote : Option Nat
  dbgChain : Nat
  dbgCount : Nat
  dbgOpen : Option Nat
  trace : Tbl Nat
  traceNext : Nat
  attest : List Nat
deriving DecidableEq, Repr

/-- One image slot of the flash (R526, R542). -/
structure SlotSt where
  words : List (Nat × Word)
  erasing : Bool
  sealing : Bool
deriving DecidableEq, Repr

/-- Flash slots and the image in force (18_image_and_boot.md). -/
structure ImageSt where
  slotA : SlotSt
  slotB : SlotSt
  accepted : Image
  network : Option (List NetPort)
  restart : Bool
deriving DecidableEq, Repr

/-- The module. -/
structure State where
  /-- management register words, live: what the next tick shows -/
  regs : Tbl Word
  /-- management register words committed at the last tick (R43) -/
  vis : Tbl Word
  /-- event bits set in this frame (R555) -/
  raised : Tbl Word
  /-- W1C bits to clear at the closing tick (R555) -/
  clears : Tbl Word
  /-- stack memory, scratchpads and accumulator files, in one list -/
  mem : List Host.Cell
  /-- time of the last tick, ns -/
  now : Nat
  /-- frame number n of the last tick -/
  frame : Nat
  fr : FrameSt
  ports : PortSt
  ctxs : Tbl Ctx
  batts : Tbl Batt
  cores : Tbl Core
  link : LinkSt
  flt : FaultSt
  pwr : PowerSt
  cal : CalSt
  sec : SecSt
  img : ImageSt
  /-- everything the module has sent, oldest first -/
  sent : List Wire
  /-- draws made of the free values (the model's own, log entry 1) -/
  freeCtr : Nat
  /-- commands waiting, oldest first (the model's own) -/
  pending : List Instr
deriving DecidableEq, Repr

/-- Reasons for which a command stops the module. -/
inductive Fault where
  /-- raised by an engine command whose instruction or descriptor holds a code that the spec reserves or a combination that the image
  loader refuses: no effect is given; safe -/
  | reservedCode
deriving DecidableEq, Repr

/-- Reasons for which a command has no meaning in the model. -/
inductive Refusal where
  /-- raised by an arm of exec without a meaning; safe: nothing is claimed of such a command -/
  | notModelled (mnemonic : String)
deriving DecidableEq, Repr

/-- No checkpoint, no generation (R448). -/
def CkptSt.empty : CkptSt := ⟨none, none, none, none, 0, 0, 0, false, none, [], [], [], 1⟩

/-- No exchange in progress. -/
def ExchSt.empty : ExchSt where
  attempt := 0
  ready := false
  startAt := none
  rerunAt := none
  resumeAt := none
  stateAt := none
  scalars := []
  votes := []
  voted := false
  resumes := []
  states := []
  lost := []
  pending := []
  adopting := []
  summed := []
  applied := []
  compared := []
  refereed := []
  digests := []
  ad := []
  adNew := []
  ownRd := 0
  full := []
  fullStep := 0
  disputes := []
  digestAt := none
  tries := 0
  stopped := false

/-- A FREE context (R383): P1 and P2 start at 1.0 (R260). -/
def Ctx.empty : Ctx where
  template := none
  held := false
  roundPos := 0
  updates := 0
  p1 := 0x3F800000
  p2 := 0x3F800000
  vtime := 0
  seedKey := 0
  logPos := 0
  logNext := 0
  cores := []
  batts := []
  slots := 0
  regions := []
  intake := []
  log := []
  step := none
  cmd := none
  loading := none
  reserved := false
  fence := none
  fenced := false
  faultDue := none
  unsound := []
  layers := []
  opening := []
  openStep := none
  openExch := .empty
  debt := []
  dispatched := 0
  window := 0
  trained := 0
  base := ⟨0, 0, 0, 0⟩
  escSent := false
  skips := 0
  ckpt := .empty
  exch := .empty
  mstat := []
  restoreCmd := none
  zeroing := false
  replays := []
  exportDue := 0

/-- A layer before its first step: nothing raised, listed or escalated. -/
def LayerSt.empty : LayerSt := ⟨0, 0, [], 0, 0, 0, [], 0, 0, false, false, [], [], [], [], [], [], 0⟩

/-- A record that nothing has been written to. -/
def BattRecord.empty : BattRecord := ⟨none, [], [], [], [], [], []⟩

/-- A batt with no load owner; cells at level 0, identity column map (log entry 6); fulling interval 60 s in ns (R141). -/
def Batt.empty : Batt where
  owner := none
  cells := []
  scale := []
  newScale := none
  colMap := []
  newMap := []
  retired := []
  dark := []
  newDark := []
  worn := []
  newWorn := []
  wear := []
  ceiling := []
  colFaults := []
  faulted := []
  lastBlock := []
  naps := []
  staged := []
  loaded := []
  filling := []
  recordDue := false
  recorded := false
  loadIn := false
  record := .empty
  fulRows := []
  fulMarked := []
  fulCount := 0
  fulBusy := false
  fulNow := false
  fulStart := none
  fulEnd := none
  fulInterval := 60000000000
  refSum := []
  refRun := []
  refWin := []
  outParity := false
  open_ := false
  pattern := false
  busy := false
  ran := false
  openFill := []
  openRows := []
  openMarks := []

/-- A counter at zero (R368). -/
def Counter.zero : Counter := ⟨0, 0, 0, 0, 0⟩

/-- An empty save area. -/
def SaveArea.empty : SaveArea := ⟨[], 0, []⟩

/-- A core with nothing in it; mask registers 0 (log entry 8). -/
def Core.empty : Core := ⟨[], [], [], [], [], [], [], none, false, none, [], false, false, [], [], []⟩

/-- A DARK port without keys. -/
def Link.empty : Link where
  timer := 0
  failures := 0
  txSeq := 0
  txGroup := 0
  rxGroup := 0
  rxSeq := 0
  lastBlock := 0
  nak := false
  acked := 0
  resends := []
  credits := []
  queue := []
  secret := 0
  finSent := false
  tx := none
  rx := none
  rekeyStart := none
  newSecret := 0
  rekeyFinSent := none
  rekeyFinGot := none
  lastExchange := 0
  firstSeal := false
  peerState := 0
  peerUnaligned := false
  peerDepth := 0
  lost := false

/-- A host session that has sent nothing. -/
def HostSess.empty : HostSess := ⟨none, 0, 0, false⟩

/-- A closed management session. -/
def MgmtSess.empty : MgmtSess := ⟨0, false, 0, 0, 0, 0, 0, 0⟩

/-- An association without a key. -/
def Assoc.empty : Assoc := ⟨[], 0, [], 1, 1⟩

/-- No image: no module, no context, no template (log entry 3). -/
def Image.empty : Image where
  build := 0
  svn := 0
  mFw := 0
  mImage := 0
  topoHash := 0
  policy := []
  net := []
  sessions := []
  anchor := 0
  standby := 0
  modules := 1
  holders := 1
  topo := []
  monLength := 0
  monitor := []
  contexts := []
  templates := []
  persist := []
  reserves := []
  parent := none
  children := []
  standbyParent := none
  imageHome := []
  programs := []
  plans := []
  exportKey := false

/-- An erased image slot (R542, log entry 3). -/
def SlotSt.empty : SlotSt := ⟨[], false, false⟩

/-- Nothing charged. -/
def Ledger.empty : Ledger := ⟨[], [], [], [], [], [], [], [], 0⟩

/-- The frame machinery at start. -/
def FrameSt.empty : FrameSt := ⟨none, [], [], [], 0, 0, 0, 0, [], [], [], [], .empty, [], [], []⟩

/-- Ports and sessions at start: everything closed (R365). -/
def PortSt.empty : PortSt := ⟨[], [], [], [], 2 ^ 48 - 1, 2 ^ 32 - 1, none, [], [], 0, [], [], [], 0⟩

/-- Link state at start. -/
def LinkSt.empty : LinkSt := ⟨[], [], [], 0, none, 0, none, none, false, [], 0, false, false, false, 0, []⟩

/-- Fault state at manufacture. -/
def FaultSt.empty : FaultSt := ⟨[], [], [], false, none, [], [], 0, none, 0, none, none, [], false, false, []⟩

/-- Power state before ENABLE closes (log entry 2): conversion off, ENABLE open, reference running, P_stand 160 W in µW, reserve 5 %
in tenths. -/
def PowerSt.empty : PowerSt where
  converting := false
  enable := false
  clock := true
  pstand := 160000000
  reserve := 50
  reserveAt := 0
  readings := []
  pastEnergy := []
  hot := []
  level := []
  cycleDone := false
  cycleStart := 0
  conversions := []
  aborts := 0
  waiting := false
  urgent := []
  announced := []
  resultAt := []
  checked := []
  deduct := 0
  tripped := false

/-- Calibration store at manufacture (log entry 7). -/
def CalSt.empty : CalSt := ⟨none, [], [], []⟩

/-- Security state at manufacture: no fuse blown, LIMIT 1,024 and index 0 (log entry 3). -/
def SecSt.empty : SecSt := ⟨[], [], 0, 0, [], 0, 1024, 0, none, [], [], none, none, 0, 0, none, [], 0, []⟩

/-- Flash at manufacture: both slots erased. -/
def ImageSt.empty : ImageSt := ⟨.empty, .empty, .empty, none, false⟩

/-- The module before ENABLE first closes: registers at their Reset values (R556), nothing stored, nothing waiting. -/
def State.reset : State where
  regs := []
  vis := []
  raised := []
  clears := []
  mem := []
  now := 0
  frame := 0
  fr := .empty
  ports := .empty
  ctxs := []
  batts := []
  cores := []
  link := .empty
  flt := .empty
  pwr := .empty
  cal := .empty
  sec := .empty
  img := .empty
  sent := []
  freeCtr := 0
  pending := []

end Sys2Proof.Machine
end

