-- ==== Sys2Proof/Machine/Ops.lean ====
section
/-!
DEFINITION. Machine/Ops.lean: the named operations over the module's registers, units and messages that every family of
commands shares: register fields (spec/19_management_registers.md), messages and events (spec/10_host_ports.md R356 to R359), the
event log (R408), memory, physical and logical cores, and budgets (spec/02_frames.md R56 to R58).
-/
namespace Sys2Proof.Machine

/-- The outcome of a command of the module. -/
abbrev Outcome := Host.Outcome State Fault Refusal

namespace State

/-- Live word of a register. -/
def reg (s : State) (a : Nat) : Word := tget (resetWord a) s.regs a

/-- Word committed at the last tick (R43). -/
def visReg (s : State) (a : Nat) : Word := tget (resetWord a) s.vis a

/-- Write a live register word. -/
def setReg (s : State) (a : Nat) (w : Word) : State := { s with regs := tset (resetWord a) s.regs a w }

/-- Live value of a field of index i. -/
def get (s : State) (f : Fld) (i : Nat) : Nat := f.of (s.reg (f.addr i))

/-- Value of a field as committed at the last tick: what every reader of this frame sees (R43). -/
def seen (s : State) (f : Fld) (i : Nat) : Nat := f.of (s.visReg (f.addr i))

/-- Set a field of index i, modulo its width; an index that the bank does not have names no register. -/
def put (s : State) (f : Fld) (i v : Nat) : State :=
  if i < f.count then s.setReg (f.addr i) (f.put (s.reg (f.addr i)) v) else s

/-- Set the whole word of index i. -/
def putWord (s : State) (f : Fld) (i : Nat) (w : Word) : State := if i < f.count then s.setReg (f.addr i) w else s

/-- Advance a counter field; counters wrap at their width (R367). -/
def bump (s : State) (f : Fld) (i n : Nat) : State := s.put f i (s.get f i + n)

/-- Advance a counter field that saturates. -/
def bumpSat (s : State) (f : Fld) (i n : Nat) : State := s.put f i (min (s.get f i + n) (2 ^ (f.hi + 1 - f.lo) - 1))

/-- Set an event bit; it stays 1 at the closing tick whatever a W1C write of this frame clears (R555). -/
def raise (s : State) (f : Fld) (i : Nat) : State :=
  if i < f.count then { s.put f i 1 with raised := tput s.raised (f.addr i) (f.put (tget 0 s.raised (f.addr i)) 1) } else s

/-- Record a W1C write: the bits clear at the closing tick (R555). -/
def clearAtTick (s : State) (a : Nat) (bits : Word) : State :=
  { s with clears := tput s.clears a (tget 0 s.clears a ||| bits) }

/-- A context beyond its registers. -/
def ctx (s : State) (c : Nat) : Ctx := tget Ctx.empty s.ctxs c

/-- Replace a context. -/
def setCtx (s : State) (c : Nat) (x : Ctx) : State := { s with ctxs := tset Ctx.empty s.ctxs c x }

/-- Change a context. -/
def updCtx (s : State) (c : Nat) (f : Ctx → Ctx) : State := s.setCtx c (f (s.ctx c))

/-- A batt by its index. -/
def batt (s : State) (b : Nat) : Batt := tget Batt.empty s.batts b

/-- Replace a batt. -/
def setBatt (s : State) (b : Nat) (x : Batt) : State := { s with batts := tset Batt.empty s.batts b x }

/-- Change a batt. -/
def updBatt (s : State) (b : Nat) (f : Batt → Batt) : State := s.setBatt b (f (s.batt b))

/-- A physical core. -/
def core (s : State) (p : Nat) : Core := tget Core.empty s.cores p

/-- Replace a core. -/
def setCore (s : State) (p : Nat) (x : Core) : State := { s with cores := tset Core.empty s.cores p x }

/-- Change a core. -/
def updCore (s : State) (p : Nat) (f : Core → Core) : State := s.setCore p (f (s.core p))

/-- A link port beyond its registers. -/
def linkPort (s : State) (p : Nat) : Link := tget Link.empty s.link.ports p

/-- Change a link port. -/
def updLink (s : State) (p : Nat) (f : Link → Link) : State :=
  { s with link := { s.link with ports := tset Link.empty s.link.ports p (f (s.linkPort p)) } }

/-- A layer of a context. -/
def layer (s : State) (c l : Nat) : LayerSt := tget LayerSt.empty (s.ctx c).layers l

/-- Change a layer of a context. -/
def updLayer (s : State) (c l : Nat) (f : LayerSt → LayerSt) : State :=
  s.updCtx c (fun x => { x with layers := tset LayerSt.empty x.layers l (f (s.layer c l)) })

/-- Draw a free value (log entry 1). -/
def draw (s : State) : Nat := Config.freeNat s.freeCtr

/-- The counter after a draw. -/
def drawn (s : State) : State := { s with freeCtr := s.freeCtr + 1 }

end State

/-- Address of a rotating slot: the committed one, or with `next` the free one (R51, R381). -/
def Ctx.slot (x : Ctx) (r : Rot) (next : Bool) : Nat := if (decide (x.slots / 2 ^ r.bit % 2 = 1)) != next then r.a1 else r.a0

/-- The exchange after a step has ended or been given up: what outlives a step stays. -/
def ExchSt.next (e : ExchSt) : ExchSt :=
  { ExchSt.empty with lost := e.lost, pending := e.pending, adopting := e.adopting, ad := e.ad, full := e.full, fullStep := e.fullStep }

/-- Policy words of R534: offset and default. -/
def policyDefault (o : Nat) : Nat :=
  match o with
  | 0x00 => 100 | 0x04 => 5 | 0x08 => 35 + 10 * 2 ^ 8 + 54 * 2 ^ 16 + 1 * 2 ^ 24
  | 0x0C => 10 + 25 * 2 ^ 8 + 20 * 2 ^ 16 + 10 * 2 ^ 24
  | 0x10 => 10 + 10 * 2 ^ 8 + 10 * 2 ^ 16 + 5 * 2 ^ 24
  | 0x14 => 1000 | 0x18 => 16 | 0x1C => 75 | 0x20 => 35 | 0x24 => 30 | 0x28 => 2048 | 0x2C => 950000
  | 0x30 => 10 | 0x34 => 600 | 0x38 => 60 | 0x3C => 256 | 0x40 => 64 | 0x44 => 256 | 0x48 => 1024 | 0x4C => 64
  | 0x50 => 1024 | 0x54 => 64 | 0x58 => 3 | 0x5C => 3 | 0x60 => 160 | 0x64 => 8 | 0x68 => 1000 | 0x6C => 8 | 0x70 => 1
  | 0x74 => 10 | 0x78 => 3600 | 0x7C => 1000 | 0x80 => 720 | 0x84 => 65535 | 0x88 => 4 | 0x8C => 60 | 0x90 => 10000
  | 0x94 => 0 | 0x98 => 1024 | 0x9C => 4096 | 0xA0 => 16
  | _ => 0

/-- A policy word of an image; the table lists those that differ from the default. -/
def Image.pol (g : Image) (o : Nat) : Nat := tget (policyDefault o) g.policy o

/-- Byte k of a packed policy word. -/
def byteOf (w k : Nat) : Nat := w / 2 ^ (8 * k) % 2 ^ 8

namespace State

/-- A policy word of the image in force (R540). -/
def pol (s : State) (o : Nat) : Nat := s.img.accepted.pol o

/-- Frame period in ns (R38). -/
def periodNs (s : State) : Nat := s.pol 0x00 * 1000

/-- Work region W = P - 2 µs (R39). -/
def workNs (s : State) : Nat := s.periodNs - 2000

/-- The context's entry in the context table (R535); a context the table does not list has no template. -/
def ctxEntry (s : State) (c : Nat) : CtxEntry := tget ⟨none, 0⟩ s.img.accepted.contexts c

/-- The template that the context table names for a context (R535). -/
def template (s : State) (c : Nat) : Option Template :=
  match (s.ctxEntry c).template with
  | none => none
  | some t => s.img.accepted.templates.find? (fun x => x.index = t)

/-- Context state code (R383), committed at the last tick. -/
def ctxState (s : State) (c : Nat) : Nat := s.seen F.CTX_STATE_STATE c

/-- The logical core that physical core p serves at manufacture (R9, R411). -/
def homeLogical (p : Nat) : Nat := p / 48 * 44 + p % 48

/-- Module phase (R550): 0 starting, 1 in service, 2 OUT_OF_SERVICE, 3 device reset in progress. -/
def phase (s : State) : Nat := s.get F.DEV_STATE_PHASE 0

/-- A core's logical number, none for a spare or fenced core (R411, R414). -/
def logicalOf (s : State) (p : Nat) : Option Nat :=
  if s.get F.FLT_CORE_ROLE p = 0 then some (s.get F.FLT_CORE_LOGICAL p) else none

/-- The physical core that serves a logical core (R411). -/
def physOf (s : State) (l : Nat) : Option Nat :=
  (List.range 192).find? (fun p => decide (s.get F.FLT_CORE_ROLE p = 0) && decide (s.get F.FLT_CORE_LOGICAL p = l))

/-- The batt that serves the image's batt b: images name batts of the cores' factory places, and a fence moves the logical core to a
spare (R411, log entry 19); 1,536 and above where no core serves it (R413). -/
def battOf (s : State) (b : Nat) : Nat :=
  match s.physOf (homeLogical (b / 8)) with
  | some p => p * 8 + b % 8
  | none => 1536 + b

end State

/-! Time of a pass and sub-pass charges (R93). -/

/-- Converter bits of a pass with R active rows (R93). -/
def passBits (rows : Nat) : Nat := if rows ≤ 16 then 6 else if rows ≤ 64 then 7 else if rows ≤ 256 then 8 else 9

/-- Pass time in ns of R active rows (R93). -/
def passTime (rows : Nat) : Nat := if rows ≤ 16 then 104 else if rows ≤ 64 then 120 else if rows ≤ 256 then 136 else 160

/-- s_worst of a layer: ⌈R / 256⌉, 1 with row splitting off (R64, R99). -/
def Layer.worst (l : Layer) : Nat := if l.splitting then max 1 ((l.rows + 255) / 256) else 1

/-! Energies, in 1/30 pJ (R58). -/

/-- 0.085 nJ per ns of a pass; times are in thirds of ns, so that a core cycle is 2. -/
def battEnergy (t : Nat) : Nat := 850 * t
/-- 0.37 W on a vector engine. -/
def vectorEnergy (t : Nat) : Nat := 3700 * t
/-- 1.17 W on a matrix engine. -/
def matrixEnergy (t : Nat) : Nat := 11700 * t
/-- 0.12 W on a band engine. -/
def bandEnergy (t : Nat) : Nat := 1200 * t
/-- 11.3 pJ for each byte of stack memory. -/
def memEnergy (n : Nat) : Nat := 339 * n
/-- 0.54 µJ for blocking a row. -/
def blockEnergy : Nat := 16200000
/-- 17 nJ for a fulling read of a row. -/
def fullEnergy : Nat := 510000

namespace State

/-- The envelope 600 W x P (R57). -/
def envelope (s : State) : Nat := 18000000 * s.periodNs

/-- E_res: the effective reserve, in tenths of a percent of the envelope (R57, R471). -/
def eRes (s : State) : Nat := s.envelope * s.pwr.reserve / 1000

/-- E_stand = P_stand x P, P_stand in µW (R57). -/
def eStand (s : State) : Nat := s.pwr.pstand * s.periodNs * 3 / 100

/-- E_ing = 2 x 100 bytes/ns x P x 11.3 pJ (R57). -/
def eIng (s : State) : Nat := memEnergy (200 * s.periodNs)

/-- E_sched (R56). -/
def eSched (s : State) : Nat := s.envelope - s.eRes - s.eStand - s.eIng

/-- A class's percent of the shares (R62): 0 class 0, 1 upkeep, 2 class 1, 3 class 2. -/
def share (s : State) (k : Nat) : Nat := byteOf (s.pol 0x08) k

/-- Memory budget of a stack: 0.9 x 1.28 TB/s x P less its part of the ingest allowance, 200 bytes/ns over 12 stacks (R56, R57). -/
def memBudget (s : State) : Nat := 13624 * s.periodNs / 12

/-- A VC's share of a port in percent (R60). -/
def vcShare (s : State) (v : Nat) : Nat := if v < 4 then byteOf (s.pol 0x0C) v else byteOf (s.pol 0x10) (v - 4)

/-- Flits that a VC may carry on a port in a frame (R56, R60). -/
def vcFlits (s : State) (v : Nat) : Nat := (390625 * s.pol 0x00 / 1000) * s.vcShare v / 100

end State

/-- Put an element before the first one that it does not come after. -/
def insertBy {α : Type} (le : α → α → Bool) (a : α) : List α → List α
  | [] => [a]
  | b :: r => if le a b then a :: b :: r else b :: insertBy le a r

/-- Sort by an order, keeping equal elements in place. -/
def sortBy {α : Type} (le : α → α → Bool) (l : List α) : List α := l.foldr (insertBy le) []

/-! Messages (R349 to R359). -/

/-- Response code of a request type (R352). -/
def respType (t : Nat) : Nat := if t = 1 then 2 else if t = 3 then 4 else t + 128

/-- Status codes used by the module's answers (R359). -/
def stOk : Nat := 0
/-- REJ_BUDGET. -/
def rejBudget : Nat := 0x0101
/-- REJ_LEN. -/
def rejLen : Nat := 0x0201
/-- REJ_FORMAT. -/
def rejFormat : Nat := 0x0202
/-- REJ_READ_ONLY. -/
def rejReadOnly : Nat := 0x0203
/-- REJ_ADDR. -/
def rejAddr : Nat := 0x0204
/-- REJ_OWNER. -/
def rejOwner : Nat := 0x0301
/-- REJ_OWNED. -/
def rejOwned : Nat := 0x0302
/-- REJ_CREDENTIAL. -/
def rejCredential : Nat := 0x0303
/-- REJ_SESSIONS. -/
def rejSessions : Nat := 0x0304
/-- REJ_SUCCESSOR. -/
def rejSuccessor : Nat := 0x0305
/-- REJ_BINDING. -/
def rejBinding : Nat := 0x0306
/-- REJ_CTX_STATE. -/
def rejCtxState : Nat := 0x0401
/-- ERR_OOS. -/
def errOos : Nat := 0x0502

/-- A status with its budget indicator and the ARG0 of the answer. -/
structure Verdict where
  status : Nat
  ind : Nat
  arg0 : Nat
deriving DecidableEq, Repr

/-- REJ_BUDGET with an indicator (R63). -/
def budget (i : Nat) : Verdict := ⟨rejBudget, i, 0⟩

/-- A status alone. -/
def verdict (st : Nat) : Verdict := ⟨st, 0, 0⟩

/-- The first failing check of an ordered list decides (R66). -/
def firstFail (l : List (Bool × Verdict)) : Option Verdict :=
  match l with
  | [] => none
  | (ok, v) :: r => if ok then firstFail r else some v

/-- An answer to a request: the request's identity echoed. -/
def answer (type : Nat) (r : Req) (v : Verdict) (arg1 : Nat) : OutMsg :=
  ⟨respType type, r.port, r.session, r.tag, r.ctx, r.gen, v.status, v.ind, v.arg0, arg1, 0, .none⟩

namespace State

/-- The port has PCS and FEC lock (R367). -/
def portUp (s : State) (p : Nat) : Bool := decide (s.get F.ETH_PORT_LINK_UP p = 1)

/-- The port a message leaves on: its own, or the other while its own is down; none with both down (R358). -/
def route (s : State) (p : Nat) : Option Nat :=
  if s.portUp (p % 2) then some (p % 2) else if s.portUp (1 - p % 2) then some (1 - p % 2) else none

/-- Messages that count as STREAMS when lost (R357): EVENT and STREAM_OUT. -/
def isStream (m : OutMsg) : Bool := decide (m.type = 8 ∨ m.type = 5)

/-- Send a message, or count it lost with both ports down (R358). -/
def send (s : State) (m : OutMsg) : State :=
  match s.route m.port with
  | some p => { s with sent := s.sent ++ [.trp p m] }
  | none => s.bump (if isStream m then F.ETH_TX_LOST_STREAMS else F.ETH_TX_LOST_RESPONSES) 0 1

/-- A STREAM_OUT goes out at the frame's opening tick (R36). -/
def streamDue (s : State) : Bool := decide (s.phase ≠ 0) && decide (0 < s.frame) && decide (s.frame % max 1 (s.pol 0x14) = 0)

/-- Send messages in their order. -/
def sendAll (s : State) (l : List OutMsg) : State := l.foldl (fun s m => s.send m) s

/-- Send the class-2 messages that wait behind a STREAM_OUT (R45). -/
def flushTail (s : State) : State := ({ s with fr := { s.fr with tail := [] } } : State).sendAll s.fr.tail

/-- Hold a message for the closing tick (R27, R45). -/
def hold (s : State) (cls : Nat) (m : OutMsg) : State := { s with fr := { s.fr with held := s.fr.held ++ [⟨cls, 0, m⟩] } }

/-- Hold a query's result for the tick. -/
def holdResult (s : State) (num : Nat) (m : OutMsg) : State := { s with fr := { s.fr with held := s.fr.held ++ [⟨0, num, m⟩] } }

/-- Reject a request at once (R63, R358). -/
def reject (s : State) (type : Nat) (r : Req) (v : Verdict) : State := s.send (answer type r v 0)

/-- Hold a request's success answer for the tick. -/
def accept (s : State) (type cls : Nat) (r : Req) (arg0 arg1 : Nat) : State :=
  s.hold cls (answer type r ⟨stOk, 0, arg0⟩ arg1)

/-- Host sessions that exist (R361), as committed. -/
def hostSessions (s : State) : List Nat :=
  ((s.vis.filter (fun e => decide (0x400000 ≤ e.1) && decide (e.1 < 0x420000) && decide (e.1 % 0x20 = 0))).map
    (fun e => (e.1 - 0x400000) / 0x20)).filter (fun i => decide (s.seen F.HSESS_CFG_VALID i = 1))

/-- Host sessions bound to a context (R16). -/
def boundSessions (s : State) (c : Nat) : List Nat := s.hostSessions.filter (fun i => decide (s.seen F.HSESS_CFG_CTX i = c))

/-- Management sessions that are open, by index 0 to 7 (R362). -/
def openMgmt (s : State) : List Nat := (List.range 8).filter (fun i => decide (s.get F.OWN_SESS_STATE i ≠ 0))

/-- A host session beyond its registers. -/
def host (s : State) (i : Nat) : HostSess := tget HostSess.empty s.ports.hosts i

/-- Change a host session. -/
def updHost (s : State) (i : Nat) (f : HostSess → HostSess) : State :=
  { s with ports := { s.ports with hosts := tset HostSess.empty s.ports.hosts i (f (s.host i)) } }

/-- A management session beyond OWN_SESS. -/
def mgmt (s : State) (i : Nat) : MgmtSess := tget MgmtSess.empty s.ports.mgmt i

/-- Change a management session. -/
def updMgmt (s : State) (i : Nat) (f : MgmtSess → MgmtSess) : State :=
  { s with ports := { s.ports with mgmt := tset MgmtSess.empty s.ports.mgmt i (f (s.mgmt i)) } }

/-- Port for unprompted traffic to a host session (R367). -/
def hostPort (s : State) (i : Nat) : Nat := (s.host i).lastPort.getD (s.seen F.HSESS_CFG_HOME_PORT i)

/-- Send an unprompted message (EVENT or STREAM_OUT) to a management session, with its next sequence number (R357). -/
def toMgmt (i : Nat) (m : OutMsg) (s : State) : State :=
  (s.updMgmt i (fun x => { x with seq := x.seq + 1 })).send
    { m with session := 0xFFF0 + i, port := (s.mgmt i).lastPort, arg0 := (s.mgmt i).seq % 2 ^ 32 }

/-- The same to a host session. -/
def toHost (i : Nat) (m : OutMsg) (s : State) : State :=
  (s.updHost i (fun x => { x with seq := x.seq + 1 })).send
    { m with session := i, port := s.hostPort i, arg0 := (s.host i).seq % 2 ^ 32 }

/-- Host sessions that receive a context's events: STREAM set (R357). -/
def streamSessions (s : State) (c : Nat) : List Nat :=
  (s.boundSessions c).filter (fun i => decide (s.seen F.HSESS_CFG_STREAM i = 1))

/-- Buffer a record of the event log, or count it lost with 4,096 records waiting (R408). -/
def logEvent (s : State) (status kind index d0 d1 : Nat) : State :=
  if s.flt.logBuf.length < 4096 then
    let rec_ : LogRec := ⟨s.flt.logSeq, status, s.frame, kind, index, d0 % 2 ^ 32, d1 % 2 ^ 64, s.ports.ptpSec, s.ports.ptpNs⟩
    ({ s with flt := { s.flt with logBuf := s.flt.logBuf ++ [rec_], logSeq := s.flt.logSeq + 1 } }).put
      F.FLT_LOG_NEXT 0 (s.flt.logSeq + 1)
  else s.bump F.FLT_LOG_LOST 0 1

/-- The EVENT message of R356 and R357, before its session, port and sequence number. -/
def eventMsg (s : State) (status kind index d0 d1 ctx gen : Nat) : OutMsg :=
  ⟨8, 0, 0, 0, ctx, gen, status, 0, 0, 0, 32, .event s.frame kind index (d0 % 2 ^ 32) (d1 % 2 ^ 64)⟩

/-- Raise an EVENT (R357, R408): to every management session, to the host sessions of its context with STREAM set, and to the log. -/
def event (s : State) (status kind index d0 d1 : Nat) : State :=
  let c := if kind = 6 then index else 0
  let g := if kind = 6 then s.get F.CTX_STATE_GEN index else 0
  let m := s.eventMsg status kind index d0 d1 c g
  let s := s.logEvent status kind index d0 d1
  let s := s.openMgmt.foldl (fun s i => s.toMgmt i m) s
  if kind = 6 then (s.streamSessions index).foldl (fun s i => s.toHost i m) s else s

/-- An EVENT whose owner chapter defines DETAIL0 alone: DETAIL1 is a free value (R356, log entry 32). -/
def eventD0 (s : State) (status kind index d0 : Nat) : State := s.drawn.event status kind index d0 s.draw

/-- An EVENT whose owner chapter defines no DETAIL: both are free values (R356, log entry 32). -/
def eventOpen (s : State) (status kind index : Nat) : State := s.drawn.drawn.event status kind index s.draw s.drawn.draw

/-! Memory: stack bytes at their address, scratchpad byte a of core p at 2^41 + p x 2^22 + a, accumulator-file byte a of core p at
2^42 + p x 2^18 + a (spec/06_core_digital.md R211, R214, R231). -/

/-- One byte of memory; a byte that nothing has written reads 0 (log entry 5). -/
def byte (s : State) (a : Nat) : Byte := tget 0 s.mem a

/-- Write one byte. -/
def setByte (s : State) (a : Nat) (b : Byte) : State := { s with mem := tset 0 s.mem a b }

/-- n bytes from address a. -/
def bytes (s : State) (a n : Nat) : List Byte := (List.range n).map (fun i => s.byte (a + i))

/-- Write bytes from address a on. -/
def setBytes (s : State) (a : Nat) (l : List Byte) : State :=
  match l with
  | [] => s
  | b :: r => (s.setByte a b).setBytes (a + 1) r

/-- Write zero to n bytes from address a. -/
def zeroBytes (s : State) (a n : Nat) : State := { s with mem := tclear s.mem a n }

end State

/-- Key of a core's scratchpad byte. -/
def spAddr (p a : Nat) : Nat := 2 ^ 41 + p * 2 ^ 22 + a % 2 ^ 22

/-- Key of a core's accumulator-file byte. -/
def accAddr (p a : Nat) : Nat := 2 ^ 42 + p * 2 ^ 18 + a % 2 ^ 18

/-- Little-endian number of a byte list (R3). -/
def leNat : List Byte → Nat
  | [] => 0
  | b :: r => b.toNat + 256 * leNat r

/-- n little-endian bytes of a number. -/
def leBytes : Nat → Nat → List Byte
  | 0, _ => []
  | n + 1, v => BitVec.ofNat 8 v :: leBytes n (v / 256)

/-- n big-endian bytes of a number. -/
def beBytes (n v : Nat) : List Byte := (leBytes n v).reverse

namespace State

/-- A little-endian number of n bytes at address a. -/
def load (s : State) (a n : Nat) : Nat := leNat (s.bytes a n)

/-- Store a little-endian number of n bytes at address a. -/
def store (s : State) (a n v : Nat) : State := s.setBytes a (leBytes n v)

/-- FP32 or INT32 word at address a. -/
def word (s : State) (a : Nat) : Word := BitVec.ofNat 32 (s.load a 4)

/-- Store a 32-bit word. -/
def setWord (s : State) (a : Nat) (w : Word) : State := s.store a 4 w.toNat

/-- n words from address a. -/
def words (s : State) (a n : Nat) : List Word := (List.range n).map (fun i => s.word (a + 4 * i))

/-- Store words from address a on. -/
def setWords (s : State) (a : Nat) (l : List Word) : State :=
  match l with
  | [] => s
  | w :: r => (s.setWord a w).setWords (a + 4) r

end State

/-! Batt data in stack memory (R125, R126): the image gives the place of each programmed image; where it gives none, and for the verify
records, whose place the spec leaves open, keys beyond every stack (log entry 184). -/

/-- Key of a batt's verify record: one byte for each cell, (row x 1058 + column) x 4 + cell. -/
def verifyAt (b : Nat) : Nat := 2 ^ 44 + b * 2 ^ 23

/-- Key of a batt's programmed image: byte row x 1024 + column. -/
def State.imageAt (s : State) (b : Nat) : Nat := tget (2 ^ 43 + b * 2 ^ 20) s.img.accepted.imageHome b

/-- Logical column that physical column p serves (R84). -/
def State.logicalCol (s : State) (b p : Nat) : Option Nat := (List.range 1024).find? (fun j => decide (tget j (s.batt b).colMap j = p))

/-! Contexts (spec/11_sync_and_contexts.md). -/

namespace State

/-- Enter a context state; it shows at the closing tick (R384). -/
def enter (s : State) (c st : Nat) : State := s.put F.CTX_STATE_STATE c st

/-- The context's generation, live. -/
def gen (s : State) (c : Nat) : Nat := s.get F.CTX_STATE_GEN c

/-- Last committed step. -/
def step (s : State) (c : Nat) : Nat := s.seen F.CTX_STEP_HI_STEP_HI c * 2 ^ 32 + s.seen F.CTX_STEP_LO_STEP_LO c

/-- The context is READY or RUNNING. -/
def serving (s : State) (c : Nat) : Bool := decide (s.ctxState c = 2 ∨ s.ctxState c = 3)

/-- The smallest VTIME among the READY and RUNNING contexts (R386). -/
def minVtime (s : State) : Nat :=
  let l := (s.ctxs.filter (fun e => s.serving e.1)).map (fun e => e.2.vtime)
  match l with
  | [] => 0
  | v :: r => r.foldl min v

/-- Enter READY from LOADING or PARKED with a fresh VTIME (R386); from LOADING a window of R175 begins. -/
def enterReady (s : State) (c : Nat) : State :=
  let v := s.minVtime
  (((s.enter c 2).put F.CTX_STATE_UNPARK_PENDING c 0).put F.CTX_STATE_MODULE_HELD c 0).updCtx c
    (fun x => { x with vtime := v, held := false, escSent := x.escSent && decide (s.ctxState c ≠ 1) })

/-- Set CTX_LR_SCALE, PAUSE, AUTO_PAUSED and WEIGHT on entry to LOADING, advance GEN and restart the sessions' sample numbers (R384). -/
def enterLoading (s : State) (c : Nat) (restart : Bool) : State :=
  let w := match s.template c with | some t => t.weight | none => 1
  let s := (s.enter c 1).bump F.CTX_STATE_GEN c 1
  if restart then
    let s := ((s.put F.CTX_LR_SCALE_LR_SCALE c 0x3F800000).put F.CTX_TRAIN_PAUSE c 0).put F.CTX_TRAIN_AUTO_PAUSED c 0
    let s := s.put F.CTX_CTRL_WEIGHT c w
    (s.boundSessions c).foldl (fun s i =>
      ((s.put F.HSESS_SEQ_LO_SEQ i 0).put F.HSESS_SEQ_HI_SEQ i 0).updHost i (fun h => { h with consumed := 0 })) s
  else s

/-- Abandon the step in progress: nothing of it commits and its samples return to the head of the queue (R241, R384). -/
def abandonStep (s : State) (c : Nat) : State :=
  s.updCtx c (fun x => match x.step with
    | none => x
    | some r => { x with
        step := none, exch := x.exch.next,
        intake := if r.replay then x.intake else r.samples ++ x.intake,
        log := if r.replay then x.log else x.log.filter (fun e => !(decide (e.kind = 2 ∧ e.step = r.step) && !e.closed)) })

/-- Count from here for the next STREAM_OUT (R37); a window of R175 begins. -/
def rebase (s : State) (c : Nat) : State :=
  s.updCtx c (fun x => { x with
    trained := 0, escSent := false, base := ⟨s.seen F.NUM_SAT_SAT c, s.seen F.NUM_ZERO_ZERO c, s.seen F.BAND_OVF_OVF c, s.seen F.NUM_ESC_ESCALATIONS c⟩ })

/-- Contexts with a record or with counters that have counted. -/
def countedCtxs (s : State) : List Nat :=
  s.ctxs.map (fun e => e.1) ++ (s.vis.filter (fun e => decide (0x300000 ≤ e.1) && decide (e.1 < 0x340000) &&
    [0x44, 0x48, 0x4C, 0x50].contains (e.1 % 0x100))).map (fun e => (e.1 - 0x300000) / 0x100)

/-- Every context counts from here, a FREE one too: at a STREAM_OUT, and at the entry into service (R37, R175). -/
def rebaseAll (s : State) : State := s.countedCtxs.foldl (fun s c => s.rebase c) s

/-- The answer to an admitted query whose context can no longer serve it (R387, R411): MSG_LEN 0 and REJ_CTX_STATE, with the
release frame and the last committed step. -/
def refuseResult (s : State) (q : PlacedQuery) : OutMsg :=
  ⟨2, q.port, q.session, q.tag, q.ctx, q.gen, rejCtxState, 0, (s.frame + 1) % 2 ^ 32, s.step q.ctx % 2 ^ 32, 0, .none⟩

/-- Take a context's unanswered queries out of the plans and hold their refusals for the tick. -/
def releaseQueries (s : State) (c : Nat) : State :=
  let qs := (s.fr.plans.flatMap (fun p => p.queries)) ++ s.fr.flying.map (fun f => f.query)
  let mine := qs.filter (fun q => decide (q.ctx = c))
  let s := mine.foldl (fun s q => s.holdResult q.num (s.refuseResult q)) s
  { s with fr := { s.fr with
      plans := s.fr.plans.map (fun p => { p with queries := p.queries.filter (fun q => decide (q.ctx ≠ c)) }),
      flying := s.fr.flying.filter (fun f => decide (f.query.ctx ≠ c)) } }

/-- A batt of the context's placement is on physical core p. -/
def onCore (s : State) (c p : Nat) : Bool := (s.ctx c).batts.any (fun b => decide (s.battOf b / 8 = p))

/-- Contexts that are not FREE. -/
def liveContexts (s : State) : List Nat := (s.ctxs.map (fun e => e.1)).filter (fun c => decide (s.ctxState c ≠ 0))

/-- A cause that takes the context to FAULTED at the next tick (R387). -/
def faultCtx (s : State) (c cause : Nat) : State :=
  s.updCtx c (fun x => { x with faultDue := match x.faultDue with | some k => some k | none => some cause })

end State

end Sys2Proof.Machine
end

