-- ==== Sys2Proof/Machine/Flags.lean ====
section
/-!
DEFINITION. Machine/Flags.lean: event bits and counters that several families set: saturating and wrapping counters of the batts
and contexts (spec/03_batts.md R115, spec/05_formats_and_band_path.md R188), stale items (spec/11_sync_and_contexts.md R389), lane
figures (spec/16_calibration.md R498), failed tests and findings (spec/12_faults_and_resets.md R409, spec/13_silent_errors.md R417).
-/
namespace Sys2Proof.Machine

/-- A day in ns. -/
def dayNs : Nat := 86400 * 10 ^ 9

namespace State

/-- Count a stale write, flit or row of a context (R389). -/
def staleData (s : State) (c n : Nat) : State := (s.bump F.CTX_STALE_DATA c n).raise F.CTX_EVT_STALE c

/-- Count stale signals of a context (R389). -/
def staleSignal (s : State) (c n : Nat) : State := (s.bump F.CTX_STALE_SIGNALS c n).raise F.CTX_EVT_STALE c

/-- Report a lane's eye width and ring margin; a lane below 30 % or 20 pm raises CAL_LANE_LOW (R498). -/
def laneFigure (s : State) (lane : Nat) (f : LaneFig) : State :=
  let s := (s.put F.CAL_LANE_EYE lane f.eye).put F.CAL_LANE_MARGIN lane f.margin
  if f.eye < 30 ∨ f.margin < 20 then (s.raise F.CAL_EVT_LANE_LOW 0).eventOpen 0x060C 0 0 else s

/-- Lane figures of a port whose first lane is `base` (R498). -/
def laneFigures (s : State) (base : Nat) (l : List LaneFig) : State :=
  l.foldl (fun s f => s.laneFigure (base + f.lane) f) s

/-- Count a failed test of a physical core, for 24 h (R409). -/
def failTest (s : State) (p : Nat) : State :=
  (s.updCore p (fun x => { x with failed := x.failed ++ [s.now] })).bumpSat F.FLT_CORE_FAILS p 1

/-- Place a core under observation for 24 h (R417, R418). -/
def observe (s : State) (p : Nat) : State :=
  (s.updCore p (fun x => { x with obsUntil := some (s.now + dayNs) })).put F.FLT_CORE_OBSERVED p 1

/-- A finding of R417: a named core counts a failed test and goes under observation; SE_FINDING reports the unit, kind and DETAIL1. -/
def finding (s : State) (kind : Nat) (core : Option Nat) (unitKind index d1 : Nat) : State :=
  let s := match core with
    | some p => ((s.failTest p).observe p).bump F.FLT_OBS_FINDINGS p 1
    | none => s
  s.event 0x0508 unitKind index kind d1

/-- Write a trace record while a debug session has the trace facility enabled (R521, R552): physical core or 0xFFFF for CP1, engine code,
event code, context. TIME and DETAIL are free values (log entry 16). -/
def trace (s : State) (core engine ev c : Nat) : State :=
  if s.get F.DBG_STATE_OPEN 0 = 1 ∧ s.get F.DBG_STATE_FACILITIES 0 % 2 = 1 then
    let time := s.draw % 2 ^ 32
    let detail := s.drawn.draw % 2 ^ 64
    let w := s.frame % 2 ^ 64 + 2 ^ 64 * time + 2 ^ 96 * core + 2 ^ 112 * engine + 2 ^ 120 * ev + 2 ^ 128 * c +
      2 ^ 144 * s.get F.CTX_STATE_GEN c + 2 ^ 160 * detail
    { s.drawn.drawn with sec := { s.sec with trace := tset 0 s.sec.trace (s.sec.traceNext % 32768) w, traceNext := s.sec.traceNext + 1 } }
  else s

/-- A trace record of CP1, of a kill or a plan (R552): its engine code and context are free values. -/
def schedTrace (s : State) (ev : Nat) : State :=
  if s.get F.DBG_STATE_OPEN 0 = 1 then s.drawn.drawn.trace 0xFFFF (s.draw % 2 ^ 8) ev (s.drawn.draw % 2 ^ 16) else s

/-- The module takes part in VC1 to VC6 traffic: aligned, or the VC is another (R76). -/
def vcOpen (s : State) (vc : Nat) : Bool := decide (s.get F.LNK_TICK_UNALIGNED 0 = 0) || decide (vc = 0) || decide (vc = 7)

/-- What a flit makes of the state, if the module accepts its VC (R76). -/
def heard (s : State) (h : FlitHead) (t : State) : State := if s.vcOpen h.vc then t else s

end State

end Sys2Proof.Machine
end

