-- ==== Sys2Proof/Machine/Keccak.lean ====
section
/-!
DEFINITION. Machine/Keccak.lean: SHAKE256 (FIPS 202, named in spec/00_scope.md; its rounds are taken from the standard, log entry 15)
and the digest H_x of spec/13_silent_errors.md R415.
-/
namespace Sys2Proof.Machine

/-- A Keccak state: 25 lanes of 64 bits, lane x + 5y. -/
abbrev Lanes := List (BitVec 64)

/-- Lane i of a state. -/
def lane (a : Lanes) (i : Nat) : BitVec 64 := a.getD i 0

/-- Rotation offsets of rho, by lane. -/
def rhoOffs : List Nat := [0, 1, 62, 28, 27, 36, 44, 6, 55, 20, 3, 10, 43, 25, 39, 41, 45, 15, 21, 8, 18, 2, 61, 56, 14]

/-- Round constants of iota. -/
def iotaConsts : List Nat :=
  [0x0000000000000001, 0x0000000000008082, 0x800000000000808A, 0x8000000080008000, 0x000000000000808B, 0x0000000080000001,
   0x8000000080008081, 0x8000000000008009, 0x000000000000008A, 0x0000000000000088, 0x0000000080008009, 0x000000008000000A] ++
  [0x000000008000808B, 0x800000000000008B, 0x8000000000008089, 0x8000000000008003, 0x8000000000008002, 0x8000000000000080,
   0x000000000000800A, 0x800000008000000A, 0x8000000080008081, 0x8000000000008080, 0x0000000080000001, 0x8000000080008008]

/-- Column parity of theta. -/
def parity (a : Lanes) (x : Nat) : BitVec 64 :=
  lane a x ^^^ lane a (x + 5) ^^^ lane a (x + 10) ^^^ lane a (x + 15) ^^^ lane a (x + 20)

/-- theta. -/
def thetaStep (a : Lanes) : Lanes :=
  let c : Lanes := (List.range 5).map (parity a)
  (List.range 25).map (fun i => lane a i ^^^ lane c ((i % 5 + 4) % 5) ^^^ (lane c ((i % 5 + 1) % 5)).rotateLeft 1)

/-- rho and pi: lane (x, y) moves to (y, 2x + 3y). -/
def rhoPi (a : Lanes) : Lanes :=
  (List.range 25).map (fun j =>
    let y' := j / 5
    let x := (j % 5 + 3 * y') % 5
    let src := x + 5 * (j % 5)
    (lane a src).rotateLeft (rhoOffs.getD src 0))

/-- chi. -/
def chiStep (a : Lanes) : Lanes :=
  (List.range 25).map (fun i => lane a i ^^^ (~~~(lane a (5 * (i / 5) + (i + 1) % 5 % 5)) &&& lane a (5 * (i / 5) + (i % 5 + 2) % 5)))

/-- One round. -/
def keccakRound (a : Lanes) (rc : Nat) : Lanes :=
  let b := chiStep (rhoPi (thetaStep a))
  (lane b 0 ^^^ BitVec.ofNat 64 rc) :: b.drop 1

/-- Keccak-f[1600]. -/
def keccakF (a : Lanes) : Lanes := iotaConsts.foldl keccakRound a

/-- Little-endian number of bytes given as numbers. -/
def leNum : List Nat → Nat
  | [] => 0
  | b :: r => b % 256 + 256 * leNum r

/-- n little-endian bytes of a number, as numbers. -/
def leNums : Nat → Nat → List Nat
  | 0, _ => []
  | n + 1, v => v % 256 :: leNums n (v / 256)

/-- n big-endian bytes of a number, as numbers. -/
def beNums (n v : Nat) : List Nat := (leNums n v).reverse

/-- Big-endian number of bytes given as numbers. -/
def beNum (l : List Nat) : Nat := l.foldl (fun a b => a * 256 + b % 256) 0

/-- Absorb blocks of 136 bytes; the fuel is their number. -/
def absorb : Nat → Lanes → List Nat → Lanes
  | 0, a, _ => a
  | k + 1, a, m =>
    let blk := m.take 136
    absorb k (keccakF ((List.range 25).map (fun i =>
      if i < 17 then lane a i ^^^ BitVec.ofNat 64 (leNum ((blk.drop (8 * i)).take 8)) else lane a i))) (m.drop 136)

/-- Squeeze; the fuel is the number of blocks. -/
def squeeze : Nat → Lanes → List Nat
  | 0, _ => []
  | k + 1, a => ((List.range 17).flatMap (fun i => leNums 8 (lane a i).toNat)) ++ squeeze k (keccakF a)

/-- SHAKE256 padding: 0x1F, zeros, 0x80 in the last byte of the block. -/
def shakePad (m : List Nat) : List Nat :=
  let n := 136 - m.length % 136
  if n = 1 then m ++ [0x9F] else m ++ [0x1F] ++ List.replicate (n - 2) 0 ++ [0x80]

/-- SHAKE256 of a byte string, n bytes out. -/
def shake256 (m : List Nat) (n : Nat) : List Nat :=
  let p := shakePad m
  (squeeze ((n + 135) / 136) (absorb (p.length / 136) (List.replicate 25 0) p)).take n

/-- The bytes of an ASCII text. -/
def ascii (s : String) : List Nat := s.toList.map (fun c => c.toNat)

end Sys2Proof.Machine
end

