-- ==== Sys2Proof/Machine/Operands.lean ====
section
/-!
DEFINITION. Machine/Operands.lean: how a message's fields are taken in: the session and source filter (spec/10_host_ports.md R347,
R360 to R362), the argument rules of R571, the owner's right (R366), and the checks of MGMT_WRITE entries
(spec/19_management_registers.md R553 to R556).
-/
namespace Sys2Proof.Machine

namespace State

/-- Peer address of a host session as a number, HSESS_ADDR0 on top (R367). -/
def peerAddr (s : State) (i : Nat) : Nat :=
  s.seen F.HSESS_ADDR0_ADDR i * 2 ^ 96 + s.seen F.HSESS_ADDR1_ADDR i * 2 ^ 64 + s.seen F.HSESS_ADDR2_ADDR i * 2 ^ 32 +
    s.seen F.HSESS_ADDR3_ADDR i

/-- A host session accepts the message's source (R361). -/
def hostSource (s : State) (r : Req) : Bool :=
  decide (s.seen F.HSESS_CFG_VALID r.session = 1) && decide (s.seen F.HSESS_CFG_V6 r.session = if r.v6 then 1 else 0) &&
  decide (s.peerAddr r.session = r.addr) &&
  (decide (s.seen F.HSESS_CFG_PEER_PORT r.session = 0) || decide (s.seen F.HSESS_CFG_PEER_PORT r.session = r.udp))

/-- A management session accepts the message's source: it is bound to one address and UDP port (R362). -/
def mgmtSource (s : State) (r : Req) : Bool :=
  decide (s.get F.OWN_SESS_STATE (r.session - 0xFFF0) ≠ 0) && decide ((s.mgmt (r.session - 0xFFF0)).addr = r.addr) &&
  decide ((s.mgmt (r.session - 0xFFF0)).v6 = r.v6) && decide ((s.mgmt (r.session - 0xFFF0)).udp = r.udp)

end State

/-- Session numbers of R360. -/
def isHost (n : Nat) : Bool := decide (n < 4096)

/-- Management session numbers 0xFFF0 to 0xFFF7. -/
def isMgmt (n : Nat) : Bool := decide (0xFFF0 ≤ n) && decide (n < 0xFFF8)

namespace State

/-- The session exists and the source matches it (R347, R360). -/
def sessionOk (s : State) (r : Req) : Bool :=
  if isHost r.session then s.hostSource r else if isMgmt r.session then s.mgmtSource r else false

/-- The session is the owner (R19). -/
def isOwner (s : State) (r : Req) : Bool :=
  isMgmt r.session && decide (s.get F.OWN_SESS_STATE (r.session - 0xFFF0) = 2)

end State

/-- The reassembly entry has this identity (R353). -/
def Reasm.sameId (e : Reasm) (session type tag : Nat) : Bool :=
  decide (e.session = session) && decide (e.type = type) && decide (e.tag = tag)

namespace State

/-- The identity is kept quiet after a rejection (R354). -/
def quiet (s : State) (session type tag : Nat) : Bool := s.ports.reasm.any (fun e => e.quiet && e.sameId session type tag)

/-- A datagram of a quiet identity restarts its 10 ms (R354). -/
def touchQuiet (s : State) (session type tag t : Nat) : State :=
  { s with ports := { s.ports with reasm := s.ports.reasm.map (fun e => if e.sameId session type tag then { e with last := s.now + t } else e) } }

/-- Take the message's reassembly entry away (R353). -/
def dropReasm (s : State) (session type tag : Nat) : State :=
  { s with ports := { s.ports with reasm := s.ports.reasm.filter (fun e => !e.sameId session type tag) } }

/-- Note the arrival of a message: its reassembly ends, its session is alive and was last used on this port (R18, R362, R367). -/
def arrive (s : State) (type : Nat) (r : Req) : State :=
  let s := s.dropReasm r.session type r.tag
  if isMgmt r.session then s.updMgmt (r.session - 0xFFF0) (fun x => { x with lastMsg := s.now + r.t, lastPort := r.port })
  else if isHost r.session then s.updHost r.session (fun x => { x with lastPort := some r.port }) else s

/-- Run the body on a completed message that R347 and R354 do not discard. -/
def withRequest (s : State) (type : Nat) (r : Req) (body : State → State) : State :=
  if s.quiet r.session type r.tag then s.touchQuiet r.session type r.tag r.t
  else if s.sessionOk r then body (s.arrive type r)
  else s.bump F.ETH_DROP_SESSION r.port 1

/-- Run the accepted body, or send the rejection that the checks decided (R66). -/
def decide_ (s : State) (type : Nat) (r : Req) (v : Option Verdict) (body : State → State) : State :=
  match v with
  | some v => s.reject type r v
  | none => body s

/-- Class-1 and class-2 request queues hold 256 and 64 (R70). -/
def room1 (s : State) : Bool := decide (s.fr.q1 < 256)

/-- Room in the class-2 queue. -/
def room2 (s : State) : Bool := decide (s.fr.q2 < 64)

/-- Queue a class-1 request. -/
def queue1 (s : State) : State := { s with fr := { s.fr with q1 := s.fr.q1 + 1 } }

/-- Queue a class-2 request. -/
def queue2 (s : State) : State := { s with fr := { s.fr with q2 := s.fr.q2 + 1 } }

/-- The module admits work requests: in service (R24, R66, R402, R543). The failing verdict otherwise. -/
def inService (s : State) : Bool × Verdict := (decide (s.phase = 1), if s.phase = 2 then verdict errOos else budget 1)

/-- R571 for a message whose CTX, GEN, ARG0 and ARG1 must be zero but for the bits of ARG0 below 2^k. -/
def zeroArgs (r : Req) (k : Nat) : Bool :=
  decide (r.ctx = 0) && decide (r.gen = 0) && decide (r.arg0 < 2 ^ k) && decide (r.arg1 = 0)

/-- The checks that every management write meets before its entries: format (R571), owner (R366), queue room (R70); and registers
that may be written outside service (R556). -/
def writeChecks (s : State) (r : Req) (anyPhase : Bool) : List (Bool × Verdict) :=
  [(zeroArgs r 0, verdict rejFormat), (s.isOwner r, verdict rejOwner), (s.room2, budget 7),
   (anyPhase || decide (s.phase ≤ 1), verdict errOos)]

/-- A command register takes one entry of 12 bytes (R8, R366). -/
def oneEntry (r : Req) : Bool × Verdict := (decide (r.len = 12), verdict rejLen)

/-- A command that the owner gives by writing a command register: checked, queued, its answer held for the tick at which it takes
effect (R70, R366), then its effect. -/
def commandWrite (s : State) (r : Req) (anyPhase : Bool) (effect : State → State) : State :=
  s.withRequest 0x0A r (fun s =>
    s.decide_ 0x0A r (firstFail (s.writeChecks r anyPhase ++ [oneEntry r])) (fun s => effect ((s.queue2).accept 0x0A 2 r 0 0)))

/-- The same with a further verdict of the entry itself. -/
def commandWriteIf (s : State) (r : Req) (anyPhase : Bool) (extra : List (Bool × Verdict)) (effect : State → State) : State :=
  s.withRequest 0x0A r (fun s =>
    s.decide_ 0x0A r (firstFail (s.writeChecks r anyPhase ++ oneEntry r :: extra)) (fun s => effect ((s.queue2).accept 0x0A 2 r 0 0)))

/-- Registers that R556 admits during a device reset or in OUT_OF_SERVICE. -/
def writableOut (s : State) (a : Nat) : Bool :=
  (decide (0x2000 ≤ a) && decide (a < 0x3000)) || (decide (0x6000 ≤ a) && decide (a < 0x6100)) ||
  (decide (0x7000 ≤ a) && decide (a < 0x8000)) ||
  (decide (0xA000 ≤ a) && decide (a < 0xC000)) ||
  (decide (0x5000 ≤ a) && decide (a < 0x6000) && decide (s.phase = 2) &&
    decide (s.get F.FLT_STATE_CAUSE 0 = 5 ∨ s.get F.FLT_STATE_CAUSE 0 = 7))

/-- The entry's mask touches a field of the given access codes. -/
def touches (row : RegRow) (mask : Nat) (p : Acc → Bool) : Bool :=
  row.fields.any (fun f => p f.acc && decide (mask / 2 ^ f.lo % 2 ^ (f.hi + 1 - f.lo) ≠ 0))

/-- What is wrong with a MGMT_WRITE entry, none if nothing (R554, R556, R542). -/
def entryFault (s : State) (e : WriteEntry) : Option Nat :=
  if isMapped e.addr = false then some rejAddr
  else if e.mask % 2 ^ 32 = 0 then none
  else if isWindow e.addr then some rejReadOnly
  else match rowAt e.addr with
    | none => none
    | some row =>
      if touches row e.mask (fun a => decide (a = .ro)) then some rejReadOnly
      else if touches row e.mask (fun a => decide (a = .rwl)) ∧ s.get F.SEC_FUSE_LOCK 0 = 1 then some rejOwner
      else if (s.phase = 2 ∨ s.phase = 3) ∧ s.writableOut e.addr = false then some errOos
      else none

/-- The first failing entry and its index (R366). -/
def firstEntry (s : State) : Nat → List WriteEntry → Option (Nat × Nat)
  | _, [] => none
  | i, e :: r => match s.entryFault e with | some v => some (v, i) | none => s.firstEntry (i + 1) r

end State

/-- Bits of a word under mask m replaced by those of v. -/
def maskedIn (w : Word) (v m : Nat) : Word :=
  (w &&& ~~~(BitVec.ofNat 32 m)) ||| (BitVec.ofNat 32 v &&& BitVec.ofNat 32 m)

/-- The mask bits that fall on fields of given access codes. -/
def maskOf (row : RegRow) (mask : Nat) (p : Acc → Bool) : Nat :=
  (row.fields.map (fun f => if p f.acc then mask / 2 ^ f.lo % 2 ^ (f.hi + 1 - f.lo) * 2 ^ f.lo else 0)).foldl (· + ·) 0

namespace State

/-- Apply an entry to its register word: RW, OW, RWL and WO bits take the value, W1C bits written 1 clear at the tick (R10, R554, R555). -/
def applyEntry (s : State) (e : WriteEntry) : State :=
  match rowAt e.addr with
  | none => s
  | some row =>
    let w := maskOf row e.mask (fun a => decide (a = .rw ∨ a = .ow ∨ a = .rwl ∨ a = .wo))
    let c := maskOf row e.mask (fun a => decide (a = .w1c))
    let s := if w = 0 then s else s.setReg e.addr (maskedIn (s.reg e.addr) e.value w)
    if c = 0 then s else s.clearAtTick e.addr (BitVec.ofNat 32 e.value &&& BitVec.ofNat 32 c)

/-- The word as a reader sees it: WO and reserved fields read zero (R7, R553). -/
def readWord (s : State) (a : Nat) : Word :=
  match rowAt a with
  | none => 0
  | some row => s.visReg a &&& ~~~(BitVec.ofNat 32 (maskOf row (2 ^ 32 - 1) (fun c => decide (c = .wo ∨ c = .rsv))))

end State

end Sys2Proof.Machine
end

