-- ==== Sys2Proof/Machine/Links.lean ====
section
/-!
DEFINITION. Machine/Links.lean: the Aeline Link ports, their keys, routing, the tick's alignment and the start of a system
(spec/09_aeline_link.md), and the MACsec registers of the Ethernet ports (spec/19_management_registers.md R551).
LNK_PORT.STATE: 0 DARK, 1 RING_LOCK, 2 LANE_TRAIN, 3 FEC_ALIGN, 4 HELLO, 5 AUTH, 6 UP, 7 WAIT, 8 DOWN, 9 FENCED.
-/
namespace Sys2Proof.Machine

namespace State

/-- State of a link port (R345). -/
def lnk (s : State) (p : Nat) : Nat := s.get F.LNK_PORT_STATE p

/-- Own module ID (R333). -/
def ownId (s : State) : Nat := s.get F.LNK_ID_MODULE_ID 0

/-- The topology's declaration of a port (R331, R537). -/
def pairing (s : State) (p : Nat) : Pairing :=
  match ((tget (⟨0, [], 0, 0⟩ : TopoEntry) s.img.accepted.topo s.ownId).ports)[p]? with
  | some x => x
  | none => ⟨0, 0, false, 0⟩

/-- Ports declared to lead to a module. -/
def portsTo (s : State) (m : Nat) : List Nat :=
  (List.range 32).filter (fun p => (s.pairing p).valid && decide ((s.pairing p).peer = m))

/-- Route entry of a destination (R335): port and hops, of the anchor tree or the standby tree. -/
def routeOf (s : State) (dst : Nat) (alt : Bool) : Option (Nat × Nat) :=
  let w := (s.reg (F.LNK_ROUTE_ENTRY.addr dst)).toNat
  if alt then (if w / 2 ^ 20 % 2 = 1 then some (w / 2 ^ 15 % 32, w / 2 ^ 10 % 32) else none)
  else (if w / 2 ^ 31 % 2 = 1 then some (w / 2 ^ 26 % 32, w / 2 ^ 21 % 32) else none)

/-- A destination has an alternate route (R336). -/
def hasAlternate (s : State) (dst : Nat) : Bool :=
  match s.routeOf dst false, s.routeOf dst true with
  | some a, some b => decide (a.1 ≠ b.1)
  | _, _ => false

/-- The route that this module as a source chooses (R336): the anchor tree's, unless its port is not UP and that of the standby tree is; a
check copy takes the alternate route where there is one. -/
def sourceRoute (s : State) (dst : Nat) (copy : Bool) : Option Route :=
  let up := fun (e : Option (Nat × Nat)) => match e with | some x => decide (s.lnk x.1 = 6) | none => false
  let alt := if copy then s.hasAlternate dst else !up (s.routeOf dst false) && up (s.routeOf dst true)
  (s.routeOf dst alt).map (fun e => ⟨alt, e.1, e.2⟩)

/-- The route on which a message leaves, if it may leave: its VC is open (R76), no device reset runs (R332), its port is UP (R325). -/
def leavesOn (s : State) (dest vc : Nat) (copy : Bool) : Option Route :=
  if s.vcOpen vc = false ∨ s.phase = 3 then none
  else match s.sourceRoute dest copy with
    | some r => if s.lnk r.port = 6 then some r else none
    | none => none

/-- Flits of a message (R319, R321): 240 bytes of WRITE data or 15 signal entries to a flit, one flit for a record. -/
def flitCount (kind : Nat) (l : List Nat) : Nat :=
  if kind = 256 then (l.length - 3 + 239) / 240 else if kind = 512 then ((l.length - 2) / 4 + 14) / 15 else 1

/-- Send a message to a module on a VC (R320). Toward a port that is not UP its flits are dropped and counted (R325). -/
def recordOn (s : State) (copy : Bool) (dest vc kind : Nat) (l : List Nat) : State :=
  match s.leavesOn dest vc copy with
  | some r => { s with sent := s.sent ++ [.record r dest vc kind l] }
  | none =>
    if s.vcOpen vc = false ∨ s.phase = 3 then s
    else match s.sourceRoute dest copy with
      | some r => s.bump F.LNK_ERR_DROP_UNROUTE r.port (flitCount kind l)
      | none => s

/-- Send a message that is no check copy. -/
def record (s : State) (dest vc kind : Nat) (l : List Nat) : State := s.recordOn false dest vc kind l

/-- Report module X as lost to every module of a context that it belongs to, with effect two frames later (R300). -/
def reportLostIn (s : State) (c x : Nat) : State :=
  let members := match s.template c with | some t => t.members | none => []
  let e := (s.ctx c).exch
  if members.contains x ∧ e.lost.any (fun l => decide (l.1 = x)) = false ∧ e.pending.any (fun l => decide (l.1 = x)) = false then
    (members.filter (fun m => decide (m ≠ x ∧ m ≠ s.ownId))).foldl (fun s m => s.record m 7 2 [c, x, s.frame + 2])
      (s.updCtx c (fun y => { y with exch := { y.exch with pending := y.exch.pending ++ [(x, s.frame + 2)] } }))
  else s

/-- Report module X as lost in every context (R300, R332). -/
def reportLost (s : State) (x : Nat) : State := s.liveContexts.foldl (fun s c => s.reportLostIn c x) s

/-- Take a port into RING_LOCK and start the 40 ms attempt timer (R330). -/
def startAttempt (s : State) (p t : Nat) : State :=
  (s.put F.LNK_PORT_STATE p 1).updLink p (fun l => { l with timer := s.now + t })

/-- Leave UP (R325, R330): keys erased, held groups and buffers discarded, LNK_DOWN sent; a module none of whose links is UP any more is
reported (R332). -/
def leaveUp (s : State) (p target t : Nat) : State :=
  let peer := s.get F.LNK_PORT_PEER_ID p
  let s := (s.raise F.LNK_EVT_DOWN p).put F.LNK_CTRL_RETRAIN p 0
  let s := s.updLink p (fun l => { Link.empty with failures := l.failures, timer := s.now + t })
  let s := (s.put F.LNK_PORT_STATE p target).eventOpen 0x0701 4 p
  if (s.portsTo peer).all (fun q => decide (s.lnk q ≠ 6)) then s.reportLost peer else s

/-- Fence a port; a module all of whose links are FENCED is reported (R330, R332). -/
def fencePort (s : State) (p : Nat) : State :=
  let s := s.put F.LNK_PORT_STATE p 9
  if (s.portsTo (s.pairing p).peer).all (fun q => decide (s.lnk q = 9)) then s.reportLost (s.pairing p).peer else s

/-- Receive credits of a VC's pool: ⌊2,048 x share⌋, three quarters of it primary (R313). -/
def poolSize (s : State) (k : Nat) : Nat :=
  let c := 2048 * s.vcShare (k / 2) / 100
  if k % 2 = 0 then 3 * c / 4 else c - 3 * c / 4

/-- A credit of a port's pool, 2v for the primary and 2v + 1 for the alternate pool of VC v (R314). -/
def creditOf (s : State) (p k : Nat) : Nat := tget 0 (s.linkPort p).credits k

/-- Send queued flits while their pool has a credit; VC0 goes first (R314, R315). The fuel is the length of the queue. -/
def drain (s : State) (p : Nat) : Nat → State
  | 0 => s
  | n + 1 =>
    let q := sortBy (fun (a b : Nat × Transit) => decide (a.1 / 2 = 0) || !decide (b.1 / 2 = 0)) (s.linkPort p).queue
    match q.find? (fun e => decide (0 < s.creditOf p e.1)) with
    | none => s
    | some e =>
      let s := s.updLink p (fun l => { l with queue := q.erase e, credits := tset 0 l.credits e.1 (s.creditOf p e.1 - 1) })
      let w := Wire.flit p e.2.vc e.2.type [e.2.dst, e.2.src, e.2.hops, if e.2.alt then 1 else 0]
      ({ s with sent := s.sent ++ [w] } : State).drain p n

/-- Forward a transit flit (R325, R336); during a device reset only NULL flits are sent (R332). -/
def forward (s : State) (inPort : Nat) (f : Transit) : State :=
  if s.phase = 3 ∨ f.type = 0 ∨ 4 ≤ f.type then s
  else if f.hops = 0 then s.bump F.LNK_ERR_DROP_HOPS inPort 1
  else match s.routeOf f.dst f.alt with
    | none => s.bump F.LNK_ERR_DROP_UNROUTE inPort 1
    | some (p, _) =>
      if s.lnk p = 6 then
        let k := 2 * f.vc + if f.alt then 1 else 0
        (s.updLink p (fun l => { l with queue := l.queue ++ [(k, { f with hops := f.hops - 1 })] })).drain p ((s.linkPort p).queue.length + 1)
      else s.bump F.LNK_ERR_DROP_UNROUTE p 1

/-- Take the seal fields of a verified block: acknowledgements, credits, keepalive, tick depth (R310, R314, R317, R332). -/
def sealFields (s : State) (o : SealGroup) : State :=
  let s := s.updLink o.port (fun l => { l with
    lastBlock := s.now + o.t, rxSeq := o.seq, firstSeal := true, peerState := o.state, peerUnaligned := o.unaligned, peerDepth := o.depth,
    acked := if o.nak then l.acked else o.ack,
    credits := (List.range 16).foldl (fun c k => tset 0 c k (min (s.poolSize k) (tget 0 c k + o.credits.getD k 0))) l.credits })
  let s := s.drain o.port (s.linkPort o.port).queue.length
  if o.state = 2 ∨ o.state = 3 then s.reportLost (s.get F.LNK_PORT_PEER_ID o.port) else s

/-- Keys of a direction from the exchange's secret (R327): bytes from `ofs`, salt from `sofs`, of SHAKE256(ss ‖ T ‖ text). -/
def dirKey (secret ofs sofs : Nat) : DirKey :=
  let b := shake256 (beNums 96 secret ++ ascii "AELINE LINK KEYS") 72
  ⟨leNum ((b.drop ofs).take 32), leNum ((b.drop sofs).take 4), 0⟩

/-- The lower ID of a link (R326). -/
def isLower (s : State) (p : Nat) : Bool := decide (s.ownId < s.get F.LNK_PORT_PEER_ID p)

/-- Own sending key and receiving key of a port from a secret (R327). -/
def txKey (s : State) (p secret : Nat) : DirKey := if s.isLower p then dirKey secret 0 64 else dirKey secret 32 68
/-- Receiving key. -/
def rxKey (s : State) (p secret : Nat) : DirKey := if s.isLower p then dirKey secret 32 68 else dirKey secret 0 64

/-- The FIN of the module with this ID (R326): SHAKE256 of the secret, the transcript hash, the label and the ID. -/
def finOf (secret id : Nat) : Nat := leNum (shake256 (beNums 96 secret ++ ascii "AELINE LINK FIN" ++ beNums 4 id) 32)

/-- An identity public key has the hash that the topology lists for the peer of a port (R326, R333). -/
def peerKnown (s : State) (p pk : Nat) : Bool :=
  decide (leNum (shake256 (beNums 68 pk) 32) = (tget (⟨0, [], 0, 0⟩ : TopoEntry) s.img.accepted.topo (s.get F.LNK_PORT_PEER_ID p)).idHash)

/-- Own identity public key as a KEX carries it (R326). -/
def ownKey (s : State) : Nat := beNum s.sec.idPk

/-- Send a DISCOVER message on a port (R320). -/
def discover (s : State) (p kind : Nat) (l : List Nat) : State := { s with sent := s.sent ++ [.flit p 7 4 (kind :: l)] }

/-- Fail a port's training attempt (R330). -/
def failAttempt (s : State) (p t : Nat) : State :=
  ((s.put F.LNK_PORT_STATE p 7).bump F.LNK_PORT_ATTEMPTS p 1).updLink p (fun l => { l with failures := l.failures + 1, timer := s.now + t })

/-- Identity or signature failed (R330). -/
def authFail (s : State) (p : Nat) : State := ((s.fencePort p).raise F.LNK_EVT_AUTH_FAIL p).eventOpen 0x0704 4 p

/-- Mark the module tick-unaligned or aligned, in LNK_TICK and DEV_STATE (R345, R550). -/
def setUnaligned (s : State) (v : Nat) : State := (s.put F.LNK_TICK_UNALIGNED 0 v).put F.DEV_STATE_UNALIGNED 0 v

/-- A port leads to a parent that can be followed: UP, aligned, DEPTH at most 6 (R339). -/
def parentUsable (s : State) (p : Nat) : Bool :=
  decide (s.lnk p = 6) && !(s.linkPort p).peerUnaligned && decide ((s.linkPort p).peerDepth ≤ 6)

/-- A usable port toward a module. -/
def usablePort (s : State) (m : Option Nat) : Option Nat :=
  match m with
  | none => none
  | some m => (s.portsTo m).find? (fun p => s.parentUsable p)

/-- The parent to follow (R339, R341): tree and port; the standby tree alone once the anchor has moved. -/
def parentChoice (s : State) : Option (Nat × Nat) :=
  let a := if s.link.anchorMoved then none else s.usablePort s.img.accepted.parent
  match a with
  | some p => some (0, p)
  | none => (s.usablePort s.img.accepted.standbyParent).map (fun p => (1, p))

/-- The module is the source of the tick: the anchor, or the standby after the move (R341). -/
def isSource (s : State) : Bool :=
  if s.link.anchorMoved then decide (s.ownId = s.img.accepted.standby) else decide (s.ownId = s.img.accepted.anchor)

/-- Follow the parent that R339 names; without one, note since when (R340). -/
def followParent (s : State) : State :=
  match s.parentChoice with
  | some (tree, p) =>
    let s := ((s.put F.LNK_TICK_TREE 0 tree).put F.LNK_TICK_PARENT_PORT 0 p).put F.LNK_TICK_DEPTH 0 ((s.linkPort p).peerDepth + 1)
    { s with link := { s.link with noParentSince := none } }
  | none => if s.isSource then s else
    { s with link := { s.link with noParentSince := match s.link.noParentSince with | some t => some t | none => some s.now } }

/-- Rejoin the system's tick with a usable parent (R340): within 8 ns the module is aligned; within 100 µs it slews; beyond, the next
frame is a bridging frame that ends at a tick of the source, whose frame number the module then takes. -/
def rejoin (s : State) (theta : Int) (frame : Nat) : State :=
  if s.get F.LNK_TICK_UNALIGNED 0 = 1 ∧ s.parentChoice.isSome = true then
    let s : State := { s.followParent with link := { s.followParent.link with theta := theta } }
    if theta.natAbs ≤ 128 then s.setUnaligned 0
    else if theta.natAbs ≤ 1600000 then s
    else
      let p : Int := s.periodNs
      let len := (p / 2 + (p / 2 - theta / 16) % p).toNat
      { s with link := { s.link with bridging := some (frame, 0, len) } }
  else s

/-- The module's READY count (R343). -/
def readyTotal (s : State) : Nat :=
  (if s.phase = 1 ∧ s.get F.LNK_TICK_UNALIGNED 0 = 0 then 1 else 0) + (s.link.childCounts.map (fun e => e.2)).foldl (· + ·) 0

/-- The anchor's count reached the number of listed modules (R343). -/
def systemReady (s : State) : State :=
  if s.ownId = s.img.accepted.anchor ∧ s.readyTotal = s.img.accepted.modules ∧ s.link.readySent = false then
    ({ s with link := { s.link with readySent := true } } : State).eventOpen 0x0708 0 0
  else s

/-- At a tick: READY to the parent when the count has changed, JOIN to the children at the first aligned tick, and the anchor's move at
its frame (R341 to R343). -/
def systemTick (s : State) : State :=
  let s := match s.link.anchorMoveAt with
    | some e => if e ≤ s.frame then
        let s : State := { s with link := { s.link with anchorMoveAt := none, anchorMoved := true } }
        let s := if s.get F.LNK_ID_ROLE 0 = 2 then s.put F.LNK_ID_ROLE 0 3 else s
        (s.followParent).eventOpen 0x0707 0 0
      else s
    | none => s
  let s := s.systemReady
  let s : State := if s.readyTotal ≠ s.link.countSent then
      let n := s.readyTotal
      let s : State := { s with link := { s.link with countSent := n } }
      match s.img.accepted.parent with
      | some m => s.record m 7 4 [s.ownId, n]
      | none => s
    else s
  if s.get F.LNK_TICK_UNALIGNED 0 = 0 ∧ s.link.joinSent = false then
    (s.img.accepted.children).foldl (fun s m => s.record m 7 3 [s.frame, s.get F.LNK_TICK_DEPTH 0])
      { s with link := { s.link with joinSent := true } }
  else s

end State

/-- SEAL_GROUP_RECEIVE (R310, R311, R314, R317, R332, R336). R310 gives no first GROUP: the model takes 1 after a link enters UP (log entry
191). -/
def execSealGroupReceive (o : SealGroup) (s : State) : Outcome :=
  .next (
    if s.lnk o.port ≠ 6 then s
    else
      let s := s.bump F.LNK_FEC_CORR_CORR o.port o.corrected
      if o.uncorrectable ∨ o.tagOk = false then
        let s := if o.uncorrectable then s.bump F.LNK_FEC_UNC_UNCORR o.port 1 else s.bump F.LNK_ERR_TAG_FAILS o.port 1
        s.updLink o.port (fun l => { l with nak := true })
      else
        let s := s.sealFields o
        if o.group = ((s.linkPort o.port).rxGroup + 1) % 2 ^ 32 then
          o.flits.foldl (fun s f => s.forward o.port f) (s.updLink o.port (fun l => { l with rxGroup := o.group, nak := false }))
        else s)

/-- NAK (R317, R318): the named group and all later ones go again; a group outside the last 32 unaccepted takes the link out of UP. -/
def execNak (port group sent t : Nat) (s : State) : Outcome :=
  .next (
    if s.lnk port ≠ 6 then s
    else
      let back := (sent + 2 ^ 16 - group % 2 ^ 16) % 2 ^ 16
      if back < 32 then
        (s.bump F.LNK_FEC_UNC_RESENDS port 1).updLink port (fun l => { l with
          resends := l.resends.filter (fun x => decide (s.now + t < x + 10 ^ 6)) ++ [s.now + t],
          txSeq := l.txSeq + back + 1, txGroup := sent })
      else (s.raise F.LNK_EVT_RESEND_LIMIT port).leaveUp port 1 t)

/-- JOIN (R342, R543): a child not yet in service takes the frame number, θ and depth at once; a member in service has ticked unaligned
until its JOIN and rejoins under R340. -/
def execJoin (o : JoinMsg) (s : State) : Outcome :=
  .next (if s.parentChoice.map (fun x => x.2) ≠ some o.port then s
    else if s.phase = 0 then
      let s : State := { s with frame := o.frame, link := { s.link with theta := o.theta } }
      (s.put F.LNK_TICK_DEPTH 0 (o.depth + 1)).setUnaligned 0
    else s.rejoin o.theta o.frame)

/-- READY_COUNT (R343). -/
def execReadyCount (child count : Nat) (s : State) : Outcome :=
  .next (if s.img.accepted.children.contains child then
      ({ s with link := { s.link with childCounts := tset 0 s.link.childCounts child count } } : State).systemReady
    else s)

/-- SYS_WAIT_EXPIRY (R343). -/
def execSysWaitExpiry (s : State) : Outcome :=
  .next (if s.ownId = s.img.accepted.anchor ∧ s.readyTotal < s.img.accepted.modules ∧ s.link.partialSent = false ∧
        s.link.bootAt + s.pol 0x90 * 10 ^ 6 ≤ s.now then
      ({ s with link := { s.link with partialSent := true } } : State).eventD0 0x0709 0 0 s.readyTotal
    else s)

/-- MGMT_RELAY (R320): to CP2. -/
def execMgmtRelay (src : Nat) (payload : List Nat) (s : State) : Outcome :=
  .next { s with link := { s.link with relay := s.link.relay ++ [src :: payload] } }

/-- ANCHOR_MOVE (R341): from T(E) the standby sources the tick. -/
def execAnchorMove (frame : Nat) (s : State) : Outcome :=
  .next (if s.link.anchorMoved then s else { s with link := { s.link with anchorMoveAt := some frame } })

/-- ANCHOR_LOST (R341): the standby anchor reports the move, effective two frames later, to every module. -/
def execAnchorLost (s : State) : Outcome :=
  .next (if s.get F.LNK_ID_ROLE 0 = 2 ∧ s.link.anchorMoved = false ∧ s.link.anchorMoveAt = none then
      let e := s.frame + 2
      let dests := (List.range s.img.accepted.modules).filter (fun m => decide (m ≠ s.ownId))
      dests.foldl (fun s m => s.record m 7 6 [e]) { s with link := { s.link with anchorMoveAt := some e } }
    else s)

/-- HELLO (R330, R331). -/
def execHello (o : HelloMsg) (s : State) : Outcome :=
  .next (
    if s.lnk o.port ≠ 4 then s
    else
      let d := s.pairing o.port
      let s := (s.put F.LNK_PORT_PEER_ID o.port o.peer).put F.LNK_PORT_PEER_PORT o.port o.peerPort
      if o.topo = s.img.accepted.topoHash ∧ o.periodUs = s.pol 0x00 ∧ d.valid = true ∧ d.peer = o.peer ∧ d.peerPort = o.peerPort then
        let s := (s.put F.LNK_PORT_STATE o.port 5).updLink o.port (fun l => { l with
          timer := s.now + o.t, secret := 0, finSent := false })
        if s.isLower o.port then s.discover o.port 2 [s.ownId, s.ownKey] else s
      else ((s.fencePort o.port).raise F.LNK_EVT_MISMATCH o.port).eventOpen 0x0703 4 o.port)

/-- KEX1 (R326, R330), at the higher ID. -/
def execKex1 (o : KexMsg) (t : Nat) (s : State) : Outcome :=
  .next (
    if s.lnk o.port ≠ 5 ∨ s.isLower o.port = true ∨ s.now + t < (s.linkPort o.port).timer then s
    else if s.peerKnown o.port o.idPk ∧ o.sigOk then
      (s.updLink o.port (fun l => { l with secret := o.secret })).discover o.port 3 [s.ownId, s.ownKey]
    else s.authFail o.port)

/-- KEX2 (R326, R330), at the lower ID. -/
def execKex2 (o : KexMsg) (t : Nat) (s : State) : Outcome :=
  .next (
    if s.lnk o.port ≠ 5 ∨ s.isLower o.port = false ∨ s.now + t < (s.linkPort o.port).timer then s
    else if s.peerKnown o.port o.idPk ∧ o.sigOk then
      (s.updLink o.port (fun l => { l with secret := o.secret, finSent := true })).discover o.port 4 [s.ownId, State.finOf o.secret s.ownId]
    else s.authFail o.port)

/-- FIN (R326, R327, R330, R498): verified both ways, the link is UP with derived keys, full credits and SEQ 0. A FIN that
differs from the one that the module computes fails R326: the port is fenced and reported (R344, log entry 192). -/
def execFin (port : Nat) (value : Nat) (lanes : List LaneFig) (t : Nat) (s : State) : Outcome :=
  .next (
    if s.lnk port ≠ 5 ∨ (s.linkPort port).secret = 0 then s
    else if value ≠ State.finOf (s.linkPort port).secret (s.get F.LNK_PORT_PEER_ID port) then s.authFail port
    else
      let sec := (s.linkPort port).secret
      let s := if (s.linkPort port).finSent then s else s.discover port 4 [s.ownId, State.finOf sec s.ownId]
      let tx := s.txKey port sec
      let rx := s.rxKey port sec
      let full := (List.range 16).foldl (fun c k => tset 0 c k (s.poolSize k)) []
      let s := s.updLink port (fun _ => { Link.empty with
        tx := some tx, rx := some rx, credits := full, lastBlock := s.now + t, lastExchange := s.now + t })
      let s := ((s.put F.LNK_PORT_STATE port 6).bump F.LNK_KEY_EXCHANGES port 1).put F.LNK_KEY_EPOCH port 0
      s.laneFigures (8 * port) lanes)

/-- REKEY_TRIGGER (R329), at the lower ID: SEQ at 2^34 - 2^20, or 24 h since the last exchange. -/
def execRekeyTrigger (port txSeq rxSeq t : Nat) (s : State) : Outcome :=
  .next (if s.lnk port = 6 ∧ s.isLower port = true ∧ (s.linkPort port).rekeyStart = none ∧
        (2 ^ 34 - 2 ^ 20 ≤ txSeq ∨ 2 ^ 34 - 2 ^ 20 ≤ rxSeq ∨ (s.linkPort port).lastExchange + dayNs ≤ s.now + t) then
      (s.updLink port (fun l => { l with rekeyStart := some (s.now + t), newSecret := 0 })).discover port 5 [s.ownId, s.ownKey]
    else s)

/-- REKEY1 (R329), at the higher ID. -/
def execRekey1 (o : KexMsg) (t : Nat) (s : State) : Outcome :=
  .next (if s.lnk o.port = 6 ∧ s.isLower o.port = false ∧ s.peerKnown o.port o.idPk = true ∧ o.sigOk = true then
      (s.updLink o.port (fun l => { l with rekeyStart := some (s.now + t), newSecret := o.secret })).discover o.port 6 [s.ownId, s.ownKey]
    else s)

/-- REKEY2 (R329), at the lower ID: REKEY_FIN names the switch SEQ, 4,096 ahead. -/
def execRekey2 (o : KexMsg) (ownSeq t : Nat) (s : State) : Outcome :=
  .next (if s.lnk o.port = 6 ∧ s.isLower o.port = true ∧ s.peerKnown o.port o.idPk = true ∧ o.sigOk = true ∧
        ((s.linkPort o.port).rekeyStart.any (fun b => decide (s.now + t < b + 5 * 10 ^ 6))) = true then
      (s.updLink o.port (fun l => { l with newSecret := o.secret, rekeyFinSent := some (ownSeq + 4096) })).discover o.port 7
        [s.ownId, State.finOf o.secret s.ownId, ownSeq + 4096]
    else s)

/-- REKEY_FIN (R329). -/
def execRekeyFin (port value ownSeq switchSeq t : Nat) (s : State) : Outcome :=
  .next (if s.lnk port = 6 ∧ (s.linkPort port).newSecret ≠ 0 ∧ value = State.finOf (s.linkPort port).newSecret (s.get F.LNK_PORT_PEER_ID port) ∧
        ((s.linkPort port).rekeyStart.any (fun b => decide (s.now + t < b + 5 * 10 ^ 6))) = true then
      let s := s.updLink port (fun l => { l with rekeyFinGot := some switchSeq })
      if (s.linkPort port).rekeyFinSent = none then
        (s.updLink port (fun l => { l with rekeyFinSent := some (ownSeq + 4096) })).discover port 7 [s.ownId, State.finOf (s.linkPort port).newSecret s.ownId, ownSeq + 4096]
      else s
    else s)

/-- KEY_SWITCH (R329): at the switch SEQ the direction runs on the new key from SEQ 0; once both have switched the exchange is complete. -/
def execKeySwitch (port : Nat) (sending : Bool) (seq : Nat) (s : State) : Outcome :=
  .next (
    let l := s.linkPort port
    if s.lnk port ≠ 6 ∨ l.newSecret = 0 then s
    else if sending = true ∧ l.rekeyFinSent = some seq then
      let s := (s.updLink port (fun l => { l with tx := some (s.txKey port l.newSecret), txSeq := 0, rekeyFinSent := none })).put F.LNK_KEY_EPOCH port 0
      if l.rekeyFinGot = none then
        (s.updLink port (fun l => { l with newSecret := 0, rekeyStart := none, lastExchange := s.now })).bump F.LNK_KEY_EXCHANGES port 1 else s
    else if sending = false ∧ l.rekeyFinGot = some seq then
      let s := s.updLink port (fun l => { l with rx := some (s.rxKey port l.newSecret), rxSeq := 0, rekeyFinGot := none })
      if l.rekeyFinSent = none then
        (s.updLink port (fun l => { l with newSecret := 0, rekeyStart := none, lastExchange := s.now })).bump F.LNK_KEY_EXCHANGES port 1 else s
    else s)

/-- REKEY_TIMEOUT (R329): 5 ms without both REKEY_FINs. -/
def execRekeyTimeout (port t : Nat) (s : State) : Outcome :=
  .next (if s.lnk port = 6 ∧ ((s.linkPort port).rekeyFinGot = none ∨ (s.linkPort port).rekeyFinSent = none) ∧
        ((s.linkPort port).rekeyStart.any (fun b => decide (b + 5 * 10 ^ 6 ≤ s.now + t))) = true
    then s.leaveUp port 1 t else s)

/-- The key of the next epoch (R328). -/
def ratchet (k : DirKey) : DirKey :=
  { k with key := leNum ((shake256 (leNums 32 k.key ++ ascii "AELINE LINK RATCHET" ++ beNums 8 (k.epoch + 1)) 32)), epoch := k.epoch + 1 }

/-- KEY_RATCHET (R328): the direction enters epoch ⌊SEQ / 2^26⌋ and its old key is erased. -/
def execKeyRatchet (port : Nat) (sending : Bool) (seq : Nat) (s : State) : Outcome :=
  .next (
    let l := s.linkPort port
    match if sending then l.tx else l.rx with
    | none => s
    | some k =>
      if s.lnk port = 6 ∧ seq / 2 ^ 26 = k.epoch + 1 then
        if sending then (s.updLink port (fun l => { l with tx := some (ratchet k), txSeq := seq })).put F.LNK_KEY_EPOCH port (k.epoch + 1)
        else s.updLink port (fun l => { l with rx := some (ratchet k), rxSeq := seq })
      else s)

/-- LIGHT_DETECT (R306, R330): `lit` is light on all 8 receive lanes with the supply fibre within its limits. -/
def execLightDetect (port : Nat) (lit : Bool) (t : Nat) (s : State) : Outcome :=
  .next (if s.lnk port = 0 ∧ lit = true then s.startAttempt port t else s)

/-- RINGS_LOCKED (R330). -/
def execRingsLocked (port : Nat) (s : State) : Outcome := .next (if s.lnk port = 1 then s.put F.LNK_PORT_STATE port 2 else s)

/-- LANES_TRAINED (R330). -/
def execLanesTrained (port : Nat) (s : State) : Outcome := .next (if s.lnk port = 2 then s.put F.LNK_PORT_STATE port 3 else s)

/-- FEC_ALIGNED (R330): HELLO is sent with ID, port, P and TOPO (R331). -/
def execFecAligned (port : Nat) (s : State) : Outcome :=
  .next (if s.lnk port = 3 then (s.put F.LNK_PORT_STATE port 4).discover port 1 [s.ownId, port, s.pol 0x00, s.img.accepted.topoHash] else s)

/-- ATTEMPT_TIMEOUT (R330): 40 ms from RING_LOCK to HELLO. -/
def execAttemptTimeout (port t : Nat) (s : State) : Outcome :=
  .next (if 1 ≤ s.lnk port ∧ s.lnk port ≤ 4 ∧ (s.linkPort port).timer + 40 * 10 ^ 6 ≤ s.now + t then s.failAttempt port t else s)

/-- AUTH_TIMEOUT (R330): 5 ms. -/
def execAuthTimeout (port t : Nat) (s : State) : Outcome :=
  .next (if s.lnk port = 5 ∧ (s.linkPort port).timer + 5 * 10 ^ 6 ≤ s.now + t then s.failAttempt port t else s)

/-- WAIT_EXPIRY (R330): a new attempt, or DOWN on the third consecutive failure. -/
def execWaitExpiry (port t : Nat) (s : State) : Outcome :=
  .next (if s.lnk port = 7 ∧ (s.linkPort port).timer + 10 ^ 6 ≤ s.now + t then
      if (s.linkPort port).failures < 3 then s.startAttempt port t
      else ((s.put F.LNK_PORT_STATE port 8).updLink port (fun l => { l with timer := s.now + t })).eventOpen 0x0701 4 port
    else s)

/-- DOWN_EXPIRY (R330): 1 s. -/
def execDownExpiry (port t : Nat) (s : State) : Outcome :=
  .next (if s.lnk port = 8 ∧ (s.linkPort port).timer + 10 ^ 9 ≤ s.now + t then s.startAttempt port t else s)

/-- SEAL_LOSS (R330): 10 µs without a valid seal block. -/
def execSealLoss (port t : Nat) (s : State) : Outcome :=
  .next (if s.lnk port = 6 ∧ (s.linkPort port).lastBlock + 10 ^ 4 ≤ s.now + t then s.leaveUp port 1 t else s)

/-- BER_EXCESS (R330). -/
def execBerExcess (port : Nat) (s : State) : Outcome := .next (if s.lnk port = 6 then s.leaveUp port 1 0 else s)

/-- RESEND_LIMIT (R318): more than 8 resends within 1 ms. -/
def execResendLimit (port t : Nat) (s : State) : Outcome :=
  .next (if s.lnk port = 6 ∧ 8 < ((s.linkPort port).resends.filter (fun x => decide (s.now + t < x + 10 ^ 6))).length then
      (s.raise F.LNK_EVT_RESEND_LIMIT port).leaveUp port 1 t else s)

/-- LIGHT_LOST (R330): to DARK from any state but FENCED. -/
def execLightLost (port : Nat) (s : State) : Outcome :=
  .next (if s.lnk port = 9 then s else if s.lnk port = 6 then s.leaveUp port 0 0 else s.put F.LNK_PORT_STATE port 0)

/-- LASER_LOW (R305, R306): fibre k feeds ports 8k to 8k + 7. -/
def execLaserLow (fibre : Nat) (s : State) : Outcome :=
  .next ((((List.range 8).map (fun i => 8 * fibre + i)).foldl (fun s p =>
      let s := s.raise F.LNK_EVT_LASER_LOW p
      if s.lnk p = 9 then s else if s.lnk p = 6 then s.leaveUp p 0 0 else s.put F.LNK_PORT_STATE p 0) s).eventOpen 0x0702 0 0)

/-- THETA_UPDATE (R338): the mean of 1,024 offset samples, in 1/16 ns; the timer slews toward the parent by at most 100 ppm. -/
def execThetaUpdate (samples : List Int) (s : State) : Outcome :=
  .next (if samples.length = 1024 ∧ s.isSource = false then
      let m : Int := (samples.foldl (· + ·) 0) / 1024
      let lim : Int := s.periodNs * 16 / 10000
      let s : State := { s with link := { s.link with theta := m, slew := max (-lim) (min lim (-m)) } }
      (s.put F.LNK_TICK_OFS_THETA 0 (m % 2 ^ 32).toNat).followParent
    else s)

/-- PARENT_SWITCH (R339). -/
def execParentSwitch (s : State) : Outcome := .next (if s.isSource then s else s.followParent)

/-- TICK_UNALIGNED (R340): |θ| above 8 ns, or 50 ms without a usable parent. -/
def execTickUnaligned (t : Nat) (s : State) : Outcome :=
  .next (if s.get F.LNK_TICK_UNALIGNED 0 = 0 ∧ s.isSource = false ∧
        (128 < s.link.theta.natAbs ∨ (s.link.noParentSince.any (fun b => decide (b + 50 * 10 ^ 6 ≤ s.now + t))) = true) then
      (s.setUnaligned 1).eventOpen 0x0706 0 0
    else s)

/-- TICK_REJOIN (R340). -/
def execTickRejoin (theta : Int) (frame : Nat) (s : State) : Outcome := .next (s.rejoin theta frame)

namespace State

/-- Ask for a port to leave UP and train again, at the tick (R345, R555). -/
def retrain (s : State) (port : Nat) : State := s.put F.LNK_CTRL_RETRAIN port 1

/-- Ask for a FENCED port to go to DARK, at the tick. -/
def unfence (s : State) (port : Nat) : State := s.put F.LNK_CTRL_UNFENCE port 1

/-- LNK_CTRL at a tick (R330, R345): an UP port leaves UP, a FENCED one goes to DARK; on any other state the bit clears alone. -/
def linkCtrlTick (s : State) : State :=
  (List.range 32).foldl (fun s p =>
    let s := if s.get F.LNK_CTRL_RETRAIN p = 1 then (if s.lnk p = 6 then s.leaveUp p 1 0 else s.put F.LNK_CTRL_RETRAIN p 0) else s
    if s.get F.LNK_CTRL_UNFENCE p = 1 then
      (if s.lnk p = 9 then s.put F.LNK_PORT_STATE p 0 else s).put F.LNK_CTRL_UNFENCE p 0
    else s) s

/-- Words 0 to 11 of a port's staged association a (R551). -/
def stagedAddr (p a k : Nat) : Nat := 0x8140 + 0x100 * p + 0x40 * a + 4 * k

/-- Install the staged key of one association and clear its staged words (R551). -/
def installAssoc (s : State) (p a : Nat) : State :=
  let w : Nat → Word := fun k => s.reg (stagedAddr p a k)
  let x : Assoc := ⟨(List.range 8).map w, w 8, [w 9, w 10, w 11], 1, 1⟩
  let s := (List.range 12).foldl (fun s k => s.setReg (stagedAddr p a k) 0) s
  if s.get F.ETH_PORT_MACSEC_ON p = 1 then
    { s with ports := { s.ports with assocs := tset Assoc.empty s.ports.assocs (2 * p + a) x } }
  else s

/-- Install the associations whose bits are set (R551). -/
def install_ (s : State) (port mask : Nat) : State :=
  let s := if mask % 2 = 1 then s.installAssoc (port % 2) 0 else s
  if mask / 2 % 2 = 1 then s.installAssoc (port % 2) 1 else s

end State

/-- RETRAIN (R330, R345). -/
def execRetrain (r : Req) (port : Nat) (s : State) : Outcome := .next (s.commandWrite r false (fun s => s.retrain port))

/-- UNFENCE (R330, R345). -/
def execUnfence (r : Req) (port : Nat) (s : State) : Outcome := .next (s.commandWrite r false (fun s => s.unfence port))

/-- INSTALL (R551): bit a of the mask. -/
def execInstall (r : Req) (port mask : Nat) (s : State) : Outcome := .next (s.commandWrite r false (fun s => s.install_ port mask))

/-- TX_AN_SWITCH (R551). -/
def execTxAnSwitch (r : Req) (port an : Nat) (s : State) : Outcome :=
  .next (s.commandWrite r false (fun s => s.put F.ETH_SA_CTRL_TX_AN port an))

end Sys2Proof.Machine
end

