-- ==== Sys2Proof/Machine/Contexts.lean ====
section
/-!
DEFINITION. Machine/Contexts.lean: contexts entering and leaving their states (spec/11_sync_and_contexts.md R381 to R389,
spec/12_faults_and_resets.md R411). What commits at a tick is prepared in the frame that the tick closes and shows at it (R384).
-/
namespace Sys2Proof.Machine

namespace State

/-- An event that occurs at the closing tick: it carries the number of the frame that the tick opens (R356). -/
def eventAt (s : State) (status kind index d0 d1 : Nat) : State :=
  let n := s.frame
  { ({ s with frame := n + 1 } : State).event status kind index d0 d1 with frame := n }

/-- The same for an EVENT whose DETAIL1 is a free value. -/
def eventAtD0 (s : State) (status kind index d0 : Nat) : State := s.drawn.eventAt status kind index d0 s.draw

/-- The same for an EVENT whose details are both free values. -/
def eventAtOpen (s : State) (status kind index : Nat) : State := s.drawn.drawn.eventAt status kind index s.draw s.drawn.draw

/-- Live state of a context. -/
def ctxLive (s : State) (c : Nat) : Nat := s.get F.CTX_STATE_STATE c

/-- Batts of a context's placement, each under the index that serves it (R411). -/
def placement (s : State) (c : Nat) : List Nat := (s.ctx c).batts.map (fun b => s.battOf b)

/-- Every row of batts, as rows still to be blocked (R138, R151). -/
def allRows (l : List Nat) : List (Nat × Nat) := l.flatMap (fun b => (List.range 1024).map (fun r => (b, r)))

/-- Rows still to be blocked; a worn row is never blocked again (R143, R151). -/
def unblocked (s : State) (c : Nat) : List (Nat × Nat) :=
  (s.ctx c).unsound.filter (fun u => !((s.batt u.1).worn.contains u.2 || (s.batt u.1).newWorn.contains u.2))

/-- Take a template into the context record: placement, regions, layers at their first s_x, exchange and log start again (R381,
R384). The batts of the placement take the context as their load owner (R138, R149). -/
def place (s : State) (c : Nat) (t : Template) : State :=
  let layers := t.layers.zipIdx.foldl (fun m p => tset LayerSt.empty m p.2 { LayerSt.empty with sx := p.1.sx, staticRows := p.1.staticRows }) []
  let s := s.updCtx c (fun x => { x with
    template := some t.index, cores := t.cores, batts := t.batts, regions := t.regions, layers := layers, debt := [],
    intake := [], log := [], logPos := 0, logNext := 0, step := none, exch := .empty, skips := 0, seedKey := t.seedKey, replays := [],
    fence := none, fenced := false, faultDue := none, unsound := allRows (t.batts.map (fun b => s.battOf b)) })
  let s := t.batts.foldl (fun s b => s.updBatt (s.battOf b) (fun x => { x with
    owner := some c, recordDue := x.recordDue || decide (x.owner ≠ some c) })) s
  t.layers.foldl (fun s y => (y.batts.map (fun b => s.battOf b)).foldl (fun s b =>
    (s.put F.BAND_BATT_STATIC b y.staticRows.length).put F.BAND_BATT_ADAPT b (if y.adaptive.headD false then 1 else 0)) s) s

/-- Write the RECORD fields that a package or section set gives (R457 stage 3, R516); a template's own seed key stands (R536). -/
def applyRecord (s : State) (c : Nat) (r : Generation) : State :=
  let key := match s.template c with | some t => if t.seedKey = 0 then r.seedKey else t.seedKey | none => r.seedKey
  let s := (s.put F.CTX_STEP_LO_STEP_LO c (r.step % 2 ^ 32)).put F.CTX_STEP_HI_STEP_HI c (r.step / 2 ^ 32)
  let s := (s.put F.CTX_LR_SCALE_LR_SCALE c r.lrScale.toNat).put F.CTX_LOSS_LOSS c r.loss.toNat
  s.updCtx c (fun x => { x with roundPos := r.roundPos, updates := r.updates, p1 := r.p1, p2 := r.p2, seedKey := key, slots := r.slots })

/-- A load ends in DRAINING with a failure status in its response (R384). -/
def failLoad (s : State) (c st ind : Nat) : State :=
  let s := match (s.ctx c).loading with
    | some l => match l.request with
      | some r => s.hold 1 { answer 6 r ⟨st, ind, 0⟩ 0 with gen := s.gen c }
      | none => s
    | none => s
  let s := if st = rejBinding then (s.bump F.SEC_STAT_BINDING_REFUSED 0 1).raise F.SEC_EVT_BINDING 0 else s
  (s.enter c 5).updCtx c (fun x => { x with loading := none, fence := some (s.frame + 2), fenced := false })

/-- The checkpoint in progress is abandoned; the previous generation stands (R448). -/
def abandonCkpt (s : State) (c cause : Nat) : State :=
  match (s.ctx c).ckpt.run with
  | none => s
  | some _ =>
    let s := s.updCtx c (fun x => { x with ckpt := { x.ckpt with run := none } })
    ((s.bump F.CKPT_STATS_ABANDONED c 1).raise F.CKPT_EVT_FAILED c).eventAtD0 0x050A 6 c cause

/-- Enter FAULTED (R387): the cause and frame are recorded, and the context's work, checkpoint and unanswered queries end. Queries are
answered at their bound. A DMA bounds failure sends ERR_BOUNDS beside CTX_FAULTED (R235, log entry 182). -/
def enterFaulted (s : State) (c cause : Nat) : State :=
  let s := (s.enter c 6).put F.CTX_FAULT_CAUSE c cause
  let s := (s.put F.CTX_FAULT_FRAME c ((s.frame + 1) % 2 ^ 16)).raise F.CTX_EVT_FAULTED c
  let s := (s.put F.CTX_STATE_UNPARK_PENDING c 0).put F.CTX_STATE_MODULE_HELD c 0
  let s := (s.abandonStep c).abandonCkpt c 7
  let mark := fun (q : PlacedQuery) => if q.ctx = c then { q with refused := true } else q
  let s : State := { s with fr := { s.fr with
    plans := s.fr.plans.map (fun p => { p with queries := p.queries.map mark }),
    flying := s.fr.flying.map (fun f => { f with query := mark f.query }) } }
  let s := (s.updCtx c (fun x => { x with faultDue := none, held := false, ckpt := { x.ckpt with fails := x.ckpt.fails ++ [s.now] } })).eventAtD0
    0x0403 6 c cause
  if cause = 1 then s.eventAtD0 0x0503 6 c cause else s

/-- Park by the module (R384, R411): MODULE_HELD set, unanswered queries released at the tick with REJ_CTX_STATE, the step abandoned. -/
def moduleHold (s : State) (c : Nat) : State :=
  if s.ctxLive c = 2 ∨ s.ctxLive c = 3 then
    let s := ((s.enter c 4).put F.CTX_STATE_MODULE_HELD c 1).updCtx c (fun x => { x with held := true })
    (s.abandonStep c).releaseQueries c
  else s

/-- Start a restore: the context enters LOADING with GEN + 1 and keeps its placement (R384, R456). -/
def startRestore (s : State) (c source : Nat) : State :=
  (s.enterLoading c false).updCtx c (fun x => { x with
    loading := some ⟨none, true, source, 1, s.frame, none, [], [], false, none⟩, restoreCmd := none })

/-- A context command is applicable in a state code (R384): 1 PARK, 2 UNPARK, 3 TEARDOWN. A digital-only context ignores PARK, and a
context without a template takes no command (R535). -/
def cmdOk (s : State) (c code : Nat) : Bool :=
  let st := s.ctxState c
  match code with
  | 1 => (decide (st = 2) || decide (st = 3)) && decide (s.get F.CTX_STATE_DIGITAL_ONLY c = 0)
  | 2 => decide (st = 4)
  | 3 => decide (st ≠ 0) && decide (st ≠ 5)
  | _ => false

/-- Apply a context command (R384, R388): it shows at the tick. A later command of the same frame replaces an earlier one (R366, R555).
What follows from it happens at the tick (commandEnd). -/
def command (s : State) (c code : Nat) : State :=
  let s := if (s.ctx c).cmd.isSome then
      (s.enter c (s.ctxState c)).put F.CTX_STATE_UNPARK_PENDING c (s.seen F.CTX_STATE_UNPARK_PENDING c) else s
  if s.cmdOk c code then
    let s := s.updCtx c (fun x => { x with cmd := some code })
    match code with
    | 1 => s.enter c 4
    | 2 => s.put F.CTX_STATE_UNPARK_PENDING c 1
    | _ => s.enter c 5
  else (s.raise F.CTX_EVT_CMD_IGNORED c).updCtx c (fun x => { x with cmd := none })

/-- Discard transfer debt and nap lists of a context (R138). -/
def dropDebt (s : State) (c : Nat) : State :=
  let s := (s.updCtx c (fun x => { x with debt := [] })).put F.BLK_DEBT_W_WEIGHTS c 0 |>.put F.BLK_DEBT_R_ROWS c 0
  (s.placement c).foldl (fun s b => (s.updBatt b (fun x => { x with naps := [] })).put F.BLK_NAP_NAP b 0) s

/-- Plans that still hold a query of the context, this frame's included: the fence comes after them (R388). -/
def lastPlan (s : State) (c : Nat) : Nat :=
  let a := (s.fr.plans.zipIdx.map (fun p => if p.1.queries.any (fun q => decide (q.ctx = c)) then
    (p.1.queries.filter (fun q => decide (q.ctx = c))).foldl (fun m q => max m (p.2 + 1 + q.cross)) 0 else 0)).foldl max 0
  (s.fr.flying.filter (fun f => decide (f.query.ctx = c))).foldl (fun m f => max m (f.left + 1)) a

/-- A member that tears its context down reports itself lost to the other members (R388). -/
def leaveGroup (s : State) (c : Nat) : State :=
  match s.template c with
  | none => s
  | some t => (t.members.filter (fun m => decide (m ≠ s.ownId))).foldl (fun s m => s.record m 7 2 [c, s.ownId, s.frame + 3]) s

/-- What a command of the closing frame brings at the tick (R384, R388, R456). -/
def commandEnd (s : State) (c : Nat) : State :=
  let x := s.ctx c
  let s := match x.cmd with
    | some 1 => s.abandonStep c
    | some 2 => s.updCtx c (fun y => { y with unsound := allRows (s.placement c) })
    | some 3 =>
      let s := s.leaveGroup c
      let s := match x.loading with | some _ => s.failLoad c rejCtxState 0 | none => s
      let s := ((s.abandonStep c).abandonCkpt c 3).dropDebt c
      s.updCtx c (fun y => { y with intake := [], step := none, restoreCmd := none, fence := some (s.frame + max 2 (s.lastPlan c)), fenced := false })
    | _ => s
  let s := (s.updCtx c (fun y => { y with cmd := none, reserved := false })).put F.CTX_CTRL_CMD c 0
  match (s.ctx c).restoreCmd with
  | some k => if s.ctxState c = 6 ∧ s.ctxLive c = 6 then s.startRestore c k else s
  | none => s

/-- Command a restore (R456): a FAULTED context is LOADING at the tick; a serving or PARKED one is FAULTED with cause 7 first. -/
def restoreCommand (s : State) (c source : Nat) : State :=
  let st := s.ctxState c
  if st = 6 then s.startRestore c source
  else if st = 2 ∨ st = 3 ∨ st = 4 then
    let s := s.abandonCkpt c 3
    (s.enterFaulted c 7).updCtx c (fun x => { x with restoreCmd := some source })
  else s.raise F.CTX_EVT_CMD_IGNORED c

/-- Release a drained context (R388): memory, regions and placement go, the batts lose their load owner, its checkpoint slots are freed
(R448), and what it held is to be zeroed (R520). -/
def releaseCtx (s : State) (c : Nat) : State :=
  let s := (s.placement c).foldl (fun s b => s.updBatt b (fun x => { x with owner := none })) s
  let keep := fun (x : Ctx) => { CkptSt.empty with lastGen := x.ckpt.lastGen, nextExportId := x.ckpt.nextExportId, exports := x.ckpt.exports }
  let s : State := { s with cores := tmap Core.empty (fun _ x => { x with guards := x.guards.filter (fun g => decide (g.ctx ≠ c)) }) s.cores }
  (s.enter c 0).updCtx c (fun x => { Ctx.empty with vtime := x.vtime, base := x.base, zeroing := true, ckpt := keep x })

/-- Byte ranges that a template grants a context: regions of the stacks and scratchpads (R382, R520). -/
def zeroRegion (s : State) (r : Region) : State :=
  if r.kind = 4 then
    match s.physOf r.core with
    | none => s
    | some p => s.zeroBytes (spAddr p r.base) (r.limit - r.base)
  else s.zeroBytes r.base (r.limit - r.base)

end State

/-- PARK (R384). -/
def execPark (r : Req) (ctx : Nat) (s : State) : Outcome := .next (s.commandWrite r false (fun s => s.command ctx 1))

/-- UNPARK (R384): every row of the placement is then blocked from the committed master, as BLOCKING commands do. -/
def execUnpark (r : Req) (ctx : Nat) (s : State) : Outcome := .next (s.commandWrite r false (fun s => s.command ctx 2))

/-- TEARDOWN (R388). -/
def execTeardown (r : Req) (ctx : Nat) (s : State) : Outcome := .next (s.commandWrite r false (fun s => s.command ctx 3))

/-- TEARDOWN_FENCE (R388): at the tick that closes the frame of the last plan with admitted work, GEN advances. -/
def execTeardownFence (ctx : Nat) (s : State) : Outcome :=
  .next (match (s.ctx ctx).fence with
    | some n =>
      if s.ctxState ctx = 5 ∧ (s.ctx ctx).fenced = false ∧ n ≤ s.frame + 1 ∧ s.fr.killed = none ∧ s.lastPlan ctx ≤ 1 then
        (s.bump F.CTX_STATE_GEN ctx 1).updCtx ctx (fun x => { x with fenced := true, fence := some (s.frame + 1) })
      else s
    | none => s)

/-- CONTEXT_RELEASE (R388): once every engine, batt and egress port reports none of the old generation's transfers outstanding. -/
def execContextRelease (ctx outstanding : Nat) (s : State) : Outcome :=
  .next (if s.ctxLive ctx = 5 ∧ (s.ctx ctx).fenced = true ∧ outstanding = 0 then s.releaseCtx ctx else s)

/-- DRAIN_TIMEOUT (R388): at the fence + 2P release happens regardless. -/
def execDrainTimeout (ctx : Nat) (s : State) : Outcome :=
  .next (match (s.ctx ctx).fence with
    | some n => if s.ctxLive ctx = 5 ∧ (s.ctx ctx).fenced = true ∧ n + 2 ≤ s.frame + 1 then
        (s.releaseCtx ctx).raise F.CTX_EVT_DRAIN_FORCED ctx else s
    | none => s)

/-- RELEASED_MEMORY_ZEROED (R520): as the template of the context's slot grants them. -/
def execReleasedMemoryZeroed (ctx : Nat) (s : State) : Outcome :=
  .next (if (s.ctx ctx).zeroing = true then
      let rs := match s.template ctx with | some t => t.regions | none => []
      (rs.foldl (fun s r => s.zeroRegion r) s).updCtx ctx (fun x => { x with zeroing := false })
    else s)

/-- UNPARK_COMPLETE (R384, R386): the re-block after UNPARK is complete, or every batt of a MODULE_HELD context serves. -/
def execUnparkComplete (ctx : Nat) (s : State) : Outcome :=
  .next (if s.ctxLive ctx = 4 ∧ s.unblocked ctx = [] ∧
      (s.seen F.CTX_STATE_UNPARK_PENDING ctx = 1 ∨ s.seen F.CTX_STATE_MODULE_HELD ctx = 1) then s.enterReady ctx
    else s)

/-- CONTEXT_FAULT (R387): at the tick after the cause; a failed restore faults a LOADING context (R459). -/
def execContextFault (ctx : Nat) (s : State) : Outcome :=
  .next (match (s.ctx ctx).faultDue with
    | none => s
    | some k =>
      let st := s.ctxLive ctx
      if st = 2 ∨ st = 3 ∨ st = 4 ∨ (st = 1 ∧ k = 5) then (s.enterFaulted ctx k).updCtx ctx (fun x => { x with loading := none })
      else s)

/-- A write of PAUSE: writing 0 also clears AUTO_PAUSED; a step in progress completes (R264). -/
def State.pauseTo (s : State) (ctx : Nat) (value : Bool) : State :=
  if value then s.put F.CTX_TRAIN_PAUSE ctx 1 else (s.put F.CTX_TRAIN_PAUSE ctx 0).put F.CTX_TRAIN_AUTO_PAUSED ctx 0

/-- PAUSE_WRITE (R264). -/
def execPauseWrite (r : Req) (ctx : Nat) (value : Bool) (s : State) : Outcome :=
  .next (s.commandWrite r false (fun s => s.pauseTo ctx value))

/-- RESTORE_LATEST (R456). -/
def execRestoreLatest (r : Req) (ctx : Nat) (s : State) : Outcome := .next (s.commandWrite r false (fun s => s.restoreCommand ctx 1))

/-- RESTORE_PREVIOUS (R456). -/
def execRestorePrevious (r : Req) (ctx : Nat) (s : State) : Outcome := .next (s.commandWrite r false (fun s => s.restoreCommand ctx 2))

end Sys2Proof.Machine
end

