-- ==== Sys2Proof/Machine/Calibration.lean ====
section
/-!
DEFINITION. Machine/Calibration.lean: the calibration items, their store and the recalibration requests (spec/16_calibration.md).
Items are kept as deviations from an ideal unit: OFFSET in 1/16 LSB, GAIN as code - 32,768, the code items as codes (log entry 7).
-/
namespace Sys2Proof.Machine

/-- Key of a calibration item: kind, unit, and column, ring or part. -/
def calKey (kind unit col : Nat) : Nat := kind * 2 ^ 40 + unit * 2 ^ 16 + col

/-- The two results agree within the item's tolerance (R486, R491). Units: OFFSET 1/1,000 of 1/16 LSB; GAIN, MIRROR ratio x 8, AMP over
0.2 V and MON_REF gain in 2^-24; STEP in 1/1,000 ps; FWD_SIGMA in 2^-20; P_IDLE in 1/16 W; MON_REF offset (part 1) in nV; SENSOR_MAP
and RING_BIAS as codes. -/
def calAgree (kind col : Nat) (a b : Int) : Bool :=
  let d := (a - b).natAbs
  match kind with
  | 0 => decide (d ≤ 4000)
  | 1 | 2 | 3 => decide (d * 1000 ≤ 2 ^ 24)
  | 4 => decide (d ≤ 1000)
  | 5 => decide (d * 10 ≤ max a.natAbs b.natAbs)
  | 6 => decide (d ≤ 16)
  | 7 => if col = 0 then decide (d * 10000 ≤ 2 ^ 24) else decide (d ≤ 2000)
  | 8 => decide (d = 0)
  | 9 => decide (d ≤ 4)
  | _ => false

/-- num / den rounded to an integer, ties to even. -/
def divEven (num : Int) (den : Nat) : Int := smant (decide (num < 0)) (roundInt .near false num.natAbs den)

/-- The value to store for the mean of two results, from the value in force (R491): a code item moves its code by the step of R486. -/
def calStored (kind : Nat) (old a b : Int) : Int :=
  let m := a + b
  match kind with
  | 0 => divEven m 2000
  | 1 => divEven ((m - 2 ^ 25) * 2 ^ 18) (2 ^ 25)
  | 2 => old - divEven ((m - 2 ^ 25) * 1000) (2 ^ 25)
  | 3 => old - divEven ((m - 2 ^ 25) * 2500) (2 ^ 25)
  | 4 => old - divEven m 2000
  | _ => divEven m 2

/-- The item's range (R486), in stored units. -/
def calRange (kind col : Nat) (v : Int) : Bool :=
  match kind with
  | 0 => decide (-128 ≤ v ∧ v ≤ 127)
  | 1 => decide (-32768 ≤ v ∧ v ≤ 32767)
  | 2 | 4 => decide (0 ≤ v ∧ v ≤ 63)
  | 3 => decide (0 ≤ v ∧ v ≤ 255)
  | 5 | 6 => decide (0 ≤ v ∧ v ≤ 65535)
  | 7 => decide (col ≤ 1)
  | 8 => decide (0 ≤ v ∧ v ≤ 14)
  | 9 => decide (0 ≤ v ∧ v ≤ 1023)
  | _ => false

/-- Items that a scope may measure (R496). -/
def calInScope (scope kind : Nat) : Bool := if scope = 0 then decide (kind ≤ 4) else decide (kind = scope + 4)

/-- Module-wide items have one unit. -/
def calUnit (scope unit : Nat) : Nat := if scope = 1 ∨ scope = 2 ∨ scope = 3 then 0 else unit

/-- Unit kind and index that CAL_REFUSED names (R356, R492): batt, physical core, link or Ethernet port, module. -/
def calEventUnit (scope unit : Nat) : Nat × Nat :=
  match scope with
  | 0 => (3, unit)
  | 4 => (2, unit)
  | 5 => if unit < 32 then (4, unit) else (5, unit - 32)
  | _ => (0, 0)

namespace State

/-- A calibration value in force. -/
def calItem (s : State) (kind unit col : Nat) : Int := tget 0 s.cal.items (calKey kind unit col)

/-- Two's complement of a 24-bit field. -/
def signed24 (v : Nat) : Int := if v % 2 ^ 24 < 2 ^ 23 then v % 2 ^ 24 else (v % 2 ^ 24 : Int) - 2 ^ 24

/-- Result of a channel as MON_RESULT shows it. -/
def monResult (s : State) (ch : Nat) : Int := signed24 (s.get F.MON_RESULT_VALUE ch)

/-- Junction temperature of a physical core and its batts, in 1/16 °C: the latest reading of the die sensor that SENSOR_MAP assigns (R473). -/
def coreTemp (s : State) (core : Nat) : Int := s.monResult (10 + 15 * (core / 48) + (s.calItem 8 core 0).toNat)

/-- A batt's junction is above 95 °C (R111, R423). -/
def battHot (s : State) (b : Nat) : Bool := decide (1520 < s.coreTemp (b / 8))

/-- Refuse one item (R492). -/
def calRefuse (s : State) (run : CalRun) (kind col reason : Nat) : State :=
  let u := calEventUnit run.scope run.unit
  let s := (s.bump F.CAL_STATUS_REFUSED 0 1).raise F.CAL_EVT_REFUSED 0
  let s := if run.scope = 0 ∧ kind ≤ 2 then s.bumpSat F.CAL_BATT_REFUSED_COLS run.unit 1 else s
  s.event 0x0608 u.1 u.2 (Config.calItemCode kind % 2 ^ 8 * 2 ^ 8 + reason) col

/-- Accept a value: it is staged with its records and takes effect at the tick (R487, R489); the unit holds a user value from then on
(R490). -/
def calAccept (s : State) (run : CalRun) (kind col : Nat) (v : Int) : State :=
  let s : State := { s with cal := { s.cal with
    staged := s.cal.staged ++ [(calKey kind (calUnit run.scope run.unit) col, v)], lost := s.cal.lost.erase (calKey kind (calUnit run.scope run.unit) col) } }
  if run.scope = 0 then (s.put F.CAL_UNIT_SOURCE run.unit 1).put F.CAL_UNIT_AGE run.unit 0 else s

/-- A request measures the item: of a batt, columns in service and the reference columns, P alone for GAIN and MIRROR (R493). -/
def calMeasures (s : State) (run : CalRun) (kind col : Nat) : Bool :=
  calInScope run.scope kind && (match run.scope, kind with
    | 0, 0 => decide (4224 ≤ col ∧ col < 4232) || (s.logicalCol run.unit (col / 4)).isSome
    | 0, 1 | 0, 2 => decide (col = 1056) || (s.logicalCol run.unit col).isSome
    | 3, _ => decide (col < 2)
    | 5, _ => decide (col < if run.unit < 32 then 16 else 8)
    | _, _ => decide (col = 0))

/-- GAIN and MIRROR of a column have too little signal (R492 reason 3, R495): the batt holds neither a load nor the factory pattern, or fewer
than 64 rows of the column have programmed-image bytes other than 0 and 0x80. -/
def calWeak (s : State) (run : CalRun) (kind col : Nat) : Bool :=
  decide (run.scope = 0) && (decide (kind = 1) || decide (kind = 2)) &&
    (((s.batt run.unit).owner.isNone && !(s.batt run.unit).pattern) ||
      match s.logicalCol run.unit col with
      | some j => decide (((List.range 1024).filter (fun r =>
          let v := s.byte (s.imageAt run.unit + r * 1024 + j); !decide (v = 0 ∨ v = 0x80))).length < 64)
      | none => false)

/-- Decide one item: its signal, its temperature, agreement, range, then acceptance; counts of accepted and refused so far. -/
def calDecide (run : CalRun) (x : State × Nat × Nat) (i : CalItem) : State × Nat × Nat :=
  let s := x.1
  let old := s.calItem i.kind (calUnit run.scope run.unit) i.col
  let v := calStored i.kind old i.first i.second
  if s.calMeasures run i.kind i.col = false then x
  else if s.calWeak run i.kind i.col = true then (s.calRefuse run i.kind i.col 3, x.2.1, x.2.2 + 1)
  else if i.moved = true then (s.calRefuse run i.kind i.col 2, x.2.1, x.2.2 + 1)
  else if calAgree i.kind i.col i.first i.second = false then (s.calRefuse run i.kind i.col 1, x.2.1, x.2.2 + 1)
  else if calRange i.kind i.col v = false then (s.calRefuse run i.kind i.col 5, x.2.1, x.2.2 + 1)
  else (s.calAccept run i.kind i.col v, x.2.1 + 1, x.2.2)

/-- End a request: CAL_DONE with the counts (R496). -/
def calEnd (s : State) (accepted refused : Nat) : State :=
  let s : State := { s with cal := { s.cal with run := none } }
  let s := ((s.put F.CAL_STATUS_BUSY 0 0).put F.CAL_STATUS_RUN 0 0).bump F.CAL_STATUS_ACCEPTED 0 1
  s.event 0x0609 0 0 accepted refused

/-- Physical columns that a batt request measures: those of the column map, and P and Z (R493). -/
def calColumns (s : State) (b : Nat) : List Nat := (List.range 1024).map (fun j => tget j (s.batt b).colMap j) ++ [1056, 1057]

/-- The items of a request (R493). -/
def calItems (s : State) (run : CalRun) : List (Nat × Nat) :=
  match run.scope with
  | 0 => (s.calColumns run.unit).flatMap (fun c => (List.range 4).map (fun b => (0, 4 * c + b)) ++ if c = 1057 then [] else [(1, c), (2, c)]) ++
      [(3, 0), (4, 0)]
  | 3 => [(7, 0), (7, 1)]
  | 5 => (List.range (if run.unit < 32 then 16 else 8)).map (fun k => (9, k))
  | k => [(k + 4, 0)]

/-- Abort a run on a unit for which `hit` holds: every item is refused with reason 4 (R494). `hit` sees the scope and unit. -/
def calAbort (s : State) (hit : Nat → Nat → Bool) : State :=
  match s.cal.run with
  | none => s
  | some run =>
    if hit run.scope run.unit then
      let l := s.calItems run
      (l.foldl (fun s i => s.calRefuse run i.1 i.2 4) s).calEnd 0 l.length
    else s

/-- Values staged in the frame take effect at the tick, with the registers that show them (R487, R489, R499). -/
def calTick (s : State) : State :=
  let l := s.cal.staged
  let s : State := { s with cal := { s.cal with
    items := l.foldl (fun m e => tset 0 m e.1 e.2) s.cal.items, staged := [] } }
  l.foldl (fun s e =>
    let kind := e.1 / 2 ^ 40
    let unit := e.1 / 2 ^ 16 % 2 ^ 24
    let v := e.2.toNat
    match kind with
    | 3 => s.put F.CAL_BATT_AMP unit v
    | 4 => s.put F.CAL_BATT_STEP unit v
    | 5 => s.put F.CAL_MOD_FWD_SIGMA 0 v
    | 6 => s.put F.CAL_MOD_P_IDLE 0 v
    | 9 =>
      let ring := e.1 % 2 ^ 16
      if unit < 32 then (if ring < 8 then s.put F.CAL_LANE_BIAS (8 * unit + ring) v else s)
      else (if ring < 4 then s.put F.CAL_LANE_BIAS (256 + 4 * (unit - 32) + ring) v else s)
    | _ => s) s

/-- CAL_ registers may be written in service or in OUT_OF_SERVICE with cause 5 or 7 (R556). -/
def calWritable (s : State) : Bool := decide (s.phase ≤ 1) || s.writableOut 0x5000

/-- Begin a recalibration (R496): ignored while one runs. -/
def calStart (s : State) (session scope unit : Nat) (pattern : Bool) : State :=
  let s := ((s.put F.CAL_CTRL_SCOPE 0 scope).put F.CAL_CTRL_UNIT 0 unit).put F.CAL_CTRL_PATTERN 0 (if pattern then 1 else 0)
  if s.get F.CAL_STATUS_BUSY 0 = 1 then s.raise F.CAL_EVT_BUSY_IGNORED 0
  else
    let s : State := { s with cal := { s.cal with run := some ⟨scope, unit, session⟩ } }
    let s := (s.put F.CAL_STATUS_BUSY 0 1).put F.CAL_STATUS_RUN 0 1
    if scope = 0 then
      let s := s.put F.CAL_BATT_REFUSED_COLS unit 0
      s.updBatt unit (fun x => { x with pattern := pattern && decide (x.owner = none) })
    else s

/-- GO of a recalibration (R496). -/
def calGo (s : State) (r : Req) (scope unit : Nat) (pattern : Bool) : State :=
  s.commandWriteIf r true [(s.calWritable, verdict errOos)] (fun s => s.calStart r.session scope unit pattern)

end State

/-- CAL_BATT_ITEMS (R493, R495): with PATTERN a batt without a load owner is first blocked with the factory pattern, by BLOCKING
commands. -/
def execCalBattItems (r : Req) (unit : Nat) (pattern : Bool) (s : State) : Outcome := .next (s.calGo r 0 unit pattern)
/-- CAL_FWD_SIGMA (R493). -/
def execCalFwdSigma (r : Req) (s : State) : Outcome := .next (s.calGo r 1 0 false)
/-- CAL_P_IDLE (R493). -/
def execCalPIdle (r : Req) (s : State) : Outcome := .next (s.calGo r 2 0 false)
/-- CAL_MON_REF (R493). -/
def execCalMonRef (r : Req) (s : State) : Outcome := .next (s.calGo r 3 0 false)
/-- CAL_SENSOR_MAP (R493). -/
def execCalSensorMap (r : Req) (core : Nat) (s : State) : Outcome := .next (s.calGo r 4 core false)
/-- CAL_RING_BIAS (R493). -/
def execCalRingBias (r : Req) (port : Nat) (s : State) : Outcome := .next (s.calGo r 5 port false)

/-- CAL_RUN_COMPLETE (R491, R492, R497): every item is decided on its own; P_IDLE can be measured only in OUT_OF_SERVICE with cause 5. -/
def execCalRunComplete (items : List CalItem) (resid : Nat) (s : State) : Outcome :=
  .next (match s.cal.run with
    | none => s
    | some run =>
      if run.scope = 2 ∧ ¬(s.phase = 2 ∧ s.get F.FLT_STATE_CAUSE 0 = 5) then s
      else
        let s := if run.scope = 0 then
            let s := s.put F.CAL_BATT_RESID run.unit (min 255 resid)
            if 16 < resid then (s.raise F.CAL_EVT_RESID_HIGH 0).eventOpen 0x060B 3 run.unit else s
          else s
        let x := items.foldl (State.calDecide run) (s, 0, 0)
        x.1.calEnd x.2.1 x.2.2)

end Sys2Proof.Machine
end

