-- ==== Sys2Proof/Machine/Narrow.lean ====
section
/-!
DEFINITION. Machine/Narrow.lean: elements by format code (spec/06_core_digital.md R205), decoding, narrowing under the scale rules and the
trouble counts of a narrowing (spec/05_formats_and_band_path.md R155 to R170).
-/
namespace Sys2Proof.Machine

/-- Bits of an element (R154, R205). -/
def elemBits (f : Nat) : Nat :=
  match f with
  | 0 => 32 | 1 => 16 | 2 => 16 | 7 => 6 | 8 => 6 | 9 => 4 | 0xC => 4 | 0xD => 32 | 0xE => 16 | _ => 8

/-- MX formats (R155). -/
def isMx (f : Nat) : Bool := decide (5 ≤ f) && decide (f ≤ 0xA)
/-- Floating-point family of 8 bits or fewer, MXINT8 included (R163). -/
def isNarrowFloat (f : Nat) : Bool := decide (3 ≤ f) && decide (f ≤ 0xA)
/-- INT8 and INT4. -/
def isTileInt (f : Nat) : Bool := decide (f = 0xB) || decide (f = 0xC)
/-- Floating-point family (R163). -/
def isFloatFamily (f : Nat) : Bool := decide (f ≤ 0xA)
/-- Narrowings that count trouble: formats of 8 bits or fewer (R169). -/
def isNarrow (f : Nat) : Bool := decide (3 ≤ f) && decide (f ≤ 0xC)

/-- The layout of a floating-point format code; E4M3 for codes that have none. -/
def fmtOf (f : Nat) : Fmt :=
  match f with
  | 0 => .fp32 | 1 => .bf16 | 2 => .fp16 | 4 => .e5m2 | 6 => .e5m2 | 7 => .e2m3 | 8 => .e3m2 | 9 => .e2m1 | _ => .e4m3

/-- emax of R164 and R194. -/
def emaxOf (f : Nat) : Int := if f = 0xA then 0 else (fmtOf f).emax

/-- Two's complement value of a w-bit field. -/
def signedOf (w v : Nat) : Int := if v % 2 ^ w < 2 ^ (w - 1) then (v % 2 ^ w : Nat) else (v % 2 ^ w : Nat) - (2 ^ w : Nat)

/-- An integer times 2^e as a value. -/
def ofInt (v : Int) (e : Int) : FVal := .fin (decide (v < 0)) v.natAbs e

/-- Decode an element, before its block or tile scale (R154 to R156, R163). -/
def elemVal (f bits : Nat) : FVal :=
  match f with
  | 0xA => ofInt (signedOf 8 bits) (-6)
  | 0xB => ofInt (signedOf 8 bits) 0
  | 0xC => ofInt (signedOf 4 bits) 0
  | 0xD => ofInt (signedOf 32 bits) 0
  | 0xE => ofInt (signedOf 16 bits) 0
  | _ => (fmtOf f).dec bits

/-- The value times 2^k. -/
def FVal.scale (v : FVal) (k : Int) : FVal :=
  match v with
  | .fin n m e => .fin n m (e + k)
  | v => v

/-- What a narrowing produces and counts (R160, R169): element codes, scale bytes, saturated and zeroed elements, whether a saturated or
zeroed block was seen, blocks, blocks and integer elements made from non-finite sources (R161). -/
structure Narrowed where
  codes : List Nat
  scales : List Nat
  sat : Nat
  zero : Nat
  satBlock : Bool
  zeroBlock : Bool
  blocks : Nat
  nan : Nat
deriving DecidableEq, Repr

/-- Nothing narrowed. -/
def Narrowed.none : Narrowed := ⟨[], [], 0, 0, false, false, 0, 0⟩

/-- Two narrowings one after the other. -/
def Narrowed.join (a b : Narrowed) : Narrowed :=
  ⟨a.codes ++ b.codes, a.scales ++ b.scales, a.sat + b.sat, a.zero + b.zero, a.satBlock || b.satBlock, a.zeroBlock || b.zeroBlock,
    a.blocks + b.blocks, a.nan + b.nan⟩

/-- Numerator and denominator of a finite magnitude. -/
def FVal.frac (v : FVal) : Nat × Nat :=
  match v with
  | .fin _ m e => scaleFrac m 1 e
  | _ => (0, 1)

/-- a ≤ b on non-negative fractions. -/
def fracLe (a b : Nat × Nat) : Bool := decide (a.1 * b.2 ≤ b.1 * a.2)

/-- The largest finite element as a fraction (R164). -/
def maxElem (f : Nat) : Nat × Nat :=
  match f with
  | 0xA => (127, 64)
  | 0xB => (127, 1)
  | 0xC => (7, 1)
  | _ => (FVal.frac ((fmtOf f).dec (fmtOf f).maxFin))

/-- Round the quotient ± num / den to an element and clamp it (R160 steps 3 and 4). -/
def toElem (f : Nat) (neg : Bool) (num den : Nat) : Nat :=
  match f with
  | 0xA => let v := min 127 (roundInt .near neg (64 * num) den); if neg then (256 - v) % 256 else v
  | 0xB => let v := min 127 (roundInt .near neg num den); if neg then (256 - v) % 256 else v
  | 0xC => let v := min 7 (roundInt .near neg num den); if neg then (16 - v) % 16 else v
  | _ =>
    let g := fmtOf f
    let sign := if neg then 2 ^ (g.eb + g.mb) else 0
    sign + min g.maxFin (g.roundFrac .near false num den)

/-- An element is zero, whatever its sign. -/
def zeroElem (f code : Nat) : Bool :=
  match elemVal f code with
  | .fin _ m _ => decide (m = 0)
  | _ => false

/-- One block: quotients with the sign and fraction of each source, `none` for a source of zero; counts under R169. -/
def countBlock (f : Nat) (qs : List (Option (Bool × Nat × Nat))) (scales : List Nat) : Narrowed :=
  let code := fun (q : Option (Bool × Nat × Nat)) => match q with | Option.none => 0 | some (n, a, b) => toElem f n a b
  let live := qs.filterMap id
  let sat := (live.filter (fun q => !fracLe q.2 (maxElem f))).length
  let zero := (live.filter (fun q => zeroElem f (toElem f q.1 q.2.1 q.2.2))).length
  ⟨qs.map code, scales, sat, zero, decide (live ≠ [] ∧ sat = live.length), decide (live ≠ [] ∧ zero = live.length), 1, 0⟩

/-- The quotient of a finite value by 2^k, exactly. -/
def quotPow (k : Int) (v : FVal) : Option (Bool × Nat × Nat) :=
  match v with
  | .fin n m e => if m = 0 then Option.none else some (n, (scaleFrac m 1 (e - k)).1, (scaleFrac m 1 (e - k)).2)
  | _ => Option.none

/-- The largest finite magnitude of a list as a fraction. -/
def amaxOf (l : List FVal) : Nat × Nat := (l.map FVal.frac).foldl (fun a b => if fracLe a b then b else a) (0, 1)

/-- Scale exponent of a block under a rule: 0 floor, 1 ceiling (R164). -/
def mxExp (f rule : Nat) (amax : Nat × Nat) : Int :=
  let e : Int :=
    if rule = 0 then ilog2 amax.1 amax.2 - emaxOf f
    else
      let m := maxElem f
      let num := amax.1 * m.2
      let den := amax.2 * m.1
      let k := ilog2 num den
      let p := scaleFrac 1 1 k
      if p.1 * den = num * p.2 then k else k + 1
  max (-127) (min 127 e)

/-- A free element code of format f (log entry 1): MXINT8 never is 0x80 (R156). -/
def freeElem (f fr : Nat) : Nat :=
  if f = 0xA then (let n := Config.freeNat fr % 255; if n < 128 then n else n + 1) else Config.freeNat fr % 2 ^ elemBits f

/-- Free codes in place of the elements of a block that is NaN (R161). -/
def freeCodes (f fr n : Nat) : List Nat := (List.range n).map (fun i => freeElem f (fr + i))

/-- Narrow one block to an MX format (R160, R161, R164); `fr` is where its free values begin. -/
def narrowMx (f rule fr : Nat) (l : List FVal) : Narrowed :=
  if l.any (fun v => !v.isFin) then ⟨freeCodes f fr l.length, [255], 0, 0, false, false, 1, 1⟩
  else
    let a := amaxOf l
    if a.1 = 0 then ⟨l.map (fun _ => 0), [0], 0, 0, false, false, 1, 0⟩
    else
      let k := mxExp f rule a
      countBlock f (l.map (quotPow k)) [(k + 127).toNat]

/-- The quotient of a source by an FP32 scale: exact for FP8, rounded to FP32 for an integer tile (R160 step 2); an infinite quotient
counts as one beyond every element. -/
def quotScale (f : Nat) (scale : Word) (v : FVal) : Option (Bool × Nat × Nat) :=
  match v, f32 scale with
  | .fin n m e, .fin k p g =>
    if m = 0 then Option.none
    else if p = 0 then some (n != k, 2 ^ 200, 1)
    else if isTileInt f then
      match f32 (fdiv (toF32 v) scale) with
      | .fin j q h => some (j, (scaleFrac q 1 h).1, (scaleFrac q 1 h).2)
      | _ => some (n != k, 2 ^ 200, 1)
    else some (n != k, (scaleFrac m p (e - g)).1, (scaleFrac m p (e - g)).2)
  | _, _ => Option.none

/-- Code of a non-finite source (R161): E5M2 keeps infinities, E4M3 gives 0x7F, integers 0. -/
def specialCode (f : Nat) (v : FVal) : Nat :=
  match f, v with
  | 4, .inf n => if n then 0xFC else 0x7C
  | 4, _ => 0x7F
  | 3, _ => 0x7F
  | _, _ => 0

/-- Narrow one group of elements with an FP32 scale: FP8, INT8 or INT4 (R160, R161). -/
def narrowScaled (f : Nat) (scale : Word) (l : List FVal) : Narrowed :=
  let r := countBlock f (l.map (fun v => if v.isFin then quotScale f scale v else Option.none)) []
  { r with codes := List.zipWith (fun v c => if v.isFin then c else specialCode f v) l r.codes,
           nan := if isTileInt f then (l.filter (fun v => !v.isFin)).length else 0 }

/-- Cut a list into groups of n; the fuel is their number. -/
def groups {α : Type} (n : Nat) : Nat → List α → List (List α)
  | 0, _ => []
  | k + 1, l => if l.isEmpty then [] else l.take n :: groups n k (l.drop n)

/-- Narrow a row of elements in blocks of 32 to a format of 8 bits or fewer. A format without block scaling takes groups of 32 too for the
zeroed and saturated blocks of R169, which gives it none (log entry 180). -/
def narrowRow (f rule fr : Nat) (scale : Word) (l : List FVal) : Narrowed :=
  ((groups 32 (l.length / 32 + 1) l).zipIdx.map (fun p =>
    if isMx f then narrowMx f rule (fr + 32 * p.2) p.1 else narrowScaled f scale p.1)).foldl Narrowed.join Narrowed.none

/-- Convert a value to a format of more than 8 bits under a rounding mode (R162, R224). -/
def wideCode (f : Nat) (md : Rnd) (v : FVal) : Nat :=
  match f with
  | 0xD => (toIntSat 32 md v % 2 ^ 32).toNat
  | 0xE => (toIntSat 16 md v % 2 ^ 16).toNat
  | _ => (fmtOf f).ofVal md v

/-- Bytes of a packed element row, little-endian (R157). -/
def packBytes (w : Nat) (codes : List Nat) : List Byte :=
  let n := codes.foldr (fun c n => c % 2 ^ w + 2 ^ w * n) 0
  (leNums ((codes.length * w + 7) / 8) n).map (fun b => BitVec.ofNat 8 b)

/-- The scale of a whole FP8 tensor (R165: ceiling rule) or of an integer tile (amax / 127 or amax / 7), in FP32; 0 with every finite source
zero, and a source that is not finite does not count in amax (log entry 181). -/
def tensorScale (f : Nat) (l : List FVal) : Word :=
  let a := amaxOf l
  if a.1 = 0 then 0
  else if isTileInt f then
    let q := maxElem f
    BitVec.ofNat 32 (Fmt.fp32.roundFrac .near false a.1 (a.2 * q.1))
  else f32Pow2 (mxExp f 1 a)

end Sys2Proof.Machine
end

