-- ==== Sys2Proof/Machine/Accum.lean ====
section
/-!
DEFINITION. Machine/Accum.lean: sums of products of matrix operands in FP32 (spec/06_core_digital.md R192 to R194, R199, R200), and the
narrowing of a tensor's tiles with its checks and rungs (spec/05_formats_and_band_path.md R165, R169, R170).
-/
namespace Sys2Proof.Machine

/-- Saturated and zeroed thresholds of a tensor kind (R165). -/
def kindLimits (kind : Nat) : Nat × Nat :=
  match kind with
  | 0 => (0, 164)
  | 1 => (16, 328)
  | 2 => (4, 1638)
  | _ => (0, 1638)

/-- A tile counter is in trouble (R170); the image's thresholds may be lower than those of R165. -/
def inTrouble (kind satMax zeroMax t : Nat) : Bool :=
  decide (min (kindLimits kind).1 satMax < t % 2 ^ 15) || decide (min (kindLimits kind).2 zeroMax < t / 2 ^ 16 % 2 ^ 15) ||
  decide (t / 2 ^ 15 % 2 = 1) || decide (t / 2 ^ 31 % 2 = 1)

/-- The next rung of a format (R170). -/
def nextRung (kind f : Nat) : Option Nat :=
  match f with
  | 9 => some (if kind ≤ 1 then 7 else 8)
  | 7 => some (if kind ≤ 1 then 5 else 6)
  | 8 => some (if kind ≤ 1 then 5 else 6)
  | 5 => some 1
  | 6 => some 1
  | 3 => some 1
  | 4 => some 1
  | 0xA => some 1
  | 0xC => some 0xB
  | 0xB => some 1
  | _ => none

/-- One row of a matrix operand along the reduction: format, elements before their scales, and the scale byte of each block of 32, 127 without
block scaling (R189, R192). -/
structure MatRow where
  fmt : Nat
  elem : Nat → FVal
  scale : Nat → Nat

namespace MatRow

/-- E_b of a block (R192). -/
def blockExp (a b : MatRow) (i : Nat) : Int := (a.scale i : Int) + b.scale i

/-- One of the block's scales is 0xFF (R200). -/
def blockNan (a b : MatRow) (i : Nat) : Bool := (isMx a.fmt && decide (a.scale i = 255)) || (isMx b.fmt && decide (b.scale i = 255))

/-- Block sum S (R192) of block i over k elements in all, NaN with a block scale of 0xFF (R200). -/
def blockSum (a b : MatRow) (k i : Nat) : FVal :=
  if a.blockNan b i then .nan
  else (List.range (min 32 (k - 32 * i))).foldl
    (fun (v : FVal) j => v.add ((a.elem (32 * i + j)).mul (b.elem (32 * i + j)))) (.fin false 0 0)

/-- FP32 accumulation of narrow operands over k elements, with s_AB, from a start (R193, R199). -/
def accNarrow (a b : MatRow) (k : Nat) (sAB start : Word) : Word :=
  (List.range ((k + 31) / 32)).foldl (fun (v : Word) i =>
    fin32 v v ((f32 v).add (((a.blockSum b k i).scale (a.blockExp b i - 254)).mul (f32 sAB)))) start

/-- The exact product at k with its block scales, for an operation with a wide operand (R163, R193). -/
def wideProduct (a b : MatRow) (k : Nat) : FVal :=
  if a.blockNan b (k / 32) then .nan else ((a.elem k).mul (b.elem k)).scale (a.blockExp b (k / 32) - 254)

/-- FP32 sum of products with a wide operand, from a start (R193). -/
def accWide (a b : MatRow) (k : Nat) (start : Word) : Word :=
  (List.range k).foldl (fun (v : Word) i => fin32 v v ((f32 v).add (a.wideProduct b i))) start

end MatRow

/-! Tiles of a narrowed tensor (R169, R170, R174). -/

/-- Up to 128 elements of an operand row within one tile: format, codes, scale bytes by block. -/
structure TileRow where
  fmt : Nat
  codes : List Nat
  scales : List Nat
deriving DecidableEq, Repr

namespace TileRow

/-- As an operand of a sum. -/
def row (t : TileRow) : MatRow := ⟨t.fmt, fun i => elemVal t.fmt (t.codes.getD i 0), fun i => t.scales.getD i 127⟩

/-- Decoded value of an element. -/
def val (t : TileRow) (i : Nat) : FVal :=
  let b := t.scales.getD (i / 32) 127
  if isMx t.fmt ∧ b = 255 then .nan else (elemVal t.fmt (t.codes.getD i 0)).scale ((b : Int) - 127)

/-- Continue a sum over one tile (R193): block by block for narrow operands, product by product with a wide one. -/
def dot (acc : Word) (p : TileRow × TileRow) : Word :=
  if isNarrowFloat p.1.fmt && isNarrowFloat p.2.fmt then p.1.row.accNarrow p.2.row p.1.codes.length 0x3F800000 acc
  else p.1.row.accWide p.2.row p.1.codes.length acc

/-- A row of a tile in a format; a wide one keeps its BF16 codes. -/
def narrow (f rule fr : Nat) (l : List FVal) : TileRow × Narrowed :=
  if isNarrow f then
    let w := narrowRow f rule fr 0x3F800000 l
    (⟨f, w.codes, w.scales⟩, w)
  else (⟨f, l.map (wideCode f .near), []⟩, Narrowed.none)

end TileRow

/-- Narrow a tile's rows at a rung, and at the next ones while the tile is in trouble (R170); the fuel is the number of rungs left. The
thresholds are those of R165. -/
def climbTile (kind rule fr : Nat) : Nat → Nat → List (List FVal) → Nat × List TileRow
  | 0, f, rows => (f, rows.map (fun l => (TileRow.narrow f rule fr l).1))
  | k + 1, f, rows =>
    let ws := rows.map (fun l => TileRow.narrow f rule fr l)
    let n := (ws.map (fun w => w.2)).foldl Narrowed.join Narrowed.none
    let bad := decide ((kindLimits kind).1 < n.sat) || decide ((kindLimits kind).2 < n.zero) || n.satBlock || n.zeroBlock
    match if bad then nextRung kind f else none with
    | some g => climbTile kind rule fr k g rows
    | none => (f, ws.map (fun w => w.1))

/-- A sum over the tiles of two operand rows in ascending order (R193, R196). -/
def tileSum (a b : List TileRow) : Word := (a.zip b).foldl TileRow.dot 0

end Sys2Proof.Machine
end

