-- ==== Sys2Proof/Machine/Aes.lean ====
section
/-!
DEFINITION. Machine/Aes.lean: AES-256 encryption of one block (FIPS 197, named in spec/00_scope.md; its tables and rounds are taken from the
standard, log entry 15) and the rounding generator's draws (spec/06_core_digital.md R207, R208). Bytes are numbers below 256; a state is 16
bytes in column order.
-/
namespace Sys2Proof.Machine

/-- The S-box of FIPS 197. -/
def sbox : List Nat :=
  ([0x63, 0x7C, 0x77, 0x7B, 0xF2, 0x6B, 0x6F, 0xC5, 0x30, 0x01, 0x67, 0x2B, 0xFE, 0xD7, 0xAB, 0x76] ++
   [0xCA, 0x82, 0xC9, 0x7D, 0xFA, 0x59, 0x47, 0xF0, 0xAD, 0xD4, 0xA2, 0xAF, 0x9C, 0xA4, 0x72, 0xC0] ++
   [0xB7, 0xFD, 0x93, 0x26, 0x36, 0x3F, 0xF7, 0xCC, 0x34, 0xA5, 0xE5, 0xF1, 0x71, 0xD8, 0x31, 0x15] ++
   [0x04, 0xC7, 0x23, 0xC3, 0x18, 0x96, 0x05, 0x9A, 0x07, 0x12, 0x80, 0xE2, 0xEB, 0x27, 0xB2, 0x75] ++
   [0x09, 0x83, 0x2C, 0x1A, 0x1B, 0x6E, 0x5A, 0xA0, 0x52, 0x3B, 0xD6, 0xB3, 0x29, 0xE3, 0x2F, 0x84] ++
   [0x53, 0xD1, 0x00, 0xED, 0x20, 0xFC, 0xB1, 0x5B, 0x6A, 0xCB, 0xBE, 0x39, 0x4A, 0x4C, 0x58, 0xCF] ++
   [0xD0, 0xEF, 0xAA, 0xFB, 0x43, 0x4D, 0x33, 0x85, 0x45, 0xF9, 0x02, 0x7F, 0x50, 0x3C, 0x9F, 0xA8] ++
   [0x51, 0xA3, 0x40, 0x8F, 0x92, 0x9D, 0x38, 0xF5, 0xBC, 0xB6, 0xDA, 0x21, 0x10, 0xFF, 0xF3, 0xD2] ++
   [0xCD, 0x0C, 0x13, 0xEC, 0x5F, 0x97, 0x44, 0x17, 0xC4, 0xA7, 0x7E, 0x3D, 0x64, 0x5D, 0x19, 0x73] ++
   [0x60, 0x81, 0x4F, 0xDC, 0x22, 0x2A, 0x90, 0x88, 0x46, 0xEE, 0xB8, 0x14, 0xDE, 0x5E, 0x0B, 0xDB] ++
   [0xE0, 0x32, 0x3A, 0x0A, 0x49, 0x06, 0x24, 0x5C, 0xC2, 0xD3, 0xAC, 0x62, 0x91, 0x95, 0xE4, 0x79] ++
   [0xE7, 0xC8, 0x37, 0x6D, 0x8D, 0xD5, 0x4E, 0xA9, 0x6C, 0x56, 0xF4, 0xEA, 0x65, 0x7A, 0xAE, 0x08] ++
   [0xBA, 0x78, 0x25, 0x2E, 0x1C, 0xA6, 0xB4, 0xC6, 0xE8, 0xDD, 0x74, 0x1F, 0x4B, 0xBD, 0x8B, 0x8A] ++
   [0x70, 0x3E, 0xB5, 0x66, 0x48, 0x03, 0xF6, 0x0E, 0x61, 0x35, 0x57, 0xB9, 0x86, 0xC1, 0x1D, 0x9E] ++
   [0xE1, 0xF8, 0x98, 0x11, 0x69, 0xD9, 0x8E, 0x94, 0x9B, 0x1E, 0x87, 0xE9, 0xCE, 0x55, 0x28, 0xDF] ++
   [0x8C, 0xA1, 0x89, 0x0D, 0xBF, 0xE6, 0x42, 0x68, 0x41, 0x99, 0x2D, 0x0F, 0xB0, 0x54, 0xBB, 0x16])

/-- SubBytes of one byte. -/
def subByte (b : Nat) : Nat := sbox.getD b 0

/-- Multiplication by x in GF(2^8). -/
def xtime (b : Nat) : Nat := if b < 128 then 2 * b else (2 * b - 256) ^^^ 0x1B

/-- Bytewise exclusive or. -/
def xorBytes (a b : List Nat) : List Nat := List.zipWith (· ^^^ ·) a b

/-- SubBytes and ShiftRows. -/
def subShift (s : List Nat) : List Nat := (List.range 16).map (fun i => subByte (s.getD ((i / 4 + i % 4) % 4 * 4 + i % 4) 0))

/-- MixColumns. -/
def mixColumns (s : List Nat) : List Nat :=
  (List.range 16).map (fun i =>
    let c := i / 4 * 4
    let a := s.getD i 0
    let b := s.getD (c + (i % 4 + 1) % 4) 0
    xtime a ^^^ (xtime b ^^^ b) ^^^ s.getD (c + (i % 4 + 2) % 4) 0 ^^^ s.getD (c + (i % 4 + 3) % 4) 0)

/-- The next word of the key schedule from the words so far, latest first; `i` is its index. -/
def nextKeyWord (i : Nat) (ws : List (List Nat)) : List Nat :=
  let prev := ws.headD []
  let t :=
    if i % 8 = 0 then
      xorBytes ((prev.drop 1 ++ prev.take 1).map subByte) [2 ^ (i / 8 - 1), 0, 0, 0]
    else if i % 8 = 4 then prev.map subByte else prev
  xorBytes (ws.getD 7 []) t

/-- n further words of the schedule from index i on. -/
def keyWords : Nat → Nat → List (List Nat) → List (List Nat)
  | 0, _, ws => ws
  | n + 1, i, ws => keyWords n (i + 1) (nextKeyWord i ws :: ws)

/-- The 15 round keys of a 32-byte key, each 16 bytes. -/
def roundKeys (key : List Nat) : List (List Nat) :=
  let first := (List.range 8).map (fun k => (key.drop (4 * k)).take 4)
  let ws := (keyWords 52 8 first.reverse).reverse
  (List.range 15).map (fun r => ((ws.drop (4 * r)).take 4).flatten)

/-- AES-256 of one 16-byte block. -/
def aes256 (key block : List Nat) : List Nat :=
  let ks := roundKeys key
  let mid := ((ks.drop 1).take 13).foldl (fun s k => xorBytes (mixColumns (subShift s)) k) (xorBytes block (ks.headD []))
  xorBytes (subShift mid) (ks.getD 14 [])

/-- The generator block of a context under a domain (R207, R256, R295): rounding position, operation, domain; the first 8 bytes of the
result are key_lo and key_hi. -/
def opKey (seedKey pos op domain : Nat) : Nat × Nat :=
  let o := aes256 (leNums 32 seedKey) (leNums 8 pos ++ leNums 4 op ++ leNums 4 domain)
  (leNum (o.take 4), leNum ((o.drop 4).take 4))

/-- The 32-bit mix of R208 before its top bits are taken. -/
def mixDraw (key : Nat × Nat) (i j b : Nat) : Nat :=
  let m := 2 ^ 32
  let x := key.1 ^^^ (i * 0x85EBCA6B % m) ^^^ (j * 0xC2B2AE35 % m) ^^^ (b * 0x27D4EB2F % m)
  let x := x ^^^ key.2
  let x := (x ^^^ (x / 2 ^ 16)) * 0x7FEB352D % m
  let x := (x ^^^ (x / 2 ^ 15)) * 0x846CA68B % m
  x ^^^ (x / 2 ^ 16)

/-- The 12-bit draw of R208. -/
def draw12 (key : Nat × Nat) (i j b : Nat) : Nat := mixDraw key i j b / 2 ^ 20

/-- Draw u_e of a dropout layer's element e in a step (R256): AES-256 in counter mode under the seed key, domain 2. -/
def dropoutDraw (seedKey step layer e : Nat) : Nat :=
  let o := aes256 (leNums 32 seedKey) (leNums 6 step ++ leNums 2 layer ++ leNums 4 (e / 8) ++ leNums 4 2)
  leNum ((o.drop (2 * (e % 8))).take 2)

/-- A dropout layer of threshold T keeps element e (R255): its draw is at least T. -/
def dropoutKeeps (seedKey step layer threshold e : Nat) : Bool := decide (threshold ≤ dropoutDraw seedKey step layer e)

end Sys2Proof.Machine
end

