-- ==== Sys2Proof/Machine/Sync.lean ====
section
/-!
DEFINITION. Machine/Sync.lean: sync counters, waits, context switches, and data and signals that arrive from other modules
(spec/11_sync_and_contexts.md R368 to R380, spec/09_aeline_link.md R321 to R324, spec/12_faults_and_resets.md R398, R399).
-/
namespace Sys2Proof.Machine

namespace State

/-- The context active on a core (R390). -/
def active (s : State) (p : Nat) : Nat := s.get F.SYNC_CORE_ACTIVE_CTX p

/-- The counters and saved waits of context c on core p (R377, R378). -/
def set_ (s : State) (p c : Nat) : SaveArea := tget SaveArea.empty (s.core p).sets c

/-- Replace them. -/
def putSet (s : State) (p c : Nat) (a : SaveArea) : State :=
  s.updCore p (fun x => { x with sets := tset SaveArea.empty x.sets c a })

end State

/-- x has reached y (R368). -/
def reached (x y : Nat) : Bool := decide ((x + (2 ^ 32 - y % 2 ^ 32)) % 2 ^ 32 < 2 ^ 31)

/-- A counter of a set. -/
def SaveArea.ctr (a : SaveArea) (k : Nat) : Counter := tget Counter.zero a.ctrs k

/-- Re-latch the base fields when the set is first touched in a later frame (R368, R378). -/
def SaveArea.latch (a : SaveArea) (frame : Nat) : SaveArea :=
  if a.baseFrame < frame then
    { a with ctrs := a.ctrs.map (fun e => (e.1, { e.2 with valueB := e.2.value, landedB := e.2.landed })), baseFrame := frame }
  else a

/-- A counter with increments applied, modulo 2^32 (R369). -/
def Counter.add (c : Counter) (v l p : Nat) : Counter :=
  { c with value := (c.value + v) % 2 ^ 32, landed := (c.landed + l) % 2 ^ 32, promised := (c.promised + p) % 2 ^ 32 }

/-- Counter k of a set with increments applied. -/
def SaveArea.add (a : SaveArea) (k v l p : Nat) : SaveArea :=
  { a with ctrs := tset Counter.zero a.ctrs k ((a.ctr k).add v l p) }

namespace State

/-- Apply increments to a counter of context c on physical core p, in the cycle they arrive (R370). -/
def count (s : State) (p c k v l d : Nat) : State := s.putSet p c (((s.set_ p c).latch s.frame).add k v l d)

/-- The same for a cross-module arrival, which a kill keeps (R47, R398). -/
def countFar (s : State) (p c k v l d : Nat) : State :=
  (s.count p c k v l d).updCore p (fun x =>
    let o := tget (0, 0, 0) x.arrived (c * 64 + k)
    let n := ((o.1 + v) % 2 ^ 32, (o.2.1 + l) % 2 ^ 32, (o.2.2 + d) % 2 ^ 32)
    { x with arrived := tset (0, 0, 0) x.arrived (c * 64 + k) n })

/-- Restore the sets of the affected contexts on core p to the opening tick plus the arrivals since (R47, R376, R398). -/
def restoreCore (s : State) (cs : List Nat) (p : Nat) : State :=
  let x := s.core p
  let back := fun (a : Tbl SaveArea) (c : Nat) => tset SaveArea.empty a c
    ((x.arrived.filter (fun e => decide (e.1 / 64 = c))).foldl (fun (a : SaveArea) e => a.add (e.1 % 64) e.2.1 e.2.2.1 e.2.2.2)
      { (tget SaveArea.empty x.opening c) with waits := [] })
  (s.setCore p { x with sets := cs.foldl back x.sets, waits := [] }).put F.SYNC_CORE_WAITING p 0

/-- The tick's snapshot: base fields latched after the tick's signals, arrivals start again (R47, R368). -/
def latchCores (s : State) : State :=
  { s with cores := tmap Core.empty (fun _ x =>
      let sets := x.sets.map (fun a => (a.1, a.2.latch s.frame))
      { x with sets := sets, opening := sets, arrived := [], openGuards := x.guards }) s.cores }

/-- The targets of a wait hold in the set of context c on core p (R372). -/
def waitMetIn (s : State) (p c : Nat) (w : Wait) : Bool :=
  let k := (((s.set_ p c).latch s.frame)).ctr w.ctr
  match w.mode with
  | 0 => reached k.value (k.valueB + w.target) && reached k.landed (k.landedB + w.bytes)
  | 1 => reached k.value w.target && reached k.landed w.bytes
  | _ => reached k.value (k.valueB + w.target) && reached k.landed k.promised

/-- The targets of a wait of the active context hold. -/
def waitMet (s : State) (p : Nat) (w : Wait) : Bool := s.waitMetIn p (s.active p) w

/-- Waiters with a wait pending, as SYNC_CORE shows them (R390). -/
def showWaits (s : State) (p : Nat) : State :=
  s.put F.SYNC_CORE_WAITING p (((s.core p).waits.map (fun w => 2 ^ w.1)).foldl (· + ·) 0)

/-- The core takes no work in this frame: in reset, rebuilding, halted, or under test in its margin frame (R393, R401, R434, R474). -/
def closed (s : State) (p : Nat) : Bool :=
  (s.core p).rebuilding || (s.core p).resetting.isSome || (s.core p).halted || s.flt.marginRun.any (fun m => decide (m.1 = p))

/-- The frame's work may issue: in service, not killed, and the core takes work (R396, R401). -/
def mayIssue (s : State) (p : Nat) : Bool := decide (s.phase = 1) && s.fr.killed.isNone && !s.closed p

/-- A signal inside the module (R369, R371, R389): a stale generation is discarded. -/
def signalIn (s : State) (c g l k v b : Nat) : State :=
  if g = s.gen c then
    match s.physOf l with
    | none => s
    | some p => s.count p c k v b b
  else s.staleSignal c 1

/-- A granted receive region that holds the whole range (R323, R382). -/
def receiveRegion (s : State) (c a n : Nat) : Option Region :=
  (s.ctx c).regions.find? (fun r => decide (r.kind = 2) && decide (r.base ≤ a) && decide (a + n ≤ r.limit))

/-- The receive region that holds an address (R399). -/
def regionAt (s : State) (c a : Nat) : Option Region := s.receiveRegion c a 1

/-- Late WRITEs of a withdrawn frame are credited and not written (R399). -/
def suppressed (s : State) (h : FlitHead) : Bool :=
  s.link.suppress.any (fun x => decide (x.src = h.src) && decide (x.ctx = h.ctx) && decide (x.ftag = h.ftag) && decide (s.frame < x.until_))

/-- Credit LANDED of the region's counter (R323). -/
def credit (s : State) (c : Nat) (r : Region) (n : Nat) : State :=
  match s.physOf r.core with
  | none => s
  | some p => s.countFar p c r.ctr 0 n 0

/-- Apply a signal entry of another module (R48, R369). -/
def applyArrived (s : State) (a : Arrived) : State :=
  if a.gen = s.gen a.ctx then
    match s.physOf a.core with
    | none => s
    | some p => if a.withdraw then s.countFar p a.ctx a.ctr 0 (2 ^ 32 - a.bytes % 2 ^ 32) 0
                else s.countFar p a.ctx a.ctr a.inc 0 a.bytes
  else s.staleSignal a.ctx 1

/-- Apply what arrived before this tick, withdrawals first (R48, R399). -/
def applySignals (s : State) : State :=
  let l := s.link.arrived
  ((l.filter (fun a => a.withdraw)) ++ l.filter (fun a => !a.withdraw)).foldl (fun s a => s.applyArrived a)
    { s with link := { s.link with arrived := [] } }

/-- Queue a signal or withdrawal for the tick, or apply it at once when its frame's tick has passed (R48, R324). -/
def takeArrived (s : State) (h : FlitHead) (a : Arrived) : State :=
  if h.ftag = s.frame % 16 then { s with link := { s.link with arrived := s.link.arrived ++ [a] } } else s.applyArrived a

end State

/-- Engine code of a waiter (R373, R400): matrix, vector, band, DMA, batts 0 to 7. -/
def waiterCode (w : Nat) : Nat := if w < 4 then w else w + 4

/-- Waiter number of an engine code. -/
def waiterOf (e : Nat) : Nat := if e < 4 then e else e - 4

/-- SIGNAL (R371). -/
def execSignal (o : SignalOp) (s : State) : Outcome :=
  .next (if s.fr.killed = none then s.signalIn o.ctx o.gen o.core o.ctr o.inc o.bytes else s)

/-- WAIT (R371 to R373): a waiter holds one wait; MODE 3 is reserved. -/
def execWait (core waiter ctr mode target bytes : Nat) (s : State) : Outcome :=
  if 3 ≤ mode then .fault .reservedCode
  else .next (
    if s.mayIssue core = true ∧ waiter < 12 ∧ (s.core core).waits.any (fun w => decide (w.1 = waiter)) = false then
      ((s.updCore core (fun x => { x with waits := x.waits ++ [(waiter, ⟨ctr, mode, target, bytes⟩)] })).showWaits core).trace core
        (waiterCode waiter) 3 (s.active core)
    else s)

/-- WAIT_RELEASE (R373). -/
def execWaitRelease (core waiter : Nat) (s : State) : Outcome :=
  .next (match (s.core core).waits.find? (fun w => decide (w.1 = waiter)) with
    | none => s
    | some w => if s.waitMet core w.2 then
        ((s.updCore core (fun x => { x with waits := x.waits.filter (fun v => decide (v.1 ≠ waiter)) })).showWaits core).trace core
          (waiterCode waiter) 4 (s.active core)
      else s)

/-- CONTEXT_SWITCH (R377, R379): the outgoing waits are saved, the incoming set is cached, evicting the least recently active of 8,
and its saved waits are armed again. -/
def execContextSwitch (core ctx : Nat) (s : State) : Outcome :=
  .next (
    if s.mayIssue core = false ∨ s.active core = ctx then s
    else
      let x := s.core core
      let out := s.active core
      let s := s.putSet core out { (s.set_ core out) with waits := x.waits }
      let hit := x.cached.contains ctx
      let inc := s.set_ core ctx
      let s := if hit then s else s.updCore core (fun y => { y with saved := tset SaveArea.empty y.saved ctx inc })
      let s := s.putSet core ctx { inc with waits := [] }
      let cached := (ctx :: (out :: x.cached.filter (fun c => decide (c ≠ out))).filter (fun c => decide (c ≠ ctx))).take 8
      let s := s.updCore core (fun y => { y with waits := inc.waits, cached := cached })
      let s := ((s.put F.SYNC_CORE_ACTIVE_CTX core ctx).put F.SYNC_CORE_CACHED core cached.length).bump F.SYNC_SWITCH_SWITCHES core 1
      ((if hit then s else s.bump F.SYNC_SWITCH_MISSES core 1).showWaits core).trace core 0 5 ctx)

/-- The range lies in the checkpoint reserve kept for a source module (R441, R443). -/
def State.inReserve (s : State) (src a n : Nat) : Bool :=
  s.img.accepted.reserves.any (fun r => decide (r.1 = src) && decide (r.2.1 ≤ a) && decide (a + n ≤ r.2.2))

/-- WRITE_FLIT (R323, R389, R399, R443): lands whole in one granted receive region of the current generation and credits its counter. -/
def execWriteFlit (h : FlitHead) (addr : Nat) (data : List Byte) (s : State) : Outcome :=
  .next (
    if s.vcOpen h.vc = false then s
    else if h.vc = 1 ∧ s.inReserve h.src addr data.length = true then s.setBytes addr data
    else match s.receiveRegion h.ctx addr data.length with
      | none => s.bump F.LNK_ERR_DROP_BOUNDS h.port 1
      | some r =>
        if h.gen ≠ s.gen h.ctx then s.staleData h.ctx 1
        else if s.suppressed h then s.credit h.ctx r data.length
        else (s.setBytes addr data).credit h.ctx r data.length)

/-- SIGNAL_FLIT (R321, R324). -/
def execSignalFlit (h : FlitHead) (entries : List SignalEntry) (s : State) : Outcome :=
  .next (s.heard h (entries.foldl (fun s e => s.takeArrived h ⟨h.src, h.ctx, h.gen, false, e.core, e.ctr, e.inc, e.bytes⟩) s))

/-- WITHDRAW (R399): LANDED falls by the bytes, and late WRITEs of that frame are suppressed for 8 frames. -/
def execWithdraw (h : FlitHead) (entries : List (Nat × Nat)) (s : State) : Outcome :=
  .next (
    if h.gen ≠ s.gen h.ctx then s.staleSignal h.ctx entries.length
    else
      let s := entries.foldl (fun s e => match s.regionAt h.ctx e.1 with
        | none => s
        | some r => s.takeArrived h ⟨h.src, h.ctx, h.gen, true, r.core, r.ctr, 0, e.2⟩) s
      let from_ := if h.ftag = s.frame % 16 then s.frame + 1 else s.frame
      { s with link := { s.link with suppress := s.link.suppress ++ [⟨h.src, h.ctx, h.ftag, from_ + 8⟩] } })

end Sys2Proof.Machine
end

