-- ==== Sys2Proof/Machine/Engines.lean ====
section
/-!
DEFINITION. Machine/Engines.lean: what the engines of a core share: whether an engine may run, its scratchpad and accumulator file, tile
counters, operation keys and completion signals (spec/06_core_digital.md R203 to R226).
-/
namespace Sys2Proof.Machine

namespace State

/-- The engine may run its next command: the core issues, and the engine is neither in reset nor in a wait (R371, R391, R396). -/
def mayRun (s : State) (p e : Nat) : Bool :=
  s.mayIssue p && !(s.core p).engines.contains e && !(s.core p).waits.any (fun w => decide (w.1 = waiterOf e))

/-- n scratchpad bytes of core p from byte a; addresses wrap at 4 MiB (R214, log entry 21). -/
def spBytes (s : State) (p a n : Nat) : List Byte := (List.range n).map (fun i => s.byte (spAddr p (a + i)))

/-- FP32 or INT32 word of the scratchpad. -/
def spWord (s : State) (p a : Nat) : Word := BitVec.ofNat 32 (leNat (s.spBytes p a 4))

/-- Element i of a packed row of format f whose first byte is a (R157). -/
def spElem (s : State) (p a f i : Nat) : Nat :=
  leNat (s.spBytes p (a + i * elemBits f / 8) 5) / 2 ^ (i * elemBits f % 8) % 2 ^ elemBits f

/-- Write bytes to the scratchpad. -/
def setSp (s : State) (p a : Nat) (l : List Byte) : State :=
  match l with
  | [] => s
  | b :: r => (s.setByte (spAddr p a) b).setSp p (a + 1) r

/-- The operation key of a context (R207). -/
def opKeyOf (s : State) (c op : Nat) : Nat × Nat := opKey (s.ctx c).seedKey (s.ctx c).roundPos op 1

/-- Two ranges of keys, each with its length, share a byte. -/
def rangesMeet (a b : Nat × Nat) : Bool := decide (a.1 < b.1 + b.2) && decide (b.1 < a.1 + a.2)

/-- Work on a core reads no narrowed tile whose check has not passed, and writes no wide source of one (R171). -/
def untouched (s : State) (p : Nat) (reads writes : List (Nat × Nat)) : Bool :=
  (s.core p).guards.all (fun g => reads.all (fun r => !rangesMeet r (g.dst, g.dstLen)) && writes.all (fun w => !rangesMeet w (g.src, g.srcLen)))

/-- A narrowed tile waits for its check: its bytes may not be read, nor its wide source written (R171). Narrowing a tile again takes the place
of its failed narrowing. -/
def awaitCheck (s : State) (p tcx dst dstLen src srcLen : Nat) : State :=
  s.updCore p (fun c => { c with
    guards := c.guards.filter (fun g => !(decide (g.tcx = tcx) && g.failed && decide (g.dst = dst))) ++
      [⟨s.active p, tcx, dst, dstLen, src, srcLen, false⟩] })

/-- Skip n draws of the free values. -/
def skipDraws (s : State) (n : Nat) : State := { s with freeCtr := s.freeCtr + n }

/-- Tile counter n of core p (R211). -/
def tileCtr (s : State) (p n : Nat) : Nat := s.load (accAddr p (0x3C000 + 8 * n)) 8

/-- Count blocks and integer elements made from non-finite sources (R161). -/
def countNan (s : State) (c n : Nat) : State := if n = 0 then s else (s.bump F.NUM_ESC_NAN_BLOCKS c n).raise F.NUM_EVT_NAN c

end State

/-- A tile counter with the counts of a narrowing added (R226); its fields saturate (log entry 22). -/
def addTile (t : Nat) (w : Narrowed) : Nat :=
  let sat := min (2 ^ 15 - 1) (t % 2 ^ 15 + w.sat)
  let zer := min (2 ^ 15 - 1) (t / 2 ^ 16 % 2 ^ 15 + w.zero)
  let blocks := min (2 ^ 16 - 1) (t / 2 ^ 32 % 2 ^ 16 + w.blocks)
  let sb := if w.satBlock then 1 else t / 2 ^ 15 % 2
  let zb := if w.zeroBlock then 1 else t / 2 ^ 31 % 2
  sat + 2 ^ 15 * sb + 2 ^ 16 * zer + 2 ^ 31 * zb + 2 ^ 32 * blocks

namespace State

/-- Add the counts of a narrowing to tile counter n and to the context's NAN_BLOCKS (R161, R226). -/
def countTile (s : State) (p n : Nat) (w : Narrowed) : State :=
  (s.store (accAddr p (0x3C000 + 8 * n)) 8 (addTile (s.tileCtr p n) w)).countNan (s.active p) w.nan

/-- Completion signal of a descriptor to a counter of physical core p (R369, R389). -/
def signalDone (s : State) (p c g k bytes : Nat) : State :=
  if g = s.gen c then s.count p c k 1 bytes bytes else s.staleSignal c 1

end State

end Sys2Proof.Machine
end

