-- ==== Sys2Proof/Machine/Lanes.lean ====
section
/-!
DEFINITION. Machine/Lanes.lean: operands, masks and lane arithmetic of the vector engine (spec/06_core_digital.md R217 to R230). A lane is
its bits as a number: 32 bits for FP32 and INT32, 16 for BF16. Types are 0 FP32, 1 BF16, 0xD INT32.
-/
namespace Sys2Proof.Machine

/-- Bits of a lane. -/
def laneBits (ty : Nat) : Nat := if ty = 1 then 16 else 32

/-- Lanes of a vector L. -/
def laneCount (ty : Nat) : Nat := if ty = 1 then 128 else 64

/-- A 23-bit vector address with an alignment (R218). -/
def vecAddrOk (a align : Nat) : Bool :=
  decide (a < 2 ^ 23) && decide (a % align = 0) && decide (a / 2 ^ 22 = 1 → a % 2 ^ 22 < 2 ^ 18)

/-- The key in memory of a byte at an offset from a vector address (R218). -/
def vecKey (p a off : Nat) : Nat := if a / 2 ^ 22 % 2 = 1 then accAddr p (a % 2 ^ 22 + off) else spAddr p (a % 2 ^ 22 + off)

/-- Rounding mode of a code that is not stochastic (R222). -/
def rndOf (r : Nat) : Rnd :=
  match r with
  | 1 => .zero
  | 3 => .down
  | 4 => .up
  | _ => .near

namespace State

/-- n bytes at an offset from a vector address, as a little-endian number. -/
def vecLoad (s : State) (p a off n : Nat) : Nat := leNat ((List.range n).map (fun i => s.byte (vecKey p a (off + i))))

/-- Write bytes at an offset from a vector address. -/
def vecStore (s : State) (p a off : Nat) (l : List Byte) : State :=
  match l with
  | [] => s
  | b :: r => (s.setByte (vecKey p a off) b).vecStore p a (off + 1) r

/-- Lane i of vector v of a full-width operand. -/
def lane (s : State) (p a ty v i : Nat) : Nat := s.vecLoad p a (256 * v + i * (laneBits ty / 8)) (laneBits ty / 8)

/-- Mask register n; k0 reads as all ones (R219). -/
def maskReg (s : State) (p n : Nat) : BitVec 64 := if n = 0 then BitVec.allOnes 64 else tget 0 (s.core p).masks n

/-- Write a mask register; a write to k0 is ignored (R219). -/
def setMask (s : State) (p n : Nat) (v : BitVec 64) : State :=
  if n = 0 then s else s.updCore p (fun x => { x with masks := tset 0 x.masks n v })

/-- The mask bit of a lane; for BF16, register n governs lanes 0 to 63 and n + 1 lanes 64 to 127 (R219). -/
def maskBit (s : State) (p n ty i : Nat) : Bool :=
  if n = 0 then true
  else if ty = 1 ∧ 64 ≤ i then (s.maskReg p (n + 1)).getLsbD (i - 64) else (s.maskReg p n).getLsbD i

/-- Lane i of operand B: the immediate with BIMM, BF16 from its bits [31:16] (R220). -/
def laneB (s : State) (p : Nat) (x : VecInstr) (v i : Nat) : Nat :=
  if x.bimm then (if x.type = 1 then x.srcB / 2 ^ 16 % 2 ^ 16 else x.srcB % 2 ^ 32) else s.lane p x.srcB x.type v i

/-- Write packed elements of w bits; an element of `none` keeps its bits. -/
def putCodes (s : State) (p a off w : Nat) (l : List (Option Nat)) : State :=
  let old := s.vecLoad p a off (l.length * w / 8)
  s.vecStore p a off (packBytes w (l.zipIdx.map (fun c => c.1.getD (old / 2 ^ (w * c.2)))))

/-- A lane's result under the mask: the value, zero with MZERO, or unchanged (R219). -/
def masked (s : State) (p : Nat) (x : VecInstr) (i v : Nat) : Option Nat :=
  if s.maskBit p x.mask x.type i then some v else if x.mzero then some 0 else none

end State

end Sys2Proof.Machine

namespace Sys2Proof.VecInstr

open Sys2Proof.Machine

/-- Vectors of the instruction: COUNT 0 means 4,096 (R222). -/
def vectors (x : VecInstr) : Nat := if x.count = 0 then 4096 else x.count

/-- Elements of the instruction. -/
def elems (x : VecInstr) : Nat := x.vectors * laneCount x.type

/-- Bytes of full-width vectors. -/
def full (x : VecInstr) : Nat := 256 * x.vectors

/-- Bytes that operand B takes from memory. -/
def bLen (x : VecInstr) : Nat := if x.bimm then 0 else x.full

/-- The fields obey R218 to R222 for an instruction of some types, with or without operands A and B; `sr` admits stochastic rounding. -/
def ok (x : VecInstr) (types : List Nat) (useA useB sr : Bool) : Bool :=
  types.contains x.type && decide (x.count < 4096) && decide (x.mask < 8) && decide (x.type = 1 → x.mask % 2 = 0) &&
  vecAddrOk x.dst 64 && (!useA || vecAddrOk x.srcA 64) &&
  (!useB || (if x.bimm then decide (x.type = 1 → x.srcB % 2 ^ 16 = 0) else vecAddrOk x.srcB 64)) &&
  decide (x.rnd ≤ 4) && (decide (x.rnd ≠ 2) || (sr && x.bimm))

end Sys2Proof.VecInstr

namespace Sys2Proof.Machine

namespace State

/-- Run an instruction's vectors in order, each lane from the state its vector finds (R218). -/
def lanes (s : State) (p : Nat) (x : VecInstr) (f : State → Nat → Nat → Nat) : State :=
  (List.range x.vectors).foldl (fun s v => s.putCodes p x.dst (256 * v) (laneBits x.type)
    ((List.range (laneCount x.type)).map (fun i => s.masked p x i (f s v i)))) s

end State

/-! Lane arithmetic. -/

/-- A BF16 result of exact value v from operands a and b, under a rounding mode (R217). -/
def bf16Fin (md : Rnd) (a b : Word) (v : FVal) : Nat := if v.isNan then (quiet a b).toNat / 2 ^ 16 else Fmt.bf16.ofVal md v

/-- An exact zero sum of unlike terms is -0 under rounding toward -∞ (IEEE 754, R217). -/
def sumVal (md : Rnd) (a b : FVal) : FVal :=
  match md, a, b, a.add b with
  | .down, .fin n _ _, .fin k _ _, .fin _ 0 e => .fin (n || k) 0 e
  | _, _, _, v => v

/-- An INT32 result; a value beyond the type's range has no stated result and is free (log entry 27). -/
def int32Fin (fr : Nat) (v : Int) : Nat :=
  if -2 ^ 31 ≤ v ∧ v < 2 ^ 31 then (v % 2 ^ 32).toNat else Config.freeNat fr % 2 ^ 32

/-- a + b. -/
def laneAdd (ty fr : Nat) (md : Rnd) (a b : Nat) : Nat :=
  match ty with
  | 0 => (fadd (BitVec.ofNat 32 a) (BitVec.ofNat 32 b)).toNat
  | 1 => bf16Fin md (ofBf16 a) (ofBf16 b) (sumVal md (f32 (ofBf16 a)) (f32 (ofBf16 b)))
  | _ => int32Fin fr (signedOf 32 a + signedOf 32 b)

/-- a - b. -/
def laneSub (ty fr : Nat) (md : Rnd) (a b : Nat) : Nat :=
  match ty with
  | 0 => (fsub (BitVec.ofNat 32 a) (BitVec.ofNat 32 b)).toNat
  | 1 => bf16Fin md (ofBf16 a) (ofBf16 b) (sumVal md (f32 (ofBf16 a)) (f32 (ofBf16 b)).neg)
  | _ => int32Fin fr (signedOf 32 a - signedOf 32 b)

/-- a x b. -/
def laneMul (ty fr : Nat) (md : Rnd) (a b : Nat) : Nat :=
  match ty with
  | 0 => (fmul (BitVec.ofNat 32 a) (BitVec.ofNat 32 b)).toNat
  | 1 => bf16Fin md (ofBf16 a) (ofBf16 b) ((f32 (ofBf16 a)).mul (f32 (ofBf16 b)))
  | _ => int32Fin fr (signedOf 32 a * signedOf 32 b)

/-- a x b + d with one rounding. -/
def laneFma (ty : Nat) (md : Rnd) (a b d : Nat) : Nat :=
  match ty with
  | 1 =>
    let v := sumVal md ((f32 (ofBf16 a)).mul (f32 (ofBf16 b))) (f32 (ofBf16 d))
    if (f32 (ofBf16 a)).isNan ∨ (f32 (ofBf16 b)).isNan then bf16Fin md (ofBf16 a) (ofBf16 b) v
    else bf16Fin md (ofBf16 d) (ofBf16 d) v
  | _ => (ffma (BitVec.ofNat 32 a) (BitVec.ofNat 32 b) (BitVec.ofNat 32 d)).toNat

/-- The value of a floating-point lane. -/
def laneVal (ty a : Nat) : FVal := if ty = 1 then Fmt.bf16.dec a else f32 (BitVec.ofNat 32 a)

/-- A quiet NaN from the NaN among two floating-point lanes. -/
def laneQuiet (ty a b : Nat) : Nat :=
  if ty = 1 then (quiet (ofBf16 a) (ofBf16 b)).toNat / 2 ^ 16 else (quiet (BitVec.ofNat 32 a) (BitVec.ofNat 32 b)).toNat

/-- Floating-point order with -0 below +0 (R224, R229). -/
def floatBelow (ty a b : Nat) : Bool :=
  let x := laneVal ty a
  let y := laneVal ty b
  x.lt y || (x.le y && y.le x && decide (a / 2 ^ (laneBits ty - 1) % 2 = 1) && decide (b / 2 ^ (laneBits ty - 1) % 2 = 0))

/-- The lower (or the higher) of two lanes; NaN if either is NaN (R224). -/
def laneMin (ty : Nat) (least : Bool) (a b : Nat) : Nat :=
  if ty = 0xD then (if decide (signedOf 32 a < signedOf 32 b) = least then a else b)
  else if (laneVal ty a).isNan ∨ (laneVal ty b).isNan then laneQuiet ty a b
  else if floatBelow ty a b = least then a else b

/-- |a|: INT32 -2^31 has no stated result (log entry 27). -/
def laneAbs (ty fr a : Nat) : Nat :=
  if ty = 0xD then int32Fin fr (signedOf 32 a).natAbs else a % 2 ^ (laneBits ty - 1)

/-- -a. -/
def laneNeg (ty fr a : Nat) : Nat :=
  if ty = 0xD then int32Fin fr (-signedOf 32 a)
  else if a / 2 ^ (laneBits ty - 1) % 2 = 1 then a % 2 ^ (laneBits ty - 1) else a + 2 ^ (laneBits ty - 1)

/-- A comparison predicate (R224): 0 EQ, 1 NE, 2 LT, 3 LE, 4 GT, 5 GE, 6 UNORD. -/
def laneCmp (ty pred a b : Nat) : Bool :=
  let v := fun (n : Nat) => if ty = 0xD then ofInt (signedOf 32 n) 0 else laneVal ty n
  let x := v a
  let y := v b
  match pred with
  | 0 => x.le y && y.le x
  | 1 => !(x.le y && y.le x)
  | 2 => x.lt y
  | 3 => x.le y
  | 4 => y.lt x
  | 5 => y.le x
  | _ => x.isNan || y.isNan

/-- The bits of a list of truth values, the first lowest. -/
def bitsOf (l : List Bool) : BitVec 64 := BitVec.ofNat 64 (l.foldr (fun b n => (if b then 1 else 0) + 2 * n) 0)

/-- Convert a lane to an element of format f under a rounding mode (R160 to R162, R224); formats of 8 bits or fewer take no scale (log
entry 26). -/
def cvtCode (ty f fr : Nat) (md : Rnd) (a : Nat) : Nat :=
  let v := if ty = 0xD then ofInt (signedOf 32 a) 0 else laneVal ty a
  if f = 0xD ∧ ty = 0xD then a
  else if f = 0xE ∧ ty = 0xD then
    (if -2 ^ 15 ≤ signedOf 32 a ∧ signedOf 32 a < 2 ^ 15 then a % 2 ^ 16 else Config.freeNat fr % 2 ^ 16)
  else if f = 1 ∧ ty ≠ 0xD then bf16Fin md (if ty = 1 then ofBf16 a else BitVec.ofNat 32 a) 0 v
  else if f = 0 ∧ ty ≠ 0xD then
    (let w : Word := if ty = 1 then ofBf16 a else BitVec.ofNat 32 a; if v.isNan then (quiet w w).toNat else w.toNat)
  else if isNarrow f = false then wideCode f md v
  else match v with
  | .fin n m e =>
    let q := scaleFrac m 1 e
    (match f with
      | 0xA => let k := min 127 (roundInt md n (64 * q.1) q.2); if n then (256 - k) % 256 else k
      | 0xB => let k := min 127 (roundInt md n q.1 q.2); if n then (256 - k) % 256 else k
      | 0xC => let k := min 7 (roundInt md n q.1 q.2); if n then (16 - k) % 16 else k
      | _ =>
        let g := fmtOf f
        (if n then 2 ^ (g.eb + g.mb) else 0) + min g.maxFin (g.roundFrac md n q.1 q.2 % 2 ^ (g.eb + g.mb)))
  | _ => if isMx f then freeElem f fr else specialCode f v

/-! Pairs of value and index (R229, R230). -/

/-- The index of a lane in a reduction (R229). -/
def laneIndex (x : VecInstr) (v i : Nat) : Nat := (x.srcB + v * 64 + i) % 2 ^ 32

/-- a comes before b in a top-k list: NaN first, then by value descending, +0 above -0, then by INT32 index ascending (R230). -/
def topBefore (a b : Nat × Nat) : Bool :=
  let x := laneVal 0 a.1
  let y := laneVal 0 b.1
  let first := decide (signedOf 32 a.2 ≤ signedOf 32 b.2)
  if x.isNan ∧ y.isNan then first
  else if x.isNan then true
  else if y.isNan then false
  else if floatBelow 0 b.1 a.1 then true
  else if floatBelow 0 a.1 b.1 then false
  else first

/-- The first k of a list in top-k order, filled up with -∞ and index 0xFFFF_FFFF (R230). -/
def topList (k : Nat) (l : List (Nat × Nat)) : List (Nat × Nat) :=
  ((sortBy topBefore l) ++ List.replicate k (0xFF800000, 0xFFFFFFFF)).take k

/-- Bytes of a list of value and index. -/
def pairBytes (l : List (Nat × Nat)) : List Byte := l.flatMap (fun e => leBytes 4 e.1 ++ leBytes 4 e.2)

/-- The extreme of value and index pairs (R229): NaN with the lowest NaN index if there is one; the lowest index among equals. -/
def extreme (ty : Nat) (most : Bool) (l : List (Nat × Nat)) : Nat × Nat :=
  let below := fun (a b : Nat) => if ty = 0xD then decide (signedOf 32 a < signedOf 32 b) else floatBelow ty a b
  match if ty = 0xD then none else l.find? (fun e => (laneVal ty e.1).isNan) with
  | some e => (laneQuiet ty e.1 e.1, e.2)
  | none =>
    match l with
    | [] => (Fmt.fp32.nanBits, 0xFFFFFFFF)
    | e :: r => r.foldl (fun m n => if (if most then below m.1 n.1 else below n.1 m.1) then n else m) e

/-- The element of SHUF at place i of L lanes (R227): true for operand B, and the lane it comes from; n is the immediate's. -/
def shufLane (pattern n lanes i : Nat) : Bool × Nat :=
  let h := lanes / 2
  match pattern with
  | 0 => (false, lanes - 1 - i)
  | 1 => (false, i ^^^ 1)
  | 2 => (decide (i % 2 = 1), i / 2)
  | 3 => (decide (i % 2 = 1), h + i / 2)
  | 4 => (decide (h ≤ i), 2 * (i % h))
  | 5 => (decide (h ≤ i), 2 * (i % h) + 1)
  | 6 => (false, (i + n) % lanes)
  | _ => (false, n % lanes)

/-! Trouble (R165, R170, R174, R175). -/

namespace State

/-- Record an escalation from a format to a rung in the context's map (R174). -/
def escMap (s : State) (c l tile from_ rung : Nat) : State :=
  s.updLayer c l (fun y =>
    match y.esc.find? (fun e => decide (e.tile = tile)) with
    | none =>
      let h := s.seen F.NUM_CFG_ESC_HOLD 0
      { y with esc := y.esc ++ [⟨tile, [from_], rung, h, h⟩] }
    | some e =>
      let h := min 1024 (2 * e.hold)
      { y with esc := y.esc.map (fun d => if d.tile = tile then ⟨tile, e.below ++ [from_], rung, h, h⟩ else d) })

/-- An escalation of a tile from a format to a rung (R174, R175): the first of a STREAM_OUT window is an EVENT, once for a window whatever becomes of its frame. -/
def escalate (s : State) (c l tile from_ rung : Nat) : State :=
  let first := !(s.ctx c).escSent
  let s := ((s.escMap c l tile from_ rung).bump F.NUM_ESC_ESCALATIONS c 1).raise F.NUM_EVT_ESCALATED c
  let s := if rung = 1 then s.raise F.NUM_EVT_TOP_RUNG c else s
  if first then (s.eventOpen 0x0601 6 c).updCtx c (fun x => { x with escSent := true }) else s

end State

end Sys2Proof.Machine
end

