-- ==== Sys2Proof/Machine/Creds.lean ====
section
/-!
DEFINITION. Machine/Creds.lean: the fuses as they read, the module's long-term keys, and the layouts of credentials and packages
(spec/17_security.md R500, R504, R509, R510, R515, R517, R518; spec/14_checkpoint_and_replay.md R454). A record of fixed layout is held as one
number, its first byte the most significant.
-/
namespace Sys2Proof.Machine

/-- `len` bytes from offset `off` of a big-endian record of n bytes. -/
def beField (n w off len : Nat) : Nat := w / 256 ^ (n - off - len) % 256 ^ len

namespace State

/-- A fuse bit (R500). -/
def fuse (s : State) (k : Nat) : Bool := tget false s.sec.fuses k

/-- Blow one fuse bit; it is never restored (R500). -/
def blowFuse (s : State) (k : Nat) : State := { s with sec := { s.sec with fuses := tset false s.sec.fuses k true } }

/-- n fuse bits from bit lo as a number, bit lo lowest. -/
def fuseNum (s : State) (lo n : Nat) : Nat := ((List.range n).map (fun i => if s.fuse (lo + i) then 2 ^ i else 0)).foldl (· + ·) 0

/-- OWNER_ROOT is not zero (R500). -/
def ownerSet (s : State) : Bool := decide (s.fuseNum 256 256 ≠ 0)

/-- The two long-term keys as each start derives them from IDENTITY_SEED (R504): PUB_SEED ends ID_PK; its OID and root are those of the
standard's key generation over SK_SEED and PUB_SEED (Config.idHead), and EK that of ML-KEM's over d and z (Config.ekByte; log entry 197). -/
def deriveKeys (s : State) : State :=
  let seed := leNums 32 (s.fuseNum 512 256)
  let id := shake256 (seed ++ ascii "AELINE ID") 96
  let pub := (id.drop 64).take 32
  let pk := ((List.range 36).map (fun i => (Config.idHead (leNum (id.take 32)) (leNum pub) i).toNat)) ++ pub
  { s with sec := { s.sec with idPk := pk, idHash := leNum (shake256 pk 32), bindSeed := leNum (shake256 (seed ++ ascii "AELINE BIND") 64) } }

/-- The module's ID_HASH as a record holds it, first byte most significant. -/
def ownHash (s : State) : Nat := beNum (leNums 32 s.sec.idHash)

end State

/-- The fixed part of a credential (R509). -/
structure Credential where
  role : Nat
  keySet : Nat
  rootSet : Nat
  serial : Nat
  epoch : Nat
  scope : Nat
  credPk : Nat
  rootPk : Nat
deriving DecidableEq, Repr

/-- Read bytes 0x00 to 0xB7 of a credential (R509): none where the version, the role or a key set is not one that the layout names. -/
def Credential.read (w : Nat) : Option Credential :=
  let f := beField 184 w
  if f 0 1 = 1 ∧ (f 1 1 = 1 ∨ f 1 1 = 2) ∧ 1 ≤ f 2 1 ∧ f 2 1 ≤ 3 ∧ (f 3 1 = 3 ∨ f 3 1 = 4) then
    some ⟨f 1 1, f 2 1, f 3 1, f 4 8, f 0x0C 4, f 0x10 32, f 0x30 68, f 0x74 68⟩
  else none

/-- Bytes of a claim proof (R509, R510): the credential with its root signature, then the credential key's signature. -/
def Credential.proofBytes (x : Credential) : Nat :=
  184 + (if x.rootSet = 3 then 2820 else 18469) + (if x.keySet = 1 then 2500 else if x.keySet = 2 then 2692 else 2820)

/-- SHAKE256 of ROOT_PK, as the fuses hold OWNER_ROOT (R500). -/
def Credential.rootHash (x : Credential) : Nat := leNum (shake256 (beNums 68 x.rootPk) 32)

/-- Without an image and without an owner root, a claim's proof is checked against the root that it carries (R531). -/
def State.bare (s : State) : Bool := decide (s.phase = 2) && decide (s.get F.FLT_STATE_CAUSE 0 = 9) && !s.ownerSet

/-- What R510 asks of a credential beside its two signatures: its root is OWNER_ROOT (for an image in an unprovisioned module, the root that
the image carries, R502), its epoch is in force, and it is valid for this module, which without an image and a root it must name (R531). -/
def State.credentialStands (s : State) (image : Bool) (x : Credential) : Bool :=
  ((if image then !s.ownerSet else s.bare) || decide (x.rootHash = s.fuseNum 256 256)) && decide (s.get F.SEC_CRED_EPOCH_EPOCH 0 ≤ x.epoch) &&
    ((decide (x.scope = 0) && (image || !s.bare)) || decide (x.scope = s.ownHash))

/-- The proof of a claim of so many payload bytes parses: a credential by its layout, with signatures of its sets' lengths (R365, R509). -/
def proofParses (w len : Nat) : Bool :=
  match Credential.read w with
  | none => false
  | some x => decide (len = 8 + x.proofBytes)

/-! Packages (R515 to R518). -/

/-- Numbers rise strictly. -/
def rising : List Nat → Bool
  | a :: b :: r => decide (a < b) && rising (b :: r)
  | _ => true

/-- A MODEL package's header and wrap table keep their layout (R515): version, kind, reserved fields, NWRAP and its entries in ascending
ID_HASH, and PLAIN_LEN; the package is for the template with this index. -/
def packageFormed (p : Package) (template : Nat) : Bool :=
  let f := beField 64 p.header
  decide (f 0 1 = 1) && decide (f 1 1 = 1) && decide (f 2 2 = 0) && decide (f 4 4 = p.wraps.length) && decide (1 ≤ p.wraps.length) &&
    decide (p.wraps.length ≤ 131072) && decide (f 0x18 2 = template) && decide (f 0x1A 6 = 0) && decide (f 0x20 8 ≤ 2 ^ 36 - 32) &&
    decide (f 0x34 12 = 0) && rising p.wraps

/-- Bytes of a package (R515): the header, 1,648 bytes a wrap entry, the body and its tag. -/
def packageBytes (wraps plain : Nat) : Nat := 64 + 1648 * wraps + plain + 16

/-- The module takes the package (R517): it is formed, it wraps a key for this module, and the wrap tag and the body tag verify. -/
def State.unseals (s : State) (p : Package) (template : Nat) : Bool :=
  packageFormed p template && p.wraps.contains s.ownHash && p.wrapOk && p.bodyOk

/-- The load of a context fails with REJ_BINDING (R517). -/
def State.bindingBad (s : State) (c : Nat) : Bool :=
  match (s.ctx c).loading, s.template c with
  | some l, some t => (match l.pkg with | some p => !s.unseals p t.index | none => false)
  | _, _ => false

/-- Wrap entries of an export: the module's own EK, and the owner's export key where the image declares one (R518). -/
def State.exportWraps (s : State) : Nat := if s.img.accepted.exportKey then 2 else 1

/-- The header of an EXPORT package (R515, R518): KIND 2, the fresh SET_ID, an IV of zero. -/
def State.exportHeader (s : State) (template : Nat) (x : ExportRun) : List Byte :=
  let n := s.exportWraps
  leBytes 1 1 ++ leBytes 1 2 ++ leBytes 2 0 ++ beBytes 4 n ++ beBytes 16 x.setId ++ beBytes 2 template ++ leBytes 6 0 ++
    beBytes 8 (x.length - 64 - packageBytes n 0) ++ leBytes 24 0

/-- The label in clear text at the head of an export stream (R454). -/
def State.exportLabel (s : State) (c member step : Nat) (template : Nat) (x : ExportRun) : List Byte :=
  leBytes 8 x.id ++ leBytes 2 c ++ leBytes 2 (s.gen c) ++ leBytes 4 member ++ leBytes 4 x.ckpt ++ leBytes 2 template ++ leBytes 2 0 ++
    leBytes 8 step ++ leBytes 8 x.length ++ leBytes 24 0

end Sys2Proof.Machine
end

