-- ==== Sys2Proof/Machine/HostPorts.lean ====
section
/-!
DEFINITION. Machine/HostPorts.lean: the Ethernet ports below the requests (spec/10_host_ports.md R346 to R354, R358).
-/
namespace Sys2Proof.Machine

/-- TYPE codes that a host may send (R352). -/
def hostType (t : Nat) : Bool := decide (t = 1 ∨ t = 3 ∨ t = 6 ∨ t = 7 ∨ (9 ≤ t ∧ t ≤ 0x0D))

namespace State

/-- Bytes of one sample: inputs then targets; in a sequence context an 8-byte record precedes those of its L positions (R270, R355). -/
def sampleBytes (t : Template) (positions : Nat) : Nat :=
  if t.lMax = 0 then t.inBytes + t.targetBytes else 8 + positions * (t.inBytes + t.targetBytes)

/-- Largest MSG_LEN of a message type (R355); a context without a template has no buffer to compare with (R535), and a type that R352 does
not list is judged by its type alone. -/
def largest (s : State) (type : Nat) (r : Req) : Option Nat :=
  match type with
  | 1 => (s.template r.ctx).map (fun t => t.queryBuf)
  | 3 => (s.template r.ctx).map (fun t => t.intakeSlots * sampleBytes t t.lMax)
  | 6 => (s.template r.ctx).map (fun _ => s.pol 0x98 * 2 ^ 20)
  | 7 => some 24
  | 9 => some 0
  | 0x0A => some 6144
  | 0x0B => some 32768
  | 0x0C => some 0
  | 0x0D => some 0
  | _ => none

/-- The message is no longer than the buffer behind it (R8). -/
def fits (s : State) (type : Nat) (r : Req) : Bool :=
  match s.largest type r with
  | none => true
  | some n => decide (r.len ≤ n)

/-- Bytes of a port's control store in use: messages that do not land in their own buffers (R354). -/
def storeUsed (s : State) (p : Nat) : Nat :=
  (s.ports.reasm.filter (fun e => decide (e.port = p) && !e.quiet && decide (e.type ≠ 3) && decide (e.type ≠ 6))).foldl
    (fun n e => n + e.len) 0

/-- Messages of a session in reassembly (R354). -/
def sessionSlots (s : State) (n : Nat) : Nat :=
  (s.ports.reasm.filter (fun e => decide (e.session = n) && !e.quiet)).length

/-- Put a reassembly entry. -/
def pushReasm (s : State) (e : Reasm) : State := { s with ports := { s.ports with reasm := s.ports.reasm ++ [e] } }

/-- Complete a message with a rejection and keep its identity quiet (R354); a claim without a session draws no response (R365). -/
def rejectQuiet (s : State) (o : Segment) (v : Verdict) : State :=
  let s := (s.dropReasm o.hdr.session o.type o.hdr.tag).pushReasm
    ⟨o.hdr.session, o.type, o.hdr.tag, o.port, 0, 0, 0, 0, 0, [], s.now + o.hdr.t, true⟩
  if o.hdr.session = 0xFFFF then s.bump F.ETH_DROP_SESSION o.port 1 else s.reject o.type o.hdr v

/-- First segment of a message (R354, R8): its length, the session's slots and the control store. -/
def firstSegment (s : State) (o : Segment) : State :=
  if s.fits o.type o.hdr = false ∨ o.hdr.len < o.segOfs + o.segLen then s.rejectQuiet o (verdict rejLen)
  else if 16 ≤ s.sessionSlots o.hdr.session ∨
      (o.type ≠ 3 ∧ o.type ≠ 6 ∧ 4 * 2 ^ 20 < s.storeUsed o.port + o.hdr.len) then s.rejectQuiet o (budget 7)
  else s.pushReasm ⟨o.hdr.session, o.type, o.hdr.tag, o.port, o.hdr.len, o.hdr.gen, o.hdr.ctx, o.hdr.arg0, o.hdr.arg1,
    [(o.segOfs, o.segLen)], s.now + o.hdr.t, false⟩

/-- A later segment (R353): the same header, within the message, no overlap; an exact repeat is ignored. -/
def laterSegment (s : State) (o : Segment) (e : Reasm) : State :=
  if e.ranges.contains (o.segOfs, o.segLen) then s.touchQuiet o.hdr.session o.type o.hdr.tag o.hdr.t
  else if e.len ≠ o.hdr.len ∨ e.gen ≠ o.hdr.gen ∨ e.ctx ≠ o.hdr.ctx ∨ e.arg0 ≠ o.hdr.arg0 ∨ e.arg1 ≠ o.hdr.arg1 ∨
      e.len < o.segOfs + o.segLen ∨
      e.ranges.any (fun q => decide (q.1 < o.segOfs + o.segLen) && decide (o.segOfs < q.1 + q.2)) then
    s.rejectQuiet o (verdict rejLen)
  else { s with ports := { s.ports with reasm := s.ports.reasm.map (fun x =>
      if x.sameId o.hdr.session o.type o.hdr.tag then
        { x with ranges := x.ranges ++ [(o.segOfs, o.segLen)], last := s.now + o.hdr.t, port := o.port } else x) } }

/-- Place a datagram that its session owns. -/
def placeSegment (s : State) (o : Segment) : State :=
  match s.ports.reasm.find? (fun e => e.sameId o.hdr.session o.type o.hdr.tag) with
  | none => s.firstSegment o
  | some e => if e.quiet then s.touchQuiet o.hdr.session o.type o.hdr.tag o.hdr.t else s.laterSegment o e

/-- A port's own address (R346). -/
def ownAddr (s : State) (p : Nat) (v6 : Bool) : Nat :=
  match s.img.accepted.net[p]? with
  | none => 0
  | some n => if v6 then n.ip6 else n.ip4

/-- A port's gateway (R346). -/
def gateway (s : State) (p : Nat) (v6 : Bool) : Nat :=
  match s.img.accepted.net[p]? with
  | none => 0
  | some n => if v6 then n.gw6 else n.gw4

/-- An address of a peer that the module must reach: a host or management session's (R35). -/
def isPeer (s : State) (a : Nat) : Bool :=
  s.hostSessions.any (fun i => decide (s.peerAddr i = a)) || s.openMgmt.any (fun i => decide ((s.mgmt i).addr = a))

/-- The port whose PTP time is reported: the first to lock keeps it while it is locked (R348). -/
def ptpChoice (s : State) : Option Nat :=
  match s.ports.ptpPort with
  | some p => if s.get F.ETH_PORT_PTP_LOCKED p = 1 then some p
              else if s.get F.ETH_PORT_PTP_LOCKED (1 - p) = 1 then some (1 - p) else none
  | none => if s.get F.ETH_PORT_PTP_LOCKED 0 = 1 then some 0 else if s.get F.ETH_PORT_PTP_LOCKED 1 = 1 then some 1 else none

end State

/-- TRP_SEGMENT (R347, R353, R354). -/
def execTrpSegment (o : Segment) (s : State) : Outcome :=
  .next (
    if o.toUs = false ∨ o.vlanOk = false ∨ o.plain = false ∨ o.portOk = false then s.bump F.ETH_DROP_FILTER o.port 1
    else if o.macsecOk = false then s.bump F.ETH_DROP_MACSEC o.port 1
    else if o.udpLen < 32 ∨ o.segLen ≠ o.udpLen - 32 then s.bump F.ETH_DROP_FILTER o.port 1
    else if s.sessionOk o.hdr = true ∨ (o.hdr.session = 0xFFFF ∧ o.type = 0x0B ∧ o.hdr.arg0 % 4 < 2) then s.placeSegment o
    else s.bump F.ETH_DROP_SESSION o.port 1)

/-- REASSEMBLY_TIMEOUT (R354): 10 ms without a segment. -/
def execReassemblyTimeout (session type tag t : Nat) (s : State) : Outcome :=
  .next (match s.ports.reasm.find? (fun e => e.sameId session type tag) with
    | none => s
    | some e => if e.quiet = false ∧ e.last + 10 ^ 7 ≤ s.now + t
        then (s.dropReasm session type tag).bump F.ETH_DROP_REASM e.port 1 else s)

/-- IDENTITY_QUIET_EXPIRY (R354): the identity of a rejected message is free again. -/
def execIdentityQuietExpiry (session type tag t : Nat) (s : State) : Outcome :=
  .next (match s.ports.reasm.find? (fun e => e.sameId session type tag) with
    | none => s
    | some e => if e.quiet = true ∧ e.last + 10 ^ 7 ≤ s.now + t then s.dropReasm session type tag else s)

/-- ICMP_ECHO (R346): at most 100 replies per second and port; `accepted` says that the frame passed the filters of R347. -/
def execIcmpEcho (port : Nat) (accepted : Bool) (t : Nat) (s : State) : Outcome :=
  .next (
    if accepted = false then s.bump F.ETH_DROP_FILTER port 1
    else
      let recent := s.ports.echoes.filter (fun e => decide (s.now + t < e.2 + 10 ^ 9))
      let s := { s with ports := { s.ports with echoes := recent } }
      if s.portUp port = true ∧ (recent.filter (fun e => decide (e.1 = port))).length < 100 then
        { s with ports := { s.ports with echoes := recent ++ [(port, s.now + t)] }, sent := s.sent ++ [.echoReply port] }
      else s)

/-- ARP_REQUEST (R35): an answer for the port's own address. -/
def execArpRequest (port target : Nat) (v6 : Bool) (s : State) : Outcome :=
  .next (if s.portUp port = true ∧ target ≠ 0 ∧ target = s.ownAddr port v6 then { s with sent := s.sent ++ [.advertise port target v6] } else s)

/-- NEIGHBOUR_RESOLVE (R35): the gateways and the peers that the module must reach. -/
def execNeighbourResolve (port target : Nat) (v6 : Bool) (s : State) : Outcome :=
  .next (if s.portUp port = true ∧ (target = s.gateway port v6 ∨ s.isPeer target = true) then
      { s with sent := s.sent ++ [.solicit port target v6],
               ports := { s.ports with neighbours := if s.ports.neighbours.contains (port, target) then s.ports.neighbours
                                                     else s.ports.neighbours ++ [(port, target)] } }
    else s)

/-- PTP_MESSAGE (R348): the slave clock of the port follows a master of the image's domain. -/
def execPtpMessage (o : PtpMsg) (s : State) : Outcome :=
  .next (if o.domain = s.pol 0x94 then
      let s := s.put F.ETH_PORT_PTP_LOCKED o.port (if o.locked then 1 else 0)
      { s with ports := { s.ports with ptpPort := s.ptpChoice } }
    else s)

/-- DELAY_REQ (R348). -/
def execDelayReq (port : Nat) (s : State) : Outcome :=
  .next (if s.portUp port = true then { s with sent := s.sent ++ [.delayReq port] } else s)

/-- ETH_LINK_DOWN (R358, R359): later messages leave on the other port. -/
def execEthLinkDown (port : Nat) (s : State) : Outcome :=
  .next (if s.portUp port then (s.put F.ETH_PORT_LINK_UP port 0).eventOpen 0x070A 5 port else s)

/-- ETH_LINK_UP (R367, R498): lane figures of lanes 256 + 4p to 259 + 4p; without image and network block ETH0 alone comes up (R531). -/
def execEthLinkUp (port : Nat) (lanes : List LaneFig) (s : State) : Outcome :=
  .next (if port = 1 ∧ s.get F.FLT_STATE_CAUSE 0 = 9 ∧ s.img.network = none then s
    else (s.put F.ETH_PORT_LINK_UP port 1).laneFigures (256 + 4 * port) lanes)

/-- UNLISTED_TYPE (R352): REJ_FORMAT for a VERSION or TYPE that no host may send. -/
def execUnlistedType (version type : Nat) (r : Req) (s : State) : Outcome :=
  .next (if version = 1 ∧ hostType type then s else s.withRequest type r (fun s => s.reject type r (verdict rejFormat)))

end Sys2Proof.Machine
end

