-- ==== Sys2Proof/Machine/Requests.lean ====
section
/-!
DEFINITION. Machine/Requests.lean: QUERY, SAMPLE, LOAD_MODEL, EXPORT, MGMT_READ and the checked register write
(spec/02_frames.md R64 to R70, spec/01_service_model.md R25 to R34, spec/14_checkpoint_and_replay.md R450 to R455,
spec/19_management_registers.md R552 to R554). Times of stages are in thirds of ns.
-/
namespace Sys2Proof.Machine

namespace State

/-! QUERY (R64 to R66). -/

/-- A layer of a context as committed at the opening tick (R43). -/
def layerSeen (s : State) (c i : Nat) : LayerSt := tget LayerSt.empty (s.ctx c).opening i

/-- Sub-pass charge s_l in force: the declared one and what R68 has raised, at most s_worst. -/
def subpasses (s : State) (c i : Nat) (l : Layer) : Nat := min l.worst (max 1 l.subpasses + (s.layerSeen c i).raised)

/-- The layer's forward runs on the matrix engine (R168, R185, R186, R425). -/
def substituted (s : State) (c i : Nat) : Bool :=
  let l := s.layerSeen c i
  l.rescale || l.refLost || decide (0 < l.fallback)

/-- A batt is open to row operations in a frame (R135): index and frame agree modulo 64. -/
def rowOpFrame (b frame : Nat) : Bool := decide (b % 64 = frame % 64)

/-- Time of a stage on the matrix engine, in thirds of ns: a digital layer's own, a substituted layer's at the BF16 rate (R173, R185), the
layer's of a row-operation frame (R136); 0 where it runs on its batt. -/
def matrixStage (s : State) (c i : Nat) (l : Layer) (frame : Nat) : Nat :=
  if l.batts = [] then 2 * l.cycles
  else if s.substituted c i then 2 * ((l.rows * l.cols + 2047) / 2048)
  else if l.batts.any (fun b => rowOpFrame (s.battOf b) frame) then 2 * ((l.rows * l.cols + 4095) / 4096)
  else 0

/-- Pass time of a stage with its sub-pass charge, in thirds of ns (R64). -/
def passStage (s : State) (c i : Nat) (l : Layer) : Nat := if l.batts = [] then 0 else 3 * passTime l.rows * s.subpasses c i l

/-- Charged time per point of a stage in the target frame (R65, R136). -/
def stageTime (s : State) (c i : Nat) (l : Layer) (frame : Nat) : Nat := max (s.passStage c i l) (s.matrixStage c i l frame)

/-- The stages of a template's query path, with their indices: batt layers and digital layers. -/
def stages (t : Template) : List (Layer × Nat) := t.layers.zipIdx.filter (fun p => decide (p.1.batts ≠ [] ∨ p.1.cycles ≠ 0))

/-- Logical cores that hold a stage. -/
def layerCores (l : Layer) : List Nat := if l.batts = [] then [l.core] else l.batts.map (fun b => State.homeLogical (b / 8))

/-- Logical cores of the path. -/
def stageCores (t : Template) : List Nat :=
  ((stages t).flatMap (fun p => layerCores p.1)).foldl (fun l c => if l.contains c then l else l ++ [c]) []

/-- Split headroom H_p (R64). -/
def headroom (s : State) (c : Nat) (t : Template) : Nat :=
  (((stages t).filter (fun p => decide (p.1.batts ≠ []))).map (fun p => 3 * passTime p.1.rows * (p.1.worst - s.subpasses c p.2 p.1))).foldl
    (· + ·) 0

/-- A context trains at a query's arrival (R182). -/
def trains (s : State) (c : Nat) : Bool := (s.ctx c).step.isSome || decide (s.seen F.CTX_TRAIN_PAUSE c = 0)

/-- Charged band cycles per point of a stage, β_l (R182). -/
def bandCycles (s : State) (c i : Nat) (l : Layer) : Nat :=
  let bs := l.batts.map (fun b => s.batt (s.battOf b))
  let naps := (bs.map (fun b => b.naps.length)).foldl (· + ·) 0
  let dark := (bs.map (fun b => b.dark.length)).foldl (· + ·) 0
  if l.batts = [] then 0
  else (s.layerSeen c i).staticRows.length + l.allow + (if s.trains c then 16 else (naps + 1023) / 1024) + dark

/-- B_c of a core in thirds of ns (R182). -/
def bandTime (s : State) (c : Nat) (t : Template) (core : Nat) : Nat :=
  2 * (((stages t).filter (fun p => (layerCores p.1).contains core)).map (fun p => s.bandCycles c p.2 p.1)).foldl (· + ·) 0

/-- Charged time T_m of n points in thirds of ns (R65, R182). -/
def queryTime (s : State) (c : Nat) (t : Template) (n frame : Nat) : Nat :=
  let ts := (stages t).map (fun p => s.stageTime c p.2 p.1 frame)
  let m := ((stageCores t).map (fun k => s.bandTime c t k)).foldl max (ts.foldl max 0)
  n * m + ts.foldl (· + ·) 0 - m

/-- Energy of n points (R65, R136, R182): passes, the vector and band engines of the stages' cores, stack bytes, and the matrix engine for
a stage that runs there in the target frame. -/
def queryEnergy (s : State) (c : Nat) (t : Template) (n frame bytes : Nat) : Nat :=
  let time := s.queryTime c t n frame
  let pass := (((stages t).filter (fun p => decide (p.1.batts ≠ []))).map (fun p => s.stageTime c p.2 p.1 frame)).foldl (· + ·) 0
  let mat := (((stages t).filter (fun p => decide (s.matrixStage c p.2 p.1 frame ≠ 0))).map
    (fun p => n * s.stageTime c p.2 p.1 frame)).foldl (· + ·) 0
  let band := ((stageCores t).filter (fun k => decide (0 < s.bandTime c t k))).length
  n * battEnergy pass + (stageCores t).length * vectorEnergy time + band * bandEnergy time + memEnergy bytes + matrixEnergy mat

/-- On-wire bytes of a message of len payload bytes on a port (R349, R350); a message has at least one segment. -/
def wireBytes (s : State) (port len : Nat) (v6 : Bool) : Nat :=
  let seg := if v6 then 8920 else 8940
  let o := (if v6 then 118 else 98) + (if s.get F.ETH_PORT_VLAN_ON port = 1 then 4 else 0) + (if s.get F.ETH_PORT_MACSEC_ON port = 1 then 24 else 0)
  len + max 1 ((len + seg - 1) / seg) * o

/-- Queries that stand in the plans, with the ticks until their release: 0 for the closing tick (R64, R74). -/
def due (s : State) : List (Nat × PlacedQuery) :=
  s.fr.plans.zipIdx.flatMap (fun p => p.1.queries.map (fun q => (p.2 + q.cross, q))) ++ s.fr.flying.map (fun f => (f.left, f.query))

/-- Queries of the target plan, the one after the plan that executes (R64). -/
def nextQueries (s : State) : List PlacedQuery := match s.fr.plans[1]? with | some p => p.queries | none => []

/-- VC0 flits of a cross-module pipeline already charged to a frame (R65). -/
def xferUsed (s : State) (c frame : Nat) : Nat :=
  ((s.fr.xfer.filter (fun x => decide (x.1 = c) && decide (x.2.1 = frame))).map (fun x => x.2.2)).foldl (· + ·) 0

/-- Number of the target plan (R64, R135). -/
def targetNumber (s : State) : Nat :=
  match s.fr.plans with
  | [] => s.frame + 1
  | [_] => s.frame + 1
  | _ :: p :: _ => p.number

/-- The query as it would be placed. -/
def placed (s : State) (r : Req) (t : Template) : PlacedQuery :=
  let n := r.arg0
  let bytes := n * (t.inBytes + t.outBytes)
  let v6 := decide (s.seen F.HSESS_CFG_V6 r.session = 1)
  ⟨s.fr.queries, r.port, r.session, r.tag, r.ctx, r.gen, n, t.outBytes, s.wireBytes r.port (n * t.outBytes) v6,
    s.queryTime r.ctx t n s.targetNumber, stageCores t, s.headroom r.ctx t, t.crossings, s.queryEnergy r.ctx t n s.targetNumber bytes,
    t.ioStack, bytes, false, false⟩

/-- The time check of R66: on every core of the path the charged times fit W less the largest headroom; a margin core of the coming
frame takes no query (R434). -/
def timeOk (s : State) (q : PlacedQuery) : Bool :=
  q.cores.all (fun c =>
    let on := q :: (s.nextQueries.filter (fun p => p.cores.contains c))
    let most := (on.map (fun p => p.headroom)).foldl max 0
    decide ((on.map (fun p => p.time)).foldl (· + ·) 0 + most ≤ 3 * s.workNs) &&
      decide (s.flt.marginCore = none ∨ s.flt.marginCore ≠ s.physOf c))

/-- The energy check of R66: the class-0 share of the target plan. -/
def energyOk (s : State) (q : PlacedQuery) : Bool :=
  decide ((s.nextQueries.map (fun p => p.energy)).foldl (· + ·) 0 + q.energy ≤ s.eSched * s.share 0 / 100)

/-- The flit check of R66: the allotment in every frame of a crossing; a tick-unaligned module serves no path that crosses (R76). -/
def flitsOk (s : State) (q : PlacedQuery) (t : Template) : Bool :=
  decide (q.cross = 0) || (decide (s.get F.LNK_TICK_UNALIGNED 0 = 0) &&
    (List.range q.cross).all (fun k => decide (s.xferUsed q.ctx (s.frame + 1 + k) + q.points * t.crossFlits ≤ t.allotment)))

/-- The memory check of R66. -/
def memOk (s : State) (q : PlacedQuery) : Bool :=
  decide (((s.nextQueries.filter (fun p => decide (p.stack = q.stack))).map (fun p => p.bytes)).foldl (· + ·) 0 + q.bytes ≤
    s.memBudget * s.share 0 / 100)

/-- The burst check of R46 and R66: the results released on the port at the same tick. -/
def burstOk (s : State) (q : PlacedQuery) : Bool :=
  let same := s.due.filter (fun p => decide (p.1 = 1 + q.cross) && decide (p.2.port = q.port))
  decide ((same.map (fun p => p.2.wire)).foldl (· + ·) 0 + q.wire ≤ 190000)

/-- The checks of R571 and R66, in their order. -/
def queryChecks (s : State) (r : Req) : List (Bool × Verdict) :=
  let fmt := (decide (0 < r.arg0) && decide (r.arg0 < 65536) && decide (r.arg1 = 0), verdict rejFormat)
  let kind := (isHost r.session && decide (s.seen F.HSESS_CFG_CTX r.session = r.ctx), verdict rejOwner)
  let gen := (decide (s.seen F.CTX_STATE_GEN r.ctx = r.gen), verdict rejCtxState)
  let state := (s.serving r.ctx, verdict rejCtxState)
  match s.template r.ctx with
  | none => [fmt, s.inService, kind, gen, (false, verdict rejCtxState)]
  | some t =>
    let q := s.placed r t
    [fmt, s.inService, (decide (r.len = r.arg0 * t.inBytes) && decide (r.len ≤ t.queryBuf), verdict rejLen), kind, gen, state,
      (s.timeOk q, budget 1), (s.energyOk q, budget 2), (s.flitsOk q t, budget 3), (s.memOk q, budget 5), (s.burstOk q, budget 4)]

/-- An empty plan for a frame. -/
def emptyPlan (n : Nat) : Plan := ⟨n, [], [], [], [], 0, [], []⟩

/-- Place a query in the plan after the one that executes (R64), with its crossings' flits charged (R65). -/
def placeQuery (s : State) (q : PlacedQuery) (t : Template) : State :=
  let plans := match s.fr.plans with
    | [] => [emptyPlan s.frame, { emptyPlan (s.frame + 1) with queries := [q] }]
    | [p] => [p, { emptyPlan (s.frame + 1) with queries := [q] }]
    | p :: n :: r => p :: { n with queries := n.queries ++ [q] } :: r
  let xs := (List.range q.cross).map (fun k => (q.ctx, s.frame + 1 + k, q.points * t.crossFlits))
  { s with fr := { s.fr with plans := plans, queries := s.fr.queries + 1, xfer := s.fr.xfer ++ xs } }

/-! SAMPLE (R33, R69, R450). -/

/-- Highest accepted sample number of a session (R33). -/
def accepted (s : State) (i : Nat) : Nat := s.get F.HSESS_SEQ_HI_SEQ i * 2 ^ 32 + s.get F.HSESS_SEQ_LO_SEQ i

/-- Set it. -/
def setAccepted (s : State) (i n : Nat) : State :=
  (s.put F.HSESS_SEQ_LO_SEQ i (n % 2 ^ 32)).put F.HSESS_SEQ_HI_SEQ i (n / 2 ^ 32 % 2 ^ 32)

/-- 64-byte units of the log in use (R451). -/
def logUnits (s : State) (c : Nat) : Nat := ((s.ctx c).log.map (fun e => e.units)).foldl (· + ·) 0

/-- Samples that hold intake-queue slots: the queued ones and those of a step in progress (R241). -/
def intakeUsed (s : State) (c : Nat) : Nat :=
  (s.ctx c).intake.length + match (s.ctx c).step with | some r => r.samples.length | none => 0

/-- Number the samples of a message from its first number and keep those that R33 does not discard. -/
def newSamples (s : State) (r : Req) (l : List SampleData) : List Sample :=
  let first := r.arg0 * 2 ^ 32 + r.arg1
  (l.zipIdx.map (fun p => (⟨r.session, first + p.2, s.frame, p.1.positions, p.1.data⟩ : Sample))).filter
    (fun x => decide (s.accepted r.session < x.seq))

/-- Payload bytes of samples as a log entry holds them. -/
def payload (l : List Sample) : List Byte := l.flatMap (fun x => x.data)

/-- Units of a log entry: its header and its payload (R450). -/
def entryUnits (n : Nat) : Nat := 1 + (n + 63) / 64

/-- Room in the intake queue and the log (R26, R69). -/
def sampleRoom (s : State) (c : Nat) (t : Template) (l : List Sample) : Bool :=
  decide (l = []) || (decide (s.intakeUsed c + l.length ≤ t.intakeSlots) &&
    decide (s.logUnits c + entryUnits (payload l).length ≤ t.logSize * 64))

/-- The log entry of admitted samples (R450). -/
def sampleEntry (pos : Nat) (l : List Sample) : LogEntry :=
  let b := payload l
  let f := l.headD ⟨0, 0, 0, 0, []⟩
  { kind := 1, pos := pos, units := entryUnits b.length, session := f.session, count := l.length, firstSeq := f.seq, frame := f.frame,
    bytes := b.length, closed := false, skipped := false, heldOnce := false, step := 0, roundPos := 0, firstEntry := 0, firstIndex := 0,
    nTot := 0, loss := 0, lrScale := 0, updates := 0, hash := leNum (shake256 (b.map (fun x => x.toNat)) 16), data := l }

/-- Take new samples into the intake queue and the log (R34). -/
def takeSamples (s : State) (c session : Nat) (l : List Sample) : State :=
  match l.getLast? with
  | none => s
  | some z =>
    let e := sampleEntry (s.ctx c).logNext l
    (s.updCtx c (fun x => { x with intake := x.intake ++ l, log := x.log ++ [e], logNext := x.logNext + e.units })).setAccepted session z.seq

/-- The answer to a SAMPLE: the highest accepted number in ARG0 and ARG1 (R355, R358). -/
def sampleAck (s : State) (r : Req) (v : Verdict) : OutMsg :=
  let n := s.accepted r.session
  { answer 3 r v (n % 2 ^ 32) with arg0 := n / 2 ^ 32 }

/-- The checks of R69. -/
def sampleChecks (s : State) (r : Req) (l : List SampleData) : List (Bool × Verdict) :=
  let kind := (isHost r.session && decide (s.seen F.HSESS_CFG_CTX r.session = r.ctx), verdict rejOwner)
  let gen := (decide (s.seen F.CTX_STATE_GEN r.ctx = r.gen), verdict rejCtxState)
  match s.template r.ctx with
  | none => [s.inService, kind, gen, (false, verdict rejCtxState)]
  | some t =>
    let fits := l.all (fun x => decide (x.data.length + (if t.lMax = 0 then 0 else 8) = sampleBytes t x.positions) && decide (x.positions ≤ t.lMax))
    let total := (l.map (fun x => sampleBytes t x.positions)).foldl (· + ·) 0
    [s.inService, (fits && decide (r.len = total) && decide (r.len ≤ t.intakeSlots * sampleBytes t t.lMax), verdict rejLen), kind, gen,
      (s.serving r.ctx || decide (s.ctxState r.ctx = 4), verdict rejCtxState), (s.sampleRoom r.ctx t (s.newSamples r l), budget 6)]

/-! EXPORT (R453 to R455). -/

/-- Exports that a context holds. -/
def exports (s : State) (c : Nat) : List ExportRun := (s.ctx c).ckpt.exports

/-- Replace them. -/
def setExports (s : State) (c : Nat) (l : List ExportRun) : State := s.updCtx c (fun x => { x with ckpt := { x.ckpt with exports := l } })

/-- Bytes of the export area in use by exports that may not be displaced (R455). -/
def exportUsed (s : State) : Nat :=
  (s.ctxs.flatMap (fun e => e.2.ckpt.exports.filter (fun x => !x.displaceable))).foldl (fun n x => n + x.length) 0

/-- Bytes in use by every export. -/
def exportAll (s : State) : Nat := (s.ctxs.flatMap (fun e => e.2.ckpt.exports)).foldl (fun n x => n + x.length) 0

/-- Size of the export area in bytes (R453). -/
def exportArea (s : State) : Nat := s.pol 0x9C * 2 ^ 20

/-- Displace exports past their hold until n bytes fit (R455). -/
def makeRoom (s : State) (n : Nat) : State :=
  (s.ctxs.flatMap (fun e => (e.2.ckpt.exports.filter (fun x => x.displaceable)).map (fun x => (e.1, x)))).foldl (fun s e =>
    if s.exportAll + n ≤ s.exportArea then s else s.setExports e.1 ((s.exports e.1).erase e.2)) s

/-- Start an export of the latest complete generation, or wait for one (R453); `port` and `tag` are those of its data messages. Its SET_ID
and K_s are drawn anew for it from CP0's entropy (R518). -/
def startExport (s : State) (c size session port tag : Nat) : State :=
  let s := s.makeRoom size
  let set_ := s.draw % 2 ^ 128
  let s := s.drawn
  let key := s.draw % 2 ^ 256
  let s := s.drawn
  s.updCtx c (fun x => { x with ckpt := { x.ckpt with
    exports := x.ckpt.exports ++ [⟨x.ckpt.nextExportId, s.gen c, 0, set_, key, size, 0, session, port, tag, 0, true, false⟩],
    nextExportId := x.ckpt.nextExportId + 1 } })

/-- The first 128 bytes of an export stream: the label and the package header. What follows, the wrap table and the sealed body, only the
crypto engine gives (log entry 12). -/
def exportHead (s : State) (c : Nat) (x : ExportRun) : List Byte :=
  let k := (s.ctx c).ckpt
  let n := match [k.latest, k.previous].find? (fun g => decide (g.map (fun y => y.gen) = some x.ckpt)) with
    | some (some g) => g.step
    | _ => 0
  match s.template c with
  | none => []
  | some t => s.exportLabel c (if 1 < t.members.length then indexOf t.members (s.get F.LNK_ID_MODULE_ID 0) else 0) n t.index x ++ s.exportHeader t.index x

/-- An export data message of a range (R355, R455). -/
def exportMsg (s : State) (c : Nat) (x : ExportRun) (ofs len : Nat) : OutMsg :=
  ⟨0x87, x.port, x.session, x.tag, c, s.gen c, stOk, 0, ofs / 2 ^ 32, ofs % 2 ^ 32, len, .exportData c x.ckpt ofs len (((s.exportHead c x).drop ofs).take len)⟩

/-- Messages of at most 64 MiB that cover a range; the fuel is their number (R455). -/
def chunks : Nat → Nat → Nat → List (Nat × Nat)
  | 0, _, _ => []
  | n + 1, ofs, len => if len = 0 then [] else (ofs, min len (2 ^ 26)) :: chunks n (ofs + 2 ^ 26) (len - 2 ^ 26)

/-- Checks of an EXPORT request that precede what it asks for (R66, R70, R571). -/
def exportChecks (s : State) (r : Req) : List (Bool × Verdict) :=
  let st := s.ctxState r.ctx
  [(decide (r.arg0 = 0) && decide (r.arg1 = 0), verdict rejFormat), s.inService, (decide (r.len = 24), verdict rejLen),
    (s.isOwner r, verdict rejOwner), (decide (s.seen F.CTX_STATE_GEN r.ctx = r.gen), verdict rejCtxState),
    (decide (s.template r.ctx ≠ none) && (decide (2 ≤ st ∧ st ≤ 4) || decide (st = 6)), verdict rejCtxState)]

/-! MGMT_READ (R552, R553). -/

/-- A sync word of the active set as the last tick left it (R390). -/
def syncWord (s : State) (k i : Nat) : Word :=
  let p := i / 64
  let c := ((tget SaveArea.empty (s.core p).opening (s.seen F.SYNC_CORE_ACTIVE_CTX p))).ctr (i % 64)
  BitVec.ofNat 32 (if k = 0 then c.value else if k = 1 then c.landed else c.promised)

/-- Word k of an event-log record (R408): the EVENT payload in it is as sent, big-endian. -/
def logWord (s : State) (i k : Nat) : Word :=
  match (s.flt.log.find? (fun e => decide (e.1 = i))).map (fun e => e.2) with
  | none => 0
  | some e =>
    let b := leBytes 8 e.seq ++ leBytes 2 e.status ++ leBytes 6 0 ++ beBytes 8 e.frame ++ beBytes 4 (e.kind * 2 ^ 24 + e.index % 2 ^ 24) ++
      beBytes 4 e.d0 ++ beBytes 8 e.d1 ++ leBytes 8 0 ++ leBytes 8 e.sec ++ leBytes 4 e.ns ++ leBytes 4 0
    BitVec.ofNat 32 (leNat ((b.drop (4 * k)).take 4))

/-- Word of a quote (R514): listed header words, zero where the layout is reserved or past the end, signature and key bytes as formed. -/
def quoteWord (s : State) (slot o : Nat) : Word :=
  let serial := tget 0 s.sec.quotes (0x20000 + slot)
  if serial = 0 ∨ 23205 ≤ o then 0
  else match s.sec.quotes.find? (fun e => decide (e.1 = slot * 0x8000 + o)) with
  | some e => BitVec.ofNat 32 e.2
  | none =>
    if (0x38 ≤ o ∧ o < 0x60) ∨ o < 0x38 ∨ (0xC0 ≤ o ∧ o < 0x100) ∨ (0x144 ≤ o ∧ o < 0x150) ∨ o = 0x127C then 0
    else if o = 0x770 then s.reg (F.DEV_SERIAL_LO_SERIAL.addr 0)
    else if o = 0x774 then s.reg (F.DEV_SERIAL_HI_SERIAL.addr 0)
    else BitVec.ofNat 32 (leNat ((List.range 4).map (fun k =>
      if 0x150 ≤ o ∧ o < 0x770 then Config.ekByte s.sec.bindSeed (o + k - 0x150)
      else if 0x778 ≤ o ∧ o < 0x127C then Config.devSigByte (o + k - 0x778)
      else if o + k < 23205 then Config.quoteByte serial (o + k) else 0)))

/-- A word of a core's engine-state record (R552): mask registers and armed waits; engines hold nothing between commands. -/
def engineWord (s : State) (p o : Nat) : Word :=
  let x := s.core p
  if 0x100 ≤ o ∧ o < 0x140 then
    let k := (o - 0x100) / 8
    let m : BitVec 64 := if k = 0 then BitVec.allOnes 64 else tget 0 x.masks k
    BitVec.ofNat 32 (m.toNat / 2 ^ (8 * (o % 8)))
  else if 0x140 ≤ o ∧ o < 0x200 then
    match x.waits.find? (fun w => decide (w.1 = (o - 0x140) / 16)) with
    | none => 0
    | some w => BitVec.ofNat 32 (match (o - 0x140) % 16 with
      | 0 => 0xF0 + 2 ^ 8 * w.2.ctr + 2 ^ 14 * w.2.mode
      | 4 => w.2.target
      | 8 => w.2.bytes
      | _ => 0)
  else 0

/-- The debug facility k is open for this session (R522, R524). -/
def debugFor (s : State) (r : Req) (k : Nat) : Bool :=
  decide (s.seen F.DBG_STATE_OPEN 0 = 1) && decide (s.seen F.DBG_STATE_SESSION 0 = r.session - 0xFFF0) &&
    decide (s.seen F.DBG_STATE_FACILITIES 0 / 2 ^ k % 2 = 1)

/-- Base of the memory window (R525). -/
def memBase (s : State) : Nat := s.seen F.DBG_MEM_ADDR_HI_ADDR 0 * 2 ^ 32 + s.seen F.DBG_MEM_ADDR_LO_ADDR 0

/-- One word as a read returns it; none where a window's condition fails (R552, R553). -/
def readAt (s : State) (r : Req) (a : Nat) : Option Word :=
  if 0x110000 ≤ a ∧ a < 0x140000 then
    (if a < 0x11C000 then some (s.syncWord 0 ((a - 0x110000) / 4))
     else if 0x120000 ≤ a ∧ a < 0x12C000 then some (s.syncWord 1 ((a - 0x120000) / 4))
     else some (s.syncWord 2 ((a - 0x130000) / 4)))
  else if 0xB000 ≤ a ∧ a < 0xC000 then some 0
  else if 0x1000000 ≤ a ∧ a < 0x1010000 then some (s.quoteWord ((a - 0x1000000) / 0x8000) (a % 0x8000))
  else if 0x2000000 ≤ a ∧ a < 0x2100000 then
    if s.debugFor r 0 = false then none
    else if a = 0x20FFFF8 then some (BitVec.ofNat 32 s.sec.traceNext)
    else some (BitVec.ofNat 32 (tget 0 s.sec.trace ((a - 0x2000000) / 32) / 2 ^ (8 * (a % 32))))
  else if 0x2100000 ≤ a ∧ a < 0x21C0000 then
    if s.debugFor r 1 = false then none else some (s.engineWord ((a - 0x2100000) / 0x1000) (a % 0x1000))
  else if 0x3000000 ≤ a ∧ a < 0x4000000 then
    if s.debugFor r 2 = false then none else some (s.word (s.memBase + (a - 0x3000000)))
  else if 0x10000000 ≤ a ∧ a < 0x20000000 then some (s.logWord ((a - 0x10000000) / 64) (a % 64 / 4))
  else some (s.readWord a)

/-- The addresses of a read. -/
def readAddrs (r : Req) : List Nat := (List.range r.arg1).map (fun i => r.arg0 + 4 * i)

/-- The checks of a MGMT_READ (R571, R553): any management session may read. -/
def readChecks (s : State) (r : Req) : List (Bool × Verdict) :=
  [(decide (r.ctx = 0) && decide (r.gen = 0) && decide (1 ≤ r.arg1) && decide (r.arg1 ≤ 2048), verdict rejFormat),
    (isMgmt r.session, verdict rejOwner), (decide (r.len = 0), verdict rejLen), (s.room2, budget 7),
    ((readAddrs r).all isMapped, verdict rejAddr), ((readAddrs r).all (fun a => (s.readAt r a).isSome), verdict rejOwner)]

/-! MGMT_WRITE, checked entry by entry (R366, R554). -/

/-- The first entry that fails a further check, with its status, indicator and index. -/
def firstBad (f : WriteEntry → Option (Nat × Nat)) : Nat → List WriteEntry → Option Verdict
  | _, [] => none
  | i, e :: r => match f e with | some v => some ⟨v.1, v.2, i⟩ | none => firstBad f (i + 1) r

/-- A register write: message checks, each entry in order, then every entry applied, its answer held for the tick. -/
def writeRequest (s : State) (r : Req) (entries : List WriteEntry) (bad : State → WriteEntry → Option (Nat × Nat))
    (apply : WriteEntry → State → State) : State :=
  s.withRequest 0x0A r (fun s =>
    s.decide_ 0x0A r (firstFail (s.writeChecks r true ++
        [(decide (1 ≤ entries.length) && decide (entries.length ≤ 512) && decide (r.len = 12 * entries.length), verdict rejLen)]))
      (fun s => match firstBad (fun e => match s.entryFault e with | some v => some (v, 0) | none => bad s e) 0 entries with
        | some v => s.reject 0x0A r v
        | none => entries.foldl (fun s e => apply e s) ((s.queue2).accept 0x0A 2 r 0 0)))

/-- Apply an entry of a host session's registers: a write that touches CTX restarts the session's sample numbers at the tick (R361). -/
def applyHsess (e : WriteEntry) (s : State) : State :=
  let s := s.applyEntry e
  let i := (e.addr - 0x400000) / 0x20
  if e.addr % 0x20 = 0 ∧ e.mask / 2 ^ 16 % 2 ^ 10 ≠ 0 then s.updHost i (fun h => { h with restart := true }) else s

end State

/-- QUERY (R64 to R66). -/
def execQuery (r : Req) (s : State) : Outcome :=
  .next (s.withRequest 1 r (fun s =>
    s.decide_ 1 r (firstFail (s.queryChecks r)) (fun s => match s.template r.ctx with
      | none => s
      | some t => s.placeQuery (s.placed r t) t)))

/-- SAMPLE (R33, R69): rejections carry the unchanged highest number. -/
def execSample (r : Req) (samples : List SampleData) (s : State) : Outcome :=
  .next (s.withRequest 3 r (fun s =>
    match firstFail (s.sampleChecks r samples) with
    | some v => s.send (s.sampleAck r v)
    | none =>
      let l := s.newSamples r samples
      let s := (s.bump F.HSESS_DISC_DISCARDED r.session (samples.length - l.length)).takeSamples r.ctx r.session l
      s.hold 1 (s.sampleAck r (verdict stOk))))

/-- LOAD_MODEL (R25, R515): the FREE context is reserved and shows LOADING with GEN + 1 at the tick; its package waits to be unsealed. -/
def execLoadModel (r : LoadReq) (s : State) : Outcome :=
  let p := r.pkg
  let r := r.req
  .next (s.withRequest 6 r (fun s =>
    s.decide_ 6 r (firstFail [(decide (r.arg0 = 0) && decide (r.arg1 = 0), verdict rejFormat), s.inService,
        (decide (s.template r.ctx = none) || decide (r.len ≤ s.pol 0x98 * 2 ^ 20), verdict rejLen), (s.isOwner r, verdict rejOwner),
        (decide (s.seen F.CTX_STATE_GEN r.ctx = r.gen), verdict rejCtxState),
        (decide (s.ctxState r.ctx = 0) && !(s.ctx r.ctx).reserved && decide (s.template r.ctx ≠ none),
          verdict rejCtxState),
        (s.room1, budget 7)])
      (fun s => match s.template r.ctx with
        | none => s
        | some t => (((s.queue1).place r.ctx t).enterLoading r.ctx true).updCtx r.ctx (fun x => { x with
            reserved := true, loading := some ⟨some r, false, 0, 0, s.frame, none, [], [], false, some p⟩ }))))

/-- LOAD_FAILED (R384): REJ_BINDING for a package that does not unseal here (R517), REJ_LEN or REJ_BUDGET 5 in the response, then
DRAINING. -/
def execLoadFailed (ctx status ind : Nat) (s : State) : Outcome :=
  .next (if s.ctxLive ctx = 1 ∧ ((status = rejBinding ∧ s.bindingBad ctx = true) ∨ status = rejLen ∨ (status = rejBudget ∧ ind = 5)) then s.failLoad ctx status ind else s)

/-- EXPORT (R453, R455): `size` is the bytes of the export stream. -/
def execExportReq (r : Req) (size : Nat) (s : State) : Outcome :=
  .next (s.withRequest 7 r (fun s =>
    s.decide_ 7 r (firstFail (s.exportChecks r ++ [(!(s.exports r.ctx).any (fun x => x.busy), budget 7),
        (decide (s.exportUsed + size ≤ s.exportArea), budget 5), (s.room1, budget 7)]))
      (fun s => (s.queue1).startExport r.ctx size r.session r.port r.tag)))

/-- EXPORT_RESEND (R355, R455): the range of an export still held, from the next tick. -/
def execExportResend (r : Req) (id offset length : Nat) (s : State) : Outcome :=
  .next (s.withRequest 7 r (fun s =>
    let held := (s.exports r.ctx).find? (fun x => decide (x.id = id))
    let len := match held with | some x => (if length = 0 then x.length - offset else length) | none => 0
    s.decide_ 7 r (firstFail (s.exportChecks r ++ [(held.isSome, verdict rejCtxState),
        (match held with | some x => decide (offset + len ≤ x.length) | none => false, verdict rejLen), (s.room1, budget 7)]))
      (fun s => match held with
        | none => s
        | some x => (State.chunks (len / 2 ^ 26 + 1) offset len).foldl (fun s c =>
            s.hold 1 (s.exportMsg r.ctx { x with session := r.session, port := r.port, tag := r.tag } c.1 c.2)) s.queue1)))

/-- MGMT_READ (R553): answered at once with values committed at the last tick. -/
def execMgmtRead (r : Req) (s : State) : Outcome :=
  .next (s.withRequest 9 r (fun s =>
    s.decide_ 9 r (firstFail (s.readChecks r)) (fun s =>
      s.send { answer 9 r (verdict stOk) 0 with
        len := 4 * r.arg1, body := .words ((State.readAddrs r).map (fun a => (s.readAt r a).getD 0)) })))

/-- HSESS_CFG_WRITE (R361): entries of the host-session array. -/
def execHsessCfgWrite (r : Req) (entries : List WriteEntry) (s : State) : Outcome :=
  .next (if entries.all (fun e => decide (0x400000 ≤ e.addr) && decide (e.addr < 0x420000)) then
      s.writeRequest r entries (fun _ _ => none) State.applyHsess
    else s)

end Sys2Proof.Machine
end

