-- ==== Sys2Proof/Machine/Plan.lean ====
section
/-!
DEFINITION. Machine/Plan.lean: what a plan charges and what is left of its budgets (spec/02_frames.md R56 to R61, R71;
spec/04_blocking_and_fulling.md R116; spec/11_sync_and_contexts.md R374, R380), and the charges that return to the frame (R59, R68).
-/
namespace Sys2Proof.Machine

/-- A plan being made. -/
structure Planning where
  plan : Plan
  led : Ledger
deriving DecidableEq, Repr

/-- A charge of energy and stack bytes (R61). -/
def chargeVec (energy : Nat) (mem : List (Nat × Nat)) : List Nat :=
  energy :: (List.range 12).map (fun k => ((mem.filter (fun m => decide (m.1 = k))).map (fun m => m.2)).foldl (· + ·) 0)

/-- Sum of charges. -/
def addVec (a b : List Nat) : List Nat := List.zipWith (· + ·) a b

/-- What a budget leaves after a charge. -/
def subVec (a b : List Nat) : List Nat := List.zipWith (fun x y => x - y) a b

/-- Nothing charged. -/
def zeroVec : List Nat := List.replicate 13 0

/-- A charge fits a budget. -/
def fitsVec (a pool : List Nat) : Bool := (a.zip pool).all (fun p => decide (p.1 ≤ p.2))

/-- Sum of amounts into a table. -/
def addTbl (t : Tbl Nat) (l : List (Nat × Nat)) : Tbl Nat := l.foldl (fun t e => tset 0 t e.1 (tget 0 t e.1 + e.2)) t

/-- Energy of an interval reserved on an engine (R58), by its code (R400); the time in thirds of ns. -/
def unitEnergy (engine t : Nat) : Nat :=
  match engine with
  | 0 => matrixEnergy t
  | 1 => vectorEnergy t
  | 2 => bandEnergy t
  | 3 => 0
  | _ => battEnergy t

/-- Sum of the second parts. -/
def sumSnd (l : List (Nat × Nat)) : Nat := (l.map (fun e => e.2)).foldl (· + ·) 0

namespace State

/-- A unit (physical core x 16 + engine) takes no work: its core is shut or its engine in reset (R401). -/
def unitShut (s : State) (k : Nat) : Bool := s.closed (k / 16) || (s.core (k / 16)).engines.contains (k % 16)

/-- Unit of a batt. -/
def battUnit (b : Nat) : Nat := b / 8 * 16 + 8 + b % 8

/-- Time charged for a context switch in thirds of ns: 3.0 µs, or 1.0 µs for a set that the core held at the opening tick (R380). -/
def switchTime (s : State) (p c : Nat) : Nat := if (s.core p).cached.contains c then 3000 else 9000

/-- Units of an item with their times in thirds of ns, none if a logical core of it is served by no core: the intervals it reserves, 4.8 µs
for each row it blocks and 0.2 µs for each fulling read (R58), and its switches on the four digital engines of their cores (R380). -/
def itemUnits (s : State) (w : WorkItem) : Option (List (Nat × Nat)) :=
  let swaps := w.switches.foldr (fun k r => match r, s.physOf k.1 with
    | some l, some p => some ((List.range 4).map (fun e => (16 * p + e, s.switchTime p k.2)) ++ l)
    | _, _ => none) (some [])
  let rows := w.blocks.map (fun e => (battUnit (s.battOf e.1), 14400 * e.2)) ++ w.reads.map (fun e => (battUnit (s.battOf e.1), 600 * e.2))
  w.units.foldr (fun u r => match r, s.physOf (u.1 / 16) with
    | some l, some p => some ((16 * p + u.1 % 16, 3 * u.2) :: l)
    | _, _ => none) (swaps.map (fun l => rows ++ l))

/-- Energy of an item at the rates of R58: its intervals, stack bytes and row operations, and its switches at the vector rate (R380). -/
def itemEnergy (s : State) (w : WorkItem) : Nat :=
  (w.units.map (fun u => unitEnergy (u.1 % 16) (3 * u.2))).foldl (· + ·) 0 + memEnergy (sumSnd w.mem) +
    blockEnergy * sumSnd w.blocks + fullEnergy * sumSnd w.reads +
    (w.switches.map (fun k => match s.physOf k.1 with | some p => 4 * vectorEnergy (s.switchTime p k.2) | none => 0)).foldl (· + ·) 0

/-- Charge an item to the plan. -/
def chargeItem (s : State) (p : Planning) (w : WorkItem) (units : List (Nat × Nat)) : Planning :=
  let e := s.itemEnergy w
  { led := { p.led with
      units := addTbl p.led.units units, flits := addTbl p.led.flits w.flits, eth := addTbl p.led.eth w.eth,
      swaps := addTbl p.led.swaps (w.switches.filterMap (fun k => (s.physOf k.1).map (fun c => (c, 1)))),
      blocks := addTbl p.led.blocks (w.blocks.map (fun k => (s.battOf k.1, k.2))), pool := subVec p.led.pool (chargeVec e w.mem) },
    plan := { p.plan with
      charged := p.plan.charged + e,
      charged1 := if w.cls = 2 then addTbl p.plan.charged1 [(w.ctx, e)] else p.plan.charged1 } }

/-- The frame program of an item stands in the plan table for its context and phase, or remains after a cut point of one that does (R172, R538). -/
def planned (s : State) (w : WorkItem) : Bool :=
  let g := s.img.accepted
  match w.program with
  | none => false
  | some k => g.programs.zipIdx.any (fun p => decide (p.1.ctx = w.ctx) && decide (p.1.phase = w.phase) && (decide (p.2 = k) || p.1.cuts.contains k) &&
      g.plans.any (fun e => decide (some e.1 = (s.ctxEntry w.ctx).template) && decide (e.2.1 = w.phase) && e.2.2.contains p.2))

/-- An item's charge fits what remains of every budget it touches, with at most 16 switches on a core (R56, R60, R71, R380), its units take
work, its signals have been applied (R49, R374), and class-1 work has a context that may run it (R384)
and a program of the schedule (R538). -/
def itemFits (s : State) (p : Planning) (w : WorkItem) (us : List (Nat × Nat)) : Bool :=
  let next := (s.chargeItem p w us).led
  let st := s.ctxLive w.ctx
  us.all (fun u => !s.unitShut u.1 && decide (tget 0 next.units u.1 ≤ 3 * s.workNs)) &&
    w.flits.all (fun f => decide (tget 0 next.flits f.1 ≤ s.vcFlits (f.1 % 8))) &&
    w.eth.all (fun f => decide (tget 0 next.eth f.1 ≤ 50 * s.periodNs)) &&
    next.swaps.all (fun e => decide (e.2 ≤ 16)) &&
    fitsVec (chargeVec (s.itemEnergy w) w.mem) p.led.pool &&
    w.gates.all (fun g => match s.physOf g.1 with | some c => s.waitMetIn c w.ctx g.2 | none => false) &&
    (decide (w.cls ≠ 2) || (decide (1 ≤ st ∧ st ≤ 3) && s.planned w))

/-- Dispatch an item if it fits; what does not waits, whole (R71). -/
def offer (s : State) (p : Planning × List WorkItem) (w : WorkItem) : Planning × List WorkItem :=
  match s.itemUnits w with
  | none => (p.1, p.2 ++ [w])
  | some us =>
    if s.itemFits p.1 w us then
      let next := s.chargeItem p.1 w us
      ({ next with plan := { next.plan with items := next.plan.items ++ [w] } }, p.2)
    else (p.1, p.2 ++ [w])

/-- Dispatch fill work that waits, now that charges have returned (R59). -/
def fillMore (s : State) : State :=
  match s.fr.plans, s.fr.waiting with
  | p :: r, w :: ws =>
    let q := (w :: ws).foldl s.offer (⟨p, s.fr.ledger⟩, [])
    { s with fr := { s.fr with plans := q.1.plan :: r, ledger := q.1.led, waiting := q.2 } }
  | _, _ => s

/-- A charge that was not used returns to the frame: time on a unit, in thirds of ns, and energy (R59). -/
def giveBack (s : State) (u time energy : Nat) : State :=
  let l := s.fr.ledger
  let l := { l with units := addTbl (l.units.filter (fun e => decide (e.1 ≠ u))) [(u, tget 0 l.units u - time)],
                    pool := addVec l.pool (chargeVec energy []) }
  ({ s with fr := { s.fr with
      ledger := l, plans := match s.fr.plans with | p :: r => { p with charged := p.charged - energy } :: r | [] => [] } } : State).fillMore

/-- Time and energy beyond a charge: the unit's time first, so that fill work not yet dispatched there waits; energy from what is
unreserved, then from the reserve (R68, R183). -/
def takeMore (s : State) (u time energy : Nat) : State :=
  if time = 0 ∧ energy = 0 then s
  else
    let l := s.fr.ledger
    let free := l.pool.headD 0
    let l := { l with units := addTbl l.units [(u, time)], extra := addTbl l.extra [(u, time)],
                      pool := subVec l.pool (chargeVec energy []), reserve := l.reserve + (energy - free) }
    { s with fr := { s.fr with
      ledger := l, plans := match s.fr.plans with | p :: r => { p with charged := p.charged + energy } :: r | [] => [] } }

/-- Settle a charge against what was used (R59, R68). -/
def settle (s : State) (u charged used rate : Nat) : State :=
  if used ≤ charged then s.giveBack u (charged - used) (rate * (charged - used)) else s.takeMore u (used - charged) (rate * (used - charged))

end State

end Sys2Proof.Machine
end

