-- ==== Sys2Proof/Machine/Batts.lean ====
section
/-!
DEFINITION. Machine/Batts.lean: forward passes of the batts, their reference passes and correction, and shadow passes
(spec/03_batts.md R86 to R107, spec/05_formats_and_band_path.md R176 to R184, spec/12_faults_and_resets.md R393, spec/13_silent_errors.md
R423, R425). Readings of the analogue parts are operands (log entry 10).
-/
namespace Sys2Proof.Machine

namespace State

/-- The context that owns a batt's load, and the layer of its template that the batt serves (R138, R411). -/
def battLayer (s : State) (b : Nat) : Option (Nat × Nat × Layer) :=
  match (s.batt b).owner with
  | none => none
  | some c => match s.template c with
    | none => none
    | some t => (t.layers.zipIdx.find? (fun l => l.1.batts.any (fun i => decide (s.battOf i = b)))).map (fun l => (c, l.2, l.1))

/-- Stack address of a layer's committed master weights (R51, R381); `next` asks for the free slot. -/
def masterBase (s : State) (c l : Nat) (next : Bool) : Option Nat :=
  match s.template c with
  | none => none
  | some t => (t.tensors.find? (fun h => decide (h.layer = l) && h.weights)).map (fun h => (s.ctx c).slot h.master next)

/-- Committed master weight of row r and column j of a layer; 0 beyond the columns the layer uses. -/
def master (s : State) (c l : Nat) (y : Layer) (r j : Nat) : Word :=
  match s.masterBase c l false with
  | none => 0
  | some a => if r < y.rows ∧ j < y.cols then s.word (a + 4 * (r * y.cols + j)) else 0

/-- Programmed-image value pi of row r and column j (R125); -128 is the mark 0x80 (R127). -/
def pi_ (s : State) (b r j : Nat) : Int := (s.byte (s.imageAt b + r * 1024 + j)).toInt

/-- Scale s_g of column j (R83). -/
def sg (s : State) (b j : Nat) : Word := (s.batt b).scale.getD (j / 32) 0

/-- Number of the plan that executes (R135). -/
def planNumber (s : State) : Nat := match s.fr.plans with | p :: _ => p.number | [] => s.frame

end State

/-! Staging (R87, R178). -/

/-- Input code round_half_even(x / s_x); an infinite input is beyond every code, a NaN gives a free code (log entry 30). -/
def inputCode (sx : Int) (fr : Nat) (x : Word) : Int :=
  match (f32 x).scale (-sx) with
  | .nan => signedOf 8 (Config.freeNat fr % 256)
  | .inf n => if n then -1000 else 1000
  | v => roundHalfEven v

/-- A staged input: codes driven, static rows, dynamic rows on the band path, dynamic candidates and clamped ones (R87, R178). -/
structure Staged where
  codes : List Int
  static_ : List Nat
  band : List Nat
  cands : List Nat
  clamped : Nat
deriving DecidableEq, Repr

/-- Stage an input: static channels and up to 16 largest candidates go to the band path, further candidates are clamped (R178). -/
def stage (sx : Int) (fr : Nat) (static_ : List Nat) (xs : List Word) : Staged :=
  let raw := xs.zipIdx.map (fun p => (p.2, p.1, if static_.contains p.2 then 0 else inputCode sx (fr + p.2) p.1))
  let cands := raw.filter (fun p => decide (p.2.2 < -128 ∨ 127 < p.2.2))
  let order := sortBy (fun (a b : Nat × Word × Int) => flt (fabs b.2.1) (fabs a.2.1) || (fle (fabs b.2.1) (fabs a.2.1) && decide (a.1 ≤ b.1))) cands
  let band := (order.take 16).map (fun p => p.1)
  { codes := raw.map (fun p => if band.contains p.1 then 0 else max (-128) (min 127 p.2.2)), static_ := static_, band := band,
    cands := cands.map (fun p => p.1), clamped := cands.length - band.length }

/-- Row groups of a pass (R96), or the one group of a layer with row splitting off (R99); rows of code 0 are not driven. -/
def rowGroups (splitting : Bool) (codes : List Int) : List (List Nat) :=
  let live := codes.zipIdx.filter (fun p => decide (p.1 ≠ 0))
  let r := live.foldl (fun (g : List (List Nat) × List Nat × Nat) p =>
    let m := p.1.natAbs
    if splitting ∧ 32768 < g.2.2 + m then (g.1 ++ [g.2.1], [p.2], m) else (g.1, g.2.1 ++ [p.2], g.2.2 + m)) ([], [], 0)
  if r.2.1 = [] then r.1 else r.1 ++ [r.2.1]

/-- LSB of a sub-pass of R active rows in product units (R93). -/
def lsbUnits (rows : Nat) : Nat := if rows ≤ 16 then 508 * rows else if rows ≤ 64 then 254 * rows else if rows ≤ 256 then 127 * rows else 16256

/-- Clip a converter reading to the extended range of its resolution (R94). -/
def clipReading (bits : Nat) (v : Int) : Int := max (-(17 * 2 ^ (bits - 5))) (min (17 * 2 ^ (bits - 5)) v)

namespace State

/-- Remaining factor κ x r_t in force (R100, R105). -/
def krFactor (s : State) (b : Nat) : Word := f32Frac (s.seen F.BATT_GAIN_KAPPA b * s.seen F.BATT_GAIN_RANGE_TRIM b) (2 ^ 21)

/-- Y_j of a sub-pass for logical column j (R100 steps 1 and 2). -/
def subResult (s : State) (b rows j : Nat) (r : Int × Int) : Word :=
  let bits := passBits rows
  let col := tget j (s.batt b).colMap j
  let v := 16 * (clipReading bits r.1 + clipReading bits r.2) - s.calItem 0 b (4 * col + (bits - 6))
  let g := toF32 (ofInt (2 ^ 18 + s.calItem 1 b col) (-18))
  fmul (fmul (fmul (toF32 (ofInt v (-4))) g) (s.krFactor b)) (f32Nat (lsbUnits rows))

/-- Y of a column: the sub-passes' results in ascending order (R100 step 3). A dark column's converter output is discarded (R147). -/
def analogResult (s : State) (b : Nat) (groups : List (List Nat)) (readings : List (List (Int × Int))) (j : Nat) : Word :=
  if (s.batt b).dark.contains j then 0
  else fsum (groups.zipIdx.map (fun g => s.subResult b g.1.length j ((readings.getD g.2 []).getD j (0, 0))))

/-- The exact product of the codes with the programmed image, bytes 0x80 as zero (R135, R423). -/
def exactResult (s : State) (b : Nat) (codes : List Int) (j : Nat) : Int :=
  (codes.zipIdx.map (fun p => if s.pi_ b p.2 j = -128 then 0 else p.1 * s.pi_ b p.2 j)).foldl (· + ·) 0

/-- Applied input of a row (R180): x on the band path, s_x x a for a driven row. -/
def applied (sx : Int) (g : Staged) (xs : List Word) (r : Nat) : Word :=
  if g.static_.contains r ∨ g.band.contains r then bfRound (xs.getD r 0) else fmul (f32Pow2 sx) (f32Int (g.codes.getD r 0))

/-- Band contribution of column j (R180): static rows, dynamic rows, nap entries, then the master rows of a dark column, each product
exact and each sum rounded to FP32. -/
def bandSum (s : State) (b c l : Nat) (y : Layer) (sx : Int) (g : Staged) (xs : List Word) (j : Nat) : Word :=
  let dark := (s.batt b).dark.contains j
  let x := applied sx g xs
  let up := sortBy (fun (a b : Nat) => decide (a ≤ b))
  let acc := (up g.static_).foldl (fun a r => ffma (x r) (bfRound (s.master c l y r j)) a) 0
  let acc := if dark then acc else (up g.band).foldl (fun a r =>
    if s.pi_ b r j = -128 then a else ffma (x r) (bfRound (fmul (s.sg b j) (f32Int (s.pi_ b r j)))) a) acc
  let naps := sortBy (fun (m n : Nap) => decide (m.row ≤ n.row)) ((s.batt b).naps.filter (fun n => decide (n.col = j)))
  let acc := naps.foldl (fun a n => ffma n.delta (x n.row) a) acc
  if dark then ((List.range y.rows).filter (fun r => !g.static_.contains r)).foldl (fun a r => ffma (bfRound (s.master c l y r j)) (x r) a) acc
  else acc

/-- Element j of the layer's scale vector G (R572). -/
def gVec (s : State) (b : Nat) (sx : Int) (j : Nat) : Word := fmul (fmul (f32Nat 1016) (s.sg b j)) (f32Pow2 sx)

end State

/-- Round a finite value over n to an integer, ties to even; 0 for a NaN, and a limit for an infinity. -/
def roundDiv (v : FVal) (n : Nat) : Int :=
  match v with
  | .fin s m e => let p := scaleFrac m n e; smant s (roundInt .near s p.1 p.2)
  | .inf s => if s then -32768 else 32768
  | .nan => 0

namespace State

/-- The output of column j in the layer's format, and whether INT16 clamped it (R100 steps 4 to 6, R101). -/
def battOut (s : State) (b : Nat) (y : Layer) (sx : Int) (total band : Word) (j : Nat) : Nat × Bool :=
  let f := fmul (f32Pow2 sx) (s.sg b j)
  if y.outFmt = 0xE then
    let z := if band = 0 then total else fadd total (fmul band (fdiv 0x3F800000 f))
    let v := roundDiv (f32 z) 1016
    (((max (-32767) (min 32767 v)) % 2 ^ 16).toNat, decide (v < -32767 ∨ 32767 < v))
  else (bf16 (fadd (fmul f total) band), false)

/-- The output of column j of a stage on the matrix engine from its value y (R572). -/
def matrixOut (s : State) (b : Nat) (y : Layer) (sx : Int) (val : Word) (j : Nat) : Nat × Bool :=
  if y.outFmt = 0xE then
    let v := roundDiv (f32 (fdiv val (s.gVec b sx j))) 1
    (((max (-32767) (min 32767 v)) % 2 ^ 16).toNat, decide (v < -32767 ∨ 32767 < v))
  else (bf16 val, false)

/-- Where the stage of a layer runs in this frame (R135, R185): 0 on the batt, 1 INT8 on the matrix engine, 2 substitution. -/
def stageMode (s : State) (c l b : Nat) : Nat :=
  if s.substituted c l ∧ (s.layerSeen c l).subFrom ≤ s.planNumber then 2 else if rowOpFrame b s.planNumber then 1 else 0

/-! Matrix substitution (R185, R186, R253): weights narrowed from the committed master to MXFP8 E4M3 in blocks of 32 along the rows, tile by
tile, and activations the same way; a tile in trouble, or recorded at BF16, is BF16. -/

/-- Rung of a tile in the layer's escalation map as committed, none outside it (R174). -/
def tileRung (s : State) (c l tile : Nat) : Option Nat := ((s.layerSeen c l).esc.find? (fun e => decide (e.tile = tile))).map (fun e => e.rung)

/-- Names of the tiles that substitution narrows: tile (i, j) of the weights, tile i of the activations (log entry 186). -/
def subTile (weights : Bool) (i j : Nat) : Nat := if weights then 2 ^ 20 + 1024 * i + j else 2 ^ 21 + i

/-- The weights of the tile of rows 128 i on and columns 128 j on, by column: each column's part of an operand row. -/
def subWeights (s : State) (c l : Nat) (y : Layer) (i j : Nat) : Nat × List TileRow :=
  let cols := (List.range (min 128 (y.cols - 128 * j))).map (fun k => (List.range (min 128 (y.rows - 128 * i))).map (fun r =>
    f32 (s.master c l y (128 * i + r) (128 * j + k))))
  climbTile 0 1 s.freeCtr 2 ((s.tileRung c l (subTile true i j)).getD 5) cols

/-- The activations of a pass in tiles of 128 rows. -/
def subInputs (s : State) (c l : Nat) (y : Layer) (xs : List Word) (i : Nat) : Nat × List TileRow :=
  climbTile 1 0 s.freeCtr 2 ((s.tileRung c l (subTile false i 0)).getD 5)
    [(List.range (min 128 (y.rows - 128 * i))).map (fun r => f32 (xs.getD (128 * i + r) 0))]

/-- Value y of column k of a substituted stage (R185). -/
def subValue (s : State) (c l : Nat) (y : Layer) (xs : List Word) (k : Nat) : Word :=
  let none_ : TileRow := ⟨1, [], []⟩
  let is := List.range ((y.rows + 127) / 128)
  tileSum (is.map (fun i => (s.subInputs c l y xs i).2.headD none_)) (is.map (fun i => (s.subWeights c l y i (k / 128)).2.getD (k % 128) none_))

/-- Tiles of a pass's narrowings that climbed beyond the rung they began at, with the rung they reached. -/
def subClimbs (s : State) (c l : Nat) (y : Layer) (xs : List Word) : List (Nat × Nat) :=
  ((List.range ((y.rows + 127) / 128)).map (fun i => (subTile false i 0, (s.subInputs c l y xs i).1))).filter (fun e =>
    decide ((s.tileRung c l e.1).getD 5 ≠ e.2))

/-- Weight tiles that climb as they are narrowed for substitution (R186 steps 2 and 4). -/
def weightClimbs (s : State) (c l : Nat) (y : Layer) : List (Nat × Nat) :=
  ((List.range ((y.rows + 127) / 128)).flatMap (fun i => (List.range ((y.cols + 127) / 128)).map (fun j =>
    (subTile true i j, (s.subWeights c l y i j).1)))).filter (fun e => decide ((s.tileRung c l e.1).getD 5 ≠ e.2))

/-- Matrix cycles of a substituted stage in thirds of ns (R173, R185): 4,096 products a cycle where both tiles are narrow, else 2,048. -/
def subTime (s : State) (c l : Nat) (y : Layer) (xs : List Word) : Nat :=
  let macs := ((List.range ((y.rows + 127) / 128)).flatMap (fun i => (List.range ((y.cols + 127) / 128)).map (fun j =>
    let n := min 128 (y.rows - 128 * i) * min 128 (y.cols - 128 * j)
    if isNarrow (s.subInputs c l y xs i).1 && isNarrow (s.subWeights c l y i j).1 then n else 2 * n))).foldl (· + ·) 0
  2 * ((macs + 4095) / 4096)

/-- Outputs of a stage by logical column (R100, R135, R185). -/
def stageOuts (s : State) (b c l : Nat) (y : Layer) (sx : Int) (g : Staged) (o : BattPass) : List (Nat × Bool) :=
  let groups := rowGroups y.splitting g.codes
  (List.range y.cols).map (fun j =>
    match s.stageMode c l b with
    | 0 => s.battOut b y sx (s.analogResult b groups o.readings j) (s.bandSum b c l y sx g o.xs j) j
    | 1 => s.matrixOut b y sx (fadd (fmul (fmul (f32Pow2 sx) (s.sg b j)) (f32Int (s.exactResult b g.codes j))) (s.bandSum b c l y sx g o.xs j)) j
    | _ => s.matrixOut b y sx (s.subValue c l y o.xs j) j)

/-- Q of a pass: its j-th largest input magnitude off the static list, j = 17 with at least 64 such channels, else 1 (R166). -/
def passQ (static_ : List Nat) (xs : List Word) : Word :=
  let l := (xs.zipIdx.filter (fun p => !static_.contains p.2)).map (fun p => fabs p.1)
  (sortBy (fun a b => fle b a) l).getD (if 64 ≤ l.length then 16 else 0) 0

/-- What a pass leaves in its layer: Q, candidates, clamps, loud adapted rows, and the frame of a class-0 pass beyond its charge (R68, R166,
R178, R179). -/
def layerPass (s : State) (c l : Nat) (g : Staged) (o : BattPass) (beyond : Bool) : State :=
  s.updLayer c l (fun y => { y with
    q := fmaxAbs y.q (passQ g.static_ o.xs), passes := y.passes + 1,
    cand := g.cands.foldl (fun t r => tset 0 t r (tget 0 t r + 1)) y.cand,
    overflow := if o.recompute then y.overflow else y.overflow + g.clamped,
    loud := (y.staticRows.filter (fun r => r.2 && !y.loud.contains r.1 &&
      fle (fmul 0x42800000 (f32Pow2 y.sx)) (fabs (o.xs.getD r.1 0)))).foldl (fun m r => m ++ [r.1]) y.loud,
    overs := if beyond then y.overs ++ [s.frame] else y.overs })

/-- Counters of a pass on the batt (R95, R96, R99, R111, R115). -/
def countPass (s : State) (b : Nat) (y : Layer) (groups : List (List Nat)) (o : BattPass) : State :=
  let s := s.bump F.BATT_PASSES_PASSES b (max 1 groups.length)
  let s := if groups = [] then s.bump F.BATT_SPLITS_ZERO_PASSES b 1 else s
  let s := if 2 ≤ groups.length then s.bump F.BATT_SPLITS_SPLITS b 1 else s
  let clipped := groups.zipIdx.any (fun g => ((o.readings.getD g.2 []).take y.cols).any (fun r =>
    decide (clipReading (passBits g.1.length) r.1 ≠ r.1 ∨ clipReading (passBits g.1.length) r.2 ≠ r.2)))
  let s := if y.splitting = false ∧ clipped then (s.bump F.BATT_FAULTS_BATT_CLIPS b 1).raise F.BATT_EVT_CLIPPED b else s
  if s.battHot b then s.raise F.BATT_EVT_HOT b else s

/-- A clamped candidate marks the query's result (R184). -/
def markClamped (s : State) (num : Nat) : State :=
  { s with fr := { s.fr with plans := s.fr.plans.map (fun p => { p with queries := p.queries.map (fun q =>
    if q.num = num then { q with clamped := true } else q) }) } }

/-- Write a stage's outputs to the batt's output buffer in turn (R211), count INT16 clamps (R101). -/
def writeOuts (s : State) (b : Nat) (outs : List (Nat × Bool)) : State :=
  let u := if (s.batt b).outParity then 1 else 0
  let s := s.setBytes (accAddr (b / 8) (0x20000 + b % 8 * 0x1000 + u * 0x800)) (outs.flatMap (fun v => leBytes 2 v.1))
  let n := (outs.filter (fun v => v.2)).length
  let s := s.updBatt b (fun x => { x with outParity := !x.outParity })
  if n = 0 then s else (s.bump F.BATT_FAULTS_BATT_I16_CLAMPS b n).raise F.BATT_EVT_I16_CLAMP b

/-- Whether a frame charges a batt's forward work: a query's point, or an item of the context that reserves the batt (R58). -/
def passCharged (s : State) (b c : Nat) (o : BattPass) : Bool :=
  o.query.isSome || match s.fr.plans with
  | p :: _ => p.items.any (fun w => decide (w.ctx = c) && ((s.itemUnits w).getD []).any (fun u => decide (u.1 = battUnit b)))
  | [] => false

/-- Settle what a stage was charged against what ran (R59, R68, R173, R183): the sub-passes on the batt, 4 ns for a pass without active rows
(R58), the narrow rate of a substituted stage, and the band engine's cycles. -/
def settlePass (s : State) (b c l : Nat) (y : Layer) (g : Staged) (groups : List (List Nat)) (mode : Nat) (o : BattPass) : State :=
  if s.passCharged b c o then
    let u := b / 8 * 16
    let s := match mode with
      | 0 => s.settle (battUnit b) (s.passStage c l y) (if groups = [] then 12 else (groups.map (fun (r : List Nat) => 3 * passTime r.length)).foldl (· + ·) 0) 850
      | 2 => s.settle u (2 * ((y.rows * y.cols + 2047) / 2048)) (s.subTime c l y o.xs) 11700
      | _ => s
    let band := if mode = 2 then 0 else g.static_.length + g.band.length + ((s.batt b).naps.length + 1023) / 1024 + (s.batt b).dark.length
    s.settle (u + 2) (2 * s.bandCycles c l y) (2 * band) 1200
  else s

/-- What a FORWARD saves of a batt layer's input (R246): a byte for each code, BF16 of each static row's input, and 64 bytes that hold row
number and BF16 of each dynamic row, the rest 0 (log entry 187). -/
def savedInput (g : Staged) (xs : List Word) : List Byte :=
  let dyn := (sortBy (fun (a b : Nat) => decide (a ≤ b)) g.band).flatMap (fun r => leBytes 2 r ++ leBytes 2 (bf16 (xs.getD r 0)))
  g.codes.map (fun a => BitVec.ofInt 8 a) ++ (sortBy (fun (a b : Nat) => decide (a ≤ b)) g.static_).flatMap (fun r => leBytes 2 (bf16 (xs.getD r 0))) ++
    dyn ++ List.replicate (64 - dyn.length) 0

/-- Rows that the band path takes in every pass of a batt: the static list as committed, and worn rows that found no room in it (R127, R144). -/
def bandRows (s : State) (b c l : Nat) : List Nat :=
  let st := (s.layerSeen c l).staticRows.map (fun r => r.1)
  st ++ (s.batt b).worn.filter (fun r => !st.contains r)

/-- A pass of a layer on its batt, or of its stage on the matrix engine; a substituted stage drives no codes, so it has no candidates and
clamps none (R178, R185). -/
def passOn (s : State) (b c l : Nat) (y : Layer) (o : BattPass) : State :=
  let seen := s.layerSeen c l
  let g := stage seen.sx s.freeCtr (s.bandRows b c l) (o.xs.take y.rows)
  let groups := rowGroups y.splitting g.codes
  let mode := s.stageMode c l b
  let g := if mode = 2 then { g with cands := [], clamped := 0 } else g
  let outs := s.stageOuts b c l y seen.sx g o
  let beyond := decide (mode = 0) && o.query.isSome && decide (s.subpasses c l y < groups.length)
  let s := (if mode = 2 then (s.subClimbs c l y o.xs).foldl (fun s e => s.escalate c l e.1 5 e.2) s else s).settlePass b c l y g groups mode o
  let s := (s.skipDraws 1024).trace (b / 8) (8 + b % 8) 1 c
  let s := if mode = 0 then (s.countPass b y groups o).updBatt b (fun x => { x with ran := true }) else s
  let s := match o.save with | some a => (if o.recompute ∨ mode = 2 then s else s.setBytes a (savedInput g o.xs)) | none => s
  let s := s.layerPass c l g o beyond
  let s := if g.clamped = 0 ∨ o.recompute = true then s else s.bump F.BAND_OVF_OVF c g.clamped
  let s := match o.query with | some n => (if g.clamped = 0 then s else s.markClamped n) | none => s
  (s.writeOuts b outs).trace (b / 8) (8 + b % 8) 2 c

/-- A stage may run (R53, R117, R151): a substituted one always, the others on a batt without unsound rows, and on the batt itself only in
a frame in which it has performed no row operation. -/
def serves (s : State) (c l b : Nat) : Bool :=
  let mode := s.stageMode c l b
  decide (mode = 2) || (!(s.unblocked c).any (fun u => decide (u.1 = b)) && (decide (mode = 1) || !(s.batt b).busy))

end State

/-- BATT_PASS (R86 to R101): a forward of the batt's own layer; in a row-operation frame forward work outside class 0 is deferred (R135). -/
def execBattPass (o : BattPass) (s : State) : Outcome :=
  .next (match s.battLayer o.batt with
    | none => s
    | some (c, l, y) =>
      if s.mayRun (o.batt / 8) (8 + o.batt % 8) = true ∧ l = o.layer ∧ s.serves c l o.batt = true ∧
          (o.query.isSome ∨ s.stageMode c l o.batt ≠ 1) then s.passOn o.batt c l y o else s)

/-- NUM_SPLIT_RAISED (R68): more passes beyond their charge in 1,000 frames than SPLIT_LIMIT raise s_l of each such layer at the tick. -/
def execNumSplitRaised (ctx : Nat) (s : State) : Outcome :=
  .next (
    let keep := fun (l : List Nat) => l.filter (fun n => decide (s.frame < n + 1000))
    let n := ((s.ctx ctx).layers.map (fun e => (keep e.2.overs).length)).foldl (· + ·) 0
    if s.pol 0x18 < n then
      (s.updCtx ctx (fun x => { x with layers := x.layers.map (fun e =>
        (e.1, if keep e.2.overs = [] then e.2 else { e.2 with raising := 1, overs := [] })) })).eventOpen 0x0605 6 ctx
    else s)

/-! Reference passes (R102 to R107, R425). -/

/-- κ_k of a block from the sums of its P and Z readings in 1/16 LSB over n passes, at a range trim, as a fraction (R103): 64 rows at
7 bits, LSB 16,256 product units. -/
def blockRatio (n : Nat) (diff : Int) (trim : Nat) : Nat × Nat := (983040 * n * 16 * 128, diff.toNat * 16256 * trim)

/-- κ_k lies within 0.70 to 2.00 (R104). -/
def ratioOk (k : Nat × Nat) : Bool := decide (0 < k.2) && decide (70 * k.2 ≤ 100 * k.1) && decide (k.1 ≤ 2 * k.2)

/-- κ: the mean of the latest κ_k of the 16 blocks, with 14 fraction bits, to the nearest with ties to even (R103); a block not yet read
counts as 1.0. -/
def kappaOf (t : Tbl (Nat × Nat)) : Nat :=
  let ks := (List.range 16).map (fun k => tget (1, 1) t k)
  let sum := ks.foldl (fun (a : Nat × Nat) k => (a.1 * k.2 + k.1 * a.2, a.2 * k.2)) (0, 1)
  min (2 ^ 16 - 1) (roundInt .near false (sum.1 * 2 ^ 14) (16 * sum.2))

/-- Range trim round(128 / κ), ties to even (R105). -/
def trimOf (kappa : Nat) : Nat := min 255 (roundInt .near false (128 * 2 ^ 14) (max 1 kappa))

namespace State

/-- Show κ and the range trim of a batt; they are in force from the tick (R103, R105). -/
def showKappa (s : State) (b : Nat) : State :=
  let k := kappaOf (s.batt b).refSum
  (s.put F.BATT_GAIN_KAPPA b k).put F.BATT_GAIN_RANGE_TRIM b (trimOf k)

/-- Repeated discards are a finding of kind 5: the layer moves to matrix substitution (R425). -/
def refRepeat (s : State) (b k : Nat) : State :=
  let s := ((s.finding 5 (some (b / 8)) 3 b k).bump F.FLT_SHADOW_REF_REPEAT b 1).raise F.FLT_SE_EVT_REF_REPEAT 0
  let s := s.updBatt b (fun x => { x with refRun := [], refWin := [] })
  match s.battLayer b with
  | some (c, l, _) => s.updLayer c l (fun y => { y with
      refLost := true, subFrom := if y.rescale ∨ y.refLost ∨ 0 < y.fallback then y.subFrom else s.planNumber + 3 })
  | none => s

/-- A discarded block reading (R104, R425). -/
def refDiscard (s : State) (b k : Nat) : State :=
  let x := s.batt b
  let win := (x.refWin ++ [s.frame]).filter (fun n => decide (s.frame < n + 256))
  let s := ((s.bumpSat F.BATT_FAULTS_REF_DISCARDS b 1).raise F.BATT_EVT_REF_FAIL b).updBatt b (fun x => { x with
    refRun := if x.refRun.contains k then x.refRun else x.refRun ++ [k], refWin := win })
  if x.refRun.contains k ∨ 4 ≤ win.length then s.refRepeat b k else s

/-- One batt's reference reading of block k (R102 to R105). Reference passes count in no pass counter and set no HOT bit (log entry 188). -/
def refRead (k : Nat) (s : State) (o : RefSlot) : State :=
  let diff := o.p.foldl (· + ·) 0 - o.z.foldl (· + ·) 0
  let r := blockRatio o.p.length diff (s.seen F.BATT_GAIN_RANGE_TRIM o.batt)
  let s := s.put F.BATT_GAIN_REF_BLOCK o.batt k
  if ratioOk r then
    (s.updBatt o.batt (fun x => { x with refSum := tput x.refSum k r, refRun := x.refRun.filter (fun j => decide (j ≠ k)) })).showKappa o.batt
  else s.refDiscard o.batt k

/-- One block of a full reference read at the trim in force when it began (R104, R106): a block out of range keeps its value, counts, and sets
REF_FAIL. -/
def refFull (trims : List (Nat × Nat)) (s : State) (r : RefReading) : State :=
  let diff := r.p.foldl (· + ·) 0 - r.z.foldl (· + ·) 0
  let k := blockRatio r.p.length diff (((trims.find? (fun e => decide (e.1 = r.batt))).map (fun e => e.2)).getD (s.get F.BATT_GAIN_RANGE_TRIM r.batt))
  if ratioOk k then (s.updBatt r.batt (fun x => { x with refSum := tput x.refSum r.block k })).showKappa r.batt
  else (s.bumpSat F.BATT_FAULTS_REF_DISCARDS r.batt 1).raise F.BATT_EVT_REF_FAIL r.batt

/-- Full reads of batts' reference blocks, each at its batt's trim before the first of them (R106). -/
def refReads (s : State) (l : List RefReading) : State :=
  l.foldl (State.refFull (l.map (fun r => (r.batt, s.get F.BATT_GAIN_RANGE_TRIM r.batt)))) s

/-- Rebuild the persistent scratchpad regions of a core from their stack homes (R393, R539). -/
def rebuildRegions (s : State) (p : Nat) : State :=
  match s.logicalOf p with
  | none => s
  | some l => (s.img.accepted.persist.filter (fun g => decide (g.core = l))).foldl
      (fun s g => s.setSp p g.offset (s.bytes g.home g.length)) s

end State

/-- REFERENCE_PASSES (R102): in the reference slot of frame n, block n mod 16 of each batt. -/
def execReferencePasses (reads : List RefSlot) (s : State) : Outcome :=
  .next (if s.phase = 1 then reads.foldl (State.refRead (s.frame % 16)) s else s)

/-- REF_RECOVERY_COMPLETE (R425): the single-batt drift check and its re-blocks are done. -/
def execRefRecoveryComplete (batt : Nat) (s : State) : Outcome :=
  .next (match s.battLayer batt with
    | none => s
    | some (c, l, _) =>
      if (s.layer c l).refLost = true ∧ (s.unblocked c).all (fun u => decide (u.1 ≠ batt)) = true then
        ((s.updLayer c l (fun y => { y with refLost := false })).put F.BATT_FAULTS_REF_DISCARDS batt 0).updBatt batt (fun x => { x with refRun := [], refWin := [] })
      else s)

/-- RESET_REBUILD (R393, R106): persistent regions are rebuilt and κ is read; then the core serves again. -/
def execResetRebuild (core : Nat) (readings : List RefReading) (s : State) : Outcome :=
  .next (if (s.core core).rebuilding = true ∧ (s.core core).resetting = none then
      let s := (s.rebuildRegions core).refReads (readings.filter (fun r => decide (r.batt / 8 = core)))
      s.updCore core (fun x => { x with rebuilding := false })
    else s)

/-! Shadow passes (R423, R424). -/

/-- A finite FP32 value times 2^149, an integer. -/
def fixed149 (w : Word) : Int :=
  match f32 w with
  | .fin n m e => smant n (m * 2 ^ (e + 149).toNat)
  | _ => 0

namespace State

/-- d_j times L x 2^149 by logical column not dark (R423). -/
def shadowDiffs (s : State) (b : Nat) (y : Layer) (o : ShadowOp) : List (Nat × Int) :=
  ((List.range y.cols).filter (fun j => !(s.batt b).dark.contains j)).map (fun j =>
    (j, fixed149 (o.ys.getD j 0) - s.exactResult b o.codes j * 2 ^ 149))

/-- The shadow finds a mismatch: rms above 2.0 or any difference above 12 LSB (R423). -/
def shadowBad (l : List (Nat × Int)) (lsb : Nat) : Bool :=
  let unit := lsb * 2 ^ 149
  l.any (fun d => decide (12 * unit < d.2.natAbs)) ||
    decide (4 * l.length * (unit * unit) < (l.map (fun d => d.2.natAbs * d.2.natAbs)).foldl (· + ·) 0)

end State

/-- SHADOW_PASS (R423, R424): a mismatch is a finding of kind 4 and starts a fulling pass. -/
def execShadowPass (o : ShadowOp) (s : State) : Outcome :=
  .next (match s.battLayer o.batt with
    | none => s
    | some (_, _, y) =>
      if s.battHot o.batt = true ∨ s.phase ≠ 1 then s
      else
        let l := s.shadowDiffs o.batt y o
        let s := s.bump F.FLT_SHADOW_SHADOWS o.batt 1
        if State.shadowBad l o.lsb then
          let worst := l.foldl (fun (m : Nat × Int) d => if m.2.natAbs < d.2.natAbs then d else m) (0, 0)
          (((s.finding 4 (some (o.batt / 8)) 3 o.batt worst.1).bump F.FLT_SHADOW_MISMATCH o.batt 1).raise F.FLT_SE_EVT_SHADOW 0).updBatt
            o.batt (fun x => { x with fulNow := true })
        else s)

end Sys2Proof.Machine
end

