-- ==== Sys2Proof/Machine/Blocking.lean ====
section
/-!
DEFINITION. Machine/Blocking.lean: row operations, the programmed image, transfers from the master, fulling, wear, spare columns and batt
records (spec/04_blocking_and_fulling.md). Levels of cells are in 1/64 as the verify reads resolve them (R121).
-/
namespace Sys2Proof.Machine

/-! Cells of a weight (R79, R80, R122, R123). -/

/-- Composite reading 8 (G+ - G-) + (g+ - g-) in 1/64 q unit (R79). -/
def composite (l : List Int) : Int := 8 * (l.getD 0 0 - l.getD 1 0) + (l.getD 2 0 - l.getD 3 0)

/-- round_half_toward_zero(q / 8) limited to ±15 (R80). -/
def dMajor (q : Int) : Int :=
  let k : Int := (q.natAbs + 3) / 8
  max (-15) (min 15 (if q < 0 then -k else k))

/-- Nominal cell word of a weight code (R80). -/
def cellWord (q : Int) : Nat :=
  let d := dMajor q
  let m := q - 8 * d
  2 ^ 12 * (max d 0).toNat + 2 ^ 8 * (max (-d) 0).toNat + 2 ^ 4 * (max m 0).toNat + (max (-m) 0).toNat

/-! The course of a blocking operation (R119, R122 to R124). The reads of a column are its verify reads in the order of the iterations, so
that the last one is that of iteration i for a list of length i. -/

/-- A cell reads within 0.30 level of level t (R122). -/
def nearLevel (t v : Int) : Bool := decide ((v - 64 * t).natAbs * 10 ≤ 192)

/-- The major pair lies within its windows around the nominal cell word of q (R80, R122). -/
def majorIn (q : Int) (l : List Int) : Bool := nearLevel (max (dMajor q) 0) (l.getD 0 0) && nearLevel (max (-(dMajor q)) 0) (l.getD 1 0)

/-- The composite lies within 0.50 q unit of the code (R122). -/
def minorIn (q : Int) (l : List Int) : Bool := decide ((composite l - 64 * q).natAbs ≤ 32)

/-- The major pair has come into its window in one of the iterations to 7 (R122). -/
def majorDone (q : Int) (h : List (List Int)) : Bool := (h.take 7).any (majorIn q)

/-- Every cell of the column is in its window at the iteration (R119): the major phase is over and the composite in window. -/
def columnDone (q : Int) (h : List (List Int)) : Bool := (majorDone q h || decide (8 ≤ h.length)) && minorIn q (h.getLastD [])

/-- A cell of the column is selected for a pulse at the iteration (R119, R122): major cells to iteration 7, minor ones from the iteration
after the major pair came in or from 8. -/
def columnPulsed (q : Int) (h : List (List Int)) : Bool :=
  (!majorDone q h && decide (h.length ≤ 7)) || ((majorDone q h.dropLast || decide (8 ≤ h.length)) && !minorIn q (h.getLastD []))

/-- The difference e at the start of the minor phase in 1/64 q unit, from the major read-back (R122): the read that found the pair in
window, else that of iteration 8 (log entry 183). -/
def minorErr (q : Int) (h : List (List Int)) : Int :=
  let l := match (h.take 7).find? (majorIn q) with | some l => l | none => (h.take 8).getLastD []
  64 * q - 8 * (l.getD 0 0 - l.getD 1 0)

/-- How a weight ends a blocking operation (R123): 0 converged, 1 short, 2 stuck. -/
def weightOutcome (q : Int) (h : List (List Int)) : Nat :=
  let l := h.getLastD []
  let err := (composite l - 64 * q).natAbs
  if 128 < err ∨ l.any (fun c => decide (c < -32 ∨ 992 < c)) = true ∨ 960 < (minorErr q h).natAbs then 2 else if 32 < err then 1 else 0

/-- Cells of a reference column outside their windows at the end, by number (R85, R124): major cells beyond 0.30 level, and both minor cells
with the composite beyond 0.50 (log entry 183). -/
def badCells (q : Int) (l : List Int) : List Nat :=
  (if nearLevel (max (dMajor q) 0) (l.getD 0 0) then [] else [0]) ++ (if nearLevel (max (-(dMajor q)) 0) (l.getD 1 0) then [] else [1]) ++
    (if minorIn q l then [] else [2, 3])

/-- Code of a reference column (R85): column P holds 120, column Z 0. -/
def refCode (p : Nat) : Int := if p = 1056 then 120 else 0

/-- The verify reads of a column in the iterations of an operation. -/
def readsOf (iters : List (List (Nat × List Int))) (p : Nat) : List (List Int) :=
  iters.map (fun it => ((it.find? (fun e => decide (e.1 = p))).map (fun e => e.2)).getD [])

/-- An operation on columns with target codes ends at the iteration (R119): everything is in window, or it is the twelfth. -/
def opEnds (code : Nat → Int) (cols : List Nat) (iters : List (List (Nat × List Int))) : Bool :=
  decide (12 ≤ iters.length) || cols.all (fun p => columnDone (code p) (readsOf iters p))

/-- The iterations of an operation up to its end, none while it has not ended (R119). -/
def opRun (code : Nat → Int) (cols : List Nat) (iters : List (List (Nat × List Int))) : Option (List (List (Nat × List Int))) :=
  ((List.range iters.length).map (fun k => iters.take (k + 1))).find? (opEnds code cols)

/-- Some cell was pulsed: one was selected in an iteration before the last (R119). -/
def opPulsed (code : Nat → Int) (cols : List Nat) (iters : List (List (Nat × List Int))) : Bool :=
  (List.range (iters.length - 1)).any (fun k => cols.any (fun p => columnPulsed (code p) (readsOf (iters.take (k + 1)) p)))

/-- Cells of the reference columns that an operation leaves outside their windows, as column x 4 + cell. -/
def opBad (cols : List Nat) (iters : List (List (Nat × List Int))) : List Nat :=
  (cols.filter (fun p => decide (1056 ≤ p))).flatMap (fun p => (badCells (refCode p) ((readsOf iters p).getLastD [])).map (fun k => 4 * p + k))

/-- Programmed-image byte of a read-back, to the nearest whole q unit with ties to even (R125); 0x80 is not a weight value (R82). -/
def imageByte (l : List Int) : Byte := BitVec.ofInt 8 (max (-127) (min 127 (divEven (composite l) 64)))

namespace State

/-- Scale of a column as the batt is being blocked: the scales of a load in progress (R167), else those in force. -/
def scaleOf (s : State) (b j : Nat) : Word := ((s.batt b).newScale.getD (s.batt b).scale).getD (j / 32) 0

/-- Scaled master t of a weight (R130). -/
def scaled (s : State) (b c l : Nat) (y : Layer) (r j : Nat) : Word := fdiv (s.master c l y r j) (s.scaleOf b j)

/-- Target code of a weight: its committed master in q units (R130, R133). -/
def target (s : State) (b c l : Nat) (y : Layer) (r j : Nat) : Int :=
  if s.master c l y r j &&& 0x7FFFFFFF = 0 then 0 else max (-127) (min 127 (roundHalfEven (f32 (s.scaled b c l y r j))))

/-- Column-group scales of a load (R167): M_g / 120, at least 2^-126; those that the image gives, in a load from its template or a MODEL
package. -/
def formScales (s : State) (c l : Nat) (y : Layer) : List Word :=
  if y.scales ≠ [] ∧ (s.ctx c).loading.any (fun r => !r.restore) = true then y.scales
  else (List.range 32).map (fun g =>
    let m := (List.range 32).foldl (fun (a : Word) k => (List.range y.rows).foldl (fun a r => fmaxAbs a (s.master c l y r (32 * g + k))) a) 0
    let v := fdiv m 0x42F00000
    if Machine.flt v 0x00800000 then 0x00800000 else v)

/-- The column of the weights that physical column p holds: its logical column, or the one it is being filled for (R118, R146). -/
def weightCol (s : State) (b p : Nat) : Option Nat :=
  match s.logicalCol b p with
  | some j => some j
  | none => ((s.batt b).filling.find? (fun f => decide (f.spare = p))).map (fun f => f.col)

/-- Count faults of a physical column (R145); a stuck weight in service darkens its column (R123, R146). -/
def columnFault (s : State) (b r p outcome : Nat) : State :=
  if outcome = 0 then s
  else
    let step := if outcome = 2 then 8 else if tget 0 (s.batt b).wear r ≤ 500000 then 1 else 2
    let s := s.updBatt b (fun x => { x with
      colFaults := tset 0 x.colFaults p (min 15 (tget 0 x.colFaults p + step)),
      faulted := if x.faulted.contains p then x.faulted else x.faulted ++ [p] })
    if outcome = 1 then s.raise F.BLK_EVT_SHORT b
    else
      let s := s.raise F.BLK_EVT_STUCK b
      match s.logicalCol b p with
      | some j => s.updBatt b (fun x => { x with newDark := if x.newDark.contains j ∨ x.dark.contains j then x.newDark else x.newDark ++ [j], recordDue := true })
      | none => s

/-- The row's wear counter rises when any cell was pulsed (R142). -/
def wearRow (s : State) (b r : Nat) (pulsed : Bool) : State :=
  if pulsed then
    let n := tget 0 (s.batt b).wear r + 1
    (s.updBatt b (fun x => { x with wear := tset 0 x.wear r n })).put F.BLK_WEAR_ROW_WEAR_MAX b (max (s.get F.BLK_WEAR_ROW_WEAR_MAX b) n)
  else s

/-- One operation's cells: they hold what it left whatever becomes of the frame (R137). -/
def setCells (s : State) (b r : Nat) (reads : List (Nat × List Int)) : State :=
  s.updBatt b (fun x => { x with cells := reads.foldl (fun t p =>
    p.2.zipIdx.foldl (fun t v => tset 0 t ((r * 1058 + p.1) * 4 + v.2) v.1) t) x.cells })

/-- Row r of a batt is worn, or in its layer's static list and not about to leave it (R127, R177, R179). -/
def isStatic (s : State) (b r : Nat) : Bool :=
  (s.batt b).worn.contains r || match s.battLayer b with
  | none => false
  | some (c, l, _) => (s.layer c l).staticRows.any (fun e => decide (e.1 = r)) && !(s.layer c l).leaving.contains r

/-- Bytes of row r that an operation forms (R125, R127, R177): 0x80 in a dark column and in a static row. -/
def rowBytes (s : State) (b r : Nat) (reads : List (Nat × List Int)) : List (Nat × Byte) :=
  reads.filterMap (fun p => match s.logicalCol b p.1 with
    | some j => some (j, if (s.batt b).dark.contains j || s.isStatic b r then 0x80 else imageByte p.2)
    | none => none)

/-- Bytes of spare columns being filled (R146). -/
def fillRows (s : State) (b r : Nat) (reads : List (Nat × List Int)) : State :=
  s.updBatt b (fun x => { x with filling := x.filling.map (fun f =>
    match reads.find? (fun p => decide (p.1 = f.spare)) with
    | some p => { f with rows := (f.rows.filter (fun e => decide (e.1 ≠ r))) ++ [(r, imageByte p.2)] }
    | none => f) })

/-- Verify records of a row (R126): 1/16 level in one byte a cell, kept within 0 to 255 (log entry 184). -/
def verifyOf (r : Nat) (reads : List (Nat × List Int)) : List (Nat × Byte) :=
  reads.flatMap (fun p => p.2.zipIdx.map (fun v =>
    ((r * 1058 + p.1) * 4 + v.2, BitVec.ofInt 8 (max 0 (min 255 (divEven v.1 4))))))

/-- The columns that an operation writes (R118): those of the weights, spares being filled, and the reference columns; of them the ones that
its first iteration reads (log entry 10). -/
def written (s : State) (b : Nat) (t : RowTry) : List Nat :=
  ((t.iters.headD []).map (fun p => p.1)).filter (fun p => decide (p = 1056 ∨ p = 1057) || (s.weightCol b p).isSome)

/-- Target code of a physical column: that of its weight, or of its reference cells (R85, R130). -/
def colCode (s : State) (b : Nat) (target : Nat → Int) (p : Nat) : Int :=
  match s.weightCol b p with
  | some j => target j
  | none => refCode p

/-- One operation of a row: its columns, its iterations up to its end, and its reference cells outside their windows. -/
def oneRun (s : State) (b : Nat) (target : Nat → Int) (t : RowTry) : Option (List Nat × List (List (Nat × List Int)) × List Nat) :=
  let cols := s.written b t
  (opRun (s.colCode b target) cols t.iters).map (fun run => (cols, run, opBad cols run))

/-- The operations on a row, in order: a second one at once if the first leaves a reference cell outside its window (R124); none while one
of them has not ended. -/
def rowRuns (s : State) (b : Nat) (target : Nat → Int) (tries : List RowTry) : Option (List (List Nat × List (List (Nat × List Int)) × List Nat)) :=
  match s.oneRun b target (tries.headD ⟨[]⟩) with
  | none => none
  | some a => if a.2.2 = [] then some [a] else (s.oneRun b target (tries.getD 1 ⟨[]⟩)).map (fun z => [a, z])

/-- What the last verify of an operation read in the columns it wrote. -/
def lastReads (a : List Nat × List (List (Nat × List Int)) × List Nat) : List (Nat × List Int) :=
  (a.2.1.getLastD []).filter (fun p => a.1.contains p.1)

/-- One operation leaves its cells, and wear if it pulsed (R137, R142). -/
def runCells (b r : Nat) (code : Nat → Int) (s : State) (a : List Nat × List (List (Nat × List Int)) × List Nat) : State :=
  (s.wearRow b r (opPulsed code a.1 a.2.1)).setCells b r (lastReads a)

/-- Judge the weights of the last operation by column (R123). -/
def judgeRow (s : State) (b r : Nat) (code : Nat → Int) (a : List Nat × List (List (Nat × List Int)) × List Nat) : State :=
  (a.1.filter (fun p => (s.weightCol b p).isSome)).foldl (fun s p => s.columnFault b r p (weightOutcome (code p) (readsOf a.2.1 p))) s

/-- A reference cell that fails in both operations (R124): it is a failed test of the core. -/
def judgeRefs (s : State) (b : Nat) (runs : List (List Nat × List (List (Nat × List Int)) × List Nat)) : State :=
  match runs with
  | [a, z] => if a.2.2.any (fun k => z.2.2.contains k) then (s.raise F.BLK_EVT_REF_BLOCK_FAIL b).failTest (b / 8) else s
  | _ => s

/-- Iterations that never ran return to the frame (R59, R119): k iterations take (k - 1) x 400 + 250 ns and a twelfth of the charge's energy
each. -/
def settleRow (s : State) (b : Nat) (ks : List Nat) : State :=
  let left := tget 0 s.fr.ledger.blocks b
  if left = 0 then s
  else
    let s : State := { s with fr := { s.fr with ledger := { s.fr.ledger with blocks := tset 0 s.fr.ledger.blocks b (left - 1) } } }
    let used := (ks.map (fun k => 1200 * (k - 1) + 750)).foldl (· + ·) 0
    let energy := 1350000 * ks.foldl (· + ·) 0
    if used ≤ 14400 then s.giveBack (battUnit b) (14400 - used) (blockEnergy - energy)
    else s.takeMore (battUnit b) (used - 14400) (energy - blockEnergy)

/-- What the operations on a row leave in the array: wear, cells, column faults against the targets by column, and the reference cells
(R118 to R124, R142). -/
def blockCells (s : State) (o : RowOp) (target : Nat → Int) (runs : List (List Nat × List (List (Nat × List Int)) × List Nat)) : State :=
  let b := o.batt
  let code := s.colCode b target
  let s := runs.foldl (runCells b o.row code) s
  let s := match runs.getLast? with | some a => s.judgeRow b o.row code a | none => s
  let s := (s.judgeRefs b runs).settleRow b (runs.map (fun a => a.2.1.length))
  s.updBatt b (fun x => { x with lastBlock := tput x.lastBlock o.row (s.now + o.t), busy := true })

/-- The row's bytes and verify records wait for the tick (R125, R126, R129, R146). -/
def stageRow (s : State) (o : RowOp) (last : List (Nat × List Int)) : State :=
  (s.fillRows o.batt o.row last).updBatt o.batt (fun x => { x with
    staged := x.staged ++ [⟨o.row, s.rowBytes o.batt o.row last, verifyOf o.row last, o.kind⟩] })

/-- The first row of a load forms the scales of the batt's 32 groups (R167). -/
def openLoad (s : State) (o : RowOp) (c l : Nat) (y : Layer) : State :=
  if o.kind = 1 ∧ o.first then
    s.updBatt o.batt (fun x => { x with newScale := some (s.formScales c l y), loaded := [], recordDue := true })
  else s

/-- The wear counter may count the operations on a row: it stays within its stored ceiling (R142). -/
def wearFits (s : State) (b r : Nat) (code : Nat → Int) (runs : List (List Nat × List (List (Nat × List Int)) × List Nat)) : Bool :=
  let n := (runs.filter (fun a => opPulsed code a.1 a.2.1)).length
  decide (n = 0) || decide (tget 0 (s.batt b).wear r + n ≤ tget 0 (s.batt b).ceiling r)

/-- The end of a blocking operation on a row of the owner's layer (R118 to R129). -/
def blockRow (s : State) (o : RowOp) (c l : Nat) (y : Layer) : State :=
  let v := s.openLoad o c l y
  let target := v.target o.batt c l y o.row
  match v.rowRuns o.batt target o.tries with
  | none => s
  | some runs =>
    if v.wearFits o.batt o.row (v.colCode o.batt target) runs then
      let w := v.blockCells o target runs
      if o.gen = w.gen c then w.stageRow o ((runs.getLast?.map lastReads).getD []) else w.staleData c 1
    else s

/-- Code of the factory pattern at a row and logical column (R495). -/
def patternCode (r j : Nat) : Int := ((r * 37 + j * 11) % 255 : Nat) - 127

/-- A batt without a load owner is being blocked with the factory pattern for the calibration request that runs on it (R495). -/
def patternDue (s : State) (b : Nat) : Bool :=
  (s.batt b).pattern && decide ((s.batt b).owner = none) && s.cal.run.any (fun r => decide (r.scope = 0) && decide (r.unit = b))

/-- The end of a blocking operation with the factory pattern (R138, R495). -/
def blockPattern (s : State) (o : RowOp) : State :=
  match s.rowRuns o.batt (patternCode o.row) o.tries with
  | none => s
  | some runs =>
    if s.wearFits o.batt o.row (s.colCode o.batt (patternCode o.row)) runs then
      (s.blockCells o (patternCode o.row) runs).stageRow o ((runs.getLast?.map lastReads).getD [])
    else s

/-- The batt's context is PARKED: its cells undergo no fulling (R384). -/
def parked (s : State) (b : Nat) : Bool := match (s.batt b).owner with | some c => decide (s.ctxState c = 4) | none => false

/-- What R53, R116, R117 and R143 ask before a row is blocked: the frame is open on the batt, which has served no pass in it, the row is not
worn, and a debt row was dispatched in this frame's plan, a marked row by its fulling pass. -/
def mayBlock (s : State) (o : RowOp) : Bool :=
  let x := s.batt o.batt
  s.mayIssue (o.batt / 8) && x.open_ && !x.ran && !x.worn.contains o.row && !x.newWorn.contains o.row &&
  (match o.kind with
    | 0 => (match s.fr.plans with | p :: _ => p.rows.contains (o.batt, o.row) | [] => false)
    | 2 => x.fulMarked.contains o.row && !s.parked o.batt
    | _ => true)

/-! The transfer decision (R130, R133). -/

/-- One weight: its nap delta if its scaled master is beyond THRESH from pi, and whether re-blocking would change it (R130). -/
def transferOne (s : State) (b c l : Nat) (y : Layer) (r j : Nat) : Option (Word × Bool) :=
  let p := s.pi_ b r j
  if p = -128 ∨ y.cols ≤ j then none
  else
    let t := s.scaled b c l y r j
    let thresh := f32Frac (s.pol 0x1C) 100
    if fle (fabs (fsub t (f32Int p))) thresh then none
    else
      let d := (f32 (s.master c l y r j)).add ((f32 (s.scaleOf b j)).mul (ofInt p 0)).neg
      some (ofBf16 (Fmt.bf16.ofVal .near d), decide (max (-127) (min 127 (roundHalfEven (f32 t))) ≠ p))

/-- The decision for a row: its nap entries, and whether it enters the debt. -/
def transferRow (s : State) (b c l : Nat) (y : Layer) (r : Nat) : List Nap × Bool :=
  let es := (List.range y.cols).filterMap (fun j => (s.transferOne b c l y r j).map (fun d => (Nap.mk r j d.1, d.2)))
  (es.map (fun e => e.1), es.any (fun e => e.2))

/-- Put a row's decision into the nap list and the debt; `tail` takes the row out of the debt first (R133). -/
def transfer (s : State) (b c l : Nat) (y : Layer) (r since : Nat) (tail : Bool) : State :=
  let d := s.transferRow b c l y r
  let s := s.updBatt b (fun x => { x with naps := x.naps.filter (fun n => decide (n.row ≠ r)) ++ d.1 })
  s.updCtx c (fun x =>
    let debt := if tail then x.debt.filter (fun e => decide (e.batt ≠ b ∨ e.row ≠ r)) else x.debt
    { x with debt := if d.2 && !debt.any (fun e => decide (e.batt = b ∧ e.row = r)) then debt ++ [⟨b, r, d.1.length, since, false⟩] else debt })

/-- The decision over every row of a context's batts (R151, R288). -/
def transferAll (s : State) (c : Nat) : State :=
  (s.placement c).foldl (fun s b => match s.battLayer b with
    | some (k, l, y) => if k = c then (List.range y.rows).foldl (fun s r => s.transfer b c l y r (s.frame + 1) false) s else s
    | none => s) s

/-- Show the context's transfer debt and its batts' nap lists (R153). -/
def showDebt (s : State) (c : Nat) : State :=
  let s := (s.placement c).foldl (fun s b => s.put F.BLK_NAP_NAP b (s.batt b).naps.length) s
  let n := ((s.placement c).map (fun b => (s.batt b).naps.length)).foldl (· + ·) 0
  (s.put F.BLK_DEBT_W_WEIGHTS c n).put F.BLK_DEBT_R_ROWS c (s.ctx c).debt.length

/-! What the tick commits (R129, R133, R149). -/

/-- Commit one row's result at the tick: bytes and verify records, then the transfer decision with the masters in force from it; a marked
row counts for its fulling pass (R141). -/
def commitRow (b : Nat) (s : State) (r : RowResult) : State :=
  let s := r.bytes.foldl (fun s e => s.setByte (s.imageAt b + r.row * 1024 + e.1) e.2) s
  let s := r.verify.foldl (fun s e => s.setByte (verifyAt b + e.1) e.2) s
  let s := s.updBatt b (fun x => { x with
    fulCount := if x.fulMarked.contains r.row then x.fulCount + 1 else x.fulCount,
    fulMarked := x.fulMarked.filter (fun m => decide (m ≠ r.row)) })
  match s.battLayer b with
  | none => s
  | some (c, l, y) =>
    let s := s.updCtx c (fun x => { x with unsound := x.unsound.filter (fun u => decide (u ≠ (b, r.row))) })
    s.transfer b c l y r.row (s.frame + 1) true

/-- A row of a load whose scales wait for the record: it takes effect with them (R168). -/
def waitsForRecord (s : State) (b : Nat) (r : RowResult) : Bool := decide (r.kind = 1) && (s.batt b).newScale.isSome

/-- Commit every row result of the frame. -/
def commitRows (s : State) : State :=
  ((s.batts.filter (fun e => decide (e.2.staged ≠ []))).map (fun e => e.1)).foldl (fun s b =>
    let rows := (s.batt b).staged
    let load := rows.filter (s.waitsForRecord b)
    ((rows.filter (fun r => !s.waitsForRecord b r)).foldl (commitRow b) s).updBatt b (fun x => { x with
      staged := [], loaded := x.loaded.filter (fun r => !load.any (fun n => decide (n.row = r.row))) ++ load })) s

/-- Write 0x80 to bytes of the programmed image, by row x 1024 + column. -/
def blankBytes (s : State) (b : Nat) (l : List Nat) : State := l.foldl (fun s k => s.setByte (s.imageAt b + k) 0x80) s

/-- A column of the programmed image becomes 0x80, and its nap entries go (R147); the ninth dark column is a failed test of the core
(R148). -/
def darken (s : State) (b j : Nat) : State :=
  let s := (s.updBatt b (fun x => { x with
    dark := x.dark ++ [j], naps := x.naps.filter (fun n => decide (n.col ≠ j)) })).blankBytes b ((List.range 1024).map (fun r => r * 1024 + j))
  let s := s.raise F.BLK_EVT_DARK b
  if (s.batt b).dark.length = 9 then s.failTest (b / 8) else s

/-- Every byte of a row of the programmed image becomes 0x80, and its nap entries go (R127, R177). -/
def blankRow (s : State) (b r : Nat) : State :=
  (s.updBatt b (fun x => { x with naps := x.naps.filter (fun n => decide (n.row ≠ r)) })).blankBytes b ((List.range 1024).map (fun j => r * 1024 + j))

/-- A row of the programmed image becomes 0x80 as its channel joins the static list (R143, R177); `adapted` lets it leave again. A worn row
that finds 64 channels in the list does not join it (R144). -/
def joinStatic (s : State) (b r : Nat) (adapted : Bool) : State :=
  let s := s.blankRow b r
  match s.battLayer b with
  | none => s
  | some (c, l, _) =>
    let s := s.updCtx c (fun x => { x with debt := x.debt.filter (fun e => decide (e.batt ≠ b ∨ e.row ≠ r)) })
    let rest := (s.layer c l).staticRows.filter (fun e => decide (e.1 ≠ r))
    let was := (s.layer c l).staticRows.any (fun e => decide (e.1 = r) && !e.2)
    let rows := if 64 ≤ rest.length then rest else insertBy (fun (m n : Nat × Bool) => decide (m.1 ≤ n.1)) (r, adapted && !was) rest
    let s := s.updLayer c l (fun y => { y with staticRows := rows })
    s.put F.BAND_BATT_STATIC b (s.layer c l).staticRows.length

/-- A load's static lists: the worn rows of a batt join its list, up to 64 entries (R143, R144, R176), and the bytes of listed and worn rows
are 0x80. -/
def settleStatic (s : State) (c : Nat) : State :=
  (s.placement c).foldl (fun s b => match s.battLayer b with
    | none => s
    | some (k, l, _) =>
      if k ≠ c then s
      else
        let worn := (s.batt b).worn
        let rows := worn.foldl (fun (z : List (Nat × Bool)) r =>
          if z.any (fun e => decide (e.1 = r)) ∨ 64 ≤ z.length then z
          else insertBy (fun (m n : Nat × Bool) => decide (m.1 ≤ n.1)) (r, false) z) (s.layer c l).staticRows
        let s := (s.updLayer c l (fun y => { y with staticRows := rows })).put F.BAND_BATT_STATIC b rows.length
        (rows.map (fun e => e.1) ++ worn).foldl (fun s r => s.blankRow b r) s) s

/-- A filled spare takes its logical column (R84, R146). Worn and static rows keep 0x80, and the column's nap entries stay (log entry 185). -/
def moveColumn (s : State) (b : Nat) (m : Nat × Nat) : State :=
  let rows := match (s.batt b).filling.find? (fun f => decide (f.col = m.1)) with | some f => f.rows | none => []
  let s := s.updBatt b (fun x => { x with
    colMap := tset m.1 x.colMap m.1 m.2, dark := x.dark.filter (fun j => decide (j ≠ m.1)),
    filling := x.filling.filter (fun f => decide (f.col ≠ m.1)) })
  (rows.filter (fun e => !s.isStatic b e.1)).foldl (fun s e => s.setByte (s.imageAt b + e.1 * 1024 + m.1) e.2) s

/-- Every row of the batt but the worn ones has been blocked in the load that forms new scales. -/
def loadDone (x : Batt) : Bool :=
  x.newScale.isSome && (List.range 1024).all (fun r => x.loaded.any (fun e => decide (e.row = r)) || x.worn.contains r || x.newWorn.contains r)

/-- The load owner as the record holds it (R149): context, generation and layer. -/
def ownerRecord (s : State) (b : Nat) : Option (Nat × Nat × Nat) :=
  match s.battLayer b with
  | some (c, l, _) => some (c, s.gen c, l)
  | none => (s.batt b).owner.map (fun c => (c, s.gen c, 0))

/-- The record of a batt as a write now would make it (R149). -/
def makeRecord (s : State) (b : Nat) : BattRecord :=
  let x := s.batt b
  { owner := s.ownerRecord b, scale := if loadDone x then x.newScale.getD x.scale else x.scale,
    map := x.newMap.foldl (fun t m => tset m.1 t m.1 m.2) x.colMap, retired := x.retired,
    dark := (x.dark ++ x.newDark).filter (fun j => !x.newMap.any (fun m => decide (m.1 = j))), worn := x.worn ++ x.newWorn, faults := x.colFaults }

/-- Figures of the batt's record as its registers show them (R115, R153): the spares that serve columns, retired and dark columns, worn rows
and the largest row counter. -/
def showRecord (s : State) (b : Nat) : State :=
  let x := s.batt b
  let s := s.put F.BATT_FAULTS_SPARES_USED b (x.colMap.filter (fun e => decide (1024 ≤ e.2 ∧ e.2 < 1056))).length
  let s := (s.put F.BLK_COLS_RETIRED b x.retired.length).put F.BLK_COLS_DARK b x.dark.length
  (s.put F.BLK_WEAR_WORN_ROWS b (x.worn.length + x.newWorn.length)).put F.BLK_WEAR_ROW_WEAR_MAX b ((x.wear.map (fun e => e.2)).foldl max 0)

/-- Show every batt's record. -/
def showRecords (s : State) : State := (s.batts.map (fun e => e.1)).foldl (fun s b => s.showRecord b) s

/-- Changes that the batt record as written lets commit at the tick (R149, R168): scales with the rows of their load, dark columns, worn
rows, the column map. What came up after the write waits for the next one. -/
def commitRecord (s : State) (b : Nat) : State :=
  let x := s.batt b
  let z := x.record
  let maps := x.newMap.filter (fun m => decide (tget m.1 z.map m.1 = m.2))
  let darks := x.newDark.filter (fun j => z.dark.contains j)
  let worns := x.newWorn.filter (fun r => z.worn.contains r)
  let s := s.updBatt b (fun x => { x with
    scale := z.scale, newScale := if x.loadIn then none else x.newScale, loaded := if x.loadIn then [] else x.loaded,
    newMap := x.newMap.filter (fun m => !maps.contains m), newDark := x.newDark.filter (fun j => !darks.contains j && !maps.any (fun m => decide (m.1 = j))),
    newWorn := x.newWorn.filter (fun r => !worns.contains r), worn := x.worn ++ worns, recorded := false, loadIn := false })
  let s := if x.loadIn then x.loaded.foldl (commitRow b) s else s
  let s := darks.foldl (fun s j => s.darken b j) s
  let s := worns.foldl (fun s r => s.joinStatic b r false) s
  (maps.foldl (fun s m => s.moveColumn b m) s).showRecord b

/-- Commit the changes of every batt whose record has been written. -/
def commitRecords (s : State) : State :=
  ((s.batts.filter (fun e => e.2.recorded)).map (fun e => e.1)).foldl (fun s b => s.commitRecord b) s

/-! Fulling (R139 to R141). -/

/-- A cell lies more than FUL_THRESH from its verify record v (1/16 level) after the row factor (R139, R140); g is its conductance in
1/64 of 0.5 µS, n the composite reading of column P in 1/64. -/
def drifted (thresh : Nat) (n g v : Int) : Bool :=
  decide ((thresh * 16 * n.natAbs : Nat) < (((g * 120 - n) * 16 - v * n) * 100).natAbs)

/-- Marks from a row's own read (R140): a drifted cell, or column Z above 1.0 q unit. -/
def rowMarked (s : State) (b r : Nat) (cells : List (Nat × List Int)) (n : Int) : Bool :=
  decide (n ≤ 0) ||
  cells.any (fun p => p.2.zipIdx.any (fun v => drifted (s.pol 0x20) n v.1 (s.byte (verifyAt b + (r * 1058 + p.1) * 4 + v.2)).toNat)) ||
  cells.any (fun p => decide (p.1 = 1057) && decide (n.natAbs < (composite p.2 * 120).natAbs))

/-- Rows whose q_P differs from the pass's mean by more than 3 % (R140). -/
def refMarked (l : List (Nat × Int)) : List Nat :=
  let sum : Int := l.foldl (fun (a : Int) e => a + e.2) 0
  (l.filter (fun e => decide (3 * sum.natAbs < (100 * (e.2 * l.length - sum)).natAbs))).map (fun e => e.1)

/-- The next fulling interval in ns (R141), from the rows re-blocked; the root is rounded down (log entry 31). -/
def nextInterval (s : State) (i n : Nat) : Nat :=
  let ft := s.pol 0x3C
  let den := max (256 * n) ft
  let root := Nat.sqrt (i * i * (4 * ft) / max den 1)
  let v := max (i / 2) (min (2 * i) root)
  max (s.pol 0x30 * 10 ^ 9) (min (s.pol 0x34 * 10 ^ 9) v)

end State

/-- BLOCKING (R119): a row of the owner's layer, or with the factory pattern a row of a batt without an owner (R495). -/
def execBlocking (o : RowOp) (s : State) : Outcome :=
  .next (match s.battLayer o.batt with
    | none => if s.patternDue o.batt = true ∧ s.mayBlock o = true ∧ o.kind = 1 then s.blockPattern o else s
    | some (c, l, y) => if s.mayBlock o = true ∧ o.kind < 3 then s.blockRow o c l y else s)

/-- SPARE_FILL (R138, R146): a blocking operation on a row for the spares that are being filled. -/
def execSpareFill (o : RowOp) (s : State) : Outcome :=
  .next (match s.battLayer o.batt with
    | none => s
    | some (c, l, y) => if s.mayBlock o = true ∧ o.kind = 3 ∧ (s.batt o.batt).filling ≠ [] then s.blockRow o c l y else s)

/-- DEBT_STARVED (R134): rows of a context that have waited more than 10,000 frames. -/
def execDebtStarved (ctx : Nat) (s : State) : Outcome :=
  .next (
    let late := (s.ctx ctx).debt.filter (fun d => !d.starved && decide (d.since + 10000 < s.frame))
    let s := late.foldl (fun s d => (s.raise F.BLK_EVT_STARVED d.batt).eventOpen 0x0607 3 d.batt) s
    s.updCtx ctx (fun x => { x with debt := x.debt.map (fun d => if d.since + 10000 < s.frame then { d with starved := true } else d) }))

/-- When a batt's next pass is due: FUL_MIN after service begins, then an interval after the last start (R141, R152). -/
def State.fulDue (s : State) (b : Nat) : Nat :=
  match (s.batt b).fulStart with
  | none => s.ports.inServiceAt + s.pol 0x30 * 10 ^ 9
  | some u => u + (s.batt b).fulInterval

/-- FULLING_INTERVAL_EXPIRY (R141, R424): a pass starts when its interval has run out or a shadow mismatch asks for it; the first interval
is FUL_FIRST. -/
def execFullingIntervalExpiry (batt t : Nat) (s : State) : Outcome :=
  .next (
    let x := s.batt batt
    if s.phase = 1 ∧ s.parked batt = false ∧ x.fulBusy = false ∧ (x.fulNow = true ∨ s.fulDue batt ≤ s.now + t) then
      let i := if x.fulEnd = none then s.pol 0x38 * 10 ^ 9 else x.fulInterval
      s.updBatt batt (fun x => { x with
        fulBusy := true, fulNow := false, fulStart := some (s.now + t), fulInterval := i, fulRows := [], fulMarked := [], fulCount := 0 })
    else s)

/-- FULLING_READ (R139, R140): rows in ascending order, in frames open to row operations; the last row's read brings the check against the
mean of q_P. -/
def execFullingRead (o : FulRead) (s : State) : Outcome :=
  .next (
    let x := s.batt o.batt
    if s.mayIssue (o.batt / 8) = true ∧ x.open_ = true ∧ x.ran = false ∧ s.parked o.batt = false ∧ x.fulBusy = true ∧ x.fulRows.length = o.row ∧ o.row < 1024 then
      let n := match o.cells.find? (fun p => decide (p.1 = 1056)) with | some p => composite p.2 | none => 0
      let rows := x.fulRows ++ [(o.row, n)]
      let own := if s.rowMarked o.batt o.row o.cells n then [o.row] else []
      let all := if rows.length = 1024 then State.refMarked rows else []
      let more := (own ++ all).filter (fun r => !x.worn.contains r && !x.newWorn.contains r)
      s.updBatt o.batt (fun x => { x with fulRows := rows, fulMarked := more.foldl (fun m r => if m.contains r then m else m ++ [r]) x.fulMarked, busy := true })
    else s)

/-- FULLING_PASS_END (R141, R145): every row read and every marked row re-blocked. -/
def execFullingPassEnd (batt t : Nat) (s : State) : Outcome :=
  .next (
    let x := s.batt batt
    if x.fulBusy = true ∧ x.fulRows.length = 1024 ∧ x.fulMarked = [] then
      let i := s.nextInterval x.fulInterval x.fulCount
      let faults := x.colFaults.foldl (fun t e => if x.faulted.contains e.1 then t else tset 0 t e.1 (e.2 - 1)) x.colFaults
      let s := s.updBatt batt (fun x => { x with fulBusy := false, fulRows := [], fulInterval := i, fulEnd := some (s.now + t), colFaults := faults, faulted := [] })
      ((s.put F.FUL_STATE_INTERVAL batt (i / 10 ^ 9)).put F.FUL_STATE_LAST_ROWS batt x.fulCount).put F.FUL_STATE_AGE batt 0
    else s)

/-- WEAR_CEILING_WRITE (R142): a counter at its stored ceiling. -/
def execWearCeilingWrite (batt row : Nat) (s : State) : Outcome :=
  .next (
    let x := s.batt batt
    if tget 0 x.ceiling row ≤ tget 0 x.wear row + 1 then
      s.updBatt batt (fun x => { x with ceiling := tset 0 x.ceiling row (tget 0 x.ceiling row + 4096) })
    else s)

/-- Channels that a batt's static list holds or is about to take (R144, R179, R187). -/
def State.listed (s : State) (b : Nat) : Nat :=
  (match s.battLayer b with | some (c, l, _) => (s.layer c l).staticRows.length + (s.layer c l).joining.length | none => 0) + (s.batt b).newWorn.length

/-- ROW_WORN (R143, R144): the row is never blocked again, and becomes 0x80 with its record; above 64 channels it does not join the static
list, which is a failed test of the core. -/
def execRowWorn (batt row : Nat) (s : State) : Outcome :=
  .next (
    let x := s.batt batt
    if tget 0 x.wear row < s.pol 0x2C ∨ x.worn.contains row ∨ x.newWorn.contains row then s
    else
      let full := decide (64 ≤ s.listed batt)
      let s := (s.updBatt batt (fun x => { x with
        newWorn := x.newWorn ++ [row], recordDue := true, fulMarked := x.fulMarked.filter (fun r => decide (r ≠ row)) })).showRecord batt
      if full then (s.raise F.BLK_EVT_WORN batt).failTest (batt / 8) else s)

/-- Logical column that a retired column still serves without a spare being filled for it (R146). -/
def State.unfilled (s : State) (b p : Nat) : Option Nat :=
  match s.weightCol b p with
  | none => none
  | some j =>
    let x := s.batt b
    if x.filling.any (fun f => decide (f.col = j) && !x.retired.contains f.spare) || x.newMap.any (fun m => decide (m.1 = j)) then none else some j

/-- COLUMN_RETIRE (R145, R146): a column of 8 faults or more takes the lowest free spare; without one it stays dark. A column that was
retired before a loss of power and still serves takes its spare then. -/
def execColumnRetire (batt column : Nat) (s : State) : Outcome :=
  .next (
    if tget 0 (s.batt batt).colFaults column < 8 then s
    else
      let s := if (s.batt batt).retired.contains column then s
        else ((s.updBatt batt (fun x => { x with retired := x.retired ++ [column], recordDue := true })).raise F.BLK_EVT_RETIRED batt).showRecord batt
      match s.unfilled batt column with
      | none => s
      | some j =>
        let y := s.batt batt
        let used := fun (p : Nat) => y.retired.contains p || y.filling.any (fun f => decide (f.spare = p)) || y.colMap.any (fun e => decide (e.2 = p))
        let rest := y.filling.filter (fun f => decide (f.col ≠ j))
        match ((List.range 32).map (fun k => 1024 + k)).find? (fun p => !used p) with
        | some p => s.updBatt batt (fun x => { x with filling := rest ++ [⟨j, p, []⟩] })
        | none => s.updBatt batt (fun x => { x with
            filling := rest, newDark := if x.dark.contains j ∨ x.newDark.contains j then x.newDark else x.newDark ++ [j], recordDue := true }))

/-- SPARE_FILL_COMPLETE (R146): all 1,024 rows filled, worn rows apart; the map moves at the tick after the record is written. -/
def execSpareFillComplete (batt column : Nat) (s : State) : Outcome :=
  .next (match (s.batt batt).filling.find? (fun f => decide (f.col = column)) with
    | none => s
    | some f =>
      let x := s.batt batt
      if (List.range 1024).all (fun r => f.rows.any (fun e => decide (e.1 = r)) || x.worn.contains r) = true ∧
          x.newMap.any (fun m => decide (m.1 = column)) = false then
        s.updBatt batt (fun x => { x with newMap := x.newMap ++ [(column, f.spare)], recordDue := true })
      else s)

/-- BATT_RECORD_WRITE (R149): the record takes what stands now; what it holds commits at the next tick. -/
def execBattRecordWrite (batt : Nat) (s : State) : Outcome :=
  .next (if (s.batt batt).recordDue = true then
      let z := s.makeRecord batt
      s.updBatt batt (fun x => { x with
        record := z, recorded := true, loadIn := State.loadDone x, recordDue := x.newScale.isSome && !State.loadDone x })
    else s)

end Sys2Proof.Machine
end

