-- ==== Sys2Proof/Machine/Dma.lean ====
section
/-!
DEFINITION. Machine/Dma.lean: the DMA engine (spec/06_core_digital.md R231 to R235). A descriptor is one command: it reads every source
byte, then writes.
-/
namespace Sys2Proof.DmaDesc

/-- Element bytes of a TRANSPOSE (R232). -/
def elem (d : DmaDesc) : Nat := 2 ^ d.esize

/-- Rows and planes in use: unused dimensions take length 1 (R232). -/
def rows (d : DmaDesc) : Nat := if 2 ≤ d.dims then d.y else 1

/-- Planes in use. -/
def planes (d : DmaDesc) : Nat := if 3 ≤ d.dims then d.z else 1

/-- The fields hold no reserved code (R232, R233): `op` 1 COPY, 2 FILL, 3 TRANSPOSE. -/
def ok (d : DmaDesc) (op : Nat) : Bool :=
  decide (1 ≤ d.dims) && decide (d.dims ≤ 3) && decide (d.srcKind ≤ 3 ∨ op = 2) && decide (d.dstKind ≤ 4) &&
  decide (d.dstKind = 4 → d.vc ≤ 6) && decide (0 < d.x) && decide (0 < d.rows) && decide (0 < d.planes) &&
  decide (op = 3 → d.esize ≤ 2 ∧ d.x % 2 ^ d.esize = 0)

/-- Offset of row y of plane z under two strides. -/
def offset (ys zs : Int) (z y : Nat) : Int := z * zs + y * ys

/-- Rows of the region as plane and row numbers, in order. -/
def lines (d : DmaDesc) : List (Nat × Nat) := (List.range d.planes).flatMap (fun z => (List.range d.rows).map (fun y => (z, y)))

/-- Source ranges: first byte and length. -/
def srcRanges (d : DmaDesc) : List (Int × Nat) := d.lines.map (fun l => (d.srcAddr + offset d.srcY d.srcZ l.1 l.2, d.x))

/-- Destination ranges; TRANSPOSE writes element e of row y to destination row e at byte y x ESIZE (R233). -/
def dstRanges (d : DmaDesc) (op : Nat) : List (Int × Nat) :=
  if op = 3 then
    d.lines.flatMap (fun l => (List.range (d.x / d.elem)).map (fun e =>
      (d.dstAddr + offset d.dstY d.dstZ l.1 e + l.2 * d.elem, d.elem)))
  else d.lines.map (fun l => (d.dstAddr + offset d.dstY d.dstZ l.1 l.2, d.x))

/-- Bytes of the descriptor (R234). -/
def total (d : DmaDesc) : Nat := d.planes * d.rows * d.x

end Sys2Proof.DmaDesc

namespace Sys2Proof.Machine

/-- A range lies whole in a granted region (R235, R382): scratchpads in KIND 4 of their logical core, stacks in KIND 1 to 3 within M0 to M11,
the accumulator file within its 256 KiB; a remote range is checked where it lands (R323). -/
def regionHolds (rs : List Region) (own : Option Nat) (kind peer : Nat) (r : Int × Nat) : Bool :=
  let inside := fun (g : Region) => decide ((g.base : Int) ≤ r.1) && decide (r.1 + r.2 ≤ g.limit)
  match kind with
  | 0 => rs.any (fun g => decide (g.kind = 4) && decide (some g.core = own) && inside g)
  | 1 => rs.any (fun g => decide (g.kind = 4) && decide (g.core = peer) && inside g)
  | 2 => rs.any (fun g => decide (1 ≤ g.kind) && decide (g.kind ≤ 3) && inside g) && decide ((bitsAt (r.1 + r.2 - 1).toNat 37 4) < 12)
  | 3 => decide (0 ≤ r.1) && decide (r.1 + r.2 ≤ 2 ^ 18)
  | _ => decide (0 ≤ r.1) && decide (r.1 + r.2 ≤ 2 ^ 41)

namespace State

/-- The key in memory of a byte of an endpoint (R231, R232): own scratchpad, another core's, a stack, own accumulator file. -/
def endKey (s : State) (p kind peer a : Nat) : Nat :=
  match kind with
  | 0 => spAddr p a
  | 1 => match s.physOf peer with | some q => spAddr q a | none => spAddr p a
  | 2 => a % 2 ^ 41
  | _ => accAddr p a

/-- A range lies whole in a region granted to the context of physical core p. -/
def granted (s : State) (p c kind peer : Nat) (r : Int × Nat) : Bool :=
  regionHolds (s.ctx c).regions (s.logicalOf p) kind peer r && (decide (kind ≠ 1) || (s.physOf peer).isSome)

/-- The run-time check of a descriptor (R235). -/
def dmaInside (s : State) (p c : Nat) (d : DmaDesc) (op : Nat) : Bool :=
  (decide (op = 2) || d.srcRanges.all (fun r => s.granted p c d.srcKind d.peer r)) &&
  (d.dstRanges op).all (fun r => s.granted p c d.dstKind d.peer r)

/-- Source and destination ranges meet (R235). -/
def dmaOverlap (s : State) (p : Nat) (d : DmaDesc) (op : Nat) : Bool :=
  if op = 2 ∨ d.dstKind = 4 then false
  else d.srcRanges.any (fun a => (d.dstRanges op).any (fun b =>
    let x := s.endKey p d.srcKind d.peer a.1.toNat
    let y := s.endKey p d.dstKind d.peer b.1.toNat
    decide (x < y + b.2) && decide (y < x + a.2)))

/-- The bytes that a descriptor moves, cut as its destination ranges (R233): a FILL repeats its pattern from the start of each row (log
entry 25). -/
def dmaData (s : State) (p : Nat) (d : DmaDesc) (op : Nat) : List (List Byte) :=
  let row := fun (r : Int × Nat) => (List.range r.2).map (fun i => s.byte (s.endKey p d.srcKind d.peer (r.1.toNat + i)))
  if op = 2 then d.lines.map (fun _ => (List.range d.x).map (fun i => BitVec.ofNat 8 (d.fill.toNat / 2 ^ (8 * (i % 4)))))
  else if op = 3 then d.srcRanges.flatMap (fun r =>
    (List.range (d.x / d.elem)).map (fun e => ((row r).drop (e * d.elem)).take d.elem))
  else d.srcRanges.map row

/-- The bytes that land: free ones where source and destination ranges meet, since bytes land in no defined order (R234, log entry 73). -/
def dmaMoved (s : State) (p : Nat) (d : DmaDesc) (op : Nat) : List (List Byte) :=
  if s.dmaOverlap p d op then (s.dmaData p d op).zipIdx.map (fun r =>
    r.1.zipIdx.map (fun b => BitVec.ofNat 8 (Config.freeNat (s.freeCtr + r.2 * d.x + b.2))))
  else s.dmaData p d op

/-- Write bytes to an endpoint. -/
def setEnd (s : State) (p kind peer a : Nat) (l : List Byte) : State :=
  match l with
  | [] => s
  | b :: r => (s.setByte (s.endKey p kind peer a) b).setEnd p kind peer (a + 1) r

/-- WRITE flits of a range to a receive region of another module; the destination module, context, generation, address and bytes. -/
def sendRange (s : State) (c : Nat) (d : DmaDesc) (a : Nat) (l : List Byte) : State :=
  s.record d.dstModule d.vc 256 ([c, d.gen, a] ++ l.map (fun b => b.toNat))

/-- A descriptor to another module (R48, R369, R399): its data leaves at once, its signal entry is held to the commit window. -/
def dmaRemote (s : State) (c : Nat) (d : DmaDesc) (op : Nat) (data : List (List Byte)) : State :=
  if s.vcOpen d.vc = false then s
  else
  let s := ((d.dstRanges op).zip data).foldl (fun s r => s.sendRange c d r.1.1.toNat r.2) s
  { s with fr := { s.fr with
    wrote := s.fr.wrote ++ [⟨d.dstModule, c, d.gen, d.dstAddr, d.total⟩],
    signals := s.fr.signals ++ [⟨d.dstModule, c, d.gen, d.sigCore, d.sigCtr, 1, d.total⟩] } }

/-- A descriptor inside the module (R234, R389): it lands unless its generation is stale, and signals. -/
def dmaLocal (s : State) (p c : Nat) (d : DmaDesc) (op : Nat) (data : List (List Byte)) : State :=
  let s := if d.gen = s.gen c then
      ((d.dstRanges op).zip data).foldl (fun s r => s.setEnd p d.dstKind d.peer r.1.1.toNat r.2) s
    else s.staleData c 1
  s.signalIn c d.gen d.sigCore d.sigCtr 1 d.total

/-- A descriptor that fails its region check (R235): it is not executed and sends no signal; the context enters FAULTED at the next tick,
with the EVENT. -/
def dmaRefused (s : State) (p c : Nat) : State := (s.raise F.NUM_CORE_EVT_DMA_BOUNDS p).faultCtx c 1

/-- A DMA descriptor on physical core p. -/
def dmaOp (s : State) (p : Nat) (d : DmaDesc) (op : Nat) : State :=
  let c := s.active p
  if s.dmaInside p c d op = false then s.dmaRefused p c
  else
    let data := s.dmaMoved p d op
    let s := (if s.dmaOverlap p d op then s.skipDraws (d.total + d.x) else s).trace p 3 1 c
    (if d.dstKind = 4 then s.dmaRemote c d op data else s.dmaLocal p c d op data).trace p 3 2 c

/-- Ranges of an endpoint as ranges of keys. -/
def endRanges (s : State) (p kind peer : Nat) (l : List (Int × Nat)) : List (Nat × Nat) :=
  l.map (fun r => (s.endKey p kind peer r.1.toNat, r.2))

/-- The descriptor reads no narrowed tile before its check and writes no wide source, on its own core and on its peer (R171). -/
def dmaUntouched (s : State) (p : Nat) (d : DmaDesc) (op : Nat) : Bool :=
  let reads := if op = 2 then [] else s.endRanges p d.srcKind d.peer d.srcRanges
  let writes := if d.dstKind = 4 then [] else s.endRanges p d.dstKind d.peer (d.dstRanges op)
  s.untouched p reads writes && (match s.physOf d.peer with | some q => s.untouched q reads writes | none => true)

/-- A descriptor with its code check: a reserved code has no effect that the spec gives, and the image loader refuses it (R232, R235). -/
def dma (s : State) (p : Nat) (d : DmaDesc) (op : Nat) : Outcome :=
  if d.ok op then .next (if s.mayRun p 3 && s.dmaUntouched p d op then s.dmaOp p d op else s) else .fault .reservedCode

end State

/-- COPY (R233). -/
def execCopy (core : Nat) (d : DmaDesc) (s : State) : Outcome := s.dma core d 1

/-- FILL (R233). -/
def execFill (core : Nat) (d : DmaDesc) (s : State) : Outcome := s.dma core d 2

/-- TRANSPOSE (R233). -/
def execTranspose (core : Nat) (d : DmaDesc) (s : State) : Outcome := s.dma core d 3

end Sys2Proof.Machine
end

