-- ==== Sys2Proof/Machine/Groups.lean ====
section
/-!
DEFINITION. Machine/Groups.lean: parallel groups and their members, parameter tensors and their gradients, step records, polynomial digests,
and the hold and vote of a step (spec/07_training_step.md R260 to R265, spec/08_gradient_exchange.md R275 to R293, spec/13_silent_errors.md
R415, R416, R428 to R431).
-/
namespace Sys2Proof.Machine

/-- The context spans several modules (R275). -/
def Template.multi (t : Template) : Bool := decide (1 < t.members.length)

/-- The next index of a list of survivors from i on, with wrap-around (R302). -/
def nextAlive (alive : List Nat) (i : Nat) : Nat :=
  match alive.find? (fun j => decide (i ≤ j)) with | some j => j | none => alive.headD i

/-- RSUM of FP32 words (R228): vectors of 64 lanes in ascending order, then the pairwise tree; lanes beyond the last word add +0. -/
def rsumWords (l : List Word) : Word :=
  let g := groups 64 (l.length / 64 + 1) l
  treeSum fadd 6 ((List.range 64).map (fun i => fsum (g.map (fun v => v.getD i 0))))

/-- FP32 accumulation of a row product with FP32 operands (R193). -/
def wideDot (a b : List Word) : Word := (a.zip b).foldl (fun (acc : Word) p => fin32 acc acc ((f32 acc).add ((f32 p.1).mul (f32 p.2)))) 0

/-- Square root in binary32, rounded to nearest (R260). -/
def fsqrt (a : Word) : Word :=
  match f32 a with
  | .fin false m e =>
    let odd := e % 2 ≠ 0
    let m1 := if odd then 2 * m else m
    let e1 := if odd then e - 1 else e
    let r := Nat.sqrt (m1 * 2 ^ 80)
    let sticky := if r * r = m1 * 2 ^ 80 then 0 else 1
    toF32 (.fin false (2 * r + sticky) (e1 / 2 - 41))
  | .inf false => a
  | .fin true 0 _ => a
  | _ => quiet a a

/-- An FP32 word is finite. -/
def finite (a : Word) : Bool := (f32 a).isFin

/-! Members (R275 to R277, R300, R302). -/

namespace State

/-- A module of the context has been lost (R300). -/
def isLost (s : State) (c m : Nat) : Bool := (s.ctx c).exch.lost.any (fun l => decide (l.1 = m))

/-- Context indices of the surviving members. -/
def alive (s : State) (c : Nat) (t : Template) : List Nat :=
  (List.range t.members.length).filter (fun i => !s.isLost c (t.members.getD i 0))

/-- Member indices of the survivors of the module's data group. -/
def aliveGroup (s : State) (c : Nat) (t : Template) : List Nat :=
  (List.range t.group.length).filter (fun i => !s.isLost c (t.group.getD i 0))

/-- Own context index. -/
def ownCtxIdx (s : State) (t : Template) : Nat := indexOf t.members s.ownId

/-- Own member index. -/
def ownIdx (s : State) (t : Template) : Nat := indexOf t.group s.ownId

/-- The member that owns a row, or the adopter of a lost owner (R277, R302); a context on one module owns every row. -/
def ownerOf (s : State) (c : Nat) (t : Template) (x : Tensor) (row : Nat) : Nat :=
  if t.multi then
    let o := ((x.owners.filter (fun e => decide (e.1 ≤ row))).getLast?.map (fun e => e.2)).getD 0
    nextAlive (s.aliveGroup c t) o
  else 0

/-- Rows of a tensor that a member owns, ascending. -/
def rowsOf (s : State) (c : Nat) (t : Template) (x : Tensor) (m : Nat) : List Nat :=
  (List.range x.rows).filter (fun r => decide (s.ownerOf c t x r = m))

/-- Own rows of a tensor. -/
def ownRows (s : State) (c : Nat) (t : Template) (x : Tensor) : List Nat := s.rowsOf c t x (if t.multi then s.ownIdx t else 0)

end State

/-- Elements of rows of a tensor, row by row. -/
def Tensor.elems (x : Tensor) (rows : List Nat) : List Nat := rows.flatMap (fun r => (List.range x.cols).map (fun j => r * x.cols + j))

/-- The rows of a tensor in the slices of its UPDATE mapping, ascending (R237, R260); slices without a row have no part. -/
def Tensor.sliced (x : Tensor) (rows : List Nat) : List (List Nat) :=
  let firsts := if x.slices = [] then [0] else x.slices
  (firsts.zipIdx.map (fun f => rows.filter (fun r => decide (f.1 ≤ r) &&
    match firsts[f.2 + 1]? with | some n => decide (r < n) | none => true))).filter (fun l => !l.isEmpty)

/-- Parameter tensors in ascending TENSOR_ID (R430). -/
def Template.ordered (t : Template) : List Tensor := sortBy (fun a b => decide (a.id ≤ b.id)) t.tensors

/-- A tensor of a template by its number. -/
def Template.tensor (t : Template) (id : Nat) : Option Tensor := t.tensors.find? (fun x => decide (x.id = id))

/-- Bits of SLOTS that a commit swaps: masters and moments, and residual and Qp of a thinned tensor (R265). -/
def Template.slotMask (t : Template) : Nat :=
  (t.tensors.flatMap (fun x => [x.master.bit, x.m.bit, x.v.bit] ++ if x.rank = 0 then [] else [x.resid.bit, x.qp.bit])).foldl
    (fun n b => if n / 2 ^ b % 2 = 1 then n else n + 2 ^ b) 0

/-- Flip the bits of a mask. -/
def flipSlots (n mask : Nat) : Nat := n ^^^ mask

namespace State

/-! Checkpoints' holders and the replay tolerance (R441, R448, R459). -/

/-- Holders of the module's checkpoints that a context has not lost (R441, R448); a system of one module holds its own. -/
def holders (s : State) (c : Nat) : List Nat :=
  let g := s.img.accepted
  let t := tget (⟨0, [], 0, 0⟩ : TopoEntry) g.topo s.ownId
  let l := if g.modules ≤ 1 then [s.ownId] else if g.holders = 2 then [t.holder0, t.holder1] else [t.holder0]
  l.filter (fun h => !(s.ctx c).ckpt.lostHolders.contains h)

/-- A loss is within ACCEPT_K x σ_P of a reference loss (R459); of a digital-only context the two must be equal bit for bit. -/
def lossNear (s : State) (t : Template) (ref got : Word) : Bool :=
  if t.digitalOnly then decide (got = ref)
  else
    let scale := if (f32 ref).abs.lt (.fin false 1 (-40)) then .fin false 1 (-40) else (f32 ref).abs
    let sigma := ((ofInt (s.seen F.CAL_MOD_FWD_SIGMA 0) (-20)).mul (f32 t.noiseGain)).mul scale
    ((f32 got).add (f32 ref).neg).abs.le ((ofInt (s.pol 0x88) 0).mul sigma)

/-! Gradients (R254, R285, R292). -/

/-- Element i of a factor stored in the tensor's factor format (R293). -/
def factor (s : State) (x : Tensor) (a i : Nat) : Word := if x.bf16 then ofBf16 (s.load (a + 2 * i) 2) else s.word (a + 4 * i)

/-- Where the accumulated gradient of a tensor lies in this frame (R51, R254). -/
def partAt (s : State) (c : Nat) (x : Tensor) : Nat := (s.ctx c).slot x.part false

/-- Element e of the gradient that enters UPDATE (R261, R285, R292). -/
def gradAt (s : State) (c : Nat) (t : Template) (x : Tensor) (e : Nat) : Word :=
  if t.multi = false then s.word (s.partAt c x + 4 * e)
  else if x.rank = 0 then s.word (x.sum + 4 * e)
  else
    let k := List.range x.rank
    wideDot (k.map (fun i => s.factor x x.phat (e / x.cols * x.rank + i))) (k.map (fun i => s.factor x x.qsum (e % x.cols * x.rank + i)))

/-! Records and data (R279, R280, R48). -/

/-- A step record (R280) to a module: type, step and attempt, and its further fields. -/
def recBytes (step attempt type sender arg frame nonFinite : Nat) : List Nat :=
  leNums 6 step ++ [attempt % 256, type] ++ leNums 4 (sender % 2 ^ 18) ++ leNums 4 arg ++ leNums 8 frame ++ leNums 8 nonFinite

/-- Number of the step that the context computes, or would compute next. -/
def stepNo (s : State) (c : Nat) : Nat :=
  match (s.ctx c).step with
  | some r => r.step
  | none => s.get F.CTX_STEP_HI_STEP_HI c * 2 ^ 32 + s.get F.CTX_STEP_LO_STEP_LO c + 1

/-- Hold a record of a kind for every other surviving module of the context, on VC2; it leaves in the commit window (R48, R280, R429). -/
def toMembers (s : State) (c kind : Nat) (l : List Nat) : State :=
  match s.template c with
  | none => s
  | some t =>
    let ds := ((s.alive c t).filter (fun i => decide (i ≠ s.ownCtxIdx t))).map (fun i => t.members.getD i 0)
    { s with fr := { s.fr with records := s.fr.records ++ [⟨c, s.gen c, kind, ds, l⟩] } }

/-- Send a step record of the running exchange to every other member (R280). -/
def sendRec (s : State) (c type arg frame nonFinite : Nat) : State :=
  match s.template c with
  | none => s
  | some t => s.toMembers c 1 (recBytes (s.stepNo c) (s.ctx c).exch.attempt type (s.ownCtxIdx t) arg frame nonFinite)

/-- The 64-byte header of a transfer (R279). -/
def xferHeader (s : State) (c : Nat) (t : Template) (x : Xfer) (count : Nat) : List Byte :=
  leBytes 6 (s.stepNo c) ++ leBytes 1 (s.ctx c).exch.attempt ++ leBytes 1 x.kind ++ leBytes 4 (s.ownIdx t) ++ leBytes 4 count ++
    leBytes 4 x.tensor ++ leBytes 4 x.first ++ leBytes 4 x.count ++ leBytes 36 0

/-- Send a portion: header and data to the member's receive region, its signal entry held to the commit window (R48, R284); a check copy on
the alternate route (R296, R336). -/
def sendPortion (s : State) (copy : Bool) (c : Nat) (t : Template) (x : Xfer) (count : Nat) (data : List Byte) : State :=
  let m := t.group.getD x.member 0
  let b := s.xferHeader c t x count ++ data
  if s.vcOpen 2 = false then s
  else
  let s := s.recordOn copy m 2 256 ([c, s.gen c, x.addr] ++ b.map (fun v => v.toNat))
  { s with fr := { s.fr with
    wrote := s.fr.wrote ++ [⟨m, c, s.gen c, x.addr, b.length⟩],
    signals := s.fr.signals ++ [⟨m, c, s.gen c, x.core, x.ctr, 1, b.length⟩] } }

/-- Send a portion that is no check copy. -/
def sendXfer (s : State) (c : Nat) (t : Template) (x : Xfer) (count : Nat) (data : List Byte) : State := s.sendPortion false c t x count data

/-- Count a header or record of another step or attempt (R281). -/
def staleRec (s : State) (c : Nat) : State := s.bump F.EXCH_STALE_STALE c 1

/-- Change the exchange of a context. -/
def updExch (s : State) (c : Nat) (f : ExchSt → ExchSt) : State := s.updCtx c (fun x => { x with exch := f x.exch })

/-- Change the step in progress of a context. -/
def updRun (s : State) (c : Nat) (f : StepRun → StepRun) : State := s.updCtx c (fun x => { x with step := x.step.map f })

end State

/-! The polynomial digest (R415, R416). -/

/-- The prime 2^127 - 1. -/
def digestPrime : Nat := 2 ^ 127 - 1

/-- H_x of a sequence of 32-bit words (R415). -/
def polyDigest (x : Nat) (l : List Nat) : Nat :=
  let h := l.foldl (fun h u => (h * x + u) % digestPrime) 0
  (h * x + l.length) % digestPrime

/-- The point of a step and scope from the seed key (R416, R440). -/
def digestPoint (seedKey step scope domain : Nat) : Nat :=
  let o := leNum (aes256 (leNums 32 seedKey) (leNums 6 step ++ leNums 2 scope ++ leNums 4 0 ++ leNums 4 domain)) % digestPrime
  if o < 2 then 2 else o

namespace State

/-- Words of the masters that a member owns, in the order of R430; `next` reads the free slots. -/
def masterWords (s : State) (c : Nat) (t : Template) (m : Nat) (next : Bool) : List Nat :=
  t.ordered.flatMap (fun x => (x.elems (s.rowsOf c t x m)).map (fun e => (s.word ((s.ctx c).slot x.master next + 4 * e)).toNat))

/-- Digest of a member's rows for the running step (R430). -/
def ownerDigest (s : State) (c : Nat) (t : Template) (m : Nat) (next : Bool) : Nat :=
  polyDigest (digestPoint (s.ctx c).seedKey (s.stepNo c) 0 5) (s.masterWords c t m next)

/-- Digest of the whole committed set for a step with scope 1 (R431). -/
def fullDigest (s : State) (c : Nat) (t : Template) (step : Nat) : Nat :=
  polyDigest (digestPoint (s.ctx c).seedKey step 1 5)
    (t.ordered.flatMap (fun x => (x.elems (List.range x.rows)).map (fun e => (s.word ((s.ctx c).slot x.master false + 4 * e)).toNat)))

/-- Send a DIGEST message to every module of the context (R429): 64 bytes, big-endian. -/
def sendDigest (s : State) (c : Nat) (t : Template) (step scope subject d1 d2 check : Nat) : State :=
  s.toMembers c 8 (([scope, (s.ctx c).exch.attempt % 256] ++ beNums 6 step) ++ beNums 4 (s.ownIdx t) ++ beNums 4 subject ++ beNums 16 d1 ++
    beNums 16 d2 ++ [check] ++ beNums 15 0)

/-- D of R428. -/
def digestSteps (s : State) : Nat := let d := s.pol 0x64; if 16384 < s.img.accepted.modules then min d 2 else d

/-- The last committed step is one whose masters every member digests (R431). -/
def fullDue (s : State) (c : Nat) : Bool :=
  let n := s.stepNo c - 1
  decide (0 < n) && decide (n % max 1 s.digestSteps = 0)

/-- Every survivor's scope-1 digest of the last committed step has been applied, and they agree (R431). -/
def fullAgreed (s : State) (c : Nat) (t : Template) : Bool :=
  let e := (s.ctx c).exch
  decide (e.fullStep = s.stepNo c - 1) && (s.aliveGroup c t).all (fun i => e.full.any (fun d => decide (d.1 = i))) &&
    e.full.all (fun d => e.full.all (fun f => decide (d.2 = f.2)))

/-- Raise a dispute or a disagreement: the decision falls at T(f + 2) (R430, R432). -/
def dispute (s : State) (c f : Nat) : State :=
  (s.bump F.FLT_DIGEST_DISPUTES c 1).updExch c (fun e => { e with digestAt := match e.digestAt with | some n => some n | none => some (f + 2) })

/-- Compare an owner's digests with its rows as applied here, once both are there (R430). -/
def compareOwner (s : State) (c : Nat) (t : Template) (m : Nat) : State :=
  let e := (s.ctx c).exch
  match e.digests.find? (fun d => decide (d.scope = 0 ∧ d.sender = m)) with
  | none => s
  | some d =>
    if e.applied.contains m = false ∨ e.compared.contains m = true then s
    else
      let wd := tget 0 e.adNew m
      let was := match e.ad.find? (fun a => decide (a.1 = m)) with | some a => a.2 | none => s.ownerDigest c t m false
      let s := s.updExch c (fun e => { e with compared := e.compared ++ [m] })
      if wd = d.d1 ∧ was = d.d2 then s
      else
        let check := if wd = d.d1 then 2 else 1
        let s := s.sendDigest c t (s.stepNo c) 2 m (if wd = d.d1 then was else wd) 0 check
        (s.dispute c s.frame).updExch c (fun e => { e with disputes := e.disputes ++ [(s.ownIdx t, m)] })

/-! Hold and vote (R131, R289). -/

/-- The context as it would be with the step's slots swapped. -/
def swapped (s : State) (c : Nat) (t : Template) : State := s.updCtx c (fun x => { x with slots := flipSlots x.slots t.slotMask })

/-- Batts that a commit would leave with more than 16,384 nap entries, with the length of their lists now (R131). -/
def holdBatts (s : State) (c : Nat) (t : Template) : List (Nat × Nat) :=
  let after := (s.swapped c t).transferAll c
  ((s.placement c).filter (fun b => decide (16384 < (after.batt b).naps.length))).map (fun b => (b, (s.batt b).naps.length))

/-- Batts for which a commit on one module holds the step; a skipped step changes no list (R131, R263), and across modules the votes have
decided (R289). -/
def holdsNow (s : State) (c : Nat) (t : Template) (r : StepRun) : List (Nat × Nat) :=
  if t.multi ∨ r.nonFinite ∨ r.nTot = 0 then [] else s.holdBatts c t

/-- Hold the step (R131): UPDATE re-runs later from the same slots; the first hold counts and is reported. -/
def holdStep (s : State) (c : Nat) (naps : List (Nat × Nat)) : State :=
  let first := match (s.ctx c).step with | some r => !r.heldOnce | none => false
  let s := s.updRun c (fun r => { r with held := true, heldOnce := true, naps := naps, updated := [], stage := 1 })
  if first then (s.bump F.BLK_DEBT_R_HOLDS c 1).eventAtOpen 0x0606 6 c else s

/-- The votes of every survivor have been applied: the step may commit, or it is held (R289). -/
def countVotes (s : State) (c : Nat) (t : Template) : State :=
  let v := (s.ctx c).exch.votes
  if (s.alive c t).all (fun i => v.any (fun e => decide (e.1 = i))) then
    if v.any (fun e => decide (e.2 = 1)) then
      let mine := v.any (fun e => decide (e.1 = s.ownCtxIdx t ∧ e.2 = 1))
      (s.raise F.EXCH_EVT_HELD c).holdStep c (if mine then s.holdBatts c t else [])
    else s.updRun c (fun r => { r with stage := 3 })
  else s

/-- Send VOTE once the masters of every owner are applied and compared and the full digests agree (R289, R430, R431). -/
def tryVote (s : State) (c : Nat) (t : Template) : State :=
  match (s.ctx c).step with
  | none => s
  | some r =>
    let e := (s.ctx c).exch
    let others := (s.aliveGroup c t).filter (fun i => decide (i ≠ s.ownIdx t))
    if r.stage = 2 ∧ e.voted = false ∧ e.disputes = [] ∧ others.all (fun i => e.compared.contains i) = true ∧
        (s.fullDue c = false ∨ s.fullAgreed c t = true) then
      let v := if s.holdBatts c t = [] then 0 else 1
      let s := (s.sendRec c 3 v 0 0).updExch c (fun e => { e with voted := true, votes := e.votes ++ [(s.ownCtxIdx t, v)] })
      s.countVotes c t
    else s

end State

end Sys2Proof.Machine
end

