-- ==== Sys2Proof/Machine/Training.lean ====
section
/-!
DEFINITION. Machine/Training.lean: steps of a context (spec/07_training_step.md): forming a step and its hatbox, carding, the optimizer, the
commit and what it decides in the layers (spec/05_formats_and_band_path.md R166 to R186). The forward, loss and backward work itself is that
of the engines' commands. What commits at a tick is given in the frame that the tick closes, and has no effect in a killed frame.
-/
namespace Sys2Proof.Machine

/-! Hatbox (R245, R246, R266). -/

/-- Bytes that a sample saves in a layer; a dropped or spilled layer saves less (R246, R267). -/
def savedBytes (t : Template) (dropped : List Nat) (x : Sample) : Nat :=
  (t.layers.zipIdx.map (fun l => (l.1.saved - if dropped.contains l.2 then l.1.droppable else 0) *
    if l.1.sequence then x.positions else 1)).foldl (· + ·) 0

/-- Hatbox need of a step (R246). -/
def hbxNeed (t : Template) (dropped : List Nat) (l : List Sample) : Nat := (l.map (savedBytes t dropped)).foldl (· + ·) 0

/-- What becomes of a step's samples (R266): those taken, the layers dropped or spilled, and whether the samples are used untrained. -/
structure Fit where
  taken : List Sample
  dropped : List Nat
  shrunk : Bool
  abort : Bool
deriving DecidableEq, Repr

/-- The hatbox decision at a step's beginning (R266). -/
def hbxFit (t : Template) (l : List Sample) : Fit :=
  let room := t.hbxSize * 4096
  if hbxNeed t [] l ≤ room then ⟨l, [], false, false⟩
  else if 2 ≤ t.hbxPolicy then ⟨l, [], false, true⟩
  else match (List.range (t.dropList.length + 1)).find? (fun k => decide (hbxNeed t (t.dropList.take k) l ≤ room)) with
    | some k => ⟨l, t.dropList.take k, false, false⟩
    | none => match ((List.range l.length).reverse.map (fun n => l.take n)).find? (fun m => decide (m ≠ [] ∧ hbxNeed t t.dropList m ≤ room)) with
      | some m => ⟨m, t.dropList, true, false⟩
      | none => ⟨l, [], false, true⟩

/-- A step that has just begun. -/
def StepRun.start (step : Nat) (f : Fit) (policy frame : Nat) (lr : Word) : StepRun where
  step := step
  samples := f.taken
  dropped := if policy = 0 then f.dropped else []
  spilled := if policy = 0 then [] else f.dropped
  abort := f.abort
  begun := frame
  stage := 0
  loss := 0x7FC00000
  nTot := 0
  grad2 := 0
  nonFinite := false
  amax := []
  ranged := []
  skipRange := false
  lrScale := lr
  eta := 0
  p1 := 0
  p2 := 0
  invN := 0
  clip := 0x3F800000
  updated := []
  held := false
  heldOnce := false
  naps := []
  replay := false
  replayLoss := 0

namespace State

/-- The open step entry of a step's log (R450): position and index of the entry that holds its first sample. -/
def openEntry (s : State) (c : Nat) (r : StepRun) : LogEntry :=
  let x := s.ctx c
  let first := r.samples.headD ⟨0, 0, 0, 0, []⟩
  let from_ := x.log.find? (fun e => decide (e.kind = 1 ∧ e.session = first.session ∧ e.firstSeq ≤ first.seq ∧ first.seq < e.firstSeq + e.count))
  { kind := 2, pos := x.logNext, units := 1, session := 0, count := r.samples.length, firstSeq := 0, frame := 0, bytes := 0,
    closed := false, skipped := false, heldOnce := false, step := r.step, roundPos := x.roundPos,
    firstEntry := match from_ with | some e => e.pos | none => 0,
    firstIndex := match from_ with | some e => first.seq - e.firstSeq | none => 0,
    nTot := 0, loss := 0, lrScale := r.lrScale, updates := 0, hash := 0, data := [] }

/-- Events and counters of the hatbox decision (R266, R274). -/
def countFit (s : State) (c : Nat) (t : Template) (l : List Sample) (f : Fit) : State :=
  let s := s.put F.HBX_PEAK_PEAK c (max (s.get F.HBX_PEAK_PEAK c) ((hbxNeed t [] l + 4095) / 4096))
  let s := if f.shrunk then (s.bump F.CTX_TRAIN_STAT_SHRUNK c 1).raise F.CTX_TRAIN_EVT_SHRUNK c else s
  let s := if f.dropped = [] then s
    else (s.bump F.HBX_COUNTS_RECOMP_STEPS c 1).raise (if t.hbxPolicy = 0 then F.CTX_TRAIN_EVT_RECOMPUTED else F.CTX_TRAIN_EVT_SPILLED) c
  if f.abort then ((s.bump F.HBX_COUNTS_ABORTS c 1).raise F.CTX_TRAIN_EVT_ABORTED c).eventOpen 0x0402 6 c else s

/-- What a step's beginning counts shows from its opening tick on (R43, R240, R266). -/
def showBegin (s : State) (c : Nat) : State :=
  [0x28, 0x2C, 0x34, 0x38].foldl (fun s o =>
    let a := 0x300000 + 0x100 * c + o
    { s with vis := tset (resetWord a) s.vis a (s.reg a) }) s

/-- Begin a step with the samples at the head of the queue (R240, R241, R266); an ABORT outcome waits for the closing tick, which consumes
its samples. -/
def beginStep (s : State) (c : Nat) (t : Template) (l : List Sample) : State :=
  let f := hbxFit t l
  let lr : Word := BitVec.ofNat 32 (s.seen F.CTX_LR_SCALE_LR_SCALE c)
  let r := StepRun.start (s.stepNo c) f t.hbxPolicy s.frame lr
  let s := (s.countFit c t l f).showBegin c
  let e := s.openEntry c r
  s.updCtx c (fun x => { x with
    step := some r, openStep := some r, intake := x.intake.drop f.taken.length,
    log := if f.abort then x.log else x.log ++ [e],
    logNext := if f.abort then x.logNext else x.logNext + 1 })

/-- Samples that the opening tick shows in the queue (R43, R240). -/
def ripe (s : State) (c : Nat) : List Sample := (s.ctx c).intake.filter (fun x => decide (x.frame < s.frame))

/-- R240's condition for a step of this module. -/
def stepDue (s : State) (c : Nat) (t : Template) : Bool :=
  let l := s.ripe c
  decide (s.seen F.CTX_TRAIN_PAUSE c = 0) && s.serving c && (s.ctx c).step.isNone &&
    (decide (0 < t.stepSamples ∧ t.stepSamples ≤ l.length) ||
      (match l with | x :: _ => decide (x.frame + t.stepWait ≤ s.frame) | [] => false))

/-- Advance the highest consumed numbers by samples (R37, R265, R266). -/
def consume (s : State) (l : List Sample) : State :=
  l.foldl (fun s x => s.updHost x.session (fun h => { h with consumed := max h.consumed x.seq })) s

/-- The tick consumes the samples of an ABORT outcome (R266). -/
def finishAbort (s : State) (c : Nat) : State :=
  match (s.ctx c).step with
  | some r => if r.abort then (s.consume r.samples).updCtx c (fun x => { x with step := none }) else s
  | none => s

end State

/-! Carding (R242 to R244). -/

/-- A carding entry (R242): number, phases, format, VC, tensor, source and destination map, elements along the axes, counter. -/
structure Card where
  id : Nat
  from_ : Nat
  into : Nat
  fmt : Nat
  vc : Nat
  tensor : Nat
  src : Nat
  dst : Nat
  dim0 : Nat
  dim1 : Nat
  dim2 : Nat
  ctr : Nat
deriving DecidableEq, Repr

/-- Read a carding entry of 32 bytes, none with a bit in a reserved field, a phase or a VC that R242 does not have. -/
def Card.read (w : Nat) : Option Card :=
  let k : Card := {
    id := bitsAt w 0 16, from_ := bitsAt w 16 4, into := bitsAt w 20 4, fmt := bitsAt w 24 4, vc := bitsAt w 28 3, tensor := bitsAt w 32 32,
    src := bitsAt w 64 16, dst := bitsAt w 80 16, dim0 := bitsAt w 96 32, dim1 := bitsAt w 128 32, dim2 := bitsAt w 160 32, ctr := bitsAt w 192 6 }
  let zero := decide (bitsAt w 31 1 = 0) && decide (bitsAt w 198 58 = 0)
  if zero && decide (k.from_ < 6) && decide (k.into < 6) && decide (1 ≤ k.vc ∧ k.vc ≤ 6) then some k else none

/-- The entry of a template with a number. -/
def Template.card (t : Template) (id : Nat) : Option Card := (t.cards.filterMap Card.read).find? (fun k => decide (k.id = id))

/-- The overlap of two ranges as first and count. -/
def overlap (a n b m : Nat) : Nat × Nat := (max a b, min (a + n) (b + m) - max a b)

/-- Byte address of an element of a shard. -/
def shardAt (h : Shard) (bits i j k : Nat) : Nat :=
  h.addr + ((((i - h.lo0) * h.n1 + (j - h.lo1)) * h.n2 + (k - h.lo2)) * bits) / 8

namespace State

/-- The descriptors that move the intersection of two shards within the tensor (R243): one for all of it, or one for each row that is not
already there where rows of it are the same bytes of the same core (R244). -/
def cardDescs (s : State) (c : Nat) (k : Card) (bits : Nat) (a b : Shard) : List DmaDesc :=
  let x0 := overlap a.lo0 a.n0 b.lo0 (min b.n0 (k.dim0 - b.lo0))
  let x1 := overlap a.lo1 a.n1 b.lo1 (min b.n1 (k.dim1 - b.lo1))
  let x2 := overlap a.lo2 a.n2 b.lo2 (min b.n2 (k.dim2 - b.lo2))
  let here := decide (b.module = s.ownId)
  let src := fun (i j : Nat) => shardAt a bits i j x2.1
  let dst := fun (i j : Nat) => shardAt b bits i j x2.1
  let kind := if here then (if b.kind = 2 then 2 else if b.core = a.core then 0 else 1) else 4
  let whole : DmaDesc :=
    { gen := s.gen c, dims := 3, esize := 0, srcKind := a.kind, dstKind := kind, vc := k.vc, peer := b.core, sigCtr := k.ctr,
      sigCore := b.core, srcAddr := src x0.1 x1.1, dstAddr := dst x0.1 x1.1, dstModule := b.module, x := x2.2 * bits / 8, y := x1.2, z := x0.2,
      srcY := (a.n2 * bits / 8 : Nat), srcZ := (a.n1 * a.n2 * bits / 8 : Nat), dstY := (b.n2 * bits / 8 : Nat),
      dstZ := (b.n1 * b.n2 * bits / 8 : Nat), fill := 0 }
  let rows := (List.range x0.2).flatMap (fun i => (List.range x1.2).map (fun j => (x0.1 + i, x1.1 + j)))
  let there := fun (r : Nat × Nat) => here && decide (a.kind = b.kind) && (decide (a.core = b.core) || decide (a.kind = 2)) &&
    decide (src r.1 r.2 = dst r.1 r.2)
  if x2.2 = 0 ∨ rows = [] then []
  else if rows.any there then
    (rows.filter (fun r => !there r)).map (fun r => { whole with dims := 1, srcAddr := src r.1 r.2, dstAddr := dst r.1 r.2 })
  else [whole]

/-- Issue the descriptors of a source shard in ascending destination shard; an MX tensor moves both its planes, one scale byte for 32 elements
along the last axis (R242, R243). -/
def card (s : State) (p c : Nat) (k : Card) (a : Shard) (dst : List Shard) : State :=
  let plane := fun (h : Shard) => { h with addr := h.plane, lo2 := h.lo2 / 32, n2 := h.n2 / 32 }
  (dst.flatMap (fun b => s.cardDescs c k (elemBits k.fmt) a b ++
    if isMx k.fmt then s.cardDescs c { k with dim2 := k.dim2 / 32 } 8 (plane a) (plane b) else [])).foldl (fun s d => s.dmaOp p d 1) s

end State

/-! UPDATE (R260 to R263). -/

/-- η_sched(t) (R260). -/
def etaSched (l : List (Nat × Word)) (t : Nat) : Word :=
  match l with
  | [] => 0
  | (a, ea) :: r =>
    if t < a then ea
    else match r with
    | [] => ea
    | (b, eb) :: _ =>
      if t < b then fadd ea (fmul (fsub eb ea) (fdiv (f32Nat (t - a)) (f32Nat (b - a))))
      else etaSched r t

namespace State

/-- Elements of g = grad x inv_n over rows of a tensor (R261). -/
def gRows (s : State) (c : Nat) (t : Template) (x : Tensor) (invN : Word) (rows : List Nat) : List Word :=
  (x.elems rows).map (fun e => fmul (s.gradAt c t x e) invN)

/-- Elements of g over the owned rows of a tensor. -/
def gOwned (s : State) (c : Nat) (t : Template) (x : Tensor) (invN : Word) : List Word := s.gRows c t x invN (s.ownRows c t x)

/-- Parts of G of a tensor's update slices over the owned rows (R260). -/
def gSlices (s : State) (c : Nat) (t : Template) (x : Tensor) (invN : Word) : List Word :=
  (x.sliced (s.ownRows c t x)).map (fun rows => rsumWords ((s.gRows c t x invN rows).map (fun g => fmul g g)))

/-- Own part of G: RSUM per update slice, the slices in ascending order, tensor after tensor (R260, R287). -/
def gPart (s : State) (c : Nat) (t : Template) (invN : Word) : Word := fsum (t.ordered.flatMap (fun x => s.gSlices c t x invN))

/-- M_t (R426): largest a_t of the last 64 applied steps, none before 64 updates. -/
def rangeRef (s : State) (c id : Nat) : Option Word :=
  let h := tget [] (s.ctx c).mstat id
  if h.length < 64 then none else some (h.foldl fmaxAbs 0)

/-- a_t by tensor (R426). -/
def amaxOf (s : State) (c : Nat) (t : Template) (invN : Word) : List (Nat × Word) :=
  t.ordered.map (fun x => (x.id, (s.gOwned c t x invN).foldl fmaxAbs 0))

/-- Tensors that fail the range check (R426). -/
def rangeFails (s : State) (c : Nat) (amax : List (Nat × Word)) : List Nat :=
  (amax.filter (fun a => match s.rangeRef c a.1 with
    | none => false
    | some m => ((f32 m).scale (s.pol 0x6C)).lt (f32 a.2))).map (fun a => a.1)

/-- Range failures that the second check confirms (R427). -/
def confirmRange (s : State) (c : Nat) (fails : List Nat) : State :=
  fails.foldl (fun s id =>
    ((s.finding 6 none 6 c id).bump F.FLT_RANGE_FAILS c 1).raise F.FLT_SE_EVT_RANGE 0) s

/-- Form the step's scalars from loss, n_tot, G and the non-finite flag (R260, R283); a step that does not apply may commit at once. -/
def formScalars (s : State) (c : Nat) (t : Template) (loss : Word) (nTot : Nat) (grad2 : Word) (nonFinite : Bool) : State :=
  let x := s.ctx c
  let one : Word := 0x3F800000
  let q := fdiv t.clipNorm (fsqrt grad2)
  s.updRun c (fun r => { r with
    loss := loss, nTot := nTot, grad2 := grad2, nonFinite := nonFinite,
    invN := fdiv one (f32Nat nTot), eta := fmul r.lrScale (etaSched t.schedule x.updates),
    p1 := fmul x.p1 t.beta1, p2 := fmul x.p2 t.beta2,
    clip := if t.clip ∧ Machine.flt q one then q else one,
    stage := if nonFinite ∨ nTot = 0 then 3 else 1 })

/-- The scalars of a step on one module (R259, R260, R263, R426, R427). -/
def localScalars (s : State) (c : Nat) (t : Template) (r : StepRun) (losses : Nat) : State :=
  let n := r.samples.length
  let invN := fdiv 0x3F800000 (f32Nat n)
  let loss := fdiv (fsum (s.words losses n)) (f32Nat n)
  let amax := s.amaxOf c t invN
  let fails := s.rangeFails c amax
  let s := s.confirmRange c fails
  let skip := decide (fails ≠ [] ∧ s.pol 0x70 = 1)
  let bad := !finite loss || t.tensors.any (fun x => (s.gOwned c t x invN).any (fun g => !finite g))
  (s.formScalars c t loss n (s.gPart c t invN) (bad || skip)).updRun c (fun r => { r with amax := amax, skipRange := skip && !bad })

end State

/-- New weight and moments of one element (R261): w, m and v old, its gradient. -/
def updateElem (t : Template) (r : StepRun) (lambda w m v grad : Word) : Word × Word × Word :=
  let one : Word := 0x3F800000
  let g := fmul grad r.invN
  let g := if t.clip then fmul g r.clip else g
  if t.adamw then
    let m1 := ffma t.beta1 m (fmul t.omb1 g)
    let v1 := ffma t.beta2 v (fmul t.omb2 (fmul g g))
    let mh := fmul m1 (fdiv one (fsub one r.p1))
    let vh := fmul v1 (fdiv one (fsub one r.p2))
    let root := if flt 0 vh then fmul vh (frsqrt vh) else 0
    let u := fmul mh (frcp (fadd root t.eps))
    (fsub w (fmul r.eta (ffma lambda w u)), m1, v1)
  else
    let g := ffma lambda w g
    let v1 := ffma t.mu v g
    (ffma (fneg r.eta) v1 w, m, v1)

namespace State

/-- A moment as stored: FP32, or BF16 under SRB16 at its parameter index (R262). -/
def moment (s : State) (t : Template) (a e : Nat) : Word := if t.bf16Moments then ofBf16 (s.load (a + 2 * e) 2) else s.word (a + 4 * e)

/-- Store a moment and count an element that the narrowing made zero (R188, R262). -/
def setMoment (s : State) (c : Nat) (t : Template) (x : Tensor) (a e op : Nat) (v : Word) : State :=
  if t.bf16Moments then
    let code := if (f32 v).isNan then bf16 v else Fmt.bf16.ofVal (.stoch (draw12 (s.opKeyOf c op) (x.index + e) 0 0)) (f32 v)
    let s := s.store (a + 2 * e) 2 code
    if code % 2 ^ 15 = 0 ∧ v &&& 0x7FFFFFFF ≠ 0 then s.bump F.NUM_ZERO_ZERO c 1 else s
  else s.setWord (a + 4 * e) v

/-- Update one element of a tensor: old values from the committed slots, new ones to the free slots (R51, R261). -/
def updateOne (c : Nat) (t : Template) (r : StepRun) (x : Tensor) (opM opV : Nat) (s : State) (e : Nat) : State :=
  let k := s.ctx c
  let n := updateElem t r x.lambda (s.word (k.slot x.master false + 4 * e)) (s.moment t (k.slot x.m false) e) (s.moment t (k.slot x.v false) e)
    (s.gradAt c t x e)
  let s := s.setWord (k.slot x.master true + 4 * e) n.1
  let s := if t.adamw then s.setMoment c t x (k.slot x.m true) e opM n.2.1 else s
  s.setMoment c t x (k.slot x.v true) e opV n.2.2

/-- Update the owned rows of a tensor (R261); a thinned tensor's Q sum becomes its new Qp (R292). -/
def updateTensor (c : Nat) (t : Template) (r : StepRun) (opM opV : Nat) (s : State) (x : Tensor) : State :=
  let s := (x.elems (s.ownRows c t x)).foldl (State.updateOne c t r x opM opV) s
  let s := if x.rank = 0 ∨ t.multi = false then s
    else s.setWords ((s.ctx c).slot x.qp true) ((List.range (x.cols * x.rank)).map (fun i => s.factor x x.qsum i))
  s.updRun c (fun r => { r with updated := r.updated ++ [x.id] })

/-- Work that would write a slot pinned by a checkpoint is deferred (R445). -/
def pinned (s : State) (c : Nat) : Bool :=
  match (s.ctx c).ckpt.run with
  | some k => k.taken.isSome && !(s.holders c).all (fun h => k.holdersDone.contains h) && decide (k.step + 2 ≤ s.stepNo c)
  | none => false

/-- Bytes of the new masters that a portion sends (R288). -/
def masterBytes (s : State) (c : Nat) (x : Tensor) (f : Xfer) : List Byte :=
  s.bytes ((s.ctx c).slot x.master true + 4 * f.first) (4 * f.count)

/-- End of UPDATE: on one module the step may commit; across modules the owner's digests go out with its masters (R288, R430). -/
def updateDone (s : State) (c : Nat) (t : Template) : State :=
  if t.multi then
    let me := s.ownIdx t
    let rd := s.ownerDigest c t me false
    let wd := s.ownerDigest c t me true
    let s := s.sendDigest c t (s.stepNo c) 0 0 wd rd 0
    let s := s.updExch c (fun e => { e with ownRd := rd, adNew := tput e.adNew me wd })
    (s.updRun c (fun r => { r with stage := 2 })).tryVote c t
  else s.updRun c (fun r => { r with stage := 3 })

/-- Member index that a template gives a row, before any loss. -/
def firstOwner (x : Tensor) (row : Nat) : Nat := ((x.owners.filter (fun e => decide (e.1 ≤ row))).getLast?.map (fun e => e.2)).getD 0

/-- Rows of a tensor that a lost module owned and this one has adopted (R302). -/
def adoptedRows (s : State) (c : Nat) (t : Template) (x : Tensor) (m : Nat) : List Nat :=
  (s.ownRows c t x).filter (fun r => decide (t.group.getD (firstOwner x r) 0 = m))

/-- UPDATE of a tensor waits for adopted moments that have not landed (R461). -/
def awaitsMoments (s : State) (c : Nat) (t : Template) (x : Tensor) : Bool :=
  (s.ctx c).exch.adopting.any (fun a => !a.2.2 && decide (s.adoptedRows c t x a.1 ≠ []))

/-- UPDATE work of a step whose scalars stand (R261, R288); a portion may be sent again after a kill. -/
def update (s : State) (c : Nat) (t : Template) (o : UpdateOp) : State :=
  match (s.ctx c).step with
  | none => s
  | some r =>
    if r.stage = 0 ∨ r.stage = 3 ∨ r.held then s
    else
      let todo := t.tensors.filter (fun x => o.tensors.contains x.id && !r.updated.contains x.id && !s.awaitsMoments c t x)
      let s := todo.foldl (State.updateTensor c t r o.opM o.opV) s
      let s := o.xfers.foldl (fun s f => match t.tensor f.tensor with
        | some x => if f.kind = 5 ∧ t.multi then s.sendXfer c t f 0 (s.masterBytes c x f) else s
        | none => s) s
      let done : Bool := match (s.ctx c).step with | some q => t.tensors.all (fun x => q.updated.contains x.id) | none => false
      if done = true ∧ r.stage = 1 then s.updateDone c t else s

end State

/-! What a commit decides in the layers (R166, R168, R174, R179, R186). -/

/-- ⌈log2(Q / 127.5)⌉ limited to -40 to 40. -/
def sxLeast (q : Word) : Int :=
  match (List.range 81).find? (fun (i : Nat) => (f32 q).le (ofInt 255 ((i : Int) - 41))) with
  | some i => (i : Int) - 40
  | none => 40

/-- s_x after a commit (R166), as its exponent. -/
def sxNext (sx : Int) (q : Word) : Int :=
  if q &&& 0x7FFFFFFF = 0 ∨ (f32 q).isNan then sx
  else
    let k := sxLeast q
    if sx < k then k
    else if k < sx ∧ (f32 q).lt (ofInt 255 (sx - 2)) then max (-40) (sx - 1)
    else sx

namespace State

/-- Rows that join the static list (R179): candidates in more than ADD_RATE of the passes, while it holds fewer than 56 entries, worn rows on
their way into it counted (R187); of more than fit, the lowest rows (log entry 189). -/
def joiners (s : State) (y : Layer) (z : LayerSt) : List Nat :=
  if y.adaptive.headD false then
    ((z.cand.filter (fun e => decide (s.seen F.BAND_CFG_ADD_RATE 0 * z.passes < e.2 * 4096) &&
      !z.staticRows.any (fun r => decide (r.1 = e.1)) && !z.joining.any (fun r => decide (r.1 = e.1)))).map (fun e => e.1)).take
      (56 - (z.staticRows.length + z.joining.length + (y.batts.map (fun b => (s.batt (s.battOf b)).newWorn.length)).foldl max 0))
  else []

/-- Quiet steps of the adapted rows after a commit (R179). -/
def quietNext (z : LayerSt) : Tbl Nat :=
  (z.staticRows.filter (fun r => r.2)).foldl (fun q r => tset 0 q r.1 (if z.loud.contains r.1 then 0 else tget 0 z.quiet r.1 + 1)) []

/-- A layer's state after a commit or a window without a step; `stepping` takes the static list, which only a step's commit does. -/
def layerNext (s : State) (y : Layer) (z : LayerSt) (stepping : Bool) : LayerSt :=
  let quiet := if stepping then quietNext z else z.quiet
  { z with
    sx := sxNext z.sx z.q, q := 0, passes := 0, cand := [], overflow := 0, loud := if stepping then [] else z.loud,
    esc := z.esc.map (fun e => { e with left := e.left - 1 }),
    fallback := if 1 < z.fallback then z.fallback - 1 else z.fallback,
    quiet := quiet,
    leaving := if stepping then z.leaving ++ ((quiet.filter (fun e => decide (1024 ≤ e.2) && !z.leaving.contains e.1)).map (fun e => e.1)) else z.leaving,
    joining := if stepping then z.joining ++ (s.joiners y z).map (fun r => (r, s.frame + 2)) else z.joining }

/-- Show a layer's fallback in the registers of its batts (R188). -/
def showFallback (s : State) (c l : Nat) (y : Layer) : State :=
  let z := s.layer c l
  y.batts.foldl (fun s b =>
    let s := s.put F.BAND_BATT_FALLBACK (s.battOf b) (if 0 < z.fallback ∨ z.rescale then 1 else 0)
    s.put F.BAND_BATT_FALLBACK_LEFT (s.battOf b) z.fallback) s

/-- Take the layer decisions of a commit (R265) or of a window without a step (R209). -/
def commitLayers (s : State) (c : Nat) (t : Template) (stepping : Bool) : State :=
  t.layers.zipIdx.foldl (fun s p => (s.updLayer c p.2 (fun z => s.layerNext p.1 z stepping)).showFallback c p.2 p.1) s

/-- Move a layer's forward to matrix substitution from the plan after next (R168, R186). -/
def toMatrix (s : State) (c l : Nat) (f : LayerSt → LayerSt) : State :=
  let z := s.layer c l
  let in_ := z.rescale || z.refLost || decide (0 < z.fallback)
  s.updLayer c l (fun y => { f y with subFrom := if in_ then y.subFrom else s.planNumber + 3 })

/-- A group of a batt is pinned: more than 32 of its weights on the nap list with a scaled master beyond ±127.5 (R168). -/
def groupPinned (s : State) (b c l : Nat) (y : Layer) (g : Nat) : Bool :=
  decide (32 < (((s.batt b).naps.filter (fun n => decide (n.col / 32 = g) &&
    (ofInt 255 (-1)).lt (f32 (s.scaled b c l y n.row n.col)).abs)).length))

/-- Pinned groups trigger a rescale of their batt (R168). -/
def rescales (s : State) (c : Nat) (t : Template) : State :=
  t.layers.zipIdx.foldl (fun s p =>
    if p.1.batts.any (fun b => (List.range 32).any (fun g => s.groupPinned (s.battOf b) c p.2 p.1 g)) ∧ (s.layer c p.2).rescale = false then
      (s.toMatrix c p.2 (fun z => { z with rescale := true })).showFallback c p.2 p.1
    else s) s

/-! Commit (R263 to R265, R450). -/

/-- Close the step's log entry (R450). -/
def closeEntry (s : State) (c : Nat) (r : StepRun) (skipped : Bool) : State :=
  s.updCtx c (fun x => { x with log := x.log.map (fun e =>
    if e.kind = 2 ∧ e.step = r.step ∧ (e.closed = false ∨ r.replay) then
      { e with closed := true, skipped := skipped, heldOnce := r.heldOnce, nTot := r.nTot, loss := r.loss, updates := x.updates }
    else e) })

/-- Count and report a skipped step (R263, R264, R283, R427). -/
def countSkip (s : State) (c : Nat) (r : StepRun) : State :=
  if r.nTot = 0 then s
  else
    let s := (s.bump F.CTX_TRAIN_STAT_SKIPPED c 1).bumpSat F.CTX_TRAIN_STAT_CONSEC_SKIP c 1
    let s := s.updCtx c (fun x => { x with skips := s.get F.CTX_TRAIN_STAT_CONSEC_SKIP c })
    if r.skipRange then s.bump F.FLT_RANGE_SKIPPED c 1
    else (s.raise F.CTX_TRAIN_EVT_NONFINITE c).eventAtOpen 0x0604 6 c

/-- What an applied update commits: slots, t, p1 and p2, nap lists and debt, the range history (R130, R260, R265, R426). -/
def applyUpdate (s : State) (c : Nat) (t : Template) (r : StepRun) : State :=
  let s := (s.swapped c t).updCtx c (fun x => { x with
    updates := x.updates + 1, p1 := r.p1, p2 := r.p2, skips := 0,
    mstat := r.amax.foldl (fun m a => tset [] m a.1 (((tget [] m a.1) ++ [a.2]).drop ((tget [] m a.1).length - 63))) x.mstat,
    exch := { x.exch with ad := x.exch.adNew } })
  ((s.put F.CTX_TRAIN_STAT_CONSEC_SKIP c 0).transferAll c).rescales c t

/-- A layer state and the rest of a generation as a checkpoint keeps them at T(c) (R438, R445): `probe` and DONE come later. -/
def sectionSet (s : State) (c : Nat) (t : Template) (gen : Nat) (samples : List Sample) : Generation :=
  let x := s.ctx c
  let rowsAt := fun (y : Tensor) (k w a : Nat) =>
    (s.ownRows c t y).map (fun r => (y.id, k, r * y.cols, s.bytes (a + w * (r * y.cols)) (w * y.cols)))
  let w := if t.bf16Moments then 2 else 4
  let tensor := fun (y : Tensor) =>
    rowsAt y 0 4 (x.slot y.master false) ++ rowsAt y 1 w (x.slot y.m false) ++ rowsAt y 2 w (x.slot y.v false) ++
      (if y.rank = 0 then [] else [(y.id, 3, 0, s.bytes (x.slot y.resid false) (4 * y.rows * y.cols)),
        (y.id, 4, 0, s.bytes (x.slot y.qp false) (4 * y.cols * y.rank))])
  { gen := gen, step := s.stepNo c - 1, roundPos := x.roundPos, updates := x.updates, p1 := x.p1, p2 := x.p2,
    lrScale := BitVec.ofNat 32 (s.get F.CTX_LR_SCALE_LR_SCALE c), loss := BitVec.ofNat 32 (s.get F.CTX_LOSS_LOSS c), seedKey := x.seedKey,
    slots := x.slots, template := t.index,
    sessions := (s.boundSessions c).map (fun i => (i, s.accepted i, (s.host i).consumed)),
    layers := x.layers, saves := (s.cores.map (fun e => (e.1, s.set_ e.1 c))).filter (fun e => decide (e.2 ≠ SaveArea.empty)),
    data := t.ordered.flatMap tensor,
    samples := samples.drop (samples.length - 256), probe := none, intact := true }

/-- A checkpoint named for this step is taken at its commit, T(c), and its copy begins to write over the previous generation (R442, R444,
R445). -/
def takeCkpt (s : State) (c : Nat) (t : Template) (samples : List Sample) : State :=
  s.updCtx c (fun x => match x.ckpt.run with
    | some k => if k.taken = none ∧ k.step = s.stepNo c - 1 then
        let k := { k with
          taken := some (s.now + s.periodNs), tFrame := s.frame + 1, snap := some (s.sectionSet c t k.gen samples),
          consumed := s.ports.hosts.map (fun h => (h.1, h.2.consumed)) }
        { x with ckpt := { x.ckpt with run := some k, previous := none } }
      else x
    | none => x)

/-- What the commit of a recomputed step reports (R460). -/
def countReplay (s : State) (c : Nat) (t : Template) (r : StepRun) : State :=
  if r.replay then
    let s := (s.bump F.CKPT_REPLAY_RECOMPUTED c 1).updCtx c (fun x => { x with replays := x.replays.drop 1 })
    if s.lossNear t r.replayLoss r.loss then s else (s.bump F.CKPT_REPLAY_DIVERGED c 1).raise F.CKPT_EVT_DIVERGED c
  else s

/-- Commit the step in progress (R263, R265): what the commit names happens together. -/
def commitStep (s : State) (c : Nat) (t : Template) (r : StepRun) : State :=
  let skipped := r.nonFinite || decide (r.nTot = 0)
  let s := if skipped then (s.countSkip c r).rescales c t else s.applyUpdate c t r
  let s := (s.put F.CTX_STEP_LO_STEP_LO c (r.step % 2 ^ 32)).put F.CTX_STEP_HI_STEP_HI c (r.step / 2 ^ 32)
  let s := s.put F.CTX_LOSS_LOSS c r.loss.toNat
  let s := (s.commitLayers c t true).consume r.samples
  let s := s.updCtx c (fun x => { x with
    roundPos := x.roundPos + 1, dispatched := 0, window := s.frame + 1,
    trained := x.trained + r.samples.length, ckpt := { x.ckpt with fresh := true } })
  let s := (s.closeEntry c r skipped).countReplay c t r
  let s := s.updCtx c (fun x => { x with step := none, exch := x.exch.next })
  (s.put F.EXCH_STEP_ATTEMPT c 0).takeCkpt c t r.samples

end State

namespace State

/-- Begin a step at an opening tick once it is due (R240, R282): across modules at T(f0 + 2) of the first READY, and a member whose own
condition holds sends its READY. -/
def startStep (s : State) (c : Nat) (t : Template) (due : Bool) (go : State → State) : State :=
  if s.phase ≠ 1 ∨ s.serving c = false ∨ (s.ctx c).step.isSome then s
  else if t.multi then
    match (s.ctx c).exch.startAt with
    | some n => if n ≤ s.frame then go s else s
    | none =>
      if due ∧ (s.ctx c).exch.ready = false then (s.sendRec c 1 0 s.frame 0).updExch c (fun e => { e with ready := true })
      else s
  else if due then go s
  else s

end State

/-- STEP_BEGIN (R240, R266, R282): at an opening tick; steps that the log gives come first (R460). -/
def execStepBegin (ctx : Nat) (s : State) : Outcome :=
  .next (match s.template ctx with
    | none => s
    | some t =>
      if (s.ctx ctx).replays ≠ [] then s
      else s.startStep ctx t (s.stepDue ctx t) (fun s => s.beginStep ctx t ((s.ripe ctx).take t.stepSamples)))

/-- CARDING (R243): the core of the source shard issues the entry's descriptors for it. -/
def execCarding (o : CardOp) (s : State) : Outcome :=
  .next (match s.template o.ctx with
    | none => s
    | some t => match t.card o.card with
      | none => s
      | some k => match (t.maps.getD k.src [])[o.shard]? with
        | none => s
        | some a => match s.physOf a.core with
          | none => s
          | some p => if s.mayRun p 3 = true ∧ s.active p = o.ctx ∧ a.module = s.ownId then s.card p o.ctx k a (t.maps.getD k.dst []) else s)

/-- OPTIMIZER_UPDATE (R260, R261, R288): the first UPDATE work of a step on one module also forms its scalars. -/
def execOptimizerUpdate (o : UpdateOp) (s : State) : Outcome :=
  .next (match s.template o.ctx, (s.ctx o.ctx).step with
    | some t, some r =>
      if s.phase ≠ 1 ∨ r.abort ∨ r.held then s
      else if s.pinned o.ctx then s.bump F.CKPT_STATS_STALLS o.ctx 1
      else
        let s := if r.stage = 0 ∧ t.multi = false then s.localScalars o.ctx t r o.losses else s
        s.update o.ctx t o
    | _, _ => s)

/-- STEP_COMMIT (R131, R263, R265): at the tick that closes the frame of the last UPDATE work. On one module a commit that would leave a batt
with more than 16,384 nap entries holds the step instead. -/
def execStepCommit (ctx : Nat) (s : State) : Outcome :=
  .next (match s.template ctx, (s.ctx ctx).step with
    | some t, some r =>
      if s.phase ≠ 1 ∨ s.fr.killed.isSome ∨ r.abort ∨ r.held ∨ r.stage ≠ 3 ∨ (s.ctxLive ctx ≠ 2 ∧ s.ctxLive ctx ≠ 3) then s
      else
        let hold := s.holdsNow ctx t r
        if hold = [] then s.commitStep ctx t r else s.holdStep ctx hold
    | _, _ => s)

/-- SKIP_LIMIT_PAUSE (R264): at the commit tick of the SKIP_LIMIT-th consecutive skipped step or a later one. -/
def execSkipLimitPause (ctx : Nat) (s : State) : Outcome :=
  .next (match s.template ctx with
    | none => s
    | some t =>
      if 0 < (s.ctx ctx).skips ∧ t.skipLimit ≤ (s.ctx ctx).skips then
        let s := (s.put F.CTX_TRAIN_PAUSE ctx 1).put F.CTX_TRAIN_AUTO_PAUSED ctx 1
        (s.eventAtOpen 0x0604 6 ctx).updCtx ctx (fun x => { x with skips := 0 })
      else s)

/-- HOLD_RETRY (R131, R289): every nap list that held the step is shorter than at the last attempt. Across modules the member sends RESUME,
and UPDATE re-runs at T(f1 + 2). -/
def execHoldRetry (ctx : Nat) (s : State) : Outcome :=
  .next (match s.template ctx, (s.ctx ctx).step with
    | some t, some r =>
      if r.held = false then s
      else if t.multi then
        match (s.ctx ctx).exch.resumeAt with
        | some n =>
          if n ≤ s.frame + 1 then
            (s.updRun ctx (fun r => { r with held := false })).updExch ctx (fun e => { e with
              voted := false, votes := [], resumes := [], resumeAt := none, applied := [], compared := [], digests := [] })
          else s
        | none =>
          if r.naps ≠ [] ∧ r.naps.all (fun b => decide ((s.batt b.1).naps.length < b.2)) = true ∧
              (s.ctx ctx).exch.resumes.contains (s.ownCtxIdx t) = false ∧ s.fr.records.any (fun h => decide (h.ctx = ctx ∧ h.bytes.getD 7 0 = 6)) = false then
            s.sendRec ctx 6 0 s.frame 0
          else s
      else if r.naps.all (fun b => decide ((s.batt b.1).naps.length < b.2)) then s.updRun ctx (fun r => { r with held := false })
      else s
    | _, _ => s)

namespace State

/-- A commit of the context stands at the closing tick: of its step, unless the frame is killed or the step holds (R131), or of a window without one (R174, R209). -/
def commitDue (s : State) (c : Nat) : Bool :=
  match (s.ctx c).step with
  | some r => decide (r.stage = 3) && !r.held && !r.abort && s.fr.killed.isNone &&
      (match s.template c with | some t => decide (s.holdsNow c t r = []) | none => true)
  | none => decide ((s.frame + 1) % 1024 = 0) && decide ((s.ctx c).window + 1024 ≤ s.frame + 1) &&
      (s.serving c || decide (s.ctxState c = 4))

/-- Change the layers of a context with a commit. A window without a step closes in a killed frame too: what the plan did to the layers is
dropped first (R397). -/
def atCommit (s : State) (c : Nat) (f : State → State) : State :=
  if s.fr.killed.isSome then
    let s := f (s.updCtx c (fun x => { x with layers := x.opening }))
    s.updCtx c (fun x => { x with opening := x.layers })
  else f s

/-- A tile whose hold has run out drops one rung and starts a new hold, or leaves the map (R174). -/
def dropRung (e : EscTile) : Option EscTile :=
  if e.left = 0 then
    match e.below.getLast? with
    | none => none
    | some f => if e.below.length ≤ 1 then none else some { e with rung := f, below := e.below.dropLast, left := e.hold }
  else some e

end State

/-- ESC_HOLD_EXPIRY (R174): at a commit. -/
def execEscHoldExpiry (ctx : Nat) (s : State) : Outcome :=
  .next (if s.commitDue ctx = true then
      s.atCommit ctx (fun s => s.updCtx ctx (fun x => { x with
        layers := x.layers.map (fun l => (l.1, { l.2 with esc := l.2.esc.filterMap State.dropRung })) }))
    else s)

/-- STATIC_LIST_LEAVE (R179): the entry clears at the tick at which the bytes of the row's blocking commit. -/
def execStaticListLeave (batt row : Nat) (s : State) : Outcome :=
  .next (match s.battLayer batt with
    | none => s
    | some (c, l, _) =>
      if (s.layer c l).leaving.contains row = true ∧ (s.batt batt).staged.any (fun r => decide (r.row = row)) = true ∧ s.fr.killed = none then
        let s := s.updLayer c l (fun z => { z with
          staticRows := z.staticRows.filter (fun r => decide (r.1 ≠ row)), leaving := z.leaving.filter (fun r => decide (r ≠ row)) })
        s.put F.BAND_BATT_STATIC batt (s.layer c l).staticRows.length
      else s)

/-- RESCALE_COMPLETE (R168): every row is blocked and the record of the rescaled batts is written, and the layer returns at the tick. -/
def execRescaleComplete (batt : Nat) (s : State) : Outcome :=
  .next (match s.battLayer batt with
    | none => s
    | some (c, l, y) =>
      if (s.layer c l).rescale = true ∧ y.batts.all (fun b => (s.batt (s.battOf b)).loadIn || (s.batt (s.battOf b)).newScale.isNone) = true ∧
          (s.batt batt).loadIn = true ∧ s.fr.killed = none then
        (s.updLayer c l (fun z => { z with rescale := false })).showFallback c l y
      else s)

/-- FALLBACK_ENTRY (R186): at a commit, before the layer's counts start again. -/
def execFallbackEntry (ctx layer : Nat) (s : State) : Outcome :=
  .next (match s.template ctx with
    | none => s
    | some t => match t.layers[layer]? with
      | none => s
      | some y =>
        if s.commitDue ctx = true ∧ s.seen F.BAND_CFG_OVF_LIMIT 0 < (s.layer ctx layer).overflow ∧
            (s.layer ctx layer).fallback = 0 then
          let n := s.seen F.NUM_CFG_FALLBACK_STEPS 0
          let s := s.atCommit ctx (fun s => s.toMatrix ctx layer (fun z => { z with fallback := n + 1 }))
          ((s.showFallback ctx layer y).raise F.NUM_EVT_FALLBACK ctx).eventAtOpen 0x0602 6 ctx
        else s)

/-- FALLBACK_END (R186): at the tick at which the last step of the fallback commits. -/
def execFallbackEnd (ctx layer : Nat) (s : State) : Outcome :=
  .next (match s.template ctx with
    | none => s
    | some t => match t.layers[layer]? with
      | none => s
      | some y =>
        if s.commitDue ctx = true ∧ (s.layer ctx layer).fallback = 1 then
          (s.atCommit ctx (fun s => s.updLayer ctx layer (fun z => { z with fallback := 0 }))).showFallback ctx layer y
        else s)

end Sys2Proof.Machine
end

