-- ==== Sys2Proof/Machine/Exchange.lean ====
section
/-!
DEFINITION. Machine/Exchange.lean: the gradient exchange of a context that spans modules (spec/08_gradient_exchange.md): scatter, sums,
thinning, scalars, gathered masters, votes, the dual-path check, abandoned attempts and lost members.
-/
namespace Sys2Proof.Machine

/-- The header of a transfer as it lies in a receive region (R279). -/
structure XferHead where
  step : Nat
  attempt : Nat
  kind : Nat
  sender : Nat
  count : Nat
  tensor : Nat
  first : Nat
  elements : Nat
deriving DecidableEq, Repr

namespace State

/-- Read a header. -/
def headAt (s : State) (a : Nat) : XferHead :=
  ⟨s.load a 6, s.load (a + 6) 1, s.load (a + 7) 1, s.load (a + 8) 4 % 2 ^ 17, s.load (a + 12) 4, s.load (a + 16) 4, s.load (a + 20) 4,
    s.load (a + 24) 4⟩

/-- STEP and ATTEMPT are those of the exchange that runs (R281). -/
def current (s : State) (c step attempt : Nat) : Bool :=
  (match (s.ctx c).step with | some r => decide (r.step = step) && !r.abort | none => false) &&
    decide ((s.ctx c).exch.attempt = attempt) && (s.ctx c).exch.rerunAt.isNone && !(s.ctx c).exch.stopped

/-- Headers of the running exchange among addresses, with their addresses; the others are discarded and counted (R281). -/
def heads (s : State) (c : Nat) (l : List Nat) : List (Nat × XferHead) :=
  (l.map (fun a => (a, s.headAt a))).filter (fun h => s.current c (h.2.step % 2 ^ 48) h.2.attempt)

/-- Count the discarded headers. -/
def countHeads (s : State) (c : Nat) (l : List Nat) : State := s.bump F.EXCH_STALE_STALE c (l.length - (s.heads c l).length)

/-- Element e of a member's part, from the portion that holds it: w bytes per element, BF16 widened (R279, R293). -/
def partOf (s : State) (hs : List (Nat × XferHead)) (kind tensor member w e : Nat) : Option Word :=
  (hs.find? (fun h => decide (h.2.kind = kind ∧ h.2.tensor = tensor ∧ h.2.sender = member ∧ h.2.first ≤ e ∧ e < h.2.first + h.2.elements))).map
    (fun h => if w = 2 then ofBf16 (s.load (h.1 + 64 + 2 * (e - h.2.first)) 2) else s.word (h.1 + 64 + 4 * (e - h.2.first)))

/-- Element e summed over the survivors in ascending member index, the own part read at `own` (R277); none while a part is missing. -/
def sumAt (s : State) (c : Nat) (t : Template) (hs : List (Nat × XferHead)) (kind tensor w : Nat) (own : Nat → Word) (e : Nat) : Option Word :=
  let parts := (s.aliveGroup c t).map (fun m => if m = s.ownIdx t then some (own e) else s.partOf hs kind tensor m w e)
  if parts.all Option.isSome then some (fsum (parts.filterMap id)) else none

/-- All of a list of sums, none while one is missing. -/
def allSums : List (Option Word) → Option (List Word)
  | [] => some []
  | none :: _ => none
  | some v :: r => (allSums r).map (fun l => v :: l)

/-- Samples of the parts that entered a sum (R286). -/
def countOf (s : State) (c : Nat) (t : Template) (hs : List (Nat × XferHead)) (kind tensor : Nat) : Nat :=
  let own := match (s.ctx c).step with | some r => r.samples.length | none => 0
  ((s.aliveGroup c t).map (fun m => if m = s.ownIdx t then own
    else match hs.find? (fun h => decide (h.2.kind = kind ∧ h.2.tensor = tensor ∧ h.2.sender = m)) with
      | some h => h.2.count
      | none => 0)).foldl (· + ·) 0

/-- Bytes of words in a factor format. -/
def factorBytes (bf : Bool) (l : List Word) : List Byte := l.flatMap (fun w => if bf then leBytes 2 (bf16 w) else leBytes 4 w.toNat)

/-! Abandoned attempts (R298). -/

/-- An attempt is abandoned in frame f (R298): it stops, and re-runs at T(f + 2); beyond EXCH_RETRIES the context is to be FAULTED. -/
def applyAbandon (s : State) (c f : Nat) : State :=
  let e := (s.ctx c).exch
  match e.rerunAt with
  | some n => s.updExch c (fun e => { e with rerunAt := some (min n (f + 2)) })
  | none =>
    let s := (s.bump F.EXCH_CHK_ABANDONED c 1).raise F.EXCH_EVT_ABANDONED c
    if s.seen F.EXCH_STEP_RETRIES c ≤ e.attempt then (s.faultCtx c 2).eventAtOpen 0x0507 6 c
    else s.updExch c (fun e => { e with rerunAt := some (f + 2) })

/-- Stop the attempt and send ABANDON; it is applied here as it leaves. -/
def sendAbandon (s : State) (c : Nat) : State :=
  if (s.ctx c).exch.stopped then s else (s.sendRec c 4 0 s.frame 0).updExch c (fun e => { e with stopped := true })

/-- Start the next attempt from the sending of partials (R298, R301). -/
def rerun (s : State) (c : Nat) : State :=
  let s := s.updExch c (fun e => { e with
    attempt := e.attempt + 1, rerunAt := none, resumeAt := none, stateAt := none, scalars := [], votes := [], voted := false, resumes := [],
    states := [], summed := [], applied := [], compared := [], refereed := [], digests := [], disputes := [], digestAt := none, stopped := false })
  (s.put F.EXCH_STEP_ATTEMPT c (s.ctx c).exch.attempt).updRun c (fun r => { r with stage := 0, nTot := 0, updated := [], held := false })

/-! Scalars (R287, R426, R427). -/

/-- Own part of G: owned rows of dense tensors, and the Q sums of thinned tensors whose factor owner the module is (R287). -/
def gPartGroup (s : State) (c : Nat) (t : Template) (invN : Word) : Word :=
  fsum (t.ordered.flatMap (fun x =>
    if x.rank = 0 then s.gSlices c t x invN
    else if s.ownerOf c t x 0 = s.ownIdx t then
      [rsumWords ((List.range (x.cols * x.rank)).map (fun i => let v := fmul (s.factor x x.qsum i) invN; fmul v v))]
    else []))

/-- An element of the owned sums or factor sums is non-finite (R287). -/
def sumsBad (s : State) (c : Nat) (t : Template) : Bool :=
  t.tensors.any (fun x => if x.rank = 0 then (x.elems (s.ownRows c t x)).any (fun e => !finite (s.word (x.sum + 4 * e)))
    else decide (s.ownerOf c t x 0 = s.ownIdx t) && (List.range (x.cols * x.rank)).any (fun i => !finite (s.factor x x.qsum i)))

/-- The SCALAR records of every survivor are there: form loss, G and the non-finite flag, and the scalars of R260 (R287). -/
def combine (s : State) (c : Nat) (t : Template) : State :=
  let l := sortBy (fun (a b : Scal) => decide (a.idx ≤ b.idx)) ((s.ctx c).exch.scalars.filter (fun x => (s.alive c t).contains x.idx))
  match (s.ctx c).step with
  | none => s
  | some r =>
    if r.stage = 0 ∧ (s.alive c t).all (fun i => l.any (fun x => decide (x.idx = i))) = true then
      s.formScalars c t (fdiv (fsum (l.map (fun x => x.loss))) (f32Nat r.nTot)) r.nTot (fsum (l.map (fun x => x.g)))
        (l.any (fun x => x.nonFinite))
    else s

/-- Send the module's SCALAR record (R287), after the range check of its sums (R426, R427): a first failure abandons the attempt. -/
def sendScalar (s : State) (c : Nat) (t : Template) (losses : Option Nat) : State :=
  match (s.ctx c).step with
  | none => s
  | some r =>
    let invN := fdiv 0x3F800000 (f32Nat r.nTot)
    let amax := s.amaxOf c t invN
    let fails := s.rangeFails c amax
    if fails.any (fun id => !r.ranged.contains id) then
      (s.updRun c (fun r => { r with ranged := r.ranged ++ fails })).sendAbandon c
    else
      let s := s.confirmRange c fails
      let skip := decide (fails ≠ [] ∧ s.pol 0x70 = 1)
      let loss := match losses with | some a => fsum (s.words a r.samples.length) | none => 0
      let bad := s.sumsBad c t || !finite loss
      let g := s.gPartGroup c t invN
      let s := s.updRun c (fun r => { r with amax := amax, skipRange := skip && !bad })
      let s := s.sendRec c 2 0 (loss.toNat + 2 ^ 32 * g.toNat) (if bad ∨ skip then 1 else 0)
      (s.updExch c (fun e => { e with scalars := e.scalars ++ [⟨s.ownCtxIdx t, loss, g, bad || skip⟩] })).combine c t

/-- Note a sum as formed; with the last one the SCALAR record goes out (R287). -/
def formedSum (s : State) (o : SumOp) (t : Template) (n : Nat) : State :=
  let s := (s.updExch o.ctx (fun e => { e with summed := e.summed ++ [o.tensor] })).updRun o.ctx (fun r => { r with nTot := n })
  if o.last then s.sendScalar o.ctx t o.losses else s

/-- Send the portions of a list whose kind is k, their data at `src` or at the place the kind names. -/
def sendKind (s : State) (c : Nat) (t : Template) (k w : Nat) (l : List Xfer) (count : Nat) (at_ : Xfer → Nat) : State :=
  (l.filter (fun f => decide (f.kind = k))).foldl (fun s f => s.sendXfer c t f count (s.bytes (at_ f) (w * f.count))) s

/-- Send check copies on the alternate route; without one the primary route serves and SHARED_PATH is set (R296). -/
def sendCopies (s : State) (c : Nat) (t : Template) (l : List Xfer) : State :=
  (l.filter (fun f => decide (f.kind = 6))).foldl (fun s f =>
    let w := match t.tensor f.tensor with | some x => if x.bf16 ∧ x.rank ≠ 0 then 2 else 4 | none => 4
    let s := if s.hasAlternate (t.group.getD f.member 0) then s else s.raise F.EXCH_EVT_SHARED_PATH c
    s.sendPortion true c t f 0 (s.bytes f.src (w * f.count))) s

/-- The exchange may work: a step runs, and its attempt is not stopped. -/
def exchanging (s : State) (c : Nat) : Bool :=
  decide (s.phase = 1) && (match (s.ctx c).step with | some r => !r.abort && !r.held | none => false) && (s.ctx c).exch.rerunAt.isNone &&
    !(s.ctx c).exch.stopped

end State

/-! Sums and thinning (R284, R285, R291 to R293). -/

/-- Columns of a matrix stored row-major with r columns. -/
def columns (l : List Word) (r : Nat) : List (List Word) :=
  (List.range r).map (fun k => (List.range (l.length / r)).map (fun i => l.getD (i * r + k) 0))

/-- Modified Gram-Schmidt over columns in FP32 (R292). -/
def orthonormalise (cols : List (List Word)) : List (List Word) :=
  cols.foldl (fun done col =>
    let v := done.foldl (fun v q => let d := rsumWords (List.zipWith fmul q v); List.zipWith (fun a b => fsub a (fmul d b)) v q) col
    let n := rsumWords (v.map (fun a => fmul a a))
    done ++ [if fle (f32Pow2 (-100)) n then v.map (fun a => fmul a (frsqrt n)) else v.map (fun _ => 0)]) []

namespace State

/-- The dense sum of the owned rows (R285). -/
def ownerSum (s : State) (o : SumOp) (t : Template) (x : Tensor) : State :=
  let hs := s.heads o.ctx o.srcs
  let es := x.elems (s.ownRows o.ctx t x)
  let own := fun (e : Nat) => s.word (s.partAt o.ctx x + 4 * e)
  match allSums (es.map (s.sumAt o.ctx t hs 0 x.id 4 own)) with
  | none => s
  | some l =>
    let n := s.countOf o.ctx t hs 0 x.id
    ((es.zip l).foldl (fun s p => s.setWord (x.sum + 4 * p.1) p.2) s).formedSum o t n

/-- The P sum, orthonormalised, in the form in which it is sent (R292, R293). -/
def pSum (s : State) (o : SumOp) (t : Template) (x : Tensor) : State :=
  let hs := s.heads o.ctx o.srcs
  let w := if x.bf16 then 2 else 4
  let own := fun (e : Nat) => s.factor x o.own e
  match allSums ((List.range (x.rows * x.rank)).map (s.sumAt o.ctx t hs 1 x.id w own)) with
  | none => s
  | some l =>
    let q := orthonormalise (columns l x.rank)
    let p := (List.range (x.rows * x.rank)).map (fun e => (q.getD (e % x.rank) []).getD (e / x.rank) 0)
    let s := s.setBytes x.phat (factorBytes x.bf16 p)
    let s := s.updRun o.ctx (fun r => { r with nTot := s.countOf o.ctx t hs 1 x.id })
    s.sendKind o.ctx t 2 w o.xfers 0 (fun f => x.phat + w * f.first)

/-- An element of m = g + e, the member's partial with its residual (R292). -/
def withResid (s : State) (c : Nat) (x : Tensor) (e : Nat) : Word :=
  fadd (s.word (s.partAt c x + 4 * e)) (s.word ((s.ctx c).slot x.resid false + 4 * e))

/-- Elements of the P partial m x qp from `first` on, in factor format (R292, R293). -/
def pPartial (s : State) (c : Nat) (x : Tensor) (first count : Nat) : List Byte :=
  let qp := (s.ctx c).slot x.qp false
  factorBytes x.bf16 ((List.range count).map (fun i =>
    let e := first + i
    wideDot ((List.range x.cols).map (fun k => s.withResid c x (e / x.rank * x.cols + k)))
      ((List.range x.cols).map (fun k => s.word (qp + 4 * (k * x.rank + e % x.rank))))))

/-- The Q partial and the residual (R292): q_i = m^T x P̂ in factor format, e = m - P̂ x q_s^T, with m = g + e. -/
def qPartial (s : State) (o : SumOp) (t : Template) (x : Tensor) : State :=
  let k := List.range x.rank
  let w := if x.bf16 then 2 else 4
  let m := s.withResid o.ctx x
  let phat := fun (i r : Nat) => s.factor x x.phat (i * x.rank + r)
  let q := (List.range (x.cols * x.rank)).map (fun e =>
    wideDot ((List.range x.rows).map (fun i => m (i * x.cols + e / x.rank))) ((List.range x.rows).map (fun i => phat i (e % x.rank))))
  let qs := q.map (fun v => if x.bf16 then bfRound v else v)
  let es := (List.range (x.rows * x.cols)).map (fun e =>
    fsub (m e) (wideDot (k.map (fun r => phat (e / x.cols) r)) (k.map (fun r => qs.getD (e % x.cols * x.rank + r) 0))))
  let s := (s.setBytes o.own (factorBytes x.bf16 qs)).setWords ((s.ctx o.ctx).slot x.resid true) es
  s.sendKind o.ctx t 3 w o.xfers 0 (fun f => o.own + w * f.first)

/-- The Q sum (R292). -/
def qSum (s : State) (o : SumOp) (t : Template) (x : Tensor) (n : Nat) : State :=
  let hs := s.heads o.ctx o.srcs
  let w := if x.bf16 then 2 else 4
  let own := fun (e : Nat) => s.factor x o.own e
  match allSums ((List.range (x.cols * x.rank)).map (s.sumAt o.ctx t hs 3 x.id w own)) with
  | none => s
  | some l => ((s.setBytes x.qsum (factorBytes x.bf16 l)).sendKind o.ctx t 4 w o.xfers 0 (fun f => x.qsum + w * f.first)).formedSum o t n

/-- Run a sum of the exchange on its tensor, stale headers counted, check copies sent beside it. -/
def sumWork (s : State) (o : SumOp) (body : State → Template → Tensor → State) : State :=
  match s.template o.ctx with
  | none => s
  | some t => match t.tensor o.tensor with
    | none => s
    | some x =>
      if s.exchanging o.ctx = false ∨ t.multi = false then s
      else (body (s.countHeads o.ctx o.srcs) t x).sendCopies o.ctx t o.xfers

/-! The dual-path check (R295 to R297). -/

/-- Chunk c of the running step is drawn for a check (R295). -/
def chunkDrawn (s : State) (c k : Nat) : Bool :=
  let o := aes256 (leNums 32 (s.ctx c).seedKey) (leNums 6 (s.stepNo c) ++ [0, 0] ++ leNums 4 (k / 8) ++ leNums 4 3)
  decide (leNum ((o.drop (2 * (k % 8))).take 2) < s.pol 0x50)

/-- The member that forms a sum (R296). -/
def primaryOf (s : State) (c : Nat) (t : Template) (x : Tensor) (o : ChunkOp) : Nat :=
  s.ownerOf c t x (if o.sum = 0 then o.first / max 1 x.cols else 0)

/-- The checker and the referee of a chunk (R296); with two survivors the checker's module is the referee. -/
def checkersOf (s : State) (c : Nat) (t : Template) (primary chunk : Nat) : Nat × Nat :=
  let l := s.aliveGroup c t
  let n := l.length
  let i := indexOf l primary
  let k := (i + 1 + chunk % max 1 (n - 1)) % max 1 n
  let next := (k + 1) % max 1 n
  let j := if n = 2 then k else if next = i then (next + 1) % max 1 n else next
  (l.getD k 0, l.getD j 0)

/-- Sum the copies of a chunk in member order and send the result to the primary, the checker on the alternate route (R296, R297). -/
def sumCopies (s : State) (copy : Bool) (o : ChunkOp) (t : Template) (x : Tensor) : State :=
  let hs := s.heads o.ctx o.srcs
  let w := if o.sum ≠ 0 ∧ x.bf16 then 2 else 4
  let own := fun (e : Nat) => if w = 2 then ofBf16 (s.load (o.own + 2 * (e - o.first)) 2) else s.word (o.own + 4 * (e - o.first))
  match allSums ((List.range o.count).map (fun i => s.sumAt o.ctx t hs 6 x.id w own (o.first + i))) with
  | none => s
  | some l => (o.xfers.filter (fun f => decide (f.kind = 7))).foldl (fun s f => s.sendPortion copy o.ctx t f 0 (l.flatMap (fun v => leBytes 4 v.toNat))) s

/-- Words of a result (kind 7) that covers the chunk; none if it is not there. -/
def resultWords (s : State) (o : ChunkOp) (a : Nat) : Option (List Word) :=
  match s.heads o.ctx [a] with
  | [(a, h)] => if h.kind = 7 ∧ h.tensor = o.tensor ∧ h.first = o.first ∧ h.elements = o.count then some (s.words (a + 64) o.count) else none
  | _ => none

/-- Own summing cores go under observation as findings of kind 2 (R297, R417). -/
def observeCores (s : State) (o : ChunkOp) : State := o.cores.foldl (fun s p => s.finding 2 (some p) 2 p o.chunk) s

/-- The words of the primary's own sum. -/
def ownSum (s : State) (o : ChunkOp) : List Word := s.words o.own o.count

/-- The primary's decision (R297). -/
def decideChunk (s : State) (o : ChunkOp) (check ref : List Word) : State :=
  let mine := s.ownSum o
  let s := s.updExch o.ctx (fun e => { e with refereed := e.refereed.filter (fun k => decide (k ≠ o.chunk)) })
  if ref = mine then s
  else if ref = check then
    let s := s.observeCores o
    if o.sum = 0 then s.setWords o.own ref else s.sendAbandon o.ctx
  else (s.observeCores o).sendAbandon o.ctx

/-- Run chunk work on its tensor while the exchange works. -/
def chunkWork (s : State) (o : ChunkOp) (body : State → Template → Tensor → State) : State :=
  match s.template o.ctx with
  | none => s
  | some t => match t.tensor o.tensor with
    | none => s
    | some x => if s.exchanging o.ctx = false ∨ t.multi = false then s else body (s.countHeads o.ctx o.srcs) t x

/-! Step records (R280 to R282, R287, R289, R298, R301). -/

/-- Run the body on a record of the running exchange, or discard and count it (R281). -/
def withRec (s : State) (o : StepRec) (body : State → Template → State) : State :=
  match s.template o.head.ctx with
  | none => s
  | some t => s.heard o.head (if s.current o.head.ctx (o.step % 2 ^ 48) o.attempt then body s t else s.staleRec o.head.ctx)

/-- A READY of frame f (R282): the smallest one fixes the start of the step. -/
def readyAt (s : State) (c f : Nat) : State :=
  s.updExch c (fun e => { e with startAt := match e.startAt with | some n => some (min n (f + 2)) | none => some (f + 2) })

/-- READY (R282). -/
def takeReady (s : State) (o : StepRec) : State :=
  let c := o.head.ctx
  if (s.ctx c).step.isSome ∨ o.step ≠ s.stepNo c % 2 ^ 48 ∨ o.attempt ≠ 0 then s.staleRec c else s.readyAt c o.frame

/-- SCALAR (R287). -/
def takeScalar (s : State) (o : StepRec) : State :=
  s.withRec o (fun s t => (s.updExch o.head.ctx (fun e => { e with scalars := e.scalars ++
    [⟨o.sender, BitVec.ofNat 32 o.frame, BitVec.ofNat 32 (o.frame / 2 ^ 32), o.nonFinite⟩] })).combine o.head.ctx t)

/-- VOTE for a step (R289), or for a restore (R459), whose votes wait in the load. -/
def takeVote (s : State) (o : StepRec) : State :=
  match (s.ctx o.head.ctx).loading with
  | some l => s.updCtx o.head.ctx (fun x => { x with loading := some { l with votes := l.votes ++ [(o.sender, decide (o.arg = 0))] } })
  | none => s.withRec o (fun s t => (s.updExch o.head.ctx (fun e => { e with votes := e.votes ++ [(o.sender, o.arg)] })).countVotes o.head.ctx t)

/-- ABANDON (R298). -/
def takeAbandon (s : State) (o : StepRec) : State :=
  let c := o.head.ctx
  let live := match (s.ctx c).step with | some r => decide (r.step % 2 ^ 48 = o.step) | none => false
  if live = true ∧ (s.ctx c).exch.attempt = o.attempt then s.applyAbandon c o.frame else s.staleRec c

/-- STATE (R301): the sender has committed the step or not. -/
def takeState (s : State) (o : StepRec) : State :=
  let c := o.head.ctx
  match (s.ctx c).step with
  | some r => if r.step % 2 ^ 48 = o.step then s.updExch c (fun e => { e with states := e.states ++ [(o.sender, decide (o.arg = 1))] }) else s.staleRec c
  | none => s.staleRec c

/-- A RESUME of a member in frame f (R289): with the last of those that voted HOLD, UPDATE re-runs at T(f1 + 2). -/
def resumeFrom (s : State) (c sender f : Nat) : State :=
  let s := s.updExch c (fun e => { e with resumes := if e.resumes.contains sender then e.resumes else e.resumes ++ [sender] })
  let e := (s.ctx c).exch
  if (e.votes.filter (fun v => decide (v.2 = 1))).all (fun v => e.resumes.contains v.1) then
    s.updExch c (fun e => { e with resumeAt := match e.resumeAt with | some n => some (max n (f + 2)) | none => some (f + 2) })
  else s

/-- RESUME (R289). -/
def takeResume (s : State) (o : StepRec) : State := s.withRec o (fun s _ => s.resumeFrom o.head.ctx o.sender o.frame)

/-- Apply the module's own record as it leaves in frame f: READY, ABANDON and RESUME count from the sending frame (R280). -/
def applyOwnSignal (s : State) (h : HeldRec) : State :=
  match s.template h.ctx, h.kind with
  | some t, 1 =>
    match h.bytes.getD 7 0 with
    | 1 => s.readyAt h.ctx s.frame
    | 4 => s.applyAbandon h.ctx s.frame
    | 6 => s.resumeFrom h.ctx (s.ownCtxIdx t) s.frame
    | _ => s
  | _, _ => s

/-- A held record with the number of the frame that sends it (R280). -/
def stamped (s : State) (h : HeldRec) : List Nat :=
  if h.kind = 1 ∧ (h.bytes.getD 7 0 = 1 ∨ h.bytes.getD 7 0 = 4 ∨ h.bytes.getD 7 0 = 6) then
    h.bytes.take 16 ++ leNums 8 s.frame ++ h.bytes.drop 24
  else h.bytes

/-- Send the held records (R48). -/
def sendRecords (s : State) : State :=
  let l := s.fr.records
  let s : State := { s with fr := { s.fr with records := [] } }
  l.foldl (fun s h => (h.dests.foldl (fun s d => s.record d 2 h.kind ([h.ctx, h.gen] ++ s.stamped h)) s).applyOwnSignal h) s

/-- REREDUCE (R297): every contributor sends its part of the chunk to the referee. -/
def takeRereduce (s : State) (o : StepRec) (copies : List Xfer) : State :=
  s.withRec o (fun s t => (copies.filter (fun f => decide (f.kind = 6 ∧ f.chunk = o.arg))).foldl (fun s f =>
    let w := match t.tensor f.tensor with | some x => if x.bf16 ∧ x.rank ≠ 0 then 2 else 4 | none => 4
    s.sendXfer o.head.ctx t f 0 (s.bytes f.src (w * f.count))) s)

/-! Lost members (R300 to R302). -/

/-- Module x is removed from the context at the tick (R300 to R302): counted and reported, its rows pass to adopters, who read its moments
(R461), and the survivors send STATE for the step in progress. LAST names a member of this module's data group only (log entry 190). -/
def removeMember (s : State) (c : Nat) (t : Template) (x e : Nat) : State :=
  let mine := fun (s : State) => t.tensors.map (fun y => (s.ownRows c t y).length)
  let before := mine s
  let s := s.updCtx c (fun y => { y with
    exch := { y.exch with lost := y.exch.lost ++ [(x, e)], stateAt := if y.step.isSome then some (e + 2) else y.exch.stateAt },
    ckpt := { y.ckpt with fails := y.ckpt.fails ++ [s.now] } })
  let s := if mine s = before then s else s.updExch c (fun y => { y with adopting := y.adopting ++ [(x, s.frame + 1, false)], ad := [] })
  let s := s.bump F.EXCH_LOST_LOST c 1
  let s := if t.group.contains x then (s.put F.EXCH_LOST_LAST_VALID c 1).put F.EXCH_LOST_LAST c (indexOf t.group x) else s
  let s := s.put F.EXCH_STEP_MEMBERS c (s.aliveGroup c t).length
  let s := (s.raise F.EXCH_EVT_MEMBER_LOST c).eventAtOpen 0x0506 6 c
  match (s.ctx c).step with
  | some _ => (s.sendRec c 5 0 0 0).updExch c (fun y => { y with states := y.states ++ [(s.ownCtxIdx t, false)] })
  | none => s.toMembers c 1 (recBytes (s.stepNo c - 1) 0 5 (s.ownCtxIdx t) 1 0 0)

end State

/-- STEP_READY (R282). -/
def execStepReady (o : StepRec) (s : State) : Outcome := .next (s.heard o.head (s.takeReady o))

/-- EXCH_SCATTER (R284, R292, R296): dense partials of the other members' rows, P partials as they are formed, and check copies; the P partial
of the factor owner itself stays where it is formed. -/
def execExchScatter (ctx : Nat) (xfers : List Xfer) (s : State) : Outcome :=
  .next (match s.template ctx, (s.ctx ctx).step with
    | some t, some r =>
      if s.exchanging ctx = false ∨ t.multi = false then s
      else
        let n := r.samples.length
        let s := (xfers.filter (fun f => decide (f.kind = 0))).foldl (fun s f => match t.tensor f.tensor with
          | some x => s.sendXfer ctx t f n (s.bytes (s.partAt ctx x + 4 * f.first) (4 * f.count))
          | none => s) s
        let from_ := s
        let s := (xfers.filter (fun f => decide (f.kind = 1))).foldl (fun s f => match t.tensor f.tensor with
          | some x =>
            let p := from_.pPartial ctx x f.first f.count
            let s := s.setBytes (f.src + (if x.bf16 then 2 else 4) * f.first) p
            if f.member = s.ownIdx t then s else s.sendXfer ctx t f n p
          | none => s) s
        s.sendCopies ctx t xfers
    | _, _ => s)

/-- OWNER_SUM (R285). -/
def execOwnerSum (o : SumOp) (s : State) : Outcome := .next (s.sumWork o (fun s t x => s.ownerSum o t x))

/-- THIN_P_SUM (R292): at the factor owner. -/
def execThinPSum (o : SumOp) (s : State) : Outcome :=
  .next (s.sumWork o (fun s t x => if x.rank ≠ 0 ∧ s.ownerOf o.ctx t x 0 = s.ownIdx t then s.pSum o t x else s))

/-- THIN_Q_PARTIAL (R292). -/
def execThinQPartial (o : SumOp) (s : State) : Outcome := .next (s.sumWork o (fun s t x => if x.rank ≠ 0 then s.qPartial o t x else s))

/-- THIN_Q_SUM (R292): at the factor owner. -/
def execThinQSum (o : SumOp) (s : State) : Outcome :=
  .next (s.sumWork o (fun s t x =>
    if x.rank ≠ 0 ∧ s.ownerOf o.ctx t x 0 = s.ownIdx t then
      s.qSum o t x (match (s.ctx o.ctx).step with | some r => r.nTot | none => 0)
    else s))

/-- SCALAR (R287). -/
def execScalar (o : StepRec) (s : State) : Outcome := .next (s.takeScalar o)

/-- MASTERS_APPLY (R288, R430): gathered masters go to the free slot; with an owner's last ones its rows are digested and compared. -/
def execMastersApply (o : GatherOp) (s : State) : Outcome :=
  .next (match s.template o.ctx with
    | none => s
    | some t =>
      if s.exchanging o.ctx = false ∨ t.multi = false then s
      else
        let hs := (s.heads o.ctx o.srcs).filter (fun h => decide (h.2.kind = 5 ∧ h.2.sender = o.owner))
        let s := s.countHeads o.ctx o.srcs
        let s := hs.foldl (fun s h => match t.tensor h.2.tensor with
          | some x => s.setWords ((s.ctx o.ctx).slot x.master true + 4 * h.2.first) (s.words (h.1 + 64) h.2.elements)
          | none => s) s
        if o.last ∧ (s.ctx o.ctx).exch.applied.contains o.owner = false then
          let d := s.ownerDigest o.ctx t o.owner true
          let s := s.updExch o.ctx (fun e => { e with applied := e.applied ++ [o.owner], adNew := tput e.adNew o.owner d })
          (s.compareOwner o.ctx t o.owner).tryVote o.ctx t
        else s)

/-- RESUME (R289). -/
def execResume (o : StepRec) (s : State) : Outcome := .next (s.takeResume o)

/-- CHECK_COPY_SUM (R296): at the chunk's checker. -/
def execCheckCopySum (o : ChunkOp) (s : State) : Outcome :=
  .next (s.chunkWork o (fun s t x =>
    if (s.checkersOf o.ctx t (s.primaryOf o.ctx t x o) o.chunk).1 = s.ownIdx t ∧
        (s.chunkDrawn o.ctx o.chunk = true ∨ 0 < (s.ctx o.ctx).exch.attempt) then s.sumCopies true o t x else s))

/-- CHECK_COMPARE (R297): at the primary. -/
def execCheckCompare (o : ChunkOp) (s : State) : Outcome :=
  .next (s.chunkWork o (fun s t x =>
    match s.resultWords o (o.srcs.headD 0) with
    | none => s
    | some l =>
      if s.primaryOf o.ctx t x o ≠ s.ownIdx t then s
      else
        let s := s.bump F.EXCH_CHK_CHECKED o.ctx 1
        if l = s.ownSum o then s
        else
          let s := ((s.bump F.EXCH_CHK_MISMATCH o.ctx 1).raise F.EXCH_EVT_MISMATCH o.ctx).eventOpen 0x0505 6 o.ctx
          (s.sendRec o.ctx 7 o.chunk 0 0).updExch o.ctx (fun e => { e with refereed := e.refereed ++ [o.chunk] })))

/-- REREDUCE (R297). -/
def execRereduce (o : StepRec) (copies : List Xfer) (s : State) : Outcome := .next (s.takeRereduce o copies)

/-- REFEREE_SUM (R297): at the chunk's referee. -/
def execRefereeSum (o : ChunkOp) (s : State) : Outcome :=
  .next (s.chunkWork o (fun s t x =>
    if (s.checkersOf o.ctx t (s.primaryOf o.ctx t x o) o.chunk).2 = s.ownIdx t then s.sumCopies false o t x else s))

/-- REFEREE_DECISION (R297): at the primary; `srcs` are the checker's and the referee's results. -/
def execRefereeDecision (o : ChunkOp) (s : State) : Outcome :=
  .next (s.chunkWork o (fun s _ _ =>
    match s.resultWords o (o.srcs.headD 0), s.resultWords o (o.srcs.getD 1 0) with
    | some check, some ref => if (s.ctx o.ctx).exch.refereed.contains o.chunk then s.decideChunk o check ref else s
    | _, _ => s))

/-- ABANDON (R298). -/
def execAbandon (o : StepRec) (s : State) : Outcome := .next (s.heard o.head (s.takeAbandon o))

/-- EXCH_RERUN (R298): at T(f + 2). -/
def execExchRerun (ctx : Nat) (s : State) : Outcome :=
  .next (match (s.ctx ctx).exch.rerunAt with
    | some n => if n ≤ s.frame + 1 then s.rerun ctx else s
    | none => s)

/-- MEMBER_LATE (R300): data or a record due in a frame is EXCH_WAIT frames late. -/
def execMemberLate (ctx member due : Nat) (s : State) : Outcome :=
  .next (match s.template ctx with
    | none => s
    | some t => if (s.ctx ctx).step.isSome = true ∧ due + s.seen F.EXCH_CFG_EXCH_WAIT 0 ≤ s.frame then
        s.reportLostIn ctx (t.members.getD member 0) else s)

/-- LOSS_REPORT (R300): the earliest effective frame stands. -/
def execLossReport (head : FlitHead) (member frame : Nat) (s : State) : Outcome :=
  .next (
    let e := (s.ctx head.ctx).exch
    if e.lost.any (fun l => decide (l.1 = member)) then s
    else
      let known := e.pending.any (fun l => decide (l.1 = member))
      let old := e.pending.map (fun l => if l.1 = member then (l.1, min l.2 frame) else l)
      s.updExch head.ctx (fun e => { e with pending := if known then old else e.pending ++ [(member, frame)] }))

/-- MEMBER_REMOVAL (R300 to R302): at T(E); the module's own removal faults its copy. -/
def execMemberRemoval (ctx : Nat) (s : State) : Outcome :=
  .next (match s.template ctx with
    | none => s
    | some t =>
      let now := (s.ctx ctx).exch.pending.filter (fun l => decide (l.2 ≤ s.frame + 1))
      let s := s.updExch ctx (fun e => { e with pending := e.pending.filter (fun l => decide (s.frame + 1 < l.2)) })
      now.foldl (fun s l =>
        if l.1 = s.ownId then (if 2 ≤ s.ctxLive ctx ∧ s.ctxLive ctx ≤ 4 then s.enterFaulted ctx 3 else s)
        else s.removeMember ctx t l.1 l.2) s)

/-- STATE_RECORD (R301). -/
def execStateRecord (o : StepRec) (s : State) : Outcome := .next (s.heard o.head (s.takeState o))

/-- STATE_DECISION (R301): at T(E + 2). -/
def execStateDecision (ctx : Nat) (s : State) : Outcome :=
  .next (match s.template ctx, (s.ctx ctx).exch.stateAt with
    | some t, some n =>
      if s.frame + 1 < n ∨ (s.ctx ctx).step.isNone then s
      else
        let e := (s.ctx ctx).exch
        let s := s.updExch ctx (fun e => { e with stateAt := none, states := [] })
        if e.states.any (fun x => x.2) then
          (if e.votes.any (fun v => decide (v = (s.ownCtxIdx t, 0))) then s.updRun ctx (fun r => { r with stage := 3 }) else s)
        else
          let s := s.applyAbandon ctx s.frame
          if (s.ctx ctx).faultDue.isNone then s.rerun ctx else s
    | _, _ => s)

end Sys2Proof.Machine
end

