-- ==== Sys2Proof/Machine/Matrix.lean ====
section
/-!
DEFINITION. Machine/Matrix.lean: the matrix engine (spec/06_core_digital.md R189 to R205). An operation is one command: it reads its
operands, writes its output, counts and signals; the holds of R213 have no effect of their own.
-/
namespace Sys2Proof.MatrixDesc

open Sys2Proof.Machine

/-- Output tiles in row-major order (R201): their number along N. -/
def tilesN (d : MatrixDesc) : Nat := (d.n + 63) / 64

/-- Output tiles n_t (R203). -/
def tiles (d : MatrixDesc) : Nat := (d.m + 31) / 32 * d.tilesN

/-- The descriptor obeys R191, R201 and R204. -/
def ok (d : MatrixDesc) : Bool :=
  (match d.acc with
    | 0 => isFloatFamily d.fmtA && isFloatFamily d.fmtB
    | 1 => isNarrowFloat d.fmtA && isNarrowFloat d.fmtB
    | 2 => isTileInt d.fmtA && isTileInt d.fmtB
    | 3 => isTileInt d.fmtA && isTileInt d.fmtB
    | _ => false) &&
  decide (d.chunk < 3) && decide (d.outFmt < 15) &&
  decide ((isMx d.fmtA || isMx d.fmtB) = true → d.k % 32 = 0) &&
  decide (0 < d.m) && decide (0 < d.n) && decide (0 < d.k) &&
  (if d.stream then decide (d.slot ≤ 14) && !d.resume else decide (d.slot + d.tiles ≤ 16))

/-- s_AB (R199). -/
def scaleAB (d : MatrixDesc) : Word :=
  let one : Word := 0x3F800000
  fmul (if d.fmtA = 3 ∨ d.fmtA = 4 then d.scaleA else one) (if d.fmtB = 3 ∨ d.fmtB = 4 then d.scaleB else one)

/-- k_f (R194). -/
def kf (d : MatrixDesc) : Int := max 0 (emaxOf d.fmtA + emaxOf d.fmtB - 6)

/-- Output positions with their tile, tile after tile, rows within a tile in order (R201). -/
def outs (d : MatrixDesc) : List (Nat × Nat × Nat) :=
  (List.range d.tiles).flatMap (fun t => (List.range 32).flatMap (fun i => (List.range 64).filterMap (fun j =>
    let r := t / d.tilesN * 32 + i
    let c := t % d.tilesN * 64 + j
    if r < d.m ∧ c < d.n then some (t, r, c) else none)))

/-- Slot that holds a tile: SLOT + t, or the two spill buffers in turn in stream mode (R201). -/
def slotOf (d : MatrixDesc) (t : Nat) : Nat := d.slot + if d.stream then t % 2 else t

/-- Byte of the accumulator file that holds an output of a tile (R201, R211). -/
def slotByte (d : MatrixDesc) (t r c : Nat) : Nat := d.slotOf t * 0x2000 + (r % 32 * 64 + c % 64) * 4

end Sys2Proof.MatrixDesc

namespace Sys2Proof.Machine

namespace State

/-- Element k of row r of operand A, before its scales (R189). -/
def matA (s : State) (p : Nat) (d : MatrixDesc) (r k : Nat) : FVal := elemVal d.fmtA (s.spElem p (d.aAddr + r * d.aStride) d.fmtA k)

/-- Element k of row c of operand B. -/
def matB (s : State) (p : Nat) (d : MatrixDesc) (c k : Nat) : FVal := elemVal d.fmtB (s.spElem p (d.bAddr + c * d.bStride) d.fmtB k)

/-- Scale byte of block b of row r of an operand; 127 without block scaling (R189, R192). -/
def scaleByte (s : State) (p f addr k r b : Nat) : Nat :=
  if isMx f then (s.byte (spAddr p (addr + r * (k / 32) + b))).toNat else 127

/-- Row r of operand A as an operand of a sum. -/
def rowA (s : State) (p : Nat) (d : MatrixDesc) (r : Nat) : MatRow := ⟨d.fmtA, s.matA p d r, s.scaleByte p d.fmtA d.aScaleAddr d.k r⟩

/-- Row c of operand B. -/
def rowB (s : State) (p : Nat) (d : MatrixDesc) (c : Nat) : MatRow := ⟨d.fmtB, s.matB p d c, s.scaleByte p d.fmtB d.bScaleAddr d.k c⟩

/-- FP32 accumulation with a wide operand (R193): the sum of products, s_AB applied once; a resumed operation whose s_AB is 1.0 starts
from the slot, another adds its scaled sum to it (R196, R199, log entry 23). -/
def accWide (s : State) (p : Nat) (d : MatrixDesc) (r c : Nat) (slot : Word) : Word :=
  let one := decide (d.scaleAB = 0x3F800000)
  let sum := (s.rowA p d r).accWide (s.rowB p d c) d.k (if d.resume && one then slot else 0)
  if one then sum else if d.resume then ffma sum d.scaleAB slot else fmul sum d.scaleAB

/-- The FP16 value of a chunk of blocks from b0 to b1 - 1 (R194). -/
def chunkSum (s : State) (p : Nat) (d : MatrixDesc) (key : Nat × Nat) (r c : Nat) (blocks : List Nat) (ec : Int) : FVal :=
  blocks.foldl (fun (a : FVal) b => Fmt.fp16.dec (Fmt.fp16.ofVal (.stoch (draw12 key r c b))
    (a.add (((s.rowA p d r).blockSum (s.rowB p d c) d.k b).scale ((s.rowA p d r).blockExp (s.rowB p d c) b - ec - d.kf))))) (.fin false 0 0)

/-- FP16 chunked accumulation and its spills (R194, R195). -/
def accChunked (s : State) (p : Nat) (d : MatrixDesc) (key : Nat × Nat) (r c : Nat) (start : Word) : Word :=
  let per := 2 * 2 ^ d.chunk
  let blocks := (d.k + 31) / 32
  (List.range ((blocks + per - 1) / per)).foldl (fun (a : Word) j =>
    let bs := (List.range (min per (blocks - per * j))).map (fun i => per * j + i)
    let ec := (bs.map (fun b => (s.rowA p d r).blockExp (s.rowB p d c) b)).foldl max 0
    fin32 a a ((f32 a).add (((s.chunkSum p d key r c bs ec).scale (ec - 254 + d.kf)).mul (f32 d.scaleAB)))) start

/-- Integer value of an element. -/
def intOf (v : FVal) : Int := roundHalfEven v

/-- INT32 accumulation with tile scales (R197). -/
def accTile (s : State) (p : Nat) (d : MatrixDesc) (r c : Nat) (start : Word) : Word :=
  let n := (d.k + 127) / 128
  (List.range n).foldl (fun (a : Word) j =>
    let sum : Int := (List.range (min 128 (d.k - 128 * j))).foldl (fun (x : Int) i =>
      x + intOf (s.matA p d r (128 * j + i)) * intOf (s.matB p d c (128 * j + i))) 0
    let st := fmul (s.spWord p (d.aScaleAddr + 4 * (r / 128 * n + j))) (s.spWord p (d.bScaleAddr + 4 * (c / 128 * n + j)))
    ffma (f32Int sum) st a) start

/-- Raw integer mode (R198): the sum and whether it has saturated. -/
def accRaw (s : State) (p : Nat) (d : MatrixDesc) (r c : Nat) (start : Int) : Int × Bool :=
  (List.range d.k).foldl (fun (x : Int × Bool) k =>
    if x.2 then x
    else
      let v := x.1 + intOf (s.matA p d r k) * intOf (s.matB p d c k)
      if 2147483647 < v then (2147483647, true) else if v < -2147483647 then (-2147483647, true) else (v, false)) (start, false)

/-- An output: its 32 bits, and whether it saturated in raw integer mode. C₀ is the slot of a resumed operation, else zero (R189, R196). -/
def matOut (s : State) (p : Nat) (d : MatrixDesc) (key : Nat × Nat) (t r c : Nat) : Word × Bool :=
  let start : Word := if d.resume then s.word (accAddr p (d.slotByte t r c)) else 0
  match d.acc with
  | 0 => (if isNarrowFloat d.fmtA && isNarrowFloat d.fmtB then (s.rowA p d r).accNarrow (s.rowB p d c) d.k d.scaleAB start
      else s.accWide p d r c start, false)
  | 1 => (s.accChunked p d key r c start, false)
  | 2 => (s.accTile p d r c start, false)
  | _ => let v := s.accRaw p d r c start.toInt; (BitVec.ofInt 32 v.1, v.2)

/-- An output reduces over a block with scale 0xFF (R200). -/
def outNan (s : State) (p : Nat) (d : MatrixDesc) (r c : Nat) : Bool :=
  (List.range ((d.k + 31) / 32)).any (fun b => (s.rowA p d r).blockNan (s.rowB p d c) b)

/-- Write an output to its slot, and its bit of the saturation flag plane if it saturated (R198, R201, R211). -/
def putOut (p : Nat) (d : MatrixDesc) (s : State) (o : (Nat × Nat × Nat) × Word × Bool) : State :=
  let s := s.setWord (accAddr p (d.slotByte o.1.1 o.1.2.1 o.1.2.2)) o.2.1
  if o.2.2 then
    let bit := o.1.2.1 % 32 * 64 + o.1.2.2 % 64
    let a := accAddr p (0x3B000 + 256 * d.slotOf o.1.1 + bit / 8)
    s.setByte a (s.byte a ||| BitVec.ofNat 8 (2 ^ (bit % 8)))
  else s

/-- The flag bits of the slots are cleared when an operation that does not resume writes them (R198). -/
def clearFlags (s : State) (p : Nat) (d : MatrixDesc) : State :=
  if d.resume then s
  else (List.range (if d.stream then min 2 d.tiles else d.tiles)).foldl
    (fun s t => s.zeroBytes (accAddr p (0x3B000 + 256 * d.slotOf t)) 256) s

end State

/-- Narrow one output row in groups of 128 columns, each with its scale (R159, R202). -/
def narrowOut (f rule fr : Nat) (scaleOf : Nat → Word) (l : List FVal) : Narrowed :=
  ((groups 128 (l.length / 128 + 1) l).zipIdx.map (fun g => narrowRow f rule (fr + 128 * g.2) (scaleOf g.2) g.1)).foldl
    Narrowed.join Narrowed.none

namespace State

/-- Values of row r of the outputs of an operation. -/
def outRow (d : MatrixDesc) (os : List ((Nat × Nat × Nat) × Word × Bool)) (r : Nat) : List FVal :=
  (List.range d.n).map (fun c => match os.find? (fun o => decide (o.1.2.1 = r) && decide (o.1.2.2 = c)) with
    | none => .fin false 0 0
    | some o => if d.acc = 3 then ofInt o.2.1.toInt 0 else f32 o.2.1)

/-- Write the scale plane of a stream output after its rows (R202): E8M0 bytes for an MX format, the FP32 tensor scale for FP8, the FP32
tile scales for INT8 and INT4 (log entry 24). -/
def streamPlane (d : MatrixDesc) (rows : List (List FVal)) (ns : List Narrowed) : List Byte :=
  if isMx d.outFmt then ns.flatMap (fun w => w.scales.map (fun b => BitVec.ofNat 8 b))
  else if d.outFmt = 3 ∨ d.outFmt = 4 then leBytes 4 (tensorScale d.outFmt rows.flatten).toNat
  else if isTileInt d.outFmt then
    (groups 128 (d.m / 128 + 1) rows).flatMap (fun g => (List.range ((d.n + 127) / 128)).flatMap (fun j =>
      leBytes 4 (tensorScale d.outFmt (g.flatMap (fun l => (l.drop (128 * j)).take 128))).toNat))
  else []

/-- Scale of the columns 128 j to 128 j + 127 of row r of a stream output. -/
def streamScale (d : MatrixDesc) (rows : List (List FVal)) (r j : Nat) : Word :=
  if isTileInt d.outFmt then
    tensorScale d.outFmt (((rows.drop (r / 128 * 128)).take 128).flatMap (fun l => (l.drop (128 * j)).take 128))
  else tensorScale d.outFmt rows.flatten

/-- Stream output (R201, R202): rows in OUT_FMT, then the scale plane; trouble counts go to TCX. Answers the state and the bytes written. -/
def streamMatrix (s : State) (p : Nat) (d : MatrixDesc) (os : List ((Nat × Nat × Nat) × Word × Bool)) : State × Nat :=
  let rows := (List.range d.m).map (outRow d os)
  let per := (d.n + 127) / 128 * 128
  let ns : List Narrowed := if isNarrow d.outFmt then
      rows.zipIdx.map (fun l => narrowOut d.outFmt (if d.outRule = 0 then 0 else 1) (s.freeCtr + per * l.2) (streamScale d rows l.2) l.1)
    else rows.map (fun l => { Narrowed.none with codes := l.map (wideCode d.outFmt .near) })
  let bs := ns.map (fun w => packBytes (elemBits d.outFmt) w.codes)
  let plane := streamPlane d rows ns
  let s := bs.zipIdx.foldl (fun s b => s.setSp p (d.outAddr + b.2 * d.outStride) b.1) s
  let s := s.setSp p (d.outAddr + d.m * d.outStride) plane
  let s := if isNarrow d.outFmt then (s.countTile p d.tcx (ns.foldl Narrowed.join Narrowed.none)).skipDraws (per * d.m) else s
  (s, (bs.map (fun b => b.length)).foldl (· + ·) 0 + plane.length)

/-- Count outputs in NUM_ACC and set their event (R198, R200). -/
def countAcc (s : State) (p sat nan : Nat) : State :=
  let s := if sat = 0 then s else (s.bump F.NUM_ACC_I32_SAT p sat).raise F.NUM_CORE_EVT_I32_SAT p
  if nan = 0 then s else (s.bump F.NUM_ACC_NAN_SCALE p nan).raise F.NUM_CORE_EVT_NAN_SCALE p

/-- A matrix operation on physical core p (R189 to R205). Narrowed rows wait for the check of their tile counter (R171); their wide values, in the
two spill buffers, do not stay (R201). -/
def matrixOp (s : State) (p : Nat) (d : MatrixDesc) : State :=
  let c := s.active p
  let key := s.opKeyOf c d.opId
  let os := d.outs.map (fun o => (o, s.matOut p d key o.1 o.2.1 o.2.2))
  let sat := (os.filter (fun o => o.2.2)).length
  let nan := (d.outs.filter (fun o => s.outNan p d o.2.1 o.2.2)).length
  let s := (s.trace p 0 1 c).clearFlags p d
  let s := os.foldl (putOut p d) s
  let r := if d.stream then s.streamMatrix p d os else (s, 4 * d.m * d.n)
  let s := if d.stream && isNarrow d.outFmt then r.1.awaitCheck p d.tcx (spAddr p d.outAddr) (d.m * d.outStride) 0 0 else r.1
  ((s.countAcc p sat nan).signalDone p c d.gen d.sigCtr r.2).trace p 0 2 c

end State

/-- What an operation reads in the scratchpad, as keys with lengths: the rows and scale planes of its operands (R189, R204). -/
def matReads (p : Nat) (d : MatrixDesc) : List (Nat × Nat) :=
  (List.range d.m).flatMap (fun r => [(spAddr p (d.aAddr + r * d.aStride), (d.k * elemBits d.fmtA + 7) / 8), (spAddr p (d.aScaleAddr + r * (d.k / 32)), d.k / 32)]) ++
    (List.range d.n).flatMap (fun c => [(spAddr p (d.bAddr + c * d.bStride), (d.k * elemBits d.fmtB + 7) / 8), (spAddr p (d.bScaleAddr + c * (d.k / 32)), d.k / 32)])

/-- What it writes: its slots, and in stream mode its output rows (R201). -/
def matWrites (p : Nat) (d : MatrixDesc) : List (Nat × Nat) :=
  (List.range d.tiles).map (fun t => (accAddr p (d.slotOf t * 0x2000), 0x2000)) ++
    if d.stream then (List.range d.m).map (fun r => (spAddr p (d.outAddr + r * d.outStride), (d.n * elemBits d.outFmt + 7) / 8)) else []

/-- MATRIX_OPERATION (R203, R204): a descriptor that the image loader refuses has no effect that the spec gives. -/
def execMatrixOperation (core : Nat) (d : MatrixDesc) (s : State) : Outcome :=
  if d.ok then .next (if s.mayRun core 0 && s.untouched core (matReads core d) (matWrites core d) then s.matrixOp core d else s) else .fault .reservedCode

end Sys2Proof.Machine
end

