-- ==== Sys2Proof/Machine/Vector.lean ====
section
/-!
DEFINITION. Machine/Vector.lean: the operations of the vector engine (spec/06_core_digital.md R224 to R230).
-/
namespace Sys2Proof.VecInstr

open Sys2Proof.Machine

/-- All types of R224. -/
def allTypes : List Nat := [0, 1, 0xD]

/-- The format that UNPACK or PACK names keeps its scale in a plane (MX), in the immediate, or has none (R226). -/
def scaleOk (x : VecInstr) (f : Nat) : Bool :=
  if isMx f then !x.bimm && vecAddrOk x.srcB 1 else if isNarrow f ∨ f = 0xE then x.bimm else true

/-- An instruction with an operation code is one that the image loader takes: a code of R224, its types and AUX forms (R219, R222 to R227, R230). -/
def legal (x : VecInstr) (op : Nat) : Bool :=
  let f := x.aux % 16
  let two := decide (f = 1 ∨ f = 2)
  let ints := [0, 0xD]
  match op with
  | 0x01 | 0x02 | 0x03 | 0x05 | 0x06 | 0x12 | 0x28 => x.ok allTypes true true false
  | 0x04 => x.ok [0, 1] true true false
  | 0x07 | 0x08 => x.ok allTypes true false false
  | 0x09 => x.ok allTypes (!x.bimm) x.bimm false
  | 0x10 => x.ok allTypes true true false && decide (x.count = 1 ∧ x.aux % 8 ≤ 6) && decide (x.type = 1 → x.aux / 8 % 2 = 0)
  | 0x11 => x.ok ints true true false && decide (x.aux % 8 ≤ 6)
  | 0x13 => x.ok ints true true false && !x.bimm
  | 0x18 | 0x19 | 0x1A | 0x1B | 0x33 => x.ok [0] true false false
  | 0x20 => x.ok allTypes true false two && decide (f ≠ 15)
  | 0x21 => ({ x with dst := x.dst / 64 * 64 } : VecInstr).ok [0, 1] true false two && vecAddrOk x.dst 16 && (two || isNarrow f) && x.scaleOk f
  | 0x22 => x.ok [0, 1] false false false && vecAddrOk x.srcA 16 && (two || decide (f = 0xE) || isNarrow f) && x.scaleOk f
  | 0x29 => x.ok allTypes true (decide (2 ≤ x.aux % 8 ∧ x.aux % 8 ≤ 5)) false
  | 0x30 | 0x31 | 0x32 => x.ok ints true false false
  | 0x34 => x.ok [0] true true false && !x.bimm
  | 0x35 => x.ok [0] true false false && x.bimm
  | 0x38 => decide (x.aux % 8 ≤ 3 ∧ x.tcx < 16)
  | 0x3C => decide (x.srcB % 128 ≤ 64)
  | 0x3D => true
  | _ => false

/-- Bytes that an instruction with an operation code reads at its operands A and B, and writes at its destination. -/
def reach (x : VecInstr) (op : Nat) : Nat × Nat × Nat :=
  let packed := x.elems * elemBits (x.aux % 16) / 8
  match op with
  | 0x07 | 0x08 | 0x18 | 0x19 | 0x1A | 0x1B => (x.full, 0, x.full)
  | 0x09 => (if x.bimm then 0 else x.full, 0, x.full)
  | 0x10 => (x.full, x.bLen, 0)
  | 0x11 => (x.full, x.bLen, 8 * x.vectors)
  | 0x13 => (x.full, 8 * x.vectors, x.full)
  | 0x20 | 0x21 => (x.full, 0, packed)
  | 0x22 => (packed, 0, x.full)
  | 0x30 => (x.full, 0, 4)
  | 0x31 | 0x32 => (x.full, 0, 8)
  | 0x33 => (x.full, 0, 8 * (x.aux % 16 + 1))
  | 0x35 => (x.aux % 256 * x.srcB + x.full, 0, x.full)
  | 0x38 | 0x3C | 0x3D => (0, 0, 0)
  | _ => (x.full, x.bLen, x.full)

end Sys2Proof.VecInstr

namespace Sys2Proof.Machine

namespace State

/-- The vector engine of physical core p runs an instruction: it may run, and the instruction reads no narrowed tile before its check has
passed and writes no wide source (R171). -/
def vecRuns (s : State) (p : Nat) (x : VecInstr) (op : Nat) : Bool :=
  let n := x.reach op
  s.mayRun p 1 && s.untouched p [(vecKey p x.srcA 0, n.1), (vecKey p x.srcB 0, n.2.1)] [(vecKey p x.dst 0, n.2.2)]

/-- An instruction of the vector engine with its operation code: its codes are checked, and its effect runs if the engine runs it. -/
def vector (s : State) (p : Nat) (x : VecInstr) (op : Nat) (effect : State → State) : Outcome :=
  if x.legal op then .next (if s.vecRuns p x op then ((effect (s.trace p 1 1 (s.active p))).trace p 1 2 (s.active p)) else s)
  else .fault .reservedCode

/-- The index of a lane's free value (log entry 1). -/
def freeAt (s : State) (x : VecInstr) (v i : Nat) : Nat := s.freeCtr + v * laneCount x.type + i

/-- An operation on operand A alone. -/
def unary (s : State) (p : Nat) (x : VecInstr) (f : Nat → Nat → Nat) : State :=
  (s.lanes p x (fun t v i => f (t.freeAt x v i) (t.lane p x.srcA x.type v i))).skipDraws x.elems

/-- An operation on operands A and B. -/
def binary (s : State) (p : Nat) (x : VecInstr) (f : Nat → Nat → Nat → Nat) : State :=
  (s.lanes p x (fun t v i => f (t.freeAt x v i) (t.lane p x.srcA x.type v i) (t.laneB p x v i))).skipDraws x.elems

/-- The value of a mask bit written by a comparison: the predicate, zero with MZERO, or the old bit (R219, R224). -/
def cmpBit (s : State) (p : Nat) (x : VecInstr) (v i : Nat) (old : Bool) : Bool :=
  if s.maskBit p x.mask x.type i then laneCmp x.type (x.aux % 8) (s.lane p x.srcA x.type v i) (s.laneB p x v i)
  else if x.mzero then false else old

/-- CMP to a register, or to a pair of registers for BF16 (R219, R224). -/
def cmpTo (s : State) (p : Nat) (x : VecInstr) : State :=
  let k := x.aux / 8 % 8
  let lo := bitsOf ((List.range 64).map (fun i => s.cmpBit p x 0 i ((s.maskReg p k).getLsbD i)))
  let hi := bitsOf ((List.range 64).map (fun i => s.cmpBit p x 0 (64 + i) ((s.maskReg p (k + 1)).getLsbD i)))
  if k = 0 then s else if x.type = 1 then (s.setMask p k lo).setMask p (k + 1) hi else s.setMask p k lo

/-- CMPS: the mask word of vector v at d + 8 v (R224, log entry 28). -/
def cmpsTo (s : State) (p : Nat) (x : VecInstr) : State :=
  (List.range x.vectors).foldl (fun s v =>
    let old := BitVec.ofNat 64 (s.vecLoad p x.dst (8 * v) 8)
    s.vecStore p x.dst (8 * v) (leBytes 8 (bitsOf ((List.range 64).map (fun i => s.cmpBit p x v i (old.getLsbD i)))).toNat)) s

/-- Rounding of a converted lane: stochastic draws take the element index of R223. -/
def cvtMode (x : VecInstr) (key : Nat × Nat) (v i : Nat) : Rnd :=
  if x.rnd = 2 then .stoch (draw12 key ((x.srcB + v * laneCount x.type + i) % 2 ^ 32) 0 0) else rndOf x.rnd

/-- CVT (R224). -/
def cvtTo (s : State) (p : Nat) (x : VecInstr) : State :=
  let f := x.aux % 16
  let key := s.opKeyOf (s.active p) x.op
  let n := laneCount x.type
  ((List.range x.vectors).foldl (fun s v => s.putCodes p x.dst (v * (n * elemBits f / 8)) (elemBits f)
    ((List.range n).map (fun i => s.masked p x i
      (cvtCode x.type f (s.freeAt x v i) (cvtMode x key v i) (s.lane p x.srcA x.type v i))))) s).skipDraws x.elems

/-- Values that PACK narrows: a masked-off lane counts as a source of zero (R219, R226, log entry 29). -/
def packVals (s : State) (p : Nat) (x : VecInstr) (v : Nat) : List FVal :=
  (List.range (laneCount x.type)).map (fun i =>
    if s.maskBit p x.mask x.type i then laneVal x.type (s.lane p x.srcA x.type v i) else .fin false 0 0)

/-- PACK to a format of 8 bits or fewer (R226). -/
def packNarrow (s : State) (p : Nat) (x : VecInstr) : State :=
  let f := x.aux % 16
  let n := laneCount x.type
  ((List.range x.vectors).foldl (fun s v =>
    let w := narrowRow f (x.aux / 16 % 2) (s.freeAt x v 0) (BitVec.ofNat 32 x.srcB) (s.packVals p x v)
    let s' := s.putCodes p x.dst (v * (n * elemBits f / 8)) (elemBits f) (w.codes.zipIdx.map (fun c => s.masked p x c.2 c.1))
    let s' := if isMx f then s'.vecStore p x.srcB (v * (n / 32)) (w.scales.map (fun b => BitVec.ofNat 8 b)) else s'
    s'.countTile p x.tcx w) s).skipDraws x.elems

/-- UNPACK: the value of element i of vector v (R159, R226). -/
def unpacked (s : State) (p : Nat) (x : VecInstr) (f v i : Nat) : Nat :=
  let n := laneCount x.type
  let w := elemBits f
  let bits := s.vecLoad p x.srcA (v * (n * w / 8) + i * w / 8) 5 / 2 ^ (i * w % 8) % 2 ^ w
  let e := elemVal f bits
  let val : FVal :=
    if isMx f then
      let b := s.vecLoad p x.srcB (v * (n / 32) + i / 32) 1
      if b = 255 then .nan else e.scale ((b : Int) - 127)
    else if isNarrow f ∨ f = 0xE then e.mul (f32 (BitVec.ofNat 32 x.srcB))
    else e
  if x.type = 1 then Fmt.bf16.ofVal .near val else (toF32 val).toNat

/-- UNPACK (R226). -/
def unpackTo (s : State) (p : Nat) (x : VecInstr) : State :=
  s.lanes p x (fun t v i => t.unpacked p x (x.aux % 16) v i)

/-- PERM: the lane that the index at b names, zero outside the vector (R227). -/
def permuted (s : State) (p : Nat) (x : VecInstr) (v i : Nat) : Nat :=
  let k := signedOf (laneBits x.type) (s.laneB p x v i)
  if 0 ≤ k ∧ k < laneCount x.type then s.lane p x.srcA x.type v k.toNat else 0

/-- SHUF (R227). -/
def shuffled (s : State) (p : Nat) (x : VecInstr) (v i : Nat) : Nat :=
  let q := shufLane (x.aux % 8) (x.srcB % 128) (laneCount x.type) i
  if q.1 then s.laneB p x v q.2 else s.lane p x.srcA x.type v q.2

/-- A vector's lanes for a sum: masked-off lanes are zero (R228). -/
def sumLanes (s : State) (p : Nat) (x : VecInstr) (v : Nat) : List Word :=
  (List.range 64).map (fun i => if s.maskBit p x.mask x.type i then BitVec.ofNat 32 (s.lane p x.srcA x.type v i) else 0)

/-- RSUM (R228): vectors in ascending order lane by lane, then the pairwise tree. -/
def rsumOf (s : State) (p : Nat) (x : VecInstr) : Word :=
  let add : Word → Word → Word := if x.type = 0xD then (fun a b => a + b) else fadd
  treeSum add 6 (((List.range (x.vectors - 1)).map (fun k => s.sumLanes p x (k + 1))).foldl (fun a l => List.zipWith add a l) (s.sumLanes p x 0))

/-- The active elements of a reduction with their indices, in ascending order (R229). -/
def activePairs (s : State) (p : Nat) (x : VecInstr) : List (Nat × Nat) :=
  (List.range x.vectors).flatMap (fun v => (List.range 64).filterMap (fun i =>
    if s.maskBit p x.mask x.type i then some (s.lane p x.srcA x.type v i, laneIndex x v i) else none))

/-- A list of k value and index pairs at a vector address. -/
def pairsAt (s : State) (p a off k : Nat) : List (Nat × Nat) :=
  (List.range k).map (fun i => (s.vecLoad p a (off + 8 * i) 4, s.vecLoad p a (off + 8 * i + 4) 4))

/-- PSUM: partials in ascending order, from partial 0 exactly (R210, R224). -/
def psumOf (s : State) (p : Nat) (x : VecInstr) (v i : Nat) : Nat :=
  (fsum ((List.range (x.aux % 256 + 1)).map (fun q => BitVec.ofNat 32 (s.vecLoad p x.srcA (q * x.srcB + 256 * v + 4 * i) 4)))).toNat

/-- Rung of a tile in force: that of the escalation map, or the first of its kind (R174). -/
def rungOf (s : State) (c : Nat) (g : PackTile) : Nat :=
  (((s.layer c g.layer).esc.find? (fun e => decide (e.tile = g.tile))).map (fun e => e.rung)).getD g.first

/-- The pack group of format f runs: the tile stands at that rung (R174, R226). -/
def groupRuns (s : State) (p : Nat) (g : Option PackTile) (f : Nat) : Bool :=
  match g with
  | none => true
  | some g => decide (s.rungOf (s.active p) g = f)

/-- The tile that PACK narrows waits for its check (R171). -/
def guardTile (s : State) (p : Nat) (x : VecInstr) (f : Nat) : State :=
  s.awaitCheck p x.tcx (vecKey p x.dst 0) (x.elems * elemBits f / 8) (vecKey p x.srcA 0) x.full

/-- The check of a tile has passed, or has found trouble (R171): a passed tile is free, with the wide source; a narrowing that failed is not
read any more. -/
def checked (s : State) (p tcx : Nat) (bad : Bool) : State :=
  s.updCore p (fun c => { c with
    guards := if bad then c.guards.map (fun g => if g.tcx = tcx then { g with failed := true } else g)
      else (c.guards.filter (fun g => decide (g.tcx ≠ tcx) || g.failed)).map (fun g => if g.tcx = tcx then { g with srcLen := 0 } else g) })

/-- A tile in trouble is narrowed again in the frame if the added time and energy fit what returned and is unreserved (R172), and always in
class-0 work (R173). -/
def againFits (s : State) (p : Nat) (t : TileRef) : Bool :=
  let l := s.fr.ledger
  let energy := (t.again.map (fun e => unitEnergy e.1 (3 * e.2))).foldl (· + ·) 0
  t.queryWork || (t.again.all (fun e => decide (tget 0 l.units (16 * p + e.1) + 3 * e.2 ≤ 3 * s.workNs)) &&
    fitsVec (chargeVec energy []) l.pool)

/-- Narrow a tile in trouble again in this frame, or stop its item at the cut point: the remainder comes first in the next plan (R172). -/
def narrowAgain (s : State) (p : Nat) (t : TileRef) : State :=
  if s.againFits p t then
    t.again.foldl (fun s e => s.takeMore (16 * p + e.1) (3 * e.2) (unitEnergy e.1 (3 * e.2))) s
  else { s with fr := { s.fr with
    cuts := s.fr.cuts ++ [t.rest],
    plans := match s.fr.plans with
      | p :: r => { p with items := p.items.map (fun w =>
          if w.ctx = t.rest.ctx then { w with works := w.works.filter (fun k => !t.rest.works.contains k) } else w) } :: r
      | [] => [] } }

/-- TCHK (R226): the check of R170, the mask result, the counts, and the escalation of a tile in trouble. -/
def tchk (s : State) (p : Nat) (x : VecInstr) (t : TileRef) : State :=
  let c := s.active p
  let n := s.tileCtr p x.tcx
  let bad := inTrouble (x.aux % 8) t.satMax t.zeroMax n
  let s := (s.setMask p (x.aux / 8 % 8) (if bad then 1 else 0)).store (accAddr p (0x3C000 + 8 * x.tcx)) 8 0
  let s := (s.bump F.NUM_SAT_SAT c (n % 2 ^ 15)).bump F.NUM_ZERO_ZERO c (n / 2 ^ 16 % 2 ^ 15)
  let s := s.checked p x.tcx bad
  match if bad then nextRung (x.aux % 8) t.fmt else none with
  | some f => (s.escalate c t.layer t.tile t.fmt f).narrowAgain p t
  | none => s

/-- KOP (R224). -/
def kop (s : State) (p : Nat) (x : VecInstr) : State :=
  let a := s.maskReg p (x.srcB % 8)
  let b := s.maskReg p (x.srcB / 8 % 8)
  s.setMask p (x.aux % 8) (match x.aux / 8 % 4 with
    | 0 => a &&& b
    | 1 => a ||| b
    | 2 => a ^^^ b
    | _ => a &&& ~~~b)

end State

/-- ADD. -/
def execAdd (core : Nat) (x : VecInstr) (s : State) : Outcome :=
  s.vector core x 0x01 (fun s => s.binary core x (fun fr a b => laneAdd x.type fr (rndOf x.rnd) a b))

/-- SUB. -/
def execSub (core : Nat) (x : VecInstr) (s : State) : Outcome :=
  s.vector core x 0x02 (fun s => s.binary core x (fun fr a b => laneSub x.type fr (rndOf x.rnd) a b))

/-- MUL. -/
def execMul (core : Nat) (x : VecInstr) (s : State) : Outcome :=
  s.vector core x 0x03 (fun s => s.binary core x (fun fr a b => laneMul x.type fr (rndOf x.rnd) a b))

/-- FMA: d = a x b + d, one rounding. -/
def execFma (core : Nat) (x : VecInstr) (s : State) : Outcome :=
  s.vector core x 0x04 (fun s => s.lanes core x (fun t v i =>
    laneFma x.type (rndOf x.rnd) (t.lane core x.srcA x.type v i) (t.laneB core x v i) (t.lane core x.dst x.type v i)))

/-- MIN. -/
def execVMin (core : Nat) (x : VecInstr) (s : State) : Outcome :=
  s.vector core x 0x05 (fun s => s.binary core x (fun _ a b => laneMin x.type true a b))

/-- MAX. -/
def execVMax (core : Nat) (x : VecInstr) (s : State) : Outcome :=
  s.vector core x 0x06 (fun s => s.binary core x (fun _ a b => laneMin x.type false a b))

/-- ABS. -/
def execAbs (core : Nat) (x : VecInstr) (s : State) : Outcome :=
  s.vector core x 0x07 (fun s => s.unary core x (fun fr a => laneAbs x.type fr a))

/-- NEG. -/
def execNeg (core : Nat) (x : VecInstr) (s : State) : Outcome :=
  s.vector core x 0x08 (fun s => s.unary core x (fun fr a => laneNeg x.type fr a))

/-- MOV: d = a, or d = b with BIMM. -/
def execMov (core : Nat) (x : VecInstr) (s : State) : Outcome :=
  s.vector core x 0x09 (fun s => s.lanes core x (fun t v i =>
    if x.bimm then t.laneB core x v i else t.lane core x.srcA x.type v i))

/-- CMP to mask registers (R219, R224). -/
def execCmp (core : Nat) (x : VecInstr) (s : State) : Outcome :=
  s.vector core x 0x10 (fun s => s.cmpTo core x)

/-- CMPS. -/
def execCmps (core : Nat) (x : VecInstr) (s : State) : Outcome :=
  s.vector core x 0x11 (fun s => s.cmpsTo core x)

/-- SEL: the mask selects between a and b. -/
def execSel (core : Nat) (x : VecInstr) (s : State) : Outcome :=
  s.vector core x 0x12 (fun s => s.lanes core { x with mask := 0 } (fun t v i =>
    if s.maskBit core x.mask x.type i then t.lane core x.srcA x.type v i else t.laneB core x v i))

/-- SELP: the mask word of vector v at b + 8 v selects between a and d. -/
def execSelp (core : Nat) (x : VecInstr) (s : State) : Outcome :=
  s.vector core x 0x13 (fun s => s.lanes core x (fun t v i =>
    if (BitVec.ofNat 64 (t.vecLoad core x.srcB (8 * v) 8)).getLsbD i then t.lane core x.srcA x.type v i else t.lane core x.dst x.type v i))

/-- EXP2 (R225). -/
def execExp2 (core : Nat) (x : VecInstr) (s : State) : Outcome :=
  s.vector core x 0x18 (fun s => s.unary core x (fun _ a => (fexp2 (BitVec.ofNat 32 a)).toNat))

/-- LOG2 (R225). -/
def execLog2 (core : Nat) (x : VecInstr) (s : State) : Outcome :=
  s.vector core x 0x19 (fun s => s.unary core x (fun _ a => (flog2 (BitVec.ofNat 32 a)).toNat))

/-- RSQRT (R225). -/
def execRsqrt (core : Nat) (x : VecInstr) (s : State) : Outcome :=
  s.vector core x 0x1A (fun s => s.unary core x (fun _ a => (frsqrt (BitVec.ofNat 32 a)).toNat))

/-- RCP (R225). -/
def execRcp (core : Nat) (x : VecInstr) (s : State) : Outcome :=
  s.vector core x 0x1B (fun s => s.unary core x (fun _ a => (frcp (BitVec.ofNat 32 a)).toNat))

/-- CVT: stochastic rounding to BF16 or FP16 alone (R223). -/
def execCvt (core : Nat) (x : VecInstr) (s : State) : Outcome :=
  s.vector core x 0x20 (fun s => s.cvtTo core x)

/-- PACK: to BF16 or FP16 it converts; to a narrower format it narrows under R160 to R162 and counts in TCX (R226). Of the pack groups of a
tile, one for each rung, the one of the rung in force runs (R174, R226). -/
def execPack (core : Nat) (x : PackOp) (s : State) : Outcome :=
  let g := x.tile
  let x := x.vec
  let f := x.aux % 16
  s.vector core x 0x21
    (fun s => if s.groupRuns core g f = false then s
      else if isNarrow f then (s.packNarrow core x).guardTile core x f else s.cvtTo core x)

/-- UNPACK: formats that PACK writes, and INT16 (R226). -/
def execUnpack (core : Nat) (x : VecInstr) (s : State) : Outcome :=
  s.vector core x 0x22 (fun s => s.unpackTo core x)

/-- PERM. -/
def execPerm (core : Nat) (x : VecInstr) (s : State) : Outcome :=
  s.vector core x 0x28 (fun s => s.lanes core x (fun t v i => t.permuted core x v i))

/-- SHUF. -/
def execShuf (core : Nat) (x : VecInstr) (s : State) : Outcome :=
  s.vector core x 0x29 (fun s => s.lanes core x (fun t v i => t.shuffled core x v i))

/-- RSUM: the result in the first four bytes of d. -/
def execRsum (core : Nat) (x : VecInstr) (s : State) : Outcome :=
  s.vector core x 0x30 (fun s => s.vecStore core x.dst 0 (leBytes 4 (s.rsumOf core x).toNat))

/-- RMAX: value and index in the first eight bytes of d. -/
def execRmax (core : Nat) (x : VecInstr) (s : State) : Outcome :=
  s.vector core x 0x31 (fun s => s.vecStore core x.dst 0 (pairBytes [extreme x.type true (s.activePairs core x)]))

/-- RMIN. -/
def execRmin (core : Nat) (x : VecInstr) (s : State) : Outcome :=
  s.vector core x 0x32 (fun s => s.vecStore core x.dst 0 (pairBytes [extreme x.type false (s.activePairs core x)]))

/-- TOPK: the top k of the active elements. -/
def execTopk (core : Nat) (x : VecInstr) (s : State) : Outcome :=
  s.vector core x 0x33 (fun s =>
    s.vecStore core x.dst 0 (pairBytes (topList (x.aux % 16 + 1) (s.activePairs core x))))

/-- TOPKM: the lists at a and b of each vector merge into d. -/
def execTopkm (core : Nat) (x : VecInstr) (s : State) : Outcome :=
  let k := x.aux % 16 + 1
  s.vector core x 0x34 (fun s => (List.range x.vectors).foldl (fun s v =>
    s.vecStore core x.dst (256 * v) (pairBytes (topList k (s.pairsAt core x.srcA (256 * v) k ++ s.pairsAt core x.srcB (256 * v) k)))) s)

/-- PSUM: the immediate is the distance of the partials. -/
def execPsum (core : Nat) (x : VecInstr) (s : State) : Outcome :=
  s.vector core x 0x35 (fun s => s.lanes core x (fun t v i => t.psumOf core x v i))

/-- TCHK (R226): tensor kinds 0 to 3. -/
def execTchk (core : Nat) (x : VecInstr) (t : TileRef) (s : State) : Outcome :=
  s.vector core x 0x38 (fun s => s.tchk core x t)

/-- KSET: 0 to 64 low bits. -/
def execKset (core : Nat) (x : VecInstr) (s : State) : Outcome :=
  s.vector core x 0x3C (fun s => s.setMask core (x.aux % 8) (BitVec.ofNat 64 (2 ^ (x.srcB % 128) - 1)))

/-- KOP. -/
def execKop (core : Nat) (x : VecInstr) (s : State) : Outcome := s.vector core x 0x3D (fun s => s.kop core x)

end Sys2Proof.Machine
end

