-- ==== Sys2Proof/Machine/Codes.lean ====
section
/-!
DEFINITION. Machine/Codes.lean: the words of an engine's stream: matrix and DMA descriptors of 64 bytes, vector instructions of 128 bits, and
the SIGNAL and WAIT instructions (spec/06_core_digital.md R204, R222, R224, R232; spec/11_sync_and_contexts.md R371), and the command that
each stands for. A word is a little-endian number.
-/
namespace Sys2Proof.Machine

/-- A signed field of n bits. -/
def signedAt (w lo n : Nat) : Int := signedOf n (bitsAt w lo n)

/-- A 32-bit field as a word. -/
def wordAt (w lo : Nat) : Word := BitVec.ofNat 32 (bitsAt w lo 32)

/-- Every listed field, as lowest bit and width, is zero. -/
def zeroFields (w : Nat) (l : List (Nat × Nat)) : Bool := l.all (fun f => decide (bitsAt w f.1 f.2 = 0))

/-- Read a matrix descriptor (R204), none with a bit in a reserved field; `gen` is the issuing context's (R389). -/
def readMatrix (gen w : Nat) : Option MatrixDesc :=
  let d : MatrixDesc := {
    gen := gen, fmtA := bitsAt w 0 4, fmtB := bitsAt w 4 4, acc := bitsAt w 8 2, chunk := bitsAt w 10 2, resume := decide (bitsAt w 12 1 = 1),
    stream := decide (bitsAt w 13 1 = 1), outFmt := bitsAt w 14 4, slot := bitsAt w 18 4, tcx := bitsAt w 22 4, outRule := bitsAt w 26 1,
    m := bitsAt w 32 16, n := bitsAt w 48 16, k := bitsAt w 64 32, opId := bitsAt w 96 32, aAddr := bitsAt w 128 32, aStride := bitsAt w 160 32,
    bAddr := bitsAt w 192 32, bStride := bitsAt w 224 32, aScaleAddr := bitsAt w 256 32, bScaleAddr := bitsAt w 288 32,
    scaleA := wordAt w 320, scaleB := wordAt w 352, outAddr := bitsAt w 384 32, outStride := bitsAt w 416 32, sigCtr := bitsAt w 448 6 }
  if zeroFields w [(27, 5), (454, 26), (480, 32)] then some d else none

/-- Read a DMA descriptor (R232) with its operation, none with a bit in a reserved field; the module fills CTX and GEN and ignores what the
program places there. -/
def readDma (gen w : Nat) : Option (Nat × DmaDesc) :=
  let d : DmaDesc := {
    gen := gen, dims := bitsAt w 4 2, esize := bitsAt w 6 2, srcKind := bitsAt w 8 3, dstKind := bitsAt w 11 3, vc := bitsAt w 14 3,
    peer := bitsAt w 32 8, sigCtr := bitsAt w 40 6, sigCore := bitsAt w 46 8, srcAddr := bitsAt w 64 64, dstAddr := bitsAt w 128 41,
    dstModule := bitsAt w 169 17, x := bitsAt w 192 32, y := bitsAt w 224 16, z := bitsAt w 240 16, srcY := signedAt w 256 32,
    srcZ := signedAt w 288 32, dstY := signedAt w 320 32, dstZ := signedAt w 352 32, fill := wordAt w 384 }
  if zeroFields w [(17, 15), (54, 10), (186, 6), (416, 32), (480, 32)] then some (bitsAt w 0 4, d) else none

/-- Read a vector instruction (R222) with its operation code, none with a bit in the reserved field; `op` is its index within the frame
program (R207). -/
def readVector (op w : Nat) : Option (Nat × VecInstr) :=
  let x : VecInstr := {
    type := bitsAt w 116 4, mask := bitsAt w 113 3, mzero := decide (bitsAt w 112 1 = 1), bimm := decide (bitsAt w 111 1 = 1),
    count := bitsAt w 99 12, dst := bitsAt w 76 23, srcA := bitsAt w 53 23, aux := bitsAt w 45 8, rnd := bitsAt w 42 3, tcx := bitsAt w 32 4,
    srcB := bitsAt w 0 32, op := op }
  if zeroFields w [(36, 6)] then some (bitsAt w 120 8, x) else none

/-- A SIGNAL or WAIT instruction of a stream (R371): logical core, counter, increment and bytes, or a wait. -/
inductive SyncWord where
  /-- WAIT -/
  | wait (x : Wait)
  /-- SIGNAL -/
  | signal (core ctr inc bytes : Nat)
deriving DecidableEq, Repr

/-- Read a SIGNAL or WAIT instruction (R371), none for another word or a reserved code. -/
def readSync (w : Nat) : Option SyncWord :=
  if zeroFields w [(16, 16), (96, 32)] = false then none
  else match bitsAt w 0 8 with
    | 0xF0 => if bitsAt w 14 2 = 3 then none else some (.wait ⟨bitsAt w 8 6, bitsAt w 14 2, bitsAt w 32 32, bitsAt w 64 32⟩)
    | 0xF1 => if zeroFields w [(14, 2), (40, 8)] then some (.signal (bitsAt w 32 8) (bitsAt w 8 6) (bitsAt w 48 16) (bitsAt w 64 32)) else none
    | _ => none

/-- The command of a vector instruction's operation code (R224); PACK and TCHK with what the image's tensor table gives of their tile. -/
def vectorCommand (core op : Nat) (x : VecInstr) (g : Option PackTile) (t : TileRef) : Option Instr :=
  let first : List (Nat × (Nat → VecInstr → Instr)) :=
    [(0x01, .add), (0x02, .sub), (0x03, .mul), (0x04, .fma), (0x05, .vMin), (0x06, .vMax), (0x07, .abs), (0x08, .neg), (0x09, .mov), (0x10, .cmp),
     (0x11, .cmps), (0x12, .sel), (0x13, .selp), (0x18, .exp2), (0x19, .log2), (0x1A, .rsqrt), (0x1B, .rcp), (0x20, .cvt), (0x22, .unpack)]
  let rest : List (Nat × (Nat → VecInstr → Instr)) :=
    [(0x28, .perm), (0x29, .shuf), (0x30, .rsum), (0x31, .rmax), (0x32, .rmin), (0x33, .topk), (0x34, .topkm), (0x35, .psum), (0x3C, .kset),
     (0x3D, .kop)]
  if op = 0x21 then some (.pack core ⟨x, g⟩) else if op = 0x38 then some (.tchk core x t)
  else ((first ++ rest).find? (fun e => decide (e.1 = op))).map (fun e => e.2 core x)

/-- The command of a DMA descriptor's operation (R232). -/
def dmaCommand (core op : Nat) (d : DmaDesc) : Option Instr :=
  match op with
  | 1 => some (.copy core d)
  | 2 => some (.fill core d)
  | 3 => some (.transpose core d)
  | _ => none

/-- A word of an engine's stream has no reserved code or field, and its fields obey R191, R201, R204, R219, R222 to R226, R232 and R371:
engine codes are those of R400. -/
def wordLegal (engine w : Nat) : Bool :=
  (readSync w).isSome || match engine with
  | 0 => (match readMatrix 0 w with | some d => d.ok | none => false)
  | 1 => (match readVector 0 w with | some (op, x) => x.legal op | none => false)
  | 3 => (match readDma 0 w with | some (op, d) => d.ok op && decide (1 ≤ op ∧ op ≤ 3) | none => false)
  | _ => true

end Sys2Proof.Machine
end

