-- ==== Sys2Proof/Machine/Routes.lean ====
section
/-!
DEFINITION. Machine/Routes.lean: the anchor tree, the standby tree and the route table that a module forms from the topology at its start
(spec/09_aeline_link.md R334 to R336).
-/
namespace Sys2Proof.Machine

/-- Declared links of a module as port and peer, ports ascending (R333). -/
def Image.links (g : Image) (m : Nat) : List (Nat × Nat) :=
  (tget (⟨0, [], 0, 0⟩ : TopoEntry) g.topo m).ports.zipIdx.filterMap (fun p => if p.1.valid then some (p.2, p.1.peer) else none)

/-- Modules at the other ends of a module's links. -/
def Image.peers (g : Image) (m : Nat) : List Nat := (g.links m).map (fun e => e.2)

/-- Distance that a table gives a module; none where it is not reached. -/
def dist (t : Tbl Nat) (m : Nat) : Option Nat := (t.find? (fun e => decide (e.1 = m))).map (fun e => e.2)

/-- Breadth-first search over modules 0 to n - 1: at step k every module with an edge to one at distance k, and not already as near, is at
distance k + 1. The fuel bounds the steps. -/
def spread (n : Nat) (edges : Nat → List Nat) : Nat → Nat → Tbl Nat → Tbl Nat
  | 0, _, t => t
  | fuel + 1, k, t =>
    let next := (List.range n).filter (fun m =>
      (edges m).any (fun x => decide (dist t x = some k)) && (match dist t m with | none => true | some j => decide (k + 1 < j)))
    spread n edges fuel (k + 1) (next.foldl (fun t m => tput t m (k + 1)) t)

/-- Depths in the tree with a root (R334). -/
def Image.depths (g : Image) (root : Nat) : Tbl Nat := spread g.modules g.peers g.modules 0 [(root, 0)]

/-- Tree parent: the neighbour one hop nearer the root with the lowest ID (R334). -/
def Image.treeParent (g : Image) (d : Tbl Nat) (m : Nat) : Option Nat :=
  match dist d m with
  | some (k + 1) => (sortBy (fun a b => decide (a ≤ b)) ((g.peers m).filter (fun x => decide (dist d x = some k)))).head?
  | _ => none

/-- The link from n to m is up (R334). -/
def linkUp (d : Tbl Nat) (n m : Nat) : Bool :=
  match dist d n, dist d m with
  | some a, some b => decide (b < a) || (decide (b = a) && decide (m < n))
  | _, _ => false

/-- dd: shortest paths to a destination over down links only (R335). -/
def Image.downTo (g : Image) (d : Tbl Nat) (dst : Nat) : Tbl Nat :=
  spread g.modules (fun n => (g.peers n).filter (fun m => !linkUp d n m)) g.modules 0 [(dst, 0)]

/-- ld: shortest legal paths, up links and then down links (R334, R335). -/
def Image.legalTo (g : Image) (d : Tbl Nat) (dst : Nat) : Tbl Nat :=
  spread g.modules (fun n => (g.peers n).filter (fun m => linkUp d n m)) (2 * g.modules) 0 (g.downTo d dst)

/-- The earlier of two candidates, compared from left to right (R335). -/
def betterRoute (a b : Nat × Nat × Nat) : Bool :=
  decide (a.1 < b.1) || (decide (a.1 = b.1) && (decide (a.2.1 < b.2.1) || (decide (a.2.1 = b.2.1) && decide (a.2.2 < b.2.2))))

/-- Candidate over a link: down paths first, then hops, then the port (R335). -/
def Image.routeVia (d dd ld : Tbl Nat) (own : Nat) (p : Nat × Nat) : Option (Nat × Nat × Nat) :=
  if linkUp d own p.2 then (dist ld p.2).map (fun k => (1, 1 + k, p.1)) else (dist dd p.2).map (fun k => (0, 1 + k, p.1))

/-- Route entry of a tree for a destination: hops and port (R335). -/
def Image.routeEntry (g : Image) (d : Tbl Nat) (own dst : Nat) : Option (Nat × Nat) :=
  let dd := g.downTo d dst
  let ld := g.legalTo d dst
  let best := (g.links own).foldl (fun (a : Option (Nat × Nat × Nat)) p =>
    match Image.routeVia d dd ld own p, a with
    | some c, some b => if betterRoute c b then some c else some b
    | some c, none => some c
    | none, b => b) none
  best.map (fun b => b.2)

/-- A tree's three fields of a route word from its lowest bit on: HOPS, PORT, VALID. -/
def routeBits (e : Option (Nat × Nat)) : Nat := match e with | some (hops, port) => hops % 32 + 32 * (port % 32) + 1024 | none => 0

/-- Route word of a destination (R335): the anchor tree's fields above the standby tree's. -/
def Image.routeWord (g : Image) (da ds : Tbl Nat) (own dst : Nat) : Word :=
  BitVec.ofNat 32 (2 ^ 21 * routeBits (g.routeEntry da own dst) + 2 ^ 10 * routeBits (g.routeEntry ds own dst))

namespace State

/-- CP2 forms the trees and the route table for own ID m (R334, R335). -/
def formRoutes (s : State) (m : Nat) : State :=
  let g := s.img.accepted
  let da := g.depths g.anchor
  let ds := g.depths g.standby
  let s : State := { s with img := { s.img with accepted := { g with
    parent := g.treeParent da m, standbyParent := g.treeParent ds m,
    children := (List.range g.modules).filter (fun x => decide (g.treeParent da x = some m)) } } }
  ((List.range g.modules).filter (fun x => decide (x ≠ m))).foldl (fun s x => s.putWord F.LNK_ROUTE_ENTRY x (g.routeWord da ds m x)) s

end State

end Sys2Proof.Machine
end

