-- ==== Sys2Proof/Machine/Loader.lean ====
section
/-!
DEFINITION. Machine/Loader.lean: what the image loader checks of an image's templates, frame programs, topology and monitor table
(spec/18_image_and_boot.md R532 and the rules it names). What it checks of sections that State does not hold decoded is a verdict of the
start (log entry 78).
-/
namespace Sys2Proof.Machine

/-! Ranges of frame programs (R52, R394). -/

/-- A range in a space: 0 scratchpad, 1 accumulator file, 2 stack memory. -/
structure Range where
  space : Nat
  first : Nat
  len : Nat
deriving DecidableEq, Repr

/-- Two ranges share a byte. -/
def Range.meets (a b : Range) : Bool := decide (a.space = b.space) && decide (a.first < b.first + b.len) && decide (b.first < a.first + a.len)

/-- What of a range lies outside another. -/
def Range.minus (a b : Range) : List Range :=
  if a.meets b then
    ([⟨a.space, a.first, b.first - a.first⟩, ⟨a.space, max a.first (b.first + b.len), (a.first + a.len) - (b.first + b.len)⟩] : List Range).filter
      (fun r => decide (0 < r.len))
  else [a]

/-- A program's range under a choice of the slots that are current: the bits of SLOTS that stand at 1 (R51). -/
def Extent.range (ones : List Nat) : Extent → Range
  | .pad a n => ⟨0, a, n⟩
  | .acc a n => ⟨1, a, n⟩
  | .mem a n => ⟨2, a, n⟩
  | .slot r free a n => ⟨2, (if ones.contains r.bit != free then r.a1 else r.a0) + a, n⟩

/-- Bits of the rotated tensors that a program names. -/
def Program.bits (p : Program) : List Nat :=
  p.accesses.foldl (fun l a => match a.2 with | .slot r _ _ _ => if l.contains r.bit then l else l ++ [r.bit] | _ => l) []

/-- Every choice of some bits. -/
def choices : List Nat → List (List Nat)
  | [] => [[]]
  | b :: r => (choices r).flatMap (fun l => [l, b :: l])

/-- Live-in reads of a program under a choice of slots: what it reads before it has written it (R50, R52). -/
def Program.liveIns (p : Program) (ones : List Nat) : List Range :=
  (p.accesses.foldl (fun (a : List Range × List Range) e =>
    let r := e.2.range ones
    if e.1 then (r :: a.1, a.2) else (a.1, a.2 ++ a.1.foldl (fun l w => l.flatMap (fun x => x.minus w)) [r])) ([], [])).2

/-- Ranges that a program writes under a choice of slots. -/
def Program.writes (p : Program) (ones : List Nat) : List Range := (p.accesses.filter (fun e => e.1)).map (fun e => e.2.range ones)

/-- No write of a program meets one of its live-in reads, whichever slots are current (R52). -/
def Program.restarts (p : Program) : Bool :=
  (choices p.bits).all (fun ones => (p.writes ones).all (fun w => (p.liveIns ones).all (fun r => !w.meets r)))

/-- A program reads nothing of the accumulator file from an earlier frame, and of the scratchpad only what lies in a persistent region (R394). -/
def Program.keepsFrame (g : Image) (p : Program) : Bool :=
  (choices p.bits).all (fun ones => (p.liveIns ones).all (fun r => decide (r.space = 2) || (decide (r.space = 0) &&
    g.persist.any (fun h => decide (h.ctx = p.ctx ∧ h.core = p.core) && decide (h.offset ≤ r.first) && decide (r.first + r.len ≤ h.offset + h.length)))))

/-! Templates and programs. -/

/-- Template of a context of the image (R535). -/
def Image.templateOf (g : Image) (c : Nat) : Option Template :=
  match (tget (⟨none, 0⟩ : CtxEntry) g.contexts c).template with
  | none => none
  | some i => g.templates.find? (fun t => decide (t.index = i))

/-- A receive region that a program reads lies in one of the context's, and the program waits on its counter (R49, R52). -/
def receiveOk (t : Template) (p : Program) (r : Nat × Nat) : Bool :=
  t.regions.any (fun g => decide (g.kind = 2) && decide (g.base ≤ r.1) && decide (r.1 + r.2 ≤ g.limit) && p.gates.contains g.ctr)

/-- The space that a descriptor's endpoint names, on the module. -/
def endSpace (core kind peer : Nat) : Nat × Nat := match kind with | 1 => (0, peer) | 0 => (0, core) | k => (k, 0)

/-- A DMA descriptor of a program stays in the regions granted to its context, and its source and destination ranges do not meet (R235). -/
def descriptorOk (t : Template) (core op : Nat) (d : DmaDesc) : Bool :=
  (decide (op = 2) || d.srcRanges.all (fun r => regionHolds t.regions (some core) d.srcKind d.peer r)) &&
  (d.dstRanges op).all (fun r => regionHolds t.regions (some core) d.dstKind d.peer r) &&
  (decide (op = 2) || decide (endSpace core d.srcKind d.peer ≠ endSpace core d.dstKind d.peer) || d.srcRanges.all (fun a => (d.dstRanges op).all (fun b =>
    decide (a.1 + a.2 ≤ b.1) || decide (b.1 + b.2 ≤ a.1))))

/-- The loader's checks of a frame program (R52, R191, R204, R219, R222 to R224, R232, R235, R371, R394). -/
def Image.programOk (g : Image) (p : Program) : Bool :=
  match g.templateOf p.ctx with
  | none => false
  | some t =>
    p.streams.all (fun e => e.2.all (fun w => wordLegal e.1 w &&
      match if e.1 = 3 ∧ (readSync w).isNone then readDma 0 w else none with | some (op, d) => descriptorOk t p.core op d | none => true)) &&
    p.restarts && p.keepsFrame g && p.receives.all (receiveOk t p) && p.cuts.all (fun k => decide (k < g.programs.length)) && decide (p.phase < 6)

/-- Two rotating slots of a tensor are apart (R51, R52). -/
def Rot.apart (r : Rot) : Bool := decide (r.a0 + r.size ≤ r.a1) || decide (r.a1 + r.size ≤ r.a0)

/-- In-place tensors of a template use rotating slots (R51, R52). -/
def Tensor.rotates (multi : Bool) (x : Tensor) : Bool :=
  x.master.apart && x.m.apart && x.v.apart && x.part.apart && (decide (x.rank = 0) || !multi || (x.resid.apart && x.qp.apart))

/-- A thinned tensor may be thinned (R291). -/
def Tensor.thinOk (x : Tensor) : Bool :=
  decide (x.rank = 0) || (decide (x.rank ≤ 64) && decide (1 < x.rows ∧ 1 < x.cols) && decide (x.rank * (x.rows + x.cols) < x.rows * x.cols) &&
    decide (x.rank ≤ min x.rows x.cols))

/-- A static outlier list: 64 entries at most, ascending, below 1,024 (R176). -/
def staticOk (l : List (Nat × Bool)) : Bool :=
  decide (l.length ≤ 64) && l.all (fun r => decide (r.1 < 1024)) && (l.zip (l.drop 1)).all (fun p => decide (p.1.1 < p.2.1))

/-- No number stands twice in a list. -/
def distinct (l : List Nat) : Bool := l.zipIdx.all (fun e => !(l.drop (e.2 + 1)).contains e.1)

/-- Every weight lies in at most one batt, and INFER places each batt layer where FORWARD does (R238). -/
def Template.placed (t : Template) : Bool :=
  distinct (t.layers.flatMap (fun y => y.batts)) &&
  t.phases.all (fun m => t.phases.all (fun k =>
    decide (m.phase ≠ 0 ∨ k.phase ≠ 5 ∨ m.layer ≠ k.layer) || decide (m.batt = k.batt)))

/-- Attention and the other constructs of a layer are those that R270 and R273 provide. -/
def AttnPlan.ok (p : AttnPlan) : Bool :=
  let block := fun (n : Nat) => decide (n % 64 = 0) && decide (64 ≤ n) && decide (n ≤ 4096)
  block p.bq && block p.bk && decide (p.d % 32 = 0) && decide (32 ≤ p.d) && decide (p.d ≤ 256) && decide (p.mask ≤ 2)

/-- Elements that a layer's rows count per sample: one, or the longest sequence (R256, R270). -/
def Template.positions (t : Template) (y : Layer) : Nat := if y.sequence then max 1 t.lMax else 1

/-- No dropout element of a template exceeds 2^35 - 1 (R256). -/
def Template.dropOk (t : Template) : Bool :=
  t.layers.all (fun y => decide (y.fn ≠ .dropout) || decide (t.stepSamples * t.positions y * y.cols ≤ 2 ^ 35))

/-- The longest run of consecutive layers among some (R267). -/
def longestRun (l : List Nat) : Nat :=
  (l.map (fun k => ((List.range (l.length + 1)).takeWhile (fun n => l.contains (k + n))).length)).foldl max 0

/-- The spill region holds every tensor on the list (R269). -/
def Template.spillOk (t : Template) : Bool :=
  decide (t.hbxPolicy ≠ 1) || decide ((t.dropList.map (fun l => match t.layers[l]? with
    | some y => y.droppable * t.positions y * t.stepSamples
    | none => 0)).foldl (· + ·) 0 ≤ t.spillSize)

/-- A shard on this module lies in a region of the context, with its scale plane for an MX tensor (R244). -/
def Template.shardOk (t : Template) (k : Card) (h : Shard) : Bool :=
  let n := h.n0 * h.n1 * h.n2
  let holds := fun (a len : Nat) => regionHolds t.regions (some h.core) h.kind h.core (a, len)
  decide (h.module ≠ t.members.getD t.ownIndex h.module) ||
    (holds h.addr (n * elemBits k.fmt / 8) && (!isMx k.fmt || holds h.plane (n / 32)))

/-- Carding entries can be read, and their destinations lie in the context's regions (R242, R244). -/
def Template.cardsOk (t : Template) : Bool :=
  t.cards.all (fun w => match Card.read w with
    | none => false
    | some k => (t.maps.getD k.dst []).all (t.shardOk k))

/-- The loader's checks of a template (R52, R176, R238, R244, R256, R267, R269, R273, R291). -/
def Template.ok (t : Template) : Bool :=
  t.tensors.all (Tensor.rotates t.multi) && t.tensors.all Tensor.thinOk && t.layers.all (fun y => staticOk y.staticRows) && t.placed && t.dropOk &&
  decide (longestRun t.dropList ≤ 4) && t.spillOk && t.cardsOk && distinct (t.tensors.map (fun x => x.id)) &&
  distinct ((t.tensors.filter (fun x => x.weights)).map (fun x => x.layer)) && t.layers.all (fun y => decide (y.fn ≠ .attention) || y.attn.ok)

/-! Topology, monitor table, grants. -/

/-- The space and range of a region entry (R382). -/
def Region.range (r : Region) : Range := ⟨if r.kind = 4 then 3 + r.core else 2, r.base, r.limit - r.base⟩

/-- No two grants of the image meet (R382). -/
def Image.grantsOk (g : Image) : Bool :=
  let l := (g.templates.flatMap (fun t => t.regions.filter (fun r => decide (r.kind ≠ 0)))).map Region.range
  l.zipIdx.all (fun e => (l.drop (e.2 + 1)).all (fun r => !e.1.meets r))

/-- Topology entry of a module. -/
def Image.entry (g : Image) (m : Nat) : TopoEntry := tget ⟨0, [], 0, 0⟩ g.topo m

/-- The ends of every link name each other over at most 2,000 m, and both trees span the modules in at most 6 hops (R337). -/
def Image.linksOk (g : Image) : Bool :=
  (List.range g.modules).all (fun m => (g.entry m).ports.zipIdx.all (fun p => !p.1.valid || (decide (p.1.fibre ≤ 20000) &&
    match (g.entry p.1.peer).ports[p.1.peerPort]? with
    | some q => q.valid && decide (q.peer = m) && decide (q.peerPort = p.2)
    | none => false))) &&
  [g.anchor, g.standby].all (fun r => let d := g.depths r
    (List.range g.modules).all (fun m => match dist d m with | some k => decide (k ≤ 6) | none => false))

/-- Time of a route in tenths of ns: 250 ns per hop and 5 ns per metre (R278); none where it does not arrive within the fuel. -/
def Image.routeTime (g : Image) (d : Tbl Nat) (dst : Nat) : Nat → Nat → Option Nat
  | 0, m => if m = dst then some 0 else none
  | fuel + 1, m =>
    if m = dst then some 0
    else match g.routeEntry d m dst with
      | none => none
      | some (_, port) => match (g.entry m).ports[port]? with
        | none => none
        | some p => (g.routeTime d dst fuel p.peer).map (fun t => t + 2500 + 5 * p.fibre)

/-- Every route between two modules of a context takes at most P - 2 µs, in either tree (R278). -/
def Image.routesOk (g : Image) (t : Template) : Bool :=
  [g.anchor, g.standby].all (fun r => let d := g.depths r
    t.members.all (fun a => t.members.all (fun b => match g.routeTime d b (2 * g.modules) a with
      | some n => decide (n ≤ (g.pol 0 - 2) * 10000)
      | none => false)))

/-- No module holds for more modules than there are holders, and none of a larger system for itself (R441). -/
def Image.holdersOk (g : Image) : Bool :=
  decide (g.modules ≤ 1) || (List.range g.modules).all (fun m =>
    let mine := fun (x : Nat) => (if g.holders = 2 then [(g.entry x).holder0, (g.entry x).holder1] else [(g.entry x).holder0])
    !(mine m).contains m && decide (((List.range g.modules).filter (fun x => (mine x).contains m)).length ≤ g.holders))

/-- The monitor's sequence table (R479), an entry as its four words. -/
def Image.monitorOk (g : Image) : Bool :=
  let es := (groups 4 256 (g.monitor.take (4 * g.monLength))).map (fun l => l.zipIdx.foldl (fun n w => n + 2 ^ (32 * w.2) * w.1.toNat) 0)
  decide (0 < g.monLength) && es.any (fun w => decide (bitsAt w 0 7 ≤ 1)) && es.all (fun w =>
    let rate := bitsAt w 40 24 * 2 ^ (bitsAt w 32 4 + 3)
    decide (0 < bitsAt w 8 8) && decide (bitsAt w 32 4 < 10) && decide (bitsAt w 36 4 < 4) && decide (1000000 ≤ rate ∧ rate ≤ 32000000) &&
      zeroFields w [(7, 1), (30, 2), (112, 16)])

/-- The plan table names programs of its template and phase (R538). -/
def Image.plansOk (g : Image) : Bool :=
  g.plans.all (fun e => e.2.2.all (fun k => match g.programs[k]? with
    | some p => decide (p.phase = e.2.1) && decide ((g.templateOf p.ctx).map (fun t => t.index) = some e.1)
    | none => false))

/-- The loader takes the image (R532), as far as its sections are held. -/
def Image.loadable (g : Image) : Bool :=
  g.templates.all Template.ok && g.templates.all g.routesOk && g.programs.all g.programOk && g.plansOk && g.grantsOk && g.linksOk && g.holdersOk &&
    g.monitorOk

namespace State

/-- A one-point query of every template passes the time check on an idle module (R67). -/
def pointsFit (s : State) (g : Image) : Bool :=
  let idle : State := { s with img := { s.img with accepted := g }, ctxs := [] }
  g.templates.all (fun t => decide (idle.queryTime 0 t 1 0 + idle.headroom 0 t ≤ 3 * idle.workNs))

/-- A package fails its checks: a list that is no static list or leaves the worn rows of a batt no room, a descriptor or a construct that the
image loader would refuse (R176, R191, R273). -/
def packageBad (s : State) (c : Nat) (t : Template) : Bool :=
  !t.ok || t.layers.any (fun y => y.batts.any (fun b => decide (64 < y.staticRows.length + (s.batt (s.battOf b)).worn.length))) ||
    (s.img.accepted.programs.filter (fun p => decide (p.ctx = c))).any (fun p => !s.img.accepted.programOk p)

end State

end Sys2Proof.Machine
end

