-- ==== Sys2Proof/Machine/Phases.lean ====
section
/-!
DEFINITION. Machine/Phases.lean: the procedures of a step's phases on a context's data: functions and normalisations, dropout, loss, activation
and weight gradients, their sums, spill, and attention (spec/07_training_step.md R241, R245 to R259, R266, R270 to R272; the first fill of
spec/08_gradient_exchange.md R294). A frame program carries them out on the engines; here each takes effect with the frame that its item is
placed in (log entry 193).
-/
namespace Sys2Proof.Machine

/-! Constants in FP32. -/

/-- 1.0. -/
def one32 : Word := 0x3F800000

/-- c = log2 e (R247). -/
def log2e : Word := 0x3FB8AA3B

/-- Quotient as the vector engine forms it, by RCP (R247, log entry 194). -/
def overOf (a b : Word) : Word := fmul a (frcp b)

/-- Mean of a row: RSUM by the constant 1/F (R248). -/
def meanOf (l : List Word) : Word := fmul (rsumWords l) (fdiv one32 (f32Nat l.length))

/-- RSUM of the products of two rows. -/
def dotSum (a b : List Word) : Word := rsumWords (List.zipWith fmul a b)

/-- The larger of two words; NaN if either is NaN. -/
def fmax (a b : Word) : Word := if (f32 a).isNan ∨ (f32 b).isNan then quiet a b else if flt a b then b else a

/-! Elementwise functions (R247). -/

/-- tanh u = 1 - 2 x RCP(1 + 2^(2cu)). -/
def tanhOf (u : Word) : Word := fsub one32 (fmul 0x40000000 (frcp (fadd one32 (fexp2 (fmul (fmul 0x40000000 log2e) u)))))

/-- sigma(z) = 1/(1 + 2^(-cz)). -/
def sigmoidOf (z : Word) : Word := frcp (fadd one32 (fexp2 (fneg (fmul log2e z))))

/-- tanh of the inner polynomial of GELU. -/
def geluTanh (z : Word) : Word :=
  tanhOf (fmul (f32Frac 797885 1000000) (fadd z (fmul (f32Frac 44715 1000000) (fmul z (fmul z z)))))

/-- A function of R247 at z. -/
def actOf (f : LayerFn) (alpha z : Word) : Word :=
  match f with
  | .relu => fmax z 0
  | .leaky => if flt 0 z then z else fmul alpha z
  | .tanh => tanhOf z
  | .sigmoid => sigmoidOf z
  | .elu => if flt 0 z then z else fmul alpha (fsub (fexp2 (fmul log2e z)) one32)
  | .softplus => overOf (flog2 (fadd one32 (fexp2 (fmul log2e z)))) log2e
  | .silu => fmul z (sigmoidOf z)
  | .gelu => fmul (fmul 0x3F000000 z) (fadd one32 (geluTanh z))
  | _ => z

/-- Its derivative from the saved value: the output, or the input for SiLU and GELU. -/
def slopeOf (f : LayerFn) (alpha v : Word) : Word :=
  match f with
  | .relu => if flt 0 v then one32 else 0
  | .leaky => if flt 0 v then one32 else alpha
  | .tanh => fsub one32 (fmul v v)
  | .sigmoid => fmul v (fsub one32 v)
  | .elu => if flt 0 v then one32 else fadd v alpha
  | .softplus => fsub one32 (fexp2 (fneg (fmul log2e v)))
  | .silu => let g := sigmoidOf v; fmul g (fadd one32 (fmul v (fsub one32 g)))
  | .gelu =>
    let t := geluTanh v
    let slope := fmul (f32Frac 797885 1000000) (fadd one32 (fmul (f32Frac 134145 1000000) (fmul v v)))
    fadd (fmul 0x3F000000 (fadd one32 t)) (fmul (fmul (fmul 0x3F000000 v) (fsub one32 (fmul t t))) slope)
  | _ => one32

/-- The function saves its input, not its output (R246). -/
def savesInput (f : LayerFn) : Bool := decide (f = .silu) || decide (f = .gelu)

/-! Rows (R248). -/

/-- A normalised row and its rstd; the soft maximum has its output, and no rstd. -/
def normRow (f : LayerFn) (eps : Word) (x : List Word) : List Word × Word :=
  match f with
  | .layerNorm =>
    let d := x.map (fun v => fsub v (meanOf x))
    let r := frsqrt (fadd (meanOf (d.map (fun v => fmul v v))) eps)
    (d.map (fun v => fmul v r), r)
  | .rmsNorm =>
    let r := frsqrt (fadd (meanOf (x.map (fun v => fmul v v))) eps)
    (x.map (fun v => fmul v r), r)
  | _ =>
    let e := x.map (fun v => fexp2 (fmul log2e (fsub v (x.foldl fmax 0xFF800000))))
    (e.map (fun v => overOf v (rsumWords e)), 0)

/-- Output of a normalised row. -/
def normOut (f : LayerFn) (xh gamma beta : List Word) : List Word :=
  match f with
  | .layerNorm => List.zipWith fadd (List.zipWith fmul gamma xh) beta
  | .rmsNorm => List.zipWith fmul gamma xh
  | _ => xh

/-- Gradient of a row's input from what the forward saved. -/
def normGrad (f : LayerFn) (xh : List Word) (rstd : Word) (gamma dy : List Word) : List Word :=
  match f with
  | .layerNorm =>
    let g := List.zipWith fmul gamma dy
    let a := meanOf g
    let b := meanOf (List.zipWith fmul g xh)
    List.zipWith (fun v x => fmul rstd (fsub (fsub v a) (fmul x b))) g xh
  | .rmsNorm =>
    let g := List.zipWith fmul gamma dy
    let b := meanOf (List.zipWith fmul g xh)
    List.zipWith (fun v x => fmul rstd (fsub v (fmul x b))) g xh
  | _ =>
    let d := dotSum xh dy
    List.zipWith (fun y v => fmul y (fsub v d)) xh dy

/-! Loss (R258). -/

/-- Norm of a row: s x RSQRT(s) of its sum of squares, 0 for s = 0. -/
def normOf (l : List Word) : Word := let q := dotSum l l; if flt 0 q then fmul q (frsqrt q) else q

/-- Value and gradient of a loss term from residuals and targets. -/
def lossTerm (k : LossTerm) (epsR : Word) (r y : List Word) : Word × List Word :=
  let inv := fdiv one32 (f32Nat r.length)
  match k.kind with
  | 0 => (fmul inv (dotSum r r), r.map (fun v => fmul (fmul 0x40000000 v) inv))
  | 1 =>
    let n := normOf r
    let d := fmax (normOf y) epsR
    (overOf n d, r.map (fun v => if flt 0 n then overOf v (fmul n d) else 0))
  | _ =>
    let near := fun (v : Word) => fle (fabs v) k.delta
    let h := fun (v : Word) => if near v then fmul (fmul v v) 0x3F000000 else fmul k.delta (fsub (fabs v) (fmul k.delta 0x3F000000))
    (fmul inv (rsumWords (r.map h)),
     r.map (fun v => fmul (if near v then v else if flt v 0 then fneg k.delta else k.delta) inv))

/-- Loss of a sample and its gradient seed: the weighted sums of the terms (R258, R259). -/
def sampleLoss (ks : List LossTerm) (epsR : Word) (out target : List Word) : Word × List Word :=
  let r := List.zipWith fsub out target
  let ts := ks.map (fun k => (k.weight, lossTerm k epsR r target))
  (fsum (ts.map (fun t => fmul t.1 t.2.1)), (List.range r.length).map (fun d => fsum (ts.map (fun t => fmul t.1 (t.2.2.getD d 0)))))

/-! Operands of products. -/

/-- A matrix operand by rows, each as its tiles along the reduction. -/
abbrev Tiled := List (List TileRow)

/-- A sum over the tiles of two rows from a start. -/
def tileFrom (start : Word) (a b : List TileRow) : Word := (a.zip b).foldl TileRow.dot start

/-- A tile's row of codes with one scale byte for each block. -/
def codeTile (f scale : Nat) (codes : List Nat) : TileRow := ⟨f, codes, List.replicate ((codes.length + 31) / 32) scale⟩

/-- Cut a row of codes into tiles of 128. -/
def codeRow (f scale : Nat) (codes : List Nat) : List TileRow := (groups 128 (codes.length / 128 + 1) codes).map (codeTile f scale)

/-- The columns of a matrix given by rows of n. -/
def transposed (n : Nat) (rows : List (List Word)) : List (List Word) := (List.range n).map (fun j => rows.map (fun r => r.getD j 0))

namespace State

/-- Key in memory of a place; work names only cores of its item (log entry 193). -/
def keyOf (s : State) : Place → Nat
  | .pad c a => spAddr ((s.physOf c).getD c) a
  | .stack a => a % 2 ^ 41

/-- FP32 words at a place, from word i on. -/
def wordsAt (s : State) (p : Place) (i n : Nat) : List Word := s.words (s.keyOf p + 4 * i) n

/-- Write FP32 words at a place, from word i on. -/
def putWords (s : State) (p : Place) (i : Nat) (l : List Word) : State := s.setWords (s.keyOf p + 4 * i) l

/-- BF16 values at a place, widened. -/
def halvesAt (s : State) (p : Place) (i n : Nat) : List Word := (List.range n).map (fun k => ofBf16 (s.load (s.keyOf p + 2 * (i + k)) 2))

/-- Write values at a place in BF16. -/
def putHalves (s : State) (p : Place) (i : Nat) (l : List Word) : State := s.setBytes (s.keyOf p + 2 * i) (l.flatMap (fun v => leBytes 2 (bf16 v)))

/-- Elements of a format at a place, widened. -/
def elemsAt (s : State) (p : Place) (f i n : Nat) : List Word :=
  if f = 0 then s.wordsAt p i n
  else (List.range n).map (fun k =>
    let b := (i + k) * elemBits f
    toF32 (elemVal f (s.load (s.keyOf p + b / 8) 5 / 2 ^ (b % 8) % 2 ^ elemBits f)))

/-- Value of element i of row r of an operand, with its block's or tensor's scale (R159). -/
def operandVal (s : State) (o : Operand) (r i : Nat) : FVal :=
  let b := i * elemBits o.fmt
  let v := elemVal o.fmt (s.load (s.keyOf o.base + r * o.stride + b / 8) 5 / 2 ^ (b % 8) % 2 ^ elemBits o.fmt)
  if isMx o.fmt then
    let e := (s.byte (s.keyOf o.plane + r * (o.length / 32) + i / 32)).toNat
    if e = 255 then .nan else v.scale ((e : Int) - 127)
  else if isNarrow o.fmt then v.mul (f32 o.scale) else v

/-- Narrow a matrix given by rows tile by tile, each at the rung in force for it (R169, R170, R174); with the tiles that climb, from their rung to
the one they reached. `tag` names the tensor within its layer (log entry 186). -/
def narrowed (s : State) (c l tag kind rule first : Nat) (rows : List (List Word)) : Tiled × List (Nat × Nat × Nat) :=
  let width := (rows.headD []).length
  let bands := (groups 128 (rows.length / 128 + 1) rows).zipIdx.map (fun g => (List.range ((width + 127) / 128)).map (fun j =>
    let name := 2 ^ 20 * tag + 1024 * g.2 + j
    let f := (s.tileRung c l name).getD first
    let t := climbTile kind rule s.freeCtr 2 f (g.1.map (fun r => ((r.drop (128 * j)).take 128).map f32))
    (name, f, t)))
  (bands.flatMap (fun b => (List.range ((b.headD (0, 0, 0, [])).2.2.2.length)).map (fun i => b.map (fun t => t.2.2.2.getD i ⟨1, [], []⟩))),
   (bands.flatten.filter (fun t => decide (t.2.1 ≠ t.2.2.1))).map (fun t => (t.1, t.2.1, t.2.2.1)))

/-- Record the tiles that climbed (R174, R175). -/
def noteClimbs (s : State) (c l : Nat) (es : List (Nat × Nat × Nat)) : State := es.foldl (fun s e => s.escalate c l e.1 e.2.1 e.2.2) s

/-! Activation gradients (R249, R252, R253). -/

/-- Band corrections of a batt layer's activation gradients to row i of a sample (R249). -/
def gradFix (s : State) (b c l : Nat) (y : Layer) (dy : List Word) (i : Nat) (v : Word) : Word :=
  let cols := List.range y.cols
  let term := fun (a : Word) (j : Nat) => ffma (bfRound (dy.getD j 0)) (bfRound (s.master c l y i j)) a
  if (s.bandRows b c l).contains i then cols.foldl term 0
  else
    let naps := sortBy (fun (m n : Nap) => decide (m.col ≤ n.col)) ((s.batt b).naps.filter (fun n => decide (n.row = i ∧ n.col < y.cols)))
    let v := naps.foldl (fun a n => ffma (bfRound (dy.getD n.col 0)) n.delta a) v
    (cols.filter (fun j => (s.batt b).dark.contains j)).foldl term v

/-- dX by the evaluated values of the cells: dY x s_g in BWD_FMT against the programmed image as MXINT8, then the corrections (R249). -/
def gradCells (s : State) (b c l : Nat) (y : Layer) (dys : List (List Word)) : List (List Word) × List (Nat × Nat × Nat) :=
  let scaled := dys.map (fun r => r.zipIdx.map (fun d => if (s.batt b).dark.contains d.2 then 0 else fmul d.1 (s.sg b d.2)))
  let a := s.narrowed c l 3 2 0 y.bwdFmt scaled
  let image := (List.range y.rows).map (fun i => codeRow 0xA 0x85 ((List.range y.cols).map (fun j => (s.pi_ b i j % 256).toNat)))
  ((a.1.zip dys).map (fun p => image.zipIdx.map (fun w => s.gradFix b c l y p.2 w.2 (tileFrom 0 p.1 w.1))), a.2)

/-- dX against a weight operand: dY in BWD_FMT without s_g and without corrections (R252, R253). -/
def gradAgainst (s : State) (c l : Nat) (y : Layer) (dys : List (List Word)) (w : Tiled) (es : List (Nat × Nat × Nat)) :
    List (List Word) × List (Nat × Nat × Nat) :=
  let a := s.narrowed c l 3 2 0 y.bwdFmt dys
  (a.1.map (fun r => w.map (fun v => tileFrom 0 r v)), a.2 ++ es)

/-- Row i of a matrix of exact values as an operand; its scales are in the elements. -/
def exactRow (f : Nat) (vals : List FVal) : List (MatRow × Nat) :=
  (groups 128 (vals.length / 128 + 1) vals).map (fun g => (⟨f, fun k => g.getD k (.fin false 0 0), fun _ => 127⟩, g.length))

/-- Sum of a narrowed row against exact values (R193): block by block for narrow operands, product by product with a wide one. -/
def exactDot (a : List TileRow) (b : List (MatRow × Nat)) : Word :=
  (a.zip b).foldl (fun acc p =>
    if isNarrowFloat p.1.fmt && isNarrowFloat p.2.1.fmt then p.1.row.accNarrow p.2.1 p.2.2 one32 acc
    else p.1.row.accWide p.2.1 p.2.2 acc) 0

/-- dX against weights that a forward consumed in a narrow format: row i and column j by their decoded values (R253, log entry 195). -/
def gradDecoded (s : State) (c l : Nat) (y : Layer) (dys : List (List Word)) (w : Nat → Nat → Nat × FVal) : List (List Word) × List (Nat × Nat × Nat) :=
  let a := s.narrowed c l 3 2 0 y.bwdFmt dys
  let rows := (List.range y.rows).map (fun i => exactRow (w i 0).1 ((List.range y.cols).map (fun j => (w i j).2)))
  (a.1.map (fun r => rows.map (fun v => exactDot r v)), a.2)

/-- Master weights of a layer by rows. -/
def masterRows (s : State) (c l : Nat) (y : Layer) : List (List Word) :=
  (List.range y.rows).map (fun i => (List.range y.cols).map (fun j => s.master c l y i j))

/-- dX of samples: against the masters in MXFP8 E4M3 (R252), against the operand that a digital or substituted forward consumed (R253), or
against the cells (R249). -/
def gradIn (s : State) (t : Template) (c l b : Nat) (y : Layer) (weights : Option Operand) (dys : List (List Word)) :
    List (List Word) × List (Nat × Nat × Nat) :=
  match weights with
  | some o => s.gradDecoded c l y dys (fun i j => (o.fmt, s.operandVal o j i))
  | none =>
    if s.stageMode c l b = 2 then
      s.gradDecoded c l y dys (fun i j => match (s.subWeights c l y (i / 128) (j / 128)).2[j % 128]? with
        | some r => (r.fmt, r.val (i % 128))
        | none => (1, .fin false 0 0))
    else if t.masterBwd then
      let w := s.narrowed c l 4 0 1 5 (s.masterRows c l y)
      s.gradAgainst c l y dys w.1 w.2
    else s.gradCells b c l y dys

/-! Weight gradients (R250, R253). -/

/-- Input code of a row as a FORWARD saved it, in two's complement (R246). -/
def savedCode (s : State) (a i : Nat) : Nat := (s.byte (a + i)).toNat

/-- Input x of a band row as a FORWARD saved it, none for a row that the batt drove (R246). -/
def savedBand (s : State) (a : Nat) (y : Layer) (static_ : List Nat) (i : Nat) : Option Word :=
  let dyn := a + y.rows + 2 * static_.length
  if static_.contains i then some (ofBf16 (s.load (a + y.rows + 2 * (static_.takeWhile (fun r => decide (r ≠ i))).length) 2))
  else ((List.range 16).find? (fun k => decide (s.load (dyn + 4 * k) 2 = i) && decide (s.load (dyn + 4 * k + 2) 2 ≠ 0))).map (fun k =>
    ofBf16 (s.load (dyn + 4 * k + 2) 2))

/-- dW of a batt layer: the saved codes as MXINT8 with scale byte 127 + 6 + log2 s_x against dY in BWD_FMT, then bf16(x) x bf16(dY) of the band
rows in ascending step index (R250). -/
def gradWeights (s : State) (b c l : Nat) (y : Layer) (saved stride : Nat) (dys : List (List Word)) : List Word × List (Nat × Nat × Nat) :=
  let n := dys.length
  let at_ := fun (k : Nat) => saved + k * stride
  let static_ := sortBy (fun (a b : Nat) => decide (a ≤ b)) (s.bandRows b c l)
  let d := s.narrowed c l 5 2 0 y.bwdFmt (transposed y.cols dys)
  let scale := (133 + (s.layerSeen c l).sx).toNat
  ((List.range y.rows).flatMap (fun i =>
    let codes := codeRow 0xA scale ((List.range n).map (fun k => s.savedCode (at_ k) i))
    d.1.zipIdx.map (fun r => (List.range n).foldl (fun acc k => match s.savedBand (at_ k) y static_ i with
      | some x => ffma (bfRound x) (bfRound ((dys.getD k []).getD r.2 0)) acc
      | none => acc) (tileFrom 0 codes r.1))), d.2)

/-- dW of a layer that ran on the matrix engine, against the input operand that its forward consumed (R246, R253). -/
def gradWeightsOf (s : State) (c l : Nat) (y : Layer) (o : Operand) (dys : List (List Word)) : List Word × List (Nat × Nat × Nat) :=
  let d := s.narrowed c l 5 2 0 y.bwdFmt (transposed y.cols dys)
  ((List.range y.rows).flatMap (fun i =>
    let x := exactRow o.fmt ((List.range dys.length).map (fun k => s.operandVal o k i))
    d.1.map (fun r => exactDot r x)), d.2)

/-! Sums of partial gradients (R241, R254). -/

/-- Micro-batches of a step of n samples (R241). -/
def microBatches (t : Template) (n : Nat) : Nat := (n + max 1 t.mbSamples - 1) / max 1 t.mbSamples

/-- Backward cores of a layer (R237). -/
def backwardCores (t : Template) (l : Nat) : Nat :=
  max 1 (((t.phases.filter (fun m => decide (m.phase = 2 ∧ m.layer = l))).map (fun m => m.cores.length * max 1 m.modules.length)).foldl (· + ·) 0)

/-- The accumulated gradient of a tensor with the partials of micro-batches `first` on: PSUM in ascending source index p = micro-batch x backward
cores + share, partial 0 exactly (R210, R254), into the free slot, which becomes the current one at the tick (R51). -/
def gradSum (s : State) (c : Nat) (t : Template) (x : Tensor) (n first micro stride base : Nat) : State :=
  let shares := backwardCores t x.layer
  let last := min (first + micro) (microBatches t n)
  let ps := (List.range (shares * (last - first))).map (fun k => base + (shares * first + k) * stride)
  let old := s.partAt c x
  let sums := (List.range (x.rows * x.cols)).map (fun e =>
    fsum ((if first = 0 then [] else [s.word (old + 4 * e)]) ++ ps.map (fun a => s.word (a + 4 * e))))
  if ps = [] then s
  else (s.setWords ((s.ctx c).slot x.part true) sums).updCtx c (fun z => { z with slots := flipSlots z.slots (2 ^ x.part.bit) })

/-! The first fill of Qp (R294). -/

/-- Element i of the first Qp of a tensor: (u - 2^31) x 2^-31, of AES-256 blocks under the seed key with domain 4. -/
def qpFirst (seedKey id i : Nat) : Word :=
  let o := aes256 (leNums 32 seedKey) (leNums 4 id ++ leNums 8 (i / 4) ++ leNums 4 4)
  toF32 (ofInt ((leNum ((o.drop (4 * (i % 4))).take 4) : Int) - 2 ^ 31) (-31))

/-- Fill Qp of every thinned tensor (R292, R294). -/
def fillQp (s : State) (c : Nat) (t : Template) : State :=
  if t.multi then
    (t.tensors.filter (fun x => decide (0 < x.rank))).foldl (fun s x =>
      s.setWords ((s.ctx c).slot x.qp false) ((List.range (x.cols * x.rank)).map (fun i => qpFirst (s.ctx c).seedKey x.id i))) s
  else s

end State

/-! Attention (R270 to R272). -/

/-- Running statistics of a query row. -/
structure AttnRow where
  m : Word
  l : Word
  o : List Word
deriving DecidableEq, Repr

/-- Key blocks in the order in which a shard processes them: its own run first, then around the ring (R271). -/
def ringOrder (shards : List (Nat × Nat)) (own : Nat) : List Nat :=
  (shards.drop own ++ shards.take own).flatMap (fun r => (List.range r.2).map (fun k => r.1 + k))

/-- A query position sees a key position (R270, log entry 196). -/
def attnSees (p : AttnPlan) (q k : Nat) : Bool :=
  match p.mask with
  | 0 => true
  | 1 => decide (k ≤ q)
  | _ => decide (k ≤ q) && decide (q < k + p.window)

/-- c/√d (R272). -/
def attnScale (d : Nat) : Word := fdiv log2e (fsqrt (f32Nat d))

/-- 2^(a - b), 1 where both are -∞ (R272). -/
def expDiff (a b : Word) : Word := if a = 0xFF800000 ∧ b = 0xFF800000 then one32 else fexp2 (fsub a b)

namespace State

/-- Rows of an attention operand: BF16, or MXFP8 with escalation where the image says so (R272). -/
def attnOperand (s : State) (c : Nat) (y : AttnWork) (p : AttnPlan) (tag : Nat) (rows : List (List Word)) : Tiled × List (Nat × Nat × Nat) :=
  s.narrowed c y.layer tag 1 0 (if p.narrow then 5 else 1) rows

/-- Positions of a key block. -/
def blockKeys (y : AttnWork) (p : AttnPlan) (kb : Nat) : List Nat := (List.range (min p.bk (y.keys - kb * p.bk))).map (fun j => kb * p.bk + j)

/-- Rows of an operand in BF16 at given positions. -/
def attnRows (s : State) (a : Place) (d : Nat) (ks : List Nat) : List (List Word) := ks.map (fun k => s.halvesAt a (k * d) d)

/-- Scores of the query rows against a key block, none where masked (R272). -/
def attnScores (s : State) (c : Nat) (y : AttnWork) (p : AttnPlan) (qs : List (List Word)) (ks : List Nat) : List (List (Option Word)) :=
  let q := (s.attnOperand c y p 6 qs).1
  let k := (s.attnOperand c y p 7 (s.attnRows y.k p.d ks)).1
  q.zipIdx.map (fun r => (k.zip ks).map (fun e => if attnSees p (y.first + r.2) e.2 then some (tileFrom 0 r.1 e.1) else none))

/-- Query rows times c/√d, as the operand takes them. -/
def attnQueries (s : State) (y : AttnWork) (p : AttnPlan) : List (List Word) :=
  (s.attnRows y.q p.d (List.range y.rows)).map (fun r => r.map (fun v => fmul v (attnScale p.d)))

/-- One key block of the forward (R272). -/
def attnStep (s : State) (c : Nat) (y : AttnWork) (p : AttnPlan) (qs : List (List Word)) (rs : List AttnRow) (kb : Nat) : List AttnRow :=
  let ks := blockKeys y p kb
  let sc := s.attnScores c y p qs ks
  let next := (rs.zip sc).map (fun e =>
    let m := (e.2.map (fun v => v.getD 0xFF800000)).foldl fmax e.1.m
    (m, expDiff e.1.m m, e.2.map (fun v => match v with | some x => fexp2 (fsub x m) | none => 0)))
  let ps := (s.attnOperand c y p 8 (next.map (fun n => n.2.2))).1
  let vs := (s.attnOperand c y p 9 (transposed p.d (s.attnRows y.v p.d ks))).1
  (rs.zip (next.zip ps)).map (fun e =>
    ⟨e.2.1.1, ffma e.2.1.2.1 e.1.l (rsumWords e.2.1.2.2),
     (e.1.o.zip vs).map (fun o => tileFrom (fmul e.2.1.2.1 o.1) e.2.2 o.2)⟩)

/-- Climbs of an attention block's operands of queries and keys. -/
def attnClimbs (s : State) (c : Nat) (y : AttnWork) (p : AttnPlan) (qs : List (List Word)) (order : List Nat) : List (Nat × Nat × Nat) :=
  (s.attnOperand c y p 6 qs).2 ++ order.flatMap (fun kb => (s.attnOperand c y p 7 (s.attnRows y.k p.d (blockKeys y p kb))).2)

/-- Attention forward of one query block (R272): its output, O in BF16 and the log-sums. -/
def attnForward (s : State) (c : Nat) (y : AttnWork) (p : AttnPlan) : State :=
  let qs := s.attnQueries y p
  let order := ringOrder p.shards y.shard
  let rs := order.foldl (s.attnStep c y p qs) (List.replicate y.rows ⟨0xFF800000, 0, List.replicate p.d 0⟩)
  let outs := rs.map (fun r => r.o.map (fun v => if Machine.flt 0 r.l then fmul v (frcp r.l) else 0))
  let lses := rs.map (fun r => if Machine.flt 0 r.l then fadd r.m (flog2 r.l) else 0xFF800000)
  (((s.putWords y.out 0 outs.flatten).putHalves y.o 0 outs.flatten).putWords y.lse 0 lses).noteClimbs c y.layer (s.attnClimbs c y p qs order)

/-- Attention backward of one query block (R272): dQ over the key blocks ascending; dK and dV grow over the query blocks ascending, and dK takes
its factor with the last of them. -/
def attnBackward (s : State) (c : Nat) (y : AttnWork) (p : AttnPlan) : State :=
  let qs := s.attnQueries y p
  let raw := s.attnRows y.q p.d (List.range y.rows)
  let dO := (List.range y.rows).map (fun r => s.wordsAt y.dO (r * p.d) p.d)
  let o := (List.range y.rows).map (fun r => s.halvesAt y.o (r * p.d) p.d)
  let ds := List.zipWith dotSum dO o
  let lse := s.wordsAt y.lse 0 y.rows
  let wide := fun (rows : List (List Word)) => (s.narrowed c y.layer 10 1 0 0 rows).1
  let blocks := (List.range ((y.keys + p.bk - 1) / p.bk)).map (fun kb =>
    let ks := blockKeys y p kb
    let ps := (s.attnScores c y p qs ks).zipIdx.map (fun r => r.1.map (fun v => match v with
      | some x => fexp2 (fsub x (lse.getD r.2 0))
      | none => 0))
    let dP := (wide dO).map (fun r => (wide (s.attnRows y.v p.d ks)).map (fun v => tileFrom 0 r v))
    let dS := ((ps.zip dP).zip ds).map (fun e => List.zipWith (fun a b => fmul a (fsub b e.2)) e.1.1 e.1.2)
    (ks, ps, dS))
  let dq := (List.range y.rows).map (fun r => (List.range p.d).map (fun i =>
    fmul (attnScale p.d) (blocks.foldl (fun acc b =>
      tileFrom acc ((wide [b.2.2.getD r []]).headD []) ((wide [(s.attnRows y.k p.d b.1).map (fun v => v.getD i 0)]).headD [])) 0)))
  let last := decide (y.keys ≤ y.first + y.rows)
  let grow := fun (s : State) (a : Place) (k i : Nat) (col : List Word) (rows : List (List Word)) (scale : Bool) =>
    let old : Word := if y.first = 0 then 0 else (s.wordsAt a (k * p.d + i) 1).headD 0
    let v := tileFrom old ((wide [col]).headD []) ((wide [rows.map (fun r => r.getD i 0)]).headD [])
    s.putWords a (k * p.d + i) [if scale then fmul (attnScale p.d) v else v]
  let s := s.putWords y.dq 0 dq.flatten
  blocks.foldl (fun s b => b.1.zipIdx.foldl (fun s k => (List.range p.d).foldl (fun s i =>
    grow (grow s y.dv k.1 i (b.2.1.map (fun r => bfRound (r.getD k.2 0))) dO false) y.dk k.1 i (b.2.2.map (fun r => r.getD k.2 0)) raw last) s) s) s

/-! The work of a frame. -/

/-- Where a layer's function saves: its output or its input, in BF16 (R246); with DERIV_CODES nothing. -/
def saveAct (s : State) (y : Layer) (save : Option Place) (z out : List Word) : State :=
  match save with
  | some p => if y.derivCodes then s else s.putHalves p 0 (if savesInput y.fn then z else out)
  | none => s

/-- The saved values of a layer's function: BF16, or s_x x a of the next layer's codes with DERIV_CODES (R246). -/
def savedAct (s : State) (c l n : Nat) (y : Layer) (p : Place) : List Word :=
  if y.derivCodes then
    (List.range n).map (fun i => fmul (f32Pow2 (s.layerSeen c (l + 1)).sx) (f32Int (s.byte (s.keyOf p + i)).toInt))
  else s.halvesAt p 0 n

/-- Dropout of elements (R255): in FORWARD and BACKWARD alone. -/
def dropAll (s : State) (c l phase first : Nat) (y : Layer) (xs : List Word) : List Word :=
  if phase = 0 ∨ phase = 2 then
    let k := fdiv one32 (fsub one32 (f32Frac y.dropT 65536))
    xs.zipIdx.map (fun v => if dropoutKeeps (s.ctx c).seedKey (s.stepNo c) l y.dropT (first + v.2) then fmul v.1 k else 0)
  else xs

/-- Saved bytes to the neighbour's spill region, on VC1 (R266): of a layer that the step spills. -/
def spillOut (s : State) (c : Nat) (t : Template) (l offset : Nat) (bs : List Byte) : State :=
  match (s.ctx c).step with
  | some r => if r.spilled.contains l then
      s.record t.spillModule 1 256 ([c, s.gen c, t.spillBase + offset] ++ bs.map (fun b => b.toNat))
    else s
  | none => s

/-- Rows of n words at a place. -/
def rowsAt (s : State) (p : Place) (rows n : Nat) : List (List Word) := (List.range rows).map (fun r => s.wordsAt p (r * n) n)

/-- Carry out a layer's procedure of a phase (R237). -/
def layerWork (s : State) (t : Template) (c phase l : Nat) (y : Layer) (w : PhaseWork) : State :=
  match w with
  | .act _ n z out save =>
    let zs := s.wordsAt z 0 n
    let ys := zs.map (actOf y.fn y.alpha)
    (s.putWords out 0 ys).saveAct y save zs ys
  | .actBack _ n saved dy dz =>
    s.putWords dz 0 (List.zipWith (fun g v => fmul g (slopeOf y.fn y.alpha v)) (s.wordsAt dy 0 n) (s.savedAct c l n y saved))
  | .norm _ rows x gamma beta out save =>
    let ns := (s.rowsAt x rows y.cols).map (normRow y.fn y.eps)
    let g := s.wordsAt gamma 0 y.cols
    let s := s.putWords out 0 (ns.flatMap (fun n => normOut y.fn n.1 g (s.wordsAt beta 0 y.cols)))
    match save with
    | some p => (s.putHalves p.1 0 (ns.flatMap (fun n => n.1))).putWords p.2 0 (ns.map (fun n => n.2))
    | none => s
  | .normBack _ rows saved rstd gamma dy dx dgamma dbeta more =>
    let g := s.wordsAt gamma 0 y.cols
    let xh := (List.range rows).map (fun r => s.halvesAt saved (r * y.cols) y.cols)
    let ds := s.rowsAt dy rows y.cols
    let back := (xh.zip ds).zipIdx.flatMap (fun e => normGrad y.fn e.1.1 ((s.wordsAt rstd e.2 1).headD 0) g e.1.2)
    let sum := fun (a : Place) (f : Word → Word → Word) => (List.range y.cols).map (fun j =>
      fsum ((if more then s.wordsAt a j 1 else []) ++ (xh.zip ds).map (fun e => f (e.1.getD j 0) (e.2.getD j 0))))
    let dg := sum dgamma (fun x d => fmul d x)
    let db := sum dbeta (fun _ d => d)
    let s := s.putWords dx 0 back
    if y.fn = .softMax then s else if y.fn = .rmsNorm then s.putWords dgamma 0 dg else (s.putWords dgamma 0 dg).putWords dbeta 0 db
  | .drop _ first n src dst => s.putWords dst 0 (s.dropAll c l phase first y (s.wordsAt src 0 n))
  | .gradIn _ b n weights dy dx =>
    let r := s.gradIn t c l b y weights (s.rowsAt dy n y.cols)
    (s.putWords dx 0 r.1.flatten).noteClimbs c l r.2
  | .gradW _ b n saved stride input dy dw db more =>
    let ds := s.rowsAt dy n y.cols
    let r := match input with
      | some o => s.gradWeightsOf c l y o ds
      | none => s.gradWeights b c l y (s.keyOf saved) stride ds
    let bias := (List.range y.cols).map (fun j => fsum ((if more then s.wordsAt db j 1 else []) ++ ds.map (fun d => d.getD j 0)))
    ((s.putWords dw 0 r.1).putWords db 0 bias).noteClimbs c l r.2
  | .spill _ src offset n => s.spillOut c t l offset (s.bytes (s.keyOf src) n)
  | .attn a => s.attnForward c a y.attn
  | .attnBack a => s.attnBackward c a y.attn
  | .loss .. => s
  | .gradSum .. => s

end State

/-- Layer that a procedure works on. -/
def workLayer : PhaseWork → Option Nat
  | .act l _ _ _ _ => some l
  | .actBack l _ _ _ _ => some l
  | .norm l _ _ _ _ _ _ => some l
  | .normBack l _ _ _ _ _ _ _ _ _ => some l
  | .drop l _ _ _ _ => some l
  | .gradIn l _ _ _ _ _ => some l
  | .gradW l _ _ _ _ _ _ _ _ _ => some l
  | .spill l _ _ _ => some l
  | .attn a => some a.layer
  | .attnBack a => some a.layer
  | .loss .. => none
  | .gradSum .. => none

namespace State

/-- Carry out a procedure for a context in a phase. -/
def runWork (s : State) (c phase : Nat) (w : PhaseWork) : State :=
  match s.template c with
  | none => s
  | some t =>
    match w with
    | .loss n width fmt out target losses seeds =>
      let rs := (List.range n).map (fun k => sampleLoss t.losses t.epsR (s.elemsAt out fmt (k * width) width) (s.elemsAt target fmt (k * width) width))
      (s.putWords losses 0 (rs.map (fun r => r.1))).putWords seeds 0 (rs.flatMap (fun r => r.2))
    | .gradSum id first micro stride src =>
      match t.tensors.find? (fun x => decide (x.id = id)), (s.ctx c).step with
      | some x, some r => s.gradSum c t x r.samples.length first micro stride (s.keyOf src)
      | _, _ => s
    | w => match workLayer w with
      | some l => match t.layers[l]? with
        | some y => s.layerWork t c phase l y w
        | none => s
      | none => s

/-- The work of the plan that has just executed, item after item (R50, R237). -/
def runWorks (s : State) : State :=
  match s.fr.plans with
  | [] => s
  | p :: _ => p.items.foldl (fun s i => i.works.foldl (fun s w => s.runWork i.ctx i.phase w) s) s

end State

end Sys2Proof.Machine
end

