-- ==== Sys2Proof/Machine/Checkpoint.lean ====
section
/-!
DEFINITION. Machine/Checkpoint.lean: checkpoints, exports, restores, the recomputation of logged steps, and moments for an adopter
(spec/14_checkpoint_and_replay.md); and the dispatch of step records by type (R280).
-/
namespace Sys2Proof.Machine

namespace State

/-! The interval (R449). -/

/-- Nanoseconds of a second. -/
def second : Nat := 1000000000

/-- Change the checkpoint state of a context. -/
def updCkpt (s : State) (c : Nat) (f : CkptSt → CkptSt) : State := s.updCtx c (fun x => { x with ckpt := f x.ckpt })

/-- Time of the closing tick. -/
def tickTime (s : State) : Nat := s.now + s.periodNs

/-- F: failures of the last 7 days. -/
def failures (s : State) (c : Nat) : Nat := ((s.ctx c).ckpt.fails.filter (fun f => decide (s.tickTime ≤ f + 604800 * second))).length

/-- M in ns. -/
def mtbf (s : State) (c : Nat) (t : Template) : Nat :=
  let seen := match (s.ctx c).ckpt.sinceReady with | some a => s.tickTime - a | none => 0
  (min (604800 * second) seen + s.pol 0x80 * 3600 * second / max 1 t.members.length) / (s.failures c + 1)

/-- τ in ns for a C in ns. -/
def tauFor (s : State) (c : Nat) (t : Template) (cost : Nat) : Nat :=
  max (s.pol 0x74 * second) (min (s.pol 0x78 * second) (Nat.sqrt (2 * cost * s.mtbf c t)))

/-- τ in force: that of the last completion, or with the C at hand where the module has formed none. -/
def tau (s : State) (c : Nat) (t : Template) : Nat :=
  let k := (s.ctx c).ckpt
  if k.tau ≠ 0 then k.tau else s.tauFor c t (if k.lastC ≠ 0 then k.lastC else s.pol 0x7C * 1000000)

/-- The module leads the context (R444). -/
def leads (s : State) (c : Nat) (t : Template) : Bool := !t.multi || decide ((s.alive c t).headD 0 = s.ownCtxIdx t)

/-- Members that take a checkpoint, by context index; the one index 0 on one module. -/
def takers (s : State) (c : Nat) (t : Template) : List Nat := if t.multi then s.alive c t else [0]

/-- Own index among them. -/
def takerIdx (s : State) (t : Template) : Nat := if t.multi then s.ownCtxIdx t else 0

/-- An export waits for a first complete generation (R453). -/
def exportWaits (s : State) (c : Nat) : Bool := (s.ctx c).ckpt.latest.isNone && (s.ctx c).ckpt.exports.any (fun x => x.busy)

/-- A new checkpoint is due at this commit (R444). -/
def ckptDue (s : State) (c : Nat) (t : Template) : Bool :=
  let k := (s.ctx c).ckpt
  k.fresh && decide (s.holders c ≠ []) && k.run.isNone && (s.exportWaits c ||
    match k.lastStart with | none => true | some a => decide (a + s.tau c t ≤ s.tickTime))

/-- Start to take generation g at the commit of step n. -/
def nameCkpt (s : State) (c : Nat) (t : Template) (n g : Nat) : State :=
  s.updCkpt c (fun k => { k with
    run := some ⟨n, g, s.takers c t, none, 0, [], [], [], none⟩, lastStart := some s.tickTime, lastGen := max k.lastGen g })

/-! Completion (R446, R449, R451). -/

/-- Free step entries up to s_c and the sample entries whose samples were all consumed at T(c) (R451). -/
def trimLog (s : State) (c : Nat) (k : CkptRun) : State :=
  let used := fun (i : Nat) => match k.consumed.find? (fun e => decide (e.1 = i)) with | some e => e.2 | none => 0
  let keep := fun (e : LogEntry) => if e.kind = 2 then decide (k.step < e.step) else decide (used e.session < e.firstSeq + e.count - 1)
  s.updCtx c (fun x =>
    let l := x.log.filter keep
    { x with log := l, logPos := match l with | e :: _ => e.pos | [] => x.logNext })

/-- Show C, and on the leader τ, M and F (R462). -/
def showInterval (s : State) (c : Nat) (t : Template) (cost : Nat) : State :=
  let s := (s.updCkpt c (fun k => { k with lastC := cost })).put F.CKPT_TIME_LAST_C c (min (cost / 1000000) 0xFFFF)
  if s.leads c t then
    let tau := s.tauFor c t cost
    let s := (s.updCkpt c (fun k => { k with tau := tau })).put F.CKPT_TIME_TAU c (min (tau / second) 0xFFFF)
    (s.put F.CKPT_MTBF_M c (min (s.mtbf c t / second) (2 ^ 28 - 1))).put F.CKPT_MTBF_FAILS c (min (s.failures c) 15)
  else s

/-- The checkpoint completes at the tick (R446). -/
def completeCkpt (s : State) (c : Nat) (t : Template) (k : CkptRun) (taken : Nat) : State :=
  let s := s.updCkpt c (fun y => { y with
    run := none, previous := y.latest, latest := k.snap, fresh := decide (k.step + 1 < s.stepNo c) })
  let s := ((s.put F.CKPT_GEN_GEN c k.gen).put F.CKPT_STEP_LO_STEP c (k.step % 2 ^ 32)).put F.CKPT_STEP_HI_STEP c (k.step / 2 ^ 32)
  let s := (s.trimLog c k).showInterval c t (s.tickTime - taken)
  (s.raise F.CKPT_EVT_DONE c).eventAt 0x0509 6 c k.gen k.step

/-- Complete once DONE of every member has been applied. -/
def tryComplete (s : State) (c : Nat) (t : Template) : State :=
  match (s.ctx c).ckpt.run with
  | none => s
  | some k => match k.taken with
    | none => s
    | some a => if k.members.all (fun m => k.membersDone.contains m) then s.completeCkpt c t k a else s

/-- Note a holder's DONE; with the last one the module sends its own to every member (R446). -/
def holderHas (s : State) (c : Nat) (t : Template) (h : Nat) : State :=
  match (s.ctx c).ckpt.run with
  | none => s
  | some k =>
    let k := { k with holdersDone := if k.holdersDone.contains h then k.holdersDone else k.holdersDone ++ [h] }
    let me := s.takerIdx t
    let s := s.updCkpt c (fun y => { y with run := some k })
    if (s.holders c).all (fun h => k.holdersDone.contains h) ∧ k.membersDone.contains me = false then
      let s := s.updCkpt c (fun y => { y with run := some { k with membersDone := k.membersDone ++ [me] } })
      (if t.multi then s.toMembers c 1 (recBytes k.step 0 9 (s.ownCtxIdx t) 0 0 0) else s).tryComplete c t
    else s

/-- CKPT (R444): take generation ARG at the commit of STEP; a module whose every holder is lost takes none (R448). -/
def takeCkptRec (s : State) (o : StepRec) : State :=
  let c := o.head.ctx
  match s.template c with
  | none => s
  | some t =>
    if (s.ctx c).ckpt.run.isSome ∨ o.step < s.stepNo c then s.staleRec c
    else if s.holders c = [] then s
    else s.nameCkpt c t o.step o.arg

/-- DONE of a holder or of a member (R446). -/
def takeDone (s : State) (o : StepRec) : State :=
  let c := o.head.ctx
  match s.template c, (s.ctx c).ckpt.run with
  | some t, some k =>
    if k.step % 2 ^ 48 ≠ o.step then s.staleRec c
    else if o.holder then (if (s.holders c).contains o.sender ∧ k.taken.isSome then s.holderHas c t o.sender else s)
    else
      (s.updCkpt c (fun y => { y with run := some { k with
        membersDone := if k.membersDone.contains o.sender then k.membersDone else k.membersDone ++ [o.sender] } })).tryComplete c t
  | _, _ => s.staleRec c

/-! Restoring (R456 to R459). -/

/-- Change the load of a context. -/
def updLoad (s : State) (c : Nat) (f : LoadRun → LoadRun) : State := s.updCtx c (fun x => { x with loading := x.loading.map f })

/-- Answer the LOAD_MODEL of a load that ends in a status (R358, R384). -/
def answerLoad (s : State) (c : Nat) (l : LoadRun) (st : Nat) : State :=
  match l.request with
  | some r => s.hold 1 { answer 6 r (verdict st) 0 with gen := s.gen c }
  | none => s

/-- Refuse the restore (R459): the context is FAULTED with cause 5 at the next tick. -/
def refuseRestore (s : State) (c : Nat) (l : LoadRun) (reason : Nat) : State :=
  let s := ((s.put F.CKPT_RESTORE_LAST_REASON c reason).raise F.CKPT_EVT_REFUSED c).faultCtx c 5
  let s := (s.answerLoad c l rejCtxState).updLoad c (fun l => { l with request := none, stage := 9 })
  s.eventD0 0x050C 6 c reason

/-- Write tensors of a section set to the committed slots (R457 stage 3). -/
def writeTensors (s : State) (c : Nat) (t : Template) (l : List (Nat × Nat × Nat × List Byte)) : State :=
  l.foldl (fun s d => match t.tensor d.1 with
    | none => s
    | some y =>
      let w := if t.bf16Moments then 2 else 4
      let x := s.ctx c
      match d.2.1 with
      | 0 => s.setBytes (x.slot y.master false + 4 * d.2.2.1) d.2.2.2
      | 1 => s.setBytes (x.slot y.m false + w * d.2.2.1) d.2.2.2
      | 2 => s.setBytes (x.slot y.v false + w * d.2.2.1) d.2.2.2
      | 3 => s.setBytes (x.slot y.resid false + 4 * d.2.2.1) d.2.2.2
      | _ => s.setBytes (x.slot y.qp false + 4 * d.2.2.1) d.2.2.2) s

/-- Load a context's save areas from a section set (R457 stage 3). -/
def loadSaves (s : State) (c : Nat) (l : List (Nat × SaveArea)) : State :=
  let s := s.cores.foldl (fun s e => s.putSet e.1 c .empty) s
  l.foldl (fun s e => s.putSet e.1 c e.2) s

/-- Stage 5 (R151, R457): the transfer decision over every row; rows of a batt with another load owner are to be blocked under R138. -/
def decideRows (s : State) (c : Nat) : State :=
  let other := (s.placement c).filter (fun b => decide ((s.batt b).owner ≠ some c))
  let s := other.foldl (fun s b => s.updBatt b (fun x => { x with owner := some c })) s
  let s := s.updCtx c (fun x => { x with
    unsound := x.unsound ++ allRows other })
  (s.settleStatic c).transferAll c

/-- Stage 3: the record, the layer table, the tensors and the save areas (R457); a context on one module goes on to stage 5. -/
def install (s : State) (c : Nat) (t : Template) (g : Generation) : State :=
  let s := (s.applyRecord c g).updCtx c (fun x => { x with layers := g.layers, exch := .empty, step := none })
  let s := (s.writeTensors c t g.data).loadSaves c g.saves
  if t.multi then s.updLoad c (fun l => { l with stage := 4 })
  else (s.decideRows c).updLoad c (fun l => { l with stage := 6 })

/-- Stage 2 ends once RESTORED of every member of the template has been applied, all with one CKPT_GEN (R457, R459). -/
def restoredAll (s : State) (c : Nat) (t : Template) : State :=
  match (s.ctx c).loading with
  | none => s
  | some l => match l.set_ with
    | none => s
    | some g =>
      if l.stage ≠ 2 ∨ (List.range t.members.length).all (fun i => l.members.any (fun m => decide (m.1 = i))) = false then s
      else if l.members.all (fun m => decide (m.2 = g.gen % 2 ^ 32)) then s.install c t g
      else s.refuseRestore c l 5

/-- Stage 1 is over: the sections are here and sound (R457); members tell one another their CKPT_GEN. -/
def takeSections (s : State) (c : Nat) (t : Template) (l : LoadRun) (g : Generation) : State :=
  if g.template ≠ t.index then s.refuseRestore c l 4
  else
    let s := s.updCtx c (fun x => { x with loading := some { l with
      restore := true, stage := 2, set_ := some g, members := l.members ++ [(s.takerIdx t, g.gen % 2 ^ 32)] } })
    if t.multi then
      let s := s.updExch c (fun _ => .empty)
      (s.toMembers c 1 (recBytes g.step 0 10 (s.ownCtxIdx t) (g.gen % 2 ^ 32) 0 0)).restoredAll c t
    else s.install c t g

/-- The generation that the load takes (R456). -/
def sourceGen (s : State) (c : Nat) (l : LoadRun) : Option Generation :=
  let k := (s.ctx c).ckpt
  let g := if l.source = 2 then k.previous else k.latest
  if s.holders c = [] then none else g

/-- Stage 4 (R288, R457): own masters go out, gathered ones to the committed slots; with the last the rows are decided. -/
def gatherRestored (s : State) (t : Template) (o : RestoreOp) : State :=
  let c := o.ctx
  let s := (o.xfers.filter (fun f => decide (f.kind = 5))).foldl (fun s f => match t.tensor f.tensor with
    | some y => s.sendXfer c t f 0 (s.bytes ((s.ctx c).slot y.master false + 4 * f.first) (4 * f.count))
    | none => s) s
  let s := s.writeTensors c t (o.gathered.map (fun g => (g.1, 0, g.2.1, g.2.2)))
  if o.last then (s.decideRows c).updLoad c (fun l => { l with stage := 6 }) else s

/-- RESTORED of a member (R457). -/
def takeRestored (s : State) (o : StepRec) : State :=
  let c := o.head.ctx
  match s.template c, (s.ctx c).loading with
  | some t, some l =>
    if 2 < l.stage then s.staleRec c
    else (s.updLoad c (fun l => { l with members := l.members ++ [(o.sender, o.arg)] })).restoredAll c t
  | _, _ => s.staleRec c

/-- The votes of every member decide a restore (R459). -/
def decideRestore (s : State) (c : Nat) : State :=
  match s.template c, (s.ctx c).loading with
  | some t, some l =>
    let n := if t.multi then t.members.length else 1
    if l.stage ≠ 6 ∨ (List.range n).all (fun i => l.votes.any (fun v => decide (v.1 = i))) = false then s
    else if l.votes.all (fun v => v.2) then s.updLoad c (fun l => { l with stage := 7 })
    else s.refuseRestore c l 3
  | _, _ => s

/-! Recomputing lost work (R460). -/

/-- Samples of the log in log order, each with the position of its entry and its index in it. -/
def loggedSamples (x : Ctx) : List (Nat × Nat × Sample) :=
  (x.log.filter (fun e => decide (e.kind = 1))).flatMap (fun e => e.data.zipIdx.map (fun p => (e.pos, p.2, p.1)))

/-- Samples that a closed step entry names. -/
def namedSamples (x : Ctx) (e : LogEntry) : List Sample :=
  (((loggedSamples x).dropWhile (fun p => !decide (p.1 = e.firstEntry ∧ p.2.1 = e.firstIndex))).take e.count).map (fun p => p.2.2)

/-- The payloads of the entries that hold a step's samples match their HASH (R460). -/
def hashesMatch (x : Ctx) (l : List Sample) : Bool :=
  (x.log.filter (fun e => decide (e.kind = 1) && e.data.any (fun y => l.contains y))).all (fun e =>
    decide (leNum (shake256 ((payload e.data).map (fun b => b.toNat)) 16) = e.hash))

/-- Steps to recompute: the closed entries after a step, in order, while each is there, whole and matching; across modules up to the last
step that every member's log holds. The fuel is the number of entries. -/
def stepsToRedo (x : Ctx) (limit : Option Nat) : Nat → Nat → List Nat
  | 0, _ => []
  | n + 1, k =>
    match x.log.find? (fun e => decide (e.kind = 2 ∧ e.step = k) && e.closed) with
    | none => []
    | some e =>
      let l := namedSamples x e
      if l.length = e.count ∧ hashesMatch x l = true ∧ (match limit with | some m => decide (k ≤ m) | none => true) = true then
        k :: stepsToRedo x limit n (k + 1)
      else []

/-- Stages 7 and 8 (R457, R458, R460): the queue is rebuilt from the log, session numbers are set, and the context is READY at the next
tick. Samples that steps up to s_c consumed do not come back. -/
def finishRestore (s : State) (c : Nat) (t : Template) (l : LoadRun) (g : Generation) (common : Nat) : State :=
  let x := s.ctx c
  let redo := stepsToRedo x (if t.multi then some common else none) x.log.length (g.step + 1)
  let named := redo.flatMap (fun k => match x.log.find? (fun e => decide (e.kind = 2 ∧ e.step = k) && e.closed) with
    | some e => namedSamples x e
    | none => [])
  let used := fun (y : Sample) => match g.sessions.find? (fun e => decide (e.1 = y.session)) with | some e => decide (y.seq ≤ e.2.2) | none => false
  let queue := ((loggedSamples x).map (fun p => p.2.2)).filter (fun y => !named.contains y && !used y)
  let s := s.updCtx c (fun x => { x with
    replays := redo, intake := queue.map (fun y => { y with frame := s.frame }), loading := none,
    log := x.log.filter (fun e => decide (e.kind = 1) || decide (e.step ≤ g.step) || redo.contains e.step),
    ckpt := { x.ckpt with
      lastStart := none, lastGen := max x.ckpt.lastGen g.gen, sinceReady := some (x.ckpt.sinceReady.getD s.tickTime) } })
  let high := fun (i : Nat) => ((loggedSamples x).map (fun p => if p.2.2.session = i then p.2.2.seq else 0)).foldl max 0
  let s := (g.sessions.filter (fun e => (s.boundSessions c).contains e.1)).foldl (fun s e =>
    (s.updHost e.1 (fun h => { h with consumed := e.2.2 })).setAccepted e.1 (max e.2.1 (high e.1))) s
  ((s.raise F.CKPT_EVT_RESTORED c).event 0x050B 6 c g.gen g.step).enterReady c |>.answerLoad c l stOk

/-- Begin the next recomputed step with the samples, rounding position and LR_SCALE of its entry (R460). -/
def beginReplay (s : State) (c : Nat) (t : Template) (e : LogEntry) : State :=
  let l := namedSamples (s.ctx c) e
  let f := { hbxFit t l with taken := l, shrunk := false, abort := false }
  let r := { StepRun.start e.step f t.hbxPolicy s.frame e.lrScale with replay := true, replayLoss := e.loss }
  ((s.countFit c t l f).showBegin c).updCtx c (fun x => { x with step := some r, openStep := some r, roundPos := e.roundPos })

/-- The recomputed step begins at an opening tick, as an ordinary one. -/
def replayNext (s : State) (c : Nat) (t : Template) : State :=
  match (s.ctx c).replays with
  | [] => s
  | n :: _ => match (s.ctx c).log.find? (fun e => decide (e.kind = 2 ∧ e.step = n)) with
    | none => s.updCtx c (fun x => { x with replays := [] })
    | some e => s.startStep c t (decide (s.seen F.CTX_TRAIN_PAUSE c = 0)) (fun s => s.beginReplay c t e)

end State

/-- LOAD_COMPLETE (R384): the package's content is in place and every batt of the placement is blocked. -/
def execLoadComplete (ctx : Nat) (s : State) : Outcome :=
  .next (match (s.ctx ctx).loading with
    | none => s
    | some l =>
      if s.ctxLive ctx = 1 ∧ l.restore = false ∧ l.stage = 5 ∧ s.unblocked ctx = [] then
        if (match s.template ctx with | some t => s.packageBad ctx t | none => false) = true then s.failLoad ctx rejLen 0 else
        let s := match s.template ctx with | some t => s.fillQp ctx t | none => s
        let s := (s.enterReady ctx).updCtx ctx (fun x => { x with
          loading := none, trained := 0, ckpt := { x.ckpt with
            sinceReady := some (x.ckpt.sinceReady.getD s.tickTime), lastStart := none } })
        s.answerLoad ctx l stOk
      else s)

/-- CKPT_START (R444): at a step commit. -/
def execCkptStart (ctx : Nat) (s : State) : Outcome :=
  .next (match s.template ctx with
    | none => s
    | some t =>
      if s.fr.killed = none ∧ (s.ctx ctx).window = s.frame + 1 ∧ s.leads ctx t = true ∧ s.ckptDue ctx t = true then
        let n := s.stepNo ctx + 1
        let g := (s.ctx ctx).ckpt.lastGen + 1
        let s := s.nameCkpt ctx t n g
        if t.multi then s.toMembers ctx 1 (State.recBytes n 0 8 (s.ownCtxIdx t) (g % 2 ^ 32) 0 0) else s
      else s)

/-- CKPT (R444). -/
def execCkpt (o : StepRec) (s : State) : Outcome := .next (s.heard o.head (s.takeCkptRec o))

/-- HOLDER_DONE (R446): this module holds for the source, and the whole set has landed. -/
def execHolderDone (o : HolderOp) (s : State) : Outcome :=
  .next (
    let e := tget (⟨0, [], 0, 0⟩ : TopoEntry) s.img.accepted.topo o.source
    if o.source ≠ s.ownId ∧ (e.holder0 = s.ownId ∨ (s.img.accepted.holders = 2 ∧ e.holder1 = s.ownId)) ∧ 0 < o.promised ∧ o.promised ≤ o.landed then
      { s with fr := { s.fr with
        records := s.fr.records ++ [⟨o.ctx, s.gen o.ctx, 1, [o.source], State.recBytes o.step 0 9 (s.ownId + 2 ^ 17) 0 0 0⟩] } }
    else s)

/-- SELF_HOLD_COPY_DONE (R447): the last byte landed in this frame. -/
def execSelfHoldCopyDone (ctx : Nat) (s : State) : Outcome :=
  .next (match s.template ctx, (s.ctx ctx).ckpt.run with
    | some t, some k =>
      if s.fr.killed = none ∧ s.img.accepted.modules ≤ 1 ∧ k.taken.isSome then s.holderHas ctx t s.ownId else s
    | _, _ => s)

/-- DONE (R446). -/
def execDone (o : StepRec) (s : State) : Outcome := .next (s.heard o.head (s.takeDone o))

/-- CKPT_ABANDON (R448): cause 1, a holder is reported lost; 2, a member is lost; 3 and 7, a teardown, a restore or a fault. -/
def execCkptAbandon (ctx cause module : Nat) (s : State) : Outcome :=
  .next (match s.template ctx with
    | none => s
    | some t =>
      let run := (s.ctx ctx).ckpt.run
      match cause with
      | 1 =>
        if (s.holders ctx).contains module ∧ module ≠ s.ownId then
          let done := match run with | some k => k.holdersDone.contains module | none => true
          let s := s.updCkpt ctx (fun k => { k with lostHolders := k.lostHolders ++ [module] })
          if done then s else s.abandonCkpt ctx 1
        else s
      | 2 => match run with
        | some k => if k.members.any (fun i => s.isLost ctx (t.members.getD i 0)) then s.abandonCkpt ctx 2 else s
        | none => s
      | 3 => if s.ctxLive ctx = 5 ∨ s.ctxLive ctx = 1 then s.abandonCkpt ctx 3 else s
      | 7 => if s.ctxLive ctx = 6 then s.abandonCkpt ctx 7 else s
      | _ => s)

/-- CKPT_LIMIT_EXPIRY (R448): CKPT_LIMIT frames after T(c). -/
def execCkptLimitExpiry (ctx : Nat) (s : State) : Outcome :=
  .next (match (s.ctx ctx).ckpt.run with
    | some k => if k.taken.isSome ∧ k.tFrame + s.pol 0x84 ≤ s.frame + 1 then s.abandonCkpt ctx 4 else s
    | none => s)

/-- PROBE (R459): L_P of the last samples of s_c, as the engines formed it. -/
def execProbe (ctx : Nat) (loss : Word) (s : State) : Outcome :=
  .next (s.updCkpt ctx (fun y => match y.run with
    | some k => { y with run := some { k with snap := k.snap.map (fun g => if g.samples = [] then g else { g with probe := some loss }) } }
    | none => y))

/-- EXPORT_SCHEDULED (R453, R455): `size` is the bytes of the export stream. -/
def execExportScheduled (ctx size : Nat) (s : State) : Outcome :=
  .next (match s.template ctx with
    | none => s
    | some t =>
      let st := s.ctxState ctx
      let from_ := max (s.ctx ctx).exportDue ((s.ctx ctx).ckpt.sinceReady.getD 0)
      if ((2 ≤ st ∧ st ≤ 4) ∨ st = 6) ∧ s.phase = 1 ∧ from_ + t.exportPeriod * State.second ≤ s.now then
        let s := s.updCtx ctx (fun x => { x with exportDue := s.now })
        if s.exportUsed + size ≤ s.exportArea then s.startExport ctx size t.exportSession (s.hostPort t.exportSession) 0
        else ((s.bump F.CKPT_STATS_EXPORTS_SKIPPED ctx 1).raise F.CKPT_EVT_FAILED ctx).eventD0 0x050A 6 ctx 5
      else s)

/-- EXPORT_HOLD_EXPIRY (R455). -/
def execExportHoldExpiry (ctx id : Nat) (s : State) : Outcome :=
  .next (s.setExports ctx ((s.exports ctx).map (fun x =>
    if x.id = id ∧ x.busy = false ∧ x.lastSent + s.pol 0x8C * State.second ≤ s.now then { x with displaceable := true } else x)))

/-- RESTORE (R457): stages 1 to 5; the content of a MODEL package goes to its place and waits for the blocking of its batts. -/
def execRestore (o : RestoreOp) (s : State) : Outcome :=
  .next (match s.template o.ctx, (s.ctx o.ctx).loading with
    | some t, some l =>
      if s.ctxLive o.ctx ≠ 1 ∨ (s.ctx o.ctx).zeroing = true then s
      else if l.stage = 4 then s.gatherRestored t o
      else if 1 < l.stage then s
      else if o.model then
        if s.bindingBad o.ctx then s.failLoad o.ctx rejBinding 0 else
        match l.restore, o.given with
        | false, some g =>
          let s := (s.applyRecord o.ctx g).updCtx o.ctx (fun x => { x with layers := g.layers })
          ((s.settleStatic o.ctx).writeTensors o.ctx t (g.data.filter (fun d => decide (d.2.1 ≤ 2)))).updLoad o.ctx (fun l => { l with stage := 5, set_ := some g })
        | _, _ => s
      else match (match o.given with | some g => some g | none => if l.restore then s.sourceGen o.ctx l else none) with
        | none => if l.restore then s.refuseRestore o.ctx l 2 else s
        | some g =>
          if o.found = false then s.refuseRestore o.ctx l 2
          else if o.digests = false ∨ g.intact = false then s.refuseRestore o.ctx l 1
          else s.takeSections o.ctx t l g
    | _, _ => s)

/-- RESTORED (R457). -/
def execRestored (o : StepRec) (s : State) : Outcome := .next (s.heard o.head (s.takeRestored o))

/-- ACCEPTANCE_REPLAY (R459): the loss L_R of the probe's samples with the restored state. -/
def execAcceptanceReplay (ctx : Nat) (loss : Word) (s : State) : Outcome :=
  .next (match s.template ctx, (s.ctx ctx).loading with
    | some t, some l => match l.set_ with
      | none => s
      | some g =>
        let me := s.takerIdx t
        if l.stage ≠ 6 ∨ s.unblocked ctx ≠ [] ∨ l.votes.any (fun v => decide (v.1 = me)) = true then s
        else
          let ok := match g.probe with | none => true | some p => s.lossNear t p loss
          let s := if g.probe.isNone then s.bump F.CKPT_REPLAY_PROBE_EMPTY ctx 1 else s
          let s := s.updLoad ctx (fun l => { l with votes := l.votes ++ [(me, ok)] })
          (if t.multi then s.toMembers ctx 1 (State.recBytes g.step 0 3 (s.ownCtxIdx t) (if ok then 0 else 1) 0 0) else s).decideRestore ctx
    | _, _ => s)

/-- VOTE (R289, R459). -/
def execVote (o : StepRec) (s : State) : Outcome := .next (s.heard o.head ((s.takeVote o).decideRestore o.head.ctx))

/-- LOG_RECOMPUTE (R457, R460): stages 7 and 8 of an accepted restore, then the beginning of each step that the log gives; `common` is the
last step whose closed entry every other member's log holds. -/
def execLogRecompute (ctx common : Nat) (s : State) : Outcome :=
  .next (match s.template ctx with
    | none => s
    | some t => match (s.ctx ctx).loading with
      | some l => match l.set_ with
        | some g => if l.stage = 7 then s.finishRestore ctx t l g common else s
        | none => s
      | none => s.replayNext ctx t)

/-- MOMENT_FETCH (R461): moment rows of a lost module land here, from T(E) on. -/
def execMomentFetch (ctx module : Nat) (data : List (Nat × Nat × Nat × List Byte)) (last : Bool) (s : State) : Outcome :=
  .next (match s.template ctx with
    | none => s
    | some t =>
      if (s.ctx ctx).exch.adopting.any (fun a => decide (a.1 = module ∧ a.2.1 ≤ s.frame + 1) && !a.2.2) then
        let s := s.writeTensors ctx t (data.filter (fun d => decide (d.2.1 = 1 ∨ d.2.1 = 2)))
        if last then s.updExch ctx (fun e => { e with adopting := e.adopting.map (fun a => if a.1 = module then (a.1, a.2.1, true) else a) })
        else s
      else s)

/-- ADOPT_ZERO (R461): no holder delivered within EXCH_WAIT frames of T(E). -/
def execAdoptZero (ctx module : Nat) (s : State) : Outcome :=
  .next (match s.template ctx with
    | none => s
    | some t =>
      if (s.ctx ctx).exch.adopting.any (fun a => decide (a.1 = module ∧ a.2.1 + s.seen F.EXCH_CFG_EXCH_WAIT 0 ≤ s.frame + 1) && !a.2.2) then
        let w := if t.bf16Moments then 2 else 4
        let s := t.tensors.foldl (fun s y => (s.adoptedRows ctx t y module).foldl (fun s r =>
          (s.zeroBytes ((s.ctx ctx).slot y.m false + w * (r * y.cols)) (w * y.cols)).zeroBytes
            ((s.ctx ctx).slot y.v false + w * (r * y.cols)) (w * y.cols)) s) s
        let s := s.updExch ctx (fun e => { e with adopting := e.adopting.map (fun a => if a.1 = module then (a.1, a.2.1, true) else a) })
        (s.raise F.CKPT_EVT_ADOPT_ZERO ctx).eventAtD0 0x050A 6 ctx 6
      else s)

/-- INIT_RESTORE_TIMEOUT (R535): no holder delivered within 1 s; the context loads from the template's package. -/
def execInitRestoreTimeout (ctx : Nat) (s : State) : Outcome :=
  .next (match (s.ctx ctx).loading with
    | some l =>
      if s.ctxLive ctx = 1 ∧ l.init2 = true ∧ l.stage = 1 ∧ State.second ≤ (s.frame - l.begun) * s.periodNs then
        (s.updCtx ctx (fun x => { x with unsound := State.allRows (s.placement ctx) })).updLoad ctx
          (fun l => { l with restore := false, stage := 0, init2 := false })
      else s
    | none => s)

/-- STEP_RECORD (R280, R281): by TYPE; a record of a reserved type is discarded and counted. -/
def execStepRecord (o : StepRec) (copies : List Xfer) (s : State) : Outcome :=
  .next (s.heard o.head (match o.type with
    | 1 => s.takeReady o
    | 2 => s.takeScalar o
    | 3 => (s.takeVote o).decideRestore o.head.ctx
    | 4 => s.takeAbandon o
    | 5 => s.takeState o
    | 6 => s.takeResume o
    | 7 => s.takeRereduce o copies
    | 8 => s.takeCkptRec o
    | 9 => s.takeDone o
    | 10 => s.takeRestored o
    | _ => s.staleRec o.head.ctx))

end Sys2Proof.Machine
end

