-- ==== Sys2Proof/Machine/ImageFlash.lean ====
section
/-!
DEFINITION. Machine/ImageFlash.lean: writing image slots (spec/18_image_and_boot.md R526 to R530, R542, R545).
-/
namespace Sys2Proof.Machine

/-- Bytes of an image slot (R526). -/
def slotBytes : Nat := 768 * 2 ^ 20

/-- A word of a slot; flash that nothing has programmed reads all ones (log entry 18). -/
def SlotSt.word (x : SlotSt) (o : Nat) : Nat :=
  match x.words.find? (fun e => decide (e.1 = o)) with
  | some e => e.2.toNat
  | none => 2 ^ 32 - 1

/-- An 8-byte field of a slot. -/
def SlotSt.quad (x : SlotSt) (o : Nat) : Nat := x.word o + 2 ^ 32 * x.word (o + 4)

/-- n bytes of a slot from offset o. -/
def SlotSt.bytes (x : SlotSt) (o n : Nat) : List Nat := (List.range n).map (fun i => byteOf (x.word ((o + i) / 4 * 4)) ((o + i) % 4))

/-- Entries of the directory (R528). -/
def SlotSt.entries (x : SlotSt) : Nat := x.word 8 / 2 ^ 16

/-- IMAGE_LEN (R528). -/
def SlotSt.imageLen (x : SlotSt) : Nat := x.quad 0x10

/-- Bytes 0 to 31 of SHAKE256 of a slot's header and directory (R528). -/
def SlotSt.headHash (x : SlotSt) : Nat := leNum (shake256 (x.bytes 0 (0x40 + 32 * x.entries)) 32)

/-- The seal that belongs to a slot's header and directory, its 64 bytes as one little-endian number (R528). -/
def SlotSt.sealNum (x : SlotSt) : Nat := 0x444E45524F4C4157 + 2 ^ 64 * x.imageLen + 2 ^ 128 * x.headHash

/-- A slot's words without its seal (R542). -/
def SlotSt.unsealed (x : SlotSt) : List (Nat × Word) :=
  x.words.filter (fun e => decide (e.1 < x.imageLen) || decide (x.imageLen + 64 ≤ e.1))

/-- A slot's words with its seal at IMAGE_LEN (R528, R542). -/
def SlotSt.withSeal (x : SlotSt) : List (Nat × Word) :=
  x.unsealed ++ (List.range 16).map (fun k => (x.imageLen + 4 * k, BitVec.ofNat 32 (x.sealNum / 2 ^ (32 * k))))

/-- Directory entries from index i on lie in ascending offset, 64-byte aligned, without overlap, from `low` on and inside the image
(R528). The fuel is the number left. -/
def SlotSt.sections (x : SlotSt) (len : Nat) : Nat → Nat → Nat → Bool
  | 0, _, _ => true
  | n + 1, i, low =>
    let o := x.quad (0x40 + 32 * i + 4)
    let l := x.quad (0x40 + 32 * i + 12)
    decide (low ≤ o) && decide (o % 64 = 0) && decide (o + l ≤ len) && x.sections len n (i + 1) (o + l)

/-- The checks of CMD SEAL: MAGIC, FORMAT, NSECT and the section bounds (R528, R542). -/
def SlotSt.sealable (x : SlotSt) : Bool :=
  let nsect := x.entries
  let len := x.imageLen
  decide (x.word 0 = 0x4F4C4157 ∧ x.word 4 = 0x474D4952) && decide (x.word 8 % 2 ^ 16 = 1) && decide (8 ≤ nsect ∧ nsect ≤ 10) &&
    decide (len % 64 = 0 ∧ len ≤ slotBytes - 64) && x.sections len nsect 0 (0x40 + 32 * nsect)

/-- The slot holds a seal that matches its header and directory (R530). -/
def SlotSt.isSealed (x : SlotSt) : Bool := x.sealable && decide (leNum (x.bytes x.imageLen 64) = x.sealNum)

namespace State

/-- An image slot: 0 A, 1 B. -/
def slot (s : State) (k : Nat) : SlotSt := if k = 0 then s.img.slotA else s.img.slotB

/-- Change a slot. -/
def updSlot (s : State) (k : Nat) (f : SlotSt → SlotSt) : State :=
  if k = 0 then { s with img := { s.img with slotA := f s.img.slotA } } else { s with img := { s.img with slotB := f s.img.slotB } }

/-- Show whether a slot holds a seal (R545). -/
def putSealed (s : State) (k v : Nat) : State := if k = 0 then s.put F.IMG_STAT_SEALED_A 0 v else s.put F.IMG_STAT_SEALED_B 0 v

/-- ERASE or SEAL is in progress. -/
def imgBusy (s : State) : Bool := decide (s.get F.IMG_STAT_BUSY 0 = 1)

/-- An IMG_CTRL command: refused while BUSY (R542); without the key 0xA5 it does nothing (R554). -/
def imgWrite (s : State) (r : Req) (confirm slot : Nat) (effect : State → State) : State :=
  s.commandWriteIf r true [(!s.imgBusy, budget 7)] (fun s =>
    let s := s.put F.IMG_CTRL_SLOT 0 slot
    if confirm = 0xA5 then effect s else s)

/-- 4 KiB units of a slot programmed since its erase (R545). -/
def unitsProgrammed (x : SlotSt) : Nat :=
  ((x.words.map (fun e => e.1 / 4096)).foldl (fun (l : List Nat) u => if l.contains u then l else u :: l) []).length

/-- Slot offset that an IMG_WIN address stands for (R542). -/
def winOffset (s : State) (a : Nat) : Nat := s.get F.IMG_OFS_OFFSET 0 + (a - 0xB000)

/-- What is wrong with an IMG_WIN entry: BUSY, a word already programmed or a place past the slot (R542). -/
def winFault (s : State) (e : WriteEntry) : Option (Nat × Nat) :=
  if e.mask % 2 ^ 32 = 0 then none
  else if s.imgBusy then some (rejBudget, 7)
  else
    let o := s.winOffset e.addr
    if slotBytes ≤ o ∨ (s.slot (s.get F.IMG_CTRL_SLOT 0)).words.any (fun w => decide (w.1 = o)) then some (rejAddr, 0) else none

/-- Program one word; bits that MASK leaves out take what the flash holds there, a free value (log entry 18). -/
def program (e : WriteEntry) (s : State) : State :=
  if e.mask % 2 ^ 32 = 0 then s
  else
    let o := s.winOffset e.addr
    let w := maskedIn (BitVec.ofNat 32 s.draw) e.value e.mask
    let k := s.get F.IMG_CTRL_SLOT 0
    let s := s.drawn.updSlot k (fun x => { x with words := x.words ++ [(o, w)] })
    s.put F.IMG_STAT_PROGRAMMED 0 (unitsProgrammed (s.slot k))

end State

/-- Begin to erase a slot: the seal goes first (R542). -/
def State.eraseSlot (s : State) (slot : Nat) : State :=
  (((s.updSlot slot (fun x => { x with words := x.unsealed, erasing := true })).putSealed slot 0).put F.IMG_STAT_BUSY 0 1).put
    F.IMG_STAT_PROGRAMMED 0 0

/-- Begin to seal a slot: no seal and SEAL_FAIL when a check fails (R542). -/
def State.sealSlot (s : State) (slot : Nat) : State :=
  if (s.slot slot).sealable then (s.updSlot slot (fun x => { x with sealing := true })).put F.IMG_STAT_BUSY 0 1
  else s.raise F.IMG_STAT_SEAL_FAIL 0

/-- IMG_ERASE (R542). -/
def execImgErase (r : Req) (confirm slot : Nat) (s : State) : Outcome := .next (s.imgWrite r confirm slot (fun s => s.eraseSlot slot))

/-- IMG_ERASE_COMPLETE (R542). -/
def execImgEraseComplete (slot : Nat) (s : State) : Outcome :=
  .next (if (s.slot slot).erasing then (s.updSlot slot (fun _ => SlotSt.empty)).put F.IMG_STAT_BUSY 0 0 else s)

/-- IMG_SEAL (R542). -/
def execImgSeal (r : Req) (confirm slot : Nat) (s : State) : Outcome := .next (s.imgWrite r confirm slot (fun s => s.sealSlot slot))

/-- IMG_SEAL_COMPLETE (R542, R545). -/
def execImgSealComplete (slot : Nat) (s : State) : Outcome :=
  .next (if (s.slot slot).sealing then
      ((s.updSlot slot (fun x => { x with sealing := false, words := x.withSeal })).putSealed slot 1).put F.IMG_STAT_BUSY 0 0
    else s)

/-- IMG_RESTART (R542): a management reset at the next tick. -/
def execImgRestart (r : Req) (confirm : Nat) (s : State) : Outcome :=
  .next (s.imgWrite r confirm (s.get F.IMG_CTRL_SLOT 0) (fun s => { s with img := { s.img with restart := true } }))

/-- IMG_WIN_WRITE (R542). -/
def execImgWinWrite (r : Req) (entries : List WriteEntry) (s : State) : Outcome :=
  .next (if entries.all (fun e => decide (0xB000 ≤ e.addr) && decide (e.addr < 0xC000)) then
      s.writeRequest r entries State.winFault State.program
    else s)

end Sys2Proof.Machine
end

