-- ==== Sys2Proof/Machine/Resets.lean ====
section
/-!
DEFINITION. Machine/Resets.lean: frame kills, watchdogs, resets, OUT_OF_SERVICE, fencing and the event log
(spec/12_faults_and_resets.md). Engine codes are those of R400: 0 matrix, 1 vector, 2 band, 3 DMA, 8 + b for batt b.
-/
namespace Sys2Proof.Machine

namespace State

/-- Kills of the last second and device resets of the last 10 min, as FLT_RATES shows them at time t (R404). -/
def rates (s : State) (t : Nat) : State :=
  let k := s.flt.kills.filter (fun x => decide (t < x + 10 ^ 9))
  let d := s.flt.devResets.filter (fun x => decide (t < x + 600 * 10 ^ 9))
  let s : State := { s with flt := { s.flt with kills := k, devResets := d } }
  (s.put F.FLT_RATES_KILLS_1S 0 k.length).put F.FLT_RATES_DEV_10MIN 0 d.length

/-- A cause that takes the module OUT_OF_SERVICE at the next tick; the first one stands (R405). -/
def oosNext (s : State) (cause : Nat) : State :=
  { s with flt := { s.flt with oosDue := match s.flt.oosDue with | some k => some k | none => some cause } }

/-- Contexts whose work stands in the plan of the frame (R396). -/
def affected (s : State) : List Nat :=
  match s.fr.plans with
  | [] => []
  | p :: _ => p.contexts ++ p.queries.map (fun q => q.ctx)

/-- Count one kill and report it (R400, R404): a 17th kill within 1 s has cause 1 of R405. -/
def countKill (s : State) (cause core engine t : Nat) : State :=
  let named := decide (cause = 2 ∨ cause = 3 ∨ cause = 5)
  let s := s.bump F.FLT_COUNTS_KILLS 0 1
  let s := if named then s.event 0x0501 0 0 cause (core * 2 ^ 8 + engine) else s.eventD0 0x0501 0 0 cause
  let s : State := { s with flt := { s.flt with kills := s.flt.kills ++ [s.now + t] } }
  let s := s.rates (s.now + t)
  if 17 ≤ s.flt.kills.length then s.oosNext 1 else s

/-- Kill the frame (R396 to R398): once per frame, in service. Sync counters of the affected contexts return to the opening tick plus
the arrivals since; held signals are dropped; what the plan produced is discarded at the tick. -/
def kill (s : State) (cause core engine t : Nat) : State :=
  if s.fr.killed.isSome ∨ s.phase ≠ 1 then s
  else
    let cs := s.affected
    let s := (s.cores.map (fun e => e.1)).foldl (fun s p => s.restoreCore cs p) s
    let s : State := { s with fr := { s.fr with killed := some cause, signals := [] } }
    (s.schedTrace 6).countKill cause core engine t

/-- Context registers that the plan of a frame writes: STEP, LOSS and the counters, events and statistics of training (R43, R397). -/
def planWord (a : Nat) : Bool :=
  decide (0x300000 ≤ a) && decide (a < 0x340000) &&
    [0x14, 0x18, 0x24, 0x28, 0x2C, 0x34, 0x38, 0x3C, 0x40, 0x44, 0x48, 0x4C, 0x50, 0x54].contains (a % 0x100)

/-- A batt without the results of a killed frame's row operations: rows, spare fills and fulling reads stand as at the opening tick (R137). -/
def openBatt (b : Batt) : Batt := { b with staged := [], filling := b.openFill, fulRows := b.openRows, fulMarked := b.openMarks }

/-- A context without the work of a killed frame (R50, R397): layers, the step in progress and its part of the exchange stand as at the opening
tick. What other modules have sent stays. -/
def openWork (x : Ctx) : Ctx :=
  let e := x.openExch
  { x with
    layers := x.opening,
    step := match x.step, x.openStep with | some _, some r => some r | r, _ => r,
    exch := if x.exch.attempt = e.attempt then
        { x.exch with summed := e.summed, applied := e.applied, compared := e.compared, adNew := e.adNew, ownRd := e.ownRd }
      else x.exch }

/-- Discard what the frame's plan produced (R137, R184, R397): its registers show the opening tick again; blockings' results, the work of
steps and the clamp marks of the plan's queries go. -/
def dropFrame (s : State) : State :=
  let regs := (s.vis.filter (fun e => planWord e.1)).foldl (fun t e => tput t e.1 e.2) (s.regs.filter (fun e => !planWord e.1))
  { s with regs := regs, raised := s.raised.filter (fun e => !planWord e.1),
           batts := tmap Batt.empty (fun _ b => openBatt b) s.batts,
           ctxs := tmap Ctx.empty (fun _ x => openWork x) s.ctxs,
           cores := tmap Core.empty (fun _ x => { x with guards := x.openGuards }) s.cores,
           fr := { s.fr with plans := match s.fr.plans with
             | p :: r => { p with queries := p.queries.map (fun q => { q with clamped := false }) } :: r
             | [] => [] } }

/-! Resets (R391 to R393). -/

end State

/-- Scope (level, unit, engine) holds the other scope. -/
def resetCovers (a b : Nat × Nat × Nat) : Bool :=
  match a.1 with
  | 4 => true
  | 3 => decide (b.1 ≤ 3) && decide ((if b.1 = 3 then b.2.1 else b.2.1 / 48) = a.2.1)
  | 2 => decide (b.1 ≤ 2) && decide (b.2.1 = a.2.1)
  | _ => decide (a = b)

/-- The scope of a reset in progress. -/
def ResetRun.scope (r : ResetRun) : Nat × Nat × Nat := (r.level, r.unit, r.engine)

/-- Time allowed to a level in ns (R391). -/
def resetTime (level : Nat) : Nat :=
  match level with
  | 1 => 50000
  | 2 => 200000
  | 3 => 5 * 10 ^ 6
  | _ => 50 * 10 ^ 6

namespace State

/-- FLT_STATE.RESETTING (R414). -/
def showResets (s : State) : State :=
  s.put F.FLT_STATE_RESETTING 0
    (((List.range 4).map (fun k => if s.flt.resets.any (fun r => decide (r.level = k + 1)) then 2 ^ k else 0)).foldl (· + ·) 0)

/-- Clear an engine: its wait goes (R391). -/
def clearEngine (s : State) (p e : Nat) : State :=
  (s.updCore p (fun x => { x with waits := x.waits.filter (fun w => decide (w.1 ≠ waiterOf e)),
                                  engines := x.engines ++ [e] })).showWaits p

/-- Clear a core: engines, sync unit and context-state cache; scratchpad and accumulator file are written to zero; save areas stay
(R378, R391). -/
def clearCore (level : Nat) (s : State) (p : Nat) : State :=
  let x := s.core p
  let lost := s.active p :: x.cached
  let sets := lost.foldl (fun t c => tset SaveArea.empty t c (tget SaveArea.empty x.saved c)) x.sets
  let s := (s.setCore p { x with sets := sets, opening := sets, arrived := [], cached := [], saved := [], waits := [], masks := [],
                                 engines := [], resetting := some level, guards := [], openGuards := [] }).showWaits p
  (s.zeroBytes (spAddr p 0) (2 ^ 22)).zeroBytes (accAddr p 0) (2 ^ 18)

/-- Return the R115 registers of a die's batts to their Reset values (R391, R556). -/
def clearBattRegs (s : State) (d : Nat) : State :=
  let a := F.BATT_GAIN_KAPPA.addr (384 * d)
  let z := F.BATT_GAIN_KAPPA.addr (384 * d + 384)
  let s : State := { s with regs := s.regs.filter (fun e => !(decide (d < 4) && decide (a ≤ e.1) && decide (e.1 < z) && decide (e.1 % 0x40 ≤ 0x10))) }
  (List.range 384).foldl (fun s k => if s.batts.any (fun e => decide (e.1 = 384 * d + k)) then
    s.updBatt (384 * d + k) (fun b => { b with refSum := [], refRun := [], refWin := [] }) else s) s

/-- Clear a die: every core, and its batts' registers. -/
def clearDie (level : Nat) (s : State) (d : Nat) : State :=
  (((List.range 48).map (fun i => 48 * d + i)).foldl (clearCore level) s).clearBattRegs d

/-- Every plan is lost, and with it the queries of its frames (R402). -/
def losePlans (s : State) : State :=
  let s := s.dropFrame
  { s with fr := { s.fr with killed := none, plans := [], flying := [], xfer := [], q1 := 0, signals := [], wrote := [], waiting := [], cuts := [] } }

/-- Clear what a device reset clears: every die and the control cores' state. -/
def clearDevice (s : State) : State :=
  let s := ((List.range 4).foldl (clearDie 4) s).losePlans
  ({ s with pwr := { s.pwr with cycleDone := false } } : State).put F.DEV_STATE_PHASE 0 3

/-- A calibration run on a unit of die d (R494). -/
def calOnDie (d scope unit : Nat) : Bool := (decide (scope = 0) && decide (unit / 384 = d)) || (decide (scope = 4) && decide (unit / 48 = d))

/-- What a device reset clears, and its count against the limit of four in 10 minutes; an owner's reset does not count (R391, R405). -/
def beginDevice (s : State) (t : Nat) (owner : Bool) : State :=
  let s := (s.clearDevice.bump F.FLT_COUNTS_DEVICE 0 1).calAbort (fun scope _ => decide (scope = 0 ∨ scope = 4))
  if owner then s
  else
    let s : State := { s with flt := { s.flt with devResets := s.flt.devResets ++ [s.now + t] } }
    let s := s.rates (s.now + t)
    if 4 ≤ s.flt.devResets.length then s.oosNext 2 else s

/-- Begin a reset (R391, R392): ignored inside a reset in progress; resets inside it are absorbed, and a core reset absorbed by a die
reset counts as that core's failed test (R409). `owner` says that the owner asked for it (R404). -/
def beginReset (s : State) (level unit engine t : Nat) (owner : Bool) : State :=
  let me := (level, unit, engine)
  if s.flt.resets.any (fun r => resetCovers r.scope me) then s
  else
    let gone := s.flt.resets.filter (fun r => resetCovers me r.scope)
    let s : State := { s with flt := { s.flt with
      resets := s.flt.resets.filter (fun r => !resetCovers me r.scope) ++ [⟨level, unit, engine, s.now + t, 0⟩] } }
    let s := if level = 3 then (gone.filter (fun r => decide (r.level = 2))).foldl (fun s r => s.failTest r.unit) s else s
    let s := match level with
      | 1 => s.clearEngine unit engine
      | 2 => (s.clearCore 2 unit).bump F.FLT_COUNTS_CORE 0 1
      | 3 => ((s.clearDie 3 unit).bump F.FLT_COUNTS_DIE 0 1).calAbort (calOnDie unit)
      | _ => s.beginDevice t owner
    s.showResets

/-- Take a reset out of the resets in progress. -/
def dropReset (s : State) (me : Nat × Nat × Nat) : State :=
  ({ s with flt := { s.flt with resets := s.flt.resets.filter (fun r => decide (r.scope ≠ me)) } } : State).showResets

/-- The owner's device reset begins at the tick of the write (R406). -/
def ownerResetTick (s : State) : State :=
  if s.flt.ownerReset then s.beginReset 4 0 0 0 true else s

/-- Kill the frame for an engine and reset that engine (R395). -/
def engineFault (s : State) (cause core engine t : Nat) : State := (s.kill cause core engine t).beginReset 1 core engine t false

/-- Every die, hub and stack sensor reads below a temperature in 1/16 K (R475). -/
def sensorsBelow (s : State) (limit : Nat) : Bool :=
  (List.range 76).all (fun i => let v := s.get F.MON_RESULT_VALUE (10 + i); decide (v < limit ∨ 2 ^ 23 ≤ v))

/-- Enter OUT_OF_SERVICE (R405): all work stops, plans and their queries are lost (R74), and the state stays. -/
def enterOos (s : State) (cause : Nat) : State :=
  let s : State := { s.losePlans with flt := { s.losePlans.flt with oosDue := none } }
  (((s.put F.DEV_STATE_PHASE 0 2).put F.FLT_STATE_OOS 0 1).put F.FLT_STATE_CAUSE 0 cause).eventAtD0 0x0502 0 0 cause

/-! Fencing (R409 to R413). -/

/-- Give a physical core a role and logical core, in its registers and in the fault record of the flash. -/
def setRole (s : State) (p role logical : Nat) : State :=
  let s : State := { s with flt := { s.flt with roles := tput s.flt.roles p (role * 256 + logical) } }
  (s.put F.FLT_CORE_ROLE p role).put F.FLT_CORE_LOGICAL p logical

/-- Healthy spares of a die, lowest first. -/
def spares (s : State) (d : Nat) : List Nat :=
  ((List.range 48).map (fun i => 48 * d + i)).filter (fun p => decide (s.get F.FLT_CORE_ROLE p = 1) && (s.core p).resetting.isNone)

/-- The spare that takes a core's place (R411): on its own die, otherwise on the die with the most, the lowest die first. -/
def chooseSpare (s : State) (p : Nat) : Option Nat :=
  match s.spares (p / 48) with
  | q :: _ => some q
  | [] =>
    let best := (List.range 4).foldl (fun b d => if (s.spares b).length < (s.spares d).length then d else b) 0
    (s.spares best).head?

/-- Contexts that hold a batt on the core, and digital-only contexts placed on its logical core (log entry 20). -/
def contextsOn (s : State) (p : Nat) : List Nat :=
  s.liveContexts.filter (fun c => s.onCore c p ||
    (decide (s.get F.CTX_STATE_DIGITAL_ONLY c = 1) && (match s.logicalOf p with | some l => (s.ctx c).cores.contains l | none => false)))

/-- Move the logical core of p to a spare, or lose it (R411 to R413). -/
def migrate (s : State) (p role : Nat) : State :=
  match s.logicalOf p with
  | none => s.setRole p role 0xFF
  | some l =>
    let held := s.contextsOn p
    let onCore := s.liveContexts.filter (fun c => s.onCore c p || (s.ctx c).cores.contains l)
    let areas := (s.clearCore 2 p).core p
    let s := (List.range 8).foldl (fun s b => s.updBatt (8 * p + b) (fun x => { x with owner := none })) s
    let next := s.chooseSpare p
    let s := s.setRole p role 0xFF
    match next with
    | none =>
      let s := onCore.foldl (fun s c => s.faultCtx c 4) s
      let n := s.get F.FLT_STATE_IN_SERVICE 0 - 1
      let s := (s.put F.FLT_STATE_IN_SERVICE 0 n).eventAtD0 0x0504 2 p 6
      if n < s.get F.FLT_STATE_MIN_CORES 0 then s.oosNext 3 else s
    | some q =>
      let s := held.foldl (fun s c => s.moduleHold c) (s.setRole q 0 l)
      let s := s.updCore q (fun x => { x with sets := areas.sets, opening := areas.sets, rebuilding := true, testing := true })
      let s := s.liveContexts.foldl (fun s c => ((s.ctx c).batts.filter (fun b => decide (homeLogical (b / 8) = l))).foldl
        (fun s b => s.updBatt (8 * q + b % 8) (fun x => { x with owner := some c, recordDue := true })) s) s
      let s := s.liveContexts.foldl (fun s c =>
        let moved := if s.ctxLive c = 4 ∧ (s.ctx c).held then (s.placement c).filter (fun b => decide (b / 8 = q)) else []
        s.updCtx c (fun x => { x with unsound := x.unsound.filter (fun u => decide (u.1 / 8 ≠ p)) ++ State.allRows moved })) s
      s.eventAt 0x0504 2 p 5 q

/-- A core is to be fenced at the next tick (R410). -/
def fenceDue (s : State) (p : Nat) : Bool :=
  let n := (s.core p).failed.length
  decide (s.get F.FLT_CORE_ROLE p = 0) &&
    ((decide (0 < s.get F.FLT_STATE_FENCE_FAILS 0) && decide (s.get F.FLT_STATE_FENCE_FAILS 0 ≤ n)) ||
      (decide (s.get F.FLT_CORE_OBSERVED p = 1) && decide (2 ≤ n)))

end State

/-- ENGINE_WATCHDOG (R395): matrix, vector or band engine. -/
def execEngineWatchdog (core engine t : Nat) (s : State) : Outcome := .next (s.engineFault 2 core engine t)

/-- DMA_WATCHDOG (R395). -/
def execDmaWatchdog (core t : Nat) (s : State) : Outcome := .next (s.engineFault 2 core 3 t)

/-- BATT_WATCHDOG (R395): the batt's issue queue and output stage are reset. -/
def execBattWatchdog (core batt t : Nat) (s : State) : Outcome := .next (s.engineFault 2 core (8 + batt) t)

/-- PLAN_WATCHDOG (R395): both frames are killed. -/
def execPlanWatchdog (t : Nat) (s : State) : Outcome :=
  .next (if s.phase = 1 then (((s.countKill 4 0 0 t).kill 4 0 0 t)).beginReset 4 0 0 t false else s)

/-- CONTROL_CORE_WATCHDOG (R395). -/
def execControlCoreWatchdog (cp t : Nat) (s : State) : Outcome := .next (if cp < 4 then s.beginReset 4 0 0 t false else s)

/-- MGMT_WATCHDOG (R395): a management reset follows. -/
def execMgmtWatchdog (s : State) : Outcome := .next { s with flt := { s.flt with mgmtDue := true } }

/-- UNCORRECTABLE_ECC (R216, R395, R409): `again` says that the word had been rewritten or restored and failed again. -/
def execUncorrectableEcc (core engine : Nat) (again : Bool) (t : Nat) (s : State) : Outcome :=
  .next (let s := s.engineFault 3 core engine t; if again then s.failTest core else s)

/-- ENGINE_RESET (R391). -/
def execEngineReset (core engine t : Nat) (s : State) : Outcome := .next (s.beginReset 1 core engine t false)

/-- CORE_RESET (R391). -/
def execCoreReset (core t : Nat) (s : State) : Outcome := .next (s.beginReset 2 core 0 t false)

/-- DIE_RESET (R391). -/
def execDieReset (die t : Nat) (s : State) : Outcome := .next (s.beginReset 3 die 0 t false)

/-- DEVICE_RESET (R402). -/
def execDeviceReset (t : Nat) (s : State) : Outcome := .next (s.beginReset 4 0 0 t false)

/-- RESET_TIMEOUT (R391, R392): the next level begins at once; a device reset that is late has cause 4. -/
def execResetTimeout (level unit engine t : Nat) (s : State) : Outcome :=
  .next (match s.flt.resets.find? (fun r => decide (r.scope = (level, unit, engine))) with
    | none => s
    | some r =>
      if s.now + t < r.start + resetTime level then s
      else match level with
        | 1 => s.beginReset 2 unit 0 t false
        | 2 => s.beginReset 3 (unit / 48) 0 t false
        | 3 => s.beginReset 4 0 0 t false
        | _ => (s.dropReset (level, unit, engine)).oosNext 4)

/-- RESET_COMPLETE (R393, R403, R409): ERR_RESET with the frames deferred; the cores of a core or die reset are rebuilt next. -/
def execResetComplete (level unit engine : Nat) (s : State) : Outcome :=
  .next (match s.flt.resets.find? (fun r => decide (r.scope = (level, unit, engine))) with
    | none => s
    | some r =>
      let s := s.dropReset (level, unit, engine)
      let up : Core → Core := fun x => { x with resetting := none, rebuilding := true }
      match level with
      | 1 => (s.updCore unit (fun x => { x with engines := x.engines.filter (fun e => decide (e ≠ engine)) })).eventAt 0x0504 2 unit 1 r.frames
      | 2 => ((s.updCore unit up).failTest unit).eventAt 0x0504 2 unit 2 r.frames
      | 3 => (((List.range 48).map (fun i => 48 * unit + i)).foldl (fun s p => s.updCore p up) s).eventAt 0x0504 1 unit 3 r.frames
      | _ => s)

/-- OOS_ENTRY (R405): at the first tick after a cause. -/
def execOosEntry (s : State) : Outcome :=
  .next (match s.flt.oosDue with
    | none => s
    | some k => if s.phase = 2 then { s with flt := { s.flt with oosDue := none } } else s.enterOos k)

/-- FLT_OOS (R405): OUT_OF_SERVICE with cause 5 at the tick of the write. -/
def execFltOos (r : Req) (s : State) : Outcome := .next (s.commandWrite r true (fun s => s.oosNext 5))

/-- The owner may command a device reset: no cause stands that it cannot clear (R406, R475). -/
def State.resetAllowed (s : State) : Bool :=
  let k := s.get F.FLT_STATE_CAUSE 0
  decide (s.get F.FLT_STATE_OOS 0 = 0) || decide (k < 6) || (decide (k = 6) && s.sensorsBelow 1360) || (decide (k = 7) && decide (s.cal.lost = []))

/-- A device reset is to begin at the tick (R406). -/
def State.askReset (s : State) : State := { s with flt := { s.flt with ownerReset := true } }

/-- FLT_RESET (R406, R475): refused with ERR_OOS while the cause stands that the owner cannot clear. -/
def execFltReset (r : Req) (s : State) : Outcome :=
  .next (s.commandWriteIf r true [(s.resetAllowed, verdict errOos)] (fun s => s.askReset))

/-- CORE_FENCE (R410, R411, R413, R494): cores due at the tick, in ascending number. -/
def execCoreFence (s : State) : Outcome :=
  .next (((List.range 192).filter (fun p => s.fenceDue p)).foldl (fun s p =>
    (s.migrate p 2).calAbort (fun scope unit => (decide (scope = 0) && decide (unit / 8 = p)) || (decide (scope = 4) && decide (unit = p)))) s)

/-- SPARE_TEST (R412): a spare that fails its known-answer tests gives way to the next one. -/
def execSpareTest (core : Nat) (pass : Bool) (s : State) : Outcome :=
  .next (if (s.core core).testing = false then s
    else
      let s := s.updCore core (fun x => { x with testing := false })
      if pass then s else s.migrate core 3)

/-- SPARE_REBLOCK_COMPLETE (R412): a context held by the module is READY at the tick after its last row, or for a digital-only context
after its core is rebuilt. -/
def execSpareReblockComplete (ctx : Nat) (s : State) : Outcome :=
  .next (
    let cores := (s.ctx ctx).cores.filterMap (fun l => s.physOf l)
    if s.ctxLive ctx = 4 ∧ s.get F.CTX_STATE_MODULE_HELD ctx = 1 ∧ s.unblocked ctx = [] ∧ cores.all (fun p => !(s.core p).testing && !(s.core p).rebuilding) = true
    then s.enterReady ctx else s)

/-- EVENT_LOG_WRITE (R408): the oldest buffered record goes to flash. -/
def execEventLogWrite (s : State) : Outcome :=
  .next (match s.flt.logBuf with
    | [] => s
    | e :: r => { s with flt := { s.flt with logBuf := r, log := tput s.flt.log (e.seq % 4194304) e } })

/-- FAILED_TEST_EXPIRY (R409): failed tests count for 24 h. -/
def execFailedTestExpiry (t : Nat) (s : State) : Outcome :=
  .next ((s.cores.map (fun e => e.1)).foldl (fun s p =>
    let l := (s.core p).failed.filter (fun x => decide (s.now + t < x + dayNs))
    (s.updCore p (fun x => { x with failed := l })).put F.FLT_CORE_FAILS p (min 15 l.length)) s)

/-- SLIDING_WINDOW_EXPIRY (R404). -/
def execSlidingWindowExpiry (t : Nat) (s : State) : Outcome := .next (s.rates (s.now + t))

end Sys2Proof.Machine
end

