-- ==== Sys2Proof/Machine/Power.lean ====
section
/-!
DEFINITION. Machine/Power.lean: the 48 V input, the energy loop, temperatures and the monitor converter
(spec/15_power_and_monitor.md).
-/
namespace Sys2Proof.Machine

namespace State

/-! Loss of power (R464). -/

/-- Bits of a register word that the flash keeps (R490, R512, R524, R527): fault state, credential epoch, calibration figures, the open
debug session, the thermal shutdown mark. -/
def flashBits (a : Nat) : Nat :=
  if a = 0x2000 then 31 * 2 ^ 27
  else if a = 0x6014 then 2 ^ 32 - 1
  else if a = 0x3010 then 16
  else if a = 0x5008 then 2 ^ 32 - 1
  else if a = 0x6100 then 2 ^ 16 - 1
  else if a = 0x6104 then 15 * 2 ^ 27
  else if 0x5400 ≤ a ∧ a < 0x5820 then 0xFFC
  else if 0x200000 ≤ a ∧ a < 0x218000 ∧ a % 0x40 = 0x2C then 0xFFFC00
  else if 0x200000 ≤ a ∧ a < 0x218000 ∧ a % 0x40 = 0x30 then 2 ^ 32 - 1
  else 0

/-- Registers at a start: the Reset values with what the flash keeps (R556). -/
def flashRegs (s : State) : Tbl Word :=
  s.regs.foldl (fun t e =>
    let m := flashBits e.1
    if m = 0 then t else tset (resetWord e.1) t e.1 (maskedIn (resetWord e.1) e.2.toNat m)) []

/-- A batt without power: cells and the batt record as last written stay (R149, R464); each wear counter resumes from its ceiling (R142). -/
def coldBatt (b : Batt) : Batt :=
  { Batt.empty with
    owner := b.record.owner.map (fun o => o.1), cells := b.cells, scale := b.record.scale, colMap := b.record.map, retired := b.record.retired,
    dark := b.record.dark, worn := b.record.worn, wear := b.ceiling, ceiling := b.ceiling, colFaults := b.record.faults, record := b.record }

/-- An image slot without power: an erase or seal in progress leaves no seal (R542). -/
def coldSlot (x : SlotSt) : SlotSt := { x with erasing := false, sealing := false }

/-- A core without power: the end of its observation is in the fault record (R418). -/
def coldCore (c : Core) : Core := { Core.empty with obsUntil := c.obsUntil }

/-- The module with everything volatile lost (R391, R464): cells, batt records and flash stay. -/
def cold (s : State) : State :=
  let c := s.calTick
  { State.reset with
    regs := c.flashRegs, now := s.now,
    batts := tmap Batt.empty (fun _ b => coldBatt b) s.batts,
    cores := tmap Core.empty (fun _ c => coldCore c) s.cores,
    flt := { FaultSt.empty with log := s.flt.log, logSeq := s.flt.logSeq, roles := s.flt.roles },
    cal := { CalSt.empty with items := c.cal.items, lost := s.cal.lost },
    sec := { SecSt.empty with
      fuses := s.sec.fuses, idPk := s.sec.idPk, idHash := s.sec.idHash, bindSeed := s.sec.bindSeed, nextIndex := s.sec.nextIndex, limit := s.sec.limit, recordSeq := s.sec.recordSeq,
      dbgChain := s.sec.dbgChain, dbgCount := s.sec.dbgCount, dbgOpen := s.sec.dbgOpen, attest := s.sec.attest },
    img := { ImageSt.empty with slotA := coldSlot s.img.slotA, slotB := coldSlot s.img.slotB, network := s.img.network },
    sent := s.sent, freeCtr := s.freeCtr, pending := s.pending }

/-- Write every buffered record of the event log to flash (R408, R464). -/
def flushLog (s : State) : State :=
  { s with flt := { s.flt with log := s.flt.logBuf.foldl (fun t e => tput t (e.seq % 4194304) e) s.flt.log, logBuf := [] } }

/-- Switch all conversion off (R464): the PWR_INPUT record goes to the event log only, and all buffered records are flushed. -/
def powerLoss (s : State) (cause : Nat) : State :=
  if s.pwr.converting then
    let c := ((s.logEvent 0x0511 0 0 cause 0).flushLog).cold
    { c with pwr := { c.pwr with converting := false, enable := s.pwr.enable } }
  else s

/-! The monitor converter (R478 to R483). -/

/-- The entry in progress. -/
def monPos (s : State) : Nat := s.get F.MON_CFG_POSITION 0

/-- A 128-bit table entry as a number (R479). -/
def monEntry (s : State) (i : Nat) : Nat :=
  (List.range 4).foldl (fun n k => n + (s.reg (F.MON_ENTRY_WORD.addr (4 * i + k))).toNat * 2 ^ (32 * k)) 0

/-- Show a channel's result (R481). -/
def report (s : State) (ch : Nat) (v : Int) : State :=
  let s := (s.put F.MON_RESULT_VALUE ch (v % 2 ^ 24).toNat).put F.MON_RESULT_AGE ch 0
  let s : State := { s with pwr := { s.pwr with resultAt := tput s.pwr.resultAt ch s.now } }
  if ch = 0 then s.put F.PWR_IN_VIN 0 (v % 2 ^ 16).toNat else if ch = 1 then s.put F.PWR_IN_IIN 0 (v % 2 ^ 16).toNat else s

/-- Compare a converted value with its entry's limits (R481): one EVENT for each channel until its bit is cleared. -/
def checkLimit (s : State) (e : Nat) (v : Int) : State :=
  let ch := e % 2 ^ 7
  if v < signed24 (e / 2 ^ 64) ∨ signed24 (e / 2 ^ 88) < v then
    let f : Fld := ⟨F.MON_LIMIT_CROSSED.base, 4, 4, ch % 32, ch % 32⟩
    let s := s.raise f (ch / 32)
    if 1 ≤ e / 2 ^ 36 % 2 ^ 4 ∧ s.pwr.announced.contains ch = false then
      ({ s with pwr := { s.pwr with announced := ch :: s.pwr.announced } } : State).event 0x0512 0 0 ch (v % 2 ^ 64).toNat
    else s
  else s

/-- A reading of input power in mW, from the most recent voltage and current results (R481), and P_IN, the mean of the last 1 ms
(R485). -/
def readPower (s : State) (t : Nat) : State :=
  let mw := (s.monResult 0 * s.monResult 1 / 1000).toNat
  let l := (s.pwr.readings ++ [(s.now + t, mw)])
  let l := l.drop (l.length - 64)
  let recent := (l.filter (fun e => decide (s.now + t < e.1 + 10 ^ 6))).map (fun e => e.2)
  let mean := recent.foldl (· + ·) 0 / max 1 recent.length
  ({ s with pwr := { s.pwr with readings := l } } : State).put F.PWR_MEAS_P_IN 0 (min 65535 (mean * 16 / 1000))

/-! Temperatures (R473, R474): units 0 to 3 the dies, 4 the hub, 5 to 16 the stacks; in 1/16 °C. -/

/-- Sensor channels of a unit (R473, R478). -/
def unitChannels (u : Nat) : List Nat :=
  if u < 4 then (List.range 15).map (fun i => 10 + 15 * u + i) else if u = 4 then [70, 71, 72, 73] else [69 + u]

/-- Take a unit's hottest reading of a complete cycle; PWR_THERM shows it for dies and hub. -/
def unitHot (s : State) (u : Nat) : State :=
  match ((unitChannels u).filter (fun c => s.pwr.resultAt.any (fun e => decide (e.1 = c)))).map (fun c => s.monResult c) with
  | [] => s
  | v :: r =>
    let top := r.foldl max v
    let halt : Int := if u < 5 then 1680 else 1520
    let n := if halt < top then (tget ((0 : Int), 0) s.pwr.hot u).2 + 1 else 0
    let s : State := { s with pwr := { s.pwr with hot := tput s.pwr.hot u (top, n) } }
    if u < 5 then s.put F.PWR_THERM_TEMP u (top % 2 ^ 16).toNat else s

/-- A unit's level from its hottest reading and the level it has (R474). -/
def levelOf (u : Nat) (hot : Int × Nat) (old : Nat) : Nat :=
  let warn : Int := if u < 5 then 1520 else 1360
  let thr : Int := if u < 5 then 1600 else 1440
  if (2 ≤ hot.2) ∨ (old = 3 ∧ thr ≤ hot.1) then 3
  else if thr ≤ hot.1 ∨ (2 ≤ old ∧ thr - 48 ≤ hot.1) then 2
  else if warn ≤ hot.1 ∨ (1 ≤ old ∧ warn - 48 ≤ hot.1) then 1 else 0

/-- The factor of a unit at THROTTLE or HALT, in 1/160 (R474). -/
def unitFactor (u : Nat) (hot : Int) : Nat := (max 80 (min 160 (160 - (hot - if u < 5 then 1600 else 1440)))).toNat

/-- The smallest factor of the units, in 1/160. -/
def throttle (s : State) : Nat :=
  (s.pwr.level.filter (fun e => decide (2 ≤ e.2))).foldl (fun m e => min m (unitFactor e.1 (tget ((0 : Int), 0) s.pwr.hot e.1).1)) 160

/-- A die is halted by its own level or that of a stack beside it. -/
def dieHalted (s : State) (d : Nat) : Bool :=
  decide (tget 0 s.pwr.level d = 3) || (List.range 3).any (fun k => decide (tget 0 s.pwr.level (5 + 3 * d + k) = 3))

/-- Take a unit to its level; each change is an EVENT, and a hub that reaches HALT causes a device reset. -/
def unitLevel (s : State) (u : Nat) : State :=
  match s.pwr.hot.find? (fun e => decide (e.1 = u)) with
  | none => s
  | some h =>
    let old := tget 0 s.pwr.level u
    let new := levelOf u h.2 old
    if new = old then s
    else
      let s : State := { s with pwr := { s.pwr with level := tset 0 s.pwr.level u new } }
      let s := if u < 5 then (s.put F.PWR_THERM_STATE u new).eventD0 0x050E 1 u new else s.eventD0 0x050E 9 (u - 5) new
      let s := if 2 ≤ new then s.raise F.PWR_EVT_THROTTLE 0 else s
      if new ≠ 3 then s
      else if u = 4 then s.beginReset 4 0 0 0 false
      else
        let d := if u < 4 then u else (u - 5) / 3
        (s.raise F.PWR_EVT_HALT 0).calAbort (calOnDie d)

/-- CP1's levels at a tick (R474), and the dies that they halt. -/
def thermalTick (s : State) : State :=
  if s.phase = 3 ∨ s.pwr.tripped = true then s
  else
    let s := (List.range 17).foldl (fun s u => s.unitLevel u) s
    let was := fun (p : Nat) => (s.core p).halted
    ((List.range 192).filter (fun p => was p != s.dieHalted (p / 48))).foldl (fun s p =>
      s.updCore p (fun x => { x with halted := s.dieHalted (p / 48) })) s

/-- Go on to the next entry; after the last one a cycle is complete (R480, R485). -/
def nextEntry (s : State) (t : Nat) : State :=
  let s : State := { s with pwr := { s.pwr with conversions := [], aborts := 0, waiting := false } }
  if s.monPos + 1 < s.get F.MON_CFG_LENGTH 0 then s.put F.MON_CFG_POSITION 0 (s.monPos + 1)
  else
    let us := (s.now + t - s.pwr.cycleStart) / 1000
    let s := ((s.put F.MON_CFG_POSITION 0 0).put F.MON_CFG_CYCLE 0 us).bump F.MON_COUNTS_CYCLES 0 1
    (List.range 17).foldl (fun s u => s.unitHot u) { s with pwr := { s.pwr with cycleDone := true, cycleStart := s.now + t } }

/-- An urgent conversion is the next one (R482, R483). -/
def urgentNext (s : State) : Option Nat := if s.pwr.waiting then none else s.pwr.urgent.head?

/-! The energy loop (R468 to R471). -/

/-- The executed plan's charge as it stands when its frame closes, what returned taken off (R59). -/
def settlePast (s : State) : State :=
  match s.fr.plans, s.pwr.pastEnergy.getLast? with
  | p :: _, some e => { s with pwr := { s.pwr with pastEnergy := s.pwr.pastEnergy.dropLast ++ [(e.1, p.charged)] } }
  | _, _ => s

/-- Add the charges of a frame to what the last frames were charged. -/
def notePast (s : State) (e : Nat) : State :=
  { s with pwr := { s.pwr with pastEnergy := ((s.pwr.pastEnergy ++ [(s.now, e)]).drop (s.pwr.pastEnergy.length - 4095)) } }

/-- Energy charged between two times; a frame's charge counts evenly over its period. -/
def chargedWithin (s : State) (a b : Nat) : Nat :=
  (s.pwr.pastEnergy.map (fun e => e.2 * (min b (e.1 + s.periodNs) - max a e.1) / s.periodNs)).foldl (· + ·) 0

/-- P_stand for the coming plan, in µW (R468), from the readings there are, at most eight; without a span it stays. -/
def setPstand (s : State) : State :=
  let l := s.pwr.readings.drop (s.pwr.readings.length - 8)
  let a := (l.head?.map (fun e => e.1)).getD 0
  let b := (l.getLast?.map (fun e => e.1)).getD 0
  let p := if s.pwr.cycleDone = false then 160000000
    else if b ≤ a then s.pwr.pstand
    else
      let meas := 30 * (b - a) * (l.map (fun e => e.2)).foldl (· + ·) 0 / l.length
      max ((s.calItem 6 0 0).toNat * 62500) ((meas - s.chargedWithin a b) * 1000 / (30 * (b - a)))
  ({ s with pwr := { s.pwr with pstand := p } } : State).put F.PWR_MEAS_P_STAND 0 (min 65535 (p * 16 / 1000000))

/-- The image's reserve in tenths of a percent (R57). -/
def imageReserve (s : State) : Nat := 10 * s.pol 0x04

/-- Set the effective reserve, as PWR_BUDGET shows it (R471). -/
def setReserve (s : State) (r t : Nat) : State :=
  ({ s with pwr := { s.pwr with reserve := r, reserveAt := t } } : State).put F.PWR_BUDGET_RESERVE 0 r

end State

/-- ENABLE_OPEN (R464). -/
def execEnableOpen (s : State) : Outcome :=
  .next (let s := s.powerLoss 1; { s with pwr := { s.pwr with enable := false } })

/-- UNDER_VOLTAGE_STOP (R463, R464): below 39 V for 50 µs. -/
def execUnderVoltageStop (mv us : Nat) (s : State) : Outcome := .next (if mv < 39000 ∧ 50 ≤ us then s.powerLoss 2 else s)

/-- OVER_VOLTAGE_STOP (R463, R464): above 62 V for 50 µs. -/
def execOverVoltageStop (mv us : Nat) (s : State) : Outcome := .next (if 62000 < mv ∧ 50 ≤ us then s.powerLoss 3 else s)

/-- CURRENT_LIMIT_STOP (R463, R464): at the limit for 100 µs. -/
def execCurrentLimitStop (us : Nat) (s : State) : Outcome := .next (if 100 ≤ us then s.powerLoss 4 else s)

/-- CURRENT_LIMIT_REACHED (R463, R485). -/
def execCurrentLimitReached (s : State) : Outcome := .next (if s.pwr.converting then s.raise F.PWR_EVT_CURRENT 0 else s)

/-- MONITOR_CONVERSION (R481, R482): of the head urgent request, or of the entry in progress; `value` is in the channel's unit. -/
def execMonitorConversion (value : Int) (s : State) : Outcome :=
  .next (
    if s.pwr.converting = false ∨ s.get F.MON_CFG_LENGTH 0 = 0 then s
    else match s.urgentNext with
      | some ch => ({ s with pwr := { s.pwr with urgent := s.pwr.urgent.drop 1 } } : State).report ch value
      | none =>
        let e := s.monEntry s.monPos
        if s.pwr.conversions.length < e / 2 ^ 8 % 2 ^ 8 then
          ({ s with pwr := { s.pwr with conversions := s.pwr.conversions ++ [value] } } : State).checkLimit e value
        else s)

/-- MONITOR_ENTRY_COMPLETE (R480, R481): the mean of the entry's REPEAT values, rounded to nearest. -/
def execMonitorEntryComplete (t : Nat) (s : State) : Outcome :=
  .next (
    let e := s.monEntry s.monPos
    let n := s.pwr.conversions.length
    if s.pwr.converting = false ∨ n = 0 ∨ n ≠ e / 2 ^ 8 % 2 ^ 8 ∨ s.urgentNext.isSome = true then s
    else
      let ch := e % 2 ^ 7
      let s := s.report ch (divEven (s.pwr.conversions.foldl (· + ·) 0) n)
      let s := if ch = 1 then s.readPower t else s
      s.nextEntry t)

/-- URGENT_REQUEST (R482, R483): a request for a queued channel joins it, a fifth is refused; the first aborts the entry in progress,
unless that entry has been aborted 4 times in a row. -/
def execUrgentRequest (channel : Nat) (s : State) : Outcome :=
  .next (
    if s.pwr.urgent.contains channel then s
    else if 4 ≤ s.pwr.urgent.length then s.bump F.MON_COUNTS_REFUSED 0 1
    else
      let first := decide (s.pwr.urgent = [])
      let s : State := { s with pwr := { s.pwr with urgent := s.pwr.urgent ++ [channel] } }
      if first = false then s
      else if 4 ≤ s.pwr.aborts then { s with pwr := { s.pwr with waiting := true } }
      else ({ s with pwr := { s.pwr with aborts := s.pwr.aborts + 1, conversions := [] } } : State).bump F.MON_COUNTS_ABORTS 0 1)

/-- FRAME_ENERGY_CHECK (R469): once for a frame with readings, at a tick after its last one; the excess is deducted from the next plan. -/
def execFrameEnergyCheck (frame : Nat) (s : State) : Outcome :=
  .next (
    let start := s.now - (s.frame - frame) * s.periodNs
    let l := (s.pwr.readings.filter (fun e => decide (start ≤ e.1) && decide (e.1 < start + s.periodNs))).map (fun e => e.2)
    if frame ≤ s.frame ∧ l ≠ [] ∧ s.pwr.checked.contains frame = false then
      let e := 30 * (l.foldl (· + ·) 0) * s.periodNs / l.length
      { s with pwr := { s.pwr with checked := (frame :: s.pwr.checked).take 64, deduct := s.pwr.deduct + (e - s.envelope) } }
    else s)

/-- OVERDRAW (R471): a 1 ms window above 606 W. -/
def execOverdraw (mw t : Nat) (s : State) : Outcome :=
  .next (
    if 606000 < mw then
      let s := s.setReserve (min 200 (s.pwr.reserve + 10)) (s.now + t)
      (((s.bump F.PWR_BUDGET_OVERDRAWS 0 1).raise F.PWR_EVT_OVERDRAW 0)).eventOpen 0x050D 0 0
    else s)

/-- RESERVE_DECAY (R471): 10 s without such a window; never below the image's reserve. -/
def execReserveDecay (t : Nat) (s : State) : Outcome :=
  .next (
    if s.imageReserve < s.pwr.reserve ∧ s.pwr.reserveAt + 10 ^ 10 ≤ s.now + t then
      s.setReserve (max s.imageReserve (s.pwr.reserve - 10)) (s.pwr.reserveAt + 10 ^ 10)
    else s)

/-- THERMAL_SHUTDOWN (R475): a comparator of a die, hub or stack sensor trips at 115 °C or 105 °C; dies, stacks and hub are off. -/
def execThermalShutdown (channel : Nat) (value : Int) (s : State) : Outcome :=
  .next (
    let limit : Int := if channel < 74 then 1840 else 1680
    if s.pwr.converting = true ∧ 10 ≤ channel ∧ channel ≤ 85 ∧ limit ≤ value ∧ s.pwr.tripped = false then
      let s := ((List.range 4).foldl (State.clearDie 4) s).losePlans
      let s : State := { s with mem := [], pwr := { s.pwr with tripped := true } }
      ((s.raise F.PWR_EVT_SHUTDOWN 0).eventOpen 0x0510 0 0).oosNext 6
    else s)

/-- REFERENCE_CLOCK_LOSS (R477): every clock but the management watchdog's stops, and the watchdog causes a management reset. -/
def execReferenceClockLoss (s : State) : Outcome :=
  .next { s with pwr := { s.pwr with clock := false }, flt := { s.flt with mgmtDue := true } }

end Sys2Proof.Machine
end

