-- ==== Sys2Proof/Machine/Security.lean ====
section
/-!
DEFINITION. Machine/Security.lean: fuses, signature state, quotes and operator debug (spec/17_security.md).
-/
namespace Sys2Proof.Machine

namespace State

/-- The fused SVN: blown bits of the thermometer (R500). -/
def svnFused (s : State) : Nat := ((List.range 64).filter (fun i => s.fuse (768 + i))).length

/-- SEC_FUSE as the fuses read (R525). -/
def fuseRegs (s : State) : State :=
  let s := (s.put F.SEC_FUSE_LOCK 0 (if s.fuse 836 then 1 else 0)).put F.SEC_FUSE_OWNER_SET 0 (if s.ownerSet then 1 else 0)
  (s.put F.SEC_FUSE_DEBUG_POLICY 0 (s.fuseNum 832 4)).put F.SEC_FUSE_SVN_FUSED 0 s.svnFused

/-- Request a blow of the bits of a mask from bit lo: it begins at the tick (R501). Kind 0 SVN, 1 LOCK, 2 DEBUG_POLICY. -/
def askBlow (s : State) (lo bits kind : Nat) : State := { s with sec := { s.sec with blow := s.sec.blow ++ [⟨lo, bits, kind, false⟩] } }

/-- SEC_SIG registers (R525). -/
def sigRegs (s : State) : State :=
  (s.put F.SEC_SIG_LO_NEXT 0 (s.sec.nextIndex % 2 ^ 32)).put F.SEC_SIG_HI_NEXT 0 (s.sec.nextIndex / 2 ^ 32)

/-- A SEC_CTRL command: SEC_ registers may be written in any phase (R556); without the key 0x5A the entry does nothing (R554). -/
def secWrite (s : State) (r : Req) (confirm : Nat) (extra : List (Bool × Verdict)) (effect : State → State) : State :=
  s.commandWriteIf r true (if confirm = 0x5A then extra else []) (fun s => if confirm = 0x5A then effect s else s)

/-- The same for a field that LOCK protects: once LOCK is blown a mask that touches it is rejected, whatever the key (R10, R554). -/
def lockedWrite (s : State) (touched : Bool) (r : Req) (confirm : Nat) (extra : List (Bool × Verdict)) (effect : State → State) : State :=
  s.commandWriteIf r true ((!(touched && decide (s.get F.SEC_FUSE_LOCK 0 = 1)), verdict rejOwner) :: if confirm = 0x5A then extra else [])
    (fun s => if confirm = 0x5A then effect s else s)

/-- The bytes of a debug record. -/
def debugBytes (s : State) (kind fac purpose session cause : Nat) : List Nat :=
  leNums 1 kind ++ leNums 1 fac ++ leNums 2 purpose ++ leNums 2 (0xFFF0 + session) ++ leNums 1 cause ++ leNums 1 0 ++
    leNums 8 (s.mgmt session).serial ++ leNums 8 (s.frame + 1) ++ leNums 8 s.ports.ptpSec ++ leNums 4 s.ports.ptpNs ++ leNums 28 0

/-- The hash chain after a record. -/
def chained (s : State) (b : List Nat) : Nat := leNum (shake256 (leNums 32 s.sec.dbgChain ++ b) 32)

/-- Append a record to the debug log and its chain. -/
def chainRecord (s : State) (b : List Nat) : State :=
  let c := s.chained b
  { s with sec := { s.sec with dbgChain := c, dbgCount := s.sec.dbgCount + 1, attest := s.sec.attest ++ [leNum b] } }

/-- Append a debug record: the chain, its count, and EVENT SEC_DEBUG to every management session and every host session with STREAM
(R523). -/
def debugRecord (s : State) (kind fac purpose session cause : Nat) : State :=
  let s := s.chainRecord (s.debugBytes kind fac purpose session cause)
  let s := s.put F.DBG_STATE_COUNT 0 s.sec.dbgCount
  let m := s.eventMsg 0x0308 0 0 (kind + 2 ^ 8 * fac) 0 0 0
  let s := s.eventAtD0 0x0308 0 0 (kind + 2 ^ 8 * fac)
  (s.hostSessions.filter (fun i => decide (s.seen F.HSESS_CFG_STREAM i = 1))).foldl (fun s i => s.toHost i m) s

/-- Close the open debug session (R524). -/
def debugClose (s : State) (cause : Nat) : State :=
  match s.sec.dbgOpen with
  | none => s
  | some i =>
    let s := s.debugRecord 2 (s.get F.DBG_STATE_FACILITIES 0) (s.get F.DBG_CTRL_PURPOSE 0) i cause
    let s : State := { s with sec := { s.sec with dbgOpen := none } }
    (s.put F.DBG_STATE_OPEN 0 0).put F.DBG_STATE_FACILITIES 0 0

/-- Facilities that DEBUG_POLICY leaves of a request (R500, R522). -/
def debugAllowed (s : State) (fac : Nat) : Nat :=
  if s.fuse 835 then 0
  else ((List.range 3).map (fun i => if fac / 2 ^ i % 2 = 1 ∧ s.fuse (832 + i) = false then 2 ^ i else 0)).foldl (· + ·) 0

/-- Words of a quote's header (R514), keyed by slot x 0x8000 + offset; its signature bytes are Config.quoteByte (log entry 13). -/
def quoteHeader (s : State) (slot kind index : Nat) (nonce : List Word) : List (Nat × Nat) :=
  let w : Nat → Nat → Nat → List (Nat × Nat) := fun o n v => (List.range n).map (fun k => (slot * 0x8000 + o + 4 * k, v / 2 ^ (32 * k) % 2 ^ 32))
  let flags : Nat := (if s.fuse 836 then 1 else 0) + (if s.sec.dbgOpen.isSome then 2 else 0) + (if s.phase = 2 then 4 else 0) + 8 * s.get F.SEC_BOOT_SLOT 0
  w 0 1 (1 + 2 ^ 16 * kind) ++ w 4 1 (s.get F.LNK_ID_MODULE_ID 0) ++ (nonce.zipIdx.map (fun p => (slot * 0x8000 + 8 + 4 * p.2, p.1.toNat))) ++
    w 0x18 2 s.frame ++ w 0x20 2 s.ports.ptpSec ++ w 0x28 1 s.ports.ptpNs ++
    w 0x2C 1 (s.svnFused + 2 ^ 8 * s.get F.SEC_BOOT_SVN_FW 0 + 2 ^ 16 * s.fuseNum 832 4 + 2 ^ 24 * flags) ++ w 0x30 2 index ++
    w 0x38 1 (s.get F.SEC_CRED_EPOCH_EPOCH 0) ++ w 0x40 8 (s.fuseNum 256 256) ++ w 0x60 8 s.img.accepted.mFw ++
    w 0x80 8 s.img.accepted.mImage ++ w 0xA0 8 s.img.accepted.topoHash ++ w 0x100 17 (leNum s.sec.idPk) ++ w 0xC0 8 s.sec.dbgChain ++ w 0xE0 2 s.sec.dbgCount

/-- Form a quote in a slot (R513): the slot's serial marks it formed. -/
def formQuote (s : State) (slot kind index : Nat) (nonce : List Word) : State :=
  let kept := s.sec.quotes.filter (fun e => !(decide (slot * 0x8000 ≤ e.1) && decide (e.1 < slot * 0x8000 + 0x8000)))
  let q := (s.quoteHeader slot kind index nonce).foldl (fun t e => tput t e.1 e.2) kept
  { s with sec := { s.sec with quotes := tput q (0x20000 + slot) (s.draw + 1) }, freeCtr := s.freeCtr + 1 }

/-- Take the next identity index for a signature (R505, R506). -/
def sign (s : State) : State :=
  ({ s with sec := { s.sec with nextIndex := s.sec.nextIndex + 1, signed := some s.sec.nextIndex } } : State).sigRegs

end State

/-- LOCK (R501): rejected while OWNER_ROOT is zero, and after LOCK is blown (R10). -/
def execLock (r : Req) (confirm : Nat) (s : State) : Outcome :=
  .next (s.lockedWrite true r confirm [(s.ownerSet, verdict rejOwner)] (fun s => s.askBlow 836 1 1))

/-- DBG_DISABLE (R501): the same DEBUG_POLICY bits. -/
def execDbgDisable (r : Req) (confirm mask : Nat) (s : State) : Outcome :=
  .next (s.lockedWrite (decide (mask % 16 ≠ 0)) r confirm [] (fun s => s.askBlow 832 (mask % 16) 2))

/-- Blow SVN bits until the count equals the running firmware's SVN (R503). -/
def State.svnCommit (s : State) : State :=
  let n := s.get F.SEC_BOOT_SVN_FW 0
  if s.svnFused < n then s.askBlow (768 + s.svnFused) (2 ^ (n - s.svnFused) - 1) 0 else s

/-- SVN_COMMIT (R503). -/
def execSvnCommit (r : Req) (confirm : Nat) (s : State) : Outcome := .next (s.secWrite r confirm [] (fun s => s.svnCommit))

/-- FUSE_BLOW_COMPLETE (R501): the bits that read back as blown count as blown. `readBack` lists fuse bits. -/
def execFuseBlowComplete (readBack : List Nat) (s : State) : Outcome :=
  .next (match s.sec.blow with
    | [] => s
    | b :: rest =>
      if b.started = false then s
      else
        let hit := (List.range 64).filter (fun i => decide (b.bits / 2 ^ i % 2 = 1) && readBack.contains (b.lo + i))
        let s : State := { s with sec := { s.sec with blow := rest } }
        let s := (hit.foldl (fun s i => s.blowFuse (b.lo + i)) s).fuseRegs
        if b.kind = 0 ∧ hit ≠ [] then (s.raise F.SEC_EVT_SVN_COMMITTED 0).eventOpen 0x030B 0 0 else s)

/-- A write of the lowest credential EPOCH: the larger value stands (R512). -/
def State.raiseEpoch (s : State) (value mask : Nat) : State :=
  let old := s.get F.SEC_CRED_EPOCH_EPOCH 0
  let new := (maskedIn (BitVec.ofNat 32 old) value mask).toNat
  s.put F.SEC_CRED_EPOCH_EPOCH 0 (max old new)

/-- SEC_CRED_EPOCH_WRITE (R512). -/
def execSecCredEpochWrite (r : Req) (value mask : Nat) (s : State) : Outcome :=
  .next (s.commandWrite r true (fun s => s.raiseEpoch value mask))

/-- Begin to form a requested quote at time t (R513): ignored while one is being formed and within 100 ms of the previous GO. -/
def State.askQuote (s : State) (t : Nat) : State :=
  let soon := match s.sec.lastQuote with | some u => decide (t < u + 10 ^ 8) | none => false
  if s.get F.SEC_STAT_QUOTE_BUSY 0 = 1 ∨ soon = true then s
  else
    let n := (List.range 4).map (fun k => s.reg (F.SEC_QUOTE_NONCE_NONCE.addr k))
    ({ s with sec := { s.sec with quoteBusy := some t, lastQuote := some t, quoteNonce := n, signed := none } } : State).put
      F.SEC_STAT_QUOTE_BUSY 0 1

/-- QUOTE_GO (R513). -/
def execQuoteGo (r : Req) (confirm : Nat) (s : State) : Outcome := .next (s.secWrite r confirm [] (fun s => s.askQuote (s.now + r.t)))

/-- QUOTE_READY (R513): once CP0 has signed, slot 1 is replaced. -/
def execQuoteReady (s : State) : Outcome :=
  .next (match s.sec.quoteBusy, s.sec.signed with
    | some _, some index =>
      let s := s.formQuote 1 1 index s.sec.quoteNonce
      let s : State := { s with sec := { s.sec with quoteBusy := none, signed := none } }
      ((s.put F.SEC_STAT_QUOTE_BUSY 0 0).bump F.SEC_STAT_QUOTES 0 1).raise F.SEC_EVT_QUOTE_DONE 0
    | _, _ => s)

/-- SIG_STATE_RESERVE (R505): with fewer than 256 reserved indices left, a record reserves 1,024 more. -/
def execSigStateReserve (s : State) : Outcome :=
  .next (if s.sec.limit < s.sec.nextIndex + 256 then
      { s with sec := { s.sec with limit := s.sec.limit + 1024, recordSeq := s.sec.recordSeq + 1 } }
    else s)

/-- SIGNING_REQUEST (R505, R506): CP0 signs with indices below LIMIT only. -/
def execSigningRequest (quote : Bool) (s : State) : Outcome :=
  .next (if s.sec.nextIndex < s.sec.limit then
      if quote then (if s.sec.quoteBusy.isSome ∧ s.sec.signed = none then s.sign else s)
      else
        let k := s.sec.signed
        { s.sign with sec := { s.sign.sec with signed := k } }
    else s)

/-- Open a debug session for management session i (R522): ignored while one is open. -/
def State.openDebug (s : State) (i facilities purpose : Nat) : State :=
  if s.sec.dbgOpen.isSome then s
  else
    let fac := s.debugAllowed facilities
    let s := (s.put F.DBG_CTRL_FACILITIES 0 facilities).put F.DBG_CTRL_PURPOSE 0 purpose
    let s := s.debugRecord 1 fac purpose i 0
    let s : State := { s with sec := { s.sec with dbgOpen := some i } }
    ((s.put F.DBG_STATE_OPEN 0 1).put F.DBG_STATE_FACILITIES 0 fac).put F.DBG_STATE_SESSION 0 i

/-- DBG_OPEN (R522): rejected when DEBUG_POLICY leaves none of the facilities. -/
def execDbgOpen (r : Req) (facilities purpose : Nat) (s : State) : Outcome :=
  .next (s.commandWriteIf r false [(decide (s.debugAllowed facilities ≠ 0), verdict rejOwner)]
    (fun s => s.openDebug (r.session - 0xFFF0) facilities purpose))

/-- DBG_CLOSE (R524). -/
def execDbgClose (r : Req) (s : State) : Outcome := .next (s.commandWrite r false (fun s => s.debugClose 1))

end Sys2Proof.Machine
end

