-- ==== Sys2Proof/Machine/Boot.lean ====
section
/-!
DEFINITION. Machine/Boot.lean: the start of the module from ENABLE, from a management reset and after a device reset (spec/18_image_and_boot.md
R526 to R544, spec/17_security.md R502 to R508, spec/04_blocking_and_fulling.md R150, spec/12_faults_and_resets.md R402 to R406).
-/
namespace Sys2Proof.Machine

/-! Sections that an image's words hold in a layout of the spec (R528 to R537). -/

/-- Kind, offset and length of directory entry i. -/
def SlotSt.entryKind (x : SlotSt) (i : Nat) : Nat := x.word (0x40 + 32 * i)
/-- Offset. -/
def SlotSt.entryAt (x : SlotSt) (i : Nat) : Nat := x.quad (0x40 + 32 * i + 4)
/-- Length. -/
def SlotSt.entryLen (x : SlotSt) (i : Nat) : Nat := x.quad (0x40 + 32 * i + 12)

/-- Directory entry of a kind. -/
def SlotSt.entryOf (x : SlotSt) (kind : Nat) : Option Nat := (List.range x.entries).find? (fun i => decide (x.entryKind i = kind))

/-- Offset of the section of a kind; 0 where the directory has none. -/
def SlotSt.sectionAt (x : SlotSt) (kind : Nat) : Nat := match x.entryOf kind with | some i => x.entryAt i | none => 0
/-- Length of the section of a kind. -/
def SlotSt.sectionLen (x : SlotSt) (kind : Nat) : Nat := match x.entryOf kind with | some i => x.entryLen i | none => 0

/-- Bytes of the vendor's signature after the firmware body (R529). -/
def vendorSig : Nat := 2820

/-- M_FW (R508, R529): over the firmware body. -/
def SlotSt.mFw (x : SlotSt) : Nat := leNum (shake256 (x.bytes (x.sectionAt 1) (x.sectionLen 1 - vendorSig)) 32)

/-- M_IMAGE (R508, R529): over sections 2 to 9 in directory order. -/
def SlotSt.mImage (x : SlotSt) : Nat :=
  leNum (shake256 (((List.range x.entries).filter (fun i => decide (2 ≤ x.entryKind i) && decide (x.entryKind i ≤ 9))).flatMap (fun i =>
    x.bytes (x.entryAt i) (x.entryLen i))) 32)

/-- TOPO (R331, R537): over the topology section. -/
def SlotSt.topoHash (x : SlotSt) : Nat := leNum (shake256 (x.bytes (x.sectionAt 3) (x.sectionLen 3)) 32)

/-- The words of a slot that lie in a section. -/
def SlotSt.part (x : SlotSt) (o n : Nat) : SlotSt := { x with words := x.words.filter (fun e => decide (o ≤ e.1) && decide (e.1 < o + n)) }

/-- A module's entry of the TOPOLOGY section at offset o (R537). -/
def SlotSt.topoEntry (x : SlotSt) (o : Nat) : TopoEntry where
  idHash := ((List.range 8).map (fun k => x.word (o + 4 * k) * 2 ^ (32 * k))).foldl (· + ·) 0
  ports := (List.range 32).map (fun p =>
    let w := x.quad (o + 0x20 + 8 * p)
    ⟨w % 2 ^ 17, w / 2 ^ 17 % 32, decide (w / 2 ^ 22 % 2 = 1), w / 2 ^ 24 % 2 ^ 16⟩)
  holder0 := x.word (o + 0x120)
  holder1 := x.word (o + 0x124)

/-- An image as the slot's words give it where the spec gives their layout, and as its reader decoded it elsewhere (log entry 3). -/
def SlotSt.read (x : SlotSt) (g : Image) : Image :=
  let fw := x.sectionAt 1
  let pol := x.sectionAt 2
  let top := x.sectionAt 3
  let mon := x.sectionAt 5
  let ctx := x.sectionAt 6
  { g with
    build := x.quad 0x18
    svn := x.word (fw + 0x44) % 256
    mFw := x.mFw
    mImage := x.mImage
    topoHash := x.topoHash
    policy := (List.range 41).foldl (fun t k => tset (policyDefault (4 * k)) t (4 * k) (x.word (pol + 4 * k))) []
    modules := x.word top
    anchor := x.word (top + 4)
    standby := x.word (top + 8)
    holders := x.word (top + 12)
    topo := (List.range (x.word top)).map (fun m => (m, x.topoEntry (top + 64 + 320 * m)))
    monLength := x.word mon
    monitor := (List.range 1024).map (fun k => BitVec.ofNat 32 (x.word (mon + 4 + 4 * k)))
    contexts := (List.range 1024).filterMap (fun c =>
      let w := (x.part ctx 8192).word (ctx + 8 * c)
      if w % 2 ^ 16 = 0xFFFF then none else some (c, ⟨some (w % 2 ^ 16), w / 2 ^ 16 % 256⟩)) }

/-- A policy word lies in its range (R534, R60, R62). -/
def Image.policyOk (g : Image) (o : Nat) : Bool :=
  let v := g.pol o
  let sum := fun (w : Nat) => byteOf w 0 + byteOf w 1 + byteOf w 2 + byteOf w 3
  let within := fun (lo hi : Nat) => decide (lo ≤ v) && decide (v ≤ hi)
  match o with
  | 0x00 => within 20 10000
  | 0x04 => within 2 20
  | 0x08 => decide (sum v = 100) && decide (5 ≤ byteOf v 1)
  | 0x0C => decide (sum v + sum (g.pol 0x10) = 100)
  | 0x14 => within 1 65535
  | 0x18 => within 1 1000
  | 0x1C => within 10 255
  | 0x20 => within 10 255
  | 0x24 => within 1 1023
  | 0x28 => within 1 65535
  | 0x2C => within 25 1000000 && decide (v % 25 = 0)
  | 0x30 => within 1 1023
  | 0x34 => within (g.pol 0x30) 1023
  | 0x38 => within (g.pol 0x30) (g.pol 0x34)
  | 0x3C => within 1 4095
  | 0x40 => within 1 255
  | 0x44 => within 1 4095
  | 0x48 => within 1 65535
  | 0x4C => within 1 255
  | 0x50 => within 64 16384
  | 0x54 => within 16 65535
  | 0x58 => within 1 15
  | 0x5C => within 2 15
  | 0x60 => within 1 176
  | 0x64 => within 1 8
  | 0x68 => within 16 4095
  | 0x6C => within 4 16
  | 0x70 => within 0 1
  | 0x74 => within 1 1023
  | 0x78 => within (g.pol 0x74) 16383
  | 0x7C => within 1 65535
  | 0x80 => within 1 1000000
  | 0x84 => within 1 65535
  | 0x88 => within 1 16
  | 0x8C => within 1 65535
  | 0x90 => within 1 600000
  | 0x94 => within 0 255
  | 0x98 => within 1 24576
  | 0x9C => within 1 24576
  | 0xA0 => within 1 4096
  | _ => true

/-- The first policy word out of its range. -/
def Image.badPolicy (g : Image) : Option Nat := ((List.range 41).map (fun k => 4 * k)).find? (fun o => !g.policyOk o)

/-- The first field that breaks what R529, R535 and R537 say of the directory and of the sections with a layout: slot offset and kind. -/
def SlotSt.badField (x : SlotSt) (g : Image) : Option (Nat × Nat) :=
  let kinds := (List.range x.entries).map x.entryKind
  let many := fun (k : Nat) => (kinds.filter (fun n => decide (n = k))).length
  let checks : List (Bool × Nat × Nat) := [
    ([1, 2, 3, 4, 5, 6, 7, 10].all (fun k => decide (many k = 1)) && [8, 9].all (fun k => decide (many k ≤ 1)) &&
      kinds.all (fun k => decide (1 ≤ k) && decide (k ≤ 10)), 0x40, 0),
    (decide (0x45 + vendorSig ≤ x.sectionLen 1) && decide (x.sectionLen 1 ≤ 2 ^ 25 + vendorSig), x.sectionAt 1, 1),
    (decide (x.sectionLen 2 = 4096), x.sectionAt 2, 2),
    (decide (1 ≤ g.modules) && decide (g.modules ≤ 131072) && decide (x.sectionLen 3 = 64 + 320 * g.modules), x.sectionAt 3, 3),
    (decide (g.anchor < g.modules) && decide (g.standby < g.modules), x.sectionAt 3 + 4, 3),
    (decide (g.holders = 1) || decide (g.holders = 2), x.sectionAt 3 + 12, 3),
    (decide (1 ≤ g.monLength) && decide (g.monLength ≤ 256) && decide (x.sectionLen 5 = 4100), x.sectionAt 5, 5),
    (decide (8192 ≤ x.sectionLen 6) && g.contexts.all (fun e => decide (e.2.init ≤ 2)), x.sectionAt 6, 6)]
  (checks.find? (fun e => !e.1)).map (fun e => e.2)

/-- Root hash of the raw form that an unprovisioned module takes (R502, R529): ROOT_PK before a root signature of one of the two sets; of a
credential, of the root that it carries. -/
def SlotSt.rootOf (x : SlotSt) : Nat :=
  let o := x.sectionAt 10
  match Credential.read (beNum (x.bytes o 184)) with
  | some c => if x.sectionLen 10 = c.proofBytes then c.rootHash else leNum (shake256 (x.bytes o 68) 32)
  | none => leNum (shake256 (x.bytes o 68) 32)

namespace State

/-- The vendor key that a slot carries is the one whose hash the fuses hold (R507 stage 1). -/
def vendorOk (s : State) (x : SlotSt) : Bool := decide (leNum (shake256 (x.bytes (x.sectionAt 1) 68) 32) = s.fuseNum 0 256)

/-- The configuration sections are signed by an owner-role credential, or, in an unprovisioned module, under the root that the section carries
(R502, R507 stage 4, R510, R529). -/
def configSigned (s : State) (x : SlotSt) (signatures : Bool) : Bool :=
  let raw := !s.ownerSet && (decide (x.sectionLen 10 = 68 + 2820) || decide (x.sectionLen 10 = 68 + 18469))
  signatures && match Credential.read (beNum (x.bytes (x.sectionAt 10) 184)) with
    | some c => if x.sectionLen 10 = c.proofBytes then decide (c.role = 1) && s.credentialStands true c else raw
    | none => raw

/-- Take an image slot through the checks of R530 and R507: the reason it is refused (0 none), the slot offset of the first failing item and
its section kind. -/
def trySlot (s : State) (k : Nat) (v : SlotCheck) : Nat × Nat × Nat :=
  let x := s.slot k
  let g := x.read v.image
  if x.isSealed = false then (6, x.imageLen, 0)
  else if s.vendorOk x = false then (1, x.sectionAt 1, 1)
  else if v.signOk = false then (2, x.sectionAt 1 + x.sectionLen 1 - vendorSig, 1)
  else if g.svn < s.svnFused then (3, x.sectionAt 1 + 0x44, 1)
  else if s.configSigned x v.credOk = false then (4, x.sectionAt 10, 10)
  else match x.badField g with
    | some e => (5, e.1, e.2)
    | none => match g.badPolicy with
      | some o => (5, x.sectionAt 2 + o, 2)
      | none => if v.loaderOk = false ∨ g.loadable = false ∨ s.pointsFit g = false then (5, v.failOfs, v.failKind) else (0, 0, 0)

/-! The flash's other partitions (R488, R505, R527). -/

/-- A module-state record without a valid copy takes its factory value (R527). -/
def loseRecord (s : State) (k : Nat) : State :=
  if k < 1536 then s.updBatt k (fun x => { Batt.empty with cells := x.cells })
  else if k = 1536 then
    let s : State := { s with cores := [], flt := { s.flt with roles := [] } }
    (s.put F.FLT_STATE_OOS 0 0).put F.FLT_STATE_CAUSE 0 0
  else if k = 1537 then s.put F.SEC_CRED_EPOCH_EPOCH 0 0
  else { s with img := { s.img with network := none } }

/-- Records, fuses and the signature state as a start finds them; the long-term keys are derived (R504), and
an open debug session closes before service begins (R505, R524, R527). -/
def readFlash (s : State) (o : BootArgs) : State :=
  let s := o.stateLost.foldl (fun s k => s.loseRecord k) s
  let s := if o.stateLost = [] then s else s.put F.IMG_STAT_STATE_LOST 0 1
  let s : State := { s with cal := { s.cal with lost := s.cal.lost ++ o.calLost.filter (fun k => !s.cal.lost.contains k) } }
  let s : State := if o.sigOk then
      { s with sec := { s.sec with nextIndex := s.sec.limit, limit := s.sec.limit + 1024, recordSeq := s.sec.recordSeq + 1 } }
    else s
  let s := s.deriveKeys
  let s := ((s.fuseRegs.sigRegs).put F.DBG_STATE_COUNT 0 s.sec.dbgCount).put F.FLT_LOG_NEXT 0 s.flt.logSeq
  (((s.putSealed 0 (if s.img.slotA.isSealed then 1 else 0)).putSealed 1 (if s.img.slotB.isSealed then 1 else 0))).debugClose 3

/-! What the accepted image sets. -/

/-- Module-wide registers that the image sets (R556). -/
def policyRegs (s : State) : State :=
  let p := s.pol
  let g := s.img.accepted
  let n := max 1 (Nat.log2 (2 * g.modules - 1))
  let l : List (Fld × Nat) := [
    (F.FRM_PERIOD_P_US, p 0x00), (F.BLK_CFG_THRESH, p 0x1C), (F.BLK_CFG_FUL_THRESH, p 0x20), (F.BLK_CFG_ROW_REST, p 0x24),
    (F.BLK_LIMITS_STEP_ROWS, p 0x28), (F.BLK_LIMITS_WEAR_LIMIT, p 0x2C / 25), (F.FUL_CFG_FUL_MIN, p 0x30), (F.FUL_CFG_FUL_MAX, p 0x34),
    (F.FUL_CFG_TARGET, p 0x3C), (F.NUM_CFG_ESC_HOLD, p 0x40), (F.NUM_CFG_FALLBACK_STEPS, p 0x44), (F.BAND_CFG_OVF_LIMIT, p 0x48),
    (F.BAND_CFG_ADD_RATE, p 0x4C), (F.EXCH_CFG_CHK_T, p 0x50), (F.EXCH_CFG_EXCH_WAIT, p 0x54), (F.FLT_STATE_FENCE_FAILS, p 0x5C),
    (F.FLT_STATE_MIN_CORES, p 0x60), (F.FLT_SE_CFG_DIGEST_STEPS, p 0x64), (F.FLT_SE_CFG_MARGIN_EVERY, p 0x68),
    (F.FLT_SE_CFG_RANGE_E, p 0x6C), (F.FLT_SE_CFG_RANGE_ACTION, p 0x70), (F.FLT_SE_CFG_F_NUM, min 64 n), (F.CKPT_CFG_CKPT_MIN, p 0x74),
    (F.CKPT_CFG_CKPT_MAX, p 0x78), (F.CKPT_CFG_ACCEPT_K_M1, p 0x88 - 1), (F.CKPT_CFG_HOLDERS, g.holders), (F.MON_CFG_LENGTH, g.monLength),
    (F.DEV_BUILD_LO_BUILD, g.build % 2 ^ 32), (F.DEV_BUILD_HI_BUILD, g.build / 2 ^ 32)]
  let s := l.foldl (fun s e => s.put e.1 0 e.2) s
  let s := if p 0x38 = 60 then s else (List.range 1536).foldl (fun s b => s.put F.FUL_STATE_INTERVAL b (p 0x38)) s
  let s := g.monitor.zipIdx.foldl (fun s w => s.putWord F.MON_ENTRY_WORD w.2 w.1) s
  s.setReserve s.imageReserve s.now

/-- Ports and host sessions (R533, R367, R551): both associations receive, the first transmits (log entry 33). -/
def netRegs (s : State) : State :=
  let g := s.img.accepted
  let s := g.net.zipIdx.foldl (fun s n =>
    let s := ((s.put F.ETH_PORT_MACSEC_ON n.2 (if n.1.macsecOn then 1 else 0)).put F.ETH_PORT_VLAN_ON n.2 (if n.1.vlanOn then 1 else 0)).put
      F.ETH_PORT_VID n.2 n.1.vid
    if n.1.macsecOn then
      let s := n.1.saks.zipIdx.foldl (fun (s : State) a =>
        { s with ports := { s.ports with assocs := tset Assoc.empty s.ports.assocs (2 * n.2 + a.2) { a.1 with rxPn := 1, txPn := 1 } } }) s
      s.put F.ETH_SA_CTRL_RX_EN n.2 (2 ^ n.1.saks.length - 1)
    else s) s
  g.sessions.foldl (fun s e =>
    (e.addr.zip [F.HSESS_ADDR0_ADDR, F.HSESS_ADDR1_ADDR, F.HSESS_ADDR2_ADDR, F.HSESS_ADDR3_ADDR]).foldl
      (fun s a => s.putWord a.2 e.session a.1) (s.putWord F.HSESS_CFG_VALID e.session e.cfg)) s

/-- FLT_CORE and FLT_OBS from the fault record, and the cores in service (R414, R418). -/
def coreRegs (s : State) : State :=
  let s := s.flt.roles.foldl (fun s e => (s.put F.FLT_CORE_ROLE e.1 (e.2 / 256)).put F.FLT_CORE_LOGICAL e.1 (e.2 % 256)) s
  let s := s.cores.foldl (fun s e => match e.2.obsUntil with
    | some u => if s.now < u then (s.put F.FLT_CORE_OBSERVED e.1 1).put F.FLT_OBS_OBS_LEFT e.1 ((u - s.now) / 10 ^ 9) else s
    | none => s) s
  s.put F.FLT_STATE_IN_SERVICE 0 ((List.range 192).filter (fun p => decide (s.get F.FLT_CORE_ROLE p = 0))).length

/-- Fence every link port (R333, R531). -/
def fenceAll (s : State) : State := (List.range 32).foldl (fun s p => s.put F.LNK_PORT_STATE p 9) s

/-- Own ID, role, alignment and routes (R333, R334, R543); a module that is not listed fences every port. -/
def joinTopology (s : State) : State :=
  let g := s.img.accepted
  match (g.topo.find? (fun e => decide (e.2.idHash = s.sec.idHash))).map (fun e => e.1) with
  | none => ((s.fenceAll).put F.LNK_ID_UNLISTED 0 1).eventOpen 0x0705 0 0
  | some m =>
    let role := if m = g.anchor then 1 else if m = g.standby then 2 else 0
    let s := ((s.put F.LNK_ID_MODULE_ID 0 m).put F.LNK_ID_ROLE 0 role).formRoutes m
    if s.isSource then s.setUnaligned 0 else s

/-! The drift check (R150). -/

/-- A fulling read shows the row unsound: a cell outside -0.5 to 15.5 levels once referred to the row's column P, or column Z above 1.0 q
unit. Conductances are in 1/64 of 0.5 µS; n is the composite reading of column P in 1/64. -/
def driftBad (o : FulRead) (n : Int) : Bool :=
  decide (n ≤ 0) || o.cells.any (fun p => p.2.any (fun g => decide (240 * g < n) || decide (33 * n < 240 * g))) ||
    o.cells.any (fun p => decide (p.1 = 1057) && decide (n.natAbs < (composite p.2 * 120).natAbs))

/-- Composite reading of column P of a fulling read. -/
def readP (o : FulRead) : Int := match o.cells.find? (fun p => decide (p.1 = 1056)) with | some p => composite p.2 | none => 0

/-- Rebuild a row's programmed image and verify record from its read (R150). -/
def driftRow (s : State) (o : FulRead) : State :=
  let n := readP o
  if n ≤ 0 then s
  else
    let bytes := o.cells.filterMap (fun p => (s.logicalCol o.batt p.1).map (fun j =>
      (j, if (s.batt o.batt).dark.contains j || (s.batt o.batt).worn.contains o.row then (0x80 : Byte) else BitVec.ofInt 8 (max (-127) (min 127 (divEven (composite p.2 * 120) n.toNat))))))
    let records : List (Nat × Byte) := o.cells.flatMap (fun p => p.2.zipIdx.map (fun v =>
      ((o.row * 1058 + p.1) * 4 + v.2, BitVec.ofInt 8 (max 0 (min 255 (divEven ((v.1 * 120 - n) * 16) n.toNat))))))
    let s := bytes.foldl (fun s e => s.setByte (s.imageAt o.batt + o.row * 1024 + e.1) e.2) s
    records.foldl (fun s e => s.setByte (verifyAt o.batt + e.1) e.2) s

/-- Rows that the drift check marks unsound. -/
def driftUnsound (rows : List FulRead) : List (Nat × Nat) :=
  let own := (rows.filter (fun o => driftBad o (readP o))).map (fun o => (o.batt, o.row))
  let batts := rows.foldl (fun (l : List Nat) o => if l.contains o.batt then l else l ++ [o.batt]) []
  own ++ batts.flatMap (fun b => (refMarked ((rows.filter (fun o => decide (o.batt = b))).map (fun o => (o.row, readP o)))).map (fun r => (b, r)))

/-- The drift check of every batt: κ, image and verify records, and CAL_RESID (R106, R150, R497). -/
def driftCheck (s : State) (o : BootArgs) : State :=
  let s := o.rows.foldl (fun s r => s.driftRow r) (s.refReads o.refs)
  let s := (driftUnsound o.rows).foldl (fun s u => s.raise F.BLK_EVT_UNSOUND u.1) s
  o.resid.foldl (fun s e =>
    let s := s.put F.CAL_BATT_RESID e.1 (min 255 e.2)
    if 16 < e.2 then (s.raise F.CAL_EVT_RESID_HIGH 0).eventOpen 0x060B 3 e.1 else s) s

/-! Contexts (R384, R535). -/

/-- Registers of a context that its template sets. -/
def ctxRegs (s : State) (c : Nat) (t : Template) : State :=
  let flag := fun (b : Bool) => if b then 1 else 0
  let l : List (Fld × Nat) := [
    (F.CTX_TRAIN_HBX_POLICY, t.hbxPolicy), (F.CTX_TRAIN_MASTER_BWD, flag t.masterBwd), (F.CTX_TRAIN_CLIP, flag t.clip),
    (F.CTX_TRAIN_OPT, flag t.adamw), (F.HBX_SIZE_SIZE, t.hbxSize), (F.CTX_STATE_DIGITAL_ONLY, flag t.digitalOnly),
    (F.CTX_CTRL_WEIGHT, t.weight), (F.EXCH_STEP_RETRIES, s.pol 0x58), (F.EXCH_STEP_MEMBERS, t.group.length)]
  l.foldl (fun s e => s.put e.1 c e.2) s

/-- Start a context by its INIT: FREE, or LOADING from the package, or from a holder's latest generation, where only rows that the drift
check found unsound and rows of batts with another load owner are to be blocked (R151, R457, R535). -/
def startCtx (bad : List (Nat × Nat)) (s : State) (e : Nat × CtxEntry) : State :=
  let c := e.1
  match s.template c with
  | none => s
  | some t =>
    let s := s.ctxRegs c t
    let mine := (t.batts.map (fun b => s.battOf b)).filter (fun b => decide ((s.batt b).owner = some c))
    match e.2.init with
    | 1 => ((s.place c t).enterLoading c true).updCtx c (fun x => { x with loading := some ⟨none, false, 0, 0, s.frame, none, [], [], false, none⟩ })
    | 2 => ((s.place c t).enterLoading c true).updCtx c (fun x => { x with
        unsound := x.unsound.filter (fun u => !mine.contains u.1 || bad.contains u),
        loading := some ⟨none, true, 1, 1, s.frame, none, [], [], true, none⟩ })
    | _ => s

/-! The start (R543). -/

/-- IPv6 link-local address formed from a MAC as modified EUI-64 (R531). -/
def linkLocal (mac : Nat) : Nat :=
  0xFE80 * 2 ^ 112 + ((mac / 2 ^ 24) ^^^ 0x020000) * 2 ^ 40 + 0xFFFE * 2 ^ 24 + mac % 2 ^ 24

/-- No image: ports from the network block, or ETH0 alone on its link-local address; every link port FENCED (R531). -/
def noImage (s : State) : State :=
  let mac := s.get F.ETH_PORT_MAC_LO_MAC 0 + 2 ^ 32 * s.get F.ETH_PORT_MAC_HI_MAC 0
  let net := s.img.network.getD [⟨0, 0, linkLocal mac, 0, false, 0, false, []⟩]
  (({ s with img := { s.img with accepted := { Image.empty with net := net } } } : State).netRegs).fenceAll

/-- An unprovisioned module blows the hash of the image's root key into OWNER_ROOT (R502). -/
def setOwnerRoot (s : State) (hash : Nat) : State :=
  if s.ownerSet then s
  else
    let s := (List.range 256).foldl (fun s i => if hash / 2 ^ i % 2 = 1 then s.blowFuse (256 + i) else s) s
    ((s.fuseRegs).raise F.SEC_EVT_OWNER_ROOT_SET 0).eventOpen 0x030C 0 0

/-- Form the boot quote with a zero nonce (R513). -/
def bootQuote (s : State) (o : BootArgs) : State :=
  if o.sigOk then
    let i := s.sec.nextIndex
    let s := s.sign
    ({ s with sec := { s.sec with signed := none } } : State).formQuote 0 0 i [0, 0, 0, 0]
  else s

/-- The cause with which the start ends OUT_OF_SERVICE (R405, R406, R543): one found by this start, or the fault record's; cause 9 ends with
an accepted image. -/
def startCause (s : State) (o : BootArgs) (none9 : Bool) : Option Nat :=
  if none9 then some 9
  else if s.cal.lost ≠ [] then some 7
  else if o.sigOk = false then some 8
  else if s.get F.FLT_STATE_IN_SERVICE 0 < s.get F.FLT_STATE_MIN_CORES 0 then some 3
  else if s.get F.FLT_STATE_OOS 0 = 1 ∧ s.get F.FLT_STATE_CAUSE 0 ≠ 9 then some (s.get F.FLT_STATE_CAUSE 0)
  else none

/-- End the start in service or OUT_OF_SERVICE, with the reports that wait for it (R405, R488, R505, R543). -/
def endStart (s : State) (o : BootArgs) (none9 : Bool) : State :=
  let s := if s.cal.lost = [] then s else s.eventOpen 0x060A 0 0
  let s := if o.sigOk then s else s.eventOpen 0x0309 0 0
  let s := s.showRecords
  let cause := s.startCause o none9
  let was := decide (s.get F.FLT_STATE_OOS 0 = 1) && decide (cause = some (s.get F.FLT_STATE_CAUSE 0))
  let s := match cause with
    | none => ((s.put F.FLT_STATE_OOS 0 0).put F.FLT_STATE_CAUSE 0 0).put F.DEV_STATE_PHASE 0 1
    | some k =>
      let s := ((s.put F.FLT_STATE_OOS 0 1).put F.FLT_STATE_CAUSE 0 k).put F.DEV_STATE_PHASE 0 2
      if was then s else s.eventD0 0x0502 0 0 k
  let s : State := { s with vis := s.regs }
  { s.rebaseAll with
    link := { s.link with bootAt := s.now },
    ports := { s.ports with inServiceAt := if cause = none then s.now else s.ports.inServiceAt },
    pwr := { s.pwr with cycleStart := s.now } }

/-- The start from stage 1 of R507 on (R543): slot A and then slot B through their checks, the image's settings, the drift check, the
contexts and the persistent regions. -/
def boot (s : State) (o : BootArgs) : State :=
  let a := s.trySlot 0 o.slotA
  let b := if a.1 = 0 then (0, 0, 0) else s.trySlot 1 o.slotB
  let s := (s.put F.SEC_BOOT_A_REASON 0 a.1).put F.IMG_STAT_B_REASON 0 b.1
  if a.1 ≠ 0 ∧ b.1 ≠ 0 then ((s.noImage.coreRegs).bootQuote o).endStart o true
  else
    let k := if a.1 = 0 then 0 else 1
    let v := if a.1 = 0 then o.slotA else o.slotB
    let g := (s.slot k).read v.image
    let s : State := { s with img := { s.img with accepted := g, network := some g.net } }
    let s := ((s.put F.SEC_BOOT_SLOT 0 k).put F.DEV_STATE_SLOT 0 k).put F.SEC_BOOT_SVN_FW 0 g.svn
    let s := s.policyRegs.netRegs.coreRegs
    let s := (s.joinTopology).driftCheck o
    let s := g.contexts.foldl (startCtx (driftUnsound o.rows)) s
    let s := if g.persist = [] then s else (List.range 192).foldl (fun s p => s.rebuildRegions p) s
    let s := s.setOwnerRoot (s.slot k).rootOf
    let s := if k = 1 then (s.raise F.SEC_EVT_BOOT_FALLBACK 0).event 0x030A 0 0 a.1 (a.2.1 % 2 ^ 32 * 2 ^ 32 + a.2.2 % 2 ^ 8) else s
    (s.bootQuote o).endStart o false

/-- Everything volatile is gone, the rails are up, and the flash is read (R391, R544). -/
def wake (s : State) (o : BootArgs) : State :=
  ({ s.cold with pwr := { s.cold.pwr with converting := true, enable := s.pwr.enable } } : State).readFlash o

/-- Start again (R391, R544). -/
def restart (s : State) (o : BootArgs) : State := (s.wake o).boot o

/-- A device reset completes (R402, R406): one that the owner asked for ends OUT_OF_SERVICE. -/
def endDeviceReset (s : State) (lost : Nat) : State :=
  let s := (s.dropReset (4, 0, 0)).eventAt 0x0504 0 0 4 lost
  let s : State := { s with cores := tmap Core.empty (fun _ c => { c with resetting := none, rebuilding := true }) s.cores }
  let s := s.liveContexts.foldl (fun s c => s.updCtx c (fun x => { x with ckpt := { x.ckpt with fails := x.ckpt.fails ++ [s.now] } })) s
  let s := if s.flt.ownerReset then
      let s : State := { s with flt := { s.flt with ownerReset := false, kills := [], devResets := [], oosDue := none } }
      (s.rates s.now |>.put F.FLT_STATE_OOS 0 0).put F.FLT_STATE_CAUSE 0 0
    else s
  let s := if s.get F.FLT_STATE_IN_SERVICE 0 < s.get F.FLT_STATE_MIN_CORES 0 then s.oosNext 3 else s
  let s := s.showRecords
  if s.get F.FLT_STATE_OOS 0 = 1 then s.put F.DEV_STATE_PHASE 0 2
  else ({ s.rebaseAll with ports := { s.ports with inServiceAt := s.now } } : State).put F.DEV_STATE_PHASE 0 1

/-- The start that follows a thermal shutdown (R475, R544): the image is read again, every batt passes the drift check and contexts start by
INIT. Registers and the management domain stay. -/
def restartImage (s : State) (o : BootArgs) : State :=
  let s := s.endDeviceReset 0
  let s := (s.ctxs.map (fun e => e.1)).foldl (fun s c =>
    (((s.put F.CTX_STATE_STATE c 0).put F.CTX_STATE_MODULE_HELD c 0).put F.CTX_STATE_UNPARK_PENDING c 0).setCtx c { Ctx.empty with vtime := (s.ctx c).vtime }) s
  ({ s with pwr := { s.pwr with tripped := false } } : State).boot o

end State

/-- ENABLE_CLOSE (R463, R543): below 41 V the module waits for START_THRESHOLD. -/
def execEnableClose (mv : Nat) (o : BootArgs) (s : State) : Outcome :=
  .next (
    let s : State := { s with pwr := { s.pwr with enable := true } }
    if s.pwr.converting = false ∧ 41000 ≤ mv then s.restart o else s)

/-- START_THRESHOLD (R463). -/
def execStartThreshold (mv : Nat) (o : BootArgs) (s : State) : Outcome :=
  .next (if s.pwr.enable = true ∧ s.pwr.converting = false ∧ 41000 ≤ mv then s.restart o else s)

/-- MANAGEMENT_RESET (R391, R395, R542, R544): asked for by RESTART or by the management watchdog, with the rails up. -/
def execManagementReset (o : BootArgs) (s : State) : Outcome :=
  .next (if s.pwr.converting = true ∧ (s.img.restart = true ∨ s.flt.mgmtDue = true) then s.restart o else s)

/-- DEVICE_RESET_COMPLETE (R402, R544): an image home that does not match its measurements causes a management reset. -/
def execDeviceResetComplete (hashOk : Bool) (o : BootArgs) (s : State) : Outcome :=
  .next (match s.flt.resets.find? (fun r => decide (r.scope = (4, 0, 0))) with
    | none => s
    | some r =>
      if s.pwr.tripped then s.restartImage o
      else if hashOk then s.endDeviceReset r.frames
      else { s.dropReset (4, 0, 0) with flt := { (s.dropReset (4, 0, 0)).flt with mgmtDue := true } })

end Sys2Proof.Machine
end

