-- ==== Sys2Proof/Machine/Frames.lean ====
section
/-!
DEFINITION. Machine/Frames.lean: what ends a frame's work and what leaves with it: the work deadline, the commit window, STREAM_OUT and the
window of R209 (spec/01_service_model.md R37, spec/02_frames.md R39 to R48, spec/12_faults_and_resets.md R396 to R399).
-/
namespace Sys2Proof.Machine

namespace State

/-- A wait of some core is unmet (R372). -/
def waitsUnmet (s : State) : Bool := s.cores.any (fun e => e.2.waits.any (fun w => !s.waitMet e.1 w.2))

/-- Destinations of a list, each once, in order, as module, context and generation. -/
def destinations (l : List (Nat × Nat × Nat)) : List (Nat × Nat × Nat) := l.foldl (fun a d => if a.contains d then a else a ++ [d]) []

/-- Send the held signals on VC0, 1 to 15 entries of one context to a flit (R48, R320, R321). -/
def sendSignals (s : State) : State :=
  let l := s.fr.signals
  let s : State := { s with fr := { s.fr with signals := [] } }
  (destinations (l.map (fun g => (g.dest, g.ctx, g.gen)))).foldl (fun s d =>
    (groups 15 (l.length / 15 + 1) (l.filter (fun g => decide ((g.dest, g.ctx, g.gen) = d)))).foldl (fun s e =>
      if e = [] then s else s.record d.1 0 512 ([d.2.1, d.2.2] ++ e.flatMap (fun g => [g.core, g.ctr, g.inc, g.bytes]))) s) s

/-- Withdraw the bytes of a killed frame's WRITEs: one flit to each destination module and context, an entry for each region (R399). The
regions of other modules are named by any address within, so bytes are summed by the address they were sent to. -/
def sendWithdrawals (s : State) : State :=
  let l := s.fr.wrote
  let s : State := { s with fr := { s.fr with wrote := [] } }
  (destinations (l.map (fun g => (g.dest, g.ctx, g.gen)))).foldl (fun s d =>
    (groups 15 (l.length / 15 + 1) (l.filter (fun g => decide ((g.dest, g.ctx, g.gen) = d)))).foldl (fun s e =>
      if e = [] then s else s.record d.1 0 7 ([d.2.1, d.2.2] ++ e.flatMap (fun g => [g.addr, g.bytes % 2 ^ 32]))) s) s

/-- Increase of a counter of a width since an earlier reading, saturating at 32 bits (R356). -/
def since (now base width : Nat) : Nat := min ((now + 2 ^ width - base % 2 ^ width) % 2 ^ width) 0xFFFFFFFF

/-- One context record of a STREAM_OUT (R356), big-endian. -/
def ctxRecord (s : State) (c : Nat) : List Byte :=
  let x := s.ctx c
  let l := s.boundSessions c
  beBytes 2 c ++ beBytes 2 (s.seen F.CTX_STATE_GEN c) ++ beBytes 2 l.length ++ beBytes 1 (s.ctxState c) ++ beBytes 1 0 ++ beBytes 8 (s.step c) ++
    beBytes 4 (s.seen F.CTX_LOSS_LOSS c) ++ beBytes 4 (min x.trained 0xFFFFFFFF) ++ beBytes 4 (s.seen F.BLK_DEBT_W_WEIGHTS c) ++
    beBytes 4 (since (s.seen F.NUM_SAT_SAT c) x.base.sat 32) ++ beBytes 4 (since (s.seen F.NUM_ZERO_ZERO c) x.base.zero 32) ++
    beBytes 4 (since (s.seen F.BAND_OVF_OVF c) x.base.ovf 32) ++ beBytes 4 (since (s.seen F.NUM_ESC_ESCALATIONS c) x.base.esc 16) ++ beBytes 4 0 ++
    l.flatMap (fun i => beBytes 2 i ++ beBytes 6 0 ++ beBytes 8 (s.host i).consumed)

/-- The stream header of the tick that opened this frame (R356). -/
def streamHeader (s : State) : List Byte := beBytes 8 s.frame ++ beBytes 8 s.ports.ptpSec ++ beBytes 4 s.ports.ptpNs ++ beBytes 4 0

/-- A STREAM_OUT with the records of contexts (R355, R356); session, port and sequence number are set as it is sent. -/
def streamMsg (s : State) (cs : List Nat) : OutMsg :=
  let b := s.streamHeader ++ cs.flatMap s.ctxRecord
  ⟨5, 0, 0, 0, 0, 0, stOk, 0, 0, cs.length, b.length, .stream b⟩

/-- Contexts that are not FREE, in ascending order. -/
def activeContexts (s : State) : List Nat := (List.range 1024).filter (fun c => decide (s.ctxState c ≠ 0))

end State

/-- WORK_DEADLINE (R41, R400): with work running or a wait unmet the frame is killed, cause 1. -/
def execWorkDeadline (running : Bool) (s : State) : Outcome :=
  .next (if running ∨ s.waitsUnmet = true then s.kill 1 0 0 (s.periodNs - 2000) else s)

/-- COMMIT_WINDOW (R48, R399): held signals and records leave; a killed frame sends withdrawals instead. -/
def execCommitWindow (s : State) : Outcome :=
  .next (if s.phase ≠ 1 then s
    else if s.fr.killed.isSome then s.sendWithdrawals
    else s.sendSignals.sendRecords)

/-- STREAM_OUT (R36, R37, R356, R357, R407): at an opening tick, to the management sessions and to each host session with STREAM set. -/
def execStreamOut (s : State) : Outcome :=
  .next (if s.streamDue then
      let cs := s.activeContexts
      let all := s.streamMsg cs
      let t := s.openMgmt.foldl (fun t i => t.toMgmt i all) s
      let t := cs.foldl (fun t c => (s.streamSessions c).foldl (fun t i => t.toHost i (s.streamMsg [c])) t) t
      t.flushTail.rebaseAll
    else s)

/-- NOSTEP_WINDOW_CLOSE (R209): every context that does not step takes the updates of R166, R174 and R186. -/
def execNostepWindowClose (s : State) : Outcome :=
  .next ((s.ctxs.map (fun e => e.1)).foldl (fun s c =>
    match s.template c with
    | none => s
    | some t =>
      if (s.ctx c).step.isNone ∧ s.commitDue c = true then
        (s.atCommit c (fun s => s.commitLayers c t false)).updCtx c (fun x => { x with roundPos := x.roundPos + 1 })
      else s) s)

end Sys2Proof.Machine
end

