-- ==== Sys2Proof/Machine/MgmtWrite.lean ====
section
/-!
DEFINITION. Machine/MgmtWrite.lean: a MGMT_WRITE of any entries (spec/10_host_ports.md R366, spec/19_management_registers.md R553 to R556).
Entries on command fields act as the commands of their own rows do; all others write their words.
-/
namespace Sys2Proof.Machine

/-- What an entry writes into a field: the masked bits of its value. -/
def Fld.written (f : Fld) (e : WriteEntry) : Nat := f.of (BitVec.ofNat 32 e.value &&& BitVec.ofNat 32 e.mask)

/-- The entry masks some bit of the field. -/
def Fld.masked (f : Fld) (e : WriteEntry) : Bool := decide (f.of (BitVec.ofNat 32 e.mask) ≠ 0)

/-- The entry without the bits of a field. -/
def Fld.without (f : Fld) (e : WriteEntry) : WriteEntry := { e with mask := (f.put (BitVec.ofNat 32 e.mask) 0).toNat }

namespace State

/-- What a command register's own rule holds against an entry, with status and indicator (R406, R501, R522, R542). -/
def mgmtFault (s : State) (e : WriteEntry) : Option (Nat × Nat) :=
  if 0xB000 ≤ e.addr ∧ e.addr < 0xC000 then s.winFault e
  else if e.addr = F.IMG_CTRL_CMD.addr 0 then (if e.mask % 2 ^ 32 ≠ 0 ∧ s.imgBusy = true then some (rejBudget, 7) else none)
  else if e.addr = F.FLT_CTRL_RESET.addr 0 then (if F.FLT_CTRL_RESET.written e = 1 ∧ s.resetAllowed = false then some (errOos, 0) else none)
  else if e.addr = F.SEC_CTRL_LOCK.addr 0 then
    (if F.SEC_CTRL_LOCK.written e = 1 ∧ F.SEC_CTRL_CONFIRM.written e = 0x5A ∧ s.ownerSet = false then some (rejOwner, 0) else none)
  else if e.addr = F.DBG_CTRL_CMD.addr 0 then
    let w := maskedIn (s.reg e.addr) e.value e.mask
    (if F.DBG_CTRL_CMD.written e = 1 ∧ s.debugAllowed (F.DBG_CTRL_FACILITIES.of w) = 0 then some (rejOwner, 0) else none)
  else none

/-- SEC_CTRL (R501, R503, R513): acts with the key 0x5A in the same entry. -/
def applySecCtrl (s : State) (e : WriteEntry) (t : Nat) : State :=
  if F.SEC_CTRL_CONFIRM.written e ≠ 0x5A then s
  else
    let s := if F.SEC_CTRL_QUOTE_GO.written e = 1 then s.askQuote t else s
    let s := if F.SEC_CTRL_SVN_COMMIT.written e = 1 then s.svnCommit else s
    let s := if F.SEC_CTRL_LOCK.written e = 1 then s.askBlow 836 1 1 else s
    if F.SEC_CTRL_DBG_DISABLE.written e ≠ 0 then s.askBlow 832 (F.SEC_CTRL_DBG_DISABLE.written e) 2 else s

/-- IMG_CTRL (R542): SLOT, and CMD with the key 0xA5 in the same entry. -/
def applyImgCtrl (s : State) (e : WriteEntry) : State :=
  let s := s.applyEntry (F.IMG_CTRL_CONFIRM.without (F.IMG_CTRL_CMD.without e))
  let k := s.get F.IMG_CTRL_SLOT 0
  if F.IMG_CTRL_CONFIRM.written e ≠ 0xA5 then s
  else match F.IMG_CTRL_CMD.written e with
    | 1 => s.eraseSlot k
    | 2 => s.sealSlot k
    | 3 => { s with img := { s.img with restart := true } }
    | _ => s

/-- CAL_CTRL (R496): the request's fields, then GO; a reserved scope starts nothing. -/
def applyCalCtrl (s : State) (e : WriteEntry) (session : Nat) : State :=
  let s := s.applyEntry (F.CAL_CTRL_GO.without e)
  if F.CAL_CTRL_GO.written e = 1 ∧ s.get F.CAL_CTRL_SCOPE 0 ≤ 5 then
    s.calStart session (s.get F.CAL_CTRL_SCOPE 0) (s.get F.CAL_CTRL_UNIT 0) (decide (s.get F.CAL_CTRL_PATTERN 0 = 1))
  else s

/-- DBG_CTRL (R522, R524): the request's fields, then CMD. -/
def applyDbgCtrl (s : State) (e : WriteEntry) (session : Nat) : State :=
  let s := s.applyEntry (F.DBG_CTRL_CMD.without e)
  match F.DBG_CTRL_CMD.written e with
  | 1 => s.openDebug (session - 0xFFF0) (s.get F.DBG_CTRL_FACILITIES 0) (s.get F.DBG_CTRL_PURPOSE 0)
  | 2 => s.debugClose 1
  | _ => s

/-- Registers of one context (R264, R384, R456). -/
def applyCtxEntry (s : State) (c : Nat) (e : WriteEntry) : State :=
  if e.addr = F.CTX_CTRL_CMD.addr c then
    let k := F.CTX_CTRL_CMD.written e
    let s := s.applyEntry (F.CTX_CTRL_CMD.without e)
    if 1 ≤ k ∧ k ≤ 3 then s.command c k else s
  else if e.addr = F.CTX_TRAIN_PAUSE.addr c then
    (if F.CTX_TRAIN_PAUSE.masked e then s.pauseTo c (decide (F.CTX_TRAIN_PAUSE.written e = 1)) else s)
  else if e.addr = F.CKPT_RESTORE_SOURCE.addr c then
    let k := F.CKPT_RESTORE_SOURCE.written e
    (if k = 1 ∨ k = 2 then s.restoreCommand c k else s)
  else s.applyEntry e

/-- Apply one admitted entry (R366, R555). -/
def applyMgmt (r : Req) (e : WriteEntry) (s : State) : State :=
  let a := e.addr
  if 0x400000 ≤ a ∧ a < 0x420000 then s.applyHsess e
  else if 0x300000 ≤ a ∧ a < 0x340000 then s.applyCtxEntry ((a - 0x300000) / 0x100) e
  else if 0xB000 ≤ a ∧ a < 0xC000 then s.program e
  else if a = F.SEC_CTRL_LOCK.addr 0 then s.applySecCtrl e (s.now + r.t)
  else if a = F.SEC_CRED_EPOCH_EPOCH.addr 0 then s.raiseEpoch e.value e.mask
  else if a = F.IMG_CTRL_CMD.addr 0 then s.applyImgCtrl e
  else if a = F.CAL_CTRL_GO.addr 0 then s.applyCalCtrl e r.session
  else if a = F.DBG_CTRL_CMD.addr 0 then s.applyDbgCtrl e r.session
  else if a = F.FLT_CTRL_RESET.addr 0 then
    let s := if F.FLT_CTRL_RESET.written e = 1 then s.askReset else s
    if F.FLT_CTRL_OOS.written e = 1 then s.oosNext 5 else s
  else match (List.range 32).find? (fun p => decide (a = F.LNK_CTRL_RETRAIN.addr p)) with
    | some p =>
      let s := if F.LNK_CTRL_RETRAIN.written e = 1 then s.retrain p else s
      if F.LNK_CTRL_UNFENCE.written e = 1 then s.unfence p else s
    | none => match (List.range 2).find? (fun p => decide (a = F.ETH_SA_CTRL_INSTALL.addr p)) with
      | some p => (s.applyEntry (F.ETH_SA_CTRL_INSTALL.without e)).install_ p (F.ETH_SA_CTRL_INSTALL.written e)
      | none => s.applyEntry e

end State

/-- MGMT_WRITE (R366, R554, R555): entry by entry, entirely or not at all. -/
def execMgmtWrite (r : Req) (entries : List WriteEntry) (s : State) : Outcome :=
  .next (s.writeRequest r entries State.mgmtFault (State.applyMgmt r))

end Sys2Proof.Machine
end

