-- ==== Sys2Proof/Machine/Ownership.lean ====
section
/-!
DEFINITION. Machine/Ownership.lean: management sessions, claims, lease and handover (spec/10_host_ports.md R360 to R366).
-/
namespace Sys2Proof.Machine

namespace State

/-- Index of the owner session, none without an owner (R19). -/
def ownerIdx (s : State) : Option Nat := (List.range 8).find? (fun i => decide (s.get F.OWN_SESS_STATE i = 2))

/-- Owner session number as messages carry it, or 0xFFFF (R355, R365). -/
def ownerNum (s : State) : Nat := match s.ownerIdx with | some i => 0xFFF0 + i | none => 0xFFFF

/-- Lowest free management session (R362). -/
def freeMgmt (s : State) : Option Nat := (List.range 8).find? (fun i => decide (s.get F.OWN_SESS_STATE i = 0))

/-- EVENT OWN_CHANGED for a session (R365). -/
def ownChanged (s : State) (i : Nat) : State := s.eventD0 0x0307 7 (0xFFF0 + i) s.ownerNum

/-- Change a session's state and report it (R365). -/
def setSess (s : State) (i st : Nat) : State := (s.put F.OWN_SESS_STATE i st).ownChanged i

/-- Close a session (R362). -/
def closeSess (s : State) (i : Nat) : State :=
  ((s.put F.OWN_SESS_STATE i 0).put F.OWN_SESS_OWNER_ROLE i 0 |>.updMgmt i (fun _ => MgmtSess.empty)).ownChanged i

/-- Answer of a CLAIM: ARG0 bit 0 says that this session is owner, ARG1 names the owner (R355). -/
def claimAnswer (s : State) (c : Claim) (session st : Nat) : OutMsg :=
  { answer 0x0B c.req ⟨st, 0, if s.ownerNum = session then 1 else 0⟩ s.ownerNum with session := session }

/-- Hold a claim's answer for the tick (R358). -/
def answerClaim (s : State) (c : Claim) (session st : Nat) : State := s.hold 2 (s.claimAnswer c session st)

/-- Take a verified claim's nonce and role into its session (R363, R365). -/
def refresh (s : State) (i : Nat) (c : Claim) (owner : Bool) : State :=
  let serial := match c.verdict with | some v => v.serial | none => 0
  (s.put F.OWN_SESS_OWNER_ROLE i (if owner then 1 else 0)).updMgmt i (fun x => { x with nonce := c.nonce, serial := serial })

/-- Open a session for a claim on 0xFFFF, bound to the claim's source (R362). -/
def openSess (s : State) (i st : Nat) (c : Claim) (owner : Bool) : State :=
  ((s.updMgmt i (fun _ => { MgmtSess.empty with
      addr := c.req.addr, v6 := c.req.v6, udp := c.req.udp, lastMsg := c.arrived, lastPort := c.req.port })).refresh i c owner).setSess i st

/-- The claim's frame, its low 32 bits, lies within ⌊10 s / P⌋ frames of its arrival, and its nonce is new (R363). -/
def claimTimely (s : State) (c : Claim) : Bool :=
  let d := (c.frame + 2 ^ 32 - c.req.arg1 % 2 ^ 32) % 2 ^ 32
  (decide (d ≤ 10 ^ 10 / s.periodNs) || decide (2 ^ 32 ≤ d + 10 ^ 10 / s.periodNs)) && !s.ports.nonces.contains c.nonce

/-- Set the waiting claims. -/
def setClaims (s : State) (l : List Claim) : State := { s with ports := { s.ports with claims := l } }

/-- Set the lease's start. -/
def setLease (s : State) (t : Nat) : State := { s with ports := { s.ports with lease := t } }

/-- Admit a claim that needs verification (R363, R365): format faults on 0xFFFF are dropped and counted. -/
def claim (s : State) (own : Bool) (r : Req) (nonce cred : Nat) : State :=
  let parses := proofParses cred r.len
  let mode := if own then 1 else 0
  let okArgs := decide (r.ctx = 0) && decide (r.gen = 0) && decide (r.arg0 = mode)
  let okLen := decide (72 ≤ r.len) && decide (r.len ≤ 32768)
  let c : Claim := ⟨own, r, nonce, s.frame, s.now + r.t, cred, if parses then none else some ⟨false, false, 0⟩⟩
  if r.session = 0xFFFF then
    if okArgs && okLen && parses then (if s.room2 then (s.queue2).setClaims (s.ports.claims ++ [c]) else s)
    else s.bump F.ETH_DROP_SESSION r.port 1
  else s.withRequest 0x0B r (fun s =>
    s.decide_ 0x0B r (firstFail [(okArgs, verdict rejFormat), (isMgmt r.session, verdict rejOwner), (okLen, verdict rejLen),
      (s.room2, budget 7)]) (fun s =>
        (if parses then s.queue2 else (s.queue2).bump F.SEC_STAT_CRED_REFUSED 0 1).setClaims (s.ports.claims ++ [c])))

/-- Verdict on a claim's proof (R363, R510): its signatures, its credential, its age and nonce, and for OWN the owner role. -/
def verdictOf (s : State) (c : Claim) (signatures : Bool) : ProofVerdict :=
  match Credential.read c.cred with
  | none => ⟨false, false, 0⟩
  | some x => ⟨signatures && s.credentialStands false x && s.claimTimely c && (!c.own || decide (x.role = 1)), decide (x.role = 1), x.serial⟩

/-- Record a claim's verdict; a failed proof on 0xFFFF is discarded and counted (R365). -/
def proved (s : State) (c : Claim) (v : ProofVerdict) : State :=
  let good := v.good
  let s := if good then { s with ports := { s.ports with nonces := s.ports.nonces ++ [c.nonce] } }
    else s.bump F.SEC_STAT_CRED_REFUSED 0 1
  if good = false ∧ c.req.session = 0xFFFF then s.setClaims (s.ports.claims.erase c)
  else s.setClaims (s.ports.claims.map (fun x => if x = c then { x with verdict := some v } else x))

/-- Decide one claim to own at its turn (R364, R365). -/
def decideOwn (s : State) (c : Claim) : State :=
  match c.verdict with
  | none => s
  | some v =>
    if v.good = false then s.answerClaim c c.req.session rejCredential
    else if c.req.session = 0xFFFF then
      match s.freeMgmt with
      | none => s.answerClaim c 0xFFFF rejSessions
      | some i =>
        if s.ownerIdx = none then
          let s := ((s.openSess i 2 c v.owner).setLease s.now)
          s.answerClaim c (0xFFF0 + i) stOk
        else (s.openSess i 1 c v.owner).answerClaim c (0xFFF0 + i) rejOwned
    else
      let i := c.req.session - 0xFFF0
      if s.get F.OWN_SESS_STATE i = 0 then s.answerClaim c c.req.session rejOwner
      else
        let s := s.refresh i c v.owner
        if s.ownerIdx = some i then ((s.setLease s.now)).answerClaim c c.req.session stOk
        else if s.ownerIdx = none then (((s.setSess i 2).setLease s.now)).answerClaim c c.req.session stOk
        else s.answerClaim c c.req.session rejOwned

end State

/-- Order of a group (R364): lowest nonce first, then lowest session. -/
def Claim.before (a b : Claim) : Bool :=
  decide (a.nonce < b.nonce) || (decide (a.nonce = b.nonce) && decide (a.req.session ≤ b.req.session))

namespace State

/-- Decide a whole group of claims: the owner's own claim first, then in the order of R364. -/
def decideGroup (s : State) (g : List Claim) : State :=
  let mine := g.filter (fun c => decide (some (c.req.session - 0xFFF0) = s.ownerIdx ∧ isMgmt c.req.session))
  let rest := sortBy Claim.before (g.filter (fun c => !mine.contains c))
  (mine ++ rest).foldl (fun s c => s.decideOwn c) s

/-- Claims to own, group by group of their arrival frame, the earliest first; an undecided group holds the later ones back (R364). -/
def ownGroups (s : State) : Nat → State
  | 0 => s
  | k + 1 =>
    match s.ports.claims.filter (fun c => c.own) with
    | [] => s
    | c :: r =>
      let f := r.foldl (fun m x => min m x.frame) c.frame
      let g := (c :: r).filter (fun x => decide (x.frame = f))
      if g.all (fun x => x.verdict.isSome) then
        ((s.setClaims (s.ports.claims.filter (fun x => !g.contains x))).decideGroup g).ownGroups k
      else s

/-- Decide one verified claim to observe (R364, R365). -/
def decideObserve (s : State) (c : Claim) : State :=
  match c.verdict with
  | none => s
  | some v =>
    if v.good = false then s.answerClaim c c.req.session rejCredential
    else if c.req.session = 0xFFFF then
      match s.freeMgmt with
      | none => s.answerClaim c 0xFFFF rejSessions
      | some i => (s.openSess i 1 c v.owner).answerClaim c (0xFFF0 + i) stOk
    else
      let i := c.req.session - 0xFFF0
      if s.get F.OWN_SESS_STATE i = 0 then s else (s.refresh i c v.owner).answerClaim c c.req.session stOk

/-- Claims to observe that have verified, in order of arrival (R364). -/
def observeClaims (s : State) : State :=
  let ready := s.ports.claims.filter (fun c => !c.own && c.verdict.isSome)
  (sortBy (fun a b => decide (a.arrived ≤ b.arrived)) ready).foldl (fun s c => s.decideObserve c)
    (s.setClaims (s.ports.claims.filter (fun c => !ready.contains c)))

/-- Hold an ownership request's answer. -/
def answerOwn (s : State) (q : OwnReq) (st : Nat) : State :=
  s.hold 2 (answer (if q.kind = 2 then 0x0D else 0x0C) q.req (verdict st) 0)

/-- Apply one RELEASE or HANDOVER at its turn (R364, R365). -/
def applyOwn (s : State) (q : OwnReq) : State :=
  let i := q.req.session - 0xFFF0
  if q.kind = 1 then
    if s.get F.OWN_SESS_STATE i = 0 then s else (s.closeSess i).answerOwn q stOk
  else if s.ownerIdx ≠ some i then s.answerOwn q rejOwner
  else if q.kind = 0 then (s.setSess i 1).answerOwn q stOk
  else
    let j := q.req.arg0 - 0xFFF0
    if isMgmt q.req.arg0 ∧ s.get F.OWN_SESS_STATE j = 1 ∧ s.get F.OWN_SESS_OWNER_ROLE j = 1 then
      ((((s.put F.OWN_SESS_STATE i 1).put F.OWN_SESS_STATE j 2).setLease s.now |>.ownChanged i).ownChanged j).answerOwn q stOk
    else s.answerOwn q rejSuccessor

/-- The lease lapses 5 s after its start (R364). -/
def leaseStep (s : State) : State :=
  match s.ownerIdx with
  | none => s
  | some i => if s.ports.lease + 5 * 10 ^ 9 ≤ s.now then s.setSess i 1 else s

/-- A session without a message for 30 s closes (R362). -/
def idleStep (s : State) (i : Nat) : State :=
  if s.get F.OWN_SESS_STATE i ≠ 0 ∧ (s.mgmt i).lastMsg + 30 * 10 ^ 9 ≤ s.now then s.closeSess i else s

/-- OWN_STATE and the sessions' IDLE seconds as the tick shows them (R367). -/
def ownRegs (s : State) : State :=
  let s := (s.put F.OWN_STATE_OWNER 0 s.ownerNum).put F.OWN_STATE_OPEN 0 s.openMgmt.length
  let left := if s.ownerIdx = none then 0 else (s.ports.lease + 5 * 10 ^ 9 - s.now) * 32 / 10 ^ 9
  let s := s.put F.OWN_STATE_LEASE 0 left
  s.openMgmt.foldl (fun s i => s.put F.OWN_SESS_IDLE i (min 255 ((s.now - (s.mgmt i).lastMsg) / 10 ^ 9))) s

/-- OWNERSHIP_DECISION at a tick (R364): requests, lease, claims to own, claims to observe, idle closures, in that order. -/
def ownershipTick (s : State) : State :=
  let s := s.ports.requests.foldl (fun s q => s.applyOwn q) { s with ports := { s.ports with requests := [] } }
  let s := s.leaseStep
  let s := s.ownGroups s.ports.claims.length
  let s := s.observeClaims
  let s := (List.range 8).foldl (fun s i => s.idleStep i) s
  s.ownRegs

end State

/-- CLAIM_OBSERVE (R363, R365). -/
def execClaimObserve (r : Req) (nonce cred : Nat) (s : State) : Outcome := .next (s.claim false r nonce cred)

/-- CLAIM_OWN (R363, R364). -/
def execClaimOwn (r : Req) (nonce cred : Nat) (s : State) : Outcome := .next (s.claim true r nonce cred)

/-- RENEW (R363, R365): from the owner, with the session nonce; the lease restarts at the arrival. -/
def execRenew (r : Req) (nonce : Nat) (s : State) : Outcome :=
  .next (s.withRequest 0x0B r (fun s =>
    let i := r.session - 0xFFF0
    s.decide_ 0x0B r (firstFail [(decide (r.ctx = 0 ∧ r.gen = 0 ∧ r.arg0 = 2), verdict rejFormat),
        (s.isOwner r, verdict rejOwner), (decide (r.len = 8), verdict rejLen), (s.room2, budget 7),
        (decide ((s.mgmt i).nonce = nonce), verdict rejCredential)])
      (fun s => (((s.queue2).setLease (s.now + r.t))).accept 0x0B 2 r 1 r.session)))

/-- CLAIM_PROOF_VERIFIED (R363, R510): CP3's verdict on the claim that it names, from the root signature and the credential signature. -/
def execClaimProofVerified (session tag nonce : Nat) (v : SignatureCheck) (s : State) : Outcome :=
  .next (match s.ports.claims.find? (fun c => decide (c.req.session = session ∧ c.req.tag = tag ∧ c.nonce = nonce ∧ c.verdict = none)) with
    | none => s
    | some c => s.proved c (s.verdictOf c (v.rootOk && v.credOk)))

/-- RELEASE (R365): judged at the tick. -/
def execRelease (r : Req) (s : State) : Outcome :=
  .next (s.withRequest 0x0C r (fun s =>
    s.decide_ 0x0C r (firstFail [(State.zeroArgs r 0, verdict rejFormat), (s.isOwner r, verdict rejOwner), (s.room2, budget 7), (decide (r.len = 0), verdict rejLen)])
      (fun s => { s.queue2 with ports := { s.ports with requests := s.ports.requests ++ [⟨0, r⟩] } })))

/-- RELEASE_CLOSE (R365): an observer may close its own session. -/
def execReleaseClose (r : Req) (s : State) : Outcome :=
  .next (s.withRequest 0x0C r (fun s =>
    s.decide_ 0x0C r (firstFail [(State.zeroArgs r 1, verdict rejFormat), (isMgmt r.session, verdict rejOwner), (s.room2, budget 7), (decide (r.len = 0), verdict rejLen)])
      (fun s => { s.queue2 with ports := { s.ports with requests := s.ports.requests ++ [⟨1, r⟩] } })))

/-- HANDOVER (R365): judged at the tick. -/
def execHandover (r : Req) (s : State) : Outcome :=
  .next (s.withRequest 0x0D r (fun s =>
    s.decide_ 0x0D r (firstFail [(State.zeroArgs r 16, verdict rejFormat), (s.isOwner r, verdict rejOwner), (s.room2, budget 7),
      (decide (r.len = 0), verdict rejLen)])
      (fun s => { s.queue2 with ports := { s.ports with requests := s.ports.requests ++ [⟨2, r⟩] } })))

/-- LEASE_EXPIRY (R364). -/
def execLeaseExpiry (s : State) : Outcome := .next s.leaseStep

/-- SESSION_IDLE_CLOSE (R362). -/
def execSessionIdleClose (session : Nat) (s : State) : Outcome :=
  .next (if isMgmt session then s.idleStep (session - 0xFFF0) else s)

end Sys2Proof.Machine
end

