-- ==== Sys2Proof/Machine/Silent.lean ====
section
/-!
DEFINITION. Machine/Silent.lean: weight digests, sampled duplicate execution, observation and margin frames (spec/13_silent_errors.md). The
digests of tiles and the outcome of a known-answer test are operands (log entry 10).
-/
namespace Sys2Proof.Machine

/-- A frame number from its FTAG, at or before frame n (R317). -/
def frameOfTag (n tag : Nat) : Nat := n - (n + 16 - tag % 16) % 16

/-- The largest group of members with one digest. -/
def largestGroup (l : List (Nat × Nat)) : List Nat :=
  l.foldl (fun best d =>
    let g := (l.filter (fun e => decide (e.2 = d.2))).map (fun e => e.1)
    if best.length < g.length then g else best) []

namespace State

/-! Weight digests (R429 to R432). -/

/-- A scope-1 digest of a member for the last committed step (R431): with the last one they are compared. -/
def takeFull (s : State) (c : Nat) (t : Template) (member d : Nat) : State :=
  let step := s.stepNo c - 1
  let s := s.updExch c (fun e =>
    let old := if e.fullStep = step then e.full.filter (fun x => decide (x.1 ≠ member)) else []
    { e with fullStep := step, full := old ++ [(member, d)] })
  let e := (s.ctx c).exch
  if (s.aliveGroup c t).all (fun i => e.full.any (fun x => decide (x.1 = i))) then
    let s := s.bump F.FLT_DIGEST_COMPARES c ((s.aliveGroup c t).length - 1)
    if s.fullAgreed c t then s.tryVote c t else s.dispute c s.frame
  else s

/-- A received DIGEST (R429, R430, R431). -/
def takeDigest (s : State) (o : DigestMsg) : State :=
  let c := o.head.ctx
  match s.template c with
  | none => s
  | some t =>
    if o.scope = 1 ∧ s.fullDue c = true ∧ o.step = (s.stepNo c - 1) % 2 ^ 48 then s.takeFull c t o.sender o.d1
    else if s.current c o.step o.attempt = false then s.staleRec c
    else
      let s := s.updExch c (fun e => { e with digests := e.digests ++ [⟨o.scope, o.sender, o.subject, o.d1, o.d2⟩] })
      if o.scope = 0 then (s.compareOwner c t o.sender).tryVote c t
      else if o.scope = 2 then
        (s.dispute c (frameOfTag s.frame o.head.ftag)).updExch c (fun e => { e with disputes := e.disputes ++ [(o.sender, o.subject)] })
      else s

/-- The disagreeing set of R432. -/
def oddSet (s : State) (c : Nat) (t : Template) : List Nat :=
  let e := (s.ctx c).exch
  let alive := s.aliveGroup c t
  match e.disputes with
  | (_, x) :: _ =>
    let ds := (e.disputes.filter (fun d => decide (d.2 = x))).map (fun d => d.1)
    if (alive.filter (fun i => decide (i ≠ x))).length < 2 * ds.length then [x] else ds
  | [] => let g := largestGroup e.full; alive.filter (fun i => !g.contains i)

/-- Every member of the set is reported lost and expelled (R432). -/
def expel (s : State) (c : Nat) (t : Template) (l : List Nat) : State :=
  l.foldl (fun s i =>
    let s := ((s.reportLostIn c (t.group.getD i 0)).bump F.FLT_DIGEST_EXPELLED c 1).raise F.FLT_SE_EVT_EXPELLED 0
    s.finding 7 none 6 c i) s

/-- The decision of R432. -/
def digestDecide (s : State) (c : Nat) (t : Template) : State :=
  let e := (s.ctx c).exch
  let odd := s.oddSet c t
  let scope1 := decide (e.disputes = [])
  let again := fun (s : State) =>
    let s := s.updExch c (fun e => { e with tries := e.tries + 1 })
    if scope1 then s.updExch c (fun e => { e with full := [] }) else s
  let minority := decide (2 * odd.length < (s.aliveGroup c t).length)
  let out := if minority then
      (if e.tries = 0 then (again s).sendAbandon c else s.expel c t odd)
    else if e.tries = 0 then
      let s := ((again s).bump F.FLT_DIGEST_HELD c 1).raise F.FLT_SE_EVT_DIGEST_HELD 0
      if scope1 then s else s.sendAbandon c
    else (s.finding 7 none 6 c 0x1FFFF).faultCtx c 6
  out.updExch c (fun e => { e with digestAt := none, disputes := [] })

/-! Sampled duplicate execution (R420 to R422). -/

/-- The candidate was picked for this frame's plan. -/
def picked (s : State) (core item : Nat) : Bool :=
  match s.fr.plans with | p :: _ => p.dup.contains (core, item) | [] => false

/-- Take a pick out of the plan. -/
def unpick (s : State) (core item : Nat) : State :=
  match s.fr.plans with
  | p :: r => { s with fr := { s.fr with plans := { p with dup := p.dup.filter (fun d => decide (d ≠ (core, item))) } :: r } }
  | [] => s

/-- A duplicate mismatch kills the frame, and a referee decides in its re-execution (R422). -/
def dupMismatch (s : State) (o : DupOp) : State :=
  let s := (s.bump F.FLT_DUP_MISMATCH o.core 1).raise F.FLT_SE_EVT_DUP_MISMATCH 0
  let s := s.kill 5 o.core o.engine o.t
  { s with flt := { s.flt with referee := some ⟨o.core, o.item, o.other, o.orig, o.dup, o.engine⟩ } }

/-- Finding kind 1 that names a core (R417, R422). -/
def dupFinding (s : State) (p : Nat) : State := s.finding 1 (some p) 2 p s.frame

end State

/-- DIGEST (R429). -/
def execDigest (o : DigestMsg) (s : State) : Outcome := .next (s.heard o.head (s.takeDigest o))

/-- FULL_DIGEST (R431): the module digests its committed masters and sends them, once per request. -/
def execFullDigest (ctx : Nat) (s : State) : Outcome :=
  .next (match s.template ctx with
    | none => s
    | some t =>
      let step := s.stepNo ctx - 1
      let e := (s.ctx ctx).exch
      if t.multi = false ∨ s.fullDue ctx = false ∨ (e.fullStep = step ∧ e.full.any (fun x => decide (x.1 = s.ownIdx t)) = true) then s
      else
        let d := s.fullDigest ctx t step
        (s.sendDigest ctx t step 1 0 d 0 0).takeFull ctx t (s.ownIdx t) d)

/-- DIGEST_DECISION (R432): at T(f + 2). -/
def execDigestDecision (ctx : Nat) (s : State) : Outcome :=
  .next (match s.template ctx, (s.ctx ctx).exch.digestAt with
    | some t, some n => if n ≤ s.frame + 1 then s.digestDecide ctx t else s
    | _, _ => s)

/-- DUPLICATE_COMPARE (R421, R422): by the work deadline; a duplicate that could not be charged or completed is dropped. -/
def execDuplicateCompare (o : DupOp) (s : State) : Outcome :=
  .next (
    if s.picked o.core o.item = false ∨ o.core / 48 = o.other / 48 then s
    else
      let s := s.unpick o.core o.item
      if o.ran = false then s.bump F.FLT_DUP_SKIPPED o.core 1
      else
        let s := s.bump F.FLT_DUP_DUPLICATED o.core 1
        if o.orig = o.dup then s else s.dupMismatch o)

/-- DUPLICATE_REFEREE (R422): the re-execution's digests O2 and R2, on a die other than those of both cores. -/
def execDuplicateReferee (o : DupOp) (s : State) : Outcome :=
  .next (match s.flt.referee with
    | none => s
    | some d =>
      if o.core ≠ d.core ∨ o.item ≠ d.item ∨ o.other / 48 = d.core / 48 ∨ o.other / 48 = d.other / 48 then s
      else
        let s : State := { s with flt := { s.flt with referee := none } }
        if o.orig ≠ o.dup then (s.dupFinding d.core).dupMismatch o
        else if o.orig = d.second then s.dupFinding d.core
        else if o.orig = d.first then s.dupFinding d.other
        else (s.dupFinding d.core).dupFinding d.other)

/-- OBSERVATION_EXPIRY (R417, R418). -/
def execObservationExpiry (core t : Nat) (s : State) : Outcome :=
  .next (match (s.core core).obsUntil with
    | some n =>
      if n ≤ s.now + t then
        ((s.updCore core (fun x => { x with obsUntil := none })).put F.FLT_CORE_OBSERVED core 0).put F.FLT_OBS_OBS_LEFT core 0
      else s
    | none => s)

/-- MARGIN_FRAME (R433, R434): in the frame before a margin frame CP1 names its core: the next one of the round in ascending number, or an
observed one that the round visits again. -/
def execMarginFrame (core : Nat) (s : State) : Outcome :=
  .next (
    let every := max 1 (s.pol 0x68)
    let due := (List.range 192).filter (fun p => decide (s.get F.FLT_CORE_ROLE p = 0))
    let next := due.find? (fun p => decide (s.flt.marginNext ≤ p))
    let seen := tget 0 s.flt.marginVisits core
    if s.phase ≠ 1 ∨ (s.frame + 1) % every ≠ 0 ∨ s.flt.marginCore.isSome = true then s
    else if next = some core then
      { s with flt := { s.flt with marginCore := some core, marginNext := core + 1, marginVisits := tset 0 s.flt.marginVisits core (seen + 1) } }
    else if due.contains core = true ∧ s.get F.FLT_CORE_OBSERVED core = 1 ∧ seen < 8 then
      { s with flt := { s.flt with marginCore := some core, marginVisits := tset 0 s.flt.marginVisits core (seen + 1) } }
    else if next = none ∧ due.head? = some core then
      { s with flt := { s.flt with marginCore := some core, marginNext := core + 1, marginVisits := [(core, 1)], marginOdd := !s.flt.marginOdd } }
    else s)

/-- KNOWN_ANSWER_TEST (R435): in its margin frame the core runs the test set; `failed` names the first failed test. -/
def execKnownAnswerTest (core : Nat) (failed : Option Nat) (s : State) : Outcome :=
  .next (
    if s.flt.marginRun ≠ some (core, false) ∨ s.phase ≠ 1 then s
    else
      let s : State := { s with flt := { s.flt with marginRun := some (core, true) } }
      let s := s.bump F.FLT_MARGIN_VISITS core 1
      match failed with
      | none => s
      | some n =>
        let s := ((s.bump F.FLT_MARGIN_FAILS core 1).put F.FLT_MARGIN_LAST_TEST core n).raise F.FLT_SE_EVT_MARGIN 0
        s.finding 3 (some core) 2 core (n % 2 ^ 16 + if s.flt.marginOdd then 2 ^ 16 else 0))

end Sys2Proof.Machine
end

