-- ==== Sys2Proof/Machine/Tick.lean ====
section
/-!
DEFINITION. Machine/Tick.lean: the tick: what the closing frame commits and releases, the advance of frame number and time, and the plan
of the frame that opens (spec/02_frames.md R38 to R74).
-/
namespace Sys2Proof.Machine

namespace State

/-! Releases (R45). -/

/-- The answer to a query at its release (R28, R68, R184, R355): k points with NUM_SPLIT_LATE where time went beyond a charge here, or on
another module of the path, or LNK_DOWN where path data was lost (log entry 43). -/
def resultMsg (s : State) (short : List (Nat × Nat × Bool)) (step : Nat) (q : PlacedQuery) : OutMsg :=
  if q.refused then s.refuseResult q
  else
    let cut := short.find? (fun e => decide (e.1 = q.num) && decide (e.2.1 < q.points) && (decide (0 < q.cross) || decide (s.fr.ledger.extra ≠ [])))
    let k := match cut with | some e => e.2.1 | none => q.points
    let st := match cut with
      | some e => if e.2.2 && decide (0 < q.cross) then 0x0701 else 0x0603
      | none => if q.clamped then 0x0602 else stOk
    ⟨2, q.port, q.session, q.tag, q.ctx, q.gen, st, 0, (s.frame + 1) % 2 ^ 32, step % 2 ^ 32, k * q.outBytes, .result q.num k⟩

/-- Answer the queries that are due at the closing tick; those of longer paths fly on (R73, R74). The executed plan goes. -/
def answerQueries (s : State) (short : List (Nat × Nat × Bool)) : State :=
  let ran := match s.fr.plans with | p :: _ => p.queries | [] => []
  let due := (ran.filter (fun q => decide (q.cross = 0))).map (fun q => (q, s.step q.ctx)) ++
    (s.fr.flying.filter (fun f => decide (f.left = 0))).map (fun f => (f.query, f.step))
  let fly := (ran.filter (fun q => decide (q.cross ≠ 0))).map (fun q => (⟨q, q.cross - 1, s.step q.ctx⟩ : Flying)) ++
    (s.fr.flying.filter (fun f => decide (f.left ≠ 0))).map (fun f => { f with left := f.left - 1 })
  let s := due.foldl (fun s e => s.holdResult e.1.num (s.resultMsg short e.2 e.1)) s
  { s with fr := { s.fr with
    plans := s.fr.plans.drop 1, flying := fly, xfer := s.fr.xfer.filter (fun x => decide (s.frame < x.2.1)) } }

/-- A killed frame's plan stays in front, and everything promised moves one frame later (R54). -/
def keepPlan (s : State) : State :=
  { s with fr := { s.fr with
    plans := if s.fr.plans = [] then [emptyPlan s.frame] else s.fr.plans, xfer := s.fr.xfer.map (fun x => (x.1, x.2.1 + 1, x.2.2)) } }

/-- Send what the frame held, in the order of R45: results, class 1, then class 2, to which the tick's own EVENTs belong; a result diverted to
the other port comes after that port's own (R358). `n` is the length that the list of sent messages had before the tick. Where a STREAM_OUT is
due at this tick, the class-2 messages wait behind it (log entry 199). -/
def release (s : State) (n : Nat) : State :=
  let own := s.sent.drop n
  let events := own.filterMap (fun w => match w with | .trp _ m => some m | _ => none)
  let wires := own.filter (fun w => match w with | .trp _ _ => false | _ => true)
  let results := sortBy (fun (a b : HeldMsg) => decide (a.num ≤ b.num)) (s.fr.held.filter (fun h => decide (h.cls = 0)))
  let first := results.filter (fun h => s.portUp (h.msg.port % 2)) ++ results.filter (fun h => !s.portUp (h.msg.port % 2))
  let one := s.fr.held.filter (fun h => decide (h.cls = 1))
  let tail := events ++ (s.fr.held.filter (fun h => decide (2 ≤ h.cls))).map (fun h => h.msg)
  let s := ({ s with sent := s.sent.take n ++ wires, fr := { s.fr with held := [] } } : State).flushTail
  let s := s.sendAll ((first ++ one).map (fun h => h.msg))
  let s : State := { s with fr := { s.fr with tail := tail } }
  if s.streamDue then s else s.flushTail

/-! What the closing frame commits (R43, R397). -/

/-- Send the next message of an export in progress, paced by the class-1 share of the port (R453, R455). -/
def exportStep (s : State) (c : Nat) (x : ExportRun) : State × ExportRun :=
  let gen := if x.ckpt = 0 then (((s.ctx c).ckpt.latest.map (fun g => g.gen)).getD 0) else x.ckpt
  let x := { x with ckpt := gen }
  let gap := if x.sent = 0 then 0 else 2 ^ 26 * 100 / (50 * max 1 (s.share 2))
  if x.busy = false ∨ gen = 0 ∨ s.tickTime < x.lastSent + gap then (s, x)
  else
    let n := min (2 ^ 26) (x.length - x.sent)
    (s.hold 1 (s.exportMsg c x x.sent n),
      { x with sent := x.sent + n, lastSent := s.tickTime, busy := decide (x.sent + n < x.length) })

/-- The exports of a context at the tick. -/
def exportTick (s : State) (c : Nat) : State :=
  if s.exports c = [] ∨ s.phase ≠ 1 then s
  else
    let r := (s.exports c).foldl (fun (a : State × List ExportRun) x =>
      let y := a.1.exportStep c x
      (y.1, a.2 ++ [y.2])) (s, [])
    r.1.setExports c r.2

/-- Static-list entries due at the tick, the weights of substituted layers narrowed anew after a step and at the layer's entry (R186), and
sub-pass charges raised in the frame (R68, R179). -/
def layerTick (s : State) (c : Nat) : State :=
  match s.template c with
  | none => s
  | some t =>
    let s := t.layers.zipIdx.foldl (fun s p =>
      let due := ((s.layer c p.2).joining.filter (fun e => decide (e.2 ≤ s.frame + 1))).map (fun e => e.1)
      if due = [] then s
      else
        let s := s.updLayer c p.2 (fun z => { z with joining := z.joining.filter (fun e => decide (s.frame + 1 < e.2)) })
        p.1.batts.foldl (fun s b => due.foldl (fun s r => s.joinStatic (s.battOf b) r true) s) s) s
    let stepped := decide (s.get F.CTX_STEP_LO_STEP_LO c ≠ s.seen F.CTX_STEP_LO_STEP_LO c)
    let s := t.layers.zipIdx.foldl (fun s p =>
      let z := s.layer c p.2
      if (z.rescale || z.refLost || decide (0 < z.fallback)) && (stepped || !s.substituted c p.2) then
        (s.weightClimbs c p.2 p.1).foldl (fun s e => s.escalate c p.2 e.1 5 e.2) s
      else s) s
    s.updCtx c (fun x => { x with layers := x.layers.map (fun e => (e.1, { e.2 with raised := e.2.raised + e.2.raising, raising := 0 })) })

/-- A context's VTIME rises by the class-1 energy charged to it, in nJ, x 16 / WEIGHT (R386). -/
def chargeVtime (s : State) : State :=
  match s.fr.plans with
  | [] => s
  | p :: _ => p.charged1.foldl (fun s e =>
      let w := max 1 (s.seen F.CTX_CTRL_WEIGHT e.1)
      s.updCtx e.1 (fun x => { x with vtime := x.vtime + e.2 * 16 / (30000 * w) })) s

/-- W1C writes of the frame take effect; bits that the module set in it stay (R555). A cleared MON_LIMIT bit lets its channel be announced
again (R481), a cleared REF_FAIL returns REF_DISCARDS to 0 (R115). -/
def clearBits (s : State) : State :=
  let l := s.clears
  let s := l.foldl (fun s e => s.setReg e.1 ((s.reg e.1 &&& ~~~e.2) ||| tget 0 s.raised e.1)) s
  let s := l.foldl (fun s e =>
    let b := (e.1 - F.BATT_EVT_REF_FAIL.base) / 0x40
    if e.1 = F.BATT_EVT_REF_FAIL.addr b ∧ F.BATT_EVT_REF_FAIL.of e.2 = 1 ∧ b < 1536 then s.put F.BATT_FAULTS_REF_DISCARDS b 0 else s) s
  let lit := fun (ch : Nat) => decide ((s.reg (F.MON_LIMIT_CROSSED.addr (ch / 32))).toNat / 2 ^ (ch % 32) % 2 = 1)
  { s with clears := [], raised := [], pwr := { s.pwr with announced := s.pwr.announced.filter lit } }

/-- Words that a core's memories corrected (R216, R236). -/
def countEcc (s : State) (p n : Nat) : State := if n = 0 then s else (s.bump F.NUM_ACC_ECC_CORR p n).raise F.NUM_CORE_EVT_ECC_CORR p

/-- Everything that commits with the closing frame; its plan's products only if it was not killed. R70 does not say when a request leaves its
class's queue: the model empties both queues at every tick (log entry 198). -/
def closeFrame (s : State) (o : TickArgs) : State :=
  let killed := s.fr.killed.isSome
  let all := s.ctxs.map (fun e => e.1)
  let s := s.chargeVtime.settlePast
  let s := if killed then s.dropFrame.keepPlan else s.answerQueries o.short
  let s := if killed then s else all.foldl (fun s c => (s.finishAbort c).layerTick c) s.runWorks.commitRows
  let s := o.ecc.foldl (fun s e => s.countEcc e.1 e.2) s
  let s := all.foldl (fun s c => (s.commandEnd c).exportTick c) s.commitRecords
  let s := s.applySignals.calTick.clearBits
  let margin := if killed then (s.flt.marginRun, s.flt.marginCore) else (s.flt.marginCore.map (fun p => (p, false)), none)
  { s with
    fr := { s.fr with killed := none, q1 := 0, q2 := 0, wrote := [], waiting := [] },
    flt := { s.flt with marginRun := margin.1, marginCore := margin.2 } }

/-! The advance (R39, R338, R340). -/

/-- T(n+1) = T(n) + P, slewed toward the parent; a bridging frame has its own length, and the source's number follows it. The frame before
it puts its empty plan in front. -/
def advance (s : State) : State :=
  match s.link.bridging with
  | some (f, 1, len) =>
    ({ s with now := s.now + len, frame := f, link := { s.link with bridging := none } } : State).setUnaligned 0
  | b =>
    let s : State := { s with
      now := (s.now + s.periodNs + s.link.slew / 16 : Int).toNat, frame := s.frame + 1, link := { s.link with slew := 0 } }
    match b with
    | none => s
    | some (f, _, len) => { s with
        link := { s.link with bridging := some (f, 1, len) },
        fr := { s.fr with plans := emptyPlan s.frame :: s.fr.plans, xfer := s.fr.xfer.map (fun x => (x.1, x.2.1 + 1, x.2.2)) } }

/-! The opening tick. -/

/-- Run something that reports as of the tick while the frame number still is the closing frame's. -/
def asClosing (s : State) (f : State → State) : State :=
  let n := s.frame
  { f { s with frame := n - 1 } with frame := n }

/-- A change of owner closes an open debug session (R524). -/
def debugTick (s : State) : State :=
  if s.ownerNum ≠ s.seen F.OWN_STATE_OWNER 0 then s.asClosing (fun s => s.debugClose 2) else s

/-- Registers that show time: frame number, uptime, and ages in seconds or 16 µs (R115, R437, R485, R499, R550). The age of a calibrated
unit advances at each full second. -/
def ageRegs (s : State) (before : Nat) : State :=
  let sec := 10 ^ 9
  let s := (s.put F.FRM_NUM_LO_FRAME 0 (s.frame % 2 ^ 32)).put F.FRM_NUM_HI_FRAME 0 (s.frame / 2 ^ 32)
  let s := s.put F.DEV_UPTIME_SECONDS 0 ((s.now - s.link.bootAt) / sec)
  let s := s.pwr.resultAt.foldl (fun s e => s.put F.MON_RESULT_AGE e.1 (min 255 ((s.now - e.2) / 16000))) s
  let s := s.batts.foldl (fun s e => match e.2.fulEnd with
    | some t => s.put F.FUL_STATE_AGE e.1 (min 2047 ((s.now - t) / sec))
    | none => s) s
  let s := s.cores.foldl (fun s e => match e.2.obsUntil with
    | some t => s.put F.FLT_OBS_OBS_LEFT e.1 ((t - s.now + sec - 1) / sec)
    | none => s) s
  if before / sec = s.now / sec then s
  else (List.range 1536).foldl (fun s b => if s.get F.CAL_UNIT_SOURCE b = 1 then s.bumpSat F.CAL_UNIT_AGE b 1 else s) s

/-- The scale vectors G of a context's INT16 layers, from the s_x and s_g that this tick commits, in the scratchpad of the batt's core (R572). -/
def scaleTick (s : State) (c : Nat) : State :=
  match s.template c with
  | none => s
  | some t => ((t.layers.zipIdx.filter (fun p => decide (p.1.outFmt = 0xE))).flatMap (fun p => p.1.batts.map (fun b => (p, s.battOf b)))).foldl (fun s e =>
      if (s.batt e.2).scale = [] then s
      else s.setWords (spAddr (e.2 / 8) e.1.1.scaleAddr) ((List.range 1024).map (s.gVec e.2 (s.layer c e.1.2).sx))) s

/-- The band tables of a context from the masters that this tick commits: 2 KiB of BF16 values for each static row, in ascending row order,
in the scratchpad of the batt's core (R177). -/
def bandTick (s : State) (c : Nat) : State :=
  match s.template c with
  | none => s
  | some t => (t.layers.zipIdx.flatMap (fun p => p.1.batts.map (fun b => (p, s.battOf b)))).foldl (fun s e =>
      (s.layer c e.1.2).staticRows.zipIdx.foldl (fun s r =>
        s.setBytes (spAddr (e.2 / 8) (e.1.1.bandAddr + 2048 * r.2))
          ((List.range 1024).flatMap (fun j => leBytes 2 ((bfRound (s.master c e.1.2 e.1.1 r.1.1 j)).toNat / 2 ^ 16)))) s) s

/-- What a context shows from the tick on: its log, debt and layers, and the window of R209, which counts while it is READY, RUNNING or
PARKED. -/
def openCtx (s : State) (c : Nat) : State :=
  let st := s.ctxLive c
  let s := s.updCtx c (fun x => { x with opening := x.layers, openStep := x.step, openExch := x.exch, window := if 2 ≤ st ∧ st ≤ 4 then x.window else s.frame })
  let s := s.put F.LOG_USE_USED c ((s.logUnits c + 63) / 64)
  if st = 0 then s else ((s.showDebt c).scaleTick c).bandTick c

/-- The PTP time of the tick (R348). -/
def ptpTick (s : State) (o : TickArgs) : State :=
  let p := s.ptpChoice
  { s with ports := { s.ports with
    ptpPort := p, ptpSec := if p.isSome then o.ptpSec else 2 ^ 48 - 1, ptpNs := if p.isSome then o.ptpNs else 2 ^ 32 - 1 } }

/-- Sessions whose CTX was written count their samples from 0 again (R361). -/
def restartSessions (s : State) : State :=
  (s.ports.hosts.filter (fun e => e.2.restart)).foldl (fun s e =>
    (s.setAccepted e.1 0).updHost e.1 (fun h => { h with consumed := 0, restart := false })) s

/-- Everything that commits with the opening tick but the plan. -/
def openFrame (s : State) (o : TickArgs) (before : Nat) : State :=
  let s := (s.ptpTick o).restartSessions.ownershipTick.debugTick
  let s : State := { s with sec := { s.sec with blow := s.sec.blow.map (fun b => { b with started := true }) } }
  let s := (s.ctxs.map (fun e => e.1)).foldl (fun s c => s.openCtx c) s.latchCores
  let s : State := { s with
    batts := tmap Batt.empty (fun _ b => { b with
      outParity := false, busy := false, ran := false, openFill := b.filling, openRows := b.fulRows, openMarks := b.fulMarked }) s.batts,
    flt := { s.flt with resets := s.flt.resets.map (fun r => if r.level = 4 then { r with frames := r.frames + 1 } else r) } }
  s.ageRegs before

/-- What the module does at a tick once the closing frame has committed: link commands, levels of temperature, an owner's device reset, and
the system's alignment messages. -/
def actTick (s : State) : State := s.linkCtrlTick.thermalTick.ownerResetTick.systemTick

end State

/-! The plan (R71). -/

namespace State

/-- Units on which a query is charged, under a plan's number (R65, R136, R182). -/
def queryUnits (s : State) (number : Nat) (q : PlacedQuery) : List Nat :=
  match s.template q.ctx with
  | none => []
  | some t =>
    let on := fun (l : List Nat) (e : Nat) => (l.filterMap (fun c => s.physOf c)).map (fun p => 16 * p + e)
    let mat := ((stages t).filter (fun p => decide (s.matrixStage q.ctx p.2 p.1 number ≠ 0))).flatMap (fun p => layerCores p.1)
    on q.cores 1 ++ on (q.cores.filter (fun k => decide (0 < s.bandTime q.ctx t k))) 2 ++
      on (mat.foldl (fun l c => if l.contains c then l else l ++ [c]) []) 0 ++
      ((stages t).flatMap (fun p => p.1.batts)).map (fun b => s.battOf b / 8 * 16 + 8 + s.battOf b % 8)

/-! Deferral (R401). -/

/-- Move the queries of contexts one plan later; `n` numbers a plan that this adds at the end. -/
def shiftQueries (cs : List Nat) (n : Nat) (late : List PlacedQuery) : List Plan → List Plan
  | [] => if late = [] then [] else [{ emptyPlan n with queries := late }]
  | p :: r =>
    { p with queries := late ++ p.queries.filter (fun q => !cs.contains q.ctx) } ::
      shiftQueries cs (n + 1) (p.queries.filter (fun q => cs.contains q.ctx)) r

/-- A reset keeps a unit shut. -/
def resetHolds (r : ResetRun) (k : Nat) : Bool :=
  match r.level with
  | 1 => decide (r.unit = k / 16) && decide (r.engine = k % 16)
  | 2 => decide (r.unit = k / 16)
  | 3 => decide (r.unit = k / 16 / 48)
  | _ => false

/-- Defer the class-0 work of contexts that need a shut unit, with every later plan of theirs; the resets count the frame, also for
offered items that wait. -/
def deferWork (s : State) (items : List WorkItem) : State :=
  match s.fr.plans with
  | [] => s
  | p :: _ =>
    let late := p.queries.filter (fun q => (s.queryUnits p.number q).any (fun k => s.unitShut k))
    let cs := late.map (fun q => q.ctx)
    let need := late.flatMap (fun q => s.queryUnits p.number q) ++
      (items ++ p.items).flatMap (fun w => ((s.itemUnits w).getD []).map (fun u => u.1))
    let shut := need.filter (fun k => s.unitShut k)
    let resets := s.flt.resets.map (fun r => if shut.any (fun k => resetHolds r k) then { r with frames := r.frames + 1 } else r)
    let s : State := { s with flt := { s.flt with resets := resets } }
    if cs = [] then s
    else { s with fr := { s.fr with
      plans := shiftQueries cs s.frame [] s.fr.plans,
      xfer := s.fr.xfer.map (fun x => if cs.contains x.1 then (x.1, x.2.1 + 1, x.2.2) else x) } }

/-! Row-operation frames (R135). -/

/-- Class-1 work of a context that runs passes is ready at this tick: a step that still runs them or is about to begin, or an acceptance
replay; a step that is held or past its backward runs none. -/
def forwardReady (s : State) (c : Nat) : Bool :=
  match s.template c with
  | none => false
  | some t =>
    let x := s.ctx c
    (match x.step with | some r => decide (r.stage = 0) && !r.held && !r.abort | none => false) || (match x.loading with | some l => decide (l.stage = 6) | none => false) ||
      (decide (s.phase = 1) && s.serving c &&
        (if t.multi then (match x.exch.startAt with | some n => decide (n ≤ s.frame) | none => false)
         else s.stepDue c t || decide (x.replays ≠ [])))

/-- Batts of a context whose layer runs in substitution in a plan: they serve no forward, so they are open in every frame (R185). -/
def subBatts (s : State) (c number : Nat) : List Nat :=
  match s.template c with
  | none => []
  | some t => (t.layers.zipIdx.filter (fun p => s.substituted c p.2 && decide ((s.layerSeen c p.2).subFrom ≤ number))).flatMap (fun p =>
      p.1.batts.map (fun b => s.battOf b))

/-- Set which batts the executing plan is open on. -/
def openBatts (s : State) : State :=
  match s.fr.plans with
  | [] => s
  | p :: _ =>
    let busy := (p.queries.map (fun q => q.ctx)) ++ (s.liveContexts.filter (fun c => s.forwardReady c))
    let used := busy.flatMap (fun c => (s.placement c).filter (fun b => !(s.subBatts c p.number).contains b))
    { s with batts := tmap Batt.empty (fun b x => { x with open_ := rowOpFrame b p.number || !used.contains b }) s.batts }

/-! Placing work. -/

/-- Charge a class-0 query: its units, its energy and its response's bytes on its port (R65, R66). -/
def chargeQuery (s : State) (p : Planning) (q : PlacedQuery) : Planning :=
  { led := { p.led with
      units := addTbl p.led.units ((s.queryUnits p.plan.number q).map (fun k => (k, q.time))), eth := addTbl p.led.eth [(q.port % 2, q.wire)] },
    plan := { p.plan with charged := p.plan.charged + q.energy } }

/-- Charge a blocking operation of 4.8 µs and 0.54 µJ (R58). -/
def chargeRow (p : Planning) (b : Nat) : Planning :=
  { led := { p.led with
      units := addTbl p.led.units [(battUnit b, 14400)], rows := addTbl p.led.rows [(b / 8, 4800)], blocks := addTbl p.led.blocks [(b, 1)],
      pool := subVec p.led.pool (chargeVec blockEnergy []) },
    plan := { p.plan with charged := p.plan.charged + blockEnergy } }

/-- The row's last blocking ended BLK_ROW_REST ago (R132). -/
def rested (s : State) (b r : Nat) : Bool :=
  match (s.batt b).lastBlock.find? (fun e => decide (e.1 = r)) with
  | some e => decide (e.2 + s.pol 0x24 * 10 ^ 9 ≤ s.now)
  | none => true

/-- Dispatch a row operation (R117, R132): at most two batts of a core run row operations at a time, so a core takes twice W of them. `old` are
the rows that a killed plan keeps, which have been counted. -/
def offerRow (s : State) (c : Nat) (old : List (Nat × Nat)) (p : Planning) (d : Nat × Nat) : Planning :=
  let next := chargeRow p d.1
  let used := (p.plan.rows.filter (fun e => decide ((s.batt e.1).owner = some c) && !old.contains e)).length
  let u := battUnit d.1
  let ok := (s.batt d.1).open_ && !s.unitShut u && !p.plan.rows.contains d && !(s.batt d.1).worn.contains d.2 &&
    decide ((s.ctx c).dispatched + used < s.pol 0x28) && fitsVec (chargeVec blockEnergy []) p.led.pool &&
    decide (tget 0 next.led.units u ≤ 3 * s.workNs) && decide (tget 0 next.led.rows (d.1 / 8) ≤ 2 * s.workNs)
  if ok then { next with plan := { next.plan with rows := next.plan.rows ++ [d] } } else p

/-- Rows of a context that CP1 may dispatch: its debt in queue order, then rows on their way off a static list, which need no rest (R132,
R179). -/
def rowsDue (s : State) (c : Nat) : List (Nat × Nat) :=
  let debt := ((s.ctx c).debt.map (fun d => (d.batt, d.row))).filter (fun d => s.rested d.1 d.2)
  match s.template c with
  | none => []
  | some t => debt ++ t.layers.zipIdx.flatMap (fun p =>
      (s.layer c p.2).leaving.flatMap (fun r => p.1.batts.map (fun b => (s.battOf b, r))))

/-- Shares of energy and memory of the four classes (R62, R469, R474): an excess of earlier frames comes off class 2, class 1 and upkeep in
this order, upkeep keeping 5 % of E_sched; the throttle factor applies to all but class 0. With them the excess left and E_sched. -/
def shares (s : State) : List (List Nat) × Nat × Nat :=
  let e := s.eSched
  let part := fun (k : Nat) => e * s.share k / 100
  let overs := s.pwr.deduct + s.fr.carry
  let c2 := min overs (part 3)
  let c1 := min (overs - c2) (part 2)
  let up := min (overs - c2 - c1) (part 1 - e * 5 / 100)
  let f := s.throttle
  let vec := fun (k cut : Nat) => ((part k - cut) * f / 160) :: List.replicate 12 (s.memBudget * s.share k / 100 * f / 160)
  ([part 0 :: List.replicate 12 (s.memBudget * s.share 0 / 100), vec 1 up, vec 2 c1, vec 3 c2], overs - c2 - c1 - up, e - c2 - c1 - up)

/-- Charges of items of a class. -/
def classCharge (s : State) (l : List WorkItem) (k : Nat) : List Nat :=
  (l.filter (fun w => decide (w.cls = k))).foldl (fun a w => addVec a (chargeVec (s.itemEnergy w) w.mem)) zeroVec

/-- The order of class-1 work: ascending VTIME, ties to the lower CTX (R386). -/
def byVtime (s : State) (l : List WorkItem) : List WorkItem :=
  sortBy (fun (a b : WorkItem) =>
    let x := (s.ctx a.ctx).vtime
    let y := (s.ctx b.ctx).vtime
    decide (x < y) || (decide (x = y) && decide (a.ctx ≤ b.ctx))) l

/-- Set what is left to the class being placed. -/
def withPool (p : Planning) (v : List Nat) : Planning := { p with led := { p.led with pool := v } }

/-- The work of a killed plan, charged first and in full (R54, R71): items and rows; what does not fit any more, or needs a shut unit, waits
for the next plan. -/
def keepWork (s : State) (head : Plan) (all : List Nat) : Planning × List WorkItem :=
  let p : Planning := ⟨{ head with items := [], rows := [] }, { Ledger.empty with pool := all }⟩
  let q := head.items.foldl s.offer (p, [])
  ((head.rows.filter (fun d => !s.unitShut (battUnit d.1))).foldl (fun p d =>
    let n := chargeRow p d.1
    { n with plan := { n.plan with rows := n.plan.rows ++ [d] } }) q.1, q.2)

/-- Plan the frame (R71): work of a killed plan and class 0 as they stand, then upkeep, class 1 and class 2, each from its share and what R62
lends it. Items that stopped at a cut point or had to wait for a shut unit come first of their context's (R172). Answers the plan, the fill
work that waits, and the work that must come first in the next plan. -/
def planWork (s : State) (again : Bool) (o : TickArgs) (head : Plan) : Planning × List WorkItem × List WorkItem :=
  let sh := s.shares.1
  let take := fun (k : Nat) => sh.getD k zeroVec
  let all := sh.foldl addVec zeroVec
  let bare := { head with charged := 0, charged1 := [], dup := o.dup, contexts := [] }
  let kept := s.keepWork (if again then bare else { bare with items := [], rows := [] }) all
  let base := head.queries.foldl (fun p q => s.chargeQuery p q) kept.1
  let old := base.plan.items
  let items := s.fr.cuts ++ o.items
  let zero := head.queries.foldl (fun a q => addVec a (chargeVec q.energy [(q.stack, q.bytes)])) zeroVec
  let rowUse := addVec zeroVec (chargeVec (base.plan.rows.length * blockEnergy) [])
  let p := withPool base (subVec (subVec (addVec (take 1) (subVec (take 0) zero)) (s.classCharge old 1)) rowUse)
  let p := (items.filter (fun w => decide (w.cls = 1))).foldl s.offer (p, [])
  let p := (s.liveContexts.filter (fun c => decide (s.ctxLive c = 2 ∨ s.ctxLive c = 3))).foldl
    (fun p c => (s.rowsDue c).foldl (fun p d => s.offerRow c head.rows p d) p) p.1
  let want := addVec (s.classCharge old 3) (s.classCharge items 3)
  let keep := List.zipWith min (take 3) want
  let p := withPool p (subVec (addVec (addVec (take 2) p.led.pool) (subVec (take 3) keep)) (s.classCharge old 2))
  let p := (s.byVtime (items.filter (fun w => decide (w.cls = 2)))).foldl s.offer (p, [])
  let q := withPool p.1 (subVec (addVec keep p.1.led.pool) (s.classCharge old 3))
  let q := (items.filter (fun w => decide (w.cls = 3))).foldl s.offer (q, [])
  let first := fun (w : WorkItem) => s.fr.cuts.contains w
  (q.1, (p.2 ++ q.2).filter (fun w => !first w), kept.2 ++ (p.2 ++ q.2).filter first)

/-- Plans for this frame and the next one. -/
def fillPlans (n : Nat) : List Plan → List Plan
  | [] => [emptyPlan n, emptyPlan (n + 1)]
  | [p] => [p, emptyPlan (n + 1)]
  | l => l

/-- A context is RUNNING while its plan holds work of it, otherwise READY (R385). -/
def runningState (s : State) (cs : List Nat) : State :=
  s.liveContexts.foldl (fun s c =>
    if s.ctxLive c = 2 ∨ s.ctxLive c = 3 then s.enter c (if cs.contains c then 3 else 2) else s) s

/-- Put the finished plan in front, with what it changes: rows dispatched, what is charged and left, energy, E_sched and the contexts'
states. -/
def setPlan (s : State) (r : Planning × List WorkItem × List WorkItem) (old : List (Nat × Nat)) : State :=
  let sh := s.shares
  let p := r.1
  let cs := p.plan.queries.map (fun q => q.ctx) ++ (p.plan.items.filter (fun w => decide (2 ≤ w.cls))).map (fun w => w.ctx)
  let plan := { p.plan with contexts := cs.foldl (fun l c => if l.contains c then l else l ++ [c]) [] }
  let s := (p.plan.rows.filter (fun d => !old.contains d)).foldl (fun s d => match (s.batt d.1).owner with
    | some c => s.updCtx c (fun x => { x with dispatched := x.dispatched + 1 })
    | none => s) s
  let s : State := { s with
    fr := { s.fr with plans := plan :: s.fr.plans.drop 1, carry := sh.2.1, ledger := p.led, waiting := r.2.1, cuts := r.2.2 },
    pwr := { s.pwr with deduct := 0 } }
  let s := (s.put F.PWR_ESCHED_E_SCHED 0 (sh.2.2 / 30000000)).put F.PWR_BUDGET_THROTTLE 0 (s.throttle * 100 / 160)
  ((s.notePast plan.charged).runningState plan.contexts).schedTrace 7

/-- CP1 plans the frame that opens (R57, R71, R135, R401). The frame that bridges to another tick runs an empty plan (R340). -/
def planFrame (s : State) (again : Bool) (o : TickArgs) : State :=
  if s.phase ≠ 1 then s
  else
    let s : State := { s with fr := { s.fr with plans := fillPlans s.frame s.fr.plans } }
    let s := s.setPstand
    match s.link.bridging with
    | some (_, 1, _) => (s.openBatts.notePast 0).runningState []
    | _ =>
      let s := s.deferWork o.items
      let s := if again then s else s.openBatts
      match s.fr.plans with
      | [] => s
      | head :: _ => s.setPlan (s.planWork again o head) (if again then head.rows else [])

/-- What this tick shows is what every reader of the frame sees (R43). -/
def publish (s : State) : State := { s with vis := s.regs }

end State

/-- TICK (R39, R43, R45): the frame timer reaches T(n+1). -/
def execTick (o : TickArgs) (s : State) : Outcome :=
  .next (
    if s.pwr.converting = false ∨ s.pwr.clock = false ∨ s.phase = 0 then s
    else
      let again := s.fr.killed.isSome
      let before := s.now
      let t := ((s.closeFrame o).advance.openFrame o before).publish.actTick.publish
      (t.planFrame again o).publish.release s.sent.length)

end Sys2Proof.Machine
end

