-- ==== Sys2Proof/Machine/Dispatch.lean ====
section
/-!
DEFINITION. Machine/Dispatch.lean: one arm per command.
-/
namespace Sys2Proof.Machine

/-- The effect of a command on everything but the queue of waiting commands. -/
def exec (i : Instr) (s : State) : Host.Outcome State Fault Refusal :=
  match i with
  | .tick o => Sys2Proof.Machine.execTick o s
  | .workDeadline running => Sys2Proof.Machine.execWorkDeadline running s
  | .commitWindow => Sys2Proof.Machine.execCommitWindow s
  | .referencePasses reads => Sys2Proof.Machine.execReferencePasses reads s
  | .refRecoveryComplete batt => Sys2Proof.Machine.execRefRecoveryComplete batt s
  | .streamOut => Sys2Proof.Machine.execStreamOut s
  | .nostepWindowClose => Sys2Proof.Machine.execNostepWindowClose s
  | .trpSegment o => Sys2Proof.Machine.execTrpSegment o s
  | .reassemblyTimeout session type tag t => Sys2Proof.Machine.execReassemblyTimeout session type tag t s
  | .identityQuietExpiry session type tag t => Sys2Proof.Machine.execIdentityQuietExpiry session type tag t s
  | .icmpEcho port accepted t => Sys2Proof.Machine.execIcmpEcho port accepted t s
  | .arpRequest port target v6 => Sys2Proof.Machine.execArpRequest port target v6 s
  | .neighbourResolve port target v6 => Sys2Proof.Machine.execNeighbourResolve port target v6 s
  | .ptpMessage o => Sys2Proof.Machine.execPtpMessage o s
  | .delayReq port => Sys2Proof.Machine.execDelayReq port s
  | .ethLinkDown port => Sys2Proof.Machine.execEthLinkDown port s
  | .ethLinkUp port lanes => Sys2Proof.Machine.execEthLinkUp port lanes s
  | .query r => Sys2Proof.Machine.execQuery r s
  | .sample r samples => Sys2Proof.Machine.execSample r samples s
  | .loadModel r => Sys2Proof.Machine.execLoadModel r s
  | .loadComplete ctx => Sys2Proof.Machine.execLoadComplete ctx s
  | .loadFailed ctx status ind => Sys2Proof.Machine.execLoadFailed ctx status ind s
  | .exportReq r size => Sys2Proof.Machine.execExportReq r size s
  | .exportResend r id offset length => Sys2Proof.Machine.execExportResend r id offset length s
  | .mgmtRead r => Sys2Proof.Machine.execMgmtRead r s
  | .mgmtWrite r entries => Sys2Proof.Machine.execMgmtWrite r entries s
  | .claimObserve r nonce cred => Sys2Proof.Machine.execClaimObserve r nonce cred s
  | .claimOwn r nonce cred => Sys2Proof.Machine.execClaimOwn r nonce cred s
  | .renew r nonce => Sys2Proof.Machine.execRenew r nonce s
  | .claimProofVerified session tag nonce v => Sys2Proof.Machine.execClaimProofVerified session tag nonce v s
  | .release r => Sys2Proof.Machine.execRelease r s
  | .releaseClose r => Sys2Proof.Machine.execReleaseClose r s
  | .handover r => Sys2Proof.Machine.execHandover r s
  | .leaseExpiry => Sys2Proof.Machine.execLeaseExpiry s
  | .sessionIdleClose session => Sys2Proof.Machine.execSessionIdleClose session s
  | .hsessCfgWrite r entries => Sys2Proof.Machine.execHsessCfgWrite r entries s
  | .park r ctx => Sys2Proof.Machine.execPark r ctx s
  | .unpark r ctx => Sys2Proof.Machine.execUnpark r ctx s
  | .teardown r ctx => Sys2Proof.Machine.execTeardown r ctx s
  | .teardownFence ctx => Sys2Proof.Machine.execTeardownFence ctx s
  | .contextRelease ctx outstanding => Sys2Proof.Machine.execContextRelease ctx outstanding s
  | .drainTimeout ctx => Sys2Proof.Machine.execDrainTimeout ctx s
  | .releasedMemoryZeroed ctx => Sys2Proof.Machine.execReleasedMemoryZeroed ctx s
  | .unparkComplete ctx => Sys2Proof.Machine.execUnparkComplete ctx s
  | .contextFault ctx => Sys2Proof.Machine.execContextFault ctx s
  | .pauseWrite r ctx value => Sys2Proof.Machine.execPauseWrite r ctx value s
  | .fltReset r => Sys2Proof.Machine.execFltReset r s
  | .fltOos r => Sys2Proof.Machine.execFltOos r s
  | .restoreLatest r ctx => Sys2Proof.Machine.execRestoreLatest r ctx s
  | .restorePrevious r ctx => Sys2Proof.Machine.execRestorePrevious r ctx s
  | .calBattItems r unit pattern => Sys2Proof.Machine.execCalBattItems r unit pattern s
  | .calFwdSigma r => Sys2Proof.Machine.execCalFwdSigma r s
  | .calPIdle r => Sys2Proof.Machine.execCalPIdle r s
  | .calMonRef r => Sys2Proof.Machine.execCalMonRef r s
  | .calSensorMap r core => Sys2Proof.Machine.execCalSensorMap r core s
  | .calRingBias r port => Sys2Proof.Machine.execCalRingBias r port s
  | .calRunComplete items resid => Sys2Proof.Machine.execCalRunComplete items resid s
  | .quoteGo r confirm => Sys2Proof.Machine.execQuoteGo r confirm s
  | .quoteReady => Sys2Proof.Machine.execQuoteReady s
  | .svnCommit r confirm => Sys2Proof.Machine.execSvnCommit r confirm s
  | .lock r confirm => Sys2Proof.Machine.execLock r confirm s
  | .dbgDisable r confirm mask => Sys2Proof.Machine.execDbgDisable r confirm mask s
  | .fuseBlowComplete readBack => Sys2Proof.Machine.execFuseBlowComplete readBack s
  | .secCredEpochWrite r value mask => Sys2Proof.Machine.execSecCredEpochWrite r value mask s
  | .dbgOpen r facilities purpose => Sys2Proof.Machine.execDbgOpen r facilities purpose s
  | .dbgClose r => Sys2Proof.Machine.execDbgClose r s
  | .imgErase r confirm slot => Sys2Proof.Machine.execImgErase r confirm slot s
  | .imgEraseComplete slot => Sys2Proof.Machine.execImgEraseComplete slot s
  | .imgSeal r confirm slot => Sys2Proof.Machine.execImgSeal r confirm slot s
  | .imgRestart r confirm => Sys2Proof.Machine.execImgRestart r confirm s
  | .imgWinWrite r entries => Sys2Proof.Machine.execImgWinWrite r entries s
  | .retrain r port => Sys2Proof.Machine.execRetrain r port s
  | .unfence r port => Sys2Proof.Machine.execUnfence r port s
  | .install r port mask => Sys2Proof.Machine.execInstall r port mask s
  | .txAnSwitch r port an => Sys2Proof.Machine.execTxAnSwitch r port an s
  | .signal o => Sys2Proof.Machine.execSignal o s
  | .wait core waiter ctr mode target bytes => Sys2Proof.Machine.execWait core waiter ctr mode target bytes s
  | .waitRelease core waiter => Sys2Proof.Machine.execWaitRelease core waiter s
  | .contextSwitch core ctx => Sys2Proof.Machine.execContextSwitch core ctx s
  | .matrixOperation core d => Sys2Proof.Machine.execMatrixOperation core d s
  | .copy core d => Sys2Proof.Machine.execCopy core d s
  | .fill core d => Sys2Proof.Machine.execFill core d s
  | .transpose core d => Sys2Proof.Machine.execTranspose core d s
  | .add core x => Sys2Proof.Machine.execAdd core x s
  | .sub core x => Sys2Proof.Machine.execSub core x s
  | .mul core x => Sys2Proof.Machine.execMul core x s
  | .fma core x => Sys2Proof.Machine.execFma core x s
  | .vMin core x => Sys2Proof.Machine.execVMin core x s
  | .vMax core x => Sys2Proof.Machine.execVMax core x s
  | .abs core x => Sys2Proof.Machine.execAbs core x s
  | .neg core x => Sys2Proof.Machine.execNeg core x s
  | .mov core x => Sys2Proof.Machine.execMov core x s
  | .cmp core x => Sys2Proof.Machine.execCmp core x s
  | .cmps core x => Sys2Proof.Machine.execCmps core x s
  | .sel core x => Sys2Proof.Machine.execSel core x s
  | .selp core x => Sys2Proof.Machine.execSelp core x s
  | .exp2 core x => Sys2Proof.Machine.execExp2 core x s
  | .log2 core x => Sys2Proof.Machine.execLog2 core x s
  | .rsqrt core x => Sys2Proof.Machine.execRsqrt core x s
  | .rcp core x => Sys2Proof.Machine.execRcp core x s
  | .cvt core x => Sys2Proof.Machine.execCvt core x s
  | .pack core x => Sys2Proof.Machine.execPack core x s
  | .unpack core x => Sys2Proof.Machine.execUnpack core x s
  | .perm core x => Sys2Proof.Machine.execPerm core x s
  | .shuf core x => Sys2Proof.Machine.execShuf core x s
  | .rsum core x => Sys2Proof.Machine.execRsum core x s
  | .rmax core x => Sys2Proof.Machine.execRmax core x s
  | .rmin core x => Sys2Proof.Machine.execRmin core x s
  | .topk core x => Sys2Proof.Machine.execTopk core x s
  | .topkm core x => Sys2Proof.Machine.execTopkm core x s
  | .psum core x => Sys2Proof.Machine.execPsum core x s
  | .tchk core x t => Sys2Proof.Machine.execTchk core x t s
  | .kset core x => Sys2Proof.Machine.execKset core x s
  | .kop core x => Sys2Proof.Machine.execKop core x s
  | .uncorrectableEcc core engine again t => Sys2Proof.Machine.execUncorrectableEcc core engine again t s
  | .battPass o => Sys2Proof.Machine.execBattPass o s
  | .numSplitRaised ctx => Sys2Proof.Machine.execNumSplitRaised ctx s
  | .blocking o => Sys2Proof.Machine.execBlocking o s
  | .debtStarved ctx => Sys2Proof.Machine.execDebtStarved ctx s
  | .fullingIntervalExpiry batt t => Sys2Proof.Machine.execFullingIntervalExpiry batt t s
  | .fullingRead o => Sys2Proof.Machine.execFullingRead o s
  | .fullingPassEnd batt t => Sys2Proof.Machine.execFullingPassEnd batt t s
  | .wearCeilingWrite batt row => Sys2Proof.Machine.execWearCeilingWrite batt row s
  | .rowWorn batt row => Sys2Proof.Machine.execRowWorn batt row s
  | .columnRetire batt column => Sys2Proof.Machine.execColumnRetire batt column s
  | .spareFill o => Sys2Proof.Machine.execSpareFill o s
  | .spareFillComplete batt column => Sys2Proof.Machine.execSpareFillComplete batt column s
  | .battRecordWrite batt => Sys2Proof.Machine.execBattRecordWrite batt s
  | .shadowPass o => Sys2Proof.Machine.execShadowPass o s
  | .stepBegin ctx => Sys2Proof.Machine.execStepBegin ctx s
  | .carding o => Sys2Proof.Machine.execCarding o s
  | .stepCommit ctx => Sys2Proof.Machine.execStepCommit ctx s
  | .skipLimitPause ctx => Sys2Proof.Machine.execSkipLimitPause ctx s
  | .holdRetry ctx => Sys2Proof.Machine.execHoldRetry ctx s
  | .escHoldExpiry ctx => Sys2Proof.Machine.execEscHoldExpiry ctx s
  | .staticListLeave batt row => Sys2Proof.Machine.execStaticListLeave batt row s
  | .rescaleComplete batt => Sys2Proof.Machine.execRescaleComplete batt s
  | .fallbackEntry ctx layer => Sys2Proof.Machine.execFallbackEntry ctx layer s
  | .fallbackEnd ctx layer => Sys2Proof.Machine.execFallbackEnd ctx layer s
  | .stepReady o => Sys2Proof.Machine.execStepReady o s
  | .exchScatter ctx xfers => Sys2Proof.Machine.execExchScatter ctx xfers s
  | .ownerSum o => Sys2Proof.Machine.execOwnerSum o s
  | .thinPSum o => Sys2Proof.Machine.execThinPSum o s
  | .thinQPartial o => Sys2Proof.Machine.execThinQPartial o s
  | .thinQSum o => Sys2Proof.Machine.execThinQSum o s
  | .scalar o => Sys2Proof.Machine.execScalar o s
  | .optimizerUpdate o => Sys2Proof.Machine.execOptimizerUpdate o s
  | .mastersApply o => Sys2Proof.Machine.execMastersApply o s
  | .vote o => Sys2Proof.Machine.execVote o s
  | .resume o => Sys2Proof.Machine.execResume o s
  | .checkCopySum o => Sys2Proof.Machine.execCheckCopySum o s
  | .checkCompare o => Sys2Proof.Machine.execCheckCompare o s
  | .rereduce o copies => Sys2Proof.Machine.execRereduce o copies s
  | .refereeSum o => Sys2Proof.Machine.execRefereeSum o s
  | .refereeDecision o => Sys2Proof.Machine.execRefereeDecision o s
  | .abandon o => Sys2Proof.Machine.execAbandon o s
  | .exchRerun ctx => Sys2Proof.Machine.execExchRerun ctx s
  | .memberLate ctx member due => Sys2Proof.Machine.execMemberLate ctx member due s
  | .lossReport head member frame => Sys2Proof.Machine.execLossReport head member frame s
  | .memberRemoval ctx => Sys2Proof.Machine.execMemberRemoval ctx s
  | .stateRecord o => Sys2Proof.Machine.execStateRecord o s
  | .stateDecision ctx => Sys2Proof.Machine.execStateDecision ctx s
  | .stepRecord o copies => Sys2Proof.Machine.execStepRecord o copies s
  | .digest o => Sys2Proof.Machine.execDigest o s
  | .fullDigest ctx => Sys2Proof.Machine.execFullDigest ctx s
  | .digestDecision ctx => Sys2Proof.Machine.execDigestDecision ctx s
  | .duplicateCompare o => Sys2Proof.Machine.execDuplicateCompare o s
  | .duplicateReferee o => Sys2Proof.Machine.execDuplicateReferee o s
  | .observationExpiry core t => Sys2Proof.Machine.execObservationExpiry core t s
  | .marginFrame core => Sys2Proof.Machine.execMarginFrame core s
  | .knownAnswerTest core failed => Sys2Proof.Machine.execKnownAnswerTest core failed s
  | .engineWatchdog core engine t => Sys2Proof.Machine.execEngineWatchdog core engine t s
  | .dmaWatchdog core t => Sys2Proof.Machine.execDmaWatchdog core t s
  | .battWatchdog core batt t => Sys2Proof.Machine.execBattWatchdog core batt t s
  | .planWatchdog t => Sys2Proof.Machine.execPlanWatchdog t s
  | .controlCoreWatchdog cp t => Sys2Proof.Machine.execControlCoreWatchdog cp t s
  | .mgmtWatchdog => Sys2Proof.Machine.execMgmtWatchdog s
  | .engineReset core engine t => Sys2Proof.Machine.execEngineReset core engine t s
  | .coreReset core t => Sys2Proof.Machine.execCoreReset core t s
  | .dieReset die t => Sys2Proof.Machine.execDieReset die t s
  | .deviceReset t => Sys2Proof.Machine.execDeviceReset t s
  | .resetTimeout level unit engine t => Sys2Proof.Machine.execResetTimeout level unit engine t s
  | .resetComplete level unit engine => Sys2Proof.Machine.execResetComplete level unit engine s
  | .deviceResetComplete hashOk o => Sys2Proof.Machine.execDeviceResetComplete hashOk o s
  | .resetRebuild core readings => Sys2Proof.Machine.execResetRebuild core readings s
  | .managementReset o => Sys2Proof.Machine.execManagementReset o s
  | .oosEntry => Sys2Proof.Machine.execOosEntry s
  | .coreFence => Sys2Proof.Machine.execCoreFence s
  | .spareTest core pass => Sys2Proof.Machine.execSpareTest core pass s
  | .spareReblockComplete ctx => Sys2Proof.Machine.execSpareReblockComplete ctx s
  | .eventLogWrite => Sys2Proof.Machine.execEventLogWrite s
  | .ckptStart ctx => Sys2Proof.Machine.execCkptStart ctx s
  | .ckpt o => Sys2Proof.Machine.execCkpt o s
  | .holderDone o => Sys2Proof.Machine.execHolderDone o s
  | .selfHoldCopyDone ctx => Sys2Proof.Machine.execSelfHoldCopyDone ctx s
  | .done o => Sys2Proof.Machine.execDone o s
  | .ckptAbandon ctx cause module => Sys2Proof.Machine.execCkptAbandon ctx cause module s
  | .ckptLimitExpiry ctx => Sys2Proof.Machine.execCkptLimitExpiry ctx s
  | .probe ctx loss => Sys2Proof.Machine.execProbe ctx loss s
  | .exportScheduled ctx size => Sys2Proof.Machine.execExportScheduled ctx size s
  | .exportHoldExpiry ctx id => Sys2Proof.Machine.execExportHoldExpiry ctx id s
  | .restore o => Sys2Proof.Machine.execRestore o s
  | .restored o => Sys2Proof.Machine.execRestored o s
  | .acceptanceReplay ctx loss => Sys2Proof.Machine.execAcceptanceReplay ctx loss s
  | .logRecompute ctx common => Sys2Proof.Machine.execLogRecompute ctx common s
  | .momentFetch ctx module data last => Sys2Proof.Machine.execMomentFetch ctx module data last s
  | .adoptZero ctx module => Sys2Proof.Machine.execAdoptZero ctx module s
  | .initRestoreTimeout ctx => Sys2Proof.Machine.execInitRestoreTimeout ctx s
  | .enableClose mv o => Sys2Proof.Machine.execEnableClose mv o s
  | .sigStateReserve => Sys2Proof.Machine.execSigStateReserve s
  | .signingRequest quote => Sys2Proof.Machine.execSigningRequest quote s
  | .enableOpen => Sys2Proof.Machine.execEnableOpen s
  | .underVoltageStop mv us => Sys2Proof.Machine.execUnderVoltageStop mv us s
  | .overVoltageStop mv us => Sys2Proof.Machine.execOverVoltageStop mv us s
  | .currentLimitStop us => Sys2Proof.Machine.execCurrentLimitStop us s
  | .monitorConversion value => Sys2Proof.Machine.execMonitorConversion value s
  | .monitorEntryComplete t => Sys2Proof.Machine.execMonitorEntryComplete t s
  | .urgentRequest channel => Sys2Proof.Machine.execUrgentRequest channel s
  | .frameEnergyCheck frame => Sys2Proof.Machine.execFrameEnergyCheck frame s
  | .overdraw mw t => Sys2Proof.Machine.execOverdraw mw t s
  | .reserveDecay t => Sys2Proof.Machine.execReserveDecay t s
  | .thermalShutdown channel value => Sys2Proof.Machine.execThermalShutdown channel value s
  | .laserLow fibre => Sys2Proof.Machine.execLaserLow fibre s
  | .sealGroupReceive o => Sys2Proof.Machine.execSealGroupReceive o s
  | .nak port group sent t => Sys2Proof.Machine.execNak port group sent t s
  | .writeFlit h addr data => Sys2Proof.Machine.execWriteFlit h addr data s
  | .signalFlit h entries => Sys2Proof.Machine.execSignalFlit h entries s
  | .withdraw h entries => Sys2Proof.Machine.execWithdraw h entries s
  | .join o => Sys2Proof.Machine.execJoin o s
  | .readyCount child count => Sys2Proof.Machine.execReadyCount child count s
  | .sysWaitExpiry => Sys2Proof.Machine.execSysWaitExpiry s
  | .mgmtRelay src payload => Sys2Proof.Machine.execMgmtRelay src payload s
  | .anchorMove frame => Sys2Proof.Machine.execAnchorMove frame s
  | .anchorLost => Sys2Proof.Machine.execAnchorLost s
  | .hello o => Sys2Proof.Machine.execHello o s
  | .kex1 o t => Sys2Proof.Machine.execKex1 o t s
  | .kex2 o t => Sys2Proof.Machine.execKex2 o t s
  | .fin port value lanes t => Sys2Proof.Machine.execFin port value lanes t s
  | .rekeyTrigger port txSeq rxSeq t => Sys2Proof.Machine.execRekeyTrigger port txSeq rxSeq t s
  | .rekey1 o t => Sys2Proof.Machine.execRekey1 o t s
  | .rekey2 o ownSeq t => Sys2Proof.Machine.execRekey2 o ownSeq t s
  | .rekeyFin port value ownSeq switchSeq t => Sys2Proof.Machine.execRekeyFin port value ownSeq switchSeq t s
  | .keySwitch port sending seq => Sys2Proof.Machine.execKeySwitch port sending seq s
  | .rekeyTimeout port t => Sys2Proof.Machine.execRekeyTimeout port t s
  | .keyRatchet port sending seq => Sys2Proof.Machine.execKeyRatchet port sending seq s
  | .lightDetect port lit t => Sys2Proof.Machine.execLightDetect port lit t s
  | .ringsLocked port => Sys2Proof.Machine.execRingsLocked port s
  | .lanesTrained port => Sys2Proof.Machine.execLanesTrained port s
  | .fecAligned port => Sys2Proof.Machine.execFecAligned port s
  | .attemptTimeout port t => Sys2Proof.Machine.execAttemptTimeout port t s
  | .authTimeout port t => Sys2Proof.Machine.execAuthTimeout port t s
  | .waitExpiry port t => Sys2Proof.Machine.execWaitExpiry port t s
  | .downExpiry port t => Sys2Proof.Machine.execDownExpiry port t s
  | .sealLoss port t => Sys2Proof.Machine.execSealLoss port t s
  | .berExcess port => Sys2Proof.Machine.execBerExcess port s
  | .resendLimit port t => Sys2Proof.Machine.execResendLimit port t s
  | .lightLost port => Sys2Proof.Machine.execLightLost port s
  | .thetaUpdate samples => Sys2Proof.Machine.execThetaUpdate samples s
  | .parentSwitch => Sys2Proof.Machine.execParentSwitch s
  | .tickUnaligned t => Sys2Proof.Machine.execTickUnaligned t s
  | .tickRejoin theta frame => Sys2Proof.Machine.execTickRejoin theta frame s
  | .startThreshold mv o => Sys2Proof.Machine.execStartThreshold mv o s
  | .currentLimitReached => Sys2Proof.Machine.execCurrentLimitReached s
  | .referenceClockLoss => Sys2Proof.Machine.execReferenceClockLoss s
  | .imgSealComplete slot => Sys2Proof.Machine.execImgSealComplete slot s
  | .unlistedType version type r => Sys2Proof.Machine.execUnlistedType version type r s
  | .failedTestExpiry t => Sys2Proof.Machine.execFailedTestExpiry t s
  | .slidingWindowExpiry t => Sys2Proof.Machine.execSlidingWindowExpiry t s

end Sys2Proof.Machine
end

