-- ==== Sys2Proof/Machine/Layouts.lean ====
section
/-!
DEFINITION. Machine/Layouts.lean: the byte layouts of what crosses the module's ports, big-endian (R3): the TRP header
(spec/10_host_ports.md R351), the flit header and the seal block (spec/09_aeline_link.md R310, R319); and the static outlier list of a batt
load (spec/05_formats_and_band_path.md R176). The commands carry these fields decoded (log entry 9).
-/
namespace Sys2Proof.Machine

/-- The 32-byte header of the segment of a message that starts at offset `ofs` and carries `len` payload bytes (R351). -/
def OutMsg.header (m : OutMsg) (ofs len : Nat) : List Byte :=
  beBytes 1 1 ++ beBytes 1 m.type ++ beBytes 2 m.session ++ beBytes 4 m.len ++ beBytes 4 ofs ++ beBytes 2 len ++ beBytes 2 m.status ++
    beBytes 4 (m.gen % 2 ^ 16 * 2 ^ 16 + m.ind % 8 * 2 ^ 13 + m.ctx % 2 ^ 10) ++ beBytes 4 m.tag ++ beBytes 4 m.arg0 ++ beBytes 4 m.arg1

/-- Big-endian number of bytes. -/
def beNat (l : List Byte) : Nat := leNat l.reverse

/-- `n` bytes of a record from offset `o`, as a big-endian number. -/
def beAt (l : List Byte) (o n : Nat) : Nat := beNat ((l.drop o).take n)

/-- A received datagram whose TRP header is the first 32 of these bytes (R351, R353): what the filters saw comes with it; the reserved bits of
offset 0x10 are ignored. -/
def readSegment (seen : Segment) (b : List Byte) : Segment :=
  { seen with
    version := beAt b 0 1, type := beAt b 1 1, segOfs := beAt b 8 4, segLen := beAt b 0x0C 2,
    hdr := { seen.hdr with
      session := beAt b 2 2, len := beAt b 4 4, gen := beAt b 0x10 2, ctx := beAt b 0x12 2 % 2 ^ 10, tag := beAt b 0x14 4,
      arg0 := beAt b 0x18 4, arg1 := beAt b 0x1C 4 } }

/-- Fields of a flit header (R319). -/
structure FlitFields where
  vc : Nat
  type : Nat
  alt : Bool
  hops : Nat
  dst : Nat
  src : Nat
  len : Nat
  ctx : Nat
  gen : Nat
  addr : Nat
  ftag : Nat
deriving DecidableEq, Repr

/-- The 16-byte header of a flit (R319). -/
def FlitFields.bytes (f : FlitFields) : List Byte :=
  beBytes 16 (f.vc * 2 ^ 125 + f.type * 2 ^ 122 + (if f.alt then 2 ^ 121 else 0) + f.hops * 2 ^ 116 + f.dst * 2 ^ 99 + f.src * 2 ^ 82 +
    f.len * 2 ^ 74 + f.ctx * 2 ^ 64 + f.gen * 2 ^ 48 + f.addr * 2 ^ 7 + f.ftag * 2 ^ 3)

/-- Read a flit header (R319); its reserved bits are ignored. -/
def readFlit (b : List Byte) : FlitFields :=
  let w := beAt b 0 16
  ⟨bitsAt w 125 3, bitsAt w 122 3, decide (bitsAt w 121 1 = 1), bitsAt w 116 5, bitsAt w 99 17, bitsAt w 82 17, bitsAt w 74 8, bitsAt w 64 10,
    bitsAt w 48 16, bitsAt w 7 41, bitsAt w 3 4⟩

/-- A flit in transit, as its header gives it (R336). -/
def FlitFields.transit (f : FlitFields) : Transit := ⟨f.vc, f.type, f.alt, f.hops, f.dst, f.src⟩

/-- The head of a WRITE, SIGNAL or MSG flit for this module, as its header gives it. -/
def FlitFields.head (f : FlitFields) (port : Nat) : FlitHead := ⟨port, f.vc, f.src, f.ctx, f.gen, f.ftag⟩

/-- A received seal block's fields (R310): the group as its first 48 bytes give it, with what the port found of the group itself. -/
def readSeal (o : SealGroup) (b : List Byte) : SealGroup :=
  let w := beAt b 0x0C 2
  { o with
    seq := beAt b 0 8, group := beAt b 8 4, state := bitsAt w 12 4, unaligned := decide (bitsAt w 11 1 = 1), depth := bitsAt w 8 3,
    nak := decide (bitsAt w 7 1 = 1), ack := beAt b 0x1C 2, credits := (List.range 16).map (fun k => beAt b (0x20 + k) 1) }

/-- The seal block that a port sends, up to its tag (R310): `stamp` holds TX_FRAME, TX_TIME, ECHO_TIME, ECHO_SEQ and ECHO_FRAME. -/
def sealBytes (o : SealGroup) (stamp : Nat × Nat × Nat × Nat × Nat) : List Byte :=
  beBytes 8 o.seq ++ beBytes 4 o.group ++
    beBytes 2 (o.state * 2 ^ 12 + (if o.unaligned then 2 ^ 11 else 0) + o.depth * 2 ^ 8 + (if o.nak then 2 ^ 7 else 0)) ++
    beBytes 2 stamp.1 ++ beBytes 4 stamp.2.1 ++ beBytes 4 stamp.2.2.1 ++ beBytes 2 stamp.2.2.2.1 ++ beBytes 2 stamp.2.2.2.2 ++
    beBytes 2 o.ack ++ beBytes 2 0 ++ o.credits.flatMap (fun c => beBytes 1 c)

/-- The static outlier list of a layer's batt in the 136 bytes of R176, which are little-endian (R3): WORN marks the batt's worn rows, ADAPTED
those that joined under R179. -/
def State.listBytes (s : State) (c l b : Nat) (adapt : Bool) : List Byte :=
  let rows := (s.layer c l).staticRows
  leBytes 1 rows.length ++ leBytes 1 (if adapt then 1 else 0) ++ leBytes 6 0 ++
    (rows.flatMap (fun e => leBytes 2 (e.1 + (if (s.batt b).worn.contains e.1 then 2 ^ 13 else 0) + (if e.2 then 2 ^ 14 else 0)))) ++
    List.replicate (2 * (64 - rows.length)) 0xFF

end Sys2Proof.Machine
end

