-- ==== Sys2Proof/WellFormed.lean ====
section
/-!
DEFINITION. WellFormed.lean: the operand ranges of the commands: unit numbers, context and session numbers, and field widths that the spec
gives. Commands outside them come from nowhere; exec is defined on them all the same.
-/
namespace Sys2Proof

/-- Values within their numbers of bits, as the spec's field tables give them. -/
def widths (l : List (Nat × Nat)) : Bool := l.all (fun f => decide (f.1 < 2 ^ f.2))

/-- Header fields have their widths (R351), the port is one of two. -/
def Req.wf (r : Req) : Bool :=
  widths [(r.port, 1), (r.session, 16), (r.tag, 32), (r.ctx, 10), (r.gen, 16), (r.arg0, 32), (r.arg1, 32), (r.len, 40), (r.addr, 128), (r.udp, 16)]

/-- A wait's fields (R371). -/
def Wait.wf (w : Wait) : Bool := widths [(w.ctr, 6), (w.target, 32), (w.bytes, 32)] && decide (w.mode < 3)

/-- An engine code of R400. -/
def engineOk (e : Nat) : Bool := decide (e < 4) || (decide (8 ≤ e) && decide (e < 16))

/-- The scope of a reset (R391): engine of a core, core, die, device. -/
def scopeOk (level unit engine : Nat) : Bool :=
  match level with
  | 1 => decide (unit < 192) && engineOk engine
  | 2 => decide (unit < 192)
  | 3 => decide (unit < 4)
  | 4 => true
  | _ => false

/-- An item names units, stacks, ports and VCs that exist, and one of the three classes. -/
def WorkItem.wf (w : WorkItem) : Bool :=
  decide (1 ≤ w.cls) && widths [(w.cls, 2), (w.ctx, 10)] &&
  w.units.all (fun u => decide (u.1 / 16 < 176) && engineOk (u.1 % 16)) && w.mem.all (fun m => decide (m.1 < 12)) &&
  w.flits.all (fun f => decide (f.1 < 256)) && w.eth.all (fun e => decide (e.1 < 2)) && decide (w.phase < 6) &&
  (w.blocks ++ w.reads).all (fun b => decide (b.1 < 1536)) && w.switches.all (fun k => decide (k.1 < 176 ∧ k.2 < 1024)) && w.gates.all (fun g => decide (g.1 < 176) && g.2.wf)

/-- TICK. -/
def TickArgs.wf (o : TickArgs) : Bool :=
  o.items.all WorkItem.wf && widths [(o.ptpSec, 48), (o.ptpNs, 32)] && (o.dup ++ o.ecc).all (fun d => decide (d.1 < 192))

/-- A segment's header fields (R351). -/
def Segment.wf (o : Segment) : Bool :=
  widths [(o.port, 1), (o.udpLen, 16), (o.version, 8), (o.type, 8)] && o.hdr.wf

/-- A 1588 message. -/
def PtpMsg.wf (o : PtpMsg) : Bool := widths [(o.port, 1), (o.domain, 8)]

/-- Lane figures as CAL_LANE holds them (R499). -/
def LaneFig.wf (l : LaneFig) : Bool := widths [(l.lane, 3), (l.eye, 8), (l.margin, 8)]

/-- A register entry (R355). -/
def WriteEntry.wf (e : WriteEntry) : Bool := widths [(e.addr, 32), (e.value, 32), (e.mask, 32)]

/-- A SIGNAL instruction (R321, R371). -/
def SignalOp.wf (o : SignalOp) : Bool :=
  widths [(o.ctx, 10), (o.gen, 16), (o.ctr, 6), (o.inc, 16), (o.bytes, 32)] && decide (o.core < 176)

/-- A signal entry (R321). -/
def SignalEntry.wf (e : SignalEntry) : Bool :=
  widths [(e.ctr, 6), (e.inc, 16), (e.bytes, 32)] && decide (e.core < 176)

/-- A flit header (R319). -/
def FlitHead.wf (h : FlitHead) : Bool :=
  widths [(h.port, 5), (h.vc, 3), (h.src, 17), (h.ctx, 10), (h.gen, 16), (h.ftag, 4)]

/-- A seal group (R310, R311). -/
def SealGroup.wf (o : SealGroup) : Bool :=
  widths [(o.port, 5), (o.group, 32), (o.state, 2)] && o.flits.all (fun f => widths [(f.vc, 3), (f.type, 3)])

/-- HELLO (R331). -/
def HelloMsg.wf (o : HelloMsg) : Bool := widths [(o.port, 5), (o.peer, 17), (o.peerPort, 5), (o.topo, 256)]

/-- KEX1 or KEX2 (R326). -/
def KexMsg.wf (o : KexMsg) : Bool := widths [(o.port, 5), (o.idPk, 544), (o.secret, 768)]

/-- JOIN (R342). -/
def JoinMsg.wf (o : JoinMsg) : Bool := decide (o.port < 32)

/-- A calibration item (R486). -/
def CalItem.wf (i : CalItem) : Bool := decide (i.kind < 10)

/-- Reference readings of a batt's block (R102). -/
def RefReading.wf (r : RefReading) : Bool := decide (r.batt < 1536) && decide (r.block < 16) && decide (r.p.length = r.z.length)

/-- Readings of the reference slot: three of each column. -/
def RefSlot.wf (r : RefSlot) : Bool := decide (r.batt < 1536) && decide (r.p.length = 3) && decide (r.z.length = 3)

/-- Field widths of a matrix descriptor (R204). -/
def MatrixDesc.wf (d : MatrixDesc) : Bool :=
  widths [(d.gen, 16), (d.fmtA, 4), (d.fmtB, 4), (d.acc, 2), (d.chunk, 2), (d.outFmt, 4), (d.slot, 4), (d.tcx, 4), (d.outRule, 1), (d.m, 16), (d.n, 16)] &&
  [d.k, d.opId, d.aAddr, d.aStride, d.bAddr, d.bStride, d.aScaleAddr, d.bScaleAddr, d.outAddr, d.outStride].all (fun v => decide (v < 2 ^ 32)) &&
  decide (d.sigCtr < 64)

/-- Field widths of a DMA descriptor (R232). -/
def DmaDesc.wf (d : DmaDesc) : Bool :=
  widths [(d.gen, 16), (d.dims, 2), (d.esize, 2), (d.srcKind, 3), (d.dstKind, 3), (d.vc, 3), (d.peer, 8), (d.sigCtr, 6), (d.sigCore, 8), (d.srcAddr, 64), (d.dstAddr, 41), (d.dstModule, 17), (d.x, 32), (d.y, 16), (d.z, 16)] &&
  [d.srcY, d.srcZ, d.dstY, d.dstZ].all (fun v => decide (-2 ^ 31 ≤ v) && decide (v < 2 ^ 31))

/-- Field widths of a vector instruction (R222). -/
def VecInstr.wf (x : VecInstr) : Bool :=
  widths [(x.type, 4), (x.mask, 3), (x.count, 12), (x.dst, 23), (x.srcA, 23), (x.aux, 8), (x.rnd, 3), (x.tcx, 4), (x.srcB, 32), (x.op, 32)]

/-- A pass on a batt. -/
def BattPass.wf (o : BattPass) : Bool := decide (o.batt < 1536) && decide (o.xs.length ≤ 1024)

/-- A row operation (R116, R119, R124): one operation, or two, of up to 12 iterations. -/
def RowOp.wf (o : RowOp) : Bool :=
  widths [(o.row, 10), (o.kind, 2)] && decide (o.batt < 1536) && decide (1 ≤ o.tries.length) && decide (o.tries.length ≤ 2) &&
  o.tries.all (fun t => decide (t.iters.length ≤ 12) &&
    t.iters.all (fun it => it.all (fun p => decide (p.1 < 1058) && decide (p.2.length = 4))))

/-- A fulling read (R139). -/
def FulRead.wf (o : FulRead) : Bool :=
  decide (o.batt < 1536) && decide (o.row < 1024) && o.cells.all (fun p => decide (p.1 < 1058) && decide (p.2.length = 4))

/-- A shadowed pass (R423). -/
def ShadowOp.wf (o : ShadowOp) : Bool := decide (o.batt < 1536) && o.codes.all (fun c => decide (-128 ≤ c) && decide (c ≤ 127))

/-- A carding entry's write (R243). -/
def CardOp.wf (o : CardOp) : Bool := widths [(o.ctx, 10), (o.card, 16), (o.shard, 16)]

/-- UPDATE work. -/
def UpdateOp.wf (o : UpdateOp) : Bool := decide (o.ctx < 1024)

/-- A step record (R280). -/
def StepRec.wf (o : StepRec) : Bool :=
  o.head.wf && widths [(o.step, 48), (o.attempt, 8), (o.type, 8), (o.sender, 17)]

/-- Exchange work. -/
def SumOp.wf (o : SumOp) : Bool := decide (o.ctx < 1024)

/-- Work on a chunk. -/
def ChunkOp.wf (o : ChunkOp) : Bool := decide (o.ctx < 1024) && decide (o.sum < 3) && o.cores.all (fun c => decide (c < 176))

/-- Gathered masters. -/
def GatherOp.wf (o : GatherOp) : Bool := decide (o.ctx < 1024)

/-- A DIGEST (R429). -/
def DigestMsg.wf (o : DigestMsg) : Bool := o.head.wf && decide (o.scope < 3)

/-- A duplicated candidate (R421). -/
def DupOp.wf (o : DupOp) : Bool := decide (o.core < 192) && decide (o.other < 192) && engineOk o.engine

/-- A held set that has landed (R446). -/
def HolderOp.wf (o : HolderOp) : Bool := widths [(o.source, 17), (o.ctx, 10)]

/-- Work of a restore. -/
def RestoreOp.wf (o : RestoreOp) : Bool := decide (o.ctx < 1024)

/-! Ranges of unit numbers. -/

/-- A context slot, and a row of a batt: 1,024 of each. -/
def ctxOk (n : Nat) : Bool := decide (n < 1024)

/-- A physical core. -/
def coreOk (n : Nat) : Bool := decide (n < 192)

/-- A batt. -/
def battOk (n : Nat) : Bool := decide (n < 1536)

/-- An Aeline Link port. -/
def linkOk (n : Nat) : Bool := decide (n < 32)

/-- An Ethernet port, and an image slot: two of each. -/
def ethOk (n : Nat) : Bool := decide (n < 2)

/-- A module. -/
def moduleOk (n : Nat) : Bool := decide (n < 2 ^ 17)

/-- A byte. -/
def byteOk (n : Nat) : Bool := decide (n < 2 ^ 8)

/-- A command's operands lie in their ranges. -/
def Instr.wf (i : Instr) : Bool :=
  match i with
  | .tick o | .trpSegment o | .ptpMessage o | .signal o | .battPass o | .blocking o | .fullingRead o | .spareFill o | .shadowPass o |
    .carding o | .stepReady o | .ownerSum o | .thinPSum o | .thinQPartial o | .thinQSum o | .scalar o | .optimizerUpdate o |
    .mastersApply o | .vote o | .resume o | .checkCopySum o | .checkCompare o | .rereduce o _ | .refereeSum o | .refereeDecision o |
    .abandon o | .stateRecord o | .stepRecord o _ | .digest o | .duplicateCompare o | .duplicateReferee o | .ckpt o | .holderDone o |
    .done o | .restore o | .restored o | .sealGroupReceive o | .join o | .hello o | .kex1 o _ | .kex2 o _ | .rekey1 o _ | .rekey2 o _ _ => o.wf
  | .workDeadline _ | .commitWindow | .streamOut | .nostepWindowClose | .leaseExpiry | .quoteReady | .planWatchdog _ | .mgmtWatchdog |
    .deviceReset _ | .deviceResetComplete _ _ | .managementReset _ | .oosEntry | .coreFence | .eventLogWrite | .enableClose _ _ |
    .sigStateReserve | .signingRequest _ | .enableOpen | .underVoltageStop _ _ | .overVoltageStop _ _ | .currentLimitStop _ |
    .monitorConversion _ | .monitorEntryComplete _ | .frameEnergyCheck _ | .overdraw _ _ | .reserveDecay _ | .sysWaitExpiry |
    .mgmtRelay _ _ | .anchorMove _ | .anchorLost | .thetaUpdate _ | .parentSwitch | .tickUnaligned _ | .tickRejoin _ _ |
    .startThreshold _ _ | .currentLimitReached | .referenceClockLoss | .failedTestExpiry _ | .slidingWindowExpiry _ => true
  | .referencePasses reads => reads.all RefSlot.wf
  | .refRecoveryComplete batt | .fullingIntervalExpiry batt _ | .fullingPassEnd batt _ | .battRecordWrite batt | .rescaleComplete batt => battOk batt
  | .reassemblyTimeout session _ _ _ | .identityQuietExpiry session _ _ _ | .claimProofVerified session _ _ _ | .sessionIdleClose session => decide (session < 2 ^ 16)
  | .icmpEcho port _ _ | .arpRequest port _ _ | .neighbourResolve port _ _ | .delayReq port | .ethLinkDown port => ethOk port
  | .ethLinkUp port lanes => ethOk port && lanes.all LaneFig.wf
  | .loadModel r => r.req.wf && decide (r.pkg.header < 2 ^ 512) && r.pkg.wraps.all (fun h => decide (h < 2 ^ 256))
  | .claimObserve r n c | .claimOwn r n c => r.wf && decide (n < 2 ^ 64) && decide (c < 2 ^ 1472)
  | .query r | .sample r _ | .exportReq r _ | .exportResend r _ _ _ | .mgmtRead r |
    .renew r _ | .release r | .releaseClose r | .handover r | .fltReset r | .fltOos r | .calFwdSigma r | .calPIdle r | .calMonRef r |
    .secCredEpochWrite r _ _ | .dbgClose r | .unlistedType _ _ r => r.wf
  | .loadComplete ctx | .loadFailed ctx _ _ | .teardownFence ctx | .contextRelease ctx _ | .drainTimeout ctx | .releasedMemoryZeroed ctx |
    .unparkComplete ctx | .contextFault ctx | .numSplitRaised ctx | .debtStarved ctx | .stepBegin ctx | .stepCommit ctx |
    .skipLimitPause ctx | .holdRetry ctx | .escHoldExpiry ctx | .fallbackEntry ctx _ | .fallbackEnd ctx _ | .exchScatter ctx _ |
    .exchRerun ctx | .memberRemoval ctx | .stateDecision ctx | .fullDigest ctx | .digestDecision ctx | .spareReblockComplete ctx |
    .ckptStart ctx | .selfHoldCopyDone ctx | .ckptLimitExpiry ctx | .probe ctx _ | .exportScheduled ctx _ | .exportHoldExpiry ctx _ |
    .acceptanceReplay ctx _ | .logRecompute ctx _ | .initRestoreTimeout ctx => ctxOk ctx
  | .mgmtWrite r entries | .hsessCfgWrite r entries | .imgWinWrite r entries => r.wf && entries.all WriteEntry.wf
  | .park r ctx | .unpark r ctx | .teardown r ctx | .pauseWrite r ctx _ | .restoreLatest r ctx | .restorePrevious r ctx => r.wf && ctxOk ctx
  | .calBattItems r unit _ => r.wf && battOk unit
  | .calSensorMap r core => r.wf && coreOk core
  | .calRingBias r port => r.wf && decide (port < 34)
  | .calRunComplete items _ => items.all CalItem.wf
  | .quoteGo r confirm | .svnCommit r confirm | .lock r confirm | .dbgDisable r confirm _ | .imgRestart r confirm => r.wf && byteOk confirm
  | .fuseBlowComplete readBack => readBack.all (fun b => decide (b < 1024))
  | .dbgOpen r facilities purpose => r.wf && decide (facilities < 16) && decide (purpose < 2 ^ 16)
  | .imgErase r confirm slot | .imgSeal r confirm slot => r.wf && byteOk confirm && ethOk slot
  | .imgEraseComplete slot | .imgSealComplete slot => ethOk slot
  | .retrain r port | .unfence r port => r.wf && linkOk port
  | .install r port mask => r.wf && ethOk port && decide (mask < 4)
  | .txAnSwitch r port an => r.wf && ethOk port && decide (an < 2)
  | .wait core waiter ctr mode target bytes => coreOk core && decide (waiter < 12) && decide (ctr < 64) && decide (mode < 3) && decide (target < 2 ^ 32) && decide (bytes < 2 ^ 32)
  | .waitRelease core waiter => coreOk core && decide (waiter < 12)
  | .contextSwitch core ctx => coreOk core && ctxOk ctx
  | .matrixOperation core d | .copy core d | .fill core d | .transpose core d => coreOk core && d.wf
  | .add core x | .sub core x | .mul core x | .fma core x | .vMin core x | .vMax core x | .abs core x | .neg core x | .mov core x |
    .cmp core x | .cmps core x | .sel core x | .selp core x | .exp2 core x | .log2 core x | .rsqrt core x | .rcp core x | .cvt core x |
    .unpack core x | .perm core x | .shuf core x | .rsum core x | .rmax core x | .rmin core x | .topk core x |
    .topkm core x | .psum core x | .kset core x | .kop core x => coreOk core && x.wf
  | .pack core x => coreOk core && x.vec.wf
  | .tchk core x t => coreOk core && x.wf && t.rest.wf && t.again.all (fun e => decide (e.1 < 4))
  | .uncorrectableEcc core engine _ _ | .engineWatchdog core engine _ | .engineReset core engine _ => coreOk core && engineOk engine
  | .wearCeilingWrite batt row | .rowWorn batt row | .staticListLeave batt row => battOk batt && ctxOk row
  | .columnRetire batt column | .spareFillComplete batt column => battOk batt && decide (column < 1056)
  | .memberLate ctx member _ => ctxOk ctx && moduleOk member
  | .lossReport head member _ => head.wf && moduleOk member
  | .observationExpiry core _ | .marginFrame core | .knownAnswerTest core _ | .dmaWatchdog core _ | .coreReset core _ | .spareTest core _ => coreOk core
  | .battWatchdog core batt _ => coreOk core && decide (batt < 8)
  | .controlCoreWatchdog cp _ => decide (cp < 4)
  | .dieReset die _ => decide (die < 4)
  | .resetTimeout level unit engine _ | .resetComplete level unit engine => scopeOk level unit engine
  | .resetRebuild core readings => coreOk core && readings.all RefReading.wf
  | .ckptAbandon ctx _ module | .momentFetch ctx module _ _ | .adoptZero ctx module => ctxOk ctx && moduleOk module
  | .urgentRequest channel | .thermalShutdown channel _ => decide (channel < 128)
  | .laserLow fibre => decide (fibre < 4)
  | .nak port _ _ _ | .rekeyTrigger port _ _ _ | .keySwitch port _ _ | .rekeyTimeout port _ |
    .keyRatchet port _ _ | .lightDetect port _ _ | .ringsLocked port | .lanesTrained port | .fecAligned port | .attemptTimeout port _ |
    .authTimeout port _ | .waitExpiry port _ | .downExpiry port _ | .sealLoss port _ | .berExcess port | .resendLimit port _ |
    .lightLost port => linkOk port
  | .writeFlit h _ _ | .withdraw h _ => h.wf
  | .signalFlit h entries => h.wf && entries.all SignalEntry.wf
  | .readyCount child _ => moduleOk child
  | .rekeyFin port value _ _ _ => linkOk port && decide (value < 2 ^ 256)
  | .fin port value lanes _ => linkOk port && decide (value < 2 ^ 256) && lanes.all LaneFig.wf

end Sys2Proof
end

