-- ==== Sys2Proof/Safety.lean ====
section
/-!
DEFINITION. Safety.lean: the terms in which claims about the module are made: the parts of its state, what a command leaves as it was, the
canonical form of its memory and tables, and that a command completes.
-/
namespace Sys2Proof.Machine

/-- The parts of the state: the blocks of the management map (R546), the registers as readers see them, event bits set and to be cleared,
memory, time, and the structures of State. -/
inductive Part where
  | regsDev | regsCfg | regsFlt | regsPwr | regsCal | regsSec | regsOwn | regsEth | regsLnk | regsImg
  | regsCore | regsSync | regsBatt | regsCtx | regsHsess | regsRoute | regsOther
  | vis | raised | clears | mem | now | frame | fr | ports | ctxs | batts | cores | link | flt | pwr | cal | sec | img | sent | freeCtr | pending
deriving DecidableEq, Repr

/-- Where the blocks of the management map end (R546); from each bound on, the next block of `blocks` begins. -/
def blockBounds : List Nat :=
  [0x1000, 0x2000, 0x3000, 0x5000, 0x6000, 0x7000, 0x8000, 0x9000, 0xA000, 0xC000, 0x100000, 0x110000, 0x140000, 0x200000, 0x300000,
   0x400000, 0x800000, 0x880000]

/-- The blocks in the order of their addresses; addresses between and past them are `regsOther`. -/
def blocks : List Part :=
  [.regsDev, .regsCfg, .regsFlt, .regsPwr, .regsCal, .regsSec, .regsOwn, .regsEth, .regsLnk, .regsImg, .regsOther, .regsCore, .regsSync,
   .regsOther, .regsBatt, .regsCtx, .regsHsess, .regsRoute]

/-- How many blocks end at or below address a. -/
def blockNo (a : Nat) : Nat := blockBounds.countP (fun b => decide (b ≤ a))

/-- The block of the management map that address a lies in (R546). -/
def blockOf (a : Nat) : Part := blocks.getD (blockNo a) .regsOther

/-- Two states agree on a part: on a block, every register word of it; on memory, every byte. -/
def State.agree (p : Part) (s t : State) : Prop :=
  match p with
  | .vis => t.vis = s.vis
  | .raised => t.raised = s.raised
  | .clears => t.clears = s.clears
  | .mem => ∀ a, t.byte a = s.byte a
  | .now => t.now = s.now
  | .frame => t.frame = s.frame
  | .fr => t.fr = s.fr
  | .ports => t.ports = s.ports
  | .ctxs => t.ctxs = s.ctxs
  | .batts => t.batts = s.batts
  | .cores => t.cores = s.cores
  | .link => t.link = s.link
  | .flt => t.flt = s.flt
  | .pwr => t.pwr = s.pwr
  | .cal => t.cal = s.cal
  | .sec => t.sec = s.sec
  | .img => t.img = s.img
  | .sent => t.sent = s.sent
  | .freeCtr => t.freeCtr = s.freeCtr
  | .pending => t.pending = s.pending
  | b => ∀ a, blockOf a = b → t.reg a = s.reg a

/-- Everything outside the named parts is as it was. -/
def SameBut (l : List Part) (s t : State) : Prop := ∀ p, p ∉ l → s.agree p t

/-- The parts that an EVENT changes (R357, R408): the event log, counters of lost messages, sequence numbers, what has been sent. -/
def eventParts : List Part := [.regsFlt, .regsEth, .ports, .flt, .sent]

/-- The parts that a request's message checks and its answer change (R351 to R363). -/
def answerParts : List Part := [.regsEth, .fr, .ports, .sent]

/-- Every block of the management map. -/
def regParts : List Part :=
  [.regsDev, .regsCfg, .regsFlt, .regsPwr, .regsCal, .regsSec, .regsOwn, .regsEth, .regsLnk,
   .regsImg, .regsCore, .regsSync, .regsBatt, .regsCtx, .regsHsess, .regsRoute, .regsOther]

/-- The parts of the state that a command may change. -/
def touches (i : Instr) : List Part :=
  match i with
  | .holderDone .. => [.fr]
  | .marginFrame .. | .mgmtWatchdog | .eventLogWrite => [.flt]
  | .sigStateReserve => [.sec]
  | .frameEnergyCheck .. => [.pwr]
  | .arpRequest .. | .delayReq .. => [.sent]
  | .escHoldExpiry .. | .lossReport .. | .probe .. | .exportHoldExpiry .. | .initRestoreTimeout .. => [.ctxs]
  | .mgmtRelay .. | .anchorMove .. => [.link]
  | .identityQuietExpiry .. => [.ports]
  | .fullingIntervalExpiry .. | .fullingRead .. | .wearCeilingWrite .. | .spareFillComplete .. | .battRecordWrite .. => [.batts]
  | .ringsLocked .. | .lanesTrained .. => [.regsLnk]
  | .query .. | .exportResend .. | .renew .. | .release .. | .releaseClose .. | .handover .. | .install .. | .txAnSwitch .. => answerParts
  | .holdRetry .. | .ckptStart .. => [.fr, .ctxs]
  | .referenceClockLoss => [.flt, .pwr]
  | .releasedMemoryZeroed .. | .momentFetch .. => [.mem, .ctxs]
  | .rekeyTrigger .. | .rekey1 .. | .rekey2 .. | .rekeyFin .. => [.link, .sent]
  | .neighbourResolve .. => [.ports, .sent]
  | .imgEraseComplete .. | .imgSealComplete .. => [.regsImg, .img]
  | .signingRequest .. => [.regsSec, .sec]
  | .monitorEntryComplete .. | .urgentRequest .. | .reserveDecay .. => [.regsPwr, .pwr]
  | .slidingWindowExpiry .. => [.regsFlt, .flt]
  | .teardownFence .. | .unparkComplete .. | .stepReady .. | .scalar .. | .resume .. | .exchRerun .. | .stateRecord ..
  | .spareReblockComplete .. | .ckpt .. => [.regsCtx, .ctxs]
  | .keySwitch .. | .keyRatchet .. | .lightDetect .. | .attemptTimeout .. | .authTimeout .. | .downExpiry .. | .thetaUpdate ..
  | .parentSwitch => [.regsLnk, .link]
  | .fecAligned .. => [.regsLnk, .sent]
  | .nostepWindowClose | .staticListLeave .. | .rescaleComplete .. | .fallbackEnd .. => [.regsBatt, .ctxs]
  | .reassemblyTimeout .. | .ptpMessage .. => [.regsEth, .ports]
  | .claimProofVerified .. => [.regsSec, .ports]
  | .fullingPassEnd .. => [.regsBatt, .batts]
  | .observationExpiry .. | .failedTestExpiry .. => [.regsCore, .cores]
  | .currentLimitReached => [.regsPwr, .raised]
  | .fltReset .. | .fltOos .. => answerParts ++ [.flt]
  | .svnCommit .. | .lock .. | .dbgDisable .. => answerParts ++ [.sec]
  | .streamOut => answerParts ++ [.ctxs]
  | .add .. | .sub .. | .mul .. | .fma .. | .vMin .. | .vMax .. | .abs .. | .neg .. | .mov .. | .cmps .. | .sel .. | .selp ..
  | .exp2 .. | .log2 .. | .rsqrt .. | .rcp .. | .cvt .. | .unpack .. | .perm .. | .shuf .. | .rsum .. | .rmax .. | .rmin ..
  | .topk .. | .topkm .. | .psum .. => [.mem, .sec, .freeCtr]
  | .ethLinkDown .. => eventParts ++ [.freeCtr]
  | .cmp .. | .kset .. | .kop .. => [.cores, .sec, .freeCtr]
  | .memberLate .. => [.regsLnk, .ctxs, .sent]
  | .anchorLost => [.regsLnk, .link, .sent]
  | .trpSegment .. | .icmpEcho .. | .mgmtRead .. | .unlistedType .. => [.regsEth, .ports, .sent]
  | .claimObserve .. | .claimOwn .. | .secCredEpochWrite .. => answerParts ++ [.regsSec]
  | .pauseWrite .. => answerParts ++ [.regsCtx]
  | .retrain .. | .unfence .. => answerParts ++ [.regsLnk]
  | .refRecoveryComplete .. => [.regsBatt, .ctxs, .batts]
  | .signal .. => [.regsCtx, .raised, .cores]
  | .tickRejoin .. => [.regsDev, .regsLnk, .link]
  | .columnRetire .. => [.regsBatt, .raised, .batts]
  | .quoteGo .. => answerParts ++ [.regsSec, .sec]
  | .imgErase .. | .imgRestart .. => answerParts ++ [.regsImg, .img]
  | .numSplitRaised .. => eventParts ++ [.ctxs, .freeCtr]
  | .sealGroupReceive .. => [.regsLnk, .ctxs, .link, .sent]
  | .readyCount .. | .sysWaitExpiry => eventParts ++ [.link, .freeCtr]
  | .exportReq .. => answerParts ++ [.ctxs, .freeCtr]
  | .checkCopySum .. | .rereduce .. | .refereeSum .. => [.regsLnk, .regsCtx, .fr, .sent]
  | .contextRelease .. => [.regsCtx, .ctxs, .batts, .cores]
  | .resetComplete .. => eventParts ++ [.regsCore, .cores]
  | .sample .. => answerParts ++ [.regsHsess, .ctxs]
  | .leaseExpiry | .sessionIdleClose .. => eventParts ++ [.regsOwn, .freeCtr]
  | .signalFlit .. | .withdraw .. => [.regsCtx, .raised, .cores, .link]
  | .quoteReady => [.regsSec, .raised, .sec, .freeCtr]
  | .wait .. | .waitRelease .. | .contextSwitch .. => [.regsCore, .cores, .sec, .freeCtr]
  | .join .. => [.regsDev, .regsLnk, .frame, .link]
  | .hsessCfgWrite .. => regParts ++ answerParts ++ [.clears]
  | .monitorConversion .. => eventParts ++ [.regsPwr, .raised, .pwr]
  | .imgSeal .. => answerParts ++ [.regsImg, .raised, .img]
  | .loadFailed .. => [.regsSec, .regsCtx, .raised, .fr, .ctxs]
  | .park .. | .unpark .. | .teardown .. => answerParts ++ [.regsCtx, .raised, .ctxs]
  | .imgWinWrite .. => answerParts ++ [.regsImg, .img, .freeCtr]
  | .skipLimitPause .. => eventParts ++ [.regsCtx, .ctxs, .freeCtr]
  | .waitExpiry .. => eventParts ++ [.regsLnk, .link, .freeCtr]
  | .drainTimeout .. => [.regsCtx, .raised, .ctxs, .batts, .cores]
  | .knownAnswerTest .. => eventParts ++ [.regsCore, .raised, .cores]
  | .resetRebuild .. => [.regsBatt, .raised, .mem, .batts, .cores]
  | .ethLinkUp .. => eventParts ++ [.regsCal, .raised, .freeCtr]
  | .writeFlit .. => [.regsLnk, .regsCtx, .raised, .mem, .cores]
  | .tickUnaligned .. => eventParts ++ [.regsDev, .regsLnk, .freeCtr]
  | .loadComplete .. => [.regsSec, .regsCtx, .raised, .mem, .fr, .ctxs]
  | .rowWorn .. => [.regsCore, .regsBatt, .raised, .batts, .cores]
  | .exchScatter .. | .thinQPartial .. => [.regsLnk, .regsCtx, .raised, .mem, .fr, .sent]
  | .fuseBlowComplete .. => eventParts ++ [.regsSec, .raised, .sec, .freeCtr]
  | .pack .. => [.regsCtx, .raised, .mem, .cores, .sec, .freeCtr]
  | .overdraw .. => eventParts ++ [.regsPwr, .raised, .pwr, .freeCtr]
  | .abandon .. | .stateDecision .. | .ckptAbandon .. | .ckptLimitExpiry .. | .exportScheduled .. =>
    eventParts ++ [.regsCtx, .raised, .ctxs, .freeCtr]
  | .debtStarved .. => eventParts ++ [.regsBatt, .raised, .ctxs, .freeCtr]
  | .thinPSum .. => [.regsLnk, .regsCtx, .raised, .mem, .fr, .ctxs, .sent]
  | .dbgOpen .. | .dbgClose .. => eventParts ++ answerParts ++ [.regsSec, .sec, .freeCtr]
  | .selfHoldCopyDone .. | .done .. => eventParts ++ answerParts ++ [.regsCtx, .raised, .ctxs]
  | .adoptZero .. => eventParts ++ [.regsCtx, .raised, .mem, .ctxs, .freeCtr]
  | .laserLow .. | .nak .. | .hello .. | .kex1 .. | .kex2 .. | .rekeyTimeout .. | .sealLoss .. | .berExcess .. | .resendLimit ..
  | .lightLost .. => eventParts ++ [.regsLnk, .raised, .ctxs, .link, .freeCtr]
  | .calBattItems .. | .calFwdSigma .. | .calPIdle .. | .calMonRef .. | .calSensorMap .. | .calRingBias .. =>
    answerParts ++ [.regsCal, .regsBatt, .raised, .batts, .cal]
  | .calRunComplete .. => eventParts ++ [.regsCal, .regsBatt, .raised, .cal, .freeCtr]
  | .matrixOperation .. => [.regsCore, .regsCtx, .raised, .mem, .cores, .sec, .freeCtr]
  | .shadowPass .. => eventParts ++ [.regsCore, .regsBatt, .raised, .batts, .cores]
  | .fallbackEntry .. => eventParts ++ [.regsBatt, .regsCtx, .raised, .ctxs, .freeCtr]
  | .blocking .. | .spareFill .. => [.regsCore, .regsBatt, .regsCtx, .raised, .fr, .batts, .cores]
  | .loadModel .. => answerParts ++ [.regsBatt, .regsCtx, .regsHsess, .ctxs, .batts]
  | .workDeadline .. => eventParts ++ answerParts ++ [.regsCore, .cores, .sec, .freeCtr]
  | .contextFault .. | .vote .. | .checkCompare .. | .memberRemoval .. | .digest .. | .fullDigest .. | .acceptanceReplay .. =>
    eventParts ++ answerParts ++ [.regsCtx, .raised, .ctxs, .freeCtr]
  | .fin .. => eventParts ++ [.regsCal, .regsLnk, .raised, .ctxs, .link, .freeCtr]
  | .referencePasses .. => eventParts ++ [.regsCore, .regsBatt, .raised, .ctxs, .batts, .cores]
  | .stepCommit .. => eventParts ++ [.regsBatt, .regsCtx, .raised, .ctxs, .batts, .freeCtr]
  | .stepBegin .. => eventParts ++ answerParts ++ [.regsCtx, .vis, .raised, .ctxs, .freeCtr]
  | .mastersApply .. => eventParts ++ answerParts ++ [.regsCtx, .raised, .mem, .ctxs, .freeCtr]
  | .refereeDecision .. => eventParts ++ answerParts ++ [.regsCore, .regsCtx, .mem, .ctxs, .cores]
  | .duplicateCompare .. | .duplicateReferee .. => eventParts ++ answerParts ++ [.regsCore, .raised, .cores, .sec, .freeCtr]
  | .commitWindow => eventParts ++ answerParts ++ [.regsLnk, .regsCtx, .raised, .ctxs, .freeCtr]
  | .restoreLatest .. | .restorePrevious .. => eventParts ++ answerParts ++ [.regsCtx, .regsHsess, .raised, .ctxs, .freeCtr]
  | .logRecompute .. => eventParts ++ answerParts ++ [.regsCtx, .regsHsess, .vis, .raised, .ctxs, .freeCtr]
  | .digestDecision .. => eventParts ++ answerParts ++ [.regsLnk, .regsCore, .regsCtx, .raised, .ctxs, .cores]
  | .tchk .. => eventParts ++ answerParts ++ [.regsCtx, .raised, .mem, .ctxs, .cores, .sec, .freeCtr]
  | .copy .. | .fill .. | .transpose .. | .carding .. =>
    [.regsLnk, .regsCore, .regsCtx, .raised, .mem, .fr, .ctxs, .cores, .sec, .sent, .freeCtr]
  | .spareTest .. => eventParts ++ answerParts ++ [.regsCore, .regsCtx, .mem, .ctxs, .batts, .cores, .freeCtr]
  | .ownerSum .. | .thinQSum .. => eventParts ++ answerParts ++ [.regsLnk, .regsCore, .regsCtx, .raised, .mem, .ctxs, .cores]
  | .oosEntry => eventParts ++ answerParts ++ [.regsDev, .regsCtx, .raised, .ctxs, .batts, .cores, .freeCtr]
  | .battPass .. => eventParts ++ answerParts ++ [.regsBatt, .regsCtx, .raised, .mem, .ctxs, .batts, .sec, .freeCtr]
  | .restored .. => eventParts ++ answerParts ++ [.regsBatt, .regsCtx, .raised, .mem, .ctxs, .batts, .cores, .freeCtr]
  | .optimizerUpdate .. => eventParts ++ answerParts ++ [.regsLnk, .regsCore, .regsCtx, .raised, .mem, .ctxs, .cores, .freeCtr]
  | .mgmtWrite .. => regParts ++ eventParts ++ answerParts ++ [.raised, .clears, .ctxs, .batts, .cal, .sec, .img, .freeCtr]
  | .stepRecord .. => eventParts ++ answerParts ++ [.regsLnk, .regsBatt, .regsCtx, .raised, .mem, .ctxs, .batts, .cores, .freeCtr]
  | .restore .. => eventParts ++ answerParts ++ [.regsSec, .regsLnk, .regsBatt, .regsCtx, .raised, .mem, .ctxs, .batts, .cores, .freeCtr]
  | .coreFence =>
    eventParts ++ answerParts ++ [.regsCal, .regsCore, .regsBatt, .regsCtx, .raised, .mem, .ctxs, .batts, .cores, .cal, .freeCtr]
  | .thermalShutdown .. =>
    eventParts ++ answerParts ++ [.regsPwr, .regsCore, .regsBatt, .regsCtx, .raised, .mem, .ctxs, .batts, .cores, .pwr, .freeCtr]
  | .enableOpen | .underVoltageStop .. | .overVoltageStop .. | .currentLimitStop .. =>
    regParts ++ [.vis, .raised, .clears, .mem, .now, .frame, .fr, .ports, .ctxs, .batts, .cores, .link, .flt, .pwr, .cal, .sec, .img]
  | .controlCoreWatchdog .. | .engineReset .. | .coreReset .. | .dieReset .. | .deviceReset .. | .resetTimeout .. =>
    eventParts ++ answerParts ++ [.regsDev, .regsCal, .regsCore, .regsBatt, .regsCtx, .raised, .mem, .ctxs, .batts, .cores, .pwr, .cal]
  | .tick .. =>
    regParts ++ eventParts ++ answerParts ++ [.vis, .raised, .clears, .mem, .now, .frame, .ctxs, .batts, .cores, .link, .pwr, .cal, .sec, .freeCtr]
  | .uncorrectableEcc .. | .engineWatchdog .. | .dmaWatchdog .. | .battWatchdog .. | .planWatchdog .. =>
    eventParts ++ answerParts ++ [.regsDev, .regsCal, .regsCore, .regsBatt, .regsCtx, .raised, .mem, .ctxs, .batts, .cores, .pwr, .cal, .sec, .freeCtr]
  | .managementReset .. | .enableClose .. | .startThreshold .. =>
    regParts ++ eventParts ++ answerParts ++ [.vis, .raised, .clears, .mem, .now, .frame, .ctxs, .batts, .cores, .link, .pwr, .cal, .sec, .img, .freeCtr]
  | .deviceResetComplete .. =>
    eventParts ++ [.regsDev, .regsCfg, .regsPwr, .regsCal, .regsSec, .regsLnk, .regsImg, .regsCore, .regsBatt, .regsCtx, .regsHsess, .regsRoute, .vis, .raised, .mem, .ctxs, .batts, .cores, .link, .pwr, .sec, .img, .freeCtr]

/-- The memory's canonical form: addresses strictly rising, no entry equal to what an unlisted address reads as (log entry 5). -/
def Memory.wf (m : List Host.Cell) : Bool := tblWf (fun _ => (0 : Byte)) m

/-- Memory, the register words, and the tables of contexts, batts and cores are in their canonical form: equal contents are equal data. -/
def State.canonical (s : State) : Prop :=
  Memory.wf s.mem = true ∧ tblWf resetWord s.regs = true ∧ tblWf resetWord s.vis = true ∧ tblWf (fun _ => Ctx.empty) s.ctxs = true ∧
  tblWf (fun _ => Batt.empty) s.batts = true ∧ tblWf (fun _ => Core.empty) s.cores = true

/-- Command i completes in state s, and what it leaves has property P. -/
def Completes (i : Instr) (s : State) (P : State → Prop) : Prop := ∃ t, exec i s = .next t ∧ P t

/-- Commands at which what readers see may change (R43): the tick, the beginning of a step at its opening tick, the start of the module from
power-on or a management reset, the end of a device reset, and the stops that take its power away. -/
def shows (i : Instr) : Bool :=
  match i with
  | .tick .. | .stepBegin .. | .logRecompute .. | .enableOpen | .enableClose .. | .startThreshold .. | .managementReset .. | .underVoltageStop .. | .overVoltageStop ..
  | .currentLimitStop .. | .deviceResetComplete .. => true
  | _ => false

/-! The vector engine (spec/06_core_digital.md R217 to R224). -/

/-- Vector v of the destination holds the results of its active lanes, each in its width; an inactive lane holds zero with MZERO and else
what it held (R219); no byte outside the vector's 256 changes (R218). -/
def VectorWritten (p : Nat) (x : VecInstr) (v : Nat) (res : Nat → Nat) (u w : State) : Prop :=
  (∀ i < laneCount x.type, w.lane p x.dst x.type v i =
    if u.maskBit p x.mask x.type i then res i % 2 ^ laneBits x.type else if x.mzero then 0 else u.lane p x.dst x.type v i) ∧
  ∀ b, (∀ k < 256, b ≠ vecKey p x.dst (256 * v + k)) → w.byte b = u.byte b

/-- From s to t an instruction writes its vectors in order, each from the memory that the vectors before it leave: u v is the state before
vector v, and only memory, trace records and free values differ between s and t. -/
def LaneRun (p : Nat) (x : VecInstr) (res : State → Nat → Nat → Nat) (s t : State) : Prop :=
  SameBut [.mem, .sec, .freeCtr] s t ∧
  ∃ u : Nat → State, (∀ v, SameBut [.mem, .sec, .freeCtr] s (u v)) ∧ (∀ b, (u 0).byte b = s.byte b) ∧
    (∀ b, t.byte b = (u x.vectors).byte b) ∧ ∀ v < x.vectors, VectorWritten p x v (res (u v) v) (u v) (u (v + 1))

/-- The bytes at an offset from a vector address are l; every other byte, and all but memory, trace records and free values, is as it was. -/
def BytesWritten (p a off : Nat) (l : List Byte) (s t : State) : Prop :=
  SameBut [.mem, .sec, .freeCtr] s t ∧ (∀ k < l.length, t.byte (vecKey p a (off + k)) = l.getD k 0) ∧
  ∀ b, (∀ k < l.length, b ≠ vecKey p a (off + k)) → t.byte b = s.byte b

/-- n rows of bytes written in order, each formed from the state that the rows before it leave. -/
def RowsWritten (p a stride n : Nat) (row : State → Nat → List Byte) (s t : State) : Prop :=
  SameBut [.mem, .sec, .freeCtr] s t ∧
  ∃ u : Nat → State, (∀ v, SameBut [.mem, .sec, .freeCtr] s (u v)) ∧ (∀ b, (u 0).byte b = s.byte b) ∧ (∀ b, t.byte b = (u n).byte b) ∧
    ∀ v < n, BytesWritten p a (stride * v) (row (u v) v) (u v) (u (v + 1))

/-- Element i of packed elements of w bits at an offset from a vector address, n in all (R157). -/
def State.packed (s : State) (p a off w n i : Nat) : Nat := s.vecLoad p a off (n * w / 8) / 2 ^ (w * i) % 2 ^ w

/-- A row of packed elements at the destination: active lanes hold their results, inactive ones zero with MZERO and else what they held
(R219); no byte outside the row changes. -/
def CodesWritten (p : Nat) (x : VecInstr) (off w : Nat) (res : Nat → Nat) (s t : State) : Prop :=
  SameBut [.mem, .sec, .freeCtr] s t ∧
  (∀ i < laneCount x.type, t.packed p x.dst off w (laneCount x.type) i =
    if s.maskBit p x.mask x.type i then res i % 2 ^ w else if x.mzero then 0 else s.packed p x.dst off w (laneCount x.type) i) ∧
  ∀ b, (∀ k < laneCount x.type * w / 8, b ≠ vecKey p x.dst (off + k)) → t.byte b = s.byte b

/-- The instruction's rows of packed elements of w bits, in order. -/
def CodesRun (p : Nat) (x : VecInstr) (w : Nat) (res : State → Nat → Nat → Nat) (s t : State) : Prop :=
  SameBut [.mem, .sec, .freeCtr] s t ∧
  ∃ u : Nat → State, (∀ v, SameBut [.mem, .sec, .freeCtr] s (u v)) ∧ (∀ b, (u 0).byte b = s.byte b) ∧
    (∀ b, t.byte b = (u x.vectors).byte b) ∧
    ∀ v < x.vectors, CodesWritten p x (v * (laneCount x.type * w / 8)) w (res (u v) v) (u v) (u (v + 1))

/-- Mask registers of core p set: register n of the list to its value, a write to k0 ignored (R219); nothing else of the cores changes. -/
def MasksSet (p : Nat) (l : List (Nat × BitVec 64)) (s t : State) : Prop :=
  SameBut [.cores, .sec, .freeCtr] s t ∧ (∀ q, q ≠ p → t.core q = s.core q) ∧ ({ t.core p with masks := (s.core p).masks } : Core) = s.core p ∧
  ∀ n, t.maskReg p n = if n = 0 then BitVec.allOnes 64 else tget (s.maskReg p n) l n

/-! Bytes moved by engines and flits, and sync counters (spec/06_core_digital.md R233, spec/11_sync_and_contexts.md R368 to R371). -/

/-- After byte stores in order, byte b holds the last one stored at it, or what it held. -/
def lastStored (l : List (Nat × Byte)) (s : State) (b : Nat) : Byte :=
  match l.reverse.find? (fun e => decide (e.1 = b)) with
  | some e => e.2
  | none => s.byte b

/-- The bytes from address a on are l, and every other byte is as it was. -/
def Stored (a : Nat) (l : List Byte) (s t : State) : Prop :=
  ∀ b, t.byte b = if a ≤ b ∧ b < a + l.length then l.getD (b - a) 0 else s.byte b

/-- Counter k of context c on core p is advanced by v, l and d; its other counters, and every other context and core, keep theirs (R369). -/
def Counted (p c k v l d : Nat) (s t : State) : Prop :=
  (t.set_ p c).ctr k = (((s.set_ p c).latch s.frame).ctr k).add v l d ∧
  (∀ j, j ≠ k → (t.set_ p c).ctr j = ((s.set_ p c).latch s.frame).ctr j) ∧ (t.set_ p c).waits = (s.set_ p c).waits ∧
  ∀ q e, q ≠ p ∨ e ≠ c → t.set_ q e = s.set_ q e

/-- What a kill does to sync counters and waits: every counter of an affected context holds its value at the opening tick plus the cross-module
arrivals since, in VALUE, LANDED and PROMISED, and every wait is gone (R47, R376, R398). -/
def Restored (s t : State) : Prop :=
  (∀ p c k, c ∈ s.affected → k < 64 →
    let far := fun (g : Nat × Nat × Nat → Nat) => (((s.core p).arrived.filter (fun e => decide (e.1 = c * 64 + k))).map (fun e => g e.2)).sum
    let o := (tget SaveArea.empty (s.core p).opening c).ctr k
    ((t.set_ p c).ctr k).value % 2 ^ 32 = (o.value + far (fun n => n.1)) % 2 ^ 32 ∧
    ((t.set_ p c).ctr k).landed % 2 ^ 32 = (o.landed + far (fun n => n.2.1)) % 2 ^ 32 ∧
    ((t.set_ p c).ctr k).promised % 2 ^ 32 = (o.promised + far (fun n => n.2.2)) % 2 ^ 32) ∧
  ∀ p, (t.core p).waits = []

/-! Counters, event bits and the event log. -/

/-- How many values a field holds. -/
def Fld.size (f : Fld) : Nat := 2 ^ (f.hi + 1 - f.lo)

/-- Counter field f of index i is n higher, modulo its width (R367). -/
def Advanced (f : Fld) (i n : Nat) (s t : State) : Prop := t.get f i = (s.get f i + n) % f.size

/-- One EVENT of a status about a unit is in the event log's buffer, if the buffer has room (R408); its details are d0 and d1. -/
def Logged (status kind index d0 d1 : Nat) (s t : State) : Prop :=
  s.flt.logBuf.length < 4096 →
    t.flt.logBuf = s.flt.logBuf ++ [⟨s.flt.logSeq, status, s.frame, kind, index, d0 % 2 ^ 32, d1 % 2 ^ 64, s.ports.ptpSec, s.ports.ptpNs⟩]

/-- The same for an event that occurs at the closing tick: it carries the next frame's number (R356). -/
def LoggedAt (status kind index d0 d1 : Nat) (s t : State) : Prop := Logged status kind index d0 d1 { s with frame := s.frame + 1 } t

/-! Commands of the owner (spec/10_host_ports.md R347, R354, R366). -/

/-- A message is taken in: its identity is not quiet, and its source matches its session. -/
def Received (s : State) (type : Nat) (r : Req) : Prop := s.quiet r.session type r.tag = false ∧ s.sessionOk r = true

/-- A write of the owner is taken in, and its checks pass (R66, R70, R366, R571): CTX, GEN, ARG0 and ARG1 are zero, the session is the owner, the
class-2 queue has room, and the module is in service unless the registers are written in any phase (R556). -/
def Taken (s : State) (r : Req) (anyPhase : Bool) : Prop :=
  Received s 0x0A r ∧ r.ctx = 0 ∧ r.gen = 0 ∧ r.arg0 = 0 ∧ r.arg1 = 0 ∧ s.isOwner r = true ∧ s.fr.q2 < 64 ∧ (anyPhase = true ∨ s.phase ≤ 1)

/-- A write of one entry of 12 bytes, as a command register takes it (R8, R366). -/
def TakenOne (s : State) (r : Req) (anyPhase : Bool) : Prop := Taken s r anyPhase ∧ r.len = 12

/-- A message leaves on its own port, or on the other while that is down (R358). -/
def Sends (m : OutMsg) (s t : State) : Prop := ∀ p, s.route m.port = some p → t.sent = s.sent ++ [.trp p m]

/-- Its answer waits for the tick at which it takes effect, and it counts in the class-2 queue (R70, R366). -/
def Acknowledged (r : Req) (s t : State) : Prop :=
  t.fr.q2 = s.fr.q2 + 1 ∧ t.fr.held = s.fr.held ++ [⟨2, 0, answer 0x0A r ⟨stOk, 0, 0⟩ 0⟩]

/-- The entries of an admitted write are applied in their order, once the write is acknowledged (R366). -/
def Applied (r : Req) (entries : List WriteEntry) (apply : WriteEntry → State → State) (s t : State) : Prop :=
  ∃ u, SameBut answerParts s u ∧ Acknowledged r s u ∧ t = entries.foldl (fun s e => apply e s) u

/-! The gradient exchange (spec/08_gradient_exchange.md R279, R284). -/

/-- A message leaves on the route that this module as its source takes (R336), unless none is open to it (R76, R325, R332). -/
def Leaves (copy : Bool) (dest vc kind : Nat) (l : List Nat) (s t : State) : Prop :=
  ∀ r, s.leavesOn dest vc copy = some r → Wire.record r dest vc kind l ∈ t.sent

/-- A portion leaves with its header and n samples, a check copy on the alternate route; its bytes count as sent and its signal waits for the
commit window. -/
def Portion (copy : Bool) (c : Nat) (tm : Template) (f : Xfer) (n : Nat) (data : List Byte) (s t : State) : Prop :=
  let m := tm.group.getD f.member 0
  let b := s.xferHeader c tm f n ++ data
  Leaves copy m 2 256 ([c, s.gen c, f.addr] ++ b.map (fun v => v.toNat)) s t ∧
    (⟨m, c, s.gen c, f.addr, b.length⟩ : SentBytes) ∈ t.fr.wrote ∧ (⟨m, c, s.gen c, f.core, f.ctr, 1, b.length⟩ : HeldSignal) ∈ t.fr.signals

/-- The step's exchange works: the context spans modules, its step runs, its attempt is not stopped, and the module takes part in VC 2 (R76). -/
def Exchanging (s : State) (c : Nat) (tm : Template) : Prop :=
  s.template c = some tm ∧ tm.multi = true ∧ s.exchanging c = true ∧ s.vcOpen 2 = true

end Sys2Proof.Machine
end

