-- ==== Sys2Proof/Certificates/Slice0/Obligations.lean ====
section
/-!
DEFINITION. Certificates/Slice0/Obligations.lean: the claims about the module, each over all states and operands that meet its hypotheses.
-/
open Sys2Proof Sys2Proof.Machine

/-! The block as a whole. -/

/-- A step takes the command at the front of the queue and runs it on the state with the queue's rest; on an empty queue the block idles, which is the
model's choice (log entry 34). -/
def Obligations.StepTakesFront : Prop :=
  (∀ (c : Instr) (s : State), step { s with pending := c :: s.pending } = exec c s) ∧ ∀ s : State, s.pending = [] → step s = .next s

/-- After reset every table and memory is in its canonical form, no command waits and no byte of memory is listed; the registers of the units hold
what their tables give them: κ 1.0, range trim 1.0, every count and event bit of a batt 0, and readers see the same. -/
def Obligations.ResetRegisters : Prop :=
  State.reset.canonical ∧ State.reset.pending = [] ∧ State.reset.mem = [] ∧
  ∀ b < 1536, State.reset.get F.BATT_GAIN_KAPPA b = 0x4000 ∧ State.reset.get F.BATT_GAIN_RANGE_TRIM b = 0x80 ∧
    State.reset.get F.BATT_GAIN_REF_BLOCK b = 0 ∧ State.reset.get F.BATT_PASSES_PASSES b = 0 ∧ State.reset.get F.BATT_SPLITS_SPLITS b = 0 ∧
    State.reset.get F.BATT_SPLITS_ZERO_PASSES b = 0 ∧ State.reset.get F.BATT_FAULTS_SPARES_USED b = 0 ∧
    State.reset.get F.BATT_FAULTS_REF_DISCARDS b = 0 ∧ State.reset.get F.BATT_FAULTS_BATT_CLIPS b = 0 ∧
    State.reset.get F.BATT_FAULTS_BATT_I16_CLAMPS b = 0 ∧ State.reset.get F.BATT_EVT_REF_FAIL b = 0 ∧ State.reset.get F.BATT_EVT_I16_CLAMP b = 0 ∧
    State.reset.get F.BATT_EVT_HOT b = 0 ∧ State.reset.get F.BATT_EVT_CLIPPED b = 0 ∧ State.reset.seen F.BATT_GAIN_KAPPA b = 0x4000 ∧
    State.reset.get F.DEV_STATE_PHASE 0 = 0 ∧ State.reset.get F.FRM_NUM_LO_FRAME 0 = 0

/-- Every step keeps the canonical form of memory, registers, contexts, batts and cores. -/
def Obligations.CanonicalKept : Prop :=
  ∀ s t : State, s.canonical → step s = .next t → t.canonical

/-- The frame of every command: what lies outside the parts that the command touches is as it was, register by register and byte by byte. -/
def Obligations.FrameOfEveryCommand : Prop :=
  ∀ (i : Instr) (s t : State), exec i s = .next t → SameBut (touches i) s t

/-- What readers see changes at a tick alone, and when the module starts or stops: TICK, the beginning of a step or of a recomputed step at its
opening tick, the power-on and management-reset commands, the end of a device reset and the stops that take power away. -/
def Obligations.ReadersSeeTheTick : Prop :=
  ∀ (i : Instr) (s t : State), exec i s = .next t → shows i = false → ∀ f j, t.seen f j = s.seen f j

/-- Nothing that the module has sent is taken back, and free values are drawn in order, at every step. -/
def Obligations.SentOnlyGrows : Prop :=
  ∀ s t : State, step s = .next t → (∃ l, t.sent = s.sent ++ l) ∧ s.freeCtr ≤ t.freeCtr

/-! The vector engine (spec/06_core_digital.md R217 to R230). -/

/-- ADD, SUB, MUL, FMA, MIN, MAX, ABS and NEG complete where the engine runs them: every active lane of every vector holds the operation's
result on its operand lanes, an INT32 result beyond the type's range being free (log entry 27). One that the engine does not run, because it may
not or because a tile's check is still open (R171), leaves the state as it was. -/
def Obligations.VectorArithmetic : Prop :=
  ∀ (p : Nat) (x : VecInstr) (s : State),
    let runs := fun (op : Nat) => x.legal op = true ∧ s.vecRuns p x op = true
    (runs 0x01 → Completes (.add p x) s (LaneRun p x (fun u v i =>
      laneAdd x.type (u.freeAt x v i) (rndOf x.rnd) (u.lane p x.srcA x.type v i) (u.laneB p x v i)) s)) ∧
    (runs 0x02 → Completes (.sub p x) s (LaneRun p x (fun u v i =>
      laneSub x.type (u.freeAt x v i) (rndOf x.rnd) (u.lane p x.srcA x.type v i) (u.laneB p x v i)) s)) ∧
    (runs 0x03 → Completes (.mul p x) s (LaneRun p x (fun u v i =>
      laneMul x.type (u.freeAt x v i) (rndOf x.rnd) (u.lane p x.srcA x.type v i) (u.laneB p x v i)) s)) ∧
    (runs 0x05 → Completes (.vMin p x) s (LaneRun p x (fun u v i => laneMin x.type true (u.lane p x.srcA x.type v i) (u.laneB p x v i)) s)) ∧
    (runs 0x06 → Completes (.vMax p x) s (LaneRun p x (fun u v i => laneMin x.type false (u.lane p x.srcA x.type v i) (u.laneB p x v i)) s)) ∧
    (runs 0x04 → Completes (.fma p x) s (LaneRun p x (fun u v i =>
      laneFma x.type (rndOf x.rnd) (u.lane p x.srcA x.type v i) (u.laneB p x v i) (u.lane p x.dst x.type v i)) s)) ∧
    (runs 0x07 → Completes (.abs p x) s (LaneRun p x (fun u v i => laneAbs x.type (u.freeAt x v i) (u.lane p x.srcA x.type v i)) s)) ∧
    (runs 0x08 → Completes (.neg p x) s (LaneRun p x (fun u v i => laneNeg x.type (u.freeAt x v i) (u.lane p x.srcA x.type v i)) s)) ∧
    (∀ op i, (op, i) ∈ [(0x01, Instr.add p x), (0x02, .sub p x), (0x03, .mul p x), (0x04, .fma p x), (0x05, .vMin p x), (0x06, .vMax p x),
      (0x07, .abs p x), (0x08, .neg p x)] → x.legal op = true → s.vecRuns p x op = false → exec i s = .next s)

/-- MOV, SEL, SELP, PERM and SHUF complete: each active lane holds the lane of an operand that the instruction names; SEL writes every lane. -/
def Obligations.VectorSelection : Prop :=
  ∀ (p : Nat) (x : VecInstr) (s : State),
    let runs := fun (op : Nat) => x.legal op = true ∧ s.vecRuns p x op = true
    (runs 0x09 → Completes (.mov p x) s (LaneRun p x (fun u v i => if x.bimm then u.laneB p x v i else u.lane p x.srcA x.type v i) s)) ∧
    (runs 0x12 → Completes (.sel p x) s (LaneRun p { x with mask := 0 } (fun u v i =>
      if s.maskBit p x.mask x.type i then u.lane p x.srcA x.type v i else u.laneB p x v i) s)) ∧
    (runs 0x28 → Completes (.perm p x) s (LaneRun p x (fun u v i =>
      let k := signedOf (laneBits x.type) (u.laneB p x v i)
      if 0 ≤ k ∧ k < laneCount x.type then u.lane p x.srcA x.type v k.toNat else 0) s)) ∧
    (runs 0x13 → Completes (.selp p x) s (LaneRun p x (fun u v i =>
      if (BitVec.ofNat 64 (u.vecLoad p x.srcB (8 * v) 8)).getLsbD i then u.lane p x.srcA x.type v i else u.lane p x.dst x.type v i) s)) ∧
    (runs 0x29 → Completes (.shuf p x) s (LaneRun p x (fun u v i =>
      let q := shufLane (x.aux % 8) (x.srcB % 128) (laneCount x.type) i
      if q.1 then u.laneB p x v q.2 else u.lane p x.srcA x.type v q.2) s))

/-- EXP2, LOG2, RSQRT and RCP complete with the function of each active FP32 lane, PSUM with its partials added in ascending order from
partial 0, and UNPACK with the value of each packed element under its scale. -/
def Obligations.VectorFunctions : Prop :=
  ∀ (p : Nat) (x : VecInstr) (s : State),
    let runs := fun (op : Nat) => x.legal op = true ∧ s.vecRuns p x op = true
    (runs 0x18 → Completes (.exp2 p x) s (LaneRun p x (fun u v i => (fexp2 (BitVec.ofNat 32 (u.lane p x.srcA x.type v i))).toNat) s)) ∧
    (runs 0x19 → Completes (.log2 p x) s (LaneRun p x (fun u v i => (flog2 (BitVec.ofNat 32 (u.lane p x.srcA x.type v i))).toNat) s)) ∧
    (runs 0x1A → Completes (.rsqrt p x) s (LaneRun p x (fun u v i => (frsqrt (BitVec.ofNat 32 (u.lane p x.srcA x.type v i))).toNat) s)) ∧
    (runs 0x1B → Completes (.rcp p x) s (LaneRun p x (fun u v i => (frcp (BitVec.ofNat 32 (u.lane p x.srcA x.type v i))).toNat) s)) ∧
    (runs 0x35 → Completes (.psum p x) s (LaneRun p x (fun u v i => (fsum ((List.range (x.aux % 256 + 1)).map (fun q =>
      BitVec.ofNat 32 (u.vecLoad p x.srcA (q * x.srcB + 256 * v + 4 * i) 4)))).toNat) s)) ∧
    (runs 0x22 → Completes (.unpack p x) s (LaneRun p x (fun u v i => u.unpacked p x (x.aux % 16) v i) s))

/-- CVT, and PACK to BF16 or FP16, complete: each active lane's element is its value converted to the target format. PACK to a narrower
format completes vector by vector: the elements, then for an MX format the scale plane, then the trouble counts of tile counter TCX. A pack
group whose rung is not in force writes nothing (R174). -/
def Obligations.VectorConversion : Prop :=
  ∀ (p : Nat) (x : VecInstr) (g : Option PackTile) (s : State),
    let runs := fun (op : Nat) => x.legal op = true ∧ s.vecRuns p x op = true
    let f := x.aux % 16
    let key := s.opKeyOf (s.active p) x.op
    let row := fun (u : State) v i => cvtCode x.type f (u.freeAt x v i) (State.cvtMode x key v i) (u.lane p x.srcA x.type v i)
    (runs 0x20 → Completes (.cvt p x) s (CodesRun p x (elemBits f) row s)) ∧
    (runs 0x21 → s.groupRuns p g f = false → Completes (.pack p ⟨x, g⟩) s (fun t => SameBut [.sec] s t ∧ ∀ b, t.byte b = s.byte b)) ∧
    (runs 0x21 → s.groupRuns p g f = true →
      (f = 1 ∨ f = 2 → Completes (.pack p ⟨x, g⟩) s (CodesRun p x (elemBits f) row s)) ∧
      (isNarrow f = true → p < 192 → Completes (.pack p ⟨x, g⟩) s (fun t =>
        SameBut [.regsCtx, .raised, .mem, .cores, .sec, .freeCtr] s t ∧
        (⟨s.active p, x.tcx, vecKey p x.dst 0, x.elems * elemBits f / 8, vecKey p x.srcA 0, x.full, false⟩ : Guard) ∈ (t.core p).guards ∧
        ∃ u : Nat → State, (∀ v, SameBut [.regsCtx, .raised, .mem, .sec, .freeCtr] s (u v)) ∧ (∀ b, (u 0).byte b = s.byte b) ∧
          (∀ b, t.byte b = (u x.vectors).byte b) ∧ ∀ v < x.vectors,
            let n := laneCount x.type
            let w := narrowRow f (x.aux / 16 % 2) ((u v).freeAt x v 0) (BitVec.ofNat 32 x.srcB) ((u v).packVals p x v)
            ∃ a b, CodesWritten p x (v * (n * elemBits f / 8)) (elemBits f) (fun i => w.codes.getD i 0) (u v) a ∧
              BytesWritten p x.srcB (v * (n / 32)) (if isMx f then w.scales.map (fun c => BitVec.ofNat 8 c) else []) a b ∧
              (u (v + 1)).tileCtr p x.tcx = addTile (b.tileCtr p x.tcx) w ∧
              (∀ k, (∀ j < 8, k ≠ accAddr p (0x3C000 + 8 * x.tcx + j)) → (u (v + 1)).byte k = b.byte k) ∧
              (0 < w.nan → (u (v + 1)).get F.NUM_EVT_NAN (s.active p) = 1))))

/-- CMP, KSET and KOP complete by setting mask registers, and CMPS by writing one mask word for each vector. -/
def Obligations.VectorMasks : Prop :=
  ∀ (p : Nat) (x : VecInstr) (s : State),
    let runs := fun (op : Nat) => x.legal op = true ∧ s.vecRuns p x op = true
    let k := x.aux / 8 % 8
    (runs 0x10 → Completes (.cmp p x) s (MasksSet p
      ((k, bitsOf ((List.range 64).map (fun i => s.cmpBit p x 0 i ((s.maskReg p k).getLsbD i)))) ::
        if x.type = 1 ∧ k ≠ 0 then
          [(k + 1, bitsOf ((List.range 64).map (fun i => s.cmpBit p x 0 (64 + i) ((s.maskReg p (k + 1)).getLsbD i))))] else []) s)) ∧
    (runs 0x11 → Completes (.cmps p x) s (RowsWritten p x.dst 8 x.vectors (fun u v => leBytes 8 (bitsOf ((List.range 64).map (fun i =>
      u.cmpBit p x v i ((BitVec.ofNat 64 (u.vecLoad p x.dst (8 * v) 8)).getLsbD i)))).toNat) s)) ∧
    (runs 0x3C → Completes (.kset p x) s (MasksSet p [(x.aux % 8, BitVec.ofNat 64 (2 ^ (x.srcB % 128) - 1))] s)) ∧
    (runs 0x3D → Completes (.kop p x) s (MasksSet p [(x.aux % 8,
      let a := s.maskReg p (x.srcB % 8)
      let b := s.maskReg p (x.srcB / 8 % 8)
      match k % 4 with
      | 0 => a &&& b
      | 1 => a ||| b
      | 2 => a ^^^ b
      | _ => a &&& ~~~b)] s))

/-- RSUM, RMAX, RMIN and TOPK complete with their result at the destination; TOPKM merges the lists of each vector. -/
def Obligations.VectorReductions : Prop :=
  ∀ (p : Nat) (x : VecInstr) (s : State),
    let runs := fun (op : Nat) => x.legal op = true ∧ s.vecRuns p x op = true
    let k := x.aux % 16 + 1
    (runs 0x30 → Completes (.rsum p x) s (BytesWritten p x.dst 0 (leBytes 4 (s.rsumOf p x).toNat) s)) ∧
    (runs 0x31 → Completes (.rmax p x) s (BytesWritten p x.dst 0 (pairBytes [extreme x.type true (s.activePairs p x)]) s)) ∧
    (runs 0x32 → Completes (.rmin p x) s (BytesWritten p x.dst 0 (pairBytes [extreme x.type false (s.activePairs p x)]) s)) ∧
    (runs 0x33 → Completes (.topk p x) s (BytesWritten p x.dst 0 (pairBytes (topList k (s.activePairs p x))) s)) ∧
    (runs 0x34 → Completes (.topkm p x) s (RowsWritten p x.dst 256 x.vectors (fun u v =>
      pairBytes (topList k (u.pairsAt p x.srcA (256 * v) k ++ u.pairsAt p x.srcB (256 * v) k))) s))

/-- TCHK completes: the mask register says whether the tile is in trouble, the counter is cleared and its counts go to the context's
registers, the guard of a passed tile opens, and a tile in trouble with a rung left is escalated. -/
def Obligations.VectorTileCheck : Prop :=
  ∀ (p : Nat) (x : VecInstr) (r : TileRef) (s : State), p < 192 → x.legal 0x38 = true → s.vecRuns p x 0x38 = true →
    let c := s.active p
    let n := s.tileCtr p x.tcx
    let k := x.aux / 8 % 8
    let bad := inTrouble (x.aux % 8) r.satMax r.zeroMax n
    Completes (.tchk p x r) s (fun t =>
      t.maskReg p k = (if k = 0 then BitVec.allOnes 64 else if bad then 1 else 0) ∧ t.tileCtr p x.tcx = 0 ∧
      (∀ a, (∀ j < 8, a ≠ accAddr p (0x3C000 + 8 * x.tcx + j)) → t.byte a = s.byte a) ∧
      Advanced F.NUM_SAT_SAT c (n % 2 ^ 15) s t ∧ Advanced F.NUM_ZERO_ZERO c (n / 2 ^ 16 % 2 ^ 15) s t ∧
      (bad = true ∧ (nextRung (x.aux % 8) r.fmt).isSome = true →
        t.get F.NUM_EVT_ESCALATED c = 1 ∧ Advanced F.NUM_ESC_ESCALATIONS c 1 s t) ∧
      (bad = false → t.get F.NUM_EVT_ESCALATED c = s.get F.NUM_EVT_ESCALATED c ∧ t.sent = s.sent ∧
        ∀ g ∈ (t.core p).guards, g.tcx = x.tcx → g.failed = true ∨ g.srcLen = 0))

/-! The matrix engine, the DMA engine and the sync unit (spec/06_core_digital.md R189 to R205, R231 to R235, spec/11_sync_and_contexts.md
R368 to R379, spec/09_aeline_link.md R321 to R324). -/

/-- MATRIX_OPERATION completes where the engine may run it and no operand is a narrowed tile that waits for its check (R171). Without STREAM every output stands in its slot's word, and no byte outside those words and the slots' flag
planes changes; with STREAM the rows stand packed in the scratchpad. The descriptor's counter is credited with the bytes. -/
def Obligations.MatrixOperation : Prop :=
  ∀ (p : Nat) (d : MatrixDesc) (s : State), d.ok = true → p < 192 → s.mayRun p 0 = true →
    s.untouched p (matReads p d) (matWrites p d) = true →
    let c := s.active p
    let key := s.opKeyOf c d.opId
    let rows := (List.range d.m).map (State.outRow d (d.outs.map (fun o => (o, s.matOut p d key o.1 o.2.1 o.2.2))))
    Completes (.matrixOperation p d) s (fun t =>
      (d.stream = false →
        (∀ o ∈ d.outs, t.word (accAddr p (d.slotByte o.1 o.2.1 o.2.2)) = (s.matOut p d key o.1 o.2.1 o.2.2).1) ∧
        (∀ b, (∀ o ∈ d.outs, ∀ k < 4, b ≠ accAddr p (d.slotByte o.1 o.2.1 o.2.2) + k) →
          (∀ k < d.tiles, ∀ j < 256, b ≠ accAddr p (0x3B000 + 256 * d.slotOf k) + j) → t.byte b = s.byte b) ∧
        (d.gen = s.gen c → Counted p c d.sigCtr 1 (4 * d.m * d.n) (4 * d.m * d.n) s t)) ∧
      (d.stream = true → (d.n * elemBits d.outFmt + 7) / 8 ≤ d.outStride → d.m * d.outStride + 4 * d.m * (d.n + 128) < 2 ^ 22 →
        ∃ fr, ∀ r < d.m, ∀ k < (d.n * elemBits d.outFmt + 7) / 8,
          t.byte (spAddr p (d.outAddr + r * d.outStride + k)) =
            (packBytes (elemBits d.outFmt) (if isNarrow d.outFmt then
                (narrowOut d.outFmt (if d.outRule = 0 then 0 else 1) (fr + (d.n + 127) / 128 * 128 * r) (State.streamScale d rows r) (rows.getD r [])).codes
              else (rows.getD r []).map (wideCode d.outFmt .near))).getD k 0) ∧
      (d.gen ≠ s.gen c → t.get F.CTX_EVT_STALE c = 1))

/-- COPY, FILL and TRANSPOSE complete inside the module: each destination byte holds the last byte that the descriptor moves to it (a free one
where source and destination meet, log entry 73), and every other byte is as it was; their counter is credited with the bytes. A stale descriptor moves nothing and shows in CTX_EVT. -/
def Obligations.DmaMoves : Prop :=
  ∀ (p : Nat) (d : DmaDesc) (s : State) (i : Instr) (op : Nat), (i, op) ∈ [(.copy p d, 1), (.fill p d, 2), (.transpose p d, 3)] →
    d.ok op = true → p < 192 → s.mayRun p 3 = true → s.dmaUntouched p d op = true → s.dmaInside p (s.active p) d op = true → d.dstKind ≠ 4 →
    Completes i s (fun t =>
      (d.gen = s.gen (s.active p) →
        (∀ b, t.byte b = lastStored (((d.dstRanges op).zip (s.dmaMoved p d op)).flatMap (fun r =>
          r.2.zipIdx.map (fun e => (s.endKey p d.dstKind d.peer (r.1.1.toNat + e.2), e.1)))) s b) ∧
        ∀ q, s.physOf d.sigCore = some q → Counted q (s.active p) d.sigCtr 1 d.total d.total s t) ∧
      (d.gen ≠ s.gen (s.active p) → (∀ b, t.byte b = s.byte b) ∧ t.get F.CTX_EVT_STALE (s.active p) = 1))

/-- To another module a descriptor's ranges leave as flits in order on the route that the source takes, or are dropped and counted on its port
while that is not UP (R325), and its signal waits for the commit window; a module that does not hold the tick sends neither on VC 1 to 6 (R76). A descriptor outside the regions
granted to its context moves nothing: it sets the core's DMA_BOUNDS event and faults the context with cause 1 (R235). -/
def Obligations.DmaRemoteAndOutside : Prop :=
  ∀ (p : Nat) (d : DmaDesc) (s : State) (i : Instr) (op : Nat), (i, op) ∈ [(.copy p d, 1), (.fill p d, 2), (.transpose p d, 3)] →
    d.ok op = true → s.mayRun p 3 = true → s.dmaUntouched p d op = true →
    let c := s.active p
    let flits := ((d.dstRanges op).zip (s.dmaMoved p d op)).map (fun r => [c, d.gen, r.1.1.toNat] ++ r.2.map (fun b => b.toNat))
    (s.dmaInside p c d op = true → d.dstKind = 4 → s.vcOpen d.vc = true → Completes i s (fun t => (∀ b, t.byte b = s.byte b) ∧
      (∀ o, s.leavesOn d.dstModule d.vc false = some o → t.sent = s.sent ++ flits.map (fun l => .record o d.dstModule d.vc 256 l)) ∧
      (s.leavesOn d.dstModule d.vc false = none → t.sent = s.sent ∧ ∀ o, s.sourceRoute d.dstModule false = some o →
        Advanced F.LNK_ERR_DROP_UNROUTE o.port ((flits.map (State.flitCount 256)).sum) s t) ∧
      t.fr.wrote = s.fr.wrote ++ [⟨d.dstModule, c, d.gen, d.dstAddr, d.total⟩] ∧
      t.fr.signals = s.fr.signals ++ [⟨d.dstModule, c, d.gen, d.sigCore, d.sigCtr, 1, d.total⟩])) ∧
    (s.dmaInside p c d op = true → d.dstKind = 4 → s.vcOpen d.vc = false → Completes i s (fun t => (∀ b, t.byte b = s.byte b) ∧
      t.sent = s.sent ∧ t.fr = s.fr)) ∧
    (p < 192 → s.dmaInside p c d op = false → Completes i s (fun t => (∀ b, t.byte b = s.byte b) ∧
      t.get F.NUM_CORE_EVT_DMA_BOUNDS p = 1 ∧ ((s.ctx c).faultDue = none → (t.ctx c).faultDue = some 1)))

/-- Reserved codes stop an engine's command: the spec gives them no effect. -/
def Obligations.ReservedCodesStop : Prop :=
  ∀ (p : Nat) (s : State),
    (∀ d : MatrixDesc, d.ok = false → exec (.matrixOperation p d) s = .fault .reservedCode) ∧
    (∀ d : DmaDesc, (d.ok 1 = false → exec (.copy p d) s = .fault .reservedCode) ∧
      (d.ok 2 = false → exec (.fill p d) s = .fault .reservedCode) ∧ (d.ok 3 = false → exec (.transpose p d) s = .fault .reservedCode)) ∧
    (∀ w k m v b, 3 ≤ m → exec (.wait p w k m v b) s = .fault .reservedCode) ∧
    (∀ (x : VecInstr) g r op i, (op, i) ∈ [(0x01, Instr.add p x), (0x02, .sub p x), (0x03, .mul p x), (0x04, .fma p x), (0x05, .vMin p x),
      (0x06, .vMax p x), (0x07, .abs p x), (0x08, .neg p x), (0x09, .mov p x), (0x10, .cmp p x), (0x11, .cmps p x), (0x12, .sel p x),
      (0x13, .selp p x), (0x18, .exp2 p x), (0x19, .log2 p x), (0x1A, .rsqrt p x), (0x1B, .rcp p x), (0x20, .cvt p x), (0x21, .pack p ⟨x, g⟩),
      (0x22, .unpack p x), (0x28, .perm p x), (0x29, .shuf p x), (0x30, .rsum p x), (0x31, .rmax p x), (0x32, .rmin p x), (0x33, .topk p x),
      (0x34, .topkm p x), (0x35, .psum p x), (0x38, .tchk p x r), (0x3C, .kset p x), (0x3D, .kop p x)] →
      x.legal op = false → exec i s = .fault .reservedCode)

/-- SIGNAL, WAIT, WAIT_RELEASE and CONTEXT_SWITCH complete: the counter advances, the wait is armed, a met wait is released, and the
incoming context's waits replace the outgoing one's, which are saved; no counter changes at a switch. -/
def Obligations.SyncUnit : Prop :=
  ∀ (s : State),
    (∀ o : SignalOp, s.fr.killed = none →
      (o.gen = s.gen o.ctx → ∀ p, s.physOf o.core = some p →
        Completes (.signal o) s (fun t => Counted p o.ctx o.ctr o.inc o.bytes o.bytes s t)) ∧
      (o.gen ≠ s.gen o.ctx → o.ctx < 1024 → Completes (.signal o) s (fun t => t.cores = s.cores ∧ t.get F.CTX_EVT_STALE o.ctx = 1))) ∧
    (∀ p w k m v b, s.mayIssue p = true → w < 12 → m < 3 → (∀ e ∈ (s.core p).waits, e.1 ≠ w) →
      Completes (.wait p w k m v b) s (fun t => (t.core p).waits = (s.core p).waits ++ [(w, ⟨k, m, v, b⟩)] ∧
        ∀ q c, t.set_ q c = s.set_ q c)) ∧
    (∀ p w e, (s.core p).waits.find? (fun x => decide (x.1 = w)) = some e →
      (s.waitMet p e.2 = true → Completes (.waitRelease p w) s (fun t =>
        (t.core p).waits = (s.core p).waits.filter (fun x => decide (x.1 ≠ w)) ∧ ∀ q c, t.set_ q c = s.set_ q c)) ∧
      (s.waitMet p e.2 = false → exec (.waitRelease p w) s = .next s)) ∧
    (∀ p c, p < 192 → c < 1024 → s.mayIssue p = true → s.active p ≠ c →
      Completes (.contextSwitch p c) s (fun t => t.active p = c ∧ (t.set_ p (s.active p)).waits = (s.core p).waits ∧
        (t.core p).waits = (s.set_ p c).waits ∧ (∀ q e k, (t.set_ q e).ctr k = (s.set_ q e).ctr k) ∧
        Advanced F.SYNC_SWITCH_SWITCHES p 1 s t))

/-- WRITE_FLIT completes: a flit whole within one granted receive region of the current generation lands and credits LANDED of the
region's counter; one in a checkpoint reserve lands; one outside is counted in DROP_BOUNDS, and a stale one in CTX_EVT, without landing. -/
def Obligations.WriteFlit : Prop :=
  ∀ (h : FlitHead) (a : Nat) (l : List Byte) (s : State), s.vcOpen h.vc = true →
    (h.vc = 1 → s.inReserve h.src a l.length = true → Completes (.writeFlit h a l) s (fun t => Stored a l s t ∧ t.cores = s.cores)) ∧
    (h.vc ≠ 1 ∨ s.inReserve h.src a l.length = false →
      (∀ r p, s.receiveRegion h.ctx a l.length = some r → h.gen = s.gen h.ctx → s.physOf r.core = some p →
        Completes (.writeFlit h a l) s (fun t => Counted p h.ctx r.ctr 0 l.length 0 s t ∧
          (s.suppressed h = false → Stored a l s t) ∧ (s.suppressed h = true → ∀ b, t.byte b = s.byte b))) ∧
      (∀ r, s.receiveRegion h.ctx a l.length = some r → h.gen ≠ s.gen h.ctx → h.ctx < 1024 →
        Completes (.writeFlit h a l) s (fun t => (∀ b, t.byte b = s.byte b) ∧ t.cores = s.cores ∧ t.get F.CTX_EVT_STALE h.ctx = 1)) ∧
      (s.receiveRegion h.ctx a l.length = none → h.port < 32 →
        Completes (.writeFlit h a l) s (fun t => (∀ b, t.byte b = s.byte b) ∧ t.cores = s.cores ∧
          Advanced F.LNK_ERR_DROP_BOUNDS h.port 1 s t)))

/-- SIGNAL_FLIT and WITHDRAW complete: with the frame tag of this frame their entries wait for the tick, after it they apply at once; a
withdrawal also suppresses the late writes of its frame for 8 frames. A module that does not hold the tick takes no signal on VC 1 to 6 (R76). -/
def Obligations.SignalFlits : Prop :=
  ∀ (h : FlitHead) (s : State),
    (∀ es, s.vcOpen h.vc = true → h.ftag = s.frame % 16 → Completes (.signalFlit h es) s (fun t =>
      t.link.arrived = s.link.arrived ++ es.map (fun e => ⟨h.src, h.ctx, h.gen, false, e.core, e.ctr, e.inc, e.bytes⟩) ∧ t.cores = s.cores)) ∧
    (∀ (e : SignalEntry) p, s.vcOpen h.vc = true → h.ftag ≠ s.frame % 16 → h.gen = s.gen h.ctx →
      s.physOf e.core = some p →
      Completes (.signalFlit h [e]) s (Counted p h.ctx e.ctr e.inc 0 e.bytes s)) ∧
    (∀ es fs u, exec (.signalFlit h es) s = .next u → exec (.signalFlit h (es ++ fs)) s = exec (.signalFlit h fs) u) ∧
    (∀ es, s.vcOpen h.vc = false → exec (.signalFlit h es) s = .next s) ∧
    (∀ ws, h.gen = s.gen h.ctx → Completes (.withdraw h ws) s (fun t =>
      t.link.suppress = s.link.suppress ++ [⟨h.src, h.ctx, h.ftag, (if h.ftag = s.frame % 16 then s.frame + 1 else s.frame) + 8⟩] ∧
      (h.ftag = s.frame % 16 → t.link.arrived = s.link.arrived ++ ws.filterMap (fun w =>
        (s.regionAt h.ctx w.1).map (fun r => ⟨h.src, h.ctx, h.gen, true, r.core, r.ctr, 0, w.2⟩)) ∧ t.cores = s.cores) ∧
      (∀ w r p, ws = [w] → h.ftag ≠ s.frame % 16 → s.regionAt h.ctx w.1 = some r → s.physOf r.core = some p →
        Counted p h.ctx r.ctr 0 (2 ^ 32 - w.2 % 2 ^ 32) 0 s t)))

/-! Batts (spec/03_batts.md R86 to R115, spec/05_formats_and_band_path.md R176 to R184, spec/13_silent_errors.md R423 to R425) and their rows
(spec/04_blocking_and_fulling.md). -/

/-- BATT_PASS completes on a batt that serves: the outputs of the layer's columns stand in the batt's output buffer of this parity, which
then turns; a pass on the batt counts its row groups, clamped candidates count against the context, and a forward that saves its input leaves
the codes, the static rows and the dynamic rows where the frame keeps them (R246). -/
def Obligations.ForwardPass : Prop :=
  ∀ (o : BattPass) (s : State) (c l : Nat) (y : Layer), s.battLayer o.batt = some (c, l, y) → o.batt < 1536 → c < 1024 →
    s.mayRun (o.batt / 8) (8 + o.batt % 8) = true → l = o.layer → s.serves c l o.batt = true →
    (o.query.isSome ∨ s.stageMode c l o.batt ≠ 1) →
    let x := s.layerSeen c l
    let mode := s.stageMode c l o.batt
    let g := stage x.sx s.freeCtr (s.bandRows o.batt c l) (o.xs.take y.rows)
    let outs := s.stageOuts o.batt c l y x.sx g o
    Completes (.battPass o) s (fun t =>
      (∃ u : State, (match o.save with
          | some a => if o.recompute ∨ mode = 2 then ∀ b, u.byte b = s.byte b else Stored a (State.savedInput g o.xs) s u
          | none => ∀ b, u.byte b = s.byte b) ∧
        Stored (accAddr (o.batt / 8) (0x20000 + o.batt % 8 * 0x1000 + (if (s.batt o.batt).outParity then 1 else 0) * 0x800))
          (outs.flatMap (fun v => leBytes 2 v.1)) u t) ∧
      (t.batt o.batt).outParity = !(s.batt o.batt).outParity ∧
      (mode = 0 → Advanced F.BATT_PASSES_PASSES o.batt (max 1 (rowGroups y.splitting g.codes).length) s t ∧ (t.batt o.batt).ran = true) ∧
      (o.recompute = false → Advanced F.BAND_OVF_OVF c (if mode = 2 then 0 else g.clamped) s t) ∧
      (t.layer c l).passes = (s.layer c l).passes + 1)

/-- R104. REFERENCE_PASSES completes batt by batt: a reading within 0.70 to 2.00 enters κ and the range trim, one outside is discarded, counted and
raises REF_FAIL, and the block keeps its earlier κ_k. RESET_REBUILD fills the persistent regions from their stack homes and the core serves again; REF_RECOVERY_COMPLETE returns the layer
to the batt. -/
def Obligations.ReferencePasses : Prop :=
  ∀ (s : State),
    (∀ o : RefSlot, s.phase = 1 → o.batt < 1536 →
      let k := s.frame % 16
      let r := blockRatio o.p.length (o.p.foldl (· + ·) 0 - o.z.foldl (· + ·) 0) (s.seen F.BATT_GAIN_RANGE_TRIM o.batt)
      Completes (.referencePasses [o]) s (fun t => t.get F.BATT_GAIN_REF_BLOCK o.batt = k ∧
        (ratioOk r = true →
          (∀ j, tget (1, 1) (t.batt o.batt).refSum j = if j = k then r else tget (1, 1) (s.batt o.batt).refSum j) ∧
          t.get F.BATT_GAIN_KAPPA o.batt = kappaOf (t.batt o.batt).refSum ∧
          t.get F.BATT_GAIN_RANGE_TRIM o.batt = trimOf (kappaOf (t.batt o.batt).refSum)) ∧
        (ratioOk r = false → (t.batt o.batt).refSum = (s.batt o.batt).refSum ∧ t.get F.BATT_EVT_REF_FAIL o.batt = 1 ∧
          t.get F.BATT_GAIN_KAPPA o.batt = s.get F.BATT_GAIN_KAPPA o.batt ∧
          t.get F.BATT_FAULTS_REF_DISCARDS o.batt = min 15 (s.get F.BATT_FAULTS_REF_DISCARDS o.batt + 1)))) ∧
    (∀ l m u, exec (.referencePasses l) s = .next u → exec (.referencePasses (l ++ m)) s = exec (.referencePasses m) u) ∧
    (∀ p rs, (s.core p).rebuilding = true → (s.core p).resetting = none → (∀ g ∈ s.img.accepted.persist, g.home + g.length ≤ 2 ^ 41) →
      Completes (.resetRebuild p rs) s (fun t => (t.core p).rebuilding = false ∧ ∀ b, t.byte b =
        lastStored ((s.img.accepted.persist.filter (fun g => decide (s.logicalOf p = some g.core))).flatMap (fun g =>
          (List.range g.length).map (fun k => (spAddr p (g.offset + k), s.byte (g.home + k))))) s b)) ∧
    (∀ b c l y, s.battLayer b = some (c, l, y) → b < 1536 → (s.layer c l).refLost = true → (∀ u ∈ s.unblocked c, u.1 ≠ b) →
      Completes (.refRecoveryComplete b) s (fun t => (t.layer c l).refLost = false ∧ t.get F.BATT_FAULTS_REF_DISCARDS b = 0))

/-- SHADOW_PASS, NUM_SPLIT_RAISED and DEBT_STARVED complete: a mismatch is counted and asks for a fulling pass, a match is counted alone; layers
with passes beyond their charge are marked for a raise when the context has more of them than the limit; rows of a context that have waited more
than 10,000 frames are marked, and their batts' STARVED events set. -/
def Obligations.ShadowSplitsAndDebt : Prop :=
  ∀ (s : State),
    (∀ (o : ShadowOp) c l y, s.battLayer o.batt = some (c, l, y) → o.batt < 1536 → s.battHot o.batt = false → s.phase = 1 →
      Completes (.shadowPass o) s (fun t => Advanced F.FLT_SHADOW_SHADOWS o.batt 1 s t ∧
        (State.shadowBad (s.shadowDiffs o.batt y o) o.lsb = true →
          Advanced F.FLT_SHADOW_MISMATCH o.batt 1 s t ∧ t.get F.FLT_SE_EVT_SHADOW 0 = 1 ∧ (t.batt o.batt).fulNow = true) ∧
        (State.shadowBad (s.shadowDiffs o.batt y o) o.lsb = false → t.batts = s.batts ∧ t.sent = s.sent))) ∧
    (∀ c, let keep := fun (l : List Nat) => l.filter (fun n => decide (s.frame < n + 1000))
      s.pol 0x18 < ((s.ctx c).layers.map (fun e => (keep e.2.overs).length)).foldl (· + ·) 0 →
      Completes (.numSplitRaised c) s (fun t => (∃ d0 d1, Logged 0x0605 6 c d0 d1 s t) ∧ ∀ l,
        (keep (s.layer c l).overs ≠ [] → (t.layer c l).raising = 1 ∧ (t.layer c l).overs = []) ∧
        (keep (s.layer c l).overs = [] → t.layer c l = s.layer c l))) ∧
    (∀ c, Completes (.debtStarved c) s (fun t =>
      (t.ctx c).debt = (s.ctx c).debt.map (fun d => if d.since + 10000 < s.frame then { d with starved := true } else d) ∧
      ∀ d ∈ (s.ctx c).debt, d.starved = false → d.since + 10000 < s.frame → d.batt < 1536 → t.get F.BLK_EVT_STARVED d.batt = 1))

/-- BLOCKING, and SPARE_FILL of a spare being filled, complete on a row that may be blocked whose operations have come to their end (R119): wear
rises for each operation with a pulse, the cells hold what the last verify read (R137), the last operation of the row is noted, and unless the
context's generation is stale the bytes and verify records wait for the tick; the first row of a load forms the scales (R167). BLOCKING with the
factory pattern does the same on a batt that no context has loaded, while a calibration request on it asks for the pattern. -/
def Obligations.RowOperations : Prop :=
  ∀ (o : RowOp) (s : State), s.mayBlock o = true →
    let worked := fun (v : State) (target : Nat → Int) (runs : List (List Nat × List (List (Nat × List Int)) × List Nat)) (t : State) =>
      tget 0 (t.batt o.batt).wear o.row = tget 0 (s.batt o.batt).wear o.row +
        (runs.filter (fun a => opPulsed (v.colCode o.batt target) a.1 a.2.1)).length ∧
      tget 0 (t.batt o.batt).lastBlock o.row = s.now + o.t ∧ (t.batt o.batt).busy = true ∧ (∀ a, t.byte a = s.byte a) ∧
      (∀ a ∈ runs.getLast?, ((State.lastReads a).map (fun e => e.1)).Nodup → ∀ e ∈ State.lastReads a, e.2.length = 4 →
        (∀ e ∈ State.lastReads a, e.2.length ≤ 4) → ∀ k < 4, tget 0 (t.batt o.batt).cells ((o.row * 1058 + e.1) * 4 + k) = e.2.getD k 0)
    let staged := fun (runs : List (List Nat × List (List (Nat × List Int)) × List Nat)) (t : State) =>
      let last := (runs.getLast?.map State.lastReads).getD []
      (t.batt o.batt).staged = (s.batt o.batt).staged ++ [⟨o.row, s.rowBytes o.batt o.row last, State.verifyOf o.row last, o.kind⟩] ∧
      ∀ f ∈ (t.batt o.batt).filling, ∀ e, last.find? (fun e => decide (e.1 = f.spare)) = some e → (o.row, imageByte e.2) ∈ f.rows
    (∀ c l y, s.battLayer o.batt = some (c, l, y) →
      let v := s.openLoad o c l y
      let target := v.target o.batt c l y o.row
      ∀ runs, v.rowRuns o.batt target o.tries = some runs → v.wearFits o.batt o.row (v.colCode o.batt target) runs = true →
      let result := fun (t : State) => worked v target runs t ∧ (o.gen = s.gen c → staged runs t) ∧
        (o.gen ≠ s.gen c → c < 1024 → (t.batt o.batt).staged = (s.batt o.batt).staged ∧ t.get F.CTX_EVT_STALE c = 1) ∧
        (o.kind = 1 → o.first = true → (t.batt o.batt).newScale = some (s.formScales c l y))
      (o.kind < 3 → Completes (.blocking o) s result) ∧
      (o.kind = 3 → (s.batt o.batt).filling ≠ [] → Completes (.spareFill o) s result)) ∧
    (∀ runs, s.patternDue o.batt = true → o.kind = 1 → s.rowRuns o.batt (State.patternCode o.row) o.tries = some runs →
      s.wearFits o.batt o.row (s.colCode o.batt (State.patternCode o.row)) runs = true →
      Completes (.blocking o) s (fun t => worked s (State.patternCode o.row) runs t ∧ staged runs t))

/-- FULLING_INTERVAL_EXPIRY, FULLING_READ and FULLING_PASS_END complete: a due pass starts, rows are read in ascending order and drifted ones
marked, and the pass ends with the next interval within FUL_MIN and FUL_MAX. -/
def Obligations.Fulling : Prop :=
  ∀ (s : State),
    (∀ b u, s.phase = 1 → s.parked b = false → (s.batt b).fulBusy = false → ((s.batt b).fulNow = true ∨ s.fulDue b ≤ s.now + u) →
      Completes (.fullingIntervalExpiry b u) s (fun t => (t.batt b).fulBusy = true ∧ (t.batt b).fulNow = false ∧
        (t.batt b).fulStart = some (s.now + u) ∧ (t.batt b).fulRows = [] ∧ (t.batt b).fulMarked = [] ∧ (t.batt b).fulCount = 0)) ∧
    (∀ o : FulRead, s.mayIssue (o.batt / 8) = true → (s.batt o.batt).open_ = true → (s.batt o.batt).ran = false → s.parked o.batt = false →
      (s.batt o.batt).fulBusy = true → (s.batt o.batt).fulRows.length = o.row → o.row < 1024 →
      let n := match o.cells.find? (fun p => decide (p.1 = 1056)) with | some p => composite p.2 | none => 0
      Completes (.fullingRead o) s (fun t => (t.batt o.batt).busy = true ∧ (t.batt o.batt).fulRows = (s.batt o.batt).fulRows ++ [(o.row, n)] ∧
        (∀ r ∈ (s.batt o.batt).fulMarked, r ∈ (t.batt o.batt).fulMarked) ∧
        (s.rowMarked o.batt o.row o.cells n = true → o.row ∉ (s.batt o.batt).worn → o.row ∉ (s.batt o.batt).newWorn → o.row ∈ (t.batt o.batt).fulMarked) ∧
        (s.rowMarked o.batt o.row o.cells n = false → o.row ≠ 1023 → (t.batt o.batt).fulMarked = (s.batt o.batt).fulMarked))) ∧
    (∀ b u, b < 1536 → (s.batt b).fulBusy = true → (s.batt b).fulRows.length = 1024 → (s.batt b).fulMarked = [] →
      s.pol 0x30 ≤ s.pol 0x34 →
      Completes (.fullingPassEnd b u) s (fun t => (t.batt b).fulBusy = false ∧ (t.batt b).fulEnd = some (s.now + u) ∧
        s.pol 0x30 * 10 ^ 9 ≤ (t.batt b).fulInterval ∧ (t.batt b).fulInterval ≤ s.pol 0x34 * 10 ^ 9 ∧
        t.get F.FUL_STATE_INTERVAL b = (t.batt b).fulInterval / 10 ^ 9 % F.FUL_STATE_INTERVAL.size ∧
        t.get F.FUL_STATE_LAST_ROWS b = (s.batt b).fulCount % F.FUL_STATE_LAST_ROWS.size ∧ t.get F.FUL_STATE_AGE b = 0))

/-- WEAR_CEILING_WRITE, ROW_WORN, SPARE_FILL_COMPLETE and BATT_RECORD_WRITE complete: a ceiling rises by 4,096, a worn row waits for the batt
record and leaves its fulling pass, a filled spare waits for it too, and the record takes what stands. A worn row that finds 64 channels in the
static list or about to join it sets WORN and counts as a failed test of the core, and joins no list of 64 entries (R144). -/
def Obligations.WearAndSpares : Prop :=
  ∀ (s : State) (b : Nat),
    (∀ r, tget 0 (s.batt b).ceiling r ≤ tget 0 (s.batt b).wear r + 1 →
      Completes (.wearCeilingWrite b r) s (fun t => ∀ k, tget 0 (t.batt b).ceiling k = tget 0 (s.batt b).ceiling k + if k = r then 4096 else 0)) ∧
    (∀ r, b < 1536 → s.pol 0x2C ≤ tget 0 (s.batt b).wear r → r ∉ (s.batt b).worn → r ∉ (s.batt b).newWorn →
      Completes (.rowWorn b r) s (fun t => (t.batt b).recordDue = true ∧ r ∉ (t.batt b).fulMarked ∧
        t.get F.BLK_WEAR_WORN_ROWS b = ((s.batt b).worn.length + (s.batt b).newWorn.length + 1) % F.BLK_WEAR_WORN_ROWS.size ∧
        (t.batt b).newWorn = (s.batt b).newWorn ++ [r] ∧ (t.batt b).worn = (s.batt b).worn ∧
        (∀ c l, (t.layer c l).staticRows = (s.layer c l).staticRows) ∧
        (s.listed b < 64 → (t.core (b / 8)).failed = (s.core (b / 8)).failed ∧ t.get F.BLK_EVT_WORN b = s.get F.BLK_EVT_WORN b) ∧
        (64 ≤ s.listed b → t.get F.BLK_EVT_WORN b = 1 ∧ (t.core (b / 8)).failed = (s.core (b / 8)).failed ++ [s.now]))) ∧
    (∀ r c l y, s.battLayer b = some (c, l, y) → c < 1024 →
      let rest := (s.layer c l).staticRows.filter (fun e => decide (e.1 ≠ r))
      (64 ≤ rest.length → ((s.joinStatic b r false).layer c l).staticRows = rest) ∧
      (rest.length < 64 → r ∈ ((s.joinStatic b r false).layer c l).staticRows.map (fun e => e.1)) ∧
      ∀ j < 1024, (s.joinStatic b r false).byte (s.imageAt b + r * 1024 + j) = 0x80) ∧
    (∀ j f, (s.batt b).filling.find? (fun f => decide (f.col = j)) = some f →
      (∀ r < 1024, r ∈ (s.batt b).worn ∨ ∃ e ∈ f.rows, e.1 = r) → (∀ m ∈ (s.batt b).newMap, m.1 ≠ j) →
      Completes (.spareFillComplete b j) s (fun t => (t.batt b).newMap = (s.batt b).newMap ++ [(j, f.spare)] ∧ (t.batt b).recordDue = true)) ∧
    ((s.batt b).recordDue = true →
      Completes (.battRecordWrite b) s (fun t => (t.batt b).record = s.makeRecord b ∧ (t.batt b).recorded = true ∧
        (t.batt b).loadIn = State.loadDone (s.batt b) ∧ ((s.batt b).newScale = none → (t.batt b).recordDue = false)))

/-- COLUMN_RETIRE completes for a column of 8 faults or more that is not retired: it is retired, and its weights take the lowest free spare, or
stay dark without one, unless a sound spare is being filled for them already. -/
def Obligations.ColumnRetire : Prop :=
  ∀ (s : State) (b p : Nat), b < 1536 → 8 ≤ tget 0 (s.batt b).colFaults p → p ∉ (s.batt b).retired →
    let x := s.batt b
    let free := ((List.range 32).map (fun k => 1024 + k)).find? (fun q =>
      !((x.retired ++ [p]).contains q || x.filling.any (fun f => decide (f.spare = q)) || x.colMap.any (fun e => decide (e.2 = q))))
    Completes (.columnRetire b p) s (fun t => (t.batt b).retired = x.retired ++ [p] ∧ t.get F.BLK_EVT_RETIRED b = 1 ∧
      t.get F.BLK_COLS_RETIRED b = (x.retired.length + 1) % F.BLK_COLS_RETIRED.size ∧
      (s.weightCol b p = none → (t.batt b).filling = x.filling ∧ (t.batt b).newDark = x.newDark) ∧
      (∀ j, s.weightCol b p = some j →
        let spared := (∃ f ∈ x.filling, f.col = j ∧ f.spare ≠ p ∧ f.spare ∉ x.retired) ∨ ∃ m ∈ x.newMap, m.1 = j
        let rest := x.filling.filter (fun f => decide (f.col ≠ j))
        (spared → (t.batt b).filling = x.filling ∧ (t.batt b).newDark = x.newDark) ∧
        (¬ spared → (∀ q, free = some q → (t.batt b).filling = rest ++ [⟨j, q, []⟩] ∧ (t.batt b).newDark = x.newDark) ∧
          (free = none → (t.batt b).filling = rest ∧ (j ∈ (t.batt b).dark ∨ j ∈ (t.batt b).newDark)))))

/-! Frames, kills and resets (spec/02_frames.md R39 to R48, spec/12_faults_and_resets.md R391 to R414). -/

/-- TICK completes in every state: with the rails up, the clock running and the start over, the frame number advances by one and time by the period
and the slew, the work of the closed frame is counted anew, what was held has left, and readers see the registers as they stand; the second tick of a
bridging frame ends it with its own number and length; otherwise there is no tick, and nothing changes. -/
def Obligations.TickAdvances : Prop :=
  ∀ (o : TickArgs) (s : State),
    (s.pwr.converting = true → s.pwr.clock = true → s.phase ≠ 0 → Completes (.tick o) s (fun t =>
      (match s.link.bridging with
        | some (f, 1, len) => t.frame = f ∧ t.now = s.now + len
        | _ => t.frame = s.frame + 1 ∧ t.now = ((s.now : Int) + s.periodNs + s.link.slew / 16).toNat) ∧
      t.fr.held = [] ∧ t.clears = [] ∧ (∀ a, blockOf a ≠ .regsEth → t.visReg a = t.reg a) ∧
      t.seen F.FRM_NUM_LO_FRAME 0 = t.frame % 2 ^ 32)) ∧
    (s.pwr.converting = false ∨ s.pwr.clock = false ∨ s.phase = 0 → exec (.tick o) s = .next s)

/-- WORK_DEADLINE kills a frame in service whose work still runs or whose waits are unmet, with cause 1: held signals go, sync
counters and waits are restored, and the kill is counted. A frame whose work is done passes it unchanged. -/
def Obligations.WorkDeadline : Prop :=
  ∀ (running : Bool) (s : State),
    (running = true ∨ s.waitsUnmet = true → s.phase = 1 → s.fr.killed = none →
      Completes (.workDeadline running) s (fun t => t.fr.killed = some 1 ∧ t.fr.signals = [] ∧ Advanced F.FLT_COUNTS_KILLS 0 1 s t ∧
        Restored s t)) ∧
    (running = false → s.waitsUnmet = false → exec (.workDeadline running) s = .next s)

/-- COMMIT_WINDOW completes in every state: in service without a kill the held signals and records have left; after a kill the bytes of the frame's
writes are withdrawn and the signals stay unsent; out of service it changes nothing. -/
def Obligations.CommitWindow : Prop :=
  ∀ s : State,
    (s.phase = 1 → s.fr.killed = none → Completes .commitWindow s (fun t => t.fr.signals = [] ∧ t.fr.records = [] ∧
      ∀ g ∈ s.fr.signals, ∃ l, Leaves false g.dest 0 512 ([g.ctx, g.gen] ++ l) s t)) ∧
    (s.phase = 1 → s.fr.killed.isSome = true → Completes .commitWindow s (fun t => t.fr.wrote = [] ∧ t.fr.signals = s.fr.signals ∧
      ∀ g ∈ s.fr.wrote, ∃ l, Leaves false g.dest 0 7 ([g.ctx, g.gen] ++ l) s t)) ∧
    (s.phase ≠ 1 → exec .commitWindow s = .next s)

/-- A watchdog or an uncorrectable error kills the frame, restores its sync counters, counts the kill and starts the engine's reset, unless a reset in progress covers it;
an error that comes again counts as a failed test of the core. -/
def Obligations.EngineFaults : Prop :=
  ∀ (p e u : Nat) (s : State), s.phase = 1 → s.fr.killed = none → s.flt.resets.any (fun r => resetCovers r.scope (1, p, e)) = false →
    let hit := fun (cause : Nat) (t : State) => t.fr.killed = some cause ∧ t.fr.signals = [] ∧ Advanced F.FLT_COUNTS_KILLS 0 1 s t ∧
      e ∈ (t.core p).engines ∧ Restored s t ∧ ⟨1, p, e, s.now + u, 0⟩ ∈ t.flt.resets
    Completes (.engineWatchdog p e u) s (hit 2) ∧ (e = 3 → Completes (.dmaWatchdog p u) s (hit 2)) ∧
    (∀ b, e = 8 + b → Completes (.battWatchdog p b u) s (hit 2)) ∧
    Completes (.uncorrectableEcc p e false u) s (hit 3) ∧
    Completes (.uncorrectableEcc p e true u) s (fun t => hit 3 t ∧ (t.core p).failed = (s.core p).failed ++ [s.now])

/-- ENGINE_RESET, CORE_RESET and DIE_RESET begin unless a reset in progress covers them: the engine, or every core of the scope, is cleared, with
its scratchpad and accumulator file zero, and takes no work. -/
def Obligations.ResetsBegin : Prop :=
  ∀ (u : Nat) (s : State),
    (∀ p e, s.flt.resets.any (fun r => resetCovers r.scope (1, p, e)) = false →
      Completes (.engineReset p e u) s (fun t => e ∈ (t.core p).engines ∧ (∀ w ∈ (t.core p).waits, w.1 ≠ waiterOf e) ∧
        ⟨1, p, e, s.now + u, 0⟩ ∈ t.flt.resets ∧ ∀ b, t.byte b = s.byte b)) ∧
    (∀ p, s.flt.resets.any (fun r => resetCovers r.scope (2, p, 0)) = false →
      Completes (.coreReset p u) s (fun t => (t.core p).resetting = some 2 ∧ (t.core p).waits = [] ∧ (t.core p).cached = [] ∧
        (∀ b, t.byte b = if (spAddr p 0 ≤ b ∧ b < spAddr p 0 + 2 ^ 22) ∨ (accAddr p 0 ≤ b ∧ b < accAddr p 0 + 2 ^ 18) then 0 else s.byte b) ∧
        ⟨2, p, 0, s.now + u, 0⟩ ∈ t.flt.resets ∧ Advanced F.FLT_COUNTS_CORE 0 1 s t)) ∧
    (∀ d, s.flt.resets.any (fun r => resetCovers r.scope (3, d, 0)) = false →
      Completes (.dieReset d u) s (fun t => (∀ i < 48, (t.core (48 * d + i)).resetting = some 3 ∧
        ∀ a < 2 ^ 22, t.byte (spAddr (48 * d + i) a) = 0) ∧
        ⟨3, d, 0, s.now + u, 0⟩ ∈ t.flt.resets ∧ Advanced F.FLT_COUNTS_DIE 0 1 s t))

/-- DEVICE_RESET, a control core's watchdog and a plan's watchdog begin a device reset unless one is in progress: the module shows phase 3,
every plan is lost and every scratchpad is zero. The plan's watchdog also counts the kills of its two frames. -/
def Obligations.DeviceResets : Prop :=
  ∀ (u : Nat) (s : State), s.flt.resets.any (fun r => resetCovers r.scope (4, 0, 0)) = false →
    let begun := fun (t : State) => t.phase = 3 ∧ t.fr.plans = [] ∧ t.fr.flying = [] ∧ t.flt.resets = [⟨4, 0, 0, s.now + u, 0⟩] ∧
      Advanced F.FLT_COUNTS_DEVICE 0 1 s t ∧ ∀ p < 192, ∀ a < 2 ^ 22, t.byte (spAddr p a) = 0
    Completes (.deviceReset u) s begun ∧ (∀ cp < 4, Completes (.controlCoreWatchdog cp u) s begun) ∧
    (s.phase = 1 → Completes (.planWatchdog u) s (fun t => begun t ∧ Advanced F.FLT_COUNTS_KILLS 0 (if s.fr.killed = none then 2 else 1) s t)) ∧
    Completes .mgmtWatchdog s (fun t => t.flt.mgmtDue = true ∧ t.regs = s.regs)

/-- R392. RESET_TIMEOUT begins the next wider level once a level's time has passed, and the lower reset is abandoned; a device reset that is late
has cause 4. A reset that begins absorbs the resets in progress inside its scope and leaves the others, and one asked for inside a reset in progress
is ignored. RESET_COMPLETE ends the reset: an engine runs again, the cores of a core or die reset are rebuilt next, and ERR_RESET is reported. -/
def Obligations.ResetsEnd : Prop :=
  ∀ (k unit e u : Nat) (s : State),
    let free := fun (me : Nat × Nat × Nat) => s.flt.resets.any (fun r => resetCovers r.scope me) = false
    let begun := fun (me : Nat × Nat × Nat) (t : State) =>
      t.flt.resets = s.flt.resets.filter (fun r => !resetCovers me r.scope) ++ [⟨me.1, me.2.1, me.2.2, s.now + u, 0⟩]
    let asked := fun (c : Instr) (me : Nat × Nat × Nat) => (free me → Completes c s (begun me)) ∧ (¬ free me → exec c s = .next s)
    asked (.engineReset unit e u) (1, unit, e) ∧ asked (.coreReset unit u) (2, unit, 0) ∧ asked (.dieReset unit u) (3, unit, 0) ∧
    asked (.deviceReset u) (4, 0, 0) ∧
    ∀ r, s.flt.resets.find? (fun r => decide (r.scope = (k, unit, e))) = some r →
    (r.start + resetTime k ≤ s.now + u →
      (k = 1 → free (2, unit, 0) →
        Completes (.resetTimeout k unit e u) s (fun t => begun (2, unit, 0) t ∧ r ∉ t.flt.resets ∧ (t.core unit).resetting = some 2)) ∧
      (k = 2 → free (3, unit / 48, 0) →
        Completes (.resetTimeout k unit e u) s (fun t => begun (3, unit / 48, 0) t ∧ r ∉ t.flt.resets ∧
          ∀ i < 48, (t.core (48 * (unit / 48) + i)).resetting = some 3)) ∧
      (k = 3 → free (4, 0, 0) →
        Completes (.resetTimeout k unit e u) s (fun t => begun (4, 0, 0) t ∧ r ∉ t.flt.resets ∧ t.phase = 3)) ∧
      (k = 4 → s.flt.oosDue = none → Completes (.resetTimeout k unit e u) s (fun t => t.flt.oosDue = some 4))) ∧
    (k = 1 → Completes (.resetComplete k unit e) s (fun t => e ∉ (t.core unit).engines ∧ LoggedAt 0x0504 2 unit 1 r.frames s t)) ∧
    (k = 2 → Completes (.resetComplete k unit e) s (fun t => (t.core unit).resetting = none ∧ (t.core unit).rebuilding = true ∧
      (t.core unit).failed = (s.core unit).failed ++ [s.now] ∧ LoggedAt 0x0504 2 unit 2 r.frames s t)) ∧
    (k = 3 → Completes (.resetComplete k unit e) s (fun t => (∀ i < 48, (t.core (48 * unit + i)).resetting = none ∧
      (t.core (48 * unit + i)).rebuilding = true) ∧ LoggedAt 0x0504 1 unit 3 r.frames s t))

/-- OOS_ENTRY completes at the tick after a cause: phase 2, OOS and CAUSE shown, every plan lost, memory and contexts' records as they were. FLT_OOS
and FLT_RESET of the owner ask for OUT_OF_SERVICE with cause 5 and for a device reset. -/
def Obligations.OutOfService : Prop :=
  ∀ (s : State),
    (∀ k, s.flt.oosDue = some k → s.phase ≠ 2 → Completes .oosEntry s (fun t => t.phase = 2 ∧ t.get F.FLT_STATE_OOS 0 = 1 ∧
      t.get F.FLT_STATE_CAUSE 0 = k % 16 ∧ t.fr.plans = [] ∧ t.flt.oosDue = none ∧ (∃ d1, LoggedAt 0x0502 0 0 k d1 s t) ∧
      ∀ b, t.byte b = s.byte b)) ∧
    (∀ r, TakenOne s r true → s.flt.oosDue = none →
      Completes (.fltOos r) s (fun t => t.flt.oosDue = some 5 ∧ Acknowledged r s t)) ∧
    (∀ r, TakenOne s r true → s.resetAllowed = true →
      Completes (.fltReset r) s (fun t => t.flt.ownerReset = true ∧ Acknowledged r s t))

/-- CORE_FENCE completes for a core that is due: with a healthy spare its logical core moves there, to be tested and rebuilt; without one the
module has one core less. SPARE_TEST ends the test of a spare that passes, and fences one that fails; SPARE_REBLOCK_COMPLETE returns a held context
whose batts are blocked and whose cores serve. -/
def Obligations.CoreFenceAndSpares : Prop :=
  ∀ (s : State),
    (∀ p l, p < 192 → (List.range 192).filter (fun p => s.fenceDue p) = [p] → s.logicalOf p = some l →
      (∀ q, s.chooseSpare p = some q → Completes .coreFence s (fun t => t.get F.FLT_CORE_ROLE p = 2 ∧ t.get F.FLT_CORE_ROLE q = 0 ∧
        t.get F.FLT_CORE_LOGICAL q = l ∧ (t.core q).testing = true ∧ (t.core q).rebuilding = true ∧
        (s.cal.run = none → LoggedAt 0x0504 2 p 5 q s t))) ∧
      (s.chooseSpare p = none → Completes .coreFence s (fun t => t.get F.FLT_CORE_ROLE p = 2 ∧
        t.get F.FLT_STATE_IN_SERVICE 0 = s.get F.FLT_STATE_IN_SERVICE 0 - 1 ∧
        (s.cal.run = none → ∃ d, LoggedAt 0x0504 2 p 6 d s t)))) ∧
    (∀ p, (s.core p).testing = true → Completes (.spareTest p true) s (fun t => (t.core p).testing = false ∧ t.regs = s.regs)) ∧
    (∀ p, p < 192 → (s.core p).testing = true → s.chooseSpare p ≠ some p → Completes (.spareTest p false) s (fun t => t.get F.FLT_CORE_ROLE p = 3)) ∧
    (∀ c, c < 1024 → s.ctxLive c = 4 → s.get F.CTX_STATE_MODULE_HELD c = 1 → s.unblocked c = [] →
      (∀ p ∈ (s.ctx c).cores.filterMap (fun l => s.physOf l), (s.core p).testing = false ∧ (s.core p).rebuilding = false) →
      Completes (.spareReblockComplete c) s (fun t => t.ctxLive c = 2 ∧ t.get F.CTX_STATE_MODULE_HELD c = 0 ∧ (t.ctx c).vtime = s.minVtime))

/-- EVENT_LOG_WRITE, FAILED_TEST_EXPIRY and SLIDING_WINDOW_EXPIRY complete: the oldest buffered record goes to flash; failed tests of a day ago
and kills and device resets outside their windows no longer count. -/
def Obligations.LogsAndWindows : Prop :=
  ∀ (s : State),
    (∀ e l, s.flt.logBuf = e :: l → Completes .eventLogWrite s (fun t => t.flt.logBuf = l ∧
      t.flt.log.find? (fun x => decide (x.1 = e.seq % 4194304)) = some (e.seq % 4194304, e))) ∧
    (∀ u, Completes (.failedTestExpiry u) s (fun t => ∀ p, (t.core p).failed = (s.core p).failed.filter (fun x => decide (s.now + u < x + dayNs)) ∧
      (p < 192 → s.cores.any (fun e => decide (e.1 = p)) = true → t.get F.FLT_CORE_FAILS p = min 15 (t.core p).failed.length))) ∧
    (∀ u, Completes (.slidingWindowExpiry u) s (fun t =>
      t.flt.kills = s.flt.kills.filter (fun x => decide (s.now + u < x + 10 ^ 9)) ∧
      t.flt.devResets = s.flt.devResets.filter (fun x => decide (s.now + u < x + 600 * 10 ^ 9)) ∧
      t.get F.FLT_RATES_KILLS_1S 0 = t.flt.kills.length % F.FLT_RATES_KILLS_1S.size ∧
      t.get F.FLT_RATES_DEV_10MIN 0 = t.flt.devResets.length % F.FLT_RATES_DEV_10MIN.size))

/-! Ethernet ports, requests and ownership (spec/10_host_ports.md R346 to R367). -/

/-- The commands of the Ethernet ports complete: a first segment opens a reassembly and another adds its range; a datagram that a filter drops
is counted; reassemblies and quiet identities end 10 ms after their last datagram; echoes, neighbours, PTP and link changes act. -/
def Obligations.EthernetPorts : Prop :=
  ∀ (s : State),
    (∀ o : Segment, o.port < 2 → o.toUs = false ∨ o.vlanOk = false ∨ o.plain = false ∨ o.portOk = false →
      Completes (.trpSegment o) s (Advanced F.ETH_DROP_FILTER o.port 1 s)) ∧
    (∀ o : Segment, o.toUs = true → o.vlanOk = true → o.plain = true → o.portOk = true → o.macsecOk = true → o.udpLen = o.segLen + 32 →
      s.sessionOk o.hdr = true →
      (s.ports.reasm.find? (fun e => e.sameId o.hdr.session o.type o.hdr.tag) = none → s.fits o.type o.hdr = true →
        o.segOfs + o.segLen ≤ o.hdr.len → s.sessionSlots o.hdr.session < 16 →
        (o.type = 3 ∨ o.type = 6 ∨ s.storeUsed o.port + o.hdr.len ≤ 4 * 2 ^ 20) →
        Completes (.trpSegment o) s (fun t => t.ports.reasm = s.ports.reasm ++ [⟨o.hdr.session, o.type, o.hdr.tag, o.port, o.hdr.len,
          o.hdr.gen, o.hdr.ctx, o.hdr.arg0, o.hdr.arg1, [(o.segOfs, o.segLen)], s.now + o.hdr.t, false⟩])) ∧
      (∀ e : Reasm, s.ports.reasm.find? (fun e => e.sameId o.hdr.session o.type o.hdr.tag) = some e → e.quiet = false → e.len = o.hdr.len →
        e.gen = o.hdr.gen → e.ctx = o.hdr.ctx → e.arg0 = o.hdr.arg0 → e.arg1 = o.hdr.arg1 → o.segOfs + o.segLen ≤ e.len → 0 < o.segLen →
        (∀ q ∈ e.ranges, q.1 + q.2 ≤ o.segOfs ∨ o.segOfs + o.segLen ≤ q.1) →
        Completes (.trpSegment o) s (fun t => ∃ x, t.ports.reasm.find? (fun e => e.sameId o.hdr.session o.type o.hdr.tag) = some x ∧
          x.ranges = e.ranges ++ [(o.segOfs, o.segLen)] ∧ x.last = s.now + o.hdr.t))) ∧
    (∀ (n type tag u : Nat) (e : Reasm), s.ports.reasm.find? (fun e => e.sameId n type tag) = some e → e.last + 10 ^ 7 ≤ s.now + u →
      (e.quiet = false → e.port < 2 → Completes (.reassemblyTimeout n type tag u) s (fun t =>
        t.ports.reasm = s.ports.reasm.filter (fun e => !e.sameId n type tag) ∧ Advanced F.ETH_DROP_REASM e.port 1 s t)) ∧
      (e.quiet = true → Completes (.identityQuietExpiry n type tag u) s (fun t =>
        t.ports.reasm = s.ports.reasm.filter (fun e => !e.sameId n type tag)))) ∧
    (∀ p u : Nat, s.portUp p = true →
      (s.ports.echoes.filter (fun e => decide (e.1 = p ∧ s.now + u < e.2 + 10 ^ 9))).length < 100 →
      Completes (.icmpEcho p true u) s (fun t => t.sent = s.sent ++ [.echoReply p])) ∧
    (∀ (p a : Nat) (v6 : Bool), s.portUp p = true → a ≠ 0 → a = s.ownAddr p v6 →
      Completes (.arpRequest p a v6) s (fun t => t.sent = s.sent ++ [.advertise p a v6])) ∧
    (∀ (p a : Nat) (v6 : Bool), s.portUp p = true → a = s.gateway p v6 ∨ s.isPeer a = true →
      Completes (.neighbourResolve p a v6) s (fun t => t.sent = s.sent ++ [.solicit p a v6] ∧ (p, a) ∈ t.ports.neighbours)) ∧
    (∀ o : PtpMsg, o.port < 2 → o.domain = s.pol 0x94 →
      Completes (.ptpMessage o) s (fun t => t.get F.ETH_PORT_PTP_LOCKED o.port = if o.locked then 1 else 0)) ∧
    (∀ p : Nat, s.portUp p = true → Completes (.delayReq p) s (fun t => t.sent = s.sent ++ [.delayReq p])) ∧
    (∀ p < 2, s.portUp p = true → Completes (.ethLinkDown p) s (fun t => t.portUp p = false ∧ ∃ d0 d1, Logged 0x070A 5 p d0 d1 s t)) ∧
    (∀ p l, p < 2 → ¬(p = 1 ∧ s.get F.FLT_STATE_CAUSE 0 = 9 ∧ s.img.network = none) →
      Completes (.ethLinkUp p l) s (fun t => t.portUp p = true ∧ ((l.map (fun f => f.lane)).Nodup → ∀ f ∈ l, f.lane < 4 →
        t.get F.CAL_LANE_EYE (256 + 4 * p + f.lane) = f.eye % F.CAL_LANE_EYE.size ∧
        t.get F.CAL_LANE_MARGIN (256 + 4 * p + f.lane) = f.margin % F.CAL_LANE_MARGIN.size))) ∧
    (∀ (v type : Nat) (r : Req), Received s type r → ¬(v = 1 ∧ hostType type = true) →
      Completes (.unlistedType v type r) s (Sends (answer type r (verdict rejFormat) 0) s))

/-- STREAM_OUT completes at an opening tick of its period with every context that is not FREE to each management session, and with its own
context to each bound session that streams, and counts from there. NOSTEP_WINDOW_CLOSE takes the updates of a context that does not step. -/
def Obligations.StreamsAndWindows : Prop :=
  ∀ (s : State),
    (s.phase ≠ 0 → 0 < s.frame → s.frame % max 1 (s.pol 0x14) = 0 → Completes .streamOut s (fun t =>
      (∀ i ∈ s.openMgmt, ∀ p, s.route (s.mgmt i).lastPort = some p → .trp p { s.streamMsg s.activeContexts with
        session := 0xFFF0 + i, port := (s.mgmt i).lastPort, arg0 := (s.mgmt i).seq % 2 ^ 32 } ∈ t.sent) ∧
      (∀ c ∈ s.activeContexts, (t.ctx c).trained = 0 ∧ (∀ i ∈ s.streamSessions c, ∀ p, s.route (s.hostPort i) = some p →
        ∃ n, .trp p { s.streamMsg [c] with session := i, port := s.hostPort i, arg0 := n } ∈ t.sent)))) ∧
    (State.canonical s → Completes .nostepWindowClose s (fun t => ∀ c tm, s.template c = some tm → (s.ctx c).step = none →
      s.commitDue c = true → s.ctxs.any (fun e => decide (e.1 = c)) = true → (t.ctx c).roundPos = (s.ctx c).roundPos + 1 ∧
        (s.fr.killed = none → ∀ l y, tm.layers[l]? = some y →
          (t.layer c l).sx = sxNext (s.layer c l).sx (s.layer c l).q ∧ (t.layer c l).overflow = 0 ∧ (t.layer c l).passes = 0)))

/-- The requests of hosts and of the owner complete once their checks pass: a query stands in the next plan, samples are queued and logged, a
model's context is LOADING with its package, which alone a REJ_BINDING answers for, an export is queued, held ranges are sent again, and a read is answered at once. -/
def Obligations.HostRequests : Prop :=
  ∀ (s : State) (r : Req),
    (∀ tm, Received s 1 r → firstFail (s.queryChecks r) = none → s.template r.ctx = some tm →
      Completes (.query r) s (fun t => t.nextQueries = s.nextQueries ++ [s.placed r tm] ∧ t.fr.queries = s.fr.queries + 1 ∧
        t.sent = s.sent)) ∧
    (∀ l, Received s 3 r → firstFail (s.sampleChecks r l) = none → Completes (.sample r l) s (fun t =>
      (t.ctx r.ctx).intake = (s.ctx r.ctx).intake ++ s.newSamples r l ∧
      (∀ z, (s.newSamples r l).getLast? = some z → t.accepted r.session = z.seq % 2 ^ 64 ∧
        (t.ctx r.ctx).log = (s.ctx r.ctx).log ++ [State.sampleEntry (s.ctx r.ctx).logNext (s.newSamples r l)]) ∧
      Advanced F.HSESS_DISC_DISCARDED r.session (l.length - (s.newSamples r l).length) s t ∧
      t.fr.held = s.fr.held ++ [⟨1, 0, t.sampleAck r (verdict stOk)⟩])) ∧
    (∀ tm, Received s 6 r → r.arg0 = 0 → r.arg1 = 0 → s.phase = 1 → s.template r.ctx = some tm → r.len ≤ s.pol 0x98 * 2 ^ 20 →
      s.isOwner r = true → s.seen F.CTX_STATE_GEN r.ctx = r.gen → s.ctxState r.ctx = 0 → (s.ctx r.ctx).reserved = false → s.fr.q1 < 256 →
      r.ctx < 1024 → ∀ p, Completes (.loadModel ⟨r, p⟩) s (fun t => t.ctxLive r.ctx = 1 ∧ Advanced F.CTX_STATE_GEN r.ctx 1 s t ∧
        (t.ctx r.ctx).reserved = true ∧ (t.ctx r.ctx).loading = some ⟨some r, false, 0, 0, s.frame, none, [], [], false, some p⟩ ∧
        (t.ctx r.ctx).template = some tm.index ∧ (∀ b ∈ tm.batts, (t.batt (s.battOf b)).owner = some r.ctx) ∧ t.fr.q1 = s.fr.q1 + 1)) ∧
    (∀ c st ind, c < 1024 → s.ctxLive c = 1 → (st = rejBinding ∧ s.bindingBad c = true) ∨ st = rejLen ∨ (st = rejBudget ∧ ind = 5) →
      Completes (.loadFailed c st ind) s (fun t => t.ctxLive c = 5 ∧ (t.ctx c).loading = none ∧ (t.ctx c).fence = some (s.frame + 2) ∧
        ∀ l q, (s.ctx c).loading = some l → l.request = some q →
          t.fr.held = s.fr.held ++ [⟨1, 0, { answer 6 q ⟨st, ind, 0⟩ 0 with gen := s.gen c }⟩])) ∧
    (∀ c ind, s.bindingBad c = false → exec (.loadFailed c rejBinding ind) s = .next s) ∧
    (∀ size, Received s 7 r → firstFail (s.exportChecks r) = none → (s.exports r.ctx).any (fun x => x.busy) = false →
      s.exportUsed + size ≤ s.exportArea → s.fr.q1 < 256 → Completes (.exportReq r size) s (fun t =>
        (∃ set_ key, ⟨(s.ctx r.ctx).ckpt.nextExportId, s.gen r.ctx, 0, set_, key, size, 0, r.session, r.port, r.tag, 0, true, false⟩ ∈ t.exports r.ctx) ∧
        (t.ctx r.ctx).ckpt.nextExportId = (s.ctx r.ctx).ckpt.nextExportId + 1 ∧ t.fr.q1 = s.fr.q1 + 1)) ∧
    (∀ id ofs n x, Received s 7 r → firstFail (s.exportChecks r) = none → (s.exports r.ctx).find? (fun x => decide (x.id = id)) = some x →
      ofs + (if n = 0 then x.length - ofs else n) ≤ x.length → s.fr.q1 < 256 → Completes (.exportResend r id ofs n) s (fun t =>
        t.fr.held = s.fr.held ++ (State.chunks ((if n = 0 then x.length - ofs else n) / 2 ^ 26 + 1) ofs (if n = 0 then x.length - ofs else n)).map
          (fun c => ⟨1, 0, s.exportMsg r.ctx { x with session := r.session, port := r.port, tag := r.tag } c.1 c.2⟩))) ∧
    (Received s 9 r → firstFail (s.readChecks r) = none →
      Completes (.mgmtRead r) s (Sends { answer 9 r (verdict stOk) 0 with
        len := 4 * r.arg1, body := .words ((State.readAddrs r).map (fun a => (s.readAt r a).getD 0)) } s))

/-- A MGMT_WRITE completes entirely or not at all: admitted, its entries are applied in order; with a failing entry nothing is written and the
answer names the entry. A masked entry on a context's LR_SCALE writes the bits of its mask. -/
def Obligations.ManagementWrites : Prop :=
  ∀ (s : State) (r : Req) (l : List WriteEntry), Taken s r true → 1 ≤ l.length → l.length ≤ 512 → r.len = 12 * l.length →
    (State.firstBad (fun e => match s.entryFault e with | some v => some (v, 0) | none => s.mgmtFault e) 0 l = none →
      Completes (.mgmtWrite r l) s (Applied r l (State.applyMgmt r) s) ∧
      (∀ c v m, c < 1024 → l = [⟨F.CTX_LR_SCALE_LR_SCALE.addr c, v, m⟩] → m < 2 ^ 32 → Completes (.mgmtWrite r l) s (fun t =>
        t.reg (F.CTX_LR_SCALE_LR_SCALE.addr c) = maskedIn (s.reg (F.CTX_LR_SCALE_LR_SCALE.addr c)) v m))) ∧
    (∀ v, State.firstBad (fun e => match s.entryFault e with | some v => some (v, 0) | none => s.mgmtFault e) 0 l = some v →
      Completes (.mgmtWrite r l) s (fun t => Sends (answer 0x0A r v 0) s t ∧ (∀ a, blockOf a ≠ .regsEth → t.reg a = s.reg a) ∧
        t.ctxs = s.ctxs ∧ t.fr = s.fr)) ∧
    ((∀ e ∈ l, 0x400000 ≤ e.addr ∧ e.addr < 0x420000) → State.firstBad (fun e => (s.entryFault e).map (fun v => (v, 0))) 0 l = none →
      Completes (.hsessCfgWrite r l) s (Applied r l State.applyHsess s) ∧
      (∀ e, l = [e] → e.addr % 0x20 = 0 → e.mask / 2 ^ 16 % 2 ^ 10 ≠ 0 →
        Completes (.hsessCfgWrite r l) s (fun t => (t.host ((e.addr - 0x400000) / 0x20)).restart = true)))

/-- Claims whose credentials parse, renewals, releases and handovers are admitted; a claim whose signatures, credential, age and nonce stand
counts, a failed one on 0xFFFF is discarded; the lease lapses after 5 s, and a session without a message for 30 s closes. -/
def Obligations.Ownership : Prop :=
  ∀ (s : State) (r : Req),
    (∀ own nonce cred, r.ctx = 0 → r.gen = 0 → r.arg0 = (if own = true then 1 else 0) → 72 ≤ r.len → r.len ≤ 32768 → s.fr.q2 < 64 →
      (r.session = 0xFFFF ∧ proofParses cred r.len = true) ∨ (isMgmt r.session = true ∧ Received s 0x0B r) →
      Completes (if own then .claimOwn r nonce cred else .claimObserve r nonce cred) s (fun t => t.fr.q2 = s.fr.q2 + 1 ∧
        t.ports.claims = s.ports.claims ++ [⟨own, r, nonce, s.frame, s.now + r.t, cred, if proofParses cred r.len then none else some ⟨false, false, 0⟩⟩])) ∧
    (∀ nonce, Received s 0x0B r → r.ctx = 0 → r.gen = 0 → r.arg0 = 2 → s.isOwner r = true → r.len = 8 → s.fr.q2 < 64 →
      (s.mgmt (r.session - 0xFFF0)).nonce = nonce → Completes (.renew r nonce) s (fun t => t.ports.lease = s.now + r.t ∧
        t.fr.held = s.fr.held ++ [⟨2, 0, answer 0x0B r ⟨stOk, 0, 1⟩ r.session⟩])) ∧
    (∀ n tag nonce root sig c x, s.ports.claims.find? (fun c => decide (c.req.session = n ∧ c.req.tag = tag ∧ c.nonce = nonce ∧ c.verdict = none)) = some c →
      Credential.read c.cred = some x →
      let stands := root && sig && s.credentialStands false x && s.claimTimely c && (!c.own || decide (x.role = 1))
      (stands = true → Completes (.claimProofVerified n tag nonce ⟨root, sig⟩) s (fun t => t.ports.nonces = s.ports.nonces ++ [nonce] ∧
          t.ports.claims = s.ports.claims.map (fun y => if y = c then { y with verdict := some ⟨true, decide (x.role = 1), x.serial⟩ } else y))) ∧
      (stands = false → n = 0xFFFF → Completes (.claimProofVerified n tag nonce ⟨root, sig⟩) s (fun t =>
        t.ports.claims = s.ports.claims.erase c ∧ Advanced F.SEC_STAT_CRED_REFUSED 0 1 s t))) ∧
    (let admitted := fun (k : Nat) (t : State) => t.ports.requests = s.ports.requests ++ [⟨k, r⟩] ∧ t.fr.q2 = s.fr.q2 + 1
     s.fr.q2 < 64 → r.ctx = 0 → r.gen = 0 → r.arg1 = 0 → r.len = 0 →
      (Received s 0x0C r → r.arg0 = 0 → s.isOwner r = true → Completes (.release r) s (admitted 0)) ∧
      (Received s 0x0C r → r.arg0 < 2 → isMgmt r.session = true → Completes (.releaseClose r) s (admitted 1)) ∧
      (Received s 0x0D r → r.arg0 < 2 ^ 16 → s.isOwner r = true → Completes (.handover r) s (admitted 2))) ∧
    (∀ i, s.ownerIdx = some i → s.ports.lease + 5 * 10 ^ 9 ≤ s.now →
      Completes .leaseExpiry s (fun t => t.get F.OWN_SESS_STATE i = 1 ∧ ∃ d1, Logged 0x0307 7 (0xFFF0 + i) t.ownerNum d1 s t)) ∧
    (∀ i < 8, s.get F.OWN_SESS_STATE i ≠ 0 → (s.mgmt i).lastMsg + 30 * 10 ^ 9 ≤ s.now →
      Completes (.sessionIdleClose (0xFFF0 + i)) s (fun t => t.get F.OWN_SESS_STATE i = 0 ∧ t.mgmt i = MgmtSess.empty ∧
        ∃ d1, Logged 0x0307 7 (0xFFF0 + i) t.ownerNum d1 s t))

/-! Contexts, calibration, security and image slots (spec/11_sync_and_contexts.md R381 to R389, spec/16_calibration.md, spec/17_security.md,
spec/18_image_and_boot.md R542). -/

/-- The context commands complete: PARK, UNPARK, TEARDOWN, PAUSE and the restores act at once and are acknowledged, or set CMD_IGNORED; the
teardown's fence advances GEN, a drained context is FREE and its memory zero, an unparked one READY, and a cause faults its context, with ERR_BOUNDS beside it for a DMA descriptor out of bounds. -/
def Obligations.ContextCommands : Prop :=
  ∀ (s : State) (c : Nat), c < 1024 →
    (∀ r, TakenOne s r false →
      (s.cmdOk c 1 = true → Completes (.park r c) s (fun t => t.ctxLive c = 4 ∧ (t.ctx c).cmd = some 1 ∧ Acknowledged r s t)) ∧
      (s.cmdOk c 2 = true → Completes (.unpark r c) s (fun t =>
        t.get F.CTX_STATE_UNPARK_PENDING c = 1 ∧ (t.ctx c).cmd = some 2 ∧ Acknowledged r s t)) ∧
      (s.cmdOk c 3 = true → Completes (.teardown r c) s (fun t => t.ctxLive c = 5 ∧ (t.ctx c).cmd = some 3 ∧ Acknowledged r s t)) ∧
      (s.cmdOk c 1 = false → Completes (.park r c) s (fun t => t.get F.CTX_EVT_CMD_IGNORED c = 1 ∧ (t.ctx c).cmd = none)) ∧
      (∀ v, Completes (.pauseWrite r c v) s (fun t => t.get F.CTX_TRAIN_PAUSE c = (if v then 1 else 0) ∧
        (v = false → t.get F.CTX_TRAIN_AUTO_PAUSED c = 0) ∧ Acknowledged r s t)) ∧
      (let restores := fun (k : Nat) (t : State) =>
        (s.ctxState c = 6 → t.ctxLive c = 1 ∧ Advanced F.CTX_STATE_GEN c 1 s t ∧
          (t.ctx c).loading = some ⟨none, true, k, 1, s.frame, none, [], [], false, none⟩) ∧
        (s.ctxState c = 2 ∨ s.ctxState c = 3 ∨ s.ctxState c = 4 → t.ctxLive c = 6 ∧ t.get F.CTX_FAULT_CAUSE c = 7 ∧
          (t.ctx c).restoreCmd = some k) ∧ Acknowledged r s t
       Completes (.restoreLatest r c) s (restores 1) ∧ Completes (.restorePrevious r c) s (restores 2))) ∧
    (∀ n, (s.ctx c).fence = some n → (s.ctx c).fenced = false → s.ctxState c = 5 → n ≤ s.frame + 1 → s.fr.killed = none → s.lastPlan c ≤ 1 →
      Completes (.teardownFence c) s (fun t => Advanced F.CTX_STATE_GEN c 1 s t ∧ (t.ctx c).fenced = true ∧ (t.ctx c).fence = some (s.frame + 1))) ∧
    (let freed := fun (t : State) => t.ctxLive c = 0 ∧ (t.ctx c).template = none ∧ (t.ctx c).zeroing = true ∧
      ∀ b ∈ s.placement c, (t.batt b).owner = none
     s.ctxLive c = 5 → (s.ctx c).fenced = true →
      Completes (.contextRelease c 0) s freed ∧
      (∀ n, (s.ctx c).fence = some n → n + 2 ≤ s.frame + 1 →
        Completes (.drainTimeout c) s (fun t => freed t ∧ t.get F.CTX_EVT_DRAIN_FORCED c = 1))) ∧
    (∀ tm, s.template c = some tm → (s.ctx c).zeroing = true →
      let granted := fun (b : Nat) => ∃ g ∈ tm.regions, ∃ a, (if g.kind = 4 then (s.physOf g.core).map (fun p => spAddr p g.base) else some g.base) = some a ∧
        a ≤ b ∧ b < a + (g.limit - g.base)
      Completes (.releasedMemoryZeroed c) s (fun t => (t.ctx c).zeroing = false ∧
        ∀ b, (granted b → t.byte b = 0) ∧ (¬granted b → t.byte b = s.byte b))) ∧
    (s.ctxLive c = 4 → s.unblocked c = [] → s.seen F.CTX_STATE_UNPARK_PENDING c = 1 ∨ s.seen F.CTX_STATE_MODULE_HELD c = 1 →
      Completes (.unparkComplete c) s (fun t => t.ctxLive c = 2 ∧ t.get F.CTX_STATE_UNPARK_PENDING c = 0 ∧
        t.get F.CTX_STATE_MODULE_HELD c = 0 ∧ (t.ctx c).vtime = s.minVtime)) ∧
    (∀ k, (s.ctx c).faultDue = some k → s.ctxLive c = 2 ∨ s.ctxLive c = 3 ∨ s.ctxLive c = 4 ∨ (s.ctxLive c = 1 ∧ k = 5) →
      Completes (.contextFault c) s (fun t => t.ctxLive c = 6 ∧ t.get F.CTX_FAULT_CAUSE c = k % F.CTX_FAULT_CAUSE.size ∧
        (t.ctx c).step = none ∧ (t.ctx c).loading = none ∧ (t.ctx c).faultDue = none ∧
        ((s.ctx c).ckpt.run = none → k ≠ 1 → ∃ d1, LoggedAt 0x0403 6 c k d1 s t) ∧
        ((s.ctx c).ckpt.run = none → k = 1 → ∃ u d1 d2, u.frame = s.frame ∧ LoggedAt 0x0403 6 c 1 d1 s u ∧ LoggedAt 0x0503 6 c 1 d2 u t)))

/-- The six calibration requests start a run unless one is busy, and CAL_RUN_COMPLETE ends it: every item that agrees within its tolerance and
its range is staged with its new value, and P_IDLE is decided only in OUT_OF_SERVICE with cause 5. -/
def Obligations.CalibrationRuns : Prop :=
  ∀ (s : State),
    (∀ r, TakenOne s r true → s.calWritable = true →
      let starts := fun (scope unit : Nat) (t : State) => Acknowledged r s t ∧
        (s.get F.CAL_STATUS_BUSY 0 = 0 → t.cal.run = some ⟨scope, unit, r.session⟩ ∧ t.get F.CAL_STATUS_BUSY 0 = 1 ∧ t.get F.CAL_STATUS_RUN 0 = 1) ∧
        (s.get F.CAL_STATUS_BUSY 0 = 1 → t.cal = s.cal ∧ t.get F.CAL_EVT_BUSY_IGNORED 0 = 1)
      (∀ b p, Completes (.calBattItems r b p) s (starts 0 b)) ∧ Completes (.calFwdSigma r) s (starts 1 0) ∧ Completes (.calPIdle r) s (starts 2 0) ∧
      Completes (.calMonRef r) s (starts 3 0) ∧ (∀ p, Completes (.calSensorMap r p) s (starts 4 p)) ∧
      (∀ p, Completes (.calRingBias r p) s (starts 5 p))) ∧
    (∀ l resid run, s.cal.run = some run → (run.scope = 2 → s.phase = 2 ∧ s.get F.FLT_STATE_CAUSE 0 = 5) →
      Completes (.calRunComplete l resid) s (fun t => t.cal.run = none ∧ t.get F.CAL_STATUS_BUSY 0 = 0 ∧ t.get F.CAL_STATUS_RUN 0 = 0 ∧
        Advanced F.CAL_STATUS_ACCEPTED 0 1 s t ∧ (∀ e ∈ s.cal.staged, e ∈ t.cal.staged) ∧
        ∀ i ∈ l, s.calMeasures run i.kind i.col = true → s.calWeak run i.kind i.col = false → i.moved = false → calAgree i.kind i.col i.first i.second = true →
          let v := calStored i.kind (s.calItem i.kind (calUnit run.scope run.unit) i.col) i.first i.second
          calRange i.kind i.col v = true → (calKey i.kind (calUnit run.scope run.unit) i.col, v) ∈ t.cal.staged))

/-- The security commands complete: with the key a quote is formed, SVN bits, LOCK or DEBUG_POLICY bits are to be blown; the bits that read back
count as blown; the credential epoch only rises; indices are used below LIMIT only; a debug session opens and closes with a chained record. -/
def Obligations.SecurityCommands : Prop :=
  ∀ (s : State),
    (∀ r, TakenOne s r true →
      (s.get F.SEC_STAT_QUOTE_BUSY 0 = 0 → (∀ u, s.sec.lastQuote = some u → u + 10 ^ 8 ≤ s.now + r.t) →
        Completes (.quoteGo r 0x5A) s (fun t => t.sec.quoteBusy = some (s.now + r.t) ∧ t.get F.SEC_STAT_QUOTE_BUSY 0 = 1 ∧
          t.sec.quoteNonce = (List.range 4).map (fun k => s.reg (F.SEC_QUOTE_NONCE_NONCE.addr k)) ∧ Acknowledged r s t)) ∧
      (s.svnFused < s.get F.SEC_BOOT_SVN_FW 0 → Completes (.svnCommit r 0x5A) s (fun t => Acknowledged r s t ∧ t.sec.blow =
        s.sec.blow ++ [⟨768 + s.svnFused, 2 ^ (s.get F.SEC_BOOT_SVN_FW 0 - s.svnFused) - 1, 0, false⟩])) ∧
      (s.get F.SEC_FUSE_LOCK 0 = 0 → s.ownerSet = true →
        Completes (.lock r 0x5A) s (fun t => t.sec.blow = s.sec.blow ++ [⟨836, 1, 1, false⟩] ∧ Acknowledged r s t)) ∧
      (∀ m, s.get F.SEC_FUSE_LOCK 0 = 0 ∨ m % 16 = 0 →
        Completes (.dbgDisable r 0x5A m) s (fun t => t.sec.blow = s.sec.blow ++ [⟨832, m % 16, 2, false⟩] ∧ Acknowledged r s t)) ∧
      (∀ v m, Completes (.secCredEpochWrite r v m) s (fun t => Acknowledged r s t ∧ t.get F.SEC_CRED_EPOCH_EPOCH 0 =
        max (s.get F.SEC_CRED_EPOCH_EPOCH 0) (maskedIn (BitVec.ofNat 32 (s.get F.SEC_CRED_EPOCH_EPOCH 0)) v m).toNat)) ∧
      (∀ k, k ≠ 0x5A → Completes (.quoteGo r k) s (fun t => t.sec = s.sec) ∧ Completes (.svnCommit r k) s (fun t => t.sec = s.sec))) ∧
    (∀ b l back, s.sec.blow = b :: l → b.started = true → Completes (.fuseBlowComplete back) s (fun t => t.sec.blow = l ∧
      ∀ k, t.fuse k = (s.fuse k || (decide (b.lo ≤ k ∧ k < b.lo + 64) && decide (b.bits / 2 ^ (k - b.lo) % 2 = 1) && back.contains k)))) ∧
    (∀ u k, s.sec.quoteBusy = some u → s.sec.signed = some k → Completes .quoteReady s (fun t => t.sec.quoteBusy = none ∧ t.sec.signed = none ∧
      t.get F.SEC_STAT_QUOTE_BUSY 0 = 0 ∧ Advanced F.SEC_STAT_QUOTES 0 1 s t ∧ t.get F.SEC_EVT_QUOTE_DONE 0 = 1 ∧
      tget 0 t.sec.quotes 0x20001 ≠ 0)) ∧
    (s.sec.limit < s.sec.nextIndex + 256 →
      Completes .sigStateReserve s (fun t => t.sec.limit = s.sec.limit + 1024 ∧ t.sec.recordSeq = s.sec.recordSeq + 1)) ∧
    (s.sec.nextIndex < s.sec.limit → Completes (.signingRequest false) s (fun t => t.sec.nextIndex = s.sec.nextIndex + 1) ∧
      (s.sec.quoteBusy.isSome = true → s.sec.signed = none → Completes (.signingRequest true) s (fun t =>
        t.sec.nextIndex = s.sec.nextIndex + 1 ∧ t.sec.signed = some s.sec.nextIndex))) ∧
    (∀ q, s.sec.limit ≤ s.sec.nextIndex → Completes (.signingRequest q) s (fun t => t = s)) ∧
    (∀ r fac purpose, TakenOne s r false → s.debugAllowed fac ≠ 0 → s.sec.dbgOpen = none →
      Completes (.dbgOpen r fac purpose) s (fun t => t.sec.dbgOpen = some (r.session - 0xFFF0) ∧ t.get F.DBG_STATE_OPEN 0 = 1 ∧
        t.get F.DBG_STATE_FACILITIES 0 = s.debugAllowed fac ∧ t.sec.dbgCount = s.sec.dbgCount + 1 ∧
        t.sec.dbgChain = s.chained (s.debugBytes 1 (s.debugAllowed fac) purpose (r.session - 0xFFF0) 0) ∧ Acknowledged r s t)) ∧
    (∀ r i, TakenOne s r false → s.sec.dbgOpen = some i → Completes (.dbgClose r) s (fun t => t.sec.dbgOpen = none ∧
      t.get F.DBG_STATE_OPEN 0 = 0 ∧ t.get F.DBG_STATE_FACILITIES 0 = 0 ∧ t.sec.dbgCount = s.sec.dbgCount + 1 ∧ Acknowledged r s t))

/-- The image commands complete: ERASE takes the seal away and ends with an erased slot; SEAL checks the image and ends with a seal, or sets
SEAL_FAIL; RESTART asks for a management reset; the window programs each word at its place. -/
def Obligations.ImageSlots : Prop :=
  ∀ (s : State),
    (∀ r k, TakenOne s r true → s.imgBusy = false →
      Completes (.imgErase r 0xA5 k) s (fun t => (t.slot k).erasing = true ∧ (t.slot k).words = (s.slot k).unsealed ∧ t.imgBusy = true ∧
        t.get F.IMG_STAT_PROGRAMMED 0 = 0 ∧ Acknowledged r s t) ∧
      ((s.slot k).sealable = true → Completes (.imgSeal r 0xA5 k) s (fun t => (t.slot k).sealing = true ∧ t.imgBusy = true ∧ Acknowledged r s t)) ∧
      ((s.slot k).sealable = false → Completes (.imgSeal r 0xA5 k) s (fun t => t.get F.IMG_STAT_SEAL_FAIL 0 = 1 ∧ t.img = s.img ∧ Acknowledged r s t)) ∧
      Completes (.imgRestart r 0xA5) s (fun t => t.img.restart = true ∧ Acknowledged r s t) ∧
      (∀ m, m ≠ 0xA5 → Completes (.imgErase r m k) s (fun t => t.img = s.img ∧ Acknowledged r s t))) ∧
    (∀ k, (s.slot k).erasing = true → Completes (.imgEraseComplete k) s (fun t => t.slot k = SlotSt.empty ∧ t.imgBusy = false)) ∧
    (∀ k, (s.slot k).sealing = true → Completes (.imgSealComplete k) s (fun t => (t.slot k).words = (s.slot k).withSeal ∧ ((s.slot k).sealable = true → (t.slot k).isSealed = true) ∧ (t.slot k).sealing = false ∧
      t.imgBusy = false ∧ t.get (if k = 0 then F.IMG_STAT_SEALED_A else F.IMG_STAT_SEALED_B) 0 = 1)) ∧
    (∀ r l, Taken s r true → 1 ≤ l.length → l.length ≤ 512 → r.len = 12 * l.length → (∀ e ∈ l, 0xB000 ≤ e.addr ∧ e.addr < 0xC000) →
      State.firstBad (fun e => match s.entryFault e with | some v => some (v, 0) | none => s.winFault e) 0 l = none →
      Completes (.imgWinWrite r l) s (fun t => Applied r l State.program s t ∧ ∀ e ∈ l, e.mask % 2 ^ 32 ≠ 0 →
        ∃ w, (s.winOffset e.addr, w) ∈ (t.slot (s.get F.IMG_CTRL_SLOT 0)).words ∧ (e.mask = 2 ^ 32 - 1 → w = BitVec.ofNat 32 e.value)))

/-! The owner's one-entry writes and the layouts at the ports (spec/10_host_ports.md R351, R366, spec/09_aeline_link.md R310, R319). -/

/-- Every command that the owner gives by writing one entry completes with its own effect and is acknowledged: FLT_RESET and FLT_OOS, the six
calibration requests, the security, debug and image commands with their keys, RETRAIN, UNFENCE, INSTALL and TX_AN_SWITCH. Its conditions are on the
state and the request alone: the identity is not quiet, the session is the owner's, CTX, GEN and the arguments are zero, the payload is one entry,
the class-2 queue has room, and what the command's own rule asks. -/
def Obligations.OwnerCommandsComplete : Prop :=
  ∀ (s : State) (r : Req), s.quiet r.session 0x0A r.tag = false → s.sessionOk r = true → s.isOwner r = true →
    r.ctx = 0 → r.gen = 0 → r.arg0 = 0 → r.arg1 = 0 → r.len = 12 → s.fr.q2 < 64 →
    let done := fun (i : Instr) (effect : State → Prop) => ∃ t, exec i s = .next t ∧ effect t ∧ Acknowledged r s t
    (s.resetAllowed = true → done (.fltReset r) (fun t => t.flt.ownerReset = true)) ∧
    (s.flt.oosDue = none → done (.fltOos r) (fun t => t.flt.oosDue = some 5)) ∧
    (s.calWritable = true → s.get F.CAL_STATUS_BUSY 0 = 0 →
      let runs := fun (scope unit : Nat) (t : State) => t.cal.run = some ⟨scope, unit, r.session⟩ ∧ t.get F.CAL_STATUS_BUSY 0 = 1
      (∀ b p, done (.calBattItems r b p) (runs 0 b)) ∧ done (.calFwdSigma r) (runs 1 0) ∧ done (.calPIdle r) (runs 2 0) ∧
      done (.calMonRef r) (runs 3 0) ∧ (∀ p, done (.calSensorMap r p) (runs 4 p)) ∧ (∀ p, done (.calRingBias r p) (runs 5 p))) ∧
    (s.get F.SEC_STAT_QUOTE_BUSY 0 = 0 → (∀ u, s.sec.lastQuote = some u → u + 10 ^ 8 ≤ s.now + r.t) →
      done (.quoteGo r 0x5A) (fun t => t.sec.quoteBusy = some (s.now + r.t) ∧ t.get F.SEC_STAT_QUOTE_BUSY 0 = 1)) ∧
    done (.svnCommit r 0x5A) (fun t => t.sec.blow = s.sec.blow ++ (if s.svnFused < s.get F.SEC_BOOT_SVN_FW 0 then
      [⟨768 + s.svnFused, 2 ^ (s.get F.SEC_BOOT_SVN_FW 0 - s.svnFused) - 1, 0, false⟩] else [])) ∧
    (s.get F.SEC_FUSE_LOCK 0 = 0 → s.ownerSet = true → done (.lock r 0x5A) (fun t => t.sec.blow = s.sec.blow ++ [⟨836, 1, 1, false⟩])) ∧
    (∀ m, s.get F.SEC_FUSE_LOCK 0 = 0 ∨ m % 16 = 0 →
      done (.dbgDisable r 0x5A m) (fun t => t.sec.blow = s.sec.blow ++ [⟨832, m % 16, 2, false⟩])) ∧
    (∀ v m, done (.secCredEpochWrite r v m) (fun t => t.get F.SEC_CRED_EPOCH_EPOCH 0 =
      max (s.get F.SEC_CRED_EPOCH_EPOCH 0) (maskedIn (BitVec.ofNat 32 (s.get F.SEC_CRED_EPOCH_EPOCH 0)) v m).toNat)) ∧
    (s.imgBusy = false → ∀ k,
      done (.imgErase r 0xA5 k) (fun t => (t.slot k).erasing = true ∧ (t.slot k).words = (s.slot k).unsealed ∧ t.imgBusy = true) ∧
      ((s.slot k).sealable = true → done (.imgSeal r 0xA5 k) (fun t => (t.slot k).sealing = true ∧ t.imgBusy = true)) ∧
      done (.imgRestart r 0xA5) (fun t => t.img.restart = true)) ∧
    (s.phase ≤ 1 →
      (∀ fac purpose, s.debugAllowed fac ≠ 0 → s.sec.dbgOpen = none →
        done (.dbgOpen r fac purpose) (fun t => t.sec.dbgOpen = some (r.session - 0xFFF0) ∧ t.get F.DBG_STATE_OPEN 0 = 1)) ∧
      (s.sec.dbgOpen.isSome = true → done (.dbgClose r) (fun t => t.sec.dbgOpen = none ∧ t.get F.DBG_STATE_OPEN 0 = 0)) ∧
      (∀ p < 32, done (.retrain r p) (fun t => t.get F.LNK_CTRL_RETRAIN p = 1) ∧
        done (.unfence r p) (fun t => t.get F.LNK_CTRL_UNFENCE p = 1)) ∧
      (∀ e < 2, ∀ a < 2, s.get F.ETH_PORT_MACSEC_ON e = 1 → done (.install r e (2 ^ a)) (fun t =>
        (tget Assoc.empty t.ports.assocs (2 * e + a)).key = (List.range 8).map (fun k => s.reg (State.stagedAddr e a k)) ∧
        ∀ k < 12, t.reg (State.stagedAddr e a k) = 0)) ∧
      (∀ e < 2, ∀ an < 2, done (.txAnSwitch r e an) (fun t => t.get F.ETH_SA_CTRL_TX_AN e = an)))

/-- What the module forms at its ports reads back as it was, with every field at every value its bits admit: a flit header, the TRP header of a
segment, and a seal block, all of them big-endian (R3). -/
def Obligations.HeadersRoundTrip : Prop :=
  (∀ f : FlitFields, f.vc < 2 ^ 3 → f.type < 2 ^ 3 → f.hops < 2 ^ 5 → f.dst < 2 ^ 17 → f.src < 2 ^ 17 → f.len < 2 ^ 8 → f.ctx < 2 ^ 10 →
    f.gen < 2 ^ 16 → f.addr < 2 ^ 41 → f.ftag < 2 ^ 4 → f.bytes.length = 16 ∧ ∀ l, readFlit (f.bytes ++ l) = f) ∧
  (∀ (m : OutMsg) (g : Segment) (ofs len : Nat), m.type < 2 ^ 8 → m.session < 2 ^ 16 → m.len < 2 ^ 32 → ofs < 2 ^ 32 → len < 2 ^ 16 →
    m.ctx < 2 ^ 10 → m.gen < 2 ^ 16 → m.tag < 2 ^ 32 → m.arg0 < 2 ^ 32 → m.arg1 < 2 ^ 32 → (m.header ofs len).length = 32 ∧
      ∀ l, readSegment g (m.header ofs len ++ l) = { g with
        version := 1, type := m.type, segOfs := ofs, segLen := len,
        hdr := { g.hdr with
          session := m.session, len := m.len, gen := m.gen, ctx := m.ctx, tag := m.tag, arg0 := m.arg0, arg1 := m.arg1 } }) ∧
  (∀ (o g : SealGroup) (stamp : Nat × Nat × Nat × Nat × Nat), o.seq < 2 ^ 64 → o.group < 2 ^ 32 → o.state < 2 ^ 4 → o.depth < 2 ^ 3 → o.ack < 2 ^ 16 →
    o.credits.length = 16 → (∀ k ∈ o.credits, k < 2 ^ 8) → (sealBytes o stamp).length = 48 ∧
      ∀ l, readSeal g (sealBytes o stamp ++ l) = { g with
        seq := o.seq, group := o.group, state := o.state, unaligned := o.unaligned, depth := o.depth, nak := o.nak, ack := o.ack,
        credits := o.credits })

/-! Aeline Link ports, keys and the system's tick (spec/09_aeline_link.md R305 to R345). -/

/-- A port's training completes state by state: light, rings, lanes, FEC, HELLO, the key exchange, the waits between attempts; and a port
declared otherwise or with a bad identity is FENCED. -/
def Obligations.LinkTraining : Prop :=
  ∀ (s : State) (p : Nat), p < 32 →
    (∀ u : Nat, s.lnk p = 0 → Completes (.lightDetect p true u) s (fun t => t.lnk p = 1 ∧ (t.linkPort p).timer = s.now + u)) ∧
    (s.lnk p = 1 → Completes (.ringsLocked p) s (fun t => t.lnk p = 2)) ∧
    (s.lnk p = 2 → Completes (.lanesTrained p) s (fun t => t.lnk p = 3)) ∧
    (s.lnk p = 3 → Completes (.fecAligned p) s (fun t => t.lnk p = 4 ∧ t.sent = s.sent ++ [.flit p 7 4 [1, s.ownId, p, s.pol 0x00, s.img.accepted.topoHash]])) ∧
    (∀ o : HelloMsg, o.port = p → s.lnk p = 4 →
      (o.topo = s.img.accepted.topoHash → o.periodUs = s.pol 0x00 → (s.pairing p).valid = true → (s.pairing p).peer = o.peer → (s.pairing p).peerPort = o.peerPort →
        Completes (.hello o) s (fun t => t.lnk p = 5 ∧ (t.linkPort p).timer = s.now + o.t ∧ t.get F.LNK_PORT_PEER_ID p = o.peer % F.LNK_PORT_PEER_ID.size ∧
          (s.ownId < o.peer % F.LNK_PORT_PEER_ID.size → t.sent = s.sent ++ [.flit p 7 4 [2, s.ownId, s.ownKey]]))) ∧
      (o.topo ≠ s.img.accepted.topoHash → Completes (.hello o) s (fun t => t.lnk p = 9 ∧ t.get F.LNK_EVT_MISMATCH p = 1))) ∧
    (∀ (o : KexMsg) (u : Nat), o.port = p → s.lnk p = 5 → (s.linkPort p).timer ≤ s.now + u →
      (s.isLower p = false → s.peerKnown p o.idPk = true → o.sigOk = true →
        Completes (.kex1 o u) s (fun t => (t.linkPort p).secret = o.secret ∧ t.sent = s.sent ++ [.flit p 7 4 [3, s.ownId, s.ownKey]])) ∧
      (s.isLower p = true → s.peerKnown p o.idPk = true → o.sigOk = true →
        Completes (.kex2 o u) s (fun t => (t.linkPort p).secret = o.secret ∧ t.sent = s.sent ++ [.flit p 7 4 [4, s.ownId, State.finOf o.secret s.ownId]])) ∧
      (s.isLower p = false → s.peerKnown p o.idPk = false ∨ o.sigOk = false → Completes (.kex1 o u) s (fun t => t.lnk p = 9 ∧ t.get F.LNK_EVT_AUTH_FAIL p = 1)) ∧
      (s.isLower p = true → s.peerKnown p o.idPk = false ∨ o.sigOk = false → Completes (.kex2 o u) s (fun t => t.lnk p = 9 ∧ t.get F.LNK_EVT_AUTH_FAIL p = 1))) ∧
    (let own := State.finOf (s.linkPort p).secret (s.get F.LNK_PORT_PEER_ID p)
     ∀ (lanes : List LaneFig) (u : Nat), s.lnk p = 5 → (s.linkPort p).secret ≠ 0 → Completes (.fin p own lanes u) s (fun t => t.lnk p = 6 ∧
      (t.linkPort p).tx = some (s.txKey p (s.linkPort p).secret) ∧ (t.linkPort p).rx = some (s.rxKey p (s.linkPort p).secret) ∧
      (∀ k < 16, t.creditOf p k = s.poolSize k) ∧ (t.linkPort p).txSeq = 0 ∧ Advanced F.LNK_KEY_EXCHANGES p 1 s t)) ∧
    (∀ (lanes : List LaneFig) (u v : Nat), s.lnk p = 5 → (s.linkPort p).secret ≠ 0 →
      v ≠ State.finOf (s.linkPort p).secret (s.get F.LNK_PORT_PEER_ID p) → Completes (.fin p v lanes u) s (fun t => t.lnk p = 9 ∧ t.get F.LNK_EVT_AUTH_FAIL p = 1)) ∧
    (∀ u : Nat, 1 ≤ s.lnk p → s.lnk p ≤ 4 → (s.linkPort p).timer + 40 * 10 ^ 6 ≤ s.now + u →
      Completes (.attemptTimeout p u) s (fun t => t.lnk p = 7 ∧ (t.linkPort p).failures = (s.linkPort p).failures + 1 ∧
        Advanced F.LNK_PORT_ATTEMPTS p 1 s t)) ∧
    (∀ u : Nat, s.lnk p = 5 → (s.linkPort p).timer + 5 * 10 ^ 6 ≤ s.now + u →
      Completes (.authTimeout p u) s (fun t => t.lnk p = 7 ∧ (t.linkPort p).failures = (s.linkPort p).failures + 1)) ∧
    (∀ u : Nat, s.lnk p = 7 → (s.linkPort p).timer + 10 ^ 6 ≤ s.now + u →
      Completes (.waitExpiry p u) s (fun t => t.lnk p = if (s.linkPort p).failures < 3 then 1 else 8)) ∧
    (∀ u : Nat, s.lnk p = 8 → (s.linkPort p).timer + 10 ^ 9 ≤ s.now + u → Completes (.downExpiry p u) s (fun t => t.lnk p = 1)) ∧
    (∀ r, TakenOne s r false → Completes (.retrain r p) s (fun t => t.get F.LNK_CTRL_RETRAIN p = 1 ∧ Acknowledged r s t) ∧
      Completes (.unfence r p) s (fun t => t.get F.LNK_CTRL_UNFENCE p = 1 ∧ Acknowledged r s t))

/-- Each cause takes a port out of UP with its keys erased and DOWN set: seal loss, bit errors, resends, a late fresh key exchange, lost light
and a low laser, which takes down every port of its fibre that is not FENCED. -/
def Obligations.LinkLoss : Prop :=
  ∀ (s : State) (p : Nat), p < 32 →
    let left := fun (state : Nat) (t : State) => t.lnk p = state ∧ (t.linkPort p).tx = none ∧ (t.linkPort p).rx = none ∧
      (t.linkPort p).secret = 0 ∧ t.get F.LNK_EVT_DOWN p = 1
    (s.lnk p = 6 →
      (∀ u, (s.linkPort p).lastBlock + 10 ^ 4 ≤ s.now + u → Completes (.sealLoss p u) s (left 1)) ∧
      Completes (.berExcess p) s (left 1) ∧ Completes (.lightLost p) s (left 0) ∧
      (∀ u, 8 < ((s.linkPort p).resends.filter (fun x => decide (s.now + u < x + 10 ^ 6))).length →
        Completes (.resendLimit p u) s (fun t => left 1 t ∧ t.get F.LNK_EVT_RESEND_LIMIT p = 1)) ∧
      (∀ u b, (s.linkPort p).rekeyStart = some b → b + 5 * 10 ^ 6 ≤ s.now + u →
        (s.linkPort p).rekeyFinGot = none ∨ (s.linkPort p).rekeyFinSent = none → Completes (.rekeyTimeout p u) s (left 1))) ∧
    (s.lnk p ≠ 9 → s.lnk p ≠ 6 → Completes (.lightLost p) s (fun t => t.lnk p = 0)) ∧
    (s.lnk p = 9 → Completes (.lightLost p) s (fun t => t.lnk p = 9)) ∧
    Completes (.laserLow (p / 8)) s (fun t => t.get F.LNK_EVT_LASER_LOW p = 1 ∧ (s.lnk p = 6 → left 0 t) ∧
      t.lnk p = if s.lnk p = 9 then 9 else 0)

/-- Traffic and keys of an UP port: a good seal block acknowledges, credits and takes its group in order, a bad one asks for it again; a NAK
resends; keys ratchet and are exchanged afresh with their switch SEQs; staged MACsec keys are installed. -/
def Obligations.LinkTrafficAndKeys : Prop :=
  ∀ (s : State) (p : Nat), p < 32 → s.lnk p = 6 →
    (∀ o : SealGroup, o.port = p →
      (o.uncorrectable = true → Completes (.sealGroupReceive o) s (fun t => (t.linkPort p).nak = true ∧ Advanced F.LNK_FEC_UNC_UNCORR p 1 s t ∧
        (t.linkPort p).rxGroup = (s.linkPort p).rxGroup)) ∧
      (o.uncorrectable = false → o.tagOk = false → Completes (.sealGroupReceive o) s (fun t => (t.linkPort p).nak = true ∧
        Advanced F.LNK_ERR_TAG_FAILS p 1 s t ∧ (t.linkPort p).rxGroup = (s.linkPort p).rxGroup)) ∧
      (o.uncorrectable = false → o.tagOk = true → o.flits = [] → Completes (.sealGroupReceive o) s (fun t =>
        (t.linkPort p).lastBlock = s.now + o.t ∧ (t.linkPort p).rxSeq = o.seq ∧ (t.linkPort p).peerState = o.state ∧
        (o.nak = false → (t.linkPort p).acked = o.ack) ∧
        (o.group = ((s.linkPort p).rxGroup + 1) % 2 ^ 32 → (t.linkPort p).rxGroup = o.group ∧ (t.linkPort p).nak = false) ∧
        ((s.linkPort p).queue = [] → ∀ k < 16, t.creditOf p k = min (s.poolSize k) (s.creditOf p k + o.credits.getD k 0))))) ∧
    (∀ g n u : Nat, (n + 2 ^ 16 - g % 2 ^ 16) % 2 ^ 16 < 32 → Completes (.nak p g n u) s (fun t => (t.linkPort p).txGroup = n ∧
      (t.linkPort p).txSeq = (s.linkPort p).txSeq + (n + 2 ^ 16 - g % 2 ^ 16) % 2 ^ 16 + 1 ∧ Advanced F.LNK_FEC_UNC_RESENDS p 1 s t)) ∧
    (∀ g n u : Nat, 32 ≤ (n + 2 ^ 16 - g % 2 ^ 16) % 2 ^ 16 → Completes (.nak p g n u) s (fun t => t.lnk p = 1 ∧ t.get F.LNK_EVT_RESEND_LIMIT p = 1)) ∧
    (∀ a b u : Nat, s.isLower p = true → (s.linkPort p).rekeyStart = none →
      2 ^ 34 - 2 ^ 20 ≤ a ∨ 2 ^ 34 - 2 ^ 20 ≤ b ∨ (s.linkPort p).lastExchange + dayNs ≤ s.now + u →
      Completes (.rekeyTrigger p a b u) s (fun t => (t.linkPort p).rekeyStart = some (s.now + u) ∧ t.sent = s.sent ++ [.flit p 7 4 [5, s.ownId, s.ownKey]])) ∧
    (∀ (o : KexMsg) (u : Nat), o.port = p → s.peerKnown p o.idPk = true → o.sigOk = true →
      (s.isLower p = false → Completes (.rekey1 o u) s (fun t => (t.linkPort p).newSecret = o.secret ∧
        (t.linkPort p).rekeyStart = some (s.now + u) ∧ t.sent = s.sent ++ [.flit p 7 4 [6, s.ownId, s.ownKey]])) ∧
      (∀ n b : Nat, s.isLower p = true → (s.linkPort p).rekeyStart = some b → s.now + u < b + 5 * 10 ^ 6 →
        Completes (.rekey2 o n u) s (fun t => (t.linkPort p).newSecret = o.secret ∧ (t.linkPort p).rekeyFinSent = some (n + 4096) ∧
          t.sent = s.sent ++ [.flit p 7 4 [7, s.ownId, State.finOf o.secret s.ownId, n + 4096]]))) ∧
    (∀ n q b u : Nat, (s.linkPort p).newSecret ≠ 0 → (s.linkPort p).rekeyStart = some b → s.now + u < b + 5 * 10 ^ 6 →
      Completes (.rekeyFin p (State.finOf (s.linkPort p).newSecret (s.get F.LNK_PORT_PEER_ID p)) n q u) s (fun t => (t.linkPort p).rekeyFinGot = some q ∧ ((s.linkPort p).rekeyFinSent = none →
        (t.linkPort p).rekeyFinSent = some (n + 4096) ∧ t.sent = s.sent ++ [.flit p 7 4 [7, s.ownId, State.finOf (s.linkPort p).newSecret s.ownId, n + 4096]]))) ∧
    (∀ n : Nat, (s.linkPort p).newSecret ≠ 0 →
      ((s.linkPort p).rekeyFinSent = some n → Completes (.keySwitch p true n) s (fun t => (t.linkPort p).txSeq = 0 ∧
        (t.linkPort p).tx = some (s.txKey p (s.linkPort p).newSecret) ∧ t.get F.LNK_KEY_EPOCH p = 0 ∧
        ((s.linkPort p).rekeyFinGot = none → (t.linkPort p).newSecret = 0 ∧ Advanced F.LNK_KEY_EXCHANGES p 1 s t))) ∧
      ((s.linkPort p).rekeyFinGot = some n → Completes (.keySwitch p false n) s (fun t => (t.linkPort p).rxSeq = 0 ∧
        (t.linkPort p).rx = some (s.rxKey p (s.linkPort p).newSecret)))) ∧
    (∀ (k : DirKey) (n : Nat), n / 2 ^ 26 = k.epoch + 1 →
      ((s.linkPort p).tx = some k → Completes (.keyRatchet p true n) s (fun t => (t.linkPort p).tx = some (ratchet k) ∧
        t.get F.LNK_KEY_EPOCH p = (k.epoch + 1) % F.LNK_KEY_EPOCH.size)) ∧
      ((s.linkPort p).rx = some k → Completes (.keyRatchet p false n) s (fun t => (t.linkPort p).rx = some (ratchet k)))) ∧
    (∀ (r : Req) (e : Nat), e < 2 → TakenOne s r false → s.get F.ETH_PORT_MACSEC_ON e = 1 →
      Completes (.install r e 1) s (fun t => (tget Assoc.empty t.ports.assocs (2 * e)).key =
        (List.range 8).map (fun k => s.reg (State.stagedAddr e 0 k)) ∧ (∀ k < 12, t.reg (State.stagedAddr e 0 k) = 0) ∧ Acknowledged r s t) ∧
      (∀ an : Nat, Completes (.txAnSwitch r e an) s (fun t => t.get F.ETH_SA_CTRL_TX_AN e = an % F.ETH_SA_CTRL_TX_AN.size ∧ Acknowledged r s t)))

/-- The system's tick: a child starts with its parent's frame, θ and depth; counts, relays and the anchor's move are taken in; the timer slews
by at most 100 ppm; a module without a parent or beyond 8 ns runs unaligned and rejoins. -/
def Obligations.SystemTick : Prop :=
  ∀ (s : State),
    (∀ o k, s.parentChoice = some (k, o.port) → s.phase = 0 → Completes (.join o) s (fun t => t.frame = o.frame ∧ t.link.theta = o.theta ∧
      t.get F.LNK_TICK_DEPTH 0 = (o.depth + 1) % F.LNK_TICK_DEPTH.size ∧ t.get F.LNK_TICK_UNALIGNED 0 = 0)) ∧
    (∀ m n, s.img.accepted.children.contains m = true → Completes (.readyCount m n) s (fun t => tget 0 t.link.childCounts m = n ∧
      (s.ownId = s.img.accepted.anchor → t.readyTotal = s.img.accepted.modules → t.link.readySent = true))) ∧
    (s.ownId = s.img.accepted.anchor → s.readyTotal < s.img.accepted.modules → s.link.partialSent = false →
      s.link.bootAt + s.pol 0x90 * 10 ^ 6 ≤ s.now → Completes .sysWaitExpiry s (fun t => t.link.partialSent = true ∧
        ∃ d1, Logged 0x0709 0 0 s.readyTotal d1 s t)) ∧
    (∀ m l, Completes (.mgmtRelay m l) s (fun t => t.link.relay = s.link.relay ++ [m :: l])) ∧
    (∀ n, s.link.anchorMoved = false → Completes (.anchorMove n) s (fun t => t.link.anchorMoveAt = some n)) ∧
    (s.get F.LNK_ID_ROLE 0 = 2 → s.link.anchorMoved = false → s.link.anchorMoveAt = none → Completes .anchorLost s (fun t =>
      t.link.anchorMoveAt = some (s.frame + 2) ∧ ∀ m < s.img.accepted.modules, m ≠ s.ownId → Leaves false m 7 6 [s.frame + 2] s t)) ∧
    (∀ l, l.length = 1024 → s.isSource = false → Completes (.thetaUpdate l) s (fun t =>
      t.link.theta = (l.foldl (· + ·) 0) / 1024 ∧ -((s.periodNs : Int) * 16 / 10000) ≤ t.link.slew ∧ t.link.slew ≤ (s.periodNs : Int) * 16 / 10000)) ∧
    (s.isSource = false → Completes .parentSwitch s (fun t => (∀ k p, s.parentChoice = some (k, p) →
        t.link.noParentSince = none ∧ t.get F.LNK_TICK_PARENT_PORT 0 = p % F.LNK_TICK_PARENT_PORT.size ∧ t.get F.LNK_TICK_TREE 0 = k % F.LNK_TICK_TREE.size) ∧
      (s.parentChoice = none → t.link.noParentSince.isSome = true ∧ t.regs = s.regs))) ∧
    (∀ u, s.get F.LNK_TICK_UNALIGNED 0 = 0 → s.isSource = false → 128 < s.link.theta.natAbs ∨
      (∃ b, s.link.noParentSince = some b ∧ b + 50 * 10 ^ 6 ≤ s.now + u) → Completes (.tickUnaligned u) s (fun t =>
        t.get F.LNK_TICK_UNALIGNED 0 = 1 ∧ t.get F.DEV_STATE_UNALIGNED 0 = 1)) ∧
    (∀ (th : Int) n, s.get F.LNK_TICK_UNALIGNED 0 = 1 → s.parentChoice.isSome = true → Completes (.tickRejoin th n) s (fun t => t.link.theta = th ∧
      t.get F.LNK_TICK_UNALIGNED 0 = (if th.natAbs ≤ 128 then 0 else 1) ∧
      (1600000 < th.natAbs → ∃ len, t.link.bridging = some (n, 0, len)) ∧ (th.natAbs ≤ 1600000 → t.link.bridging = s.link.bridging)))

/-! Training steps and the gradient exchange (spec/07_training_step.md, spec/08_gradient_exchange.md). -/

/-- Steps begin once due, with the hatbox's outcome; carding runs its copies; UPDATE forms the scalars and marks its tensors; a commit ends the
step, counts it and applies it or holds it; pauses, retries and the layers' lists and fallbacks follow. -/
def Obligations.TrainingSteps : Prop :=
  ∀ (s : State) (c : Nat) (tm : Template), c < 1024 → s.template c = some tm →
    (s.phase = 1 → s.serving c = true → (s.ctx c).step = none → (s.ctx c).replays = [] →
      ((tm.multi = false ∧ s.stepDue c tm = true) ∨ (tm.multi = true ∧ ∃ n, (s.ctx c).exch.startAt = some n ∧ n ≤ s.frame) →
        let f := hbxFit tm ((s.ripe c).take tm.stepSamples)
        Completes (.stepBegin c) s (fun t => (t.ctx c).intake = (s.ctx c).intake.drop f.taken.length ∧
          (t.ctx c).step = some (StepRun.start (s.stepNo c) f tm.hbxPolicy s.frame (BitVec.ofNat 32 (s.seen F.CTX_LR_SCALE_LR_SCALE c))) ∧
          (t.ctx c).log.length = (s.ctx c).log.length + if f.abort then 0 else 1)) ∧
      (tm.multi = true → (s.ctx c).exch.startAt = none → s.stepDue c tm = true → (s.ctx c).exch.ready = false →
        Completes (.stepBegin c) s (fun t => (t.ctx c).exch.ready = true ∧ t.fr.records.length = s.fr.records.length + 1))) ∧
    (∀ (o : CardOp) k a p, o.ctx = c → tm.card o.card = some k → (tm.maps.getD k.src [])[o.shard]? = some a → a.module = s.ownId →
      s.physOf a.core = some p → s.mayRun p 3 = true → s.active p = c →
      let plane := fun (h : Shard) => { h with addr := h.plane, lo2 := h.lo2 / 32, n2 := h.n2 / 32 }
      let l := (tm.maps.getD k.dst []).flatMap (fun b => s.cardDescs c k (elemBits k.fmt) a b ++
        if isMx k.fmt then s.cardDescs c { k with dim2 := k.dim2 / 32 } 8 (plane a) (plane b) else [])
      Completes (.carding o) s (fun t => ∃ u : Nat → State, u 0 = s ∧ t = u l.length ∧ ∀ n d, l[n]? = some d →
        d.ok 1 = true → (u n).mayRun p 3 = true → (u n).dmaUntouched p d 1 = true → exec (.copy p d) (u n) = .next (u (n + 1)))) ∧
    (∀ (o : UpdateOp) r, o.ctx = c → (s.ctx c).step = some r → s.phase = 1 → r.abort = false → r.held = false →
      (s.pinned c = true → Completes (.optimizerUpdate o) s (Advanced F.CKPT_STATS_STALLS c 1 s)) ∧
      (s.pinned c = false → tm.multi = false →
        (r.stage = 0 → Completes (.optimizerUpdate o) s (fun t => ∃ q, (t.ctx c).step = some q ∧ q.nTot = r.samples.length ∧
          q.eta = fmul r.lrScale (etaSched tm.schedule (s.ctx c).updates) ∧ q.p1 = fmul (s.ctx c).p1 tm.beta1 ∧
          q.p2 = fmul (s.ctx c).p2 tm.beta2 ∧ q.invN = fdiv 0x3F800000 (f32Nat r.samples.length))) ∧
        (r.stage = 1 → (s.ctx c).exch.adopting = [] → Completes (.optimizerUpdate o) s (fun t => ∃ q, (t.ctx c).step = some q ∧
          q.updated = r.updated ++ (tm.tensors.filter (fun x => o.tensors.contains x.id && !r.updated.contains x.id)).map (fun x => x.id) ∧
          q.stage = if tm.tensors.all (fun x => q.updated.contains x.id) then 3 else 1)))) ∧
    (∀ r, (s.ctx c).step = some r → s.phase = 1 → s.fr.killed = none → r.abort = false → r.held = false → r.stage = 3 →
      s.ctxLive c = 2 ∨ s.ctxLive c = 3 →
      (tm.multi = true ∨ r.nonFinite = true ∨ r.nTot = 0 ∨ s.holdBatts c tm = [] → Completes (.stepCommit c) s (fun t =>
        (t.ctx c).step = none ∧ t.get F.CTX_STEP_LO_STEP_LO c = r.step % 2 ^ 32 ∧ t.get F.CTX_LOSS_LOSS c = r.loss.toNat ∧
        (t.ctx c).roundPos = (s.ctx c).roundPos + 1 ∧ (t.ctx c).window = s.frame + 1 ∧
        (r.nonFinite = false → r.nTot ≠ 0 → (t.ctx c).updates = (s.ctx c).updates + 1 ∧ (t.ctx c).p1 = r.p1 ∧ (t.ctx c).p2 = r.p2 ∧
          (t.ctx c).slots = flipSlots (s.ctx c).slots tm.slotMask) ∧
        (r.nonFinite = true ∨ r.nTot = 0 → (t.ctx c).updates = (s.ctx c).updates ∧ (t.ctx c).slots = (s.ctx c).slots))) ∧
      (tm.multi = false → r.nonFinite = false → r.nTot ≠ 0 → s.holdBatts c tm ≠ [] → Completes (.stepCommit c) s (fun t => ∃ q,
        (t.ctx c).step = some q ∧ q.held = true ∧ q.stage = 1 ∧ q.updated = [] ∧ q.naps = s.holdBatts c tm ∧
        (t.ctx c).updates = (s.ctx c).updates))) ∧
    (0 < (s.ctx c).skips → tm.skipLimit ≤ (s.ctx c).skips → Completes (.skipLimitPause c) s (fun t => t.get F.CTX_TRAIN_PAUSE c = 1 ∧
      t.get F.CTX_TRAIN_AUTO_PAUSED c = 1 ∧ (t.ctx c).skips = 0 ∧ ∃ d0 d1, LoggedAt 0x0604 6 c d0 d1 s t)) ∧
    (∀ r, (s.ctx c).step = some r → r.held = true →
      (tm.multi = false → (∀ b ∈ r.naps, (s.batt b.1).naps.length < b.2) →
        Completes (.holdRetry c) s (fun t => (t.ctx c).step = some { r with held := false })) ∧
      (∀ n, tm.multi = true → (s.ctx c).exch.resumeAt = some n → n ≤ s.frame + 1 → Completes (.holdRetry c) s (fun t =>
        (t.ctx c).step = some { r with held := false } ∧ (t.ctx c).exch.votes = [] ∧ (t.ctx c).exch.resumeAt = none))) ∧
    (s.commitDue c = true → s.fr.killed = none →
      Completes (.escHoldExpiry c) s (fun t => ∀ l, (t.layer c l).esc = (s.layer c l).esc.filterMap State.dropRung) ∧
      ∀ l y, tm.layers[l]? = some y →
        (s.seen F.BAND_CFG_OVF_LIMIT 0 < (s.layer c l).overflow → (s.layer c l).fallback = 0 → Completes (.fallbackEntry c l) s (fun t =>
          (t.layer c l).fallback = s.seen F.NUM_CFG_FALLBACK_STEPS 0 + 1 ∧ t.get F.NUM_EVT_FALLBACK c = 1 ∧
          ∃ d0 d1, LoggedAt 0x0602 6 c d0 d1 s t)) ∧
        ((s.layer c l).fallback = 1 → Completes (.fallbackEnd c l) s (fun t => (t.layer c l).fallback = 0))) ∧
    (∀ b l y, s.battLayer b = some (c, l, y) → s.fr.killed = none →
      (∀ r, r ∈ (s.layer c l).leaving → (∃ x ∈ (s.batt b).staged, x.row = r) → Completes (.staticListLeave b r) s (fun t =>
        (t.layer c l).staticRows = (s.layer c l).staticRows.filter (fun e => decide (e.1 ≠ r)) ∧ r ∉ (t.layer c l).leaving)) ∧
      ((s.layer c l).rescale = true → (s.batt b).loadIn = true →
        (∀ i ∈ y.batts, (s.batt (s.battOf i)).loadIn = true ∨ (s.batt (s.battOf i)).newScale = none) →
        Completes (.rescaleComplete b) s (fun t => (t.layer c l).rescale = false)))

/-- The work of the exchange completes: partials, factors and copies leave as portions; a sum whose parts are all there is stored and counted;
gathered masters land in the free slots; a chunk's check agrees or goes to the referee, whose result decides. -/
def Obligations.ExchangeWork : Prop :=
  ∀ (s : State) (c : Nat) (tm : Template), c < 1024 → Exchanging s c tm →
    (∀ l r, (s.ctx c).step = some r → Completes (.exchScatter c l) s (fun t => ∀ f ∈ l, ∀ x, tm.tensor f.tensor = some x →
      (f.kind = 0 → Portion false c tm f r.samples.length (s.bytes (s.partAt c x + 4 * f.first) (4 * f.count)) s t) ∧
      (f.kind = 1 → (f.member ≠ s.ownIdx tm → Portion false c tm f r.samples.length (s.pPartial c x f.first f.count) s t) ∧
        (l = [f] → t.bytes (f.src + (if x.bf16 then 2 else 4) * f.first) ((if x.bf16 then 2 else 4) * f.count) = s.pPartial c x f.first f.count)) ∧
      (f.kind = 6 → Portion true c tm f 0 (t.bytes f.src ((if x.bf16 ∧ x.rank ≠ 0 then 2 else 4) * f.count)) s t))) ∧
    (∀ (o : SumOp) x, o.ctx = c → tm.tensor o.tensor = some x →
      let hs := s.heads c o.srcs
      let w := if x.bf16 then 2 else 4
      let summed := fun (n : Nat) (t : State) => (t.ctx c).exch.summed = (s.ctx c).exch.summed ++ [o.tensor] ∧ ∃ q, (t.ctx c).step = some q ∧ q.nTot = n
      (∀ l, State.allSums ((x.elems (s.ownRows c tm x)).map (s.sumAt c tm hs 0 x.id 4 (fun e => s.word (s.partAt c x + 4 * e)))) = some l →
        Completes (.ownerSum o) s (fun t => summed (s.countOf c tm hs 0 x.id) t ∧
          ∀ (k e : Nat) (v : Word), (x.elems (s.ownRows c tm x))[k]? = some e → l[k]? = some v → t.word (x.sum + 4 * e) = v)) ∧
      (∀ l, x.rank ≠ 0 → s.ownerOf c tm x 0 = s.ownIdx tm →
        State.allSums ((List.range (x.rows * x.rank)).map (s.sumAt c tm hs 1 x.id w (fun e => s.factor x o.own e))) = some l →
        Completes (.thinPSum o) s (fun t => (∃ q, (t.ctx c).step = some q ∧ q.nTot = s.countOf c tm hs 1 x.id) ∧
          (∀ e < x.rows * x.rank, t.factor x x.phat e =
            (fun v => if x.bf16 then bfRound v else v) (((orthonormalise (columns l x.rank)).getD (e % x.rank) []).getD (e / x.rank) 0)) ∧
          ∀ f ∈ o.xfers, f.kind = 2 → Portion false c tm f 0 (t.bytes (x.phat + w * f.first) (w * f.count)) s t)) ∧
      (x.rank ≠ 0 → Completes (.thinQPartial o) s (fun t => ∀ f ∈ o.xfers, f.kind = 3 →
        Portion false c tm f 0 (t.bytes (o.own + w * f.first) (w * f.count)) s t)) ∧
      (∀ l r, x.rank ≠ 0 → s.ownerOf c tm x 0 = s.ownIdx tm → (s.ctx c).step = some r →
        State.allSums ((List.range (x.cols * x.rank)).map (s.sumAt c tm hs 3 x.id w (fun e => s.factor x o.own e))) = some l →
        Completes (.thinQSum o) s (fun t => summed r.nTot t ∧ t.bytes x.qsum (State.factorBytes x.bf16 l).length = State.factorBytes x.bf16 l ∧
          ∀ f ∈ o.xfers, f.kind = 4 → Portion false c tm f 0 (t.bytes (x.qsum + w * f.first) (w * f.count)) s t))) ∧
    (∀ (o : GatherOp), o.ctx = c →
      (∀ a h x, (s.heads c o.srcs).filter (fun h => decide (h.2.kind = 5 ∧ h.2.sender = o.owner)) = [(a, h)] → tm.tensor h.tensor = some x →
        Completes (.mastersApply o) s (fun t => t.words ((s.ctx c).slot x.master true + 4 * h.first) h.elements = s.words (a + 64) h.elements)) ∧
      (o.last = true → o.owner ∉ (s.ctx c).exch.applied →
        Completes (.mastersApply o) s (fun t => (t.ctx c).exch.applied = (s.ctx c).exch.applied ++ [o.owner]))) ∧
    (∀ (o : ChunkOp) x, o.ctx = c → tm.tensor o.tensor = some x →
      let primary := s.primaryOf c tm x o
      let w := if o.sum ≠ 0 ∧ x.bf16 then 2 else 4
      let own := fun (e : Nat) => if w = 2 then ofBf16 (s.load (o.own + 2 * (e - o.first)) 2) else s.word (o.own + 4 * (e - o.first))
      (∀ l, State.allSums ((List.range o.count).map (fun i => s.sumAt c tm (s.heads c o.srcs) 6 x.id w own (o.first + i))) = some l →
        let sends := fun (copy : Bool) (t : State) => ∀ f ∈ o.xfers, f.kind = 7 → Portion copy c tm f 0 (l.flatMap (fun v => leBytes 4 v.toNat)) s t
        ((s.checkersOf c tm primary o.chunk).1 = s.ownIdx tm → s.chunkDrawn c o.chunk = true ∨ 0 < (s.ctx c).exch.attempt →
          Completes (.checkCopySum o) s (sends true)) ∧
        ((s.checkersOf c tm primary o.chunk).2 = s.ownIdx tm → Completes (.refereeSum o) s (sends false))) ∧
      (∀ l, s.resultWords o (o.srcs.headD 0) = some l → primary = s.ownIdx tm → Completes (.checkCompare o) s (fun t =>
        Advanced F.EXCH_CHK_CHECKED c 1 s t ∧ (l = s.ownSum o → (t.ctx c).exch = (s.ctx c).exch) ∧
        (l ≠ s.ownSum o → Advanced F.EXCH_CHK_MISMATCH c 1 s t ∧ t.get F.EXCH_EVT_MISMATCH c = 1 ∧
          (t.ctx c).exch.refereed = (s.ctx c).exch.refereed ++ [o.chunk]))) ∧
      (∀ check ref, s.resultWords o (o.srcs.headD 0) = some check → s.resultWords o (o.srcs.getD 1 0) = some ref →
        o.chunk ∈ (s.ctx c).exch.refereed → Completes (.refereeDecision o) s (fun t => o.chunk ∉ (t.ctx c).exch.refereed ∧
          (ref = s.ownSum o → ∀ b, t.byte b = s.byte b) ∧
          (ref ≠ s.ownSum o → ref = check → o.sum = 0 → t.ownSum o = ref) ∧
          (ref ≠ s.ownSum o → ref ≠ check ∨ o.sum ≠ 0 → (t.ctx c).exch.stopped = true)))) ∧
    (∀ (o : StepRec) l, o.head.ctx = c → s.vcOpen o.head.vc = true → s.current c (o.step % 2 ^ 48) o.attempt = true → Completes (.rereduce o l) s (fun t =>
      ∀ f ∈ l, f.kind = 6 → f.chunk = o.arg → ∀ x, tm.tensor f.tensor = some x →
        Portion false c tm f 0 (s.bytes f.src ((if x.bf16 ∧ x.rank ≠ 0 then 2 else 4) * f.count)) s t))

/-- The records of the exchange are taken in: READY fixes the start, SCALAR, VOTE, STATE and RESUME are noted, ABANDON stops the attempt until
its re-run, and a record of another step counts as stale. A module that does not hold the tick takes none on VC 1 to 6 (R76). Losses take effect at their frame, and the survivors decide the step. -/
def Obligations.ExchangeRecords : Prop :=
  ∀ (s : State) (c : Nat) (tm : Template), c < 1024 → s.template c = some tm →
    (∀ o : StepRec, o.head.ctx = c → s.vcOpen o.head.vc = true →
      ((s.ctx c).step = none → o.step = s.stepNo c % 2 ^ 48 → o.attempt = 0 → Completes (.stepReady o) s (fun t =>
        (t.ctx c).exch.startAt = some (match (s.ctx c).exch.startAt with | some n => min n (o.frame + 2) | none => o.frame + 2))) ∧
      (s.current c (o.step % 2 ^ 48) o.attempt = true →
        Completes (.scalar o) s (fun t => (t.ctx c).exch.scalars = (s.ctx c).exch.scalars ++
          [⟨o.sender, BitVec.ofNat 32 o.frame, BitVec.ofNat 32 (o.frame / 2 ^ 32), o.nonFinite⟩]) ∧
        Completes (.resume o) s (fun t => o.sender ∈ (t.ctx c).exch.resumes) ∧
        ((s.ctx c).loading = none → Completes (.vote o) s (fun t => (t.ctx c).exch.votes = (s.ctx c).exch.votes ++ [(o.sender, o.arg)]))) ∧
      (s.current c (o.step % 2 ^ 48) o.attempt = false →
        Completes (.scalar o) s (fun t => Advanced F.EXCH_STALE_STALE c 1 s t ∧ t.ctxs = s.ctxs)) ∧
      (∀ r, (s.ctx c).step = some r → r.step % 2 ^ 48 = o.step →
        Completes (.stateRecord o) s (fun t => (t.ctx c).exch.states = (s.ctx c).exch.states ++ [(o.sender, decide (o.arg = 1))]) ∧
        ((s.ctx c).exch.attempt = o.attempt → Completes (.abandon o) s (fun t =>
          (∀ n, (s.ctx c).exch.rerunAt = some n → (t.ctx c).exch.rerunAt = some (min n (o.frame + 2))) ∧
          ((s.ctx c).exch.rerunAt = none → Advanced F.EXCH_CHK_ABANDONED c 1 s t ∧
            ((s.ctx c).exch.attempt < s.seen F.EXCH_STEP_RETRIES c → (t.ctx c).exch.rerunAt = some (o.frame + 2)) ∧
            (s.seen F.EXCH_STEP_RETRIES c ≤ (s.ctx c).exch.attempt → (s.ctx c).faultDue = none → (t.ctx c).faultDue = some 2)))))) ∧
    (∀ o : StepRec, s.vcOpen o.head.vc = false → ∀ i ∈ [Instr.stepReady o, .scalar o, .resume o, .vote o, .stateRecord o, .abandon o],
      Completes i s (fun t => t = s)) ∧
    (∀ n, (s.ctx c).exch.rerunAt = some n → n ≤ s.frame + 1 → Completes (.exchRerun c) s (fun t =>
      (t.ctx c).exch.attempt = (s.ctx c).exch.attempt + 1 ∧ (t.ctx c).exch.rerunAt = none ∧ (t.ctx c).exch.stopped = false ∧
      (t.ctx c).exch.scalars = [] ∧ t.get F.EXCH_STEP_ATTEMPT c = ((s.ctx c).exch.attempt + 1) % F.EXCH_STEP_ATTEMPT.size ∧
      ∀ r, (s.ctx c).step = some r → ∃ q, (t.ctx c).step = some q ∧ q.stage = 0 ∧ q.updated = [])) ∧
    (∀ m due, (s.ctx c).step.isSome = true → due + s.seen F.EXCH_CFG_EXCH_WAIT 0 ≤ s.frame → tm.members.getD m 0 ∈ tm.members →
      (∀ e ∈ (s.ctx c).exch.lost ++ (s.ctx c).exch.pending, e.1 ≠ tm.members.getD m 0) → Completes (.memberLate c m due) s (fun t =>
        (t.ctx c).exch.pending = (s.ctx c).exch.pending ++ [(tm.members.getD m 0, s.frame + 2)])) ∧
    (∀ (h : FlitHead) m f, h.ctx = c → (∀ e ∈ (s.ctx c).exch.lost, e.1 ≠ m) → Completes (.lossReport h m f) s (fun t =>
      (t.ctx c).exch.pending = if (s.ctx c).exch.pending.any (fun e => decide (e.1 = m)) then
          (s.ctx c).exch.pending.map (fun e => if e.1 = m then (e.1, min e.2 f) else e)
        else (s.ctx c).exch.pending ++ [(m, f)])) ∧
    Completes (.memberRemoval c) s (fun t => (t.ctx c).exch.pending = (s.ctx c).exch.pending.filter (fun e => decide (s.frame + 1 < e.2)) ∧
      ∀ e ∈ (s.ctx c).exch.pending, e.2 ≤ s.frame + 1 →
        (e.1 ≠ s.ownId → e ∈ (t.ctx c).exch.lost) ∧ (e.1 = s.ownId → 2 ≤ s.ctxLive c → s.ctxLive c ≤ 4 → t.ctxLive c = 6)) ∧
    (∀ n r, (s.ctx c).exch.stateAt = some n → n ≤ s.frame + 1 → (s.ctx c).step = some r →
      ((s.ctx c).exch.states.any (fun x => x.2) = true → (s.ownCtxIdx tm, 0) ∈ (s.ctx c).exch.votes →
        Completes (.stateDecision c) s (fun t => (t.ctx c).step = some { r with stage := 3 } ∧ (t.ctx c).exch.stateAt = none)) ∧
      ((s.ctx c).exch.states.any (fun x => x.2) = false → (s.ctx c).faultDue = none → (s.ctx c).exch.rerunAt = none →
        (s.ctx c).exch.attempt < s.seen F.EXCH_STEP_RETRIES c → Completes (.stateDecision c) s (fun t =>
          (t.ctx c).exch.attempt = (s.ctx c).exch.attempt + 1 ∧ (t.ctx c).exch.stateAt = none)))

/-! Silent errors (spec/13_silent_errors.md). -/

/-- Digests are taken in, formed and decided; duplicates are compared and refereed; observation ends after its day; margin frames name their
core, and its known-answer tests are counted. -/
def Obligations.SilentErrors : Prop :=
  ∀ (s : State),
    (∀ (c : Nat) (tm : Template), c < 1024 → s.template c = some tm →
      (∀ o : DigestMsg, o.head.ctx = c → s.vcOpen o.head.vc = true → o.scope ≠ 1 → s.current c o.step o.attempt = true → Completes (.digest o) s (fun t =>
        (t.ctx c).exch.digests = (s.ctx c).exch.digests ++ [⟨o.scope, o.sender, o.subject, o.d1, o.d2⟩] ∧
        (o.scope = 2 → (o.sender, o.subject) ∈ (t.ctx c).exch.disputes ∧ (t.ctx c).exch.digestAt.isSome = true))) ∧
      (∀ o : DigestMsg, o.head.ctx = c → s.vcOpen o.head.vc = true → o.scope = 1 → s.fullDue c = true → o.step = (s.stepNo c - 1) % 2 ^ 48 →
        Completes (.digest o) s (fun t => (o.sender, o.d1) ∈ (t.ctx c).exch.full ∧ (t.ctx c).exch.fullStep = s.stepNo c - 1)) ∧
      (tm.multi = true → s.fullDue c = true → (s.ctx c).exch.fullStep ≠ s.stepNo c - 1 → Completes (.fullDigest c) s (fun t =>
        (s.ownIdx tm, s.fullDigest c tm (s.stepNo c - 1)) ∈ (t.ctx c).exch.full ∧ (t.ctx c).exch.fullStep = s.stepNo c - 1)) ∧
      (∀ n, (s.ctx c).exch.digestAt = some n → n ≤ s.frame + 1 → Completes (.digestDecision c) s (fun t =>
        (t.ctx c).exch.digestAt = none ∧ (t.ctx c).exch.disputes = [] ∧
        ((s.ctx c).exch.tries = 0 → (t.ctx c).exch.tries = 1) ∧
        ((s.ctx c).exch.tries ≠ 0 → 2 * (s.oddSet c tm).length < (s.aliveGroup c tm).length →
          Advanced F.FLT_DIGEST_EXPELLED c (s.oddSet c tm).length s t) ∧
        ((s.ctx c).exch.tries ≠ 0 → (s.aliveGroup c tm).length ≤ 2 * (s.oddSet c tm).length → (s.ctx c).faultDue = none →
          (t.ctx c).faultDue = some 6)))) ∧
    (∀ o : DupOp, o.core < 192 → o.core / 48 ≠ o.other / 48 → s.picked o.core o.item = true →
      (o.ran = false → Completes (.duplicateCompare o) s (fun t => Advanced F.FLT_DUP_SKIPPED o.core 1 s t ∧ t.picked o.core o.item = false)) ∧
      (o.ran = true → o.orig = o.dup → Completes (.duplicateCompare o) s (fun t => Advanced F.FLT_DUP_DUPLICATED o.core 1 s t ∧
        t.flt = s.flt)) ∧
      (o.ran = true → o.orig ≠ o.dup → Completes (.duplicateCompare o) s (fun t =>
        t.flt.referee = some ⟨o.core, o.item, o.other, o.orig, o.dup, o.engine⟩ ∧ (s.phase = 1 → s.fr.killed = none → t.fr.killed = some 5)))) ∧
    (∀ (o : DupOp) d, s.flt.referee = some d → d.core < 192 → d.other < 192 → o.core = d.core → o.item = d.item →
      o.other / 48 ≠ d.core / 48 → o.other / 48 ≠ d.other / 48 → o.orig = o.dup →
      (o.orig = d.second → Completes (.duplicateReferee o) s (fun t => t.flt.referee = none ∧ Advanced F.FLT_OBS_FINDINGS d.core 1 s t ∧
        (t.core d.core).obsUntil = some (s.now + dayNs))) ∧
      (o.orig = d.first → d.first ≠ d.second → Completes (.duplicateReferee o) s (fun t => t.flt.referee = none ∧
        Advanced F.FLT_OBS_FINDINGS d.other 1 s t ∧ (t.core d.other).obsUntil = some (s.now + dayNs)))) ∧
    (∀ p u n, p < 192 → (s.core p).obsUntil = some n → n ≤ s.now + u → Completes (.observationExpiry p u) s (fun t =>
      (t.core p).obsUntil = none ∧ t.get F.FLT_CORE_OBSERVED p = 0 ∧ t.get F.FLT_OBS_OBS_LEFT p = 0)) ∧
    (∀ p, s.phase = 1 → (s.frame + 1) % max 1 (s.pol 0x68) = 0 → s.flt.marginCore = none →
      let due := (List.range 192).filter (fun p => decide (s.get F.FLT_CORE_ROLE p = 0))
      (due.find? (fun q => decide (s.flt.marginNext ≤ q)) = some p → Completes (.marginFrame p) s (fun t =>
        t.flt.marginCore = some p ∧ t.flt.marginNext = p + 1)) ∧
      (due.find? (fun q => decide (s.flt.marginNext ≤ q)) ≠ some p → p ∈ due → s.get F.FLT_CORE_OBSERVED p = 1 →
        tget 0 s.flt.marginVisits p < 8 → Completes (.marginFrame p) s (fun t => t.flt.marginCore = some p ∧ t.flt.marginNext = s.flt.marginNext))) ∧
    (∀ p, p < 192 → s.phase = 1 → s.flt.marginRun = some (p, false) →
      Completes (.knownAnswerTest p none) s (fun t => t.flt.marginRun = some (p, true) ∧ Advanced F.FLT_MARGIN_VISITS p 1 s t ∧
        Advanced F.FLT_MARGIN_FAILS p 0 s t) ∧
      ∀ n, Completes (.knownAnswerTest p (some n)) s (fun t => t.flt.marginRun = some (p, true) ∧ Advanced F.FLT_MARGIN_VISITS p 1 s t ∧
        Advanced F.FLT_MARGIN_FAILS p 1 s t ∧ t.get F.FLT_MARGIN_LAST_TEST p = n % F.FLT_MARGIN_LAST_TEST.size ∧
        (t.core p).obsUntil = some (s.now + dayNs)))

/-! Checkpoints, exports and restores (spec/14_checkpoint_and_replay.md). -/

/-- A checkpoint is named, its holders and members report, and it completes or is abandoned; its probe's loss is noted; exports are started,
skipped and kept; a load completes. -/
def Obligations.Checkpoints : Prop :=
  ∀ (s : State) (c : Nat) (tm : Template), c < 1024 → s.template c = some tm →
    let run := fun (t : State) => (t.ctx c).ckpt.run
    let named := fun (n g : Nat) (t : State) => run t = some ⟨n, g, s.takers c tm, none, 0, [], [], [], none⟩ ∧
      (t.ctx c).ckpt.lastStart = some s.tickTime ∧ (t.ctx c).ckpt.lastGen = max (s.ctx c).ckpt.lastGen g
    let complete := fun (k : CkptRun) (t : State) => run t = none ∧ (t.ctx c).ckpt.latest = k.snap ∧
      (t.ctx c).ckpt.previous = (s.ctx c).ckpt.latest ∧ t.get F.CKPT_GEN_GEN c = k.gen % 2 ^ 32 ∧
      t.get F.CKPT_STEP_LO_STEP c = k.step % 2 ^ 32 ∧ t.get F.CKPT_EVT_DONE c = 1 ∧ LoggedAt 0x0509 6 c k.gen k.step s t
    let abandoned := fun (cause : Nat) (t : State) => run t = none ∧ (t.ctx c).ckpt.latest = (s.ctx c).ckpt.latest ∧
      Advanced F.CKPT_STATS_ABANDONED c 1 s t ∧ t.get F.CKPT_EVT_FAILED c = 1 ∧ ∃ d, LoggedAt 0x050A 6 c cause d s t
    (∀ l, (s.ctx c).loading = some l → s.ctxLive c = 1 → l.restore = false → l.stage = 5 → s.unblocked c = [] →
      s.packageBad c tm = false → Completes (.loadComplete c) s (fun t => t.ctxLive c = 2 ∧ (t.ctx c).loading = none ∧ (t.ctx c).vtime = s.minVtime ∧
        ∀ r, l.request = some r → t.fr.held = s.fr.held ++ [⟨1, 0, { answer 6 r (verdict stOk) 0 with gen := s.gen c }⟩])) ∧
    (s.fr.killed = none → (s.ctx c).window = s.frame + 1 → s.leads c tm = true → s.ckptDue c tm = true →
      Completes (.ckptStart c) s (fun t => named (s.stepNo c + 1) ((s.ctx c).ckpt.lastGen + 1) t ∧
        t.fr.records.length = s.fr.records.length + if tm.multi then 1 else 0)) ∧
    (∀ o : StepRec, o.head.ctx = c → s.vcOpen o.head.vc = true →
      (run s = none → s.stepNo c ≤ o.step → s.holders c ≠ [] → Completes (.ckpt o) s (named o.step o.arg)) ∧
      (run s = none → s.stepNo c ≤ o.step → s.holders c = [] → Completes (.ckpt o) s (fun t => t = s)) ∧
      (run s ≠ none ∨ o.step < s.stepNo c → Completes (.ckpt o) s (Advanced F.EXCH_STALE_STALE c 1 s)) ∧
      (∀ k, run s = some k → k.step % 2 ^ 48 = o.step →
        (o.holder = true → o.sender ∈ s.holders c → k.taken ≠ none → o.sender ∉ k.holdersDone →
          (∃ h ∈ s.holders c, h ≠ o.sender ∧ h ∉ k.holdersDone) →
          Completes (.done o) s (fun t => run t = some { k with holdersDone := k.holdersDone ++ [o.sender] })) ∧
        (o.holder = false → k.taken = none → o.sender ∉ k.membersDone →
          Completes (.done o) s (fun t => run t = some { k with membersDone := k.membersDone ++ [o.sender] })) ∧
        (o.holder = false → k.taken ≠ none → (∀ m ∈ k.members, m = o.sender ∨ m ∈ k.membersDone) → Completes (.done o) s (complete k))) ∧
      (∀ k, run s = some k → k.step % 2 ^ 48 ≠ o.step → Completes (.done o) s (Advanced F.EXCH_STALE_STALE c 1 s))) ∧
    (∀ o : HolderOp, let e := tget (⟨0, [], 0, 0⟩ : TopoEntry) s.img.accepted.topo o.source
      o.source ≠ s.ownId → (e.holder0 = s.ownId ∨ s.img.accepted.holders = 2 ∧ e.holder1 = s.ownId) → 0 < o.promised → o.promised ≤ o.landed →
      Completes (.holderDone o) s (fun t => t.fr.records = s.fr.records ++
        [⟨o.ctx, s.gen o.ctx, 1, [o.source], State.recBytes o.step 0 9 (s.ownId + 2 ^ 17) 0 0 0⟩])) ∧
    (∀ k, run s = some k → k.taken ≠ none → s.fr.killed = none → s.img.accepted.modules ≤ 1 → s.takerIdx tm ∉ k.membersDone →
      (∀ m ∈ k.members, m = s.takerIdx tm ∨ m ∈ k.membersDone) → Completes (.selfHoldCopyDone c) s (complete k)) ∧
    (∀ k, run s = some k →
      (∀ m, m ∈ s.holders c → m ≠ s.ownId → m ∉ k.holdersDone → Completes (.ckptAbandon c 1 m) s (fun t => abandoned 1 t ∧
        m ∉ t.holders c)) ∧
      (∀ m, m ∈ s.holders c → m ≠ s.ownId → m ∈ k.holdersDone → Completes (.ckptAbandon c 1 m) s (fun t => run t = some k ∧ m ∉ t.holders c)) ∧
      (∀ m i, i ∈ k.members → s.isLost c (tm.members.getD i 0) = true → Completes (.ckptAbandon c 2 m) s (abandoned 2)) ∧
      (∀ m, s.ctxLive c = 5 ∨ s.ctxLive c = 1 → Completes (.ckptAbandon c 3 m) s (abandoned 3)) ∧
      (∀ m, s.ctxLive c = 6 → Completes (.ckptAbandon c 7 m) s (abandoned 7)) ∧
      (k.taken ≠ none → k.tFrame + s.pol 0x84 ≤ s.frame + 1 → Completes (.ckptLimitExpiry c) s (abandoned 4)) ∧
      (∀ g v, k.snap = some g → g.samples ≠ [] → Completes (.probe c v) s (fun t =>
        run t = some { k with snap := some { g with probe := some v } } ∧ SameBut [.ctxs] s t))) ∧
    (∀ n, (2 ≤ s.ctxState c ∧ s.ctxState c ≤ 4) ∨ s.ctxState c = 6 → s.phase = 1 →
      max (s.ctx c).exportDue ((s.ctx c).ckpt.sinceReady.getD 0) + tm.exportPeriod * State.second ≤ s.now →
      let u := s.updCtx c (fun x => { x with exportDue := s.now })
      (u.exportUsed + n ≤ s.exportArea → Completes (.exportScheduled c n) s (fun t => (t.ctx c).exportDue = s.now ∧ ∃ l set_ key, t.exports c = l ++
        [⟨(s.ctx c).ckpt.nextExportId, s.gen c, 0, set_, key, n, 0, tm.exportSession, s.hostPort tm.exportSession, 0, 0, true, false⟩])) ∧
      (s.exportArea < u.exportUsed + n → Completes (.exportScheduled c n) s (fun t => t.exports c = s.exports c ∧
        Advanced F.CKPT_STATS_EXPORTS_SKIPPED c 1 s t ∧ t.get F.CKPT_EVT_FAILED c = 1 ∧ ∃ d, Logged 0x050A 6 c 5 d s t))) ∧
    (∀ i, Completes (.exportHoldExpiry c i) s (fun t => SameBut [.ctxs] s t ∧ ∀ x ∈ s.exports c,
      (x.id = i → x.busy = false → x.lastSent + s.pol 0x8C * State.second ≤ s.now → { x with displaceable := true } ∈ t.exports c) ∧
      (x.id ≠ i ∨ x.busy = true ∨ s.now < x.lastSent + s.pol 0x8C * State.second → x ∈ t.exports c)))

/-- A restore takes its sections, checks them, gathers masters, is accepted by its probe and recomputes logged steps; one that fails a check is
refused with its reason. Records are taken by TYPE. Moments for an adopter land, or start at zero. -/
def Obligations.Restores : Prop :=
  ∀ (s : State) (c : Nat) (tm : Template), c < 1024 → s.template c = some tm →
    let refused := fun (reason : Nat) (t : State) => t.get F.CKPT_RESTORE_LAST_REASON c = reason ∧ t.get F.CKPT_EVT_REFUSED c = 1 ∧
      ((s.ctx c).faultDue = none → (t.ctx c).faultDue = some 5) ∧ (∃ q, (t.ctx c).loading = some q ∧ q.stage = 9 ∧ q.request = none) ∧
      ∃ d, Logged 0x050C 6 c reason d s t
    let record := fun (g : Generation) (t : State) => (t.ctx c).roundPos = g.roundPos ∧ (t.ctx c).updates = g.updates ∧
      (t.ctx c).p1 = g.p1 ∧ (t.ctx c).p2 = g.p2 ∧ (t.ctx c).slots = g.slots ∧ t.get F.CTX_STEP_LO_STEP_LO c = g.step % 2 ^ 32 ∧
      t.get F.CTX_LR_SCALE_LR_SCALE c = g.lrScale.toNat
    let marked := fun (m : Nat) (t : State) => (t.ctx c).exch.adopting =
      (s.ctx c).exch.adopting.map (fun a => if a.1 = m then (a.1, a.2.1, true) else a)
    let w := if tm.bf16Moments then 2 else 4
    (∀ l, (s.ctx c).loading = some l →
      (∀ o : RestoreOp, o.ctx = c → s.ctxLive c = 1 → (s.ctx c).zeroing = false →
        (l.stage ≤ 1 → o.model = false → l.restore = true → o.given = none → s.sourceGen c l = none → Completes (.restore o) s (refused 2)) ∧
        (∀ g, l.stage ≤ 1 → o.model = false → o.given = some g ∨ (o.given = none ∧ l.restore = true ∧ s.sourceGen c l = some g) →
          (o.found = false → Completes (.restore o) s (refused 2)) ∧
          (o.found = true → o.digests = false ∨ g.intact = false → Completes (.restore o) s (refused 1)) ∧
          (o.found = true → o.digests = true → g.intact = true → g.template ≠ tm.index → Completes (.restore o) s (refused 4)) ∧
          (o.found = true → o.digests = true → g.intact = true → g.template = tm.index → tm.multi = false →
            Completes (.restore o) s (fun t => record g t ∧ (t.ctx c).step = none ∧
              (t.ctx c).loading = some { l with restore := true, stage := 6, set_ := some g, members := l.members ++ [(0, g.gen % 2 ^ 32)] }))) ∧
        (∀ g, l.stage ≤ 1 → o.model = true → s.bindingBad c = false → l.restore = false → o.given = some g → Completes (.restore o) s (fun t => record g t ∧
          (t.ctx c).loading = some { l with stage := 5, set_ := some g })) ∧
        (l.stage = 4 → Completes (.restore o) s (fun t =>
          (∀ f ∈ o.xfers, f.kind = 5 → ∀ x, tm.tensor f.tensor = some x →
            Portion false c tm f 0 (s.bytes ((s.ctx c).slot x.master false + 4 * f.first) (4 * f.count)) s t) ∧
          (t.ctx c).loading = some { l with stage := if o.last then 6 else 4 }))) ∧
      (∀ o : StepRec, o.head.ctx = c → s.vcOpen o.head.vc = true →
        (2 < l.stage → Completes (.restored o) s (Advanced F.EXCH_STALE_STALE c 1 s)) ∧
        (l.stage < 2 → Completes (.restored o) s (fun t => (t.ctx c).loading = some { l with members := l.members ++ [(o.sender, o.arg)] })) ∧
        (∀ g, l.stage = 2 → l.set_ = some g → tm.multi = true →
          (∀ i < tm.members.length, i = o.sender ∨ ∃ m ∈ l.members, m.1 = i) →
          ((∀ m ∈ l.members ++ [(o.sender, o.arg)], m.2 = g.gen % 2 ^ 32) → Completes (.restored o) s (fun t => record g t ∧
            (t.ctx c).loading = some { l with stage := 4, members := l.members ++ [(o.sender, o.arg)] })) ∧
          ((∃ m ∈ l.members ++ [(o.sender, o.arg)], m.2 ≠ g.gen % 2 ^ 32) → Completes (.restored o) s (refused 5))) ∧
        (l.stage < 6 → Completes (.vote o) s (fun t => (t.ctx c).loading = some { l with votes := l.votes ++ [(o.sender, decide (o.arg = 0))] }))) ∧
      (∀ g v, l.stage = 6 → l.set_ = some g → s.unblocked c = [] → l.votes = [] →
        let ok := match g.probe with | none => true | some p => s.lossNear tm p v
        (tm.multi = false → (ok = true → Completes (.acceptanceReplay c v) s (fun t => ∃ q, (t.ctx c).loading = some q ∧ q.stage = 7)) ∧
          (ok = false → Completes (.acceptanceReplay c v) s (refused 3))) ∧
        (tm.multi = true → 2 ≤ tm.members.length → Completes (.acceptanceReplay c v) s (fun t =>
          (t.ctx c).loading = some { l with votes := [(s.ownCtxIdx tm, ok)] } ∧ t.fr.records.length = s.fr.records.length + 1))) ∧
      (∀ g n, l.stage = 7 → l.set_ = some g → Completes (.logRecompute c n) s (fun t => t.ctxLive c = 2 ∧ (t.ctx c).loading = none ∧
        (t.ctx c).replays = State.stepsToRedo (s.ctx c) (if tm.multi then some n else none) (s.ctx c).log.length (g.step + 1) ∧
        t.get F.CKPT_EVT_RESTORED c = 1 ∧ Logged 0x050B 6 c g.gen g.step s t)) ∧
      (s.ctxLive c = 1 → l.init2 = true → l.stage = 1 → State.second ≤ (s.frame - l.begun) * s.periodNs →
        Completes (.initRestoreTimeout c) s (fun t => (t.ctx c).loading = some { l with restore := false, stage := 0, init2 := false } ∧
          (t.ctx c).unsound = State.allRows (s.placement c)))) ∧
    (∀ n k l e, (s.ctx c).loading = none → (s.ctx c).replays = k :: l → s.phase = 1 → s.serving c = true → (s.ctx c).step = none →
      tm.multi = false → s.seen F.CTX_TRAIN_PAUSE c = 0 → (s.ctx c).log.find? (fun e => decide (e.kind = 2 ∧ e.step = k)) = some e →
      Completes (.logRecompute c n) s (fun t => (t.ctx c).roundPos = e.roundPos ∧ ∃ r, (t.ctx c).step = some r ∧ r.step = k ∧
        r.replay = true ∧ r.lrScale = e.lrScale ∧ r.replayLoss = e.loss ∧ r.samples = State.namedSamples (s.ctx c) e)) ∧
    (∀ m a, (m, a, false) ∈ (s.ctx c).exch.adopting →
      (∀ i x b l, a ≤ s.frame + 1 → tm.tensor i = some x → Completes (.momentFetch c m [(i, 1, b, l)] false) s (fun t =>
        Stored ((s.ctx c).slot x.m false + w * b) l s t ∧ t.ctxs = s.ctxs) ∧
        Completes (.momentFetch c m [(i, 2, b, l)] true) s (fun t => Stored ((s.ctx c).slot x.v false + w * b) l s t ∧ marked m t)) ∧
      (a + s.seen F.EXCH_CFG_EXCH_WAIT 0 ≤ s.frame + 1 → Completes (.adoptZero c m) s (fun t => marked m t ∧
        t.get F.CKPT_EVT_ADOPT_ZERO c = 1 ∧ (∃ d, LoggedAt 0x050A 6 c 6 d s t) ∧
        ∀ x ∈ tm.tensors, ∀ r ∈ s.adoptedRows c tm x m, ∀ i < w * x.cols,
          t.byte ((s.ctx c).slot x.m false + w * (r * x.cols) + i) = 0 ∧ t.byte ((s.ctx c).slot x.v false + w * (r * x.cols) + i) = 0))) ∧
    (∀ (o : StepRec) (l : List Xfer), o.head.ctx = c →
      let as := fun (i : Instr) => Completes (.stepRecord o l) s (fun t => exec i s = .next t)
      (o.type = 1 → as (.stepReady o)) ∧ (o.type = 2 → as (.scalar o)) ∧ (o.type = 3 → as (.vote o)) ∧ (o.type = 4 → as (.abandon o)) ∧
      (o.type = 5 → as (.stateRecord o)) ∧ (o.type = 6 → as (.resume o)) ∧ (o.type = 7 → as (.rereduce o l)) ∧ (o.type = 8 → as (.ckpt o)) ∧
      (o.type = 9 → as (.done o)) ∧ (o.type = 10 → as (.restored o)) ∧
      (s.vcOpen o.head.vc = true → o.type = 0 ∨ 10 < o.type → Completes (.stepRecord o l) s (fun t => Advanced F.EXCH_STALE_STALE c 1 s t ∧ t.ctxs = s.ctxs)))

/-! Power, the monitor converter, starts and stops (spec/15_power_and_monitor.md, spec/18_image_and_boot.md). -/

/-- Overdraws raise the reserve and time lowers it; conversions, entries and urgent requests move the monitor on; a frame's excess is deducted
once; a tripped comparator takes dies, stacks and hub down; without its clock the module waits for a management reset. -/
def Obligations.PowerAndMonitor : Prop :=
  ∀ (s : State),
    (∀ mw u, 606000 < mw → Completes (.overdraw mw u) s (fun t => t.pwr.reserve = min 200 (s.pwr.reserve + 10) ∧
      t.pwr.reserveAt = s.now + u ∧ t.get F.PWR_BUDGET_RESERVE 0 = min 200 (s.pwr.reserve + 10) ∧ Advanced F.PWR_BUDGET_OVERDRAWS 0 1 s t ∧
      t.get F.PWR_EVT_OVERDRAW 0 = 1 ∧ ∃ d0 d1, Logged 0x050D 0 0 d0 d1 s t)) ∧
    (∀ u, s.imageReserve < s.pwr.reserve → s.pwr.reserveAt + 10 ^ 10 ≤ s.now + u → Completes (.reserveDecay u) s (fun t =>
      t.pwr.reserve = max s.imageReserve (s.pwr.reserve - 10) ∧ t.pwr.reserveAt = s.pwr.reserveAt + 10 ^ 10)) ∧
    (s.pwr.converting = true → Completes .currentLimitReached s (fun t => t.get F.PWR_EVT_CURRENT 0 = 1)) ∧
    (s.pwr.converting = true → s.get F.MON_CFG_LENGTH 0 ≠ 0 →
      (∀ ch v, ch < 128 → s.urgentNext = some ch → Completes (.monitorConversion v) s (fun t => t.pwr.urgent = s.pwr.urgent.drop 1 ∧
        t.monResult ch = State.signed24 (v % 2 ^ 24).toNat ∧ t.get F.MON_RESULT_AGE ch = 0 ∧ t.pwr.conversions = s.pwr.conversions)) ∧
      (∀ v, s.urgentNext = none → s.pwr.conversions.length < s.monEntry s.monPos / 2 ^ 8 % 2 ^ 8 → Completes (.monitorConversion v) s (fun t =>
        let ch := s.monEntry s.monPos % 2 ^ 7
        t.pwr.conversions = s.pwr.conversions ++ [v] ∧
        (v < State.signed24 (s.monEntry s.monPos / 2 ^ 64) ∨ State.signed24 (s.monEntry s.monPos / 2 ^ 88) < v →
          (t.reg (F.MON_LIMIT_CROSSED.addr (ch / 32))).getLsbD (ch % 32) = true ∧
          (1 ≤ s.monEntry s.monPos / 2 ^ 36 % 2 ^ 4 → ch ∉ s.pwr.announced → ch ∈ t.pwr.announced ∧
            Logged 0x0512 0 0 ch (v % 2 ^ 64).toNat s t))))) ∧
    (∀ u, s.pwr.converting = true → s.pwr.conversions ≠ [] → s.pwr.conversions.length = s.monEntry s.monPos / 2 ^ 8 % 2 ^ 8 →
      s.urgentNext = none → Completes (.monitorEntryComplete u) s (fun t =>
        t.monResult (s.monEntry s.monPos % 2 ^ 7) =
          State.signed24 (divEven (s.pwr.conversions.foldl (· + ·) 0) s.pwr.conversions.length % 2 ^ 24).toNat ∧
        t.pwr.conversions = [] ∧ t.pwr.aborts = 0 ∧
        (s.monPos + 1 < s.get F.MON_CFG_LENGTH 0 → t.monPos = (s.monPos + 1) % F.MON_CFG_POSITION.size) ∧
        (s.get F.MON_CFG_LENGTH 0 ≤ s.monPos + 1 → t.monPos = 0 ∧ t.pwr.cycleDone = true ∧ Advanced F.MON_COUNTS_CYCLES 0 1 s t))) ∧
    (∀ ch, (ch ∈ s.pwr.urgent → Completes (.urgentRequest ch) s (fun t => t = s)) ∧
      (ch ∉ s.pwr.urgent → 4 ≤ s.pwr.urgent.length → Completes (.urgentRequest ch) s (fun t => Advanced F.MON_COUNTS_REFUSED 0 1 s t ∧ t.pwr = s.pwr)) ∧
      (ch ∉ s.pwr.urgent → s.pwr.urgent.length < 4 → Completes (.urgentRequest ch) s (fun t => t.pwr.urgent = s.pwr.urgent ++ [ch] ∧
        (s.pwr.urgent = [] → s.pwr.aborts < 4 → t.pwr.conversions = [] ∧ t.pwr.aborts = s.pwr.aborts + 1 ∧ Advanced F.MON_COUNTS_ABORTS 0 1 s t) ∧
        (s.pwr.urgent = [] → 4 ≤ s.pwr.aborts → t.pwr.waiting = true ∧ t.pwr.conversions = s.pwr.conversions)))) ∧
    (∀ n, let start := s.now - (s.frame - n) * s.periodNs
      let l := (s.pwr.readings.filter (fun e => decide (start ≤ e.1) && decide (e.1 < start + s.periodNs))).map (fun e => e.2)
      n ≤ s.frame → l ≠ [] → n ∉ s.pwr.checked → Completes (.frameEnergyCheck n) s (fun t => n ∈ t.pwr.checked ∧
        t.pwr.deduct = s.pwr.deduct + (30 * (l.foldl (· + ·) 0) * s.periodNs / l.length - s.envelope))) ∧
    (∀ ch (v : Int), s.pwr.converting = true → 10 ≤ ch → ch ≤ 85 → (if ch < 74 then 1840 else 1680) ≤ v → s.pwr.tripped = false →
      Completes (.thermalShutdown ch v) s (fun t => t.pwr.tripped = true ∧ (∀ a, t.byte a = 0) ∧ t.fr.plans = [] ∧
        t.get F.PWR_EVT_SHUTDOWN 0 = 1 ∧ (s.flt.oosDue = none → t.flt.oosDue = some 6))) ∧
    Completes .referenceClockLoss s (fun t => t.pwr.clock = false ∧ t.flt.mgmtDue = true)

/-- The input's stops take all power: what is volatile is lost, cells, batt records, fuses and slots stay, and the stop is in the event log. A
start derives the long-term keys, tries slot A and then slot B, and ends in service or OUT_OF_SERVICE, at once shown to readers; so ends a device reset. -/
def Obligations.StartsAndStops : Prop :=
  ∀ (s : State),
    let stopped := fun (cause : Nat) (t : State) => t.pwr.converting = false ∧
      (∀ p ∈ [Part.vis, .raised, .clears, .mem, .frame, .fr, .ports, .ctxs, .link], State.reset.agree p t) ∧ t.pending = s.pending ∧
      (∀ b, (t.batt b).cells = (s.batt b).cells ∧ (t.batt b).scale = (s.batt b).scale ∧ (t.batt b).colMap = (s.batt b).colMap ∧
        (t.batt b).wear = (s.batt b).ceiling) ∧
      t.sec.fuses = s.sec.fuses ∧ t.img.slotA.words = s.img.slotA.words ∧ t.img.slotB.words = s.img.slotB.words ∧ t.flt.logBuf = [] ∧
      (s.flt.logBuf.length < 4096 → (s.flt.logSeq % 4194304,
        ⟨s.flt.logSeq, 0x0511, s.frame, 0, 0, cause, 0, s.ports.ptpSec, s.ports.ptpNs⟩) ∈ t.flt.log)
    let overs := fun (t : State) => t.vis = t.regs ∧ ((t.phase = 1 ∧ t.get F.FLT_STATE_OOS 0 = 0) ∨ (t.phase = 2 ∧ t.get F.FLT_STATE_OOS 0 = 1))
    let started := fun (z : State) (o : BootArgs) (t : State) => overs t ∧ t.pwr.converting = true ∧ t.sec.idHash = leNum (shake256 t.sec.idPk 32) ∧
      let v := z.wake o
      (∀ k, (v.slot k).words = (s.slot k).words) ∧ v.sec.fuses = s.sec.fuses ∧
      ((v.trySlot 0 o.slotA).1 = 0 → t.get F.DEV_STATE_SLOT 0 = 0 ∧ t.img.accepted = (v.slot 0).read o.slotA.image) ∧
      ((v.trySlot 0 o.slotA).1 ≠ 0 → (v.trySlot 1 o.slotB).1 = 0 → t.get F.DEV_STATE_SLOT 0 = 1 ∧ t.img.accepted = (v.slot 1).read o.slotB.image) ∧
      ((v.trySlot 0 o.slotA).1 ≠ 0 → (v.trySlot 1 o.slotB).1 ≠ 0 → t.phase = 2 ∧ t.get F.FLT_STATE_CAUSE 0 = 9)
    (s.canonical → s.pwr.converting = true → Completes .enableOpen s (fun t => stopped 1 t ∧ t.pwr.enable = false) ∧
      (∀ mv us, mv < 39000 → 50 ≤ us → Completes (.underVoltageStop mv us) s (stopped 2)) ∧
      (∀ mv us, 62000 < mv → 50 ≤ us → Completes (.overVoltageStop mv us) s (stopped 3)) ∧
      (∀ us, 100 ≤ us → Completes (.currentLimitStop us) s (stopped 4))) ∧
    (∀ mv o, (s.pwr.converting = false → 41000 ≤ mv → Completes (.enableClose mv o) s (fun t => started { s with pwr := { s.pwr with enable := true } } o t ∧ t.pwr.enable = true)) ∧
      (s.pwr.converting = true ∨ mv < 41000 → Completes (.enableClose mv o) s (fun t => t = { s with pwr := { s.pwr with enable := true } })) ∧
      (s.pwr.enable = true → s.pwr.converting = false → 41000 ≤ mv → Completes (.startThreshold mv o) s (started s o)) ∧
      (s.pwr.converting = true → s.img.restart = true ∨ s.flt.mgmtDue = true → Completes (.managementReset o) s (started s o))) ∧
    (∀ r o, s.flt.resets.find? (fun r => decide (r.scope = (4, 0, 0))) = some r →
      (s.pwr.tripped = true → ∀ h, Completes (.deviceResetComplete h o) s (fun t => t.pwr.tripped = false ∧ overs t)) ∧
      (s.pwr.tripped = false → Completes (.deviceResetComplete true o) s (fun t => (∀ p, (t.core p).resetting = none) ∧
        t.flt.resets = s.flt.resets.filter (fun x => decide (x.scope ≠ (4, 0, 0))) ∧ t.phase = (if t.get F.FLT_STATE_OOS 0 = 1 then 2 else 1) ∧
        LoggedAt 0x0504 0 0 4 r.frames s t)) ∧
      (s.pwr.tripped = false → Completes (.deviceResetComplete false o) s (fun t => t.flt.mgmtDue = true)))
end

