-- ==== Sys2Proof/Laws/Table.lean ====
section
/-!
SUPPORT. Laws/Table.lean: reading after writing, and that every operation keeps the canonical form of a table.
-/
namespace Sys2Proof.Machine
set_option Elab.async false

variable {α : Type}

@[simp] theorem tget_nil (d : α) (k : Nat) : tget d [] k = d := rfl

/-- A read after a put gives the value put, and every other key reads as before. -/
theorem tget_tput (d : α) (t : Tbl α) (k j : Nat) (v : α) : tget d (tput t k v) j = if j = k then v else tget d t j := by
  induction t with
  | nil => grind [tput, tget]
  | cons e r ih =>
    obtain ⟨i, w⟩ := e
    simp only [tput]
    grind [tget]

/-- A removed key reads as an unlisted one; every other key reads as before. -/
theorem tget_tdel (d : α) (t : Tbl α) (k j : Nat) : tget d (tdel t k) j = if j = k then d else tget d t j := by
  induction t with
  | nil => simp [tdel, tget]
  | cons e r ih =>
    obtain ⟨i, w⟩ := e
    have hc : tdel ((i, w) :: r) k = if i = k then tdel r k else (i, w) :: tdel r k := by
      by_cases h : i = k <;> simp [tdel, h]
    rw [hc]
    by_cases h : i = k
    · grind [tget]
    · grind [tget]

/-- A read after a write gives the value written, and every other key reads as before. -/
theorem tget_tset [DecidableEq α] (d : α) (t : Tbl α) (k j : Nat) (v : α) :
    tget d (tset d t k v) j = if j = k then v else tget d t j := by
  unfold tset
  split
  · rename_i h; rw [tget_tdel, h]
  · exact tget_tput d t k j v

@[simp] theorem tget_tset_same [DecidableEq α] (d : α) (t : Tbl α) (k : Nat) (v : α) : tget d (tset d t k v) k = v := by
  rw [tget_tset, if_pos rfl]

theorem tget_tset_other [DecidableEq α] (d : α) (t : Tbl α) {k j : Nat} (v : α) (h : j ≠ k) :
    tget d (tset d t k v) j = tget d t j := by
  rw [tget_tset, if_neg h]

/-- Clearing a range leaves every key outside it as before. -/
theorem tget_tclear (d : α) (t : Tbl α) (a n j : Nat) :
    tget d (tclear t a n) j = if a ≤ j ∧ j < a + n then d else tget d t j := by
  induction t with
  | nil => simp [tclear, tget]
  | cons e r ih =>
    obtain ⟨i, w⟩ := e
    have hc : tclear ((i, w) :: r) a n = if a ≤ i ∧ i < a + n then tclear r a n else (i, w) :: tclear r a n := by
      unfold tclear
      rw [List.filter_cons]
      by_cases h1 : a ≤ i <;> by_cases h2 : i < a + n <;> simp [h1, h2] <;> omega
    rw [hc]
    by_cases h : a ≤ i ∧ i < a + n
    · grind [tget]
    · grind [tget]

theorem tget_filter (d : α) (p : Nat × α → Bool) {t : Tbl α} {k : Nat} (h : ∀ v, p (k, v) = true) :
    tget d (t.filter p) k = tget d t k := by
  induction t with
  | nil => rfl
  | cons e r ih =>
    obtain ⟨j, v⟩ := e
    rw [List.filter_cons]
    split
    · simp only [tget, ih]
    · rename_i hp
      rw [ih]
      have : j ≠ k := by rintro rfl; exact hp (h v)
      simp only [tget, if_neg this]

theorem tget_foldl_tput (d : α) {l t : Tbl α} {k : Nat} (h : ∀ e ∈ l, e.1 ≠ k) :
    tget d (l.foldl (fun t e => tput t e.1 e.2) t) k = tget d t k := by
  induction l generalizing t with
  | nil => rfl
  | cons e r ih =>
    rw [List.foldl_cons, ih (fun x hx => h x (.tail _ hx)), tget_tput, if_neg]
    exact fun he => h e (.head _) he.symm

variable [DecidableEq α] {d : Nat → α}

theorem tblFrom_mono {t : Tbl α} {lo hi : Nat} (h : lo ≤ hi) (ht : tblFrom d hi t = true) : tblFrom d lo t = true := by
  cases t with
  | nil => rfl
  | cons e r => simp only [tblFrom, Bool.and_eq_true, decide_eq_true_eq] at ht ⊢; exact ⟨⟨by omega, ht.1.2⟩, ht.2⟩

/-- Any selection of a canonical table's entries is canonical. -/
theorem tblFrom_filter (p : Nat × α → Bool) {t : Tbl α} {lo : Nat} (ht : tblFrom d lo t = true) : tblFrom d lo (t.filter p) = true := by
  induction t generalizing lo with
  | nil => rfl
  | cons e r ih =>
    simp only [tblFrom, Bool.and_eq_true, decide_eq_true_eq] at ht
    rw [List.filter_cons]
    split
    · simp only [tblFrom, Bool.and_eq_true, decide_eq_true_eq]; exact ⟨ht.1, ih ht.2⟩
    · exact tblFrom_mono (by omega) (ih ht.2)

theorem tblFrom_tput {t : Tbl α} {lo k : Nat} {v : α} (hlo : lo ≤ k) (hv : v ≠ d k) (ht : tblFrom d lo t = true) :
    tblFrom d lo (tput t k v) = true := by
  induction t generalizing lo with
  | nil => simp [tput, tblFrom, hlo, hv]
  | cons e r ih =>
    obtain ⟨i, w⟩ := e
    simp only [tblFrom, Bool.and_eq_true, decide_eq_true_eq] at ht
    simp only [tput]
    split
    · simp only [tblFrom, Bool.and_eq_true, decide_eq_true_eq]; exact ⟨ht.1, ih (by omega) ht.2⟩
    · split
      · rename_i h; subst h; simp only [tblFrom, Bool.and_eq_true, decide_eq_true_eq]; exact ⟨⟨hlo, hv⟩, ht.2⟩
      · simp only [tblFrom, Bool.and_eq_true, decide_eq_true_eq]; exact ⟨⟨hlo, hv⟩, ⟨by omega, ht.1.2⟩, ht.2⟩

/-- A write keeps the canonical form. -/
theorem tset_wf {t : Tbl α} (k : Nat) (v : α) (ht : tblWf d t = true) : tblWf d (tset (d k) t k v) = true := by
  unfold tset
  split
  · exact tblFrom_filter _ ht
  · rename_i h; exact tblFrom_tput (Nat.zero_le _) h ht

theorem tclear_wf {t : Tbl α} (a n : Nat) (ht : tblWf d t = true) : tblWf d (tclear t a n) = true := tblFrom_filter _ ht

/-- Changing every listed value keeps the canonical form. -/
theorem tmap_wf {t : Tbl α} (c : α) (f : Nat → α → α) (ht : tblWf (fun _ => c) t = true) : tblWf (fun _ => c) (tmap c f t) = true := by
  suffices h : ∀ lo, tblFrom (fun _ => c) lo t = true → tblFrom (fun _ => c) lo (tmap c f t) = true from h 0 ht
  clear ht
  induction t with
  | nil => intro lo _; rfl
  | cons e r ih =>
    intro lo ht
    obtain ⟨i, w⟩ := e
    simp only [tblFrom, Bool.and_eq_true, decide_eq_true_eq] at ht
    have hc : tmap c f ((i, w) :: r) = if f i w = c then tmap c f r else (i, f i w) :: tmap c f r := by
      by_cases h : f i w = c <;> simp [tmap, h]
    rw [hc]
    split
    · exact tblFrom_mono (by omega) (ih _ ht.2)
    · rename_i h
      simp only [tblFrom, Bool.and_eq_true, decide_eq_true_eq]
      exact ⟨⟨ht.1.1, h⟩, ih _ ht.2⟩

/-- Every listed value of a canonical table differs from what an unlisted key reads as. -/
theorem tblFrom_ne {t : Tbl α} {lo : Nat} (ht : tblFrom d lo t = true) : ∀ e ∈ t, e.2 ≠ d e.1 := by
  induction t generalizing lo with
  | nil => intro e h; cases h
  | cons x r ih =>
    simp only [tblFrom, Bool.and_eq_true, decide_eq_true_eq] at ht
    intro e h
    cases h with
    | head => exact ht.1.2
    | tail _ h => exact ih ht.2 e h

/-- Putting values none of which is what an unlisted key reads as keeps the canonical form. -/
theorem foldl_tput_wf {l t : Tbl α} (hl : ∀ e ∈ l, e.2 ≠ d e.1) (ht : tblWf d t = true) :
    tblWf d (l.foldl (fun t e => tput t e.1 e.2) t) = true := by
  induction l generalizing t with
  | nil => exact ht
  | cons e r ih =>
    exact ih (fun e h => hl e (.tail _ h)) (tblFrom_tput (Nat.zero_le _) (hl e (.head _)) ht)

end Sys2Proof.Machine
end

