-- ==== Sys2Proof/Laws/Keeps.lean ====
section
/-!
SUPPORT. Laws/Keeps.lean: what a step does to the parts of the state, as a relation that composes. Keeps m s t: outside the parts whose bits
are set in m, t is as s; canonical tables stay canonical; nothing the module has sent is taken back; free values are drawn in order. One
lemma of this form for every operation says once what it leaves alone.
-/
namespace Sys2Proof.Machine
set_option Elab.async false
set_option linter.unusedTactic false
set_option linter.unreachableTactic false

/-- The bit of a part in the mask of Keeps. -/
def Part.code (p : Part) : Nat :=
  match p with
  | .regsDev => 0 | .regsCfg => 1 | .regsFlt => 2 | .regsPwr => 3 | .regsCal => 4 | .regsSec => 5 | .regsOwn => 6 | .regsEth => 7
  | .regsLnk => 8 | .regsImg => 9 | .regsCore => 10 | .regsSync => 11 | .regsBatt => 12 | .regsCtx => 13 | .regsHsess => 14
  | .regsRoute => 15 | .regsOther => 16 | .vis => 17 | .raised => 18 | .clears => 19 | .mem => 20 | .now => 21 | .frame => 22 | .fr => 23
  | .ports => 24 | .ctxs => 25 | .batts => 26 | .cores => 27 | .link => 28 | .flt => 29 | .pwr => 30 | .cal => 31 | .sec => 32
  | .img => 33 | .sent => 34 | .freeCtr => 35 | .pending => 36

/-- Outside m, t is as s. -/
def SameOff (m : Nat) (s t : State) : Prop := ∀ p : Part, m.testBit p.code = false → s.agree p t

/-- See the head of the file. -/
structure Keeps (m : Nat) (s t : State) : Prop where
  same : SameOff m s t
  canonical : s.canonical → t.canonical
  sent : s.sent <+: t.sent
  draws : s.freeCtr ≤ t.freeCtr

theorem agree_refl (p : Part) (s : State) : s.agree p s := by cases p <;> first | rfl | (intro _; rfl) | (intro _ _; rfl)

theorem agree_trans {p : Part} {s u t : State} (h1 : s.agree p u) (h2 : u.agree p t) : s.agree p t := by
  cases p <;> simp only [State.agree] at h1 h2 ⊢ <;>
    first
    | exact h2.trans h1
    | exact fun a => (h2 a).trans (h1 a)
    | exact fun a h => (h2 a h).trans (h1 a h)

variable {L m : Nat} {s t u v : State} {α : Type}

theorem Keeps.refl (L : Nat) (s : State) : Keeps L s s := ⟨fun p _ => agree_refl p s, id, List.prefix_rfl, Nat.le_refl _⟩

theorem Keeps.trans (h1 : Keeps L s u) (h2 : Keeps L u t) : Keeps L s t :=
  ⟨fun p hp => agree_trans (h1.same p hp) (h2.same p hp), h2.canonical ∘ h1.canonical, h1.sent.trans h2.sent,
   Nat.le_trans h1.draws h2.draws⟩

theorem testBit_of_sub {p : Nat} (h : m &&& L = m) (hp : L.testBit p = false) : m.testBit p = false := by
  rw [← h, Nat.testBit_and, hp, Bool.and_false]

theorem bit_of_sub {p : Nat} (h : m &&& L = m) (hp : m.testBit p = true) : L.testBit p = true := by
  rw [← h, Nat.testBit_and] at hp
  exact (Bool.and_eq_true_iff.mp hp).2

theorem sub_trans {k : Nat} (h1 : k &&& m = k) (h2 : m &&& L = m) : k &&& L = k := by
  rw [← h1, Nat.and_assoc, h2]

/-- Naming more parts says less. -/
theorem Keeps.mono (h : Keeps m s t) (hm : m &&& L = m) : Keeps L s t :=
  ⟨fun p hp => h.same p (testBit_of_sub hm hp), h.canonical, h.sent, h.draws⟩

/-- One operation after what came before it. -/
theorem Keeps.step (h : Keeps L s u) (hg : Keeps m u t) (hm : m &&& L = m) : Keeps L s t := h.trans (hg.mono hm)

/-- Name an intermediate state. -/
theorem Keeps.cut (x : State) (h1 : Keeps L s x) (h2 : Keeps L s x → Keeps L s t) : Keeps L s t := h2 h1

theorem Keeps.ite {c : Prop} [Decidable c] (h1 : Keeps L s t) (h2 : Keeps L s u) : Keeps L s (if c then t else u) := by
  split <;> assumption

/-- Going through a list. -/
theorem Keeps.foldl {f : State → α → State} {l : List α} (h : Keeps L s u) (hf : ∀ v x, Keeps L v (f v x)) :
    Keeps L s (l.foldl f u) := by
  induction l generalizing u with
  | nil => exact h
  | cons a r ih => exact ih (h.trans (hf _ _))

/-- An update of fields: no register, and tables only changed throughout or emptied. -/
theorem Keeps.upd {raised : Tbl Word} {clears : Tbl Word} {now : Nat} {frame : Nat} {fr : FrameSt} {ports : PortSt} {link : LinkSt} {flt : FaultSt} {pwr : PowerSt} {cal : CalSt} {sec : SecSt} {img : ImageSt} {ctxs : Tbl Ctx} {batts : Tbl Batt} {cores : Tbl Core} {mem : List Host.Cell} {sent : List Wire}
    {freeCtr : Nat} (h : Keeps L s u)
    (h_raised : raised = u.raised ∨ L.testBit 18 = true := by first | with_reducible exact .inl rfl | exact .inr (by decide))
    (h_clears : clears = u.clears ∨ L.testBit 19 = true := by first | with_reducible exact .inl rfl | exact .inr (by decide))
    (h_now : now = u.now ∨ L.testBit 21 = true := by first | with_reducible exact .inl rfl | exact .inr (by decide))
    (h_frame : frame = u.frame ∨ L.testBit 22 = true := by first | with_reducible exact .inl rfl | exact .inr (by decide))
    (h_fr : fr = u.fr ∨ L.testBit 23 = true := by first | with_reducible exact .inl rfl | exact .inr (by decide))
    (h_ports : ports = u.ports ∨ L.testBit 24 = true := by first | with_reducible exact .inl rfl | exact .inr (by decide))
    (h_link : link = u.link ∨ L.testBit 28 = true := by first | with_reducible exact .inl rfl | exact .inr (by decide))
    (h_flt : flt = u.flt ∨ L.testBit 29 = true := by first | with_reducible exact .inl rfl | exact .inr (by decide))
    (h_pwr : pwr = u.pwr ∨ L.testBit 30 = true := by first | with_reducible exact .inl rfl | exact .inr (by decide))
    (h_cal : cal = u.cal ∨ L.testBit 31 = true := by first | with_reducible exact .inl rfl | exact .inr (by decide))
    (h_sec : sec = u.sec ∨ L.testBit 32 = true := by first | with_reducible exact .inl rfl | exact .inr (by decide))
    (h_img : img = u.img ∨ L.testBit 33 = true := by first | with_reducible exact .inl rfl | exact .inr (by decide))
    (h_ctxs : ctxs = u.ctxs ∨ L.testBit 25 = true ∧ (tblWf (fun _ => Ctx.empty) u.ctxs = true → tblWf (fun _ => Ctx.empty) ctxs = true) := by
      first | with_reducible exact .inl rfl | exact .inr ⟨by decide, tmap_wf _ _⟩ | exact .inr ⟨by decide, fun _ => rfl⟩)
    (h_batts : batts = u.batts ∨ L.testBit 26 = true ∧ (tblWf (fun _ => Batt.empty) u.batts = true → tblWf (fun _ => Batt.empty) batts = true) := by
      first | with_reducible exact .inl rfl | exact .inr ⟨by decide, tmap_wf _ _⟩ | exact .inr ⟨by decide, fun _ => rfl⟩)
    (h_cores : cores = u.cores ∨ L.testBit 27 = true ∧ (tblWf (fun _ => Core.empty) u.cores = true → tblWf (fun _ => Core.empty) cores = true) := by
      first | with_reducible exact .inl rfl | exact .inr ⟨by decide, tmap_wf _ _⟩ | exact .inr ⟨by decide, fun _ => rfl⟩)
    (h_mem : mem = u.mem ∨ L.testBit 20 = true ∧ (tblWf (fun _ => (0 : Byte)) u.mem = true → tblWf (fun _ => (0 : Byte)) mem = true) := by
      first | with_reducible exact .inl rfl | exact .inr ⟨by decide, tmap_wf _ _⟩ | exact .inr ⟨by decide, fun _ => rfl⟩)
    (h_sent : sent = u.sent ∨ L.testBit 34 = true ∧ u.sent <+: sent := by
      first | with_reducible exact .inl rfl | exact .inr ⟨by decide, List.prefix_append _ _⟩)
    (h_freeCtr : freeCtr = u.freeCtr ∨ L.testBit 35 = true ∧ u.freeCtr ≤ freeCtr := by
      first | with_reducible exact .inl rfl | exact .inr ⟨by decide, Nat.le_add_right _ _⟩) :
    Keeps L s (State.mk u.regs u.vis raised clears mem now frame fr ports ctxs batts cores link flt pwr cal sec img sent freeCtr u.pending) := by
  refine h.trans ⟨fun p hp => ?_, fun hc => ⟨?_, hc.2.1, hc.2.2.1, ?_, ?_, ?_⟩, ?_, ?_⟩
  · cases p <;> simp only [Part.code] at hp <;> simp only [hp, Bool.false_eq_true, false_and, or_false] at * <;>
      simp only [State.agree] <;>
      first
      | exact fun _ _ => rfl
      | assumption
      | exact fun a => by simp only [State.byte, h_mem]
  · exact h_mem.elim (fun e => e ▸ hc.1) (fun e => e.2 hc.1)
  · exact h_ctxs.elim (fun e => e ▸ hc.2.2.2.1) (fun e => e.2 hc.2.2.2.1)
  · exact h_batts.elim (fun e => e ▸ hc.2.2.2.2.1) (fun e => e.2 hc.2.2.2.2.1)
  · exact h_cores.elim (fun e => e ▸ hc.2.2.2.2.2) (fun e => e.2 hc.2.2.2.2.2)
  · exact h_sent.elim (fun e => e ▸ List.prefix_rfl) And.right
  · exact h_freeCtr.elim (fun e => Nat.le_of_eq e.symm) And.right

/-- A command keeps a relation when every next state it answers does. -/
def KeepsO (L : Nat) (s : State) (o : Outcome) : Prop := ∀ t, o = .next t → Keeps L s t

theorem KeepsO.next (h : Keeps L s t) : KeepsO L s (.next t) := by rintro _ ⟨⟩; exact h

theorem KeepsO.fault (f : Fault) : KeepsO L s (.fault f) := by rintro _ ⟨⟩

theorem KeepsO.refused (f : Refusal) : KeepsO L s (.refused f) := by rintro _ ⟨⟩

theorem KeepsO.ite {c : Prop} [Decidable c] {o o' : Outcome} (h1 : KeepsO L s o) (h2 : KeepsO L s o') :
    KeepsO L s (if c then o else o') := by split <;> assumption

theorem KeepsO.cut {o : Outcome} (x : State) (h1 : Keeps L s x) (h2 : Keeps L s x → KeepsO L s o) : KeepsO L s o := h2 h1

theorem KeepsO.mono {o : Outcome} (h : KeepsO m s o) (hm : m &&& L = m) : KeepsO L s o := fun t ht => (h t ht).mono hm

/-- A command that goes on from an intermediate state. -/
theorem KeepsO.step {o : Outcome} (h : Keeps L s u) (hg : KeepsO m u o) (hm : m &&& L = m) : KeepsO L s o :=
  fun t ht => h.step (hg t ht) hm

/-- The mask of a list of parts. -/
def maskList (l : List Part) : Nat := l.foldl (fun m p => m ||| 2 ^ p.code) 0

theorem code_inj {p q : Part} (h : p.code = q.code) : p = q := by
  revert h
  cases p <;> cases q <;> decide

theorem testBit_maskList {l : List Part} {p : Part} (h : p ∉ l) : (maskList l).testBit p.code = false := by
  have hc : ∀ (l : List Part) (m : Nat), m.testBit p.code = false → p ∉ l →
      (l.foldl (fun m p => m ||| 2 ^ p.code) m).testBit p.code = false := by
    intro l
    induction l with
    | nil => exact fun m hm _ => hm
    | cons q r ih =>
      intro m hm hp
      refine ih _ ?_ (fun h => hp (.tail _ h))
      have hq : q.code ≠ p.code := fun h => hp (code_inj h ▸ .head _)
      rw [Nat.testBit_or, hm, Nat.testBit_two_pow, Bool.false_or]
      exact decide_eq_false hq
  exact hc l 0 (Nat.zero_testBit _) h

/-- The parts outside a list stay as they were. -/
theorem KeepsO.sameBut {o : Outcome} {l : List Part} (h : KeepsO m s o) (hm : m &&& maskList l = m) (ht : o = .next t) :
    SameBut l s t := fun p hp => ((h t ht).mono hm).same p (testBit_maskList hp)

/-! Registers. -/

/-- The bank of a field lies in one block of the map. -/
def Fld.inBlock (f : Fld) : Bool := blockNo f.base = blockNo (f.base + f.stride * (f.count - 1))

theorem blockNo_mono {a b : Nat} (h : a ≤ b) : blockNo a ≤ blockNo b :=
  List.countP_mono_left (fun x _ hx => by simp only [decide_eq_true_eq] at hx ⊢; omega)

theorem blockOf_addr {f : Fld} (h : f.inBlock = true) {i : Nat} (hi : i < f.count) : blockOf (f.addr i) = blockOf f.base := by
  simp only [Fld.inBlock, decide_eq_true_eq] at h
  have h1 : blockNo f.base ≤ blockNo (f.addr i) := blockNo_mono (Nat.le_add_right _ _)
  have h2 : blockNo (f.addr i) ≤ blockNo (f.base + f.stride * (f.count - 1)) :=
    blockNo_mono (Nat.add_le_add_left (Nat.mul_le_mul_left _ (by omega)) _)
  unfold blockOf
  rw [show blockNo (f.addr i) = blockNo f.base by omega]

/-- Every block is a part of the registers. -/
theorem blockOf_code_lt (a : Nat) : (blockOf a).code < 17 := by
  unfold blockOf
  generalize blockNo a = n
  by_cases h : n < 18
  · revert n
    decide
  · simp [List.getD, List.getElem?_eq_none (show blocks.length ≤ n by simpa [blocks] using h), Part.code]

theorem testBit_blocks {a : Nat} (h : 0x1FFFF &&& L = 0x1FFFF) : L.testBit (blockOf a).code = true := by
  refine bit_of_sub h ?_
  have := blockOf_code_lt a
  generalize (blockOf a).code = n at this
  revert n
  decide

theorem reg_setReg (s : State) (a b : Nat) (w : Word) : (s.setReg a w).reg b = if b = a then w else s.reg b := by
  simp only [State.reg, State.setReg]
  by_cases h : b = a
  · subst h; rw [if_pos rfl, tget_tset_same]
  · rw [if_neg h]
    have hg : ∀ (d : Word) (t : Tbl Word), tget (resetWord b) (tset d t a w) b = tget (resetWord b) t b := by
      intro d t
      unfold tset
      split
      · rw [tget_tdel, if_neg h]
      · rw [tget_tput, if_neg h]
    exact hg _ _

/-- Writing a register word changes its block. -/
theorem Keeps.setReg (h : Keeps L s u) {a : Nat} {w : Word} (ha : L.testBit (blockOf a).code = true) : Keeps L s (u.setReg a w) := by
  refine h.trans ⟨fun p hp => ?_, fun hc => ?_, List.prefix_rfl, Nat.le_refl _⟩
  · have hr : ∀ b, blockOf b = p → (u.setReg a w).reg b = u.reg b := fun b hb => by
      rw [reg_setReg, if_neg]
      rintro rfl
      rw [hb, hp] at ha
      cases ha
    cases p <;> first | exact hr | rfl | (intro _; rfl)
  · exact ⟨hc.1, tset_wf a w hc.2.1, hc.2.2⟩

/-- Writing a field changes its block. -/
theorem Keeps.put (h : Keeps L s u) {f : Fld} {i x : Nat} (hf : f.inBlock = true) (ha : L.testBit (blockOf f.base).code = true) :
    Keeps L s (u.put f i x) := by
  unfold State.put
  split
  · rename_i hi
    exact h.setReg (by rw [blockOf_addr hf hi]; exact ha)
  · exact h

/-- Setting each field of a list. -/
theorem Keeps.putList {i : Nat} (h : Keeps L s u) (l : List (Fld × Nat))
    (hl : (l.all fun e => e.1.inBlock && L.testBit (blockOf e.1.base).code) = true) :
    Keeps L s (l.foldl (fun s e => s.put e.1 i e.2) u) := by
  induction l generalizing u with
  | nil => exact h
  | cons e r ih =>
    rw [List.all_cons, Bool.and_eq_true, Bool.and_eq_true] at hl
    exact ih (h.put hl.1.1 hl.1.2) hl.2

theorem Keeps.putWord (h : Keeps L s u) {f : Fld} {i : Nat} {w : Word} (hf : f.inBlock = true)
    (ha : L.testBit (blockOf f.base).code = true) : Keeps L s (u.putWord f i w) := by
  unfold State.putWord
  split
  · rename_i hi
    exact h.setReg (by rw [blockOf_addr hf hi]; exact ha)
  · exact h

theorem Keeps.bump (h : Keeps L s u) {f : Fld} {i x : Nat} (hf : f.inBlock = true) (ha : L.testBit (blockOf f.base).code = true) :
    Keeps L s (u.bump f i x) := h.put hf ha

theorem Keeps.bumpSat (h : Keeps L s u) {f : Fld} {i x : Nat} (hf : f.inBlock = true) (ha : L.testBit (blockOf f.base).code = true) :
    Keeps L s (u.bumpSat f i x) := h.put hf ha

theorem Keeps.raise (h : Keeps L s u) {f : Fld} {i : Nat} (hf : f.inBlock = true) (ha : L.testBit (blockOf f.base).code = true)
    (hr : L.testBit 18 = true) : Keeps L s (u.raise f i) := by
  unfold State.raise
  split
  · exact Keeps.upd (h.put hf ha) (h_raised := .inr hr)
  · exact h

/-! Tables, memory, messages and draws. -/

theorem Keeps.setCtx (h : Keeps L s u) {c : Nat} {x : Ctx} (ha : L.testBit 25 = true) : Keeps L s (u.setCtx c x) := by
  refine h.trans ⟨fun p hp => ?_, fun hc => ?_, List.prefix_rfl, Nat.le_refl _⟩
  · cases p <;> first | rfl | (intro _; rfl) | (intro _ _; rfl) | (rw [show Part.ctxs.code = 25 from rfl, ha] at hp; cases hp)
  · exact ⟨hc.1, hc.2.1, hc.2.2.1, tset_wf c x hc.2.2.2.1, hc.2.2.2.2⟩

theorem Keeps.setBatt (h : Keeps L s u) {c : Nat} {x : Batt} (ha : L.testBit 26 = true) : Keeps L s (u.setBatt c x) := by
  refine h.trans ⟨fun p hp => ?_, fun hc => ?_, List.prefix_rfl, Nat.le_refl _⟩
  · cases p <;> first | rfl | (intro _; rfl) | (intro _ _; rfl) | (rw [show Part.batts.code = 26 from rfl, ha] at hp; cases hp)
  · exact ⟨hc.1, hc.2.1, hc.2.2.1, hc.2.2.2.1, tset_wf c x hc.2.2.2.2.1, hc.2.2.2.2.2⟩

theorem Keeps.setCore (h : Keeps L s u) {c : Nat} {x : Core} (ha : L.testBit 27 = true) : Keeps L s (u.setCore c x) := by
  refine h.trans ⟨fun p hp => ?_, fun hc => ?_, List.prefix_rfl, Nat.le_refl _⟩
  · cases p <;> first | rfl | (intro _; rfl) | (intro _ _; rfl) | (rw [show Part.cores.code = 27 from rfl, ha] at hp; cases hp)
  · exact ⟨hc.1, hc.2.1, hc.2.2.1, hc.2.2.2.1, hc.2.2.2.2.1, tset_wf c x hc.2.2.2.2.2⟩

theorem Keeps.setByte (h : Keeps L s u) {a : Nat} {b : Byte} (ha : L.testBit 20 = true) : Keeps L s (u.setByte a b) := by
  refine h.trans ⟨fun p hp => ?_, fun hc => ?_, List.prefix_rfl, Nat.le_refl _⟩
  · cases p <;> first | rfl | (intro _ _; rfl) | (rw [show Part.mem.code = 20 from rfl, ha] at hp; cases hp)
  · exact ⟨tset_wf (d := fun _ => 0) a b hc.1, hc.2⟩

theorem Keeps.zeroBytes (h : Keeps L s u) {a n : Nat} (ha : L.testBit 20 = true) : Keeps L s (u.zeroBytes a n) := by
  refine h.trans ⟨fun p hp => ?_, fun hc => ?_, List.prefix_rfl, Nat.le_refl _⟩
  · cases p <;> first | rfl | (intro _ _; rfl) | (rw [show Part.mem.code = 20 from rfl, ha] at hp; cases hp)
  · exact ⟨tclear_wf a n hc.1, hc.2⟩

theorem Keeps.setBytes (h : Keeps L s u) {a : Nat} {l : List Byte} (ha : L.testBit 20 = true) : Keeps L s (u.setBytes a l) := by
  induction l generalizing u a with
  | nil => exact h
  | cons b r ih => exact ih (h.setByte ha)

theorem Keeps.store (h : Keeps L s u) {a n x : Nat} (ha : L.testBit 20 = true) : Keeps L s (u.store a n x) := h.setBytes ha

theorem Keeps.setWord (h : Keeps L s u) {a : Nat} {w : Word} (ha : L.testBit 20 = true) : Keeps L s (u.setWord a w) := h.store ha

theorem Keeps.setWords (h : Keeps L s u) {a : Nat} {l : List Word} (ha : L.testBit 20 = true) : Keeps L s (u.setWords a l) := by
  induction l generalizing u a with
  | nil => exact h
  | cons b r ih => exact ih (h.setWord ha)

/-- The registers committed: readers see them. -/
theorem Keeps.commit (h : Keeps L s u) (ha : L.testBit 17 = true) : Keeps L s { u with vis := u.regs } := by
  refine h.trans ⟨fun p hp => ?_, fun hc => ⟨hc.1, hc.2.1, hc.2.1, hc.2.2.2⟩, List.prefix_rfl, Nat.le_refl _⟩
  cases p <;> first | rfl | (intro _; rfl) | (intro _ _; rfl) | (rw [show Part.vis.code = 17 from rfl, ha] at hp; cases hp)

theorem Keeps.drawn (h : Keeps L s u) (ha : L.testBit 35 = true) : Keeps L s u.drawn :=
  Keeps.upd h (h_freeCtr := .inr ⟨ha, Nat.le_succ _⟩)

end Sys2Proof.Machine
end

