-- ==== Sys2Proof/Laws/State.lean ====
section
/-!
SUPPORT. Laws/State.lean: what each update of the state leaves of every field, one lemma per field and update.
-/
namespace Sys2Proof.Machine

variable (s : State)

@[simp] theorem State.setReg_vis (a : Nat) (w : Word) : (s.setReg a w).vis = s.vis := rfl
@[simp] theorem State.setReg_raised (a : Nat) (w : Word) : (s.setReg a w).raised = s.raised := rfl
@[simp] theorem State.setReg_clears (a : Nat) (w : Word) : (s.setReg a w).clears = s.clears := rfl
@[simp] theorem State.setReg_mem (a : Nat) (w : Word) : (s.setReg a w).mem = s.mem := rfl
@[simp] theorem State.setReg_now (a : Nat) (w : Word) : (s.setReg a w).now = s.now := rfl
@[simp] theorem State.setReg_frame (a : Nat) (w : Word) : (s.setReg a w).frame = s.frame := rfl
@[simp] theorem State.setReg_fr (a : Nat) (w : Word) : (s.setReg a w).fr = s.fr := rfl
@[simp] theorem State.setReg_ports (a : Nat) (w : Word) : (s.setReg a w).ports = s.ports := rfl
@[simp] theorem State.setReg_ctxs (a : Nat) (w : Word) : (s.setReg a w).ctxs = s.ctxs := rfl
@[simp] theorem State.setReg_batts (a : Nat) (w : Word) : (s.setReg a w).batts = s.batts := rfl
@[simp] theorem State.setReg_cores (a : Nat) (w : Word) : (s.setReg a w).cores = s.cores := rfl
@[simp] theorem State.setReg_link (a : Nat) (w : Word) : (s.setReg a w).link = s.link := rfl
@[simp] theorem State.setReg_flt (a : Nat) (w : Word) : (s.setReg a w).flt = s.flt := rfl
@[simp] theorem State.setReg_pwr (a : Nat) (w : Word) : (s.setReg a w).pwr = s.pwr := rfl
@[simp] theorem State.setReg_cal (a : Nat) (w : Word) : (s.setReg a w).cal = s.cal := rfl
@[simp] theorem State.setReg_sec (a : Nat) (w : Word) : (s.setReg a w).sec = s.sec := rfl
@[simp] theorem State.setReg_img (a : Nat) (w : Word) : (s.setReg a w).img = s.img := rfl
@[simp] theorem State.setReg_sent (a : Nat) (w : Word) : (s.setReg a w).sent = s.sent := rfl
@[simp] theorem State.setReg_freeCtr (a : Nat) (w : Word) : (s.setReg a w).freeCtr = s.freeCtr := rfl
@[simp] theorem State.setReg_pending (a : Nat) (w : Word) : (s.setReg a w).pending = s.pending := rfl

@[simp] theorem State.setCtx_regs (c : Nat) (x : Ctx) : (s.setCtx c x).regs = s.regs := rfl
@[simp] theorem State.setCtx_vis (c : Nat) (x : Ctx) : (s.setCtx c x).vis = s.vis := rfl
@[simp] theorem State.setCtx_raised (c : Nat) (x : Ctx) : (s.setCtx c x).raised = s.raised := rfl
@[simp] theorem State.setCtx_clears (c : Nat) (x : Ctx) : (s.setCtx c x).clears = s.clears := rfl
@[simp] theorem State.setCtx_mem (c : Nat) (x : Ctx) : (s.setCtx c x).mem = s.mem := rfl
@[simp] theorem State.setCtx_now (c : Nat) (x : Ctx) : (s.setCtx c x).now = s.now := rfl
@[simp] theorem State.setCtx_frame (c : Nat) (x : Ctx) : (s.setCtx c x).frame = s.frame := rfl
@[simp] theorem State.setCtx_fr (c : Nat) (x : Ctx) : (s.setCtx c x).fr = s.fr := rfl
@[simp] theorem State.setCtx_ports (c : Nat) (x : Ctx) : (s.setCtx c x).ports = s.ports := rfl
@[simp] theorem State.setCtx_batts (c : Nat) (x : Ctx) : (s.setCtx c x).batts = s.batts := rfl
@[simp] theorem State.setCtx_cores (c : Nat) (x : Ctx) : (s.setCtx c x).cores = s.cores := rfl
@[simp] theorem State.setCtx_link (c : Nat) (x : Ctx) : (s.setCtx c x).link = s.link := rfl
@[simp] theorem State.setCtx_flt (c : Nat) (x : Ctx) : (s.setCtx c x).flt = s.flt := rfl
@[simp] theorem State.setCtx_pwr (c : Nat) (x : Ctx) : (s.setCtx c x).pwr = s.pwr := rfl
@[simp] theorem State.setCtx_cal (c : Nat) (x : Ctx) : (s.setCtx c x).cal = s.cal := rfl
@[simp] theorem State.setCtx_sec (c : Nat) (x : Ctx) : (s.setCtx c x).sec = s.sec := rfl
@[simp] theorem State.setCtx_img (c : Nat) (x : Ctx) : (s.setCtx c x).img = s.img := rfl
@[simp] theorem State.setCtx_sent (c : Nat) (x : Ctx) : (s.setCtx c x).sent = s.sent := rfl
@[simp] theorem State.setCtx_freeCtr (c : Nat) (x : Ctx) : (s.setCtx c x).freeCtr = s.freeCtr := rfl
@[simp] theorem State.setCtx_pending (c : Nat) (x : Ctx) : (s.setCtx c x).pending = s.pending := rfl

@[simp] theorem State.updCtx_regs (c : Nat) (f : Ctx → Ctx) : (s.updCtx c f).regs = s.regs := rfl
@[simp] theorem State.updCtx_vis (c : Nat) (f : Ctx → Ctx) : (s.updCtx c f).vis = s.vis := rfl
@[simp] theorem State.updCtx_raised (c : Nat) (f : Ctx → Ctx) : (s.updCtx c f).raised = s.raised := rfl
@[simp] theorem State.updCtx_clears (c : Nat) (f : Ctx → Ctx) : (s.updCtx c f).clears = s.clears := rfl
@[simp] theorem State.updCtx_mem (c : Nat) (f : Ctx → Ctx) : (s.updCtx c f).mem = s.mem := rfl
@[simp] theorem State.updCtx_now (c : Nat) (f : Ctx → Ctx) : (s.updCtx c f).now = s.now := rfl
@[simp] theorem State.updCtx_frame (c : Nat) (f : Ctx → Ctx) : (s.updCtx c f).frame = s.frame := rfl
@[simp] theorem State.updCtx_fr (c : Nat) (f : Ctx → Ctx) : (s.updCtx c f).fr = s.fr := rfl
@[simp] theorem State.updCtx_ports (c : Nat) (f : Ctx → Ctx) : (s.updCtx c f).ports = s.ports := rfl
@[simp] theorem State.updCtx_batts (c : Nat) (f : Ctx → Ctx) : (s.updCtx c f).batts = s.batts := rfl
@[simp] theorem State.updCtx_cores (c : Nat) (f : Ctx → Ctx) : (s.updCtx c f).cores = s.cores := rfl
@[simp] theorem State.updCtx_link (c : Nat) (f : Ctx → Ctx) : (s.updCtx c f).link = s.link := rfl
@[simp] theorem State.updCtx_flt (c : Nat) (f : Ctx → Ctx) : (s.updCtx c f).flt = s.flt := rfl
@[simp] theorem State.updCtx_pwr (c : Nat) (f : Ctx → Ctx) : (s.updCtx c f).pwr = s.pwr := rfl
@[simp] theorem State.updCtx_cal (c : Nat) (f : Ctx → Ctx) : (s.updCtx c f).cal = s.cal := rfl
@[simp] theorem State.updCtx_sec (c : Nat) (f : Ctx → Ctx) : (s.updCtx c f).sec = s.sec := rfl
@[simp] theorem State.updCtx_img (c : Nat) (f : Ctx → Ctx) : (s.updCtx c f).img = s.img := rfl
@[simp] theorem State.updCtx_sent (c : Nat) (f : Ctx → Ctx) : (s.updCtx c f).sent = s.sent := rfl
@[simp] theorem State.updCtx_freeCtr (c : Nat) (f : Ctx → Ctx) : (s.updCtx c f).freeCtr = s.freeCtr := rfl
@[simp] theorem State.updCtx_pending (c : Nat) (f : Ctx → Ctx) : (s.updCtx c f).pending = s.pending := rfl

@[simp] theorem State.setBatt_regs (b : Nat) (x : Batt) : (s.setBatt b x).regs = s.regs := rfl
@[simp] theorem State.setBatt_vis (b : Nat) (x : Batt) : (s.setBatt b x).vis = s.vis := rfl
@[simp] theorem State.setBatt_raised (b : Nat) (x : Batt) : (s.setBatt b x).raised = s.raised := rfl
@[simp] theorem State.setBatt_clears (b : Nat) (x : Batt) : (s.setBatt b x).clears = s.clears := rfl
@[simp] theorem State.setBatt_mem (b : Nat) (x : Batt) : (s.setBatt b x).mem = s.mem := rfl
@[simp] theorem State.setBatt_now (b : Nat) (x : Batt) : (s.setBatt b x).now = s.now := rfl
@[simp] theorem State.setBatt_frame (b : Nat) (x : Batt) : (s.setBatt b x).frame = s.frame := rfl
@[simp] theorem State.setBatt_fr (b : Nat) (x : Batt) : (s.setBatt b x).fr = s.fr := rfl
@[simp] theorem State.setBatt_ports (b : Nat) (x : Batt) : (s.setBatt b x).ports = s.ports := rfl
@[simp] theorem State.setBatt_ctxs (b : Nat) (x : Batt) : (s.setBatt b x).ctxs = s.ctxs := rfl
@[simp] theorem State.setBatt_cores (b : Nat) (x : Batt) : (s.setBatt b x).cores = s.cores := rfl
@[simp] theorem State.setBatt_link (b : Nat) (x : Batt) : (s.setBatt b x).link = s.link := rfl
@[simp] theorem State.setBatt_flt (b : Nat) (x : Batt) : (s.setBatt b x).flt = s.flt := rfl
@[simp] theorem State.setBatt_pwr (b : Nat) (x : Batt) : (s.setBatt b x).pwr = s.pwr := rfl
@[simp] theorem State.setBatt_cal (b : Nat) (x : Batt) : (s.setBatt b x).cal = s.cal := rfl
@[simp] theorem State.setBatt_sec (b : Nat) (x : Batt) : (s.setBatt b x).sec = s.sec := rfl
@[simp] theorem State.setBatt_img (b : Nat) (x : Batt) : (s.setBatt b x).img = s.img := rfl
@[simp] theorem State.setBatt_sent (b : Nat) (x : Batt) : (s.setBatt b x).sent = s.sent := rfl
@[simp] theorem State.setBatt_freeCtr (b : Nat) (x : Batt) : (s.setBatt b x).freeCtr = s.freeCtr := rfl
@[simp] theorem State.setBatt_pending (b : Nat) (x : Batt) : (s.setBatt b x).pending = s.pending := rfl

@[simp] theorem State.updBatt_regs (b : Nat) (f : Batt → Batt) : (s.updBatt b f).regs = s.regs := rfl
@[simp] theorem State.updBatt_vis (b : Nat) (f : Batt → Batt) : (s.updBatt b f).vis = s.vis := rfl
@[simp] theorem State.updBatt_raised (b : Nat) (f : Batt → Batt) : (s.updBatt b f).raised = s.raised := rfl
@[simp] theorem State.updBatt_clears (b : Nat) (f : Batt → Batt) : (s.updBatt b f).clears = s.clears := rfl
@[simp] theorem State.updBatt_mem (b : Nat) (f : Batt → Batt) : (s.updBatt b f).mem = s.mem := rfl
@[simp] theorem State.updBatt_now (b : Nat) (f : Batt → Batt) : (s.updBatt b f).now = s.now := rfl
@[simp] theorem State.updBatt_frame (b : Nat) (f : Batt → Batt) : (s.updBatt b f).frame = s.frame := rfl
@[simp] theorem State.updBatt_fr (b : Nat) (f : Batt → Batt) : (s.updBatt b f).fr = s.fr := rfl
@[simp] theorem State.updBatt_ports (b : Nat) (f : Batt → Batt) : (s.updBatt b f).ports = s.ports := rfl
@[simp] theorem State.updBatt_ctxs (b : Nat) (f : Batt → Batt) : (s.updBatt b f).ctxs = s.ctxs := rfl
@[simp] theorem State.updBatt_cores (b : Nat) (f : Batt → Batt) : (s.updBatt b f).cores = s.cores := rfl
@[simp] theorem State.updBatt_link (b : Nat) (f : Batt → Batt) : (s.updBatt b f).link = s.link := rfl
@[simp] theorem State.updBatt_flt (b : Nat) (f : Batt → Batt) : (s.updBatt b f).flt = s.flt := rfl
@[simp] theorem State.updBatt_pwr (b : Nat) (f : Batt → Batt) : (s.updBatt b f).pwr = s.pwr := rfl
@[simp] theorem State.updBatt_cal (b : Nat) (f : Batt → Batt) : (s.updBatt b f).cal = s.cal := rfl
@[simp] theorem State.updBatt_sec (b : Nat) (f : Batt → Batt) : (s.updBatt b f).sec = s.sec := rfl
@[simp] theorem State.updBatt_img (b : Nat) (f : Batt → Batt) : (s.updBatt b f).img = s.img := rfl
@[simp] theorem State.updBatt_sent (b : Nat) (f : Batt → Batt) : (s.updBatt b f).sent = s.sent := rfl
@[simp] theorem State.updBatt_freeCtr (b : Nat) (f : Batt → Batt) : (s.updBatt b f).freeCtr = s.freeCtr := rfl
@[simp] theorem State.updBatt_pending (b : Nat) (f : Batt → Batt) : (s.updBatt b f).pending = s.pending := rfl

@[simp] theorem State.setCore_regs (p : Nat) (x : Core) : (s.setCore p x).regs = s.regs := rfl
@[simp] theorem State.setCore_vis (p : Nat) (x : Core) : (s.setCore p x).vis = s.vis := rfl
@[simp] theorem State.setCore_raised (p : Nat) (x : Core) : (s.setCore p x).raised = s.raised := rfl
@[simp] theorem State.setCore_clears (p : Nat) (x : Core) : (s.setCore p x).clears = s.clears := rfl
@[simp] theorem State.setCore_mem (p : Nat) (x : Core) : (s.setCore p x).mem = s.mem := rfl
@[simp] theorem State.setCore_now (p : Nat) (x : Core) : (s.setCore p x).now = s.now := rfl
@[simp] theorem State.setCore_frame (p : Nat) (x : Core) : (s.setCore p x).frame = s.frame := rfl
@[simp] theorem State.setCore_fr (p : Nat) (x : Core) : (s.setCore p x).fr = s.fr := rfl
@[simp] theorem State.setCore_ports (p : Nat) (x : Core) : (s.setCore p x).ports = s.ports := rfl
@[simp] theorem State.setCore_ctxs (p : Nat) (x : Core) : (s.setCore p x).ctxs = s.ctxs := rfl
@[simp] theorem State.setCore_batts (p : Nat) (x : Core) : (s.setCore p x).batts = s.batts := rfl
@[simp] theorem State.setCore_link (p : Nat) (x : Core) : (s.setCore p x).link = s.link := rfl
@[simp] theorem State.setCore_flt (p : Nat) (x : Core) : (s.setCore p x).flt = s.flt := rfl
@[simp] theorem State.setCore_pwr (p : Nat) (x : Core) : (s.setCore p x).pwr = s.pwr := rfl
@[simp] theorem State.setCore_cal (p : Nat) (x : Core) : (s.setCore p x).cal = s.cal := rfl
@[simp] theorem State.setCore_sec (p : Nat) (x : Core) : (s.setCore p x).sec = s.sec := rfl
@[simp] theorem State.setCore_img (p : Nat) (x : Core) : (s.setCore p x).img = s.img := rfl
@[simp] theorem State.setCore_sent (p : Nat) (x : Core) : (s.setCore p x).sent = s.sent := rfl
@[simp] theorem State.setCore_freeCtr (p : Nat) (x : Core) : (s.setCore p x).freeCtr = s.freeCtr := rfl
@[simp] theorem State.setCore_pending (p : Nat) (x : Core) : (s.setCore p x).pending = s.pending := rfl

@[simp] theorem State.updCore_regs (p : Nat) (f : Core → Core) : (s.updCore p f).regs = s.regs := rfl
@[simp] theorem State.updCore_vis (p : Nat) (f : Core → Core) : (s.updCore p f).vis = s.vis := rfl
@[simp] theorem State.updCore_raised (p : Nat) (f : Core → Core) : (s.updCore p f).raised = s.raised := rfl
@[simp] theorem State.updCore_clears (p : Nat) (f : Core → Core) : (s.updCore p f).clears = s.clears := rfl
@[simp] theorem State.updCore_mem (p : Nat) (f : Core → Core) : (s.updCore p f).mem = s.mem := rfl
@[simp] theorem State.updCore_now (p : Nat) (f : Core → Core) : (s.updCore p f).now = s.now := rfl
@[simp] theorem State.updCore_frame (p : Nat) (f : Core → Core) : (s.updCore p f).frame = s.frame := rfl
@[simp] theorem State.updCore_fr (p : Nat) (f : Core → Core) : (s.updCore p f).fr = s.fr := rfl
@[simp] theorem State.updCore_ports (p : Nat) (f : Core → Core) : (s.updCore p f).ports = s.ports := rfl
@[simp] theorem State.updCore_ctxs (p : Nat) (f : Core → Core) : (s.updCore p f).ctxs = s.ctxs := rfl
@[simp] theorem State.updCore_batts (p : Nat) (f : Core → Core) : (s.updCore p f).batts = s.batts := rfl
@[simp] theorem State.updCore_link (p : Nat) (f : Core → Core) : (s.updCore p f).link = s.link := rfl
@[simp] theorem State.updCore_flt (p : Nat) (f : Core → Core) : (s.updCore p f).flt = s.flt := rfl
@[simp] theorem State.updCore_pwr (p : Nat) (f : Core → Core) : (s.updCore p f).pwr = s.pwr := rfl
@[simp] theorem State.updCore_cal (p : Nat) (f : Core → Core) : (s.updCore p f).cal = s.cal := rfl
@[simp] theorem State.updCore_sec (p : Nat) (f : Core → Core) : (s.updCore p f).sec = s.sec := rfl
@[simp] theorem State.updCore_img (p : Nat) (f : Core → Core) : (s.updCore p f).img = s.img := rfl
@[simp] theorem State.updCore_sent (p : Nat) (f : Core → Core) : (s.updCore p f).sent = s.sent := rfl
@[simp] theorem State.updCore_freeCtr (p : Nat) (f : Core → Core) : (s.updCore p f).freeCtr = s.freeCtr := rfl
@[simp] theorem State.updCore_pending (p : Nat) (f : Core → Core) : (s.updCore p f).pending = s.pending := rfl

@[simp] theorem State.updLink_regs (p : Nat) (f : Link → Link) : (s.updLink p f).regs = s.regs := rfl
@[simp] theorem State.updLink_vis (p : Nat) (f : Link → Link) : (s.updLink p f).vis = s.vis := rfl
@[simp] theorem State.updLink_raised (p : Nat) (f : Link → Link) : (s.updLink p f).raised = s.raised := rfl
@[simp] theorem State.updLink_clears (p : Nat) (f : Link → Link) : (s.updLink p f).clears = s.clears := rfl
@[simp] theorem State.updLink_mem (p : Nat) (f : Link → Link) : (s.updLink p f).mem = s.mem := rfl
@[simp] theorem State.updLink_now (p : Nat) (f : Link → Link) : (s.updLink p f).now = s.now := rfl
@[simp] theorem State.updLink_frame (p : Nat) (f : Link → Link) : (s.updLink p f).frame = s.frame := rfl
@[simp] theorem State.updLink_fr (p : Nat) (f : Link → Link) : (s.updLink p f).fr = s.fr := rfl
@[simp] theorem State.updLink_ports (p : Nat) (f : Link → Link) : (s.updLink p f).ports = s.ports := rfl
@[simp] theorem State.updLink_ctxs (p : Nat) (f : Link → Link) : (s.updLink p f).ctxs = s.ctxs := rfl
@[simp] theorem State.updLink_batts (p : Nat) (f : Link → Link) : (s.updLink p f).batts = s.batts := rfl
@[simp] theorem State.updLink_cores (p : Nat) (f : Link → Link) : (s.updLink p f).cores = s.cores := rfl
@[simp] theorem State.updLink_flt (p : Nat) (f : Link → Link) : (s.updLink p f).flt = s.flt := rfl
@[simp] theorem State.updLink_pwr (p : Nat) (f : Link → Link) : (s.updLink p f).pwr = s.pwr := rfl
@[simp] theorem State.updLink_cal (p : Nat) (f : Link → Link) : (s.updLink p f).cal = s.cal := rfl
@[simp] theorem State.updLink_sec (p : Nat) (f : Link → Link) : (s.updLink p f).sec = s.sec := rfl
@[simp] theorem State.updLink_img (p : Nat) (f : Link → Link) : (s.updLink p f).img = s.img := rfl
@[simp] theorem State.updLink_sent (p : Nat) (f : Link → Link) : (s.updLink p f).sent = s.sent := rfl
@[simp] theorem State.updLink_freeCtr (p : Nat) (f : Link → Link) : (s.updLink p f).freeCtr = s.freeCtr := rfl
@[simp] theorem State.updLink_pending (p : Nat) (f : Link → Link) : (s.updLink p f).pending = s.pending := rfl

@[simp] theorem State.setByte_regs (a : Nat) (b : Byte) : (s.setByte a b).regs = s.regs := rfl
@[simp] theorem State.setByte_vis (a : Nat) (b : Byte) : (s.setByte a b).vis = s.vis := rfl
@[simp] theorem State.setByte_raised (a : Nat) (b : Byte) : (s.setByte a b).raised = s.raised := rfl
@[simp] theorem State.setByte_clears (a : Nat) (b : Byte) : (s.setByte a b).clears = s.clears := rfl
@[simp] theorem State.setByte_now (a : Nat) (b : Byte) : (s.setByte a b).now = s.now := rfl
@[simp] theorem State.setByte_frame (a : Nat) (b : Byte) : (s.setByte a b).frame = s.frame := rfl
@[simp] theorem State.setByte_fr (a : Nat) (b : Byte) : (s.setByte a b).fr = s.fr := rfl
@[simp] theorem State.setByte_ports (a : Nat) (b : Byte) : (s.setByte a b).ports = s.ports := rfl
@[simp] theorem State.setByte_ctxs (a : Nat) (b : Byte) : (s.setByte a b).ctxs = s.ctxs := rfl
@[simp] theorem State.setByte_batts (a : Nat) (b : Byte) : (s.setByte a b).batts = s.batts := rfl
@[simp] theorem State.setByte_cores (a : Nat) (b : Byte) : (s.setByte a b).cores = s.cores := rfl
@[simp] theorem State.setByte_link (a : Nat) (b : Byte) : (s.setByte a b).link = s.link := rfl
@[simp] theorem State.setByte_flt (a : Nat) (b : Byte) : (s.setByte a b).flt = s.flt := rfl
@[simp] theorem State.setByte_pwr (a : Nat) (b : Byte) : (s.setByte a b).pwr = s.pwr := rfl
@[simp] theorem State.setByte_cal (a : Nat) (b : Byte) : (s.setByte a b).cal = s.cal := rfl
@[simp] theorem State.setByte_sec (a : Nat) (b : Byte) : (s.setByte a b).sec = s.sec := rfl
@[simp] theorem State.setByte_img (a : Nat) (b : Byte) : (s.setByte a b).img = s.img := rfl
@[simp] theorem State.setByte_sent (a : Nat) (b : Byte) : (s.setByte a b).sent = s.sent := rfl
@[simp] theorem State.setByte_freeCtr (a : Nat) (b : Byte) : (s.setByte a b).freeCtr = s.freeCtr := rfl
@[simp] theorem State.setByte_pending (a : Nat) (b : Byte) : (s.setByte a b).pending = s.pending := rfl

@[simp] theorem State.zeroBytes_regs (a n : Nat) : (s.zeroBytes a n).regs = s.regs := rfl
@[simp] theorem State.zeroBytes_vis (a n : Nat) : (s.zeroBytes a n).vis = s.vis := rfl
@[simp] theorem State.zeroBytes_raised (a n : Nat) : (s.zeroBytes a n).raised = s.raised := rfl
@[simp] theorem State.zeroBytes_clears (a n : Nat) : (s.zeroBytes a n).clears = s.clears := rfl
@[simp] theorem State.zeroBytes_now (a n : Nat) : (s.zeroBytes a n).now = s.now := rfl
@[simp] theorem State.zeroBytes_frame (a n : Nat) : (s.zeroBytes a n).frame = s.frame := rfl
@[simp] theorem State.zeroBytes_fr (a n : Nat) : (s.zeroBytes a n).fr = s.fr := rfl
@[simp] theorem State.zeroBytes_ports (a n : Nat) : (s.zeroBytes a n).ports = s.ports := rfl
@[simp] theorem State.zeroBytes_ctxs (a n : Nat) : (s.zeroBytes a n).ctxs = s.ctxs := rfl
@[simp] theorem State.zeroBytes_batts (a n : Nat) : (s.zeroBytes a n).batts = s.batts := rfl
@[simp] theorem State.zeroBytes_cores (a n : Nat) : (s.zeroBytes a n).cores = s.cores := rfl
@[simp] theorem State.zeroBytes_link (a n : Nat) : (s.zeroBytes a n).link = s.link := rfl
@[simp] theorem State.zeroBytes_flt (a n : Nat) : (s.zeroBytes a n).flt = s.flt := rfl
@[simp] theorem State.zeroBytes_pwr (a n : Nat) : (s.zeroBytes a n).pwr = s.pwr := rfl
@[simp] theorem State.zeroBytes_cal (a n : Nat) : (s.zeroBytes a n).cal = s.cal := rfl
@[simp] theorem State.zeroBytes_sec (a n : Nat) : (s.zeroBytes a n).sec = s.sec := rfl
@[simp] theorem State.zeroBytes_img (a n : Nat) : (s.zeroBytes a n).img = s.img := rfl
@[simp] theorem State.zeroBytes_sent (a n : Nat) : (s.zeroBytes a n).sent = s.sent := rfl
@[simp] theorem State.zeroBytes_freeCtr (a n : Nat) : (s.zeroBytes a n).freeCtr = s.freeCtr := rfl
@[simp] theorem State.zeroBytes_pending (a n : Nat) : (s.zeroBytes a n).pending = s.pending := rfl

@[simp] theorem State.hold_regs (c : Nat) (m : OutMsg) : (s.hold c m).regs = s.regs := rfl
@[simp] theorem State.hold_vis (c : Nat) (m : OutMsg) : (s.hold c m).vis = s.vis := rfl
@[simp] theorem State.hold_raised (c : Nat) (m : OutMsg) : (s.hold c m).raised = s.raised := rfl
@[simp] theorem State.hold_clears (c : Nat) (m : OutMsg) : (s.hold c m).clears = s.clears := rfl
@[simp] theorem State.hold_mem (c : Nat) (m : OutMsg) : (s.hold c m).mem = s.mem := rfl
@[simp] theorem State.hold_now (c : Nat) (m : OutMsg) : (s.hold c m).now = s.now := rfl
@[simp] theorem State.hold_frame (c : Nat) (m : OutMsg) : (s.hold c m).frame = s.frame := rfl
@[simp] theorem State.hold_ports (c : Nat) (m : OutMsg) : (s.hold c m).ports = s.ports := rfl
@[simp] theorem State.hold_ctxs (c : Nat) (m : OutMsg) : (s.hold c m).ctxs = s.ctxs := rfl
@[simp] theorem State.hold_batts (c : Nat) (m : OutMsg) : (s.hold c m).batts = s.batts := rfl
@[simp] theorem State.hold_cores (c : Nat) (m : OutMsg) : (s.hold c m).cores = s.cores := rfl
@[simp] theorem State.hold_link (c : Nat) (m : OutMsg) : (s.hold c m).link = s.link := rfl
@[simp] theorem State.hold_flt (c : Nat) (m : OutMsg) : (s.hold c m).flt = s.flt := rfl
@[simp] theorem State.hold_pwr (c : Nat) (m : OutMsg) : (s.hold c m).pwr = s.pwr := rfl
@[simp] theorem State.hold_cal (c : Nat) (m : OutMsg) : (s.hold c m).cal = s.cal := rfl
@[simp] theorem State.hold_sec (c : Nat) (m : OutMsg) : (s.hold c m).sec = s.sec := rfl
@[simp] theorem State.hold_img (c : Nat) (m : OutMsg) : (s.hold c m).img = s.img := rfl
@[simp] theorem State.hold_sent (c : Nat) (m : OutMsg) : (s.hold c m).sent = s.sent := rfl
@[simp] theorem State.hold_freeCtr (c : Nat) (m : OutMsg) : (s.hold c m).freeCtr = s.freeCtr := rfl
@[simp] theorem State.hold_pending (c : Nat) (m : OutMsg) : (s.hold c m).pending = s.pending := rfl

@[simp] theorem State.holdResult_regs (n : Nat) (m : OutMsg) : (s.holdResult n m).regs = s.regs := rfl
@[simp] theorem State.holdResult_vis (n : Nat) (m : OutMsg) : (s.holdResult n m).vis = s.vis := rfl
@[simp] theorem State.holdResult_raised (n : Nat) (m : OutMsg) : (s.holdResult n m).raised = s.raised := rfl
@[simp] theorem State.holdResult_clears (n : Nat) (m : OutMsg) : (s.holdResult n m).clears = s.clears := rfl
@[simp] theorem State.holdResult_mem (n : Nat) (m : OutMsg) : (s.holdResult n m).mem = s.mem := rfl
@[simp] theorem State.holdResult_now (n : Nat) (m : OutMsg) : (s.holdResult n m).now = s.now := rfl
@[simp] theorem State.holdResult_frame (n : Nat) (m : OutMsg) : (s.holdResult n m).frame = s.frame := rfl
@[simp] theorem State.holdResult_ports (n : Nat) (m : OutMsg) : (s.holdResult n m).ports = s.ports := rfl
@[simp] theorem State.holdResult_ctxs (n : Nat) (m : OutMsg) : (s.holdResult n m).ctxs = s.ctxs := rfl
@[simp] theorem State.holdResult_batts (n : Nat) (m : OutMsg) : (s.holdResult n m).batts = s.batts := rfl
@[simp] theorem State.holdResult_cores (n : Nat) (m : OutMsg) : (s.holdResult n m).cores = s.cores := rfl
@[simp] theorem State.holdResult_link (n : Nat) (m : OutMsg) : (s.holdResult n m).link = s.link := rfl
@[simp] theorem State.holdResult_flt (n : Nat) (m : OutMsg) : (s.holdResult n m).flt = s.flt := rfl
@[simp] theorem State.holdResult_pwr (n : Nat) (m : OutMsg) : (s.holdResult n m).pwr = s.pwr := rfl
@[simp] theorem State.holdResult_cal (n : Nat) (m : OutMsg) : (s.holdResult n m).cal = s.cal := rfl
@[simp] theorem State.holdResult_sec (n : Nat) (m : OutMsg) : (s.holdResult n m).sec = s.sec := rfl
@[simp] theorem State.holdResult_img (n : Nat) (m : OutMsg) : (s.holdResult n m).img = s.img := rfl
@[simp] theorem State.holdResult_sent (n : Nat) (m : OutMsg) : (s.holdResult n m).sent = s.sent := rfl
@[simp] theorem State.holdResult_freeCtr (n : Nat) (m : OutMsg) : (s.holdResult n m).freeCtr = s.freeCtr := rfl
@[simp] theorem State.holdResult_pending (n : Nat) (m : OutMsg) : (s.holdResult n m).pending = s.pending := rfl

@[simp] theorem State.drawn_regs : (s.drawn).regs = s.regs := rfl
@[simp] theorem State.drawn_vis : (s.drawn).vis = s.vis := rfl
@[simp] theorem State.drawn_raised : (s.drawn).raised = s.raised := rfl
@[simp] theorem State.drawn_clears : (s.drawn).clears = s.clears := rfl
@[simp] theorem State.drawn_mem : (s.drawn).mem = s.mem := rfl
@[simp] theorem State.drawn_now : (s.drawn).now = s.now := rfl
@[simp] theorem State.drawn_frame : (s.drawn).frame = s.frame := rfl
@[simp] theorem State.drawn_fr : (s.drawn).fr = s.fr := rfl
@[simp] theorem State.drawn_ports : (s.drawn).ports = s.ports := rfl
@[simp] theorem State.drawn_ctxs : (s.drawn).ctxs = s.ctxs := rfl
@[simp] theorem State.drawn_batts : (s.drawn).batts = s.batts := rfl
@[simp] theorem State.drawn_cores : (s.drawn).cores = s.cores := rfl
@[simp] theorem State.drawn_link : (s.drawn).link = s.link := rfl
@[simp] theorem State.drawn_flt : (s.drawn).flt = s.flt := rfl
@[simp] theorem State.drawn_pwr : (s.drawn).pwr = s.pwr := rfl
@[simp] theorem State.drawn_cal : (s.drawn).cal = s.cal := rfl
@[simp] theorem State.drawn_sec : (s.drawn).sec = s.sec := rfl
@[simp] theorem State.drawn_img : (s.drawn).img = s.img := rfl
@[simp] theorem State.drawn_sent : (s.drawn).sent = s.sent := rfl
@[simp] theorem State.drawn_pending : (s.drawn).pending = s.pending := rfl

@[simp] theorem State.clearAtTick_regs (a : Nat) (b : Word) : (s.clearAtTick a b).regs = s.regs := rfl
@[simp] theorem State.clearAtTick_vis (a : Nat) (b : Word) : (s.clearAtTick a b).vis = s.vis := rfl
@[simp] theorem State.clearAtTick_raised (a : Nat) (b : Word) : (s.clearAtTick a b).raised = s.raised := rfl
@[simp] theorem State.clearAtTick_mem (a : Nat) (b : Word) : (s.clearAtTick a b).mem = s.mem := rfl
@[simp] theorem State.clearAtTick_now (a : Nat) (b : Word) : (s.clearAtTick a b).now = s.now := rfl
@[simp] theorem State.clearAtTick_frame (a : Nat) (b : Word) : (s.clearAtTick a b).frame = s.frame := rfl
@[simp] theorem State.clearAtTick_fr (a : Nat) (b : Word) : (s.clearAtTick a b).fr = s.fr := rfl
@[simp] theorem State.clearAtTick_ports (a : Nat) (b : Word) : (s.clearAtTick a b).ports = s.ports := rfl
@[simp] theorem State.clearAtTick_ctxs (a : Nat) (b : Word) : (s.clearAtTick a b).ctxs = s.ctxs := rfl
@[simp] theorem State.clearAtTick_batts (a : Nat) (b : Word) : (s.clearAtTick a b).batts = s.batts := rfl
@[simp] theorem State.clearAtTick_cores (a : Nat) (b : Word) : (s.clearAtTick a b).cores = s.cores := rfl
@[simp] theorem State.clearAtTick_link (a : Nat) (b : Word) : (s.clearAtTick a b).link = s.link := rfl
@[simp] theorem State.clearAtTick_flt (a : Nat) (b : Word) : (s.clearAtTick a b).flt = s.flt := rfl
@[simp] theorem State.clearAtTick_pwr (a : Nat) (b : Word) : (s.clearAtTick a b).pwr = s.pwr := rfl
@[simp] theorem State.clearAtTick_cal (a : Nat) (b : Word) : (s.clearAtTick a b).cal = s.cal := rfl
@[simp] theorem State.clearAtTick_sec (a : Nat) (b : Word) : (s.clearAtTick a b).sec = s.sec := rfl
@[simp] theorem State.clearAtTick_img (a : Nat) (b : Word) : (s.clearAtTick a b).img = s.img := rfl
@[simp] theorem State.clearAtTick_sent (a : Nat) (b : Word) : (s.clearAtTick a b).sent = s.sent := rfl
@[simp] theorem State.clearAtTick_freeCtr (a : Nat) (b : Word) : (s.clearAtTick a b).freeCtr = s.freeCtr := rfl
@[simp] theorem State.clearAtTick_pending (a : Nat) (b : Word) : (s.clearAtTick a b).pending = s.pending := rfl

@[simp] theorem State.updHost_regs (i : Nat) (f : HostSess → HostSess) : (s.updHost i f).regs = s.regs := rfl
@[simp] theorem State.updHost_vis (i : Nat) (f : HostSess → HostSess) : (s.updHost i f).vis = s.vis := rfl
@[simp] theorem State.updHost_raised (i : Nat) (f : HostSess → HostSess) : (s.updHost i f).raised = s.raised := rfl
@[simp] theorem State.updHost_clears (i : Nat) (f : HostSess → HostSess) : (s.updHost i f).clears = s.clears := rfl
@[simp] theorem State.updHost_mem (i : Nat) (f : HostSess → HostSess) : (s.updHost i f).mem = s.mem := rfl
@[simp] theorem State.updHost_now (i : Nat) (f : HostSess → HostSess) : (s.updHost i f).now = s.now := rfl
@[simp] theorem State.updHost_frame (i : Nat) (f : HostSess → HostSess) : (s.updHost i f).frame = s.frame := rfl
@[simp] theorem State.updHost_fr (i : Nat) (f : HostSess → HostSess) : (s.updHost i f).fr = s.fr := rfl
@[simp] theorem State.updHost_ctxs (i : Nat) (f : HostSess → HostSess) : (s.updHost i f).ctxs = s.ctxs := rfl
@[simp] theorem State.updHost_batts (i : Nat) (f : HostSess → HostSess) : (s.updHost i f).batts = s.batts := rfl
@[simp] theorem State.updHost_cores (i : Nat) (f : HostSess → HostSess) : (s.updHost i f).cores = s.cores := rfl
@[simp] theorem State.updHost_link (i : Nat) (f : HostSess → HostSess) : (s.updHost i f).link = s.link := rfl
@[simp] theorem State.updHost_flt (i : Nat) (f : HostSess → HostSess) : (s.updHost i f).flt = s.flt := rfl
@[simp] theorem State.updHost_pwr (i : Nat) (f : HostSess → HostSess) : (s.updHost i f).pwr = s.pwr := rfl
@[simp] theorem State.updHost_cal (i : Nat) (f : HostSess → HostSess) : (s.updHost i f).cal = s.cal := rfl
@[simp] theorem State.updHost_sec (i : Nat) (f : HostSess → HostSess) : (s.updHost i f).sec = s.sec := rfl
@[simp] theorem State.updHost_img (i : Nat) (f : HostSess → HostSess) : (s.updHost i f).img = s.img := rfl
@[simp] theorem State.updHost_sent (i : Nat) (f : HostSess → HostSess) : (s.updHost i f).sent = s.sent := rfl
@[simp] theorem State.updHost_freeCtr (i : Nat) (f : HostSess → HostSess) : (s.updHost i f).freeCtr = s.freeCtr := rfl
@[simp] theorem State.updHost_pending (i : Nat) (f : HostSess → HostSess) : (s.updHost i f).pending = s.pending := rfl

@[simp] theorem State.updMgmt_regs (i : Nat) (f : MgmtSess → MgmtSess) : (s.updMgmt i f).regs = s.regs := rfl
@[simp] theorem State.updMgmt_vis (i : Nat) (f : MgmtSess → MgmtSess) : (s.updMgmt i f).vis = s.vis := rfl
@[simp] theorem State.updMgmt_raised (i : Nat) (f : MgmtSess → MgmtSess) : (s.updMgmt i f).raised = s.raised := rfl
@[simp] theorem State.updMgmt_clears (i : Nat) (f : MgmtSess → MgmtSess) : (s.updMgmt i f).clears = s.clears := rfl
@[simp] theorem State.updMgmt_mem (i : Nat) (f : MgmtSess → MgmtSess) : (s.updMgmt i f).mem = s.mem := rfl
@[simp] theorem State.updMgmt_now (i : Nat) (f : MgmtSess → MgmtSess) : (s.updMgmt i f).now = s.now := rfl
@[simp] theorem State.updMgmt_frame (i : Nat) (f : MgmtSess → MgmtSess) : (s.updMgmt i f).frame = s.frame := rfl
@[simp] theorem State.updMgmt_fr (i : Nat) (f : MgmtSess → MgmtSess) : (s.updMgmt i f).fr = s.fr := rfl
@[simp] theorem State.updMgmt_ctxs (i : Nat) (f : MgmtSess → MgmtSess) : (s.updMgmt i f).ctxs = s.ctxs := rfl
@[simp] theorem State.updMgmt_batts (i : Nat) (f : MgmtSess → MgmtSess) : (s.updMgmt i f).batts = s.batts := rfl
@[simp] theorem State.updMgmt_cores (i : Nat) (f : MgmtSess → MgmtSess) : (s.updMgmt i f).cores = s.cores := rfl
@[simp] theorem State.updMgmt_link (i : Nat) (f : MgmtSess → MgmtSess) : (s.updMgmt i f).link = s.link := rfl
@[simp] theorem State.updMgmt_flt (i : Nat) (f : MgmtSess → MgmtSess) : (s.updMgmt i f).flt = s.flt := rfl
@[simp] theorem State.updMgmt_pwr (i : Nat) (f : MgmtSess → MgmtSess) : (s.updMgmt i f).pwr = s.pwr := rfl
@[simp] theorem State.updMgmt_cal (i : Nat) (f : MgmtSess → MgmtSess) : (s.updMgmt i f).cal = s.cal := rfl
@[simp] theorem State.updMgmt_sec (i : Nat) (f : MgmtSess → MgmtSess) : (s.updMgmt i f).sec = s.sec := rfl
@[simp] theorem State.updMgmt_img (i : Nat) (f : MgmtSess → MgmtSess) : (s.updMgmt i f).img = s.img := rfl
@[simp] theorem State.updMgmt_sent (i : Nat) (f : MgmtSess → MgmtSess) : (s.updMgmt i f).sent = s.sent := rfl
@[simp] theorem State.updMgmt_freeCtr (i : Nat) (f : MgmtSess → MgmtSess) : (s.updMgmt i f).freeCtr = s.freeCtr := rfl
@[simp] theorem State.updMgmt_pending (i : Nat) (f : MgmtSess → MgmtSess) : (s.updMgmt i f).pending = s.pending := rfl

@[simp] theorem State.put_vis (f : Fld) (i v : Nat) : (s.put f i v).vis = s.vis := by unfold State.put; split <;> rfl
@[simp] theorem State.put_raised (f : Fld) (i v : Nat) : (s.put f i v).raised = s.raised := by unfold State.put; split <;> rfl
@[simp] theorem State.put_clears (f : Fld) (i v : Nat) : (s.put f i v).clears = s.clears := by unfold State.put; split <;> rfl
@[simp] theorem State.put_mem (f : Fld) (i v : Nat) : (s.put f i v).mem = s.mem := by unfold State.put; split <;> rfl
@[simp] theorem State.put_now (f : Fld) (i v : Nat) : (s.put f i v).now = s.now := by unfold State.put; split <;> rfl
@[simp] theorem State.put_frame (f : Fld) (i v : Nat) : (s.put f i v).frame = s.frame := by unfold State.put; split <;> rfl
@[simp] theorem State.put_fr (f : Fld) (i v : Nat) : (s.put f i v).fr = s.fr := by unfold State.put; split <;> rfl
@[simp] theorem State.put_ports (f : Fld) (i v : Nat) : (s.put f i v).ports = s.ports := by unfold State.put; split <;> rfl
@[simp] theorem State.put_ctxs (f : Fld) (i v : Nat) : (s.put f i v).ctxs = s.ctxs := by unfold State.put; split <;> rfl
@[simp] theorem State.put_batts (f : Fld) (i v : Nat) : (s.put f i v).batts = s.batts := by unfold State.put; split <;> rfl
@[simp] theorem State.put_cores (f : Fld) (i v : Nat) : (s.put f i v).cores = s.cores := by unfold State.put; split <;> rfl
@[simp] theorem State.put_link (f : Fld) (i v : Nat) : (s.put f i v).link = s.link := by unfold State.put; split <;> rfl
@[simp] theorem State.put_flt (f : Fld) (i v : Nat) : (s.put f i v).flt = s.flt := by unfold State.put; split <;> rfl
@[simp] theorem State.put_pwr (f : Fld) (i v : Nat) : (s.put f i v).pwr = s.pwr := by unfold State.put; split <;> rfl
@[simp] theorem State.put_cal (f : Fld) (i v : Nat) : (s.put f i v).cal = s.cal := by unfold State.put; split <;> rfl
@[simp] theorem State.put_sec (f : Fld) (i v : Nat) : (s.put f i v).sec = s.sec := by unfold State.put; split <;> rfl
@[simp] theorem State.put_img (f : Fld) (i v : Nat) : (s.put f i v).img = s.img := by unfold State.put; split <;> rfl
@[simp] theorem State.put_sent (f : Fld) (i v : Nat) : (s.put f i v).sent = s.sent := by unfold State.put; split <;> rfl
@[simp] theorem State.put_freeCtr (f : Fld) (i v : Nat) : (s.put f i v).freeCtr = s.freeCtr := by unfold State.put; split <;> rfl
@[simp] theorem State.put_pending (f : Fld) (i v : Nat) : (s.put f i v).pending = s.pending := by unfold State.put; split <;> rfl

@[simp] theorem State.putWord_vis (f : Fld) (i : Nat) (w : Word) : (s.putWord f i w).vis = s.vis := by unfold State.putWord; split <;> rfl
@[simp] theorem State.putWord_raised (f : Fld) (i : Nat) (w : Word) : (s.putWord f i w).raised = s.raised := by unfold State.putWord; split <;> rfl
@[simp] theorem State.putWord_clears (f : Fld) (i : Nat) (w : Word) : (s.putWord f i w).clears = s.clears := by unfold State.putWord; split <;> rfl
@[simp] theorem State.putWord_mem (f : Fld) (i : Nat) (w : Word) : (s.putWord f i w).mem = s.mem := by unfold State.putWord; split <;> rfl
@[simp] theorem State.putWord_now (f : Fld) (i : Nat) (w : Word) : (s.putWord f i w).now = s.now := by unfold State.putWord; split <;> rfl
@[simp] theorem State.putWord_frame (f : Fld) (i : Nat) (w : Word) : (s.putWord f i w).frame = s.frame := by unfold State.putWord; split <;> rfl
@[simp] theorem State.putWord_fr (f : Fld) (i : Nat) (w : Word) : (s.putWord f i w).fr = s.fr := by unfold State.putWord; split <;> rfl
@[simp] theorem State.putWord_ports (f : Fld) (i : Nat) (w : Word) : (s.putWord f i w).ports = s.ports := by unfold State.putWord; split <;> rfl
@[simp] theorem State.putWord_ctxs (f : Fld) (i : Nat) (w : Word) : (s.putWord f i w).ctxs = s.ctxs := by unfold State.putWord; split <;> rfl
@[simp] theorem State.putWord_batts (f : Fld) (i : Nat) (w : Word) : (s.putWord f i w).batts = s.batts := by unfold State.putWord; split <;> rfl
@[simp] theorem State.putWord_cores (f : Fld) (i : Nat) (w : Word) : (s.putWord f i w).cores = s.cores := by unfold State.putWord; split <;> rfl
@[simp] theorem State.putWord_link (f : Fld) (i : Nat) (w : Word) : (s.putWord f i w).link = s.link := by unfold State.putWord; split <;> rfl
@[simp] theorem State.putWord_flt (f : Fld) (i : Nat) (w : Word) : (s.putWord f i w).flt = s.flt := by unfold State.putWord; split <;> rfl
@[simp] theorem State.putWord_pwr (f : Fld) (i : Nat) (w : Word) : (s.putWord f i w).pwr = s.pwr := by unfold State.putWord; split <;> rfl
@[simp] theorem State.putWord_cal (f : Fld) (i : Nat) (w : Word) : (s.putWord f i w).cal = s.cal := by unfold State.putWord; split <;> rfl
@[simp] theorem State.putWord_sec (f : Fld) (i : Nat) (w : Word) : (s.putWord f i w).sec = s.sec := by unfold State.putWord; split <;> rfl
@[simp] theorem State.putWord_img (f : Fld) (i : Nat) (w : Word) : (s.putWord f i w).img = s.img := by unfold State.putWord; split <;> rfl
@[simp] theorem State.putWord_sent (f : Fld) (i : Nat) (w : Word) : (s.putWord f i w).sent = s.sent := by unfold State.putWord; split <;> rfl
@[simp] theorem State.putWord_freeCtr (f : Fld) (i : Nat) (w : Word) : (s.putWord f i w).freeCtr = s.freeCtr := by unfold State.putWord; split <;> rfl
@[simp] theorem State.putWord_pending (f : Fld) (i : Nat) (w : Word) : (s.putWord f i w).pending = s.pending := by unfold State.putWord; split <;> rfl

@[simp] theorem State.bump_vis (f : Fld) (i v : Nat) : (s.bump f i v).vis = s.vis := State.put_vis ..
@[simp] theorem State.bump_raised (f : Fld) (i v : Nat) : (s.bump f i v).raised = s.raised := State.put_raised ..
@[simp] theorem State.bump_clears (f : Fld) (i v : Nat) : (s.bump f i v).clears = s.clears := State.put_clears ..
@[simp] theorem State.bump_mem (f : Fld) (i v : Nat) : (s.bump f i v).mem = s.mem := State.put_mem ..
@[simp] theorem State.bump_now (f : Fld) (i v : Nat) : (s.bump f i v).now = s.now := State.put_now ..
@[simp] theorem State.bump_frame (f : Fld) (i v : Nat) : (s.bump f i v).frame = s.frame := State.put_frame ..
@[simp] theorem State.bump_fr (f : Fld) (i v : Nat) : (s.bump f i v).fr = s.fr := State.put_fr ..
@[simp] theorem State.bump_ports (f : Fld) (i v : Nat) : (s.bump f i v).ports = s.ports := State.put_ports ..
@[simp] theorem State.bump_ctxs (f : Fld) (i v : Nat) : (s.bump f i v).ctxs = s.ctxs := State.put_ctxs ..
@[simp] theorem State.bump_batts (f : Fld) (i v : Nat) : (s.bump f i v).batts = s.batts := State.put_batts ..
@[simp] theorem State.bump_cores (f : Fld) (i v : Nat) : (s.bump f i v).cores = s.cores := State.put_cores ..
@[simp] theorem State.bump_link (f : Fld) (i v : Nat) : (s.bump f i v).link = s.link := State.put_link ..
@[simp] theorem State.bump_flt (f : Fld) (i v : Nat) : (s.bump f i v).flt = s.flt := State.put_flt ..
@[simp] theorem State.bump_pwr (f : Fld) (i v : Nat) : (s.bump f i v).pwr = s.pwr := State.put_pwr ..
@[simp] theorem State.bump_cal (f : Fld) (i v : Nat) : (s.bump f i v).cal = s.cal := State.put_cal ..
@[simp] theorem State.bump_sec (f : Fld) (i v : Nat) : (s.bump f i v).sec = s.sec := State.put_sec ..
@[simp] theorem State.bump_img (f : Fld) (i v : Nat) : (s.bump f i v).img = s.img := State.put_img ..
@[simp] theorem State.bump_sent (f : Fld) (i v : Nat) : (s.bump f i v).sent = s.sent := State.put_sent ..
@[simp] theorem State.bump_freeCtr (f : Fld) (i v : Nat) : (s.bump f i v).freeCtr = s.freeCtr := State.put_freeCtr ..
@[simp] theorem State.bump_pending (f : Fld) (i v : Nat) : (s.bump f i v).pending = s.pending := State.put_pending ..

@[simp] theorem State.bumpSat_vis (f : Fld) (i v : Nat) : (s.bumpSat f i v).vis = s.vis := State.put_vis ..
@[simp] theorem State.bumpSat_raised (f : Fld) (i v : Nat) : (s.bumpSat f i v).raised = s.raised := State.put_raised ..
@[simp] theorem State.bumpSat_clears (f : Fld) (i v : Nat) : (s.bumpSat f i v).clears = s.clears := State.put_clears ..
@[simp] theorem State.bumpSat_mem (f : Fld) (i v : Nat) : (s.bumpSat f i v).mem = s.mem := State.put_mem ..
@[simp] theorem State.bumpSat_now (f : Fld) (i v : Nat) : (s.bumpSat f i v).now = s.now := State.put_now ..
@[simp] theorem State.bumpSat_frame (f : Fld) (i v : Nat) : (s.bumpSat f i v).frame = s.frame := State.put_frame ..
@[simp] theorem State.bumpSat_fr (f : Fld) (i v : Nat) : (s.bumpSat f i v).fr = s.fr := State.put_fr ..
@[simp] theorem State.bumpSat_ports (f : Fld) (i v : Nat) : (s.bumpSat f i v).ports = s.ports := State.put_ports ..
@[simp] theorem State.bumpSat_ctxs (f : Fld) (i v : Nat) : (s.bumpSat f i v).ctxs = s.ctxs := State.put_ctxs ..
@[simp] theorem State.bumpSat_batts (f : Fld) (i v : Nat) : (s.bumpSat f i v).batts = s.batts := State.put_batts ..
@[simp] theorem State.bumpSat_cores (f : Fld) (i v : Nat) : (s.bumpSat f i v).cores = s.cores := State.put_cores ..
@[simp] theorem State.bumpSat_link (f : Fld) (i v : Nat) : (s.bumpSat f i v).link = s.link := State.put_link ..
@[simp] theorem State.bumpSat_flt (f : Fld) (i v : Nat) : (s.bumpSat f i v).flt = s.flt := State.put_flt ..
@[simp] theorem State.bumpSat_pwr (f : Fld) (i v : Nat) : (s.bumpSat f i v).pwr = s.pwr := State.put_pwr ..
@[simp] theorem State.bumpSat_cal (f : Fld) (i v : Nat) : (s.bumpSat f i v).cal = s.cal := State.put_cal ..
@[simp] theorem State.bumpSat_sec (f : Fld) (i v : Nat) : (s.bumpSat f i v).sec = s.sec := State.put_sec ..
@[simp] theorem State.bumpSat_img (f : Fld) (i v : Nat) : (s.bumpSat f i v).img = s.img := State.put_img ..
@[simp] theorem State.bumpSat_sent (f : Fld) (i v : Nat) : (s.bumpSat f i v).sent = s.sent := State.put_sent ..
@[simp] theorem State.bumpSat_freeCtr (f : Fld) (i v : Nat) : (s.bumpSat f i v).freeCtr = s.freeCtr := State.put_freeCtr ..
@[simp] theorem State.bumpSat_pending (f : Fld) (i v : Nat) : (s.bumpSat f i v).pending = s.pending := State.put_pending ..

@[simp] theorem State.enter_vis (c st : Nat) : (s.enter c st).vis = s.vis := State.put_vis ..
@[simp] theorem State.enter_raised (c st : Nat) : (s.enter c st).raised = s.raised := State.put_raised ..
@[simp] theorem State.enter_clears (c st : Nat) : (s.enter c st).clears = s.clears := State.put_clears ..
@[simp] theorem State.enter_mem (c st : Nat) : (s.enter c st).mem = s.mem := State.put_mem ..
@[simp] theorem State.enter_now (c st : Nat) : (s.enter c st).now = s.now := State.put_now ..
@[simp] theorem State.enter_frame (c st : Nat) : (s.enter c st).frame = s.frame := State.put_frame ..
@[simp] theorem State.enter_fr (c st : Nat) : (s.enter c st).fr = s.fr := State.put_fr ..
@[simp] theorem State.enter_ports (c st : Nat) : (s.enter c st).ports = s.ports := State.put_ports ..
@[simp] theorem State.enter_ctxs (c st : Nat) : (s.enter c st).ctxs = s.ctxs := State.put_ctxs ..
@[simp] theorem State.enter_batts (c st : Nat) : (s.enter c st).batts = s.batts := State.put_batts ..
@[simp] theorem State.enter_cores (c st : Nat) : (s.enter c st).cores = s.cores := State.put_cores ..
@[simp] theorem State.enter_link (c st : Nat) : (s.enter c st).link = s.link := State.put_link ..
@[simp] theorem State.enter_flt (c st : Nat) : (s.enter c st).flt = s.flt := State.put_flt ..
@[simp] theorem State.enter_pwr (c st : Nat) : (s.enter c st).pwr = s.pwr := State.put_pwr ..
@[simp] theorem State.enter_cal (c st : Nat) : (s.enter c st).cal = s.cal := State.put_cal ..
@[simp] theorem State.enter_sec (c st : Nat) : (s.enter c st).sec = s.sec := State.put_sec ..
@[simp] theorem State.enter_img (c st : Nat) : (s.enter c st).img = s.img := State.put_img ..
@[simp] theorem State.enter_sent (c st : Nat) : (s.enter c st).sent = s.sent := State.put_sent ..
@[simp] theorem State.enter_freeCtr (c st : Nat) : (s.enter c st).freeCtr = s.freeCtr := State.put_freeCtr ..
@[simp] theorem State.enter_pending (c st : Nat) : (s.enter c st).pending = s.pending := State.put_pending ..

@[simp] theorem State.raise_vis (f : Fld) (i : Nat) : (s.raise f i).vis = s.vis := by
  unfold State.raise
  split
  · exact State.put_vis ..
  · rfl
@[simp] theorem State.raise_clears (f : Fld) (i : Nat) : (s.raise f i).clears = s.clears := by
  unfold State.raise
  split
  · exact State.put_clears ..
  · rfl
@[simp] theorem State.raise_mem (f : Fld) (i : Nat) : (s.raise f i).mem = s.mem := by
  unfold State.raise
  split
  · exact State.put_mem ..
  · rfl
@[simp] theorem State.raise_now (f : Fld) (i : Nat) : (s.raise f i).now = s.now := by
  unfold State.raise
  split
  · exact State.put_now ..
  · rfl
@[simp] theorem State.raise_frame (f : Fld) (i : Nat) : (s.raise f i).frame = s.frame := by
  unfold State.raise
  split
  · exact State.put_frame ..
  · rfl
@[simp] theorem State.raise_fr (f : Fld) (i : Nat) : (s.raise f i).fr = s.fr := by
  unfold State.raise
  split
  · exact State.put_fr ..
  · rfl
@[simp] theorem State.raise_ports (f : Fld) (i : Nat) : (s.raise f i).ports = s.ports := by
  unfold State.raise
  split
  · exact State.put_ports ..
  · rfl
@[simp] theorem State.raise_ctxs (f : Fld) (i : Nat) : (s.raise f i).ctxs = s.ctxs := by
  unfold State.raise
  split
  · exact State.put_ctxs ..
  · rfl
@[simp] theorem State.raise_batts (f : Fld) (i : Nat) : (s.raise f i).batts = s.batts := by
  unfold State.raise
  split
  · exact State.put_batts ..
  · rfl
@[simp] theorem State.raise_cores (f : Fld) (i : Nat) : (s.raise f i).cores = s.cores := by
  unfold State.raise
  split
  · exact State.put_cores ..
  · rfl
@[simp] theorem State.raise_link (f : Fld) (i : Nat) : (s.raise f i).link = s.link := by
  unfold State.raise
  split
  · exact State.put_link ..
  · rfl
@[simp] theorem State.raise_flt (f : Fld) (i : Nat) : (s.raise f i).flt = s.flt := by
  unfold State.raise
  split
  · exact State.put_flt ..
  · rfl
@[simp] theorem State.raise_pwr (f : Fld) (i : Nat) : (s.raise f i).pwr = s.pwr := by
  unfold State.raise
  split
  · exact State.put_pwr ..
  · rfl
@[simp] theorem State.raise_cal (f : Fld) (i : Nat) : (s.raise f i).cal = s.cal := by
  unfold State.raise
  split
  · exact State.put_cal ..
  · rfl
@[simp] theorem State.raise_sec (f : Fld) (i : Nat) : (s.raise f i).sec = s.sec := by
  unfold State.raise
  split
  · exact State.put_sec ..
  · rfl
@[simp] theorem State.raise_img (f : Fld) (i : Nat) : (s.raise f i).img = s.img := by
  unfold State.raise
  split
  · exact State.put_img ..
  · rfl
@[simp] theorem State.raise_sent (f : Fld) (i : Nat) : (s.raise f i).sent = s.sent := by
  unfold State.raise
  split
  · exact State.put_sent ..
  · rfl
@[simp] theorem State.raise_freeCtr (f : Fld) (i : Nat) : (s.raise f i).freeCtr = s.freeCtr := by
  unfold State.raise
  split
  · exact State.put_freeCtr ..
  · rfl
@[simp] theorem State.raise_pending (f : Fld) (i : Nat) : (s.raise f i).pending = s.pending := by
  unfold State.raise
  split
  · exact State.put_pending ..
  · rfl

end Sys2Proof.Machine
end

