-- ==== Sys2Proof/Laws/Fields.lean ====
section
/-!
SUPPORT. Laws/Fields.lean: reading a register field after writing one, and reading a unit after writing one.
-/
namespace Sys2Proof.Machine
set_option Elab.async false

/-- A field lies within its word. -/
def Fld.ok (f : Fld) : Bool := decide (f.lo ≤ f.hi) && decide (f.hi < 32)

/-- Two fields of one word have no bit in common. -/
def Fld.apart (f g : Fld) : Bool := decide (f.hi < g.lo) || decide (g.hi < f.lo)

theorem word_parts (w lo n : Nat) :
    w = w / 2 ^ (lo + n) * 2 ^ (lo + n) + (w / 2 ^ lo % 2 ^ n) * 2 ^ lo + w % 2 ^ lo := by
  have ha := Nat.div_add_mod w (2 ^ lo)
  have hb := Nat.div_add_mod (w / 2 ^ lo) (2 ^ n)
  rw [Nat.div_div_eq_div_mul, ← Nat.pow_add] at hb
  calc w = 2 ^ lo * (w / 2 ^ lo) + w % 2 ^ lo := ha.symm
    _ = 2 ^ lo * (2 ^ n * (w / 2 ^ (lo + n)) + w / 2 ^ lo % 2 ^ n) + w % 2 ^ lo := by rw [hb]
    _ = _ := by rw [Nat.mul_add, ← Nat.mul_assoc, ← Nat.pow_add, Nat.mul_comm (2 ^ (lo + n)), Nat.mul_comm (2 ^ lo)]

/-- The number that Fld.put forms: the bits above the field, the field, and those below. -/
theorem put_parts (w lo n v : Nat) :
    w - (w / 2 ^ lo % 2 ^ n) * 2 ^ lo + v * 2 ^ lo = w / 2 ^ (lo + n) * 2 ^ (lo + n) + v * 2 ^ lo + w % 2 ^ lo := by
  have := word_parts w lo n
  omega

theorem put_lt {w n lo v : Nat} (hw : w < 2 ^ 32) (hn : lo + n ≤ 32) (hv : v < 2 ^ n) :
    w - (w / 2 ^ lo % 2 ^ n) * 2 ^ lo + v * 2 ^ lo < 2 ^ 32 := by
  rw [put_parts]
  have h2 : w / 2 ^ (lo + n) < 2 ^ (32 - (lo + n)) := by
    rw [Nat.div_lt_iff_lt_mul (Nat.two_pow_pos _), ← Nat.pow_add, show 32 - (lo + n) + (lo + n) = 32 by omega]
    exact hw
  have h3 : w % 2 ^ lo < 2 ^ lo := Nat.mod_lt _ (Nat.two_pow_pos _)
  have h4 : v * 2 ^ lo + 2 ^ lo ≤ 2 ^ (lo + n) := by
    rw [← Nat.succ_mul, Nat.pow_add, Nat.mul_comm (2 ^ lo)]
    exact Nat.mul_le_mul_right _ hv
  have h5 : w / 2 ^ (lo + n) * 2 ^ (lo + n) + 2 ^ (lo + n) ≤ 2 ^ 32 := by
    rw [← Nat.succ_mul]
    calc _ ≤ 2 ^ (32 - (lo + n)) * 2 ^ (lo + n) := Nat.mul_le_mul_right _ h2
      _ = 2 ^ 32 := by rw [← Nat.pow_add, show 32 - (lo + n) + (lo + n) = 32 by omega]
  omega

theorem Fld.put_toNat {f : Fld} (hf : f.ok = true) (w : Word) (v : Nat) :
    (f.put w v).toNat = w.toNat / 2 ^ (f.lo + (f.hi + 1 - f.lo)) * 2 ^ (f.lo + (f.hi + 1 - f.lo)) +
      v % 2 ^ (f.hi + 1 - f.lo) * 2 ^ f.lo + w.toNat % 2 ^ f.lo := by
  simp only [Fld.ok, Bool.and_eq_true, decide_eq_true_eq] at hf
  have h := put_lt (v := v % 2 ^ (f.hi + 1 - f.lo)) w.isLt (show f.lo + (f.hi + 1 - f.lo) ≤ 32 by omega) (Nat.mod_lt _ (Nat.two_pow_pos _))
  rw [Fld.put, BitVec.toNat_ofNat, Nat.mod_eq_of_lt h, put_parts]

/-- A field reads what was put into it, modulo its width. -/
theorem Fld.of_put {f : Fld} (hf : f.ok = true) (w : Word) (v : Nat) : f.of (f.put w v) = v % 2 ^ (f.hi + 1 - f.lo) := by
  rw [Fld.of, Fld.put_toNat hf]
  generalize f.hi + 1 - f.lo = n
  generalize w.toNat = x
  have h3 : x % 2 ^ f.lo < 2 ^ f.lo := Nat.mod_lt _ (Nat.two_pow_pos _)
  rw [show x / 2 ^ (f.lo + n) * 2 ^ (f.lo + n) + v % 2 ^ n * 2 ^ f.lo + x % 2 ^ f.lo =
      x % 2 ^ f.lo + (v % 2 ^ n + 2 ^ n * (x / 2 ^ (f.lo + n))) * 2 ^ f.lo by
    rw [Nat.add_mul, Nat.pow_add, Nat.mul_comm (2 ^ n), Nat.mul_assoc, Nat.mul_comm (2 ^ n) (2 ^ f.lo)]
    omega]
  rw [Nat.add_mul_div_right _ _ (Nat.two_pow_pos _), Nat.div_eq_of_lt h3, Nat.zero_add, Nat.add_mul_mod_self_left, Nat.mod_mod]

/-- A field apart from the one put reads as before. -/
theorem Fld.of_put_apart {f g : Fld} (hf : f.ok = true) (hg : g.ok = true) (h : f.apart g = true) (w : Word) (v : Nat) :
    g.of (f.put w v) = g.of w := by
  simp only [Fld.apart, Bool.or_eq_true, decide_eq_true_eq] at h
  rw [Fld.of, Fld.of, Fld.put_toNat hf]
  simp only [Fld.ok, Bool.and_eq_true, decide_eq_true_eq] at hf hg
  have hp := word_parts w.toNat f.lo (f.hi + 1 - f.lo)
  have hv : v % 2 ^ (f.hi + 1 - f.lo) < 2 ^ (f.hi + 1 - f.lo) := Nat.mod_lt _ (Nat.two_pow_pos _)
  have hm : w.toNat / 2 ^ f.lo % 2 ^ (f.hi + 1 - f.lo) < 2 ^ (f.hi + 1 - f.lo) := Nat.mod_lt _ (Nat.two_pow_pos _)
  have hr : w.toNat % 2 ^ f.lo < 2 ^ f.lo := Nat.mod_lt _ (Nat.two_pow_pos _)
  have key : ∀ k A r x : Nat, x < 2 ^ (f.hi + 1 - f.lo) → r < 2 ^ f.lo →
      (A * 2 ^ (f.lo + (f.hi + 1 - f.lo)) + x * 2 ^ f.lo + r) / 2 ^ (f.lo + (f.hi + 1 - f.lo) + k) = A / 2 ^ k := by
    intro k A r x hx hr
    have hs : x * 2 ^ f.lo + r < 2 ^ (f.lo + (f.hi + 1 - f.lo)) := by
      have : x * 2 ^ f.lo + 2 ^ f.lo ≤ 2 ^ (f.lo + (f.hi + 1 - f.lo)) := by
        rw [← Nat.succ_mul, Nat.pow_add, Nat.mul_comm (2 ^ f.lo)]
        exact Nat.mul_le_mul_right _ hx
      omega
    rw [Nat.pow_add 2 (f.lo + (f.hi + 1 - f.lo)) k, ← Nat.div_div_eq_div_mul, Nat.add_assoc, Nat.add_comm (A * _), Nat.add_mul_div_right _ _ (Nat.two_pow_pos _),
      Nat.div_eq_of_lt hs, Nat.zero_add]
  rcases h with h | h
  · obtain ⟨k, hk⟩ : ∃ k, g.lo = f.lo + (f.hi + 1 - f.lo) + k := ⟨g.lo - (f.hi + 1), by omega⟩
    rw [hk, key k _ _ _ hv hr]
    conv => rhs; rw [hp, key k _ _ _ hm hr]
  · obtain ⟨k, hk⟩ : ∃ k, f.lo = g.lo + (g.hi + 1 - g.lo) + k := ⟨f.lo - (g.hi + 1), by omega⟩
    have low : ∀ y : Nat, y / 2 ^ g.lo % 2 ^ (g.hi + 1 - g.lo) = y % 2 ^ f.lo / 2 ^ g.lo % 2 ^ (g.hi + 1 - g.lo) := by
      intro y
      apply Nat.eq_of_testBit_eq
      intro i
      simp only [Nat.testBit_mod_two_pow, Nat.testBit_div_two_pow]
      by_cases hi : i < g.hi + 1 - g.lo
      · simp only [hi, decide_true, Bool.true_and, show i + g.lo < f.lo by omega]
      · simp only [hi, decide_false, Bool.false_and]
    rw [low, low w.toNat]
    congr 2
    rw [Nat.pow_add, Nat.mul_comm (2 ^ f.lo), ← Nat.mul_assoc, ← Nat.add_mul, Nat.add_comm, Nat.add_mul_mod_self_right, Nat.mod_mod]

variable (s : State)

/-- Reading after writing: the field written at its index, any other field of the same word, and every other word. -/
theorem get_put (f g : Fld) (i j v : Nat) : (s.put f i v).get g j =
    if i < f.count ∧ g.addr j = f.addr i then g.of (f.put (s.reg (f.addr i)) v) else s.get g j := by
  unfold State.put State.get
  by_cases h : i < f.count
  · simp only [h, if_true, true_and, reg_setReg]
    split <;> rfl
  · simp [h]

theorem get_put_same {f : Fld} (hf : f.ok = true) {i : Nat} (hi : i < f.count) (v : Nat) :
    (s.put f i v).get f i = v % 2 ^ (f.hi + 1 - f.lo) := by
  rw [get_put, if_pos ⟨hi, rfl⟩, Fld.of_put hf]

theorem get_put_apart {f g : Fld} (hf : f.ok = true) (hg : g.ok = true) (h : f.apart g = true) (i j v : Nat) :
    (s.put f i v).get g j = s.get g j := by
  rw [get_put]
  split
  · next h' => rw [Fld.of_put_apart hf hg h, State.get, h'.2]
  · rfl

theorem get_put_addr {f g : Fld} {i j : Nat} (h : g.addr j ≠ f.addr i) (v : Nat) : (s.put f i v).get g j = s.get g j := by
  rw [get_put, if_neg (fun h' => h h'.2)]

theorem get_put_index {f : Fld} {i j : Nat} (hs : 0 < f.stride) (h : j ≠ i) (v : Nat) : (s.put f i v).get f j = s.get f j := by
  refine get_put_addr s (fun h' => h ?_) v
  simp only [Fld.addr, Nat.add_left_cancel_iff] at h'
  exact Nat.eq_of_mul_eq_mul_left hs h'

theorem get_congr {s t : State} (h : t.regs = s.regs) (g : Fld) (j : Nat) : t.get g j = s.get g j := by
  simp only [State.get, State.reg, h]

theorem seen_congr {s t : State} (h : t.vis = s.vis) (g : Fld) (j : Nat) : t.seen g j = s.seen g j := by
  simp only [State.seen, State.visReg, h]

theorem byte_congr {s t : State} (h : t.mem = s.mem) (a : Nat) : t.byte a = s.byte a := by
  simp only [State.byte, h]

@[simp] theorem seen_put (f g : Fld) (i j v : Nat) : (s.put f i v).seen g j = s.seen g j := seen_congr (State.put_vis s f i v) g j
@[simp] theorem ctx_put (f : Fld) (i v c : Nat) : (s.put f i v).ctx c = s.ctx c := by unfold State.ctx; rw [State.put_ctxs]
@[simp] theorem batt_put (f : Fld) (i v b : Nat) : (s.put f i v).batt b = s.batt b := by unfold State.batt; rw [State.put_batts]
@[simp] theorem core_put (f : Fld) (i v p : Nat) : (s.put f i v).core p = s.core p := by unfold State.core; rw [State.put_cores]
@[simp] theorem byte_put (f : Fld) (i v a : Nat) : (s.put f i v).byte a = s.byte a := byte_congr (State.put_mem s f i v) a

/-- Setting an event bit writes 1 to the field. -/
theorem get_raise (f g : Fld) (i j : Nat) : (s.raise f i).get g j = (s.put f i 1).get g j := by
  unfold State.raise
  split
  · rfl
  · next h => simp [State.put, h]

theorem ctx_setCtx (c d : Nat) (x : Ctx) : (s.setCtx c x).ctx d = if d = c then x else s.ctx d := tget_tset ..
theorem batt_setBatt (b d : Nat) (x : Batt) : (s.setBatt b x).batt d = if d = b then x else s.batt d := tget_tset ..
theorem core_setCore (p d : Nat) (x : Core) : (s.setCore p x).core d = if d = p then x else s.core d := tget_tset ..
theorem ctx_updCtx (c d : Nat) (f : Ctx → Ctx) : (s.updCtx c f).ctx d = if d = c then f (s.ctx c) else s.ctx d := tget_tset ..
theorem batt_updBatt (b d : Nat) (f : Batt → Batt) : (s.updBatt b f).batt d = if d = b then f (s.batt b) else s.batt d := tget_tset ..
theorem core_updCore (p d : Nat) (f : Core → Core) : (s.updCore p f).core d = if d = p then f (s.core p) else s.core d := tget_tset ..
theorem linkPort_updLink (p d : Nat) (f : Link → Link) :
    (s.updLink p f).linkPort d = if d = p then f (s.linkPort p) else s.linkPort d := tget_tset ..
@[simp] theorem ctx_updCtx_same (c : Nat) (f : Ctx → Ctx) : (s.updCtx c f).ctx c = f (s.ctx c) := tget_tset_same ..
@[simp] theorem batt_updBatt_same (b : Nat) (f : Batt → Batt) : (s.updBatt b f).batt b = f (s.batt b) := tget_tset_same ..
@[simp] theorem core_updCore_same (p : Nat) (f : Core → Core) : (s.updCore p f).core p = f (s.core p) := tget_tset_same ..
@[simp] theorem linkPort_updLink_same (p : Nat) (f : Link → Link) : (s.updLink p f).linkPort p = f (s.linkPort p) := tget_tset_same ..

theorem byte_setByte (a b : Nat) (x : Byte) : (s.setByte a x).byte b = if b = a then x else s.byte b := tget_tset ..

/-- Storing bytes: those from a on read as stored, every other byte as before. -/
theorem byte_setBytes (s : State) (a : Nat) (l : List Byte) (b : Nat) :
    (s.setBytes a l).byte b = if a ≤ b ∧ b < a + l.length then l.getD (b - a) 0 else s.byte b := by
  induction l generalizing s a with
  | nil => rw [State.setBytes, if_neg (by simp only [List.length_nil]; omega)]
  | cons x r ih =>
    rw [State.setBytes, ih, byte_setByte]
    by_cases h1 : a + 1 ≤ b ∧ b < a + 1 + r.length
    · rw [if_pos h1, if_pos (by simp only [List.length_cons]; omega), show b - a = (b - (a + 1)) + 1 by omega, List.getD_cons_succ]
    · rw [if_neg h1]
      by_cases h2 : b = a
      · subst h2
        rw [if_pos rfl, if_pos (by simp only [List.length_cons]; omega), Nat.sub_self, List.getD_cons_zero]
      · rw [if_neg h2, if_neg (by simp only [List.length_cons]; omega)]

theorem byte_zeroBytes (a n b : Nat) : (s.zeroBytes a n).byte b = if a ≤ b ∧ b < a + n then 0 else s.byte b := tget_tclear ..

/-- A block that an operation leaves alone keeps every field in it. -/
theorem Keeps.get {m : Nat} {s t : State} (h : Keeps m s t) {g : Fld} (hg : g.inBlock = true) {j : Nat} (hj : j < g.count)
    (hb : m.testBit (blockOf g.base).code = false) : t.get g j = s.get g j := by
  have h1 := h.1 (blockOf (g.addr j)) (by rw [blockOf_addr hg hj]; exact hb)
  have hr : t.reg (g.addr j) = s.reg (g.addr j) := by
    have hlt := blockOf_code_lt (g.addr j)
    generalize hB : blockOf (g.addr j) = B at h1 hlt
    revert h1 hlt
    cases B <;> intro h1 hlt <;> first | exact h1 _ hB | (exact absurd hlt (by decide))
  rw [State.get, State.get, hr]

end Sys2Proof.Machine
end

