-- ==== Sys2Proof/Laws/KeepsOps.lean ====
section
/-!
SUPPORT. Laws/KeepsOps.lean: what each operation of Machine/Ops.lean leaves as it was (Laws/Keeps.lean).
-/
namespace Sys2Proof.Machine
set_option Elab.async false
set_option linter.unusedTactic false
set_option linter.unreachableTactic false

theorem keeps_updCtx {L : Nat} {s u : State} (h : Keeps L s u) (hm : 0x2000000 &&& L = 0x2000000) {a1 a2} : Keeps L s (State.updCtx u a1 a2) := by
  refine h.step (m := 0x2000000) ?_ hm
  unfold State.updCtx
  repeat' first
  | with_reducible assumption
  | with_reducible exact Keeps.refl _ _
  | (extract_lets +onlyGivenNames x; refine Keeps.cut x ?_ (fun hx => ?_); rotate_left; rename State => z; rotate_right; unfold x; clear x)
  | (extract_lets +onlyGivenNames x; revert x; intro y)
  | (with_reducible refine Keeps.setCtx ?_ ?_; rotate_left; (first | rfl | decide))
  | with_reducible refine Keeps.foldl ?_ (fun v e => ?_)
  | with_reducible refine Keeps.ite ?_ ?_
  | split
  | exact Keeps.upd (by with_reducible assumption)
  | exact Keeps.upd (Keeps.refl _ _)
  | (clear_value *; split)

theorem keeps_logEvent {L : Nat} {s u : State} (h : Keeps L s u) (hm : 0x20000004 &&& L = 0x20000004) {a1 a2 a3 a4 a5} : Keeps L s (State.logEvent u a1 a2 a3 a4 a5) := by
  refine h.step (m := 0x20000004) ?_ hm
  unfold State.logEvent
  repeat' first
  | with_reducible assumption
  | with_reducible exact Keeps.refl _ _
  | (extract_lets +onlyGivenNames x; refine Keeps.cut x ?_ (fun hx => ?_); rotate_left; rename State => z; rotate_right; unfold x; clear x)
  | (extract_lets +onlyGivenNames x; revert x; intro y)
  | (with_reducible refine Keeps.put ?_ ?_ ?_; rotate_left; (first | rfl | decide); (first | rfl | decide))
  | (with_reducible refine Keeps.bump ?_ ?_ ?_; rotate_left; (first | rfl | decide); (first | rfl | decide))
  | with_reducible refine Keeps.foldl ?_ (fun v e => ?_)
  | with_reducible refine Keeps.ite ?_ ?_
  | split
  | exact Keeps.upd (by with_reducible assumption)
  | exact Keeps.upd (Keeps.refl _ _)
  | (clear_value *; split)

theorem keeps_send {L : Nat} {s u : State} (h : Keeps L s u) (hm : 0x400000080 &&& L = 0x400000080) {m : OutMsg} : Keeps L s (u.send m) := by
  refine h.step (m := 0x400000080) ?_ hm
  unfold State.send
  split
  · exact Keeps.upd (Keeps.refl _ _)
  · split <;> exact (Keeps.refl _ _).bump (by decide) (by decide)

theorem keeps_updMgmt {L : Nat} {s u : State} (h : Keeps L s u) (hm : 0x1000000 &&& L = 0x1000000) {a1 a2} : Keeps L s (State.updMgmt u a1 a2) := by
  refine h.step (m := 0x1000000) ?_ hm
  unfold State.updMgmt
  repeat' first
  | with_reducible assumption
  | with_reducible exact Keeps.refl _ _
  | (extract_lets +onlyGivenNames x; refine Keeps.cut x ?_ (fun hx => ?_); rotate_left; rename State => z; rotate_right; unfold x; clear x)
  | (extract_lets +onlyGivenNames x; revert x; intro y)
  | with_reducible refine Keeps.foldl ?_ (fun v e => ?_)
  | with_reducible refine Keeps.ite ?_ ?_
  | split
  | exact Keeps.upd (by with_reducible assumption)
  | exact Keeps.upd (Keeps.refl _ _)
  | (clear_value *; split)

theorem keeps_toMgmt {L : Nat} {s u : State} (h : Keeps L s u) (hm : 0x401000080 &&& L = 0x401000080) {a0 a1} : Keeps L s (State.toMgmt a0 a1 u) := by
  refine h.step (m := 0x401000080) ?_ hm
  unfold State.toMgmt
  repeat' first
  | with_reducible assumption
  | with_reducible exact Keeps.refl _ _
  | (extract_lets +onlyGivenNames x; refine Keeps.cut x ?_ (fun hx => ?_); rotate_left; rename State => z; rotate_right; unfold x; clear x)
  | (extract_lets +onlyGivenNames x; revert x; intro y)
  | (with_reducible refine keeps_send ?_ ?_ ..; rotate_left; (first | rfl | decide))
  | (with_reducible refine keeps_updMgmt ?_ ?_ ..; rotate_left; (first | rfl | decide))
  | with_reducible refine Keeps.foldl ?_ (fun v e => ?_)
  | with_reducible refine Keeps.ite ?_ ?_
  | split
  | exact Keeps.upd (by with_reducible assumption)
  | exact Keeps.upd (Keeps.refl _ _)
  | (clear_value *; split)

theorem keeps_updHost {L : Nat} {s u : State} (h : Keeps L s u) (hm : 0x1000000 &&& L = 0x1000000) {a1 a2} : Keeps L s (State.updHost u a1 a2) := by
  refine h.step (m := 0x1000000) ?_ hm
  unfold State.updHost
  repeat' first
  | with_reducible assumption
  | with_reducible exact Keeps.refl _ _
  | (extract_lets +onlyGivenNames x; refine Keeps.cut x ?_ (fun hx => ?_); rotate_left; rename State => z; rotate_right; unfold x; clear x)
  | (extract_lets +onlyGivenNames x; revert x; intro y)
  | with_reducible refine Keeps.foldl ?_ (fun v e => ?_)
  | with_reducible refine Keeps.ite ?_ ?_
  | split
  | exact Keeps.upd (by with_reducible assumption)
  | exact Keeps.upd (Keeps.refl _ _)
  | (clear_value *; split)

theorem keeps_toHost {L : Nat} {s u : State} (h : Keeps L s u) (hm : 0x401000080 &&& L = 0x401000080) {a0 a1} : Keeps L s (State.toHost a0 a1 u) := by
  refine h.step (m := 0x401000080) ?_ hm
  unfold State.toHost
  repeat' first
  | with_reducible assumption
  | with_reducible exact Keeps.refl _ _
  | (extract_lets +onlyGivenNames x; refine Keeps.cut x ?_ (fun hx => ?_); rotate_left; rename State => z; rotate_right; unfold x; clear x)
  | (extract_lets +onlyGivenNames x; revert x; intro y)
  | (with_reducible refine keeps_send ?_ ?_ ..; rotate_left; (first | rfl | decide))
  | (with_reducible refine keeps_updHost ?_ ?_ ..; rotate_left; (first | rfl | decide))
  | with_reducible refine Keeps.foldl ?_ (fun v e => ?_)
  | with_reducible refine Keeps.ite ?_ ?_
  | split
  | exact Keeps.upd (by with_reducible assumption)
  | exact Keeps.upd (Keeps.refl _ _)
  | (clear_value *; split)

theorem keeps_event {L : Nat} {s u : State} (h : Keeps L s u) (hm : 0x421000084 &&& L = 0x421000084) {a1 a2 a3 a4 a5} : Keeps L s (State.event u a1 a2 a3 a4 a5) := by
  refine h.step (m := 0x421000084) ?_ hm
  unfold State.event
  repeat' first
  | with_reducible assumption
  | with_reducible exact Keeps.refl _ _
  | (extract_lets +onlyGivenNames x; refine Keeps.cut x ?_ (fun hx => ?_); rotate_left; rename State => z; rotate_right; unfold x; clear x)
  | (extract_lets +onlyGivenNames x; revert x; intro y)
  | (with_reducible refine keeps_logEvent ?_ ?_ ..; rotate_left; (first | rfl | decide))
  | (with_reducible refine keeps_toMgmt ?_ ?_ ..; rotate_left; (first | rfl | decide))
  | (with_reducible refine keeps_toHost ?_ ?_ ..; rotate_left; (first | rfl | decide))
  | with_reducible refine Keeps.foldl ?_ (fun v e => ?_)
  | with_reducible refine Keeps.ite ?_ ?_
  | split
  | exact Keeps.upd (by with_reducible assumption)
  | exact Keeps.upd (Keeps.refl _ _)
  | (clear_value *; split)

theorem keeps_abandonStep {L : Nat} {s u : State} (h : Keeps L s u) (hm : 0x2000000 &&& L = 0x2000000) {a1} : Keeps L s (State.abandonStep u a1) := by
  refine h.step (m := 0x2000000) ?_ hm
  unfold State.abandonStep
  repeat' first
  | with_reducible assumption
  | with_reducible exact Keeps.refl _ _
  | (extract_lets +onlyGivenNames x; refine Keeps.cut x ?_ (fun hx => ?_); rotate_left; rename State => z; rotate_right; unfold x; clear x)
  | (extract_lets +onlyGivenNames x; revert x; intro y)
  | (with_reducible refine keeps_updCtx ?_ ?_ ..; rotate_left; (first | rfl | decide))
  | with_reducible refine Keeps.foldl ?_ (fun v e => ?_)
  | with_reducible refine Keeps.ite ?_ ?_
  | split
  | exact Keeps.upd (by with_reducible assumption)
  | exact Keeps.upd (Keeps.refl _ _)
  | (clear_value *; split)

theorem keeps_hold {L : Nat} {s u : State} (h : Keeps L s u) (hm : 0x800000 &&& L = 0x800000) {a1 a2} : Keeps L s (State.hold u a1 a2) := by
  refine h.step (m := 0x800000) ?_ hm
  unfold State.hold
  repeat' first
  | with_reducible assumption
  | with_reducible exact Keeps.refl _ _
  | (extract_lets +onlyGivenNames x; refine Keeps.cut x ?_ (fun hx => ?_); rotate_left; rename State => z; rotate_right; unfold x; clear x)
  | (extract_lets +onlyGivenNames x; revert x; intro y)
  | with_reducible refine Keeps.foldl ?_ (fun v e => ?_)
  | with_reducible refine Keeps.ite ?_ ?_
  | split
  | exact Keeps.upd (by with_reducible assumption)
  | exact Keeps.upd (Keeps.refl _ _)
  | (clear_value *; split)

theorem keeps_accept {L : Nat} {s u : State} (h : Keeps L s u) (hm : 0x800000 &&& L = 0x800000) {a1 a2 a3 a4 a5} : Keeps L s (State.accept u a1 a2 a3 a4 a5) := by
  refine h.step (m := 0x800000) ?_ hm
  unfold State.accept
  repeat' first
  | with_reducible assumption
  | with_reducible exact Keeps.refl _ _
  | (extract_lets +onlyGivenNames x; refine Keeps.cut x ?_ (fun hx => ?_); rotate_left; rename State => z; rotate_right; unfold x; clear x)
  | (extract_lets +onlyGivenNames x; revert x; intro y)
  | (with_reducible refine keeps_hold ?_ ?_ ..; rotate_left; (first | rfl | decide))
  | with_reducible refine Keeps.foldl ?_ (fun v e => ?_)
  | with_reducible refine Keeps.ite ?_ ?_
  | split
  | exact Keeps.upd (by with_reducible assumption)
  | exact Keeps.upd (Keeps.refl _ _)
  | (clear_value *; split)

theorem keeps_eventOpen {L : Nat} {s u : State} (h : Keeps L s u) (hm : 0xC21000084 &&& L = 0xC21000084) {a1 a2 a3} : Keeps L s (State.eventOpen u a1 a2 a3) := by
  refine h.step (m := 0xC21000084) ?_ hm
  unfold State.eventOpen
  repeat' first
  | with_reducible assumption
  | with_reducible exact Keeps.refl _ _
  | (extract_lets +onlyGivenNames x; refine Keeps.cut x ?_ (fun hx => ?_); rotate_left; rename State => z; rotate_right; unfold x; clear x)
  | (extract_lets +onlyGivenNames x; revert x; intro y)
  | (with_reducible refine keeps_event ?_ ?_ ..; rotate_left; (first | rfl | decide))
  | (with_reducible refine Keeps.drawn ?_ ?_; rotate_left; (first | rfl | decide))
  | with_reducible refine Keeps.foldl ?_ (fun v e => ?_)
  | with_reducible refine Keeps.ite ?_ ?_
  | split
  | exact Keeps.upd (by with_reducible assumption)
  | exact Keeps.upd (Keeps.refl _ _)
  | (clear_value *; split)

theorem keeps_updCore {L : Nat} {s u : State} (h : Keeps L s u) (hm : 0x8000000 &&& L = 0x8000000) {a1 a2} : Keeps L s (State.updCore u a1 a2) := by
  refine h.step (m := 0x8000000) ?_ hm
  unfold State.updCore
  repeat' first
  | with_reducible assumption
  | with_reducible exact Keeps.refl _ _
  | (extract_lets +onlyGivenNames x; refine Keeps.cut x ?_ (fun hx => ?_); rotate_left; rename State => z; rotate_right; unfold x; clear x)
  | (extract_lets +onlyGivenNames x; revert x; intro y)
  | (with_reducible refine Keeps.setCore ?_ ?_; rotate_left; (first | rfl | decide))
  | with_reducible refine Keeps.foldl ?_ (fun v e => ?_)
  | with_reducible refine Keeps.ite ?_ ?_
  | split
  | exact Keeps.upd (by with_reducible assumption)
  | exact Keeps.upd (Keeps.refl _ _)
  | (clear_value *; split)

theorem keeps_updBatt {L : Nat} {s u : State} (h : Keeps L s u) (hm : 0x4000000 &&& L = 0x4000000) {a1 a2} : Keeps L s (State.updBatt u a1 a2) := by
  refine h.step (m := 0x4000000) ?_ hm
  unfold State.updBatt
  repeat' first
  | with_reducible assumption
  | with_reducible exact Keeps.refl _ _
  | (extract_lets +onlyGivenNames x; refine Keeps.cut x ?_ (fun hx => ?_); rotate_left; rename State => z; rotate_right; unfold x; clear x)
  | (extract_lets +onlyGivenNames x; revert x; intro y)
  | (with_reducible refine Keeps.setBatt ?_ ?_; rotate_left; (first | rfl | decide))
  | with_reducible refine Keeps.foldl ?_ (fun v e => ?_)
  | with_reducible refine Keeps.ite ?_ ?_
  | split
  | exact Keeps.upd (by with_reducible assumption)
  | exact Keeps.upd (Keeps.refl _ _)
  | (clear_value *; split)

theorem keeps_eventD0 {L : Nat} {s u : State} (h : Keeps L s u) (hm : 0xC21000084 &&& L = 0xC21000084) {a1 a2 a3 a4} : Keeps L s (State.eventD0 u a1 a2 a3 a4) := by
  refine h.step (m := 0xC21000084) ?_ hm
  unfold State.eventD0
  repeat' first
  | with_reducible assumption
  | with_reducible exact Keeps.refl _ _
  | (extract_lets +onlyGivenNames x; refine Keeps.cut x ?_ (fun hx => ?_); rotate_left; rename State => z; rotate_right; unfold x; clear x)
  | (extract_lets +onlyGivenNames x; revert x; intro y)
  | (with_reducible refine keeps_event ?_ ?_ ..; rotate_left; (first | rfl | decide))
  | (with_reducible refine Keeps.drawn ?_ ?_; rotate_left; (first | rfl | decide))
  | with_reducible refine Keeps.foldl ?_ (fun v e => ?_)
  | with_reducible refine Keeps.ite ?_ ?_
  | split
  | exact Keeps.upd (by with_reducible assumption)
  | exact Keeps.upd (Keeps.refl _ _)
  | (clear_value *; split)

theorem keeps_updLink {L : Nat} {s u : State} (h : Keeps L s u) (hm : 0x10000000 &&& L = 0x10000000) {a1 a2} : Keeps L s (State.updLink u a1 a2) := by
  refine h.step (m := 0x10000000) ?_ hm
  unfold State.updLink
  repeat' first
  | with_reducible assumption
  | with_reducible exact Keeps.refl _ _
  | (extract_lets +onlyGivenNames x; refine Keeps.cut x ?_ (fun hx => ?_); rotate_left; rename State => z; rotate_right; unfold x; clear x)
  | (extract_lets +onlyGivenNames x; revert x; intro y)
  | with_reducible refine Keeps.foldl ?_ (fun v e => ?_)
  | with_reducible refine Keeps.ite ?_ ?_
  | split
  | exact Keeps.upd (by with_reducible assumption)
  | exact Keeps.upd (Keeps.refl _ _)
  | (clear_value *; split)

theorem keeps_holdResult {L : Nat} {s u : State} (h : Keeps L s u) (hm : 0x800000 &&& L = 0x800000) {a1 a2} : Keeps L s (State.holdResult u a1 a2) := by
  refine h.step (m := 0x800000) ?_ hm
  unfold State.holdResult
  repeat' first
  | with_reducible assumption
  | with_reducible exact Keeps.refl _ _
  | (extract_lets +onlyGivenNames x; refine Keeps.cut x ?_ (fun hx => ?_); rotate_left; rename State => z; rotate_right; unfold x; clear x)
  | (extract_lets +onlyGivenNames x; revert x; intro y)
  | with_reducible refine Keeps.foldl ?_ (fun v e => ?_)
  | with_reducible refine Keeps.ite ?_ ?_
  | split
  | exact Keeps.upd (by with_reducible assumption)
  | exact Keeps.upd (Keeps.refl _ _)
  | (clear_value *; split)

theorem keeps_faultCtx {L : Nat} {s u : State} (h : Keeps L s u) (hm : 0x2000000 &&& L = 0x2000000) {a1 a2} : Keeps L s (State.faultCtx u a1 a2) := by
  refine h.step (m := 0x2000000) ?_ hm
  unfold State.faultCtx
  repeat' first
  | with_reducible assumption
  | with_reducible exact Keeps.refl _ _
  | (extract_lets +onlyGivenNames x; refine Keeps.cut x ?_ (fun hx => ?_); rotate_left; rename State => z; rotate_right; unfold x; clear x)
  | (extract_lets +onlyGivenNames x; revert x; intro y)
  | (with_reducible refine keeps_updCtx ?_ ?_ ..; rotate_left; (first | rfl | decide))
  | with_reducible refine Keeps.foldl ?_ (fun v e => ?_)
  | with_reducible refine Keeps.ite ?_ ?_
  | split
  | exact Keeps.upd (by with_reducible assumption)
  | exact Keeps.upd (Keeps.refl _ _)
  | (clear_value *; split)

theorem keeps_clearAtTick {L : Nat} {s u : State} (h : Keeps L s u) (hm : 0x80000 &&& L = 0x80000) {a1 a2} : Keeps L s (State.clearAtTick u a1 a2) := by
  refine h.step (m := 0x80000) ?_ hm
  unfold State.clearAtTick
  repeat' first
  | with_reducible assumption
  | with_reducible exact Keeps.refl _ _
  | (extract_lets +onlyGivenNames x; refine Keeps.cut x ?_ (fun hx => ?_); rotate_left; rename State => z; rotate_right; unfold x; clear x)
  | (extract_lets +onlyGivenNames x; revert x; intro y)
  | with_reducible refine Keeps.foldl ?_ (fun v e => ?_)
  | with_reducible refine Keeps.ite ?_ ?_
  | split
  | exact Keeps.upd (by with_reducible assumption)
  | exact Keeps.upd (Keeps.refl _ _)
  | (clear_value *; split)

theorem keeps_enter {L : Nat} {s u : State} (h : Keeps L s u) (hm : 0x2000 &&& L = 0x2000) {a1 a2} : Keeps L s (State.enter u a1 a2) := by
  refine h.step (m := 0x2000) ?_ hm
  unfold State.enter
  repeat' first
  | with_reducible assumption
  | with_reducible exact Keeps.refl _ _
  | (extract_lets +onlyGivenNames x; refine Keeps.cut x ?_ (fun hx => ?_); rotate_left; rename State => z; rotate_right; unfold x; clear x)
  | (extract_lets +onlyGivenNames x; revert x; intro y)
  | (with_reducible refine Keeps.put ?_ ?_ ?_; rotate_left; (first | rfl | decide); (first | rfl | decide))
  | with_reducible refine Keeps.foldl ?_ (fun v e => ?_)
  | with_reducible refine Keeps.ite ?_ ?_
  | split
  | exact Keeps.upd (by with_reducible assumption)
  | exact Keeps.upd (Keeps.refl _ _)
  | (clear_value *; split)

theorem keeps_enterLoading {L : Nat} {s u : State} (h : Keeps L s u) (hm : 0x1006000 &&& L = 0x1006000) {a1 a2} : Keeps L s (State.enterLoading u a1 a2) := by
  refine h.step (m := 0x1006000) ?_ hm
  unfold State.enterLoading
  repeat' first
  | with_reducible assumption
  | with_reducible exact Keeps.refl _ _
  | (extract_lets +onlyGivenNames x; refine Keeps.cut x ?_ (fun hx => ?_); rotate_left; rename State => z; rotate_right; unfold x; clear x)
  | (extract_lets +onlyGivenNames x; revert x; intro y)
  | (with_reducible refine Keeps.bump ?_ ?_ ?_; rotate_left; (first | rfl | decide); (first | rfl | decide))
  | (with_reducible refine keeps_enter ?_ ?_ ..; rotate_left; (first | rfl | decide))
  | (with_reducible refine Keeps.put ?_ ?_ ?_; rotate_left; (first | rfl | decide); (first | rfl | decide))
  | (with_reducible refine keeps_updHost ?_ ?_ ..; rotate_left; (first | rfl | decide))
  | with_reducible refine Keeps.foldl ?_ (fun v e => ?_)
  | with_reducible refine Keeps.ite ?_ ?_
  | split
  | exact Keeps.upd (by with_reducible assumption)
  | exact Keeps.upd (Keeps.refl _ _)
  | (clear_value *; split)

theorem keeps_updLayer {L : Nat} {s u : State} (h : Keeps L s u) (hm : 0x2000000 &&& L = 0x2000000) {a1 a2 a3} : Keeps L s (State.updLayer u a1 a2 a3) := by
  refine h.step (m := 0x2000000) ?_ hm
  unfold State.updLayer
  repeat' first
  | with_reducible assumption
  | with_reducible exact Keeps.refl _ _
  | (extract_lets +onlyGivenNames x; refine Keeps.cut x ?_ (fun hx => ?_); rotate_left; rename State => z; rotate_right; unfold x; clear x)
  | (extract_lets +onlyGivenNames x; revert x; intro y)
  | (with_reducible refine keeps_updCtx ?_ ?_ ..; rotate_left; (first | rfl | decide))
  | with_reducible refine Keeps.foldl ?_ (fun v e => ?_)
  | with_reducible refine Keeps.ite ?_ ?_
  | split
  | exact Keeps.upd (by with_reducible assumption)
  | exact Keeps.upd (Keeps.refl _ _)
  | (clear_value *; split)

theorem keeps_rebase {L : Nat} {s u : State} (h : Keeps L s u) (hm : 0x2000000 &&& L = 0x2000000) {a1} : Keeps L s (State.rebase u a1) := by
  refine h.step (m := 0x2000000) ?_ hm
  unfold State.rebase
  repeat' first
  | with_reducible assumption
  | with_reducible exact Keeps.refl _ _
  | (extract_lets +onlyGivenNames x; refine Keeps.cut x ?_ (fun hx => ?_); rotate_left; rename State => z; rotate_right; unfold x; clear x)
  | (extract_lets +onlyGivenNames x; revert x; intro y)
  | (with_reducible refine keeps_updCtx ?_ ?_ ..; rotate_left; (first | rfl | decide))
  | with_reducible refine Keeps.foldl ?_ (fun v e => ?_)
  | with_reducible refine Keeps.ite ?_ ?_
  | split
  | exact Keeps.upd (by with_reducible assumption)
  | exact Keeps.upd (Keeps.refl _ _)
  | (clear_value *; split)

theorem keeps_rebaseAll {L : Nat} {s u : State} (h : Keeps L s u) (hm : 0x2000000 &&& L = 0x2000000)  : Keeps L s (State.rebaseAll u) := by
  refine h.step (m := 0x2000000) ?_ hm
  unfold State.rebaseAll
  repeat' first
  | with_reducible assumption
  | with_reducible exact Keeps.refl _ _
  | (extract_lets +onlyGivenNames x; refine Keeps.cut x ?_ (fun hx => ?_); rotate_left; rename State => z; rotate_right; unfold x; clear x)
  | (extract_lets +onlyGivenNames x; revert x; intro y)
  | (with_reducible refine keeps_rebase ?_ ?_ ..; rotate_left; (first | rfl | decide))
  | with_reducible refine Keeps.foldl ?_ (fun v e => ?_)
  | with_reducible refine Keeps.ite ?_ ?_
  | split
  | exact Keeps.upd (by with_reducible assumption)
  | exact Keeps.upd (Keeps.refl _ _)
  | (clear_value *; split)

theorem keeps_reject {L : Nat} {s u : State} (h : Keeps L s u) (hm : 0x400000080 &&& L = 0x400000080) {a1 a2 a3} : Keeps L s (State.reject u a1 a2 a3) := by
  refine h.step (m := 0x400000080) ?_ hm
  unfold State.reject
  repeat' first
  | with_reducible assumption
  | with_reducible exact Keeps.refl _ _
  | (extract_lets +onlyGivenNames x; refine Keeps.cut x ?_ (fun hx => ?_); rotate_left; rename State => z; rotate_right; unfold x; clear x)
  | (extract_lets +onlyGivenNames x; revert x; intro y)
  | (with_reducible refine keeps_send ?_ ?_ ..; rotate_left; (first | rfl | decide))
  | with_reducible refine Keeps.foldl ?_ (fun v e => ?_)
  | with_reducible refine Keeps.ite ?_ ?_
  | split
  | exact Keeps.upd (by with_reducible assumption)
  | exact Keeps.upd (Keeps.refl _ _)
  | (clear_value *; split)

theorem keeps_enterReady {L : Nat} {s u : State} (h : Keeps L s u) (hm : 0x2002000 &&& L = 0x2002000) {a1} : Keeps L s (State.enterReady u a1) := by
  refine h.step (m := 0x2002000) ?_ hm
  unfold State.enterReady
  repeat' first
  | with_reducible assumption
  | with_reducible exact Keeps.refl _ _
  | (extract_lets +onlyGivenNames x; refine Keeps.cut x ?_ (fun hx => ?_); rotate_left; rename State => z; rotate_right; unfold x; clear x)
  | (extract_lets +onlyGivenNames x; revert x; intro y)
  | (with_reducible refine keeps_updCtx ?_ ?_ ..; rotate_left; (first | rfl | decide))
  | (with_reducible refine Keeps.put ?_ ?_ ?_; rotate_left; (first | rfl | decide); (first | rfl | decide))
  | (with_reducible refine keeps_enter ?_ ?_ ..; rotate_left; (first | rfl | decide))
  | with_reducible refine Keeps.foldl ?_ (fun v e => ?_)
  | with_reducible refine Keeps.ite ?_ ?_
  | split
  | exact Keeps.upd (by with_reducible assumption)
  | exact Keeps.upd (Keeps.refl _ _)
  | (clear_value *; split)

theorem keeps_sendAll {L : Nat} {s u : State} (h : Keeps L s u) (hm : 0x400000080 &&& L = 0x400000080) {a1} : Keeps L s (State.sendAll u a1) := by
  refine h.step (m := 0x400000080) ?_ hm
  unfold State.sendAll
  repeat' first
  | with_reducible assumption
  | with_reducible exact Keeps.refl _ _
  | (extract_lets +onlyGivenNames x; refine Keeps.cut x ?_ (fun hx => ?_); rotate_left; rename State => z; rotate_right; unfold x; clear x)
  | (extract_lets +onlyGivenNames x; revert x; intro y)
  | (with_reducible refine keeps_send ?_ ?_ ..; rotate_left; (first | rfl | decide))
  | with_reducible refine Keeps.foldl ?_ (fun v e => ?_)
  | with_reducible refine Keeps.ite ?_ ?_
  | split
  | exact Keeps.upd (by with_reducible assumption)
  | exact Keeps.upd (Keeps.refl _ _)
  | (clear_value *; split)

theorem keeps_flushTail {L : Nat} {s u : State} (h : Keeps L s u) (hm : 0x400800080 &&& L = 0x400800080)  : Keeps L s (State.flushTail u) := by
  refine h.step (m := 0x400800080) ?_ hm
  unfold State.flushTail
  repeat' first
  | with_reducible assumption
  | with_reducible exact Keeps.refl _ _
  | (extract_lets +onlyGivenNames x; refine Keeps.cut x ?_ (fun hx => ?_); rotate_left; rename State => z; rotate_right; unfold x; clear x)
  | (extract_lets +onlyGivenNames x; revert x; intro y)
  | (with_reducible refine keeps_sendAll ?_ ?_ ..; rotate_left; (first | rfl | decide))
  | with_reducible refine Keeps.foldl ?_ (fun v e => ?_)
  | with_reducible refine Keeps.ite ?_ ?_
  | split
  | exact Keeps.upd (by with_reducible assumption)
  | exact Keeps.upd (Keeps.refl _ _)
  | (clear_value *; split)

theorem keeps_releaseQueries {L : Nat} {s u : State} (h : Keeps L s u) (hm : 0x800000 &&& L = 0x800000) {a1} : Keeps L s (State.releaseQueries u a1) := by
  refine h.step (m := 0x800000) ?_ hm
  unfold State.releaseQueries
  repeat' first
  | with_reducible assumption
  | with_reducible exact Keeps.refl _ _
  | (extract_lets +onlyGivenNames x; refine Keeps.cut x ?_ (fun hx => ?_); rotate_left; rename State => z; rotate_right; unfold x; clear x)
  | (extract_lets +onlyGivenNames x; revert x; intro y)
  | (with_reducible refine keeps_holdResult ?_ ?_ ..; rotate_left; (first | rfl | decide))
  | with_reducible refine Keeps.foldl ?_ (fun v e => ?_)
  | with_reducible refine Keeps.ite ?_ ?_
  | split
  | exact Keeps.upd (by with_reducible assumption)
  | exact Keeps.upd (Keeps.refl _ _)
  | (clear_value *; split)

end Sys2Proof.Machine
end

