-- ==== Sys2Proof/Laws/KeepsFlags.lean ====
section
/-!
SUPPORT. Laws/KeepsFlags.lean: what each operation of Machine/Flags.lean leaves as it was (Laws/Keeps.lean).
-/
namespace Sys2Proof.Machine
set_option Elab.async false
set_option linter.unusedTactic false
set_option linter.unreachableTactic false

theorem keeps_failTest {L : Nat} {s u : State} (h : Keeps L s u) (hm : 0x8000400 &&& L = 0x8000400) {a1} : Keeps L s (State.failTest u a1) := by
  refine h.step (m := 0x8000400) ?_ hm
  unfold State.failTest
  repeat' first
  | with_reducible assumption
  | with_reducible exact Keeps.refl _ _
  | (extract_lets +onlyGivenNames x; refine Keeps.cut x ?_ (fun hx => ?_); rotate_left; rename State => z; rotate_right; unfold x; clear x)
  | (extract_lets +onlyGivenNames x; revert x; intro y)
  | (with_reducible refine Keeps.bumpSat ?_ ?_ ?_; rotate_left; (first | rfl | decide); (first | rfl | decide))
  | (with_reducible refine keeps_updCore ?_ ?_ ..; rotate_left; (first | rfl | decide))
  | with_reducible refine Keeps.foldl ?_ (fun v e => ?_)
  | with_reducible refine Keeps.ite ?_ ?_
  | split
  | exact Keeps.upd (by with_reducible assumption)
  | exact Keeps.upd (Keeps.refl _ _)
  | (clear_value *; split)

theorem keeps_staleSignal {L : Nat} {s u : State} (h : Keeps L s u) (hm : 0x42000 &&& L = 0x42000) {a1 a2} : Keeps L s (State.staleSignal u a1 a2) := by
  refine h.step (m := 0x42000) ?_ hm
  unfold State.staleSignal
  repeat' first
  | with_reducible assumption
  | with_reducible exact Keeps.refl _ _
  | (extract_lets +onlyGivenNames x; refine Keeps.cut x ?_ (fun hx => ?_); rotate_left; rename State => z; rotate_right; unfold x; clear x)
  | (extract_lets +onlyGivenNames x; revert x; intro y)
  | (with_reducible refine Keeps.raise ?_ ?_ ?_ ?_; rotate_left; (first | rfl | decide); (first | rfl | decide); (first | rfl | decide))
  | (with_reducible refine Keeps.bump ?_ ?_ ?_; rotate_left; (first | rfl | decide); (first | rfl | decide))
  | with_reducible refine Keeps.foldl ?_ (fun v e => ?_)
  | with_reducible refine Keeps.ite ?_ ?_
  | split
  | exact Keeps.upd (by with_reducible assumption)
  | exact Keeps.upd (Keeps.refl _ _)
  | (clear_value *; split)

theorem keeps_staleData {L : Nat} {s u : State} (h : Keeps L s u) (hm : 0x42000 &&& L = 0x42000) {a1 a2} : Keeps L s (State.staleData u a1 a2) := by
  refine h.step (m := 0x42000) ?_ hm
  unfold State.staleData
  repeat' first
  | with_reducible assumption
  | with_reducible exact Keeps.refl _ _
  | (extract_lets +onlyGivenNames x; refine Keeps.cut x ?_ (fun hx => ?_); rotate_left; rename State => z; rotate_right; unfold x; clear x)
  | (extract_lets +onlyGivenNames x; revert x; intro y)
  | (with_reducible refine Keeps.raise ?_ ?_ ?_ ?_; rotate_left; (first | rfl | decide); (first | rfl | decide); (first | rfl | decide))
  | (with_reducible refine Keeps.bump ?_ ?_ ?_; rotate_left; (first | rfl | decide); (first | rfl | decide))
  | with_reducible refine Keeps.foldl ?_ (fun v e => ?_)
  | with_reducible refine Keeps.ite ?_ ?_
  | split
  | exact Keeps.upd (by with_reducible assumption)
  | exact Keeps.upd (Keeps.refl _ _)
  | (clear_value *; split)

theorem keeps_trace {L : Nat} {s u : State} (h : Keeps L s u) (hm : 0x900000000 &&& L = 0x900000000) {a1 a2 a3 a4} : Keeps L s (State.trace u a1 a2 a3 a4) := by
  refine h.step (m := 0x900000000) ?_ hm
  unfold State.trace
  repeat' first
  | with_reducible assumption
  | with_reducible exact Keeps.refl _ _
  | (extract_lets +onlyGivenNames x; refine Keeps.cut x ?_ (fun hx => ?_); rotate_left; rename State => z; rotate_right; unfold x; clear x)
  | (extract_lets +onlyGivenNames x; revert x; intro y)
  | (with_reducible refine Keeps.drawn ?_ ?_; rotate_left; (first | rfl | decide))
  | with_reducible refine Keeps.foldl ?_ (fun v e => ?_)
  | with_reducible refine Keeps.ite ?_ ?_
  | split
  | exact Keeps.upd (by with_reducible assumption)
  | exact Keeps.upd (Keeps.refl _ _)
  | (clear_value *; split)

theorem keeps_observe {L : Nat} {s u : State} (h : Keeps L s u) (hm : 0x8000400 &&& L = 0x8000400) {a1} : Keeps L s (State.observe u a1) := by
  refine h.step (m := 0x8000400) ?_ hm
  unfold State.observe
  repeat' first
  | with_reducible assumption
  | with_reducible exact Keeps.refl _ _
  | (extract_lets +onlyGivenNames x; refine Keeps.cut x ?_ (fun hx => ?_); rotate_left; rename State => z; rotate_right; unfold x; clear x)
  | (extract_lets +onlyGivenNames x; revert x; intro y)
  | (with_reducible refine Keeps.put ?_ ?_ ?_; rotate_left; (first | rfl | decide); (first | rfl | decide))
  | (with_reducible refine keeps_updCore ?_ ?_ ..; rotate_left; (first | rfl | decide))
  | with_reducible refine Keeps.foldl ?_ (fun v e => ?_)
  | with_reducible refine Keeps.ite ?_ ?_
  | split
  | exact Keeps.upd (by with_reducible assumption)
  | exact Keeps.upd (Keeps.refl _ _)
  | (clear_value *; split)

theorem keeps_finding {L : Nat} {s u : State} (h : Keeps L s u) (hm : 0x429000484 &&& L = 0x429000484) {a1 a2 a3 a4 a5} : Keeps L s (State.finding u a1 a2 a3 a4 a5) := by
  refine h.step (m := 0x429000484) ?_ hm
  unfold State.finding
  repeat' first
  | with_reducible assumption
  | with_reducible exact Keeps.refl _ _
  | (extract_lets +onlyGivenNames x; refine Keeps.cut x ?_ (fun hx => ?_); rotate_left; rename State => z; rotate_right; unfold x; clear x)
  | (extract_lets +onlyGivenNames x; revert x; intro y)
  | (with_reducible refine Keeps.bump ?_ ?_ ?_; rotate_left; (first | rfl | decide); (first | rfl | decide))
  | (with_reducible refine keeps_observe ?_ ?_ ..; rotate_left; (first | rfl | decide))
  | (with_reducible refine keeps_failTest ?_ ?_ ..; rotate_left; (first | rfl | decide))
  | (with_reducible refine keeps_event ?_ ?_ ..; rotate_left; (first | rfl | decide))
  | with_reducible refine Keeps.foldl ?_ (fun v e => ?_)
  | with_reducible refine Keeps.ite ?_ ?_
  | split
  | exact Keeps.upd (by with_reducible assumption)
  | exact Keeps.upd (Keeps.refl _ _)
  | (clear_value *; split)

theorem keeps_schedTrace {L : Nat} {s u : State} (h : Keeps L s u) (hm : 0x900000000 &&& L = 0x900000000) {a1} : Keeps L s (State.schedTrace u a1) := by
  refine h.step (m := 0x900000000) ?_ hm
  unfold State.schedTrace
  repeat' first
  | with_reducible assumption
  | with_reducible exact Keeps.refl _ _
  | (extract_lets +onlyGivenNames x; refine Keeps.cut x ?_ (fun hx => ?_); rotate_left; rename State => z; rotate_right; unfold x; clear x)
  | (extract_lets +onlyGivenNames x; revert x; intro y)
  | (with_reducible refine keeps_trace ?_ ?_ ..; rotate_left; (first | rfl | decide))
  | (with_reducible refine Keeps.drawn ?_ ?_; rotate_left; (first | rfl | decide))
  | with_reducible refine Keeps.foldl ?_ (fun v e => ?_)
  | with_reducible refine Keeps.ite ?_ ?_
  | split
  | exact Keeps.upd (by with_reducible assumption)
  | exact Keeps.upd (Keeps.refl _ _)
  | (clear_value *; split)

theorem keeps_heard {L : Nat} {s u t : State} (h : Keeps L s u) (ht : Keeps L s t) {a1} : Keeps L s (State.heard u a1 t) :=
  Keeps.ite ht h

theorem keeps_laneFigure {L : Nat} {s u : State} (h : Keeps L s u) (hm : 0xC21040094 &&& L = 0xC21040094) {a1 a2} : Keeps L s (State.laneFigure u a1 a2) := by
  refine h.step (m := 0xC21040094) ?_ hm
  unfold State.laneFigure
  repeat' first
  | with_reducible assumption
  | with_reducible exact Keeps.refl _ _
  | (extract_lets +onlyGivenNames x; refine Keeps.cut x ?_ (fun hx => ?_); rotate_left; rename State => z; rotate_right; unfold x; clear x)
  | (extract_lets +onlyGivenNames x; revert x; intro y)
  | (with_reducible refine Keeps.put ?_ ?_ ?_; rotate_left; (first | rfl | decide); (first | rfl | decide))
  | (with_reducible refine keeps_eventOpen ?_ ?_ ..; rotate_left; (first | rfl | decide))
  | (with_reducible refine Keeps.raise ?_ ?_ ?_ ?_; rotate_left; (first | rfl | decide); (first | rfl | decide); (first | rfl | decide))
  | with_reducible refine Keeps.foldl ?_ (fun v e => ?_)
  | with_reducible refine Keeps.ite ?_ ?_
  | split
  | exact Keeps.upd (by with_reducible assumption)
  | exact Keeps.upd (Keeps.refl _ _)
  | (clear_value *; split)

theorem keeps_laneFigures {L : Nat} {s u : State} (h : Keeps L s u) (hm : 0xC21040094 &&& L = 0xC21040094) {a1 a2} : Keeps L s (State.laneFigures u a1 a2) := by
  refine h.step (m := 0xC21040094) ?_ hm
  unfold State.laneFigures
  repeat' first
  | with_reducible assumption
  | with_reducible exact Keeps.refl _ _
  | (extract_lets +onlyGivenNames x; refine Keeps.cut x ?_ (fun hx => ?_); rotate_left; rename State => z; rotate_right; unfold x; clear x)
  | (extract_lets +onlyGivenNames x; revert x; intro y)
  | (with_reducible refine keeps_laneFigure ?_ ?_ ..; rotate_left; (first | rfl | decide))
  | with_reducible refine Keeps.foldl ?_ (fun v e => ?_)
  | with_reducible refine Keeps.ite ?_ ?_
  | split
  | exact Keeps.upd (by with_reducible assumption)
  | exact Keeps.upd (Keeps.refl _ _)
  | (clear_value *; split)

end Sys2Proof.Machine
end

