-- ==== Sys2Proof/Laws/KeepsOperands.lean ====
section
/-!
SUPPORT. Laws/KeepsOperands.lean: what each operation of Machine/Operands.lean leaves as it was (Laws/Keeps.lean).
-/
namespace Sys2Proof.Machine
set_option Elab.async false
set_option linter.unusedTactic false
set_option linter.unreachableTactic false

theorem keeps_applyEntry {L : Nat} {s u : State} (h : Keeps L s u) (hm : 0x9FFFF &&& L = 0x9FFFF) {a1} : Keeps L s (State.applyEntry u a1) := by
  refine h.step (m := 0x9FFFF) ?_ hm
  unfold State.applyEntry
  repeat' first
  | with_reducible assumption
  | with_reducible exact Keeps.refl _ _
  | (extract_lets +onlyGivenNames x; refine Keeps.cut x ?_ (fun hx => ?_); rotate_left; rename State => z; rotate_right; unfold x; clear x)
  | (extract_lets +onlyGivenNames x; revert x; intro y)
  | (with_reducible refine Keeps.setReg ?_ ?_; rotate_left; (first | rfl | decide | exact testBit_blocks (by decide)))
  | (with_reducible refine keeps_clearAtTick ?_ ?_ ..; rotate_left; (first | rfl | decide))
  | with_reducible refine Keeps.foldl ?_ (fun v e => ?_)
  | with_reducible refine Keeps.ite ?_ ?_
  | split
  | exact Keeps.upd (by with_reducible assumption)
  | exact Keeps.upd (Keeps.refl _ _)
  | (clear_value *; split)

theorem keeps_dropReasm {L : Nat} {s u : State} (h : Keeps L s u) (hm : 0x1000000 &&& L = 0x1000000) {a1 a2 a3} : Keeps L s (State.dropReasm u a1 a2 a3) := by
  refine h.step (m := 0x1000000) ?_ hm
  unfold State.dropReasm
  repeat' first
  | with_reducible assumption
  | with_reducible exact Keeps.refl _ _
  | (extract_lets +onlyGivenNames x; refine Keeps.cut x ?_ (fun hx => ?_); rotate_left; rename State => z; rotate_right; unfold x; clear x)
  | (extract_lets +onlyGivenNames x; revert x; intro y)
  | with_reducible refine Keeps.foldl ?_ (fun v e => ?_)
  | with_reducible refine Keeps.ite ?_ ?_
  | split
  | exact Keeps.upd (by with_reducible assumption)
  | exact Keeps.upd (Keeps.refl _ _)
  | (clear_value *; split)

theorem keeps_arrive {L : Nat} {s u : State} (h : Keeps L s u) (hm : 0x1000000 &&& L = 0x1000000) {a1 a2} : Keeps L s (State.arrive u a1 a2) := by
  refine h.step (m := 0x1000000) ?_ hm
  unfold State.arrive
  repeat' first
  | with_reducible assumption
  | with_reducible exact Keeps.refl _ _
  | (extract_lets +onlyGivenNames x; refine Keeps.cut x ?_ (fun hx => ?_); rotate_left; rename State => z; rotate_right; unfold x; clear x)
  | (extract_lets +onlyGivenNames x; revert x; intro y)
  | (with_reducible refine keeps_dropReasm ?_ ?_ ..; rotate_left; (first | rfl | decide))
  | (with_reducible refine keeps_updMgmt ?_ ?_ ..; rotate_left; (first | rfl | decide))
  | (with_reducible refine keeps_updHost ?_ ?_ ..; rotate_left; (first | rfl | decide))
  | with_reducible refine Keeps.foldl ?_ (fun v e => ?_)
  | with_reducible refine Keeps.ite ?_ ?_
  | split
  | exact Keeps.upd (by with_reducible assumption)
  | exact Keeps.upd (Keeps.refl _ _)
  | (clear_value *; split)

theorem keeps_touchQuiet {L : Nat} {s u : State} (h : Keeps L s u) (hm : 0x1000000 &&& L = 0x1000000) {a1 a2 a3 a4} : Keeps L s (State.touchQuiet u a1 a2 a3 a4) := by
  refine h.step (m := 0x1000000) ?_ hm
  unfold State.touchQuiet
  repeat' first
  | with_reducible assumption
  | with_reducible exact Keeps.refl _ _
  | (extract_lets +onlyGivenNames x; refine Keeps.cut x ?_ (fun hx => ?_); rotate_left; rename State => z; rotate_right; unfold x; clear x)
  | (extract_lets +onlyGivenNames x; revert x; intro y)
  | with_reducible refine Keeps.foldl ?_ (fun v e => ?_)
  | with_reducible refine Keeps.ite ?_ ?_
  | split
  | exact Keeps.upd (by with_reducible assumption)
  | exact Keeps.upd (Keeps.refl _ _)
  | (clear_value *; split)

theorem keeps_withRequest {L : Nat} {s u : State} (h : Keeps L s u) (hm : 0x1000080 &&& L = 0x1000080) {a1 a2 a3} (hf : ∀ v, Keeps L v (a3 v)) :
    Keeps L s (State.withRequest u a1 a2 a3) := by
  unfold State.withRequest
  repeat' first
  | with_reducible assumption
  | with_reducible exact Keeps.refl _ _
  | (extract_lets +onlyGivenNames x; refine Keeps.cut x ?_ (fun hx => ?_); rotate_left; rename State => z; rotate_right; unfold x; clear x)
  | (extract_lets +onlyGivenNames x; revert x; intro y)
  | (with_reducible refine keeps_touchQuiet ?_ ?_ ..; rotate_left; (first | rfl | decide | exact sub_trans (by decide) hm | exact bit_of_sub hm (by decide)))
  | (with_reducible refine keeps_arrive ?_ ?_ ..; rotate_left; (first | rfl | decide | exact sub_trans (by decide) hm | exact bit_of_sub hm (by decide)))
  | (with_reducible refine Keeps.bump ?_ ?_ ?_; rotate_left; (first | rfl | decide | exact sub_trans (by decide) hm | exact bit_of_sub hm (by decide)); (first | rfl | decide | exact sub_trans (by decide) hm | exact bit_of_sub hm (by decide)))
  | with_reducible refine Keeps.foldl ?_ (fun v e => ?_)
  | with_reducible refine Keeps.ite ?_ ?_
  | with_reducible refine Keeps.trans ?_ (hf ..)
  | split
  | exact Keeps.upd (by with_reducible assumption)
  | exact Keeps.upd (Keeps.refl _ _)
  | (clear_value *; split)

theorem keeps_decide_ {L : Nat} {s u : State} (h : Keeps L s u) (hm : 0x400000080 &&& L = 0x400000080) {a1 a2 a3 a4} (hf : ∀ v, Keeps L v (a4 v)) :
    Keeps L s (State.decide_ u a1 a2 a3 a4) := by
  unfold State.decide_
  repeat' first
  | with_reducible assumption
  | with_reducible exact Keeps.refl _ _
  | (extract_lets +onlyGivenNames x; refine Keeps.cut x ?_ (fun hx => ?_); rotate_left; rename State => z; rotate_right; unfold x; clear x)
  | (extract_lets +onlyGivenNames x; revert x; intro y)
  | (with_reducible refine keeps_reject ?_ ?_ ..; rotate_left; (first | rfl | decide | exact sub_trans (by decide) hm | exact bit_of_sub hm (by decide)))
  | with_reducible refine Keeps.foldl ?_ (fun v e => ?_)
  | with_reducible refine Keeps.ite ?_ ?_
  | with_reducible refine Keeps.trans ?_ (hf ..)
  | split
  | exact Keeps.upd (by with_reducible assumption)
  | exact Keeps.upd (Keeps.refl _ _)
  | (clear_value *; split)

theorem keeps_queue2 {L : Nat} {s u : State} (h : Keeps L s u) (hm : 0x800000 &&& L = 0x800000)  : Keeps L s (State.queue2 u) := by
  refine h.step (m := 0x800000) ?_ hm
  unfold State.queue2
  repeat' first
  | with_reducible assumption
  | with_reducible exact Keeps.refl _ _
  | (extract_lets +onlyGivenNames x; refine Keeps.cut x ?_ (fun hx => ?_); rotate_left; rename State => z; rotate_right; unfold x; clear x)
  | (extract_lets +onlyGivenNames x; revert x; intro y)
  | with_reducible refine Keeps.foldl ?_ (fun v e => ?_)
  | with_reducible refine Keeps.ite ?_ ?_
  | split
  | exact Keeps.upd (by with_reducible assumption)
  | exact Keeps.upd (Keeps.refl _ _)
  | (clear_value *; split)

theorem keeps_commandWriteIf {L : Nat} {s u : State} (h : Keeps L s u) (hm : 0x401800080 &&& L = 0x401800080) {a1 a2 a3 a4} (hf : ∀ v, Keeps L v (a4 v)) :
    Keeps L s (State.commandWriteIf u a1 a2 a3 a4) := by
  unfold State.commandWriteIf
  repeat' first
  | with_reducible assumption
  | with_reducible exact Keeps.refl _ _
  | (extract_lets +onlyGivenNames x; refine Keeps.cut x ?_ (fun hx => ?_); rotate_left; rename State => z; rotate_right; unfold x; clear x)
  | (extract_lets +onlyGivenNames x; revert x; intro y)
  | (with_reducible refine keeps_withRequest ?_ ?_ (fun v => ?_); rotate_left; (first | rfl | decide | exact sub_trans (by decide) hm | exact bit_of_sub hm (by decide)); rotate_right)
  | (with_reducible refine keeps_decide_ ?_ ?_ (fun v => ?_); rotate_left; (first | rfl | decide | exact sub_trans (by decide) hm | exact bit_of_sub hm (by decide)); rotate_right)
  | (with_reducible refine keeps_accept ?_ ?_ ..; rotate_left; (first | rfl | decide | exact sub_trans (by decide) hm | exact bit_of_sub hm (by decide)))
  | (with_reducible refine keeps_queue2 ?_ ?_ ..; rotate_left; (first | rfl | decide | exact sub_trans (by decide) hm | exact bit_of_sub hm (by decide)))
  | with_reducible refine Keeps.foldl ?_ (fun v e => ?_)
  | with_reducible refine Keeps.ite ?_ ?_
  | with_reducible refine Keeps.trans ?_ (hf ..)
  | split
  | exact Keeps.upd (by with_reducible assumption)
  | exact Keeps.upd (Keeps.refl _ _)
  | (clear_value *; split)

theorem keeps_commandWrite {L : Nat} {s u : State} (h : Keeps L s u) (hm : 0x401800080 &&& L = 0x401800080) {a1 a2 a3} (hf : ∀ v, Keeps L v (a3 v)) :
    Keeps L s (State.commandWrite u a1 a2 a3) := by
  unfold State.commandWrite
  repeat' first
  | with_reducible assumption
  | with_reducible exact Keeps.refl _ _
  | (extract_lets +onlyGivenNames x; refine Keeps.cut x ?_ (fun hx => ?_); rotate_left; rename State => z; rotate_right; unfold x; clear x)
  | (extract_lets +onlyGivenNames x; revert x; intro y)
  | (with_reducible refine keeps_withRequest ?_ ?_ (fun v => ?_); rotate_left; (first | rfl | decide | exact sub_trans (by decide) hm | exact bit_of_sub hm (by decide)); rotate_right)
  | (with_reducible refine keeps_decide_ ?_ ?_ (fun v => ?_); rotate_left; (first | rfl | decide | exact sub_trans (by decide) hm | exact bit_of_sub hm (by decide)); rotate_right)
  | (with_reducible refine keeps_accept ?_ ?_ ..; rotate_left; (first | rfl | decide | exact sub_trans (by decide) hm | exact bit_of_sub hm (by decide)))
  | (with_reducible refine keeps_queue2 ?_ ?_ ..; rotate_left; (first | rfl | decide | exact sub_trans (by decide) hm | exact bit_of_sub hm (by decide)))
  | with_reducible refine Keeps.foldl ?_ (fun v e => ?_)
  | with_reducible refine Keeps.ite ?_ ?_
  | with_reducible refine Keeps.trans ?_ (hf ..)
  | split
  | exact Keeps.upd (by with_reducible assumption)
  | exact Keeps.upd (Keeps.refl _ _)
  | (clear_value *; split)

theorem keeps_queue1 {L : Nat} {s u : State} (h : Keeps L s u) (hm : 0x800000 &&& L = 0x800000)  : Keeps L s (State.queue1 u) := by
  refine h.step (m := 0x800000) ?_ hm
  unfold State.queue1
  repeat' first
  | with_reducible assumption
  | with_reducible exact Keeps.refl _ _
  | (extract_lets +onlyGivenNames x; refine Keeps.cut x ?_ (fun hx => ?_); rotate_left; rename State => z; rotate_right; unfold x; clear x)
  | (extract_lets +onlyGivenNames x; revert x; intro y)
  | with_reducible refine Keeps.foldl ?_ (fun v e => ?_)
  | with_reducible refine Keeps.ite ?_ ?_
  | split
  | exact Keeps.upd (by with_reducible assumption)
  | exact Keeps.upd (Keeps.refl _ _)
  | (clear_value *; split)

end Sys2Proof.Machine
end

