-- ==== Sys2Proof/Laws/KeepsLinks.lean ====
section
/-!
SUPPORT. Laws/KeepsLinks.lean: what each operation of Machine/Links.lean leaves as it was (Laws/Keeps.lean).
-/
namespace Sys2Proof.Machine
set_option Elab.async false
set_option linter.unusedTactic false
set_option linter.unreachableTactic false

theorem keeps_followParent {L : Nat} {s u : State} (h : Keeps L s u) (hm : 0x10000100 &&& L = 0x10000100)  : Keeps L s (State.followParent u) := by
  refine h.step (m := 0x10000100) ?_ hm
  unfold State.followParent
  repeat' first
  | with_reducible assumption
  | with_reducible exact Keeps.refl _ _
  | (extract_lets +onlyGivenNames x; refine Keeps.cut x ?_ (fun hx => ?_); rotate_left; rename State => z; rotate_right; unfold x; clear x)
  | (extract_lets +onlyGivenNames x; revert x; intro y)
  | (with_reducible refine Keeps.put ?_ ?_ ?_; rotate_left; (first | rfl | decide); (first | rfl | decide))
  | with_reducible refine Keeps.foldl ?_ (fun v e => ?_)
  | with_reducible refine Keeps.ite ?_ ?_
  | split
  | exact Keeps.upd (by with_reducible assumption)
  | exact Keeps.upd (Keeps.refl _ _)
  | (clear_value *; split)

theorem keeps_systemReady {L : Nat} {s u : State} (h : Keeps L s u) (hm : 0xC31000084 &&& L = 0xC31000084)  : Keeps L s (State.systemReady u) := by
  refine h.step (m := 0xC31000084) ?_ hm
  unfold State.systemReady
  repeat' first
  | with_reducible assumption
  | with_reducible exact Keeps.refl _ _
  | (extract_lets +onlyGivenNames x; refine Keeps.cut x ?_ (fun hx => ?_); rotate_left; rename State => z; rotate_right; unfold x; clear x)
  | (extract_lets +onlyGivenNames x; revert x; intro y)
  | (with_reducible refine keeps_eventOpen ?_ ?_ ..; rotate_left; (first | rfl | decide))
  | with_reducible refine Keeps.foldl ?_ (fun v e => ?_)
  | with_reducible refine Keeps.ite ?_ ?_
  | split
  | exact Keeps.upd (by with_reducible assumption)
  | exact Keeps.upd (Keeps.refl _ _)
  | (clear_value *; split)

theorem keeps_recordOn {L : Nat} {s u : State} (h : Keeps L s u) (hm : 0x400000100 &&& L = 0x400000100) {a1 a2 a3 a4 a5} : Keeps L s (State.recordOn u a1 a2 a3 a4 a5) := by
  refine h.step (m := 0x400000100) ?_ hm
  unfold State.recordOn
  repeat' first
  | with_reducible assumption
  | with_reducible exact Keeps.refl _ _
  | (extract_lets +onlyGivenNames x; refine Keeps.cut x ?_ (fun hx => ?_); rotate_left; rename State => z; rotate_right; unfold x; clear x)
  | (extract_lets +onlyGivenNames x; revert x; intro y)
  | (with_reducible refine Keeps.bump ?_ ?_ ?_; rotate_left; (first | rfl | decide); (first | rfl | decide))
  | with_reducible refine Keeps.foldl ?_ (fun v e => ?_)
  | with_reducible refine Keeps.ite ?_ ?_
  | split
  | exact Keeps.upd (by with_reducible assumption)
  | exact Keeps.upd (Keeps.refl _ _)
  | (clear_value *; split)

theorem keeps_record {L : Nat} {s u : State} (h : Keeps L s u) (hm : 0x400000100 &&& L = 0x400000100) {a1 a2 a3 a4} : Keeps L s (State.record u a1 a2 a3 a4) := by
  refine h.step (m := 0x400000100) ?_ hm
  unfold State.record
  repeat' first
  | with_reducible assumption
  | with_reducible exact Keeps.refl _ _
  | (extract_lets +onlyGivenNames x; refine Keeps.cut x ?_ (fun hx => ?_); rotate_left; rename State => z; rotate_right; unfold x; clear x)
  | (extract_lets +onlyGivenNames x; revert x; intro y)
  | (with_reducible refine keeps_recordOn ?_ ?_ ..; rotate_left; (first | rfl | decide))
  | with_reducible refine Keeps.foldl ?_ (fun v e => ?_)
  | with_reducible refine Keeps.ite ?_ ?_
  | split
  | exact Keeps.upd (by with_reducible assumption)
  | exact Keeps.upd (Keeps.refl _ _)
  | (clear_value *; split)

theorem keeps_systemTick {L : Nat} {s u : State} (h : Keeps L s u) (hm : 0xC31000184 &&& L = 0xC31000184)  : Keeps L s (State.systemTick u) := by
  refine h.step (m := 0xC31000184) ?_ hm
  unfold State.systemTick
  repeat' first
  | with_reducible assumption
  | with_reducible exact Keeps.refl _ _
  | (extract_lets +onlyGivenNames x; refine Keeps.cut x ?_ (fun hx => ?_); rotate_left; rename State => z; rotate_right; unfold x; clear x)
  | (extract_lets +onlyGivenNames x; revert x; intro y)
  | (with_reducible refine Keeps.put ?_ ?_ ?_; rotate_left; (first | rfl | decide); (first | rfl | decide))
  | (with_reducible refine keeps_eventOpen ?_ ?_ ..; rotate_left; (first | rfl | decide))
  | (with_reducible refine keeps_followParent ?_ ?_ ..; rotate_left; (first | rfl | decide))
  | (with_reducible refine keeps_systemReady ?_ ?_ ..; rotate_left; (first | rfl | decide))
  | (with_reducible refine keeps_record ?_ ?_ ..; rotate_left; (first | rfl | decide))
  | with_reducible refine Keeps.foldl ?_ (fun v e => ?_)
  | with_reducible refine Keeps.ite ?_ ?_
  | split
  | exact Keeps.upd (by with_reducible assumption)
  | exact Keeps.upd (Keeps.refl _ _)
  | (clear_value *; split)

theorem keeps_reportLostIn {L : Nat} {s u : State} (h : Keeps L s u) (hm : 0x402000100 &&& L = 0x402000100) {a1 a2} : Keeps L s (State.reportLostIn u a1 a2) := by
  refine h.step (m := 0x402000100) ?_ hm
  unfold State.reportLostIn
  repeat' first
  | with_reducible assumption
  | with_reducible exact Keeps.refl _ _
  | (extract_lets +onlyGivenNames x; refine Keeps.cut x ?_ (fun hx => ?_); rotate_left; rename State => z; rotate_right; unfold x; clear x)
  | (extract_lets +onlyGivenNames x; revert x; intro y)
  | (with_reducible refine keeps_record ?_ ?_ ..; rotate_left; (first | rfl | decide))
  | (with_reducible refine keeps_updCtx ?_ ?_ ..; rotate_left; (first | rfl | decide))
  | with_reducible refine Keeps.foldl ?_ (fun v e => ?_)
  | with_reducible refine Keeps.ite ?_ ?_
  | split
  | exact Keeps.upd (by with_reducible assumption)
  | exact Keeps.upd (Keeps.refl _ _)
  | (clear_value *; split)

theorem keeps_reportLost {L : Nat} {s u : State} (h : Keeps L s u) (hm : 0x402000100 &&& L = 0x402000100) {a1} : Keeps L s (State.reportLost u a1) := by
  refine h.step (m := 0x402000100) ?_ hm
  unfold State.reportLost
  repeat' first
  | with_reducible assumption
  | with_reducible exact Keeps.refl _ _
  | (extract_lets +onlyGivenNames x; refine Keeps.cut x ?_ (fun hx => ?_); rotate_left; rename State => z; rotate_right; unfold x; clear x)
  | (extract_lets +onlyGivenNames x; revert x; intro y)
  | (with_reducible refine keeps_reportLostIn ?_ ?_ ..; rotate_left; (first | rfl | decide))
  | with_reducible refine Keeps.foldl ?_ (fun v e => ?_)
  | with_reducible refine Keeps.ite ?_ ?_
  | split
  | exact Keeps.upd (by with_reducible assumption)
  | exact Keeps.upd (Keeps.refl _ _)
  | (clear_value *; split)

theorem keeps_leaveUp {L : Nat} {s u : State} (h : Keeps L s u) (hm : 0xC33040184 &&& L = 0xC33040184) {a1 a2 a3} : Keeps L s (State.leaveUp u a1 a2 a3) := by
  refine h.step (m := 0xC33040184) ?_ hm
  unfold State.leaveUp
  repeat' first
  | with_reducible assumption
  | with_reducible exact Keeps.refl _ _
  | (extract_lets +onlyGivenNames x; refine Keeps.cut x ?_ (fun hx => ?_); rotate_left; rename State => z; rotate_right; unfold x; clear x)
  | (extract_lets +onlyGivenNames x; revert x; intro y)
  | (with_reducible refine Keeps.put ?_ ?_ ?_; rotate_left; (first | rfl | decide); (first | rfl | decide))
  | (with_reducible refine Keeps.raise ?_ ?_ ?_ ?_; rotate_left; (first | rfl | decide); (first | rfl | decide); (first | rfl | decide))
  | (with_reducible refine keeps_updLink ?_ ?_ ..; rotate_left; (first | rfl | decide))
  | (with_reducible refine keeps_eventOpen ?_ ?_ ..; rotate_left; (first | rfl | decide))
  | (with_reducible refine keeps_reportLost ?_ ?_ ..; rotate_left; (first | rfl | decide))
  | with_reducible refine Keeps.foldl ?_ (fun v e => ?_)
  | with_reducible refine Keeps.ite ?_ ?_
  | split
  | exact Keeps.upd (by with_reducible assumption)
  | exact Keeps.upd (Keeps.refl _ _)
  | (clear_value *; split)

theorem keeps_linkCtrlTick {L : Nat} {s u : State} (h : Keeps L s u) (hm : 0xC33040184 &&& L = 0xC33040184)  : Keeps L s (State.linkCtrlTick u) := by
  refine h.step (m := 0xC33040184) ?_ hm
  unfold State.linkCtrlTick
  repeat' first
  | with_reducible assumption
  | with_reducible exact Keeps.refl _ _
  | (extract_lets +onlyGivenNames x; refine Keeps.cut x ?_ (fun hx => ?_); rotate_left; rename State => z; rotate_right; unfold x; clear x)
  | (extract_lets +onlyGivenNames x; revert x; intro y)
  | (with_reducible refine keeps_leaveUp ?_ ?_ ..; rotate_left; (first | rfl | decide))
  | (with_reducible refine Keeps.put ?_ ?_ ?_; rotate_left; (first | rfl | decide); (first | rfl | decide))
  | with_reducible refine Keeps.foldl ?_ (fun v e => ?_)
  | with_reducible refine Keeps.ite ?_ ?_
  | split
  | exact Keeps.upd (by with_reducible assumption)
  | exact Keeps.upd (Keeps.refl _ _)
  | (clear_value *; split)

theorem keeps_setUnaligned {L : Nat} {s u : State} (h : Keeps L s u) (hm : 0x101 &&& L = 0x101) {a1} : Keeps L s (State.setUnaligned u a1) := by
  refine h.step (m := 0x101) ?_ hm
  unfold State.setUnaligned
  repeat' first
  | with_reducible assumption
  | with_reducible exact Keeps.refl _ _
  | (extract_lets +onlyGivenNames x; refine Keeps.cut x ?_ (fun hx => ?_); rotate_left; rename State => z; rotate_right; unfold x; clear x)
  | (extract_lets +onlyGivenNames x; revert x; intro y)
  | (with_reducible refine Keeps.put ?_ ?_ ?_; rotate_left; (first | rfl | decide); (first | rfl | decide))
  | with_reducible refine Keeps.foldl ?_ (fun v e => ?_)
  | with_reducible refine Keeps.ite ?_ ?_
  | split
  | exact Keeps.upd (by with_reducible assumption)
  | exact Keeps.upd (Keeps.refl _ _)
  | (clear_value *; split)

theorem keeps_retrain {L : Nat} {s u : State} (h : Keeps L s u) (hm : 0x100 &&& L = 0x100) {a1} : Keeps L s (State.retrain u a1) := by
  refine h.step (m := 0x100) ?_ hm
  unfold State.retrain
  repeat' first
  | with_reducible assumption
  | with_reducible exact Keeps.refl _ _
  | (extract_lets +onlyGivenNames x; refine Keeps.cut x ?_ (fun hx => ?_); rotate_left; rename State => z; rotate_right; unfold x; clear x)
  | (extract_lets +onlyGivenNames x; revert x; intro y)
  | (with_reducible refine Keeps.put ?_ ?_ ?_; rotate_left; (first | rfl | decide); (first | rfl | decide))
  | with_reducible refine Keeps.foldl ?_ (fun v e => ?_)
  | with_reducible refine Keeps.ite ?_ ?_
  | split
  | exact Keeps.upd (by with_reducible assumption)
  | exact Keeps.upd (Keeps.refl _ _)
  | (clear_value *; split)

theorem keeps_unfence {L : Nat} {s u : State} (h : Keeps L s u) (hm : 0x100 &&& L = 0x100) {a1} : Keeps L s (State.unfence u a1) := by
  refine h.step (m := 0x100) ?_ hm
  unfold State.unfence
  repeat' first
  | with_reducible assumption
  | with_reducible exact Keeps.refl _ _
  | (extract_lets +onlyGivenNames x; refine Keeps.cut x ?_ (fun hx => ?_); rotate_left; rename State => z; rotate_right; unfold x; clear x)
  | (extract_lets +onlyGivenNames x; revert x; intro y)
  | (with_reducible refine Keeps.put ?_ ?_ ?_; rotate_left; (first | rfl | decide); (first | rfl | decide))
  | with_reducible refine Keeps.foldl ?_ (fun v e => ?_)
  | with_reducible refine Keeps.ite ?_ ?_
  | split
  | exact Keeps.upd (by with_reducible assumption)
  | exact Keeps.upd (Keeps.refl _ _)
  | (clear_value *; split)

theorem blockOf_stagedAddr (p a k : Nat) (hp : p < 2) (ha : a < 2) (hk : k < 12) : blockOf (State.stagedAddr p a k) = .regsEth := by
  have h : 0x8000 ≤ State.stagedAddr p a k ∧ State.stagedAddr p a k < 0x9000 := by unfold State.stagedAddr; omega
  have h1 := blockNo_mono h.1
  have h2 := blockNo_mono (show State.stagedAddr p a k ≤ 0x8FFF by omega)
  rw [show blockNo 0x8000 = 7 by decide] at h1
  rw [show blockNo 0x8FFF = 7 by decide] at h2
  unfold blockOf
  rw [show blockNo (State.stagedAddr p a k) = 7 by omega]
  rfl

theorem keeps_installAssoc {L : Nat} {s u : State} (h : Keeps L s u) (hm : 0x1000080 &&& L = 0x1000080) {p a} (hp : p < 2) (ha : a < 2) : Keeps L s (u.installAssoc p a) := by
  refine h.step (m := 0x1000080) ?_ hm
  unfold State.installAssoc
  have hc : ∀ (l : List Nat) (v : State), (∀ k ∈ l, k < 12) → Keeps 0x1000080 u v →
      Keeps 0x1000080 u (l.foldl (fun s k => s.setReg (State.stagedAddr p a k) 0) v) := by
    intro l
    induction l with
    | nil => exact fun v _ hv => hv
    | cons k r ih =>
      exact fun v hl hv => ih _ (fun j hj => hl j (.tail _ hj))
        (hv.setReg (by rw [blockOf_stagedAddr p a k hp ha (hl k (.head _))]; rfl))
  have h0 := hc (List.range 12) u (fun k hk => List.mem_range.mp hk) (Keeps.refl _ _)
  exact Keeps.ite (Keeps.upd h0) h0

theorem keeps_install_ {L : Nat} {s u : State} (h : Keeps L s u) (hm : 0x1000080 &&& L = 0x1000080) {p k} : Keeps L s (u.install_ p k) := by
  refine h.step (m := 0x1000080) ?_ hm
  have hp : p % 2 < 2 := Nat.mod_lt _ (by decide)
  unfold State.install_
  refine Keeps.ite ?_ ?_
  · exact keeps_installAssoc (Keeps.ite (keeps_installAssoc (Keeps.refl _ _) (by decide) hp (by decide)) (Keeps.refl _ _)) (by decide) hp (by decide)
  · exact Keeps.ite (keeps_installAssoc (Keeps.refl _ _) (by decide) hp (by decide)) (Keeps.refl _ _)

theorem keeps_fencePort {L : Nat} {s u : State} (h : Keeps L s u) (hm : 0x402000100 &&& L = 0x402000100) {a1} : Keeps L s (State.fencePort u a1) := by
  refine h.step (m := 0x402000100) ?_ hm
  unfold State.fencePort
  repeat' first
  | with_reducible assumption
  | with_reducible exact Keeps.refl _ _
  | (extract_lets +onlyGivenNames x; refine Keeps.cut x ?_ (fun hx => ?_); rotate_left; rename State => z; rotate_right; unfold x; clear x)
  | (extract_lets +onlyGivenNames x; revert x; intro y)
  | (with_reducible refine Keeps.put ?_ ?_ ?_; rotate_left; (first | rfl | decide); (first | rfl | decide))
  | (with_reducible refine keeps_reportLost ?_ ?_ ..; rotate_left; (first | rfl | decide))
  | with_reducible refine Keeps.foldl ?_ (fun v e => ?_)
  | with_reducible refine Keeps.ite ?_ ?_
  | split
  | exact Keeps.upd (by with_reducible assumption)
  | exact Keeps.upd (Keeps.refl _ _)
  | (clear_value *; split)

theorem keeps_authFail {L : Nat} {s u : State} (h : Keeps L s u) (hm : 0xC23040184 &&& L = 0xC23040184) {a1} : Keeps L s (State.authFail u a1) := by
  refine h.step (m := 0xC23040184) ?_ hm
  unfold State.authFail
  repeat' first
  | with_reducible assumption
  | with_reducible exact Keeps.refl _ _
  | (extract_lets +onlyGivenNames x; refine Keeps.cut x ?_ (fun hx => ?_); rotate_left; rename State => z; rotate_right; unfold x; clear x)
  | (extract_lets +onlyGivenNames x; revert x; intro y)
  | (with_reducible refine keeps_eventOpen ?_ ?_ ..; rotate_left; (first | rfl | decide))
  | (with_reducible refine Keeps.raise ?_ ?_ ?_ ?_; rotate_left; (first | rfl | decide); (first | rfl | decide); (first | rfl | decide))
  | (with_reducible refine keeps_fencePort ?_ ?_ ..; rotate_left; (first | rfl | decide))
  | with_reducible refine Keeps.foldl ?_ (fun v e => ?_)
  | with_reducible refine Keeps.ite ?_ ?_
  | split
  | exact Keeps.upd (by with_reducible assumption)
  | exact Keeps.upd (Keeps.refl _ _)
  | (clear_value *; split)

theorem keeps_discover {L : Nat} {s u : State} (h : Keeps L s u) (hm : 0x400000000 &&& L = 0x400000000) {a1 a2 a3} : Keeps L s (State.discover u a1 a2 a3) := by
  refine h.step (m := 0x400000000) ?_ hm
  unfold State.discover
  repeat' first
  | with_reducible assumption
  | with_reducible exact Keeps.refl _ _
  | (extract_lets +onlyGivenNames x; refine Keeps.cut x ?_ (fun hx => ?_); rotate_left; rename State => z; rotate_right; unfold x; clear x)
  | (extract_lets +onlyGivenNames x; revert x; intro y)
  | with_reducible refine Keeps.foldl ?_ (fun v e => ?_)
  | with_reducible refine Keeps.ite ?_ ?_
  | split
  | exact Keeps.upd (by with_reducible assumption)
  | exact Keeps.upd (Keeps.refl _ _)
  | (clear_value *; split)

theorem keeps_drain {L : Nat} {s u : State} (h : Keeps L s u) (hm : 0x410000000 &&& L = 0x410000000) {p n} : Keeps L s (u.drain p n) := by
  refine h.step (m := 0x410000000) ?_ hm
  clear h
  induction n generalizing u with
  | zero => exact Keeps.refl _ _
  | succ n ih =>
    unfold State.drain
    extract_lets q
    split
    · exact Keeps.refl _ _
    · extract_lets x w
      have hx : Keeps 0x410000000 u x := keeps_updLink (Keeps.refl _ _) (by decide)
      clear_value x
      exact Keeps.trans (Keeps.upd hx) ih

theorem keeps_failAttempt {L : Nat} {s u : State} (h : Keeps L s u) (hm : 0x10000100 &&& L = 0x10000100) {a1 a2} : Keeps L s (State.failAttempt u a1 a2) := by
  refine h.step (m := 0x10000100) ?_ hm
  unfold State.failAttempt
  repeat' first
  | with_reducible assumption
  | with_reducible exact Keeps.refl _ _
  | (extract_lets +onlyGivenNames x; refine Keeps.cut x ?_ (fun hx => ?_); rotate_left; rename State => z; rotate_right; unfold x; clear x)
  | (extract_lets +onlyGivenNames x; revert x; intro y)
  | (with_reducible refine keeps_updLink ?_ ?_ ..; rotate_left; (first | rfl | decide))
  | (with_reducible refine Keeps.bump ?_ ?_ ?_; rotate_left; (first | rfl | decide); (first | rfl | decide))
  | (with_reducible refine Keeps.put ?_ ?_ ?_; rotate_left; (first | rfl | decide); (first | rfl | decide))
  | with_reducible refine Keeps.foldl ?_ (fun v e => ?_)
  | with_reducible refine Keeps.ite ?_ ?_
  | split
  | exact Keeps.upd (by with_reducible assumption)
  | exact Keeps.upd (Keeps.refl _ _)
  | (clear_value *; split)

theorem keeps_forward {L : Nat} {s u : State} (h : Keeps L s u) (hm : 0x410000100 &&& L = 0x410000100) {a1 a2} : Keeps L s (State.forward u a1 a2) := by
  refine h.step (m := 0x410000100) ?_ hm
  unfold State.forward
  repeat' first
  | with_reducible assumption
  | with_reducible exact Keeps.refl _ _
  | (extract_lets +onlyGivenNames x; refine Keeps.cut x ?_ (fun hx => ?_); rotate_left; rename State => z; rotate_right; unfold x; clear x)
  | (extract_lets +onlyGivenNames x; revert x; intro y)
  | (with_reducible refine Keeps.bump ?_ ?_ ?_; rotate_left; (first | rfl | decide); (first | rfl | decide))
  | (with_reducible refine keeps_drain ?_ ?_ ..; rotate_left; (first | rfl | decide))
  | (with_reducible refine keeps_updLink ?_ ?_ ..; rotate_left; (first | rfl | decide))
  | with_reducible refine Keeps.foldl ?_ (fun v e => ?_)
  | with_reducible refine Keeps.ite ?_ ?_
  | split
  | exact Keeps.upd (by with_reducible assumption)
  | exact Keeps.upd (Keeps.refl _ _)
  | (clear_value *; split)

theorem keeps_rejoin {L : Nat} {s u : State} (h : Keeps L s u) (hm : 0x10000101 &&& L = 0x10000101) {a1 a2} : Keeps L s (State.rejoin u a1 a2) := by
  refine h.step (m := 0x10000101) ?_ hm
  unfold State.rejoin
  repeat' first
  | with_reducible assumption
  | with_reducible exact Keeps.refl _ _
  | (extract_lets +onlyGivenNames x; refine Keeps.cut x ?_ (fun hx => ?_); rotate_left; rename State => z; rotate_right; unfold x; clear x)
  | (extract_lets +onlyGivenNames x; revert x; intro y)
  | (with_reducible refine keeps_followParent ?_ ?_ ..; rotate_left; (first | rfl | decide))
  | (with_reducible refine keeps_setUnaligned ?_ ?_ ..; rotate_left; (first | rfl | decide))
  | with_reducible refine Keeps.foldl ?_ (fun v e => ?_)
  | with_reducible refine Keeps.ite ?_ ?_
  | split
  | exact Keeps.upd (by with_reducible assumption)
  | exact Keeps.upd (Keeps.refl _ _)
  | (clear_value *; split)

theorem keeps_sealFields {L : Nat} {s u : State} (h : Keeps L s u) (hm : 0x412000100 &&& L = 0x412000100) {a1} : Keeps L s (State.sealFields u a1) := by
  refine h.step (m := 0x412000100) ?_ hm
  unfold State.sealFields
  repeat' first
  | with_reducible assumption
  | with_reducible exact Keeps.refl _ _
  | (extract_lets +onlyGivenNames x; refine Keeps.cut x ?_ (fun hx => ?_); rotate_left; rename State => z; rotate_right; unfold x; clear x)
  | (extract_lets +onlyGivenNames x; revert x; intro y)
  | (with_reducible refine keeps_updLink ?_ ?_ ..; rotate_left; (first | rfl | decide))
  | (with_reducible refine keeps_drain ?_ ?_ ..; rotate_left; (first | rfl | decide))
  | (with_reducible refine keeps_reportLost ?_ ?_ ..; rotate_left; (first | rfl | decide))
  | with_reducible refine Keeps.foldl ?_ (fun v e => ?_)
  | with_reducible refine Keeps.ite ?_ ?_
  | split
  | exact Keeps.upd (by with_reducible assumption)
  | exact Keeps.upd (Keeps.refl _ _)
  | (clear_value *; split)

theorem keeps_startAttempt {L : Nat} {s u : State} (h : Keeps L s u) (hm : 0x10000100 &&& L = 0x10000100) {a1 a2} : Keeps L s (State.startAttempt u a1 a2) := by
  refine h.step (m := 0x10000100) ?_ hm
  unfold State.startAttempt
  repeat' first
  | with_reducible assumption
  | with_reducible exact Keeps.refl _ _
  | (extract_lets +onlyGivenNames x; refine Keeps.cut x ?_ (fun hx => ?_); rotate_left; rename State => z; rotate_right; unfold x; clear x)
  | (extract_lets +onlyGivenNames x; revert x; intro y)
  | (with_reducible refine keeps_updLink ?_ ?_ ..; rotate_left; (first | rfl | decide))
  | (with_reducible refine Keeps.put ?_ ?_ ?_; rotate_left; (first | rfl | decide); (first | rfl | decide))
  | with_reducible refine Keeps.foldl ?_ (fun v e => ?_)
  | with_reducible refine Keeps.ite ?_ ?_
  | split
  | exact Keeps.upd (by with_reducible assumption)
  | exact Keeps.upd (Keeps.refl _ _)
  | (clear_value *; split)

theorem keeps_execRetrain (a0 a1 u) : KeepsO 0x401800180 u (execRetrain a0 a1 u) := by
  unfold execRetrain
  repeat' first
  | with_reducible assumption
  | with_reducible exact Keeps.refl _ _
  | with_reducible refine KeepsO.next ?_
  | with_reducible exact KeepsO.fault _
  | (extract_lets +onlyGivenNames x; refine Keeps.cut x ?_ (fun hx => ?_); rotate_left; rename State => z; rotate_right; unfold x; clear x)
  | (extract_lets +onlyGivenNames x; refine KeepsO.cut x ?_ (fun hx => ?_); rotate_left; rename State => z; rotate_right; unfold x; clear x)
  | (extract_lets +onlyGivenNames x; revert x; intro y)
  | (with_reducible refine keeps_commandWrite ?_ ?_ (fun v => ?_); rotate_left; (first | rfl | decide); rotate_right)
  | (with_reducible refine keeps_retrain ?_ ?_ ..; rotate_left; (first | rfl | decide))
  | with_reducible refine Keeps.foldl ?_ (fun v e => ?_)
  | with_reducible refine Keeps.ite ?_ ?_
  | with_reducible refine KeepsO.ite ?_ ?_
  | split
  | exact Keeps.upd (by with_reducible assumption)
  | exact Keeps.upd (Keeps.refl _ _)
  | (clear_value *; split)

theorem keeps_execUnfence (a0 a1 u) : KeepsO 0x401800180 u (execUnfence a0 a1 u) := by
  unfold execUnfence
  repeat' first
  | with_reducible assumption
  | with_reducible exact Keeps.refl _ _
  | with_reducible refine KeepsO.next ?_
  | with_reducible exact KeepsO.fault _
  | (extract_lets +onlyGivenNames x; refine Keeps.cut x ?_ (fun hx => ?_); rotate_left; rename State => z; rotate_right; unfold x; clear x)
  | (extract_lets +onlyGivenNames x; refine KeepsO.cut x ?_ (fun hx => ?_); rotate_left; rename State => z; rotate_right; unfold x; clear x)
  | (extract_lets +onlyGivenNames x; revert x; intro y)
  | (with_reducible refine keeps_commandWrite ?_ ?_ (fun v => ?_); rotate_left; (first | rfl | decide); rotate_right)
  | (with_reducible refine keeps_unfence ?_ ?_ ..; rotate_left; (first | rfl | decide))
  | with_reducible refine Keeps.foldl ?_ (fun v e => ?_)
  | with_reducible refine Keeps.ite ?_ ?_
  | with_reducible refine KeepsO.ite ?_ ?_
  | split
  | exact Keeps.upd (by with_reducible assumption)
  | exact Keeps.upd (Keeps.refl _ _)
  | (clear_value *; split)

theorem keeps_execInstall (a0 a1 a2 u) : KeepsO 0x401800080 u (execInstall a0 a1 a2 u) := by
  unfold execInstall
  repeat' first
  | with_reducible assumption
  | with_reducible exact Keeps.refl _ _
  | with_reducible refine KeepsO.next ?_
  | with_reducible exact KeepsO.fault _
  | (extract_lets +onlyGivenNames x; refine Keeps.cut x ?_ (fun hx => ?_); rotate_left; rename State => z; rotate_right; unfold x; clear x)
  | (extract_lets +onlyGivenNames x; refine KeepsO.cut x ?_ (fun hx => ?_); rotate_left; rename State => z; rotate_right; unfold x; clear x)
  | (extract_lets +onlyGivenNames x; revert x; intro y)
  | (with_reducible refine keeps_commandWrite ?_ ?_ (fun v => ?_); rotate_left; (first | rfl | decide); rotate_right)
  | (with_reducible refine keeps_install_ ?_ ?_ ..; rotate_left; (first | rfl | decide))
  | with_reducible refine Keeps.foldl ?_ (fun v e => ?_)
  | with_reducible refine Keeps.ite ?_ ?_
  | with_reducible refine KeepsO.ite ?_ ?_
  | split
  | exact Keeps.upd (by with_reducible assumption)
  | exact Keeps.upd (Keeps.refl _ _)
  | (clear_value *; split)

theorem keeps_execTxAnSwitch (a0 a1 a2 u) : KeepsO 0x401800080 u (execTxAnSwitch a0 a1 a2 u) := by
  unfold execTxAnSwitch
  repeat' first
  | with_reducible assumption
  | with_reducible exact Keeps.refl _ _
  | with_reducible refine KeepsO.next ?_
  | with_reducible exact KeepsO.fault _
  | (extract_lets +onlyGivenNames x; refine Keeps.cut x ?_ (fun hx => ?_); rotate_left; rename State => z; rotate_right; unfold x; clear x)
  | (extract_lets +onlyGivenNames x; refine KeepsO.cut x ?_ (fun hx => ?_); rotate_left; rename State => z; rotate_right; unfold x; clear x)
  | (extract_lets +onlyGivenNames x; revert x; intro y)
  | (with_reducible refine keeps_commandWrite ?_ ?_ (fun v => ?_); rotate_left; (first | rfl | decide); rotate_right)
  | (with_reducible refine Keeps.put ?_ ?_ ?_; rotate_left; (first | rfl | decide); (first | rfl | decide))
  | with_reducible refine Keeps.foldl ?_ (fun v e => ?_)
  | with_reducible refine Keeps.ite ?_ ?_
  | with_reducible refine KeepsO.ite ?_ ?_
  | split
  | exact Keeps.upd (by with_reducible assumption)
  | exact Keeps.upd (Keeps.refl _ _)
  | (clear_value *; split)

theorem keeps_execLaserLow (a0 u) : KeepsO 0xC33040184 u (execLaserLow a0 u) := by
  unfold execLaserLow
  repeat' first
  | with_reducible assumption
  | with_reducible exact Keeps.refl _ _
  | with_reducible refine KeepsO.next ?_
  | with_reducible exact KeepsO.fault _
  | (extract_lets +onlyGivenNames x; refine Keeps.cut x ?_ (fun hx => ?_); rotate_left; rename State => z; rotate_right; unfold x; clear x)
  | (extract_lets +onlyGivenNames x; refine KeepsO.cut x ?_ (fun hx => ?_); rotate_left; rename State => z; rotate_right; unfold x; clear x)
  | (extract_lets +onlyGivenNames x; revert x; intro y)
  | (with_reducible refine keeps_eventOpen ?_ ?_ ..; rotate_left; (first | rfl | decide))
  | (with_reducible refine Keeps.raise ?_ ?_ ?_ ?_; rotate_left; (first | rfl | decide); (first | rfl | decide); (first | rfl | decide))
  | (with_reducible refine keeps_leaveUp ?_ ?_ ..; rotate_left; (first | rfl | decide))
  | (with_reducible refine Keeps.put ?_ ?_ ?_; rotate_left; (first | rfl | decide); (first | rfl | decide))
  | with_reducible refine Keeps.foldl ?_ (fun v e => ?_)
  | with_reducible refine Keeps.ite ?_ ?_
  | with_reducible refine KeepsO.ite ?_ ?_
  | split
  | exact Keeps.upd (by with_reducible assumption)
  | exact Keeps.upd (Keeps.refl _ _)
  | (clear_value *; split)

theorem keeps_execSealGroupReceive (a0 u) : KeepsO 0x412000100 u (execSealGroupReceive a0 u) := by
  unfold execSealGroupReceive
  repeat' first
  | with_reducible assumption
  | with_reducible exact Keeps.refl _ _
  | with_reducible refine KeepsO.next ?_
  | with_reducible exact KeepsO.fault _
  | (extract_lets +onlyGivenNames x; refine Keeps.cut x ?_ (fun hx => ?_); rotate_left; rename State => z; rotate_right; unfold x; clear x)
  | (extract_lets +onlyGivenNames x; refine KeepsO.cut x ?_ (fun hx => ?_); rotate_left; rename State => z; rotate_right; unfold x; clear x)
  | (extract_lets +onlyGivenNames x; revert x; intro y)
  | (with_reducible refine Keeps.bump ?_ ?_ ?_; rotate_left; (first | rfl | decide); (first | rfl | decide))
  | (with_reducible refine keeps_updLink ?_ ?_ ..; rotate_left; (first | rfl | decide))
  | (with_reducible refine keeps_sealFields ?_ ?_ ..; rotate_left; (first | rfl | decide))
  | (with_reducible refine keeps_forward ?_ ?_ ..; rotate_left; (first | rfl | decide))
  | with_reducible refine Keeps.foldl ?_ (fun v e => ?_)
  | with_reducible refine Keeps.ite ?_ ?_
  | with_reducible refine KeepsO.ite ?_ ?_
  | split
  | exact Keeps.upd (by with_reducible assumption)
  | exact Keeps.upd (Keeps.refl _ _)
  | (clear_value *; split)

theorem keeps_execNak (a0 a1 a2 a3 u) : KeepsO 0xC33040184 u (execNak a0 a1 a2 a3 u) := by
  unfold execNak
  repeat' first
  | with_reducible assumption
  | with_reducible exact Keeps.refl _ _
  | with_reducible refine KeepsO.next ?_
  | with_reducible exact KeepsO.fault _
  | (extract_lets +onlyGivenNames x; refine Keeps.cut x ?_ (fun hx => ?_); rotate_left; rename State => z; rotate_right; unfold x; clear x)
  | (extract_lets +onlyGivenNames x; refine KeepsO.cut x ?_ (fun hx => ?_); rotate_left; rename State => z; rotate_right; unfold x; clear x)
  | (extract_lets +onlyGivenNames x; revert x; intro y)
  | (with_reducible refine keeps_updLink ?_ ?_ ..; rotate_left; (first | rfl | decide))
  | (with_reducible refine Keeps.bump ?_ ?_ ?_; rotate_left; (first | rfl | decide); (first | rfl | decide))
  | (with_reducible refine keeps_leaveUp ?_ ?_ ..; rotate_left; (first | rfl | decide))
  | (with_reducible refine Keeps.raise ?_ ?_ ?_ ?_; rotate_left; (first | rfl | decide); (first | rfl | decide); (first | rfl | decide))
  | with_reducible refine Keeps.foldl ?_ (fun v e => ?_)
  | with_reducible refine Keeps.ite ?_ ?_
  | with_reducible refine KeepsO.ite ?_ ?_
  | split
  | exact Keeps.upd (by with_reducible assumption)
  | exact Keeps.upd (Keeps.refl _ _)
  | (clear_value *; split)

theorem keeps_execJoin (a0 u) : KeepsO 0x10400101 u (execJoin a0 u) := by
  unfold execJoin
  repeat' first
  | with_reducible assumption
  | with_reducible exact Keeps.refl _ _
  | with_reducible refine KeepsO.next ?_
  | with_reducible exact KeepsO.fault _
  | (extract_lets +onlyGivenNames x; refine Keeps.cut x ?_ (fun hx => ?_); rotate_left; rename State => z; rotate_right; unfold x; clear x)
  | (extract_lets +onlyGivenNames x; refine KeepsO.cut x ?_ (fun hx => ?_); rotate_left; rename State => z; rotate_right; unfold x; clear x)
  | (extract_lets +onlyGivenNames x; revert x; intro y)
  | (with_reducible refine keeps_setUnaligned ?_ ?_ ..; rotate_left; (first | rfl | decide))
  | (with_reducible refine Keeps.put ?_ ?_ ?_; rotate_left; (first | rfl | decide); (first | rfl | decide))
  | (with_reducible refine keeps_rejoin ?_ ?_ ..; rotate_left; (first | rfl | decide))
  | with_reducible refine Keeps.foldl ?_ (fun v e => ?_)
  | with_reducible refine Keeps.ite ?_ ?_
  | with_reducible refine KeepsO.ite ?_ ?_
  | split
  | exact Keeps.upd (by with_reducible assumption)
  | exact Keeps.upd (Keeps.refl _ _)
  | (clear_value *; split)

theorem keeps_execReadyCount (a0 a1 u) : KeepsO 0xC31000084 u (execReadyCount a0 a1 u) := by
  unfold execReadyCount
  repeat' first
  | with_reducible assumption
  | with_reducible exact Keeps.refl _ _
  | with_reducible refine KeepsO.next ?_
  | with_reducible exact KeepsO.fault _
  | (extract_lets +onlyGivenNames x; refine Keeps.cut x ?_ (fun hx => ?_); rotate_left; rename State => z; rotate_right; unfold x; clear x)
  | (extract_lets +onlyGivenNames x; refine KeepsO.cut x ?_ (fun hx => ?_); rotate_left; rename State => z; rotate_right; unfold x; clear x)
  | (extract_lets +onlyGivenNames x; revert x; intro y)
  | (with_reducible refine keeps_systemReady ?_ ?_ ..; rotate_left; (first | rfl | decide))
  | with_reducible refine Keeps.foldl ?_ (fun v e => ?_)
  | with_reducible refine Keeps.ite ?_ ?_
  | with_reducible refine KeepsO.ite ?_ ?_
  | split
  | exact Keeps.upd (by with_reducible assumption)
  | exact Keeps.upd (Keeps.refl _ _)
  | (clear_value *; split)

theorem keeps_execSysWaitExpiry (u) : KeepsO 0xC31000084 u (execSysWaitExpiry u) := by
  unfold execSysWaitExpiry
  repeat' first
  | with_reducible assumption
  | with_reducible exact Keeps.refl _ _
  | with_reducible refine KeepsO.next ?_
  | with_reducible exact KeepsO.fault _
  | (extract_lets +onlyGivenNames x; refine Keeps.cut x ?_ (fun hx => ?_); rotate_left; rename State => z; rotate_right; unfold x; clear x)
  | (extract_lets +onlyGivenNames x; refine KeepsO.cut x ?_ (fun hx => ?_); rotate_left; rename State => z; rotate_right; unfold x; clear x)
  | (extract_lets +onlyGivenNames x; revert x; intro y)
  | (with_reducible refine keeps_eventD0 ?_ ?_ ..; rotate_left; (first | rfl | decide))
  | with_reducible refine Keeps.foldl ?_ (fun v e => ?_)
  | with_reducible refine Keeps.ite ?_ ?_
  | with_reducible refine KeepsO.ite ?_ ?_
  | split
  | exact Keeps.upd (by with_reducible assumption)
  | exact Keeps.upd (Keeps.refl _ _)
  | (clear_value *; split)

theorem keeps_execMgmtRelay (a0 a1 u) : KeepsO 0x10000000 u (execMgmtRelay a0 a1 u) := by
  unfold execMgmtRelay
  repeat' first
  | with_reducible assumption
  | with_reducible exact Keeps.refl _ _
  | with_reducible refine KeepsO.next ?_
  | with_reducible exact KeepsO.fault _
  | (extract_lets +onlyGivenNames x; refine Keeps.cut x ?_ (fun hx => ?_); rotate_left; rename State => z; rotate_right; unfold x; clear x)
  | (extract_lets +onlyGivenNames x; refine KeepsO.cut x ?_ (fun hx => ?_); rotate_left; rename State => z; rotate_right; unfold x; clear x)
  | (extract_lets +onlyGivenNames x; revert x; intro y)
  | with_reducible refine Keeps.foldl ?_ (fun v e => ?_)
  | with_reducible refine Keeps.ite ?_ ?_
  | with_reducible refine KeepsO.ite ?_ ?_
  | split
  | exact Keeps.upd (by with_reducible assumption)
  | exact Keeps.upd (Keeps.refl _ _)
  | (clear_value *; split)

theorem keeps_execAnchorMove (a0 u) : KeepsO 0x10000000 u (execAnchorMove a0 u) := by
  unfold execAnchorMove
  repeat' first
  | with_reducible assumption
  | with_reducible exact Keeps.refl _ _
  | with_reducible refine KeepsO.next ?_
  | with_reducible exact KeepsO.fault _
  | (extract_lets +onlyGivenNames x; refine Keeps.cut x ?_ (fun hx => ?_); rotate_left; rename State => z; rotate_right; unfold x; clear x)
  | (extract_lets +onlyGivenNames x; refine KeepsO.cut x ?_ (fun hx => ?_); rotate_left; rename State => z; rotate_right; unfold x; clear x)
  | (extract_lets +onlyGivenNames x; revert x; intro y)
  | with_reducible refine Keeps.foldl ?_ (fun v e => ?_)
  | with_reducible refine Keeps.ite ?_ ?_
  | with_reducible refine KeepsO.ite ?_ ?_
  | split
  | exact Keeps.upd (by with_reducible assumption)
  | exact Keeps.upd (Keeps.refl _ _)
  | (clear_value *; split)

theorem keeps_execAnchorLost (u) : KeepsO 0x410000100 u (execAnchorLost u) := by
  unfold execAnchorLost
  repeat' first
  | with_reducible assumption
  | with_reducible exact Keeps.refl _ _
  | with_reducible refine KeepsO.next ?_
  | with_reducible exact KeepsO.fault _
  | (extract_lets +onlyGivenNames x; refine Keeps.cut x ?_ (fun hx => ?_); rotate_left; rename State => z; rotate_right; unfold x; clear x)
  | (extract_lets +onlyGivenNames x; refine KeepsO.cut x ?_ (fun hx => ?_); rotate_left; rename State => z; rotate_right; unfold x; clear x)
  | (extract_lets +onlyGivenNames x; revert x; intro y)
  | (with_reducible refine keeps_record ?_ ?_ ..; rotate_left; (first | rfl | decide))
  | with_reducible refine Keeps.foldl ?_ (fun v e => ?_)
  | with_reducible refine Keeps.ite ?_ ?_
  | with_reducible refine KeepsO.ite ?_ ?_
  | split
  | exact Keeps.upd (by with_reducible assumption)
  | exact Keeps.upd (Keeps.refl _ _)
  | (clear_value *; split)

theorem keeps_execHello (a0 u) : KeepsO 0xC33040184 u (execHello a0 u) := by
  unfold execHello
  repeat' first
  | with_reducible assumption
  | with_reducible exact Keeps.refl _ _
  | with_reducible refine KeepsO.next ?_
  | with_reducible exact KeepsO.fault _
  | (extract_lets +onlyGivenNames x; refine Keeps.cut x ?_ (fun hx => ?_); rotate_left; rename State => z; rotate_right; unfold x; clear x)
  | (extract_lets +onlyGivenNames x; refine KeepsO.cut x ?_ (fun hx => ?_); rotate_left; rename State => z; rotate_right; unfold x; clear x)
  | (extract_lets +onlyGivenNames x; revert x; intro y)
  | (with_reducible refine Keeps.put ?_ ?_ ?_; rotate_left; (first | rfl | decide); (first | rfl | decide))
  | (with_reducible refine keeps_updLink ?_ ?_ ..; rotate_left; (first | rfl | decide))
  | (with_reducible refine keeps_discover ?_ ?_ ..; rotate_left; (first | rfl | decide))
  | (with_reducible refine keeps_eventOpen ?_ ?_ ..; rotate_left; (first | rfl | decide))
  | (with_reducible refine Keeps.raise ?_ ?_ ?_ ?_; rotate_left; (first | rfl | decide); (first | rfl | decide); (first | rfl | decide))
  | (with_reducible refine keeps_fencePort ?_ ?_ ..; rotate_left; (first | rfl | decide))
  | with_reducible refine Keeps.foldl ?_ (fun v e => ?_)
  | with_reducible refine Keeps.ite ?_ ?_
  | with_reducible refine KeepsO.ite ?_ ?_
  | split
  | exact Keeps.upd (by with_reducible assumption)
  | exact Keeps.upd (Keeps.refl _ _)
  | (clear_value *; split)

theorem keeps_execKex1 (a0 a1 u) : KeepsO 0xC33040184 u (execKex1 a0 a1 u) := by
  unfold execKex1
  repeat' first
  | with_reducible assumption
  | with_reducible exact Keeps.refl _ _
  | with_reducible refine KeepsO.next ?_
  | with_reducible exact KeepsO.fault _
  | (extract_lets +onlyGivenNames x; refine Keeps.cut x ?_ (fun hx => ?_); rotate_left; rename State => z; rotate_right; unfold x; clear x)
  | (extract_lets +onlyGivenNames x; refine KeepsO.cut x ?_ (fun hx => ?_); rotate_left; rename State => z; rotate_right; unfold x; clear x)
  | (extract_lets +onlyGivenNames x; revert x; intro y)
  | (with_reducible refine keeps_discover ?_ ?_ ..; rotate_left; (first | rfl | decide))
  | (with_reducible refine keeps_updLink ?_ ?_ ..; rotate_left; (first | rfl | decide))
  | (with_reducible refine keeps_authFail ?_ ?_ ..; rotate_left; (first | rfl | decide))
  | with_reducible refine Keeps.foldl ?_ (fun v e => ?_)
  | with_reducible refine Keeps.ite ?_ ?_
  | with_reducible refine KeepsO.ite ?_ ?_
  | split
  | exact Keeps.upd (by with_reducible assumption)
  | exact Keeps.upd (Keeps.refl _ _)
  | (clear_value *; split)

theorem keeps_execKex2 (a0 a1 u) : KeepsO 0xC33040184 u (execKex2 a0 a1 u) := by
  unfold execKex2
  repeat' first
  | with_reducible assumption
  | with_reducible exact Keeps.refl _ _
  | with_reducible refine KeepsO.next ?_
  | with_reducible exact KeepsO.fault _
  | (extract_lets +onlyGivenNames x; refine Keeps.cut x ?_ (fun hx => ?_); rotate_left; rename State => z; rotate_right; unfold x; clear x)
  | (extract_lets +onlyGivenNames x; refine KeepsO.cut x ?_ (fun hx => ?_); rotate_left; rename State => z; rotate_right; unfold x; clear x)
  | (extract_lets +onlyGivenNames x; revert x; intro y)
  | (with_reducible refine keeps_discover ?_ ?_ ..; rotate_left; (first | rfl | decide))
  | (with_reducible refine keeps_updLink ?_ ?_ ..; rotate_left; (first | rfl | decide))
  | (with_reducible refine keeps_authFail ?_ ?_ ..; rotate_left; (first | rfl | decide))
  | with_reducible refine Keeps.foldl ?_ (fun v e => ?_)
  | with_reducible refine Keeps.ite ?_ ?_
  | with_reducible refine KeepsO.ite ?_ ?_
  | split
  | exact Keeps.upd (by with_reducible assumption)
  | exact Keeps.upd (Keeps.refl _ _)
  | (clear_value *; split)

theorem keeps_execFin (a0 a1 a2 a3 u) : KeepsO 0xC33040194 u (execFin a0 a1 a2 a3 u) := by
  unfold execFin
  repeat' first
  | with_reducible assumption
  | with_reducible exact Keeps.refl _ _
  | with_reducible refine KeepsO.next ?_
  | with_reducible exact KeepsO.fault _
  | (extract_lets +onlyGivenNames x; refine Keeps.cut x ?_ (fun hx => ?_); rotate_left; rename State => z; rotate_right; unfold x; clear x)
  | (extract_lets +onlyGivenNames x; refine KeepsO.cut x ?_ (fun hx => ?_); rotate_left; rename State => z; rotate_right; unfold x; clear x)
  | (extract_lets +onlyGivenNames x; revert x; intro y)
  | (with_reducible refine keeps_authFail ?_ ?_ ..; rotate_left; (first | rfl | decide))
  | (with_reducible refine keeps_discover ?_ ?_ ..; rotate_left; (first | rfl | decide))
  | (with_reducible refine keeps_updLink ?_ ?_ ..; rotate_left; (first | rfl | decide))
  | (with_reducible refine Keeps.put ?_ ?_ ?_; rotate_left; (first | rfl | decide); (first | rfl | decide))
  | (with_reducible refine Keeps.bump ?_ ?_ ?_; rotate_left; (first | rfl | decide); (first | rfl | decide))
  | (with_reducible refine keeps_laneFigures ?_ ?_ ..; rotate_left; (first | rfl | decide))
  | with_reducible refine Keeps.foldl ?_ (fun v e => ?_)
  | with_reducible refine Keeps.ite ?_ ?_
  | with_reducible refine KeepsO.ite ?_ ?_
  | split
  | exact Keeps.upd (by with_reducible assumption)
  | exact Keeps.upd (Keeps.refl _ _)
  | (clear_value *; split)

theorem keeps_execRekeyTrigger (a0 a1 a2 a3 u) : KeepsO 0x410000000 u (execRekeyTrigger a0 a1 a2 a3 u) := by
  unfold execRekeyTrigger
  repeat' first
  | with_reducible assumption
  | with_reducible exact Keeps.refl _ _
  | with_reducible refine KeepsO.next ?_
  | with_reducible exact KeepsO.fault _
  | (extract_lets +onlyGivenNames x; refine Keeps.cut x ?_ (fun hx => ?_); rotate_left; rename State => z; rotate_right; unfold x; clear x)
  | (extract_lets +onlyGivenNames x; refine KeepsO.cut x ?_ (fun hx => ?_); rotate_left; rename State => z; rotate_right; unfold x; clear x)
  | (extract_lets +onlyGivenNames x; revert x; intro y)
  | (with_reducible refine keeps_discover ?_ ?_ ..; rotate_left; (first | rfl | decide))
  | (with_reducible refine keeps_updLink ?_ ?_ ..; rotate_left; (first | rfl | decide))
  | with_reducible refine Keeps.foldl ?_ (fun v e => ?_)
  | with_reducible refine Keeps.ite ?_ ?_
  | with_reducible refine KeepsO.ite ?_ ?_
  | split
  | exact Keeps.upd (by with_reducible assumption)
  | exact Keeps.upd (Keeps.refl _ _)
  | (clear_value *; split)

theorem keeps_execRekey1 (a0 a1 u) : KeepsO 0x410000000 u (execRekey1 a0 a1 u) := by
  unfold execRekey1
  repeat' first
  | with_reducible assumption
  | with_reducible exact Keeps.refl _ _
  | with_reducible refine KeepsO.next ?_
  | with_reducible exact KeepsO.fault _
  | (extract_lets +onlyGivenNames x; refine Keeps.cut x ?_ (fun hx => ?_); rotate_left; rename State => z; rotate_right; unfold x; clear x)
  | (extract_lets +onlyGivenNames x; refine KeepsO.cut x ?_ (fun hx => ?_); rotate_left; rename State => z; rotate_right; unfold x; clear x)
  | (extract_lets +onlyGivenNames x; revert x; intro y)
  | (with_reducible refine keeps_discover ?_ ?_ ..; rotate_left; (first | rfl | decide))
  | (with_reducible refine keeps_updLink ?_ ?_ ..; rotate_left; (first | rfl | decide))
  | with_reducible refine Keeps.foldl ?_ (fun v e => ?_)
  | with_reducible refine Keeps.ite ?_ ?_
  | with_reducible refine KeepsO.ite ?_ ?_
  | split
  | exact Keeps.upd (by with_reducible assumption)
  | exact Keeps.upd (Keeps.refl _ _)
  | (clear_value *; split)

theorem keeps_execRekey2 (a0 a1 a2 u) : KeepsO 0x410000000 u (execRekey2 a0 a1 a2 u) := by
  unfold execRekey2
  repeat' first
  | with_reducible assumption
  | with_reducible exact Keeps.refl _ _
  | with_reducible refine KeepsO.next ?_
  | with_reducible exact KeepsO.fault _
  | (extract_lets +onlyGivenNames x; refine Keeps.cut x ?_ (fun hx => ?_); rotate_left; rename State => z; rotate_right; unfold x; clear x)
  | (extract_lets +onlyGivenNames x; refine KeepsO.cut x ?_ (fun hx => ?_); rotate_left; rename State => z; rotate_right; unfold x; clear x)
  | (extract_lets +onlyGivenNames x; revert x; intro y)
  | (with_reducible refine keeps_discover ?_ ?_ ..; rotate_left; (first | rfl | decide))
  | (with_reducible refine keeps_updLink ?_ ?_ ..; rotate_left; (first | rfl | decide))
  | with_reducible refine Keeps.foldl ?_ (fun v e => ?_)
  | with_reducible refine Keeps.ite ?_ ?_
  | with_reducible refine KeepsO.ite ?_ ?_
  | split
  | exact Keeps.upd (by with_reducible assumption)
  | exact Keeps.upd (Keeps.refl _ _)
  | (clear_value *; split)

theorem keeps_execRekeyFin (a0 a1 a2 a3 a4 u) : KeepsO 0x410000000 u (execRekeyFin a0 a1 a2 a3 a4 u) := by
  unfold execRekeyFin
  repeat' first
  | with_reducible assumption
  | with_reducible exact Keeps.refl _ _
  | with_reducible refine KeepsO.next ?_
  | with_reducible exact KeepsO.fault _
  | (extract_lets +onlyGivenNames x; refine Keeps.cut x ?_ (fun hx => ?_); rotate_left; rename State => z; rotate_right; unfold x; clear x)
  | (extract_lets +onlyGivenNames x; refine KeepsO.cut x ?_ (fun hx => ?_); rotate_left; rename State => z; rotate_right; unfold x; clear x)
  | (extract_lets +onlyGivenNames x; revert x; intro y)
  | (with_reducible refine keeps_updLink ?_ ?_ ..; rotate_left; (first | rfl | decide))
  | (with_reducible refine keeps_discover ?_ ?_ ..; rotate_left; (first | rfl | decide))
  | with_reducible refine Keeps.foldl ?_ (fun v e => ?_)
  | with_reducible refine Keeps.ite ?_ ?_
  | with_reducible refine KeepsO.ite ?_ ?_
  | split
  | exact Keeps.upd (by with_reducible assumption)
  | exact Keeps.upd (Keeps.refl _ _)
  | (clear_value *; split)

theorem keeps_execKeySwitch (a0 a1 a2 u) : KeepsO 0x10000100 u (execKeySwitch a0 a1 a2 u) := by
  unfold execKeySwitch
  repeat' first
  | with_reducible assumption
  | with_reducible exact Keeps.refl _ _
  | with_reducible refine KeepsO.next ?_
  | with_reducible exact KeepsO.fault _
  | (extract_lets +onlyGivenNames x; refine Keeps.cut x ?_ (fun hx => ?_); rotate_left; rename State => z; rotate_right; unfold x; clear x)
  | (extract_lets +onlyGivenNames x; refine KeepsO.cut x ?_ (fun hx => ?_); rotate_left; rename State => z; rotate_right; unfold x; clear x)
  | (extract_lets +onlyGivenNames x; revert x; intro y)
  | (with_reducible refine Keeps.put ?_ ?_ ?_; rotate_left; (first | rfl | decide); (first | rfl | decide))
  | (with_reducible refine keeps_updLink ?_ ?_ ..; rotate_left; (first | rfl | decide))
  | (with_reducible refine Keeps.bump ?_ ?_ ?_; rotate_left; (first | rfl | decide); (first | rfl | decide))
  | with_reducible refine Keeps.foldl ?_ (fun v e => ?_)
  | with_reducible refine Keeps.ite ?_ ?_
  | with_reducible refine KeepsO.ite ?_ ?_
  | split
  | exact Keeps.upd (by with_reducible assumption)
  | exact Keeps.upd (Keeps.refl _ _)
  | (clear_value *; split)

theorem keeps_execRekeyTimeout (a0 a1 u) : KeepsO 0xC33040184 u (execRekeyTimeout a0 a1 u) := by
  unfold execRekeyTimeout
  repeat' first
  | with_reducible assumption
  | with_reducible exact Keeps.refl _ _
  | with_reducible refine KeepsO.next ?_
  | with_reducible exact KeepsO.fault _
  | (extract_lets +onlyGivenNames x; refine Keeps.cut x ?_ (fun hx => ?_); rotate_left; rename State => z; rotate_right; unfold x; clear x)
  | (extract_lets +onlyGivenNames x; refine KeepsO.cut x ?_ (fun hx => ?_); rotate_left; rename State => z; rotate_right; unfold x; clear x)
  | (extract_lets +onlyGivenNames x; revert x; intro y)
  | (with_reducible refine keeps_leaveUp ?_ ?_ ..; rotate_left; (first | rfl | decide))
  | with_reducible refine Keeps.foldl ?_ (fun v e => ?_)
  | with_reducible refine Keeps.ite ?_ ?_
  | with_reducible refine KeepsO.ite ?_ ?_
  | split
  | exact Keeps.upd (by with_reducible assumption)
  | exact Keeps.upd (Keeps.refl _ _)
  | (clear_value *; split)

theorem keeps_execKeyRatchet (a0 a1 a2 u) : KeepsO 0x10000100 u (execKeyRatchet a0 a1 a2 u) := by
  unfold execKeyRatchet
  repeat' first
  | with_reducible assumption
  | with_reducible exact Keeps.refl _ _
  | with_reducible refine KeepsO.next ?_
  | with_reducible exact KeepsO.fault _
  | (extract_lets +onlyGivenNames x; refine Keeps.cut x ?_ (fun hx => ?_); rotate_left; rename State => z; rotate_right; unfold x; clear x)
  | (extract_lets +onlyGivenNames x; refine KeepsO.cut x ?_ (fun hx => ?_); rotate_left; rename State => z; rotate_right; unfold x; clear x)
  | (extract_lets +onlyGivenNames x; revert x; intro y)
  | (with_reducible refine Keeps.put ?_ ?_ ?_; rotate_left; (first | rfl | decide); (first | rfl | decide))
  | (with_reducible refine keeps_updLink ?_ ?_ ..; rotate_left; (first | rfl | decide))
  | with_reducible refine Keeps.foldl ?_ (fun v e => ?_)
  | with_reducible refine Keeps.ite ?_ ?_
  | with_reducible refine KeepsO.ite ?_ ?_
  | split
  | exact Keeps.upd (by with_reducible assumption)
  | exact Keeps.upd (Keeps.refl _ _)
  | (clear_value *; split)

theorem keeps_execLightDetect (a0 a1 a2 u) : KeepsO 0x10000100 u (execLightDetect a0 a1 a2 u) := by
  unfold execLightDetect
  repeat' first
  | with_reducible assumption
  | with_reducible exact Keeps.refl _ _
  | with_reducible refine KeepsO.next ?_
  | with_reducible exact KeepsO.fault _
  | (extract_lets +onlyGivenNames x; refine Keeps.cut x ?_ (fun hx => ?_); rotate_left; rename State => z; rotate_right; unfold x; clear x)
  | (extract_lets +onlyGivenNames x; refine KeepsO.cut x ?_ (fun hx => ?_); rotate_left; rename State => z; rotate_right; unfold x; clear x)
  | (extract_lets +onlyGivenNames x; revert x; intro y)
  | (with_reducible refine keeps_startAttempt ?_ ?_ ..; rotate_left; (first | rfl | decide))
  | with_reducible refine Keeps.foldl ?_ (fun v e => ?_)
  | with_reducible refine Keeps.ite ?_ ?_
  | with_reducible refine KeepsO.ite ?_ ?_
  | split
  | exact Keeps.upd (by with_reducible assumption)
  | exact Keeps.upd (Keeps.refl _ _)
  | (clear_value *; split)

theorem keeps_execRingsLocked (a0 u) : KeepsO 0x100 u (execRingsLocked a0 u) := by
  unfold execRingsLocked
  repeat' first
  | with_reducible assumption
  | with_reducible exact Keeps.refl _ _
  | with_reducible refine KeepsO.next ?_
  | with_reducible exact KeepsO.fault _
  | (extract_lets +onlyGivenNames x; refine Keeps.cut x ?_ (fun hx => ?_); rotate_left; rename State => z; rotate_right; unfold x; clear x)
  | (extract_lets +onlyGivenNames x; refine KeepsO.cut x ?_ (fun hx => ?_); rotate_left; rename State => z; rotate_right; unfold x; clear x)
  | (extract_lets +onlyGivenNames x; revert x; intro y)
  | (with_reducible refine Keeps.put ?_ ?_ ?_; rotate_left; (first | rfl | decide); (first | rfl | decide))
  | with_reducible refine Keeps.foldl ?_ (fun v e => ?_)
  | with_reducible refine Keeps.ite ?_ ?_
  | with_reducible refine KeepsO.ite ?_ ?_
  | split
  | exact Keeps.upd (by with_reducible assumption)
  | exact Keeps.upd (Keeps.refl _ _)
  | (clear_value *; split)

theorem keeps_execLanesTrained (a0 u) : KeepsO 0x100 u (execLanesTrained a0 u) := by
  unfold execLanesTrained
  repeat' first
  | with_reducible assumption
  | with_reducible exact Keeps.refl _ _
  | with_reducible refine KeepsO.next ?_
  | with_reducible exact KeepsO.fault _
  | (extract_lets +onlyGivenNames x; refine Keeps.cut x ?_ (fun hx => ?_); rotate_left; rename State => z; rotate_right; unfold x; clear x)
  | (extract_lets +onlyGivenNames x; refine KeepsO.cut x ?_ (fun hx => ?_); rotate_left; rename State => z; rotate_right; unfold x; clear x)
  | (extract_lets +onlyGivenNames x; revert x; intro y)
  | (with_reducible refine Keeps.put ?_ ?_ ?_; rotate_left; (first | rfl | decide); (first | rfl | decide))
  | with_reducible refine Keeps.foldl ?_ (fun v e => ?_)
  | with_reducible refine Keeps.ite ?_ ?_
  | with_reducible refine KeepsO.ite ?_ ?_
  | split
  | exact Keeps.upd (by with_reducible assumption)
  | exact Keeps.upd (Keeps.refl _ _)
  | (clear_value *; split)

theorem keeps_execFecAligned (a0 u) : KeepsO 0x400000100 u (execFecAligned a0 u) := by
  unfold execFecAligned
  repeat' first
  | with_reducible assumption
  | with_reducible exact Keeps.refl _ _
  | with_reducible refine KeepsO.next ?_
  | with_reducible exact KeepsO.fault _
  | (extract_lets +onlyGivenNames x; refine Keeps.cut x ?_ (fun hx => ?_); rotate_left; rename State => z; rotate_right; unfold x; clear x)
  | (extract_lets +onlyGivenNames x; refine KeepsO.cut x ?_ (fun hx => ?_); rotate_left; rename State => z; rotate_right; unfold x; clear x)
  | (extract_lets +onlyGivenNames x; revert x; intro y)
  | (with_reducible refine keeps_discover ?_ ?_ ..; rotate_left; (first | rfl | decide))
  | (with_reducible refine Keeps.put ?_ ?_ ?_; rotate_left; (first | rfl | decide); (first | rfl | decide))
  | with_reducible refine Keeps.foldl ?_ (fun v e => ?_)
  | with_reducible refine Keeps.ite ?_ ?_
  | with_reducible refine KeepsO.ite ?_ ?_
  | split
  | exact Keeps.upd (by with_reducible assumption)
  | exact Keeps.upd (Keeps.refl _ _)
  | (clear_value *; split)

theorem keeps_execAttemptTimeout (a0 a1 u) : KeepsO 0x10000100 u (execAttemptTimeout a0 a1 u) := by
  unfold execAttemptTimeout
  repeat' first
  | with_reducible assumption
  | with_reducible exact Keeps.refl _ _
  | with_reducible refine KeepsO.next ?_
  | with_reducible exact KeepsO.fault _
  | (extract_lets +onlyGivenNames x; refine Keeps.cut x ?_ (fun hx => ?_); rotate_left; rename State => z; rotate_right; unfold x; clear x)
  | (extract_lets +onlyGivenNames x; refine KeepsO.cut x ?_ (fun hx => ?_); rotate_left; rename State => z; rotate_right; unfold x; clear x)
  | (extract_lets +onlyGivenNames x; revert x; intro y)
  | (with_reducible refine keeps_failAttempt ?_ ?_ ..; rotate_left; (first | rfl | decide))
  | with_reducible refine Keeps.foldl ?_ (fun v e => ?_)
  | with_reducible refine Keeps.ite ?_ ?_
  | with_reducible refine KeepsO.ite ?_ ?_
  | split
  | exact Keeps.upd (by with_reducible assumption)
  | exact Keeps.upd (Keeps.refl _ _)
  | (clear_value *; split)

theorem keeps_execAuthTimeout (a0 a1 u) : KeepsO 0x10000100 u (execAuthTimeout a0 a1 u) := by
  unfold execAuthTimeout
  repeat' first
  | with_reducible assumption
  | with_reducible exact Keeps.refl _ _
  | with_reducible refine KeepsO.next ?_
  | with_reducible exact KeepsO.fault _
  | (extract_lets +onlyGivenNames x; refine Keeps.cut x ?_ (fun hx => ?_); rotate_left; rename State => z; rotate_right; unfold x; clear x)
  | (extract_lets +onlyGivenNames x; refine KeepsO.cut x ?_ (fun hx => ?_); rotate_left; rename State => z; rotate_right; unfold x; clear x)
  | (extract_lets +onlyGivenNames x; revert x; intro y)
  | (with_reducible refine keeps_failAttempt ?_ ?_ ..; rotate_left; (first | rfl | decide))
  | with_reducible refine Keeps.foldl ?_ (fun v e => ?_)
  | with_reducible refine Keeps.ite ?_ ?_
  | with_reducible refine KeepsO.ite ?_ ?_
  | split
  | exact Keeps.upd (by with_reducible assumption)
  | exact Keeps.upd (Keeps.refl _ _)
  | (clear_value *; split)

theorem keeps_execWaitExpiry (a0 a1 u) : KeepsO 0xC31000184 u (execWaitExpiry a0 a1 u) := by
  unfold execWaitExpiry
  repeat' first
  | with_reducible assumption
  | with_reducible exact Keeps.refl _ _
  | with_reducible refine KeepsO.next ?_
  | with_reducible exact KeepsO.fault _
  | (extract_lets +onlyGivenNames x; refine Keeps.cut x ?_ (fun hx => ?_); rotate_left; rename State => z; rotate_right; unfold x; clear x)
  | (extract_lets +onlyGivenNames x; refine KeepsO.cut x ?_ (fun hx => ?_); rotate_left; rename State => z; rotate_right; unfold x; clear x)
  | (extract_lets +onlyGivenNames x; revert x; intro y)
  | (with_reducible refine keeps_startAttempt ?_ ?_ ..; rotate_left; (first | rfl | decide))
  | (with_reducible refine keeps_eventOpen ?_ ?_ ..; rotate_left; (first | rfl | decide))
  | (with_reducible refine keeps_updLink ?_ ?_ ..; rotate_left; (first | rfl | decide))
  | (with_reducible refine Keeps.put ?_ ?_ ?_; rotate_left; (first | rfl | decide); (first | rfl | decide))
  | with_reducible refine Keeps.foldl ?_ (fun v e => ?_)
  | with_reducible refine Keeps.ite ?_ ?_
  | with_reducible refine KeepsO.ite ?_ ?_
  | split
  | exact Keeps.upd (by with_reducible assumption)
  | exact Keeps.upd (Keeps.refl _ _)
  | (clear_value *; split)

theorem keeps_execDownExpiry (a0 a1 u) : KeepsO 0x10000100 u (execDownExpiry a0 a1 u) := by
  unfold execDownExpiry
  repeat' first
  | with_reducible assumption
  | with_reducible exact Keeps.refl _ _
  | with_reducible refine KeepsO.next ?_
  | with_reducible exact KeepsO.fault _
  | (extract_lets +onlyGivenNames x; refine Keeps.cut x ?_ (fun hx => ?_); rotate_left; rename State => z; rotate_right; unfold x; clear x)
  | (extract_lets +onlyGivenNames x; refine KeepsO.cut x ?_ (fun hx => ?_); rotate_left; rename State => z; rotate_right; unfold x; clear x)
  | (extract_lets +onlyGivenNames x; revert x; intro y)
  | (with_reducible refine keeps_startAttempt ?_ ?_ ..; rotate_left; (first | rfl | decide))
  | with_reducible refine Keeps.foldl ?_ (fun v e => ?_)
  | with_reducible refine Keeps.ite ?_ ?_
  | with_reducible refine KeepsO.ite ?_ ?_
  | split
  | exact Keeps.upd (by with_reducible assumption)
  | exact Keeps.upd (Keeps.refl _ _)
  | (clear_value *; split)

theorem keeps_execSealLoss (a0 a1 u) : KeepsO 0xC33040184 u (execSealLoss a0 a1 u) := by
  unfold execSealLoss
  repeat' first
  | with_reducible assumption
  | with_reducible exact Keeps.refl _ _
  | with_reducible refine KeepsO.next ?_
  | with_reducible exact KeepsO.fault _
  | (extract_lets +onlyGivenNames x; refine Keeps.cut x ?_ (fun hx => ?_); rotate_left; rename State => z; rotate_right; unfold x; clear x)
  | (extract_lets +onlyGivenNames x; refine KeepsO.cut x ?_ (fun hx => ?_); rotate_left; rename State => z; rotate_right; unfold x; clear x)
  | (extract_lets +onlyGivenNames x; revert x; intro y)
  | (with_reducible refine keeps_leaveUp ?_ ?_ ..; rotate_left; (first | rfl | decide))
  | with_reducible refine Keeps.foldl ?_ (fun v e => ?_)
  | with_reducible refine Keeps.ite ?_ ?_
  | with_reducible refine KeepsO.ite ?_ ?_
  | split
  | exact Keeps.upd (by with_reducible assumption)
  | exact Keeps.upd (Keeps.refl _ _)
  | (clear_value *; split)

theorem keeps_execBerExcess (a0 u) : KeepsO 0xC33040184 u (execBerExcess a0 u) := by
  unfold execBerExcess
  repeat' first
  | with_reducible assumption
  | with_reducible exact Keeps.refl _ _
  | with_reducible refine KeepsO.next ?_
  | with_reducible exact KeepsO.fault _
  | (extract_lets +onlyGivenNames x; refine Keeps.cut x ?_ (fun hx => ?_); rotate_left; rename State => z; rotate_right; unfold x; clear x)
  | (extract_lets +onlyGivenNames x; refine KeepsO.cut x ?_ (fun hx => ?_); rotate_left; rename State => z; rotate_right; unfold x; clear x)
  | (extract_lets +onlyGivenNames x; revert x; intro y)
  | (with_reducible refine keeps_leaveUp ?_ ?_ ..; rotate_left; (first | rfl | decide))
  | with_reducible refine Keeps.foldl ?_ (fun v e => ?_)
  | with_reducible refine Keeps.ite ?_ ?_
  | with_reducible refine KeepsO.ite ?_ ?_
  | split
  | exact Keeps.upd (by with_reducible assumption)
  | exact Keeps.upd (Keeps.refl _ _)
  | (clear_value *; split)

theorem keeps_execResendLimit (a0 a1 u) : KeepsO 0xC33040184 u (execResendLimit a0 a1 u) := by
  unfold execResendLimit
  repeat' first
  | with_reducible assumption
  | with_reducible exact Keeps.refl _ _
  | with_reducible refine KeepsO.next ?_
  | with_reducible exact KeepsO.fault _
  | (extract_lets +onlyGivenNames x; refine Keeps.cut x ?_ (fun hx => ?_); rotate_left; rename State => z; rotate_right; unfold x; clear x)
  | (extract_lets +onlyGivenNames x; refine KeepsO.cut x ?_ (fun hx => ?_); rotate_left; rename State => z; rotate_right; unfold x; clear x)
  | (extract_lets +onlyGivenNames x; revert x; intro y)
  | (with_reducible refine keeps_leaveUp ?_ ?_ ..; rotate_left; (first | rfl | decide))
  | (with_reducible refine Keeps.raise ?_ ?_ ?_ ?_; rotate_left; (first | rfl | decide); (first | rfl | decide); (first | rfl | decide))
  | with_reducible refine Keeps.foldl ?_ (fun v e => ?_)
  | with_reducible refine Keeps.ite ?_ ?_
  | with_reducible refine KeepsO.ite ?_ ?_
  | split
  | exact Keeps.upd (by with_reducible assumption)
  | exact Keeps.upd (Keeps.refl _ _)
  | (clear_value *; split)

theorem keeps_execLightLost (a0 u) : KeepsO 0xC33040184 u (execLightLost a0 u) := by
  unfold execLightLost
  repeat' first
  | with_reducible assumption
  | with_reducible exact Keeps.refl _ _
  | with_reducible refine KeepsO.next ?_
  | with_reducible exact KeepsO.fault _
  | (extract_lets +onlyGivenNames x; refine Keeps.cut x ?_ (fun hx => ?_); rotate_left; rename State => z; rotate_right; unfold x; clear x)
  | (extract_lets +onlyGivenNames x; refine KeepsO.cut x ?_ (fun hx => ?_); rotate_left; rename State => z; rotate_right; unfold x; clear x)
  | (extract_lets +onlyGivenNames x; revert x; intro y)
  | (with_reducible refine keeps_leaveUp ?_ ?_ ..; rotate_left; (first | rfl | decide))
  | (with_reducible refine Keeps.put ?_ ?_ ?_; rotate_left; (first | rfl | decide); (first | rfl | decide))
  | with_reducible refine Keeps.foldl ?_ (fun v e => ?_)
  | with_reducible refine Keeps.ite ?_ ?_
  | with_reducible refine KeepsO.ite ?_ ?_
  | split
  | exact Keeps.upd (by with_reducible assumption)
  | exact Keeps.upd (Keeps.refl _ _)
  | (clear_value *; split)

theorem keeps_execThetaUpdate (a0 u) : KeepsO 0x10000100 u (execThetaUpdate a0 u) := by
  unfold execThetaUpdate
  repeat' first
  | with_reducible assumption
  | with_reducible exact Keeps.refl _ _
  | with_reducible refine KeepsO.next ?_
  | with_reducible exact KeepsO.fault _
  | (extract_lets +onlyGivenNames x; refine Keeps.cut x ?_ (fun hx => ?_); rotate_left; rename State => z; rotate_right; unfold x; clear x)
  | (extract_lets +onlyGivenNames x; refine KeepsO.cut x ?_ (fun hx => ?_); rotate_left; rename State => z; rotate_right; unfold x; clear x)
  | (extract_lets +onlyGivenNames x; revert x; intro y)
  | (with_reducible refine keeps_followParent ?_ ?_ ..; rotate_left; (first | rfl | decide))
  | (with_reducible refine Keeps.put ?_ ?_ ?_; rotate_left; (first | rfl | decide); (first | rfl | decide))
  | with_reducible refine Keeps.foldl ?_ (fun v e => ?_)
  | with_reducible refine Keeps.ite ?_ ?_
  | with_reducible refine KeepsO.ite ?_ ?_
  | split
  | exact Keeps.upd (by with_reducible assumption)
  | exact Keeps.upd (Keeps.refl _ _)
  | (clear_value *; split)

theorem keeps_execParentSwitch (u) : KeepsO 0x10000100 u (execParentSwitch u) := by
  unfold execParentSwitch
  repeat' first
  | with_reducible assumption
  | with_reducible exact Keeps.refl _ _
  | with_reducible refine KeepsO.next ?_
  | with_reducible exact KeepsO.fault _
  | (extract_lets +onlyGivenNames x; refine Keeps.cut x ?_ (fun hx => ?_); rotate_left; rename State => z; rotate_right; unfold x; clear x)
  | (extract_lets +onlyGivenNames x; refine KeepsO.cut x ?_ (fun hx => ?_); rotate_left; rename State => z; rotate_right; unfold x; clear x)
  | (extract_lets +onlyGivenNames x; revert x; intro y)
  | (with_reducible refine keeps_followParent ?_ ?_ ..; rotate_left; (first | rfl | decide))
  | with_reducible refine Keeps.foldl ?_ (fun v e => ?_)
  | with_reducible refine Keeps.ite ?_ ?_
  | with_reducible refine KeepsO.ite ?_ ?_
  | split
  | exact Keeps.upd (by with_reducible assumption)
  | exact Keeps.upd (Keeps.refl _ _)
  | (clear_value *; split)

theorem keeps_execTickUnaligned (a0 u) : KeepsO 0xC21000185 u (execTickUnaligned a0 u) := by
  unfold execTickUnaligned
  repeat' first
  | with_reducible assumption
  | with_reducible exact Keeps.refl _ _
  | with_reducible refine KeepsO.next ?_
  | with_reducible exact KeepsO.fault _
  | (extract_lets +onlyGivenNames x; refine Keeps.cut x ?_ (fun hx => ?_); rotate_left; rename State => z; rotate_right; unfold x; clear x)
  | (extract_lets +onlyGivenNames x; refine KeepsO.cut x ?_ (fun hx => ?_); rotate_left; rename State => z; rotate_right; unfold x; clear x)
  | (extract_lets +onlyGivenNames x; revert x; intro y)
  | (with_reducible refine keeps_eventOpen ?_ ?_ ..; rotate_left; (first | rfl | decide))
  | (with_reducible refine keeps_setUnaligned ?_ ?_ ..; rotate_left; (first | rfl | decide))
  | with_reducible refine Keeps.foldl ?_ (fun v e => ?_)
  | with_reducible refine Keeps.ite ?_ ?_
  | with_reducible refine KeepsO.ite ?_ ?_
  | split
  | exact Keeps.upd (by with_reducible assumption)
  | exact Keeps.upd (Keeps.refl _ _)
  | (clear_value *; split)

theorem keeps_execTickRejoin (a0 a1 u) : KeepsO 0x10000101 u (execTickRejoin a0 a1 u) := by
  unfold execTickRejoin
  repeat' first
  | with_reducible assumption
  | with_reducible exact Keeps.refl _ _
  | with_reducible refine KeepsO.next ?_
  | with_reducible exact KeepsO.fault _
  | (extract_lets +onlyGivenNames x; refine Keeps.cut x ?_ (fun hx => ?_); rotate_left; rename State => z; rotate_right; unfold x; clear x)
  | (extract_lets +onlyGivenNames x; refine KeepsO.cut x ?_ (fun hx => ?_); rotate_left; rename State => z; rotate_right; unfold x; clear x)
  | (extract_lets +onlyGivenNames x; revert x; intro y)
  | (with_reducible refine keeps_rejoin ?_ ?_ ..; rotate_left; (first | rfl | decide))
  | with_reducible refine Keeps.foldl ?_ (fun v e => ?_)
  | with_reducible refine Keeps.ite ?_ ?_
  | with_reducible refine KeepsO.ite ?_ ?_
  | split
  | exact Keeps.upd (by with_reducible assumption)
  | exact Keeps.upd (Keeps.refl _ _)
  | (clear_value *; split)

end Sys2Proof.Machine
end

