-- ==== Sys2Proof/Laws/KeepsContexts.lean ====
section
/-!
SUPPORT. Laws/KeepsContexts.lean: what each operation of Machine/Contexts.lean leaves as it was (Laws/Keeps.lean).
-/
namespace Sys2Proof.Machine
set_option Elab.async false
set_option linter.unusedTactic false
set_option linter.unreachableTactic false

/-- What holds of an operation at another frame number holds with the number put back. -/
theorem Keeps.atFrame {L : Nat} {s : State} {n : Nat} {f : State → State} (hf : Keeps L { s with frame := n } (f { s with frame := n })) :
    Keeps L s { f { s with frame := n } with frame := s.frame } := by
  refine ⟨fun p hp => ?_, fun hc => hf.canonical hc, hf.sent, hf.draws⟩
  have h := hf.same p hp
  cases p <;> first | exact h | rfl

theorem keeps_eventAt {L : Nat} {s u : State} (h : Keeps L s u) (hm : 0x421000084 &&& L = 0x421000084) {a1 a2 a3 a4 a5} : Keeps L s (u.eventAt a1 a2 a3 a4 a5) := by
  refine h.step (m := 0x421000084) ?_ hm
  exact Keeps.atFrame (f := fun s => s.event a1 a2 a3 a4 a5) (keeps_event (Keeps.refl _ _) (by decide))

theorem keeps_eventAtD0 {L : Nat} {s u : State} (h : Keeps L s u) (hm : 0xC21000084 &&& L = 0xC21000084) {a1 a2 a3 a4} : Keeps L s (State.eventAtD0 u a1 a2 a3 a4) := by
  refine h.step (m := 0xC21000084) ?_ hm
  unfold State.eventAtD0
  repeat' first
  | with_reducible assumption
  | with_reducible exact Keeps.refl _ _
  | (extract_lets +onlyGivenNames x; refine Keeps.cut x ?_ (fun hx => ?_); rotate_left; rename State => z; rotate_right; unfold x; clear x)
  | (extract_lets +onlyGivenNames x; revert x; intro y)
  | (with_reducible refine keeps_eventAt ?_ ?_ ..; rotate_left; (first | rfl | decide))
  | (with_reducible refine Keeps.drawn ?_ ?_; rotate_left; (first | rfl | decide))
  | with_reducible refine Keeps.foldl ?_ (fun v e => ?_)
  | with_reducible refine Keeps.ite ?_ ?_
  | split
  | exact Keeps.upd (by with_reducible assumption)
  | exact Keeps.upd (Keeps.refl _ _)
  | (clear_value *; split)

theorem keeps_abandonCkpt {L : Nat} {s u : State} (h : Keeps L s u) (hm : 0xC23042084 &&& L = 0xC23042084) {a1 a2} : Keeps L s (State.abandonCkpt u a1 a2) := by
  refine h.step (m := 0xC23042084) ?_ hm
  unfold State.abandonCkpt
  repeat' first
  | with_reducible assumption
  | with_reducible exact Keeps.refl _ _
  | (extract_lets +onlyGivenNames x; refine Keeps.cut x ?_ (fun hx => ?_); rotate_left; rename State => z; rotate_right; unfold x; clear x)
  | (extract_lets +onlyGivenNames x; revert x; intro y)
  | (with_reducible refine keeps_updCtx ?_ ?_ ..; rotate_left; (first | rfl | decide))
  | (with_reducible refine keeps_eventAtD0 ?_ ?_ ..; rotate_left; (first | rfl | decide))
  | (with_reducible refine Keeps.raise ?_ ?_ ?_ ?_; rotate_left; (first | rfl | decide); (first | rfl | decide); (first | rfl | decide))
  | (with_reducible refine Keeps.bump ?_ ?_ ?_; rotate_left; (first | rfl | decide); (first | rfl | decide))
  | with_reducible refine Keeps.foldl ?_ (fun v e => ?_)
  | with_reducible refine Keeps.ite ?_ ?_
  | split
  | exact Keeps.upd (by with_reducible assumption)
  | exact Keeps.upd (Keeps.refl _ _)
  | (clear_value *; split)

theorem keeps_eventAtOpen {L : Nat} {s u : State} (h : Keeps L s u) (hm : 0xC21000084 &&& L = 0xC21000084) {a1 a2 a3} : Keeps L s (State.eventAtOpen u a1 a2 a3) := by
  refine h.step (m := 0xC21000084) ?_ hm
  unfold State.eventAtOpen
  repeat' first
  | with_reducible assumption
  | with_reducible exact Keeps.refl _ _
  | (extract_lets +onlyGivenNames x; refine Keeps.cut x ?_ (fun hx => ?_); rotate_left; rename State => z; rotate_right; unfold x; clear x)
  | (extract_lets +onlyGivenNames x; revert x; intro y)
  | (with_reducible refine keeps_eventAt ?_ ?_ ..; rotate_left; (first | rfl | decide))
  | (with_reducible refine Keeps.drawn ?_ ?_; rotate_left; (first | rfl | decide))
  | with_reducible refine Keeps.foldl ?_ (fun v e => ?_)
  | with_reducible refine Keeps.ite ?_ ?_
  | split
  | exact Keeps.upd (by with_reducible assumption)
  | exact Keeps.upd (Keeps.refl _ _)
  | (clear_value *; split)

theorem keeps_command {L : Nat} {s u : State} (h : Keeps L s u) (hm : 0x2042000 &&& L = 0x2042000) {a1 a2} : Keeps L s (State.command u a1 a2) := by
  refine h.step (m := 0x2042000) ?_ hm
  unfold State.command
  repeat' first
  | with_reducible assumption
  | with_reducible exact Keeps.refl _ _
  | (extract_lets +onlyGivenNames x; refine Keeps.cut x ?_ (fun hx => ?_); rotate_left; rename State => z; rotate_right; unfold x; clear x)
  | (extract_lets +onlyGivenNames x; revert x; intro y)
  | (with_reducible refine Keeps.put ?_ ?_ ?_; rotate_left; (first | rfl | decide); (first | rfl | decide))
  | (with_reducible refine keeps_enter ?_ ?_ ..; rotate_left; (first | rfl | decide))
  | (with_reducible refine keeps_updCtx ?_ ?_ ..; rotate_left; (first | rfl | decide))
  | (with_reducible refine Keeps.raise ?_ ?_ ?_ ?_; rotate_left; (first | rfl | decide); (first | rfl | decide); (first | rfl | decide))
  | with_reducible refine Keeps.foldl ?_ (fun v e => ?_)
  | with_reducible refine Keeps.ite ?_ ?_
  | split
  | exact Keeps.upd (by with_reducible assumption)
  | exact Keeps.upd (Keeps.refl _ _)
  | (clear_value *; split)

theorem keeps_pauseTo {L : Nat} {s u : State} (h : Keeps L s u) (hm : 0x2000 &&& L = 0x2000) {a1 a2} : Keeps L s (State.pauseTo u a1 a2) := by
  refine h.step (m := 0x2000) ?_ hm
  unfold State.pauseTo
  repeat' first
  | with_reducible assumption
  | with_reducible exact Keeps.refl _ _
  | (extract_lets +onlyGivenNames x; refine Keeps.cut x ?_ (fun hx => ?_); rotate_left; rename State => z; rotate_right; unfold x; clear x)
  | (extract_lets +onlyGivenNames x; revert x; intro y)
  | (with_reducible refine Keeps.put ?_ ?_ ?_; rotate_left; (first | rfl | decide); (first | rfl | decide))
  | with_reducible refine Keeps.foldl ?_ (fun v e => ?_)
  | with_reducible refine Keeps.ite ?_ ?_
  | split
  | exact Keeps.upd (by with_reducible assumption)
  | exact Keeps.upd (Keeps.refl _ _)
  | (clear_value *; split)

theorem keeps_startRestore {L : Nat} {s u : State} (h : Keeps L s u) (hm : 0x3006000 &&& L = 0x3006000) {a1 a2} : Keeps L s (State.startRestore u a1 a2) := by
  refine h.step (m := 0x3006000) ?_ hm
  unfold State.startRestore
  repeat' first
  | with_reducible assumption
  | with_reducible exact Keeps.refl _ _
  | (extract_lets +onlyGivenNames x; refine Keeps.cut x ?_ (fun hx => ?_); rotate_left; rename State => z; rotate_right; unfold x; clear x)
  | (extract_lets +onlyGivenNames x; revert x; intro y)
  | (with_reducible refine keeps_updCtx ?_ ?_ ..; rotate_left; (first | rfl | decide))
  | (with_reducible refine keeps_enterLoading ?_ ?_ ..; rotate_left; (first | rfl | decide))
  | with_reducible refine Keeps.foldl ?_ (fun v e => ?_)
  | with_reducible refine Keeps.ite ?_ ?_
  | split
  | exact Keeps.upd (by with_reducible assumption)
  | exact Keeps.upd (Keeps.refl _ _)
  | (clear_value *; split)

theorem keeps_enterFaulted {L : Nat} {s u : State} (h : Keeps L s u) (hm : 0xC23842084 &&& L = 0xC23842084) {a1 a2} : Keeps L s (State.enterFaulted u a1 a2) := by
  refine h.step (m := 0xC23842084) ?_ hm
  unfold State.enterFaulted
  repeat' first
  | with_reducible assumption
  | with_reducible exact Keeps.refl _ _
  | (extract_lets +onlyGivenNames x; refine Keeps.cut x ?_ (fun hx => ?_); rotate_left; rename State => z; rotate_right; unfold x; clear x)
  | (extract_lets +onlyGivenNames x; revert x; intro y)
  | (with_reducible refine Keeps.put ?_ ?_ ?_; rotate_left; (first | rfl | decide); (first | rfl | decide))
  | (with_reducible refine keeps_enter ?_ ?_ ..; rotate_left; (first | rfl | decide))
  | (with_reducible refine Keeps.raise ?_ ?_ ?_ ?_; rotate_left; (first | rfl | decide); (first | rfl | decide); (first | rfl | decide))
  | (with_reducible refine keeps_abandonCkpt ?_ ?_ ..; rotate_left; (first | rfl | decide))
  | (with_reducible refine keeps_abandonStep ?_ ?_ ..; rotate_left; (first | rfl | decide))
  | (with_reducible refine keeps_eventAtD0 ?_ ?_ ..; rotate_left; (first | rfl | decide))
  | (with_reducible refine keeps_updCtx ?_ ?_ ..; rotate_left; (first | rfl | decide))
  | with_reducible refine Keeps.foldl ?_ (fun v e => ?_)
  | with_reducible refine Keeps.ite ?_ ?_
  | split
  | exact Keeps.upd (by with_reducible assumption)
  | exact Keeps.upd (Keeps.refl _ _)
  | (clear_value *; split)

theorem keeps_restoreCommand {L : Nat} {s u : State} (h : Keeps L s u) (hm : 0xC23846084 &&& L = 0xC23846084) {a1 a2} : Keeps L s (State.restoreCommand u a1 a2) := by
  refine h.step (m := 0xC23846084) ?_ hm
  unfold State.restoreCommand
  repeat' first
  | with_reducible assumption
  | with_reducible exact Keeps.refl _ _
  | (extract_lets +onlyGivenNames x; refine Keeps.cut x ?_ (fun hx => ?_); rotate_left; rename State => z; rotate_right; unfold x; clear x)
  | (extract_lets +onlyGivenNames x; revert x; intro y)
  | (with_reducible refine keeps_startRestore ?_ ?_ ..; rotate_left; (first | rfl | decide))
  | (with_reducible refine keeps_abandonCkpt ?_ ?_ ..; rotate_left; (first | rfl | decide))
  | (with_reducible refine keeps_updCtx ?_ ?_ ..; rotate_left; (first | rfl | decide))
  | (with_reducible refine keeps_enterFaulted ?_ ?_ ..; rotate_left; (first | rfl | decide))
  | (with_reducible refine Keeps.raise ?_ ?_ ?_ ?_; rotate_left; (first | rfl | decide); (first | rfl | decide); (first | rfl | decide))
  | with_reducible refine Keeps.foldl ?_ (fun v e => ?_)
  | with_reducible refine Keeps.ite ?_ ?_
  | split
  | exact Keeps.upd (by with_reducible assumption)
  | exact Keeps.upd (Keeps.refl _ _)
  | (clear_value *; split)

theorem keeps_applyRecord {L : Nat} {s u : State} (h : Keeps L s u) (hm : 0x2002000 &&& L = 0x2002000) {a1 a2} : Keeps L s (State.applyRecord u a1 a2) := by
  refine h.step (m := 0x2002000) ?_ hm
  unfold State.applyRecord
  repeat' first
  | with_reducible assumption
  | with_reducible exact Keeps.refl _ _
  | (extract_lets +onlyGivenNames x; refine Keeps.cut x ?_ (fun hx => ?_); rotate_left; rename State => z; rotate_right; unfold x; clear x)
  | (extract_lets +onlyGivenNames x; revert x; intro y)
  | (with_reducible refine Keeps.put ?_ ?_ ?_; rotate_left; (first | rfl | decide); (first | rfl | decide))
  | (with_reducible refine keeps_updCtx ?_ ?_ ..; rotate_left; (first | rfl | decide))
  | with_reducible refine Keeps.foldl ?_ (fun v e => ?_)
  | with_reducible refine Keeps.ite ?_ ?_
  | split
  | exact Keeps.upd (by with_reducible assumption)
  | exact Keeps.upd (Keeps.refl _ _)
  | (clear_value *; split)

theorem keeps_place {L : Nat} {s u : State} (h : Keeps L s u) (hm : 0x6001000 &&& L = 0x6001000) {a1 a2} : Keeps L s (State.place u a1 a2) := by
  refine h.step (m := 0x6001000) ?_ hm
  unfold State.place
  repeat' first
  | with_reducible assumption
  | with_reducible exact Keeps.refl _ _
  | (extract_lets +onlyGivenNames x; refine Keeps.cut x ?_ (fun hx => ?_); rotate_left; rename State => z; rotate_right; unfold x; clear x)
  | (extract_lets +onlyGivenNames x; revert x; intro y)
  | (with_reducible refine keeps_updCtx ?_ ?_ ..; rotate_left; (first | rfl | decide))
  | (with_reducible refine keeps_updBatt ?_ ?_ ..; rotate_left; (first | rfl | decide))
  | (with_reducible refine Keeps.put ?_ ?_ ?_; rotate_left; (first | rfl | decide); (first | rfl | decide))
  | with_reducible refine Keeps.foldl ?_ (fun v e => ?_)
  | with_reducible refine Keeps.ite ?_ ?_
  | split
  | exact Keeps.upd (by with_reducible assumption)
  | exact Keeps.upd (Keeps.refl _ _)
  | (clear_value *; split)

theorem keeps_leaveGroup {L : Nat} {s u : State} (h : Keeps L s u) (hm : 0x400000100 &&& L = 0x400000100) {a1} : Keeps L s (State.leaveGroup u a1) := by
  refine h.step (m := 0x400000100) ?_ hm
  unfold State.leaveGroup
  repeat' first
  | with_reducible assumption
  | with_reducible exact Keeps.refl _ _
  | (extract_lets +onlyGivenNames x; refine Keeps.cut x ?_ (fun hx => ?_); rotate_left; rename State => z; rotate_right; unfold x; clear x)
  | (extract_lets +onlyGivenNames x; revert x; intro y)
  | (with_reducible refine keeps_record ?_ ?_ ..; rotate_left; (first | rfl | decide))
  | with_reducible refine Keeps.foldl ?_ (fun v e => ?_)
  | with_reducible refine Keeps.ite ?_ ?_
  | split
  | exact Keeps.upd (by with_reducible assumption)
  | exact Keeps.upd (Keeps.refl _ _)
  | (clear_value *; split)

theorem keeps_failLoad {L : Nat} {s u : State} (h : Keeps L s u) (hm : 0x2842020 &&& L = 0x2842020) {a1 a2 a3} : Keeps L s (State.failLoad u a1 a2 a3) := by
  refine h.step (m := 0x2842020) ?_ hm
  unfold State.failLoad
  repeat' first
  | with_reducible assumption
  | with_reducible exact Keeps.refl _ _
  | (extract_lets +onlyGivenNames x; refine Keeps.cut x ?_ (fun hx => ?_); rotate_left; rename State => z; rotate_right; unfold x; clear x)
  | (extract_lets +onlyGivenNames x; revert x; intro y)
  | (with_reducible refine keeps_hold ?_ ?_ ..; rotate_left; (first | rfl | decide))
  | (with_reducible refine Keeps.raise ?_ ?_ ?_ ?_; rotate_left; (first | rfl | decide); (first | rfl | decide); (first | rfl | decide))
  | (with_reducible refine Keeps.bump ?_ ?_ ?_; rotate_left; (first | rfl | decide); (first | rfl | decide))
  | (with_reducible refine keeps_updCtx ?_ ?_ ..; rotate_left; (first | rfl | decide))
  | (with_reducible refine keeps_enter ?_ ?_ ..; rotate_left; (first | rfl | decide))
  | with_reducible refine Keeps.foldl ?_ (fun v e => ?_)
  | with_reducible refine Keeps.ite ?_ ?_
  | split
  | exact Keeps.upd (by with_reducible assumption)
  | exact Keeps.upd (Keeps.refl _ _)
  | (clear_value *; split)

theorem keeps_dropDebt {L : Nat} {s u : State} (h : Keeps L s u) (hm : 0x6003000 &&& L = 0x6003000) {a1} : Keeps L s (State.dropDebt u a1) := by
  refine h.step (m := 0x6003000) ?_ hm
  unfold State.dropDebt
  repeat' first
  | with_reducible assumption
  | with_reducible exact Keeps.refl _ _
  | (extract_lets +onlyGivenNames x; refine Keeps.cut x ?_ (fun hx => ?_); rotate_left; rename State => z; rotate_right; unfold x; clear x)
  | (extract_lets +onlyGivenNames x; revert x; intro y)
  | (with_reducible refine Keeps.put ?_ ?_ ?_; rotate_left; (first | rfl | decide); (first | rfl | decide))
  | (with_reducible refine keeps_updCtx ?_ ?_ ..; rotate_left; (first | rfl | decide))
  | (with_reducible refine keeps_updBatt ?_ ?_ ..; rotate_left; (first | rfl | decide))
  | with_reducible refine Keeps.foldl ?_ (fun v e => ?_)
  | with_reducible refine Keeps.ite ?_ ?_
  | split
  | exact Keeps.upd (by with_reducible assumption)
  | exact Keeps.upd (Keeps.refl _ _)
  | (clear_value *; split)

theorem keeps_commandEnd {L : Nat} {s u : State} (h : Keeps L s u) (hm : 0xC278471A4 &&& L = 0xC278471A4) {a1} : Keeps L s (State.commandEnd u a1) := by
  refine h.step (m := 0xC278471A4) ?_ hm
  unfold State.commandEnd
  repeat' first
  | with_reducible assumption
  | with_reducible exact Keeps.refl _ _
  | (extract_lets +onlyGivenNames x; refine Keeps.cut x ?_ (fun hx => ?_); rotate_left; rename State => z; rotate_right; unfold x; clear x)
  | (extract_lets +onlyGivenNames x; revert x; intro y)
  | (with_reducible refine keeps_abandonStep ?_ ?_ ..; rotate_left; (first | rfl | decide))
  | (with_reducible refine keeps_updCtx ?_ ?_ ..; rotate_left; (first | rfl | decide))
  | (with_reducible refine keeps_leaveGroup ?_ ?_ ..; rotate_left; (first | rfl | decide))
  | (with_reducible refine keeps_failLoad ?_ ?_ ..; rotate_left; (first | rfl | decide))
  | (with_reducible refine keeps_dropDebt ?_ ?_ ..; rotate_left; (first | rfl | decide))
  | (with_reducible refine keeps_abandonCkpt ?_ ?_ ..; rotate_left; (first | rfl | decide))
  | (with_reducible refine Keeps.put ?_ ?_ ?_; rotate_left; (first | rfl | decide); (first | rfl | decide))
  | (with_reducible refine keeps_startRestore ?_ ?_ ..; rotate_left; (first | rfl | decide))
  | with_reducible refine Keeps.foldl ?_ (fun v e => ?_)
  | with_reducible refine Keeps.ite ?_ ?_
  | split
  | exact Keeps.upd (by with_reducible assumption)
  | exact Keeps.upd (Keeps.refl _ _)
  | (clear_value *; split)

theorem keeps_moduleHold {L : Nat} {s u : State} (h : Keeps L s u) (hm : 0x2802000 &&& L = 0x2802000) {a1} : Keeps L s (State.moduleHold u a1) := by
  refine h.step (m := 0x2802000) ?_ hm
  unfold State.moduleHold
  repeat' first
  | with_reducible assumption
  | with_reducible exact Keeps.refl _ _
  | (extract_lets +onlyGivenNames x; refine Keeps.cut x ?_ (fun hx => ?_); rotate_left; rename State => z; rotate_right; unfold x; clear x)
  | (extract_lets +onlyGivenNames x; revert x; intro y)
  | (with_reducible refine keeps_updCtx ?_ ?_ ..; rotate_left; (first | rfl | decide))
  | (with_reducible refine Keeps.put ?_ ?_ ?_; rotate_left; (first | rfl | decide); (first | rfl | decide))
  | (with_reducible refine keeps_enter ?_ ?_ ..; rotate_left; (first | rfl | decide))
  | (with_reducible refine keeps_releaseQueries ?_ ?_ ..; rotate_left; (first | rfl | decide))
  | (with_reducible refine keeps_abandonStep ?_ ?_ ..; rotate_left; (first | rfl | decide))
  | with_reducible refine Keeps.foldl ?_ (fun v e => ?_)
  | with_reducible refine Keeps.ite ?_ ?_
  | split
  | exact Keeps.upd (by with_reducible assumption)
  | exact Keeps.upd (Keeps.refl _ _)
  | (clear_value *; split)

theorem keeps_releaseCtx {L : Nat} {s u : State} (h : Keeps L s u) (hm : 0xE002000 &&& L = 0xE002000) {a1} : Keeps L s (State.releaseCtx u a1) := by
  refine h.step (m := 0xE002000) ?_ hm
  unfold State.releaseCtx
  repeat' first
  | with_reducible assumption
  | with_reducible exact Keeps.refl _ _
  | (extract_lets +onlyGivenNames x; refine Keeps.cut x ?_ (fun hx => ?_); rotate_left; rename State => z; rotate_right; unfold x; clear x)
  | (extract_lets +onlyGivenNames x; revert x; intro y)
  | (with_reducible refine keeps_updBatt ?_ ?_ ..; rotate_left; (first | rfl | decide))
  | (with_reducible refine keeps_updCtx ?_ ?_ ..; rotate_left; (first | rfl | decide))
  | (with_reducible refine keeps_enter ?_ ?_ ..; rotate_left; (first | rfl | decide))
  | with_reducible refine Keeps.foldl ?_ (fun v e => ?_)
  | with_reducible refine Keeps.ite ?_ ?_
  | split
  | exact Keeps.upd (by with_reducible assumption)
  | exact Keeps.upd (Keeps.refl _ _)
  | (clear_value *; split)

theorem keeps_zeroRegion {L : Nat} {s u : State} (h : Keeps L s u) (hm : 0x100000 &&& L = 0x100000) {a1} : Keeps L s (State.zeroRegion u a1) := by
  refine h.step (m := 0x100000) ?_ hm
  unfold State.zeroRegion
  repeat' first
  | with_reducible assumption
  | with_reducible exact Keeps.refl _ _
  | (extract_lets +onlyGivenNames x; refine Keeps.cut x ?_ (fun hx => ?_); rotate_left; rename State => z; rotate_right; unfold x; clear x)
  | (extract_lets +onlyGivenNames x; revert x; intro y)
  | (with_reducible refine Keeps.zeroBytes ?_ ?_; rotate_left; (first | rfl | decide))
  | with_reducible refine Keeps.foldl ?_ (fun v e => ?_)
  | with_reducible refine Keeps.ite ?_ ?_
  | split
  | exact Keeps.upd (by with_reducible assumption)
  | exact Keeps.upd (Keeps.refl _ _)
  | (clear_value *; split)

theorem keeps_execPark (a0 a1 u) : KeepsO 0x403842080 u (execPark a0 a1 u) := by
  unfold execPark
  repeat' first
  | with_reducible assumption
  | with_reducible exact Keeps.refl _ _
  | with_reducible refine KeepsO.next ?_
  | with_reducible exact KeepsO.fault _
  | (extract_lets +onlyGivenNames x; refine Keeps.cut x ?_ (fun hx => ?_); rotate_left; rename State => z; rotate_right; unfold x; clear x)
  | (extract_lets +onlyGivenNames x; refine KeepsO.cut x ?_ (fun hx => ?_); rotate_left; rename State => z; rotate_right; unfold x; clear x)
  | (extract_lets +onlyGivenNames x; revert x; intro y)
  | (with_reducible refine keeps_commandWrite ?_ ?_ (fun v => ?_); rotate_left; (first | rfl | decide); rotate_right)
  | (with_reducible refine keeps_command ?_ ?_ ..; rotate_left; (first | rfl | decide))
  | with_reducible refine Keeps.foldl ?_ (fun v e => ?_)
  | with_reducible refine Keeps.ite ?_ ?_
  | with_reducible refine KeepsO.ite ?_ ?_
  | split
  | exact Keeps.upd (by with_reducible assumption)
  | exact Keeps.upd (Keeps.refl _ _)
  | (clear_value *; split)

theorem keeps_execUnpark (a0 a1 u) : KeepsO 0x403842080 u (execUnpark a0 a1 u) := by
  unfold execUnpark
  repeat' first
  | with_reducible assumption
  | with_reducible exact Keeps.refl _ _
  | with_reducible refine KeepsO.next ?_
  | with_reducible exact KeepsO.fault _
  | (extract_lets +onlyGivenNames x; refine Keeps.cut x ?_ (fun hx => ?_); rotate_left; rename State => z; rotate_right; unfold x; clear x)
  | (extract_lets +onlyGivenNames x; refine KeepsO.cut x ?_ (fun hx => ?_); rotate_left; rename State => z; rotate_right; unfold x; clear x)
  | (extract_lets +onlyGivenNames x; revert x; intro y)
  | (with_reducible refine keeps_commandWrite ?_ ?_ (fun v => ?_); rotate_left; (first | rfl | decide); rotate_right)
  | (with_reducible refine keeps_command ?_ ?_ ..; rotate_left; (first | rfl | decide))
  | with_reducible refine Keeps.foldl ?_ (fun v e => ?_)
  | with_reducible refine Keeps.ite ?_ ?_
  | with_reducible refine KeepsO.ite ?_ ?_
  | split
  | exact Keeps.upd (by with_reducible assumption)
  | exact Keeps.upd (Keeps.refl _ _)
  | (clear_value *; split)

theorem keeps_execTeardown (a0 a1 u) : KeepsO 0x403842080 u (execTeardown a0 a1 u) := by
  unfold execTeardown
  repeat' first
  | with_reducible assumption
  | with_reducible exact Keeps.refl _ _
  | with_reducible refine KeepsO.next ?_
  | with_reducible exact KeepsO.fault _
  | (extract_lets +onlyGivenNames x; refine Keeps.cut x ?_ (fun hx => ?_); rotate_left; rename State => z; rotate_right; unfold x; clear x)
  | (extract_lets +onlyGivenNames x; refine KeepsO.cut x ?_ (fun hx => ?_); rotate_left; rename State => z; rotate_right; unfold x; clear x)
  | (extract_lets +onlyGivenNames x; revert x; intro y)
  | (with_reducible refine keeps_commandWrite ?_ ?_ (fun v => ?_); rotate_left; (first | rfl | decide); rotate_right)
  | (with_reducible refine keeps_command ?_ ?_ ..; rotate_left; (first | rfl | decide))
  | with_reducible refine Keeps.foldl ?_ (fun v e => ?_)
  | with_reducible refine Keeps.ite ?_ ?_
  | with_reducible refine KeepsO.ite ?_ ?_
  | split
  | exact Keeps.upd (by with_reducible assumption)
  | exact Keeps.upd (Keeps.refl _ _)
  | (clear_value *; split)

theorem keeps_execTeardownFence (a0 u) : KeepsO 0x2002000 u (execTeardownFence a0 u) := by
  unfold execTeardownFence
  repeat' first
  | with_reducible assumption
  | with_reducible exact Keeps.refl _ _
  | with_reducible refine KeepsO.next ?_
  | with_reducible exact KeepsO.fault _
  | (extract_lets +onlyGivenNames x; refine Keeps.cut x ?_ (fun hx => ?_); rotate_left; rename State => z; rotate_right; unfold x; clear x)
  | (extract_lets +onlyGivenNames x; refine KeepsO.cut x ?_ (fun hx => ?_); rotate_left; rename State => z; rotate_right; unfold x; clear x)
  | (extract_lets +onlyGivenNames x; revert x; intro y)
  | (with_reducible refine keeps_updCtx ?_ ?_ ..; rotate_left; (first | rfl | decide))
  | (with_reducible refine Keeps.bump ?_ ?_ ?_; rotate_left; (first | rfl | decide); (first | rfl | decide))
  | with_reducible refine Keeps.foldl ?_ (fun v e => ?_)
  | with_reducible refine Keeps.ite ?_ ?_
  | with_reducible refine KeepsO.ite ?_ ?_
  | split
  | exact Keeps.upd (by with_reducible assumption)
  | exact Keeps.upd (Keeps.refl _ _)
  | (clear_value *; split)

theorem keeps_execContextRelease (a0 a1 u) : KeepsO 0xE002000 u (execContextRelease a0 a1 u) := by
  unfold execContextRelease
  repeat' first
  | with_reducible assumption
  | with_reducible exact Keeps.refl _ _
  | with_reducible refine KeepsO.next ?_
  | with_reducible exact KeepsO.fault _
  | (extract_lets +onlyGivenNames x; refine Keeps.cut x ?_ (fun hx => ?_); rotate_left; rename State => z; rotate_right; unfold x; clear x)
  | (extract_lets +onlyGivenNames x; refine KeepsO.cut x ?_ (fun hx => ?_); rotate_left; rename State => z; rotate_right; unfold x; clear x)
  | (extract_lets +onlyGivenNames x; revert x; intro y)
  | (with_reducible refine keeps_releaseCtx ?_ ?_ ..; rotate_left; (first | rfl | decide))
  | with_reducible refine Keeps.foldl ?_ (fun v e => ?_)
  | with_reducible refine Keeps.ite ?_ ?_
  | with_reducible refine KeepsO.ite ?_ ?_
  | split
  | exact Keeps.upd (by with_reducible assumption)
  | exact Keeps.upd (Keeps.refl _ _)
  | (clear_value *; split)

theorem keeps_execDrainTimeout (a0 u) : KeepsO 0xE042000 u (execDrainTimeout a0 u) := by
  unfold execDrainTimeout
  repeat' first
  | with_reducible assumption
  | with_reducible exact Keeps.refl _ _
  | with_reducible refine KeepsO.next ?_
  | with_reducible exact KeepsO.fault _
  | (extract_lets +onlyGivenNames x; refine Keeps.cut x ?_ (fun hx => ?_); rotate_left; rename State => z; rotate_right; unfold x; clear x)
  | (extract_lets +onlyGivenNames x; refine KeepsO.cut x ?_ (fun hx => ?_); rotate_left; rename State => z; rotate_right; unfold x; clear x)
  | (extract_lets +onlyGivenNames x; revert x; intro y)
  | (with_reducible refine Keeps.raise ?_ ?_ ?_ ?_; rotate_left; (first | rfl | decide); (first | rfl | decide); (first | rfl | decide))
  | (with_reducible refine keeps_releaseCtx ?_ ?_ ..; rotate_left; (first | rfl | decide))
  | with_reducible refine Keeps.foldl ?_ (fun v e => ?_)
  | with_reducible refine Keeps.ite ?_ ?_
  | with_reducible refine KeepsO.ite ?_ ?_
  | split
  | exact Keeps.upd (by with_reducible assumption)
  | exact Keeps.upd (Keeps.refl _ _)
  | (clear_value *; split)

theorem keeps_execReleasedMemoryZeroed (a0 u) : KeepsO 0x2100000 u (execReleasedMemoryZeroed a0 u) := by
  unfold execReleasedMemoryZeroed
  repeat' first
  | with_reducible assumption
  | with_reducible exact Keeps.refl _ _
  | with_reducible refine KeepsO.next ?_
  | with_reducible exact KeepsO.fault _
  | (extract_lets +onlyGivenNames x; refine Keeps.cut x ?_ (fun hx => ?_); rotate_left; rename State => z; rotate_right; unfold x; clear x)
  | (extract_lets +onlyGivenNames x; refine KeepsO.cut x ?_ (fun hx => ?_); rotate_left; rename State => z; rotate_right; unfold x; clear x)
  | (extract_lets +onlyGivenNames x; revert x; intro y)
  | (with_reducible refine keeps_updCtx ?_ ?_ ..; rotate_left; (first | rfl | decide))
  | (with_reducible refine keeps_zeroRegion ?_ ?_ ..; rotate_left; (first | rfl | decide))
  | with_reducible refine Keeps.foldl ?_ (fun v e => ?_)
  | with_reducible refine Keeps.ite ?_ ?_
  | with_reducible refine KeepsO.ite ?_ ?_
  | split
  | exact Keeps.upd (by with_reducible assumption)
  | exact Keeps.upd (Keeps.refl _ _)
  | (clear_value *; split)

theorem keeps_execUnparkComplete (a0 u) : KeepsO 0x2002000 u (execUnparkComplete a0 u) := by
  unfold execUnparkComplete
  repeat' first
  | with_reducible assumption
  | with_reducible exact Keeps.refl _ _
  | with_reducible refine KeepsO.next ?_
  | with_reducible exact KeepsO.fault _
  | (extract_lets +onlyGivenNames x; refine Keeps.cut x ?_ (fun hx => ?_); rotate_left; rename State => z; rotate_right; unfold x; clear x)
  | (extract_lets +onlyGivenNames x; refine KeepsO.cut x ?_ (fun hx => ?_); rotate_left; rename State => z; rotate_right; unfold x; clear x)
  | (extract_lets +onlyGivenNames x; revert x; intro y)
  | (with_reducible refine keeps_enterReady ?_ ?_ ..; rotate_left; (first | rfl | decide))
  | with_reducible refine Keeps.foldl ?_ (fun v e => ?_)
  | with_reducible refine Keeps.ite ?_ ?_
  | with_reducible refine KeepsO.ite ?_ ?_
  | split
  | exact Keeps.upd (by with_reducible assumption)
  | exact Keeps.upd (Keeps.refl _ _)
  | (clear_value *; split)

theorem keeps_execContextFault (a0 u) : KeepsO 0xC23842084 u (execContextFault a0 u) := by
  unfold execContextFault
  repeat' first
  | with_reducible assumption
  | with_reducible exact Keeps.refl _ _
  | with_reducible refine KeepsO.next ?_
  | with_reducible exact KeepsO.fault _
  | (extract_lets +onlyGivenNames x; refine Keeps.cut x ?_ (fun hx => ?_); rotate_left; rename State => z; rotate_right; unfold x; clear x)
  | (extract_lets +onlyGivenNames x; refine KeepsO.cut x ?_ (fun hx => ?_); rotate_left; rename State => z; rotate_right; unfold x; clear x)
  | (extract_lets +onlyGivenNames x; revert x; intro y)
  | (with_reducible refine keeps_updCtx ?_ ?_ ..; rotate_left; (first | rfl | decide))
  | (with_reducible refine keeps_enterFaulted ?_ ?_ ..; rotate_left; (first | rfl | decide))
  | with_reducible refine Keeps.foldl ?_ (fun v e => ?_)
  | with_reducible refine Keeps.ite ?_ ?_
  | with_reducible refine KeepsO.ite ?_ ?_
  | split
  | exact Keeps.upd (by with_reducible assumption)
  | exact Keeps.upd (Keeps.refl _ _)
  | (clear_value *; split)

theorem keeps_execPauseWrite (a0 a1 a2 u) : KeepsO 0x401802080 u (execPauseWrite a0 a1 a2 u) := by
  unfold execPauseWrite
  repeat' first
  | with_reducible assumption
  | with_reducible exact Keeps.refl _ _
  | with_reducible refine KeepsO.next ?_
  | with_reducible exact KeepsO.fault _
  | (extract_lets +onlyGivenNames x; refine Keeps.cut x ?_ (fun hx => ?_); rotate_left; rename State => z; rotate_right; unfold x; clear x)
  | (extract_lets +onlyGivenNames x; refine KeepsO.cut x ?_ (fun hx => ?_); rotate_left; rename State => z; rotate_right; unfold x; clear x)
  | (extract_lets +onlyGivenNames x; revert x; intro y)
  | (with_reducible refine keeps_commandWrite ?_ ?_ (fun v => ?_); rotate_left; (first | rfl | decide); rotate_right)
  | (with_reducible refine keeps_pauseTo ?_ ?_ ..; rotate_left; (first | rfl | decide))
  | with_reducible refine Keeps.foldl ?_ (fun v e => ?_)
  | with_reducible refine Keeps.ite ?_ ?_
  | with_reducible refine KeepsO.ite ?_ ?_
  | split
  | exact Keeps.upd (by with_reducible assumption)
  | exact Keeps.upd (Keeps.refl _ _)
  | (clear_value *; split)

theorem keeps_execRestoreLatest (a0 a1 u) : KeepsO 0xC23846084 u (execRestoreLatest a0 a1 u) := by
  unfold execRestoreLatest
  repeat' first
  | with_reducible assumption
  | with_reducible exact Keeps.refl _ _
  | with_reducible refine KeepsO.next ?_
  | with_reducible exact KeepsO.fault _
  | (extract_lets +onlyGivenNames x; refine Keeps.cut x ?_ (fun hx => ?_); rotate_left; rename State => z; rotate_right; unfold x; clear x)
  | (extract_lets +onlyGivenNames x; refine KeepsO.cut x ?_ (fun hx => ?_); rotate_left; rename State => z; rotate_right; unfold x; clear x)
  | (extract_lets +onlyGivenNames x; revert x; intro y)
  | (with_reducible refine keeps_commandWrite ?_ ?_ (fun v => ?_); rotate_left; (first | rfl | decide); rotate_right)
  | (with_reducible refine keeps_restoreCommand ?_ ?_ ..; rotate_left; (first | rfl | decide))
  | with_reducible refine Keeps.foldl ?_ (fun v e => ?_)
  | with_reducible refine Keeps.ite ?_ ?_
  | with_reducible refine KeepsO.ite ?_ ?_
  | split
  | exact Keeps.upd (by with_reducible assumption)
  | exact Keeps.upd (Keeps.refl _ _)
  | (clear_value *; split)

theorem keeps_execRestorePrevious (a0 a1 u) : KeepsO 0xC23846084 u (execRestorePrevious a0 a1 u) := by
  unfold execRestorePrevious
  repeat' first
  | with_reducible assumption
  | with_reducible exact Keeps.refl _ _
  | with_reducible refine KeepsO.next ?_
  | with_reducible exact KeepsO.fault _
  | (extract_lets +onlyGivenNames x; refine Keeps.cut x ?_ (fun hx => ?_); rotate_left; rename State => z; rotate_right; unfold x; clear x)
  | (extract_lets +onlyGivenNames x; refine KeepsO.cut x ?_ (fun hx => ?_); rotate_left; rename State => z; rotate_right; unfold x; clear x)
  | (extract_lets +onlyGivenNames x; revert x; intro y)
  | (with_reducible refine keeps_commandWrite ?_ ?_ (fun v => ?_); rotate_left; (first | rfl | decide); rotate_right)
  | (with_reducible refine keeps_restoreCommand ?_ ?_ ..; rotate_left; (first | rfl | decide))
  | with_reducible refine Keeps.foldl ?_ (fun v e => ?_)
  | with_reducible refine Keeps.ite ?_ ?_
  | with_reducible refine KeepsO.ite ?_ ?_
  | split
  | exact Keeps.upd (by with_reducible assumption)
  | exact Keeps.upd (Keeps.refl _ _)
  | (clear_value *; split)

end Sys2Proof.Machine
end

