-- ==== Sys2Proof/Laws/KeepsCalibration.lean ====
section
/-!
SUPPORT. Laws/KeepsCalibration.lean: what each operation of Machine/Calibration.lean leaves as it was (Laws/Keeps.lean).
-/
namespace Sys2Proof.Machine
set_option Elab.async false
set_option linter.unusedTactic false
set_option linter.unreachableTactic false

theorem keeps_calEnd {L : Nat} {s u : State} (h : Keeps L s u) (hm : 0x4A1000094 &&& L = 0x4A1000094) {a1 a2} : Keeps L s (State.calEnd u a1 a2) := by
  refine h.step (m := 0x4A1000094) ?_ hm
  unfold State.calEnd
  repeat' first
  | with_reducible assumption
  | with_reducible exact Keeps.refl _ _
  | (extract_lets +onlyGivenNames x; refine Keeps.cut x ?_ (fun hx => ?_); rotate_left; rename State => z; rotate_right; unfold x; clear x)
  | (extract_lets +onlyGivenNames x; revert x; intro y)
  | (with_reducible refine Keeps.bump ?_ ?_ ?_; rotate_left; (first | rfl | decide); (first | rfl | decide))
  | (with_reducible refine Keeps.put ?_ ?_ ?_; rotate_left; (first | rfl | decide); (first | rfl | decide))
  | (with_reducible refine keeps_event ?_ ?_ ..; rotate_left; (first | rfl | decide))
  | with_reducible refine Keeps.foldl ?_ (fun v e => ?_)
  | with_reducible refine Keeps.ite ?_ ?_
  | split
  | exact Keeps.upd (by with_reducible assumption)
  | exact Keeps.upd (Keeps.refl _ _)
  | (clear_value *; split)

theorem keeps_calRefuse {L : Nat} {s u : State} (h : Keeps L s u) (hm : 0x421041094 &&& L = 0x421041094) {a1 a2 a3 a4} : Keeps L s (State.calRefuse u a1 a2 a3 a4) := by
  refine h.step (m := 0x421041094) ?_ hm
  unfold State.calRefuse
  repeat' first
  | with_reducible assumption
  | with_reducible exact Keeps.refl _ _
  | (extract_lets +onlyGivenNames x; refine Keeps.cut x ?_ (fun hx => ?_); rotate_left; rename State => z; rotate_right; unfold x; clear x)
  | (extract_lets +onlyGivenNames x; revert x; intro y)
  | (with_reducible refine Keeps.raise ?_ ?_ ?_ ?_; rotate_left; (first | rfl | decide); (first | rfl | decide); (first | rfl | decide))
  | (with_reducible refine Keeps.bump ?_ ?_ ?_; rotate_left; (first | rfl | decide); (first | rfl | decide))
  | (with_reducible refine Keeps.bumpSat ?_ ?_ ?_; rotate_left; (first | rfl | decide); (first | rfl | decide))
  | (with_reducible refine keeps_event ?_ ?_ ..; rotate_left; (first | rfl | decide))
  | with_reducible refine Keeps.foldl ?_ (fun v e => ?_)
  | with_reducible refine Keeps.ite ?_ ?_
  | split
  | exact Keeps.upd (by with_reducible assumption)
  | exact Keeps.upd (Keeps.refl _ _)
  | (clear_value *; split)

theorem keeps_calAbort {L : Nat} {s u : State} (h : Keeps L s u) (hm : 0x4A1041094 &&& L = 0x4A1041094) {a1} : Keeps L s (State.calAbort u a1) := by
  refine h.step (m := 0x4A1041094) ?_ hm
  unfold State.calAbort
  repeat' first
  | with_reducible assumption
  | with_reducible exact Keeps.refl _ _
  | (extract_lets +onlyGivenNames x; refine Keeps.cut x ?_ (fun hx => ?_); rotate_left; rename State => z; rotate_right; unfold x; clear x)
  | (extract_lets +onlyGivenNames x; revert x; intro y)
  | (with_reducible refine keeps_calEnd ?_ ?_ ..; rotate_left; (first | rfl | decide))
  | (with_reducible refine keeps_calRefuse ?_ ?_ ..; rotate_left; (first | rfl | decide))
  | with_reducible refine Keeps.foldl ?_ (fun v e => ?_)
  | with_reducible refine Keeps.ite ?_ ?_
  | split
  | exact Keeps.upd (by with_reducible assumption)
  | exact Keeps.upd (Keeps.refl _ _)
  | (clear_value *; split)

theorem keeps_calStart {L : Nat} {s u : State} (h : Keeps L s u) (hm : 0x84041010 &&& L = 0x84041010) {a1 a2 a3 a4} : Keeps L s (State.calStart u a1 a2 a3 a4) := by
  refine h.step (m := 0x84041010) ?_ hm
  unfold State.calStart
  repeat' first
  | with_reducible assumption
  | with_reducible exact Keeps.refl _ _
  | (extract_lets +onlyGivenNames x; refine Keeps.cut x ?_ (fun hx => ?_); rotate_left; rename State => z; rotate_right; unfold x; clear x)
  | (extract_lets +onlyGivenNames x; revert x; intro y)
  | (with_reducible refine Keeps.put ?_ ?_ ?_; rotate_left; (first | rfl | decide); (first | rfl | decide))
  | (with_reducible refine Keeps.raise ?_ ?_ ?_ ?_; rotate_left; (first | rfl | decide); (first | rfl | decide); (first | rfl | decide))
  | (with_reducible refine keeps_updBatt ?_ ?_ ..; rotate_left; (first | rfl | decide))
  | with_reducible refine Keeps.foldl ?_ (fun v e => ?_)
  | with_reducible refine Keeps.ite ?_ ?_
  | split
  | exact Keeps.upd (by with_reducible assumption)
  | exact Keeps.upd (Keeps.refl _ _)
  | (clear_value *; split)

theorem keeps_calAccept {L : Nat} {s u : State} (h : Keeps L s u) (hm : 0x80001000 &&& L = 0x80001000) {a1 a2 a3 a4} : Keeps L s (State.calAccept u a1 a2 a3 a4) := by
  refine h.step (m := 0x80001000) ?_ hm
  unfold State.calAccept
  repeat' first
  | with_reducible assumption
  | with_reducible exact Keeps.refl _ _
  | (extract_lets +onlyGivenNames x; refine Keeps.cut x ?_ (fun hx => ?_); rotate_left; rename State => z; rotate_right; unfold x; clear x)
  | (extract_lets +onlyGivenNames x; revert x; intro y)
  | (with_reducible refine Keeps.put ?_ ?_ ?_; rotate_left; (first | rfl | decide); (first | rfl | decide))
  | with_reducible refine Keeps.foldl ?_ (fun v e => ?_)
  | with_reducible refine Keeps.ite ?_ ?_
  | split
  | exact Keeps.upd (by with_reducible assumption)
  | exact Keeps.upd (Keeps.refl _ _)
  | (clear_value *; split)

theorem keeps_calGo {L : Nat} {s u : State} (h : Keeps L s u) (hm : 0x485841090 &&& L = 0x485841090) {a1 a2 a3 a4} : Keeps L s (State.calGo u a1 a2 a3 a4) := by
  refine h.step (m := 0x485841090) ?_ hm
  unfold State.calGo
  repeat' first
  | with_reducible assumption
  | with_reducible exact Keeps.refl _ _
  | (extract_lets +onlyGivenNames x; refine Keeps.cut x ?_ (fun hx => ?_); rotate_left; rename State => z; rotate_right; unfold x; clear x)
  | (extract_lets +onlyGivenNames x; revert x; intro y)
  | (with_reducible refine keeps_commandWriteIf ?_ ?_ (fun v => ?_); rotate_left; (first | rfl | decide); rotate_right)
  | (with_reducible refine keeps_calStart ?_ ?_ ..; rotate_left; (first | rfl | decide))
  | with_reducible refine Keeps.foldl ?_ (fun v e => ?_)
  | with_reducible refine Keeps.ite ?_ ?_
  | split
  | exact Keeps.upd (by with_reducible assumption)
  | exact Keeps.upd (Keeps.refl _ _)
  | (clear_value *; split)

theorem keeps_calTick {L : Nat} {s u : State} (h : Keeps L s u) (hm : 0x80001010 &&& L = 0x80001010)  : Keeps L s (State.calTick u) := by
  refine h.step (m := 0x80001010) ?_ hm
  unfold State.calTick
  repeat' first
  | with_reducible assumption
  | with_reducible exact Keeps.refl _ _
  | (extract_lets +onlyGivenNames x; refine Keeps.cut x ?_ (fun hx => ?_); rotate_left; rename State => z; rotate_right; unfold x; clear x)
  | (extract_lets +onlyGivenNames x; revert x; intro y)
  | (with_reducible refine Keeps.put ?_ ?_ ?_; rotate_left; (first | rfl | decide); (first | rfl | decide))
  | with_reducible refine Keeps.foldl ?_ (fun v e => ?_)
  | with_reducible refine Keeps.ite ?_ ?_
  | split
  | exact Keeps.upd (by with_reducible assumption)
  | exact Keeps.upd (Keeps.refl _ _)
  | (clear_value *; split)

theorem keeps_execCalBattItems (a0 a1 a2 u) : KeepsO 0x485841090 u (execCalBattItems a0 a1 a2 u) := by
  unfold execCalBattItems
  repeat' first
  | with_reducible assumption
  | with_reducible exact Keeps.refl _ _
  | with_reducible refine KeepsO.next ?_
  | with_reducible exact KeepsO.fault _
  | (extract_lets +onlyGivenNames x; refine Keeps.cut x ?_ (fun hx => ?_); rotate_left; rename State => z; rotate_right; unfold x; clear x)
  | (extract_lets +onlyGivenNames x; refine KeepsO.cut x ?_ (fun hx => ?_); rotate_left; rename State => z; rotate_right; unfold x; clear x)
  | (extract_lets +onlyGivenNames x; revert x; intro y)
  | (with_reducible refine keeps_calGo ?_ ?_ ..; rotate_left; (first | rfl | decide))
  | with_reducible refine Keeps.foldl ?_ (fun v e => ?_)
  | with_reducible refine Keeps.ite ?_ ?_
  | with_reducible refine KeepsO.ite ?_ ?_
  | split
  | exact Keeps.upd (by with_reducible assumption)
  | exact Keeps.upd (Keeps.refl _ _)
  | (clear_value *; split)

theorem keeps_execCalFwdSigma (a0 u) : KeepsO 0x485841090 u (execCalFwdSigma a0 u) := by
  unfold execCalFwdSigma
  repeat' first
  | with_reducible assumption
  | with_reducible exact Keeps.refl _ _
  | with_reducible refine KeepsO.next ?_
  | with_reducible exact KeepsO.fault _
  | (extract_lets +onlyGivenNames x; refine Keeps.cut x ?_ (fun hx => ?_); rotate_left; rename State => z; rotate_right; unfold x; clear x)
  | (extract_lets +onlyGivenNames x; refine KeepsO.cut x ?_ (fun hx => ?_); rotate_left; rename State => z; rotate_right; unfold x; clear x)
  | (extract_lets +onlyGivenNames x; revert x; intro y)
  | (with_reducible refine keeps_calGo ?_ ?_ ..; rotate_left; (first | rfl | decide))
  | with_reducible refine Keeps.foldl ?_ (fun v e => ?_)
  | with_reducible refine Keeps.ite ?_ ?_
  | with_reducible refine KeepsO.ite ?_ ?_
  | split
  | exact Keeps.upd (by with_reducible assumption)
  | exact Keeps.upd (Keeps.refl _ _)
  | (clear_value *; split)

theorem keeps_execCalPIdle (a0 u) : KeepsO 0x485841090 u (execCalPIdle a0 u) := by
  unfold execCalPIdle
  repeat' first
  | with_reducible assumption
  | with_reducible exact Keeps.refl _ _
  | with_reducible refine KeepsO.next ?_
  | with_reducible exact KeepsO.fault _
  | (extract_lets +onlyGivenNames x; refine Keeps.cut x ?_ (fun hx => ?_); rotate_left; rename State => z; rotate_right; unfold x; clear x)
  | (extract_lets +onlyGivenNames x; refine KeepsO.cut x ?_ (fun hx => ?_); rotate_left; rename State => z; rotate_right; unfold x; clear x)
  | (extract_lets +onlyGivenNames x; revert x; intro y)
  | (with_reducible refine keeps_calGo ?_ ?_ ..; rotate_left; (first | rfl | decide))
  | with_reducible refine Keeps.foldl ?_ (fun v e => ?_)
  | with_reducible refine Keeps.ite ?_ ?_
  | with_reducible refine KeepsO.ite ?_ ?_
  | split
  | exact Keeps.upd (by with_reducible assumption)
  | exact Keeps.upd (Keeps.refl _ _)
  | (clear_value *; split)

theorem keeps_execCalMonRef (a0 u) : KeepsO 0x485841090 u (execCalMonRef a0 u) := by
  unfold execCalMonRef
  repeat' first
  | with_reducible assumption
  | with_reducible exact Keeps.refl _ _
  | with_reducible refine KeepsO.next ?_
  | with_reducible exact KeepsO.fault _
  | (extract_lets +onlyGivenNames x; refine Keeps.cut x ?_ (fun hx => ?_); rotate_left; rename State => z; rotate_right; unfold x; clear x)
  | (extract_lets +onlyGivenNames x; refine KeepsO.cut x ?_ (fun hx => ?_); rotate_left; rename State => z; rotate_right; unfold x; clear x)
  | (extract_lets +onlyGivenNames x; revert x; intro y)
  | (with_reducible refine keeps_calGo ?_ ?_ ..; rotate_left; (first | rfl | decide))
  | with_reducible refine Keeps.foldl ?_ (fun v e => ?_)
  | with_reducible refine Keeps.ite ?_ ?_
  | with_reducible refine KeepsO.ite ?_ ?_
  | split
  | exact Keeps.upd (by with_reducible assumption)
  | exact Keeps.upd (Keeps.refl _ _)
  | (clear_value *; split)

theorem keeps_execCalSensorMap (a0 a1 u) : KeepsO 0x485841090 u (execCalSensorMap a0 a1 u) := by
  unfold execCalSensorMap
  repeat' first
  | with_reducible assumption
  | with_reducible exact Keeps.refl _ _
  | with_reducible refine KeepsO.next ?_
  | with_reducible exact KeepsO.fault _
  | (extract_lets +onlyGivenNames x; refine Keeps.cut x ?_ (fun hx => ?_); rotate_left; rename State => z; rotate_right; unfold x; clear x)
  | (extract_lets +onlyGivenNames x; refine KeepsO.cut x ?_ (fun hx => ?_); rotate_left; rename State => z; rotate_right; unfold x; clear x)
  | (extract_lets +onlyGivenNames x; revert x; intro y)
  | (with_reducible refine keeps_calGo ?_ ?_ ..; rotate_left; (first | rfl | decide))
  | with_reducible refine Keeps.foldl ?_ (fun v e => ?_)
  | with_reducible refine Keeps.ite ?_ ?_
  | with_reducible refine KeepsO.ite ?_ ?_
  | split
  | exact Keeps.upd (by with_reducible assumption)
  | exact Keeps.upd (Keeps.refl _ _)
  | (clear_value *; split)

theorem keeps_execCalRingBias (a0 a1 u) : KeepsO 0x485841090 u (execCalRingBias a0 a1 u) := by
  unfold execCalRingBias
  repeat' first
  | with_reducible assumption
  | with_reducible exact Keeps.refl _ _
  | with_reducible refine KeepsO.next ?_
  | with_reducible exact KeepsO.fault _
  | (extract_lets +onlyGivenNames x; refine Keeps.cut x ?_ (fun hx => ?_); rotate_left; rename State => z; rotate_right; unfold x; clear x)
  | (extract_lets +onlyGivenNames x; refine KeepsO.cut x ?_ (fun hx => ?_); rotate_left; rename State => z; rotate_right; unfold x; clear x)
  | (extract_lets +onlyGivenNames x; revert x; intro y)
  | (with_reducible refine keeps_calGo ?_ ?_ ..; rotate_left; (first | rfl | decide))
  | with_reducible refine Keeps.foldl ?_ (fun v e => ?_)
  | with_reducible refine Keeps.ite ?_ ?_
  | with_reducible refine KeepsO.ite ?_ ?_
  | split
  | exact Keeps.upd (by with_reducible assumption)
  | exact Keeps.upd (Keeps.refl _ _)
  | (clear_value *; split)

theorem keeps_calDecide {L : Nat} {s : State} (hm : 0x4A1041094 &&& L = 0x4A1041094) {run : CalRun} {x : State × Nat × Nat} {i : CalItem}
    (h : Keeps L s x.1) : Keeps L s (State.calDecide run x i).1 := by
  unfold State.calDecide
  extract_lets s0 old v
  split
  · exact h
  split
  · exact keeps_calRefuse h (sub_trans (by decide) hm)
  split
  · exact keeps_calRefuse h (sub_trans (by decide) hm)
  split
  · exact keeps_calRefuse h (sub_trans (by decide) hm)
  split
  · exact keeps_calRefuse h (sub_trans (by decide) hm)
  · exact keeps_calAccept h (sub_trans (by decide) hm)

theorem keeps_calDecide_foldl {L : Nat} {s : State} (hm : 0x4A1041094 &&& L = 0x4A1041094) {run : CalRun} {l : List CalItem}
    {x : State × Nat × Nat} (h : Keeps L s x.1) : Keeps L s (l.foldl (State.calDecide run) x).1 := by
  induction l generalizing x with
  | nil => exact h
  | cons i r ih => exact ih (keeps_calDecide hm h)

theorem keeps_execCalRunComplete (a0 a1 u) : KeepsO 0xCA1041094 u (execCalRunComplete a0 a1 u) := by
  unfold execCalRunComplete
  refine KeepsO.next ?_
  split
  · exact Keeps.refl _ _
  refine Keeps.ite (Keeps.refl _ _) ?_
  have h0 : ∀ run : CalRun, Keeps 0xCA1041094 u (if run.scope = 0 then
      let s := u.put F.CAL_BATT_RESID run.unit (min 255 a1)
      if 16 < a1 then (s.raise F.CAL_EVT_RESID_HIGH 0).eventOpen 0x060B 3 run.unit else s
    else u) := by
    intro run
    refine Keeps.ite (Keeps.ite (keeps_eventOpen (((Keeps.refl _ _).put rfl rfl).raise rfl rfl rfl) (by decide)) ?_) (Keeps.refl _ _)
    exact (Keeps.refl _ _).put rfl rfl
  exact keeps_calEnd (keeps_calDecide_foldl (by decide) (h0 _)) (by decide)

end Sys2Proof.Machine
end

