-- ==== Sys2Proof/Laws/KeepsSync.lean ====
section
/-!
SUPPORT. Laws/KeepsSync.lean: what each operation of Machine/Sync.lean leaves as it was (Laws/Keeps.lean).
-/
namespace Sys2Proof.Machine
set_option Elab.async false
set_option linter.unusedTactic false
set_option linter.unreachableTactic false

theorem keeps_showWaits {L : Nat} {s u : State} (h : Keeps L s u) (hm : 0x400 &&& L = 0x400) {a1} : Keeps L s (State.showWaits u a1) := by
  refine h.step (m := 0x400) ?_ hm
  unfold State.showWaits
  repeat' first
  | with_reducible assumption
  | with_reducible exact Keeps.refl _ _
  | (extract_lets +onlyGivenNames x; refine Keeps.cut x ?_ (fun hx => ?_); rotate_left; rename State => z; rotate_right; unfold x; clear x)
  | (extract_lets +onlyGivenNames x; revert x; intro y)
  | (with_reducible refine Keeps.put ?_ ?_ ?_; rotate_left; (first | rfl | decide); (first | rfl | decide))
  | with_reducible refine Keeps.foldl ?_ (fun v e => ?_)
  | with_reducible refine Keeps.ite ?_ ?_
  | split
  | exact Keeps.upd (by with_reducible assumption)
  | exact Keeps.upd (Keeps.refl _ _)
  | (clear_value *; split)

theorem keeps_putSet {L : Nat} {s u : State} (h : Keeps L s u) (hm : 0x8000000 &&& L = 0x8000000) {a1 a2 a3} : Keeps L s (State.putSet u a1 a2 a3) := by
  refine h.step (m := 0x8000000) ?_ hm
  unfold State.putSet
  repeat' first
  | with_reducible assumption
  | with_reducible exact Keeps.refl _ _
  | (extract_lets +onlyGivenNames x; refine Keeps.cut x ?_ (fun hx => ?_); rotate_left; rename State => z; rotate_right; unfold x; clear x)
  | (extract_lets +onlyGivenNames x; revert x; intro y)
  | (with_reducible refine keeps_updCore ?_ ?_ ..; rotate_left; (first | rfl | decide))
  | with_reducible refine Keeps.foldl ?_ (fun v e => ?_)
  | with_reducible refine Keeps.ite ?_ ?_
  | split
  | exact Keeps.upd (by with_reducible assumption)
  | exact Keeps.upd (Keeps.refl _ _)
  | (clear_value *; split)

theorem keeps_count {L : Nat} {s u : State} (h : Keeps L s u) (hm : 0x8000000 &&& L = 0x8000000) {a1 a2 a3 a4 a5 a6} : Keeps L s (State.count u a1 a2 a3 a4 a5 a6) := by
  refine h.step (m := 0x8000000) ?_ hm
  unfold State.count
  repeat' first
  | with_reducible assumption
  | with_reducible exact Keeps.refl _ _
  | (extract_lets +onlyGivenNames x; refine Keeps.cut x ?_ (fun hx => ?_); rotate_left; rename State => z; rotate_right; unfold x; clear x)
  | (extract_lets +onlyGivenNames x; revert x; intro y)
  | (with_reducible refine keeps_putSet ?_ ?_ ..; rotate_left; (first | rfl | decide))
  | with_reducible refine Keeps.foldl ?_ (fun v e => ?_)
  | with_reducible refine Keeps.ite ?_ ?_
  | split
  | exact Keeps.upd (by with_reducible assumption)
  | exact Keeps.upd (Keeps.refl _ _)
  | (clear_value *; split)

theorem keeps_countFar {L : Nat} {s u : State} (h : Keeps L s u) (hm : 0x8000000 &&& L = 0x8000000) {a1 a2 a3 a4 a5 a6} : Keeps L s (State.countFar u a1 a2 a3 a4 a5 a6) := by
  refine h.step (m := 0x8000000) ?_ hm
  unfold State.countFar
  repeat' first
  | with_reducible assumption
  | with_reducible exact Keeps.refl _ _
  | (extract_lets +onlyGivenNames x; refine Keeps.cut x ?_ (fun hx => ?_); rotate_left; rename State => z; rotate_right; unfold x; clear x)
  | (extract_lets +onlyGivenNames x; revert x; intro y)
  | (with_reducible refine keeps_updCore ?_ ?_ ..; rotate_left; (first | rfl | decide))
  | (with_reducible refine keeps_count ?_ ?_ ..; rotate_left; (first | rfl | decide))
  | with_reducible refine Keeps.foldl ?_ (fun v e => ?_)
  | with_reducible refine Keeps.ite ?_ ?_
  | split
  | exact Keeps.upd (by with_reducible assumption)
  | exact Keeps.upd (Keeps.refl _ _)
  | (clear_value *; split)

theorem keeps_applyArrived {L : Nat} {s u : State} (h : Keeps L s u) (hm : 0x8042000 &&& L = 0x8042000) {a1} : Keeps L s (State.applyArrived u a1) := by
  refine h.step (m := 0x8042000) ?_ hm
  unfold State.applyArrived
  repeat' first
  | with_reducible assumption
  | with_reducible exact Keeps.refl _ _
  | (extract_lets +onlyGivenNames x; refine Keeps.cut x ?_ (fun hx => ?_); rotate_left; rename State => z; rotate_right; unfold x; clear x)
  | (extract_lets +onlyGivenNames x; revert x; intro y)
  | (with_reducible refine keeps_countFar ?_ ?_ ..; rotate_left; (first | rfl | decide))
  | (with_reducible refine keeps_staleSignal ?_ ?_ ..; rotate_left; (first | rfl | decide))
  | with_reducible refine Keeps.foldl ?_ (fun v e => ?_)
  | with_reducible refine Keeps.ite ?_ ?_
  | split
  | exact Keeps.upd (by with_reducible assumption)
  | exact Keeps.upd (Keeps.refl _ _)
  | (clear_value *; split)

theorem keeps_applySignals {L : Nat} {s u : State} (h : Keeps L s u) (hm : 0x18042000 &&& L = 0x18042000)  : Keeps L s (State.applySignals u) := by
  refine h.step (m := 0x18042000) ?_ hm
  unfold State.applySignals
  repeat' first
  | with_reducible assumption
  | with_reducible exact Keeps.refl _ _
  | (extract_lets +onlyGivenNames x; refine Keeps.cut x ?_ (fun hx => ?_); rotate_left; rename State => z; rotate_right; unfold x; clear x)
  | (extract_lets +onlyGivenNames x; revert x; intro y)
  | (with_reducible refine keeps_applyArrived ?_ ?_ ..; rotate_left; (first | rfl | decide))
  | with_reducible refine Keeps.foldl ?_ (fun v e => ?_)
  | with_reducible refine Keeps.ite ?_ ?_
  | split
  | exact Keeps.upd (by with_reducible assumption)
  | exact Keeps.upd (Keeps.refl _ _)
  | (clear_value *; split)

theorem keeps_signalIn {L : Nat} {s u : State} (h : Keeps L s u) (hm : 0x8042000 &&& L = 0x8042000) {a1 a2 a3 a4 a5 a6} : Keeps L s (State.signalIn u a1 a2 a3 a4 a5 a6) := by
  refine h.step (m := 0x8042000) ?_ hm
  unfold State.signalIn
  repeat' first
  | with_reducible assumption
  | with_reducible exact Keeps.refl _ _
  | (extract_lets +onlyGivenNames x; refine Keeps.cut x ?_ (fun hx => ?_); rotate_left; rename State => z; rotate_right; unfold x; clear x)
  | (extract_lets +onlyGivenNames x; revert x; intro y)
  | (with_reducible refine keeps_count ?_ ?_ ..; rotate_left; (first | rfl | decide))
  | (with_reducible refine keeps_staleSignal ?_ ?_ ..; rotate_left; (first | rfl | decide))
  | with_reducible refine Keeps.foldl ?_ (fun v e => ?_)
  | with_reducible refine Keeps.ite ?_ ?_
  | split
  | exact Keeps.upd (by with_reducible assumption)
  | exact Keeps.upd (Keeps.refl _ _)
  | (clear_value *; split)

theorem keeps_credit {L : Nat} {s u : State} (h : Keeps L s u) (hm : 0x8000000 &&& L = 0x8000000) {a1 a2 a3} : Keeps L s (State.credit u a1 a2 a3) := by
  refine h.step (m := 0x8000000) ?_ hm
  unfold State.credit
  repeat' first
  | with_reducible assumption
  | with_reducible exact Keeps.refl _ _
  | (extract_lets +onlyGivenNames x; refine Keeps.cut x ?_ (fun hx => ?_); rotate_left; rename State => z; rotate_right; unfold x; clear x)
  | (extract_lets +onlyGivenNames x; revert x; intro y)
  | (with_reducible refine keeps_countFar ?_ ?_ ..; rotate_left; (first | rfl | decide))
  | with_reducible refine Keeps.foldl ?_ (fun v e => ?_)
  | with_reducible refine Keeps.ite ?_ ?_
  | split
  | exact Keeps.upd (by with_reducible assumption)
  | exact Keeps.upd (Keeps.refl _ _)
  | (clear_value *; split)

theorem keeps_restoreCore {L : Nat} {s u : State} (h : Keeps L s u) (hm : 0x8000400 &&& L = 0x8000400) {a1 a2} : Keeps L s (State.restoreCore u a1 a2) := by
  refine h.step (m := 0x8000400) ?_ hm
  unfold State.restoreCore
  repeat' first
  | with_reducible assumption
  | with_reducible exact Keeps.refl _ _
  | (extract_lets +onlyGivenNames x; refine Keeps.cut x ?_ (fun hx => ?_); rotate_left; rename State => z; rotate_right; unfold x; clear x)
  | (extract_lets +onlyGivenNames x; revert x; intro y)
  | (with_reducible refine Keeps.put ?_ ?_ ?_; rotate_left; (first | rfl | decide); (first | rfl | decide))
  | (with_reducible refine Keeps.setCore ?_ ?_; rotate_left; (first | rfl | decide))
  | with_reducible refine Keeps.foldl ?_ (fun v e => ?_)
  | with_reducible refine Keeps.ite ?_ ?_
  | split
  | exact Keeps.upd (by with_reducible assumption)
  | exact Keeps.upd (Keeps.refl _ _)
  | (clear_value *; split)

theorem keeps_latchCores {L : Nat} {s u : State} (h : Keeps L s u) (hm : 0x8000000 &&& L = 0x8000000)  : Keeps L s (State.latchCores u) := by
  refine h.step (m := 0x8000000) ?_ hm
  unfold State.latchCores
  repeat' first
  | with_reducible assumption
  | with_reducible exact Keeps.refl _ _
  | (extract_lets +onlyGivenNames x; refine Keeps.cut x ?_ (fun hx => ?_); rotate_left; rename State => z; rotate_right; unfold x; clear x)
  | (extract_lets +onlyGivenNames x; revert x; intro y)
  | with_reducible refine Keeps.foldl ?_ (fun v e => ?_)
  | with_reducible refine Keeps.ite ?_ ?_
  | split
  | exact Keeps.upd (by with_reducible assumption)
  | exact Keeps.upd (Keeps.refl _ _)
  | (clear_value *; split)

theorem keeps_takeArrived {L : Nat} {s u : State} (h : Keeps L s u) (hm : 0x18042000 &&& L = 0x18042000) {a1 a2} : Keeps L s (State.takeArrived u a1 a2) := by
  refine h.step (m := 0x18042000) ?_ hm
  unfold State.takeArrived
  repeat' first
  | with_reducible assumption
  | with_reducible exact Keeps.refl _ _
  | (extract_lets +onlyGivenNames x; refine Keeps.cut x ?_ (fun hx => ?_); rotate_left; rename State => z; rotate_right; unfold x; clear x)
  | (extract_lets +onlyGivenNames x; revert x; intro y)
  | (with_reducible refine keeps_applyArrived ?_ ?_ ..; rotate_left; (first | rfl | decide))
  | with_reducible refine Keeps.foldl ?_ (fun v e => ?_)
  | with_reducible refine Keeps.ite ?_ ?_
  | split
  | exact Keeps.upd (by with_reducible assumption)
  | exact Keeps.upd (Keeps.refl _ _)
  | (clear_value *; split)

theorem keeps_execSignal (a0 u) : KeepsO 0x8042000 u (execSignal a0 u) := by
  unfold execSignal
  repeat' first
  | with_reducible assumption
  | with_reducible exact Keeps.refl _ _
  | with_reducible refine KeepsO.next ?_
  | with_reducible exact KeepsO.fault _
  | (extract_lets +onlyGivenNames x; refine Keeps.cut x ?_ (fun hx => ?_); rotate_left; rename State => z; rotate_right; unfold x; clear x)
  | (extract_lets +onlyGivenNames x; refine KeepsO.cut x ?_ (fun hx => ?_); rotate_left; rename State => z; rotate_right; unfold x; clear x)
  | (extract_lets +onlyGivenNames x; revert x; intro y)
  | (with_reducible refine keeps_signalIn ?_ ?_ ..; rotate_left; (first | rfl | decide))
  | with_reducible refine Keeps.foldl ?_ (fun v e => ?_)
  | with_reducible refine Keeps.ite ?_ ?_
  | with_reducible refine KeepsO.ite ?_ ?_
  | split
  | exact Keeps.upd (by with_reducible assumption)
  | exact Keeps.upd (Keeps.refl _ _)
  | (clear_value *; split)

theorem keeps_execWait (a0 a1 a2 a3 a4 a5 u) : KeepsO 0x908000400 u (execWait a0 a1 a2 a3 a4 a5 u) := by
  unfold execWait
  repeat' first
  | with_reducible assumption
  | with_reducible exact Keeps.refl _ _
  | with_reducible refine KeepsO.next ?_
  | with_reducible exact KeepsO.fault _
  | (extract_lets +onlyGivenNames x; refine Keeps.cut x ?_ (fun hx => ?_); rotate_left; rename State => z; rotate_right; unfold x; clear x)
  | (extract_lets +onlyGivenNames x; refine KeepsO.cut x ?_ (fun hx => ?_); rotate_left; rename State => z; rotate_right; unfold x; clear x)
  | (extract_lets +onlyGivenNames x; revert x; intro y)
  | (with_reducible refine keeps_trace ?_ ?_ ..; rotate_left; (first | rfl | decide))
  | (with_reducible refine keeps_showWaits ?_ ?_ ..; rotate_left; (first | rfl | decide))
  | (with_reducible refine keeps_updCore ?_ ?_ ..; rotate_left; (first | rfl | decide))
  | with_reducible refine Keeps.foldl ?_ (fun v e => ?_)
  | with_reducible refine Keeps.ite ?_ ?_
  | with_reducible refine KeepsO.ite ?_ ?_
  | split
  | exact Keeps.upd (by with_reducible assumption)
  | exact Keeps.upd (Keeps.refl _ _)
  | (clear_value *; split)

theorem keeps_execWaitRelease (a0 a1 u) : KeepsO 0x908000400 u (execWaitRelease a0 a1 u) := by
  unfold execWaitRelease
  repeat' first
  | with_reducible assumption
  | with_reducible exact Keeps.refl _ _
  | with_reducible refine KeepsO.next ?_
  | with_reducible exact KeepsO.fault _
  | (extract_lets +onlyGivenNames x; refine Keeps.cut x ?_ (fun hx => ?_); rotate_left; rename State => z; rotate_right; unfold x; clear x)
  | (extract_lets +onlyGivenNames x; refine KeepsO.cut x ?_ (fun hx => ?_); rotate_left; rename State => z; rotate_right; unfold x; clear x)
  | (extract_lets +onlyGivenNames x; revert x; intro y)
  | (with_reducible refine keeps_trace ?_ ?_ ..; rotate_left; (first | rfl | decide))
  | (with_reducible refine keeps_showWaits ?_ ?_ ..; rotate_left; (first | rfl | decide))
  | (with_reducible refine keeps_updCore ?_ ?_ ..; rotate_left; (first | rfl | decide))
  | with_reducible refine Keeps.foldl ?_ (fun v e => ?_)
  | with_reducible refine Keeps.ite ?_ ?_
  | with_reducible refine KeepsO.ite ?_ ?_
  | split
  | exact Keeps.upd (by with_reducible assumption)
  | exact Keeps.upd (Keeps.refl _ _)
  | (clear_value *; split)

theorem keeps_execContextSwitch (a0 a1 u) : KeepsO 0x908000400 u (execContextSwitch a0 a1 u) := by
  unfold execContextSwitch
  repeat' first
  | with_reducible assumption
  | with_reducible exact Keeps.refl _ _
  | with_reducible refine KeepsO.next ?_
  | with_reducible exact KeepsO.fault _
  | (extract_lets +onlyGivenNames x; refine Keeps.cut x ?_ (fun hx => ?_); rotate_left; rename State => z; rotate_right; unfold x; clear x)
  | (extract_lets +onlyGivenNames x; refine KeepsO.cut x ?_ (fun hx => ?_); rotate_left; rename State => z; rotate_right; unfold x; clear x)
  | (extract_lets +onlyGivenNames x; revert x; intro y)
  | (with_reducible refine keeps_putSet ?_ ?_ ..; rotate_left; (first | rfl | decide))
  | (with_reducible refine keeps_updCore ?_ ?_ ..; rotate_left; (first | rfl | decide))
  | (with_reducible refine Keeps.bump ?_ ?_ ?_; rotate_left; (first | rfl | decide); (first | rfl | decide))
  | (with_reducible refine Keeps.put ?_ ?_ ?_; rotate_left; (first | rfl | decide); (first | rfl | decide))
  | (with_reducible refine keeps_trace ?_ ?_ ..; rotate_left; (first | rfl | decide))
  | (with_reducible refine keeps_showWaits ?_ ?_ ..; rotate_left; (first | rfl | decide))
  | with_reducible refine Keeps.foldl ?_ (fun v e => ?_)
  | with_reducible refine Keeps.ite ?_ ?_
  | with_reducible refine KeepsO.ite ?_ ?_
  | split
  | exact Keeps.upd (by with_reducible assumption)
  | exact Keeps.upd (Keeps.refl _ _)
  | (clear_value *; split)

theorem keeps_execWriteFlit (a0 a1 a2 u) : KeepsO 0x8142100 u (execWriteFlit a0 a1 a2 u) := by
  unfold execWriteFlit
  repeat' first
  | with_reducible assumption
  | with_reducible exact Keeps.refl _ _
  | with_reducible refine KeepsO.next ?_
  | with_reducible exact KeepsO.fault _
  | (extract_lets +onlyGivenNames x; refine Keeps.cut x ?_ (fun hx => ?_); rotate_left; rename State => z; rotate_right; unfold x; clear x)
  | (extract_lets +onlyGivenNames x; refine KeepsO.cut x ?_ (fun hx => ?_); rotate_left; rename State => z; rotate_right; unfold x; clear x)
  | (extract_lets +onlyGivenNames x; revert x; intro y)
  | (with_reducible refine Keeps.setBytes ?_ ?_; rotate_left; (first | rfl | decide))
  | (with_reducible refine Keeps.bump ?_ ?_ ?_; rotate_left; (first | rfl | decide); (first | rfl | decide))
  | (with_reducible refine keeps_staleData ?_ ?_ ..; rotate_left; (first | rfl | decide))
  | (with_reducible refine keeps_credit ?_ ?_ ..; rotate_left; (first | rfl | decide))
  | with_reducible refine Keeps.foldl ?_ (fun v e => ?_)
  | with_reducible refine Keeps.ite ?_ ?_
  | with_reducible refine KeepsO.ite ?_ ?_
  | split
  | exact Keeps.upd (by with_reducible assumption)
  | exact Keeps.upd (Keeps.refl _ _)
  | (clear_value *; split)

theorem keeps_execSignalFlit (a0 a1 u) : KeepsO 0x18042000 u (execSignalFlit a0 a1 u) := by
  unfold execSignalFlit
  repeat' first
  | with_reducible assumption
  | with_reducible exact Keeps.refl _ _
  | with_reducible refine KeepsO.next ?_
  | with_reducible exact KeepsO.fault _
  | (extract_lets +onlyGivenNames x; refine Keeps.cut x ?_ (fun hx => ?_); rotate_left; rename State => z; rotate_right; unfold x; clear x)
  | (extract_lets +onlyGivenNames x; refine KeepsO.cut x ?_ (fun hx => ?_); rotate_left; rename State => z; rotate_right; unfold x; clear x)
  | (extract_lets +onlyGivenNames x; revert x; intro y)
  | (with_reducible refine keeps_heard ?_ ?_)
  | (with_reducible refine keeps_takeArrived ?_ ?_ ..; rotate_left; (first | rfl | decide))
  | with_reducible refine Keeps.foldl ?_ (fun v e => ?_)
  | with_reducible refine Keeps.ite ?_ ?_
  | with_reducible refine KeepsO.ite ?_ ?_
  | split
  | exact Keeps.upd (by with_reducible assumption)
  | exact Keeps.upd (Keeps.refl _ _)
  | (clear_value *; split)

theorem keeps_execWithdraw (a0 a1 u) : KeepsO 0x18042000 u (execWithdraw a0 a1 u) := by
  unfold execWithdraw
  repeat' first
  | with_reducible assumption
  | with_reducible exact Keeps.refl _ _
  | with_reducible refine KeepsO.next ?_
  | with_reducible exact KeepsO.fault _
  | (extract_lets +onlyGivenNames x; refine Keeps.cut x ?_ (fun hx => ?_); rotate_left; rename State => z; rotate_right; unfold x; clear x)
  | (extract_lets +onlyGivenNames x; refine KeepsO.cut x ?_ (fun hx => ?_); rotate_left; rename State => z; rotate_right; unfold x; clear x)
  | (extract_lets +onlyGivenNames x; revert x; intro y)
  | (with_reducible refine keeps_staleSignal ?_ ?_ ..; rotate_left; (first | rfl | decide))
  | (with_reducible refine keeps_takeArrived ?_ ?_ ..; rotate_left; (first | rfl | decide))
  | with_reducible refine Keeps.foldl ?_ (fun v e => ?_)
  | with_reducible refine Keeps.ite ?_ ?_
  | with_reducible refine KeepsO.ite ?_ ?_
  | split
  | exact Keeps.upd (by with_reducible assumption)
  | exact Keeps.upd (Keeps.refl _ _)
  | (clear_value *; split)

end Sys2Proof.Machine
end

