-- ==== Sys2Proof/Laws/KeepsEngines.lean ====
section
/-!
SUPPORT. Laws/KeepsEngines.lean: what each operation of Machine/Engines.lean leaves as it was (Laws/Keeps.lean).
-/
namespace Sys2Proof.Machine
set_option Elab.async false
set_option linter.unusedTactic false
set_option linter.unreachableTactic false

theorem keeps_awaitCheck {L : Nat} {s u : State} (h : Keeps L s u) (hm : 0x8000000 &&& L = 0x8000000) {a1 a2 a3 a4 a5 a6} : Keeps L s (State.awaitCheck u a1 a2 a3 a4 a5 a6) := by
  refine h.step (m := 0x8000000) ?_ hm
  unfold State.awaitCheck
  repeat' first
  | with_reducible assumption
  | with_reducible exact Keeps.refl _ _
  | (extract_lets +onlyGivenNames x; refine Keeps.cut x ?_ (fun hx => ?_); rotate_left; rename State => z; rotate_right; unfold x; clear x)
  | (extract_lets +onlyGivenNames x; revert x; intro y)
  | (with_reducible refine keeps_updCore ?_ ?_ ..; rotate_left; (first | rfl | decide))
  | with_reducible refine Keeps.foldl ?_ (fun v e => ?_)
  | with_reducible refine Keeps.ite ?_ ?_
  | split
  | exact Keeps.upd (by with_reducible assumption)
  | exact Keeps.upd (Keeps.refl _ _)
  | (clear_value *; split)

theorem keeps_skipDraws {L : Nat} {s u : State} (h : Keeps L s u) (hm : 0x800000000 &&& L = 0x800000000) {a1} : Keeps L s (State.skipDraws u a1) := by
  refine h.step (m := 0x800000000) ?_ hm
  unfold State.skipDraws
  repeat' first
  | with_reducible assumption
  | with_reducible exact Keeps.refl _ _
  | (extract_lets +onlyGivenNames x; refine Keeps.cut x ?_ (fun hx => ?_); rotate_left; rename State => z; rotate_right; unfold x; clear x)
  | (extract_lets +onlyGivenNames x; revert x; intro y)
  | with_reducible refine Keeps.foldl ?_ (fun v e => ?_)
  | with_reducible refine Keeps.ite ?_ ?_
  | split
  | exact Keeps.upd (by with_reducible assumption)
  | exact Keeps.upd (Keeps.refl _ _)
  | (clear_value *; split)

theorem keeps_setSp {L : Nat} {s u : State} (h : Keeps L s u) (hm : 0x100000 &&& L = 0x100000) {p a} {l : List Byte} : Keeps L s (State.setSp u p a l) := by
  refine h.step (m := 0x100000) ?_ hm
  suffices hs : ∀ (l : List Byte) (u : State) (a : Nat), Keeps 0x100000 u (State.setSp u p a l) from hs l u a
  intro l
  induction l with
  | nil => exact fun u _ => Keeps.refl _ u
  | cons b r ih => exact fun u _ => ((Keeps.refl _ u).setByte rfl).trans (ih _ _)

theorem keeps_countNan {L : Nat} {s u : State} (h : Keeps L s u) (hm : 0x42000 &&& L = 0x42000) {a1 a2} : Keeps L s (State.countNan u a1 a2) := by
  refine h.step (m := 0x42000) ?_ hm
  unfold State.countNan
  repeat' first
  | with_reducible assumption
  | with_reducible exact Keeps.refl _ _
  | (extract_lets +onlyGivenNames x; refine Keeps.cut x ?_ (fun hx => ?_); rotate_left; rename State => z; rotate_right; unfold x; clear x)
  | (extract_lets +onlyGivenNames x; revert x; intro y)
  | (with_reducible refine Keeps.raise ?_ ?_ ?_ ?_; rotate_left; (first | rfl | decide); (first | rfl | decide); (first | rfl | decide))
  | (with_reducible refine Keeps.bump ?_ ?_ ?_; rotate_left; (first | rfl | decide); (first | rfl | decide))
  | with_reducible refine Keeps.foldl ?_ (fun v e => ?_)
  | with_reducible refine Keeps.ite ?_ ?_
  | split
  | exact Keeps.upd (by with_reducible assumption)
  | exact Keeps.upd (Keeps.refl _ _)
  | (clear_value *; split)

theorem keeps_countTile {L : Nat} {s u : State} (h : Keeps L s u) (hm : 0x142000 &&& L = 0x142000) {a1 a2 a3} : Keeps L s (State.countTile u a1 a2 a3) := by
  refine h.step (m := 0x142000) ?_ hm
  unfold State.countTile
  repeat' first
  | with_reducible assumption
  | with_reducible exact Keeps.refl _ _
  | (extract_lets +onlyGivenNames x; refine Keeps.cut x ?_ (fun hx => ?_); rotate_left; rename State => z; rotate_right; unfold x; clear x)
  | (extract_lets +onlyGivenNames x; revert x; intro y)
  | (with_reducible refine keeps_countNan ?_ ?_ ..; rotate_left; (first | rfl | decide))
  | (with_reducible refine Keeps.store ?_ ?_; rotate_left; (first | rfl | decide))
  | with_reducible refine Keeps.foldl ?_ (fun v e => ?_)
  | with_reducible refine Keeps.ite ?_ ?_
  | split
  | exact Keeps.upd (by with_reducible assumption)
  | exact Keeps.upd (Keeps.refl _ _)
  | (clear_value *; split)

theorem keeps_signalDone {L : Nat} {s u : State} (h : Keeps L s u) (hm : 0x8042000 &&& L = 0x8042000) {a1 a2 a3 a4 a5} : Keeps L s (State.signalDone u a1 a2 a3 a4 a5) := by
  refine h.step (m := 0x8042000) ?_ hm
  unfold State.signalDone
  repeat' first
  | with_reducible assumption
  | with_reducible exact Keeps.refl _ _
  | (extract_lets +onlyGivenNames x; refine Keeps.cut x ?_ (fun hx => ?_); rotate_left; rename State => z; rotate_right; unfold x; clear x)
  | (extract_lets +onlyGivenNames x; revert x; intro y)
  | (with_reducible refine keeps_count ?_ ?_ ..; rotate_left; (first | rfl | decide))
  | (with_reducible refine keeps_staleSignal ?_ ?_ ..; rotate_left; (first | rfl | decide))
  | with_reducible refine Keeps.foldl ?_ (fun v e => ?_)
  | with_reducible refine Keeps.ite ?_ ?_
  | split
  | exact Keeps.upd (by with_reducible assumption)
  | exact Keeps.upd (Keeps.refl _ _)
  | (clear_value *; split)

end Sys2Proof.Machine
end

