-- ==== Sys2Proof/Laws/KeepsLanes.lean ====
section
/-!
SUPPORT. Laws/KeepsLanes.lean: what each operation of Machine/Lanes.lean leaves as it was (Laws/Keeps.lean).
-/
namespace Sys2Proof.Machine
set_option Elab.async false
set_option linter.unusedTactic false
set_option linter.unreachableTactic false

theorem keeps_escMap {L : Nat} {s u : State} (h : Keeps L s u) (hm : 0x2000000 &&& L = 0x2000000) {a1 a2 a3 a4 a5} : Keeps L s (State.escMap u a1 a2 a3 a4 a5) := by
  refine h.step (m := 0x2000000) ?_ hm
  unfold State.escMap
  repeat' first
  | with_reducible assumption
  | with_reducible exact Keeps.refl _ _
  | (extract_lets +onlyGivenNames x; refine Keeps.cut x ?_ (fun hx => ?_); rotate_left; rename State => z; rotate_right; unfold x; clear x)
  | (extract_lets +onlyGivenNames x; revert x; intro y)
  | (with_reducible refine keeps_updLayer ?_ ?_ ..; rotate_left; (first | rfl | decide))
  | with_reducible refine Keeps.foldl ?_ (fun v e => ?_)
  | with_reducible refine Keeps.ite ?_ ?_
  | split
  | exact Keeps.upd (by with_reducible assumption)
  | exact Keeps.upd (Keeps.refl _ _)
  | (clear_value *; split)

theorem keeps_escalate {L : Nat} {s u : State} (h : Keeps L s u) (hm : 0xC23042084 &&& L = 0xC23042084) {a1 a2 a3 a4 a5} : Keeps L s (State.escalate u a1 a2 a3 a4 a5) := by
  refine h.step (m := 0xC23042084) ?_ hm
  unfold State.escalate
  repeat' first
  | with_reducible assumption
  | with_reducible exact Keeps.refl _ _
  | (extract_lets +onlyGivenNames x; refine Keeps.cut x ?_ (fun hx => ?_); rotate_left; rename State => z; rotate_right; unfold x; clear x)
  | (extract_lets +onlyGivenNames x; revert x; intro y)
  | (with_reducible refine Keeps.raise ?_ ?_ ?_ ?_; rotate_left; (first | rfl | decide); (first | rfl | decide); (first | rfl | decide))
  | (with_reducible refine Keeps.bump ?_ ?_ ?_; rotate_left; (first | rfl | decide); (first | rfl | decide))
  | (with_reducible refine keeps_escMap ?_ ?_ ..; rotate_left; (first | rfl | decide))
  | (with_reducible refine keeps_updCtx ?_ ?_ ..; rotate_left; (first | rfl | decide))
  | (with_reducible refine keeps_eventOpen ?_ ?_ ..; rotate_left; (first | rfl | decide))
  | with_reducible refine Keeps.foldl ?_ (fun v e => ?_)
  | with_reducible refine Keeps.ite ?_ ?_
  | split
  | exact Keeps.upd (by with_reducible assumption)
  | exact Keeps.upd (Keeps.refl _ _)
  | (clear_value *; split)

theorem keeps_vecStore {L : Nat} {s u : State} (h : Keeps L s u) (hm : 0x100000 &&& L = 0x100000) {p a o} {l : List Byte} : Keeps L s (State.vecStore u p a o l) := by
  refine h.step (m := 0x100000) ?_ hm
  suffices hs : ∀ (l : List Byte) (u : State) (o : Nat), Keeps 0x100000 u (State.vecStore u p a o l) from hs l u o
  intro l
  induction l with
  | nil => exact fun u _ => Keeps.refl _ u
  | cons b r ih => exact fun u _ => ((Keeps.refl _ u).setByte rfl).trans (ih _ _)

theorem keeps_putCodes {L : Nat} {s u : State} (h : Keeps L s u) (hm : 0x100000 &&& L = 0x100000) {a1 a2 a3 a4 a5} : Keeps L s (State.putCodes u a1 a2 a3 a4 a5) := by
  refine h.step (m := 0x100000) ?_ hm
  unfold State.putCodes
  repeat' first
  | with_reducible assumption
  | with_reducible exact Keeps.refl _ _
  | (extract_lets +onlyGivenNames x; refine Keeps.cut x ?_ (fun hx => ?_); rotate_left; rename State => z; rotate_right; unfold x; clear x)
  | (extract_lets +onlyGivenNames x; revert x; intro y)
  | (with_reducible refine keeps_vecStore ?_ ?_ ..; rotate_left; (first | rfl | decide))
  | with_reducible refine Keeps.foldl ?_ (fun v e => ?_)
  | with_reducible refine Keeps.ite ?_ ?_
  | split
  | exact Keeps.upd (by with_reducible assumption)
  | exact Keeps.upd (Keeps.refl _ _)
  | (clear_value *; split)

theorem keeps_lanes {L : Nat} {s u : State} (h : Keeps L s u) (hm : 0x100000 &&& L = 0x100000) {a1 a2 a3} : Keeps L s (State.lanes u a1 a2 a3) := by
  refine h.step (m := 0x100000) ?_ hm
  unfold State.lanes
  repeat' first
  | with_reducible assumption
  | with_reducible exact Keeps.refl _ _
  | (extract_lets +onlyGivenNames x; refine Keeps.cut x ?_ (fun hx => ?_); rotate_left; rename State => z; rotate_right; unfold x; clear x)
  | (extract_lets +onlyGivenNames x; revert x; intro y)
  | (with_reducible refine keeps_putCodes ?_ ?_ ..; rotate_left; (first | rfl | decide))
  | with_reducible refine Keeps.foldl ?_ (fun v e => ?_)
  | with_reducible refine Keeps.ite ?_ ?_
  | split
  | exact Keeps.upd (by with_reducible assumption)
  | exact Keeps.upd (Keeps.refl _ _)
  | (clear_value *; split)

theorem keeps_setMask {L : Nat} {s u : State} (h : Keeps L s u) (hm : 0x8000000 &&& L = 0x8000000) {a1 a2 a3} : Keeps L s (State.setMask u a1 a2 a3) := by
  refine h.step (m := 0x8000000) ?_ hm
  unfold State.setMask
  repeat' first
  | with_reducible assumption
  | with_reducible exact Keeps.refl _ _
  | (extract_lets +onlyGivenNames x; refine Keeps.cut x ?_ (fun hx => ?_); rotate_left; rename State => z; rotate_right; unfold x; clear x)
  | (extract_lets +onlyGivenNames x; revert x; intro y)
  | (with_reducible refine keeps_updCore ?_ ?_ ..; rotate_left; (first | rfl | decide))
  | with_reducible refine Keeps.foldl ?_ (fun v e => ?_)
  | with_reducible refine Keeps.ite ?_ ?_
  | split
  | exact Keeps.upd (by with_reducible assumption)
  | exact Keeps.upd (Keeps.refl _ _)
  | (clear_value *; split)

end Sys2Proof.Machine
end

