-- ==== Sys2Proof/Laws/KeepsCreds.lean ====
section
/-!
SUPPORT. Laws/KeepsCreds.lean: what each operation of Machine/Creds.lean leaves as it was (Laws/Keeps.lean).
-/
namespace Sys2Proof.Machine
set_option Elab.async false
set_option linter.unusedTactic false
set_option linter.unreachableTactic false

theorem keeps_blowFuse {L : Nat} {s u : State} (h : Keeps L s u) (hm : 0x100000000 &&& L = 0x100000000) {a1} : Keeps L s (State.blowFuse u a1) := by
  refine h.step (m := 0x100000000) ?_ hm
  unfold State.blowFuse
  repeat' first
  | with_reducible assumption
  | with_reducible exact Keeps.refl _ _
  | (extract_lets +onlyGivenNames x; refine Keeps.cut x ?_ (fun hx => ?_); rotate_left; rename State => z; rotate_right; unfold x; clear x)
  | (extract_lets +onlyGivenNames x; revert x; intro y)
  | with_reducible refine Keeps.foldl ?_ (fun v e => ?_)
  | with_reducible refine Keeps.ite ?_ ?_
  | split
  | exact Keeps.upd (by with_reducible assumption)
  | exact Keeps.upd (Keeps.refl _ _)
  | (clear_value *; split)

theorem keeps_deriveKeys {L : Nat} {s u : State} (h : Keeps L s u) (hm : 0x100000000 &&& L = 0x100000000)  : Keeps L s (State.deriveKeys u) := by
  refine h.step (m := 0x100000000) ?_ hm
  unfold State.deriveKeys
  repeat' first
  | with_reducible assumption
  | with_reducible exact Keeps.refl _ _
  | (extract_lets +onlyGivenNames x; refine Keeps.cut x ?_ (fun hx => ?_); rotate_left; rename State => z; rotate_right; unfold x; clear x)
  | (extract_lets +onlyGivenNames x; revert x; intro y)
  | with_reducible refine Keeps.foldl ?_ (fun v e => ?_)
  | with_reducible refine Keeps.ite ?_ ?_
  | split
  | exact Keeps.upd (by with_reducible assumption)
  | exact Keeps.upd (Keeps.refl _ _)
  | (clear_value *; split)

end Sys2Proof.Machine
end

