-- ==== Sys2Proof/Laws/KeepsHostPorts.lean ====
section
/-!
SUPPORT. Laws/KeepsHostPorts.lean: what each operation of Machine/HostPorts.lean leaves as it was (Laws/Keeps.lean).
-/
namespace Sys2Proof.Machine
set_option Elab.async false
set_option linter.unusedTactic false
set_option linter.unreachableTactic false

theorem keeps_pushReasm {L : Nat} {s u : State} (h : Keeps L s u) (hm : 0x1000000 &&& L = 0x1000000) {a1} : Keeps L s (State.pushReasm u a1) := by
  refine h.step (m := 0x1000000) ?_ hm
  unfold State.pushReasm
  repeat' first
  | with_reducible assumption
  | with_reducible exact Keeps.refl _ _
  | (extract_lets +onlyGivenNames x; refine Keeps.cut x ?_ (fun hx => ?_); rotate_left; rename State => z; rotate_right; unfold x; clear x)
  | (extract_lets +onlyGivenNames x; revert x; intro y)
  | with_reducible refine Keeps.foldl ?_ (fun v e => ?_)
  | with_reducible refine Keeps.ite ?_ ?_
  | split
  | exact Keeps.upd (by with_reducible assumption)
  | exact Keeps.upd (Keeps.refl _ _)
  | (clear_value *; split)

theorem keeps_rejectQuiet {L : Nat} {s u : State} (h : Keeps L s u) (hm : 0x401000080 &&& L = 0x401000080) {a1 a2} : Keeps L s (State.rejectQuiet u a1 a2) := by
  refine h.step (m := 0x401000080) ?_ hm
  unfold State.rejectQuiet
  repeat' first
  | with_reducible assumption
  | with_reducible exact Keeps.refl _ _
  | (extract_lets +onlyGivenNames x; refine Keeps.cut x ?_ (fun hx => ?_); rotate_left; rename State => z; rotate_right; unfold x; clear x)
  | (extract_lets +onlyGivenNames x; revert x; intro y)
  | (with_reducible refine keeps_pushReasm ?_ ?_ ..; rotate_left; (first | rfl | decide))
  | (with_reducible refine keeps_dropReasm ?_ ?_ ..; rotate_left; (first | rfl | decide))
  | (with_reducible refine Keeps.bump ?_ ?_ ?_; rotate_left; (first | rfl | decide); (first | rfl | decide))
  | (with_reducible refine keeps_reject ?_ ?_ ..; rotate_left; (first | rfl | decide))
  | with_reducible refine Keeps.foldl ?_ (fun v e => ?_)
  | with_reducible refine Keeps.ite ?_ ?_
  | split
  | exact Keeps.upd (by with_reducible assumption)
  | exact Keeps.upd (Keeps.refl _ _)
  | (clear_value *; split)

theorem keeps_firstSegment {L : Nat} {s u : State} (h : Keeps L s u) (hm : 0x401000080 &&& L = 0x401000080) {a1} : Keeps L s (State.firstSegment u a1) := by
  refine h.step (m := 0x401000080) ?_ hm
  unfold State.firstSegment
  repeat' first
  | with_reducible assumption
  | with_reducible exact Keeps.refl _ _
  | (extract_lets +onlyGivenNames x; refine Keeps.cut x ?_ (fun hx => ?_); rotate_left; rename State => z; rotate_right; unfold x; clear x)
  | (extract_lets +onlyGivenNames x; revert x; intro y)
  | (with_reducible refine keeps_rejectQuiet ?_ ?_ ..; rotate_left; (first | rfl | decide))
  | (with_reducible refine keeps_pushReasm ?_ ?_ ..; rotate_left; (first | rfl | decide))
  | with_reducible refine Keeps.foldl ?_ (fun v e => ?_)
  | with_reducible refine Keeps.ite ?_ ?_
  | split
  | exact Keeps.upd (by with_reducible assumption)
  | exact Keeps.upd (Keeps.refl _ _)
  | (clear_value *; split)

theorem keeps_laterSegment {L : Nat} {s u : State} (h : Keeps L s u) (hm : 0x401000080 &&& L = 0x401000080) {a1 a2} : Keeps L s (State.laterSegment u a1 a2) := by
  refine h.step (m := 0x401000080) ?_ hm
  unfold State.laterSegment
  repeat' first
  | with_reducible assumption
  | with_reducible exact Keeps.refl _ _
  | (extract_lets +onlyGivenNames x; refine Keeps.cut x ?_ (fun hx => ?_); rotate_left; rename State => z; rotate_right; unfold x; clear x)
  | (extract_lets +onlyGivenNames x; revert x; intro y)
  | (with_reducible refine keeps_touchQuiet ?_ ?_ ..; rotate_left; (first | rfl | decide))
  | (with_reducible refine keeps_rejectQuiet ?_ ?_ ..; rotate_left; (first | rfl | decide))
  | with_reducible refine Keeps.foldl ?_ (fun v e => ?_)
  | with_reducible refine Keeps.ite ?_ ?_
  | split
  | exact Keeps.upd (by with_reducible assumption)
  | exact Keeps.upd (Keeps.refl _ _)
  | (clear_value *; split)

theorem keeps_placeSegment {L : Nat} {s u : State} (h : Keeps L s u) (hm : 0x401000080 &&& L = 0x401000080) {a1} : Keeps L s (State.placeSegment u a1) := by
  refine h.step (m := 0x401000080) ?_ hm
  unfold State.placeSegment
  repeat' first
  | with_reducible assumption
  | with_reducible exact Keeps.refl _ _
  | (extract_lets +onlyGivenNames x; refine Keeps.cut x ?_ (fun hx => ?_); rotate_left; rename State => z; rotate_right; unfold x; clear x)
  | (extract_lets +onlyGivenNames x; revert x; intro y)
  | (with_reducible refine keeps_firstSegment ?_ ?_ ..; rotate_left; (first | rfl | decide))
  | (with_reducible refine keeps_touchQuiet ?_ ?_ ..; rotate_left; (first | rfl | decide))
  | (with_reducible refine keeps_laterSegment ?_ ?_ ..; rotate_left; (first | rfl | decide))
  | with_reducible refine Keeps.foldl ?_ (fun v e => ?_)
  | with_reducible refine Keeps.ite ?_ ?_
  | split
  | exact Keeps.upd (by with_reducible assumption)
  | exact Keeps.upd (Keeps.refl _ _)
  | (clear_value *; split)

theorem keeps_execTrpSegment (a0 u) : KeepsO 0x401000080 u (execTrpSegment a0 u) := by
  unfold execTrpSegment
  repeat' first
  | with_reducible assumption
  | with_reducible exact Keeps.refl _ _
  | with_reducible refine KeepsO.next ?_
  | with_reducible exact KeepsO.fault _
  | (extract_lets +onlyGivenNames x; refine Keeps.cut x ?_ (fun hx => ?_); rotate_left; rename State => z; rotate_right; unfold x; clear x)
  | (extract_lets +onlyGivenNames x; refine KeepsO.cut x ?_ (fun hx => ?_); rotate_left; rename State => z; rotate_right; unfold x; clear x)
  | (extract_lets +onlyGivenNames x; revert x; intro y)
  | (with_reducible refine Keeps.bump ?_ ?_ ?_; rotate_left; (first | rfl | decide); (first | rfl | decide))
  | (with_reducible refine keeps_placeSegment ?_ ?_ ..; rotate_left; (first | rfl | decide))
  | with_reducible refine Keeps.foldl ?_ (fun v e => ?_)
  | with_reducible refine Keeps.ite ?_ ?_
  | with_reducible refine KeepsO.ite ?_ ?_
  | split
  | exact Keeps.upd (by with_reducible assumption)
  | exact Keeps.upd (Keeps.refl _ _)
  | (clear_value *; split)

theorem keeps_execReassemblyTimeout (a0 a1 a2 a3 u) : KeepsO 0x1000080 u (execReassemblyTimeout a0 a1 a2 a3 u) := by
  unfold execReassemblyTimeout
  repeat' first
  | with_reducible assumption
  | with_reducible exact Keeps.refl _ _
  | with_reducible refine KeepsO.next ?_
  | with_reducible exact KeepsO.fault _
  | (extract_lets +onlyGivenNames x; refine Keeps.cut x ?_ (fun hx => ?_); rotate_left; rename State => z; rotate_right; unfold x; clear x)
  | (extract_lets +onlyGivenNames x; refine KeepsO.cut x ?_ (fun hx => ?_); rotate_left; rename State => z; rotate_right; unfold x; clear x)
  | (extract_lets +onlyGivenNames x; revert x; intro y)
  | (with_reducible refine Keeps.bump ?_ ?_ ?_; rotate_left; (first | rfl | decide); (first | rfl | decide))
  | (with_reducible refine keeps_dropReasm ?_ ?_ ..; rotate_left; (first | rfl | decide))
  | with_reducible refine Keeps.foldl ?_ (fun v e => ?_)
  | with_reducible refine Keeps.ite ?_ ?_
  | with_reducible refine KeepsO.ite ?_ ?_
  | split
  | exact Keeps.upd (by with_reducible assumption)
  | exact Keeps.upd (Keeps.refl _ _)
  | (clear_value *; split)

theorem keeps_execIdentityQuietExpiry (a0 a1 a2 a3 u) : KeepsO 0x1000000 u (execIdentityQuietExpiry a0 a1 a2 a3 u) := by
  unfold execIdentityQuietExpiry
  repeat' first
  | with_reducible assumption
  | with_reducible exact Keeps.refl _ _
  | with_reducible refine KeepsO.next ?_
  | with_reducible exact KeepsO.fault _
  | (extract_lets +onlyGivenNames x; refine Keeps.cut x ?_ (fun hx => ?_); rotate_left; rename State => z; rotate_right; unfold x; clear x)
  | (extract_lets +onlyGivenNames x; refine KeepsO.cut x ?_ (fun hx => ?_); rotate_left; rename State => z; rotate_right; unfold x; clear x)
  | (extract_lets +onlyGivenNames x; revert x; intro y)
  | (with_reducible refine keeps_dropReasm ?_ ?_ ..; rotate_left; (first | rfl | decide))
  | with_reducible refine Keeps.foldl ?_ (fun v e => ?_)
  | with_reducible refine Keeps.ite ?_ ?_
  | with_reducible refine KeepsO.ite ?_ ?_
  | split
  | exact Keeps.upd (by with_reducible assumption)
  | exact Keeps.upd (Keeps.refl _ _)
  | (clear_value *; split)

theorem keeps_execIcmpEcho (a0 a1 a2 u) : KeepsO 0x401000080 u (execIcmpEcho a0 a1 a2 u) := by
  unfold execIcmpEcho
  repeat' first
  | with_reducible assumption
  | with_reducible exact Keeps.refl _ _
  | with_reducible refine KeepsO.next ?_
  | with_reducible exact KeepsO.fault _
  | (extract_lets +onlyGivenNames x; refine Keeps.cut x ?_ (fun hx => ?_); rotate_left; rename State => z; rotate_right; unfold x; clear x)
  | (extract_lets +onlyGivenNames x; refine KeepsO.cut x ?_ (fun hx => ?_); rotate_left; rename State => z; rotate_right; unfold x; clear x)
  | (extract_lets +onlyGivenNames x; revert x; intro y)
  | (with_reducible refine Keeps.bump ?_ ?_ ?_; rotate_left; (first | rfl | decide); (first | rfl | decide))
  | with_reducible refine Keeps.foldl ?_ (fun v e => ?_)
  | with_reducible refine Keeps.ite ?_ ?_
  | with_reducible refine KeepsO.ite ?_ ?_
  | split
  | exact Keeps.upd (by with_reducible assumption)
  | exact Keeps.upd (Keeps.refl _ _)
  | (clear_value *; split)

theorem keeps_execArpRequest (a0 a1 a2 u) : KeepsO 0x400000000 u (execArpRequest a0 a1 a2 u) := by
  unfold execArpRequest
  repeat' first
  | with_reducible assumption
  | with_reducible exact Keeps.refl _ _
  | with_reducible refine KeepsO.next ?_
  | with_reducible exact KeepsO.fault _
  | (extract_lets +onlyGivenNames x; refine Keeps.cut x ?_ (fun hx => ?_); rotate_left; rename State => z; rotate_right; unfold x; clear x)
  | (extract_lets +onlyGivenNames x; refine KeepsO.cut x ?_ (fun hx => ?_); rotate_left; rename State => z; rotate_right; unfold x; clear x)
  | (extract_lets +onlyGivenNames x; revert x; intro y)
  | with_reducible refine Keeps.foldl ?_ (fun v e => ?_)
  | with_reducible refine Keeps.ite ?_ ?_
  | with_reducible refine KeepsO.ite ?_ ?_
  | split
  | exact Keeps.upd (by with_reducible assumption)
  | exact Keeps.upd (Keeps.refl _ _)
  | (clear_value *; split)

theorem keeps_execNeighbourResolve (a0 a1 a2 u) : KeepsO 0x401000000 u (execNeighbourResolve a0 a1 a2 u) := by
  unfold execNeighbourResolve
  repeat' first
  | with_reducible assumption
  | with_reducible exact Keeps.refl _ _
  | with_reducible refine KeepsO.next ?_
  | with_reducible exact KeepsO.fault _
  | (extract_lets +onlyGivenNames x; refine Keeps.cut x ?_ (fun hx => ?_); rotate_left; rename State => z; rotate_right; unfold x; clear x)
  | (extract_lets +onlyGivenNames x; refine KeepsO.cut x ?_ (fun hx => ?_); rotate_left; rename State => z; rotate_right; unfold x; clear x)
  | (extract_lets +onlyGivenNames x; revert x; intro y)
  | with_reducible refine Keeps.foldl ?_ (fun v e => ?_)
  | with_reducible refine Keeps.ite ?_ ?_
  | with_reducible refine KeepsO.ite ?_ ?_
  | split
  | exact Keeps.upd (by with_reducible assumption)
  | exact Keeps.upd (Keeps.refl _ _)
  | (clear_value *; split)

theorem keeps_execPtpMessage (a0 u) : KeepsO 0x1000080 u (execPtpMessage a0 u) := by
  unfold execPtpMessage
  repeat' first
  | with_reducible assumption
  | with_reducible exact Keeps.refl _ _
  | with_reducible refine KeepsO.next ?_
  | with_reducible exact KeepsO.fault _
  | (extract_lets +onlyGivenNames x; refine Keeps.cut x ?_ (fun hx => ?_); rotate_left; rename State => z; rotate_right; unfold x; clear x)
  | (extract_lets +onlyGivenNames x; refine KeepsO.cut x ?_ (fun hx => ?_); rotate_left; rename State => z; rotate_right; unfold x; clear x)
  | (extract_lets +onlyGivenNames x; revert x; intro y)
  | (with_reducible refine Keeps.put ?_ ?_ ?_; rotate_left; (first | rfl | decide); (first | rfl | decide))
  | with_reducible refine Keeps.foldl ?_ (fun v e => ?_)
  | with_reducible refine Keeps.ite ?_ ?_
  | with_reducible refine KeepsO.ite ?_ ?_
  | split
  | exact Keeps.upd (by with_reducible assumption)
  | exact Keeps.upd (Keeps.refl _ _)
  | (clear_value *; split)

theorem keeps_execDelayReq (a0 u) : KeepsO 0x400000000 u (execDelayReq a0 u) := by
  unfold execDelayReq
  repeat' first
  | with_reducible assumption
  | with_reducible exact Keeps.refl _ _
  | with_reducible refine KeepsO.next ?_
  | with_reducible exact KeepsO.fault _
  | (extract_lets +onlyGivenNames x; refine Keeps.cut x ?_ (fun hx => ?_); rotate_left; rename State => z; rotate_right; unfold x; clear x)
  | (extract_lets +onlyGivenNames x; refine KeepsO.cut x ?_ (fun hx => ?_); rotate_left; rename State => z; rotate_right; unfold x; clear x)
  | (extract_lets +onlyGivenNames x; revert x; intro y)
  | with_reducible refine Keeps.foldl ?_ (fun v e => ?_)
  | with_reducible refine Keeps.ite ?_ ?_
  | with_reducible refine KeepsO.ite ?_ ?_
  | split
  | exact Keeps.upd (by with_reducible assumption)
  | exact Keeps.upd (Keeps.refl _ _)
  | (clear_value *; split)

theorem keeps_execEthLinkDown (a0 u) : KeepsO 0xC21000084 u (execEthLinkDown a0 u) := by
  unfold execEthLinkDown
  repeat' first
  | with_reducible assumption
  | with_reducible exact Keeps.refl _ _
  | with_reducible refine KeepsO.next ?_
  | with_reducible exact KeepsO.fault _
  | (extract_lets +onlyGivenNames x; refine Keeps.cut x ?_ (fun hx => ?_); rotate_left; rename State => z; rotate_right; unfold x; clear x)
  | (extract_lets +onlyGivenNames x; refine KeepsO.cut x ?_ (fun hx => ?_); rotate_left; rename State => z; rotate_right; unfold x; clear x)
  | (extract_lets +onlyGivenNames x; revert x; intro y)
  | (with_reducible refine keeps_eventOpen ?_ ?_ ..; rotate_left; (first | rfl | decide))
  | (with_reducible refine Keeps.put ?_ ?_ ?_; rotate_left; (first | rfl | decide); (first | rfl | decide))
  | with_reducible refine Keeps.foldl ?_ (fun v e => ?_)
  | with_reducible refine Keeps.ite ?_ ?_
  | with_reducible refine KeepsO.ite ?_ ?_
  | split
  | exact Keeps.upd (by with_reducible assumption)
  | exact Keeps.upd (Keeps.refl _ _)
  | (clear_value *; split)

theorem keeps_execEthLinkUp (a0 a1 u) : KeepsO 0xC21040094 u (execEthLinkUp a0 a1 u) := by
  unfold execEthLinkUp
  repeat' first
  | with_reducible assumption
  | with_reducible exact Keeps.refl _ _
  | with_reducible refine KeepsO.next ?_
  | with_reducible exact KeepsO.fault _
  | (extract_lets +onlyGivenNames x; refine Keeps.cut x ?_ (fun hx => ?_); rotate_left; rename State => z; rotate_right; unfold x; clear x)
  | (extract_lets +onlyGivenNames x; refine KeepsO.cut x ?_ (fun hx => ?_); rotate_left; rename State => z; rotate_right; unfold x; clear x)
  | (extract_lets +onlyGivenNames x; revert x; intro y)
  | (with_reducible refine keeps_laneFigures ?_ ?_ ..; rotate_left; (first | rfl | decide))
  | (with_reducible refine Keeps.put ?_ ?_ ?_; rotate_left; (first | rfl | decide); (first | rfl | decide))
  | with_reducible refine Keeps.foldl ?_ (fun v e => ?_)
  | with_reducible refine Keeps.ite ?_ ?_
  | with_reducible refine KeepsO.ite ?_ ?_
  | split
  | exact Keeps.upd (by with_reducible assumption)
  | exact Keeps.upd (Keeps.refl _ _)
  | (clear_value *; split)

theorem keeps_execUnlistedType (a0 a1 a2 u) : KeepsO 0x401000080 u (execUnlistedType a0 a1 a2 u) := by
  unfold execUnlistedType
  repeat' first
  | with_reducible assumption
  | with_reducible exact Keeps.refl _ _
  | with_reducible refine KeepsO.next ?_
  | with_reducible exact KeepsO.fault _
  | (extract_lets +onlyGivenNames x; refine Keeps.cut x ?_ (fun hx => ?_); rotate_left; rename State => z; rotate_right; unfold x; clear x)
  | (extract_lets +onlyGivenNames x; refine KeepsO.cut x ?_ (fun hx => ?_); rotate_left; rename State => z; rotate_right; unfold x; clear x)
  | (extract_lets +onlyGivenNames x; revert x; intro y)
  | (with_reducible refine keeps_withRequest ?_ ?_ (fun v => ?_); rotate_left; (first | rfl | decide); rotate_right)
  | (with_reducible refine keeps_reject ?_ ?_ ..; rotate_left; (first | rfl | decide))
  | with_reducible refine Keeps.foldl ?_ (fun v e => ?_)
  | with_reducible refine Keeps.ite ?_ ?_
  | with_reducible refine KeepsO.ite ?_ ?_
  | split
  | exact Keeps.upd (by with_reducible assumption)
  | exact Keeps.upd (Keeps.refl _ _)
  | (clear_value *; split)

end Sys2Proof.Machine
end

