-- ==== Sys2Proof/Laws/KeepsRequests.lean ====
section
/-!
SUPPORT. Laws/KeepsRequests.lean: what each operation of Machine/Requests.lean leaves as it was (Laws/Keeps.lean).
-/
namespace Sys2Proof.Machine
set_option Elab.async false
set_option linter.unusedTactic false
set_option linter.unreachableTactic false

theorem keeps_applyHsess {L : Nat} {s u : State} (h : Keeps L s u) (hm : 0x109FFFF &&& L = 0x109FFFF) {a0} : Keeps L s (State.applyHsess a0 u) := by
  refine h.step (m := 0x109FFFF) ?_ hm
  unfold State.applyHsess
  repeat' first
  | with_reducible assumption
  | with_reducible exact Keeps.refl _ _
  | (extract_lets +onlyGivenNames x; refine Keeps.cut x ?_ (fun hx => ?_); rotate_left; rename State => z; rotate_right; unfold x; clear x)
  | (extract_lets +onlyGivenNames x; revert x; intro y)
  | (with_reducible refine keeps_applyEntry ?_ ?_ ..; rotate_left; (first | rfl | decide))
  | (with_reducible refine keeps_updHost ?_ ?_ ..; rotate_left; (first | rfl | decide))
  | with_reducible refine Keeps.foldl ?_ (fun v e => ?_)
  | with_reducible refine Keeps.ite ?_ ?_
  | split
  | exact Keeps.upd (by with_reducible assumption)
  | exact Keeps.upd (Keeps.refl _ _)
  | (clear_value *; split)

theorem keeps_setExports {L : Nat} {s u : State} (h : Keeps L s u) (hm : 0x2000000 &&& L = 0x2000000) {a1 a2} : Keeps L s (State.setExports u a1 a2) := by
  refine h.step (m := 0x2000000) ?_ hm
  unfold State.setExports
  repeat' first
  | with_reducible assumption
  | with_reducible exact Keeps.refl _ _
  | (extract_lets +onlyGivenNames x; refine Keeps.cut x ?_ (fun hx => ?_); rotate_left; rename State => z; rotate_right; unfold x; clear x)
  | (extract_lets +onlyGivenNames x; revert x; intro y)
  | (with_reducible refine keeps_updCtx ?_ ?_ ..; rotate_left; (first | rfl | decide))
  | with_reducible refine Keeps.foldl ?_ (fun v e => ?_)
  | with_reducible refine Keeps.ite ?_ ?_
  | split
  | exact Keeps.upd (by with_reducible assumption)
  | exact Keeps.upd (Keeps.refl _ _)
  | (clear_value *; split)

theorem keeps_setAccepted {L : Nat} {s u : State} (h : Keeps L s u) (hm : 0x4000 &&& L = 0x4000) {a1 a2} : Keeps L s (State.setAccepted u a1 a2) := by
  refine h.step (m := 0x4000) ?_ hm
  unfold State.setAccepted
  repeat' first
  | with_reducible assumption
  | with_reducible exact Keeps.refl _ _
  | (extract_lets +onlyGivenNames x; refine Keeps.cut x ?_ (fun hx => ?_); rotate_left; rename State => z; rotate_right; unfold x; clear x)
  | (extract_lets +onlyGivenNames x; revert x; intro y)
  | (with_reducible refine Keeps.put ?_ ?_ ?_; rotate_left; (first | rfl | decide); (first | rfl | decide))
  | with_reducible refine Keeps.foldl ?_ (fun v e => ?_)
  | with_reducible refine Keeps.ite ?_ ?_
  | split
  | exact Keeps.upd (by with_reducible assumption)
  | exact Keeps.upd (Keeps.refl _ _)
  | (clear_value *; split)

theorem keeps_makeRoom {L : Nat} {s u : State} (h : Keeps L s u) (hm : 0x2000000 &&& L = 0x2000000) {a1} : Keeps L s (State.makeRoom u a1) := by
  refine h.step (m := 0x2000000) ?_ hm
  unfold State.makeRoom
  repeat' first
  | with_reducible assumption
  | with_reducible exact Keeps.refl _ _
  | (extract_lets +onlyGivenNames x; refine Keeps.cut x ?_ (fun hx => ?_); rotate_left; rename State => z; rotate_right; unfold x; clear x)
  | (extract_lets +onlyGivenNames x; revert x; intro y)
  | (with_reducible refine keeps_setExports ?_ ?_ ..; rotate_left; (first | rfl | decide))
  | with_reducible refine Keeps.foldl ?_ (fun v e => ?_)
  | with_reducible refine Keeps.ite ?_ ?_
  | split
  | exact Keeps.upd (by with_reducible assumption)
  | exact Keeps.upd (Keeps.refl _ _)
  | (clear_value *; split)

theorem keeps_placeQuery {L : Nat} {s u : State} (h : Keeps L s u) (hm : 0x800000 &&& L = 0x800000) {a1 a2} : Keeps L s (State.placeQuery u a1 a2) := by
  refine h.step (m := 0x800000) ?_ hm
  unfold State.placeQuery
  repeat' first
  | with_reducible assumption
  | with_reducible exact Keeps.refl _ _
  | (extract_lets +onlyGivenNames x; refine Keeps.cut x ?_ (fun hx => ?_); rotate_left; rename State => z; rotate_right; unfold x; clear x)
  | (extract_lets +onlyGivenNames x; revert x; intro y)
  | with_reducible refine Keeps.foldl ?_ (fun v e => ?_)
  | with_reducible refine Keeps.ite ?_ ?_
  | split
  | exact Keeps.upd (by with_reducible assumption)
  | exact Keeps.upd (Keeps.refl _ _)
  | (clear_value *; split)

theorem keeps_startExport {L : Nat} {s u : State} (h : Keeps L s u) (hm : 0x802000000 &&& L = 0x802000000) {a1 a2 a3 a4 a5} : Keeps L s (State.startExport u a1 a2 a3 a4 a5) := by
  refine h.step (m := 0x802000000) ?_ hm
  unfold State.startExport
  repeat' first
  | with_reducible assumption
  | with_reducible exact Keeps.refl _ _
  | (extract_lets +onlyGivenNames x; refine Keeps.cut x ?_ (fun hx => ?_); rotate_left; rename State => z; rotate_right; unfold x; clear x)
  | (extract_lets +onlyGivenNames x; revert x; intro y)
  | (with_reducible refine keeps_makeRoom ?_ ?_ ..; rotate_left; (first | rfl | decide))
  | (with_reducible refine Keeps.drawn ?_ ?_; rotate_left; (first | rfl | decide))
  | (with_reducible refine keeps_updCtx ?_ ?_ ..; rotate_left; (first | rfl | decide))
  | with_reducible refine Keeps.foldl ?_ (fun v e => ?_)
  | with_reducible refine Keeps.ite ?_ ?_
  | split
  | exact Keeps.upd (by with_reducible assumption)
  | exact Keeps.upd (Keeps.refl _ _)
  | (clear_value *; split)

theorem keeps_takeSamples {L : Nat} {s u : State} (h : Keeps L s u) (hm : 0x2004000 &&& L = 0x2004000) {a1 a2 a3} : Keeps L s (State.takeSamples u a1 a2 a3) := by
  refine h.step (m := 0x2004000) ?_ hm
  unfold State.takeSamples
  repeat' first
  | with_reducible assumption
  | with_reducible exact Keeps.refl _ _
  | (extract_lets +onlyGivenNames x; refine Keeps.cut x ?_ (fun hx => ?_); rotate_left; rename State => z; rotate_right; unfold x; clear x)
  | (extract_lets +onlyGivenNames x; revert x; intro y)
  | (with_reducible refine keeps_setAccepted ?_ ?_ ..; rotate_left; (first | rfl | decide))
  | (with_reducible refine keeps_updCtx ?_ ?_ ..; rotate_left; (first | rfl | decide))
  | with_reducible refine Keeps.foldl ?_ (fun v e => ?_)
  | with_reducible refine Keeps.ite ?_ ?_
  | split
  | exact Keeps.upd (by with_reducible assumption)
  | exact Keeps.upd (Keeps.refl _ _)
  | (clear_value *; split)

theorem keeps_writeRequest {L : Nat} {s u : State} (h : Keeps L s u) (hm : 0x401800080 &&& L = 0x401800080) {a1 a2 a3 a4} (hf : ∀ e v, Keeps L v (a4 e v)) :
    Keeps L s (State.writeRequest u a1 a2 a3 a4) := by
  unfold State.writeRequest
  repeat' first
  | with_reducible assumption
  | with_reducible exact Keeps.refl _ _
  | (extract_lets +onlyGivenNames x; refine Keeps.cut x ?_ (fun hx => ?_); rotate_left; rename State => z; rotate_right; unfold x; clear x)
  | (extract_lets +onlyGivenNames x; revert x; intro y)
  | (with_reducible refine keeps_withRequest ?_ ?_ (fun v => ?_); rotate_left; (first | rfl | decide | exact sub_trans (by decide) hm | exact bit_of_sub hm (by decide)); rotate_right)
  | (with_reducible refine keeps_decide_ ?_ ?_ (fun v => ?_); rotate_left; (first | rfl | decide | exact sub_trans (by decide) hm | exact bit_of_sub hm (by decide)); rotate_right)
  | (with_reducible refine keeps_reject ?_ ?_ ..; rotate_left; (first | rfl | decide | exact sub_trans (by decide) hm | exact bit_of_sub hm (by decide)))
  | (with_reducible refine keeps_accept ?_ ?_ ..; rotate_left; (first | rfl | decide | exact sub_trans (by decide) hm | exact bit_of_sub hm (by decide)))
  | (with_reducible refine keeps_queue2 ?_ ?_ ..; rotate_left; (first | rfl | decide | exact sub_trans (by decide) hm | exact bit_of_sub hm (by decide)))
  | with_reducible refine Keeps.foldl ?_ (fun v e => ?_)
  | with_reducible refine Keeps.ite ?_ ?_
  | with_reducible refine Keeps.trans ?_ (hf ..)
  | split
  | exact Keeps.upd (by with_reducible assumption)
  | exact Keeps.upd (Keeps.refl _ _)
  | (clear_value *; split)

theorem keeps_execQuery (a0 u) : KeepsO 0x401800080 u (execQuery a0 u) := by
  unfold execQuery
  repeat' first
  | with_reducible assumption
  | with_reducible exact Keeps.refl _ _
  | with_reducible refine KeepsO.next ?_
  | with_reducible exact KeepsO.fault _
  | (extract_lets +onlyGivenNames x; refine Keeps.cut x ?_ (fun hx => ?_); rotate_left; rename State => z; rotate_right; unfold x; clear x)
  | (extract_lets +onlyGivenNames x; refine KeepsO.cut x ?_ (fun hx => ?_); rotate_left; rename State => z; rotate_right; unfold x; clear x)
  | (extract_lets +onlyGivenNames x; revert x; intro y)
  | (with_reducible refine keeps_withRequest ?_ ?_ (fun v => ?_); rotate_left; (first | rfl | decide); rotate_right)
  | (with_reducible refine keeps_decide_ ?_ ?_ (fun v => ?_); rotate_left; (first | rfl | decide); rotate_right)
  | (with_reducible refine keeps_placeQuery ?_ ?_ ..; rotate_left; (first | rfl | decide))
  | with_reducible refine Keeps.foldl ?_ (fun v e => ?_)
  | with_reducible refine Keeps.ite ?_ ?_
  | with_reducible refine KeepsO.ite ?_ ?_
  | split
  | exact Keeps.upd (by with_reducible assumption)
  | exact Keeps.upd (Keeps.refl _ _)
  | (clear_value *; split)

theorem keeps_execSample (a0 a1 u) : KeepsO 0x403804080 u (execSample a0 a1 u) := by
  unfold execSample
  repeat' first
  | with_reducible assumption
  | with_reducible exact Keeps.refl _ _
  | with_reducible refine KeepsO.next ?_
  | with_reducible exact KeepsO.fault _
  | (extract_lets +onlyGivenNames x; refine Keeps.cut x ?_ (fun hx => ?_); rotate_left; rename State => z; rotate_right; unfold x; clear x)
  | (extract_lets +onlyGivenNames x; refine KeepsO.cut x ?_ (fun hx => ?_); rotate_left; rename State => z; rotate_right; unfold x; clear x)
  | (extract_lets +onlyGivenNames x; revert x; intro y)
  | (with_reducible refine keeps_withRequest ?_ ?_ (fun v => ?_); rotate_left; (first | rfl | decide); rotate_right)
  | (with_reducible refine keeps_send ?_ ?_ ..; rotate_left; (first | rfl | decide))
  | (with_reducible refine keeps_takeSamples ?_ ?_ ..; rotate_left; (first | rfl | decide))
  | (with_reducible refine Keeps.bump ?_ ?_ ?_; rotate_left; (first | rfl | decide); (first | rfl | decide))
  | (with_reducible refine keeps_hold ?_ ?_ ..; rotate_left; (first | rfl | decide))
  | with_reducible refine Keeps.foldl ?_ (fun v e => ?_)
  | with_reducible refine Keeps.ite ?_ ?_
  | with_reducible refine KeepsO.ite ?_ ?_
  | split
  | exact Keeps.upd (by with_reducible assumption)
  | exact Keeps.upd (Keeps.refl _ _)
  | (clear_value *; split)

theorem keeps_execLoadModel (a0 u) : KeepsO 0x407807080 u (execLoadModel a0 u) := by
  unfold execLoadModel
  repeat' first
  | with_reducible assumption
  | with_reducible exact Keeps.refl _ _
  | with_reducible refine KeepsO.next ?_
  | with_reducible exact KeepsO.fault _
  | (extract_lets +onlyGivenNames x; refine Keeps.cut x ?_ (fun hx => ?_); rotate_left; rename State => z; rotate_right; unfold x; clear x)
  | (extract_lets +onlyGivenNames x; refine KeepsO.cut x ?_ (fun hx => ?_); rotate_left; rename State => z; rotate_right; unfold x; clear x)
  | (extract_lets +onlyGivenNames x; revert x; intro y)
  | (with_reducible refine keeps_withRequest ?_ ?_ (fun v => ?_); rotate_left; (first | rfl | decide); rotate_right)
  | (with_reducible refine keeps_decide_ ?_ ?_ (fun v => ?_); rotate_left; (first | rfl | decide); rotate_right)
  | (with_reducible refine keeps_updCtx ?_ ?_ ..; rotate_left; (first | rfl | decide))
  | (with_reducible refine keeps_enterLoading ?_ ?_ ..; rotate_left; (first | rfl | decide))
  | (with_reducible refine keeps_place ?_ ?_ ..; rotate_left; (first | rfl | decide))
  | (with_reducible refine keeps_queue1 ?_ ?_ ..; rotate_left; (first | rfl | decide))
  | with_reducible refine Keeps.foldl ?_ (fun v e => ?_)
  | with_reducible refine Keeps.ite ?_ ?_
  | with_reducible refine KeepsO.ite ?_ ?_
  | split
  | exact Keeps.upd (by with_reducible assumption)
  | exact Keeps.upd (Keeps.refl _ _)
  | (clear_value *; split)

theorem keeps_execLoadFailed (a0 a1 a2 u) : KeepsO 0x2842020 u (execLoadFailed a0 a1 a2 u) := by
  unfold execLoadFailed
  repeat' first
  | with_reducible assumption
  | with_reducible exact Keeps.refl _ _
  | with_reducible refine KeepsO.next ?_
  | with_reducible exact KeepsO.fault _
  | (extract_lets +onlyGivenNames x; refine Keeps.cut x ?_ (fun hx => ?_); rotate_left; rename State => z; rotate_right; unfold x; clear x)
  | (extract_lets +onlyGivenNames x; refine KeepsO.cut x ?_ (fun hx => ?_); rotate_left; rename State => z; rotate_right; unfold x; clear x)
  | (extract_lets +onlyGivenNames x; revert x; intro y)
  | (with_reducible refine keeps_failLoad ?_ ?_ ..; rotate_left; (first | rfl | decide))
  | with_reducible refine Keeps.foldl ?_ (fun v e => ?_)
  | with_reducible refine Keeps.ite ?_ ?_
  | with_reducible refine KeepsO.ite ?_ ?_
  | split
  | exact Keeps.upd (by with_reducible assumption)
  | exact Keeps.upd (Keeps.refl _ _)
  | (clear_value *; split)

theorem keeps_execExportReq (a0 a1 u) : KeepsO 0xC03800080 u (execExportReq a0 a1 u) := by
  unfold execExportReq
  repeat' first
  | with_reducible assumption
  | with_reducible exact Keeps.refl _ _
  | with_reducible refine KeepsO.next ?_
  | with_reducible exact KeepsO.fault _
  | (extract_lets +onlyGivenNames x; refine Keeps.cut x ?_ (fun hx => ?_); rotate_left; rename State => z; rotate_right; unfold x; clear x)
  | (extract_lets +onlyGivenNames x; refine KeepsO.cut x ?_ (fun hx => ?_); rotate_left; rename State => z; rotate_right; unfold x; clear x)
  | (extract_lets +onlyGivenNames x; revert x; intro y)
  | (with_reducible refine keeps_withRequest ?_ ?_ (fun v => ?_); rotate_left; (first | rfl | decide); rotate_right)
  | (with_reducible refine keeps_decide_ ?_ ?_ (fun v => ?_); rotate_left; (first | rfl | decide); rotate_right)
  | (with_reducible refine keeps_startExport ?_ ?_ ..; rotate_left; (first | rfl | decide))
  | (with_reducible refine keeps_queue1 ?_ ?_ ..; rotate_left; (first | rfl | decide))
  | with_reducible refine Keeps.foldl ?_ (fun v e => ?_)
  | with_reducible refine Keeps.ite ?_ ?_
  | with_reducible refine KeepsO.ite ?_ ?_
  | split
  | exact Keeps.upd (by with_reducible assumption)
  | exact Keeps.upd (Keeps.refl _ _)
  | (clear_value *; split)

theorem keeps_execExportResend (a0 a1 a2 a3 u) : KeepsO 0x401800080 u (execExportResend a0 a1 a2 a3 u) := by
  unfold execExportResend
  repeat' first
  | with_reducible assumption
  | with_reducible exact Keeps.refl _ _
  | with_reducible refine KeepsO.next ?_
  | with_reducible exact KeepsO.fault _
  | (extract_lets +onlyGivenNames x; refine Keeps.cut x ?_ (fun hx => ?_); rotate_left; rename State => z; rotate_right; unfold x; clear x)
  | (extract_lets +onlyGivenNames x; refine KeepsO.cut x ?_ (fun hx => ?_); rotate_left; rename State => z; rotate_right; unfold x; clear x)
  | (extract_lets +onlyGivenNames x; revert x; intro y)
  | (with_reducible refine keeps_withRequest ?_ ?_ (fun v => ?_); rotate_left; (first | rfl | decide); rotate_right)
  | (with_reducible refine keeps_decide_ ?_ ?_ (fun v => ?_); rotate_left; (first | rfl | decide); rotate_right)
  | (with_reducible refine keeps_hold ?_ ?_ ..; rotate_left; (first | rfl | decide))
  | (with_reducible refine keeps_queue1 ?_ ?_ ..; rotate_left; (first | rfl | decide))
  | with_reducible refine Keeps.foldl ?_ (fun v e => ?_)
  | with_reducible refine Keeps.ite ?_ ?_
  | with_reducible refine KeepsO.ite ?_ ?_
  | split
  | exact Keeps.upd (by with_reducible assumption)
  | exact Keeps.upd (Keeps.refl _ _)
  | (clear_value *; split)

theorem keeps_execMgmtRead (a0 u) : KeepsO 0x401000080 u (execMgmtRead a0 u) := by
  unfold execMgmtRead
  repeat' first
  | with_reducible assumption
  | with_reducible exact Keeps.refl _ _
  | with_reducible refine KeepsO.next ?_
  | with_reducible exact KeepsO.fault _
  | (extract_lets +onlyGivenNames x; refine Keeps.cut x ?_ (fun hx => ?_); rotate_left; rename State => z; rotate_right; unfold x; clear x)
  | (extract_lets +onlyGivenNames x; refine KeepsO.cut x ?_ (fun hx => ?_); rotate_left; rename State => z; rotate_right; unfold x; clear x)
  | (extract_lets +onlyGivenNames x; revert x; intro y)
  | (with_reducible refine keeps_withRequest ?_ ?_ (fun v => ?_); rotate_left; (first | rfl | decide); rotate_right)
  | (with_reducible refine keeps_decide_ ?_ ?_ (fun v => ?_); rotate_left; (first | rfl | decide); rotate_right)
  | (with_reducible refine keeps_send ?_ ?_ ..; rotate_left; (first | rfl | decide))
  | with_reducible refine Keeps.foldl ?_ (fun v e => ?_)
  | with_reducible refine Keeps.ite ?_ ?_
  | with_reducible refine KeepsO.ite ?_ ?_
  | split
  | exact Keeps.upd (by with_reducible assumption)
  | exact Keeps.upd (Keeps.refl _ _)
  | (clear_value *; split)

theorem keeps_execHsessCfgWrite (a0 a1 u) : KeepsO 0x40189FFFF u (execHsessCfgWrite a0 a1 u) := by
  unfold execHsessCfgWrite
  repeat' first
  | with_reducible assumption
  | with_reducible exact Keeps.refl _ _
  | with_reducible refine KeepsO.next ?_
  | with_reducible exact KeepsO.fault _
  | (extract_lets +onlyGivenNames x; refine Keeps.cut x ?_ (fun hx => ?_); rotate_left; rename State => z; rotate_right; unfold x; clear x)
  | (extract_lets +onlyGivenNames x; refine KeepsO.cut x ?_ (fun hx => ?_); rotate_left; rename State => z; rotate_right; unfold x; clear x)
  | (extract_lets +onlyGivenNames x; revert x; intro y)
  | (with_reducible refine keeps_writeRequest ?_ ?_ (fun e v => ?_); rotate_left; (first | rfl | decide); rotate_right)
  | (with_reducible refine keeps_applyHsess ?_ ?_ ..; rotate_left; (first | rfl | decide))
  | with_reducible refine Keeps.foldl ?_ (fun v e => ?_)
  | with_reducible refine Keeps.ite ?_ ?_
  | with_reducible refine KeepsO.ite ?_ ?_
  | split
  | exact Keeps.upd (by with_reducible assumption)
  | exact Keeps.upd (Keeps.refl _ _)
  | (clear_value *; split)

end Sys2Proof.Machine
end

