-- ==== Sys2Proof/Laws/KeepsPlan.lean ====
section
/-!
SUPPORT. Laws/KeepsPlan.lean: what each operation of Machine/Plan.lean leaves as it was (Laws/Keeps.lean).
-/
namespace Sys2Proof.Machine
set_option Elab.async false
set_option linter.unusedTactic false
set_option linter.unreachableTactic false

theorem keeps_fillMore {L : Nat} {s u : State} (h : Keeps L s u) (hm : 0x800000 &&& L = 0x800000)  : Keeps L s (State.fillMore u) := by
  refine h.step (m := 0x800000) ?_ hm
  unfold State.fillMore
  repeat' first
  | with_reducible assumption
  | with_reducible exact Keeps.refl _ _
  | (extract_lets +onlyGivenNames x; refine Keeps.cut x ?_ (fun hx => ?_); rotate_left; rename State => z; rotate_right; unfold x; clear x)
  | (extract_lets +onlyGivenNames x; revert x; intro y)
  | with_reducible refine Keeps.foldl ?_ (fun v e => ?_)
  | with_reducible refine Keeps.ite ?_ ?_
  | split
  | exact Keeps.upd (by with_reducible assumption)
  | exact Keeps.upd (Keeps.refl _ _)
  | (clear_value *; split)

theorem keeps_giveBack {L : Nat} {s u : State} (h : Keeps L s u) (hm : 0x800000 &&& L = 0x800000) {a1 a2 a3} : Keeps L s (State.giveBack u a1 a2 a3) := by
  refine h.step (m := 0x800000) ?_ hm
  unfold State.giveBack
  repeat' first
  | with_reducible assumption
  | with_reducible exact Keeps.refl _ _
  | (extract_lets +onlyGivenNames x; refine Keeps.cut x ?_ (fun hx => ?_); rotate_left; rename State => z; rotate_right; unfold x; clear x)
  | (extract_lets +onlyGivenNames x; revert x; intro y)
  | (with_reducible refine keeps_fillMore ?_ ?_ ..; rotate_left; (first | rfl | decide))
  | with_reducible refine Keeps.foldl ?_ (fun v e => ?_)
  | with_reducible refine Keeps.ite ?_ ?_
  | split
  | exact Keeps.upd (by with_reducible assumption)
  | exact Keeps.upd (Keeps.refl _ _)
  | (clear_value *; split)

theorem keeps_takeMore {L : Nat} {s u : State} (h : Keeps L s u) (hm : 0x800000 &&& L = 0x800000) {a1 a2 a3} : Keeps L s (State.takeMore u a1 a2 a3) := by
  refine h.step (m := 0x800000) ?_ hm
  unfold State.takeMore
  repeat' first
  | with_reducible assumption
  | with_reducible exact Keeps.refl _ _
  | (extract_lets +onlyGivenNames x; refine Keeps.cut x ?_ (fun hx => ?_); rotate_left; rename State => z; rotate_right; unfold x; clear x)
  | (extract_lets +onlyGivenNames x; revert x; intro y)
  | with_reducible refine Keeps.foldl ?_ (fun v e => ?_)
  | with_reducible refine Keeps.ite ?_ ?_
  | split
  | exact Keeps.upd (by with_reducible assumption)
  | exact Keeps.upd (Keeps.refl _ _)
  | (clear_value *; split)

theorem keeps_settle {L : Nat} {s u : State} (h : Keeps L s u) (hm : 0x800000 &&& L = 0x800000) {a1 a2 a3 a4} : Keeps L s (State.settle u a1 a2 a3 a4) := by
  refine h.step (m := 0x800000) ?_ hm
  unfold State.settle
  repeat' first
  | with_reducible assumption
  | with_reducible exact Keeps.refl _ _
  | (extract_lets +onlyGivenNames x; refine Keeps.cut x ?_ (fun hx => ?_); rotate_left; rename State => z; rotate_right; unfold x; clear x)
  | (extract_lets +onlyGivenNames x; revert x; intro y)
  | (with_reducible refine keeps_giveBack ?_ ?_ ..; rotate_left; (first | rfl | decide))
  | (with_reducible refine keeps_takeMore ?_ ?_ ..; rotate_left; (first | rfl | decide))
  | with_reducible refine Keeps.foldl ?_ (fun v e => ?_)
  | with_reducible refine Keeps.ite ?_ ?_
  | split
  | exact Keeps.upd (by with_reducible assumption)
  | exact Keeps.upd (Keeps.refl _ _)
  | (clear_value *; split)

end Sys2Proof.Machine
end

