-- ==== Sys2Proof/Laws/KeepsDma.lean ====
section
/-!
SUPPORT. Laws/KeepsDma.lean: what each operation of Machine/Dma.lean leaves as it was (Laws/Keeps.lean).
-/
namespace Sys2Proof.Machine
set_option Elab.async false
set_option linter.unusedTactic false
set_option linter.unreachableTactic false

theorem keeps_dmaRefused {L : Nat} {s u : State} (h : Keeps L s u) (hm : 0x2040400 &&& L = 0x2040400) {a1 a2} : Keeps L s (State.dmaRefused u a1 a2) := by
  refine h.step (m := 0x2040400) ?_ hm
  unfold State.dmaRefused
  repeat' first
  | with_reducible assumption
  | with_reducible exact Keeps.refl _ _
  | (extract_lets +onlyGivenNames x; refine Keeps.cut x ?_ (fun hx => ?_); rotate_left; rename State => z; rotate_right; unfold x; clear x)
  | (extract_lets +onlyGivenNames x; revert x; intro y)
  | (with_reducible refine keeps_faultCtx ?_ ?_ ..; rotate_left; (first | rfl | decide))
  | (with_reducible refine Keeps.raise ?_ ?_ ?_ ?_; rotate_left; (first | rfl | decide); (first | rfl | decide); (first | rfl | decide))
  | with_reducible refine Keeps.foldl ?_ (fun v e => ?_)
  | with_reducible refine Keeps.ite ?_ ?_
  | split
  | exact Keeps.upd (by with_reducible assumption)
  | exact Keeps.upd (Keeps.refl _ _)
  | (clear_value *; split)

theorem keeps_sendRange {L : Nat} {s u : State} (h : Keeps L s u) (hm : 0x400000100 &&& L = 0x400000100) {a1 a2 a3 a4} : Keeps L s (State.sendRange u a1 a2 a3 a4) := by
  refine h.step (m := 0x400000100) ?_ hm
  unfold State.sendRange
  repeat' first
  | with_reducible assumption
  | with_reducible exact Keeps.refl _ _
  | (extract_lets +onlyGivenNames x; refine Keeps.cut x ?_ (fun hx => ?_); rotate_left; rename State => z; rotate_right; unfold x; clear x)
  | (extract_lets +onlyGivenNames x; revert x; intro y)
  | (with_reducible refine keeps_record ?_ ?_ ..; rotate_left; (first | rfl | decide))
  | with_reducible refine Keeps.foldl ?_ (fun v e => ?_)
  | with_reducible refine Keeps.ite ?_ ?_
  | split
  | exact Keeps.upd (by with_reducible assumption)
  | exact Keeps.upd (Keeps.refl _ _)
  | (clear_value *; split)

theorem keeps_dmaRemote {L : Nat} {s u : State} (h : Keeps L s u) (hm : 0x400800100 &&& L = 0x400800100) {a1 a2 a3 a4} : Keeps L s (State.dmaRemote u a1 a2 a3 a4) := by
  refine h.step (m := 0x400800100) ?_ hm
  unfold State.dmaRemote
  repeat' first
  | with_reducible assumption
  | with_reducible exact Keeps.refl _ _
  | (extract_lets +onlyGivenNames x; refine Keeps.cut x ?_ (fun hx => ?_); rotate_left; rename State => z; rotate_right; unfold x; clear x)
  | (extract_lets +onlyGivenNames x; revert x; intro y)
  | (with_reducible refine keeps_sendRange ?_ ?_ ..; rotate_left; (first | rfl | decide))
  | with_reducible refine Keeps.foldl ?_ (fun v e => ?_)
  | with_reducible refine Keeps.ite ?_ ?_
  | split
  | exact Keeps.upd (by with_reducible assumption)
  | exact Keeps.upd (Keeps.refl _ _)
  | (clear_value *; split)

theorem keeps_setEnd {L : Nat} {s u : State} (h : Keeps L s u) (hm : 0x100000 &&& L = 0x100000) {p k e a} {l : List Byte} : Keeps L s (State.setEnd u p k e a l) := by
  refine h.step (m := 0x100000) ?_ hm
  suffices hs : ∀ (l : List Byte) (u : State) (a : Nat), Keeps 0x100000 u (State.setEnd u p k e a l) from hs l u a
  intro l
  induction l with
  | nil => exact fun u _ => Keeps.refl _ u
  | cons b r ih => exact fun u _ => ((Keeps.refl _ u).setByte rfl).trans (ih _ _)

theorem keeps_dmaLocal {L : Nat} {s u : State} (h : Keeps L s u) (hm : 0x8142000 &&& L = 0x8142000) {a1 a2 a3 a4 a5} : Keeps L s (State.dmaLocal u a1 a2 a3 a4 a5) := by
  refine h.step (m := 0x8142000) ?_ hm
  unfold State.dmaLocal
  repeat' first
  | with_reducible assumption
  | with_reducible exact Keeps.refl _ _
  | (extract_lets +onlyGivenNames x; refine Keeps.cut x ?_ (fun hx => ?_); rotate_left; rename State => z; rotate_right; unfold x; clear x)
  | (extract_lets +onlyGivenNames x; revert x; intro y)
  | (with_reducible refine keeps_setEnd ?_ ?_ ..; rotate_left; (first | rfl | decide))
  | (with_reducible refine keeps_staleData ?_ ?_ ..; rotate_left; (first | rfl | decide))
  | (with_reducible refine keeps_signalIn ?_ ?_ ..; rotate_left; (first | rfl | decide))
  | with_reducible refine Keeps.foldl ?_ (fun v e => ?_)
  | with_reducible refine Keeps.ite ?_ ?_
  | split
  | exact Keeps.upd (by with_reducible assumption)
  | exact Keeps.upd (Keeps.refl _ _)
  | (clear_value *; split)

theorem keeps_dmaOp {L : Nat} {s u : State} (h : Keeps L s u) (hm : 0xD0A942500 &&& L = 0xD0A942500) {a1 a2 a3} : Keeps L s (State.dmaOp u a1 a2 a3) := by
  refine h.step (m := 0xD0A942500) ?_ hm
  unfold State.dmaOp
  repeat' first
  | with_reducible assumption
  | with_reducible exact Keeps.refl _ _
  | (extract_lets +onlyGivenNames x; refine Keeps.cut x ?_ (fun hx => ?_); rotate_left; rename State => z; rotate_right; unfold x; clear x)
  | (extract_lets +onlyGivenNames x; revert x; intro y)
  | (with_reducible refine keeps_dmaRefused ?_ ?_ ..; rotate_left; (first | rfl | decide))
  | (with_reducible refine keeps_trace ?_ ?_ ..; rotate_left; (first | rfl | decide))
  | (with_reducible refine keeps_skipDraws ?_ ?_ ..; rotate_left; (first | rfl | decide))
  | (with_reducible refine keeps_dmaRemote ?_ ?_ ..; rotate_left; (first | rfl | decide))
  | (with_reducible refine keeps_dmaLocal ?_ ?_ ..; rotate_left; (first | rfl | decide))
  | with_reducible refine Keeps.foldl ?_ (fun v e => ?_)
  | with_reducible refine Keeps.ite ?_ ?_
  | split
  | exact Keeps.upd (by with_reducible assumption)
  | exact Keeps.upd (Keeps.refl _ _)
  | (clear_value *; split)

theorem keeps_dma (u a1 a2 a3) : KeepsO 0xD0A942500 u (State.dma u a1 a2 a3) := by
  unfold State.dma
  repeat' first
  | with_reducible assumption
  | with_reducible exact Keeps.refl _ _
  | with_reducible refine KeepsO.next ?_
  | with_reducible exact KeepsO.fault _
  | (extract_lets +onlyGivenNames x; refine Keeps.cut x ?_ (fun hx => ?_); rotate_left; rename State => z; rotate_right; unfold x; clear x)
  | (extract_lets +onlyGivenNames x; refine KeepsO.cut x ?_ (fun hx => ?_); rotate_left; rename State => z; rotate_right; unfold x; clear x)
  | (extract_lets +onlyGivenNames x; revert x; intro y)
  | (with_reducible refine keeps_dmaOp ?_ ?_ ..; rotate_left; (first | rfl | decide))
  | with_reducible refine Keeps.foldl ?_ (fun v e => ?_)
  | with_reducible refine Keeps.ite ?_ ?_
  | with_reducible refine KeepsO.ite ?_ ?_
  | split
  | exact Keeps.upd (by with_reducible assumption)
  | exact Keeps.upd (Keeps.refl _ _)
  | (clear_value *; split)

theorem keeps_execCopy (a0 a1 u) : KeepsO 0xD0A942500 u (execCopy a0 a1 u) := by
  unfold execCopy
  repeat' first
  | with_reducible assumption
  | with_reducible exact Keeps.refl _ _
  | with_reducible refine KeepsO.next ?_
  | with_reducible exact KeepsO.fault _
  | (extract_lets +onlyGivenNames x; refine Keeps.cut x ?_ (fun hx => ?_); rotate_left; rename State => z; rotate_right; unfold x; clear x)
  | (extract_lets +onlyGivenNames x; refine KeepsO.cut x ?_ (fun hx => ?_); rotate_left; rename State => z; rotate_right; unfold x; clear x)
  | (extract_lets +onlyGivenNames x; revert x; intro y)
  | (with_reducible refine KeepsO.step ?_ (keeps_dma ..) ?_; rotate_left; (first | rfl | decide))
  | with_reducible refine Keeps.foldl ?_ (fun v e => ?_)
  | with_reducible refine Keeps.ite ?_ ?_
  | with_reducible refine KeepsO.ite ?_ ?_
  | split
  | exact Keeps.upd (by with_reducible assumption)
  | exact Keeps.upd (Keeps.refl _ _)
  | (clear_value *; split)

theorem keeps_execFill (a0 a1 u) : KeepsO 0xD0A942500 u (execFill a0 a1 u) := by
  unfold execFill
  repeat' first
  | with_reducible assumption
  | with_reducible exact Keeps.refl _ _
  | with_reducible refine KeepsO.next ?_
  | with_reducible exact KeepsO.fault _
  | (extract_lets +onlyGivenNames x; refine Keeps.cut x ?_ (fun hx => ?_); rotate_left; rename State => z; rotate_right; unfold x; clear x)
  | (extract_lets +onlyGivenNames x; refine KeepsO.cut x ?_ (fun hx => ?_); rotate_left; rename State => z; rotate_right; unfold x; clear x)
  | (extract_lets +onlyGivenNames x; revert x; intro y)
  | (with_reducible refine KeepsO.step ?_ (keeps_dma ..) ?_; rotate_left; (first | rfl | decide))
  | with_reducible refine Keeps.foldl ?_ (fun v e => ?_)
  | with_reducible refine Keeps.ite ?_ ?_
  | with_reducible refine KeepsO.ite ?_ ?_
  | split
  | exact Keeps.upd (by with_reducible assumption)
  | exact Keeps.upd (Keeps.refl _ _)
  | (clear_value *; split)

theorem keeps_execTranspose (a0 a1 u) : KeepsO 0xD0A942500 u (execTranspose a0 a1 u) := by
  unfold execTranspose
  repeat' first
  | with_reducible assumption
  | with_reducible exact Keeps.refl _ _
  | with_reducible refine KeepsO.next ?_
  | with_reducible exact KeepsO.fault _
  | (extract_lets +onlyGivenNames x; refine Keeps.cut x ?_ (fun hx => ?_); rotate_left; rename State => z; rotate_right; unfold x; clear x)
  | (extract_lets +onlyGivenNames x; refine KeepsO.cut x ?_ (fun hx => ?_); rotate_left; rename State => z; rotate_right; unfold x; clear x)
  | (extract_lets +onlyGivenNames x; revert x; intro y)
  | (with_reducible refine KeepsO.step ?_ (keeps_dma ..) ?_; rotate_left; (first | rfl | decide))
  | with_reducible refine Keeps.foldl ?_ (fun v e => ?_)
  | with_reducible refine Keeps.ite ?_ ?_
  | with_reducible refine KeepsO.ite ?_ ?_
  | split
  | exact Keeps.upd (by with_reducible assumption)
  | exact Keeps.upd (Keeps.refl _ _)
  | (clear_value *; split)

end Sys2Proof.Machine
end

