-- ==== Sys2Proof/Laws/KeepsMatrix.lean ====
section
/-!
SUPPORT. Laws/KeepsMatrix.lean: what each operation of Machine/Matrix.lean leaves as it was (Laws/Keeps.lean).
-/
namespace Sys2Proof.Machine
set_option Elab.async false
set_option linter.unusedTactic false
set_option linter.unreachableTactic false

theorem keeps_clearFlags {L : Nat} {s u : State} (h : Keeps L s u) (hm : 0x100000 &&& L = 0x100000) {a1 a2} : Keeps L s (State.clearFlags u a1 a2) := by
  refine h.step (m := 0x100000) ?_ hm
  unfold State.clearFlags
  repeat' first
  | with_reducible assumption
  | with_reducible exact Keeps.refl _ _
  | (extract_lets +onlyGivenNames x; refine Keeps.cut x ?_ (fun hx => ?_); rotate_left; rename State => z; rotate_right; unfold x; clear x)
  | (extract_lets +onlyGivenNames x; revert x; intro y)
  | (with_reducible refine Keeps.zeroBytes ?_ ?_; rotate_left; (first | rfl | decide))
  | with_reducible refine Keeps.foldl ?_ (fun v e => ?_)
  | with_reducible refine Keeps.ite ?_ ?_
  | split
  | exact Keeps.upd (by with_reducible assumption)
  | exact Keeps.upd (Keeps.refl _ _)
  | (clear_value *; split)

theorem keeps_countAcc {L : Nat} {s u : State} (h : Keeps L s u) (hm : 0x40400 &&& L = 0x40400) {a1 a2 a3} : Keeps L s (State.countAcc u a1 a2 a3) := by
  refine h.step (m := 0x40400) ?_ hm
  unfold State.countAcc
  repeat' first
  | with_reducible assumption
  | with_reducible exact Keeps.refl _ _
  | (extract_lets +onlyGivenNames x; refine Keeps.cut x ?_ (fun hx => ?_); rotate_left; rename State => z; rotate_right; unfold x; clear x)
  | (extract_lets +onlyGivenNames x; revert x; intro y)
  | (with_reducible refine Keeps.raise ?_ ?_ ?_ ?_; rotate_left; (first | rfl | decide); (first | rfl | decide); (first | rfl | decide))
  | (with_reducible refine Keeps.bump ?_ ?_ ?_; rotate_left; (first | rfl | decide); (first | rfl | decide))
  | with_reducible refine Keeps.foldl ?_ (fun v e => ?_)
  | with_reducible refine Keeps.ite ?_ ?_
  | split
  | exact Keeps.upd (by with_reducible assumption)
  | exact Keeps.upd (Keeps.refl _ _)
  | (clear_value *; split)

theorem keeps_putOut {L : Nat} {s u : State} (h : Keeps L s u) (hm : 0x100000 &&& L = 0x100000) {a0 a1 a3} : Keeps L s (State.putOut a0 a1 u a3) := by
  refine h.step (m := 0x100000) ?_ hm
  unfold State.putOut
  repeat' first
  | with_reducible assumption
  | with_reducible exact Keeps.refl _ _
  | (extract_lets +onlyGivenNames x; refine Keeps.cut x ?_ (fun hx => ?_); rotate_left; rename State => z; rotate_right; unfold x; clear x)
  | (extract_lets +onlyGivenNames x; revert x; intro y)
  | (with_reducible refine Keeps.setWord ?_ ?_; rotate_left; (first | rfl | decide))
  | (with_reducible refine Keeps.setByte ?_ ?_; rotate_left; (first | rfl | decide))
  | with_reducible refine Keeps.foldl ?_ (fun v e => ?_)
  | with_reducible refine Keeps.ite ?_ ?_
  | split
  | exact Keeps.upd (by with_reducible assumption)
  | exact Keeps.upd (Keeps.refl _ _)
  | (clear_value *; split)

theorem keeps_streamMatrix {L : Nat} {s u : State} (h : Keeps L s u) (hm : 0x800142000 &&& L = 0x800142000) {p d os} :
    Keeps L s (u.streamMatrix p d os).1 := by
  unfold State.streamMatrix
  extract_lets rows per src ns bs plane x y z
  have hx : Keeps L s x := Keeps.foldl h (fun v e => keeps_setSp (Keeps.refl _ v) (sub_trans (by decide) hm))
  have hy : Keeps L s y := keeps_setSp hx (sub_trans (by decide) hm)
  exact Keeps.ite (keeps_skipDraws (keeps_countTile hy (sub_trans (by decide) hm)) (sub_trans (by decide) hm)) hy

theorem keeps_matrixOp {L : Nat} {s u : State} (h : Keeps L s u) (hm : 0x908142400 &&& L = 0x908142400) {p d} : Keeps L s (u.matrixOp p d) := by
  refine h.step (m := 0x908142400) ?_ hm
  unfold State.matrixOp
  extract_lets c key os sat nan x y r w
  have hx : Keeps 0x908142400 u x := keeps_clearFlags (keeps_trace (Keeps.refl _ _) (by decide)) (by decide)
  have hy : Keeps 0x908142400 u y := Keeps.foldl hx (fun v e => keeps_putOut (Keeps.refl _ _) (by decide))
  have hr : Keeps 0x908142400 u r.1 := by
    simp only [r]
    split
    · exact keeps_streamMatrix hy (by decide)
    · exact hy
  have hw : Keeps 0x908142400 u w := Keeps.ite (keeps_awaitCheck hr (by decide)) hr
  clear_value r w
  exact keeps_trace (keeps_signalDone (keeps_countAcc hw (by decide)) (by decide)) (by decide)

theorem keeps_execMatrixOperation (a0 a1 u) : KeepsO 0x908142400 u (execMatrixOperation a0 a1 u) := by
  unfold execMatrixOperation
  repeat' first
  | with_reducible assumption
  | with_reducible exact Keeps.refl _ _
  | with_reducible refine KeepsO.next ?_
  | with_reducible exact KeepsO.fault _
  | (extract_lets +onlyGivenNames x; refine Keeps.cut x ?_ (fun hx => ?_); rotate_left; rename State => z; rotate_right; unfold x; clear x)
  | (extract_lets +onlyGivenNames x; refine KeepsO.cut x ?_ (fun hx => ?_); rotate_left; rename State => z; rotate_right; unfold x; clear x)
  | (extract_lets +onlyGivenNames x; revert x; intro y)
  | (with_reducible refine keeps_matrixOp ?_ ?_ ..; rotate_left; (first | rfl | decide))
  | with_reducible refine Keeps.foldl ?_ (fun v e => ?_)
  | with_reducible refine Keeps.ite ?_ ?_
  | with_reducible refine KeepsO.ite ?_ ?_
  | split
  | exact Keeps.upd (by with_reducible assumption)
  | exact Keeps.upd (Keeps.refl _ _)
  | (clear_value *; split)

end Sys2Proof.Machine
end

