-- ==== Sys2Proof/Laws/KeepsPhases.lean ====
section
/-!
SUPPORT. Laws/KeepsPhases.lean: what each operation of Machine/Phases.lean leaves as it was (Laws/Keeps.lean).
-/
namespace Sys2Proof.Machine
set_option Elab.async false
set_option linter.unusedTactic false
set_option linter.unreachableTactic false

theorem keeps_putWords {L : Nat} {s u : State} (h : Keeps L s u) (hm : 0x100000 &&& L = 0x100000) {a1 a2 a3} : Keeps L s (State.putWords u a1 a2 a3) := by
  refine h.step (m := 0x100000) ?_ hm
  unfold State.putWords
  repeat' first
  | with_reducible assumption
  | with_reducible exact Keeps.refl _ _
  | (extract_lets +onlyGivenNames x; refine Keeps.cut x ?_ (fun hx => ?_); rotate_left; rename State => z; rotate_right; unfold x; clear x)
  | (extract_lets +onlyGivenNames x; revert x; intro y)
  | (with_reducible refine Keeps.setWords ?_ ?_; rotate_left; (first | rfl | decide))
  | with_reducible refine Keeps.foldl ?_ (fun v e => ?_)
  | with_reducible refine Keeps.ite ?_ ?_
  | split
  | exact Keeps.upd (by with_reducible assumption)
  | exact Keeps.upd (Keeps.refl _ _)
  | (clear_value *; split)

theorem keeps_attnBackward {L : Nat} {s u : State} (h : Keeps L s u) (hm : 0x100000 &&& L = 0x100000) {a1 a2 a3} : Keeps L s (State.attnBackward u a1 a2 a3) := by
  refine h.step (m := 0x100000) ?_ hm
  unfold State.attnBackward
  repeat' first
  | with_reducible assumption
  | with_reducible exact Keeps.refl _ _
  | (extract_lets +onlyGivenNames x; refine Keeps.cut x ?_ (fun hx => ?_); rotate_left; rename State => z; rotate_right; unfold x; clear x)
  | (extract_lets +onlyGivenNames x; revert x; intro y)
  | (with_reducible refine keeps_putWords ?_ ?_ ..; rotate_left; (first | rfl | decide))
  | with_reducible refine Keeps.foldl ?_ (fun v e => ?_)
  | with_reducible refine Keeps.ite ?_ ?_
  | split
  | exact Keeps.upd (by with_reducible assumption)
  | exact Keeps.upd (Keeps.refl _ _)
  | (clear_value *; split)

theorem keeps_noteClimbs {L : Nat} {s u : State} (h : Keeps L s u) (hm : 0xC23042084 &&& L = 0xC23042084) {a1 a2 a3} : Keeps L s (State.noteClimbs u a1 a2 a3) := by
  refine h.step (m := 0xC23042084) ?_ hm
  unfold State.noteClimbs
  repeat' first
  | with_reducible assumption
  | with_reducible exact Keeps.refl _ _
  | (extract_lets +onlyGivenNames x; refine Keeps.cut x ?_ (fun hx => ?_); rotate_left; rename State => z; rotate_right; unfold x; clear x)
  | (extract_lets +onlyGivenNames x; revert x; intro y)
  | (with_reducible refine keeps_escalate ?_ ?_ ..; rotate_left; (first | rfl | decide))
  | with_reducible refine Keeps.foldl ?_ (fun v e => ?_)
  | with_reducible refine Keeps.ite ?_ ?_
  | split
  | exact Keeps.upd (by with_reducible assumption)
  | exact Keeps.upd (Keeps.refl _ _)
  | (clear_value *; split)

theorem keeps_putHalves {L : Nat} {s u : State} (h : Keeps L s u) (hm : 0x100000 &&& L = 0x100000) {a1 a2 a3} : Keeps L s (State.putHalves u a1 a2 a3) := by
  refine h.step (m := 0x100000) ?_ hm
  unfold State.putHalves
  repeat' first
  | with_reducible assumption
  | with_reducible exact Keeps.refl _ _
  | (extract_lets +onlyGivenNames x; refine Keeps.cut x ?_ (fun hx => ?_); rotate_left; rename State => z; rotate_right; unfold x; clear x)
  | (extract_lets +onlyGivenNames x; revert x; intro y)
  | (with_reducible refine Keeps.setBytes ?_ ?_; rotate_left; (first | rfl | decide))
  | with_reducible refine Keeps.foldl ?_ (fun v e => ?_)
  | with_reducible refine Keeps.ite ?_ ?_
  | split
  | exact Keeps.upd (by with_reducible assumption)
  | exact Keeps.upd (Keeps.refl _ _)
  | (clear_value *; split)

theorem keeps_attnForward {L : Nat} {s u : State} (h : Keeps L s u) (hm : 0xC23142084 &&& L = 0xC23142084) {a1 a2 a3} : Keeps L s (State.attnForward u a1 a2 a3) := by
  refine h.step (m := 0xC23142084) ?_ hm
  unfold State.attnForward
  repeat' first
  | with_reducible assumption
  | with_reducible exact Keeps.refl _ _
  | (extract_lets +onlyGivenNames x; refine Keeps.cut x ?_ (fun hx => ?_); rotate_left; rename State => z; rotate_right; unfold x; clear x)
  | (extract_lets +onlyGivenNames x; revert x; intro y)
  | (with_reducible refine keeps_noteClimbs ?_ ?_ ..; rotate_left; (first | rfl | decide))
  | (with_reducible refine keeps_putWords ?_ ?_ ..; rotate_left; (first | rfl | decide))
  | (with_reducible refine keeps_putHalves ?_ ?_ ..; rotate_left; (first | rfl | decide))
  | with_reducible refine Keeps.foldl ?_ (fun v e => ?_)
  | with_reducible refine Keeps.ite ?_ ?_
  | split
  | exact Keeps.upd (by with_reducible assumption)
  | exact Keeps.upd (Keeps.refl _ _)
  | (clear_value *; split)

theorem keeps_gradSum {L : Nat} {s u : State} (h : Keeps L s u) (hm : 0x2100000 &&& L = 0x2100000) {a1 a2 a3 a4 a5 a6 a7 a8} : Keeps L s (State.gradSum u a1 a2 a3 a4 a5 a6 a7 a8) := by
  refine h.step (m := 0x2100000) ?_ hm
  unfold State.gradSum
  repeat' first
  | with_reducible assumption
  | with_reducible exact Keeps.refl _ _
  | (extract_lets +onlyGivenNames x; refine Keeps.cut x ?_ (fun hx => ?_); rotate_left; rename State => z; rotate_right; unfold x; clear x)
  | (extract_lets +onlyGivenNames x; revert x; intro y)
  | (with_reducible refine keeps_updCtx ?_ ?_ ..; rotate_left; (first | rfl | decide))
  | (with_reducible refine Keeps.setWords ?_ ?_; rotate_left; (first | rfl | decide))
  | with_reducible refine Keeps.foldl ?_ (fun v e => ?_)
  | with_reducible refine Keeps.ite ?_ ?_
  | split
  | exact Keeps.upd (by with_reducible assumption)
  | exact Keeps.upd (Keeps.refl _ _)
  | (clear_value *; split)

theorem keeps_saveAct {L : Nat} {s u : State} (h : Keeps L s u) (hm : 0x100000 &&& L = 0x100000) {a1 a2 a3 a4} : Keeps L s (State.saveAct u a1 a2 a3 a4) := by
  refine h.step (m := 0x100000) ?_ hm
  unfold State.saveAct
  repeat' first
  | with_reducible assumption
  | with_reducible exact Keeps.refl _ _
  | (extract_lets +onlyGivenNames x; refine Keeps.cut x ?_ (fun hx => ?_); rotate_left; rename State => z; rotate_right; unfold x; clear x)
  | (extract_lets +onlyGivenNames x; revert x; intro y)
  | (with_reducible refine keeps_putHalves ?_ ?_ ..; rotate_left; (first | rfl | decide))
  | with_reducible refine Keeps.foldl ?_ (fun v e => ?_)
  | with_reducible refine Keeps.ite ?_ ?_
  | split
  | exact Keeps.upd (by with_reducible assumption)
  | exact Keeps.upd (Keeps.refl _ _)
  | (clear_value *; split)

theorem keeps_spillOut {L : Nat} {s u : State} (h : Keeps L s u) (hm : 0x400000100 &&& L = 0x400000100) {a1 a2 a3 a4 a5} : Keeps L s (State.spillOut u a1 a2 a3 a4 a5) := by
  refine h.step (m := 0x400000100) ?_ hm
  unfold State.spillOut
  repeat' first
  | with_reducible assumption
  | with_reducible exact Keeps.refl _ _
  | (extract_lets +onlyGivenNames x; refine Keeps.cut x ?_ (fun hx => ?_); rotate_left; rename State => z; rotate_right; unfold x; clear x)
  | (extract_lets +onlyGivenNames x; revert x; intro y)
  | (with_reducible refine keeps_record ?_ ?_ ..; rotate_left; (first | rfl | decide))
  | with_reducible refine Keeps.foldl ?_ (fun v e => ?_)
  | with_reducible refine Keeps.ite ?_ ?_
  | split
  | exact Keeps.upd (by with_reducible assumption)
  | exact Keeps.upd (Keeps.refl _ _)
  | (clear_value *; split)

theorem keeps_layerWork {L : Nat} {s u : State} (h : Keeps L s u) (hm : 0xC23142184 &&& L = 0xC23142184) {a1 a2 a3 a4 a5 a6} : Keeps L s (State.layerWork u a1 a2 a3 a4 a5 a6) := by
  refine h.step (m := 0xC23142184) ?_ hm
  unfold State.layerWork
  repeat' first
  | with_reducible assumption
  | with_reducible exact Keeps.refl _ _
  | (extract_lets +onlyGivenNames x; refine Keeps.cut x ?_ (fun hx => ?_); rotate_left; rename State => z; rotate_right; unfold x; clear x)
  | (extract_lets +onlyGivenNames x; revert x; intro y)
  | (with_reducible refine keeps_saveAct ?_ ?_ ..; rotate_left; (first | rfl | decide))
  | (with_reducible refine keeps_putWords ?_ ?_ ..; rotate_left; (first | rfl | decide))
  | (with_reducible refine keeps_putHalves ?_ ?_ ..; rotate_left; (first | rfl | decide))
  | (with_reducible refine keeps_noteClimbs ?_ ?_ ..; rotate_left; (first | rfl | decide))
  | (with_reducible refine keeps_spillOut ?_ ?_ ..; rotate_left; (first | rfl | decide))
  | (with_reducible refine keeps_attnForward ?_ ?_ ..; rotate_left; (first | rfl | decide))
  | (with_reducible refine keeps_attnBackward ?_ ?_ ..; rotate_left; (first | rfl | decide))
  | with_reducible refine Keeps.foldl ?_ (fun v e => ?_)
  | with_reducible refine Keeps.ite ?_ ?_
  | split
  | exact Keeps.upd (by with_reducible assumption)
  | exact Keeps.upd (Keeps.refl _ _)
  | (clear_value *; split)

theorem keeps_runWork {L : Nat} {s u : State} (h : Keeps L s u) (hm : 0xC23142184 &&& L = 0xC23142184) {a1 a2 a3} : Keeps L s (State.runWork u a1 a2 a3) := by
  refine h.step (m := 0xC23142184) ?_ hm
  unfold State.runWork
  repeat' first
  | with_reducible assumption
  | with_reducible exact Keeps.refl _ _
  | (extract_lets +onlyGivenNames x; refine Keeps.cut x ?_ (fun hx => ?_); rotate_left; rename State => z; rotate_right; unfold x; clear x)
  | (extract_lets +onlyGivenNames x; revert x; intro y)
  | (with_reducible refine keeps_putWords ?_ ?_ ..; rotate_left; (first | rfl | decide))
  | (with_reducible refine keeps_gradSum ?_ ?_ ..; rotate_left; (first | rfl | decide))
  | (with_reducible refine keeps_layerWork ?_ ?_ ..; rotate_left; (first | rfl | decide))
  | with_reducible refine Keeps.foldl ?_ (fun v e => ?_)
  | with_reducible refine Keeps.ite ?_ ?_
  | split
  | exact Keeps.upd (by with_reducible assumption)
  | exact Keeps.upd (Keeps.refl _ _)
  | (clear_value *; split)

theorem keeps_runWorks {L : Nat} {s u : State} (h : Keeps L s u) (hm : 0xC23142184 &&& L = 0xC23142184)  : Keeps L s (State.runWorks u) := by
  refine h.step (m := 0xC23142184) ?_ hm
  unfold State.runWorks
  repeat' first
  | with_reducible assumption
  | with_reducible exact Keeps.refl _ _
  | (extract_lets +onlyGivenNames x; refine Keeps.cut x ?_ (fun hx => ?_); rotate_left; rename State => z; rotate_right; unfold x; clear x)
  | (extract_lets +onlyGivenNames x; revert x; intro y)
  | (with_reducible refine keeps_runWork ?_ ?_ ..; rotate_left; (first | rfl | decide))
  | with_reducible refine Keeps.foldl ?_ (fun v e => ?_)
  | with_reducible refine Keeps.ite ?_ ?_
  | split
  | exact Keeps.upd (by with_reducible assumption)
  | exact Keeps.upd (Keeps.refl _ _)
  | (clear_value *; split)

theorem keeps_fillQp {L : Nat} {s u : State} (h : Keeps L s u) (hm : 0x100000 &&& L = 0x100000) {a1 a2} : Keeps L s (State.fillQp u a1 a2) := by
  refine h.step (m := 0x100000) ?_ hm
  unfold State.fillQp
  repeat' first
  | with_reducible assumption
  | with_reducible exact Keeps.refl _ _
  | (extract_lets +onlyGivenNames x; refine Keeps.cut x ?_ (fun hx => ?_); rotate_left; rename State => z; rotate_right; unfold x; clear x)
  | (extract_lets +onlyGivenNames x; revert x; intro y)
  | (with_reducible refine Keeps.setWords ?_ ?_; rotate_left; (first | rfl | decide))
  | with_reducible refine Keeps.foldl ?_ (fun v e => ?_)
  | with_reducible refine Keeps.ite ?_ ?_
  | split
  | exact Keeps.upd (by with_reducible assumption)
  | exact Keeps.upd (Keeps.refl _ _)
  | (clear_value *; split)

end Sys2Proof.Machine
end

