-- ==== Sys2Proof/Laws/KeepsRoutes.lean ====
section
/-!
SUPPORT. Laws/KeepsRoutes.lean: what each operation of Machine/Routes.lean leaves as it was (Laws/Keeps.lean).
-/
namespace Sys2Proof.Machine
set_option Elab.async false
set_option linter.unusedTactic false
set_option linter.unreachableTactic false

theorem keeps_formRoutes {L : Nat} {s u : State} (h : Keeps L s u) (hm : 0x200008000 &&& L = 0x200008000) {a1} : Keeps L s (State.formRoutes u a1) := by
  refine h.step (m := 0x200008000) ?_ hm
  unfold State.formRoutes
  repeat' first
  | with_reducible assumption
  | with_reducible exact Keeps.refl _ _
  | (extract_lets +onlyGivenNames x; refine Keeps.cut x ?_ (fun hx => ?_); rotate_left; rename State => z; rotate_right; unfold x; clear x)
  | (extract_lets +onlyGivenNames x; revert x; intro y)
  | (with_reducible refine Keeps.putWord ?_ ?_ ?_; rotate_left; (first | rfl | decide); (first | rfl | decide))
  | with_reducible refine Keeps.foldl ?_ (fun v e => ?_)
  | with_reducible refine Keeps.ite ?_ ?_
  | split
  | exact Keeps.upd (by with_reducible assumption)
  | exact Keeps.upd (Keeps.refl _ _)
  | (clear_value *; split)

end Sys2Proof.Machine
end

