-- ==== Sys2Proof/Laws/KeepsResets.lean ====
section
/-!
SUPPORT. Laws/KeepsResets.lean: what each operation of Machine/Resets.lean leaves as it was (Laws/Keeps.lean).
-/
namespace Sys2Proof.Machine
set_option Elab.async false
set_option linter.unusedTactic false
set_option linter.unreachableTactic false

theorem keeps_clearEngine {L : Nat} {s u : State} (h : Keeps L s u) (hm : 0x8000400 &&& L = 0x8000400) {a1 a2} : Keeps L s (State.clearEngine u a1 a2) := by
  refine h.step (m := 0x8000400) ?_ hm
  unfold State.clearEngine
  repeat' first
  | with_reducible assumption
  | with_reducible exact Keeps.refl _ _
  | (extract_lets +onlyGivenNames x; refine Keeps.cut x ?_ (fun hx => ?_); rotate_left; rename State => z; rotate_right; unfold x; clear x)
  | (extract_lets +onlyGivenNames x; revert x; intro y)
  | (with_reducible refine keeps_showWaits ?_ ?_ ..; rotate_left; (first | rfl | decide))
  | (with_reducible refine keeps_updCore ?_ ?_ ..; rotate_left; (first | rfl | decide))
  | with_reducible refine Keeps.foldl ?_ (fun v e => ?_)
  | with_reducible refine Keeps.ite ?_ ?_
  | split
  | exact Keeps.upd (by with_reducible assumption)
  | exact Keeps.upd (Keeps.refl _ _)
  | (clear_value *; split)

theorem keeps_clearCore {L : Nat} {s u : State} (h : Keeps L s u) (hm : 0x8100400 &&& L = 0x8100400) {a0 a2} : Keeps L s (State.clearCore a0 u a2) := by
  refine h.step (m := 0x8100400) ?_ hm
  unfold State.clearCore
  repeat' first
  | with_reducible assumption
  | with_reducible exact Keeps.refl _ _
  | (extract_lets +onlyGivenNames x; refine Keeps.cut x ?_ (fun hx => ?_); rotate_left; rename State => z; rotate_right; unfold x; clear x)
  | (extract_lets +onlyGivenNames x; revert x; intro y)
  | (with_reducible refine keeps_showWaits ?_ ?_ ..; rotate_left; (first | rfl | decide))
  | (with_reducible refine Keeps.setCore ?_ ?_; rotate_left; (first | rfl | decide))
  | (with_reducible refine Keeps.zeroBytes ?_ ?_; rotate_left; (first | rfl | decide))
  | with_reducible refine Keeps.foldl ?_ (fun v e => ?_)
  | with_reducible refine Keeps.ite ?_ ?_
  | split
  | exact Keeps.upd (by with_reducible assumption)
  | exact Keeps.upd (Keeps.refl _ _)
  | (clear_value *; split)

theorem lt_battEnd {d b : Nat} (h1 : d < 4) (h3 : b < F.BATT_GAIN_KAPPA.addr (384 * d + 384)) : b < 0x300000 := by
  have h : F.BATT_GAIN_KAPPA.addr (384 * d + 384) = 0x200000 + 0x40 * (384 * d + 384) := rfl
  omega

theorem blockOf_batt {a : Nat} (h1 : 0x200000 ≤ a) (h2 : a < 0x300000) : blockOf a = .regsBatt := by
  have h1 := blockNo_mono h1
  have h2 := blockNo_mono (show a ≤ 0x2FFFFF by omega)
  rw [show blockNo 0x200000 = 14 by decide] at h1
  rw [show blockNo 0x2FFFFF = 14 by decide] at h2
  unfold blockOf
  rw [show blockNo a = 14 by omega]
  rfl

theorem keeps_clearBattRegs {L : Nat} {s u : State} (h : Keeps L s u) (hm : 0x4001000 &&& L = 0x4001000) {d} : Keeps L s (u.clearBattRegs d) := by
  refine h.step (m := 0x4001000) ?_ hm
  unfold State.clearBattRegs
  extract_lets a z x
  have hx : Keeps 0x4001000 u x := by
    refine ⟨fun p hp => ?_, fun hc => ⟨hc.1, tblFrom_filter _ hc.2.1, hc.2.2⟩, List.prefix_rfl, Nat.le_refl _⟩
    have hr : ∀ b, blockOf b ≠ .regsBatt → x.reg b = u.reg b := fun b hb => by
      simp only [x, State.reg]
      rw [tget_filter]
      intro v
      simp only [Bool.not_eq_true', Bool.and_eq_false_iff, decide_eq_false_iff_not]
      by_cases h1 : d < 4
      · refine .inl ?_
        by_cases h2 : a ≤ b
        · refine .inr fun h3 => hb (blockOf_batt ?_ ?_)
          · simp only [a, Fld.addr, F.BATT_GAIN_KAPPA] at h2
            omega
          · exact lt_battEnd h1 h3
        · exact .inl (.inr h2)
      · exact .inl (.inl (.inl h1))
    cases p <;> first | rfl | (intro _; rfl) | exact fun a ha => hr a (by rw [ha]; decide) | exact absurd hp (by decide)
  clear_value x
  exact Keeps.foldl hx (fun v e => Keeps.ite (keeps_updBatt (Keeps.refl _ _) (by decide)) (Keeps.refl _ _))

theorem keeps_clearDie {L : Nat} {s u : State} (h : Keeps L s u) (hm : 0xC101400 &&& L = 0xC101400) {a0 a2} : Keeps L s (State.clearDie a0 u a2) := by
  refine h.step (m := 0xC101400) ?_ hm
  unfold State.clearDie
  repeat' first
  | with_reducible assumption
  | with_reducible exact Keeps.refl _ _
  | (extract_lets +onlyGivenNames x; refine Keeps.cut x ?_ (fun hx => ?_); rotate_left; rename State => z; rotate_right; unfold x; clear x)
  | (extract_lets +onlyGivenNames x; revert x; intro y)
  | (with_reducible refine keeps_clearBattRegs ?_ ?_ ..; rotate_left; (first | rfl | decide))
  | (with_reducible refine keeps_clearCore ?_ ?_ ..; rotate_left; (first | rfl | decide))
  | with_reducible refine Keeps.foldl ?_ (fun v e => ?_)
  | with_reducible refine Keeps.ite ?_ ?_
  | split
  | exact Keeps.upd (by with_reducible assumption)
  | exact Keeps.upd (Keeps.refl _ _)
  | (clear_value *; split)

theorem blockOf_planWord {a : Nat} (h : State.planWord a = true) : blockOf a = .regsCtx := by
  unfold State.planWord at h
  simp only [Bool.and_eq_true, decide_eq_true_eq] at h
  have h1 := blockNo_mono h.1.1
  have h2 := blockNo_mono (show a ≤ 0x33FFFF by omega)
  rw [show blockNo 0x300000 = 15 by decide] at h1
  rw [show blockNo 0x33FFFF = 15 by decide] at h2
  unfold blockOf
  rw [show blockNo a = 15 by omega]
  rfl

theorem keeps_planRegs {L : Nat} {s u : State} (h : Keeps L s u) (hm : 0x42000 &&& L = 0x42000) : Keeps L s
    { u with
      regs := (u.vis.filter (fun e => State.planWord e.1)).foldl (fun t e => tput t e.1 e.2) (u.regs.filter (fun e => !State.planWord e.1)),
      raised := u.raised.filter (fun e => !State.planWord e.1) } := by
  refine h.step (m := 0x42000) ?_ hm
  refine ⟨fun p hp => ?_, fun hc => ⟨hc.1, ?_, hc.2.2⟩, List.prefix_rfl, Nat.le_refl _⟩
  · have hr : ∀ a, blockOf a ≠ .regsCtx → tget (resetWord a) ((u.vis.filter (fun e => State.planWord e.1)).foldl (fun t e => tput t e.1 e.2)
        (u.regs.filter (fun e => !State.planWord e.1))) a = u.reg a := fun a ha => by
      have hw : State.planWord a = false := by
        cases hq : State.planWord a with
        | false => rfl
        | true => exact absurd (blockOf_planWord hq) ha
      unfold State.reg
      rw [tget_foldl_tput, tget_filter _ _ (fun v => by simp [hw])]
      intro e he hk
      rw [List.mem_filter, hk, hw] at he
      exact Bool.false_ne_true he.2
    cases p <;> first | rfl | (intro _; rfl) | exact fun a ha => hr a (by rw [ha]; decide) | exact absurd hp (by decide)
  · exact foldl_tput_wf (fun e he => tblFrom_ne hc.2.2.1 e (List.mem_filter.mp he).1) (tblFrom_filter _ hc.2.1)

theorem keeps_dropFrame {L : Nat} {s u : State} (h : Keeps L s u) (hm : 0xE842000 &&& L = 0xE842000) : Keeps L s u.dropFrame := by
  refine h.step (m := 0xE842000) ?_ hm
  exact Keeps.upd (keeps_planRegs (Keeps.refl _ _) (by decide))

theorem keeps_losePlans {L : Nat} {s u : State} (h : Keeps L s u) (hm : 0xE842000 &&& L = 0xE842000)  : Keeps L s (State.losePlans u) := by
  refine h.step (m := 0xE842000) ?_ hm
  unfold State.losePlans
  repeat' first
  | with_reducible assumption
  | with_reducible exact Keeps.refl _ _
  | (extract_lets +onlyGivenNames x; refine Keeps.cut x ?_ (fun hx => ?_); rotate_left; rename State => z; rotate_right; unfold x; clear x)
  | (extract_lets +onlyGivenNames x; revert x; intro y)
  | (with_reducible refine keeps_dropFrame ?_ ?_ ..; rotate_left; (first | rfl | decide))
  | with_reducible refine Keeps.foldl ?_ (fun v e => ?_)
  | with_reducible refine Keeps.ite ?_ ?_
  | split
  | exact Keeps.upd (by with_reducible assumption)
  | exact Keeps.upd (Keeps.refl _ _)
  | (clear_value *; split)

theorem keeps_clearDevice {L : Nat} {s u : State} (h : Keeps L s u) (hm : 0x4E943401 &&& L = 0x4E943401) : Keeps L s u.clearDevice := by
  refine h.step (m := 0x4E943401) ?_ hm
  unfold State.clearDevice
  extract_lets x
  have hx : Keeps 0x4E943401 u x :=
    keeps_losePlans (Keeps.foldl (Keeps.refl _ _) (fun v e => keeps_clearDie (Keeps.refl _ _) (by decide))) (by decide)
  clear_value x
  exact (Keeps.upd hx).put rfl rfl

theorem keeps_rates {L : Nat} {s u : State} (h : Keeps L s u) (hm : 0x20000004 &&& L = 0x20000004) {a1} : Keeps L s (State.rates u a1) := by
  refine h.step (m := 0x20000004) ?_ hm
  unfold State.rates
  repeat' first
  | with_reducible assumption
  | with_reducible exact Keeps.refl _ _
  | (extract_lets +onlyGivenNames x; refine Keeps.cut x ?_ (fun hx => ?_); rotate_left; rename State => z; rotate_right; unfold x; clear x)
  | (extract_lets +onlyGivenNames x; revert x; intro y)
  | (with_reducible refine Keeps.put ?_ ?_ ?_; rotate_left; (first | rfl | decide); (first | rfl | decide))
  | with_reducible refine Keeps.foldl ?_ (fun v e => ?_)
  | with_reducible refine Keeps.ite ?_ ?_
  | split
  | exact Keeps.upd (by with_reducible assumption)
  | exact Keeps.upd (Keeps.refl _ _)
  | (clear_value *; split)

theorem keeps_oosNext {L : Nat} {s u : State} (h : Keeps L s u) (hm : 0x20000000 &&& L = 0x20000000) {a1} : Keeps L s (State.oosNext u a1) := by
  refine h.step (m := 0x20000000) ?_ hm
  unfold State.oosNext
  repeat' first
  | with_reducible assumption
  | with_reducible exact Keeps.refl _ _
  | (extract_lets +onlyGivenNames x; refine Keeps.cut x ?_ (fun hx => ?_); rotate_left; rename State => z; rotate_right; unfold x; clear x)
  | (extract_lets +onlyGivenNames x; revert x; intro y)
  | with_reducible refine Keeps.foldl ?_ (fun v e => ?_)
  | with_reducible refine Keeps.ite ?_ ?_
  | split
  | exact Keeps.upd (by with_reducible assumption)
  | exact Keeps.upd (Keeps.refl _ _)
  | (clear_value *; split)

theorem keeps_beginDevice {L : Nat} {s u : State} (h : Keeps L s u) (hm : 0x4EF943495 &&& L = 0x4EF943495) {t o} : Keeps L s (u.beginDevice t o) := by
  refine h.step (m := 0x4EF943495) ?_ hm
  unfold State.beginDevice
  extract_lets z fl d1 d2
  have hz : Keeps 0x4EF943495 u z := keeps_calAbort ((keeps_clearDevice (Keeps.refl _ _) (by decide)).bump rfl rfl) (by decide)
  clear_value z
  have h1 : Keeps 0x4EF943495 u d1 := by
    simp only [d1]
    exact Keeps.upd hz
  have h2 : Keeps 0x4EF943495 u d2 := keeps_rates h1 (by decide)
  clear_value d2
  exact Keeps.ite hz (Keeps.ite (keeps_oosNext h2 (by decide)) h2)

theorem keeps_showResets {L : Nat} {s u : State} (h : Keeps L s u) (hm : 0x4 &&& L = 0x4)  : Keeps L s (State.showResets u) := by
  refine h.step (m := 0x4) ?_ hm
  unfold State.showResets
  repeat' first
  | with_reducible assumption
  | with_reducible exact Keeps.refl _ _
  | (extract_lets +onlyGivenNames x; refine Keeps.cut x ?_ (fun hx => ?_); rotate_left; rename State => z; rotate_right; unfold x; clear x)
  | (extract_lets +onlyGivenNames x; revert x; intro y)
  | (with_reducible refine Keeps.put ?_ ?_ ?_; rotate_left; (first | rfl | decide); (first | rfl | decide))
  | with_reducible refine Keeps.foldl ?_ (fun v e => ?_)
  | with_reducible refine Keeps.ite ?_ ?_
  | split
  | exact Keeps.upd (by with_reducible assumption)
  | exact Keeps.upd (Keeps.refl _ _)
  | (clear_value *; split)

theorem keeps_beginReset {L : Nat} {s u : State} (h : Keeps L s u) (hm : 0x4EF943495 &&& L = 0x4EF943495) {a1 a2 a3 a4 a5} : Keeps L s (State.beginReset u a1 a2 a3 a4 a5) := by
  refine h.step (m := 0x4EF943495) ?_ hm
  unfold State.beginReset
  repeat' first
  | with_reducible assumption
  | with_reducible exact Keeps.refl _ _
  | (extract_lets +onlyGivenNames x; refine Keeps.cut x ?_ (fun hx => ?_); rotate_left; rename State => z; rotate_right; unfold x; clear x)
  | (extract_lets +onlyGivenNames x; revert x; intro y)
  | (with_reducible refine keeps_failTest ?_ ?_ ..; rotate_left; (first | rfl | decide))
  | (with_reducible refine keeps_clearEngine ?_ ?_ ..; rotate_left; (first | rfl | decide))
  | (with_reducible refine Keeps.bump ?_ ?_ ?_; rotate_left; (first | rfl | decide); (first | rfl | decide))
  | (with_reducible refine keeps_clearCore ?_ ?_ ..; rotate_left; (first | rfl | decide))
  | (with_reducible refine keeps_calAbort ?_ ?_ ..; rotate_left; (first | rfl | decide))
  | (with_reducible refine keeps_clearDie ?_ ?_ ..; rotate_left; (first | rfl | decide))
  | (with_reducible refine keeps_beginDevice ?_ ?_ ..; rotate_left; (first | rfl | decide))
  | (with_reducible refine keeps_showResets ?_ ?_ ..; rotate_left; (first | rfl | decide))
  | with_reducible refine Keeps.foldl ?_ (fun v e => ?_)
  | with_reducible refine Keeps.ite ?_ ?_
  | split
  | exact Keeps.upd (by with_reducible assumption)
  | exact Keeps.upd (Keeps.refl _ _)
  | (clear_value *; split)

theorem keeps_ownerResetTick {L : Nat} {s u : State} (h : Keeps L s u) (hm : 0x4EF943495 &&& L = 0x4EF943495)  : Keeps L s (State.ownerResetTick u) := by
  refine h.step (m := 0x4EF943495) ?_ hm
  unfold State.ownerResetTick
  repeat' first
  | with_reducible assumption
  | with_reducible exact Keeps.refl _ _
  | (extract_lets +onlyGivenNames x; refine Keeps.cut x ?_ (fun hx => ?_); rotate_left; rename State => z; rotate_right; unfold x; clear x)
  | (extract_lets +onlyGivenNames x; revert x; intro y)
  | (with_reducible refine keeps_beginReset ?_ ?_ ..; rotate_left; (first | rfl | decide))
  | with_reducible refine Keeps.foldl ?_ (fun v e => ?_)
  | with_reducible refine Keeps.ite ?_ ?_
  | split
  | exact Keeps.upd (by with_reducible assumption)
  | exact Keeps.upd (Keeps.refl _ _)
  | (clear_value *; split)

theorem keeps_askReset {L : Nat} {s u : State} (h : Keeps L s u) (hm : 0x20000000 &&& L = 0x20000000)  : Keeps L s (State.askReset u) := by
  refine h.step (m := 0x20000000) ?_ hm
  unfold State.askReset
  repeat' first
  | with_reducible assumption
  | with_reducible exact Keeps.refl _ _
  | (extract_lets +onlyGivenNames x; refine Keeps.cut x ?_ (fun hx => ?_); rotate_left; rename State => z; rotate_right; unfold x; clear x)
  | (extract_lets +onlyGivenNames x; revert x; intro y)
  | with_reducible refine Keeps.foldl ?_ (fun v e => ?_)
  | with_reducible refine Keeps.ite ?_ ?_
  | split
  | exact Keeps.upd (by with_reducible assumption)
  | exact Keeps.upd (Keeps.refl _ _)
  | (clear_value *; split)

theorem keeps_countKill {L : Nat} {s u : State} (h : Keeps L s u) (hm : 0xC21000084 &&& L = 0xC21000084) {a1 a2 a3 a4} : Keeps L s (State.countKill u a1 a2 a3 a4) := by
  refine h.step (m := 0xC21000084) ?_ hm
  unfold State.countKill
  repeat' first
  | with_reducible assumption
  | with_reducible exact Keeps.refl _ _
  | (extract_lets +onlyGivenNames x; refine Keeps.cut x ?_ (fun hx => ?_); rotate_left; rename State => z; rotate_right; unfold x; clear x)
  | (extract_lets +onlyGivenNames x; revert x; intro y)
  | (with_reducible refine Keeps.bump ?_ ?_ ?_; rotate_left; (first | rfl | decide); (first | rfl | decide))
  | (with_reducible refine keeps_event ?_ ?_ ..; rotate_left; (first | rfl | decide))
  | (with_reducible refine keeps_eventD0 ?_ ?_ ..; rotate_left; (first | rfl | decide))
  | (with_reducible refine keeps_rates ?_ ?_ ..; rotate_left; (first | rfl | decide))
  | (with_reducible refine keeps_oosNext ?_ ?_ ..; rotate_left; (first | rfl | decide))
  | with_reducible refine Keeps.foldl ?_ (fun v e => ?_)
  | with_reducible refine Keeps.ite ?_ ?_
  | split
  | exact Keeps.upd (by with_reducible assumption)
  | exact Keeps.upd (Keeps.refl _ _)
  | (clear_value *; split)

theorem keeps_dropReset {L : Nat} {s u : State} (h : Keeps L s u) (hm : 0x20000004 &&& L = 0x20000004) {a1} : Keeps L s (State.dropReset u a1) := by
  refine h.step (m := 0x20000004) ?_ hm
  unfold State.dropReset
  repeat' first
  | with_reducible assumption
  | with_reducible exact Keeps.refl _ _
  | (extract_lets +onlyGivenNames x; refine Keeps.cut x ?_ (fun hx => ?_); rotate_left; rename State => z; rotate_right; unfold x; clear x)
  | (extract_lets +onlyGivenNames x; revert x; intro y)
  | (with_reducible refine keeps_showResets ?_ ?_ ..; rotate_left; (first | rfl | decide))
  | with_reducible refine Keeps.foldl ?_ (fun v e => ?_)
  | with_reducible refine Keeps.ite ?_ ?_
  | split
  | exact Keeps.upd (by with_reducible assumption)
  | exact Keeps.upd (Keeps.refl _ _)
  | (clear_value *; split)

theorem keeps_kill {L : Nat} {s u : State} (h : Keeps L s u) (hm : 0xD29800484 &&& L = 0xD29800484) {a1 a2 a3 a4} : Keeps L s (State.kill u a1 a2 a3 a4) := by
  refine h.step (m := 0xD29800484) ?_ hm
  unfold State.kill
  repeat' first
  | with_reducible assumption
  | with_reducible exact Keeps.refl _ _
  | (extract_lets +onlyGivenNames x; refine Keeps.cut x ?_ (fun hx => ?_); rotate_left; rename State => z; rotate_right; unfold x; clear x)
  | (extract_lets +onlyGivenNames x; revert x; intro y)
  | (with_reducible refine keeps_restoreCore ?_ ?_ ..; rotate_left; (first | rfl | decide))
  | (with_reducible refine keeps_countKill ?_ ?_ ..; rotate_left; (first | rfl | decide))
  | (with_reducible refine keeps_schedTrace ?_ ?_ ..; rotate_left; (first | rfl | decide))
  | with_reducible refine Keeps.foldl ?_ (fun v e => ?_)
  | with_reducible refine Keeps.ite ?_ ?_
  | split
  | exact Keeps.upd (by with_reducible assumption)
  | exact Keeps.upd (Keeps.refl _ _)
  | (clear_value *; split)

theorem keeps_engineFault {L : Nat} {s u : State} (h : Keeps L s u) (hm : 0xDEF943495 &&& L = 0xDEF943495) {a1 a2 a3 a4} : Keeps L s (State.engineFault u a1 a2 a3 a4) := by
  refine h.step (m := 0xDEF943495) ?_ hm
  unfold State.engineFault
  repeat' first
  | with_reducible assumption
  | with_reducible exact Keeps.refl _ _
  | (extract_lets +onlyGivenNames x; refine Keeps.cut x ?_ (fun hx => ?_); rotate_left; rename State => z; rotate_right; unfold x; clear x)
  | (extract_lets +onlyGivenNames x; revert x; intro y)
  | (with_reducible refine keeps_beginReset ?_ ?_ ..; rotate_left; (first | rfl | decide))
  | (with_reducible refine keeps_kill ?_ ?_ ..; rotate_left; (first | rfl | decide))
  | with_reducible refine Keeps.foldl ?_ (fun v e => ?_)
  | with_reducible refine Keeps.ite ?_ ?_
  | split
  | exact Keeps.upd (by with_reducible assumption)
  | exact Keeps.upd (Keeps.refl _ _)
  | (clear_value *; split)

theorem keeps_enterOos {L : Nat} {s u : State} (h : Keeps L s u) (hm : 0xC2F842085 &&& L = 0xC2F842085) {a1} : Keeps L s (State.enterOos u a1) := by
  refine h.step (m := 0xC2F842085) ?_ hm
  unfold State.enterOos
  repeat' first
  | with_reducible assumption
  | with_reducible exact Keeps.refl _ _
  | (extract_lets +onlyGivenNames x; refine Keeps.cut x ?_ (fun hx => ?_); rotate_left; rename State => z; rotate_right; unfold x; clear x)
  | (extract_lets +onlyGivenNames x; revert x; intro y)
  | (with_reducible refine keeps_losePlans ?_ ?_ ..; rotate_left; (first | rfl | decide))
  | (with_reducible refine keeps_eventAtD0 ?_ ?_ ..; rotate_left; (first | rfl | decide))
  | (with_reducible refine Keeps.put ?_ ?_ ?_; rotate_left; (first | rfl | decide); (first | rfl | decide))
  | with_reducible refine Keeps.foldl ?_ (fun v e => ?_)
  | with_reducible refine Keeps.ite ?_ ?_
  | split
  | exact Keeps.upd (by with_reducible assumption)
  | exact Keeps.upd (Keeps.refl _ _)
  | (clear_value *; split)

theorem keeps_setRole {L : Nat} {s u : State} (h : Keeps L s u) (hm : 0x20000400 &&& L = 0x20000400) {a1 a2 a3} : Keeps L s (State.setRole u a1 a2 a3) := by
  refine h.step (m := 0x20000400) ?_ hm
  unfold State.setRole
  repeat' first
  | with_reducible assumption
  | with_reducible exact Keeps.refl _ _
  | (extract_lets +onlyGivenNames x; refine Keeps.cut x ?_ (fun hx => ?_); rotate_left; rename State => z; rotate_right; unfold x; clear x)
  | (extract_lets +onlyGivenNames x; revert x; intro y)
  | (with_reducible refine Keeps.put ?_ ?_ ?_; rotate_left; (first | rfl | decide); (first | rfl | decide))
  | with_reducible refine Keeps.foldl ?_ (fun v e => ?_)
  | with_reducible refine Keeps.ite ?_ ?_
  | split
  | exact Keeps.upd (by with_reducible assumption)
  | exact Keeps.upd (Keeps.refl _ _)
  | (clear_value *; split)

theorem keeps_migrate {L : Nat} {s u : State} (h : Keeps L s u) (hm : 0xC2F902484 &&& L = 0xC2F902484) {a1 a2} : Keeps L s (State.migrate u a1 a2) := by
  refine h.step (m := 0xC2F902484) ?_ hm
  unfold State.migrate
  repeat' first
  | with_reducible assumption
  | with_reducible exact Keeps.refl _ _
  | (extract_lets +onlyGivenNames x; refine Keeps.cut x ?_ (fun hx => ?_); rotate_left; rename State => z; rotate_right; unfold x; clear x)
  | (extract_lets +onlyGivenNames x; revert x; intro y)
  | (with_reducible refine keeps_setRole ?_ ?_ ..; rotate_left; (first | rfl | decide))
  | (with_reducible refine keeps_clearCore ?_ ?_ ..; rotate_left; (first | rfl | decide))
  | (with_reducible refine keeps_updBatt ?_ ?_ ..; rotate_left; (first | rfl | decide))
  | (with_reducible refine keeps_faultCtx ?_ ?_ ..; rotate_left; (first | rfl | decide))
  | (with_reducible refine keeps_eventAtD0 ?_ ?_ ..; rotate_left; (first | rfl | decide))
  | (with_reducible refine Keeps.put ?_ ?_ ?_; rotate_left; (first | rfl | decide); (first | rfl | decide))
  | (with_reducible refine keeps_oosNext ?_ ?_ ..; rotate_left; (first | rfl | decide))
  | (with_reducible refine keeps_moduleHold ?_ ?_ ..; rotate_left; (first | rfl | decide))
  | (with_reducible refine keeps_updCore ?_ ?_ ..; rotate_left; (first | rfl | decide))
  | (with_reducible refine keeps_updCtx ?_ ?_ ..; rotate_left; (first | rfl | decide))
  | (with_reducible refine keeps_eventAt ?_ ?_ ..; rotate_left; (first | rfl | decide))
  | with_reducible refine Keeps.foldl ?_ (fun v e => ?_)
  | with_reducible refine Keeps.ite ?_ ?_
  | split
  | exact Keeps.upd (by with_reducible assumption)
  | exact Keeps.upd (Keeps.refl _ _)
  | (clear_value *; split)

theorem keeps_execFltReset (a0 u) : KeepsO 0x421800080 u (execFltReset a0 u) := by
  unfold execFltReset
  repeat' first
  | with_reducible assumption
  | with_reducible exact Keeps.refl _ _
  | with_reducible refine KeepsO.next ?_
  | with_reducible exact KeepsO.fault _
  | (extract_lets +onlyGivenNames x; refine Keeps.cut x ?_ (fun hx => ?_); rotate_left; rename State => z; rotate_right; unfold x; clear x)
  | (extract_lets +onlyGivenNames x; refine KeepsO.cut x ?_ (fun hx => ?_); rotate_left; rename State => z; rotate_right; unfold x; clear x)
  | (extract_lets +onlyGivenNames x; revert x; intro y)
  | (with_reducible refine keeps_commandWriteIf ?_ ?_ (fun v => ?_); rotate_left; (first | rfl | decide); rotate_right)
  | (with_reducible refine keeps_askReset ?_ ?_ ..; rotate_left; (first | rfl | decide))
  | with_reducible refine Keeps.foldl ?_ (fun v e => ?_)
  | with_reducible refine Keeps.ite ?_ ?_
  | with_reducible refine KeepsO.ite ?_ ?_
  | split
  | exact Keeps.upd (by with_reducible assumption)
  | exact Keeps.upd (Keeps.refl _ _)
  | (clear_value *; split)

theorem keeps_execFltOos (a0 u) : KeepsO 0x421800080 u (execFltOos a0 u) := by
  unfold execFltOos
  repeat' first
  | with_reducible assumption
  | with_reducible exact Keeps.refl _ _
  | with_reducible refine KeepsO.next ?_
  | with_reducible exact KeepsO.fault _
  | (extract_lets +onlyGivenNames x; refine Keeps.cut x ?_ (fun hx => ?_); rotate_left; rename State => z; rotate_right; unfold x; clear x)
  | (extract_lets +onlyGivenNames x; refine KeepsO.cut x ?_ (fun hx => ?_); rotate_left; rename State => z; rotate_right; unfold x; clear x)
  | (extract_lets +onlyGivenNames x; revert x; intro y)
  | (with_reducible refine keeps_commandWrite ?_ ?_ (fun v => ?_); rotate_left; (first | rfl | decide); rotate_right)
  | (with_reducible refine keeps_oosNext ?_ ?_ ..; rotate_left; (first | rfl | decide))
  | with_reducible refine Keeps.foldl ?_ (fun v e => ?_)
  | with_reducible refine Keeps.ite ?_ ?_
  | with_reducible refine KeepsO.ite ?_ ?_
  | split
  | exact Keeps.upd (by with_reducible assumption)
  | exact Keeps.upd (Keeps.refl _ _)
  | (clear_value *; split)

theorem keeps_execUncorrectableEcc (a0 a1 a2 a3 u) : KeepsO 0xDEF943495 u (execUncorrectableEcc a0 a1 a2 a3 u) := by
  unfold execUncorrectableEcc
  repeat' first
  | with_reducible assumption
  | with_reducible exact Keeps.refl _ _
  | with_reducible refine KeepsO.next ?_
  | with_reducible exact KeepsO.fault _
  | (extract_lets +onlyGivenNames x; refine Keeps.cut x ?_ (fun hx => ?_); rotate_left; rename State => z; rotate_right; unfold x; clear x)
  | (extract_lets +onlyGivenNames x; refine KeepsO.cut x ?_ (fun hx => ?_); rotate_left; rename State => z; rotate_right; unfold x; clear x)
  | (extract_lets +onlyGivenNames x; revert x; intro y)
  | (with_reducible refine keeps_engineFault ?_ ?_ ..; rotate_left; (first | rfl | decide))
  | (with_reducible refine keeps_failTest ?_ ?_ ..; rotate_left; (first | rfl | decide))
  | with_reducible refine Keeps.foldl ?_ (fun v e => ?_)
  | with_reducible refine Keeps.ite ?_ ?_
  | with_reducible refine KeepsO.ite ?_ ?_
  | split
  | exact Keeps.upd (by with_reducible assumption)
  | exact Keeps.upd (Keeps.refl _ _)
  | (clear_value *; split)

theorem keeps_execEngineWatchdog (a0 a1 a2 u) : KeepsO 0xDEF943495 u (execEngineWatchdog a0 a1 a2 u) := by
  unfold execEngineWatchdog
  repeat' first
  | with_reducible assumption
  | with_reducible exact Keeps.refl _ _
  | with_reducible refine KeepsO.next ?_
  | with_reducible exact KeepsO.fault _
  | (extract_lets +onlyGivenNames x; refine Keeps.cut x ?_ (fun hx => ?_); rotate_left; rename State => z; rotate_right; unfold x; clear x)
  | (extract_lets +onlyGivenNames x; refine KeepsO.cut x ?_ (fun hx => ?_); rotate_left; rename State => z; rotate_right; unfold x; clear x)
  | (extract_lets +onlyGivenNames x; revert x; intro y)
  | (with_reducible refine keeps_engineFault ?_ ?_ ..; rotate_left; (first | rfl | decide))
  | with_reducible refine Keeps.foldl ?_ (fun v e => ?_)
  | with_reducible refine Keeps.ite ?_ ?_
  | with_reducible refine KeepsO.ite ?_ ?_
  | split
  | exact Keeps.upd (by with_reducible assumption)
  | exact Keeps.upd (Keeps.refl _ _)
  | (clear_value *; split)

theorem keeps_execDmaWatchdog (a0 a1 u) : KeepsO 0xDEF943495 u (execDmaWatchdog a0 a1 u) := by
  unfold execDmaWatchdog
  repeat' first
  | with_reducible assumption
  | with_reducible exact Keeps.refl _ _
  | with_reducible refine KeepsO.next ?_
  | with_reducible exact KeepsO.fault _
  | (extract_lets +onlyGivenNames x; refine Keeps.cut x ?_ (fun hx => ?_); rotate_left; rename State => z; rotate_right; unfold x; clear x)
  | (extract_lets +onlyGivenNames x; refine KeepsO.cut x ?_ (fun hx => ?_); rotate_left; rename State => z; rotate_right; unfold x; clear x)
  | (extract_lets +onlyGivenNames x; revert x; intro y)
  | (with_reducible refine keeps_engineFault ?_ ?_ ..; rotate_left; (first | rfl | decide))
  | with_reducible refine Keeps.foldl ?_ (fun v e => ?_)
  | with_reducible refine Keeps.ite ?_ ?_
  | with_reducible refine KeepsO.ite ?_ ?_
  | split
  | exact Keeps.upd (by with_reducible assumption)
  | exact Keeps.upd (Keeps.refl _ _)
  | (clear_value *; split)

theorem keeps_execBattWatchdog (a0 a1 a2 u) : KeepsO 0xDEF943495 u (execBattWatchdog a0 a1 a2 u) := by
  unfold execBattWatchdog
  repeat' first
  | with_reducible assumption
  | with_reducible exact Keeps.refl _ _
  | with_reducible refine KeepsO.next ?_
  | with_reducible exact KeepsO.fault _
  | (extract_lets +onlyGivenNames x; refine Keeps.cut x ?_ (fun hx => ?_); rotate_left; rename State => z; rotate_right; unfold x; clear x)
  | (extract_lets +onlyGivenNames x; refine KeepsO.cut x ?_ (fun hx => ?_); rotate_left; rename State => z; rotate_right; unfold x; clear x)
  | (extract_lets +onlyGivenNames x; revert x; intro y)
  | (with_reducible refine keeps_engineFault ?_ ?_ ..; rotate_left; (first | rfl | decide))
  | with_reducible refine Keeps.foldl ?_ (fun v e => ?_)
  | with_reducible refine Keeps.ite ?_ ?_
  | with_reducible refine KeepsO.ite ?_ ?_
  | split
  | exact Keeps.upd (by with_reducible assumption)
  | exact Keeps.upd (Keeps.refl _ _)
  | (clear_value *; split)

theorem keeps_execPlanWatchdog (a0 u) : KeepsO 0xDEF943495 u (execPlanWatchdog a0 u) := by
  unfold execPlanWatchdog
  repeat' first
  | with_reducible assumption
  | with_reducible exact Keeps.refl _ _
  | with_reducible refine KeepsO.next ?_
  | with_reducible exact KeepsO.fault _
  | (extract_lets +onlyGivenNames x; refine Keeps.cut x ?_ (fun hx => ?_); rotate_left; rename State => z; rotate_right; unfold x; clear x)
  | (extract_lets +onlyGivenNames x; refine KeepsO.cut x ?_ (fun hx => ?_); rotate_left; rename State => z; rotate_right; unfold x; clear x)
  | (extract_lets +onlyGivenNames x; revert x; intro y)
  | (with_reducible refine keeps_beginReset ?_ ?_ ..; rotate_left; (first | rfl | decide))
  | (with_reducible refine keeps_kill ?_ ?_ ..; rotate_left; (first | rfl | decide))
  | (with_reducible refine keeps_countKill ?_ ?_ ..; rotate_left; (first | rfl | decide))
  | with_reducible refine Keeps.foldl ?_ (fun v e => ?_)
  | with_reducible refine Keeps.ite ?_ ?_
  | with_reducible refine KeepsO.ite ?_ ?_
  | split
  | exact Keeps.upd (by with_reducible assumption)
  | exact Keeps.upd (Keeps.refl _ _)
  | (clear_value *; split)

theorem keeps_execControlCoreWatchdog (a0 a1 u) : KeepsO 0x4EF943495 u (execControlCoreWatchdog a0 a1 u) := by
  unfold execControlCoreWatchdog
  repeat' first
  | with_reducible assumption
  | with_reducible exact Keeps.refl _ _
  | with_reducible refine KeepsO.next ?_
  | with_reducible exact KeepsO.fault _
  | (extract_lets +onlyGivenNames x; refine Keeps.cut x ?_ (fun hx => ?_); rotate_left; rename State => z; rotate_right; unfold x; clear x)
  | (extract_lets +onlyGivenNames x; refine KeepsO.cut x ?_ (fun hx => ?_); rotate_left; rename State => z; rotate_right; unfold x; clear x)
  | (extract_lets +onlyGivenNames x; revert x; intro y)
  | (with_reducible refine keeps_beginReset ?_ ?_ ..; rotate_left; (first | rfl | decide))
  | with_reducible refine Keeps.foldl ?_ (fun v e => ?_)
  | with_reducible refine Keeps.ite ?_ ?_
  | with_reducible refine KeepsO.ite ?_ ?_
  | split
  | exact Keeps.upd (by with_reducible assumption)
  | exact Keeps.upd (Keeps.refl _ _)
  | (clear_value *; split)

theorem keeps_execMgmtWatchdog (u) : KeepsO 0x20000000 u (execMgmtWatchdog u) := by
  unfold execMgmtWatchdog
  repeat' first
  | with_reducible assumption
  | with_reducible exact Keeps.refl _ _
  | with_reducible refine KeepsO.next ?_
  | with_reducible exact KeepsO.fault _
  | (extract_lets +onlyGivenNames x; refine Keeps.cut x ?_ (fun hx => ?_); rotate_left; rename State => z; rotate_right; unfold x; clear x)
  | (extract_lets +onlyGivenNames x; refine KeepsO.cut x ?_ (fun hx => ?_); rotate_left; rename State => z; rotate_right; unfold x; clear x)
  | (extract_lets +onlyGivenNames x; revert x; intro y)
  | with_reducible refine Keeps.foldl ?_ (fun v e => ?_)
  | with_reducible refine Keeps.ite ?_ ?_
  | with_reducible refine KeepsO.ite ?_ ?_
  | split
  | exact Keeps.upd (by with_reducible assumption)
  | exact Keeps.upd (Keeps.refl _ _)
  | (clear_value *; split)

theorem keeps_execEngineReset (a0 a1 a2 u) : KeepsO 0x4EF943495 u (execEngineReset a0 a1 a2 u) := by
  unfold execEngineReset
  repeat' first
  | with_reducible assumption
  | with_reducible exact Keeps.refl _ _
  | with_reducible refine KeepsO.next ?_
  | with_reducible exact KeepsO.fault _
  | (extract_lets +onlyGivenNames x; refine Keeps.cut x ?_ (fun hx => ?_); rotate_left; rename State => z; rotate_right; unfold x; clear x)
  | (extract_lets +onlyGivenNames x; refine KeepsO.cut x ?_ (fun hx => ?_); rotate_left; rename State => z; rotate_right; unfold x; clear x)
  | (extract_lets +onlyGivenNames x; revert x; intro y)
  | (with_reducible refine keeps_beginReset ?_ ?_ ..; rotate_left; (first | rfl | decide))
  | with_reducible refine Keeps.foldl ?_ (fun v e => ?_)
  | with_reducible refine Keeps.ite ?_ ?_
  | with_reducible refine KeepsO.ite ?_ ?_
  | split
  | exact Keeps.upd (by with_reducible assumption)
  | exact Keeps.upd (Keeps.refl _ _)
  | (clear_value *; split)

theorem keeps_execCoreReset (a0 a1 u) : KeepsO 0x4EF943495 u (execCoreReset a0 a1 u) := by
  unfold execCoreReset
  repeat' first
  | with_reducible assumption
  | with_reducible exact Keeps.refl _ _
  | with_reducible refine KeepsO.next ?_
  | with_reducible exact KeepsO.fault _
  | (extract_lets +onlyGivenNames x; refine Keeps.cut x ?_ (fun hx => ?_); rotate_left; rename State => z; rotate_right; unfold x; clear x)
  | (extract_lets +onlyGivenNames x; refine KeepsO.cut x ?_ (fun hx => ?_); rotate_left; rename State => z; rotate_right; unfold x; clear x)
  | (extract_lets +onlyGivenNames x; revert x; intro y)
  | (with_reducible refine keeps_beginReset ?_ ?_ ..; rotate_left; (first | rfl | decide))
  | with_reducible refine Keeps.foldl ?_ (fun v e => ?_)
  | with_reducible refine Keeps.ite ?_ ?_
  | with_reducible refine KeepsO.ite ?_ ?_
  | split
  | exact Keeps.upd (by with_reducible assumption)
  | exact Keeps.upd (Keeps.refl _ _)
  | (clear_value *; split)

theorem keeps_execDieReset (a0 a1 u) : KeepsO 0x4EF943495 u (execDieReset a0 a1 u) := by
  unfold execDieReset
  repeat' first
  | with_reducible assumption
  | with_reducible exact Keeps.refl _ _
  | with_reducible refine KeepsO.next ?_
  | with_reducible exact KeepsO.fault _
  | (extract_lets +onlyGivenNames x; refine Keeps.cut x ?_ (fun hx => ?_); rotate_left; rename State => z; rotate_right; unfold x; clear x)
  | (extract_lets +onlyGivenNames x; refine KeepsO.cut x ?_ (fun hx => ?_); rotate_left; rename State => z; rotate_right; unfold x; clear x)
  | (extract_lets +onlyGivenNames x; revert x; intro y)
  | (with_reducible refine keeps_beginReset ?_ ?_ ..; rotate_left; (first | rfl | decide))
  | with_reducible refine Keeps.foldl ?_ (fun v e => ?_)
  | with_reducible refine Keeps.ite ?_ ?_
  | with_reducible refine KeepsO.ite ?_ ?_
  | split
  | exact Keeps.upd (by with_reducible assumption)
  | exact Keeps.upd (Keeps.refl _ _)
  | (clear_value *; split)

theorem keeps_execDeviceReset (a0 u) : KeepsO 0x4EF943495 u (execDeviceReset a0 u) := by
  unfold execDeviceReset
  repeat' first
  | with_reducible assumption
  | with_reducible exact Keeps.refl _ _
  | with_reducible refine KeepsO.next ?_
  | with_reducible exact KeepsO.fault _
  | (extract_lets +onlyGivenNames x; refine Keeps.cut x ?_ (fun hx => ?_); rotate_left; rename State => z; rotate_right; unfold x; clear x)
  | (extract_lets +onlyGivenNames x; refine KeepsO.cut x ?_ (fun hx => ?_); rotate_left; rename State => z; rotate_right; unfold x; clear x)
  | (extract_lets +onlyGivenNames x; revert x; intro y)
  | (with_reducible refine keeps_beginReset ?_ ?_ ..; rotate_left; (first | rfl | decide))
  | with_reducible refine Keeps.foldl ?_ (fun v e => ?_)
  | with_reducible refine Keeps.ite ?_ ?_
  | with_reducible refine KeepsO.ite ?_ ?_
  | split
  | exact Keeps.upd (by with_reducible assumption)
  | exact Keeps.upd (Keeps.refl _ _)
  | (clear_value *; split)

theorem keeps_execResetTimeout (a0 a1 a2 a3 u) : KeepsO 0x4EF943495 u (execResetTimeout a0 a1 a2 a3 u) := by
  unfold execResetTimeout
  repeat' first
  | with_reducible assumption
  | with_reducible exact Keeps.refl _ _
  | with_reducible refine KeepsO.next ?_
  | with_reducible exact KeepsO.fault _
  | (extract_lets +onlyGivenNames x; refine Keeps.cut x ?_ (fun hx => ?_); rotate_left; rename State => z; rotate_right; unfold x; clear x)
  | (extract_lets +onlyGivenNames x; refine KeepsO.cut x ?_ (fun hx => ?_); rotate_left; rename State => z; rotate_right; unfold x; clear x)
  | (extract_lets +onlyGivenNames x; revert x; intro y)
  | (with_reducible refine keeps_beginReset ?_ ?_ ..; rotate_left; (first | rfl | decide))
  | (with_reducible refine keeps_oosNext ?_ ?_ ..; rotate_left; (first | rfl | decide))
  | (with_reducible refine keeps_dropReset ?_ ?_ ..; rotate_left; (first | rfl | decide))
  | with_reducible refine Keeps.foldl ?_ (fun v e => ?_)
  | with_reducible refine Keeps.ite ?_ ?_
  | with_reducible refine KeepsO.ite ?_ ?_
  | split
  | exact Keeps.upd (by with_reducible assumption)
  | exact Keeps.upd (Keeps.refl _ _)
  | (clear_value *; split)

theorem keeps_execResetComplete (a0 a1 a2 u) : KeepsO 0x429000484 u (execResetComplete a0 a1 a2 u) := by
  unfold execResetComplete
  repeat' first
  | with_reducible assumption
  | with_reducible exact Keeps.refl _ _
  | with_reducible refine KeepsO.next ?_
  | with_reducible exact KeepsO.fault _
  | (extract_lets +onlyGivenNames x; refine Keeps.cut x ?_ (fun hx => ?_); rotate_left; rename State => z; rotate_right; unfold x; clear x)
  | (extract_lets +onlyGivenNames x; refine KeepsO.cut x ?_ (fun hx => ?_); rotate_left; rename State => z; rotate_right; unfold x; clear x)
  | (extract_lets +onlyGivenNames x; revert x; intro y)
  | (with_reducible refine keeps_dropReset ?_ ?_ ..; rotate_left; (first | rfl | decide))
  | (with_reducible refine keeps_eventAt ?_ ?_ ..; rotate_left; (first | rfl | decide))
  | (with_reducible refine keeps_updCore ?_ ?_ ..; rotate_left; (first | rfl | decide))
  | (with_reducible refine keeps_failTest ?_ ?_ ..; rotate_left; (first | rfl | decide))
  | with_reducible refine Keeps.foldl ?_ (fun v e => ?_)
  | with_reducible refine Keeps.ite ?_ ?_
  | with_reducible refine KeepsO.ite ?_ ?_
  | split
  | exact Keeps.upd (by with_reducible assumption)
  | exact Keeps.upd (Keeps.refl _ _)
  | (clear_value *; split)

theorem keeps_execOosEntry (u) : KeepsO 0xC2F842085 u (execOosEntry u) := by
  unfold execOosEntry
  repeat' first
  | with_reducible assumption
  | with_reducible exact Keeps.refl _ _
  | with_reducible refine KeepsO.next ?_
  | with_reducible exact KeepsO.fault _
  | (extract_lets +onlyGivenNames x; refine Keeps.cut x ?_ (fun hx => ?_); rotate_left; rename State => z; rotate_right; unfold x; clear x)
  | (extract_lets +onlyGivenNames x; refine KeepsO.cut x ?_ (fun hx => ?_); rotate_left; rename State => z; rotate_right; unfold x; clear x)
  | (extract_lets +onlyGivenNames x; revert x; intro y)
  | (with_reducible refine keeps_enterOos ?_ ?_ ..; rotate_left; (first | rfl | decide))
  | with_reducible refine Keeps.foldl ?_ (fun v e => ?_)
  | with_reducible refine Keeps.ite ?_ ?_
  | with_reducible refine KeepsO.ite ?_ ?_
  | split
  | exact Keeps.upd (by with_reducible assumption)
  | exact Keeps.upd (Keeps.refl _ _)
  | (clear_value *; split)

theorem keeps_execCoreFence (u) : KeepsO 0xCAF943494 u (execCoreFence u) := by
  unfold execCoreFence
  repeat' first
  | with_reducible assumption
  | with_reducible exact Keeps.refl _ _
  | with_reducible refine KeepsO.next ?_
  | with_reducible exact KeepsO.fault _
  | (extract_lets +onlyGivenNames x; refine Keeps.cut x ?_ (fun hx => ?_); rotate_left; rename State => z; rotate_right; unfold x; clear x)
  | (extract_lets +onlyGivenNames x; refine KeepsO.cut x ?_ (fun hx => ?_); rotate_left; rename State => z; rotate_right; unfold x; clear x)
  | (extract_lets +onlyGivenNames x; revert x; intro y)
  | (with_reducible refine keeps_calAbort ?_ ?_ ..; rotate_left; (first | rfl | decide))
  | (with_reducible refine keeps_migrate ?_ ?_ ..; rotate_left; (first | rfl | decide))
  | with_reducible refine Keeps.foldl ?_ (fun v e => ?_)
  | with_reducible refine Keeps.ite ?_ ?_
  | with_reducible refine KeepsO.ite ?_ ?_
  | split
  | exact Keeps.upd (by with_reducible assumption)
  | exact Keeps.upd (Keeps.refl _ _)
  | (clear_value *; split)

theorem keeps_execSpareTest (a0 a1 u) : KeepsO 0xC2F902484 u (execSpareTest a0 a1 u) := by
  unfold execSpareTest
  repeat' first
  | with_reducible assumption
  | with_reducible exact Keeps.refl _ _
  | with_reducible refine KeepsO.next ?_
  | with_reducible exact KeepsO.fault _
  | (extract_lets +onlyGivenNames x; refine Keeps.cut x ?_ (fun hx => ?_); rotate_left; rename State => z; rotate_right; unfold x; clear x)
  | (extract_lets +onlyGivenNames x; refine KeepsO.cut x ?_ (fun hx => ?_); rotate_left; rename State => z; rotate_right; unfold x; clear x)
  | (extract_lets +onlyGivenNames x; revert x; intro y)
  | (with_reducible refine keeps_updCore ?_ ?_ ..; rotate_left; (first | rfl | decide))
  | (with_reducible refine keeps_migrate ?_ ?_ ..; rotate_left; (first | rfl | decide))
  | with_reducible refine Keeps.foldl ?_ (fun v e => ?_)
  | with_reducible refine Keeps.ite ?_ ?_
  | with_reducible refine KeepsO.ite ?_ ?_
  | split
  | exact Keeps.upd (by with_reducible assumption)
  | exact Keeps.upd (Keeps.refl _ _)
  | (clear_value *; split)

theorem keeps_execSpareReblockComplete (a0 u) : KeepsO 0x2002000 u (execSpareReblockComplete a0 u) := by
  unfold execSpareReblockComplete
  repeat' first
  | with_reducible assumption
  | with_reducible exact Keeps.refl _ _
  | with_reducible refine KeepsO.next ?_
  | with_reducible exact KeepsO.fault _
  | (extract_lets +onlyGivenNames x; refine Keeps.cut x ?_ (fun hx => ?_); rotate_left; rename State => z; rotate_right; unfold x; clear x)
  | (extract_lets +onlyGivenNames x; refine KeepsO.cut x ?_ (fun hx => ?_); rotate_left; rename State => z; rotate_right; unfold x; clear x)
  | (extract_lets +onlyGivenNames x; revert x; intro y)
  | (with_reducible refine keeps_enterReady ?_ ?_ ..; rotate_left; (first | rfl | decide))
  | with_reducible refine Keeps.foldl ?_ (fun v e => ?_)
  | with_reducible refine Keeps.ite ?_ ?_
  | with_reducible refine KeepsO.ite ?_ ?_
  | split
  | exact Keeps.upd (by with_reducible assumption)
  | exact Keeps.upd (Keeps.refl _ _)
  | (clear_value *; split)

theorem keeps_execEventLogWrite (u) : KeepsO 0x20000000 u (execEventLogWrite u) := by
  unfold execEventLogWrite
  repeat' first
  | with_reducible assumption
  | with_reducible exact Keeps.refl _ _
  | with_reducible refine KeepsO.next ?_
  | with_reducible exact KeepsO.fault _
  | (extract_lets +onlyGivenNames x; refine Keeps.cut x ?_ (fun hx => ?_); rotate_left; rename State => z; rotate_right; unfold x; clear x)
  | (extract_lets +onlyGivenNames x; refine KeepsO.cut x ?_ (fun hx => ?_); rotate_left; rename State => z; rotate_right; unfold x; clear x)
  | (extract_lets +onlyGivenNames x; revert x; intro y)
  | with_reducible refine Keeps.foldl ?_ (fun v e => ?_)
  | with_reducible refine Keeps.ite ?_ ?_
  | with_reducible refine KeepsO.ite ?_ ?_
  | split
  | exact Keeps.upd (by with_reducible assumption)
  | exact Keeps.upd (Keeps.refl _ _)
  | (clear_value *; split)

theorem keeps_execFailedTestExpiry (a0 u) : KeepsO 0x8000400 u (execFailedTestExpiry a0 u) := by
  unfold execFailedTestExpiry
  repeat' first
  | with_reducible assumption
  | with_reducible exact Keeps.refl _ _
  | with_reducible refine KeepsO.next ?_
  | with_reducible exact KeepsO.fault _
  | (extract_lets +onlyGivenNames x; refine Keeps.cut x ?_ (fun hx => ?_); rotate_left; rename State => z; rotate_right; unfold x; clear x)
  | (extract_lets +onlyGivenNames x; refine KeepsO.cut x ?_ (fun hx => ?_); rotate_left; rename State => z; rotate_right; unfold x; clear x)
  | (extract_lets +onlyGivenNames x; revert x; intro y)
  | (with_reducible refine Keeps.put ?_ ?_ ?_; rotate_left; (first | rfl | decide); (first | rfl | decide))
  | (with_reducible refine keeps_updCore ?_ ?_ ..; rotate_left; (first | rfl | decide))
  | with_reducible refine Keeps.foldl ?_ (fun v e => ?_)
  | with_reducible refine Keeps.ite ?_ ?_
  | with_reducible refine KeepsO.ite ?_ ?_
  | split
  | exact Keeps.upd (by with_reducible assumption)
  | exact Keeps.upd (Keeps.refl _ _)
  | (clear_value *; split)

theorem keeps_execSlidingWindowExpiry (a0 u) : KeepsO 0x20000004 u (execSlidingWindowExpiry a0 u) := by
  unfold execSlidingWindowExpiry
  repeat' first
  | with_reducible assumption
  | with_reducible exact Keeps.refl _ _
  | with_reducible refine KeepsO.next ?_
  | with_reducible exact KeepsO.fault _
  | (extract_lets +onlyGivenNames x; refine Keeps.cut x ?_ (fun hx => ?_); rotate_left; rename State => z; rotate_right; unfold x; clear x)
  | (extract_lets +onlyGivenNames x; refine KeepsO.cut x ?_ (fun hx => ?_); rotate_left; rename State => z; rotate_right; unfold x; clear x)
  | (extract_lets +onlyGivenNames x; revert x; intro y)
  | (with_reducible refine keeps_rates ?_ ?_ ..; rotate_left; (first | rfl | decide))
  | with_reducible refine Keeps.foldl ?_ (fun v e => ?_)
  | with_reducible refine Keeps.ite ?_ ?_
  | with_reducible refine KeepsO.ite ?_ ?_
  | split
  | exact Keeps.upd (by with_reducible assumption)
  | exact Keeps.upd (Keeps.refl _ _)
  | (clear_value *; split)

end Sys2Proof.Machine
end

