-- ==== Sys2Proof/Laws/KeepsPower.lean ====
section
/-!
SUPPORT. Laws/KeepsPower.lean: what each operation of Machine/Power.lean leaves as it was (Laws/Keeps.lean).
-/
namespace Sys2Proof.Machine
set_option Elab.async false
set_option linter.unusedTactic false
set_option linter.unreachableTactic false

theorem keeps_unitLevel {L : Nat} {s u : State} (h : Keeps L s u) (hm : 0xCEF94349D &&& L = 0xCEF94349D) {a1} : Keeps L s (State.unitLevel u a1) := by
  refine h.step (m := 0xCEF94349D) ?_ hm
  unfold State.unitLevel
  repeat' first
  | with_reducible assumption
  | with_reducible exact Keeps.refl _ _
  | (extract_lets +onlyGivenNames x; refine Keeps.cut x ?_ (fun hx => ?_); rotate_left; rename State => z; rotate_right; unfold x; clear x)
  | (extract_lets +onlyGivenNames x; revert x; intro y)
  | (with_reducible refine keeps_eventD0 ?_ ?_ ..; rotate_left; (first | rfl | decide))
  | (with_reducible refine Keeps.put ?_ ?_ ?_; rotate_left; (first | rfl | decide); (first | rfl | decide))
  | (with_reducible refine Keeps.raise ?_ ?_ ?_ ?_; rotate_left; (first | rfl | decide); (first | rfl | decide); (first | rfl | decide))
  | (with_reducible refine keeps_beginReset ?_ ?_ ..; rotate_left; (first | rfl | decide))
  | (with_reducible refine keeps_calAbort ?_ ?_ ..; rotate_left; (first | rfl | decide))
  | with_reducible refine Keeps.foldl ?_ (fun v e => ?_)
  | with_reducible refine Keeps.ite ?_ ?_
  | split
  | exact Keeps.upd (by with_reducible assumption)
  | exact Keeps.upd (Keeps.refl _ _)
  | (clear_value *; split)

theorem keeps_thermalTick {L : Nat} {s u : State} (h : Keeps L s u) (hm : 0xCEF94349D &&& L = 0xCEF94349D)  : Keeps L s (State.thermalTick u) := by
  refine h.step (m := 0xCEF94349D) ?_ hm
  unfold State.thermalTick
  repeat' first
  | with_reducible assumption
  | with_reducible exact Keeps.refl _ _
  | (extract_lets +onlyGivenNames x; refine Keeps.cut x ?_ (fun hx => ?_); rotate_left; rename State => z; rotate_right; unfold x; clear x)
  | (extract_lets +onlyGivenNames x; revert x; intro y)
  | (with_reducible refine keeps_unitLevel ?_ ?_ ..; rotate_left; (first | rfl | decide))
  | (with_reducible refine keeps_updCore ?_ ?_ ..; rotate_left; (first | rfl | decide))
  | with_reducible refine Keeps.foldl ?_ (fun v e => ?_)
  | with_reducible refine Keeps.ite ?_ ?_
  | split
  | exact Keeps.upd (by with_reducible assumption)
  | exact Keeps.upd (Keeps.refl _ _)
  | (clear_value *; split)

theorem keeps_setReserve {L : Nat} {s u : State} (h : Keeps L s u) (hm : 0x40000008 &&& L = 0x40000008) {a1 a2} : Keeps L s (State.setReserve u a1 a2) := by
  refine h.step (m := 0x40000008) ?_ hm
  unfold State.setReserve
  repeat' first
  | with_reducible assumption
  | with_reducible exact Keeps.refl _ _
  | (extract_lets +onlyGivenNames x; refine Keeps.cut x ?_ (fun hx => ?_); rotate_left; rename State => z; rotate_right; unfold x; clear x)
  | (extract_lets +onlyGivenNames x; revert x; intro y)
  | (with_reducible refine Keeps.put ?_ ?_ ?_; rotate_left; (first | rfl | decide); (first | rfl | decide))
  | with_reducible refine Keeps.foldl ?_ (fun v e => ?_)
  | with_reducible refine Keeps.ite ?_ ?_
  | split
  | exact Keeps.upd (by with_reducible assumption)
  | exact Keeps.upd (Keeps.refl _ _)
  | (clear_value *; split)

theorem keeps_checkLimit {L : Nat} {s u : State} (h : Keeps L s u) (hm : 0x46104008C &&& L = 0x46104008C) {e v} : Keeps L s (u.checkLimit e v) := by
  refine h.step (m := 0x46104008C) ?_ hm
  unfold State.checkLimit
  refine Keeps.ite ?_ (Keeps.refl _ _)
  have h0 := (Keeps.refl 0x46104008C u).raise (f := ⟨F.MON_LIMIT_CROSSED.base, 4, 4, e % 2 ^ 7 % 32, e % 2 ^ 7 % 32⟩) (i := e % 2 ^ 7 / 32)
    (by rfl) (show Nat.testBit _ (blockOf F.MON_LIMIT_CROSSED.base).code = true by decide) (by decide)
  exact Keeps.ite (keeps_event (Keeps.upd h0) (by decide)) h0

theorem keeps_settlePast {L : Nat} {s u : State} (h : Keeps L s u) (hm : 0x40000000 &&& L = 0x40000000)  : Keeps L s (State.settlePast u) := by
  refine h.step (m := 0x40000000) ?_ hm
  unfold State.settlePast
  repeat' first
  | with_reducible assumption
  | with_reducible exact Keeps.refl _ _
  | (extract_lets +onlyGivenNames x; refine Keeps.cut x ?_ (fun hx => ?_); rotate_left; rename State => z; rotate_right; unfold x; clear x)
  | (extract_lets +onlyGivenNames x; revert x; intro y)
  | with_reducible refine Keeps.foldl ?_ (fun v e => ?_)
  | with_reducible refine Keeps.ite ?_ ?_
  | split
  | exact Keeps.upd (by with_reducible assumption)
  | exact Keeps.upd (Keeps.refl _ _)
  | (clear_value *; split)

theorem flashRegs_wf (s : State) : tblWf resetWord s.flashRegs = true := by
  have h : ∀ (l t : Tbl Word), tblWf resetWord t = true → tblWf resetWord (l.foldl (fun t e =>
      let m := State.flashBits e.1
      if m = 0 then t else tset (resetWord e.1) t e.1 (maskedIn (resetWord e.1) e.2.toNat m)) t) = true := by
    intro l
    induction l with
    | nil => exact fun t ht => ht
    | cons e r ih =>
      intro t ht
      rw [List.foldl_cons]
      refine ih _ ?_
      dsimp only
      split
      · exact ht
      · exact tset_wf _ _ ht
  exact h s.regs [] rfl

theorem keeps_cold {L : Nat} {s u : State} (h : Keeps L s u) (hm : 0x3FFFFFFFF &&& L = 0x3FFFFFFFF) : Keeps L s u.cold := by
  refine h.step (m := 0x3FFFFFFFF) ?_ hm
  refine ⟨fun p hp => ?_, fun hc => ⟨rfl, flashRegs_wf _, rfl, rfl,
    tmap_wf _ (fun _ b => State.coldBatt b) hc.2.2.2.2.1, tmap_wf _ (fun _ c => State.coldCore c) hc.2.2.2.2.2⟩,
    List.prefix_rfl, Nat.le_refl _⟩
  cases p <;> first | rfl | exact absurd hp (by decide)

theorem keeps_flushLog {L : Nat} {s u : State} (h : Keeps L s u) (hm : 0x20000000 &&& L = 0x20000000) : Keeps L s u.flushLog := by
  refine h.step (m := 0x20000000) ?_ hm
  unfold State.flushLog
  generalize u.flt.logBuf.foldl (fun t e => tput t (e.seq % 4194304) e) u.flt.log = l
  exact Keeps.upd (Keeps.refl _ _)

theorem keeps_unitHot {L : Nat} {s u : State} (h : Keeps L s u) (hm : 0x40000008 &&& L = 0x40000008) {a1} : Keeps L s (State.unitHot u a1) := by
  refine h.step (m := 0x40000008) ?_ hm
  unfold State.unitHot
  repeat' first
  | with_reducible assumption
  | with_reducible exact Keeps.refl _ _
  | (extract_lets +onlyGivenNames x; refine Keeps.cut x ?_ (fun hx => ?_); rotate_left; rename State => z; rotate_right; unfold x; clear x)
  | (extract_lets +onlyGivenNames x; revert x; intro y)
  | (with_reducible refine Keeps.put ?_ ?_ ?_; rotate_left; (first | rfl | decide); (first | rfl | decide))
  | with_reducible refine Keeps.foldl ?_ (fun v e => ?_)
  | with_reducible refine Keeps.ite ?_ ?_
  | split
  | exact Keeps.upd (by with_reducible assumption)
  | exact Keeps.upd (Keeps.refl _ _)
  | (clear_value *; split)

theorem keeps_nextEntry {L : Nat} {s u : State} (h : Keeps L s u) (hm : 0x40000008 &&& L = 0x40000008) {a1} : Keeps L s (State.nextEntry u a1) := by
  refine h.step (m := 0x40000008) ?_ hm
  unfold State.nextEntry
  repeat' first
  | with_reducible assumption
  | with_reducible exact Keeps.refl _ _
  | (extract_lets +onlyGivenNames x; refine Keeps.cut x ?_ (fun hx => ?_); rotate_left; rename State => z; rotate_right; unfold x; clear x)
  | (extract_lets +onlyGivenNames x; revert x; intro y)
  | (with_reducible refine Keeps.put ?_ ?_ ?_; rotate_left; (first | rfl | decide); (first | rfl | decide))
  | (with_reducible refine Keeps.bump ?_ ?_ ?_; rotate_left; (first | rfl | decide); (first | rfl | decide))
  | (with_reducible refine keeps_unitHot ?_ ?_ ..; rotate_left; (first | rfl | decide))
  | with_reducible refine Keeps.foldl ?_ (fun v e => ?_)
  | with_reducible refine Keeps.ite ?_ ?_
  | split
  | exact Keeps.upd (by with_reducible assumption)
  | exact Keeps.upd (Keeps.refl _ _)
  | (clear_value *; split)

theorem keeps_notePast {L : Nat} {s u : State} (h : Keeps L s u) (hm : 0x40000000 &&& L = 0x40000000) {e} : Keeps L s (u.notePast e) := by
  refine h.step (m := 0x40000000) ?_ hm
  unfold State.notePast
  generalize (u.pwr.pastEnergy ++ [(u.now, e)]).drop (u.pwr.pastEnergy.length - 4095) = l
  exact Keeps.upd (Keeps.refl _ _)

theorem keeps_setPstand {L : Nat} {s u : State} (h : Keeps L s u) (hm : 0x40000008 &&& L = 0x40000008)  : Keeps L s (State.setPstand u) := by
  refine h.step (m := 0x40000008) ?_ hm
  unfold State.setPstand
  repeat' first
  | with_reducible assumption
  | with_reducible exact Keeps.refl _ _
  | (extract_lets +onlyGivenNames x; refine Keeps.cut x ?_ (fun hx => ?_); rotate_left; rename State => z; rotate_right; unfold x; clear x)
  | (extract_lets +onlyGivenNames x; revert x; intro y)
  | (with_reducible refine Keeps.put ?_ ?_ ?_; rotate_left; (first | rfl | decide); (first | rfl | decide))
  | with_reducible refine Keeps.foldl ?_ (fun v e => ?_)
  | with_reducible refine Keeps.ite ?_ ?_
  | split
  | exact Keeps.upd (by with_reducible assumption)
  | exact Keeps.upd (Keeps.refl _ _)
  | (clear_value *; split)

theorem keeps_powerLoss {L : Nat} {s u : State} (h : Keeps L s u) (hm : 0x3FFFFFFFF &&& L = 0x3FFFFFFFF) {a1} : Keeps L s (State.powerLoss u a1) := by
  refine h.step (m := 0x3FFFFFFFF) ?_ hm
  unfold State.powerLoss
  repeat' first
  | with_reducible assumption
  | with_reducible exact Keeps.refl _ _
  | (extract_lets +onlyGivenNames x; refine Keeps.cut x ?_ (fun hx => ?_); rotate_left; rename State => z; rotate_right; unfold x; clear x)
  | (extract_lets +onlyGivenNames x; revert x; intro y)
  | (with_reducible refine keeps_cold ?_ ?_ ..; rotate_left; (first | rfl | decide))
  | (with_reducible refine keeps_flushLog ?_ ?_ ..; rotate_left; (first | rfl | decide))
  | (with_reducible refine keeps_logEvent ?_ ?_ ..; rotate_left; (first | rfl | decide))
  | with_reducible refine Keeps.foldl ?_ (fun v e => ?_)
  | with_reducible refine Keeps.ite ?_ ?_
  | split
  | exact Keeps.upd (by with_reducible assumption)
  | exact Keeps.upd (Keeps.refl _ _)
  | (clear_value *; split)

theorem keeps_readPower {L : Nat} {s u : State} (h : Keeps L s u) (hm : 0x40000008 &&& L = 0x40000008) {a1} : Keeps L s (State.readPower u a1) := by
  refine h.step (m := 0x40000008) ?_ hm
  unfold State.readPower
  repeat' first
  | with_reducible assumption
  | with_reducible exact Keeps.refl _ _
  | (extract_lets +onlyGivenNames x; refine Keeps.cut x ?_ (fun hx => ?_); rotate_left; rename State => z; rotate_right; unfold x; clear x)
  | (extract_lets +onlyGivenNames x; revert x; intro y)
  | (with_reducible refine Keeps.put ?_ ?_ ?_; rotate_left; (first | rfl | decide); (first | rfl | decide))
  | with_reducible refine Keeps.foldl ?_ (fun v e => ?_)
  | with_reducible refine Keeps.ite ?_ ?_
  | split
  | exact Keeps.upd (by with_reducible assumption)
  | exact Keeps.upd (Keeps.refl _ _)
  | (clear_value *; split)

theorem keeps_report {L : Nat} {s u : State} (h : Keeps L s u) (hm : 0x40000008 &&& L = 0x40000008) {a1 a2} : Keeps L s (State.report u a1 a2) := by
  refine h.step (m := 0x40000008) ?_ hm
  unfold State.report
  repeat' first
  | with_reducible assumption
  | with_reducible exact Keeps.refl _ _
  | (extract_lets +onlyGivenNames x; refine Keeps.cut x ?_ (fun hx => ?_); rotate_left; rename State => z; rotate_right; unfold x; clear x)
  | (extract_lets +onlyGivenNames x; revert x; intro y)
  | (with_reducible refine Keeps.put ?_ ?_ ?_; rotate_left; (first | rfl | decide); (first | rfl | decide))
  | with_reducible refine Keeps.foldl ?_ (fun v e => ?_)
  | with_reducible refine Keeps.ite ?_ ?_
  | split
  | exact Keeps.upd (by with_reducible assumption)
  | exact Keeps.upd (Keeps.refl _ _)
  | (clear_value *; split)

theorem keeps_execEnableOpen (u) : KeepsO 0x3FFFFFFFF u (execEnableOpen u) := by
  unfold execEnableOpen
  repeat' first
  | with_reducible assumption
  | with_reducible exact Keeps.refl _ _
  | with_reducible refine KeepsO.next ?_
  | with_reducible exact KeepsO.fault _
  | (extract_lets +onlyGivenNames x; refine Keeps.cut x ?_ (fun hx => ?_); rotate_left; rename State => z; rotate_right; unfold x; clear x)
  | (extract_lets +onlyGivenNames x; refine KeepsO.cut x ?_ (fun hx => ?_); rotate_left; rename State => z; rotate_right; unfold x; clear x)
  | (extract_lets +onlyGivenNames x; revert x; intro y)
  | (with_reducible refine keeps_powerLoss ?_ ?_ ..; rotate_left; (first | rfl | decide))
  | with_reducible refine Keeps.foldl ?_ (fun v e => ?_)
  | with_reducible refine Keeps.ite ?_ ?_
  | with_reducible refine KeepsO.ite ?_ ?_
  | split
  | exact Keeps.upd (by with_reducible assumption)
  | exact Keeps.upd (Keeps.refl _ _)
  | (clear_value *; split)

theorem keeps_execUnderVoltageStop (a0 a1 u) : KeepsO 0x3FFFFFFFF u (execUnderVoltageStop a0 a1 u) := by
  unfold execUnderVoltageStop
  repeat' first
  | with_reducible assumption
  | with_reducible exact Keeps.refl _ _
  | with_reducible refine KeepsO.next ?_
  | with_reducible exact KeepsO.fault _
  | (extract_lets +onlyGivenNames x; refine Keeps.cut x ?_ (fun hx => ?_); rotate_left; rename State => z; rotate_right; unfold x; clear x)
  | (extract_lets +onlyGivenNames x; refine KeepsO.cut x ?_ (fun hx => ?_); rotate_left; rename State => z; rotate_right; unfold x; clear x)
  | (extract_lets +onlyGivenNames x; revert x; intro y)
  | (with_reducible refine keeps_powerLoss ?_ ?_ ..; rotate_left; (first | rfl | decide))
  | with_reducible refine Keeps.foldl ?_ (fun v e => ?_)
  | with_reducible refine Keeps.ite ?_ ?_
  | with_reducible refine KeepsO.ite ?_ ?_
  | split
  | exact Keeps.upd (by with_reducible assumption)
  | exact Keeps.upd (Keeps.refl _ _)
  | (clear_value *; split)

theorem keeps_execOverVoltageStop (a0 a1 u) : KeepsO 0x3FFFFFFFF u (execOverVoltageStop a0 a1 u) := by
  unfold execOverVoltageStop
  repeat' first
  | with_reducible assumption
  | with_reducible exact Keeps.refl _ _
  | with_reducible refine KeepsO.next ?_
  | with_reducible exact KeepsO.fault _
  | (extract_lets +onlyGivenNames x; refine Keeps.cut x ?_ (fun hx => ?_); rotate_left; rename State => z; rotate_right; unfold x; clear x)
  | (extract_lets +onlyGivenNames x; refine KeepsO.cut x ?_ (fun hx => ?_); rotate_left; rename State => z; rotate_right; unfold x; clear x)
  | (extract_lets +onlyGivenNames x; revert x; intro y)
  | (with_reducible refine keeps_powerLoss ?_ ?_ ..; rotate_left; (first | rfl | decide))
  | with_reducible refine Keeps.foldl ?_ (fun v e => ?_)
  | with_reducible refine Keeps.ite ?_ ?_
  | with_reducible refine KeepsO.ite ?_ ?_
  | split
  | exact Keeps.upd (by with_reducible assumption)
  | exact Keeps.upd (Keeps.refl _ _)
  | (clear_value *; split)

theorem keeps_execCurrentLimitStop (a0 u) : KeepsO 0x3FFFFFFFF u (execCurrentLimitStop a0 u) := by
  unfold execCurrentLimitStop
  repeat' first
  | with_reducible assumption
  | with_reducible exact Keeps.refl _ _
  | with_reducible refine KeepsO.next ?_
  | with_reducible exact KeepsO.fault _
  | (extract_lets +onlyGivenNames x; refine Keeps.cut x ?_ (fun hx => ?_); rotate_left; rename State => z; rotate_right; unfold x; clear x)
  | (extract_lets +onlyGivenNames x; refine KeepsO.cut x ?_ (fun hx => ?_); rotate_left; rename State => z; rotate_right; unfold x; clear x)
  | (extract_lets +onlyGivenNames x; revert x; intro y)
  | (with_reducible refine keeps_powerLoss ?_ ?_ ..; rotate_left; (first | rfl | decide))
  | with_reducible refine Keeps.foldl ?_ (fun v e => ?_)
  | with_reducible refine Keeps.ite ?_ ?_
  | with_reducible refine KeepsO.ite ?_ ?_
  | split
  | exact Keeps.upd (by with_reducible assumption)
  | exact Keeps.upd (Keeps.refl _ _)
  | (clear_value *; split)

theorem keeps_execMonitorConversion (a0 u) : KeepsO 0x46104008C u (execMonitorConversion a0 u) := by
  unfold execMonitorConversion
  repeat' first
  | with_reducible assumption
  | with_reducible exact Keeps.refl _ _
  | with_reducible refine KeepsO.next ?_
  | with_reducible exact KeepsO.fault _
  | (extract_lets +onlyGivenNames x; refine Keeps.cut x ?_ (fun hx => ?_); rotate_left; rename State => z; rotate_right; unfold x; clear x)
  | (extract_lets +onlyGivenNames x; refine KeepsO.cut x ?_ (fun hx => ?_); rotate_left; rename State => z; rotate_right; unfold x; clear x)
  | (extract_lets +onlyGivenNames x; revert x; intro y)
  | (with_reducible refine keeps_report ?_ ?_ ..; rotate_left; (first | rfl | decide))
  | (with_reducible refine keeps_checkLimit ?_ ?_ ..; rotate_left; (first | rfl | decide))
  | with_reducible refine Keeps.foldl ?_ (fun v e => ?_)
  | with_reducible refine Keeps.ite ?_ ?_
  | with_reducible refine KeepsO.ite ?_ ?_
  | split
  | exact Keeps.upd (by with_reducible assumption)
  | exact Keeps.upd (Keeps.refl _ _)
  | (clear_value *; split)

theorem keeps_execMonitorEntryComplete (a0 u) : KeepsO 0x40000008 u (execMonitorEntryComplete a0 u) := by
  unfold execMonitorEntryComplete
  repeat' first
  | with_reducible assumption
  | with_reducible exact Keeps.refl _ _
  | with_reducible refine KeepsO.next ?_
  | with_reducible exact KeepsO.fault _
  | (extract_lets +onlyGivenNames x; refine Keeps.cut x ?_ (fun hx => ?_); rotate_left; rename State => z; rotate_right; unfold x; clear x)
  | (extract_lets +onlyGivenNames x; refine KeepsO.cut x ?_ (fun hx => ?_); rotate_left; rename State => z; rotate_right; unfold x; clear x)
  | (extract_lets +onlyGivenNames x; revert x; intro y)
  | (with_reducible refine keeps_report ?_ ?_ ..; rotate_left; (first | rfl | decide))
  | (with_reducible refine keeps_readPower ?_ ?_ ..; rotate_left; (first | rfl | decide))
  | (with_reducible refine keeps_nextEntry ?_ ?_ ..; rotate_left; (first | rfl | decide))
  | with_reducible refine Keeps.foldl ?_ (fun v e => ?_)
  | with_reducible refine Keeps.ite ?_ ?_
  | with_reducible refine KeepsO.ite ?_ ?_
  | split
  | exact Keeps.upd (by with_reducible assumption)
  | exact Keeps.upd (Keeps.refl _ _)
  | (clear_value *; split)

theorem keeps_execUrgentRequest (a0 u) : KeepsO 0x40000008 u (execUrgentRequest a0 u) := by
  unfold execUrgentRequest
  repeat' first
  | with_reducible assumption
  | with_reducible exact Keeps.refl _ _
  | with_reducible refine KeepsO.next ?_
  | with_reducible exact KeepsO.fault _
  | (extract_lets +onlyGivenNames x; refine Keeps.cut x ?_ (fun hx => ?_); rotate_left; rename State => z; rotate_right; unfold x; clear x)
  | (extract_lets +onlyGivenNames x; refine KeepsO.cut x ?_ (fun hx => ?_); rotate_left; rename State => z; rotate_right; unfold x; clear x)
  | (extract_lets +onlyGivenNames x; revert x; intro y)
  | (with_reducible refine Keeps.bump ?_ ?_ ?_; rotate_left; (first | rfl | decide); (first | rfl | decide))
  | with_reducible refine Keeps.foldl ?_ (fun v e => ?_)
  | with_reducible refine Keeps.ite ?_ ?_
  | with_reducible refine KeepsO.ite ?_ ?_
  | split
  | exact Keeps.upd (by with_reducible assumption)
  | exact Keeps.upd (Keeps.refl _ _)
  | (clear_value *; split)

theorem keeps_execFrameEnergyCheck (a0 u) : KeepsO 0x40000000 u (execFrameEnergyCheck a0 u) := by
  unfold execFrameEnergyCheck
  repeat' first
  | with_reducible assumption
  | with_reducible exact Keeps.refl _ _
  | with_reducible refine KeepsO.next ?_
  | with_reducible exact KeepsO.fault _
  | (extract_lets +onlyGivenNames x; refine Keeps.cut x ?_ (fun hx => ?_); rotate_left; rename State => z; rotate_right; unfold x; clear x)
  | (extract_lets +onlyGivenNames x; refine KeepsO.cut x ?_ (fun hx => ?_); rotate_left; rename State => z; rotate_right; unfold x; clear x)
  | (extract_lets +onlyGivenNames x; revert x; intro y)
  | with_reducible refine Keeps.foldl ?_ (fun v e => ?_)
  | with_reducible refine Keeps.ite ?_ ?_
  | with_reducible refine KeepsO.ite ?_ ?_
  | split
  | exact Keeps.upd (by with_reducible assumption)
  | exact Keeps.upd (Keeps.refl _ _)
  | (clear_value *; split)

theorem keeps_execOverdraw (a0 a1 u) : KeepsO 0xC6104008C u (execOverdraw a0 a1 u) := by
  unfold execOverdraw
  repeat' first
  | with_reducible assumption
  | with_reducible exact Keeps.refl _ _
  | with_reducible refine KeepsO.next ?_
  | with_reducible exact KeepsO.fault _
  | (extract_lets +onlyGivenNames x; refine Keeps.cut x ?_ (fun hx => ?_); rotate_left; rename State => z; rotate_right; unfold x; clear x)
  | (extract_lets +onlyGivenNames x; refine KeepsO.cut x ?_ (fun hx => ?_); rotate_left; rename State => z; rotate_right; unfold x; clear x)
  | (extract_lets +onlyGivenNames x; revert x; intro y)
  | (with_reducible refine keeps_setReserve ?_ ?_ ..; rotate_left; (first | rfl | decide))
  | (with_reducible refine keeps_eventOpen ?_ ?_ ..; rotate_left; (first | rfl | decide))
  | (with_reducible refine Keeps.raise ?_ ?_ ?_ ?_; rotate_left; (first | rfl | decide); (first | rfl | decide); (first | rfl | decide))
  | (with_reducible refine Keeps.bump ?_ ?_ ?_; rotate_left; (first | rfl | decide); (first | rfl | decide))
  | with_reducible refine Keeps.foldl ?_ (fun v e => ?_)
  | with_reducible refine Keeps.ite ?_ ?_
  | with_reducible refine KeepsO.ite ?_ ?_
  | split
  | exact Keeps.upd (by with_reducible assumption)
  | exact Keeps.upd (Keeps.refl _ _)
  | (clear_value *; split)

theorem keeps_execReserveDecay (a0 u) : KeepsO 0x40000008 u (execReserveDecay a0 u) := by
  unfold execReserveDecay
  repeat' first
  | with_reducible assumption
  | with_reducible exact Keeps.refl _ _
  | with_reducible refine KeepsO.next ?_
  | with_reducible exact KeepsO.fault _
  | (extract_lets +onlyGivenNames x; refine Keeps.cut x ?_ (fun hx => ?_); rotate_left; rename State => z; rotate_right; unfold x; clear x)
  | (extract_lets +onlyGivenNames x; refine KeepsO.cut x ?_ (fun hx => ?_); rotate_left; rename State => z; rotate_right; unfold x; clear x)
  | (extract_lets +onlyGivenNames x; revert x; intro y)
  | (with_reducible refine keeps_setReserve ?_ ?_ ..; rotate_left; (first | rfl | decide))
  | with_reducible refine Keeps.foldl ?_ (fun v e => ?_)
  | with_reducible refine Keeps.ite ?_ ?_
  | with_reducible refine KeepsO.ite ?_ ?_
  | split
  | exact Keeps.upd (by with_reducible assumption)
  | exact Keeps.upd (Keeps.refl _ _)
  | (clear_value *; split)

theorem keeps_execThermalShutdown (a0 a1 u) : KeepsO 0xC6F94348C u (execThermalShutdown a0 a1 u) := by
  unfold execThermalShutdown
  refine KeepsO.next ?_
  generalize (if a0 < 74 then 1840 else 1680 : Int) = lim
  dsimp only
  split
  case isFalse => exact Keeps.refl _ _
  have hx : Keeps 0xC6F94348C u ((List.range 4).foldl (State.clearDie 4) u).losePlans :=
    keeps_losePlans (Keeps.foldl (Keeps.refl _ _) (fun v e => keeps_clearDie (Keeps.refl _ _) (by decide))) (by decide)
  revert hx
  generalize ((List.range 4).foldl (State.clearDie 4) u).losePlans = x
  intro hx
  exact keeps_oosNext (keeps_eventOpen ((Keeps.upd hx).raise rfl rfl rfl) (by decide)) (by decide)

theorem keeps_execCurrentLimitReached (u) : KeepsO 0x40008 u (execCurrentLimitReached u) := by
  unfold execCurrentLimitReached
  repeat' first
  | with_reducible assumption
  | with_reducible exact Keeps.refl _ _
  | with_reducible refine KeepsO.next ?_
  | with_reducible exact KeepsO.fault _
  | (extract_lets +onlyGivenNames x; refine Keeps.cut x ?_ (fun hx => ?_); rotate_left; rename State => z; rotate_right; unfold x; clear x)
  | (extract_lets +onlyGivenNames x; refine KeepsO.cut x ?_ (fun hx => ?_); rotate_left; rename State => z; rotate_right; unfold x; clear x)
  | (extract_lets +onlyGivenNames x; revert x; intro y)
  | (with_reducible refine Keeps.raise ?_ ?_ ?_ ?_; rotate_left; (first | rfl | decide); (first | rfl | decide); (first | rfl | decide))
  | with_reducible refine Keeps.foldl ?_ (fun v e => ?_)
  | with_reducible refine Keeps.ite ?_ ?_
  | with_reducible refine KeepsO.ite ?_ ?_
  | split
  | exact Keeps.upd (by with_reducible assumption)
  | exact Keeps.upd (Keeps.refl _ _)
  | (clear_value *; split)

theorem keeps_execReferenceClockLoss (u) : KeepsO 0x60000000 u (execReferenceClockLoss u) := by
  unfold execReferenceClockLoss
  repeat' first
  | with_reducible assumption
  | with_reducible exact Keeps.refl _ _
  | with_reducible refine KeepsO.next ?_
  | with_reducible exact KeepsO.fault _
  | (extract_lets +onlyGivenNames x; refine Keeps.cut x ?_ (fun hx => ?_); rotate_left; rename State => z; rotate_right; unfold x; clear x)
  | (extract_lets +onlyGivenNames x; refine KeepsO.cut x ?_ (fun hx => ?_); rotate_left; rename State => z; rotate_right; unfold x; clear x)
  | (extract_lets +onlyGivenNames x; revert x; intro y)
  | with_reducible refine Keeps.foldl ?_ (fun v e => ?_)
  | with_reducible refine Keeps.ite ?_ ?_
  | with_reducible refine KeepsO.ite ?_ ?_
  | split
  | exact Keeps.upd (by with_reducible assumption)
  | exact Keeps.upd (Keeps.refl _ _)
  | (clear_value *; split)

end Sys2Proof.Machine
end

