-- ==== Sys2Proof/Laws/KeepsBoot.lean ====
section
/-!
SUPPORT. Laws/KeepsBoot.lean: what each operation of Machine/Boot.lean leaves as it was (Laws/Keeps.lean).
-/
namespace Sys2Proof.Machine
set_option Elab.async false
set_option linter.unusedTactic false
set_option linter.unreachableTactic false

theorem keeps_endStart {L : Nat} {s u : State} (h : Keeps L s u) (hm : 0xC73021085 &&& L = 0xC73021085) {o n} : Keeps L s (u.endStart o n) := by
  refine h.step (m := 0xC73021085) ?_ hm
  unfold State.endStart
  extract_lets x y w cause was z v
  have hx : Keeps 0xC73021085 u x := Keeps.ite (Keeps.refl _ _) (keeps_eventOpen (Keeps.refl _ _) (by decide))
  have hy : Keeps 0xC73021085 u y := Keeps.ite hx (keeps_eventOpen hx (by decide))
  have hw : Keeps 0xC73021085 u w := keeps_showRecords hy (by decide)
  clear_value w
  have hz : Keeps 0xC73021085 u z := by
    simp only [z]
    clear_value was cause
    split
    · exact ((hw.put rfl rfl).put rfl rfl).put rfl rfl
    · have h0 := fun k => ((hw.put (f := F.FLT_STATE_OOS) (i := 0) (x := 1) rfl rfl).put (f := F.FLT_STATE_CAUSE) (i := 0) (x := k) rfl rfl).put
        (f := F.DEV_STATE_PHASE) (i := 0) (x := 2) rfl rfl
      exact Keeps.ite (h0 _) (keeps_eventD0 (h0 _) (by decide))
  clear_value z
  have hp := hz.commit (by decide)
  exact Keeps.upd (keeps_rebaseAll hp (by decide))

theorem keeps_bootQuote {L : Nat} {s u : State} (h : Keeps L s u) (hm : 0x900000020 &&& L = 0x900000020) {a1} : Keeps L s (State.bootQuote u a1) := by
  refine h.step (m := 0x900000020) ?_ hm
  unfold State.bootQuote
  repeat' first
  | with_reducible assumption
  | with_reducible exact Keeps.refl _ _
  | (extract_lets +onlyGivenNames x; refine Keeps.cut x ?_ (fun hx => ?_); rotate_left; rename State => z; rotate_right; unfold x; clear x)
  | (extract_lets +onlyGivenNames x; revert x; intro y)
  | (with_reducible refine keeps_sign ?_ ?_ ..; rotate_left; (first | rfl | decide))
  | (with_reducible refine keeps_formQuote ?_ ?_ ..; rotate_left; (first | rfl | decide))
  | with_reducible refine Keeps.foldl ?_ (fun v e => ?_)
  | with_reducible refine Keeps.ite ?_ ?_
  | split
  | exact Keeps.upd (by with_reducible assumption)
  | exact Keeps.upd (Keeps.refl _ _)
  | (clear_value *; split)

theorem keeps_coreRegs {L : Nat} {s u : State} (h : Keeps L s u) (hm : 0x404 &&& L = 0x404)  : Keeps L s (State.coreRegs u) := by
  refine h.step (m := 0x404) ?_ hm
  unfold State.coreRegs
  repeat' first
  | with_reducible assumption
  | with_reducible exact Keeps.refl _ _
  | (extract_lets +onlyGivenNames x; refine Keeps.cut x ?_ (fun hx => ?_); rotate_left; rename State => z; rotate_right; unfold x; clear x)
  | (extract_lets +onlyGivenNames x; revert x; intro y)
  | (with_reducible refine Keeps.put ?_ ?_ ?_; rotate_left; (first | rfl | decide); (first | rfl | decide))
  | with_reducible refine Keeps.foldl ?_ (fun v e => ?_)
  | with_reducible refine Keeps.ite ?_ ?_
  | split
  | exact Keeps.upd (by with_reducible assumption)
  | exact Keeps.upd (Keeps.refl _ _)
  | (clear_value *; split)

theorem keeps_fenceAll {L : Nat} {s u : State} (h : Keeps L s u) (hm : 0x100 &&& L = 0x100)  : Keeps L s (State.fenceAll u) := by
  refine h.step (m := 0x100) ?_ hm
  unfold State.fenceAll
  repeat' first
  | with_reducible assumption
  | with_reducible exact Keeps.refl _ _
  | (extract_lets +onlyGivenNames x; refine Keeps.cut x ?_ (fun hx => ?_); rotate_left; rename State => z; rotate_right; unfold x; clear x)
  | (extract_lets +onlyGivenNames x; revert x; intro y)
  | (with_reducible refine Keeps.put ?_ ?_ ?_; rotate_left; (first | rfl | decide); (first | rfl | decide))
  | with_reducible refine Keeps.foldl ?_ (fun v e => ?_)
  | with_reducible refine Keeps.ite ?_ ?_
  | split
  | exact Keeps.upd (by with_reducible assumption)
  | exact Keeps.upd (Keeps.refl _ _)
  | (clear_value *; split)

theorem keeps_netRegs {L : Nat} {s u : State} (h : Keeps L s u) (hm : 0x1004080 &&& L = 0x1004080) : Keeps L s u.netRegs := by
  refine h.step (m := 0x1004080) ?_ hm
  unfold State.netRegs
  refine Keeps.foldl (Keeps.foldl (Keeps.refl _ _) (fun v n => ?_)) (fun v e => ?_)
  · have h0 : Keeps 0x1004080 v (((v.put F.ETH_PORT_MACSEC_ON n.2 (if n.1.macsecOn then 1 else 0)).put F.ETH_PORT_VLAN_ON n.2
        (if n.1.vlanOn then 1 else 0)).put F.ETH_PORT_VID n.2 n.1.vid) :=
      (((Keeps.refl _ v).put rfl rfl).put rfl rfl).put rfl rfl
    exact Keeps.ite (Keeps.put (Keeps.foldl h0 (fun w e => Keeps.upd (Keeps.refl _ _))) rfl rfl) h0
  · have hl : ∀ (l : List (Word × Fld)) (w : State), (∀ a ∈ l, a.2 ∈ [F.HSESS_ADDR0_ADDR, F.HSESS_ADDR1_ADDR, F.HSESS_ADDR2_ADDR, F.HSESS_ADDR3_ADDR]) →
        Keeps 0x1004080 v w → Keeps 0x1004080 v (l.foldl (fun s a => s.putWord a.2 e.session a.1) w) := by
      intro l
      induction l with
      | nil => exact fun w _ hw => hw
      | cons a r ih =>
        intro w ha hw
        refine ih _ (fun b hb => ha b (.tail _ hb)) ?_
        have hf := ha a (.head _)
        simp only [List.mem_cons, List.not_mem_nil, or_false] at hf
        rcases hf with hf | hf | hf | hf <;> exact hw.putWord (by rw [hf]; rfl) (by rw [hf]; rfl)
    exact hl _ _ (fun a ha => (List.of_mem_zip ha).2) ((Keeps.refl _ v).putWord rfl rfl)

theorem keeps_noImage {L : Nat} {s u : State} (h : Keeps L s u) (hm : 0x201004180 &&& L = 0x201004180)  : Keeps L s (State.noImage u) := by
  refine h.step (m := 0x201004180) ?_ hm
  unfold State.noImage
  repeat' first
  | with_reducible assumption
  | with_reducible exact Keeps.refl _ _
  | (extract_lets +onlyGivenNames x; refine Keeps.cut x ?_ (fun hx => ?_); rotate_left; rename State => z; rotate_right; unfold x; clear x)
  | (extract_lets +onlyGivenNames x; revert x; intro y)
  | (with_reducible refine keeps_fenceAll ?_ ?_ ..; rotate_left; (first | rfl | decide))
  | (with_reducible refine keeps_netRegs ?_ ?_ ..; rotate_left; (first | rfl | decide))
  | with_reducible refine Keeps.foldl ?_ (fun v e => ?_)
  | with_reducible refine Keeps.ite ?_ ?_
  | split
  | exact Keeps.upd (by with_reducible assumption)
  | exact Keeps.upd (Keeps.refl _ _)
  | (clear_value *; split)

theorem keeps_policyRegs {L : Nat} {s u : State} (h : Keeps L s u) (hm : 0x4000100F &&& L = 0x4000100F) : Keeps L s u.policyRegs := by
  refine h.step (m := 0x4000100F) ?_ hm
  unfold State.policyRegs
  extract_lets p g n l x y z
  have hx : Keeps 0x4000100F u x := by
    refine (Keeps.refl _ u).putList l ?_
    simp only [l, List.all_cons, List.all_nil]
    decide
  have hy : Keeps 0x4000100F u y :=
    Keeps.ite hx (Keeps.foldl hx (fun v e => (Keeps.refl _ _).put rfl rfl))
  have hz : Keeps 0x4000100F u z := Keeps.foldl hy (fun v e => (Keeps.refl _ _).putWord rfl rfl)
  exact keeps_setReserve hz (by decide)

theorem keeps_driftRow {L : Nat} {s u : State} (h : Keeps L s u) (hm : 0x100000 &&& L = 0x100000) {a1} : Keeps L s (State.driftRow u a1) := by
  refine h.step (m := 0x100000) ?_ hm
  unfold State.driftRow
  repeat' first
  | with_reducible assumption
  | with_reducible exact Keeps.refl _ _
  | (extract_lets +onlyGivenNames x; refine Keeps.cut x ?_ (fun hx => ?_); rotate_left; rename State => z; rotate_right; unfold x; clear x)
  | (extract_lets +onlyGivenNames x; revert x; intro y)
  | (with_reducible refine Keeps.setByte ?_ ?_; rotate_left; (first | rfl | decide))
  | with_reducible refine Keeps.foldl ?_ (fun v e => ?_)
  | with_reducible refine Keeps.ite ?_ ?_
  | split
  | exact Keeps.upd (by with_reducible assumption)
  | exact Keeps.upd (Keeps.refl _ _)
  | (clear_value *; split)

theorem keeps_driftCheck {L : Nat} {s u : State} (h : Keeps L s u) (hm : 0xC25141094 &&& L = 0xC25141094) {a1} : Keeps L s (State.driftCheck u a1) := by
  refine h.step (m := 0xC25141094) ?_ hm
  unfold State.driftCheck
  repeat' first
  | with_reducible assumption
  | with_reducible exact Keeps.refl _ _
  | (extract_lets +onlyGivenNames x; refine Keeps.cut x ?_ (fun hx => ?_); rotate_left; rename State => z; rotate_right; unfold x; clear x)
  | (extract_lets +onlyGivenNames x; revert x; intro y)
  | (with_reducible refine keeps_driftRow ?_ ?_ ..; rotate_left; (first | rfl | decide))
  | (with_reducible refine keeps_refReads ?_ ?_ ..; rotate_left; (first | rfl | decide))
  | (with_reducible refine Keeps.raise ?_ ?_ ?_ ?_; rotate_left; (first | rfl | decide); (first | rfl | decide); (first | rfl | decide))
  | (with_reducible refine Keeps.put ?_ ?_ ?_; rotate_left; (first | rfl | decide); (first | rfl | decide))
  | (with_reducible refine keeps_eventOpen ?_ ?_ ..; rotate_left; (first | rfl | decide))
  | with_reducible refine Keeps.foldl ?_ (fun v e => ?_)
  | with_reducible refine Keeps.ite ?_ ?_
  | split
  | exact Keeps.upd (by with_reducible assumption)
  | exact Keeps.upd (Keeps.refl _ _)
  | (clear_value *; split)

theorem keeps_joinTopology {L : Nat} {s u : State} (h : Keeps L s u) (hm : 0xE21008185 &&& L = 0xE21008185)  : Keeps L s (State.joinTopology u) := by
  refine h.step (m := 0xE21008185) ?_ hm
  unfold State.joinTopology
  repeat' first
  | with_reducible assumption
  | with_reducible exact Keeps.refl _ _
  | (extract_lets +onlyGivenNames x; refine Keeps.cut x ?_ (fun hx => ?_); rotate_left; rename State => z; rotate_right; unfold x; clear x)
  | (extract_lets +onlyGivenNames x; revert x; intro y)
  | (with_reducible refine keeps_eventOpen ?_ ?_ ..; rotate_left; (first | rfl | decide))
  | (with_reducible refine Keeps.put ?_ ?_ ?_; rotate_left; (first | rfl | decide); (first | rfl | decide))
  | (with_reducible refine keeps_fenceAll ?_ ?_ ..; rotate_left; (first | rfl | decide))
  | (with_reducible refine keeps_formRoutes ?_ ?_ ..; rotate_left; (first | rfl | decide))
  | (with_reducible refine keeps_setUnaligned ?_ ?_ ..; rotate_left; (first | rfl | decide))
  | with_reducible refine Keeps.foldl ?_ (fun v e => ?_)
  | with_reducible refine Keeps.ite ?_ ?_
  | split
  | exact Keeps.upd (by with_reducible assumption)
  | exact Keeps.upd (Keeps.refl _ _)
  | (clear_value *; split)

theorem keeps_ctxRegs {L : Nat} {s u : State} (h : Keeps L s u) (hm : 0x2000 &&& L = 0x2000) {c t} : Keeps L s (u.ctxRegs c t) := by
  refine h.step (m := 0x2000) ?_ hm
  unfold State.ctxRegs
  extract_lets flag l
  refine (Keeps.refl _ u).putList l ?_
  simp only [l, List.all_cons, List.all_nil]
  decide

theorem keeps_startCtx {L : Nat} {s u : State} (h : Keeps L s u) (hm : 0x7007000 &&& L = 0x7007000) {a0 a2} : Keeps L s (State.startCtx a0 u a2) := by
  refine h.step (m := 0x7007000) ?_ hm
  unfold State.startCtx
  repeat' first
  | with_reducible assumption
  | with_reducible exact Keeps.refl _ _
  | (extract_lets +onlyGivenNames x; refine Keeps.cut x ?_ (fun hx => ?_); rotate_left; rename State => z; rotate_right; unfold x; clear x)
  | (extract_lets +onlyGivenNames x; revert x; intro y)
  | (with_reducible refine keeps_ctxRegs ?_ ?_ ..; rotate_left; (first | rfl | decide))
  | (with_reducible refine keeps_updCtx ?_ ?_ ..; rotate_left; (first | rfl | decide))
  | (with_reducible refine keeps_enterLoading ?_ ?_ ..; rotate_left; (first | rfl | decide))
  | (with_reducible refine keeps_place ?_ ?_ ..; rotate_left; (first | rfl | decide))
  | with_reducible refine Keeps.foldl ?_ (fun v e => ?_)
  | with_reducible refine Keeps.ite ?_ ?_
  | split
  | exact Keeps.upd (by with_reducible assumption)
  | exact Keeps.upd (Keeps.refl _ _)
  | (clear_value *; split)

theorem keeps_setOwnerRoot {L : Nat} {s u : State} (h : Keeps L s u) (hm : 0xD210400A4 &&& L = 0xD210400A4) {a1} : Keeps L s (State.setOwnerRoot u a1) := by
  refine h.step (m := 0xD210400A4) ?_ hm
  unfold State.setOwnerRoot
  repeat' first
  | with_reducible assumption
  | with_reducible exact Keeps.refl _ _
  | (extract_lets +onlyGivenNames x; refine Keeps.cut x ?_ (fun hx => ?_); rotate_left; rename State => z; rotate_right; unfold x; clear x)
  | (extract_lets +onlyGivenNames x; revert x; intro y)
  | (with_reducible refine keeps_blowFuse ?_ ?_ ..; rotate_left; (first | rfl | decide))
  | (with_reducible refine keeps_eventOpen ?_ ?_ ..; rotate_left; (first | rfl | decide))
  | (with_reducible refine Keeps.raise ?_ ?_ ?_ ?_; rotate_left; (first | rfl | decide); (first | rfl | decide); (first | rfl | decide))
  | (with_reducible refine keeps_fuseRegs ?_ ?_ ..; rotate_left; (first | rfl | decide))
  | with_reducible refine Keeps.foldl ?_ (fun v e => ?_)
  | with_reducible refine Keeps.ite ?_ ?_
  | split
  | exact Keeps.upd (by with_reducible assumption)
  | exact Keeps.upd (Keeps.refl _ _)
  | (clear_value *; split)

theorem keeps_boot {L : Nat} {s u : State} (h : Keeps L s u) (hm : 0xF7716F7BF &&& L = 0xF7716F7BF) {a1} : Keeps L s (State.boot u a1) := by
  refine h.step (m := 0xF7716F7BF) ?_ hm
  unfold State.boot
  repeat' first
  | with_reducible assumption
  | with_reducible exact Keeps.refl _ _
  | (extract_lets +onlyGivenNames x; refine Keeps.cut x ?_ (fun hx => ?_); rotate_left; rename State => z; rotate_right; unfold x; clear x)
  | (extract_lets +onlyGivenNames x; revert x; intro y)
  | (with_reducible refine Keeps.put ?_ ?_ ?_; rotate_left; (first | rfl | decide); (first | rfl | decide))
  | (with_reducible refine keeps_endStart ?_ ?_ ..; rotate_left; (first | rfl | decide))
  | (with_reducible refine keeps_bootQuote ?_ ?_ ..; rotate_left; (first | rfl | decide))
  | (with_reducible refine keeps_coreRegs ?_ ?_ ..; rotate_left; (first | rfl | decide))
  | (with_reducible refine keeps_noImage ?_ ?_ ..; rotate_left; (first | rfl | decide))
  | (with_reducible refine keeps_netRegs ?_ ?_ ..; rotate_left; (first | rfl | decide))
  | (with_reducible refine keeps_policyRegs ?_ ?_ ..; rotate_left; (first | rfl | decide))
  | (with_reducible refine keeps_driftCheck ?_ ?_ ..; rotate_left; (first | rfl | decide))
  | (with_reducible refine keeps_joinTopology ?_ ?_ ..; rotate_left; (first | rfl | decide))
  | (with_reducible refine keeps_startCtx ?_ ?_ ..; rotate_left; (first | rfl | decide))
  | (with_reducible refine keeps_rebuildRegions ?_ ?_ ..; rotate_left; (first | rfl | decide))
  | (with_reducible refine keeps_setOwnerRoot ?_ ?_ ..; rotate_left; (first | rfl | decide))
  | (with_reducible refine keeps_event ?_ ?_ ..; rotate_left; (first | rfl | decide))
  | (with_reducible refine Keeps.raise ?_ ?_ ?_ ?_; rotate_left; (first | rfl | decide); (first | rfl | decide); (first | rfl | decide))
  | with_reducible refine Keeps.foldl ?_ (fun v e => ?_)
  | with_reducible refine Keeps.ite ?_ ?_
  | split
  | exact Keeps.upd (by with_reducible assumption)
  | exact Keeps.upd (Keeps.refl _ _)
  | (clear_value *; split)

theorem keeps_endDeviceReset {L : Nat} {s u : State} (h : Keeps L s u) (hm : 0x42B001085 &&& L = 0x42B001085) {a1} : Keeps L s (State.endDeviceReset u a1) := by
  refine h.step (m := 0x42B001085) ?_ hm
  unfold State.endDeviceReset
  repeat' first
  | with_reducible assumption
  | with_reducible exact Keeps.refl _ _
  | (extract_lets +onlyGivenNames x; refine Keeps.cut x ?_ (fun hx => ?_); rotate_left; rename State => z; rotate_right; unfold x; clear x)
  | (extract_lets +onlyGivenNames x; revert x; intro y)
  | (with_reducible refine keeps_eventAt ?_ ?_ ..; rotate_left; (first | rfl | decide))
  | (with_reducible refine keeps_dropReset ?_ ?_ ..; rotate_left; (first | rfl | decide))
  | (with_reducible refine keeps_updCtx ?_ ?_ ..; rotate_left; (first | rfl | decide))
  | (with_reducible refine Keeps.put ?_ ?_ ?_; rotate_left; (first | rfl | decide); (first | rfl | decide))
  | (with_reducible refine keeps_rates ?_ ?_ ..; rotate_left; (first | rfl | decide))
  | (with_reducible refine keeps_oosNext ?_ ?_ ..; rotate_left; (first | rfl | decide))
  | (with_reducible refine keeps_showRecords ?_ ?_ ..; rotate_left; (first | rfl | decide))
  | (with_reducible refine keeps_rebaseAll ?_ ?_ ..; rotate_left; (first | rfl | decide))
  | with_reducible refine Keeps.foldl ?_ (fun v e => ?_)
  | with_reducible refine Keeps.ite ?_ ?_
  | split
  | exact Keeps.upd (by with_reducible assumption)
  | exact Keeps.upd (Keeps.refl _ _)
  | (clear_value *; split)

theorem keeps_loseRecord {L : Nat} {s u : State} (h : Keeps L s u) (hm : 0x22C000024 &&& L = 0x22C000024) {a1} : Keeps L s (State.loseRecord u a1) := by
  refine h.step (m := 0x22C000024) ?_ hm
  unfold State.loseRecord
  repeat' first
  | with_reducible assumption
  | with_reducible exact Keeps.refl _ _
  | (extract_lets +onlyGivenNames x; refine Keeps.cut x ?_ (fun hx => ?_); rotate_left; rename State => z; rotate_right; unfold x; clear x)
  | (extract_lets +onlyGivenNames x; revert x; intro y)
  | (with_reducible refine keeps_updBatt ?_ ?_ ..; rotate_left; (first | rfl | decide))
  | (with_reducible refine Keeps.put ?_ ?_ ?_; rotate_left; (first | rfl | decide); (first | rfl | decide))
  | with_reducible refine Keeps.foldl ?_ (fun v e => ?_)
  | with_reducible refine Keeps.ite ?_ ?_
  | split
  | exact Keeps.upd (by with_reducible assumption)
  | exact Keeps.upd (Keeps.refl _ _)
  | (clear_value *; split)

theorem keeps_readFlash {L : Nat} {s u : State} (h : Keeps L s u) (hm : 0xFAD0002A4 &&& L = 0xFAD0002A4) {a1} : Keeps L s (State.readFlash u a1) := by
  refine h.step (m := 0xFAD0002A4) ?_ hm
  unfold State.readFlash
  repeat' first
  | with_reducible assumption
  | with_reducible exact Keeps.refl _ _
  | (extract_lets +onlyGivenNames x; refine Keeps.cut x ?_ (fun hx => ?_); rotate_left; rename State => z; rotate_right; unfold x; clear x)
  | (extract_lets +onlyGivenNames x; revert x; intro y)
  | (with_reducible refine keeps_loseRecord ?_ ?_ ..; rotate_left; (first | rfl | decide))
  | (with_reducible refine Keeps.put ?_ ?_ ?_; rotate_left; (first | rfl | decide); (first | rfl | decide))
  | (with_reducible refine keeps_deriveKeys ?_ ?_ ..; rotate_left; (first | rfl | decide))
  | (with_reducible refine keeps_sigRegs ?_ ?_ ..; rotate_left; (first | rfl | decide))
  | (with_reducible refine keeps_fuseRegs ?_ ?_ ..; rotate_left; (first | rfl | decide))
  | (with_reducible refine keeps_debugClose ?_ ?_ ..; rotate_left; (first | rfl | decide))
  | (with_reducible refine keeps_putSealed ?_ ?_ ..; rotate_left; (first | rfl | decide))
  | with_reducible refine Keeps.foldl ?_ (fun v e => ?_)
  | with_reducible refine Keeps.ite ?_ ?_
  | split
  | exact Keeps.upd (by with_reducible assumption)
  | exact Keeps.upd (Keeps.refl _ _)
  | (clear_value *; split)

theorem keeps_wake {L : Nat} {s u : State} (h : Keeps L s u) (hm : 0xFFFFFFFFF &&& L = 0xFFFFFFFFF) {a1} : Keeps L s (State.wake u a1) := by
  refine h.step (m := 0xFFFFFFFFF) ?_ hm
  unfold State.wake
  repeat' first
  | with_reducible assumption
  | with_reducible exact Keeps.refl _ _
  | (extract_lets +onlyGivenNames x; refine Keeps.cut x ?_ (fun hx => ?_); rotate_left; rename State => z; rotate_right; unfold x; clear x)
  | (extract_lets +onlyGivenNames x; revert x; intro y)
  | (with_reducible refine keeps_readFlash ?_ ?_ ..; rotate_left; (first | rfl | decide))
  | (with_reducible refine keeps_cold ?_ ?_ ..; rotate_left; (first | rfl | decide))
  | with_reducible refine Keeps.foldl ?_ (fun v e => ?_)
  | with_reducible refine Keeps.ite ?_ ?_
  | split
  | exact Keeps.upd (by with_reducible assumption)
  | exact Keeps.upd (Keeps.refl _ _)
  | (clear_value *; split)

theorem keeps_restart {L : Nat} {s u : State} (h : Keeps L s u) (hm : 0xFFFFFFFFF &&& L = 0xFFFFFFFFF) {a1} : Keeps L s (State.restart u a1) := by
  refine h.step (m := 0xFFFFFFFFF) ?_ hm
  unfold State.restart
  repeat' first
  | with_reducible assumption
  | with_reducible exact Keeps.refl _ _
  | (extract_lets +onlyGivenNames x; refine Keeps.cut x ?_ (fun hx => ?_); rotate_left; rename State => z; rotate_right; unfold x; clear x)
  | (extract_lets +onlyGivenNames x; revert x; intro y)
  | (with_reducible refine keeps_boot ?_ ?_ ..; rotate_left; (first | rfl | decide))
  | (with_reducible refine keeps_wake ?_ ?_ ..; rotate_left; (first | rfl | decide))
  | with_reducible refine Keeps.foldl ?_ (fun v e => ?_)
  | with_reducible refine Keeps.ite ?_ ?_
  | split
  | exact Keeps.upd (by with_reducible assumption)
  | exact Keeps.upd (Keeps.refl _ _)
  | (clear_value *; split)

theorem keeps_restartImage {L : Nat} {s u : State} (h : Keeps L s u) (hm : 0xF7F16F7BF &&& L = 0xF7F16F7BF) {a1} : Keeps L s (State.restartImage u a1) := by
  refine h.step (m := 0xF7F16F7BF) ?_ hm
  unfold State.restartImage
  repeat' first
  | with_reducible assumption
  | with_reducible exact Keeps.refl _ _
  | (extract_lets +onlyGivenNames x; refine Keeps.cut x ?_ (fun hx => ?_); rotate_left; rename State => z; rotate_right; unfold x; clear x)
  | (extract_lets +onlyGivenNames x; revert x; intro y)
  | (with_reducible refine keeps_endDeviceReset ?_ ?_ ..; rotate_left; (first | rfl | decide))
  | (with_reducible refine Keeps.setCtx ?_ ?_; rotate_left; (first | rfl | decide))
  | (with_reducible refine Keeps.put ?_ ?_ ?_; rotate_left; (first | rfl | decide); (first | rfl | decide))
  | (with_reducible refine keeps_boot ?_ ?_ ..; rotate_left; (first | rfl | decide))
  | with_reducible refine Keeps.foldl ?_ (fun v e => ?_)
  | with_reducible refine Keeps.ite ?_ ?_
  | split
  | exact Keeps.upd (by with_reducible assumption)
  | exact Keeps.upd (Keeps.refl _ _)
  | (clear_value *; split)

theorem keeps_execDeviceResetComplete (a0 a1 u) : KeepsO 0xF7F16F7BF u (execDeviceResetComplete a0 a1 u) := by
  unfold execDeviceResetComplete
  repeat' first
  | with_reducible assumption
  | with_reducible exact Keeps.refl _ _
  | with_reducible refine KeepsO.next ?_
  | with_reducible exact KeepsO.fault _
  | (extract_lets +onlyGivenNames x; refine Keeps.cut x ?_ (fun hx => ?_); rotate_left; rename State => z; rotate_right; unfold x; clear x)
  | (extract_lets +onlyGivenNames x; refine KeepsO.cut x ?_ (fun hx => ?_); rotate_left; rename State => z; rotate_right; unfold x; clear x)
  | (extract_lets +onlyGivenNames x; revert x; intro y)
  | (with_reducible refine keeps_restartImage ?_ ?_ ..; rotate_left; (first | rfl | decide))
  | (with_reducible refine keeps_endDeviceReset ?_ ?_ ..; rotate_left; (first | rfl | decide))
  | (with_reducible refine keeps_dropReset ?_ ?_ ..; rotate_left; (first | rfl | decide))
  | with_reducible refine Keeps.foldl ?_ (fun v e => ?_)
  | with_reducible refine Keeps.ite ?_ ?_
  | with_reducible refine KeepsO.ite ?_ ?_
  | split
  | exact Keeps.upd (by with_reducible assumption)
  | exact Keeps.upd (Keeps.refl _ _)
  | (clear_value *; split)

theorem keeps_execManagementReset (a0 u) : KeepsO 0xFFFFFFFFF u (execManagementReset a0 u) := by
  unfold execManagementReset
  repeat' first
  | with_reducible assumption
  | with_reducible exact Keeps.refl _ _
  | with_reducible refine KeepsO.next ?_
  | with_reducible exact KeepsO.fault _
  | (extract_lets +onlyGivenNames x; refine Keeps.cut x ?_ (fun hx => ?_); rotate_left; rename State => z; rotate_right; unfold x; clear x)
  | (extract_lets +onlyGivenNames x; refine KeepsO.cut x ?_ (fun hx => ?_); rotate_left; rename State => z; rotate_right; unfold x; clear x)
  | (extract_lets +onlyGivenNames x; revert x; intro y)
  | (with_reducible refine keeps_restart ?_ ?_ ..; rotate_left; (first | rfl | decide))
  | with_reducible refine Keeps.foldl ?_ (fun v e => ?_)
  | with_reducible refine Keeps.ite ?_ ?_
  | with_reducible refine KeepsO.ite ?_ ?_
  | split
  | exact Keeps.upd (by with_reducible assumption)
  | exact Keeps.upd (Keeps.refl _ _)
  | (clear_value *; split)

theorem keeps_execEnableClose (a0 a1 u) : KeepsO 0xFFFFFFFFF u (execEnableClose a0 a1 u) := by
  unfold execEnableClose
  repeat' first
  | with_reducible assumption
  | with_reducible exact Keeps.refl _ _
  | with_reducible refine KeepsO.next ?_
  | with_reducible exact KeepsO.fault _
  | (extract_lets +onlyGivenNames x; refine Keeps.cut x ?_ (fun hx => ?_); rotate_left; rename State => z; rotate_right; unfold x; clear x)
  | (extract_lets +onlyGivenNames x; refine KeepsO.cut x ?_ (fun hx => ?_); rotate_left; rename State => z; rotate_right; unfold x; clear x)
  | (extract_lets +onlyGivenNames x; revert x; intro y)
  | (with_reducible refine keeps_restart ?_ ?_ ..; rotate_left; (first | rfl | decide))
  | with_reducible refine Keeps.foldl ?_ (fun v e => ?_)
  | with_reducible refine Keeps.ite ?_ ?_
  | with_reducible refine KeepsO.ite ?_ ?_
  | split
  | exact Keeps.upd (by with_reducible assumption)
  | exact Keeps.upd (Keeps.refl _ _)
  | (clear_value *; split)

theorem keeps_execStartThreshold (a0 a1 u) : KeepsO 0xFFFFFFFFF u (execStartThreshold a0 a1 u) := by
  unfold execStartThreshold
  repeat' first
  | with_reducible assumption
  | with_reducible exact Keeps.refl _ _
  | with_reducible refine KeepsO.next ?_
  | with_reducible exact KeepsO.fault _
  | (extract_lets +onlyGivenNames x; refine Keeps.cut x ?_ (fun hx => ?_); rotate_left; rename State => z; rotate_right; unfold x; clear x)
  | (extract_lets +onlyGivenNames x; refine KeepsO.cut x ?_ (fun hx => ?_); rotate_left; rename State => z; rotate_right; unfold x; clear x)
  | (extract_lets +onlyGivenNames x; revert x; intro y)
  | (with_reducible refine keeps_restart ?_ ?_ ..; rotate_left; (first | rfl | decide))
  | with_reducible refine Keeps.foldl ?_ (fun v e => ?_)
  | with_reducible refine Keeps.ite ?_ ?_
  | with_reducible refine KeepsO.ite ?_ ?_
  | split
  | exact Keeps.upd (by with_reducible assumption)
  | exact Keeps.upd (Keeps.refl _ _)
  | (clear_value *; split)

end Sys2Proof.Machine
end

