-- ==== Sys2Proof/Laws/KeepsMgmtWrite.lean ====
section
/-!
SUPPORT. Laws/KeepsMgmtWrite.lean: what each operation of Machine/MgmtWrite.lean leaves as it was (Laws/Keeps.lean).
-/
namespace Sys2Proof.Machine
set_option Elab.async false
set_option linter.unusedTactic false
set_option linter.unreachableTactic false

theorem keeps_applyCalCtrl {L : Nat} {s u : State} (h : Keeps L s u) (hm : 0x840DFFFF &&& L = 0x840DFFFF) {a1 a2} : Keeps L s (State.applyCalCtrl u a1 a2) := by
  refine h.step (m := 0x840DFFFF) ?_ hm
  unfold State.applyCalCtrl
  repeat' first
  | with_reducible assumption
  | with_reducible exact Keeps.refl _ _
  | (extract_lets +onlyGivenNames x; refine Keeps.cut x ?_ (fun hx => ?_); rotate_left; rename State => z; rotate_right; unfold x; clear x)
  | (extract_lets +onlyGivenNames x; revert x; intro y)
  | (with_reducible refine keeps_applyEntry ?_ ?_ ..; rotate_left; (first | rfl | decide))
  | (with_reducible refine keeps_calStart ?_ ?_ ..; rotate_left; (first | rfl | decide))
  | with_reducible refine Keeps.foldl ?_ (fun v e => ?_)
  | with_reducible refine Keeps.ite ?_ ?_
  | split
  | exact Keeps.upd (by with_reducible assumption)
  | exact Keeps.upd (Keeps.refl _ _)
  | (clear_value *; split)

theorem keeps_applyCtxEntry {L : Nat} {s u : State} (h : Keeps L s u) (hm : 0xC238DFFFF &&& L = 0xC238DFFFF) {a1 a2} : Keeps L s (State.applyCtxEntry u a1 a2) := by
  refine h.step (m := 0xC238DFFFF) ?_ hm
  unfold State.applyCtxEntry
  repeat' first
  | with_reducible assumption
  | with_reducible exact Keeps.refl _ _
  | (extract_lets +onlyGivenNames x; refine Keeps.cut x ?_ (fun hx => ?_); rotate_left; rename State => z; rotate_right; unfold x; clear x)
  | (extract_lets +onlyGivenNames x; revert x; intro y)
  | (with_reducible refine keeps_applyEntry ?_ ?_ ..; rotate_left; (first | rfl | decide))
  | (with_reducible refine keeps_command ?_ ?_ ..; rotate_left; (first | rfl | decide))
  | (with_reducible refine keeps_pauseTo ?_ ?_ ..; rotate_left; (first | rfl | decide))
  | (with_reducible refine keeps_restoreCommand ?_ ?_ ..; rotate_left; (first | rfl | decide))
  | with_reducible refine Keeps.foldl ?_ (fun v e => ?_)
  | with_reducible refine Keeps.ite ?_ ?_
  | split
  | exact Keeps.upd (by with_reducible assumption)
  | exact Keeps.upd (Keeps.refl _ _)
  | (clear_value *; split)

theorem keeps_applyDbgCtrl {L : Nat} {s u : State} (h : Keeps L s u) (hm : 0xD2109FFFF &&& L = 0xD2109FFFF) {a1 a2} : Keeps L s (State.applyDbgCtrl u a1 a2) := by
  refine h.step (m := 0xD2109FFFF) ?_ hm
  unfold State.applyDbgCtrl
  repeat' first
  | with_reducible assumption
  | with_reducible exact Keeps.refl _ _
  | (extract_lets +onlyGivenNames x; refine Keeps.cut x ?_ (fun hx => ?_); rotate_left; rename State => z; rotate_right; unfold x; clear x)
  | (extract_lets +onlyGivenNames x; revert x; intro y)
  | (with_reducible refine keeps_applyEntry ?_ ?_ ..; rotate_left; (first | rfl | decide))
  | (with_reducible refine keeps_openDebug ?_ ?_ ..; rotate_left; (first | rfl | decide))
  | (with_reducible refine keeps_debugClose ?_ ?_ ..; rotate_left; (first | rfl | decide))
  | with_reducible refine Keeps.foldl ?_ (fun v e => ?_)
  | with_reducible refine Keeps.ite ?_ ?_
  | split
  | exact Keeps.upd (by with_reducible assumption)
  | exact Keeps.upd (Keeps.refl _ _)
  | (clear_value *; split)

theorem keeps_applyImgCtrl {L : Nat} {s u : State} (h : Keeps L s u) (hm : 0x2000DFFFF &&& L = 0x2000DFFFF) {a1} : Keeps L s (State.applyImgCtrl u a1) := by
  refine h.step (m := 0x2000DFFFF) ?_ hm
  unfold State.applyImgCtrl
  repeat' first
  | with_reducible assumption
  | with_reducible exact Keeps.refl _ _
  | (extract_lets +onlyGivenNames x; refine Keeps.cut x ?_ (fun hx => ?_); rotate_left; rename State => z; rotate_right; unfold x; clear x)
  | (extract_lets +onlyGivenNames x; revert x; intro y)
  | (with_reducible refine keeps_applyEntry ?_ ?_ ..; rotate_left; (first | rfl | decide))
  | (with_reducible refine keeps_eraseSlot ?_ ?_ ..; rotate_left; (first | rfl | decide))
  | (with_reducible refine keeps_sealSlot ?_ ?_ ..; rotate_left; (first | rfl | decide))
  | with_reducible refine Keeps.foldl ?_ (fun v e => ?_)
  | with_reducible refine Keeps.ite ?_ ?_
  | split
  | exact Keeps.upd (by with_reducible assumption)
  | exact Keeps.upd (Keeps.refl _ _)
  | (clear_value *; split)

theorem keeps_applySecCtrl {L : Nat} {s u : State} (h : Keeps L s u) (hm : 0x100000020 &&& L = 0x100000020) {a1 a2} : Keeps L s (State.applySecCtrl u a1 a2) := by
  refine h.step (m := 0x100000020) ?_ hm
  unfold State.applySecCtrl
  repeat' first
  | with_reducible assumption
  | with_reducible exact Keeps.refl _ _
  | (extract_lets +onlyGivenNames x; refine Keeps.cut x ?_ (fun hx => ?_); rotate_left; rename State => z; rotate_right; unfold x; clear x)
  | (extract_lets +onlyGivenNames x; revert x; intro y)
  | (with_reducible refine keeps_askQuote ?_ ?_ ..; rotate_left; (first | rfl | decide))
  | (with_reducible refine keeps_svnCommit ?_ ?_ ..; rotate_left; (first | rfl | decide))
  | (with_reducible refine keeps_askBlow ?_ ?_ ..; rotate_left; (first | rfl | decide))
  | with_reducible refine Keeps.foldl ?_ (fun v e => ?_)
  | with_reducible refine Keeps.ite ?_ ?_
  | split
  | exact Keeps.upd (by with_reducible assumption)
  | exact Keeps.upd (Keeps.refl _ _)
  | (clear_value *; split)

theorem keeps_applyMgmt {L : Nat} {s u : State} (h : Keeps L s u) (hm : 0xFA78DFFFF &&& L = 0xFA78DFFFF) {a0 a1} : Keeps L s (State.applyMgmt a0 a1 u) := by
  refine h.step (m := 0xFA78DFFFF) ?_ hm
  unfold State.applyMgmt
  repeat' first
  | with_reducible assumption
  | with_reducible exact Keeps.refl _ _
  | (extract_lets +onlyGivenNames x; refine Keeps.cut x ?_ (fun hx => ?_); rotate_left; rename State => z; rotate_right; unfold x; clear x)
  | (extract_lets +onlyGivenNames x; revert x; intro y)
  | (with_reducible refine keeps_applyHsess ?_ ?_ ..; rotate_left; (first | rfl | decide))
  | (with_reducible refine keeps_applyCtxEntry ?_ ?_ ..; rotate_left; (first | rfl | decide))
  | (with_reducible refine keeps_program ?_ ?_ ..; rotate_left; (first | rfl | decide))
  | (with_reducible refine keeps_applySecCtrl ?_ ?_ ..; rotate_left; (first | rfl | decide))
  | (with_reducible refine keeps_raiseEpoch ?_ ?_ ..; rotate_left; (first | rfl | decide))
  | (with_reducible refine keeps_applyImgCtrl ?_ ?_ ..; rotate_left; (first | rfl | decide))
  | (with_reducible refine keeps_applyCalCtrl ?_ ?_ ..; rotate_left; (first | rfl | decide))
  | (with_reducible refine keeps_applyDbgCtrl ?_ ?_ ..; rotate_left; (first | rfl | decide))
  | (with_reducible refine keeps_askReset ?_ ?_ ..; rotate_left; (first | rfl | decide))
  | (with_reducible refine keeps_oosNext ?_ ?_ ..; rotate_left; (first | rfl | decide))
  | (with_reducible refine keeps_retrain ?_ ?_ ..; rotate_left; (first | rfl | decide))
  | (with_reducible refine keeps_unfence ?_ ?_ ..; rotate_left; (first | rfl | decide))
  | (with_reducible refine keeps_install_ ?_ ?_ ..; rotate_left; (first | rfl | decide))
  | (with_reducible refine keeps_applyEntry ?_ ?_ ..; rotate_left; (first | rfl | decide))
  | with_reducible refine Keeps.foldl ?_ (fun v e => ?_)
  | with_reducible refine Keeps.ite ?_ ?_
  | split
  | exact Keeps.upd (by with_reducible assumption)
  | exact Keeps.upd (Keeps.refl _ _)
  | (clear_value *; split)

theorem keeps_execMgmtWrite (a0 a1 u) : KeepsO 0xFA78DFFFF u (execMgmtWrite a0 a1 u) := by
  unfold execMgmtWrite
  repeat' first
  | with_reducible assumption
  | with_reducible exact Keeps.refl _ _
  | with_reducible refine KeepsO.next ?_
  | with_reducible exact KeepsO.fault _
  | (extract_lets +onlyGivenNames x; refine Keeps.cut x ?_ (fun hx => ?_); rotate_left; rename State => z; rotate_right; unfold x; clear x)
  | (extract_lets +onlyGivenNames x; refine KeepsO.cut x ?_ (fun hx => ?_); rotate_left; rename State => z; rotate_right; unfold x; clear x)
  | (extract_lets +onlyGivenNames x; revert x; intro y)
  | (with_reducible refine keeps_writeRequest ?_ ?_ (fun e v => ?_); rotate_left; (first | rfl | decide); rotate_right)
  | (with_reducible refine keeps_applyMgmt ?_ ?_ ..; rotate_left; (first | rfl | decide))
  | with_reducible refine Keeps.foldl ?_ (fun v e => ?_)
  | with_reducible refine Keeps.ite ?_ ?_
  | with_reducible refine KeepsO.ite ?_ ?_
  | split
  | exact Keeps.upd (by with_reducible assumption)
  | exact Keeps.upd (Keeps.refl _ _)
  | (clear_value *; split)

end Sys2Proof.Machine
end

