-- ==== Sys2Proof/Laws/KeepsTick.lean ====
section
/-!
SUPPORT. Laws/KeepsTick.lean: what each operation of Machine/Tick.lean leaves as it was (Laws/Keeps.lean).
-/
namespace Sys2Proof.Machine
set_option Elab.async false
set_option linter.unusedTactic false
set_option linter.unreachableTactic false

theorem keeps_actTick {L : Nat} {s u : State} (h : Keeps L s u) (hm : 0xCFF94359D &&& L = 0xCFF94359D)  : Keeps L s (State.actTick u) := by
  refine h.step (m := 0xCFF94359D) ?_ hm
  unfold State.actTick
  repeat' first
  | with_reducible assumption
  | with_reducible exact Keeps.refl _ _
  | (extract_lets +onlyGivenNames x; refine Keeps.cut x ?_ (fun hx => ?_); rotate_left; rename State => z; rotate_right; unfold x; clear x)
  | (extract_lets +onlyGivenNames x; revert x; intro y)
  | (with_reducible refine keeps_systemTick ?_ ?_ ..; rotate_left; (first | rfl | decide))
  | (with_reducible refine keeps_ownerResetTick ?_ ?_ ..; rotate_left; (first | rfl | decide))
  | (with_reducible refine keeps_thermalTick ?_ ?_ ..; rotate_left; (first | rfl | decide))
  | (with_reducible refine keeps_linkCtrlTick ?_ ?_ ..; rotate_left; (first | rfl | decide))
  | with_reducible refine Keeps.foldl ?_ (fun v e => ?_)
  | with_reducible refine Keeps.ite ?_ ?_
  | split
  | exact Keeps.upd (by with_reducible assumption)
  | exact Keeps.upd (Keeps.refl _ _)
  | (clear_value *; split)

theorem keeps_advance {L : Nat} {s u : State} (h : Keeps L s u) (hm : 0x10E00101 &&& L = 0x10E00101)  : Keeps L s (State.advance u) := by
  refine h.step (m := 0x10E00101) ?_ hm
  unfold State.advance
  repeat' first
  | with_reducible assumption
  | with_reducible exact Keeps.refl _ _
  | (extract_lets +onlyGivenNames x; refine Keeps.cut x ?_ (fun hx => ?_); rotate_left; rename State => z; rotate_right; unfold x; clear x)
  | (extract_lets +onlyGivenNames x; revert x; intro y)
  | (with_reducible refine keeps_setUnaligned ?_ ?_ ..; rotate_left; (first | rfl | decide))
  | with_reducible refine Keeps.foldl ?_ (fun v e => ?_)
  | with_reducible refine Keeps.ite ?_ ?_
  | split
  | exact Keeps.upd (by with_reducible assumption)
  | exact Keeps.upd (Keeps.refl _ _)
  | (clear_value *; split)

theorem keeps_ageRegs {L : Nat} {s u : State} (h : Keeps L s u) (hm : 0x1409 &&& L = 0x1409) {a1} : Keeps L s (State.ageRegs u a1) := by
  refine h.step (m := 0x1409) ?_ hm
  unfold State.ageRegs
  repeat' first
  | with_reducible assumption
  | with_reducible exact Keeps.refl _ _
  | (extract_lets +onlyGivenNames x; refine Keeps.cut x ?_ (fun hx => ?_); rotate_left; rename State => z; rotate_right; unfold x; clear x)
  | (extract_lets +onlyGivenNames x; revert x; intro y)
  | (with_reducible refine Keeps.put ?_ ?_ ?_; rotate_left; (first | rfl | decide); (first | rfl | decide))
  | (with_reducible refine Keeps.bumpSat ?_ ?_ ?_; rotate_left; (first | rfl | decide); (first | rfl | decide))
  | with_reducible refine Keeps.foldl ?_ (fun v e => ?_)
  | with_reducible refine Keeps.ite ?_ ?_
  | split
  | exact Keeps.upd (by with_reducible assumption)
  | exact Keeps.upd (Keeps.refl _ _)
  | (clear_value *; split)

theorem keeps_answerQueries {L : Nat} {s u : State} (h : Keeps L s u) (hm : 0x800000 &&& L = 0x800000) {a1} : Keeps L s (State.answerQueries u a1) := by
  refine h.step (m := 0x800000) ?_ hm
  unfold State.answerQueries
  repeat' first
  | with_reducible assumption
  | with_reducible exact Keeps.refl _ _
  | (extract_lets +onlyGivenNames x; refine Keeps.cut x ?_ (fun hx => ?_); rotate_left; rename State => z; rotate_right; unfold x; clear x)
  | (extract_lets +onlyGivenNames x; revert x; intro y)
  | (with_reducible refine keeps_holdResult ?_ ?_ ..; rotate_left; (first | rfl | decide))
  | with_reducible refine Keeps.foldl ?_ (fun v e => ?_)
  | with_reducible refine Keeps.ite ?_ ?_
  | split
  | exact Keeps.upd (by with_reducible assumption)
  | exact Keeps.upd (Keeps.refl _ _)
  | (clear_value *; split)

theorem keeps_asClosing {L : Nat} {s u : State} (h : Keeps L s u) (_hm : 0x0 &&& L = 0x0) {f : State → State}
    (hf : ∀ v, Keeps L v (f v)) : Keeps L s (u.asClosing f) :=
  h.trans (Keeps.atFrame (hf _))

theorem keeps_bandTick {L : Nat} {s u : State} (h : Keeps L s u) (hm : 0x100000 &&& L = 0x100000) {a1} : Keeps L s (State.bandTick u a1) := by
  refine h.step (m := 0x100000) ?_ hm
  unfold State.bandTick
  repeat' first
  | with_reducible assumption
  | with_reducible exact Keeps.refl _ _
  | (extract_lets +onlyGivenNames x; refine Keeps.cut x ?_ (fun hx => ?_); rotate_left; rename State => z; rotate_right; unfold x; clear x)
  | (extract_lets +onlyGivenNames x; revert x; intro y)
  | (with_reducible refine Keeps.setBytes ?_ ?_; rotate_left; (first | rfl | decide))
  | with_reducible refine Keeps.foldl ?_ (fun v e => ?_)
  | with_reducible refine Keeps.ite ?_ ?_
  | split
  | exact Keeps.upd (by with_reducible assumption)
  | exact Keeps.upd (Keeps.refl _ _)
  | (clear_value *; split)

theorem keeps_chargeVtime {L : Nat} {s u : State} (h : Keeps L s u) (hm : 0x2000000 &&& L = 0x2000000)  : Keeps L s (State.chargeVtime u) := by
  refine h.step (m := 0x2000000) ?_ hm
  unfold State.chargeVtime
  repeat' first
  | with_reducible assumption
  | with_reducible exact Keeps.refl _ _
  | (extract_lets +onlyGivenNames x; refine Keeps.cut x ?_ (fun hx => ?_); rotate_left; rename State => z; rotate_right; unfold x; clear x)
  | (extract_lets +onlyGivenNames x; revert x; intro y)
  | (with_reducible refine keeps_updCtx ?_ ?_ ..; rotate_left; (first | rfl | decide))
  | with_reducible refine Keeps.foldl ?_ (fun v e => ?_)
  | with_reducible refine Keeps.ite ?_ ?_
  | split
  | exact Keeps.upd (by with_reducible assumption)
  | exact Keeps.upd (Keeps.refl _ _)
  | (clear_value *; split)

theorem keeps_clearBits {L : Nat} {s u : State} (h : Keeps L s u) (hm : 0x400DFFFF &&& L = 0x400DFFFF)  : Keeps L s (State.clearBits u) := by
  refine h.step (m := 0x400DFFFF) ?_ hm
  unfold State.clearBits
  repeat' first
  | with_reducible assumption
  | with_reducible exact Keeps.refl _ _
  | (extract_lets +onlyGivenNames x; refine Keeps.cut x ?_ (fun hx => ?_); rotate_left; rename State => z; rotate_right; unfold x; clear x)
  | (extract_lets +onlyGivenNames x; revert x; intro y)
  | (with_reducible refine Keeps.setReg ?_ ?_; rotate_left; (first | rfl | decide | exact testBit_blocks (by decide)))
  | (with_reducible refine Keeps.put ?_ ?_ ?_; rotate_left; (first | rfl | decide); (first | rfl | decide))
  | with_reducible refine Keeps.foldl ?_ (fun v e => ?_)
  | with_reducible refine Keeps.ite ?_ ?_
  | split
  | exact Keeps.upd (by with_reducible assumption)
  | exact Keeps.upd (Keeps.refl _ _)
  | (clear_value *; split)

theorem keeps_keepPlan {L : Nat} {s u : State} (h : Keeps L s u) (hm : 0x800000 &&& L = 0x800000)  : Keeps L s (State.keepPlan u) := by
  refine h.step (m := 0x800000) ?_ hm
  unfold State.keepPlan
  repeat' first
  | with_reducible assumption
  | with_reducible exact Keeps.refl _ _
  | (extract_lets +onlyGivenNames x; refine Keeps.cut x ?_ (fun hx => ?_); rotate_left; rename State => z; rotate_right; unfold x; clear x)
  | (extract_lets +onlyGivenNames x; revert x; intro y)
  | with_reducible refine Keeps.foldl ?_ (fun v e => ?_)
  | with_reducible refine Keeps.ite ?_ ?_
  | split
  | exact Keeps.upd (by with_reducible assumption)
  | exact Keeps.upd (Keeps.refl _ _)
  | (clear_value *; split)

theorem keeps_layerTick {L : Nat} {s u : State} (h : Keeps L s u) (hm : 0xC27143084 &&& L = 0xC27143084) {a1} : Keeps L s (State.layerTick u a1) := by
  refine h.step (m := 0xC27143084) ?_ hm
  unfold State.layerTick
  repeat' first
  | with_reducible assumption
  | with_reducible exact Keeps.refl _ _
  | (extract_lets +onlyGivenNames x; refine Keeps.cut x ?_ (fun hx => ?_); rotate_left; rename State => z; rotate_right; unfold x; clear x)
  | (extract_lets +onlyGivenNames x; revert x; intro y)
  | (with_reducible refine keeps_updLayer ?_ ?_ ..; rotate_left; (first | rfl | decide))
  | (with_reducible refine keeps_joinStatic ?_ ?_ ..; rotate_left; (first | rfl | decide))
  | (with_reducible refine keeps_escalate ?_ ?_ ..; rotate_left; (first | rfl | decide))
  | (with_reducible refine keeps_updCtx ?_ ?_ ..; rotate_left; (first | rfl | decide))
  | with_reducible refine Keeps.foldl ?_ (fun v e => ?_)
  | with_reducible refine Keeps.ite ?_ ?_
  | split
  | exact Keeps.upd (by with_reducible assumption)
  | exact Keeps.upd (Keeps.refl _ _)
  | (clear_value *; split)

theorem keeps_countEcc {L : Nat} {s u : State} (h : Keeps L s u) (hm : 0x40400 &&& L = 0x40400) {a1 a2} : Keeps L s (State.countEcc u a1 a2) := by
  refine h.step (m := 0x40400) ?_ hm
  unfold State.countEcc
  repeat' first
  | with_reducible assumption
  | with_reducible exact Keeps.refl _ _
  | (extract_lets +onlyGivenNames x; refine Keeps.cut x ?_ (fun hx => ?_); rotate_left; rename State => z; rotate_right; unfold x; clear x)
  | (extract_lets +onlyGivenNames x; revert x; intro y)
  | (with_reducible refine Keeps.raise ?_ ?_ ?_ ?_; rotate_left; (first | rfl | decide); (first | rfl | decide); (first | rfl | decide))
  | (with_reducible refine Keeps.bump ?_ ?_ ?_; rotate_left; (first | rfl | decide); (first | rfl | decide))
  | with_reducible refine Keeps.foldl ?_ (fun v e => ?_)
  | with_reducible refine Keeps.ite ?_ ?_
  | split
  | exact Keeps.upd (by with_reducible assumption)
  | exact Keeps.upd (Keeps.refl _ _)
  | (clear_value *; split)

theorem keeps_exportStep {L : Nat} {s u : State} (h : Keeps L s u) (hm : 0x800000 &&& L = 0x800000) {c x} :
    Keeps L s (u.exportStep c x).1 := by
  unfold State.exportStep
  extract_lets gen src y gap
  split
  · exact h
  · exact keeps_hold h (sub_trans (by decide) hm)

theorem keeps_exportTick {L : Nat} {s u : State} (h : Keeps L s u) (hm : 0x2800000 &&& L = 0x2800000) {c} : Keeps L s (u.exportTick c) := by
  refine h.step (m := 0x2800000) ?_ hm
  unfold State.exportTick
  refine Keeps.ite (Keeps.refl _ _) ?_
  have hs : ∀ (l : List ExportRun) (a : State × List ExportRun), Keeps 0x2800000 u a.1 →
      Keeps 0x2800000 u (l.foldl (fun (a : State × List ExportRun) x =>
        let y := a.1.exportStep c x
        (y.1, a.2 ++ [y.2])) a).1 := by
    intro l
    induction l with
    | nil => exact fun a ha => ha
    | cons x r ih =>
      intro a ha
      exact ih _ (keeps_exportStep ha (by decide))
  exact keeps_setExports (hs _ _ (Keeps.refl _ _)) (by decide)

theorem keeps_closeFrame {L : Nat} {s u : State} (h : Keeps L s u) (hm : 0xCFF9DFFFF &&& L = 0xCFF9DFFFF) {a1} : Keeps L s (State.closeFrame u a1) := by
  refine h.step (m := 0xCFF9DFFFF) ?_ hm
  unfold State.closeFrame
  repeat' first
  | with_reducible assumption
  | with_reducible exact Keeps.refl _ _
  | (extract_lets +onlyGivenNames x; refine Keeps.cut x ?_ (fun hx => ?_); rotate_left; rename State => z; rotate_right; unfold x; clear x)
  | (extract_lets +onlyGivenNames x; revert x; intro y)
  | (with_reducible refine keeps_settlePast ?_ ?_ ..; rotate_left; (first | rfl | decide))
  | (with_reducible refine keeps_chargeVtime ?_ ?_ ..; rotate_left; (first | rfl | decide))
  | (with_reducible refine keeps_keepPlan ?_ ?_ ..; rotate_left; (first | rfl | decide))
  | (with_reducible refine keeps_dropFrame ?_ ?_ ..; rotate_left; (first | rfl | decide))
  | (with_reducible refine keeps_answerQueries ?_ ?_ ..; rotate_left; (first | rfl | decide))
  | (with_reducible refine keeps_layerTick ?_ ?_ ..; rotate_left; (first | rfl | decide))
  | (with_reducible refine keeps_finishAbort ?_ ?_ ..; rotate_left; (first | rfl | decide))
  | (with_reducible refine keeps_commitRows ?_ ?_ ..; rotate_left; (first | rfl | decide))
  | (with_reducible refine keeps_runWorks ?_ ?_ ..; rotate_left; (first | rfl | decide))
  | (with_reducible refine keeps_countEcc ?_ ?_ ..; rotate_left; (first | rfl | decide))
  | (with_reducible refine keeps_exportTick ?_ ?_ ..; rotate_left; (first | rfl | decide))
  | (with_reducible refine keeps_commandEnd ?_ ?_ ..; rotate_left; (first | rfl | decide))
  | (with_reducible refine keeps_commitRecords ?_ ?_ ..; rotate_left; (first | rfl | decide))
  | (with_reducible refine keeps_clearBits ?_ ?_ ..; rotate_left; (first | rfl | decide))
  | (with_reducible refine keeps_calTick ?_ ?_ ..; rotate_left; (first | rfl | decide))
  | (with_reducible refine keeps_applySignals ?_ ?_ ..; rotate_left; (first | rfl | decide))
  | with_reducible refine Keeps.foldl ?_ (fun v e => ?_)
  | with_reducible refine Keeps.ite ?_ ?_
  | split
  | exact Keeps.upd (by with_reducible assumption)
  | exact Keeps.upd (Keeps.refl _ _)
  | (clear_value *; split)

theorem keeps_debugTick {L : Nat} {s u : State} (h : Keeps L s u) (hm : 0xD214000A4 &&& L = 0xD214000A4)  : Keeps L s (State.debugTick u) := by
  refine h.step (m := 0xD214000A4) ?_ hm
  unfold State.debugTick
  repeat' first
  | with_reducible assumption
  | with_reducible exact Keeps.refl _ _
  | (extract_lets +onlyGivenNames x; refine Keeps.cut x ?_ (fun hx => ?_); rotate_left; rename State => z; rotate_right; unfold x; clear x)
  | (extract_lets +onlyGivenNames x; revert x; intro y)
  | (with_reducible refine keeps_asClosing ?_ ?_ (fun v => ?_); rotate_left; (first | rfl | decide); rotate_right)
  | (with_reducible refine keeps_debugClose ?_ ?_ ..; rotate_left; (first | rfl | decide))
  | with_reducible refine Keeps.foldl ?_ (fun v e => ?_)
  | with_reducible refine Keeps.ite ?_ ?_
  | split
  | exact Keeps.upd (by with_reducible assumption)
  | exact Keeps.upd (Keeps.refl _ _)
  | (clear_value *; split)

theorem keeps_deferWork {L : Nat} {s u : State} (h : Keeps L s u) (hm : 0x20800000 &&& L = 0x20800000) {a1} : Keeps L s (State.deferWork u a1) := by
  refine h.step (m := 0x20800000) ?_ hm
  unfold State.deferWork
  repeat' first
  | with_reducible assumption
  | with_reducible exact Keeps.refl _ _
  | (extract_lets +onlyGivenNames x; refine Keeps.cut x ?_ (fun hx => ?_); rotate_left; rename State => z; rotate_right; unfold x; clear x)
  | (extract_lets +onlyGivenNames x; revert x; intro y)
  | with_reducible refine Keeps.foldl ?_ (fun v e => ?_)
  | with_reducible refine Keeps.ite ?_ ?_
  | split
  | exact Keeps.upd (by with_reducible assumption)
  | exact Keeps.upd (Keeps.refl _ _)
  | (clear_value *; split)

theorem keeps_openBatts {L : Nat} {s u : State} (h : Keeps L s u) (hm : 0x4000000 &&& L = 0x4000000)  : Keeps L s (State.openBatts u) := by
  refine h.step (m := 0x4000000) ?_ hm
  unfold State.openBatts
  repeat' first
  | with_reducible assumption
  | with_reducible exact Keeps.refl _ _
  | (extract_lets +onlyGivenNames x; refine Keeps.cut x ?_ (fun hx => ?_); rotate_left; rename State => z; rotate_right; unfold x; clear x)
  | (extract_lets +onlyGivenNames x; revert x; intro y)
  | with_reducible refine Keeps.foldl ?_ (fun v e => ?_)
  | with_reducible refine Keeps.ite ?_ ?_
  | split
  | exact Keeps.upd (by with_reducible assumption)
  | exact Keeps.upd (Keeps.refl _ _)
  | (clear_value *; split)

theorem keeps_scaleTick {L : Nat} {s u : State} (h : Keeps L s u) (hm : 0x100000 &&& L = 0x100000) {a1} : Keeps L s (State.scaleTick u a1) := by
  refine h.step (m := 0x100000) ?_ hm
  unfold State.scaleTick
  repeat' first
  | with_reducible assumption
  | with_reducible exact Keeps.refl _ _
  | (extract_lets +onlyGivenNames x; refine Keeps.cut x ?_ (fun hx => ?_); rotate_left; rename State => z; rotate_right; unfold x; clear x)
  | (extract_lets +onlyGivenNames x; revert x; intro y)
  | (with_reducible refine Keeps.setWords ?_ ?_; rotate_left; (first | rfl | decide))
  | with_reducible refine Keeps.foldl ?_ (fun v e => ?_)
  | with_reducible refine Keeps.ite ?_ ?_
  | split
  | exact Keeps.upd (by with_reducible assumption)
  | exact Keeps.upd (Keeps.refl _ _)
  | (clear_value *; split)

theorem keeps_openCtx {L : Nat} {s u : State} (h : Keeps L s u) (hm : 0x2103000 &&& L = 0x2103000) {a1} : Keeps L s (State.openCtx u a1) := by
  refine h.step (m := 0x2103000) ?_ hm
  unfold State.openCtx
  repeat' first
  | with_reducible assumption
  | with_reducible exact Keeps.refl _ _
  | (extract_lets +onlyGivenNames x; refine Keeps.cut x ?_ (fun hx => ?_); rotate_left; rename State => z; rotate_right; unfold x; clear x)
  | (extract_lets +onlyGivenNames x; revert x; intro y)
  | (with_reducible refine keeps_updCtx ?_ ?_ ..; rotate_left; (first | rfl | decide))
  | (with_reducible refine Keeps.put ?_ ?_ ?_; rotate_left; (first | rfl | decide); (first | rfl | decide))
  | (with_reducible refine keeps_bandTick ?_ ?_ ..; rotate_left; (first | rfl | decide))
  | (with_reducible refine keeps_scaleTick ?_ ?_ ..; rotate_left; (first | rfl | decide))
  | (with_reducible refine keeps_showDebt ?_ ?_ ..; rotate_left; (first | rfl | decide))
  | with_reducible refine Keeps.foldl ?_ (fun v e => ?_)
  | with_reducible refine Keeps.ite ?_ ?_
  | split
  | exact Keeps.upd (by with_reducible assumption)
  | exact Keeps.upd (Keeps.refl _ _)
  | (clear_value *; split)

theorem keeps_restartSessions {L : Nat} {s u : State} (h : Keeps L s u) (hm : 0x1004000 &&& L = 0x1004000)  : Keeps L s (State.restartSessions u) := by
  refine h.step (m := 0x1004000) ?_ hm
  unfold State.restartSessions
  repeat' first
  | with_reducible assumption
  | with_reducible exact Keeps.refl _ _
  | (extract_lets +onlyGivenNames x; refine Keeps.cut x ?_ (fun hx => ?_); rotate_left; rename State => z; rotate_right; unfold x; clear x)
  | (extract_lets +onlyGivenNames x; revert x; intro y)
  | (with_reducible refine keeps_updHost ?_ ?_ ..; rotate_left; (first | rfl | decide))
  | (with_reducible refine keeps_setAccepted ?_ ?_ ..; rotate_left; (first | rfl | decide))
  | with_reducible refine Keeps.foldl ?_ (fun v e => ?_)
  | with_reducible refine Keeps.ite ?_ ?_
  | split
  | exact Keeps.upd (by with_reducible assumption)
  | exact Keeps.upd (Keeps.refl _ _)
  | (clear_value *; split)

theorem keeps_ptpTick {L : Nat} {s u : State} (h : Keeps L s u) (hm : 0x1000000 &&& L = 0x1000000) {a1} : Keeps L s (State.ptpTick u a1) := by
  refine h.step (m := 0x1000000) ?_ hm
  unfold State.ptpTick
  repeat' first
  | with_reducible assumption
  | with_reducible exact Keeps.refl _ _
  | (extract_lets +onlyGivenNames x; refine Keeps.cut x ?_ (fun hx => ?_); rotate_left; rename State => z; rotate_right; unfold x; clear x)
  | (extract_lets +onlyGivenNames x; revert x; intro y)
  | with_reducible refine Keeps.foldl ?_ (fun v e => ?_)
  | with_reducible refine Keeps.ite ?_ ?_
  | split
  | exact Keeps.upd (by with_reducible assumption)
  | exact Keeps.upd (Keeps.refl _ _)
  | (clear_value *; split)

theorem keeps_openFrame {L : Nat} {s u : State} (h : Keeps L s u) (hm : 0xD2FD074ED &&& L = 0xD2FD074ED) {a1 a2} : Keeps L s (State.openFrame u a1 a2) := by
  refine h.step (m := 0xD2FD074ED) ?_ hm
  unfold State.openFrame
  repeat' first
  | with_reducible assumption
  | with_reducible exact Keeps.refl _ _
  | (extract_lets +onlyGivenNames x; refine Keeps.cut x ?_ (fun hx => ?_); rotate_left; rename State => z; rotate_right; unfold x; clear x)
  | (extract_lets +onlyGivenNames x; revert x; intro y)
  | (with_reducible refine keeps_debugTick ?_ ?_ ..; rotate_left; (first | rfl | decide))
  | (with_reducible refine keeps_ownershipTick ?_ ?_ ..; rotate_left; (first | rfl | decide))
  | (with_reducible refine keeps_restartSessions ?_ ?_ ..; rotate_left; (first | rfl | decide))
  | (with_reducible refine keeps_ptpTick ?_ ?_ ..; rotate_left; (first | rfl | decide))
  | (with_reducible refine keeps_openCtx ?_ ?_ ..; rotate_left; (first | rfl | decide))
  | (with_reducible refine keeps_latchCores ?_ ?_ ..; rotate_left; (first | rfl | decide))
  | (with_reducible refine keeps_ageRegs ?_ ?_ ..; rotate_left; (first | rfl | decide))
  | with_reducible refine Keeps.foldl ?_ (fun v e => ?_)
  | with_reducible refine Keeps.ite ?_ ?_
  | split
  | exact Keeps.upd (by with_reducible assumption)
  | exact Keeps.upd (Keeps.refl _ _)
  | (clear_value *; split)

theorem keeps_runningState {L : Nat} {s u : State} (h : Keeps L s u) (hm : 0x2000 &&& L = 0x2000) {a1} : Keeps L s (State.runningState u a1) := by
  refine h.step (m := 0x2000) ?_ hm
  unfold State.runningState
  repeat' first
  | with_reducible assumption
  | with_reducible exact Keeps.refl _ _
  | (extract_lets +onlyGivenNames x; refine Keeps.cut x ?_ (fun hx => ?_); rotate_left; rename State => z; rotate_right; unfold x; clear x)
  | (extract_lets +onlyGivenNames x; revert x; intro y)
  | (with_reducible refine keeps_enter ?_ ?_ ..; rotate_left; (first | rfl | decide))
  | with_reducible refine Keeps.foldl ?_ (fun v e => ?_)
  | with_reducible refine Keeps.ite ?_ ?_
  | split
  | exact Keeps.upd (by with_reducible assumption)
  | exact Keeps.upd (Keeps.refl _ _)
  | (clear_value *; split)

theorem keeps_setPlan {L : Nat} {s u : State} (h : Keeps L s u) (hm : 0x942802008 &&& L = 0x942802008) {a1 a2} : Keeps L s (State.setPlan u a1 a2) := by
  refine h.step (m := 0x942802008) ?_ hm
  unfold State.setPlan
  repeat' first
  | with_reducible assumption
  | with_reducible exact Keeps.refl _ _
  | (extract_lets +onlyGivenNames x; refine Keeps.cut x ?_ (fun hx => ?_); rotate_left; rename State => z; rotate_right; unfold x; clear x)
  | (extract_lets +onlyGivenNames x; revert x; intro y)
  | (with_reducible refine keeps_updCtx ?_ ?_ ..; rotate_left; (first | rfl | decide))
  | (with_reducible refine Keeps.put ?_ ?_ ?_; rotate_left; (first | rfl | decide); (first | rfl | decide))
  | (with_reducible refine keeps_schedTrace ?_ ?_ ..; rotate_left; (first | rfl | decide))
  | (with_reducible refine keeps_runningState ?_ ?_ ..; rotate_left; (first | rfl | decide))
  | (with_reducible refine keeps_notePast ?_ ?_ ..; rotate_left; (first | rfl | decide))
  | with_reducible refine Keeps.foldl ?_ (fun v e => ?_)
  | with_reducible refine Keeps.ite ?_ ?_
  | split
  | exact Keeps.upd (by with_reducible assumption)
  | exact Keeps.upd (Keeps.refl _ _)
  | (clear_value *; split)

theorem keeps_planFrame {L : Nat} {s u : State} (h : Keeps L s u) (hm : 0x966802008 &&& L = 0x966802008) {a1 a2} : Keeps L s (State.planFrame u a1 a2) := by
  refine h.step (m := 0x966802008) ?_ hm
  unfold State.planFrame
  repeat' first
  | with_reducible assumption
  | with_reducible exact Keeps.refl _ _
  | (extract_lets +onlyGivenNames x; refine Keeps.cut x ?_ (fun hx => ?_); rotate_left; rename State => z; rotate_right; unfold x; clear x)
  | (extract_lets +onlyGivenNames x; revert x; intro y)
  | (with_reducible refine keeps_setPstand ?_ ?_ ..; rotate_left; (first | rfl | decide))
  | (with_reducible refine keeps_runningState ?_ ?_ ..; rotate_left; (first | rfl | decide))
  | (with_reducible refine keeps_notePast ?_ ?_ ..; rotate_left; (first | rfl | decide))
  | (with_reducible refine keeps_openBatts ?_ ?_ ..; rotate_left; (first | rfl | decide))
  | (with_reducible refine keeps_deferWork ?_ ?_ ..; rotate_left; (first | rfl | decide))
  | (with_reducible refine keeps_setPlan ?_ ?_ ..; rotate_left; (first | rfl | decide))
  | with_reducible refine Keeps.foldl ?_ (fun v e => ?_)
  | with_reducible refine Keeps.ite ?_ ?_
  | split
  | exact Keeps.upd (by with_reducible assumption)
  | exact Keeps.upd (Keeps.refl _ _)
  | (clear_value *; split)

theorem keeps_publish {L : Nat} {s u : State} (h : Keeps L s u) (hm : 0x20000 &&& L = 0x20000) : Keeps L s u.publish := by
  refine h.step (m := 0x20000) ?_ hm
  exact (Keeps.refl _ u).commit (by decide)

/-- Whatever a tick has sent so far, the messages of before it stay in front. -/
theorem keeps_release {L : Nat} {s u : State} (h : Keeps L s u) (hm : 0x400800080 &&& L = 0x400800080) {n : Nat} (hn : n = s.sent.length) :
    Keeps L s (u.release n) := by
  have hL : L.testBit 34 = true := bit_of_sub hm (by decide)
  have hF : L.testBit 23 = true := bit_of_sub hm (by decide)
  unfold State.release
  extract_lets own events wires results first one tail fa a b fc c
  have ha : Keeps L s a := by
    obtain ⟨l, hl⟩ := h.sent
    have hb : Keeps L s { u with sent := u.sent.take n ++ wires, fr := { u.fr with held := [] } } := by
      refine ⟨fun p hp => ?_, h.canonical, ?_, h.draws⟩
      · have hs := h.same p hp
        cases p <;> first | exact hs | exact absurd (hL.symm.trans hp) (by decide) | exact absurd (hF.symm.trans hp) (by decide)
      · show s.sent <+: u.sent.take n ++ wires
        rw [hn, ← hl, List.take_left]
        exact List.prefix_append _ _
    exact keeps_flushTail hb (sub_trans (by decide) hm)
  clear_value a
  have hb : Keeps L s b := keeps_sendAll ha (sub_trans (by decide) hm)
  clear_value b
  have hc : Keeps L s c := Keeps.upd hb (h_fr := .inr hF)
  exact Keeps.ite hc (keeps_flushTail hc (sub_trans (by decide) hm))

theorem keeps_execTick (a0 u) : KeepsO 0xDFFFFFFFF u (execTick a0 u) := by
  unfold execTick
  refine KeepsO.next (Keeps.ite (Keeps.refl _ _) ?_)
  extract_lets again before t
  refine keeps_release ?_ (by decide) rfl
  refine keeps_publish (keeps_planFrame ?_ (by decide) ..) (by decide)
  refine keeps_publish (keeps_actTick (keeps_publish (keeps_openFrame (keeps_advance (keeps_closeFrame (Keeps.refl _ _) ?_ ..) ?_) ?_ ..) ?_) ?_) ?_ <;> decide

end Sys2Proof.Machine
end

