-- ==== Sys2Proof/Laws/Lanes.lean ====
section
/-!
SUPPORT. Laws/Lanes.lean: the vector engine's operands as numbers: what a vector reads after it is written, lane by lane.
-/
namespace Sys2Proof.Machine
set_option Elab.async false

variable (s : State)

theorem leNat_lt (l : List Byte) : leNat l < 256 ^ l.length := by
  induction l with
  | nil => simp [leNat]
  | cons b r ih =>
    have := b.isLt
    simp only [leNat, List.length_cons, Nat.pow_succ]
    omega

theorem leNat_append (l r : List Byte) : leNat (l ++ r) = leNat l + 256 ^ l.length * leNat r := by
  induction l with
  | nil => simp [leNat]
  | cons b t ih => simp only [List.cons_append, leNat, ih, List.length_cons, Nat.pow_succ, Nat.mul_add, Nat.add_assoc]; grind

/-- A part of a little-endian number. -/
theorem leNat_mid (l : List Byte) (j m : Nat) : leNat ((l.drop j).take m) = leNat l / 256 ^ j % 256 ^ m := by
  have h1 : leNat l / 256 ^ j = leNat (l.drop j) := by
    by_cases hj : j ≤ l.length
    · conv => lhs; rw [← List.take_append_drop j l, leNat_append]
      have hl : (l.take j).length = j := by rw [List.length_take]; omega
      have := leNat_lt (l.take j)
      rw [hl] at this ⊢
      rw [Nat.add_mul_div_left _ _ (Nat.pow_pos (by decide)), Nat.div_eq_of_lt this, Nat.zero_add]
    · rw [List.drop_eq_nil_of_le (by omega), leNat]
      exact Nat.div_eq_of_lt (Nat.lt_of_lt_of_le (leNat_lt l) (Nat.pow_le_pow_right (by decide) (by omega)))
  rw [h1]
  generalize l.drop j = q
  by_cases hm : m ≤ q.length
  · conv => rhs; rw [← List.take_append_drop m q, leNat_append]
    have hl : (q.take m).length = m := by rw [List.length_take]; omega
    have := leNat_lt (q.take m)
    rw [hl] at this ⊢
    rw [Nat.add_mul_mod_self_left, Nat.mod_eq_of_lt this]
  · rw [List.take_of_length_le (by omega), Nat.mod_eq_of_lt]
    exact Nat.lt_of_lt_of_le (leNat_lt q) (Nat.pow_le_pow_right (by decide) (by omega))

theorem leNat_leNums (n v : Nat) : leNat ((leNums n v).map (fun b => BitVec.ofNat 8 b)) = v % 256 ^ n := by
  induction n generalizing v with
  | zero => simp [leNums, leNat, Nat.mod_one]
  | succ n ih =>
    simp only [leNums, List.map_cons, leNat, ih, BitVec.toNat_ofNat]
    rw [show (256 : Nat) ^ (n + 1) = 256 * 256 ^ n by rw [Nat.pow_succ, Nat.mul_comm], Nat.mod_mul]
    omega

/-- Keys of offsets closer than 2^18 differ. -/
theorem vecKey_inj {p a i j : Nat} (h : vecKey p a i = vecKey p a j) (hi : i < j + 2 ^ 18) (hj : j < i + 2 ^ 18) : i = j := by
  unfold vecKey accAddr spAddr at h
  split at h <;> omega

/-- Storing a list at an offset: a key of the range reads the byte stored, another as before. -/
theorem byte_vecStore (s : State) (p a off : Nat) (l : List Byte) (h : l.length ≤ 2 ^ 18) (b : Nat) :
    (∀ k < l.length, b = vecKey p a (off + k) → (s.vecStore p a off l).byte b = l.getD k 0) ∧
    ((∀ k < l.length, b ≠ vecKey p a (off + k)) → (s.vecStore p a off l).byte b = s.byte b) := by
  induction l generalizing s off with
  | nil => exact ⟨fun k hk => absurd hk (by simp), fun _ => rfl⟩
  | cons c r ih =>
    simp only [List.length_cons] at h
    have hi := ih (s.setByte (vecKey p a off) c) (off + 1) (by omega)
    rw [State.vecStore]
    constructor
    · intro k hk hb
      match k with
      | 0 =>
        rw [hi.2, byte_setByte, if_pos (by rw [hb, Nat.add_zero]), List.getD_cons_zero]
        intro j hj hb'
        rw [hb] at hb'
        simp only [List.length_cons] at hk
        have := vecKey_inj hb' (by omega) (by omega)
        omega
      | k + 1 =>
        rw [hi.1 k (by simpa using hk) (by rw [hb]; congr 1; omega), List.getD_cons_succ]
    · intro hn
      rw [hi.2, byte_setByte, if_neg]
      · have := hn 0 (by simp)
        simpa using this
      · intro k hk
        have := hn (k + 1) (by simpa using hk)
        rwa [show off + 1 + k = off + (k + 1) by omega]

theorem vecLoad_eq_mid (p a off n j m : Nat) (h : j + m ≤ n) :
    s.vecLoad p a (off + j) m = s.vecLoad p a off n / 256 ^ j % 256 ^ m := by
  rw [State.vecLoad, State.vecLoad, ← leNat_mid]
  congr 1
  apply List.ext_getElem
  · simp; omega
  · intro i h1 h2
    simp [Nat.add_assoc]

theorem vecLoad_lt (p a off n : Nat) : s.vecLoad p a off n < 256 ^ n := by
  have := leNat_lt ((List.range n).map (fun i => s.byte (vecKey p a (off + i))))
  simpa [State.vecLoad] using this

/-- Reading a list of bytes back. -/
theorem vecLoad_vecStore (p a off : Nat) (l : List Byte) (h : l.length ≤ 2 ^ 18) :
    (s.vecStore p a off l).vecLoad p a off l.length = leNat l := by
  rw [State.vecLoad]
  congr 1
  apply List.ext_getElem
  · simp
  · intro i h1 h2
    simp only [List.getElem_map, List.getElem_range]
    rw [(byte_vecStore s p a off l h _).1 i h2 rfl, List.getD_eq_getElem?_getD, List.getElem?_eq_getElem h2, Option.getD_some]

/-- The number of a packed list. -/
def packNum (w : Nat) (l : List Nat) : Nat := l.foldr (fun c n => c % 2 ^ w + 2 ^ w * n) 0

theorem packNum_get (w : Nat) (l : List Nat) (i : Nat) (h : i < l.length) : packNum w l / 2 ^ (w * i) % 2 ^ w = l[i] % 2 ^ w := by
  induction l generalizing i with
  | nil => exact absurd h (by simp)
  | cons c r ih =>
    match i with
    | 0 => simp [packNum]
    | i + 1 =>
      have := ih i (by simpa using h)
      simp only [packNum, List.foldr_cons, List.getElem_cons_succ] at this ⊢
      rw [← this, Nat.mul_add, Nat.mul_one, Nat.add_comm (w * i), Nat.pow_add, ← Nat.div_div_eq_div_mul,
        Nat.add_mul_div_left _ _ (Nat.two_pow_pos w), Nat.div_eq_of_lt (Nat.mod_lt _ (Nat.two_pow_pos w)), Nat.zero_add]

theorem packNum_lt (w : Nat) (l : List Nat) : packNum w l < 2 ^ (w * l.length) := by
  induction l with
  | nil => simp [packNum]
  | cons c r ih =>
    have h1 : c % 2 ^ w < 2 ^ w := Nat.mod_lt _ (Nat.two_pow_pos w)
    have h2 : 2 ^ w * packNum w r + 2 ^ w ≤ 2 ^ w * 2 ^ (w * r.length) := by
      rw [← Nat.mul_succ]; exact Nat.mul_le_mul_left _ ih
    simp only [packNum, List.foldr_cons, List.length_cons, Nat.mul_add, Nat.mul_one] at h2 ⊢
    rw [Nat.add_comm (w * _), Nat.pow_add]
    omega

theorem packBytes_length (w : Nat) (l : List Nat) : (packBytes w l).length = (l.length * w + 7) / 8 := by
  have : ∀ n v, (leNums n v).length = n := by
    intro n
    induction n with
    | zero => intro v; rfl
    | succ n ih => intro v; simp [leNums, ih]
  simp [packBytes, this]

theorem leNat_packBytes (w : Nat) (l : List Nat) : leNat (packBytes w l) = packNum w l := by
  rw [packBytes, leNat_leNums]
  apply Nat.mod_eq_of_lt
  refine Nat.lt_of_lt_of_le (packNum_lt w l) ?_
  rw [show (256 : Nat) = 2 ^ 8 from rfl, ← Nat.pow_mul]
  exact Nat.pow_le_pow_right (by decide) (by rw [Nat.mul_comm w]; omega)

/-- A packed row of whole-byte elements: element i reads as stored, an element of `none` as before, and no byte outside the row changes. -/
theorem putCodes_spec (p a off w8 : Nat) (l : List (Option Nat)) (hl : l.length * w8 ≤ 2 ^ 18) :
    (∀ i (h : i < l.length), (s.putCodes p a off (8 * w8) l).vecLoad p a (off + i * w8) w8 =
      (match l[i] with | some v => v % 2 ^ (8 * w8) | none => s.vecLoad p a (off + i * w8) w8)) ∧
    (∀ b, (∀ k < l.length * w8, b ≠ vecKey p a (off + k)) → (s.putCodes p a off (8 * w8) l).byte b = s.byte b) := by
  have hn : l.length * (8 * w8) / 8 = l.length * w8 := by
    rw [show l.length * (8 * w8) = (l.length * w8) * 8 by grind]; omega
  generalize hc : l.zipIdx.map (fun c => c.1.getD (s.vecLoad p a off (l.length * w8) / 2 ^ (8 * w8 * c.2))) = codes
  have hcl : codes.length = l.length := by rw [← hc]; simp
  have hbl : (packBytes (8 * w8) codes).length = l.length * w8 := by
    rw [packBytes_length, hcl, show l.length * (8 * w8) + 7 = (l.length * w8) * 8 + 7 by grind]; omega
  have hst : s.putCodes p a off (8 * w8) l = s.vecStore p a off (packBytes (8 * w8) codes) := by
    rw [State.putCodes, hn, hc]
  rw [hst]
  refine ⟨fun i hi => ?_, fun b hb => (byte_vecStore s p a off _ (by rw [hbl]; exact hl) b).2 (by rw [hbl]; exact hb)⟩
  have hfit : i * w8 + w8 ≤ l.length * w8 := by rw [← Nat.succ_mul]; exact Nat.mul_le_mul_right _ hi
  have h256 : ∀ k, (256 : Nat) ^ k = 2 ^ (8 * k) := fun k => by rw [show (256 : Nat) = 2 ^ 8 from rfl, ← Nat.pow_mul]
  rw [vecLoad_eq_mid _ p a off (l.length * w8) (i * w8) w8 hfit]
  have hv := vecLoad_vecStore s p a off (packBytes (8 * w8) codes) (by rw [hbl]; exact hl)
  rw [hbl] at hv
  rw [hv, leNat_packBytes, h256, h256, show 8 * (i * w8) = 8 * w8 * i by grind, packNum_get _ _ _ (by rw [hcl]; exact hi)]
  have hg : codes[i]'(by rw [hcl]; exact hi) = l[i].getD (s.vecLoad p a off (l.length * w8) / 2 ^ (8 * w8 * i)) := by
    simp only [← hc, List.getElem_map, List.getElem_zipIdx, Nat.zero_add]
  rw [hg]
  cases l[i] with
  | some v => rfl
  | none =>
    simp only [Option.getD_none]
    rw [vecLoad_eq_mid s p a off (l.length * w8) (i * w8) w8 hfit, h256, h256, show 8 * (i * w8) = 8 * w8 * i by grind]

variable {p : Nat} {x : VecInstr} {f : State → Nat → Nat → Nat}

theorem laneBits_eq (ty : Nat) : laneBits ty = 8 * (laneBits ty / 8) := by unfold laneBits; split <;> rfl

theorem laneCount_bytes (ty : Nat) : laneCount ty * (laneBits ty / 8) = 256 := by unfold laneBits laneCount; split <;> rfl

/-- One vector of a lane-wise instruction. -/
theorem vectorWritten_putCodes (v : Nat) (g : Nat → Nat) :
    VectorWritten p x v g s (s.putCodes p x.dst (256 * v) (laneBits x.type) ((List.range (laneCount x.type)).map (fun i => s.masked p x i (g i)))) := by
  have h := putCodes_spec s p x.dst (256 * v) (laneBits x.type / 8) ((List.range (laneCount x.type)).map (fun i => s.masked p x i (g i)))
    (by rw [List.length_map, List.length_range, laneCount_bytes]; decide)
  rw [← laneBits_eq] at h
  refine ⟨fun i hi => ?_, fun b hb => h.2 b (by rw [List.length_map, List.length_range, laneCount_bytes]; exact hb)⟩
  rw [State.lane, h.1 i (by rw [List.length_map, List.length_range]; exact hi), List.getElem_map, List.getElem_range, State.masked]
  by_cases h1 : s.maskBit p x.mask x.type i = true
  · rw [if_pos h1, if_pos h1]
  · rw [if_neg h1, if_neg h1]
    by_cases h2 : x.mzero = true
    · rw [if_pos h2, if_pos h2]; exact Nat.zero_mod _
    · rw [if_neg h2, if_neg h2, State.lane]

theorem vecParts {t : State} (h : Keeps 0x900100000 s t) : SameBut [.mem, .sec, .freeCtr] s t :=
  KeepsO.sameBut (KeepsO.next h) (by decide) rfl

/-- A trace record leaves memory, and all that is not trace records or free values. -/
theorem byte_trace (q e k c b : Nat) : (s.trace q e k c).byte b = s.byte b :=
  (keeps_trace (L := 0x900000000) (Keeps.refl _ s) (by decide)).same .mem (by decide) b

/-- Lanes written after a trace record, with draws of free values and another record after them. -/
theorem lanes_run (n k c d : Nat) : LaneRun p x f s ((((s.trace p 1 k c).lanes p x f).skipDraws n).trace p 1 2 d) := by
  let s1 := s.trace p 1 k c
  let step := fun (u : State) v => u.putCodes p x.dst (256 * v) (laneBits x.type)
    ((List.range (laneCount x.type)).map (fun i => u.masked p x i (f u v i)))
  have hk1 : Keeps 0x900100000 s s1 := keeps_trace (Keeps.refl _ s) (by decide)
  have hku : ∀ v, Keeps 0x900100000 s ((List.range v).foldl step s1) := fun v =>
    hk1.foldl (fun u w => keeps_putCodes (Keeps.refl _ u) (by decide))
  refine ⟨vecParts s ?_, fun v => (List.range v).foldl step s1, fun v => vecParts s (hku v), fun b => byte_trace s .., fun b => ?_, fun v _ => ?_⟩
  · exact keeps_trace (keeps_skipDraws (hku x.vectors) (by decide)) (by decide)
  · rw [byte_trace]; rfl
  · simp only [List.range_succ, List.foldl_append, List.foldl_cons, List.foldl_nil]
    exact vectorWritten_putCodes _ v _

/-- An instruction of the vector engine that may run: its effect between two trace records. -/
theorem vector_next {op : Nat} (eff : State → State) (hl : x.legal op = true) (hr : s.vecRuns p x op = true) :
    s.vector p x op eff = .next ((eff (s.trace p 1 1 (s.active p))).trace p 1 2 (s.active p)) := by
  rw [State.vector, if_pos hl, if_pos hr]

/-- One that the engine does not run leaves the state as it was. -/
theorem vector_idle {op : Nat} (eff : State → State) (hl : x.legal op = true) (hr : s.vecRuns p x op = false) :
    s.vector p x op eff = .next s := by
  rw [State.vector, if_pos hl, hr, if_neg (by decide)]

/-- A lane-wise instruction that runs: its vectors in order, then its draws of free values. -/
theorem vector_lanes {op : Nat} {y : VecInstr} (n : Nat) (hl : y.legal op = true) (hr : s.vecRuns p y op = true) :
    ∃ t, s.vector p y op (fun s => (s.lanes p x f).skipDraws n) = .next t ∧ LaneRun p x f s t :=
  ⟨_, vector_next s _ hl hr, lanes_run s n 1 _ _⟩

/-- The same for an instruction that draws no free value. -/
theorem vector_lanes_plain {op : Nat} {y : VecInstr} (hl : y.legal op = true) (hr : s.vecRuns p y op = true) :
    ∃ t, s.vector p y op (fun s => s.lanes p x f) = .next t ∧ LaneRun p x f s t := vector_lanes s 0 hl hr

theorem maskBit_trace (q e k c r n ty i : Nat) : (s.trace q e k c).maskBit r n ty i = s.maskBit r n ty i := by
  unfold State.trace; split <;> rfl

/-- A packed row of elements of any width: the row's number holds the elements, and no byte outside the row changes. -/
theorem putCodes_packed (a off w : Nat) (l : List (Option Nat)) (hw : l.length * w % 8 = 0) (hl : l.length * w / 8 ≤ 2 ^ 18) :
    (∀ i (h : i < l.length), (s.putCodes p a off w l).packed p a off w l.length i =
      (match l[i] with | some v => v % 2 ^ w | none => s.packed p a off w l.length i)) ∧
    (∀ b, (∀ k < l.length * w / 8, b ≠ vecKey p a (off + k)) → (s.putCodes p a off w l).byte b = s.byte b) := by
  generalize hc : l.zipIdx.map (fun c => c.1.getD (s.vecLoad p a off (l.length * w / 8) / 2 ^ (w * c.2))) = codes
  have hcl : codes.length = l.length := by rw [← hc]; simp
  have hbl : (packBytes w codes).length = l.length * w / 8 := by rw [packBytes_length, hcl]; omega
  have hst : s.putCodes p a off w l = s.vecStore p a off (packBytes w codes) := by rw [State.putCodes, hc]
  rw [hst]
  refine ⟨fun i hi => ?_, fun b hb => (byte_vecStore s p a off _ (by rw [hbl]; exact hl) b).2 (by rw [hbl]; exact hb)⟩
  have hv := vecLoad_vecStore s p a off (packBytes w codes) (by rw [hbl]; exact hl)
  rw [hbl] at hv
  rw [State.packed, hv, leNat_packBytes, packNum_get _ _ _ (by rw [hcl]; exact hi)]
  have hg : codes[i]'(by rw [hcl]; exact hi) = l[i].getD (s.vecLoad p a off (l.length * w / 8) / 2 ^ (w * i)) := by
    simp only [← hc, List.getElem_map, List.getElem_zipIdx, Nat.zero_add]
  rw [hg]
  cases l[i] <;> rfl

theorem elemBits_le (f : Nat) : elemBits f ≤ 32 := by unfold elemBits; repeat' split <;> try decide

theorem laneCount_mod (ty w : Nat) : laneCount ty * w % 8 = 0 ∧ laneCount ty ≤ 128 := by unfold laneCount; split <;> omega

/-- One row of a converting instruction. -/
theorem codesWritten_putCodes (off w : Nat) (hw : w ≤ 32) (g : Nat → Nat) :
    CodesWritten p x off w g s (s.putCodes p x.dst off w ((List.range (laneCount x.type)).map (fun i => s.masked p x i (g i)))) := by
  have hm := laneCount_mod x.type w
  have hle : laneCount x.type * w ≤ 128 * 32 := Nat.mul_le_mul hm.2 hw
  have h := putCodes_packed (p := p) s x.dst off w ((List.range (laneCount x.type)).map (fun i => s.masked p x i (g i)))
    (by rw [List.length_map, List.length_range]; exact hm.1) (by rw [List.length_map, List.length_range]; omega)
  refine ⟨vecParts s (keeps_putCodes (Keeps.refl _ s) (by decide)), fun i hi => ?_,
    fun b hb => h.2 b (by rw [List.length_map, List.length_range]; exact hb)⟩
  have h1 := h.1 i (by rw [List.length_map, List.length_range]; exact hi)
  simp only [List.length_map, List.length_range, List.getElem_map, List.getElem_range] at h1
  rw [h1, State.masked]
  by_cases h1 : s.maskBit p x.mask x.type i = true
  · rw [if_pos h1, if_pos h1]
  · rw [if_neg h1, if_neg h1]
    by_cases h2 : x.mzero = true
    · rw [if_pos h2, if_pos h2]; exact Nat.zero_mod _
    · rw [if_neg h2, if_neg h2]

/-- Bytes stored at an offset from a vector address. -/
theorem bytesWritten_vecStore (a off : Nat) (l : List Byte) (h : l.length ≤ 2 ^ 18) : BytesWritten p a off l s (s.vecStore p a off l) :=
  ⟨vecParts s (keeps_vecStore (Keeps.refl _ s) (by decide)), fun k hk => (byte_vecStore s p a off l h _).1 k hk rfl,
    fun b hb => (byte_vecStore s p a off l h b).2 hb⟩

/-- Bytes stored after a trace record, with another record after them. -/
theorem bytesWritten_traced (k c d a off : Nat) (l : List Byte) (h : l.length ≤ 2 ^ 18) :
    BytesWritten p a off l s (((s.trace p 1 k c).vecStore p a off l).trace p 1 2 d) := by
  have h1 := bytesWritten_vecStore (p := p) (s.trace p 1 k c) a off l h
  refine ⟨vecParts s ?_, fun k hk => ?_, fun b hb => ?_⟩
  · exact keeps_trace (keeps_vecStore (keeps_trace (Keeps.refl _ s) (by decide)) (by decide)) (by decide)
  · rw [byte_trace]; exact h1.2.1 k hk
  · rw [byte_trace, h1.2.2 b hb, byte_trace]

/-- Rows of bytes stored in order between two trace records. -/
theorem rows_run (k c d a stride n : Nat) (row : State → Nat → List Byte) (h : ∀ u v, (row u v).length ≤ 2 ^ 18) :
    RowsWritten p a stride n row s
      (((List.range n).foldl (fun u v => u.vecStore p a (stride * v) (row u v)) (s.trace p 1 k c)).trace p 1 2 d) := by
  have hk1 : Keeps 0x900100000 s (s.trace p 1 k c) := keeps_trace (Keeps.refl _ s) (by decide)
  have hku : ∀ v, Keeps 0x900100000 s ((List.range v).foldl (fun u v => u.vecStore p a (stride * v) (row u v)) (s.trace p 1 k c)) := fun v =>
    hk1.foldl (fun u w => keeps_vecStore (Keeps.refl _ u) (by decide))
  refine ⟨vecParts s (keeps_trace (hku n) (by decide)),
    fun v => (List.range v).foldl (fun u v => u.vecStore p a (stride * v) (row u v)) (s.trace p 1 k c), fun v => vecParts s (hku v),
    fun b => byte_trace s .., fun b => ?_, fun v _ => ?_⟩
  · rw [byte_trace]
  · simp only [List.range_succ, List.foldl_append, List.foldl_cons, List.foldl_nil]
    exact bytesWritten_vecStore _ a _ _ (h _ _)

/-- Rows of packed elements written in order after a trace record, with draws of free values and another record after them. -/
theorem codes_run (n k c d w : Nat) (hw : w ≤ 32) (g : State → Nat → Nat → Nat) : CodesRun p x w g s
    ((((List.range x.vectors).foldl (fun u v => u.putCodes p x.dst (v * (laneCount x.type * w / 8)) w
      ((List.range (laneCount x.type)).map (fun i => u.masked p x i (g u v i)))) (s.trace p 1 k c)).skipDraws n).trace p 1 2 d) := by
  let step := fun (u : State) v => u.putCodes p x.dst (v * (laneCount x.type * w / 8)) w
    ((List.range (laneCount x.type)).map (fun i => u.masked p x i (g u v i)))
  have hk1 : Keeps 0x900100000 s (s.trace p 1 k c) := keeps_trace (Keeps.refl _ s) (by decide)
  have hku : ∀ v, Keeps 0x900100000 s ((List.range v).foldl step (s.trace p 1 k c)) := fun v =>
    hk1.foldl (fun u w => keeps_putCodes (Keeps.refl _ u) (by decide))
  refine ⟨vecParts s (keeps_trace (keeps_skipDraws (hku x.vectors) (by decide)) (by decide)),
    fun v => (List.range v).foldl step (s.trace p 1 k c), fun v => vecParts s (hku v), fun b => byte_trace s .., fun b => ?_, fun v _ => ?_⟩
  · rw [byte_trace]; rfl
  · simp only [List.range_succ, List.foldl_append, List.foldl_cons, List.foldl_nil]
    exact codesWritten_putCodes _ _ w hw _

/-- A vector instruction whose codes are legal completes when its engine may run, with what its effect leaves. -/
theorem vector_completes {i : Instr} {op : Nat} {eff : State → State} {P : State → Prop} (hl : x.legal op = true)
    (hr : s.vecRuns p x op = true) (hx : exec i s = s.vector p x op eff)
    (hP : P ((eff (s.trace p 1 1 (s.active p))).trace p 1 2 (s.active p))) : Completes i s P := ⟨_, hx.trans (vector_next s eff hl hr), hP⟩

theorem active_trace (q e k c r : Nat) : (s.trace q e k c).active r = s.active r := by unfold State.trace; split <;> rfl

theorem opKeyOf_trace (q e k c a op : Nat) : (s.trace q e k c).opKeyOf a op = s.opKeyOf a op := by unfold State.trace; split <;> rfl

theorem rsumOf_trace (q e k c r : Nat) (x : VecInstr) : (s.trace q e k c).rsumOf r x = s.rsumOf r x := by unfold State.trace; split <;> rfl

theorem activePairs_trace (q e k c r : Nat) (x : VecInstr) : (s.trace q e k c).activePairs r x = s.activePairs r x := by
  unfold State.trace; split <;> rfl

theorem pairBytes_length (l : List (Nat × Nat)) : (pairBytes l).length = 8 * l.length := by
  have h : ∀ n v, (leBytes n v).length = n := by
    intro n
    induction n with
    | zero => intro v; rfl
    | succ n ih => intro v; simp [leBytes, ih]
  induction l with
  | nil => rfl
  | cons a r ih => simp only [pairBytes, List.flatMap_cons, List.length_append, h, List.length_cons] at ih ⊢; omega

theorem topList_length (k : Nat) (l : List (Nat × Nat)) : (topList k l).length ≤ k := by simp [topList]

/-! A narrowing has one code for each source. -/

theorem narrowMx_length (f r fr : Nat) (l : List FVal) : (narrowMx f r fr l).codes.length = l.length := by
  unfold narrowMx; split
  · simp [freeCodes]
  · dsimp only
    split <;> simp [countBlock]

theorem narrowScaled_length (f : Nat) (w : Word) (l : List FVal) : (narrowScaled f w l).codes.length = l.length := by
  simp [narrowScaled, countBlock]

theorem groups_length {α : Type} (n k : Nat) (l : List α) (h : l.length ≤ n * k) : ((groups n k l).map List.length).sum = l.length := by
  induction k generalizing l with
  | zero => have : l.length = 0 := by omega
            simp [groups, this]
  | succ k ih =>
    unfold groups
    split
    · next h => simp [List.isEmpty_iff.1 h]
    · simp only [List.map_cons, List.sum_cons]
      rw [ih _ (by rw [List.length_drop, Nat.mul_succ] at *; omega)]
      simp; omega

theorem foldl_join_length (l : List Narrowed) (a : Narrowed) : (l.foldl Narrowed.join a).codes.length = a.codes.length + (l.map (fun w => w.codes.length)).sum := by
  induction l generalizing a with
  | nil => simp
  | cons w r ih => simp [ih, Narrowed.join]; omega

theorem narrowRow_length (f r fr : Nat) (w : Word) (l : List FVal) : (narrowRow f r fr w l).codes.length = l.length := by
  unfold narrowRow
  have hg := groups_length 32 (l.length / 32 + 1) l (by omega)
  rw [foldl_join_length, List.map_map]
  simp only [Narrowed.none, List.length_nil, Nat.zero_add]
  generalize groups 32 (l.length / 32 + 1) l = gs at hg
  rw [← hg]
  clear hg
  have : ∀ k, ((gs.zipIdx k).map ((fun w => w.codes.length) ∘ fun p => if isMx f = true then narrowMx f r (fr + 32 * p.2) p.1 else narrowScaled f w p.1)).sum = (gs.map List.length).sum := by
    induction gs with
    | nil => intro k; rfl
    | cons g t ih =>
      intro k
      simp only [List.zipIdx_cons, List.map_cons, List.sum_cons, ih, Function.comp]
      split <;> simp [narrowMx_length, narrowScaled_length]
  exact this 0

/-! Little-endian words of memory. -/

theorem leBytes_length (n v : Nat) : (leBytes n v).length = n := by
  induction n generalizing v with
  | zero => rfl
  | succ n ih => simp [leBytes, ih]

theorem leNat_leBytes (n v : Nat) : leNat (leBytes n v) = v % 256 ^ n := by
  induction n generalizing v with
  | zero => simp [leBytes, leNat, Nat.mod_one]
  | succ n ih =>
    simp only [leBytes, leNat, ih, BitVec.toNat_ofNat]
    rw [show (256 : Nat) ^ (n + 1) = 256 * 256 ^ n by rw [Nat.pow_succ, Nat.mul_comm], Nat.mod_mul]

/-- A word stored reads back modulo its width. -/
theorem load_store (a n v : Nat) : (s.store a n v).load a n = v % 256 ^ n := by
  rw [State.load, ← leNat_leBytes]
  congr 1
  apply List.ext_getElem
  · simp [State.bytes, leBytes_length]
  · intro i h1 h2
    simp only [State.bytes, List.getElem_map, List.getElem_range, State.store, byte_setBytes]
    rw [if_pos (by rw [leBytes_length] at h2 ⊢; omega), Nat.add_sub_cancel_left, List.getD_eq_getElem?_getD, List.getElem?_eq_getElem h2,
      Option.getD_some]

theorem byte_store (a n v b : Nat) (h : b < a ∨ a + n ≤ b) : (s.store a n v).byte b = s.byte b := by
  rw [State.store, byte_setBytes, if_neg (by rw [leBytes_length]; omega)]

theorem load_congr {s t : State} (h : ∀ b, t.byte b = s.byte b) (a n : Nat) : t.load a n = s.load a n := by
  simp only [State.load, State.bytes, h]

theorem addTile_lt (t : Nat) (w : Narrowed) : addTile t w < 256 ^ 8 := by
  unfold addTile
  dsimp only
  repeat' split
  all_goals omega

/-- Eight bytes of a tile counter lie in one aligned place of the accumulator file. -/
theorem accAddr_tile (p n j : Nat) (hj : j < 8) : accAddr p (0x3C000 + 8 * n + j) = accAddr p (0x3C000 + 8 * n) + j := by
  unfold accAddr; omega

theorem tileCtr_countTile (p n : Nat) (w : Narrowed) : (s.countTile p n w).tileCtr p n = addTile (s.tileCtr p n) w := by
  unfold State.countTile State.tileCtr State.countNan
  split
  · rw [load_store, Nat.mod_eq_of_lt (addTile_lt _ _)]
  · rw [load_congr (t := ((State.bump _ _ _ _).raise _ _)) (s := s.store _ _ _), load_store, Nat.mod_eq_of_lt (addTile_lt _ _)]
    exact fun b => (Keeps.raise (L := 0x42000) (Keeps.bump (Keeps.refl _ _) (by decide) (by decide)) (by decide) (by decide) (by decide)).same .mem (by decide) b

theorem byte_countTile (p n b : Nat) (w : Narrowed) (h : ∀ j < 8, b ≠ accAddr p (0x3C000 + 8 * n + j)) :
    (s.countTile p n w).byte b = s.byte b := by
  unfold State.countTile
  have : ∀ u c k, (State.countNan u c k).byte b = u.byte b := fun u c k => (keeps_countNan (L := 0x42000) (Keeps.refl _ u) (by decide)).same .mem (by decide) b
  rw [this, byte_store]
  by_cases h1 : b < accAddr p (0x3C000 + 8 * n)
  · exact .inl h1
  · refine .inr (Nat.le_of_not_lt fun h2 => ?_)
    have h3 := h (b - accAddr p (0x3C000 + 8 * n)) (by omega)
    rw [accAddr_tile _ _ _ (by omega)] at h3
    omega

end Sys2Proof.Machine
end

