-- ==== Sys2Proof/Laws/PerInstr.lean ====
section
/-!
SUPPORT. Laws/PerInstr.lean: statements made of every command by its constructor.
-/

/-! The queue belongs to the step alone: no command counts it among the parts of the state that it touches. -/

namespace Sys2Proof.Laws.QueueKept
set_option Elab.async false
open Sys2Proof Sys2Proof.Machine

/-- The command does not touch the queue. -/
def Statement (i : Instr) : Prop := Part.pending ∉ touches i

/-- By evaluation. -/
theorem of_contains {i : Instr} (h : (touches i).contains Part.pending = false) : Statement i := by
  intro hm
  have := List.contains_iff_mem.2 hm
  rw [h] at this
  cases this

theorem tick (o : TickArgs) : Statement (.tick o) := of_contains rfl
theorem workDeadline (running : Bool) : Statement (.workDeadline running) := of_contains rfl
theorem commitWindow : Statement .commitWindow := of_contains rfl
theorem referencePasses (reads : List RefSlot) : Statement (.referencePasses reads) := of_contains rfl
theorem refRecoveryComplete (batt : Nat) : Statement (.refRecoveryComplete batt) := of_contains rfl
theorem streamOut : Statement .streamOut := of_contains rfl
theorem nostepWindowClose : Statement .nostepWindowClose := of_contains rfl
theorem trpSegment (o : Segment) : Statement (.trpSegment o) := of_contains rfl
theorem reassemblyTimeout (session : Nat) (type : Nat) (tag : Nat) (t : Nat) : Statement (.reassemblyTimeout session type tag t) := of_contains rfl
theorem identityQuietExpiry (session : Nat) (type : Nat) (tag : Nat) (t : Nat) : Statement (.identityQuietExpiry session type tag t) := of_contains rfl
theorem icmpEcho (port : Nat) (accepted : Bool) (t : Nat) : Statement (.icmpEcho port accepted t) := of_contains rfl
theorem arpRequest (port : Nat) (target : Nat) (v6 : Bool) : Statement (.arpRequest port target v6) := of_contains rfl
theorem neighbourResolve (port : Nat) (target : Nat) (v6 : Bool) : Statement (.neighbourResolve port target v6) := of_contains rfl
theorem ptpMessage (o : PtpMsg) : Statement (.ptpMessage o) := of_contains rfl
theorem delayReq (port : Nat) : Statement (.delayReq port) := of_contains rfl
theorem ethLinkDown (port : Nat) : Statement (.ethLinkDown port) := of_contains rfl
theorem ethLinkUp (port : Nat) (lanes : List LaneFig) : Statement (.ethLinkUp port lanes) := of_contains rfl
theorem query (r : Req) : Statement (.query r) := of_contains rfl
theorem sample (r : Req) (samples : List SampleData) : Statement (.sample r samples) := of_contains rfl
theorem loadModel (r : LoadReq) : Statement (.loadModel r) := of_contains rfl
theorem loadComplete (ctx : Nat) : Statement (.loadComplete ctx) := of_contains rfl
theorem loadFailed (ctx : Nat) (status : Nat) (ind : Nat) : Statement (.loadFailed ctx status ind) := of_contains rfl
theorem exportReq (r : Req) (size : Nat) : Statement (.exportReq r size) := of_contains rfl
theorem exportResend (r : Req) (id : Nat) (offset : Nat) (length : Nat) : Statement (.exportResend r id offset length) := of_contains rfl
theorem mgmtRead (r : Req) : Statement (.mgmtRead r) := of_contains rfl
theorem mgmtWrite (r : Req) (entries : List WriteEntry) : Statement (.mgmtWrite r entries) := of_contains rfl
theorem claimObserve (r : Req) (nonce : Nat) (cred : Nat) : Statement (.claimObserve r nonce cred) := of_contains rfl
theorem claimOwn (r : Req) (nonce : Nat) (cred : Nat) : Statement (.claimOwn r nonce cred) := of_contains rfl
theorem renew (r : Req) (nonce : Nat) : Statement (.renew r nonce) := of_contains rfl
theorem claimProofVerified (session : Nat) (tag : Nat) (nonce : Nat) (v : SignatureCheck) : Statement (.claimProofVerified session tag nonce v) := of_contains rfl
theorem release (r : Req) : Statement (.release r) := of_contains rfl
theorem releaseClose (r : Req) : Statement (.releaseClose r) := of_contains rfl
theorem handover (r : Req) : Statement (.handover r) := of_contains rfl
theorem leaseExpiry : Statement .leaseExpiry := of_contains rfl
theorem sessionIdleClose (session : Nat) : Statement (.sessionIdleClose session) := of_contains rfl
theorem hsessCfgWrite (r : Req) (entries : List WriteEntry) : Statement (.hsessCfgWrite r entries) := of_contains rfl
theorem park (r : Req) (ctx : Nat) : Statement (.park r ctx) := of_contains rfl
theorem unpark (r : Req) (ctx : Nat) : Statement (.unpark r ctx) := of_contains rfl
theorem teardown (r : Req) (ctx : Nat) : Statement (.teardown r ctx) := of_contains rfl
theorem teardownFence (ctx : Nat) : Statement (.teardownFence ctx) := of_contains rfl
theorem contextRelease (ctx : Nat) (outstanding : Nat) : Statement (.contextRelease ctx outstanding) := of_contains rfl
theorem drainTimeout (ctx : Nat) : Statement (.drainTimeout ctx) := of_contains rfl
theorem releasedMemoryZeroed (ctx : Nat) : Statement (.releasedMemoryZeroed ctx) := of_contains rfl
theorem unparkComplete (ctx : Nat) : Statement (.unparkComplete ctx) := of_contains rfl
theorem contextFault (ctx : Nat) : Statement (.contextFault ctx) := of_contains rfl
theorem pauseWrite (r : Req) (ctx : Nat) (value : Bool) : Statement (.pauseWrite r ctx value) := of_contains rfl
theorem fltReset (r : Req) : Statement (.fltReset r) := of_contains rfl
theorem fltOos (r : Req) : Statement (.fltOos r) := of_contains rfl
theorem restoreLatest (r : Req) (ctx : Nat) : Statement (.restoreLatest r ctx) := of_contains rfl
theorem restorePrevious (r : Req) (ctx : Nat) : Statement (.restorePrevious r ctx) := of_contains rfl
theorem calBattItems (r : Req) (unit : Nat) (pattern : Bool) : Statement (.calBattItems r unit pattern) := of_contains rfl
theorem calFwdSigma (r : Req) : Statement (.calFwdSigma r) := of_contains rfl
theorem calPIdle (r : Req) : Statement (.calPIdle r) := of_contains rfl
theorem calMonRef (r : Req) : Statement (.calMonRef r) := of_contains rfl
theorem calSensorMap (r : Req) (core : Nat) : Statement (.calSensorMap r core) := of_contains rfl
theorem calRingBias (r : Req) (port : Nat) : Statement (.calRingBias r port) := of_contains rfl
theorem calRunComplete (items : List CalItem) (resid : Nat) : Statement (.calRunComplete items resid) := of_contains rfl
theorem quoteGo (r : Req) (confirm : Nat) : Statement (.quoteGo r confirm) := of_contains rfl
theorem quoteReady : Statement .quoteReady := of_contains rfl
theorem svnCommit (r : Req) (confirm : Nat) : Statement (.svnCommit r confirm) := of_contains rfl
theorem lock (r : Req) (confirm : Nat) : Statement (.lock r confirm) := of_contains rfl
theorem dbgDisable (r : Req) (confirm : Nat) (mask : Nat) : Statement (.dbgDisable r confirm mask) := of_contains rfl
theorem fuseBlowComplete (readBack : List Nat) : Statement (.fuseBlowComplete readBack) := of_contains rfl
theorem secCredEpochWrite (r : Req) (value : Nat) (mask : Nat) : Statement (.secCredEpochWrite r value mask) := of_contains rfl
theorem dbgOpen (r : Req) (facilities : Nat) (purpose : Nat) : Statement (.dbgOpen r facilities purpose) := of_contains rfl
theorem dbgClose (r : Req) : Statement (.dbgClose r) := of_contains rfl
theorem imgErase (r : Req) (confirm : Nat) (slot : Nat) : Statement (.imgErase r confirm slot) := of_contains rfl
theorem imgEraseComplete (slot : Nat) : Statement (.imgEraseComplete slot) := of_contains rfl
theorem imgSeal (r : Req) (confirm : Nat) (slot : Nat) : Statement (.imgSeal r confirm slot) := of_contains rfl
theorem imgRestart (r : Req) (confirm : Nat) : Statement (.imgRestart r confirm) := of_contains rfl
theorem imgWinWrite (r : Req) (entries : List WriteEntry) : Statement (.imgWinWrite r entries) := of_contains rfl
theorem retrain (r : Req) (port : Nat) : Statement (.retrain r port) := of_contains rfl
theorem unfence (r : Req) (port : Nat) : Statement (.unfence r port) := of_contains rfl
theorem install (r : Req) (port : Nat) (mask : Nat) : Statement (.install r port mask) := of_contains rfl
theorem txAnSwitch (r : Req) (port : Nat) (an : Nat) : Statement (.txAnSwitch r port an) := of_contains rfl
theorem signal (o : SignalOp) : Statement (.signal o) := of_contains rfl
theorem wait (core : Nat) (waiter : Nat) (ctr : Nat) (mode : Nat) (target : Nat) (bytes : Nat) : Statement (.wait core waiter ctr mode target bytes) := of_contains rfl
theorem waitRelease (core : Nat) (waiter : Nat) : Statement (.waitRelease core waiter) := of_contains rfl
theorem contextSwitch (core : Nat) (ctx : Nat) : Statement (.contextSwitch core ctx) := of_contains rfl
theorem matrixOperation (core : Nat) (d : MatrixDesc) : Statement (.matrixOperation core d) := of_contains rfl
theorem copy (core : Nat) (d : DmaDesc) : Statement (.copy core d) := of_contains rfl
theorem fill (core : Nat) (d : DmaDesc) : Statement (.fill core d) := of_contains rfl
theorem transpose (core : Nat) (d : DmaDesc) : Statement (.transpose core d) := of_contains rfl
theorem add (core : Nat) (x : VecInstr) : Statement (.add core x) := of_contains rfl
theorem sub (core : Nat) (x : VecInstr) : Statement (.sub core x) := of_contains rfl
theorem mul (core : Nat) (x : VecInstr) : Statement (.mul core x) := of_contains rfl
theorem fma (core : Nat) (x : VecInstr) : Statement (.fma core x) := of_contains rfl
theorem vMin (core : Nat) (x : VecInstr) : Statement (.vMin core x) := of_contains rfl
theorem vMax (core : Nat) (x : VecInstr) : Statement (.vMax core x) := of_contains rfl
theorem abs (core : Nat) (x : VecInstr) : Statement (.abs core x) := of_contains rfl
theorem neg (core : Nat) (x : VecInstr) : Statement (.neg core x) := of_contains rfl
theorem mov (core : Nat) (x : VecInstr) : Statement (.mov core x) := of_contains rfl
theorem cmp (core : Nat) (x : VecInstr) : Statement (.cmp core x) := of_contains rfl
theorem cmps (core : Nat) (x : VecInstr) : Statement (.cmps core x) := of_contains rfl
theorem sel (core : Nat) (x : VecInstr) : Statement (.sel core x) := of_contains rfl
theorem selp (core : Nat) (x : VecInstr) : Statement (.selp core x) := of_contains rfl
theorem exp2 (core : Nat) (x : VecInstr) : Statement (.exp2 core x) := of_contains rfl
theorem log2 (core : Nat) (x : VecInstr) : Statement (.log2 core x) := of_contains rfl
theorem rsqrt (core : Nat) (x : VecInstr) : Statement (.rsqrt core x) := of_contains rfl
theorem rcp (core : Nat) (x : VecInstr) : Statement (.rcp core x) := of_contains rfl
theorem cvt (core : Nat) (x : VecInstr) : Statement (.cvt core x) := of_contains rfl
theorem pack (core : Nat) (x : PackOp) : Statement (.pack core x) := of_contains rfl
theorem unpack (core : Nat) (x : VecInstr) : Statement (.unpack core x) := of_contains rfl
theorem perm (core : Nat) (x : VecInstr) : Statement (.perm core x) := of_contains rfl
theorem shuf (core : Nat) (x : VecInstr) : Statement (.shuf core x) := of_contains rfl
theorem rsum (core : Nat) (x : VecInstr) : Statement (.rsum core x) := of_contains rfl
theorem rmax (core : Nat) (x : VecInstr) : Statement (.rmax core x) := of_contains rfl
theorem rmin (core : Nat) (x : VecInstr) : Statement (.rmin core x) := of_contains rfl
theorem topk (core : Nat) (x : VecInstr) : Statement (.topk core x) := of_contains rfl
theorem topkm (core : Nat) (x : VecInstr) : Statement (.topkm core x) := of_contains rfl
theorem psum (core : Nat) (x : VecInstr) : Statement (.psum core x) := of_contains rfl
theorem tchk (core : Nat) (x : VecInstr) (t : TileRef) : Statement (.tchk core x t) := of_contains rfl
theorem kset (core : Nat) (x : VecInstr) : Statement (.kset core x) := of_contains rfl
theorem kop (core : Nat) (x : VecInstr) : Statement (.kop core x) := of_contains rfl
theorem uncorrectableEcc (core : Nat) (engine : Nat) (again : Bool) (t : Nat) : Statement (.uncorrectableEcc core engine again t) := of_contains rfl
theorem battPass (o : BattPass) : Statement (.battPass o) := of_contains rfl
theorem numSplitRaised (ctx : Nat) : Statement (.numSplitRaised ctx) := of_contains rfl
theorem blocking (o : RowOp) : Statement (.blocking o) := of_contains rfl
theorem debtStarved (ctx : Nat) : Statement (.debtStarved ctx) := of_contains rfl
theorem fullingIntervalExpiry (batt : Nat) (t : Nat) : Statement (.fullingIntervalExpiry batt t) := of_contains rfl
theorem fullingRead (o : FulRead) : Statement (.fullingRead o) := of_contains rfl
theorem fullingPassEnd (batt : Nat) (t : Nat) : Statement (.fullingPassEnd batt t) := of_contains rfl
theorem wearCeilingWrite (batt : Nat) (row : Nat) : Statement (.wearCeilingWrite batt row) := of_contains rfl
theorem rowWorn (batt : Nat) (row : Nat) : Statement (.rowWorn batt row) := of_contains rfl
theorem columnRetire (batt : Nat) (column : Nat) : Statement (.columnRetire batt column) := of_contains rfl
theorem spareFill (o : RowOp) : Statement (.spareFill o) := of_contains rfl
theorem spareFillComplete (batt : Nat) (column : Nat) : Statement (.spareFillComplete batt column) := of_contains rfl
theorem battRecordWrite (batt : Nat) : Statement (.battRecordWrite batt) := of_contains rfl
theorem shadowPass (o : ShadowOp) : Statement (.shadowPass o) := of_contains rfl
theorem stepBegin (ctx : Nat) : Statement (.stepBegin ctx) := of_contains rfl
theorem carding (o : CardOp) : Statement (.carding o) := of_contains rfl
theorem stepCommit (ctx : Nat) : Statement (.stepCommit ctx) := of_contains rfl
theorem skipLimitPause (ctx : Nat) : Statement (.skipLimitPause ctx) := of_contains rfl
theorem holdRetry (ctx : Nat) : Statement (.holdRetry ctx) := of_contains rfl
theorem escHoldExpiry (ctx : Nat) : Statement (.escHoldExpiry ctx) := of_contains rfl
theorem staticListLeave (batt : Nat) (row : Nat) : Statement (.staticListLeave batt row) := of_contains rfl
theorem rescaleComplete (batt : Nat) : Statement (.rescaleComplete batt) := of_contains rfl
theorem fallbackEntry (ctx : Nat) (layer : Nat) : Statement (.fallbackEntry ctx layer) := of_contains rfl
theorem fallbackEnd (ctx : Nat) (layer : Nat) : Statement (.fallbackEnd ctx layer) := of_contains rfl
theorem stepReady (o : StepRec) : Statement (.stepReady o) := of_contains rfl
theorem exchScatter (ctx : Nat) (xfers : List Xfer) : Statement (.exchScatter ctx xfers) := of_contains rfl
theorem ownerSum (o : SumOp) : Statement (.ownerSum o) := of_contains rfl
theorem thinPSum (o : SumOp) : Statement (.thinPSum o) := of_contains rfl
theorem thinQPartial (o : SumOp) : Statement (.thinQPartial o) := of_contains rfl
theorem thinQSum (o : SumOp) : Statement (.thinQSum o) := of_contains rfl
theorem scalar (o : StepRec) : Statement (.scalar o) := of_contains rfl
theorem optimizerUpdate (o : UpdateOp) : Statement (.optimizerUpdate o) := of_contains rfl
theorem mastersApply (o : GatherOp) : Statement (.mastersApply o) := of_contains rfl
theorem vote (o : StepRec) : Statement (.vote o) := of_contains rfl
theorem resume (o : StepRec) : Statement (.resume o) := of_contains rfl
theorem checkCopySum (o : ChunkOp) : Statement (.checkCopySum o) := of_contains rfl
theorem checkCompare (o : ChunkOp) : Statement (.checkCompare o) := of_contains rfl
theorem rereduce (o : StepRec) (copies : List Xfer) : Statement (.rereduce o copies) := of_contains rfl
theorem refereeSum (o : ChunkOp) : Statement (.refereeSum o) := of_contains rfl
theorem refereeDecision (o : ChunkOp) : Statement (.refereeDecision o) := of_contains rfl
theorem abandon (o : StepRec) : Statement (.abandon o) := of_contains rfl
theorem exchRerun (ctx : Nat) : Statement (.exchRerun ctx) := of_contains rfl
theorem memberLate (ctx : Nat) (member : Nat) (due : Nat) : Statement (.memberLate ctx member due) := of_contains rfl
theorem lossReport (head : FlitHead) (member : Nat) (frame : Nat) : Statement (.lossReport head member frame) := of_contains rfl
theorem memberRemoval (ctx : Nat) : Statement (.memberRemoval ctx) := of_contains rfl
theorem stateRecord (o : StepRec) : Statement (.stateRecord o) := of_contains rfl
theorem stateDecision (ctx : Nat) : Statement (.stateDecision ctx) := of_contains rfl
theorem stepRecord (o : StepRec) (copies : List Xfer) : Statement (.stepRecord o copies) := of_contains rfl
theorem digest (o : DigestMsg) : Statement (.digest o) := of_contains rfl
theorem fullDigest (ctx : Nat) : Statement (.fullDigest ctx) := of_contains rfl
theorem digestDecision (ctx : Nat) : Statement (.digestDecision ctx) := of_contains rfl
theorem duplicateCompare (o : DupOp) : Statement (.duplicateCompare o) := of_contains rfl
theorem duplicateReferee (o : DupOp) : Statement (.duplicateReferee o) := of_contains rfl
theorem observationExpiry (core : Nat) (t : Nat) : Statement (.observationExpiry core t) := of_contains rfl
theorem marginFrame (core : Nat) : Statement (.marginFrame core) := of_contains rfl
theorem knownAnswerTest (core : Nat) (failed : Option Nat) : Statement (.knownAnswerTest core failed) := of_contains rfl
theorem engineWatchdog (core : Nat) (engine : Nat) (t : Nat) : Statement (.engineWatchdog core engine t) := of_contains rfl
theorem dmaWatchdog (core : Nat) (t : Nat) : Statement (.dmaWatchdog core t) := of_contains rfl
theorem battWatchdog (core : Nat) (batt : Nat) (t : Nat) : Statement (.battWatchdog core batt t) := of_contains rfl
theorem planWatchdog (t : Nat) : Statement (.planWatchdog t) := of_contains rfl
theorem controlCoreWatchdog (cp : Nat) (t : Nat) : Statement (.controlCoreWatchdog cp t) := of_contains rfl
theorem mgmtWatchdog : Statement .mgmtWatchdog := of_contains rfl
theorem engineReset (core : Nat) (engine : Nat) (t : Nat) : Statement (.engineReset core engine t) := of_contains rfl
theorem coreReset (core : Nat) (t : Nat) : Statement (.coreReset core t) := of_contains rfl
theorem dieReset (die : Nat) (t : Nat) : Statement (.dieReset die t) := of_contains rfl
theorem deviceReset (t : Nat) : Statement (.deviceReset t) := of_contains rfl
theorem resetTimeout (level : Nat) (unit : Nat) (engine : Nat) (t : Nat) : Statement (.resetTimeout level unit engine t) := of_contains rfl
theorem resetComplete (level : Nat) (unit : Nat) (engine : Nat) : Statement (.resetComplete level unit engine) := of_contains rfl
theorem deviceResetComplete (hashOk : Bool) (o : BootArgs) : Statement (.deviceResetComplete hashOk o) := of_contains rfl
theorem resetRebuild (core : Nat) (readings : List RefReading) : Statement (.resetRebuild core readings) := of_contains rfl
theorem managementReset (o : BootArgs) : Statement (.managementReset o) := of_contains rfl
theorem oosEntry : Statement .oosEntry := of_contains rfl
theorem coreFence : Statement .coreFence := of_contains rfl
theorem spareTest (core : Nat) (pass : Bool) : Statement (.spareTest core pass) := of_contains rfl
theorem spareReblockComplete (ctx : Nat) : Statement (.spareReblockComplete ctx) := of_contains rfl
theorem eventLogWrite : Statement .eventLogWrite := of_contains rfl
theorem ckptStart (ctx : Nat) : Statement (.ckptStart ctx) := of_contains rfl
theorem ckpt (o : StepRec) : Statement (.ckpt o) := of_contains rfl
theorem holderDone (o : HolderOp) : Statement (.holderDone o) := of_contains rfl
theorem selfHoldCopyDone (ctx : Nat) : Statement (.selfHoldCopyDone ctx) := of_contains rfl
theorem done (o : StepRec) : Statement (.done o) := of_contains rfl
theorem ckptAbandon (ctx : Nat) (cause : Nat) (module : Nat) : Statement (.ckptAbandon ctx cause module) := of_contains rfl
theorem ckptLimitExpiry (ctx : Nat) : Statement (.ckptLimitExpiry ctx) := of_contains rfl
theorem probe (ctx : Nat) (loss : Word) : Statement (.probe ctx loss) := of_contains rfl
theorem exportScheduled (ctx : Nat) (size : Nat) : Statement (.exportScheduled ctx size) := of_contains rfl
theorem exportHoldExpiry (ctx : Nat) (id : Nat) : Statement (.exportHoldExpiry ctx id) := of_contains rfl
theorem restore (o : RestoreOp) : Statement (.restore o) := of_contains rfl
theorem restored (o : StepRec) : Statement (.restored o) := of_contains rfl
theorem acceptanceReplay (ctx : Nat) (loss : Word) : Statement (.acceptanceReplay ctx loss) := of_contains rfl
theorem logRecompute (ctx : Nat) (common : Nat) : Statement (.logRecompute ctx common) := of_contains rfl
theorem momentFetch (ctx : Nat) (module : Nat) (data : List (Nat × Nat × Nat × List Byte)) (last : Bool) : Statement (.momentFetch ctx module data last) := of_contains rfl
theorem adoptZero (ctx : Nat) (module : Nat) : Statement (.adoptZero ctx module) := of_contains rfl
theorem initRestoreTimeout (ctx : Nat) : Statement (.initRestoreTimeout ctx) := of_contains rfl
theorem enableClose (mv : Nat) (o : BootArgs) : Statement (.enableClose mv o) := of_contains rfl
theorem sigStateReserve : Statement .sigStateReserve := of_contains rfl
theorem signingRequest (quote : Bool) : Statement (.signingRequest quote) := of_contains rfl
theorem enableOpen : Statement .enableOpen := of_contains rfl
theorem underVoltageStop (mv : Nat) (us : Nat) : Statement (.underVoltageStop mv us) := of_contains rfl
theorem overVoltageStop (mv : Nat) (us : Nat) : Statement (.overVoltageStop mv us) := of_contains rfl
theorem currentLimitStop (us : Nat) : Statement (.currentLimitStop us) := of_contains rfl
theorem monitorConversion (value : Int) : Statement (.monitorConversion value) := of_contains rfl
theorem monitorEntryComplete (t : Nat) : Statement (.monitorEntryComplete t) := of_contains rfl
theorem urgentRequest (channel : Nat) : Statement (.urgentRequest channel) := of_contains rfl
theorem frameEnergyCheck (frame : Nat) : Statement (.frameEnergyCheck frame) := of_contains rfl
theorem overdraw (mw : Nat) (t : Nat) : Statement (.overdraw mw t) := of_contains rfl
theorem reserveDecay (t : Nat) : Statement (.reserveDecay t) := of_contains rfl
theorem thermalShutdown (channel : Nat) (value : Int) : Statement (.thermalShutdown channel value) := of_contains rfl
theorem laserLow (fibre : Nat) : Statement (.laserLow fibre) := of_contains rfl
theorem sealGroupReceive (o : SealGroup) : Statement (.sealGroupReceive o) := of_contains rfl
theorem nak (port : Nat) (group : Nat) (sent : Nat) (t : Nat) : Statement (.nak port group sent t) := of_contains rfl
theorem writeFlit (h : FlitHead) (addr : Nat) (data : List Byte) : Statement (.writeFlit h addr data) := of_contains rfl
theorem signalFlit (h : FlitHead) (entries : List SignalEntry) : Statement (.signalFlit h entries) := of_contains rfl
theorem withdraw (h : FlitHead) (entries : List (Nat × Nat)) : Statement (.withdraw h entries) := of_contains rfl
theorem join (o : JoinMsg) : Statement (.join o) := of_contains rfl
theorem readyCount (child : Nat) (count : Nat) : Statement (.readyCount child count) := of_contains rfl
theorem sysWaitExpiry : Statement .sysWaitExpiry := of_contains rfl
theorem mgmtRelay (src : Nat) (payload : List Nat) : Statement (.mgmtRelay src payload) := of_contains rfl
theorem anchorMove (frame : Nat) : Statement (.anchorMove frame) := of_contains rfl
theorem anchorLost : Statement .anchorLost := of_contains rfl
theorem hello (o : HelloMsg) : Statement (.hello o) := of_contains rfl
theorem kex1 (o : KexMsg) (t : Nat) : Statement (.kex1 o t) := of_contains rfl
theorem kex2 (o : KexMsg) (t : Nat) : Statement (.kex2 o t) := of_contains rfl
theorem fin (port : Nat) (value : Nat) (lanes : List LaneFig) (t : Nat) : Statement (.fin port value lanes t) := of_contains rfl
theorem rekeyTrigger (port : Nat) (txSeq : Nat) (rxSeq : Nat) (t : Nat) : Statement (.rekeyTrigger port txSeq rxSeq t) := of_contains rfl
theorem rekey1 (o : KexMsg) (t : Nat) : Statement (.rekey1 o t) := of_contains rfl
theorem rekey2 (o : KexMsg) (ownSeq : Nat) (t : Nat) : Statement (.rekey2 o ownSeq t) := of_contains rfl
theorem rekeyFin (port : Nat) (value : Nat) (ownSeq : Nat) (switchSeq : Nat) (t : Nat) : Statement (.rekeyFin port value ownSeq switchSeq t) := of_contains rfl
theorem keySwitch (port : Nat) (sending : Bool) (seq : Nat) : Statement (.keySwitch port sending seq) := of_contains rfl
theorem rekeyTimeout (port : Nat) (t : Nat) : Statement (.rekeyTimeout port t) := of_contains rfl
theorem keyRatchet (port : Nat) (sending : Bool) (seq : Nat) : Statement (.keyRatchet port sending seq) := of_contains rfl
theorem lightDetect (port : Nat) (lit : Bool) (t : Nat) : Statement (.lightDetect port lit t) := of_contains rfl
theorem ringsLocked (port : Nat) : Statement (.ringsLocked port) := of_contains rfl
theorem lanesTrained (port : Nat) : Statement (.lanesTrained port) := of_contains rfl
theorem fecAligned (port : Nat) : Statement (.fecAligned port) := of_contains rfl
theorem attemptTimeout (port : Nat) (t : Nat) : Statement (.attemptTimeout port t) := of_contains rfl
theorem authTimeout (port : Nat) (t : Nat) : Statement (.authTimeout port t) := of_contains rfl
theorem waitExpiry (port : Nat) (t : Nat) : Statement (.waitExpiry port t) := of_contains rfl
theorem downExpiry (port : Nat) (t : Nat) : Statement (.downExpiry port t) := of_contains rfl
theorem sealLoss (port : Nat) (t : Nat) : Statement (.sealLoss port t) := of_contains rfl
theorem berExcess (port : Nat) : Statement (.berExcess port) := of_contains rfl
theorem resendLimit (port : Nat) (t : Nat) : Statement (.resendLimit port t) := of_contains rfl
theorem lightLost (port : Nat) : Statement (.lightLost port) := of_contains rfl
theorem thetaUpdate (samples : List Int) : Statement (.thetaUpdate samples) := of_contains rfl
theorem parentSwitch : Statement .parentSwitch := of_contains rfl
theorem tickUnaligned (t : Nat) : Statement (.tickUnaligned t) := of_contains rfl
theorem tickRejoin (theta : Int) (frame : Nat) : Statement (.tickRejoin theta frame) := of_contains rfl
theorem startThreshold (mv : Nat) (o : BootArgs) : Statement (.startThreshold mv o) := of_contains rfl
theorem currentLimitReached : Statement .currentLimitReached := of_contains rfl
theorem referenceClockLoss : Statement .referenceClockLoss := of_contains rfl
theorem imgSealComplete (slot : Nat) : Statement (.imgSealComplete slot) := of_contains rfl
theorem unlistedType (version : Nat) (type : Nat) (r : Req) : Statement (.unlistedType version type r) := of_contains rfl
theorem failedTestExpiry (t : Nat) : Statement (.failedTestExpiry t) := of_contains rfl
theorem slidingWindowExpiry (t : Nat) : Statement (.slidingWindowExpiry t) := of_contains rfl

end Sys2Proof.Laws.QueueKept
end

