-- ==== Sys2Proof/Tests/Slice0.lean ====
section
/-!
SUPPORT. Tests/Slice0.lean: states and operands that meet the hypotheses of the claims, one witness theorem a claim; ill-formed operands and
commands; and small tests of single commands against the spec.
-/
namespace Sys2Proof.Tests
open Sys2Proof Sys2Proof.Machine
set_option maxRecDepth 10000
set_option Elab.async false

/-! Small states and operands. -/

/-- A layer of 8 rows and 4 columns on one batt. -/
def lay : Layer := {
  batts := [8], core := 1, rows := 8, cols := 4, subpasses := 1, splitting := true, outFmt := 0xA, scaleAddr := 0x2000, bandAddr := 0x3000,
  fn := .relu, alpha := 0, eps := 0, bwdFmt := 2, derivCodes := false, dropT := 0, attn := ⟨64, 64, 32, 0, 0, false, []⟩, sx := 0,
  staticRows := [], adaptive := [], lambda := 0, rank := 0, allow := 0, cycles := 0, saved := 0, droppable := 0, sequence := false, scales := [] }

/-- A tensor: the weights of layer 0, 2 rows of 2. -/
def ten : Tensor := {
  id := 0, layer := 0, weights := true, rows := 2, cols := 2, index := 0, lambda := 0, rank := 0, bf16 := false,
  owners := [(0, 0)], slices := [], part := ⟨5, 0x100, 0x180, 16⟩, sum := 0x200, phat := 0x300, qsum := 0x400, master := ⟨0, 0x500, 0x600, 16⟩,
  m := ⟨1, 0x700, 0x800, 16⟩, v := ⟨2, 0x900, 0xA00, 16⟩, resid := ⟨3, 0xB00, 0xC00, 16⟩, qp := ⟨4, 0xD00, 0xE00, 16⟩ }

/-- A template of one module. -/
def tpl : Template := {
  index := 0, digitalOnly := false, masterBwd := false, clip := false, bf16Moments := false, hbxPolicy := 0, adamw := false,
  skipLimit := 4, stepSamples := 1, stepWait := 10, weight := 1, mbSamples := 1, hbxSize := 1, logSize := 64, intakeSlots := 4, queryBuf := 10000,
  lMax := 0, exportPeriod := 100, exportSession := 3, noiseGain := 0, package := false, spillModule := 0, spillBase := 0x100000, spillSize := 0, seedKey := 0, cores := [1], batts := [8],
  inBytes := 8, outBytes := 4, targetBytes := 4, ioStack := 0, crossings := 0, crossFlits := 0, allotment := 0, layers := [lay], dropList := [],
  schedule := [], beta1 := 0, beta2 := 0, omb1 := 0, omb2 := 0, eps := 0, mu := 0, clipNorm := 0, members := [0], ownIndex := 0, exchFmt := 0,
  regions := [⟨0x1000, 0x2000, 2, 1, 7⟩, ⟨0x100, 0x200, 4, 1, 0⟩], intakeBase := 0, logBase := 0, group := [0], tensors := [ten],
  cards := [9 + 2 ^ 20 + 2 ^ 24 + 2 ^ 28 + 2 ^ 80 + 4 * 2 ^ 96 + 2 ^ 128 + 2 ^ 160 + 7 * 2 ^ 192], maps := [[⟨0, 1, 0, 0x100, 0, 4, 0, 1, 0, 1, 0⟩], [⟨0, 1, 0, 0x140, 0, 4, 0, 1, 0, 1, 0⟩]], phases := [], losses := [], epsR := 0 }

/-- The same over three modules. -/
def tplM : Template := { tpl with index := 1, members := [0, 1, 2], group := [0, 1, 2] }

/-- An image whose context 5 runs a template. -/
def img (t : Template) : Image := { Image.empty with contexts := [(5, ⟨some t.index, 1⟩)], templates := [t], modules := t.members.length }

/-- The module in service at frame 20, with context 5 READY from a template on core 1 and host session 3 bound to it. -/
def svc (t : Template) : State :=
  let s : State := { State.reset with
    frame := 20, now := 2000000,
    pwr := { PowerSt.empty with converting := true, enable := true }, img := { ImageSt.empty with accepted := img t } }
  let s := ((((s.put F.DEV_STATE_PHASE 0 1).put F.FRM_PERIOD_P_US 0 100).put F.LNK_TICK_UNALIGNED 0 0).put F.ETH_PORT_LINK_UP 0 1).place 5 t
  let s := (s.put F.CTX_STATE_STATE 5 2).updCtx 5 (fun x => { x with unsound := [], opening := x.layers })
  let s := (((s.put F.HSESS_CFG_VALID 3 1).put F.HSESS_CFG_CTX 3 5).put F.HSESS_ADDR3_ADDR 3 77).put F.SYNC_CORE_ACTIVE_CTX 1 5
  s.publish

/-- One module's service. -/
def one : State := svc tpl

/-- Service of module 0 of three. -/
def multi : State := svc tplM

/-- Words from an address on in core 1's scratchpad. -/
def sp (a : Nat) (l : List Word) (s : State) : State := s.setWords (spAddr 1 a) l

/-- A vector instruction of one vector on operands at 0x100 and 0x200, result at 0x400. -/
def vec (type aux : Nat) (bimm : Bool) : VecInstr := ⟨type, 1, false, bimm, 1, 0x400, 0x100, aux, 0, 3, 0x200, 0⟩

/-- Three operand words, mask register 1 with lanes 0, 1 and 3. -/
def vecs : State :=
  (sp 0x100 [0x3F800000, 0x40000000, 0xC0400000, 0x7F800000] (sp 0x200 [0x3F800000, 0xC0000000, 3] (sp 0x400 [7, 8, 9, 10] one))).updCore 1
    (fun x => { x with masks := [(1, 0xB)] })

/-- A tile with saturations in counter 3 and one with zeros. -/
def tiles : State := (vecs.store (accAddr 1 0x3C018) 4 (5 + 2 ^ 15 + 3 * 2 ^ 16)).store (accAddr 1 0x3C01C) 4 64

/-- A matrix descriptor of one tile of 2 x 2 over 32 FP32 elements. -/
def mat : MatrixDesc := ⟨0, 1, 1, 0, 0, false, false, 0, 0, 0, 0, 2, 2, 32, 0, 0x100, 128, 0x200, 128, 0, 0, 0x3F800000, 0x3F800000, 0x800, 64, 7⟩

/-- A DMA descriptor of 16 bytes inside the context's own scratchpad region. -/
def dma : DmaDesc := ⟨0, 1, 2, 0, 0, 1, 1, 7, 1, 0x100, 0x140, 0, 4, 1, 1, 0, 0, 0, 0, 0xABCD1234⟩

/-- Flit header of port 2 from module 1 for context 5, with a frame tag. -/
def head (vc ftag : Nat) : FlitHead := ⟨2, vc, 1, 5, 0, ftag⟩

/-- Waits armed on core 1. -/
def waiting : State := (one.putSet 1 5 { SaveArea.empty with baseFrame := 20, ctrs := [(7, ⟨4, 0, 0, 0, 0⟩)] }).updCore 1 (fun x => { x with waits := [(2, ⟨7, 0, 4, 0⟩), (3, ⟨7, 0, 9, 0⟩)] })

/-- A link port in a state. -/
def port (n st : Nat) (s : State) : State := s.put F.LNK_PORT_STATE n st

/-- Link port 2 up, with module 1 on its other end. -/
def linked : State := port 2 6 { multi with img := { multi.img with accepted := { multi.img.accepted with topo := [(0, ⟨0, [⟨1, 4, true, 10⟩, ⟨1, 4, true, 10⟩, ⟨1, 4, true, 10⟩], 1, 0⟩), (1, ⟨leNum (shake256 (beNums 68 7) 32), [], 0, 0⟩)], holders := 1, reserves := [(1, 0x9000, 0xA000)] } } }

/-- A pass of batt 8 on eight inputs. -/
def pass : BattPass := ⟨8, 0, none, false, [0x3F800000, 0x40000000, 0, 0, 0, 0, 0, 0x42FE0000],
  [[(3, 1), (0, 2), (5, 0), (0, 0)]], some (spAddr 1 0x150)⟩

/-- Change batt 8 of the service. -/
def bt (f : Batt → Batt) : State := one.updBatt 8 f

/-- Batt 8 as a load leaves it: column-group scales of 1. -/
def loaded : State := bt (fun x => { x with scale := List.replicate 32 0x3F800000 })

/-- Change layer 0 of context 5. -/
def ly (f : LayerSt → LayerSt) : State := one.updLayer 5 0 f

/-- Core 1 waits for its persistent region. -/
def rebuild : State := ({ one with img := { one.img with accepted := { one.img.accepted with persist := [⟨5, 1, 0x40, 0x3000, 8⟩] } } } : State).setBytes 0x3000
  [1, 2, 3, 4, 5, 6, 7, 8] |>.updCore 1 (fun x => { x with rebuilding := true })

/-- A batt whose reference was lost. -/
def reflost : State := (ly (fun y => { y with refLost := true })).put F.BATT_FAULTS_REF_DISCARDS 8 3

/-- Layer 0 with passes beyond its charge. -/
def overs : State := ly (fun y => { y with overs := List.range 18 })

/-- A debt row that has waited too long, and one that has not. -/
def starved : State := { one with frame := 20000 }.updCtx 5 (fun x => { x with debt := [⟨8, 1, 2, 5, false⟩, ⟨8, 2, 2, 15000, false⟩] })

/-- Rows open for blocking: row 1 in this frame's plan, row 2 marked by a fulling pass, a spare in filling. -/
def open_ : State :=
  let s := bt (fun x => { x with open_ := true, fulMarked := [2], ceiling := [(1, 4), (2, 4)], filling := [⟨3, 1024, []⟩] })
  { s with fr := { s.fr with plans := [⟨20, [], [], [(8, 1)], [5], 0, [], []⟩] } }

/-- One operation on a row that ends with its first verify: a weight column, the reference columns and a spare. -/
def row (kind r gen : Nat) : RowOp :=
  ⟨8, r, gen, kind, false, [⟨[[(0, [0, 0, 0, 0]), (1024, [0, 0, 0, 0]), (1056, [960, 0, 0, 0]), (1057, [0, 0, 0, 0])]]⟩], 5⟩

/-- The same on the reference columns alone. -/
def refRow (kind r gen : Nat) : RowOp := ⟨8, r, gen, kind, false, [⟨[[(1056, [960, 0, 0, 0]), (1057, [0, 0, 0, 0])]]⟩], 5⟩

/-- Batt 8 without an owner under a calibration request with the factory pattern. -/
def patterned : State :=
  { open_ with batts := tset Batt.empty open_.batts 8 { Batt.empty with open_ := true, pattern := true, ceiling := [(1, 4)] },
               cal := { open_.cal with run := some ⟨0, 8, 0xFFF0⟩ } }

/-- A fulling pass due on batt 8. -/
def fulldue : State := bt (fun x => { x with fulNow := true })

/-- A fulling pass that has read nothing, and one that has read every row. -/
def fulling (n : Nat) : State := bt (fun x => { x with open_ := true, fulBusy := true, fulStart := some 5, fulRows := (List.range n).map (fun r => (r, 100)) })

/-- A spare column with every row filled. -/
def filledSpare : Fill := ⟨3, 1024, (List.range 1024).map (fun r => (r, 7))⟩

/-- A row at its wear limit, a column with its faults, a spare filled, a record due. -/
def worn : State := bt (fun x => { x with
  wear := [(4, 950000)], ceiling := [(4, 950001)], colFaults := [(2, 8)], filling := [filledSpare], recordDue := true })

/-- A tick with nothing to plan. -/
def tickArgs : TickArgs := ⟨[], [], 0, 0, [], []⟩

/-- A held signal and bytes written to module 1. -/
def held : State := { multi with fr := { multi.fr with signals := [⟨1, 5, 0, 1, 7, 1, 64⟩], wrote := [⟨1, 5, 0, 0x1000, 64⟩] } }

/-- The same in a killed frame. -/
def killed : State := { held with fr := { held.fr with killed := some 1 } }

/-- Resets in progress: an engine of core 1, core 2, die 1, and the device alone. -/
def resetting : State :=
  { one with flt := { one.flt with resets := [⟨1, 1, 0, 5, 2⟩, ⟨2, 2, 0, 5, 2⟩, ⟨3, 1, 0, 5, 2⟩] } }

/-- A device reset in progress, its limit passed. -/
def devreset : State := { one with now := 100000000, flt := { one.flt with resets := [⟨4, 0, 0, 5, 2⟩] } }

/-- OUT_OF_SERVICE at the next tick. -/
def oosdue : State := { one with flt := { one.flt with oosDue := some 3 } }

/-- The owner's management session. -/
def owned (s : State) : State :=
  let s := (s.put F.OWN_SESS_STATE 0 2).put F.OWN_SESS_STATE 1 1
  let s := (s.updMgmt 0 (fun x => { x with addr := 77, udp := 1, nonce := 9, lastMsg := s.now })).updMgmt 1 (fun x => { x with addr := 77, udp := 1, nonce := 9, lastMsg := s.now })
  s.publish

/-- A request of the owner. -/
def req (arg0 arg1 len : Nat) : Req := ⟨0, 0xFFF0, 9, 0, 0, arg0, arg1, len, 77, false, 1, 5⟩

/-- Core 1 has failed too often; no spare, and with core 44 as a spare. -/
def failing : State := (one.updCore 1 (fun x => { x with failed := [1, 2, 3, 4, 5] })).put F.FLT_STATE_FENCE_FAILS 0 3
def spare : State := failing.put F.FLT_CORE_ROLE 44 1

/-- A spare under test, which serves core 1, and context 5 held by the module. -/
def testing : State := ((one.updCore 1 (fun x => { x with testing := true })).put F.CTX_STATE_STATE 5 4).put F.CTX_STATE_MODULE_HELD 5 1
def moduleHeld : State := ((one.put F.CTX_STATE_STATE 5 4).put F.CTX_STATE_MODULE_HELD 5 1).publish

/-- Records waiting for the flash, kills and failed tests. -/
def logged : State := { (one.updCore 1 (fun x => { x with failed := [1, 2] })) with
  flt := { one.flt with logBuf := [⟨7, 0x0501, 3, 0, 0, 1, 2, 0, 0⟩], logSeq := 8, kills := [0, 1999999], devResets := [5] } }

/-- The same without a spare, and resets that are late. -/
def noSpare : State := (List.range 16).foldl (fun s k => s.put F.FLT_CORE_ROLE (48 * (k / 4) + 44 + k % 4) 2) failing
def late : State := { resetting with now := 100000000 }

/-- A request of host session 3 on context 5. -/
def host (arg0 arg1 len : Nat) : Req := ⟨0, 3, 9, 5, 0, arg0, arg1, len, 77, false, 1, 5⟩

/-- A request of the owner on context 5. -/
def ownCtx (len : Nat) : Req := { req 0 0 len with ctx := 5 }

/-- A whole datagram of host session 3 with bytes 64 on of a 128-byte message. -/
def seg (ofs len : Nat) : Segment := ⟨0, true, true, true, true, true, len + 32, 1, 1, ofs, len, host 16 0 128⟩

/-- A message in reassembly, one that has waited, and a quiet identity. -/
def reasm : State := { one with ports := { one.ports with reasm := [⟨3, 1, 9, 0, 128, 0, 5, 16, 0, [(0, 64)], 2000000, false⟩, ⟨3, 1, 8, 0, 128, 0, 5, 0, 0, [], 5, false⟩, ⟨3, 1, 7, 0, 0, 0, 0, 0, 0, [], 5, true⟩] } }

/-- The service with an address on port 0. -/
def addressed : State := { one with img := { one.img with accepted := { one.img.accepted with net := [⟨0x0A000001, 0x0A0000FE, 0, 0, false, 0, false, []⟩] } } }

/-- A stream is due. -/
def streaming : State := ({ owned one with frame := 1000 } : State).put F.HSESS_CFG_STREAM 3 1 |>.publish

/-- A window closes on context 5. -/
def windowed : State := { one with frame := 1000 }

/-- Contexts free, loading with a request, and with an export held. -/
def free : State := owned ((one.put F.CTX_STATE_STATE 5 0).setCtx 5 Ctx.empty)
def loading (l : LoadRun) (s : State) : State := (s.put F.CTX_STATE_STATE 5 1 |>.publish).updCtx 5 (fun x => { x with loading := some l })
def pkgLoad (stage : Nat) : LoadRun := ⟨some (ownCtx 64), false, 0, stage, 20, none, [], [], false, none⟩
def exported : State := (owned one).updCtx 5 (fun x => { x with ckpt := { x.ckpt with exports := [⟨0, 0, 4, 11, 12, 100, 0, 3, 0, 9, 0, false, false⟩], nextExportId := 1 } })

/-- Bytes 0x00 to 0xB7 of an owner's credential: serial 5, epoch 0, every module, the smallest signature sets. -/
def cred : Nat := (0x01010103 * 256 ^ 8 + 5) * 256 ^ 172

/-- Fuses from bit lo on that hold the hash of a public key of zeros. -/
def keyFuses (lo : Nat) : Tbl Bool :=
  (List.range 256).filterMap (fun i =>
    if 88809516059964478265476088622939130374630695796280130688709869328421832161247 / 2 ^ i % 2 = 1 then some (lo + i, true) else none)

/-- A claim of an owner on the unclaimed module's session under verification, and the module whose root that credential's key has. -/
def claimed : Claim := ⟨true, ⟨0, 0xFFFF, 9, 0, 0, 1, 0, 5512, 88, false, 2, 5⟩, 6, 20, 2000000, cred, none⟩
def claiming : State := { owned one with
  ports := { (owned one).ports with claims := [claimed], nonces := [] }
  sec := { one.sec with fuses := keyFuses 256 } }

/-- The owner has been silent. -/
def silent : State := { owned one with now := 40000000000 }

/-- A write of the owner. -/
def reqw : Req := req 0 0 12

/-- Context 5 in a state. -/
def ctxIn (k : Nat) (s : State) : State := s.put F.CTX_STATE_STATE 5 k

/-- A teardown with its fence tick chosen, with the fence done, and a released context not yet zero. -/
def tearing : State := (ctxIn 5 one |>.publish).updCtx 5 (fun x => { x with fence := some 10 })
def fencedOff : State := (ctxIn 5 one).updCtx 5 (fun x => { x with fence := some 10, fenced := true })
def released : State := (sp 0x100 [7] one).updCtx 5 (fun x => { x with zeroing := true })

/-- A parked context whose UNPARK is wanted, and one with a fault due. -/
def unparking : State := (ctxIn 4 one).put F.CTX_STATE_UNPARK_PENDING 5 1 |>.publish
def faulting : State := one.updCtx 5 (fun x => { x with faultDue := some 3 })

/-- Calibrations of batt 8 and of the idle power. -/
def calibrating : State := ({ owned one with cal := { one.cal with run := some ⟨0, 8, 0xFFF0⟩ } } : State).put F.CAL_STATUS_BUSY 0 1
def calOut : State := { (owned one).put F.DEV_STATE_PHASE 0 2 |>.put F.FLT_STATE_CAUSE 0 5 with cal := { one.cal with run := some ⟨2, 0, 0xFFF0⟩ } }

/-- Firmware newer than the fused SVN, an owner key, a fuse blow in progress, a quote in progress. -/
def fusing : State :=
  { (owned one).put F.SEC_BOOT_SVN_FW 0 3 with sec := { one.sec with fuses := tset false one.sec.fuses 300 true, blow := [⟨836, 1, 1, true⟩] } }
def quoting : State := { owned one with sec := { one.sec with quoteBusy := some 5, signed := some 4, limit := 10, nextIndex := 5 } }
def debugging : State := { owned one with sec := { one.sec with dbgOpen := some 0 } }

/-- Slot A in erasure, in sealing, and with a word programmed. -/
def slotA (f : SlotSt → SlotSt) : State := { owned one with img := { one.img with slotA := f one.img.slotA } }

/-- The words of an image of eight empty sections. -/
def emptyImage : List (Nat × Word) :=
  [(0, 0x4F4C4157), (4, 0x474D4952), (8, 0x80001), (0x10, 0x140), (0x14, 0)] ++
    ((List.range 8).map (fun i => [(0x44 + 32 * i, (0x140 : Word)), (0x48 + 32 * i, 0), (0x4C + 32 * i, 0), (0x50 + 32 * i, 0)])).flatten

/-- Link port 2 in a state, with its peer known and other fields changed. -/
def lp (st peer : Nat) (f : Link → Link) : State := ((port 2 st linked).put F.LNK_PORT_PEER_ID 2 peer).updLink 2 f

/-- The module as number 1, whose peer 0 is its parent. -/
def child : State :=
  let s := lp 6 0 (fun l => { l with secret := 5, newSecret := 6, tx := some ⟨1, 2, 3⟩, rx := some ⟨1, 2, 3⟩, peerState := 1 })
  let s : State := { s with img := { s.img with accepted := { s.img.accepted with parent := some 0, topo := [(0, ⟨0, [], 0, 0⟩), (1, ⟨0, [⟨0, 2, true, 10⟩, ⟨0, 2, true, 10⟩, ⟨0, 2, true, 10⟩], 1, 0⟩)] } } }
  s.put F.LNK_ID_MODULE_ID 0 1

/-- The anchor of three modules, with children 1 and 2. -/
def anchor : State := { linked with img := { linked.img with accepted := { linked.img.accepted with children := [1, 2] } } }

/-- A HELLO of module 1 and the messages of a key exchange on port 2. -/
def hello (ok : Bool) : HelloMsg := ⟨2, 1, 4, linked.pol 0, if ok then 0 else 1, 5⟩
def kex (sig : Bool) : KexMsg := ⟨2, 7, sig, 99⟩

/-- A seal block and its group on port 2, empty of flits. -/
def sealBlock (bad tag : Bool) : SealGroup := ⟨2, 5, 0, bad, tag, 7, 1, 1, false, 0, false, 3, [1, 2], 0, []⟩

/-- MACsec in use on Ethernet port 0. -/
def macsec : State := (owned linked).put F.ETH_PORT_MACSEC_ON 0 1

/-- A sample of host session 3. -/
def sample (f : Nat) : Sample := ⟨3, 1, f, 8, [1, 2, 3, 4, 5, 6, 7, 8]⟩

/-- A step of one sample at a stage. -/
def run (stage : Nat) : StepRun := { StepRun.start 1 ⟨[sample 5], [], false, false⟩ 0 18 0x3F800000 with stage := stage, nTot := 1, updated := [] }

/-- Context 5 with its record changed. -/
def cx (f : Ctx → Ctx) (s : State) : State := s.updCtx 5 f

/-- Context 5 in a step. -/
def inStep (r : StepRun) (s : State) : State := cx (fun x => { x with step := some r }) s

/-- A sample has waited. -/
def waitingSample (s : State) : State := cx (fun x => { x with intake := [sample 5] }) s

/-- An entry of 8-bit elements from core 1's scratchpad to another place of it. -/
def card : CardOp := ⟨5, 9, 0⟩

/-- UPDATE of the tensor. -/
def upd : UpdateOp := ⟨5, 0x5000, [0], 1, 2, []⟩

/-- A checkpoint is being taken and the step beyond it is about to update. -/
def pinned : State := cx (fun x => { x with step := some { run 1 with step := 10 }, updates := 9, ckpt := { x.ckpt with run := some ⟨0, 1, [0], some 0, 5, [], [], [], none⟩ } }) (one.put F.CTX_STEP_LO_STEP_LO 5 9)

/-- A batt whose transfer list is beyond its bound. -/
def tplW : Template := { tpl with layers := [{ lay with rows := 0 }] }
def fullNaps : State := (inStep (run 3) (svc tplW)).updBatt 8 (fun x => { x with naps := List.replicate 16385 ⟨900, 1, 0⟩ })

/-- A thin tensor of one column of factors, and the template with both tensors. -/
def thin : Tensor := { ten with id := 1, rank := 1, part := ⟨6, 0x1100, 0x1180, 16⟩, sum := 0x1200, phat := 0x1300, qsum := 0x1400, resid := ⟨3, 0x1500, 0x1600, 16⟩ }
def tplX : Template := { tplM with tensors := [ten, thin] }

/-- A header of the step with its data, in a receive region. -/
def part (a kind sender count tensor first : Nat) (l : List Word) (s : State) : State :=
  (s.setBytes a (leBytes 6 1 ++ leBytes 1 0 ++ leBytes 1 kind ++ leBytes 4 sender ++ leBytes 4 count ++ leBytes 4 tensor ++ leBytes 4 first ++
    leBytes 4 l.length ++ leBytes 36 0)).setWords (a + 64) l

/-- The exchange of a step runs. -/
def exch0 : State := inStep (run 0) (svc tplX)
def ex (f : ExchSt → ExchSt) (s : State) : State := cx (fun x => { x with exch := f x.exch }) s

/-- Own part at 0x100 and both other members' parts of a sum of a kind. -/
def parts (kind tensor : Nat) (l : List Word) : State :=
  part 0x8000 kind 1 3 tensor 0 l (part 0x9000 kind 2 4 tensor 0 l (exch0.setWords 0x100 l))

/-- Results of a chunk from the checker and from the referee. -/
def results (a b : List Word) : State := part 0x8000 7 1 0 0 0 a (part 0x9000 7 2 0 0 0 b (exch0.setWords 0x200 [1, 2, 3, 4]))

/-- A transfer of n elements to member 1, sums, chunks and gathered masters. -/
def xfer (kind tensor n : Nat) : Xfer := ⟨kind, tensor, 0, n, 1, 0x2000, 1, 7, 0x100, 0⟩
def sumOp (tensor kind n : Nat) : SumOp := ⟨5, tensor, [0x8000, 0x9000], 0x100, [xfer kind tensor n], true, some 0x5000⟩
def chunk (own : Nat) : ChunkOp := ⟨5, 0, 0, 0, 0, 4, own, [0x8000, 0x9000], [xfer 7 0 4], [1]⟩
def gather (last : Bool) : GatherOp := ⟨5, 1, [0x8000], last⟩

/-- A step record of member 1. -/
def rec1 (step frame arg : Nat) : StepRec := ⟨⟨2, 2, 1, 5, 0, 0⟩, step, 0, 0, 1, false, arg, frame, false⟩

/-- A module of the group, with the copies of a chunk from the two others. -/
def copier (me a b : Nat) : State :=
  let s := part 0x8000 6 a 3 0 0 [1, 2, 3, 4] (part 0x9000 6 b 4 0 0 [1, 2, 3, 4] ((exch0.setWords 0x100 [1, 2, 3, 4]).put F.LNK_ID_MODULE_ID 0 me))
  { s with img := { s.img with accepted := { s.img.accepted with policy := tset 0 s.img.accepted.policy 0x50 65536 } } }

/-- A digest of a scope from member 1. -/
def digest (scope step d : Nat) : DigestMsg := ⟨⟨2, 2, 1, 5, 0, 0⟩, step, 0, scope, 1, 2, d, 8, 9⟩

/-- The first step after one at which full digests are compared. -/
def fullStep : State := inStep { run 0 with step := exch0.digestSteps + 1 } exch0

/-- A decision of disputes is due: first, again with one odd member, again without a majority. -/
def deciding (tries : Nat) (l : List (Nat × Nat)) : State := ex (fun e => { e with digestAt := some 21, tries := tries, full := l }) exch0

/-- A duplicate of core 1's item 4 is picked; the referee of its mismatch is awaited. -/
def dupPlan : State := { one with fr := { one.fr with plans := [⟨20, [], [], [], [5], 0, [], [(1, 4)]⟩] } }
def dup (b : Nat) (ran : Bool) : DupOp := ⟨1, 0, 4, 50, 111, b, ran, 5⟩
def refereed : State := { one with flt := { one.flt with referee := some ⟨1, 4, 50, 111, 112, 0⟩ } }
def refOp (v : Nat) : DupOp := ⟨1, 0, 4, 100, v, v, true, 5⟩

/-- Core 1 under observation; a margin frame comes; core 1's margin test runs. -/
def observed : State := one.updCore 1 (fun x => { x with obsUntil := some 5 })
def marginDue (next : Nat) (s : State) : State := { s with frame := one.pol 0x68 - 1, flt := { s.flt with marginNext := next } }
def marginRun : State := { one with flt := { one.flt with marginRun := some (1, false) } }

/-- A generation of context 5 with one sample. -/
def gen1 : Generation := ⟨4, 7, 3, 2, 1, 2, 0x3F800000, 0, 0, 0, 0, [(3, 1, 1)], [], [], [], [sample 5], some 0, true⟩

/-- Context 5 of a module that names itself as its holder, with a checkpoint run. -/
def held1 (t : Template) : State := { svc t with img := { (svc t).img with accepted := { (svc t).img.accepted with topo := [(0, ⟨0, [], 1, 0⟩), (1, ⟨0, [], 0, 0⟩)] } } }
def ck (f : CkptSt → CkptSt) (s : State) : State := cx (fun x => { x with ckpt := f x.ckpt }) s
def taking (ms : List Nat) (taken : Option Nat) (s : State) : State := ck (fun k => { k with run := some ⟨7, 4, ms, taken, 5, [], [], [], some gen1⟩ }) s

/-- A record of a member or a holder. -/
def recOf (holder : Bool) (step arg : Nat) : StepRec := { rec1 step 20 arg with holder := holder }

/-- The lead module may start a checkpoint at this commit. -/
def leading (s : State) : State := (ck (fun k => { k with fresh := true }) s).updCtx 5 (fun x => { x with window := 21 })

/-- A load or restore of context 5 at a stage. -/
def restoring (l : LoadRun) (t : Template) : State := (ctxIn 1 (svc t) |>.publish).updCtx 5 (fun x => { x with loading := some l })
def load1 (stage : Nat) (g : Option Generation) : LoadRun := ⟨none, true, 1, stage, 20, g, [], [], false, none⟩
def restoreOp (found ok : Bool) : RestoreOp := ⟨5, some gen1, found, ok, false, [], [], true⟩

/-- A logged step to compute again. -/
def replaying : State := cx (fun x => { x with replays := [7], log := [⟨2, 0, 1, 0, 0, 0, 5, 0, false, false, false, 7, 2, 0, 0, 1, 5, 6, 1, 0, []⟩] }) one

/-- Member 1 is adopted: its moments are awaited. -/
def adopting : State := ex (fun e => { e with adopting := [(1, 5, false)], lost := [(1, 5)] }) (svc tplX)

/-- A record of a type. -/
def recT (i : Nat) : StepRec := { recOf false 7 4 with type := i }

/-- Words of an image: firmware, policy at its defaults, one module, an empty monitor table and no contexts. -/
def section_ (i kind ofs len : Nat) : List (Nat × Word) :=
  [(0x40 + 32 * i, BitVec.ofNat 32 kind), (0x44 + 32 * i, BitVec.ofNat 32 ofs), (0x48 + 32 * i, 0), (0x4C + 32 * i, BitVec.ofNat 32 len), (0x50 + 32 * i, 0)]
def imageWords : List (Nat × Word) :=
  [(0, 0x4F4C4157), (4, 0x474D4952), (8, 0x80001), (0xC, 0), (0x10, 0x5A00), (0x14, 0)] ++
    (section_ 0 1 0x140 0xB80 ++ section_ 1 2 0xCC0 0x1000 ++ section_ 2 3 0x1CC0 0x180 ++ section_ 3 4 0x1E40 0 ++ section_ 4 5 0x1E40 4100 ++
      section_ 5 6 0x2E80 0x2000 ++ section_ 6 7 0x4E80 0 ++ section_ 7 10 0x4E80 2888) ++
    (List.range 17).map (fun k => (0x140 + 4 * k, 0)) ++ (List.range 41).map (fun k => (0xCC0 + 4 * k, BitVec.ofNat 32 (policyDefault (4 * k)))) ++
    [(0x184, 1), (0x1CC0, 1), (0x1CC4, 0), (0x1CC8, 0), (0x1CCC, 1), (0x1E40, 1), (0x1E44, 0x100), (0x1E48, 32000000), (0x1E4C, 0), (0x1E50, 0)] ++
    (List.range 80).map (fun k => (0x1D00 + 4 * k, 0))

/-- Their seal, computed. -/
def sealWords : List (Nat × Word) :=
  (List.range 16).map (fun k => (0x5A00 + 4 * k, BitVec.ofNat 32
    (1790283967550171903987524170289323755578949157494756201068433444193977474649290287295357992468814409615171012804951 / 2 ^ (32 * k))))

/-- Operands of a start: what the crypto engine says of each slot, nothing lost, no readings. -/
def check (ok : Bool) : SlotCheck := ⟨ok, true, true, img tpl, 0, 0⟩
def boot (a b : Bool) : BootArgs := ⟨check a, check b, [], true, [], [], [], []⟩

/-- Two sealed slots, with power and without. -/
def sealedSlot : SlotSt := ⟨sealWords ++ imageWords, false, false⟩
def sealed2 (on : Bool) : State := { one with
  sec := { one.sec with fuses := keyFuses 0 }
  pwr := { one.pwr with converting := on, enable := true }
  img := { one.img with slotA := sealedSlot, slotB := sealedSlot } }

/-- The monitor's table has one entry: channel 3, two conversions, limits -5 and 5. -/
def monitoring (u : List Nat) (l : List Int) : State :=
  let s := (one.put F.MON_CFG_LENGTH 0 1).setReg (F.MON_ENTRY_WORD.addr 0) (3 + 2 ^ 8 * 2) |>.setReg (F.MON_ENTRY_WORD.addr 1) (2 ^ 4)
  let s := s.setReg (F.MON_ENTRY_WORD.addr 2) 0x05FFFFFB |>.setReg (F.MON_ENTRY_WORD.addr 3) 0
  { s with pwr := { s.pwr with urgent := u, conversions := l } }

/-- Readings of the frame 19, and a device reset in progress with and without a trip. -/
def readings : State := { one with pwr := { one.pwr with readings := [(1900005, 700000), (1950000, 500000)] } }
def devReset (trip : Bool) : State := { (one.put F.DEV_STATE_PHASE 0 3) with pwr := { one.pwr with tripped := trip }, flt := { one.flt with resets := [⟨4, 0, 0, 5, 2⟩] }, img := { one.img with slotA := sealedSlot } }

/-! Further states and operands. -/
def case1 : VecInstr := {vec 0 1 true with srcB := 256}
def noWork : WorkItem := ⟨1, 0, 0, [], [], [], [], [], [], [], [], none, []⟩
def case2 : TileRef := ⟨0, 0, 2, 0, 0, false, [], noWork⟩
def case3 : DmaDesc := {dma with dstKind := 4, dstModule := 1}
def case4 : Instr := .copy 1 {dma with dstKind := 4, dstModule := 1}
def case5 : DmaDesc := {dma with srcAddr := 0x300}
def case6 : Instr := .copy 1 {dma with srcAddr := 0x300}
def case7 : MatrixDesc := {mat with fmtA := 0xF}
def case7b : MatrixDesc := {mat with stream := true, gen := 9}
def case8 : DmaDesc := {dma with dims := 7}
def case9 : VecInstr := {vec 0 0 false with type := 5}
def case10 : SignalOp := ⟨5,0,1,7,2,8⟩
def case11 : SignalOp := ⟨5,1,1,7,2,8⟩
def case12 : FlitHead := {head 0 5 with gen := 3}
def case13 : List SignalEntry := [⟨1,7,3,64⟩,⟨1,8,3,64⟩]
def case14 : SignalEntry := ⟨1,7,3,64⟩
def case15 : RefSlot := ⟨8,[967,967,968],[0,0,0]⟩
def case16 : List RefSlot := [⟨8,[967,967,968],[0,0,0]⟩]
def case17 : ShadowOp := ⟨8,[1,2,3],[0,0,0,0],8⟩
def case18 : FulRead := ⟨8,0,[(0,[1,2,3,4]),(1056,[960,960,960,960])]⟩
def case19 : LogRec := ⟨7, 0x0501, 3, 0, 0, 1, 2, 0, 0⟩
def case20 : Segment := {seg 0 64 with toUs := false}
def case21 : PtpMsg := ⟨0,0,true,5,6⟩
def case22 : List LaneFig := [⟨0,40,30⟩,⟨1,10,30⟩]
def case23 : List SampleData := [⟨0,[1,2,3,4,5,6,7,8,9,10,11,12]⟩]
def case24 : ExportRun := ⟨0, 0, 4, 11, 12, 100, 0, 3, 0, 9, 0, false, false⟩
def case25 : List WriteEntry := [⟨F.CTX_LR_SCALE_LR_SCALE.addr 5, 5, 0xFF⟩]
def case26 : List WriteEntry := [⟨0x1010, 5, 0xFFFFFFFF⟩]
def case27 : List WriteEntry := [⟨0x400060, 5, 0xFFFFFFFF⟩]
def case28 : WriteEntry := ⟨0x400060, 5, 0xFFFFFFFF⟩
def case29 : Req := {req 1 0 5512 with session := 0xFFFF}
def case32 : State := { quoting with sec := { quoting.sec with signed := none } }
def case33 : FuseBlow := ⟨836, 1, 1, true⟩
def case34 : State := { quoting with sec := { quoting.sec with limit := 5 } }
def case35 : State := slotA (fun x => { x with words := emptyImage })
def case36 : State := slotA (fun x => { x with erasing := true })
def case37 : State := slotA (fun x => { x with sealing := true })
def case38 : List WriteEntry := [⟨0xB000, 5, 0xFFFFFFFF⟩]
def case39 : State := lp 5 1 (fun l => { l with secret := 5 })
def case40 : State := lp 6 1 (fun l => { l with resends := List.replicate 9 2000000 })
def case41 : State := lp 6 1 (fun l => { l with rekeyStart := some 5 })
def case42 : State := lp 6 1 (fun l => { l with rekeyStart := some 2000000, newSecret := 6, rekeyFinSent := some 5 })
def case43 : State := lp 6 1 (fun l => { l with rekeyStart := some 2000000, newSecret := 6, rekeyFinGot := some 5 })
def case44 : DirKey := ⟨1, 2, 3⟩
def case45 : JoinMsg := ⟨2, 50, 2, 4⟩
def case46 : State := { anchor with now := 10^12 }
def case47 : State := { (child.put F.LNK_TICK_UNALIGNED 0 0) with now := 10^9, link := {child.link with ports := [], noParentSince := some 5}}
def case48 : StepRun := {run 1 with step := 10}
def case49 : State := cx (fun x => { x with skips := 4 }) one
def case50 : State := inStep { run 3 with held := true, naps := [(8, 1)] } one
def case51 : State := cx (fun x => { x with exch := { x.exch with resumeAt := some 21, votes := [(0, 1)] } }) (inStep { run 3 with held := true } multi)
def case52 : State := (inStep (run 3) loaded).updLayer 5 0 (fun y => { y with overflow := 100000000, esc := [⟨1, [9, 10], 9, 0, 3⟩] })
def case53 : State := (inStep (run 3) loaded).updLayer 5 0 (fun y => { y with fallback := 1 })
def case54 : State := (one.updLayer 5 0 (fun y => { y with leaving := [2], staticRows := [(2, true), (3, false)] })).updBatt 8 (fun x => { x with staged := [⟨2, [], [], 0⟩] })
def case55 : State := (one.updLayer 5 0 (fun y => { y with rescale := true })).updBatt 8 (fun x => { x with loadIn := true })
def case56 : State := parts 0 0 [0x3F800000, 0x40000000, 0, 0x3F800000]
def case57 : XferHead := ⟨1,0,5,1,3,0,0,4⟩
def case58 : State := ex (fun e => { e with refereed := [0] }) (results [1,2,3,5] [1,2,3,4])
def case59 : State := ex (fun e => {e with rerunAt := some 21}) exch0
def case60 : State := {exch0 with frame := 1000000}
def case61 : FlitHead := ⟨2, 2, 1, 5, 0, 0⟩
def case62 : State := ex (fun e => {e with stateAt := some 21, votes := [(0,0)], states := [(1,true)]}) exch0
def case63 : State := ex (fun e => {e with stateAt := some 21, states := [(1,false)]}) exch0
def case64 : State := restoring (load1 5 none |> fun l => { l with restore := false, request := some (ownCtx 5) }) tpl
def case65 : State := ck (fun k => {k with lostHolders := [0]}) one
def case66 : State := let s := taking [0,1] (some 1) (held1 tplX); { s with img := {s.img with accepted := {s.img.accepted with holders := 2, topo := [(0, ⟨0, [], 1, 2⟩), (1, ⟨0, [], 0, 0⟩)]}}}
def case67 : HolderOp := ⟨1,5,7,3,3⟩
def case68 : State := ck (fun k => {k with run := some ⟨7, 4, [0,1], some 1, 5, [1], [], [], none⟩}) (held1 tplX)
def case69 : State := ex (fun e => {e with lost := [(1,5)]}) (taking [0,1] (some 1) (held1 tplX))
def case70 : State := {taking [0] (some 1) one with frame := 10^7}
def case71 : State := {one with now := 10^15}
def case72 : RestoreOp := {restoreOp true true with given := none}
def case73 : RestoreOp := {restoreOp true true with given := some {gen1 with template := 9}}
def case74 : Generation := {gen1 with template := 9}
def case75 : State := restoring {load1 0 none with restore := false} tpl
def case76 : RestoreOp := {restoreOp true true with model := true, given := some gen1}
def case77 : State := restoring {load1 2 (some gen1) with members := [(0,4),(2,4)]} tplX
def case78 : State := restoring {load1 2 (some gen1) with members := [(0,4),(2,5)]} tplX
def case79 : State := (restoring (load1 6 (some gen1)) tpl).updCtx 5 (fun x => {x with unsound := []})
def case80 : State := { restoring {load1 1 none with init2 := true} tpl with frame := 10^7 }
def case81 : LogEntry := ⟨2, 0, 1, 0, 0, 0, 5, 0, false, false, false, 7, 2, 0, 0, 1, 5, 6, 1, 0, []⟩
def case82 : State := {adopting with frame := 10^6}
def case83 : State := {one with now := 10^12, pwr := {one.pwr with reserve := 200}}
def case84 : State := {sealed2 true with img := {(sealed2 true).img with restart := true}}

/-- Core 1 with a narrowed tile that waits for its check, over the operands of the samples. -/
def guarded : State := vecs.updCore 1 (fun x => { x with guards := [⟨5, 3, spAddr 1 0x100, 64, spAddr 1 0x400, 64, false⟩] })

/-- A module that does not hold the tick. -/
def apart (s : State) : State := s.put F.LNK_TICK_UNALIGNED 0 1
def packed : VecInstr := { vec 0 4 true with count := 1, srcB := 256 }
def byTarget : VecInstr := { vec 0 1 true with srcB := 0 }
def unsealed : State := loading { pkgLoad 0 with pkg := some ⟨0, [], true, true⟩ } one
def faultingAs (k : Nat) : State := one.updCtx 5 (fun x => { x with faultDue := some k })
def bridged : State := { one with link := { one.link with bridging := some (40, 1, 70000) } }
def powerOff : State := { one with pwr := { one.pwr with converting := false } }
def joined (n : Nat) : State := one.updLayer 5 0 (fun y => { y with staticRows := (List.range n).map (fun r => (r, true)) })
def crowded : State := (worn.updLayer 5 0 (fun y => { y with staticRows := (List.range 64).map (fun r => (r + 100, true)) }))

/-! For every claim, states and operands that meet the hypotheses of each of its clauses together. -/

theorem witness_VectorArithmetic :
    (∀ op ∈ [1, 2, 3, 4, 5, 6, 7, 8], ((vec 0 0 false).legal op = true) ∧ (vecs.vecRuns 1 (vec 0 0 false) op = true)) ∧
    (∀ op ∈ [1, 2, 3, 4, 5, 6, 7, 8], ((vec 0 0 false).legal op = true) ∧ (guarded.vecRuns 1 (vec 0 0 false) op = false)) := by decide +kernel

theorem witness_VectorSelection :
    ∀ op ∈ [0x09, 0x12, 0x28, 0x13, 0x29], ((vec 0 0 false).legal op = true) ∧ (vecs.vecRuns 1 (vec 0 0 false) op = true) := by decide +kernel

theorem witness_VectorFunctions :
    (∀ op ∈ [0x18, 0x19, 0x1A, 0x1B], ((vec 0 0 false).legal op = true) ∧ (vecs.vecRuns 1 (vec 0 0 false) op = true)) ∧
    (((vec 0 0 true).legal 0x35 = true) ∧ (vecs.vecRuns 1 (vec 0 0 true) 0x35 = true)) ∧
    ((case1.legal 0x22 = true) ∧ (vecs.vecRuns 1 case1 0x22 = true)) := by decide +kernel

theorem witness_VectorConversion :
    (((vec 0 0 false).legal 0x20 = true) ∧ (vecs.vecRuns 1 (vec 0 0 false) 0x20 = true)) ∧
    ((packed.legal 0x21 = true) ∧ (vecs.vecRuns 1 packed 0x21 = true) ∧ (vecs.groupRuns 1 (some ⟨0, 9, 5⟩) (packed.aux % 16) = false)) ∧
    ((byTarget.legal 0x21 = true) ∧ (vecs.vecRuns 1 byTarget 0x21 = true) ∧ (vecs.groupRuns 1 none (byTarget.aux % 16) = true) ∧
      (byTarget.aux % 16 = 1 ∨ byTarget.aux % 16 = 2)) ∧
    ((packed.legal 0x21 = true) ∧ (vecs.vecRuns 1 packed 0x21 = true) ∧ (vecs.groupRuns 1 (some ⟨0, 9, 4⟩) (packed.aux % 16) = true) ∧
      (isNarrow (packed.aux % 16) = true) ∧ (1 < 192)) := by decide +kernel

theorem witness_VectorMasks :
    ∀ op ∈ [0x10, 0x11, 0x3C, 0x3D], ((vec 0 0 false).legal op = true) ∧ (vecs.vecRuns 1 (vec 0 0 false) op = true) := by decide +kernel

theorem witness_VectorReductions :
    ∀ op ∈ [0x30, 0x31, 0x32, 0x33, 0x34], ((vec 0 0 false).legal op = true) ∧ (vecs.vecRuns 1 (vec 0 0 false) op = true) := by decide +kernel

theorem witness_VectorTileCheck :
    ((1 < 192) ∧ ((vec 0 0 false).legal 0x38 = true) ∧ (tiles.vecRuns 1 (vec 0 0 false) 0x38 = true) ∧
      (inTrouble 0 case2.satMax case2.zeroMax (tiles.tileCtr 1 (vec 0 0 false).tcx) = true) ∧ ((nextRung 0 5).isSome = true)) ∧
    ((1 < 192) ∧ ((vec 0 0 false).legal 0x38 = true) ∧ (vecs.vecRuns 1 (vec 0 0 false) 0x38 = true) ∧
      (inTrouble 0 case2.satMax case2.zeroMax (vecs.tileCtr 1 (vec 0 0 false).tcx) = false)) := by decide +kernel

theorem witness_MatrixOperation :
    ((mat.ok = true) ∧ (1 < 192) ∧ (vecs.mayRun 1 0 = true) ∧ (vecs.untouched 1 (matReads 1 mat) (matWrites 1 mat) = true) ∧
      (mat.stream = false) ∧ (mat.gen = vecs.gen (vecs.active 1))) ∧
    ((case7b.ok = true) ∧ (1 < 192) ∧ (vecs.mayRun 1 0 = true) ∧ (vecs.untouched 1 (matReads 1 case7b) (matWrites 1 case7b) = true) ∧
      (case7b.stream = true) ∧ ((case7b.n * elemBits case7b.outFmt + 7) / 8 ≤ case7b.outStride) ∧
      (case7b.m * case7b.outStride + 4 * case7b.m * (case7b.n + 128) < 2 ^ 22) ∧ (case7b.gen ≠ vecs.gen (vecs.active 1))) := by decide +kernel

theorem witness_DmaMoves :
    (((Instr.copy 1 dma, 1) ∈ [(Instr.copy 1 dma, 1), (Instr.fill 1 dma, 2), (Instr.transpose 1 dma, 3)]) ∧ (dma.ok 1 = true) ∧
      (1 < 192) ∧ (vecs.mayRun 1 3 = true) ∧ (vecs.dmaUntouched 1 dma 1 = true) ∧ (vecs.dmaInside 1 (vecs.active 1) dma 1 = true) ∧
      (dma.dstKind ≠ 4) ∧ (dma.gen = vecs.gen (vecs.active 1)) ∧ (vecs.physOf dma.sigCore = some 1)) ∧
    (let d := { dma with gen := 9 }
     (d.ok 1 = true) ∧ (vecs.mayRun 1 3 = true) ∧ (vecs.dmaUntouched 1 d 1 = true) ∧ (vecs.dmaInside 1 (vecs.active 1) d 1 = true) ∧
      (d.dstKind ≠ 4) ∧ (d.gen ≠ vecs.gen (vecs.active 1))) := by decide +kernel

theorem witness_DmaRemoteAndOutside :
    (((case4, 1) ∈ [(Instr.copy 1 case3, 1), (Instr.fill 1 case3, 2), (Instr.transpose 1 case3, 3)]) ∧ (case3.ok 1 = true) ∧
      (vecs.mayRun 1 3 = true) ∧ (vecs.dmaUntouched 1 case3 1 = true) ∧ (vecs.dmaInside 1 (vecs.active 1) case3 1 = true) ∧
      (case3.dstKind = 4) ∧ (vecs.vcOpen case3.vc = true)) ∧
    ((case3.ok 1 = true) ∧ ((State.mayRun (apart vecs) 1 3) = true) ∧ ((apart vecs).dmaUntouched 1 case3 1 = true) ∧
      ((apart vecs).dmaInside 1 ((apart vecs).active 1) case3 1 = true) ∧ (case3.dstKind = 4) ∧ ((apart vecs).vcOpen case3.vc = false)) ∧
    (((case6, 1) ∈ [(Instr.copy 1 case5, 1), (Instr.fill 1 case5, 2), (Instr.transpose 1 case5, 3)]) ∧ (case5.ok 1 = true) ∧
      (vecs.mayRun 1 3 = true) ∧ (vecs.dmaUntouched 1 case5 1 = true) ∧ (1 < 192) ∧ (vecs.dmaInside 1 (vecs.active 1) case5 1 = false)) := by
  decide +kernel

theorem witness_ReservedCodesStop :
    (case7.ok = false) ∧ (case8.ok 1 = false) ∧ (case8.ok 2 = false) ∧ ({ dma with esize := 3 }.ok 3 = false) ∧ (3 ≤ 3) ∧
    (∀ op ∈ [1, 2, 3, 4, 5, 6, 7, 8, 9, 0x10, 0x11, 0x12, 0x18, 0x19, 0x1A, 0x1B, 0x20, 0x21, 0x22, 0x28, 0x29, 0x30, 0x31, 0x32, 0x33, 0x34, 0x35],
      case9.legal op = false) ∧
    ((vec 0 0 true).legal 0x13 = false) ∧ ((vec 0 4 false).legal 0x38 = false) ∧ ({ vec 0 0 false with srcB := 127 }.legal 0x3C = false) := by
  refine ⟨?_, ?_, ?_, ?_, ?_, ?_, ?_, ?_, ?_⟩ <;> decide +kernel

theorem witness_SyncUnit :
    ((vecs.fr.killed = none) ∧ (case10.gen = vecs.gen case10.ctx) ∧ ∃ p ∈ (vecs.physOf case10.core), True) ∧
    ((vecs.fr.killed = none) ∧ (case11.gen ≠ vecs.gen case11.ctx) ∧ (case11.ctx < 1024)) ∧
    ((vecs.mayIssue 1 = true) ∧ (1 < 12) ∧ (1 < 3) ∧ (∀ (e : Nat × Wait), e ∈ (vecs.core 1).waits → e.fst ≠ 1)) ∧
    (∃ e ∈ (List.find? (fun x => decide (x.fst = 2)) (waiting.core 1).waits), (waiting.waitMet 1 e.snd = true)) ∧
    (∃ e ∈ (List.find? (fun x => decide (x.fst = 3)) (waiting.core 1).waits), (waiting.waitMet 1 e.snd = false)) ∧
    ((1 < 192) ∧ (1 < 1024) ∧ (vecs.mayIssue 1 = true) ∧ (vecs.active 1 ≠ 1)) := by
  refine ⟨?_, ?_, ?_, ?_, ?_, ?_⟩ <;> decide +kernel

theorem witness_WriteFlit :
    ((linked.vcOpen (head 1 5).vc = true) ∧ ((head 1 5).vc = 1) ∧ (linked.inReserve (head 1 5).src 36864 [1, 2, 3].length = true)) ∧
    ((linked.vcOpen (head 1 5).vc = true) ∧ ((head 1 5).vc ≠ 1 ∨ linked.inReserve (head 1 5).src 4096 [1, 2, 3].length = false) ∧
      ∃ r ∈ (linked.receiveRegion (head 1 5).ctx 4096 [1, 2, 3].length), ((head 1 5).gen = linked.gen (head 1 5).ctx) ∧
      (linked.physOf r.core = some 1)) ∧
    ((linked.vcOpen case12.vc = true) ∧ (case12.vc ≠ 1 ∨ linked.inReserve case12.src 4096 [1, 2, 3].length = false) ∧
      ∃ r ∈ (linked.receiveRegion case12.ctx 4096 [1, 2, 3].length), (case12.gen ≠ linked.gen case12.ctx) ∧ (case12.ctx < 1024)) ∧
    ((linked.vcOpen (head 1 5).vc = true) ∧ ((head 1 5).vc ≠ 1 ∨ linked.inReserve (head 1 5).src 1 [1, 2, 3].length = false) ∧
      (linked.receiveRegion (head 1 5).ctx 1 [1, 2, 3].length = none) ∧ ((head 1 5).port < 32)) := by decide +kernel

theorem witness_SignalFlits :
    ((linked.vcOpen (head 0 4).vc = true) ∧ ((head 0 4).ftag = linked.frame % 16)) ∧
    ((linked.vcOpen (head 1 5).vc = true) ∧ ((head 1 5).ftag ≠ linked.frame % 16) ∧ ((head 1 5).gen = linked.gen (head 1 5).ctx) ∧
      (linked.physOf case14.core = some 1)) ∧
    (((apart linked).vcOpen (head 1 5).vc = false)) ∧
    (((head 1 5).gen = linked.gen (head 1 5).ctx)) := by decide +kernel

theorem witness_ForwardPass :
    (∃ k ∈ (one.battLayer pass.batt), (pass.batt < 1536) ∧ (k.fst < 1024) ∧ (one.mayRun (pass.batt / 8) (8 + pass.batt % 8) = true) ∧
      (k.snd.fst = pass.layer) ∧ (one.serves k.fst k.snd.fst pass.batt = true) ∧
      (pass.query.isSome ∨ one.stageMode k.fst k.snd.fst pass.batt ≠ 1) ∧ (one.stageMode k.fst k.snd.fst pass.batt = 0) ∧ (pass.recompute = false)) := by
  decide +kernel

theorem witness_ReferencePasses :
    ((one.phase = 1) ∧ (case15.batt < 1536)) ∧
    (((rebuild.core 1).rebuilding = true) ∧ ((rebuild.core 1).resetting = none) ∧
      (∀ (g : Persist), g ∈ rebuild.img.accepted.persist → g.home + g.length ≤ 2 ^ 41)) ∧
    (∃ k ∈ (reflost.battLayer 8), (8 < 1536) ∧ ((reflost.layer k.fst k.snd.fst).refLost = true) ∧
      (∀ (u : Nat × Nat), u ∈ reflost.unblocked k.fst → u.fst ≠ 8)) := by decide +kernel

theorem witness_ShadowSplitsAndDebt :
    (∃ k ∈ (one.battLayer case17.batt), (case17.batt < 1536) ∧ (one.battHot case17.batt = false) ∧ (one.phase = 1)) ∧
    ((overs.pol 24 < List.foldl (fun x1 x2 => x1 + x2) 0 (List.map (fun e => ((fun l => List.filter (fun n => decide (overs.frame < n + 1000)) l) e.snd.overs).length) (overs.ctx 5).layers))) ∧
    (∃ d ∈ (starved.ctx 5).debt, d.starved = false ∧ d.since + 10000 < starved.frame ∧ d.batt < 1536) := by decide +kernel

theorem witness_RowOperations :
    (∃ k ∈ (open_.battLayer 8), ∃ runs ∈ (open_.openLoad (row 0 1 0) k.1 k.2.1 k.2.2).rowRuns 8 ((open_.openLoad (row 0 1 0) k.1 k.2.1 k.2.2).target 8 k.1 k.2.1 k.2.2 1) (row 0 1 0).tries,
      (open_.mayBlock (row 0 1 0) = true) ∧ ((row 0 1 0).kind < 3) ∧ ((row 0 1 0).gen = open_.gen k.1) ∧
      (open_.wearFits 8 1 ((open_.openLoad (row 0 1 0) k.1 k.2.1 k.2.2).colCode 8 ((open_.openLoad (row 0 1 0) k.1 k.2.1 k.2.2).target 8 k.1 k.2.1 k.2.2 1)) runs = true)) ∧
    (∃ k ∈ (open_.battLayer 8), ∃ runs ∈ (open_.openLoad (row 3 1 7) k.1 k.2.1 k.2.2).rowRuns 8 ((open_.openLoad (row 3 1 7) k.1 k.2.1 k.2.2).target 8 k.1 k.2.1 k.2.2 1) (row 3 1 7).tries,
      (open_.mayBlock (row 3 1 7) = true) ∧ ((row 3 1 7).kind = 3) ∧ ((open_.batt 8).filling ≠ []) ∧ ((row 3 1 7).gen ≠ open_.gen k.1) ∧ (k.1 < 1024) ∧
      (open_.wearFits 8 1 ((open_.openLoad (row 3 1 7) k.1 k.2.1 k.2.2).colCode 8 ((open_.openLoad (row 3 1 7) k.1 k.2.1 k.2.2).target 8 k.1 k.2.1 k.2.2 1)) runs = true)) ∧
    (∃ runs ∈ patterned.rowRuns 8 (State.patternCode 1) (refRow 1 1 0).tries, (patterned.mayBlock (refRow 1 1 0) = true) ∧
      (patterned.patternDue 8 = true) ∧ ((refRow 1 1 0).kind = 1) ∧
      (patterned.wearFits 8 1 (patterned.colCode 8 (State.patternCode 1)) runs = true)) := by
  refine ⟨?_, ?_, ?_⟩ <;> decide +kernel

theorem witness_Fulling :
    ((fulldue.phase = 1) ∧ (fulldue.parked 8 = false) ∧ ((fulldue.batt 8).fulBusy = false) ∧
      ((fulldue.batt 8).fulNow = true ∨ fulldue.fulDue 8 ≤ fulldue.now + 0)) ∧
    (((fulling 0).mayIssue (case18.batt / 8) = true) ∧ (((fulling 0).batt case18.batt).open_ = true) ∧
      (((fulling 0).batt case18.batt).ran = false) ∧ ((fulling 0).parked case18.batt = false) ∧ (((fulling 0).batt case18.batt).fulBusy = true) ∧
      (((fulling 0).batt case18.batt).fulRows.length = case18.row) ∧ (case18.row < 1024)) ∧
    ((8 < 1536) ∧ (((fulling 1024).batt 8).fulBusy = true) ∧ (((fulling 1024).batt 8).fulRows.length = 1024) ∧
      (((fulling 1024).batt 8).fulMarked = []) ∧ ((fulling 1024).pol 48 ≤ (fulling 1024).pol 52)) := by decide +kernel

theorem witness_WearAndSpares :
    ((tget 0 (one.batt 0).ceiling 0 ≤ tget 0 (one.batt 0).wear 0 + 1)) ∧
    ((8 < 1536) ∧ (worn.pol 44 ≤ tget 0 (worn.batt 8).wear 4) ∧ (¬4 ∈ (worn.batt 8).worn) ∧ (¬4 ∈ (worn.batt 8).newWorn) ∧ (worn.listed 8 < 64)) ∧
    ((8 < 1536) ∧ (crowded.pol 44 ≤ tget 0 (crowded.batt 8).wear 4) ∧ (¬4 ∈ (crowded.batt 8).worn) ∧ (¬4 ∈ (crowded.batt 8).newWorn) ∧ (64 ≤ crowded.listed 8)) ∧
    (∃ k ∈ (joined 64).battLayer 8, (k.1 < 1024) ∧ (64 ≤ (((joined 64).layer k.1 k.2.1).staticRows.filter (fun e => decide (e.1 ≠ 70))).length)) ∧
    (∃ k ∈ (joined 3).battLayer 8, (k.1 < 1024) ∧ ((((joined 3).layer k.1 k.2.1).staticRows.filter (fun e => decide (e.1 ≠ 2))).length < 64)) ∧
    (∃ f ∈ (List.find? (fun f => decide (f.col = 3)) (worn.batt 8).filling), (∀ (r : Nat), r < 1024 → r ∈ (worn.batt 8).worn ∨ ∃ e, e ∈ f.rows
      ∧ e.fst = r) ∧ (∀ (m : Nat × Nat), m ∈ (worn.batt 8).newMap → m.fst ≠ 3)) ∧
    (((worn.batt 8).recordDue = true)) :=
  ⟨by decide +kernel, by decide +kernel, by decide +kernel, by decide +kernel, by decide +kernel,
    ⟨filledSpare, by decide +kernel, fun r h => Or.inr ⟨(r, 7), List.mem_map.2 ⟨r, List.mem_range.2 h, rfl⟩, rfl⟩, by decide +kernel⟩,
    by decide +kernel⟩

theorem witness_ColumnRetire :
    ((8 < 1536) ∧ (8 ≤ tget 0 (worn.batt 8).colFaults 2) ∧ (¬2 ∈ (worn.batt 8).retired) ∧ (worn.weightCol 8 2 = some 2)) ∧
    (let s := worn.updBatt 8 (fun x => { x with colFaults := [(3, 8)] })
     (8 < 1536) ∧ (8 ≤ tget 0 (s.batt 8).colFaults 3) ∧ (¬3 ∈ (s.batt 8).retired) ∧ (s.weightCol 8 3 = some 3) ∧
      (∃ f ∈ (s.batt 8).filling, f.col = 3 ∧ f.spare ≠ 3 ∧ f.spare ∉ (s.batt 8).retired)) ∧
    (let s := worn.updBatt 8 (fun x => { x with colFaults := [(1050, 8)] })
     (8 < 1536) ∧ (8 ≤ tget 0 (s.batt 8).colFaults 1050) ∧ (¬1050 ∈ (s.batt 8).retired) ∧ (s.weightCol 8 1050 = none)) := by decide +kernel

theorem witness_TickAdvances :
    ((one.pwr.converting = true) ∧ (one.pwr.clock = true) ∧ (one.phase ≠ 0) ∧ (one.link.bridging = none)) ∧
    ((bridged.pwr.converting = true) ∧ (bridged.pwr.clock = true) ∧ (bridged.phase ≠ 0) ∧ (bridged.link.bridging = some (40, 1, 70000))) ∧
    (powerOff.pwr.converting = false) ∧ (State.reset.phase = 0) := by decide +kernel

theorem witness_WorkDeadline :
    ((true = true ∨ one.waitsUnmet = true) ∧ (one.phase = 1) ∧ (one.fr.killed = none)) ∧
    ((false = false) ∧ (one.waitsUnmet = false)) := by decide +kernel

theorem witness_CommitWindow :
    ((one.phase = 1) ∧ (one.fr.killed = none)) ∧
    ((killed.phase = 1) ∧ (killed.fr.killed.isSome = true)) ∧
    (State.reset.phase ≠ 1) := by decide +kernel

theorem witness_EngineFaults :
    ((one.phase = 1) ∧ (one.fr.killed = none) ∧ ((one.flt.resets.any fun r => resetCovers r.scope (1, 0, 0)) = false)) ∧
    ((one.phase = 1) ∧ (one.fr.killed = none) ∧ ((one.flt.resets.any fun r => resetCovers r.scope (1, 0, 3)) = false) ∧ (3 = 3)) ∧
    ((one.phase = 1) ∧ (one.fr.killed = none) ∧ ((one.flt.resets.any fun r => resetCovers r.scope (1, 0, 9)) = false) ∧ (9 = 8 + 1)) := by decide +kernel

theorem witness_ResetsBegin :
    (((one.flt.resets.any fun r => resetCovers r.scope (1, 0, 0)) = false)) ∧
    (((one.flt.resets.any fun r => resetCovers r.scope (2, 0, 0)) = false)) ∧
    (((one.flt.resets.any fun r => resetCovers r.scope (3, 0, 0)) = false)) := by decide +kernel

theorem witness_DeviceResets :
    (((one.flt.resets.any fun r => resetCovers r.scope (4, 0, 0)) = false)) ∧
    (((one.flt.resets.any fun r => resetCovers r.scope (4, 0, 0)) = false) ∧ (0 < 4)) ∧
    (((one.flt.resets.any fun r => resetCovers r.scope (4, 0, 0)) = false) ∧ (one.phase = 1)) := by decide +kernel

theorem witness_ResetsEnd_asked :
    ¬ (one.flt.resets.any fun r => resetCovers r.scope (1, 0, 0)) ∧ (devreset.flt.resets.any fun r => resetCovers r.scope (4, 0, 0)) ∧
    (resetting.flt.resets.any fun r => resetCovers r.scope (2, 60, 0)) ∧ (resetting.flt.resets.any fun r => resetCovers r.scope (1, 2, 3)) ∧
    (resetting.flt.resets.any fun r => resetCovers r.scope (3, 1, 0)) := by decide +kernel

theorem witness_ResetsEnd :
    (∃ r ∈ (List.find? (fun r => decide (r.scope = (1, 1, 0))) late.flt.resets), (r.start + resetTime 1 ≤ late.now + 0) ∧ (1 = 1) ∧
      ((late.flt.resets.any fun r => resetCovers r.scope (2, 1, 0)) = false)) ∧
    (∃ r ∈ (List.find? (fun r => decide (r.scope = (2, 2, 0))) resetting.flt.resets), (r.start + resetTime 2 ≤ resetting.now + 0) ∧ (2 = 2)
      ∧ ((resetting.flt.resets.any fun r => resetCovers r.scope (3, 2 / 48, 0)) = false)) ∧
    (∃ r ∈ (List.find? (fun r => decide (r.scope = (3, 1, 0))) late.flt.resets), (r.start + resetTime 3 ≤ late.now + 0) ∧ (3 = 3) ∧
      ((late.flt.resets.any fun r => resetCovers r.scope (4, 0, 0)) = false)) ∧
    (∃ r ∈ (List.find? (fun r => decide (r.scope = (4, 0, 0))) devreset.flt.resets), (r.start + resetTime 4 ≤ devreset.now + 0) ∧ (4 = 4)
      ∧ (devreset.flt.oosDue = none)) ∧
    (∃ r ∈ (List.find? (fun r => decide (r.scope = (1, 1, 0))) late.flt.resets), (1 = 1)) ∧
    (∃ r ∈ (List.find? (fun r => decide (r.scope = (2, 2, 0))) resetting.flt.resets), (2 = 2)) ∧
    (∃ r ∈ (List.find? (fun r => decide (r.scope = (3, 1, 0))) late.flt.resets), (3 = 3)) := by
  refine ⟨?_, ?_, ?_, ?_, ?_, ?_, ?_⟩ <;> decide +kernel

theorem witness_OutOfService :
    (∃ k ∈ oosdue.flt.oosDue, (oosdue.phase ≠ 2)) ∧
    ((TakenOne (owned one) (req 0 0 12) true) ∧ ((owned one).flt.oosDue = none)) ∧
    ((TakenOne (owned one) (req 0 0 12) true) ∧ ((owned one).resetAllowed = true)) := 
  ⟨by decide +kernel, by delta TakenOne; delta Taken; delta Received; decide +kernel, by delta TakenOne; delta Taken; delta Received; decide +kernel⟩

theorem witness_CoreFenceAndSpares :
    ((1 < 192) ∧ (List.filter (fun p => failing.fenceDue p) (List.range 192) = [1]) ∧ (failing.logicalOf 1 = some 1) ∧
      ∃ q ∈ (failing.chooseSpare 1), True) ∧
    ((1 < 192) ∧ (List.filter (fun p => noSpare.fenceDue p) (List.range 192) = [1]) ∧ (noSpare.logicalOf 1 = some 1) ∧
      (noSpare.chooseSpare 1 = none)) ∧
    (((testing.core 1).testing = true)) ∧
    ((1 < 192) ∧ ((testing.core 1).testing = true) ∧ (testing.chooseSpare 1 ≠ some 1)) ∧
    ((5 < 1024) ∧ (moduleHeld.ctxLive 5 = 4) ∧ (moduleHeld.get F.CTX_STATE_MODULE_HELD 5 = 1) ∧ (moduleHeld.unblocked 5 = []) ∧
      (∀ (p : Nat), p ∈ List.filterMap (fun l => moduleHeld.physOf l) (moduleHeld.ctx 5).cores → (moduleHeld.core p).testing = false ∧
      (moduleHeld.core p).rebuilding = false)) := by decide +kernel

theorem witness_LogsAndWindows :
    ((logged.flt.logBuf = [case19])) := by decide +kernel

theorem witness_EthernetPorts :
    ((case20.port < 2) ∧ (case20.toUs = false ∨ case20.vlanOk = false ∨ case20.plain = false ∨ case20.portOk = false)) ∧
    (((seg 0 64).toUs = true) ∧ ((seg 0 64).vlanOk = true) ∧ ((seg 0 64).plain = true) ∧ ((seg 0 64).portOk = true) ∧
      ((seg 0 64).macsecOk = true) ∧ ((seg 0 64).udpLen = (seg 0 64).segLen + 32) ∧ (one.sessionOk (seg 0 64).hdr = true) ∧
      (List.find? (fun e => e.sameId (seg 0 64).hdr.session (seg 0 64).type (seg 0 64).hdr.tag) one.ports.reasm = none) ∧
      (one.fits (seg 0 64).type (seg 0 64).hdr = true) ∧ ((seg 0 64).segOfs + (seg 0 64).segLen ≤ (seg 0 64).hdr.len) ∧
      (one.sessionSlots (seg 0 64).hdr.session < 16) ∧
      ((seg 0 64).type = 3 ∨ (seg 0 64).type = 6 ∨ one.storeUsed (seg 0 64).port + (seg 0 64).hdr.len ≤ 4 * 2 ^ 20)) ∧
    (((seg 64 64).toUs = true) ∧ ((seg 64 64).vlanOk = true) ∧ ((seg 64 64).plain = true) ∧ ((seg 64 64).portOk = true) ∧
      ((seg 64 64).macsecOk = true) ∧ ((seg 64 64).udpLen = (seg 64 64).segLen + 32) ∧ (reasm.sessionOk (seg 64 64).hdr = true) ∧
      ∃ e ∈ (List.find? (fun e => e.sameId (seg 64 64).hdr.session (seg 64 64).type (seg 64 64).hdr.tag) reasm.ports.reasm), (e.quiet = false)
      ∧ (e.len = (seg 64 64).hdr.len) ∧ (e.gen = (seg 64 64).hdr.gen) ∧ (e.ctx = (seg 64 64).hdr.ctx) ∧ (e.arg0 = (seg 64 64).hdr.arg0) ∧
      (e.arg1 = (seg 64 64).hdr.arg1) ∧ ((seg 64 64).segOfs + (seg 64 64).segLen ≤ e.len) ∧ (0 < (seg 64 64).segLen) ∧
      (∀ (q : Nat × Nat), q ∈ e.ranges → q.fst + q.snd ≤ (seg 64 64).segOfs ∨ (seg 64 64).segOfs + (seg 64 64).segLen ≤ q.fst)) ∧
    (∃ e ∈ (List.find? (fun e => e.sameId 3 1 8) reasm.ports.reasm), (e.last + 10 ^ 7 ≤ reasm.now + 167772161) ∧ (e.quiet = false) ∧
      (e.port < 2)) ∧
    (∃ e ∈ (List.find? (fun e => e.sameId 3 1 7) reasm.ports.reasm), (e.last + 10 ^ 7 ≤ reasm.now + 167772161) ∧ (e.quiet = true)) ∧
    ((one.portUp 0 = true) ∧ ((List.filter (fun e => decide (e.fst = 0 ∧ one.now + 0 < e.snd + 10 ^ 9)) one.ports.echoes).length < 100)) ∧
    ((addressed.portUp 0 = true) ∧ (167772161 ≠ 0) ∧ (167772161 = addressed.ownAddr 0 false)) ∧
    ((one.portUp 0 = true) ∧ (0 = one.gateway 0 true ∨ one.isPeer 0 = true)) ∧
    ((case21.port < 2) ∧ (case21.domain = one.pol 148)) ∧
    ((one.portUp 0 = true)) ∧
    ((0 < 2) ∧ (one.portUp 0 = true)) ∧
    ((0 < 2) ∧ (¬(0 = 1 ∧ one.get F.FLT_STATE_CAUSE 0 = 9 ∧ one.img.network = none))) ∧
    ((Received one 0 (host 2 0 16)) ∧ (¬(0 = 1 ∧ hostType 0 = true))) := 
  ⟨by decide +kernel, by decide +kernel, by decide +kernel, by decide +kernel, by decide +kernel, by decide +kernel, by decide +kernel,
    by decide +kernel, by decide +kernel, by decide +kernel, by decide +kernel, by decide +kernel, by delta Received; decide +kernel⟩

theorem witness_StreamsAndWindows :
    ((streaming.phase ≠ 0) ∧ (0 < streaming.frame) ∧ (streaming.frame % max 1 (streaming.pol 20) = 0)) ∧
    ((one.canonical)) := 
  ⟨by decide +kernel, by delta State.canonical; decide +kernel⟩

theorem witness_HostRequests :
    ((Received one 1 (host 2 0 16)) ∧ (firstFail (one.queryChecks (host 2 0 16)) = none) ∧ (one.template (host 2 0 16).ctx = some tpl)) ∧
    ((Received one 3 (host 0 0 12)) ∧ (firstFail (one.sampleChecks (host 0 0 12) case23) = none)) ∧
    ((Received free 6 (ownCtx 24)) ∧ ((ownCtx 24).arg0 = 0) ∧ ((ownCtx 24).arg1 = 0) ∧ (free.phase = 1) ∧
      (free.template (ownCtx 24).ctx = some tpl) ∧ ((ownCtx 24).len ≤ free.pol 152 * 2 ^ 20) ∧ (free.isOwner (ownCtx 24) = true) ∧
      (free.seen F.CTX_STATE_GEN (ownCtx 24).ctx = (ownCtx 24).gen) ∧ (free.ctxState (ownCtx 24).ctx = 0) ∧
      ((free.ctx (ownCtx 24).ctx).reserved = false) ∧ (free.fr.q1 < 256) ∧ ((ownCtx 24).ctx < 1024)) ∧
    ((5 < 1024) ∧ (unsealed.ctxLive 5 = 1) ∧ (unsealed.bindingBad 5 = true) ∧ ((unsealed.ctx 5).loading.bind (fun l => l.request)).isSome) ∧
    ((5 < 1024) ∧ ((loading (pkgLoad 0) one).ctxLive 5 = 1) ∧ (rejLen = rejLen ∨ (rejBudget = rejBudget ∧ 5 = 5))) ∧
    ((loading (pkgLoad 0) one).bindingBad 5 = false) ∧
    ((Received (owned one) 7 (ownCtx 24)) ∧ (firstFail ((owned one).exportChecks (ownCtx 24)) = none) ∧
      ((((owned one).exports (ownCtx 24).ctx).any fun x => x.busy) = false) ∧ ((owned one).exportUsed + 0 ≤ (owned one).exportArea) ∧
      ((owned one).fr.q1 < 256)) ∧
    ((Received exported 7 (ownCtx 24)) ∧ (firstFail (exported.exportChecks (ownCtx 24)) = none) ∧
      (List.find? (fun x => decide (x.id = 0)) (exported.exports (ownCtx 24).ctx) = some case24) ∧
      ((0 + if 0 = 0 then case24.length - 0 else 0) ≤ case24.length) ∧ (exported.fr.q1 < 256)) ∧
    ((Received (owned one) 9 (req 12 1 0)) ∧ (firstFail ((owned one).readChecks (req 12 1 0)) = none)) := by
  delta Received
  refine ⟨?_, ?_, ?_, ?_, ?_, ?_, ?_, ?_, ?_⟩ <;> decide +kernel

theorem witness_ManagementWrites :
    ((Taken (owned one) (req 0 0 12) true) ∧ (1 ≤ case25.length) ∧ (case25.length ≤ 512) ∧ ((req 0 0 12).len = 12 * case25.length) ∧
      (State.firstBad (fun e => match (owned one).entryFault e with | some v => some (v, 0) | none => (owned one).mgmtFault e) 0 case25 = none)) ∧
    ((Taken (owned one) (req 0 0 12) true) ∧ (1 ≤ case25.length) ∧ (case25.length ≤ 512) ∧ ((req 0 0 12).len = 12 * case25.length) ∧
      (State.firstBad (fun e => match (owned one).entryFault e with | some v => some (v, 0) | none => (owned one).mgmtFault e) 0 case25 = none)
      ∧ (5 < 1024) ∧ (case25 = [{ addr := F.CTX_LR_SCALE_LR_SCALE.addr 5, value := 5, mask := 255 : WriteEntry }]) ∧ (255 < 2 ^ 32)) ∧
    ((Taken (owned one) (req 0 0 12) true) ∧ (1 ≤ case26.length) ∧ (case26.length ≤ 512) ∧ ((req 0 0 12).len = 12 * case26.length) ∧
      ∃ v ∈ (State.firstBad (fun e => match (owned one).entryFault e with | some v => some (v, 0) | none => (owned one).mgmtFault e) 0 case26), True) ∧
    ((Taken (owned one) (req 0 0 12) true) ∧ (1 ≤ case27.length) ∧ (case27.length ≤ 512) ∧ ((req 0 0 12).len = 12 * case27.length) ∧
      (∀ (e : WriteEntry), e ∈ case27 → 4194304 ≤ e.addr ∧ e.addr < 4325376) ∧
      (State.firstBad (fun e => Option.map (fun v => (v, 0)) ((owned one).entryFault e)) 0 case27 = none)) ∧
    ((Taken (owned one) (req 0 0 12) true) ∧ (1 ≤ case27.length) ∧ (case27.length ≤ 512) ∧ ((req 0 0 12).len = 12 * case27.length) ∧
      (∀ (e : WriteEntry), e ∈ case27 → 4194304 ≤ e.addr ∧ e.addr < 4325376) ∧
      (State.firstBad (fun e => Option.map (fun v => (v, 0)) ((owned one).entryFault e)) 0 case27 = none) ∧ (case27 = [case28]) ∧
      (case28.addr % 32 = 0) ∧ (case28.mask / 2 ^ 16 % 2 ^ 10 ≠ 0)) := by
  refine ⟨?_, ?_, ?_, ?_, ?_⟩ <;> (delta Taken; delta Received; decide +kernel)

theorem witness_Ownership :
    ((case29.ctx = 0) ∧ (case29.gen = 0) ∧ (case29.arg0 = if true = true then 1 else 0) ∧ (72 ≤ case29.len) ∧ (case29.len ≤ 32768) ∧
      (one.fr.q2 < 64) ∧ (case29.session = 65535 ∧ proofParses cred case29.len = true)) ∧
    (let r := { req 0 0 5512 with addr := 77 }
     (r.ctx = 0) ∧ (r.gen = 0) ∧ (r.arg0 = if false = true then 1 else 0) ∧ (72 ≤ r.len) ∧ (r.len ≤ 32768) ∧ ((owned one).fr.q2 < 64) ∧
      (isMgmt r.session = true ∧ Received (owned one) 11 r)) ∧
    ((Received (owned one) 11 (req 2 0 8)) ∧ ((req 2 0 8).ctx = 0) ∧ ((req 2 0 8).gen = 0) ∧ ((req 2 0 8).arg0 = 2) ∧
      ((owned one).isOwner (req 2 0 8) = true) ∧ ((req 2 0 8).len = 8) ∧ ((owned one).fr.q2 < 64) ∧
      (((owned one).mgmt ((req 2 0 8).session - 65520)).nonce = 9)) ∧
    (∃ c ∈ (List.find? (fun c => decide (c.req.session = 65535 ∧ c.req.tag = 9 ∧ c.nonce = 6 ∧
      c.verdict = none)) claiming.ports.claims), ∃ x ∈ Credential.read c.cred,
      ((false && true && claiming.credentialStands false x && claiming.claimTimely c && (!c.own || decide (x.role = 1))) = false) ∧ (65535 = 65535)) ∧
    (((owned one).fr.q2 < 64) ∧ ((req 0 0 0).ctx = 0) ∧ ((req 0 0 0).gen = 0) ∧ ((req 0 0 0).arg1 = 0) ∧ ((req 0 0 0).len = 0) ∧
      (Received (owned one) 12 (req 0 0 0)) ∧ ((req 0 0 0).arg0 = 0) ∧ ((owned one).isOwner (req 0 0 0) = true)) ∧
    ((Received (owned one) 12 (req 1 0 0)) ∧ ((req 1 0 0).arg0 < 2) ∧ (isMgmt (req 1 0 0).session = true)) ∧
    ((Received (owned one) 13 (req 7 0 0)) ∧ ((req 7 0 0).arg0 < 2 ^ 16) ∧ ((owned one).isOwner (req 7 0 0) = true)) ∧
    (∃ i ∈ silent.ownerIdx, (silent.ports.lease + 5 * 10 ^ 9 ≤ silent.now)) ∧
    ((0 < 8) ∧ (silent.get F.OWN_SESS_STATE 0 ≠ 0) ∧ ((silent.mgmt 0).lastMsg + 30 * 10 ^ 9 ≤ silent.now)) := by
  delta Received
  refine ⟨?_, ?_, ?_, ?_, ?_, ?_, ?_, ?_, ?_⟩ <;> decide +kernel

theorem witness_ContextCommands :
    ((5 < 1024) ∧ (TakenOne case32 reqw false) ∧ (case32.cmdOk 5 1 = true)) ∧
    ((5 < 1024) ∧ (TakenOne (owned (ctxIn 4 one)) reqw false) ∧ ((owned (ctxIn 4 one)).cmdOk 5 2 = true)) ∧
    ((5 < 1024) ∧ (TakenOne case32 reqw false) ∧ (case32.cmdOk 5 3 = true)) ∧
    ((0 < 1024) ∧ (TakenOne case32 reqw false) ∧ (case32.cmdOk 0 1 = false)) ∧
    ((5 < 1024) ∧ (TakenOne case32 reqw false) ∧ (case32.ctxState 5 = 2)) ∧
    ((5 < 1024) ∧ (TakenOne (owned (ctxIn 6 one)) reqw false) ∧ ((owned (ctxIn 6 one)).ctxState 5 = 6)) ∧
    ((5 < 1024) ∧ ∃ n ∈ ((tearing.ctx 5).fence), ((tearing.ctx 5).fenced = false) ∧ (tearing.ctxState 5 = 5) ∧ (n ≤ tearing.frame + 1) ∧
      (tearing.fr.killed = none) ∧ (tearing.lastPlan 5 ≤ 1)) ∧
    ((5 < 1024) ∧ (fencedOff.ctxLive 5 = 5) ∧ ((fencedOff.ctx 5).fenced = true)) ∧
    ((5 < 1024) ∧ (fencedOff.ctxLive 5 = 5) ∧ ((fencedOff.ctx 5).fenced = true) ∧
      ∃ n ∈ ((fencedOff.ctx 5).fence), (n + 2 ≤ fencedOff.frame + 1)) ∧
    ((5 < 1024) ∧ ∃ tm ∈ (released.template 5), ((released.ctx 5).zeroing = true)) ∧
    ((5 < 1024) ∧ (unparking.ctxLive 5 = 4) ∧ (unparking.unblocked 5 = []) ∧
      (unparking.seen F.CTX_STATE_UNPARK_PENDING 5 = 1 ∨ unparking.seen F.CTX_STATE_MODULE_HELD 5 = 1)) ∧
    ((5 < 1024) ∧
      ∃ k ∈ ((faulting.ctx 5).faultDue), (faulting.ctxLive 5 = 2 ∨ faulting.ctxLive 5 = 3 ∨ faulting.ctxLive 5 = 4 ∨ faulting.ctxLive 5 = 1
      ∧ k = 5) ∧ ((faulting.ctx 5).ckpt.run = none) ∧ (k ≠ 1)) ∧
    ((5 < 1024) ∧ ((faultingAs 1).ctx 5).faultDue = some 1 ∧ (faultingAs 1).ctxLive 5 = 2 ∧ ((faultingAs 1).ctx 5).ckpt.run = none) := 
  ⟨by delta TakenOne; delta Taken; delta Received; decide +kernel, by delta TakenOne; delta Taken; delta Received; decide +kernel,
    by delta TakenOne; delta Taken; delta Received; decide +kernel, by delta TakenOne; delta Taken; delta Received; decide +kernel,
    by delta TakenOne; delta Taken; delta Received; decide +kernel, by delta TakenOne; delta Taken; delta Received; decide +kernel,
    by decide +kernel, by decide +kernel, by decide +kernel, by decide +kernel,
    by decide +kernel, by decide +kernel, by decide +kernel⟩

theorem witness_CalibrationRuns :
    ((TakenOne case32 reqw true) ∧ (case32.calWritable = true)) ∧
    (∃ run ∈ calibrating.cal.run, (run.scope = 2 → calibrating.phase = 2 ∧ calibrating.get F.FLT_STATE_CAUSE 0 = 5) ∧
      calibrating.calMeasures run 0 12 = true ∧ calibrating.calWeak run 0 12 = false ∧ calAgree 0 12 100 100 = true ∧
      calRange 0 12 (calStored 0 (calibrating.calItem 0 (calUnit run.scope run.unit) 12) 100 100) = true) :=
  ⟨by delta TakenOne; delta Taken; delta Received; decide +kernel, by decide +kernel⟩

/-- GAIN of a column without signal is refused with reason 3, OFFSET of a spare that is not in service is not measured (R492, R493). -/
theorem test_weak_column :
    (∃ run ∈ calibrating.cal.run, calibrating.calWeak run 1 3 = true ∧ calibrating.calMeasures run 0 (4 * 1030) = false) := by decide +kernel

theorem witness_SecurityCommands :
    ((TakenOne case32 reqw true) ∧ (case32.get F.SEC_STAT_QUOTE_BUSY 0 = 0) ∧
      (∀ (u : Nat), case32.sec.lastQuote = some u → u + 10 ^ 8 ≤ case32.now + reqw.t)) ∧
    ((TakenOne fusing reqw true) ∧ (fusing.svnFused < fusing.get F.SEC_BOOT_SVN_FW 0)) ∧
    ((TakenOne fusing reqw true) ∧ (fusing.get F.SEC_FUSE_LOCK 0 = 0) ∧ (fusing.ownerSet = true)) ∧
    ((TakenOne case32 reqw true) ∧ (case32.get F.SEC_FUSE_LOCK 0 = 0 ∨ 0 % 16 = 0)) ∧
    ((TakenOne case32 reqw true)) ∧
    ((TakenOne case32 reqw true) ∧ (0 ≠ 90)) ∧
    ((fusing.sec.blow = [case33]) ∧ (case33.started = true)) ∧
    (∃ u ∈ case34.sec.quoteBusy, (case34.sec.signed = some 4)) ∧
    ((case32.sec.limit < case32.sec.nextIndex + 256)) ∧
    ((one.sec.nextIndex < one.sec.limit)) ∧
    ((case32.sec.nextIndex < case32.sec.limit) ∧ (case32.sec.quoteBusy.isSome = true) ∧ (case32.sec.signed = none)) ∧
    ((case34.sec.limit ≤ case34.sec.nextIndex)) ∧
    ((TakenOne case32 reqw false) ∧ (case32.debugAllowed 9 ≠ 0) ∧ (case32.sec.dbgOpen = none)) ∧
    ((TakenOne debugging reqw false) ∧ (debugging.sec.dbgOpen = some 0)) := 
  ⟨by delta TakenOne; delta Taken; delta Received; decide +kernel, by delta TakenOne; delta Taken; delta Received; decide +kernel,
    by delta TakenOne; delta Taken; delta Received; decide +kernel, by delta TakenOne; delta Taken; delta Received; decide +kernel,
    by delta TakenOne; delta Taken; delta Received; decide +kernel, by delta TakenOne; delta Taken; delta Received; decide +kernel, by decide +kernel, by decide +kernel,
    by decide +kernel, by decide +kernel, by decide +kernel, by decide +kernel, by delta TakenOne; delta Taken; delta Received; decide +kernel,
    by delta TakenOne; delta Taken; delta Received; decide +kernel⟩

theorem witness_ImageSlots :
    ((TakenOne case32 reqw true) ∧ (case32.imgBusy = false)) ∧
    ((TakenOne case35 reqw true) ∧ (case35.imgBusy = false) ∧ ((case35.slot 0).sealable = true)) ∧
    ((TakenOne case32 reqw true) ∧ (case32.imgBusy = false) ∧ ((case32.slot 0).sealable = false)) ∧
    ((TakenOne case32 reqw true) ∧ (case32.imgBusy = false) ∧ (0 ≠ 165)) ∧
    (((case36.slot 0).erasing = true)) ∧
    (((case37.slot 0).sealing = true)) ∧
    ((Taken case32 (req 0 0 12) true) ∧ (1 ≤ case38.length) ∧ (case38.length ≤ 512) ∧ ((req 0 0 12).len = 12 * case38.length) ∧
      (∀ (e : WriteEntry), e ∈ case38 → 45056 ≤ e.addr ∧ e.addr < 49152) ∧
      (State.firstBad (fun e => match case32.entryFault e with | some v => some (v, 0) | none => case32.winFault e) 0 case38 = none)) := 
  ⟨by delta TakenOne; delta Taken; delta Received; decide +kernel, by delta TakenOne; delta Taken; delta Received; decide +kernel,
    by delta TakenOne; delta Taken; delta Received; decide +kernel, by delta TakenOne; delta Taken; delta Received; decide +kernel, by decide +kernel, by decide +kernel,
    by delta Taken; delta Received; decide +kernel⟩

theorem witness_LinkTraining :
    ((0 < 32) ∧ ((lp 0 1 id).lnk 0 = 0)) ∧
    ((2 < 32) ∧ ((lp 1 1 id).lnk 2 = 1)) ∧
    ((2 < 32) ∧ ((lp 2 1 id).lnk 2 = 2)) ∧
    ((2 < 32) ∧ ((lp 3 1 id).lnk 2 = 3)) ∧
    ((2 < 32) ∧ ((hello true).port = 2) ∧ ((lp 4 1 id).lnk 2 = 4) ∧ ((hello true).topo = (lp 4 1 id).img.accepted.topoHash) ∧
      ((hello true).periodUs = (lp 4 1 id).pol 0) ∧ (((lp 4 1 id).pairing 2).valid = true) ∧
      (((lp 4 1 id).pairing 2).peer = (hello true).peer) ∧ (((lp 4 1 id).pairing 2).peerPort = (hello true).peerPort)) ∧
    ((2 < 32) ∧ ((hello false).port = 2) ∧ ((lp 4 1 id).lnk 2 = 4) ∧ ((hello false).topo ≠ (lp 4 1 id).img.accepted.topoHash)) ∧
    ((2 < 32) ∧ ((kex true).port = 2) ∧ (((lp 5 1 id).put F.LNK_ID_MODULE_ID 0 3).lnk 2 = 5) ∧
      ((((lp 5 1 id).put F.LNK_ID_MODULE_ID 0 3).linkPort 2).timer ≤ ((lp 5 1 id).put F.LNK_ID_MODULE_ID 0 3).now + 0) ∧
      (((lp 5 1 id).put F.LNK_ID_MODULE_ID 0 3).isLower 2 = false) ∧
      (((lp 5 1 id).put F.LNK_ID_MODULE_ID 0 3).peerKnown 2 (kex true).idPk = true) ∧ ((kex true).sigOk = true)) ∧
    ((2 < 32) ∧ ((kex true).port = 2) ∧ ((lp 5 1 id).lnk 2 = 5) ∧ (((lp 5 1 id).linkPort 2).timer ≤ (lp 5 1 id).now + 0) ∧
      ((lp 5 1 id).isLower 2 = true) ∧ ((lp 5 1 id).peerKnown 2 (kex true).idPk = true) ∧ ((kex true).sigOk = true)) ∧
    ((2 < 32) ∧ ((kex false).port = 2) ∧ (((lp 5 1 id).put F.LNK_ID_MODULE_ID 0 3).lnk 2 = 5) ∧
      ((((lp 5 1 id).put F.LNK_ID_MODULE_ID 0 3).linkPort 2).timer ≤ ((lp 5 1 id).put F.LNK_ID_MODULE_ID 0 3).now + 0) ∧
      (((lp 5 1 id).put F.LNK_ID_MODULE_ID 0 3).isLower 2 = false) ∧
      (((lp 5 1 id).put F.LNK_ID_MODULE_ID 0 3).peerKnown 2 (kex false).idPk = false ∨ (kex false).sigOk = false)) ∧
    ((2 < 32) ∧ ((kex false).port = 2) ∧ ((lp 5 1 id).lnk 2 = 5) ∧ (((lp 5 1 id).linkPort 2).timer ≤ (lp 5 1 id).now + 0) ∧
      ((lp 5 1 id).isLower 2 = true) ∧ ((lp 5 1 id).peerKnown 2 (kex false).idPk = false ∨ (kex false).sigOk = false)) ∧
    ((2 < 32) ∧ (case39.lnk 2 = 5) ∧ ((case39.linkPort 2).secret ≠ 0)) ∧
    (0 ≠ State.finOf (case39.linkPort 2).secret (case39.get F.LNK_PORT_PEER_ID 2)) ∧
    ((2 < 32) ∧ (1 ≤ (lp 1 1 id).lnk 2) ∧ ((lp 1 1 id).lnk 2 ≤ 4) ∧
      (((lp 1 1 id).linkPort 2).timer + 40 * 10 ^ 6 ≤ (lp 1 1 id).now + 40000000)) ∧
    ((2 < 32) ∧ ((lp 5 1 id).lnk 2 = 5) ∧ (((lp 5 1 id).linkPort 2).timer + 5 * 10 ^ 6 ≤ (lp 5 1 id).now + 40000000)) ∧
    ((2 < 32) ∧ ((lp 7 1 id).lnk 2 = 7) ∧ (((lp 7 1 id).linkPort 2).timer + 10 ^ 6 ≤ (lp 7 1 id).now + 0)) ∧
    ((2 < 32) ∧ ((lp 8 1 id).lnk 2 = 8) ∧ (((lp 8 1 id).linkPort 2).timer + 10 ^ 9 ≤ (lp 8 1 id).now + 1000000000)) ∧
    ((0 < 32) ∧ (TakenOne (owned linked) reqw false)) := 
  ⟨by decide +kernel, by decide +kernel, by decide +kernel, by decide +kernel, by decide +kernel, by decide +kernel, by decide +kernel,
    by decide +kernel, by decide +kernel, by decide +kernel, by decide +kernel, by decide +kernel, by decide +kernel, by decide +kernel,
    by decide +kernel, by decide +kernel, by delta TakenOne; delta Taken; delta Received; decide +kernel⟩

theorem witness_LinkLoss :
    ((2 < 32) ∧ (linked.lnk 2 = 6) ∧ ((linked.linkPort 2).lastBlock + 10 ^ 4 ≤ linked.now + 0)) ∧
    ((2 < 32) ∧ (linked.lnk 2 = 6)) ∧
    ((2 < 32) ∧ (case40.lnk 2 = 6) ∧
      (8 < (List.filter (fun x => decide (case40.now + 0 < x + 10 ^ 6)) (case40.linkPort 2).resends).length)) ∧
    ((2 < 32) ∧ (case41.lnk 2 = 6) ∧ ∃ b ∈ ((case41.linkPort 2).rekeyStart), (b + 5 * 10 ^ 6 ≤ case41.now + 40000000) ∧
      ((case41.linkPort 2).rekeyFinGot = none ∨ (case41.linkPort 2).rekeyFinSent = none)) ∧
    ((0 < 32) ∧ ((lp 0 1 id).lnk 0 ≠ 9) ∧ ((lp 0 1 id).lnk 0 ≠ 6)) ∧
    ((2 < 32) ∧ ((lp 9 1 id).lnk 2 = 9)) ∧
    ((0 < 32)) := by
  refine ⟨?_, ?_, ?_, ?_, ?_, ?_, ?_⟩ <;> decide +kernel

theorem witness_LinkTrafficAndKeys :
    ((2 < 32) ∧ (linked.lnk 2 = 6) ∧ ((sealBlock true false).port = 2) ∧ ((sealBlock true false).uncorrectable = true)) ∧
    ((2 < 32) ∧ (linked.lnk 2 = 6) ∧ ((sealBlock false false).port = 2) ∧ ((sealBlock false false).uncorrectable = false) ∧
      ((sealBlock false false).tagOk = false)) ∧
    ((2 < 32) ∧ (linked.lnk 2 = 6) ∧ ((sealBlock false true).port = 2) ∧ ((sealBlock false true).uncorrectable = false) ∧
      ((sealBlock false true).tagOk = true) ∧ ((sealBlock false true).flits = [])) ∧
    ((2 < 32) ∧ (linked.lnk 2 = 6) ∧ ((0 + 2 ^ 16 - 0 % 2 ^ 16) % 2 ^ 16 < 32)) ∧
    ((2 < 32) ∧ (linked.lnk 2 = 6) ∧ (32 ≤ (2000000 + 2 ^ 16 - 0 % 2 ^ 16) % 2 ^ 16)) ∧
    ((2 < 32) ∧ (case40.lnk 2 = 6) ∧ (case40.isLower 2 = true) ∧ ((case40.linkPort 2).rekeyStart = none) ∧
      (2 ^ 34 - 2 ^ 20 ≤ 0 ∨ 2 ^ 34 - 2 ^ 20 ≤ 17179869184 ∨ (case40.linkPort 2).lastExchange + dayNs ≤ case40.now + 0)) ∧
    ((2 < 32) ∧ (((lp 6 1 id).put F.LNK_ID_MODULE_ID 0 3).lnk 2 = 6) ∧ ((kex true).port = 2) ∧
      (((lp 6 1 id).put F.LNK_ID_MODULE_ID 0 3).peerKnown 2 (kex true).idPk = true) ∧ ((kex true).sigOk = true) ∧
      (((lp 6 1 id).put F.LNK_ID_MODULE_ID 0 3).isLower 2 = false)) ∧
    ((2 < 32) ∧ (case41.lnk 2 = 6) ∧ ((kex true).port = 2) ∧ (case41.peerKnown 2 (kex true).idPk = true) ∧ ((kex true).sigOk = true) ∧
      (case41.isLower 2 = true) ∧ ((case41.linkPort 2).rekeyStart = some 5) ∧ (case41.now + 0 < 5 + 5 * 10 ^ 6)) ∧
    ((2 < 32) ∧ (case42.lnk 2 = 6) ∧ ((case42.linkPort 2).newSecret ≠ 0) ∧ ((case42.linkPort 2).rekeyStart = some 2000000) ∧
      (case42.now + 0 < 2000000 + 5 * 10 ^ 6)) ∧
    ((2 < 32) ∧ (case42.lnk 2 = 6) ∧ ((case42.linkPort 2).newSecret ≠ 0) ∧ ((case42.linkPort 2).rekeyFinSent = some 5)) ∧
    ((2 < 32) ∧ (case43.lnk 2 = 6) ∧ ((case43.linkPort 2).newSecret ≠ 0) ∧ ((case43.linkPort 2).rekeyFinGot = some 5)) ∧
    ((2 < 32) ∧ (child.lnk 2 = 6) ∧ (4 * 2 ^ 26 / 2 ^ 26 = case44.epoch + 1) ∧ ((child.linkPort 2).tx = some case44)) ∧
    ((2 < 32) ∧ (child.lnk 2 = 6) ∧ (4 * 2 ^ 26 / 2 ^ 26 = case44.epoch + 1) ∧ ((child.linkPort 2).rx = some case44)) ∧
    ((2 < 32) ∧ (macsec.lnk 2 = 6) ∧ (0 < 2) ∧ (TakenOne macsec reqw false) ∧ (macsec.get F.ETH_PORT_MACSEC_ON 0 = 1)) := 
  ⟨by decide +kernel, by decide +kernel, by decide +kernel, by decide +kernel, by decide +kernel, by decide +kernel, by decide +kernel,
    by decide +kernel, by decide +kernel, by decide +kernel, by decide +kernel, by decide +kernel, by decide +kernel,
    by delta TakenOne; delta Taken; delta Received; decide +kernel⟩

theorem witness_SystemTick :
    (((child.put F.DEV_STATE_PHASE 0 0).parentChoice = some (0, case45.port)) ∧ ((child.put F.DEV_STATE_PHASE 0 0).phase = 0)) ∧
    ((case46.img.accepted.children.contains 1 = true)) ∧
    ((case46.ownId = case46.img.accepted.anchor) ∧ (case46.readyTotal < case46.img.accepted.modules) ∧ (case46.link.partialSent = false) ∧
      (case46.link.bootAt + case46.pol 144 * 10 ^ 6 ≤ case46.now)) ∧
    ((linked.link.anchorMoved = false)) ∧
    (((child.put F.LNK_ID_ROLE 0 2).get F.LNK_ID_ROLE 0 = 2) ∧ ((child.put F.LNK_ID_ROLE 0 2).link.anchorMoved = false) ∧
      ((child.put F.LNK_ID_ROLE 0 2).link.anchorMoveAt = none)) ∧
    (((List.replicate 1024 (-77)).length = 1024) ∧ (child.isSource = false)) ∧
    ((child.isSource = false)) ∧
    ((case47.get F.LNK_TICK_UNALIGNED 0 = 0) ∧ (case47.isSource = false) ∧
      (128 < case47.link.theta.natAbs ∨ ∃ b ∈ case47.link.noParentSince, b + 50 * 10 ^ 6 ≤ case47.now + 0)) ∧
    (((child.put F.LNK_TICK_UNALIGNED 0 1).get F.LNK_TICK_UNALIGNED 0 = 1) ∧
      ((child.put F.LNK_TICK_UNALIGNED 0 1).parentChoice.isSome = true)) := by
  refine ⟨?_, ?_, ?_, ?_, ?_, ?_, ?_, ?_, ?_⟩ <;> decide +kernel

theorem witness_TrainingSteps :
    ((5 < 1024) ∧ ((waitingSample one).template 5 = some tpl) ∧ ((waitingSample one).phase = 1) ∧ ((waitingSample one).serving 5 = true) ∧
      (((waitingSample one).ctx 5).step = none) ∧ (((waitingSample one).ctx 5).replays = []) ∧ (tpl.multi = false ∧
      (waitingSample one).stepDue 5 tpl = true ∨ tpl.multi = true ∧ ∃ n, ((waitingSample one).ctx 5).exch.startAt = some n ∧
      n ≤ (waitingSample one).frame)) ∧
    ((5 < 1024) ∧ ((waitingSample multi).template 5 = some tplM) ∧ ((waitingSample multi).phase = 1) ∧
      ((waitingSample multi).serving 5 = true) ∧ (((waitingSample multi).ctx 5).step = none) ∧ (((waitingSample multi).ctx 5).replays = [])
      ∧ (tplM.multi = true) ∧ (((waitingSample multi).ctx 5).exch.startAt = none) ∧ ((waitingSample multi).stepDue 5 tplM = true) ∧
      (((waitingSample multi).ctx 5).exch.ready = false)) ∧
    ((5 < 1024) ∧ (one.template 5 = some tpl) ∧ (card.ctx = 5) ∧ ∃ k ∈ tpl.card card.card, ∃ a ∈ (tpl.maps.getD k.src [])[card.shard]?,
      (a.module = one.ownId) ∧ (one.physOf a.core = some 1) ∧ (one.mayRun 1 3 = true) ∧ (one.active 1 = 5) ∧
      ∃ d ∈ (tpl.maps.getD k.dst []).flatMap (fun b => one.cardDescs 5 k (elemBits k.fmt) a b), d.ok 1 = true ∧ one.dmaUntouched 1 d 1 = true) ∧
    ((5 < 1024) ∧ (pinned.template 5 = some tpl) ∧ (Tests.upd.ctx = 5) ∧ ((pinned.ctx 5).step = some case48) ∧ (pinned.phase = 1) ∧
      (case48.abort = false) ∧ (case48.held = false) ∧ (pinned.pinned 5 = true)) ∧
    ((5 < 1024) ∧ ((inStep (run 0) one).template 5 = some tpl) ∧ (Tests.upd.ctx = 5) ∧ (((inStep (run 0) one).ctx 5).step = some (run 0))
      ∧ ((inStep (run 0) one).phase = 1) ∧ ((run 0).abort = false) ∧ ((run 0).held = false) ∧ ((inStep (run 0) one).pinned 5 = false) ∧
      (tpl.multi = false) ∧ ((run 0).stage = 0)) ∧
    ((5 < 1024) ∧ ((inStep (run 1) one).template 5 = some tpl) ∧ (Tests.upd.ctx = 5) ∧ (((inStep (run 1) one).ctx 5).step = some (run 1))
      ∧ ((inStep (run 1) one).phase = 1) ∧ ((run 1).abort = false) ∧ ((run 1).held = false) ∧ ((inStep (run 1) one).pinned 5 = false) ∧
      (tpl.multi = false) ∧ ((run 1).stage = 1) ∧ (((inStep (run 1) one).ctx 5).exch.adopting = [])) ∧
    ((5 < 1024) ∧ ((inStep (run 3) loaded).template 5 = some tpl) ∧
      ∃ r ∈ (((inStep (run 3) loaded).ctx 5).step), ((inStep (run 3) loaded).phase = 1) ∧ ((inStep (run 3) loaded).fr.killed = none) ∧
      (r.abort = false) ∧ (r.held = false) ∧ (r.stage = 3) ∧ ((inStep (run 3) loaded).ctxLive 5 = 2 ∨ (inStep (run 3) loaded).ctxLive 5 = 3) ∧
      (tpl.multi = true ∨ r.nonFinite = true ∨ r.nTot = 0 ∨ (inStep (run 3) loaded).holdBatts 5 tpl = [])) ∧
    ((5 < 1024) ∧ (fullNaps.template 5 = some tplW) ∧ ∃ r ∈ ((fullNaps.ctx 5).step), (fullNaps.phase = 1) ∧ (fullNaps.fr.killed = none) ∧
      (r.abort = false) ∧ (r.held = false) ∧ (r.stage = 3) ∧ (fullNaps.ctxLive 5 = 2 ∨ fullNaps.ctxLive 5 = 3) ∧ (tplW.multi = false) ∧
      (r.nonFinite = false) ∧ (r.nTot ≠ 0) ∧ (fullNaps.holdBatts 5 tplW ≠ [])) ∧
    ((5 < 1024) ∧ (case49.template 5 = some tpl) ∧ (0 < (case49.ctx 5).skips) ∧ (tpl.skipLimit ≤ (case49.ctx 5).skips)) ∧
    ((5 < 1024) ∧ (case50.template 5 = some tpl) ∧ ∃ r ∈ ((case50.ctx 5).step), (r.held = true) ∧ (tpl.multi = false) ∧
      (∀ (b : Nat × Nat), b ∈ r.naps → (case50.batt b.fst).naps.length < b.snd)) ∧
    ((5 < 1024) ∧ (case51.template 5 = some tplM) ∧ ∃ r ∈ ((case51.ctx 5).step), (r.held = true) ∧ (tplM.multi = true) ∧
      ((case51.ctx 5).exch.resumeAt = some 21) ∧ (21 ≤ case51.frame + 1)) ∧
    ((5 < 1024) ∧ ((inStep (run 3) loaded).template 5 = some tpl) ∧ ((inStep (run 3) loaded).commitDue 5 = true) ∧
      ((inStep (run 3) loaded).fr.killed = none)) ∧
    ((5 < 1024) ∧ (case52.template 5 = some tpl) ∧ (case52.commitDue 5 = true) ∧ (case52.fr.killed = none) ∧
      ∃ y ∈ tpl.layers[0]?, (case52.seen F.BAND_CFG_OVF_LIMIT 0 < (case52.layer 5 0).overflow) ∧ ((case52.layer 5 0).fallback = 0)) ∧
    ((5 < 1024) ∧ (case53.template 5 = some tpl) ∧ (case53.commitDue 5 = true) ∧ (case53.fr.killed = none) ∧
      ∃ y ∈ tpl.layers[0]?, ((case53.layer 5 0).fallback = 1)) ∧
    ((5 < 1024) ∧ (case54.template 5 = some tpl) ∧ (case54.battLayer 8 = some (5, 0, lay)) ∧ (case54.fr.killed = none) ∧
      ∃ r ∈ ((case54.layer 5 0).leaving), (∃ x, x ∈ (case54.batt 8).staged ∧ x.row = r)) ∧
    ((5 < 1024) ∧ (case55.template 5 = some tpl) ∧ (case55.battLayer 8 = some (5, 0, lay)) ∧ (case55.fr.killed = none) ∧
      ((case55.layer 5 0).rescale = true) ∧ ((case55.batt 8).loadIn = true) ∧
      (∀ (i : Nat), i ∈ lay.batts → (case55.batt (case55.battOf i)).loadIn = true ∨ (case55.batt (case55.battOf i)).newScale = none)) := by
  refine ⟨?_, ?_, ?_, ?_, ?_, ?_, ?_, ?_, ?_, ?_, ?_, ?_, ?_, ?_, ?_, ?_⟩ <;> decide +kernel

theorem witness_ExchangeWork :
    ((5 < 1024) ∧ (Exchanging exch0 5 tplX) ∧ ∃ r ∈ ((exch0.ctx 5).step), True) ∧
    ((5 < 1024) ∧ (Exchanging case56 5 tplX) ∧ ((sumOp 0 0 4).ctx = 5) ∧ (tplX.tensor (sumOp 0 0 4).tensor = some ten) ∧
      ∃ l ∈ (State.allSums (List.map (case56.sumAt 5 tplX (case56.heads 5 (sumOp 0 0 4).srcs) 0 ten.id 4 fun e => case56.word (case56.partAt 5 ten + 4 * e)) (ten.elems (case56.ownRows 5 tplX ten)))), True) ∧
    ((5 < 1024) ∧ (Exchanging (Tests.parts 1 1 [1065353216, 1073741824]) 5 tplX) ∧ ((sumOp 1 2 2).ctx = 5) ∧
      (tplX.tensor (sumOp 1 2 2).tensor = some thin) ∧ (thin.rank ≠ 0) ∧
      ((Tests.parts 1 1 [1065353216, 1073741824]).ownerOf 5 tplX thin 0 = (Tests.parts 1 1 [1065353216, 1073741824]).ownIdx tplX) ∧
      (State.allSums (List.map ((Tests.parts 1 1 [1065353216, 1073741824]).sumAt 5 tplX ((Tests.parts 1 1 [1065353216, 1073741824]).heads 5 (sumOp 1 2 2).srcs) 1 thin.id (if thin.bf16 = true then 2 else 4) fun e => (Tests.parts 1 1 [1065353216, 1073741824]).factor thin (sumOp 1 2 2).own e) (List.range (thin.rows * thin.rank))) = some [1077936128, 1086324736])) ∧
    ((5 < 1024) ∧ (Exchanging exch0 5 tplX) ∧ ((sumOp 1 2 2).ctx = 5) ∧ (tplX.tensor (sumOp 1 2 2).tensor = some thin) ∧ (thin.rank ≠ 0)) ∧
    ((5 < 1024) ∧ (Exchanging (Tests.parts 3 1 [1065353216, 1073741824]) 5 tplX) ∧ ((sumOp 1 2 2).ctx = 5) ∧
      (tplX.tensor (sumOp 1 2 2).tensor = some thin) ∧ (thin.rank ≠ 0) ∧
      ((Tests.parts 3 1 [1065353216, 1073741824]).ownerOf 5 tplX thin 0 = (Tests.parts 3 1 [1065353216, 1073741824]).ownIdx tplX) ∧
      (((Tests.parts 3 1 [1065353216, 1073741824]).ctx 5).step = some (run 0)) ∧
      (State.allSums (List.map ((Tests.parts 3 1 [1065353216, 1073741824]).sumAt 5 tplX ((Tests.parts 3 1 [1065353216, 1073741824]).heads 5 (sumOp 1 2 2).srcs) 3 thin.id (if thin.bf16 = true then 2 else 4) fun e => (Tests.parts 3 1 [1065353216, 1073741824]).factor thin (sumOp 1 2 2).own e) (List.range (thin.cols * thin.rank))) = some [1077936128, 1086324736])) ∧
    ((5 < 1024) ∧ (Exchanging (Tests.parts 5 0 [1, 2, 3, 4]) 5 tplX) ∧ ((gather true).ctx = 5) ∧
      (List.filter (fun h => decide (h.snd.kind = 5 ∧
      h.snd.sender = (gather true).owner)) ((Tests.parts 5 0 [1, 2, 3, 4]).heads 5 (gather true).srcs) = [(32768, case57)]) ∧
      (tplX.tensor case57.tensor = some ten)) ∧
    ((5 < 1024) ∧ (Exchanging exch0 5 tplX) ∧ ((gather true).ctx = 5) ∧ ((gather true).last = true) ∧
      (¬(gather true).owner ∈ (exch0.ctx 5).exch.applied)) ∧
    ((5 < 1024) ∧ (Exchanging (copier 1 0 2) 5 tplX) ∧ ((chunk 512).ctx = 5) ∧ (tplX.tensor (chunk 512).tensor = some ten) ∧
      ∃ l ∈ (State.allSums (List.map (fun i => (copier 1 0 2).sumAt 5 tplX ((copier 1 0 2).heads 5 (chunk 512).srcs) 6 ten.id (if (chunk 512).sum ≠ 0
      ∧ ten.bf16 = true then 2 else 4) (fun e => if (if (chunk 512).sum ≠ 0 ∧
      ten.bf16 = true then 2 else 4) = 2 then ofBf16 ((copier 1 0 2).load ((chunk 512).own + 2 * (e - (chunk 512).first)) 2) else (copier 1 0 2).word ((chunk 512).own + 4 * (e - (chunk 512).first))) ((chunk 512).first + i)) (List.range (chunk 512).count))), (((copier 1 0 2).checkersOf 5 tplX ((copier 1 0 2).primaryOf 5 tplX ten (chunk 512)) (chunk 512).chunk).fst = (copier 1 0 2).ownIdx tplX)
      ∧ ((copier 1 0 2).chunkDrawn 5 (chunk 512).chunk = true ∨ 0 < ((copier 1 0 2).ctx 5).exch.attempt)) ∧
    ((5 < 1024) ∧ (Exchanging (copier 2 0 1) 5 tplX) ∧ ((chunk 512).ctx = 5) ∧ (tplX.tensor (chunk 512).tensor = some ten) ∧
      ∃ l ∈ (State.allSums (List.map (fun i => (copier 2 0 1).sumAt 5 tplX ((copier 2 0 1).heads 5 (chunk 512).srcs) 6 ten.id (if (chunk 512).sum ≠ 0
      ∧ ten.bf16 = true then 2 else 4) (fun e => if (if (chunk 512).sum ≠ 0 ∧
      ten.bf16 = true then 2 else 4) = 2 then ofBf16 ((copier 2 0 1).load ((chunk 512).own + 2 * (e - (chunk 512).first)) 2) else (copier 2 0 1).word ((chunk 512).own + 4 * (e - (chunk 512).first))) ((chunk 512).first + i)) (List.range (chunk 512).count))), (((copier 2 0 1).checkersOf 5 tplX ((copier 2 0 1).primaryOf 5 tplX ten (chunk 512)) (chunk 512).chunk).snd = (copier 2 0 1).ownIdx tplX)) ∧
    ((5 < 1024) ∧ (Exchanging (results [1, 2, 3, 4] [5, 6, 7, 8]) 5 tplX) ∧ ((chunk 512).ctx = 5) ∧
      (tplX.tensor (chunk 512).tensor = some ten) ∧
      ∃ l ∈ ((results [1, 2, 3, 4] [5, 6, 7, 8]).resultWords (chunk 512) ((chunk 512).srcs.headD 0)), ((results [1, 2, 3, 4] [5, 6, 7, 8]).primaryOf 5 tplX ten (chunk 512) = (results [1, 2, 3, 4] [5, 6, 7, 8]).ownIdx tplX)) ∧
    ((5 < 1024) ∧ (Exchanging case58 5 tplX) ∧ ((chunk 512).ctx = 5) ∧ (tplX.tensor (chunk 512).tensor = some ten) ∧
      ∃ check ∈ (case58.resultWords (chunk 512) ((chunk 512).srcs.headD 0)), (case58.resultWords (chunk 512) ((chunk 512).srcs.getD 1 0) = some [1, 2, 3, 4])
      ∧ ((chunk 512).chunk ∈ (case58.ctx 5).exch.refereed)) ∧
    ((5 < 1024) ∧ (Exchanging exch0 5 tplX) ∧ ((rec1 1 20 0).head.ctx = 5) ∧ (exch0.vcOpen (rec1 1 20 0).head.vc = true) ∧
      (exch0.current 5 ((rec1 1 20 0).step % 2 ^ 48) (rec1 1 20 0).attempt = true)) := by
  refine ⟨?_, ?_, ?_, ?_, ?_, ?_, ?_, ?_, ?_, ?_, ?_, ?_⟩ <;> (delta Exchanging; decide +kernel)

theorem witness_ExchangeRecords :
    ((5 < 1024) ∧ ((svc tplX).template 5 = some tplX) ∧ ((rec1 1 20 0).head.ctx = 5) ∧ ((svc tplX).vcOpen (rec1 1 20 0).head.vc = true) ∧ (((svc tplX).ctx 5).step = none) ∧
      ((rec1 1 20 0).step = (svc tplX).stepNo 5 % 2 ^ 48) ∧ ((rec1 1 20 0).attempt = 0)) ∧
    ((5 < 1024) ∧ (exch0.template 5 = some tplX) ∧ ((rec1 1 20 0).head.ctx = 5) ∧ (exch0.vcOpen (rec1 1 20 0).head.vc = true) ∧
      (exch0.current 5 ((rec1 1 20 0).step % 2 ^ 48) (rec1 1 20 0).attempt = true)) ∧
    ((5 < 1024) ∧ (exch0.template 5 = some tplX) ∧ ((rec1 1 20 0).head.ctx = 5) ∧ (exch0.vcOpen (rec1 1 20 0).head.vc = true) ∧
      (exch0.current 5 ((rec1 1 20 0).step % 2 ^ 48) (rec1 1 20 0).attempt = true) ∧ ((exch0.ctx 5).loading = none)) ∧
    ((5 < 1024) ∧ ((svc tplX).template 5 = some tplX) ∧ ((rec1 1 20 0).head.ctx = 5) ∧ ((svc tplX).vcOpen (rec1 1 20 0).head.vc = true) ∧
      ((svc tplX).current 5 ((rec1 1 20 0).step % 2 ^ 48) (rec1 1 20 0).attempt = false)) ∧
    ((5 < 1024) ∧ (exch0.template 5 = some tplX) ∧ ((rec1 1 20 0).head.ctx = 5) ∧ (exch0.vcOpen (rec1 1 20 0).head.vc = true) ∧
      ∃ r ∈ ((exch0.ctx 5).step), (r.step % 2 ^ 48 = (rec1 1 20 0).step)) ∧
    ((5 < 1024) ∧ (exch0.template 5 = some tplX) ∧ ((rec1 1 20 0).head.ctx = 5) ∧ (exch0.vcOpen (rec1 1 20 0).head.vc = true) ∧
      ∃ r ∈ ((exch0.ctx 5).step), (r.step % 2 ^ 48 = (rec1 1 20 0).step) ∧ ((exch0.ctx 5).exch.attempt = (rec1 1 20 0).attempt)) ∧
    ((5 < 1024) ∧ (case59.template 5 = some tplX) ∧ ∃ n ∈ ((case59.ctx 5).exch.rerunAt), (n ≤ case59.frame + 1)) ∧
    ((5 < 1024) ∧ (case60.template 5 = some tplX) ∧ ((case60.ctx 5).step.isSome = true) ∧
      (5 + case60.seen F.EXCH_CFG_EXCH_WAIT 0 ≤ case60.frame) ∧ (tplX.members.getD 5 0 ∈ tplX.members) ∧
      (∀ (e : Nat × Nat), e ∈ (case60.ctx 5).exch.lost ++ (case60.ctx 5).exch.pending → e.fst ≠ tplX.members.getD 5 0)) ∧
    ((5 < 1024) ∧ ((svc tplX).template 5 = some tplX) ∧ (case61.ctx = 5) ∧
      (∀ (e : Nat × Nat), e ∈ ((svc tplX).ctx 5).exch.lost → e.fst ≠ 5)) ∧
    ((5 < 1024) ∧ ((svc tplX).template 5 = some tplX)) ∧
    ((5 < 1024) ∧ (case62.template 5 = some tplX) ∧ ∃ n ∈ ((case62.ctx 5).exch.stateAt), (n ≤ case62.frame + 1) ∧
      ((case62.ctx 5).step = some (run 0)) ∧ (((case62.ctx 5).exch.states.any fun x => x.snd) = true) ∧
      ((case62.ownCtxIdx tplX, 0) ∈ (case62.ctx 5).exch.votes)) ∧
    ((5 < 1024) ∧ (case63.template 5 = some tplX) ∧ ∃ n ∈ ((case63.ctx 5).exch.stateAt), (n ≤ case63.frame + 1) ∧
      ((case63.ctx 5).step = some (run 0)) ∧ (((case63.ctx 5).exch.states.any fun x => x.snd) = false) ∧ ((case63.ctx 5).faultDue = none) ∧
      ((case63.ctx 5).exch.rerunAt = none) ∧ ((case63.ctx 5).exch.attempt < case63.seen F.EXCH_STEP_RETRIES 5))  ∧
    (((apart exch0).template 5 = some tplX) ∧ ((apart exch0).vcOpen (rec1 1 20 0).head.vc = false)) := by
  refine ⟨?_, ?_, ?_, ?_, ?_, ?_, ?_, ?_, ?_, ?_, ?_, ?_, ?_⟩ <;> decide +kernel

theorem witness_SilentErrors :
    ((5 < 1024) ∧ (exch0.template 5 = some tplX) ∧ ((digest 0 1 5).head.ctx = 5) ∧ (exch0.vcOpen (digest 0 1 5).head.vc = true) ∧ ((digest 0 1 5).scope ≠ 1) ∧
      (exch0.current 5 (digest 0 1 5).step (digest 0 1 5).attempt = true)) ∧
    ((5 < 1024) ∧ (fullStep.template 5 = some tplX) ∧ ((digest 1 exch0.digestSteps 5).head.ctx = 5) ∧ (fullStep.vcOpen (digest 1 exch0.digestSteps 5).head.vc = true) ∧
      ((digest 1 exch0.digestSteps 5).scope = 1) ∧ (fullStep.fullDue 5 = true) ∧
      ((digest 1 exch0.digestSteps 5).step = (fullStep.stepNo 5 - 1) % 2 ^ 48)) ∧
    ((5 < 1024) ∧ (fullStep.template 5 = some tplX) ∧ (tplX.multi = true) ∧ (fullStep.fullDue 5 = true) ∧
      ((fullStep.ctx 5).exch.fullStep ≠ fullStep.stepNo 5 - 1)) ∧
    ((5 < 1024) ∧ ((deciding 0 []).template 5 = some tplX) ∧
      ∃ n ∈ (((deciding 0 []).ctx 5).exch.digestAt), (n ≤ (deciding 0 []).frame + 1)) ∧
    (((dup 111 false).core < 192) ∧ ((dup 111 false).core / 48 ≠ (dup 111 false).other / 48) ∧
      (dupPlan.picked (dup 111 false).core (dup 111 false).item = true) ∧ ((dup 111 false).ran = false)) ∧
    (((dup 111 true).core < 192) ∧ ((dup 111 true).core / 48 ≠ (dup 111 true).other / 48) ∧
      (dupPlan.picked (dup 111 true).core (dup 111 true).item = true) ∧ ((dup 111 true).ran = true) ∧
      ((dup 111 true).orig = (dup 111 true).dup)) ∧
    (((dup 112 true).core < 192) ∧ ((dup 112 true).core / 48 ≠ (dup 112 true).other / 48) ∧
      (dupPlan.picked (dup 112 true).core (dup 112 true).item = true) ∧ ((dup 112 true).ran = true) ∧
      ((dup 112 true).orig ≠ (dup 112 true).dup)) ∧
    (∃ d ∈ refereed.flt.referee, (d.core < 192) ∧ (d.other < 192) ∧ ((refOp 112).core = d.core) ∧ ((refOp 112).item = d.item) ∧
      ((refOp 112).other / 48 ≠ d.core / 48) ∧ ((refOp 112).other / 48 ≠ d.other / 48) ∧ ((refOp 112).orig = (refOp 112).dup) ∧
      ((refOp 112).orig = d.second)) ∧
    (∃ d ∈ refereed.flt.referee, (d.core < 192) ∧ (d.other < 192) ∧ ((refOp 111).core = d.core) ∧ ((refOp 111).item = d.item) ∧
      ((refOp 111).other / 48 ≠ d.core / 48) ∧ ((refOp 111).other / 48 ≠ d.other / 48) ∧ ((refOp 111).orig = (refOp 111).dup) ∧
      ((refOp 111).orig = d.first) ∧ (d.first ≠ d.second)) ∧
    ((1 < 192) ∧ ((observed.core 1).obsUntil = some 5) ∧ (5 ≤ observed.now + 5)) ∧
    (((marginDue 0 one).phase = 1) ∧ (((marginDue 0 one).frame + 1) % max 1 ((marginDue 0 one).pol 104) = 0) ∧
      ((marginDue 0 one).flt.marginCore = none) ∧
      (List.find? (fun q => decide ((marginDue 0 one).flt.marginNext ≤ q)) (List.filter (fun p => decide ((marginDue 0 one).get F.FLT_CORE_ROLE p = 0)) (List.range 192)) = some 0)) ∧
    (((marginDue 3 (one.put F.FLT_CORE_OBSERVED 1 1)).phase = 1) ∧
      (((marginDue 3 (one.put F.FLT_CORE_OBSERVED 1 1)).frame + 1) % max 1 ((marginDue 3 (one.put F.FLT_CORE_OBSERVED 1 1)).pol 104) = 0) ∧
      ((marginDue 3 (one.put F.FLT_CORE_OBSERVED 1 1)).flt.marginCore = none) ∧
      (List.find? (fun q => decide ((marginDue 3 (one.put F.FLT_CORE_OBSERVED 1 1)).flt.marginNext ≤ q)) (List.filter (fun p => decide ((marginDue 3 (one.put F.FLT_CORE_OBSERVED 1 1)).get F.FLT_CORE_ROLE p = 0)) (List.range 192)) ≠ some 1)
      ∧ (1 ∈ List.filter (fun p => decide ((marginDue 3 (one.put F.FLT_CORE_OBSERVED 1 1)).get F.FLT_CORE_ROLE p = 0)) (List.range 192)) ∧
      ((marginDue 3 (one.put F.FLT_CORE_OBSERVED 1 1)).get F.FLT_CORE_OBSERVED 1 = 1) ∧
      (tget 0 (marginDue 3 (one.put F.FLT_CORE_OBSERVED 1 1)).flt.marginVisits 1 < 8)) ∧
    ((1 < 192) ∧ (marginRun.phase = 1) ∧ (marginRun.flt.marginRun = some (1, false))) := by
  refine ⟨?_, ?_, ?_, ?_, ?_, ?_, ?_, ?_, ?_, ?_, ?_, ?_, ?_⟩ <;> decide +kernel

theorem witness_Checkpoints :
    ((5 < 1024) ∧ (case64.template 5 = some tpl) ∧ ∃ l ∈ ((case64.ctx 5).loading), (case64.ctxLive 5 = 1) ∧ (l.restore = false) ∧
      (l.stage = 5) ∧ (case64.unblocked 5 = []) ∧ (case64.packageBad 5 tpl = false)) ∧
    ((5 < 1024) ∧ ((leading one).template 5 = some tpl) ∧ ((leading one).fr.killed = none) ∧
      (((leading one).ctx 5).window = (leading one).frame + 1) ∧ ((leading one).leads 5 tpl = true) ∧ ((leading one).ckptDue 5 tpl = true)) ∧
    ((5 < 1024) ∧ (one.template 5 = some tpl) ∧ ((recOf false 7 4).head.ctx = 5) ∧ (one.vcOpen (recOf false 7 4).head.vc = true) ∧ ((fun t => (t.ctx 5).ckpt.run) one = none) ∧
      (one.stepNo 5 ≤ (recOf false 7 4).step) ∧ (one.holders 5 ≠ [])) ∧
    ((5 < 1024) ∧ (case65.template 5 = some tpl) ∧ ((recOf false 7 4).head.ctx = 5) ∧ (case65.vcOpen (recOf false 7 4).head.vc = true) ∧ ((fun t => (t.ctx 5).ckpt.run) case65 = none) ∧
      (case65.stepNo 5 ≤ (recOf false 7 4).step) ∧ (case65.holders 5 = [])) ∧
    ((5 < 1024) ∧ (one.template 5 = some tpl) ∧ ((recOf false 0 4).head.ctx = 5) ∧ (one.vcOpen (recOf false 0 4).head.vc = true) ∧
      ((fun t => (t.ctx 5).ckpt.run) one ≠ none ∨ (recOf false 0 4).step < one.stepNo 5)) ∧
    ((5 < 1024) ∧ (case66.template 5 = some tplX) ∧ ((recOf true 7 4).head.ctx = 5) ∧ (case66.vcOpen (recOf true 7 4).head.vc = true) ∧
      ∃ k ∈ ((fun t => (t.ctx 5).ckpt.run) case66), (k.step % 2 ^ 48 = (recOf true 7 4).step) ∧ ((recOf true 7 4).holder = true) ∧
      ((recOf true 7 4).sender ∈ case66.holders 5) ∧ (k.taken ≠ none) ∧ (¬(recOf true 7 4).sender ∈ k.holdersDone) ∧
      (∃ h, h ∈ case66.holders 5 ∧ h ≠ (recOf true 7 4).sender ∧ ¬h ∈ k.holdersDone)) ∧
    ((5 < 1024) ∧ ((taking [0] none one).template 5 = some tpl) ∧ ((recOf false 7 4).head.ctx = 5) ∧ ((taking [0] none one).vcOpen (recOf false 7 4).head.vc = true) ∧
      ∃ k ∈ ((fun t => (t.ctx 5).ckpt.run) (taking [0] none one)), (k.step % 2 ^ 48 = (recOf false 7 4).step) ∧
      ((recOf false 7 4).holder = false) ∧ (k.taken = none) ∧ (¬(recOf false 7 4).sender ∈ k.membersDone)) ∧
    ((5 < 1024) ∧ ((taking [1] (some 1) (held1 tplX)).template 5 = some tplX) ∧ ((recOf false 7 4).head.ctx = 5) ∧ ((taking [1] (some 1) (held1 tplX)).vcOpen (recOf false 7 4).head.vc = true) ∧
      ∃ k ∈ ((fun t => (t.ctx 5).ckpt.run) (taking [1] (some 1) (held1 tplX))), (k.step % 2 ^ 48 = (recOf false 7 4).step) ∧
      ((recOf false 7 4).holder = false) ∧ (k.taken ≠ none) ∧
      (∀ (m : Nat), m ∈ k.members → m = (recOf false 7 4).sender ∨ m ∈ k.membersDone)) ∧
    ((5 < 1024) ∧ ((taking [0] none one).template 5 = some tpl) ∧ ((recOf false 0 4).head.ctx = 5) ∧ ((taking [0] none one).vcOpen (recOf false 0 4).head.vc = true) ∧
      ∃ k ∈ ((fun t => (t.ctx 5).ckpt.run) (taking [0] none one)), (k.step % 2 ^ 48 ≠ (recOf false 0 4).step)) ∧
    ((5 < 1024) ∧ (one.template 5 = some tpl) ∧ (case67.source ≠ one.ownId) ∧
      ((tget { idHash := 0, ports := [], holder0 := 0, holder1 := 0 : TopoEntry } one.img.accepted.topo case67.source).holder0 = one.ownId ∨ one.img.accepted.holders = 2
      ∧ (tget { idHash := 0, ports := [], holder0 := 0, holder1 := 0 : TopoEntry } one.img.accepted.topo case67.source).holder1 = one.ownId)
      ∧ (0 < case67.promised) ∧ (case67.promised ≤ case67.landed)) ∧
    ((5 < 1024) ∧ ((taking [0] (some 1) one).template 5 = some tpl) ∧
      ∃ k ∈ ((fun t => (t.ctx 5).ckpt.run) (taking [0] (some 1) one)), (k.taken ≠ none) ∧ ((taking [0] (some 1) one).fr.killed = none) ∧
      ((taking [0] (some 1) one).img.accepted.modules ≤ 1) ∧ (¬(taking [0] (some 1) one).takerIdx tpl ∈ k.membersDone) ∧
      (∀ (m : Nat), m ∈ k.members → m = (taking [0] (some 1) one).takerIdx tpl ∨ m ∈ k.membersDone)) ∧
    ((5 < 1024) ∧ ((taking [0, 1, 2] (some 1) (held1 tplX)).template 5 = some tplX) ∧
      ∃ k ∈ ((fun t => (t.ctx 5).ckpt.run) (taking [0, 1, 2] (some 1) (held1 tplX))), ∃ m ∈ ((taking [0, 1, 2] (some 1) (held1 tplX)).holders 5), (m ≠ (taking [0, 1, 2] (some 1) (held1 tplX)).ownId)
      ∧ (¬m ∈ k.holdersDone)) ∧
    ((5 < 1024) ∧ (case68.template 5 = some tplX) ∧
      ∃ k ∈ ((fun t => (t.ctx 5).ckpt.run) case68), ∃ m ∈ (case68.holders 5), (m ≠ case68.ownId) ∧ (m ∈ k.holdersDone)) ∧
    ((5 < 1024) ∧ (case69.template 5 = some tplX) ∧
      ∃ k ∈ ((fun t => (t.ctx 5).ckpt.run) case69), ∃ i ∈ k.members, (case69.isLost 5 (tplX.members.getD i 0) = true)) ∧
    ((5 < 1024) ∧ ((taking [0] none (ctxIn 5 one)).template 5 = some tpl) ∧
      ∃ k ∈ ((fun t => (t.ctx 5).ckpt.run) (taking [0] none (ctxIn 5 one))), ((taking [0] none (ctxIn 5 one)).ctxLive 5 = 5 ∨ (taking [0] none (ctxIn 5 one)).ctxLive 5 = 1)) ∧
    ((5 < 1024) ∧ ((taking [0] none (ctxIn 6 one)).template 5 = some tpl) ∧
      ∃ k ∈ ((fun t => (t.ctx 5).ckpt.run) (taking [0] none (ctxIn 6 one))), ((taking [0] none (ctxIn 6 one)).ctxLive 5 = 6)) ∧
    ((5 < 1024) ∧ (case70.template 5 = some tpl) ∧ ∃ k ∈ ((fun t => (t.ctx 5).ckpt.run) case70), (k.taken ≠ none) ∧
      (k.tFrame + case70.pol 132 ≤ case70.frame + 1)) ∧
    ((5 < 1024) ∧ ((taking [0] none one).template 5 = some tpl) ∧
      ∃ k ∈ ((fun t => (t.ctx 5).ckpt.run) (taking [0] none one)), ∃ g ∈ k.snap, (g.samples ≠ [])) ∧
    ((5 < 1024) ∧ (case71.template 5 = some tpl) ∧ (2 ≤ case71.ctxState 5 ∧ case71.ctxState 5 ≤ 4 ∨ case71.ctxState 5 = 6) ∧
      (case71.phase = 1) ∧
      (max (case71.ctx 5).exportDue ((case71.ctx 5).ckpt.sinceReady.getD 0) + tpl.exportPeriod * State.second ≤ case71.now) ∧
      ((case71.updCtx 5 fun x => { x with exportDue := case71.now : Ctx }).exportUsed + 5 ≤ case71.exportArea)) ∧
    ((5 < 1024) ∧ (case71.template 5 = some tpl) ∧ (2 ≤ case71.ctxState 5 ∧ case71.ctxState 5 ≤ 4 ∨ case71.ctxState 5 = 6) ∧
      (case71.phase = 1) ∧
      (max (case71.ctx 5).exportDue ((case71.ctx 5).ckpt.sinceReady.getD 0) + tpl.exportPeriod * State.second ≤ case71.now) ∧
      (case71.exportArea < (case71.updCtx 5 fun x => { x with exportDue := case71.now : Ctx }).exportUsed + 10 ^ 12)) ∧
    ((5 < 1024) ∧ (one.template 5 = some tpl)) := by
  refine ⟨?_, ?_, ?_, ?_, ?_, ?_, ?_, ?_, ?_, ?_, ?_, ?_, ?_, ?_, ?_, ?_, ?_, ?_, ?_, ?_, ?_⟩ <;> decide +kernel

theorem witness_Restores :
    ((5 < 1024) ∧ ((restoring (load1 1 none) tpl).template 5 = some tpl) ∧
      ∃ l ∈ (((restoring (load1 1 none) tpl).ctx 5).loading), (case72.ctx = 5) ∧ ((restoring (load1 1 none) tpl).ctxLive 5 = 1) ∧
      (((restoring (load1 1 none) tpl).ctx 5).zeroing = false) ∧ (l.stage ≤ 1) ∧ (case72.model = false) ∧ (l.restore = true) ∧
      (case72.given = none) ∧ ((restoring (load1 1 none) tpl).sourceGen 5 l = none)) ∧
    ((5 < 1024) ∧ ((restoring (load1 1 none) tpl).template 5 = some tpl) ∧
      ∃ l ∈ (((restoring (load1 1 none) tpl).ctx 5).loading), ((restoreOp false true).ctx = 5) ∧
      ((restoring (load1 1 none) tpl).ctxLive 5 = 1) ∧ (((restoring (load1 1 none) tpl).ctx 5).zeroing = false) ∧ (l.stage ≤ 1) ∧
      ((restoreOp false true).model = false) ∧ ((restoreOp false true).given = some gen1 ∨ (restoreOp false true).given = none ∧
      l.restore = true ∧ (restoring (load1 1 none) tpl).sourceGen 5 l = some gen1) ∧ ((restoreOp false true).found = false)) ∧
    ((5 < 1024) ∧ ((restoring (load1 1 none) tpl).template 5 = some tpl) ∧
      ∃ l ∈ (((restoring (load1 1 none) tpl).ctx 5).loading), ((restoreOp true false).ctx = 5) ∧
      ((restoring (load1 1 none) tpl).ctxLive 5 = 1) ∧ (((restoring (load1 1 none) tpl).ctx 5).zeroing = false) ∧ (l.stage ≤ 1) ∧
      ((restoreOp true false).model = false) ∧ ((restoreOp true false).given = some gen1 ∨ (restoreOp true false).given = none ∧
      l.restore = true ∧ (restoring (load1 1 none) tpl).sourceGen 5 l = some gen1) ∧ ((restoreOp true false).found = true) ∧
      ((restoreOp true false).digests = false ∨ gen1.intact = false)) ∧
    ((5 < 1024) ∧ ((restoring (load1 1 none) tpl).template 5 = some tpl) ∧
      ∃ l ∈ (((restoring (load1 1 none) tpl).ctx 5).loading), (case73.ctx = 5) ∧ ((restoring (load1 1 none) tpl).ctxLive 5 = 1) ∧
      (((restoring (load1 1 none) tpl).ctx 5).zeroing = false) ∧ (l.stage ≤ 1) ∧ (case73.model = false) ∧
      (case73.given = some case74 ∨ case73.given = none ∧ l.restore = true ∧ (restoring (load1 1 none) tpl).sourceGen 5 l = some case74) ∧
      (case73.found = true) ∧ (case73.digests = true) ∧ (case74.intact = true) ∧ (case74.template ≠ tpl.index)) ∧
    ((5 < 1024) ∧ ((restoring (load1 1 none) tpl).template 5 = some tpl) ∧
      ∃ l ∈ (((restoring (load1 1 none) tpl).ctx 5).loading), ((restoreOp true true).ctx = 5) ∧
      ((restoring (load1 1 none) tpl).ctxLive 5 = 1) ∧ (((restoring (load1 1 none) tpl).ctx 5).zeroing = false) ∧ (l.stage ≤ 1) ∧
      ((restoreOp true true).model = false) ∧ ((restoreOp true true).given = some gen1 ∨ (restoreOp true true).given = none ∧
      l.restore = true ∧ (restoring (load1 1 none) tpl).sourceGen 5 l = some gen1) ∧ ((restoreOp true true).found = true) ∧
      ((restoreOp true true).digests = true) ∧ (gen1.intact = true) ∧ (gen1.template = tpl.index) ∧ (tpl.multi = false)) ∧
    ((5 < 1024) ∧ (case75.template 5 = some tpl) ∧ ∃ l ∈ ((case75.ctx 5).loading), (case76.ctx = 5) ∧ (case75.ctxLive 5 = 1) ∧
      ((case75.ctx 5).zeroing = false) ∧ (l.stage ≤ 1) ∧ (case76.model = true) ∧ (case75.bindingBad 5 = false) ∧ (l.restore = false) ∧ (case76.given = some gen1)) ∧
    ((5 < 1024) ∧ ((restoring (load1 4 (some gen1)) tplX).template 5 = some tplX) ∧
      ∃ l ∈ (((restoring (load1 4 (some gen1)) tplX).ctx 5).loading), ((restoreOp false true).ctx = 5) ∧
      ((restoring (load1 4 (some gen1)) tplX).ctxLive 5 = 1) ∧ (((restoring (load1 4 (some gen1)) tplX).ctx 5).zeroing = false) ∧
      (l.stage = 4)) ∧
    ((5 < 1024) ∧ ((restoring (load1 4 (some gen1)) tplX).template 5 = some tplX) ∧
      ∃ l ∈ (((restoring (load1 4 (some gen1)) tplX).ctx 5).loading), ((recT 0).head.ctx = 5) ∧ ((restoring (load1 4 (some gen1)) tplX).vcOpen (recT 0).head.vc = true) ∧ (2 < l.stage)) ∧
    ((5 < 1024) ∧ ((restoring (load1 1 none) tpl).template 5 = some tpl) ∧
      ∃ l ∈ (((restoring (load1 1 none) tpl).ctx 5).loading), ((recT 0).head.ctx = 5) ∧ ((restoring (load1 1 none) tpl).vcOpen (recT 0).head.vc = true) ∧ (l.stage < 2)) ∧
    ((5 < 1024) ∧ (case77.template 5 = some tplX) ∧ ∃ l ∈ ((case77.ctx 5).loading), ((recT 0).head.ctx = 5) ∧ (case77.vcOpen (recT 0).head.vc = true) ∧ (l.stage = 2) ∧
      (l.set_ = some gen1) ∧ (tplX.multi = true) ∧ (∀ (i : Nat), i < tplX.members.length → i = (recT 0).sender ∨ ∃ m, m ∈ l.members ∧
      m.fst = i) ∧ (∀ (m : Nat × Nat), m ∈ l.members ++ [((recT 0).sender, (recT 0).arg)] → m.snd = gen1.gen % 2 ^ 32)) ∧
    ((5 < 1024) ∧ (case78.template 5 = some tplX) ∧ ∃ l ∈ ((case78.ctx 5).loading), ((recT 0).head.ctx = 5) ∧ (case78.vcOpen (recT 0).head.vc = true) ∧ (l.stage = 2) ∧
      (l.set_ = some gen1) ∧ (tplX.multi = true) ∧ (∀ (i : Nat), i < tplX.members.length → i = (recT 0).sender ∨ ∃ m, m ∈ l.members ∧
      m.fst = i) ∧ (∃ m, m ∈ l.members ++ [((recT 0).sender, (recT 0).arg)] ∧ m.snd ≠ gen1.gen % 2 ^ 32)) ∧
    ((5 < 1024) ∧ ((restoring (load1 1 none) tpl).template 5 = some tpl) ∧
      ∃ l ∈ (((restoring (load1 1 none) tpl).ctx 5).loading), ((recT 0).head.ctx = 5) ∧ ((restoring (load1 1 none) tpl).vcOpen (recT 0).head.vc = true) ∧ (l.stage < 6)) ∧
    ((5 < 1024) ∧ (case79.template 5 = some tpl) ∧ ∃ l ∈ ((case79.ctx 5).loading), (l.stage = 6) ∧ (l.set_ = some gen1) ∧
      (case79.unblocked 5 = []) ∧ (l.votes = []) ∧ (tpl.multi = false) ∧
      ((match gen1.probe with | none => true | some p => case79.lossNear tpl p 0) = true)) ∧
    ((5 < 1024) ∧ (case79.template 5 = some tpl) ∧ ∃ l ∈ ((case79.ctx 5).loading), (l.stage = 6) ∧ (l.set_ = some gen1) ∧
      (case79.unblocked 5 = []) ∧ (l.votes = []) ∧ (tpl.multi = false) ∧
      ((match gen1.probe with | none => true | some p => case79.lossNear tpl p 1073741824) = false)) ∧
    ((5 < 1024) ∧ ((restoring (load1 6 (some gen1)) tplX).template 5 = some tplX) ∧
      ∃ l ∈ (((restoring (load1 6 (some gen1)) tplX).ctx 5).loading), (l.stage = 6) ∧ (l.set_ = some gen1) ∧
      ((restoring (load1 6 (some gen1)) tplX).unblocked 5 = []) ∧ (l.votes = []) ∧ (tplX.multi = true) ∧ (2 ≤ tplX.members.length)) ∧
    ((5 < 1024) ∧ ((restoring (load1 7 (some gen1)) tpl).template 5 = some tpl) ∧
      ∃ l ∈ (((restoring (load1 7 (some gen1)) tpl).ctx 5).loading), (l.stage = 7) ∧ (l.set_ = some gen1)) ∧
    ((5 < 1024) ∧ (case80.template 5 = some tpl) ∧ ∃ l ∈ ((case80.ctx 5).loading), (case80.ctxLive 5 = 1) ∧ (l.init2 = true) ∧
      (l.stage = 1) ∧ (State.second ≤ (case80.frame - l.begun) * case80.periodNs)) ∧
    ((5 < 1024) ∧ (replaying.template 5 = some tpl) ∧ ((replaying.ctx 5).loading = none) ∧ ((replaying.ctx 5).replays = [7]) ∧
      (replaying.phase = 1) ∧ (replaying.serving 5 = true) ∧ ((replaying.ctx 5).step = none) ∧ (tpl.multi = false) ∧
      (replaying.seen F.CTX_TRAIN_PAUSE 5 = 0) ∧ (List.find? (fun e => decide (e.kind = 2 ∧
      e.step = 7)) (replaying.ctx 5).log = some case81)) ∧
    ((5 < 1024) ∧ (adopting.template 5 = some tplX) ∧ ((1, 5, false) ∈ (adopting.ctx 5).exch.adopting) ∧ (5 ≤ adopting.frame + 1) ∧
      (tplX.tensor 1 = some thin)) ∧
    ((5 < 1024) ∧ (case82.template 5 = some tplX) ∧ ((1, 5, false) ∈ (case82.ctx 5).exch.adopting) ∧
      (5 + case82.seen F.EXCH_CFG_EXCH_WAIT 0 ≤ case82.frame + 1)) ∧
    ((5 < 1024) ∧ (one.template 5 = some tpl) ∧ ((recT 1).head.ctx = 5) ∧ (one.vcOpen (recT 1).head.vc = true) ∧ ((recT 1).type = 1)) ∧
    ((5 < 1024) ∧ (one.template 5 = some tpl) ∧ ((recT 2).head.ctx = 5) ∧ (one.vcOpen (recT 2).head.vc = true) ∧ ((recT 2).type = 2)) ∧
    ((5 < 1024) ∧ (one.template 5 = some tpl) ∧ ((recT 3).head.ctx = 5) ∧ (one.vcOpen (recT 3).head.vc = true) ∧ ((recT 3).type = 3)) ∧
    ((5 < 1024) ∧ (one.template 5 = some tpl) ∧ ((recT 4).head.ctx = 5) ∧ (one.vcOpen (recT 4).head.vc = true) ∧ ((recT 4).type = 4)) ∧
    ((5 < 1024) ∧ (one.template 5 = some tpl) ∧ ((recT 5).head.ctx = 5) ∧ (one.vcOpen (recT 5).head.vc = true) ∧ ((recT 5).type = 5)) ∧
    ((5 < 1024) ∧ (one.template 5 = some tpl) ∧ ((recT 6).head.ctx = 5) ∧ (one.vcOpen (recT 6).head.vc = true) ∧ ((recT 6).type = 6)) ∧
    ((5 < 1024) ∧ (one.template 5 = some tpl) ∧ ((recT 7).head.ctx = 5) ∧ (one.vcOpen (recT 7).head.vc = true) ∧ ((recT 7).type = 7)) ∧
    ((5 < 1024) ∧ (one.template 5 = some tpl) ∧ ((recT 8).head.ctx = 5) ∧ (one.vcOpen (recT 8).head.vc = true) ∧ ((recT 8).type = 8)) ∧
    ((5 < 1024) ∧ (one.template 5 = some tpl) ∧ ((recT 9).head.ctx = 5) ∧ (one.vcOpen (recT 9).head.vc = true) ∧ ((recT 9).type = 9)) ∧
    ((5 < 1024) ∧ (one.template 5 = some tpl) ∧ ((recT 10).head.ctx = 5) ∧ (one.vcOpen (recT 10).head.vc = true) ∧ ((recT 10).type = 10)) ∧
    ((5 < 1024) ∧ (one.template 5 = some tpl) ∧ ((recT 0).head.ctx = 5) ∧ (one.vcOpen (recT 0).head.vc = true) ∧ ((recT 0).type = 0 ∨ 10 < (recT 0).type)) := by
  refine ⟨?_, ?_, ?_, ?_, ?_, ?_, ?_, ?_, ?_, ?_, ?_, ?_, ?_, ?_, ?_, ?_, ?_, ?_, ?_, ?_, ?_, ?_, ?_, ?_, ?_, ?_, ?_, ?_, ?_, ?_, ?_⟩ <;> decide +kernel

theorem witness_PowerAndMonitor :
    ((606000 < 606001)) ∧
    ((case83.imageReserve < case83.pwr.reserve) ∧ (case83.pwr.reserveAt + 10 ^ 10 ≤ case83.now + 0)) ∧
    ((one.pwr.converting = true)) ∧
    (((monitoring [4] []).pwr.converting = true) ∧ ((monitoring [4] []).get F.MON_CFG_LENGTH 0 ≠ 0) ∧ (4 < 128) ∧
      ((monitoring [4] []).urgentNext = some 4)) ∧
    (((monitoring [] []).pwr.converting = true) ∧ ((monitoring [] []).get F.MON_CFG_LENGTH 0 ≠ 0) ∧ ((monitoring [] []).urgentNext = none)
      ∧ ((monitoring [] []).pwr.conversions.length < (monitoring [] []).monEntry (monitoring [] []).monPos / 2 ^ 8 % 2 ^ 8)) ∧
    (((monitoring [] [7, 8]).pwr.converting = true) ∧ ((monitoring [] [7, 8]).pwr.conversions ≠ []) ∧
      ((monitoring [] [7, 8]).pwr.conversions.length = (monitoring [] [7, 8]).monEntry (monitoring [] [7, 8]).monPos / 2 ^ 8 % 2 ^ 8) ∧
      ((monitoring [] [7, 8]).urgentNext = none)) ∧
    ((4 ∈ (monitoring [4] []).pwr.urgent)) ∧
    ((¬0 ∈ (monitoring [4, 5, 6, 7] []).pwr.urgent) ∧ (4 ≤ (monitoring [4, 5, 6, 7] []).pwr.urgent.length)) ∧
    ((¬0 ∈ one.pwr.urgent) ∧ (one.pwr.urgent.length < 4)) ∧
    ((19 ≤ readings.frame) ∧
      (List.map (fun e => e.snd) (List.filter (fun e => decide (readings.now - (readings.frame - 19) * readings.periodNs ≤ e.fst) && decide (e.fst < readings.now - (readings.frame - 19) * readings.periodNs + readings.periodNs)) readings.pwr.readings) ≠ [])
      ∧ (¬19 ∈ readings.pwr.checked)) ∧
    ((one.pwr.converting = true) ∧ (10 ≤ 19) ∧ (19 ≤ 85) ∧ ((if 19 < 74 then 1840 else 1680) ≤ 2000) ∧ (one.pwr.tripped = false)) := by
  refine ⟨?_, ?_, ?_, ?_, ?_, ?_, ?_, ?_, ?_, ?_, ?_⟩ <;> decide +kernel

theorem witness_StartsAndStops :
    ((one.canonical) ∧ (one.pwr.converting = true)) ∧
    ((one.canonical) ∧ (one.pwr.converting = true) ∧ (0 < 39000) ∧ (50 ≤ 50)) ∧
    ((one.canonical) ∧ (one.pwr.converting = true) ∧ (62000 < 62001) ∧ (50 ≤ 50)) ∧
    ((one.canonical) ∧ (one.pwr.converting = true) ∧ (100 ≤ 100)) ∧
    (((sealed2 false).pwr.converting = false) ∧ (41000 ≤ 62001)) ∧
    ((one.pwr.converting = true ∨ 0 < 41000)) ∧
    (((sealed2 false).pwr.enable = true) ∧ ((sealed2 false).pwr.converting = false) ∧ (41000 ≤ 62001)) ∧
    ((case84.pwr.converting = true) ∧ (case84.img.restart = true ∨ case84.flt.mgmtDue = true)) ∧
    (∃ r ∈ (List.find? (fun r => decide (r.scope = (4, 0, 0))) (devReset true).flt.resets), ((devReset true).pwr.tripped = true)) ∧
    (∃ r ∈ (List.find? (fun r => decide (r.scope = (4, 0, 0))) (devReset false).flt.resets), ((devReset false).pwr.tripped = false)) := by
  delta State.canonical
  refine ⟨?_, ?_, ?_, ?_, ?_, ?_, ?_, ?_, ?_, ?_⟩ <;> decide +kernel

/-- A credential whose key's hash the fuses hold stands; its hash is computed. -/
theorem witness_Ownership_stands :
    (claiming.ports.claims.find? (fun c => decide (c.req.session = 65535 ∧ c.req.tag = 9 ∧ c.nonce = 6 ∧ c.verdict = none)) = some claimed) ∧
    (Credential.read claimed.cred).any (fun x => claiming.credentialStands false x && claiming.claimTimely claimed && (!claimed.own || decide (x.role = 1))) = true := by
  decide +kernel

/-- A slot whose seal is written is sealed (R530). -/
theorem test_seal : sealedSlot.isSealed = true := by decide +kernel

/-- The module as a start wakes it, whatever it finds in the slots. -/
def woken : State := (sealed2 false).wake (boot true true)

theorem woken_vendor : woken.vendorOk sealedSlot = true := by decide +kernel
theorem woken_signed : woken.configSigned sealedSlot true = true := by decide +kernel
theorem sealed_fields : sealedSlot.badField (sealedSlot.read (img tpl)) = none := by decide +kernel
theorem sealed_policy : (sealedSlot.read (img tpl)).badPolicy = none := by decide +kernel
theorem sealed_loadable : (sealedSlot.read (img tpl)).loadable = true := by decide +kernel
theorem woken_points : woken.pointsFit (sealedSlot.read (img tpl)) = true := by decide +kernel
theorem woken_svn : (decide ((sealedSlot.read (img tpl)).svn < woken.svnFused)) = false := by decide +kernel

/-- A checked slot of the woken module is taken. -/
theorem woken_takes {k : Nat} (h : woken.slot k = sealedSlot) : (woken.trySlot k (check true)).1 = 0 := by
  have hs : ¬(sealedSlot.read (img tpl)).svn < woken.svnFused := of_decide_eq_false woken_svn
  simp [State.trySlot, h, check, test_seal, woken_vendor, woken_signed, sealed_fields, sealed_policy, sealed_loadable, woken_points, hs]

/-- One whose firmware signature fails is refused. -/
theorem woken_refuses {k : Nat} (h : woken.slot k = sealedSlot) : (woken.trySlot k (check false)).1 ≠ 0 := by
  simp [State.trySlot, h, check, test_seal, woken_vendor]

theorem witness_StartsAndStops_slots :
    (((sealed2 false).wake (boot true true)).trySlot 0 (boot true true).slotA).1 = 0 ∧
    (((sealed2 false).wake (boot false true)).trySlot 0 (boot false true).slotA).1 ≠ 0 ∧
    (((sealed2 false).wake (boot false true)).trySlot 1 (boot false true).slotB).1 = 0 ∧
    (((sealed2 false).wake (boot false false)).trySlot 1 (boot false false).slotB).1 ≠ 0 :=
  ⟨woken_takes rfl, woken_refuses rfl, woken_takes rfl, woken_refuses rfl⟩

theorem witness_OwnerCommandsComplete :
    (let meets := fun (s : State) => (s.quiet reqw.session 0x0A reqw.tag = false) ∧ (s.sessionOk reqw = true) ∧ (s.isOwner reqw = true) ∧
      (s.fr.q2 < 64) ∧ (s.phase ≤ 1)
     ∀ s ∈ [case32, fusing, case35, debugging, macsec], meets s) ∧
    ((reqw.ctx = 0) ∧ (reqw.gen = 0) ∧ (reqw.arg0 = 0) ∧ (reqw.arg1 = 0) ∧ (reqw.len = 12)) ∧
    ((case32.resetAllowed = true) ∧ (case32.flt.oosDue = none) ∧ (case32.calWritable = true) ∧ (case32.get F.CAL_STATUS_BUSY 0 = 0)) ∧
    ((case32.get F.SEC_STAT_QUOTE_BUSY 0 = 0) ∧ (∀ u ∈ case32.sec.lastQuote, u + 10 ^ 8 ≤ case32.now + reqw.t)) ∧
    (fusing.svnFused < fusing.get F.SEC_BOOT_SVN_FW 0) ∧ (¬case32.svnFused < case32.get F.SEC_BOOT_SVN_FW 0) ∧
    ((fusing.get F.SEC_FUSE_LOCK 0 = 0) ∧ (fusing.ownerSet = true)) ∧
    ((case35.imgBusy = false) ∧ ((case35.slot 0).sealable = true)) ∧
    ((case32.debugAllowed 9 ≠ 0) ∧ (case32.sec.dbgOpen = none) ∧ (debugging.sec.dbgOpen.isSome = true)) ∧
    ((31 < 32) ∧ (0 < 2) ∧ (macsec.get F.ETH_PORT_MACSEC_ON 0 = 1)) := by
  refine ⟨?_, ?_, ?_, ?_, ?_, ?_, ?_, ?_, ?_, ?_⟩ <;> decide +kernel

theorem witness_HeadersRoundTrip :
    (7 < 2 ^ 3 ∧ 31 < 2 ^ 5 ∧ 131071 < 2 ^ 17 ∧ 1023 < 2 ^ 10 ∧ 2 ^ 41 - 1 < 2 ^ 41 ∧ 15 < 2 ^ 4) ∧
    ((List.replicate 16 255).length = 16 ∧ (∀ k ∈ List.replicate 16 255, k < 2 ^ 8)) := by decide +kernel

/-! Witnesses that no list of samples shows: hypotheses that hold of every state, of a step, and of a run of the command before. -/

theorem witness_StepTakesFront : State.reset.pending = [] := rfl

theorem witness_CanonicalKept : one.canonical ∧ step one = .next one := ⟨by delta State.canonical; decide +kernel, by
  have h : one.pending = [] := by decide +kernel
  simp [step, h]⟩

theorem witness_FrameOfEveryCommand : ∃ t, exec (.overdraw 606001 5) one = .next t := ⟨_, rfl⟩

theorem witness_ReadersSeeTheTick : shows (.overdraw 606001 5) = false ∧ ∃ t, exec (.overdraw 606001 5) one = .next t := ⟨rfl, _, rfl⟩

theorem witness_SentOnlyGrows : ∃ t, step { State.reset with pending := [.overdraw 606001 5] } = .next t := ⟨_, rfl⟩

theorem witness_ResetRegisters : (0 < 1536) ∧ (1535 < 1536) := by decide

theorem witness_SignalFlits_run : ∃ u, exec (.signalFlit (head 1 5) []) linked = .next u := ⟨_, rfl⟩

theorem witness_ReferencePasses_run : ∃ u, exec (.referencePasses [⟨8, [967, 967, 968], [0, 0, 0]⟩]) one = .next u := ⟨_, rfl⟩

/-! Operands and commands that their well-formedness refuses. -/

theorem test_wf_Req : let o : Req := reqw; o.wf = true ∧ [{ o with port := 2 }, { o with session := 2 ^ 16 }, { o with tag := 2 ^ 32 },
    { o with ctx := 1024 }, { o with gen := 2 ^ 16 }, { o with arg0 := 2 ^ 32 }, { o with arg1 := 2 ^ 32 }, { o with len := 2 ^ 40 },
    { o with addr := 2 ^ 128 }, { o with udp := 2 ^ 16 }].all (fun x => !x.wf) = true := by decide +kernel

theorem test_wf_Wait : let o : Wait := ⟨0, 0, 0, 0⟩; o.wf = true ∧ [{ o with ctr := 64 }, { o with mode := 3 },
    { o with target := 2 ^ 32 }, { o with bytes := 2 ^ 32 }].all (fun x => !x.wf) = true := by decide +kernel

theorem test_wf_WorkItem : let o : WorkItem := noWork; o.wf = true ∧ [{ o with cls := 0 }, { o with cls := 4 },
    { o with ctx := 1024 }, { o with phase := 6 }, { o with units := [(16 * 176, 0)] }, { o with units := [(5, 0)] }, { o with mem := [(12, 0)] },
    { o with flits := [(256, 0)] }, { o with eth := [(2, 0)] }, { o with blocks := [(1536, 1)] }, { o with reads := [(1536, 1)] },
    { o with switches := [(176, 0)] }, { o with switches := [(0, 1024)] }, { o with gates := [(176, ⟨0, 0, 0, 0⟩)] },
    { o with gates := [(0, ⟨64, 0, 0, 0⟩)] }].all (fun x => !x.wf) = true := by decide +kernel

theorem test_wf_TickArgs : let o : TickArgs := tickArgs; o.wf = true ∧ [{ o with items := [{ noWork with cls := 0 }] },
    { o with ptpSec := 2 ^ 48 }, { o with ptpNs := 2 ^ 32 }, { o with dup := [(192, 0)] },
    { o with ecc := [(192, 1)] }].all (fun x => !x.wf) = true := by decide +kernel

theorem test_wf_Segment : let o : Segment := seg 0 64; o.wf = true ∧ [{ o with port := 2 }, { o with udpLen := 2 ^ 16 },
    { o with version := 256 }, { o with type := 256 },
    { o with hdr := { reqw with port := 2 } }].all (fun x => !x.wf) = true := by decide +kernel

theorem test_wf_PtpMsg : let o : PtpMsg := ⟨0, 0, true, 5, 6⟩; o.wf = true ∧ [{ o with port := 2 },
    { o with domain := 256 }].all (fun x => !x.wf) = true := by decide +kernel

theorem test_wf_LaneFig : let o : LaneFig := ⟨0, 0, 0⟩; o.wf = true ∧ [{ o with lane := 8 }, { o with eye := 256 },
    { o with margin := 256 }].all (fun x => !x.wf) = true := by decide +kernel

theorem test_wf_WriteEntry : let o : WriteEntry := ⟨0x1010, 5, 0⟩; o.wf = true ∧ [{ o with addr := 2 ^ 32 }, { o with value := 2 ^ 32 },
    { o with mask := 2 ^ 32 }].all (fun x => !x.wf) = true := by decide +kernel

theorem test_wf_SignalOp : let o : SignalOp := ⟨5, 0, 1, 7, 2, 8⟩; o.wf = true ∧ [{ o with ctx := 1024 }, { o with gen := 2 ^ 16 },
    { o with core := 176 }, { o with ctr := 64 }, { o with inc := 2 ^ 16 },
    { o with bytes := 2 ^ 32 }].all (fun x => !x.wf) = true := by decide +kernel

theorem test_wf_SignalEntry : let o : SignalEntry := ⟨1, 7, 3, 64⟩; o.wf = true ∧ [{ o with core := 176 }, { o with ctr := 64 },
    { o with inc := 2 ^ 16 }, { o with bytes := 2 ^ 32 }].all (fun x => !x.wf) = true := by decide +kernel

theorem test_wf_FlitHead : let o : FlitHead := head 0 5; o.wf = true ∧ [{ o with port := 32 }, { o with vc := 8 },
    { o with src := 2 ^ 17 }, { o with ctx := 1024 }, { o with gen := 2 ^ 16 },
    { o with ftag := 16 }].all (fun x => !x.wf) = true := by decide +kernel

theorem test_wf_SealGroup : let o : SealGroup := sealBlock false true; o.wf = true ∧ [{ o with port := 32 }, { o with group := 2 ^ 32 },
    { o with state := 4 }, { o with flits := [⟨8, 0, false, 0, 0, 0⟩] },
    { o with flits := [⟨0, 8, false, 0, 0, 0⟩] }].all (fun x => !x.wf) = true := by decide +kernel

theorem test_wf_HelloMsg : let o : HelloMsg := hello true; o.wf = true ∧ [{ o with port := 32 }, { o with peer := 2 ^ 17 },
    { o with peerPort := 32 }, { o with topo := 2 ^ 256 }].all (fun x => !x.wf) = true := by decide +kernel

theorem test_wf_KexMsg : let o : KexMsg := kex true; o.wf = true ∧ [{ o with port := 32 },
    { o with idPk := 2 ^ 544 }, { o with secret := 2 ^ 768 }].all (fun x => !x.wf) = true := by decide +kernel

theorem test_wf_JoinMsg : let o : JoinMsg := ⟨2, 50, 2, 4⟩; o.wf = true ∧ [{ o with port := 32 }].all (fun x => !x.wf) = true := by decide +kernel

theorem test_wf_CalItem : let o : CalItem := ⟨2, 3, 0, 0, false⟩; o.wf = true ∧ [{ o with kind := 10 }].all (fun x => !x.wf) = true := by decide +kernel

theorem test_wf_RefReading : let o : RefReading := ⟨8, 0, [1], [1]⟩; o.wf = true ∧ [{ o with batt := 1536 }, { o with block := 16 },
    { o with z := [] }].all (fun x => !x.wf) = true := by decide +kernel

theorem test_wf_RefSlot : let o : RefSlot := ⟨8, [0, 0, 0], [0, 0, 0]⟩; o.wf = true ∧ [{ o with batt := 1536 }, { o with p := [0, 0] },
    { o with z := [0, 0] }].all (fun x => !x.wf) = true := by decide +kernel

theorem test_wf_MatrixDesc : let o : MatrixDesc := mat; o.wf = true ∧ [{ o with gen := 2 ^ 16 }, { o with fmtA := 16 },
    { o with fmtB := 16 }, { o with outFmt := 16 }, { o with m := 2 ^ 16 }, { o with n := 2 ^ 16 }, { o with k := 2 ^ 32 },
    { o with sigCtr := 64 }].all (fun x => !x.wf) = true := by decide +kernel

theorem test_wf_DmaDesc : let o : DmaDesc := dma; o.wf = true ∧ [{ o with gen := 2 ^ 16 }, { o with vc := 8 },
    { o with srcAddr := 2 ^ 64 }, { o with dstAddr := 2 ^ 41 }, { o with sigCtr := 64 }].all (fun x => !x.wf) = true := by decide +kernel

theorem test_wf_VecInstr : let o : VecInstr := vec 0 0 false; o.wf = true ∧ [{ o with type := 16 }, { o with mask := 8 },
    { o with dst := 2 ^ 23 }, { o with srcA := 2 ^ 23 }, { o with aux := 256 }].all (fun x => !x.wf) = true := by decide +kernel

theorem test_wf_BattPass : let o : BattPass := pass; o.wf = true ∧ [{ o with batt := 1536 },
    { o with xs := List.replicate 1025 0 }].all (fun x => !x.wf) = true := by decide +kernel

theorem test_wf_RowOp : let o : RowOp := row 0 1 0; o.wf = true ∧ [{ o with batt := 1536 }, { o with row := 1024 },
    { o with kind := 4 }, { o with tries := [] }, { o with tries := List.replicate 3 ⟨[]⟩ },
    { o with tries := [⟨List.replicate 13 []⟩] }, { o with tries := [⟨[[(1058, [0, 0, 0, 0])]]⟩] },
    { o with tries := [⟨[[(0, [0])]]⟩] }].all (fun x => !x.wf) = true := by decide +kernel

theorem test_wf_FulRead : let o : FulRead := ⟨8, 0, []⟩; o.wf = true ∧ [{ o with batt := 1536 }, { o with row := 1024 },
    { o with cells := [(1058, [0, 0, 0, 0])] }, { o with cells := [(0, [])] }].all (fun x => !x.wf) = true := by decide +kernel

theorem test_wf_ShadowOp : let o : ShadowOp := ⟨8, [], [], 0⟩; o.wf = true ∧ [{ o with batt := 1536 },
    { o with codes := [-129] }, { o with codes := [128] }].all (fun x => !x.wf) = true := by decide +kernel

theorem test_wf_CardOp : let o : CardOp := card; o.wf = true ∧ [{ o with ctx := 1024 }, { o with card := 2 ^ 16 },
    { o with shard := 2 ^ 16 }].all (fun x => !x.wf) = true := by decide +kernel

theorem test_wf_UpdateOp : let o : UpdateOp := upd; o.wf = true ∧ [{ o with ctx := 1024 }].all (fun x => !x.wf) = true := by decide +kernel

theorem test_wf_StepRec : let o : StepRec := rec1 1 20 0; o.wf = true ∧ [{ o with head := { head 0 5 with port := 32 } },
    { o with step := 2 ^ 48 }, { o with attempt := 256 }, { o with type := 256 },
    { o with sender := 2 ^ 17 }].all (fun x => !x.wf) = true := by decide +kernel

theorem test_wf_SumOp : let o : SumOp := sumOp 0 0 4; o.wf = true ∧ [{ o with ctx := 1024 }].all (fun x => !x.wf) = true := by decide +kernel

theorem test_wf_ChunkOp : let o : ChunkOp := chunk 0x200; o.wf = true ∧ [{ o with ctx := 1024 }, { o with sum := 3 },
    { o with cores := [176] }].all (fun x => !x.wf) = true := by decide +kernel

theorem test_wf_GatherOp : let o : GatherOp := gather true; o.wf = true ∧ [{ o with ctx := 1024 }].all (fun x => !x.wf) = true := by decide +kernel

theorem test_wf_DigestMsg : let o : DigestMsg := digest 0 1 5; o.wf = true ∧ [{ o with head := { head 0 5 with port := 32 } },
    { o with scope := 3 }].all (fun x => !x.wf) = true := by decide +kernel

theorem test_wf_DupOp : let o : DupOp := dup 111 true; o.wf = true ∧ [{ o with core := 192 }, { o with other := 192 },
    { o with engine := 4 }, { o with engine := 16 }].all (fun x => !x.wf) = true := by decide +kernel

theorem test_wf_HolderOp : let o : HolderOp := ⟨1, 5, 7, 3, 3⟩; o.wf = true ∧ [{ o with source := 2 ^ 17 },
    { o with ctx := 1024 }].all (fun x => !x.wf) = true := by decide +kernel

theorem test_wf_RestoreOp : let o : RestoreOp := restoreOp true true; o.wf = true ∧ [{ o with ctx := 1024 }].all (fun x => !x.wf) = true := by decide +kernel


theorem test_wf_commands_1 :
    ([.tick { tickArgs with items := [{ noWork with cls := 0 }] },
     .referencePasses [{ (⟨8, [0, 0, 0], [0, 0, 0]⟩ : RefSlot) with batt := 1536 }], .refRecoveryComplete 1536,
     .trpSegment { seg 0 64 with port := 2 }, .reassemblyTimeout (2 ^ 16) 0 0 0, .identityQuietExpiry (2 ^ 16) 0 0 0, .icmpEcho 2 true 0,
     .arpRequest 2 0 true, .neighbourResolve 2 0 true, .ptpMessage { (⟨0, 0, true, 5, 6⟩ : PtpMsg) with port := 2 }, .delayReq 2,
     .ethLinkDown 2, .ethLinkUp 2 [], .ethLinkUp 0 [{ (⟨0, 0, 0⟩ : LaneFig) with lane := 8 }], .query { reqw with port := 2 },
     .sample { reqw with port := 2 } [], .loadModel ⟨{ reqw with port := 2 }, ⟨0, [], true, true⟩⟩, .loadComplete 1024, .loadFailed 1024 0 0,
     .exportReq { reqw with port := 2 } 0, .exportResend { reqw with port := 2 } 0 0 0, .mgmtRead { reqw with port := 2 },
     .mgmtWrite { reqw with port := 2 } [], .mgmtWrite reqw [{ (⟨0x1010, 5, 0⟩ : WriteEntry) with addr := 2 ^ 32 }],
     .claimObserve { reqw with port := 2 } 0 0, .claimOwn { reqw with port := 2 } 0 0, .renew { reqw with port := 2 } 0,
     .claimProofVerified (2 ^ 16) 0 0 ⟨true, true⟩, .release { reqw with port := 2 }, .releaseClose { reqw with port := 2 },
     .handover { reqw with port := 2 }, .sessionIdleClose (2 ^ 16), .hsessCfgWrite { reqw with port := 2 } [],
     .hsessCfgWrite reqw [{ (⟨0x1010, 5, 0⟩ : WriteEntry) with addr := 2 ^ 32 }], .park { reqw with port := 2 } 0, .park reqw 1024,
     .unpark { reqw with port := 2 } 0, .unpark reqw 1024, .teardown { reqw with port := 2 } 0, .teardown reqw 1024] : List Instr).all (fun i => !i.wf) = true := by decide +kernel

theorem test_wf_commands_2 :
    ([.teardownFence 1024, .contextRelease 1024 0, .drainTimeout 1024, .releasedMemoryZeroed 1024, .unparkComplete 1024, .contextFault 1024,
     .pauseWrite { reqw with port := 2 } 0 true, .pauseWrite reqw 1024 true, .fltReset { reqw with port := 2 },
     .fltOos { reqw with port := 2 }, .restoreLatest { reqw with port := 2 } 0, .restoreLatest reqw 1024,
     .restorePrevious { reqw with port := 2 } 0, .restorePrevious reqw 1024, .calBattItems { reqw with port := 2 } 0 true,
     .calBattItems reqw 1536 true, .calFwdSigma { reqw with port := 2 }, .calPIdle { reqw with port := 2 },
     .calMonRef { reqw with port := 2 }, .calSensorMap { reqw with port := 2 } 0, .calSensorMap reqw 192,
     .calRingBias { reqw with port := 2 } 0, .calRingBias reqw 34, .calRunComplete [{ (⟨2, 3, 0, 0, false⟩ : CalItem) with kind := 10 }] 0,
     .quoteGo { reqw with port := 2 } 0, .quoteGo reqw (2 ^ 8), .svnCommit { reqw with port := 2 } 0, .svnCommit reqw (2 ^ 8),
     .lock { reqw with port := 2 } 0, .lock reqw (2 ^ 8), .dbgDisable { reqw with port := 2 } 0 0, .dbgDisable reqw (2 ^ 8) 0,
     .fuseBlowComplete [1024], .secCredEpochWrite { reqw with port := 2 } 0 0, .dbgOpen { reqw with port := 2 } 0 0, .dbgOpen reqw 16 0,
     .dbgOpen reqw 0 (2 ^ 16), .dbgClose { reqw with port := 2 }, .imgErase { reqw with port := 2 } 0 0, .imgErase reqw (2 ^ 8) 0] : List Instr).all (fun i => !i.wf) = true := by decide +kernel

theorem test_wf_commands_3 :
    ([.imgErase reqw 0 2, .imgEraseComplete 2, .imgSeal { reqw with port := 2 } 0 0, .imgSeal reqw (2 ^ 8) 0, .imgSeal reqw 0 2,
     .imgRestart { reqw with port := 2 } 0, .imgRestart reqw (2 ^ 8), .imgWinWrite { reqw with port := 2 } [],
     .imgWinWrite reqw [{ (⟨0x1010, 5, 0⟩ : WriteEntry) with addr := 2 ^ 32 }], .retrain { reqw with port := 2 } 0, .retrain reqw 32,
     .unfence { reqw with port := 2 } 0, .unfence reqw 32, .install { reqw with port := 2 } 0 0, .install reqw 2 0, .install reqw 0 4,
     .txAnSwitch { reqw with port := 2 } 0 0, .txAnSwitch reqw 2 0, .txAnSwitch reqw 0 2,
     .signal { (⟨5, 0, 1, 7, 2, 8⟩ : SignalOp) with ctx := 1024 }, .wait 192 0 0 0 0 0, .wait 0 12 0 0 0 0, .wait 0 0 64 0 0 0,
     .wait 0 0 0 3 0 0, .wait 0 0 0 0 (2 ^ 32) 0, .wait 0 0 0 0 0 (2 ^ 32), .waitRelease 192 0, .waitRelease 0 12, .contextSwitch 192 0,
     .contextSwitch 0 1024, .matrixOperation 192 mat, .matrixOperation 0 { mat with gen := 2 ^ 16 }, .copy 192 dma,
     .copy 0 { dma with gen := 2 ^ 16 }, .fill 192 dma, .fill 0 { dma with gen := 2 ^ 16 }, .transpose 192 dma,
     .transpose 0 { dma with gen := 2 ^ 16 }, .add 192 (vec 0 0 false), .add 0 { vec 0 0 false with type := 16 }] : List Instr).all (fun i => !i.wf) = true := by decide +kernel

theorem test_wf_commands_4 :
    ([.sub 192 (vec 0 0 false), .sub 0 { vec 0 0 false with type := 16 }, .mul 192 (vec 0 0 false),
     .mul 0 { vec 0 0 false with type := 16 }, .fma 192 (vec 0 0 false), .fma 0 { vec 0 0 false with type := 16 },
     .vMin 192 (vec 0 0 false), .vMin 0 { vec 0 0 false with type := 16 }, .vMax 192 (vec 0 0 false),
     .vMax 0 { vec 0 0 false with type := 16 }, .abs 192 (vec 0 0 false), .abs 0 { vec 0 0 false with type := 16 },
     .neg 192 (vec 0 0 false), .neg 0 { vec 0 0 false with type := 16 }, .mov 192 (vec 0 0 false),
     .mov 0 { vec 0 0 false with type := 16 }, .cmp 192 (vec 0 0 false), .cmp 0 { vec 0 0 false with type := 16 },
     .cmps 192 (vec 0 0 false), .cmps 0 { vec 0 0 false with type := 16 }, .sel 192 (vec 0 0 false),
     .sel 0 { vec 0 0 false with type := 16 }, .selp 192 (vec 0 0 false), .selp 0 { vec 0 0 false with type := 16 },
     .exp2 192 (vec 0 0 false), .exp2 0 { vec 0 0 false with type := 16 }, .log2 192 (vec 0 0 false),
     .log2 0 { vec 0 0 false with type := 16 }, .rsqrt 192 (vec 0 0 false), .rsqrt 0 { vec 0 0 false with type := 16 },
     .rcp 192 (vec 0 0 false), .rcp 0 { vec 0 0 false with type := 16 }, .cvt 192 (vec 0 0 false),
     .cvt 0 { vec 0 0 false with type := 16 }, .pack 192 ⟨vec 0 0 false, none⟩, .pack 0 ⟨{ vec 0 0 false with type := 16 }, none⟩,
     .unpack 192 (vec 0 0 false), .unpack 0 { vec 0 0 false with type := 16 }, .perm 192 (vec 0 0 false),
     .perm 0 { vec 0 0 false with type := 16 }] : List Instr).all (fun i => !i.wf) = true := by decide +kernel

theorem test_wf_commands_5 :
    ([.shuf 192 (vec 0 0 false), .shuf 0 { vec 0 0 false with type := 16 }, .rsum 192 (vec 0 0 false),
     .rsum 0 { vec 0 0 false with type := 16 }, .rmax 192 (vec 0 0 false), .rmax 0 { vec 0 0 false with type := 16 },
     .rmin 192 (vec 0 0 false), .rmin 0 { vec 0 0 false with type := 16 }, .topk 192 (vec 0 0 false),
     .topk 0 { vec 0 0 false with type := 16 }, .topkm 192 (vec 0 0 false), .topkm 0 { vec 0 0 false with type := 16 },
     .psum 192 (vec 0 0 false), .psum 0 { vec 0 0 false with type := 16 }, .tchk 192 (vec 0 0 false) case2,
     .tchk 0 { vec 0 0 false with type := 16 } case2, .kset 192 (vec 0 0 false), .kset 0 { vec 0 0 false with type := 16 },
     .kop 192 (vec 0 0 false), .kop 0 { vec 0 0 false with type := 16 }, .uncorrectableEcc 192 0 true 0, .uncorrectableEcc 0 4 true 0,
     .battPass { pass with batt := 1536 }, .numSplitRaised 1024, .blocking { row 0 1 0 with batt := 1536 }, .debtStarved 1024,
     .fullingIntervalExpiry 1536 0, .fullingRead { (⟨8, 0, []⟩ : FulRead) with batt := 1536 }, .fullingPassEnd 1536 0,
     .wearCeilingWrite 1536 0, .wearCeilingWrite 0 1024, .rowWorn 1536 0, .rowWorn 0 1024, .columnRetire 1536 0, .columnRetire 0 1056,
     .spareFill { row 0 1 0 with batt := 1536 }, .spareFillComplete 1536 0, .spareFillComplete 0 1056, .battRecordWrite 1536,
     .shadowPass { (⟨8, [], [], 0⟩ : ShadowOp) with batt := 1536 }] : List Instr).all (fun i => !i.wf) = true := by decide +kernel

theorem test_wf_commands_6 :
    ([.stepBegin 1024, .carding { card with ctx := 1024 }, .stepCommit 1024, .skipLimitPause 1024, .holdRetry 1024, .escHoldExpiry 1024,
     .staticListLeave 1536 0, .staticListLeave 0 1024, .rescaleComplete 1536, .fallbackEntry 1024 0, .fallbackEnd 1024 0,
     .stepReady { rec1 1 20 0 with head := { head 0 5 with port := 32 } }, .exchScatter 1024 [],
     .ownerSum { sumOp 0 0 4 with ctx := 1024 }, .thinPSum { sumOp 0 0 4 with ctx := 1024 },
     .thinQPartial { sumOp 0 0 4 with ctx := 1024 }, .thinQSum { sumOp 0 0 4 with ctx := 1024 },
     .scalar { rec1 1 20 0 with head := { head 0 5 with port := 32 } }, .optimizerUpdate { upd with ctx := 1024 },
     .mastersApply { gather true with ctx := 1024 }, .vote { rec1 1 20 0 with head := { head 0 5 with port := 32 } },
     .resume { rec1 1 20 0 with head := { head 0 5 with port := 32 } }, .checkCopySum { chunk 0x200 with ctx := 1024 },
     .checkCompare { chunk 0x200 with ctx := 1024 }, .rereduce { rec1 1 20 0 with head := { head 0 5 with port := 32 } } [],
     .refereeSum { chunk 0x200 with ctx := 1024 }, .refereeDecision { chunk 0x200 with ctx := 1024 },
     .abandon { rec1 1 20 0 with head := { head 0 5 with port := 32 } }, .exchRerun 1024, .memberLate 1024 0 0, .memberLate 0 (2 ^ 17) 0,
     .lossReport { head 0 5 with port := 32 } 0 0, .lossReport (head 0 5) (2 ^ 17) 0, .memberRemoval 1024,
     .stateRecord { rec1 1 20 0 with head := { head 0 5 with port := 32 } }, .stateDecision 1024,
     .stepRecord { rec1 1 20 0 with head := { head 0 5 with port := 32 } } [],
     .digest { digest 0 1 5 with head := { head 0 5 with port := 32 } }, .fullDigest 1024, .digestDecision 1024] : List Instr).all (fun i => !i.wf) = true := by decide +kernel

theorem test_wf_commands_7 :
    ([.duplicateCompare { dup 111 true with core := 192 }, .duplicateReferee { dup 111 true with core := 192 }, .observationExpiry 192 0,
     .marginFrame 192, .knownAnswerTest 192 none, .engineWatchdog 192 0 0, .engineWatchdog 0 4 0, .dmaWatchdog 192 0,
     .battWatchdog 192 0 0, .battWatchdog 0 8 0, .controlCoreWatchdog 4 0, .engineReset 192 0 0, .engineReset 0 4 0, .coreReset 192 0,
     .dieReset 4 0, .resetTimeout 0 0 0 0, .resetTimeout 5 0 0 0, .resetTimeout 1 192 0 0, .resetTimeout 1 0 4 0, .resetTimeout 1 0 16 0,
     .resetTimeout 2 192 0 0, .resetTimeout 3 4 0 0, .resetComplete 0 0 0, .resetComplete 5 0 0, .resetComplete 1 192 0,
     .resetComplete 1 0 4, .resetComplete 1 0 16, .resetComplete 2 192 0, .resetComplete 3 4 0, .resetRebuild 192 [],
     .resetRebuild 0 [{ (⟨8, 0, [1], [1]⟩ : RefReading) with batt := 1536 }], .spareTest 192 true, .spareReblockComplete 1024,
     .ckptStart 1024, .ckpt { rec1 1 20 0 with head := { head 0 5 with port := 32 } },
     .holderDone { (⟨1, 5, 7, 3, 3⟩ : HolderOp) with source := 2 ^ 17 }, .selfHoldCopyDone 1024,
     .done { rec1 1 20 0 with head := { head 0 5 with port := 32 } }, .ckptAbandon 1024 0 0, .ckptAbandon 0 0 (2 ^ 17)] : List Instr).all (fun i => !i.wf) = true := by decide +kernel

theorem test_wf_commands_8 :
    ([.ckptLimitExpiry 1024, .probe 1024 0, .exportScheduled 1024 0, .exportHoldExpiry 1024 0,
     .restore { restoreOp true true with ctx := 1024 }, .restored { rec1 1 20 0 with head := { head 0 5 with port := 32 } },
     .acceptanceReplay 1024 0, .logRecompute 1024 0, .momentFetch 1024 0 [] true, .momentFetch 0 (2 ^ 17) [] true, .adoptZero 1024 0,
     .adoptZero 0 (2 ^ 17), .initRestoreTimeout 1024, .urgentRequest 128, .thermalShutdown 128 0, .laserLow 4,
     .sealGroupReceive { sealBlock false true with port := 32 }, .nak 32 0 0 0, .writeFlit { head 0 5 with port := 32 } 0 [],
     .signalFlit { head 0 5 with port := 32 } [], .signalFlit (head 0 5) [{ (⟨1, 7, 3, 64⟩ : SignalEntry) with core := 176 }],
     .withdraw { head 0 5 with port := 32 } [], .join { (⟨2, 50, 2, 4⟩ : JoinMsg) with port := 32 }, .readyCount (2 ^ 17) 0,
     .hello { hello true with port := 32 }, .kex1 { kex true with port := 32 } 0, .kex2 { kex true with port := 32 } 0, .fin 32 0 [] 0, .fin 0 (2 ^ 256) [] 0,
     .fin 0 0 [{ (⟨0, 0, 0⟩ : LaneFig) with lane := 8 }] 0, .rekeyTrigger 32 0 0 0, .rekey1 { kex true with port := 32 } 0,
     .rekey2 { kex true with port := 32 } 0 0, .rekeyFin 32 0 0 0 0, .rekeyFin 0 (2 ^ 256) 0 0 0, .keySwitch 32 true 0, .rekeyTimeout 32 0, .keyRatchet 32 true 0,
     .lightDetect 32 true 0, .ringsLocked 32, .lanesTrained 32, .fecAligned 32] : List Instr).all (fun i => !i.wf) = true := by decide +kernel

theorem test_wf_commands_9 :
    ([.attemptTimeout 32 0, .authTimeout 32 0, .waitExpiry 32 0, .downExpiry 32 0, .sealLoss 32 0, .berExcess 32, .resendLimit 32 0,
     .lightLost 32, .imgSealComplete 2, .unlistedType 0 0 { reqw with port := 2 }] : List Instr).all (fun i => !i.wf) = true := by decide +kernel

/-! Small tests of single commands; the values are computed by hand from the rules named. -/

/-- The state after a command. -/
def after (i : Instr) (s : State) : State := match exec i s with | .next t => t | _ => s

/-- R224: 1.0 + 1.0 is 2.0 in lane 0, and 2.0 + -2.0 is 0 in lane 1. -/
theorem test_add : let t := after (.add 1 (vec 0 0 false)) vecs
    t.lane 1 0x400 0 0 0 = 0x40000000 ∧ t.lane 1 0x400 0 0 1 = 0 := by decide +kernel

/-- R224: the sign bit is cleared, inverted. -/
theorem test_abs_neg : (after (.abs 1 { vec 0 0 false with mask := 0 }) vecs).lane 1 0x400 0 0 2 = 0x40400000 ∧
    (after (.neg 1 (vec 0 0 false)) vecs).lane 1 0x400 0 0 0 = 0xBF800000 := by decide +kernel

/-- R219: under mask register 1 (lanes 0, 1 and 3) lane 2 keeps what it held. -/
theorem test_mask_keeps : (after (.neg 1 { vec 0 0 false with mask := 1 }) vecs).lane 1 0x400 0 0 2 = 9 := by decide +kernel

/-- R222: a type that has no meaning stops the instruction. -/
theorem test_reserved_type : (match exec (.add 1 { vec 0 0 false with type := 5 }) vecs with | .fault .reservedCode => true | _ => false) = true := by decide +kernel

/-- R371: SIGNAL adds its increment to VALUE and its bytes to LANDED and PROMISED. -/
theorem test_signal : let c := (((after (.signal ⟨5, 0, 1, 7, 2, 8⟩) one).set_ 1 5).ctr 7)
    c.value = 2 ∧ c.landed = 8 ∧ c.promised = 8 := by decide +kernel

/-- R371, R389: a stale SIGNAL changes no counter. -/
theorem test_signal_stale : (after (.signal ⟨5, 1, 1, 7, 2, 8⟩) one).cores = one.cores := by decide +kernel

/-- R44, R555: the frame number advances with the tick, and so does what readers see. -/
theorem test_tick : let t := after (.tick tickArgs) one
    t.frame = 21 ∧ t.seen F.FRM_NUM_LO_FRAME 0 = 21 := by decide +kernel

/-- R471: an overdraw raises the reserve by one percent of the envelope, to 20 % at most. -/
theorem test_overdraw : (after (.overdraw 606001 5) { one with pwr := { one.pwr with reserve := 195 } }).pwr.reserve = 200 ∧
    (after (.overdraw 606000 5) one).pwr.reserve = one.pwr.reserve := by decide +kernel

/-- R482: a channel already queued is not queued again; a fifth is refused. -/
theorem test_urgent : (after (.urgentRequest 4) (monitoring [4] [])).pwr.urgent = [4] ∧
    (after (.urgentRequest 9) (monitoring [4, 5, 6, 7] [])).get F.MON_COUNTS_REFUSED 0 = 1 := by decide +kernel

/-- R525, R542: a command register without its key does nothing. -/
theorem test_no_key : (after (.imgErase reqw 0xA4 0) (owned one)).img = one.img ∧
    (after (.quoteGo reqw 0x5B) (owned one)).sec = one.sec := by decide +kernel

/-- R384: PARK of a READY context, and of a PARKED one (CMD_IGNORED). -/
theorem test_park : (after (.park reqw 5) (owned one)).ctxLive 5 = 4 ∧
    (after (.park reqw 5) (owned (ctxIn 4 one))).get F.CTX_EVT_CMD_IGNORED 5 = 1 := by decide +kernel

/-- R330: light on a port in NO_LIGHT starts its training; without its declared peer the port is fenced. -/
theorem test_training : (after (.lightDetect 2 true 5) (lp 0 1 id)).lnk 2 = 1 ∧
    (after (.hello { hello true with peer := 2 }) (lp 4 1 id)).lnk 2 = 9 := by decide +kernel

/-- R317: a NAK within 32 groups resends, one beyond takes the port down. -/
theorem test_nak : (after (.nak 2 0 31 5) linked).lnk 2 = 6 ∧ (after (.nak 2 0 32 5) linked).lnk 2 = 1 := by decide +kernel

/-- R501: a bit that reads back counts as blown, one that does not stays. -/
theorem test_fuse : (after (.fuseBlowComplete [836]) fusing).fuse 836 = true ∧ (after (.fuseBlowComplete []) fusing).fuse 836 = false := by
  decide +kernel

/-- Without an image and an owner root, a proof stands that names this module, under the root that it carries (R531). -/
theorem test_bare_claim :
    let s : State := { (one.put F.DEV_STATE_PHASE 0 2).put F.FLT_STATE_CAUSE 0 9 with sec := { one.sec with idHash := 5 } }
    (Credential.read cred).all (fun x => !s.credentialStands false x && s.credentialStands false { x with scope := 5 * 256 ^ 31 } &&
      !one.credentialStands false { x with scope := 5 * 256 ^ 31 }) = true := by decide +kernel

/-- R542: erasure ends with an empty slot; a slot that is no image is not sealed. -/
theorem test_slots : (after (.imgEraseComplete 0) (slotA (fun x => { x with erasing := true, words := [(0, 5)] }))).img.slotA = SlotSt.empty ∧
    (after (.imgSeal reqw 0xA5 0) (slotA id)).get F.IMG_STAT_SEAL_FAIL 0 = 1 := by decide +kernel

/-- R464: ENABLE opened takes the power: stack memory is lost, fuses stay. -/
theorem test_enable_open : let t := after .enableOpen (sp 0x100 [7] fusing)
    t.mem = [] ∧ t.pwr.converting = false ∧ t.sec.fuses = fusing.sec.fuses := by decide +kernel

/-- R3, R319: a flit header is big-endian, VC, TYPE and HOPS in its first bytes, and reads back. -/
theorem test_flit : let f : FlitFields := ⟨1, 2, false, 3, 4, 5, 6, 7, 8, 9, 10⟩
    readFlit (f.bytes ++ [0]) = f ∧ f.bytes.headD 0 = 0x28 := by decide +kernel

/-- R351: a segment's header names version 1 and its type in its first two bytes. -/
theorem test_header : let m : OutMsg := answer 9 reqw ⟨0x200, 3, 7⟩ 5
    (m.header 0 16).take 2 = [1, 0x89] ∧ (readSegment (seg 0 0) (m.header 64 16)).segOfs = 64 := by decide +kernel

end Sys2Proof.Tests
end

section
/-! What crosses the module's ports reads back as formed: big-endian numbers at their offsets, and the fields of a word (R3). -/
namespace Sys2Proof.Machine

/-! Big-endian numbers in a record. -/

@[simp] theorem beBytes_length (n v : Nat) : (beBytes n v).length = n := by
  rw [beBytes, List.length_reverse, leBytes_length]

theorem beNat_beBytes (n v : Nat) : beNat (beBytes n v) = v % 256 ^ n := by
  rw [beNat, beBytes, List.reverse_reverse, leNat_leBytes]

/-- What stands after the first `j` bytes of a record. -/
theorem beAt_append {a : List Byte} {j : Nat} (h : a.length = j) (o m : Nat) (l : List Byte) : beAt (a ++ l) (j + o) m = beAt l o m := by
  rw [beAt, beAt, ← h, List.drop_length_add_append]

theorem beAt_skip {n o : Nat} (h : n ≤ o) (v m : Nat) (l : List Byte) : beAt (beBytes n v ++ l) o m = beAt l (o - n) m := by
  obtain ⟨k, rfl⟩ := Nat.exists_eq_add_of_le h
  rw [beAt_append (beBytes_length n v), Nat.add_sub_cancel_left]

theorem leBytes_add (n m v : Nat) : leBytes (n + m) v = leBytes n v ++ leBytes m (v / 256 ^ n) := by
  induction n generalizing v with
  | zero => simp [leBytes]
  | succ n ih =>
    rw [Nat.add_right_comm, leBytes, leBytes, ih, List.cons_append, Nat.div_div_eq_div_mul, ← Nat.pow_succ']

/-- The upper `m` bytes of a big-endian number come before the lower `n`. -/
theorem beBytes_add (m n v : Nat) : beBytes (m + n) v = beBytes m (v / 256 ^ n) ++ beBytes n v := by
  rw [beBytes, Nat.add_comm, leBytes_add, List.reverse_append, ← beBytes, ← beBytes]

/-- `m` bytes from offset `o` within a big-endian number of `n` bytes. -/
theorem beAt_beBytes {n o m : Nat} (h : o + m ≤ n) (v : Nat) (l : List Byte) :
    beAt (beBytes n v ++ l) o m = v / 256 ^ (n - o - m) % 256 ^ m := by
  obtain ⟨k, rfl⟩ := Nat.exists_eq_add_of_le h
  rw [Nat.add_assoc, beBytes_add o, beBytes_add m k, List.append_assoc, beAt_skip (le_refl o), Nat.sub_self, List.append_assoc, beAt,
    List.drop_zero, List.take_left' (beBytes_length ..), beNat_beBytes, Nat.add_sub_cancel_left, Nat.add_sub_cancel_left]

/-- A big-endian number at the front of a record. -/
theorem beAt_front {n v : Nat} (h : v < 256 ^ n) (l : List Byte) : beAt (beBytes n v ++ l) 0 n = v := by
  rw [beAt_beBytes (Nat.zero_add n).le, Nat.sub_zero, Nat.sub_self, Nat.pow_zero, Nat.div_one, Nat.mod_eq_of_lt h]

/-- A list of numbers below 256, a byte each, reads back from its place. -/
theorem map_beAt_flatMap (c : List Nat) (hc : ∀ k ∈ c, k < 2 ^ 8) (l : List Byte) :
    (List.range c.length).map (fun k => beAt (c.flatMap (fun b => beBytes 1 b) ++ l) k 1) = c := by
  induction c with
  | nil => rfl
  | cons b r ih =>
    have hb : b < 256 ^ 1 := hc b List.mem_cons_self
    rw [List.length_cons, List.range_succ_eq_map, List.map_cons, List.map_map, List.flatMap_cons, List.append_assoc, beAt_front hb]
    congr 1
    refine Eq.trans (List.map_congr_left fun k _ => ?_) (ih fun k hk => hc k (List.mem_cons_of_mem b hk))
    exact beAt_skip (Nat.le_add_left 1 k) ..

/-! A flag is a field of one bit. -/

theorem flag_eq_toNat_mul (b : Bool) (n : Nat) : (if b then n else 0) = b.toNat * n := by
  cases b
  · exact (Nat.zero_mul n).symm
  · exact (Nat.one_mul n).symm

theorem decide_bitsAt_eq_flag {w lo : Nat} {b : Bool} : decide (bitsAt w lo 1 = 1) = b ↔ bitsAt w lo 1 = b.toNat := by
  cases b
  · exact decide_eq_false_iff_not.trans Nat.mod_two_not_eq_one
  · exact decide_eq_true_iff

/-! The flit header (R319). -/

theorem FlitFields.bytes_length (f : FlitFields) : f.bytes.length = 16 := beBytes_length ..

/-- The fields of the header word stand side by side, each below the place of the next. -/
theorem readFlit_bytes (f : FlitFields) (hvc : f.vc < 2 ^ 3) (htype : f.type < 2 ^ 3) (hhops : f.hops < 2 ^ 5) (hdst : f.dst < 2 ^ 17)
    (hsrc : f.src < 2 ^ 17) (hlen : f.len < 2 ^ 8) (hctx : f.ctx < 2 ^ 10) (hgen : f.gen < 2 ^ 16) (haddr : f.addr < 2 ^ 41)
    (hftag : f.ftag < 2 ^ 4) (l : List Byte) : readFlit (f.bytes ++ l) = f := by
  obtain ⟨vc, type, alt, hops, dst, src, len, ctx, gen, addr, ftag⟩ := f
  have halt := alt.toNat_lt
  simp only [readFlit, FlitFields.bytes, flag_eq_toNat_mul] at *
  rw [beAt_front (by omega)]
  simp only [FlitFields.mk.injEq, decide_bitsAt_eq_flag]
  unfold bitsAt
  omega

/-! The TRP header (R351). -/

theorem OutMsg.header_length (m : OutMsg) (ofs len : Nat) : (m.header ofs len).length = 32 := by
  simp only [OutMsg.header, List.length_append, beBytes_length]

/-- Each field is read at its offset; GEN, IND and CTX share the four bytes at 0x10, of which GEN is the upper two and CTX the low ten bits. -/
theorem readSegment_header (m : OutMsg) (g : Segment) (ofs len : Nat) (htype : m.type < 2 ^ 8) (hsession : m.session < 2 ^ 16)
    (hlen : m.len < 2 ^ 32) (hofs : ofs < 2 ^ 32) (hseg : len < 2 ^ 16) (hctx : m.ctx < 2 ^ 10) (hgen : m.gen < 2 ^ 16) (htag : m.tag < 2 ^ 32)
    (harg0 : m.arg0 < 2 ^ 32) (harg1 : m.arg1 < 2 ^ 32) (l : List Byte) :
    readSegment g (m.header ofs len ++ l) = { g with
      version := 1, type := m.type, segOfs := ofs, segLen := len,
      hdr := { g.hdr with
        session := m.session, len := m.len, gen := m.gen, ctx := m.ctx, tag := m.tag, arg0 := m.arg0, arg1 := m.arg1 } } := by
  simp only [readSegment, OutMsg.header, List.append_assoc, beAt_skip, beAt_beBytes, Nat.reduceLeDiff, Nat.reduceAdd, Nat.reduceSub,
    Segment.mk.injEq, Req.mk.injEq, true_and, and_true]
  omega

/-! The seal block (R310). -/

theorem sealBytes_length (o : SealGroup) (stamp : Nat × Nat × Nat × Nat × Nat) (h : o.credits.length = 16) :
    (sealBytes o stamp).length = 48 := by
  simp [sealBytes, List.length_flatMap, h]

/-- The credits stand from offset 0x20, after the fields and the stamp. -/
theorem beAt_sealBytes_credit (o : SealGroup) (stamp : Nat × Nat × Nat × Nat × Nat) (l : List Byte) (k : Nat) :
    beAt (sealBytes o stamp ++ l) (0x20 + k) 1 = beAt (o.credits.flatMap (fun c => beBytes 1 c) ++ l) k 1 := by
  rw [sealBytes, List.append_assoc, beAt_append]
  simp only [List.length_append, beBytes_length]

/-- Each field is read at its offset; STATE, UNALIGNED, DEPTH and NAK share the two bytes at 0x0C. -/
theorem readSeal_sealBytes (o g : SealGroup) (stamp : Nat × Nat × Nat × Nat × Nat) (hseq : o.seq < 2 ^ 64) (hgroup : o.group < 2 ^ 32)
    (hstate : o.state < 2 ^ 4) (hdepth : o.depth < 2 ^ 3) (hack : o.ack < 2 ^ 16) (hlen : o.credits.length = 16)
    (hcredits : ∀ k ∈ o.credits, k < 2 ^ 8) (l : List Byte) :
    readSeal g (sealBytes o stamp ++ l) = { g with
      seq := o.seq, group := o.group, state := o.state, unaligned := o.unaligned, depth := o.depth, nak := o.nak, ack := o.ack,
      credits := o.credits } := by
  have hcr : (List.range 16).map (fun k => beAt (sealBytes o stamp ++ l) (0x20 + k) 1) = o.credits := by
    simp only [beAt_sealBytes_credit, ← hlen]
    exact map_beAt_flatMap o.credits hcredits l
  have hunaligned := o.unaligned.toNat_lt
  have hnak := o.nak.toNat_lt
  simp only [readSeal, hcr]
  simp only [sealBytes, flag_eq_toNat_mul, List.append_assoc, beAt_skip, beAt_beBytes, Nat.reduceLeDiff, Nat.reduceAdd, Nat.reduceSub,
    SealGroup.mk.injEq, decide_bitsAt_eq_flag, true_and, and_true]
  unfold bitsAt
  omega

/-- Settles O48: each layout's length, and the reading of each layout's bytes. -/
theorem headersRoundTrip : Obligations.HeadersRoundTrip := by
  refine ⟨?_, ?_, ?_⟩
  · intro f hvc htype hhops hdst hsrc hlen hctx hgen haddr hftag
    exact ⟨f.bytes_length, readFlit_bytes f hvc htype hhops hdst hsrc hlen hctx hgen haddr hftag⟩
  · intro m g ofs len htype hsession hlen hofs hseg hctx hgen htag harg0 harg1
    exact ⟨m.header_length ofs len, readSegment_header m g ofs len htype hsession hlen hofs hseg hctx hgen htag harg0 harg1⟩
  · intro o g stamp hseq hgroup hstate hdepth hack hlen hcredits
    exact ⟨sealBytes_length o stamp hlen, readSeal_sealBytes o g stamp hseq hgroup hstate hdepth hack hlen hcredits⟩

end Sys2Proof.Machine
end

section
/-! What messages, events and folds leave of the registers, and how a received message runs its request (R347, R354, R357, R358, R408). -/
namespace Sys2Proof.Machine

/-! Folds. -/

/-- A fold over a list keeps what each of its steps keeps. -/
theorem foldl_keeps_value {α β : Type} (g : State → β) {f : State → α → State} (l : List α) (s : State)
    (h : ∀ u, ∀ x ∈ l, g (f u x) = g u) : g (l.foldl f s) = g s := by
  induction l generalizing s with
  | nil => rfl
  | cons a r ih => exact (ih _ fun u x hx => h u x (.tail _ hx)).trans (h s a (.head _))

/-! Counters. -/

/-- Writing a field leaves a field at another word; an index that the bank does not have is not written. -/
theorem get_put_elsewhere (s : State) {f g : Fld} {i j : Nat} (h : i < f.count → g.addr j ≠ f.addr i) (v : Nat) :
    (s.put f i v).get g j = s.get g j := by
  rw [get_put, if_neg fun h' => h h'.1 h'.2]

theorem get_bump_elsewhere (s : State) {f g : Fld} {i j : Nat} (h : i < f.count → g.addr j ≠ f.addr i) (n : Nat) :
    (s.bump f i n).get g j = s.get g j := get_put_elsewhere s h _

theorem advanced_bump {f : Fld} (hf : f.ok = true) {i : Nat} (hi : i < f.count) (n : Nat) (s : State) : Advanced f i n s (s.bump f i n) :=
  get_put_same s hf hi _

/-! Messages and events. -/

/-- The words that an EVENT may count in: the log's record number and lost records, and the lost messages. -/
def eventWords : List Nat := [F.FLT_LOG_NEXT.addr 0, F.ETH_TX_LOST_STREAMS.addr 0]

theorem linkUp_notMem_eventWords (p : Nat) : F.ETH_PORT_LINK_UP.addr p ∉ eventWords := by
  simp only [eventWords, Fld.addr, F.ETH_PORT_LINK_UP, F.FLT_LOG_NEXT, F.ETH_TX_LOST_STREAMS, List.mem_cons, List.not_mem_nil, or_false]
  omega

section
variable {g : Fld} {j : Nat} (hg : g.addr j ∉ eventWords)
include hg

theorem get_send (s : State) (m : OutMsg) : (s.send m).get g j = s.get g j := by
  have hne : g.addr j ≠ F.ETH_TX_LOST_STREAMS.addr 0 := fun h => hg (by simp [eventWords, h])
  unfold State.send
  split
  · rfl
  · refine get_bump_elsewhere s (fun _ => ?_) 1
    split
    · exact hne
    · exact hne

theorem get_toMgmt (s : State) (i : Nat) (m : OutMsg) : (State.toMgmt i m s).get g j = s.get g j := get_send hg ..

theorem get_toHost (s : State) (i : Nat) (m : OutMsg) : (State.toHost i m s).get g j = s.get g j := get_send hg ..

theorem get_logEvent (s : State) (st k i d0 d1 : Nat) : (s.logEvent st k i d0 d1).get g j = s.get g j := by
  have hne : g.addr j ≠ F.FLT_LOG_NEXT.addr 0 := fun h => hg (by simp [eventWords, h])
  unfold State.logEvent
  split
  · exact get_put_elsewhere _ (fun _ => hne) _
  · exact get_bump_elsewhere s (f := F.FLT_LOG_LOST) (fun _ => hne) 1
end

/-- An EVENT is its log record and then messages: what no message changes is as the log record leaves it. -/
theorem event_eq_logEvent {β : Type} (g : State → β) (hm : ∀ u i m, g (State.toMgmt i m u) = g u) (hh : ∀ u i m, g (State.toHost i m u) = g u)
    (s : State) (st k i d0 d1 : Nat) : g (s.event st k i d0 d1) = g (s.logEvent st k i d0 d1) := by
  unfold State.event
  extract_lets c n m u v
  have hv : g v = g u := foldl_keeps_value g _ _ fun w i _ => hm w i m
  split
  · exact (foldl_keeps_value g _ _ fun w i _ => hh w i m).trans hv
  · exact hv

theorem get_event {g : Fld} {j : Nat} (hg : g.addr j ∉ eventWords) (s : State) (st k i d0 d1 : Nat) :
    (s.event st k i d0 d1).get g j = s.get g j :=
  (event_eq_logEvent (fun u => u.get g j) (get_toMgmt hg) (get_toHost hg) s st k i d0 d1).trans (get_logEvent hg s st k i d0 d1)

theorem get_eventOpen {g : Fld} {j : Nat} (hg : g.addr j ∉ eventWords) (s : State) (st k i : Nat) :
    (s.eventOpen st k i).get g j = s.get g j := get_event hg s.drawn.drawn ..

theorem logged_event (s : State) (st k i d0 d1 : Nat) : Logged st k i d0 d1 s (s.event st k i d0 d1) := by
  intro hroom
  rw [event_eq_logEvent (fun u => u.flt) (fun u _ _ => (keeps_toMgmt (Keeps.refl 0x401000080 u) rfl).same .flt rfl)
    (fun u _ _ => (keeps_toHost (Keeps.refl 0x401000080 u) rfl).same .flt rfl), State.logEvent, if_pos hroom, State.put_flt]

theorem logged_eventOpen (s : State) (st k i : Nat) : ∃ d0 d1, Logged st k i d0 d1 s (s.eventOpen st k i) :=
  ⟨s.draw, s.drawn.draw, logged_event s.drawn.drawn st k i s.draw s.drawn.draw⟩

theorem portUp_congr {s t : State} {p : Nat} (h : t.get F.ETH_PORT_LINK_UP p = s.get F.ETH_PORT_LINK_UP p) : t.portUp p = s.portUp p := by
  rw [State.portUp, State.portUp, h]

theorem route_congr {s t : State} (h : ∀ p, t.portUp p = s.portUp p) (p : Nat) : t.route p = s.route p := by
  simp only [State.route, h]

theorem send_of_route {s : State} {m : OutMsg} {p : Nat} (h : s.route m.port = some p) : (s.send m).sent = s.sent ++ [.trp p m] := by
  rw [State.send, h]

theorem sends_send (s : State) (m : OutMsg) : Sends m s (s.send m) := fun _ h => send_of_route h

/-! Requests. -/

/-- A message that is taken in runs its request on the state in which its arrival is noted, in the ports alone (R353, R362, R367). -/
theorem exists_ports_of_withRequest {s : State} {type : Nat} {r : Req} (h : Received s type r) :
    ∃ P, ∀ body, s.withRequest type r body = body { s with ports := P } := by
  obtain ⟨hquiet, hok⟩ := h
  have harrive : ∃ P, s.arrive type r = { s with ports := P } := by
    unfold State.arrive
    split
    · exact ⟨_, rfl⟩
    · split <;> exact ⟨_, rfl⟩
  obtain ⟨P, hP⟩ := harrive
  exact ⟨P, fun body => by rw [State.withRequest, hquiet, hok, if_neg Bool.false_ne_true, if_pos rfl, hP]⟩

/-- The checks pass when every one of them passes (R66). -/
theorem firstFail_eq_none_iff (l : List (Bool × Verdict)) : firstFail l = none ↔ ∀ e ∈ l, e.1 = true := by
  induction l with
  | nil => simp [firstFail]
  | cons e r ih =>
    obtain ⟨ok, v⟩ := e
    cases ok <;> simp [firstFail, ih]

/-- A checked request whose message is taken in and whose checks, which read nothing of the ports, pass: its effect alone remains. -/
theorem exists_ports_of_request {s : State} {type : Nat} {r : Req} (h : Received s type r) (checks : State → List (Bool × Verdict))
    (hports : ∀ P, checks { s with ports := P } = checks s) (hpass : firstFail (checks s) = none) :
    ∃ P, ∀ body : State → State → State,
      s.withRequest type r (fun u => u.decide_ type r (firstFail (checks u)) (body u)) = body { s with ports := P } { s with ports := P } := by
  obtain ⟨P, hP⟩ := exists_ports_of_withRequest h
  exact ⟨P, fun body => by rw [hP, hports, hpass]; rfl⟩

end Sys2Proof.Machine
end

section
/-! The commands of the Ethernet ports below the requests (R346 to R354, R358, R498). -/
namespace Sys2Proof.Machine

/-! Segments (R347, R353, R354). -/

/-- A datagram that a filter of R347 drops is counted on its port. -/
theorem trpSegment_filtered {s : State} {o : Segment} (hport : o.port < 2)
    (h : o.toUs = false ∨ o.vlanOk = false ∨ o.plain = false ∨ o.portOk = false) :
    Completes (.trpSegment o) s (Advanced F.ETH_DROP_FILTER o.port 1 s) :=
  ⟨_, congrArg Host.Outcome.next (if_pos h), advanced_bump rfl hport 1 s⟩

/-- A datagram that passes every filter and whose session owns its source is placed. -/
theorem execTrpSegment_placed {s : State} {o : Segment} (huse : o.toUs = true) (hvlan : o.vlanOk = true) (hplain : o.plain = true)
    (hport : o.portOk = true) (hmac : o.macsecOk = true) (hudp : o.udpLen = o.segLen + 32) (hsession : s.sessionOk o.hdr = true) :
    execTrpSegment o s = .next (s.placeSegment o) := by
  simp [execTrpSegment, huse, hvlan, hplain, hport, hmac, hudp, hsession]

/-- The first segment of a message that fits opens its reassembly. -/
theorem placeSegment_first {s : State} {o : Segment} (hnew : s.ports.reasm.find? (fun e => e.sameId o.hdr.session o.type o.hdr.tag) = none)
    (hfits : s.fits o.type o.hdr = true) (hlen : o.segOfs + o.segLen ≤ o.hdr.len) (hslots : s.sessionSlots o.hdr.session < 16)
    (hstore : o.type = 3 ∨ o.type = 6 ∨ s.storeUsed o.port + o.hdr.len ≤ 4 * 2 ^ 20) :
    s.placeSegment o = s.pushReasm ⟨o.hdr.session, o.type, o.hdr.tag, o.port, o.hdr.len, o.hdr.gen, o.hdr.ctx, o.hdr.arg0, o.hdr.arg1,
      [(o.segOfs, o.segLen)], s.now + o.hdr.t, false⟩ := by
  have hfull : ¬(16 ≤ s.sessionSlots o.hdr.session ∨ (o.type ≠ 3 ∧ o.type ≠ 6 ∧ 4 * 2 ^ 20 < s.storeUsed o.port + o.hdr.len)) := by omega
  rw [State.placeSegment, hnew]
  simp only [State.firstSegment]
  rw [if_neg (by rw [hfits]; simpa using hlen), if_neg hfull]

/-- What a later segment makes of its message's reassembly. -/
def Reasm.extended (e : Reasm) (o : Segment) (now : Nat) : Reasm :=
  { e with ranges := e.ranges ++ [(o.segOfs, o.segLen)], last := now + o.hdr.t, port := o.port }

theorem Reasm.sameId_extended (e : Reasm) (o : Segment) (now n type tag : Nat) :
    (e.extended o now).sameId n type tag = e.sameId n type tag := rfl

/-- A later segment with the header of its message and no byte of another extends the reassembly. -/
theorem placeSegment_later {s : State} {o : Segment} {e : Reasm}
    (hfind : s.ports.reasm.find? (fun e => e.sameId o.hdr.session o.type o.hdr.tag) = some e) (hquiet : e.quiet = false)
    (hlen : e.len = o.hdr.len) (hgen : e.gen = o.hdr.gen) (hctx : e.ctx = o.hdr.ctx) (harg0 : e.arg0 = o.hdr.arg0) (harg1 : e.arg1 = o.hdr.arg1)
    (hin : o.segOfs + o.segLen ≤ e.len) (hpos : 0 < o.segLen) (hapart : ∀ q ∈ e.ranges, q.1 + q.2 ≤ o.segOfs ∨ o.segOfs + o.segLen ≤ q.1) :
    (s.placeSegment o).ports.reasm =
      s.ports.reasm.map (fun x => if x.sameId o.hdr.session o.type o.hdr.tag then x.extended o s.now else x) := by
  have hnew : e.ranges.contains (o.segOfs, o.segLen) = false := by
    rw [List.contains_eq_mem, decide_eq_false_iff_not]
    intro hmem
    have := hapart _ hmem
    omega
  have hno : e.ranges.any (fun q => decide (q.1 < o.segOfs + o.segLen) && decide (o.segOfs < q.1 + q.2)) = false := by
    rw [List.any_eq_false]
    intro q hq
    have := hapart q hq
    simp only [Bool.and_eq_true, decide_eq_true_eq]
    omega
  rw [State.placeSegment, hfind]
  simp only [hquiet, Bool.false_eq_true, if_false, State.laterSegment, hnew, hno]
  rw [if_neg (by simp only [hlen, hgen, hctx, harg0, harg1, ne_eq, not_true, false_or, or_false]; omega)]
  rfl

/-- Changing every entry of an identity, but not the identity, changes what is found under it. -/
theorem find?_map_sameId {l : List Reasm} {n type tag : Nat} {f : Reasm → Reasm} {e : Reasm}
    (hf : ∀ x : Reasm, (f x).sameId n type tag = x.sameId n type tag) (h : l.find? (fun x => x.sameId n type tag) = some e) :
    (l.map (fun x => if x.sameId n type tag then f x else x)).find? (fun x => x.sameId n type tag) = some (f e) := by
  have hid : ((fun x : Reasm => x.sameId n type tag) ∘ fun x => if x.sameId n type tag then f x else x) = fun x => x.sameId n type tag := by
    funext x
    simp only [Function.comp]
    split
    · exact hf x
    · rfl
  rw [List.find?_map, hid, h, Option.map_some, if_pos (List.find?_some h)]

theorem trpSegment_later {s : State} {o : Segment} {e : Reasm} (hplaced : execTrpSegment o s = .next (s.placeSegment o))
    (hfind : s.ports.reasm.find? (fun e => e.sameId o.hdr.session o.type o.hdr.tag) = some e) (hquiet : e.quiet = false)
    (hlen : e.len = o.hdr.len) (hgen : e.gen = o.hdr.gen) (hctx : e.ctx = o.hdr.ctx) (harg0 : e.arg0 = o.hdr.arg0) (harg1 : e.arg1 = o.hdr.arg1)
    (hin : o.segOfs + o.segLen ≤ e.len) (hpos : 0 < o.segLen) (hapart : ∀ q ∈ e.ranges, q.1 + q.2 ≤ o.segOfs ∨ o.segOfs + o.segLen ≤ q.1) :
    Completes (.trpSegment o) s (fun t => ∃ x, t.ports.reasm.find? (fun e => e.sameId o.hdr.session o.type o.hdr.tag) = some x ∧
      x.ranges = e.ranges ++ [(o.segOfs, o.segLen)] ∧ x.last = s.now + o.hdr.t) := by
  refine ⟨_, hplaced, e.extended o s.now, ?_, rfl, rfl⟩
  rw [placeSegment_later hfind hquiet hlen hgen hctx harg0 harg1 hin hpos hapart]
  exact find?_map_sameId (fun x => x.sameId_extended o s.now _ _ _) hfind

/-! Identities (R354). -/

theorem reassemblyTimeout_ends {s : State} {n type tag u : Nat} {e : Reasm}
    (hfind : s.ports.reasm.find? (fun e => e.sameId n type tag) = some e) (hlast : e.last + 10 ^ 7 ≤ s.now + u) (hquiet : e.quiet = false)
    (hport : e.port < 2) :
    Completes (.reassemblyTimeout n type tag u) s (fun t =>
      t.ports.reasm = s.ports.reasm.filter (fun e => !e.sameId n type tag) ∧ Advanced F.ETH_DROP_REASM e.port 1 s t) := by
  refine ⟨(s.dropReasm n type tag).bump F.ETH_DROP_REASM e.port 1, ?_, ?_, advanced_bump rfl hport 1 (s.dropReasm n type tag)⟩
  · show execReassemblyTimeout n type tag u s = _
    simp only [execReassemblyTimeout, hfind, hquiet, hlast, and_self, if_true]
  · rw [State.bump_ports]
    rfl

theorem identityQuietExpiry_ends {s : State} {n type tag u : Nat} {e : Reasm}
    (hfind : s.ports.reasm.find? (fun e => e.sameId n type tag) = some e) (hlast : e.last + 10 ^ 7 ≤ s.now + u) (hquiet : e.quiet = true) :
    Completes (.identityQuietExpiry n type tag u) s (fun t => t.ports.reasm = s.ports.reasm.filter (fun e => !e.sameId n type tag)) := by
  refine ⟨s.dropReasm n type tag, ?_, rfl⟩
  show execIdentityQuietExpiry n type tag u s = _
  simp only [execIdentityQuietExpiry, hfind, hquiet, hlast, and_self, if_true]

/-! Echo, neighbours and PTP (R35, R346, R348). -/

theorem icmpEcho_replies {s : State} {p u : Nat} (hup : s.portUp p = true)
    (hfew : (s.ports.echoes.filter (fun e => decide (e.1 = p ∧ s.now + u < e.2 + 10 ^ 9))).length < 100) :
    Completes (.icmpEcho p true u) s (fun t => t.sent = s.sent ++ [.echoReply p]) := by
  have hrecent : ((s.ports.echoes.filter (fun e => decide (s.now + u < e.2 + 10 ^ 9))).filter (fun e => decide (e.1 = p))).length < 100 := by
    simpa only [List.filter_filter, ← Bool.decide_and] using hfew
  exact ⟨_, congrArg Host.Outcome.next ((if_neg Bool.true_eq_false.mp).trans (if_pos ⟨hup, hrecent⟩)), rfl⟩

theorem arpRequest_answers {s : State} {p a : Nat} {v6 : Bool} (hup : s.portUp p = true) (hnz : a ≠ 0) (hown : a = s.ownAddr p v6) :
    Completes (.arpRequest p a v6) s (fun t => t.sent = s.sent ++ [.advertise p a v6]) :=
  ⟨_, congrArg Host.Outcome.next (if_pos ⟨hup, hnz, hown⟩), rfl⟩

theorem neighbourResolve_solicits {s : State} {p a : Nat} {v6 : Bool} (hup : s.portUp p = true)
    (hpeer : a = s.gateway p v6 ∨ s.isPeer a = true) :
    Completes (.neighbourResolve p a v6) s (fun t => t.sent = s.sent ++ [.solicit p a v6] ∧ (p, a) ∈ t.ports.neighbours) := by
  refine ⟨_, congrArg Host.Outcome.next (if_pos ⟨hup, hpeer⟩), rfl, ?_⟩
  simp only
  split
  case isTrue hknown => exact List.contains_iff_mem.mp hknown
  case isFalse => exact List.mem_append_right _ (List.mem_singleton.mpr rfl)

theorem ptpMessage_locks {s : State} {o : PtpMsg} (hport : o.port < 2) (hdomain : o.domain = s.pol 0x94) :
    Completes (.ptpMessage o) s (fun t => t.get F.ETH_PORT_PTP_LOCKED o.port = if o.locked then 1 else 0) := by
  refine ⟨_, congrArg Host.Outcome.next (if_pos hdomain), (get_put_same s rfl hport _).trans ?_⟩
  cases o.locked <;> rfl

theorem delayReq_sends {s : State} {p : Nat} (hup : s.portUp p = true) :
    Completes (.delayReq p) s (fun t => t.sent = s.sent ++ [.delayReq p]) :=
  ⟨_, congrArg Host.Outcome.next (if_pos hup), rfl⟩

/-! Links (R358, R367, R498). -/

theorem portUp_putLinkUp (s : State) {p : Nat} (hp : p < 2) (up : Bool) : (s.put F.ETH_PORT_LINK_UP p up.toNat).portUp p = up := by
  rw [State.portUp, get_put_same s rfl hp]
  cases up <;> rfl

theorem ethLinkDown_completes {s : State} {p : Nat} (hp : p < 2) (hup : s.portUp p = true) :
    Completes (.ethLinkDown p) s (fun t => t.portUp p = false ∧ ∃ d0 d1, Logged 0x070A 5 p d0 d1 s t) := by
  refine ⟨_, congrArg Host.Outcome.next (if_pos hup), ?_, ?_⟩
  · exact (portUp_congr (get_eventOpen (linkUp_notMem_eventWords p) ..)).trans (portUp_putLinkUp s hp false)
  · have hlog := logged_eventOpen (s.put F.ETH_PORT_LINK_UP p 0) 0x070A 5 p
    simpa only [Logged, State.put_flt, State.put_frame, State.put_ports] using hlog

/-- What a lane's low-figure event leaves of a field: its figures are what is reported (R498). -/
theorem get_laneFigure {g : Fld} {j : Nat} (hg : g.addr j ∉ eventWords) (hevt : g.addr j ≠ F.CAL_EVT_LANE_LOW.addr 0) (s : State) (lane : Nat)
    (f : LaneFig) : (s.laneFigure lane f).get g j = ((s.put F.CAL_LANE_EYE lane f.eye).put F.CAL_LANE_MARGIN lane f.margin).get g j := by
  unfold State.laneFigure
  extract_lets u
  split
  · exact (get_eventOpen hg ..).trans ((get_raise u ..).trans (get_put_addr u hevt 1))
  · rfl

/-- The figures of other lanes leave a field that they do not name. -/
theorem get_laneFigures {g : Fld} {j : Nat} (hg : g.addr j ∉ eventWords) (hevt : g.addr j ≠ F.CAL_EVT_LANE_LOW.addr 0) {base : Nat}
    {l : List LaneFig} (hlane : ∀ f ∈ l, base + f.lane < 264 → g.addr j ≠ F.CAL_LANE_EYE.addr (base + f.lane)) (s : State) :
    (s.laneFigures base l).get g j = s.get g j := by
  refine foldl_keeps_value (fun u => u.get g j) l s fun u f hf => ?_
  rw [get_laneFigure hg hevt, get_put_elsewhere _ (f := F.CAL_LANE_MARGIN) (hlane f hf), get_put_elsewhere u (hlane f hf)]

theorem laneWord_ne_laneLow (lane : Nat) : F.CAL_LANE_EYE.addr lane ≠ F.CAL_EVT_LANE_LOW.addr 0 := by
  simp only [Fld.addr, F.CAL_LANE_EYE, F.CAL_EVT_LANE_LOW]
  omega

section
variable {lane : Nat} (hl : lane < 264)
include hl

theorem laneWord_notMem_eventWords : F.CAL_LANE_EYE.addr lane ∉ eventWords := by
  simp only [eventWords, Fld.addr, F.CAL_LANE_EYE, F.FLT_LOG_NEXT, F.ETH_TX_LOST_STREAMS, List.mem_cons, List.not_mem_nil, or_false]
  omega

theorem get_laneFigure_eye (s : State) (f : LaneFig) : (s.laneFigure lane f).get F.CAL_LANE_EYE lane = f.eye % F.CAL_LANE_EYE.size := by
  rw [get_laneFigure (laneWord_notMem_eventWords hl) (laneWord_ne_laneLow lane), get_put_apart _ rfl rfl rfl]
  exact get_put_same s rfl hl _

theorem get_laneFigure_margin (s : State) (f : LaneFig) :
    (s.laneFigure lane f).get F.CAL_LANE_MARGIN lane = f.margin % F.CAL_LANE_MARGIN.size := by
  rw [get_laneFigure (g := F.CAL_LANE_MARGIN) (laneWord_notMem_eventWords hl) (laneWord_ne_laneLow lane)]
  exact get_put_same _ rfl hl _
end

/-- Of lanes that are named once each, every lane of the module holds its own figures. -/
theorem laneFigures_reported {base : Nat} {l : List LaneFig} (hnodup : (l.map (fun f => f.lane)).Nodup) {f : LaneFig} (hf : f ∈ l)
    (hl : base + f.lane < 264) (s : State) :
    (s.laneFigures base l).get F.CAL_LANE_EYE (base + f.lane) = f.eye % F.CAL_LANE_EYE.size ∧
      (s.laneFigures base l).get F.CAL_LANE_MARGIN (base + f.lane) = f.margin % F.CAL_LANE_MARGIN.size := by
  obtain ⟨before, after, rfl⟩ := List.append_of_mem hf
  have hother : ∀ e ∈ after, base + e.lane < 264 → F.CAL_LANE_EYE.addr (base + f.lane) ≠ F.CAL_LANE_EYE.addr (base + e.lane) := by
    intro e he _ hsame
    rw [List.map_append, List.map_cons, List.nodup_append, List.nodup_cons] at hnodup
    obtain ⟨-, ⟨hnot, -⟩, -⟩ := hnodup
    refine hnot (List.mem_map.mpr ⟨e, he, ?_⟩)
    simp only [Fld.addr, F.CAL_LANE_EYE] at hsame
    omega
  have hev := laneWord_notMem_eventWords hl
  have hlow := laneWord_ne_laneLow (base + f.lane)
  rw [State.laneFigures, List.foldl_append, List.foldl_cons]
  exact ⟨(get_laneFigures hev hlow hother _).trans (get_laneFigure_eye hl _ f),
    (get_laneFigures (g := F.CAL_LANE_MARGIN) hev hlow hother _).trans (get_laneFigure_margin hl _ f)⟩

theorem ethLinkUp_completes {s : State} {p : Nat} {l : List LaneFig} (hp : p < 2)
    (hcomes : ¬(p = 1 ∧ s.get F.FLT_STATE_CAUSE 0 = 9 ∧ s.img.network = none)) :
    Completes (.ethLinkUp p l) s (fun t => t.portUp p = true ∧ ((l.map (fun f => f.lane)).Nodup → ∀ f ∈ l, f.lane < 4 →
      t.get F.CAL_LANE_EYE (256 + 4 * p + f.lane) = f.eye % F.CAL_LANE_EYE.size ∧
      t.get F.CAL_LANE_MARGIN (256 + 4 * p + f.lane) = f.margin % F.CAL_LANE_MARGIN.size)) := by
  refine ⟨_, congrArg Host.Outcome.next (if_neg hcomes), ?_, fun hnodup f hf hlane => laneFigures_reported hnodup hf (by omega) _⟩
  refine (portUp_congr (get_laneFigures (linkUp_notMem_eventWords p) ?_ ?_ _)).trans (portUp_putLinkUp s hp true)
  · simp only [Fld.addr, F.ETH_PORT_LINK_UP, F.CAL_EVT_LANE_LOW]
    omega
  · intro f _ _
    simp only [Fld.addr, F.ETH_PORT_LINK_UP, F.CAL_LANE_EYE]
    omega

/-! Requests that no host may send (R352). -/

theorem unlistedType_rejected {s : State} {v type : Nat} {r : Req} (hr : Received s type r) (hlist : ¬(v = 1 ∧ hostType type = true)) :
    Completes (.unlistedType v type r) s (Sends (answer type r (verdict rejFormat) 0) s) := by
  obtain ⟨P, hP⟩ := exists_ports_of_withRequest hr
  refine ⟨_, congrArg Host.Outcome.next ((if_neg hlist).trans (hP _)), ?_⟩
  exact sends_send { s with ports := P } _

/-- Settles O38: each command of the ports by the theorem about it. -/
theorem ethernetPorts : Obligations.EthernetPorts := by
  intro s
  refine ⟨fun o => trpSegment_filtered, ?_, ?_, fun p u => icmpEcho_replies, fun p a v6 => arpRequest_answers,
    fun p a v6 => neighbourResolve_solicits, fun o => ptpMessage_locks, fun p => delayReq_sends, fun p => ethLinkDown_completes,
    fun p l => ethLinkUp_completes, fun v type r => unlistedType_rejected⟩
  · intro o huse hvlan hplain hport hmac hudp hsession
    have hplaced := execTrpSegment_placed huse hvlan hplain hport hmac hudp hsession
    refine ⟨fun hnew hfits hlen hslots hstore => ⟨_, hplaced, ?_⟩, fun e => trpSegment_later hplaced⟩
    rw [placeSegment_first hnew hfits hlen hslots hstore]
    rfl
  · intro n type tag u e hfind hlast
    exact ⟨reassemblyTimeout_ends hfind hlast, identityQuietExpiry_ends hfind hlast⟩

end Sys2Proof.Machine
end

section
/-! STREAM_OUT and NOSTEP_WINDOW_CLOSE (R36, R37, R209, R357). -/
namespace Sys2Proof.Machine

/-! Tables of contexts. -/

theorem tget_of_notMem {α : Type} (d : α) {t : Tbl α} {k : Nat} (h : k ∉ t.map (fun e => e.1)) : tget d t k = d := by
  induction t with
  | nil => rfl
  | cons e r ih =>
    rw [List.map_cons, List.mem_cons, not_or] at h
    rw [tget, if_neg (Ne.symm h.1), ih h.2]

/-- The keys of a table in its canonical form differ. -/
theorem nodup_keys_of_tblFrom {α : Type} [DecidableEq α] {d : Nat → α} {t : Tbl α} {lo : Nat} (h : tblFrom d lo t = true) :
    (∀ k ∈ t.map (fun e => e.1), lo ≤ k) ∧ (t.map (fun e => e.1)).Nodup := by
  induction t generalizing lo with
  | nil => simp
  | cons e r ih =>
    simp only [tblFrom, Bool.and_eq_true, decide_eq_true_eq] at h
    obtain ⟨⟨hlo, -⟩, hr⟩ := h
    obtain ⟨hle, hnodup⟩ := ih hr
    rw [List.map_cons, List.nodup_cons, List.forall_mem_cons]
    exact ⟨⟨hlo, fun k hk => by have := hle k hk; omega⟩, fun hk => by have := hle _ hk; omega, hnodup⟩

/-! Unprompted messages (R357, R358). -/

theorem State.send_ports (s : State) (m : OutMsg) : (s.send m).ports = s.ports := (keeps_send (Keeps.refl 0x400000080 s) rfl).same .ports rfl

theorem State.send_vis (s : State) (m : OutMsg) : (s.send m).vis = s.vis := (keeps_send (Keeps.refl 0x400000080 s) rfl).same .vis rfl

theorem route_toMgmt (s : State) (i : Nat) (m : OutMsg) (p : Nat) : (State.toMgmt i m s).route p = s.route p :=
  route_congr (fun q => portUp_congr (get_toMgmt (linkUp_notMem_eventWords q) s i m)) p

theorem route_toHost (s : State) (i : Nat) (m : OutMsg) (p : Nat) : (State.toHost i m s).route p = s.route p :=
  route_congr (fun q => portUp_congr (get_toHost (linkUp_notMem_eventWords q) s i m)) p

theorem mgmt_toMgmt_other (s : State) {i j : Nat} (h : j ≠ i) (m : OutMsg) : (State.toMgmt i m s).mgmt j = s.mgmt j := by
  rw [State.mgmt, State.toMgmt, State.send_ports]
  exact tget_tset_other _ _ _ h

theorem hostPort_congr {s t : State} {i : Nat} (hlast : (t.host i).lastPort = (s.host i).lastPort) (hvis : t.vis = s.vis) :
    t.hostPort i = s.hostPort i := by
  rw [State.hostPort, State.hostPort, hlast, seen_congr hvis]

theorem hostPort_toMgmt (s : State) (i j : Nat) (m : OutMsg) : (State.toMgmt i m s).hostPort j = s.hostPort j := by
  refine hostPort_congr ?_ (State.send_vis ..)
  rw [State.host, State.toMgmt, State.send_ports]
  rfl

theorem hostPort_toHost (s : State) (i j : Nat) (m : OutMsg) : (State.toHost i m s).hostPort j = s.hostPort j := by
  refine hostPort_congr ?_ (State.send_vis ..)
  rw [State.host, State.toHost, State.send_ports]
  refine (congrArg HostSess.lastPort (tget_tset ..)).trans ?_
  split
  case isTrue h => rw [h]
  case isFalse => rfl

theorem sent_toMgmt {s : State} {i p : Nat} (h : s.route (s.mgmt i).lastPort = some p) (m : OutMsg) : (State.toMgmt i m s).sent =
    s.sent ++ [.trp p { m with session := 0xFFF0 + i, port := (s.mgmt i).lastPort, arg0 := (s.mgmt i).seq % 2 ^ 32 }] :=
  send_of_route h

theorem sent_toHost {s : State} {i p : Nat} (h : s.route (s.hostPort i) = some p) (m : OutMsg) : (State.toHost i m s).sent =
    s.sent ++ [.trp p { m with session := i, port := s.hostPort i, arg0 := (s.host i).seq % 2 ^ 32 }] :=
  send_of_route h

/-- A message to each management session of a list reaches every one of them that has a route. -/
theorem mem_sent_foldl_toMgmt {s : State} {l : List Nat} (hl : l.Nodup) {i p : Nat} (hi : i ∈ l)
    (hroute : s.route (s.mgmt i).lastPort = some p) (m : OutMsg) :
    .trp p { m with session := 0xFFF0 + i, port := (s.mgmt i).lastPort, arg0 := (s.mgmt i).seq % 2 ^ 32 } ∈
      (l.foldl (fun t i => State.toMgmt i m t) s).sent := by
  obtain ⟨before, after, rfl⟩ := List.append_of_mem hi
  rw [List.foldl_append, List.foldl_cons]
  set u := before.foldl (fun t i => State.toMgmt i m t) s
  have hmgmt : u.mgmt i = s.mgmt i := by
    refine foldl_keeps_value (fun v => v.mgmt i) before s fun v j hj => mgmt_toMgmt_other v ?_ m
    rintro rfl
    exact List.disjoint_of_nodup_append hl hj List.mem_cons_self
  have hu : u.route (u.mgmt i).lastPort = some p := by
    rw [hmgmt, ← hroute]
    exact foldl_keeps_value (fun v => v.route _) before s fun v j _ => route_toMgmt v j m _
  have hafter : Keeps 0x401000080 (State.toMgmt i m u) (after.foldl (fun t i => State.toMgmt i m t) (State.toMgmt i m u)) :=
    (Keeps.refl _ _).foldl fun v j => keeps_toMgmt (Keeps.refl _ v) rfl
  refine hafter.sent.subset ?_
  rw [sent_toMgmt hu, hmgmt]
  exact List.mem_append_right _ (List.mem_singleton.mpr rfl)

/-- Of messages to host sessions, each leaves whose session has a route. -/
theorem mem_sent_foldl_toHost {s : State} {l : List (Nat × OutMsg)} {i p : Nat} {m : OutMsg} (hi : (i, m) ∈ l)
    (hroute : s.route (s.hostPort i) = some p) :
    ∃ n, .trp p { m with session := i, port := s.hostPort i, arg0 := n } ∈ (l.foldl (fun t e => State.toHost e.1 e.2 t) s).sent := by
  obtain ⟨before, after, rfl⟩ := List.append_of_mem hi
  rw [List.foldl_append, List.foldl_cons]
  set u := before.foldl (fun t e => State.toHost e.1 e.2 t) s
  have hport : u.hostPort i = s.hostPort i := foldl_keeps_value (fun v => v.hostPort i) before s fun v e _ => hostPort_toHost v e.1 i e.2
  have hu : u.route (u.hostPort i) = some p := by
    rw [hport, ← hroute]
    exact foldl_keeps_value (fun v => v.route _) before s fun v e _ => route_toHost v e.1 e.2 _
  have hafter : Keeps 0x401000080 (State.toHost i m u) (after.foldl (fun t e => State.toHost e.1 e.2 t) (State.toHost i m u)) :=
    (Keeps.refl _ _).foldl fun v e => keeps_toHost (Keeps.refl _ v) rfl
  refine ⟨(u.host i).seq % 2 ^ 32, hafter.sent.subset ?_⟩
  rw [sent_toHost hu, hport]
  exact List.mem_append_right _ (List.mem_singleton.mpr rfl)

/-! Counting from a STREAM_OUT (R37). -/

theorem trained_rebase (s : State) (c d : Nat) : ((s.rebase d).ctx c).trained = if c = d then 0 else (s.ctx c).trained := by
  rw [State.rebase, ctx_updCtx]
  split <;> rfl

theorem trained_foldl_rebase (l : List Nat) (s : State) (c : Nat) :
    ((l.foldl (fun s c => s.rebase c) s).ctx c).trained = if c ∈ l then 0 else (s.ctx c).trained := by
  induction l generalizing s with
  | nil => simp
  | cons d r ih =>
    rw [List.foldl_cons, ih, trained_rebase]
    by_cases hr : c ∈ r
    · rw [if_pos hr, if_pos (.tail d hr)]
    · simp only [hr, if_false, List.mem_cons, or_false]

/-- A context that is not counted anew has no record, and has counted nothing. -/
theorem trained_rebaseAll (s : State) (c : Nat) : (s.rebaseAll.ctx c).trained = 0 := by
  rw [State.rebaseAll, trained_foldl_rebase]
  split
  case isTrue => rfl
  case isFalse h => rw [State.ctx, tget_of_notMem _ fun hc => h (List.mem_append_left _ hc)]; rfl

/-- The messages of a STREAM_OUT to host sessions: of each context that is not FREE, its own record to each bound session that streams. -/
def State.hostStreams (s : State) : List (Nat × OutMsg) :=
  s.activeContexts.flatMap (fun c => (s.streamSessions c).map (fun i => (i, s.streamMsg [c])))

theorem execStreamOut_due {s : State} (h : s.streamDue = true) : execStreamOut s = .next
    (s.hostStreams.foldl (fun t e => State.toHost e.1 e.2 t)
      (s.openMgmt.foldl (fun t i => State.toMgmt i (s.streamMsg s.activeContexts) t) s)).flushTail.rebaseAll := by
  simp only [execStreamOut, h, if_true, State.hostStreams, List.foldl_flatMap, List.foldl_map]

theorem streamOut_completes {s : State} (hphase : s.phase ≠ 0) (hframe : 0 < s.frame) (hperiod : s.frame % max 1 (s.pol 0x14) = 0) :
    Completes .streamOut s (fun t =>
      (∀ i ∈ s.openMgmt, ∀ p, s.route (s.mgmt i).lastPort = some p → .trp p { s.streamMsg s.activeContexts with
        session := 0xFFF0 + i, port := (s.mgmt i).lastPort, arg0 := (s.mgmt i).seq % 2 ^ 32 } ∈ t.sent) ∧
      (∀ c ∈ s.activeContexts, (t.ctx c).trained = 0 ∧ (∀ i ∈ s.streamSessions c, ∀ p, s.route (s.hostPort i) = some p →
        ∃ n, .trp p { s.streamMsg [c] with session := i, port := s.hostPort i, arg0 := n } ∈ t.sent))) := by
  have hdue : s.streamDue = true := by simp [State.streamDue, hphase, hframe, hperiod]
  refine ⟨_, execStreamOut_due hdue, ?_⟩
  set u := s.openMgmt.foldl (fun t i => State.toMgmt i (s.streamMsg s.activeContexts) t) s
  set w := s.hostStreams.foldl (fun t e => State.toHost e.1 e.2 t) u
  have hsent : w.sent ⊆ w.flushTail.rebaseAll.sent :=
    (keeps_rebaseAll (keeps_flushTail (Keeps.refl 0x402800080 w) rfl) rfl).sent.subset
  have hhosts : Keeps 0x401000080 u w := (Keeps.refl _ _).foldl fun v e => keeps_toHost (Keeps.refl _ v) rfl
  refine ⟨fun i hi p hroute => ?_, fun c hc => ⟨trained_rebaseAll _ c, fun i hi p hroute => ?_⟩⟩
  · exact hsent (hhosts.sent.subset (mem_sent_foldl_toMgmt (List.nodup_range.filter _) hi hroute _))
  · have hport : u.hostPort i = s.hostPort i := foldl_keeps_value (fun v => v.hostPort i) _ s fun v j _ => hostPort_toMgmt v j i _
    have hu : u.route (u.hostPort i) = some p := by
      rw [hport, ← hroute]
      exact foldl_keeps_value (fun v => v.route _) _ s fun v j _ => route_toMgmt v j _ _
    have hmem : (i, s.streamMsg [c]) ∈ s.hostStreams := List.mem_flatMap.mpr ⟨c, hc, List.mem_map.mpr ⟨i, hi, rfl⟩⟩
    obtain ⟨n, hn⟩ := mem_sent_foldl_toHost hmem hu
    exact ⟨n, hsent (hport ▸ hn)⟩

/-! The window without a step (R166, R209). -/

theorem layer_updLayer (s : State) (c l j : Nat) (f : LayerSt → LayerSt) :
    (s.updLayer c l f).layer c j = if j = l then f (s.layer c l) else s.layer c j := by
  rw [State.layer, State.updLayer, ctx_updCtx_same]
  exact tget_tset ..

theorem layer_congr {s t : State} {c : Nat} (h : t.ctx c = s.ctx c) (l : Nat) : t.layer c l = s.layer c l := by
  rw [State.layer, State.layer, h]

theorem ctx_showFallback (s : State) (c l : Nat) (y : Layer) (d : Nat) : (s.showFallback c l y).ctx d = s.ctx d :=
  congrArg (fun m => tget Ctx.empty m d) ((keeps_showFallback (Keeps.refl 0x1000 s) rfl).same .ctxs rfl)

theorem ctx_commitLayers_other (s : State) {c d : Nat} (h : d ≠ c) (t : Template) (stepping : Bool) :
    (s.commitLayers c t stepping).ctx d = s.ctx d := by
  refine foldl_keeps_value (fun u => u.ctx d) _ s fun u e _ => ?_
  rw [ctx_showFallback, State.updLayer, ctx_updCtx, if_neg h]

theorem roundPos_commitLayers (s : State) (c : Nat) (t : Template) (stepping : Bool) :
    ((s.commitLayers c t stepping).ctx c).roundPos = (s.ctx c).roundPos := by
  refine foldl_keeps_value (fun u => (u.ctx c).roundPos) _ s fun u e _ => ?_
  rw [ctx_showFallback, State.updLayer, ctx_updCtx_same]

/-- Of the layer decisions of a commit, those of the other layers leave a layer as it is. -/
theorem layer_foldl_other {c l : Nat} {ls : List (Layer × Nat)} (h : ∀ e ∈ ls, e.2 ≠ l) (stepping : Bool) (s : State) :
    (ls.foldl (fun s p => (s.updLayer c p.2 (fun z => s.layerNext p.1 z stepping)).showFallback c p.2 p.1) s).layer c l = s.layer c l := by
  refine foldl_keeps_value (fun u => u.layer c l) ls s fun u e he => ?_
  rw [layer_congr (ctx_showFallback ..), layer_updLayer, if_neg (Ne.symm (h e he))]

/-- A commit takes each layer's decisions once, from the layer as it stood. -/
theorem layer_commitLayers (s : State) (c : Nat) {t : Template} {l : Nat} {y : Layer} (hy : t.layers[l]? = some y) (stepping : Bool) :
    ∃ u : State, (s.commitLayers c t stepping).layer c l = u.layerNext y (s.layer c l) stepping := by
  have hmem : (y, l) ∈ t.layers.zipIdx := List.mk_mem_zipIdx_iff_getElem?.mpr hy
  have hnodup : (t.layers.zipIdx.map (fun e => e.2)).Nodup := by
    rw [List.zipIdx_map_snd]
    exact List.nodup_range'
  obtain ⟨before, after, hsplit⟩ := List.append_of_mem hmem
  rw [hsplit, List.map_append, List.map_cons, List.nodup_append, List.nodup_cons] at hnodup
  obtain ⟨-, ⟨hafter, -⟩, hbefore⟩ := hnodup
  rw [State.commitLayers, hsplit, List.foldl_append, List.foldl_cons]
  set u := before.foldl (fun s p => (s.updLayer c p.2 (fun z => s.layerNext p.1 z stepping)).showFallback c p.2 p.1) s
  have hu : u.layer c l = s.layer c l :=
    layer_foldl_other (fun e he => hbefore _ (List.mem_map.mpr ⟨e, he, rfl⟩) _ List.mem_cons_self) stepping s
  refine ⟨u, (layer_foldl_other (fun e he hl => hafter (List.mem_map.mpr ⟨e, he, hl⟩)) stepping _).trans ?_⟩
  rw [layer_congr (ctx_showFallback ..), layer_updLayer, if_pos rfl, hu]

/-- What NOSTEP_WINDOW_CLOSE does with one context. -/
def State.closeWindow (s : State) (c : Nat) : State :=
  match s.template c with
  | none => s
  | some t =>
    if (s.ctx c).step.isNone ∧ s.commitDue c = true then
      (s.atCommit c (fun s => s.commitLayers c t false)).updCtx c (fun x => { x with roundPos := x.roundPos + 1 })
    else s

theorem execNostepWindowClose_eq (s : State) : execNostepWindowClose s = .next ((s.ctxs.map (fun e => e.1)).foldl State.closeWindow s) := rfl

theorem keeps_closeWindow (s : State) (c : Nat) : Keeps 0x2001000 s (s.closeWindow c) := by
  unfold State.closeWindow
  split
  · exact Keeps.refl _ s
  · refine Keeps.ite (keeps_updCtx (keeps_atCommit (Keeps.refl _ s) rfl fun v => ?_) rfl) (Keeps.refl _ s)
    exact keeps_commitLayers (Keeps.refl _ v) rfl

theorem ctx_closeWindow_other (s : State) {c d : Nat} (h : d ≠ c) : (s.closeWindow c).ctx d = s.ctx d := by
  have hupd : ∀ (u : State) (f : Ctx → Ctx), (u.updCtx c f).ctx d = u.ctx d := fun u f => by rw [ctx_updCtx, if_neg h]
  unfold State.closeWindow
  split
  · rfl
  · split
    · rw [hupd, State.atCommit]
      split
      · rw [hupd, ctx_commitLayers_other _ h, hupd]
      · exact ctx_commitLayers_other s h ..
    · rfl

/-- A context that does not step takes the updates of its window. -/
theorem closeWindow_due {s : State} {c : Nat} {t : Template} (htemplate : s.template c = some t) (hstep : (s.ctx c).step = none)
    (hdue : s.commitDue c = true) : s.closeWindow c =
      (s.atCommit c (fun s => s.commitLayers c t false)).updCtx c (fun x => { x with roundPos := x.roundPos + 1 }) := by
  rw [State.closeWindow, htemplate]
  exact if_pos ⟨by rw [hstep]; rfl, hdue⟩

theorem roundPos_closeWindow {s : State} {c : Nat} {t : Template} (htemplate : s.template c = some t) (hstep : (s.ctx c).step = none)
    (hdue : s.commitDue c = true) : ((s.closeWindow c).ctx c).roundPos = (s.ctx c).roundPos + 1 := by
  rw [closeWindow_due htemplate hstep hdue, ctx_updCtx_same, State.atCommit]
  split
  · simp only [ctx_updCtx_same, roundPos_commitLayers]
  · simp only [roundPos_commitLayers]

/-- With the frame alive each layer's s_x follows R166, and its counts start again. -/
theorem layer_closeWindow {s : State} {c : Nat} {t : Template} (htemplate : s.template c = some t) (hstep : (s.ctx c).step = none)
    (hdue : s.commitDue c = true) (halive : s.fr.killed = none) {l : Nat} {y : Layer} (hy : t.layers[l]? = some y) :
    ((s.closeWindow c).layer c l).sx = sxNext (s.layer c l).sx (s.layer c l).q ∧ ((s.closeWindow c).layer c l).overflow = 0 ∧
      ((s.closeWindow c).layer c l).passes = 0 := by
  obtain ⟨u, hu⟩ := layer_commitLayers s c hy false
  have hlayer : (s.closeWindow c).layer c l = u.layerNext y (s.layer c l) false := by
    rw [closeWindow_due htemplate hstep hdue, State.atCommit, if_neg (by simp [halive]), ← hu, State.layer, ctx_updCtx_same]
    rfl
  rw [hlayer]
  exact ⟨rfl, rfl, rfl⟩

/-- Whether a window of a context closes depends on its record, the frame and what readers see. -/
theorem commitDue_congr_of_step_none {s t : State} {c : Nat} (hctx : t.ctx c = s.ctx c) (hframe : t.frame = s.frame) (hvis : t.vis = s.vis)
    (hstep : (s.ctx c).step = none) : t.commitDue c = s.commitDue c := by
  have hstate : t.ctxState c = s.ctxState c := seen_congr hvis ..
  simp only [State.commitDue, hctx, hstep, hframe, State.serving, hstate]

theorem nostepWindowClose_completes {s : State} (hs : s.canonical) :
    Completes .nostepWindowClose s (fun t => ∀ c tm, s.template c = some tm → (s.ctx c).step = none →
      s.commitDue c = true → s.ctxs.any (fun e => decide (e.1 = c)) = true → (t.ctx c).roundPos = (s.ctx c).roundPos + 1 ∧
        (s.fr.killed = none → ∀ l y, tm.layers[l]? = some y →
          (t.layer c l).sx = sxNext (s.layer c l).sx (s.layer c l).q ∧ (t.layer c l).overflow = 0 ∧ (t.layer c l).passes = 0)) := by
  refine ⟨_, execNostepWindowClose_eq s, fun c tm htemplate hstep hdue hlisted => ?_⟩
  obtain ⟨-, -, -, hctxs, -⟩ := hs
  have hnodup := (nodup_keys_of_tblFrom hctxs).2
  obtain ⟨e, he, hkey⟩ := List.any_eq_true.mp hlisted
  have hmem : c ∈ s.ctxs.map (fun e => e.1) := List.mem_map.mpr ⟨e, he, of_decide_eq_true hkey⟩
  obtain ⟨before, after, hsplit⟩ := List.append_of_mem hmem
  rw [hsplit, List.nodup_append, List.nodup_cons] at hnodup
  obtain ⟨-, ⟨hafter, -⟩, hbefore⟩ := hnodup
  rw [hsplit, List.foldl_append, List.foldl_cons]
  set u := before.foldl State.closeWindow s
  have hu : Keeps 0x2001000 s u := (Keeps.refl _ s).foldl keeps_closeWindow
  have hctx : u.ctx c = s.ctx c := foldl_keeps_value (fun v => v.ctx c) before s fun v d hd =>
    ctx_closeWindow_other v (Ne.symm (hbefore d hd c List.mem_cons_self))
  have htemplate' : u.template c = some tm := by rw [← htemplate, State.template, State.template, State.ctxEntry, State.ctxEntry, hu.same .img rfl]
  have hstep' : (u.ctx c).step = none := hctx ▸ hstep
  have hdue' : u.commitDue c = true := (commitDue_congr_of_step_none hctx (hu.same .frame rfl) (hu.same .vis rfl) hstep).trans hdue
  have hlast : (after.foldl State.closeWindow (u.closeWindow c)).ctx c = (u.closeWindow c).ctx c :=
    foldl_keeps_value (fun v => v.ctx c) after _ fun v d hd => ctx_closeWindow_other v fun h => hafter (h ▸ hd)
  refine ⟨?_, fun halive l y hy => ?_⟩
  · rw [hlast, roundPos_closeWindow htemplate' hstep' hdue', hctx]
  · have halive' : u.fr.killed = none := by rw [show u.fr = s.fr from hu.same .fr rfl, halive]
    rw [layer_congr hlast, ← layer_congr hctx]
    exact layer_closeWindow htemplate' hstep' hdue' halive' hy

/-- Settles O39: the two commands by the theorems about them. -/
theorem streamsAndWindows : Obligations.StreamsAndWindows :=
  fun _ => ⟨streamOut_completes, nostepWindowClose_completes⟩

end Sys2Proof.Machine
end

section
/-! Requests of hosts and of the owner (R25, R33, R64 to R70, R384, R453 to R455, R553). -/
namespace Sys2Proof.Machine

/-! QUERY (R64 to R66). -/

theorem nextQueries_placeQuery (s : State) (q : PlacedQuery) (t : Template) : (s.placeQuery q t).nextQueries = s.nextQueries ++ [q] := by
  unfold State.placeQuery State.nextQueries
  match s.fr.plans with
  | [] => rfl
  | [_] => rfl
  | _ :: _ :: _ => rfl

theorem query_placed {s : State} {r : Req} {tm : Template} (hr : Received s 1 r) (hpass : firstFail (s.queryChecks r) = none)
    (htemplate : s.template r.ctx = some tm) :
    Completes (.query r) s (fun t => t.nextQueries = s.nextQueries ++ [s.placed r tm] ∧ t.fr.queries = s.fr.queries + 1 ∧
      t.sent = s.sent) := by
  obtain ⟨P, hP⟩ := exists_ports_of_request hr (fun u => u.queryChecks r) (fun _ => rfl) hpass
  have ht : ({ s with ports := P } : State).template r.ctx = some tm := htemplate
  refine ⟨({ s with ports := P } : State).placeQuery (s.placed r tm) tm, congrArg Host.Outcome.next ((hP _).trans ?_),
    nextQueries_placeQuery { s with ports := P } _ tm, rfl, rfl⟩
  simp only [ht]
  rfl

/-! SAMPLE (R33, R69, R450). -/

theorem session_lt_of_sampleChecks {s : State} {r : Req} {l : List SampleData} (hpass : firstFail (s.sampleChecks r l) = none) :
    r.session < 4096 := by
  have hkind : (isHost r.session && decide (s.seen F.HSESS_CFG_CTX r.session = r.ctx), verdict rejOwner) ∈ s.sampleChecks r l := by
    unfold State.sampleChecks
    split <;> simp
  have hhost := (firstFail_eq_none_iff _).mp hpass _ hkind
  simp only [Bool.and_eq_true, isHost, decide_eq_true_eq] at hhost
  exact hhost.1

theorem accepted_setAccepted (s : State) {i : Nat} (hi : i < 4096) (n : Nat) : (s.setAccepted i n).accepted i = n % 2 ^ 64 := by
  have hlo : (s.setAccepted i n).get F.HSESS_SEQ_LO_SEQ i = n % 2 ^ 32 % 2 ^ 32 :=
    (get_put_addr _ (by simp only [Fld.addr, F.HSESS_SEQ_LO_SEQ, F.HSESS_SEQ_HI_SEQ]; omega) _).trans (get_put_same s rfl hi _)
  have hhi : (s.setAccepted i n).get F.HSESS_SEQ_HI_SEQ i = n / 2 ^ 32 % 2 ^ 32 % 2 ^ 32 := get_put_same _ rfl hi _
  rw [State.accepted, hlo, hhi]
  omega

theorem get_discarded_takeSamples (s : State) (c n : Nat) (l : List Sample) (i : Nat) :
    (s.takeSamples c n l).get F.HSESS_DISC_DISCARDED i = s.get F.HSESS_DISC_DISCARDED i := by
  have haddr : F.HSESS_DISC_DISCARDED.addr i ≠ F.HSESS_SEQ_LO_SEQ.addr n ∧ F.HSESS_DISC_DISCARDED.addr i ≠ F.HSESS_SEQ_HI_SEQ.addr n := by
    simp only [Fld.addr, F.HSESS_DISC_DISCARDED, F.HSESS_SEQ_LO_SEQ, F.HSESS_SEQ_HI_SEQ]
    omega
  unfold State.takeSamples
  split
  · rfl
  · exact (get_put_addr _ haddr.2 _).trans (get_put_addr _ haddr.1 _)

theorem intake_takeSamples (s : State) (c n : Nat) (l : List Sample) : ((s.takeSamples c n l).ctx c).intake = (s.ctx c).intake ++ l := by
  unfold State.takeSamples
  split
  case h_1 hnone => rw [List.getLast?_eq_none_iff.mp hnone, List.append_nil]
  case h_2 => simp only [State.setAccepted, ctx_put, ctx_updCtx_same]

theorem takeSamples_of_getLast? (s : State) (c n : Nat) {l : List Sample} {z : Sample} (hz : l.getLast? = some z) :
    s.takeSamples c n l = (s.updCtx c (fun x => { x with
      intake := x.intake ++ l, log := x.log ++ [State.sampleEntry (s.ctx c).logNext l],
      logNext := x.logNext + (State.sampleEntry (s.ctx c).logNext l).units })).setAccepted n z.seq := by
  rw [State.takeSamples, hz]

theorem log_takeSamples (s : State) (c n : Nat) {l : List Sample} {z : Sample} (hz : l.getLast? = some z) :
    ((s.takeSamples c n l).ctx c).log = (s.ctx c).log ++ [State.sampleEntry (s.ctx c).logNext l] := by
  simp only [takeSamples_of_getLast? s c n hz, State.setAccepted, ctx_put, ctx_updCtx_same]

theorem accepted_takeSamples (s : State) (c : Nat) {n : Nat} (hn : n < 4096) {l : List Sample} {z : Sample} (hz : l.getLast? = some z) :
    (s.takeSamples c n l).accepted n = z.seq % 2 ^ 64 := by
  rw [takeSamples_of_getLast? s c n hz, accepted_setAccepted _ hn]

/-- The state after the samples of a request are taken in: those that are no news are counted, the others stand in the queue and the log. -/
def State.sampled (s : State) (r : Req) (l : List SampleData) : State :=
  (s.bump F.HSESS_DISC_DISCARDED r.session (l.length - (s.newSamples r l).length)).takeSamples r.ctx r.session (s.newSamples r l)

theorem execSample_passed {s : State} {r : Req} {l : List SampleData} (hr : Received s 3 r) (hpass : firstFail (s.sampleChecks r l) = none) :
    ∃ P, let u := ({ s with ports := P } : State).sampled r l
      execSample r l s = .next (u.hold 1 (u.sampleAck r (verdict stOk))) := by
  obtain ⟨P, hP⟩ := exists_ports_of_withRequest hr
  have hpass' : firstFail (({ s with ports := P } : State).sampleChecks r l) = none := hpass
  refine ⟨P, congrArg Host.Outcome.next ((hP _).trans ?_)⟩
  rw [hpass']
  rfl

theorem sampled_takes (s : State) {r : Req} (l : List SampleData) (hsession : r.session < 4096) :
    ((s.sampled r l).ctx r.ctx).intake = (s.ctx r.ctx).intake ++ s.newSamples r l ∧
    (∀ z, (s.newSamples r l).getLast? = some z → (s.sampled r l).accepted r.session = z.seq % 2 ^ 64 ∧
      ((s.sampled r l).ctx r.ctx).log = (s.ctx r.ctx).log ++ [State.sampleEntry (s.ctx r.ctx).logNext (s.newSamples r l)]) ∧
    Advanced F.HSESS_DISC_DISCARDED r.session (l.length - (s.newSamples r l).length) s (s.sampled r l) ∧ (s.sampled r l).fr = s.fr := by
  unfold State.sampled
  have hadv := advanced_bump (f := F.HSESS_DISC_DISCARDED) rfl hsession (l.length - (s.newSamples r l).length) s
  have hctx : (s.bump F.HSESS_DISC_DISCARDED r.session (l.length - (s.newSamples r l).length)).ctx r.ctx = s.ctx r.ctx := ctx_put ..
  refine ⟨?_, fun z hz => ⟨accepted_takeSamples _ _ hsession hz, ?_⟩, ?_, ?_⟩
  · rw [intake_takeSamples, hctx]
  · rw [log_takeSamples _ _ _ hz, hctx]
  · rw [Advanced, get_discarded_takeSamples]
    exact hadv
  · exact ((keeps_takeSamples (Keeps.refl 0x2004000 _) rfl).same .fr rfl).trans (State.bump_fr ..)

theorem sample_taken {s : State} {r : Req} {l : List SampleData} (hr : Received s 3 r) (hpass : firstFail (s.sampleChecks r l) = none) :
    Completes (.sample r l) s (fun t =>
      (t.ctx r.ctx).intake = (s.ctx r.ctx).intake ++ s.newSamples r l ∧
      (∀ z, (s.newSamples r l).getLast? = some z → t.accepted r.session = z.seq % 2 ^ 64 ∧
        (t.ctx r.ctx).log = (s.ctx r.ctx).log ++ [State.sampleEntry (s.ctx r.ctx).logNext (s.newSamples r l)]) ∧
      Advanced F.HSESS_DISC_DISCARDED r.session (l.length - (s.newSamples r l).length) s t ∧
      t.fr.held = s.fr.held ++ [⟨1, 0, t.sampleAck r (verdict stOk)⟩]) := by
  obtain ⟨P, hexec⟩ := execSample_passed hr hpass
  obtain ⟨hintake, hnew, hdiscarded, hfr⟩ := sampled_takes { s with ports := P } l (session_lt_of_sampleChecks hpass)
  refine ⟨_, hexec, hintake, hnew, hdiscarded, ?_⟩
  exact congrArg (fun v => FrameSt.held v ++ _) hfr

/-! LOAD_MODEL (R25, R384). -/

theorem get_updHost (s : State) (i : Nat) (f : HostSess → HostSess) (g : Fld) (j : Nat) : (s.updHost i f).get g j = s.get g j := rfl

/-- Entering LOADING writes the context's state word by the state code and the generation alone. -/
theorem get_enterLoading (s : State) {c : Nat} (restart : Bool) {g : Fld} (hg : g.addr c = F.CTX_STATE_STATE.addr c) :
    (s.enterLoading c restart).get g c = ((s.enter c 1).bump F.CTX_STATE_GEN c 1).get g c := by
  have hctx : ∀ f ∈ [F.CTX_LR_SCALE_LR_SCALE, F.CTX_TRAIN_PAUSE, F.CTX_TRAIN_AUTO_PAUSED, F.CTX_CTRL_WEIGHT], g.addr c ≠ f.addr c := by
    rw [hg]
    simp [Fld.addr, F.CTX_STATE_STATE, F.CTX_LR_SCALE_LR_SCALE, F.CTX_TRAIN_PAUSE, F.CTX_TRAIN_AUTO_PAUSED, F.CTX_CTRL_WEIGHT]
  have hsess : ∀ i, g.addr c ≠ F.HSESS_SEQ_LO_SEQ.addr i ∧ g.addr c ≠ F.HSESS_SEQ_HI_SEQ.addr i := by
    intro i
    rw [hg]
    simp only [Fld.addr, F.CTX_STATE_STATE, F.HSESS_SEQ_LO_SEQ, F.HSESS_SEQ_HI_SEQ]
    omega
  unfold State.enterLoading
  extract_lets w u v x
  split
  · have hfold : ∀ l : List Nat, (l.foldl (fun s i =>
        ((s.put F.HSESS_SEQ_LO_SEQ i 0).put F.HSESS_SEQ_HI_SEQ i 0).updHost i (fun h => { h with consumed := 0 })) x).get g c = x.get g c :=
      fun l => foldl_keeps_value (fun y => y.get g c) l x fun y i _ => by
        rw [get_updHost, get_put_addr _ (hsess i).2, get_put_addr _ (hsess i).1]
    rw [hfold, get_put_addr v (hctx _ (by simp)), get_put_addr _ (hctx _ (by simp)), get_put_addr _ (hctx _ (by simp)),
      get_put_addr u (hctx _ (by simp))]
  · rfl

theorem ctxLive_enterLoading (s : State) {c : Nat} (hc : c < 1024) (restart : Bool) : (s.enterLoading c restart).ctxLive c = 1 :=
  (get_enterLoading s restart rfl).trans ((get_put_apart _ rfl rfl rfl c c _).trans (get_put_same s rfl hc 1))

theorem advanced_gen_enterLoading (s : State) {c : Nat} (hc : c < 1024) (restart : Bool) :
    Advanced F.CTX_STATE_GEN c 1 s (s.enterLoading c restart) := by
  have hgen : (s.enter c 1).get F.CTX_STATE_GEN c = s.get F.CTX_STATE_GEN c := get_put_apart s rfl rfl rfl c c 1
  have hbump := advanced_bump (f := F.CTX_STATE_GEN) rfl hc 1 (s.enter c 1)
  rw [Advanced, hgen] at hbump
  exact (get_enterLoading s (g := F.CTX_STATE_GEN) restart rfl).trans hbump

/-- The static and adaptive lists that a placement shows stand in registers. -/
theorem placeLists_keeps {β : Type} (g : State → β) (hput : ∀ u f i v, g (State.put u f i v) = g u) (t : Template) (s : State) :
    g (t.layers.foldl (fun s y => (y.batts.map (fun b => s.battOf b)).foldl (fun s b =>
      (s.put F.BAND_BATT_STATIC b y.staticRows.length).put F.BAND_BATT_ADAPT b (if y.adaptive.headD false then 1 else 0)) s) s) = g s :=
  foldl_keeps_value g _ s fun u _ _ => foldl_keeps_value g _ u fun _ _ _ => (hput ..).trans (hput ..)

theorem template_place (s : State) (c : Nat) (t : Template) : ((s.place c t).ctx c).template = some t.index := by
  unfold State.place
  extract_lets src layers u v
  have hv : v.ctx c = u.ctx c := foldl_keeps_value (fun w => w.ctx c) _ u fun _ _ _ => rfl
  rw [placeLists_keeps (fun w => w.ctx c) (fun w f i x => ctx_put w f i x c), hv, ctx_updCtx_same]

/-- The load owner of each batt that takes one (R138, R149). -/
theorem owner_foldl_updBatt (l : List Nat) (s : State) (f : Batt → Batt) (c k : Nat) (hf : ∀ x, (f x).owner = some c) :
    ((l.foldl (fun s b => s.updBatt (s.battOf b) f) s).batt k).owner = if k ∈ l.map s.battOf then some c else (s.batt k).owner := by
  induction l generalizing s with
  | nil => rfl
  | cons b r ih =>
    have hmap : (s.updBatt (s.battOf b) f).battOf = s.battOf := rfl
    rw [List.foldl_cons, ih, hmap, batt_updBatt]
    by_cases hr : k ∈ r.map s.battOf
    · rw [if_pos hr, if_pos (.tail _ hr)]
    · simp only [hr, if_false, List.map_cons, List.mem_cons, or_false]
      split
      · exact hf _
      · rfl

theorem owner_place (s : State) (c : Nat) (t : Template) {b : Nat} (hb : b ∈ t.batts) :
    ((s.place c t).batt (s.battOf b)).owner = some c := by
  unfold State.place
  extract_lets src layers u v
  rw [placeLists_keeps (fun w => w.batt (s.battOf b)) (fun w f i x => batt_put w f i x _)]
  exact (owner_foldl_updBatt t.batts u _ c _ fun _ => rfl).trans (if_pos (List.mem_map.mpr ⟨b, hb, rfl⟩))

/-- The state after a LOAD_MODEL: the context has its place, is reserved and shows LOADING, and its package waits to be unsealed (R25). -/
def State.loadingModel (s : State) (r : Req) (p : Package) (tm : Template) : State :=
  ((s.queue1.place r.ctx tm).enterLoading r.ctx true).updCtx r.ctx (fun x => { x with
    reserved := true, loading := some ⟨some r, false, 0, 0, s.frame, none, [], [], false, some p⟩ })

theorem execLoadModel_passed {s : State} {r : Req} {tm : Template} (hr : Received s 6 r) (harg0 : r.arg0 = 0) (harg1 : r.arg1 = 0)
    (hphase : s.phase = 1) (htemplate : s.template r.ctx = some tm) (hlen : r.len ≤ s.pol 0x98 * 2 ^ 20) (howner : s.isOwner r = true)
    (hgen : s.seen F.CTX_STATE_GEN r.ctx = r.gen) (hfree : s.ctxState r.ctx = 0) (hres : (s.ctx r.ctx).reserved = false)
    (hroom : s.fr.q1 < 256) (p : Package) :
    ∃ P, execLoadModel ⟨r, p⟩ s = .next (({ s with ports := P } : State).loadingModel r p tm) := by
  obtain ⟨P, hP⟩ := exists_ports_of_withRequest hr
  set u : State := { s with ports := P }
  obtain ⟨hphase', htemplate', hlen', howner', hgen', hfree', hres', hroom'⟩ : u.phase = 1 ∧ u.template r.ctx = some tm ∧
    r.len ≤ u.pol 0x98 * 2 ^ 20 ∧ u.isOwner r = true ∧ u.seen F.CTX_STATE_GEN r.ctx = r.gen ∧ u.ctxState r.ctx = 0 ∧
    (u.ctx r.ctx).reserved = false ∧ u.room1 = true :=
    ⟨hphase, htemplate, hlen, howner, hgen, hfree, hres, decide_eq_true hroom⟩
  refine ⟨P, congrArg Host.Outcome.next ((hP _).trans ?_)⟩
  rw [(firstFail_eq_none_iff _).mpr]
  · simp only [State.decide_, htemplate']
    rfl
  · simpa [harg0, harg1, State.inService, hphase', htemplate', howner', hgen', hfree', hres', hroom'] using hlen'

theorem loadingModel_loads (s : State) (r : Req) (hc : r.ctx < 1024) (p : Package) (tm : Template) :
    (s.loadingModel r p tm).ctxLive r.ctx = 1 ∧ Advanced F.CTX_STATE_GEN r.ctx 1 s (s.loadingModel r p tm) ∧
      ((s.loadingModel r p tm).ctx r.ctx).reserved = true ∧
      ((s.loadingModel r p tm).ctx r.ctx).loading = some ⟨some r, false, 0, 0, s.frame, none, [], [], false, some p⟩ ∧
      ((s.loadingModel r p tm).ctx r.ctx).template = some tm.index ∧
      (∀ b ∈ tm.batts, ((s.loadingModel r p tm).batt (s.battOf b)).owner = some r.ctx) ∧ (s.loadingModel r p tm).fr.q1 = s.fr.q1 + 1 := by
  unfold State.loadingModel
  set u := s.queue1.place r.ctx tm
  have hplace : Keeps 0x6001000 s.queue1 u := keeps_place (Keeps.refl _ _) rfl
  have hload : Keeps 0x1006000 u (u.enterLoading r.ctx true) := keeps_enterLoading (Keeps.refl _ u) rfl
  refine ⟨ctxLive_enterLoading u hc true, ?_, ?_, ?_, ?_, fun b hb => ?_, ?_⟩
  · have hadv := advanced_gen_enterLoading u hc true
    rwa [Advanced, hplace.get (g := F.CTX_STATE_GEN) rfl hc rfl] at hadv
  · rw [ctx_updCtx_same]
  · rw [ctx_updCtx_same]
  · rw [ctx_updCtx_same, State.ctx, hload.same .ctxs rfl]
    exact template_place s.queue1 r.ctx tm
  · rw [State.batt, State.updCtx_batts, hload.same .batts rfl]
    exact owner_place s.queue1 r.ctx tm hb
  · rw [State.updCtx_fr, hload.same .fr rfl, hplace.same .fr rfl]
    rfl

theorem loadModel_loading {s : State} {r : Req} {tm : Template} (hr : Received s 6 r) (harg0 : r.arg0 = 0) (harg1 : r.arg1 = 0)
    (hphase : s.phase = 1) (htemplate : s.template r.ctx = some tm) (hlen : r.len ≤ s.pol 0x98 * 2 ^ 20) (howner : s.isOwner r = true)
    (hgen : s.seen F.CTX_STATE_GEN r.ctx = r.gen) (hfree : s.ctxState r.ctx = 0) (hres : (s.ctx r.ctx).reserved = false)
    (hroom : s.fr.q1 < 256) (hc : r.ctx < 1024) (p : Package) :
    Completes (.loadModel ⟨r, p⟩) s (fun t => t.ctxLive r.ctx = 1 ∧ Advanced F.CTX_STATE_GEN r.ctx 1 s t ∧
      (t.ctx r.ctx).reserved = true ∧ (t.ctx r.ctx).loading = some ⟨some r, false, 0, 0, s.frame, none, [], [], false, some p⟩ ∧
      (t.ctx r.ctx).template = some tm.index ∧ (∀ b ∈ tm.batts, (t.batt (s.battOf b)).owner = some r.ctx) ∧ t.fr.q1 = s.fr.q1 + 1) := by
  obtain ⟨P, hexec⟩ := execLoadModel_passed hr harg0 harg1 hphase htemplate hlen howner hgen hfree hres hroom p
  exact ⟨_, hexec, loadingModel_loads { s with ports := P } r hc p tm⟩

/-! LOAD_FAILED (R384, R517). -/

theorem execLoadFailed_fails {s : State} {c st ind : Nat} (hloading : s.ctxLive c = 1)
    (hst : (st = rejBinding ∧ s.bindingBad c = true) ∨ st = rejLen ∨ (st = rejBudget ∧ ind = 5)) :
    execLoadFailed c st ind s = .next (s.failLoad c st ind) :=
  congrArg Host.Outcome.next (if_pos ⟨hloading, hst⟩)

theorem loadFailed_ignored {s : State} {c : Nat} (ind : Nat) (hgood : s.bindingBad c = false) :
    exec (.loadFailed c rejBinding ind) s = .next s := by
  refine congrArg Host.Outcome.next (if_neg ?_)
  simp [hgood, rejBinding, rejLen, rejBudget]

/-- A load that fails leaves its context DRAINING without its package, with the fence two frames on. -/
theorem failLoad_drains (s : State) {c : Nat} (hc : c < 1024) (st ind : Nat) :
    (s.failLoad c st ind).ctxLive c = 5 ∧ ((s.failLoad c st ind).ctx c).loading = none ∧
      ((s.failLoad c st ind).ctx c).fence = some (s.frame + 2) := by
  have hframe : (s.failLoad c st ind).frame = s.frame := (keeps_failLoad (Keeps.refl 0x2842020 s) rfl).same .frame rfl
  unfold State.failLoad
  extract_lets u v
  have hv : v.frame = s.frame := ((State.updCtx_frame (v.enter c 5) c _).trans (State.enter_frame v c 5)).symm.trans hframe
  refine ⟨get_put_same v rfl hc 5, ?_, ?_⟩
  · rw [ctx_updCtx_same]
  · rw [ctx_updCtx_same, hv]

theorem held_failLoad {s : State} {c : Nat} {l : LoadRun} {q : Req} (hload : (s.ctx c).loading = some l) (hreq : l.request = some q)
    (st ind : Nat) :
    (s.failLoad c st ind).fr.held = s.fr.held ++ [⟨1, 0, { answer 6 q ⟨st, ind, 0⟩ 0 with gen := s.gen c }⟩] := by
  unfold State.failLoad
  simp only [hload, hreq, State.updCtx_fr, State.enter_fr]
  split
  · rw [State.raise_fr, State.bump_fr]
    rfl
  · rfl

theorem loadFailed_drains {s : State} {c st ind : Nat} (hc : c < 1024) (hloading : s.ctxLive c = 1)
    (hst : (st = rejBinding ∧ s.bindingBad c = true) ∨ st = rejLen ∨ (st = rejBudget ∧ ind = 5)) :
    Completes (.loadFailed c st ind) s (fun t => t.ctxLive c = 5 ∧ (t.ctx c).loading = none ∧ (t.ctx c).fence = some (s.frame + 2) ∧
      ∀ l q, (s.ctx c).loading = some l → l.request = some q →
        t.fr.held = s.fr.held ++ [⟨1, 0, { answer 6 q ⟨st, ind, 0⟩ 0 with gen := s.gen c }⟩]) := by
  obtain ⟨hlive, hnone, hfence⟩ := failLoad_drains s hc st ind
  exact ⟨_, execLoadFailed_fails hloading hst, hlive, hnone, hfence, fun l q hload hreq => held_failLoad hload hreq st ind⟩

/-! EXPORT (R453, R455). -/

theorem ctx_setExports_nextExportId (s : State) (c d : Nat) (l : List ExportRun) :
    ((s.setExports c l).ctx d).ckpt.nextExportId = (s.ctx d).ckpt.nextExportId := by
  rw [State.setExports, ctx_updCtx]
  split
  case isTrue h => rw [h]
  case isFalse => rfl

/-- Displacing exports changes nothing but the lists of exports. -/
theorem makeRoom_keeps {β : Type} (g : State → β) (hset : ∀ u c l, g (State.setExports u c l) = g u) (s : State) (n : Nat) :
    g (s.makeRoom n) = g s := by
  refine foldl_keeps_value g _ s fun u e _ => ?_
  split
  · rfl
  · exact hset ..

/-- What is started stands at the end of its context's exports, under the next number. -/
theorem startExport_queued (s : State) (c size session port tag : Nat) :
    (∃ set_ key, ⟨(s.ctx c).ckpt.nextExportId, s.gen c, 0, set_, key, size, 0, session, port, tag, 0, true, false⟩ ∈
      (s.startExport c size session port tag).exports c) ∧
    ((s.startExport c size session port tag).ctx c).ckpt.nextExportId = (s.ctx c).ckpt.nextExportId + 1 := by
  have hnext := makeRoom_keeps (fun u => (u.ctx c).ckpt.nextExportId) (fun u d l => ctx_setExports_nextExportId u d c l) s size
  have hgen : (s.makeRoom size).gen c = s.gen c := get_congr (makeRoom_keeps (fun u => u.regs) (fun _ _ _ => rfl) s size) ..
  set m := s.makeRoom size
  refine ⟨⟨m.draw % 2 ^ 128, m.drawn.draw % 2 ^ 256, ?_⟩, ?_⟩
  · rw [← hnext, ← hgen, State.exports, State.startExport, ctx_updCtx_same]
    exact List.mem_append_right _ (List.mem_singleton.mpr rfl)
  · rw [← hnext, State.startExport, ctx_updCtx_same]
    rfl

theorem exportReq_queued {s : State} {r : Req} {size : Nat} (hr : Received s 7 r) (hpass : firstFail (s.exportChecks r) = none)
    (hidle : (s.exports r.ctx).any (fun x => x.busy) = false) (harea : s.exportUsed + size ≤ s.exportArea) (hroom : s.fr.q1 < 256) :
    Completes (.exportReq r size) s (fun t =>
      (∃ set_ key, ⟨(s.ctx r.ctx).ckpt.nextExportId, s.gen r.ctx, 0, set_, key, size, 0, r.session, r.port, r.tag, 0, true, false⟩ ∈ t.exports r.ctx) ∧
      (t.ctx r.ctx).ckpt.nextExportId = (s.ctx r.ctx).ckpt.nextExportId + 1 ∧ t.fr.q1 = s.fr.q1 + 1) := by
  obtain ⟨P, hP⟩ := exists_ports_of_withRequest hr
  set u : State := { s with ports := P }
  have hchecks : ∀ e ∈ u.exportChecks r, e.1 = true := (firstFail_eq_none_iff _).mp hpass
  have hidle' : (u.exports r.ctx).any (fun x => x.busy) = false := hidle
  have harea' : u.exportUsed + size ≤ u.exportArea := harea
  have hroom' : u.fr.q1 < 256 := hroom
  obtain ⟨hmem, hnext⟩ := startExport_queued u.queue1 r.ctx size r.session r.port r.tag
  have hfr : (u.queue1.startExport r.ctx size r.session r.port r.tag).fr = u.queue1.fr :=
    (keeps_startExport (Keeps.refl 0x802000000 u.queue1) rfl).same .fr rfl
  refine ⟨_, congrArg Host.Outcome.next ((hP _).trans ?_), hmem, hnext, congrArg FrameSt.q1 hfr⟩
  rw [(firstFail_eq_none_iff _).mpr]
  · rfl
  · rw [List.forall_mem_append]
    exact ⟨hchecks, by simp [hidle', harea', hroom', State.room1]⟩

/-- Messages held in order, none of which reads what is held. -/
theorem held_foldl_hold {α : Type} (m : State → α → OutMsg) (hm : ∀ u cls x e, m (State.hold u cls x) e = m u e) (cls : Nat) (l : List α)
    (s : State) : (l.foldl (fun u e => u.hold cls (m u e)) s).fr.held = s.fr.held ++ l.map (fun e => ⟨cls, 0, m s e⟩) := by
  induction l generalizing s with
  | nil => simp
  | cons a r ih =>
    rw [List.foldl_cons, ih, List.map_cons, List.append_cons]
    simp only [hm]
    rfl

theorem exportResend_held {s : State} {r : Req} {id ofs n : Nat} {x : ExportRun} (hr : Received s 7 r)
    (hpass : firstFail (s.exportChecks r) = none) (hfind : (s.exports r.ctx).find? (fun x => decide (x.id = id)) = some x)
    (hrange : ofs + (if n = 0 then x.length - ofs else n) ≤ x.length) (hroom : s.fr.q1 < 256) :
    Completes (.exportResend r id ofs n) s (fun t =>
      t.fr.held = s.fr.held ++ (State.chunks ((if n = 0 then x.length - ofs else n) / 2 ^ 26 + 1) ofs (if n = 0 then x.length - ofs else n)).map
        (fun c => ⟨1, 0, s.exportMsg r.ctx { x with session := r.session, port := r.port, tag := r.tag } c.1 c.2⟩)) := by
  obtain ⟨P, hP⟩ := exists_ports_of_withRequest hr
  set u : State := { s with ports := P }
  have hchecks : ∀ e ∈ u.exportChecks r, e.1 = true := (firstFail_eq_none_iff _).mp hpass
  have hfind' : (u.exports r.ctx).find? (fun x => decide (x.id = id)) = some x := hfind
  have hroom' : u.fr.q1 < 256 := hroom
  set len := if n = 0 then x.length - ofs else n
  set y : ExportRun := { x with session := r.session, port := r.port, tag := r.tag }
  refine ⟨_, congrArg Host.Outcome.next ((hP _).trans ?_),
    held_foldl_hold (fun v (c : Nat × Nat) => v.exportMsg r.ctx y c.1 c.2) (fun _ _ _ _ => rfl) 1
      (State.chunks (len / 2 ^ 26 + 1) ofs len) u.queue1⟩
  simp only [hfind']
  rw [(firstFail_eq_none_iff _).mpr]
  · rfl
  · rw [List.forall_mem_append]
    exact ⟨hchecks, by simpa [hroom', State.room1] using hrange⟩

/-! MGMT_READ (R553). -/

theorem mgmtRead_answered {s : State} {r : Req} (hr : Received s 9 r) (hpass : firstFail (s.readChecks r) = none) :
    Completes (.mgmtRead r) s (Sends { answer 9 r (verdict stOk) 0 with
      len := 4 * r.arg1, body := .words ((State.readAddrs r).map (fun a => (s.readAt r a).getD 0)) } s) := by
  obtain ⟨P, hP⟩ := exists_ports_of_request hr (fun u => u.readChecks r) (fun _ => rfl) hpass
  exact ⟨_, congrArg Host.Outcome.next (hP _), sends_send { s with ports := P } _⟩

/-- Settles O40: each request by the theorem about it. -/
theorem hostRequests : Obligations.HostRequests := by
  intro s r
  exact ⟨fun tm => query_placed, fun l => sample_taken, fun tm => loadModel_loading, fun c st ind => loadFailed_drains,
    fun c ind => loadFailed_ignored ind, fun size => exportReq_queued, fun id ofs n x => exportResend_held, mgmtRead_answered⟩

end Sys2Proof.Machine
end

section
/-! What every command leaves as it was, what readers see, and what has been sent (R43 to R45): the table of `touches` bounds what `exec` does,
command by command, and every claim about all commands is read off that bound. -/
namespace Sys2Proof.Machine

/-- What is kept outside some parts is kept outside the command's parts, where these hold them. -/
theorem KeepsO.within {m : Nat} {i : Instr} {s : State} {o : Outcome} (h : KeepsO m s o)
    (hm : m &&& maskList (touches i) = m := by dsimp only [touches]; rfl) : KeepsO (maskList (touches i)) s o := h.mono hm

set_option maxRecDepth 2048 in
/-- Each command by what its own meaning keeps. -/
theorem keeps_exec (i : Instr) (s : State) : KeepsO (maskList (touches i)) s (exec i s) := by
  cases i with
  | tick _ => exact (keeps_execTick _ s).within
  | workDeadline _ => exact (keeps_execWorkDeadline _ s).within
  | commitWindow => exact (keeps_execCommitWindow s).within
  | referencePasses _ => exact (keeps_execReferencePasses _ s).within
  | refRecoveryComplete _ => exact (keeps_execRefRecoveryComplete _ s).within
  | streamOut => exact (keeps_execStreamOut s).within
  | nostepWindowClose => exact (keeps_execNostepWindowClose s).within
  | trpSegment _ => exact (keeps_execTrpSegment _ s).within
  | reassemblyTimeout _ _ _ _ => exact (keeps_execReassemblyTimeout _ _ _ _ s).within
  | identityQuietExpiry _ _ _ _ => exact (keeps_execIdentityQuietExpiry _ _ _ _ s).within
  | icmpEcho _ _ _ => exact (keeps_execIcmpEcho _ _ _ s).within
  | arpRequest _ _ _ => exact (keeps_execArpRequest _ _ _ s).within
  | neighbourResolve _ _ _ => exact (keeps_execNeighbourResolve _ _ _ s).within
  | ptpMessage _ => exact (keeps_execPtpMessage _ s).within
  | delayReq _ => exact (keeps_execDelayReq _ s).within
  | ethLinkDown _ => exact (keeps_execEthLinkDown _ s).within
  | ethLinkUp _ _ => exact (keeps_execEthLinkUp _ _ s).within
  | query _ => exact (keeps_execQuery _ s).within
  | sample _ _ => exact (keeps_execSample _ _ s).within
  | loadModel _ => exact (keeps_execLoadModel _ s).within
  | loadComplete _ => exact (keeps_execLoadComplete _ s).within
  | loadFailed _ _ _ => exact (keeps_execLoadFailed _ _ _ s).within
  | exportReq _ _ => exact (keeps_execExportReq _ _ s).within
  | exportResend _ _ _ _ => exact (keeps_execExportResend _ _ _ _ s).within
  | mgmtRead _ => exact (keeps_execMgmtRead _ s).within
  | mgmtWrite _ _ => exact (keeps_execMgmtWrite _ _ s).within
  | claimObserve _ _ _ => exact (keeps_execClaimObserve _ _ _ s).within
  | claimOwn _ _ _ => exact (keeps_execClaimOwn _ _ _ s).within
  | renew _ _ => exact (keeps_execRenew _ _ s).within
  | claimProofVerified _ _ _ _ => exact (keeps_execClaimProofVerified _ _ _ _ s).within
  | release _ => exact (keeps_execRelease _ s).within
  | releaseClose _ => exact (keeps_execReleaseClose _ s).within
  | handover _ => exact (keeps_execHandover _ s).within
  | leaseExpiry => exact (keeps_execLeaseExpiry s).within
  | sessionIdleClose _ => exact (keeps_execSessionIdleClose _ s).within
  | hsessCfgWrite _ _ => exact (keeps_execHsessCfgWrite _ _ s).within
  | park _ _ => exact (keeps_execPark _ _ s).within
  | unpark _ _ => exact (keeps_execUnpark _ _ s).within
  | teardown _ _ => exact (keeps_execTeardown _ _ s).within
  | teardownFence _ => exact (keeps_execTeardownFence _ s).within
  | contextRelease _ _ => exact (keeps_execContextRelease _ _ s).within
  | drainTimeout _ => exact (keeps_execDrainTimeout _ s).within
  | releasedMemoryZeroed _ => exact (keeps_execReleasedMemoryZeroed _ s).within
  | unparkComplete _ => exact (keeps_execUnparkComplete _ s).within
  | contextFault _ => exact (keeps_execContextFault _ s).within
  | pauseWrite _ _ _ => exact (keeps_execPauseWrite _ _ _ s).within
  | fltReset _ => exact (keeps_execFltReset _ s).within
  | fltOos _ => exact (keeps_execFltOos _ s).within
  | restoreLatest _ _ => exact (keeps_execRestoreLatest _ _ s).within
  | restorePrevious _ _ => exact (keeps_execRestorePrevious _ _ s).within
  | calBattItems _ _ _ => exact (keeps_execCalBattItems _ _ _ s).within
  | calFwdSigma _ => exact (keeps_execCalFwdSigma _ s).within
  | calPIdle _ => exact (keeps_execCalPIdle _ s).within
  | calMonRef _ => exact (keeps_execCalMonRef _ s).within
  | calSensorMap _ _ => exact (keeps_execCalSensorMap _ _ s).within
  | calRingBias _ _ => exact (keeps_execCalRingBias _ _ s).within
  | calRunComplete _ _ => exact (keeps_execCalRunComplete _ _ s).within
  | quoteGo _ _ => exact (keeps_execQuoteGo _ _ s).within
  | quoteReady => exact (keeps_execQuoteReady s).within
  | svnCommit _ _ => exact (keeps_execSvnCommit _ _ s).within
  | lock _ _ => exact (keeps_execLock _ _ s).within
  | dbgDisable _ _ _ => exact (keeps_execDbgDisable _ _ _ s).within
  | fuseBlowComplete _ => exact (keeps_execFuseBlowComplete _ s).within
  | secCredEpochWrite _ _ _ => exact (keeps_execSecCredEpochWrite _ _ _ s).within
  | dbgOpen _ _ _ => exact (keeps_execDbgOpen _ _ _ s).within
  | dbgClose _ => exact (keeps_execDbgClose _ s).within
  | imgErase _ _ _ => exact (keeps_execImgErase _ _ _ s).within
  | imgEraseComplete _ => exact (keeps_execImgEraseComplete _ s).within
  | imgSeal _ _ _ => exact (keeps_execImgSeal _ _ _ s).within
  | imgRestart _ _ => exact (keeps_execImgRestart _ _ s).within
  | imgWinWrite _ _ => exact (keeps_execImgWinWrite _ _ s).within
  | retrain _ _ => exact (keeps_execRetrain _ _ s).within
  | unfence _ _ => exact (keeps_execUnfence _ _ s).within
  | install _ _ _ => exact (keeps_execInstall _ _ _ s).within
  | txAnSwitch _ _ _ => exact (keeps_execTxAnSwitch _ _ _ s).within
  | signal _ => exact (keeps_execSignal _ s).within
  | wait _ _ _ _ _ _ => exact (keeps_execWait _ _ _ _ _ _ s).within
  | waitRelease _ _ => exact (keeps_execWaitRelease _ _ s).within
  | contextSwitch _ _ => exact (keeps_execContextSwitch _ _ s).within
  | matrixOperation _ _ => exact (keeps_execMatrixOperation _ _ s).within
  | copy _ _ => exact (keeps_execCopy _ _ s).within
  | fill _ _ => exact (keeps_execFill _ _ s).within
  | transpose _ _ => exact (keeps_execTranspose _ _ s).within
  | add _ _ => exact (keeps_execAdd _ _ s).within
  | sub _ _ => exact (keeps_execSub _ _ s).within
  | mul _ _ => exact (keeps_execMul _ _ s).within
  | fma _ _ => exact (keeps_execFma _ _ s).within
  | vMin _ _ => exact (keeps_execVMin _ _ s).within
  | vMax _ _ => exact (keeps_execVMax _ _ s).within
  | abs _ _ => exact (keeps_execAbs _ _ s).within
  | neg _ _ => exact (keeps_execNeg _ _ s).within
  | mov _ _ => exact (keeps_execMov _ _ s).within
  | cmp _ _ => exact (keeps_execCmp _ _ s).within
  | cmps _ _ => exact (keeps_execCmps _ _ s).within
  | sel _ _ => exact (keeps_execSel _ _ s).within
  | selp _ _ => exact (keeps_execSelp _ _ s).within
  | exp2 _ _ => exact (keeps_execExp2 _ _ s).within
  | log2 _ _ => exact (keeps_execLog2 _ _ s).within
  | rsqrt _ _ => exact (keeps_execRsqrt _ _ s).within
  | rcp _ _ => exact (keeps_execRcp _ _ s).within
  | cvt _ _ => exact (keeps_execCvt _ _ s).within
  | pack _ _ => exact (keeps_execPack _ _ s).within
  | unpack _ _ => exact (keeps_execUnpack _ _ s).within
  | perm _ _ => exact (keeps_execPerm _ _ s).within
  | shuf _ _ => exact (keeps_execShuf _ _ s).within
  | rsum _ _ => exact (keeps_execRsum _ _ s).within
  | rmax _ _ => exact (keeps_execRmax _ _ s).within
  | rmin _ _ => exact (keeps_execRmin _ _ s).within
  | topk _ _ => exact (keeps_execTopk _ _ s).within
  | topkm _ _ => exact (keeps_execTopkm _ _ s).within
  | psum _ _ => exact (keeps_execPsum _ _ s).within
  | tchk _ _ _ => exact (keeps_execTchk _ _ _ s).within
  | kset _ _ => exact (keeps_execKset _ _ s).within
  | kop _ _ => exact (keeps_execKop _ _ s).within
  | uncorrectableEcc _ _ _ _ => exact (keeps_execUncorrectableEcc _ _ _ _ s).within
  | battPass _ => exact (keeps_execBattPass _ s).within
  | numSplitRaised _ => exact (keeps_execNumSplitRaised _ s).within
  | blocking _ => exact (keeps_execBlocking _ s).within
  | debtStarved _ => exact (keeps_execDebtStarved _ s).within
  | fullingIntervalExpiry _ _ => exact (keeps_execFullingIntervalExpiry _ _ s).within
  | fullingRead _ => exact (keeps_execFullingRead _ s).within
  | fullingPassEnd _ _ => exact (keeps_execFullingPassEnd _ _ s).within
  | wearCeilingWrite _ _ => exact (keeps_execWearCeilingWrite _ _ s).within
  | rowWorn _ _ => exact (keeps_execRowWorn _ _ s).within
  | columnRetire _ _ => exact (keeps_execColumnRetire _ _ s).within
  | spareFill _ => exact (keeps_execSpareFill _ s).within
  | spareFillComplete _ _ => exact (keeps_execSpareFillComplete _ _ s).within
  | battRecordWrite _ => exact (keeps_execBattRecordWrite _ s).within
  | shadowPass _ => exact (keeps_execShadowPass _ s).within
  | stepBegin _ => exact (keeps_execStepBegin _ s).within
  | carding _ => exact (keeps_execCarding _ s).within
  | stepCommit _ => exact (keeps_execStepCommit _ s).within
  | skipLimitPause _ => exact (keeps_execSkipLimitPause _ s).within
  | holdRetry _ => exact (keeps_execHoldRetry _ s).within
  | escHoldExpiry _ => exact (keeps_execEscHoldExpiry _ s).within
  | staticListLeave _ _ => exact (keeps_execStaticListLeave _ _ s).within
  | rescaleComplete _ => exact (keeps_execRescaleComplete _ s).within
  | fallbackEntry _ _ => exact (keeps_execFallbackEntry _ _ s).within
  | fallbackEnd _ _ => exact (keeps_execFallbackEnd _ _ s).within
  | stepReady _ => exact (keeps_execStepReady _ s).within
  | exchScatter _ _ => exact (keeps_execExchScatter _ _ s).within
  | ownerSum _ => exact (keeps_execOwnerSum _ s).within
  | thinPSum _ => exact (keeps_execThinPSum _ s).within
  | thinQPartial _ => exact (keeps_execThinQPartial _ s).within
  | thinQSum _ => exact (keeps_execThinQSum _ s).within
  | scalar _ => exact (keeps_execScalar _ s).within
  | optimizerUpdate _ => exact (keeps_execOptimizerUpdate _ s).within
  | mastersApply _ => exact (keeps_execMastersApply _ s).within
  | vote _ => exact (keeps_execVote _ s).within
  | resume _ => exact (keeps_execResume _ s).within
  | checkCopySum _ => exact (keeps_execCheckCopySum _ s).within
  | checkCompare _ => exact (keeps_execCheckCompare _ s).within
  | rereduce _ _ => exact (keeps_execRereduce _ _ s).within
  | refereeSum _ => exact (keeps_execRefereeSum _ s).within
  | refereeDecision _ => exact (keeps_execRefereeDecision _ s).within
  | abandon _ => exact (keeps_execAbandon _ s).within
  | exchRerun _ => exact (keeps_execExchRerun _ s).within
  | memberLate _ _ _ => exact (keeps_execMemberLate _ _ _ s).within
  | lossReport _ _ _ => exact (keeps_execLossReport _ _ _ s).within
  | memberRemoval _ => exact (keeps_execMemberRemoval _ s).within
  | stateRecord _ => exact (keeps_execStateRecord _ s).within
  | stateDecision _ => exact (keeps_execStateDecision _ s).within
  | stepRecord _ _ => exact (keeps_execStepRecord _ _ s).within
  | digest _ => exact (keeps_execDigest _ s).within
  | fullDigest _ => exact (keeps_execFullDigest _ s).within
  | digestDecision _ => exact (keeps_execDigestDecision _ s).within
  | duplicateCompare _ => exact (keeps_execDuplicateCompare _ s).within
  | duplicateReferee _ => exact (keeps_execDuplicateReferee _ s).within
  | observationExpiry _ _ => exact (keeps_execObservationExpiry _ _ s).within
  | marginFrame _ => exact (keeps_execMarginFrame _ s).within
  | knownAnswerTest _ _ => exact (keeps_execKnownAnswerTest _ _ s).within
  | engineWatchdog _ _ _ => exact (keeps_execEngineWatchdog _ _ _ s).within
  | dmaWatchdog _ _ => exact (keeps_execDmaWatchdog _ _ s).within
  | battWatchdog _ _ _ => exact (keeps_execBattWatchdog _ _ _ s).within
  | planWatchdog _ => exact (keeps_execPlanWatchdog _ s).within
  | controlCoreWatchdog _ _ => exact (keeps_execControlCoreWatchdog _ _ s).within
  | mgmtWatchdog => exact (keeps_execMgmtWatchdog s).within
  | engineReset _ _ _ => exact (keeps_execEngineReset _ _ _ s).within
  | coreReset _ _ => exact (keeps_execCoreReset _ _ s).within
  | dieReset _ _ => exact (keeps_execDieReset _ _ s).within
  | deviceReset _ => exact (keeps_execDeviceReset _ s).within
  | resetTimeout _ _ _ _ => exact (keeps_execResetTimeout _ _ _ _ s).within
  | resetComplete _ _ _ => exact (keeps_execResetComplete _ _ _ s).within
  | deviceResetComplete _ _ => exact (keeps_execDeviceResetComplete _ _ s).within
  | resetRebuild _ _ => exact (keeps_execResetRebuild _ _ s).within
  | managementReset _ => exact (keeps_execManagementReset _ s).within
  | oosEntry => exact (keeps_execOosEntry s).within
  | coreFence => exact (keeps_execCoreFence s).within
  | spareTest _ _ => exact (keeps_execSpareTest _ _ s).within
  | spareReblockComplete _ => exact (keeps_execSpareReblockComplete _ s).within
  | eventLogWrite => exact (keeps_execEventLogWrite s).within
  | ckptStart _ => exact (keeps_execCkptStart _ s).within
  | ckpt _ => exact (keeps_execCkpt _ s).within
  | holderDone _ => exact (keeps_execHolderDone _ s).within
  | selfHoldCopyDone _ => exact (keeps_execSelfHoldCopyDone _ s).within
  | done _ => exact (keeps_execDone _ s).within
  | ckptAbandon _ _ _ => exact (keeps_execCkptAbandon _ _ _ s).within
  | ckptLimitExpiry _ => exact (keeps_execCkptLimitExpiry _ s).within
  | probe _ _ => exact (keeps_execProbe _ _ s).within
  | exportScheduled _ _ => exact (keeps_execExportScheduled _ _ s).within
  | exportHoldExpiry _ _ => exact (keeps_execExportHoldExpiry _ _ s).within
  | restore _ => exact (keeps_execRestore _ s).within
  | restored _ => exact (keeps_execRestored _ s).within
  | acceptanceReplay _ _ => exact (keeps_execAcceptanceReplay _ _ s).within
  | logRecompute _ _ => exact (keeps_execLogRecompute _ _ s).within
  | momentFetch _ _ _ _ => exact (keeps_execMomentFetch _ _ _ _ s).within
  | adoptZero _ _ => exact (keeps_execAdoptZero _ _ s).within
  | initRestoreTimeout _ => exact (keeps_execInitRestoreTimeout _ s).within
  | enableClose _ _ => exact (keeps_execEnableClose _ _ s).within
  | sigStateReserve => exact (keeps_execSigStateReserve s).within
  | signingRequest _ => exact (keeps_execSigningRequest _ s).within
  | enableOpen => exact (keeps_execEnableOpen s).within
  | underVoltageStop _ _ => exact (keeps_execUnderVoltageStop _ _ s).within
  | overVoltageStop _ _ => exact (keeps_execOverVoltageStop _ _ s).within
  | currentLimitStop _ => exact (keeps_execCurrentLimitStop _ s).within
  | monitorConversion _ => exact (keeps_execMonitorConversion _ s).within
  | monitorEntryComplete _ => exact (keeps_execMonitorEntryComplete _ s).within
  | urgentRequest _ => exact (keeps_execUrgentRequest _ s).within
  | frameEnergyCheck _ => exact (keeps_execFrameEnergyCheck _ s).within
  | overdraw _ _ => exact (keeps_execOverdraw _ _ s).within
  | reserveDecay _ => exact (keeps_execReserveDecay _ s).within
  | thermalShutdown _ _ => exact (keeps_execThermalShutdown _ _ s).within
  | laserLow _ => exact (keeps_execLaserLow _ s).within
  | sealGroupReceive _ => exact (keeps_execSealGroupReceive _ s).within
  | nak _ _ _ _ => exact (keeps_execNak _ _ _ _ s).within
  | writeFlit _ _ _ => exact (keeps_execWriteFlit _ _ _ s).within
  | signalFlit _ _ => exact (keeps_execSignalFlit _ _ s).within
  | withdraw _ _ => exact (keeps_execWithdraw _ _ s).within
  | join _ => exact (keeps_execJoin _ s).within
  | readyCount _ _ => exact (keeps_execReadyCount _ _ s).within
  | sysWaitExpiry => exact (keeps_execSysWaitExpiry s).within
  | mgmtRelay _ _ => exact (keeps_execMgmtRelay _ _ s).within
  | anchorMove _ => exact (keeps_execAnchorMove _ s).within
  | anchorLost => exact (keeps_execAnchorLost s).within
  | hello _ => exact (keeps_execHello _ s).within
  | kex1 _ _ => exact (keeps_execKex1 _ _ s).within
  | kex2 _ _ => exact (keeps_execKex2 _ _ s).within
  | fin _ _ _ _ => exact (keeps_execFin _ _ _ _ s).within
  | rekeyTrigger _ _ _ _ => exact (keeps_execRekeyTrigger _ _ _ _ s).within
  | rekey1 _ _ => exact (keeps_execRekey1 _ _ s).within
  | rekey2 _ _ _ => exact (keeps_execRekey2 _ _ _ s).within
  | rekeyFin _ _ _ _ _ => exact (keeps_execRekeyFin _ _ _ _ _ s).within
  | keySwitch _ _ _ => exact (keeps_execKeySwitch _ _ _ s).within
  | rekeyTimeout _ _ => exact (keeps_execRekeyTimeout _ _ s).within
  | keyRatchet _ _ _ => exact (keeps_execKeyRatchet _ _ _ s).within
  | lightDetect _ _ _ => exact (keeps_execLightDetect _ _ _ s).within
  | ringsLocked _ => exact (keeps_execRingsLocked _ s).within
  | lanesTrained _ => exact (keeps_execLanesTrained _ s).within
  | fecAligned _ => exact (keeps_execFecAligned _ s).within
  | attemptTimeout _ _ => exact (keeps_execAttemptTimeout _ _ s).within
  | authTimeout _ _ => exact (keeps_execAuthTimeout _ _ s).within
  | waitExpiry _ _ => exact (keeps_execWaitExpiry _ _ s).within
  | downExpiry _ _ => exact (keeps_execDownExpiry _ _ s).within
  | sealLoss _ _ => exact (keeps_execSealLoss _ _ s).within
  | berExcess _ => exact (keeps_execBerExcess _ s).within
  | resendLimit _ _ => exact (keeps_execResendLimit _ _ s).within
  | lightLost _ => exact (keeps_execLightLost _ s).within
  | thetaUpdate _ => exact (keeps_execThetaUpdate _ s).within
  | parentSwitch => exact (keeps_execParentSwitch s).within
  | tickUnaligned _ => exact (keeps_execTickUnaligned _ s).within
  | tickRejoin _ _ => exact (keeps_execTickRejoin _ _ s).within
  | startThreshold _ _ => exact (keeps_execStartThreshold _ _ s).within
  | currentLimitReached => exact (keeps_execCurrentLimitReached s).within
  | referenceClockLoss => exact (keeps_execReferenceClockLoss s).within
  | imgSealComplete _ => exact (keeps_execImgSealComplete _ s).within
  | unlistedType _ _ _ => exact (keeps_execUnlistedType _ _ _ s).within
  | failedTestExpiry _ => exact (keeps_execFailedTestExpiry _ s).within
  | slidingWindowExpiry _ => exact (keeps_execSlidingWindowExpiry _ s).within

/-- Settles O4: each command keeps what lies outside its parts. -/
theorem frameOfEveryCommand : Obligations.FrameOfEveryCommand :=
  fun i s _ h => (keeps_exec i s).sameBut (Nat.and_self _) h

/-- The commands that touch what readers see are those that may show it. -/
theorem contains_vis_touches (i : Instr) : (touches i).contains .vis = shows i := by
  cases i <;> rfl

theorem vis_notMem_touches {i : Instr} (h : shows i = false) : Part.vis ∉ touches i := by
  rw [← List.contains_iff_mem, contains_vis_touches, h]
  exact Bool.false_ne_true

/-- Settles O5: a command that does not touch the committed registers leaves every field as readers saw it. -/
theorem readersSeeTheTick : Obligations.ReadersSeeTheTick :=
  fun i s t h hshows f j => seen_congr (frameOfEveryCommand i s t h .vis (vis_notMem_touches hshows)) f j

theorem sent_grows_exec {i : Instr} {s t : State} (h : exec i s = .next t) : s.sent <+: t.sent := (keeps_exec i s t h).sent

theorem freeCtr_le_exec {i : Instr} {s t : State} (h : exec i s = .next t) : s.freeCtr ≤ t.freeCtr := (keeps_exec i s t h).draws

/-- Settles O6: a step idles, or it runs the command at the front of the queue. -/
theorem sentOnlyGrows : Obligations.SentOnlyGrows := by
  intro s t h
  rw [step] at h
  split at h
  · cases h
    exact ⟨⟨[], (List.append_nil _).symm⟩, Nat.le_refl _⟩
  · obtain ⟨l, hl⟩ := sent_grows_exec h
    have hdraws := freeCtr_le_exec h
    exact ⟨⟨l, hl.symm⟩, hdraws⟩

end Sys2Proof.Machine
end

section
/-! Counters: those of the registers, which wrap at their width (R367), and the sync counters of a context on a core (R368 to R370). -/
namespace Sys2Proof.Machine

theorem get_lt (s : State) (f : Fld) (i : Nat) : s.get f i < f.size := Nat.mod_lt _ (Nat.two_pow_pos _)

theorem Advanced.refl (f : Fld) (i : Nat) (s : State) : Advanced f i 0 s s := (Nat.mod_eq_of_lt (get_lt s f i)).symm

theorem Advanced.trans {f : Fld} {i n m : Nat} {s u t : State} (h : Advanced f i n s u) (h' : Advanced f i m u t) :
    Advanced f i (n + m) s t := by
  rw [Advanced, h', h, Nat.mod_add_mod, Nat.add_assoc]

theorem Advanced.of_get_eq {f : Fld} {i n : Nat} {s u t : State} (h : Advanced f i n s u) (ht : t.get f i = u.get f i) : Advanced f i n s t :=
  ht.trans h

theorem Advanced.congr_left {f : Fld} {i n : Nat} {s u t : State} (h : Advanced f i n u t) (hs : u.get f i = s.get f i) :
    Advanced f i n s t := by
  rw [Advanced, ← hs]
  exact h

/-! Sets of sync counters. -/

theorem SaveArea.ctr_add (a : SaveArea) (k v l d j : Nat) :
    (a.add k v l d).ctr j = if j = k then (a.ctr k).add v l d else a.ctr j := tget_tset ..

@[simp] theorem SaveArea.add_waits (a : SaveArea) (k v l d : Nat) : (a.add k v l d).waits = a.waits := rfl

@[simp] theorem SaveArea.latch_waits (a : SaveArea) (frame : Nat) : (a.latch frame).waits = a.waits := by
  unfold SaveArea.latch
  split <;> rfl

theorem set_putSet (s : State) (p c : Nat) (a : SaveArea) (q e : Nat) :
    (s.putSet p c a).set_ q e = if q = p ∧ e = c then a else s.set_ q e := by
  unfold State.putSet State.set_
  rw [core_updCore]
  by_cases hq : q = p
  · subst hq
    simp only [true_and, if_true, tget_tset]
  · rw [if_neg hq, if_neg fun h => hq h.1]

/-- An arrival of another module changes the counters as one inside the module; it is noted besides (R398). -/
theorem set_countFar (s : State) (p c k v l d q e : Nat) : (s.countFar p c k v l d).set_ q e = (s.count p c k v l d).set_ q e := by
  unfold State.countFar State.set_
  rw [core_updCore]
  by_cases hq : q = p
  · rw [if_pos hq, hq]
  · rw [if_neg hq]

theorem counted_count (p c k v l d : Nat) (s : State) : Counted p c k v l d s (s.count p c k v l d) := by
  have hset : (s.count p c k v l d).set_ p c = ((s.set_ p c).latch s.frame).add k v l d := by
    rw [State.count, set_putSet, if_pos ⟨rfl, rfl⟩]
  refine ⟨?_, fun j hj => ?_, ?_, fun q e h => ?_⟩
  · rw [hset, SaveArea.ctr_add, if_pos rfl]
  · rw [hset, SaveArea.ctr_add, if_neg hj]
  · rw [hset, SaveArea.add_waits, SaveArea.latch_waits]
  · rw [State.count, set_putSet, if_neg fun h' => h.elim (· h'.1) (· h'.2)]

theorem counted_countFar (p c k v l d : Nat) (s : State) : Counted p c k v l d s (s.countFar p c k v l d) := by
  have h := counted_count p c k v l d s
  unfold Counted at h ⊢
  simpa only [set_countFar] using h

theorem get_staleData_stale (s : State) {c : Nat} (hc : c < 1024) (n : Nat) : (s.staleData c n).get F.CTX_EVT_STALE c = 1 := by
  rw [State.staleData, get_raise, get_put_same _ rfl hc]
  rfl

end Sys2Proof.Machine
end

section
/-! WRITE_FLIT, SIGNAL_FLIT and WITHDRAW (R321 to R324, R389, R399, R443). -/
namespace Sys2Proof.Machine

/-! Where a WRITE flit lands. -/

theorem stored_setBytes (a : Nat) (l : List Byte) (s : State) : Stored a l s (s.setBytes a l) := fun b => byte_setBytes s a l b

theorem setBytes_eq (s : State) (a : Nat) (l : List Byte) : s.setBytes a l = { s with mem := (s.setBytes a l).mem } := by
  induction l generalizing s a with
  | nil => rfl
  | cons b r ih => exact ih (s.setByte a b) (a + 1)

theorem credit_of_physOf {s : State} {r : Region} {p : Nat} (hp : s.physOf r.core = some p) (c n : Nat) :
    s.credit c r n = s.countFar p c r.ctr 0 n 0 := by
  rw [State.credit, hp]

/-- Where bytes were written before, the credit is that of the state without them. -/
theorem counted_setBytes_countFar (p c k v l d : Nat) (s : State) (a : Nat) (data : List Byte) :
    Counted p c k v l d s ((s.setBytes a data).countFar p c k v l d) := by
  rw [setBytes_eq]
  exact counted_countFar p c k v l d { s with mem := (s.setBytes a data).mem }

theorem notReserved_iff {h : FlitHead} {a n : Nat} {s : State} :
    (h.vc ≠ 1 ∨ s.inReserve h.src a n = false) ↔ ¬(h.vc = 1 ∧ s.inReserve h.src a n = true) := by
  rw [not_and_or, Bool.not_eq_true]

theorem writeFlit_reserved {h : FlitHead} {a : Nat} {l : List Byte} {s : State} (hopen : s.vcOpen h.vc = true) (hvc : h.vc = 1)
    (hin : s.inReserve h.src a l.length = true) : Completes (.writeFlit h a l) s (fun t => Stored a l s t ∧ t.cores = s.cores) := by
  refine ⟨s.setBytes a l, congrArg Host.Outcome.next ?_, stored_setBytes a l s, by rw [setBytes_eq]⟩
  rw [if_neg (by simp [hopen]), if_pos ⟨hvc, hin⟩]

/-- Outside the checkpoint reserve a flit within a receive region lands, unless its generation is stale. -/
theorem execWriteFlit_inRegion {h : FlitHead} {a : Nat} {l : List Byte} {s : State} (hopen : s.vcOpen h.vc = true)
    (hout : h.vc ≠ 1 ∨ s.inReserve h.src a l.length = false) {r : Region} (hr : s.receiveRegion h.ctx a l.length = some r) :
    exec (.writeFlit h a l) s = .next (
      if h.gen ≠ s.gen h.ctx then s.staleData h.ctx 1
      else if s.suppressed h then s.credit h.ctx r l.length
      else (s.setBytes a l).credit h.ctx r l.length) := by
  refine congrArg Host.Outcome.next ?_
  rw [if_neg (by simp [hopen]), if_neg (notReserved_iff.mp hout), hr]

theorem execWriteFlit_outside {h : FlitHead} {a : Nat} {l : List Byte} {s : State} (hopen : s.vcOpen h.vc = true)
    (hout : h.vc ≠ 1 ∨ s.inReserve h.src a l.length = false) (hr : s.receiveRegion h.ctx a l.length = none) :
    exec (.writeFlit h a l) s = .next (s.bump F.LNK_ERR_DROP_BOUNDS h.port 1) := by
  refine congrArg Host.Outcome.next ?_
  rw [if_neg (by simp [hopen]), if_neg (notReserved_iff.mp hout), hr]

theorem writeFlit_lands {h : FlitHead} {a : Nat} {l : List Byte} {s : State} (hopen : s.vcOpen h.vc = true)
    (hout : h.vc ≠ 1 ∨ s.inReserve h.src a l.length = false) {r : Region} {p : Nat} (hr : s.receiveRegion h.ctx a l.length = some r)
    (hgen : h.gen = s.gen h.ctx) (hp : s.physOf r.core = some p) :
    Completes (.writeFlit h a l) s (fun t => Counted p h.ctx r.ctr 0 l.length 0 s t ∧
      (s.suppressed h = false → Stored a l s t) ∧ (s.suppressed h = true → ∀ b, t.byte b = s.byte b)) := by
  refine ⟨_, execWriteFlit_inRegion hopen hout hr, ?_⟩
  rw [if_neg (not_not_intro hgen)]
  cases hsup : s.suppressed h
  · have hp' : (s.setBytes a l).physOf r.core = some p := by rw [setBytes_eq]; exact hp
    rw [if_neg Bool.false_ne_true, credit_of_physOf hp']
    exact ⟨counted_setBytes_countFar .., fun _ => stored_setBytes a l s, fun hno => absurd hno Bool.false_ne_true⟩
  · rw [if_pos rfl, credit_of_physOf hp]
    exact ⟨counted_countFar .., fun hno => absurd hno.symm Bool.false_ne_true, fun _ _ => rfl⟩

theorem writeFlit_stale {h : FlitHead} {a : Nat} {l : List Byte} {s : State} (hopen : s.vcOpen h.vc = true)
    (hout : h.vc ≠ 1 ∨ s.inReserve h.src a l.length = false) {r : Region} (hr : s.receiveRegion h.ctx a l.length = some r)
    (hgen : h.gen ≠ s.gen h.ctx) (hc : h.ctx < 1024) :
    Completes (.writeFlit h a l) s (fun t => (∀ b, t.byte b = s.byte b) ∧ t.cores = s.cores ∧ t.get F.CTX_EVT_STALE h.ctx = 1) := by
  refine ⟨_, execWriteFlit_inRegion hopen hout hr, ?_⟩
  rw [if_pos hgen]
  have hkept := keeps_staleData (Keeps.refl 0x42000 s) rfl (a1 := h.ctx) (a2 := 1)
  exact ⟨hkept.same .mem rfl, hkept.same .cores rfl, get_staleData_stale s hc 1⟩

theorem writeFlit_outside {h : FlitHead} {a : Nat} {l : List Byte} {s : State} (hopen : s.vcOpen h.vc = true)
    (hout : h.vc ≠ 1 ∨ s.inReserve h.src a l.length = false) (hr : s.receiveRegion h.ctx a l.length = none) (hport : h.port < 32) :
    Completes (.writeFlit h a l) s (fun t => (∀ b, t.byte b = s.byte b) ∧ t.cores = s.cores ∧
      Advanced F.LNK_ERR_DROP_BOUNDS h.port 1 s t) :=
  ⟨_, execWriteFlit_outside hopen hout hr, byte_put s _ _ _, State.bump_cores s _ _ _, advanced_bump rfl hport 1 s⟩

/-- Settles O19: the flit in a checkpoint reserve, in a receive region, stale, and outside. -/
theorem writeFlit : Obligations.WriteFlit := by
  intro h a l s hopen
  exact ⟨writeFlit_reserved hopen, fun hout => ⟨fun r p => writeFlit_lands hopen hout, fun r => writeFlit_stale hopen hout,
    writeFlit_outside hopen hout⟩⟩

/-! Signals and withdrawals of another module, before and after their frame's tick. -/

/-- Entries queued for the tick. -/
def State.await (s : State) (l : List Arrived) : State := { s with link := { s.link with arrived := s.link.arrived ++ l } }

theorem await_nil (s : State) : s.await [] = s := by
  rw [State.await, List.append_nil]

theorem await_await (s : State) (l m : List Arrived) : (s.await l).await m = s.await (l ++ m) := by
  rw [State.await, State.await, State.await, List.append_assoc]

theorem takeArrived_early {s : State} {h : FlitHead} (htag : h.ftag = s.frame % 16) (a : Arrived) : s.takeArrived h a = s.await [a] :=
  if_pos htag

theorem takeArrived_late {s : State} {h : FlitHead} (hlate : h.ftag ≠ s.frame % 16) (a : Arrived) : s.takeArrived h a = s.applyArrived a :=
  if_neg hlate

/-- Entries of this frame wait for the tick, in their order. -/
theorem foldl_takeArrived {h : FlitHead} {s : State} (htag : h.ftag = s.frame % 16) {α : Type} (f : α → Arrived) (l : List α) :
    l.foldl (fun u e => u.takeArrived h (f e)) s = s.await (l.map f) := by
  induction l generalizing s with
  | nil => exact (await_nil s).symm
  | cons a r ih =>
    rw [List.foldl_cons, takeArrived_early htag, ih (s := s.await [f a]) htag, await_await]
    rfl

/-- The withdrawals that name a receive region of their context, as they arrive (R399). -/
def State.withdrawn (s : State) (h : FlitHead) (w : Nat × Nat) : Option Arrived :=
  (s.regionAt h.ctx w.1).map (fun r => ⟨h.src, h.ctx, h.gen, true, r.core, r.ctr, 0, w.2⟩)

/-- One entry of a WITHDRAW. -/
def State.takeWithdrawn (h : FlitHead) (s : State) (w : Nat × Nat) : State :=
  match s.withdrawn h w with
  | none => s
  | some a => s.takeArrived h a

theorem execWithdraw_current {h : FlitHead} {s : State} (hgen : h.gen = s.gen h.ctx) (ws : List (Nat × Nat)) :
    exec (.withdraw h ws) s = .next
      (let u := ws.foldl (State.takeWithdrawn h) s
       { u with link := { u.link with suppress := u.link.suppress ++
          [⟨h.src, h.ctx, h.ftag, (if h.ftag = u.frame % 16 then u.frame + 1 else u.frame) + 8⟩] } }) := by
  have hstep : State.takeWithdrawn h = fun (u : State) (w : Nat × Nat) => match u.regionAt h.ctx w.1 with
      | none => u
      | some r => u.takeArrived h ⟨h.src, h.ctx, h.gen, true, r.core, r.ctr, 0, w.2⟩ := by
    funext u w
    unfold State.takeWithdrawn State.withdrawn
    cases u.regionAt h.ctx w.1 <;> rfl
  rw [hstep]
  exact congrArg Host.Outcome.next (if_neg (not_not_intro hgen))

theorem keeps_takeWithdrawn (h : FlitHead) (s : State) (w : Nat × Nat) : Keeps 0x18042000 s (State.takeWithdrawn h s w) := by
  unfold State.takeWithdrawn
  split
  · exact Keeps.refl _ s
  · exact keeps_takeArrived (Keeps.refl _ s) rfl

theorem suppress_takeArrived (s : State) (h : FlitHead) (a : Arrived) : (s.takeArrived h a).link.suppress = s.link.suppress := by
  unfold State.takeArrived
  split
  · rfl
  · have hlink : (s.applyArrived a).link = s.link := (keeps_applyArrived (Keeps.refl 0x8042000 s) rfl).same .link rfl
    rw [hlink]

theorem suppress_takeWithdrawn (h : FlitHead) (s : State) (w : Nat × Nat) :
    (State.takeWithdrawn h s w).link.suppress = s.link.suppress := by
  unfold State.takeWithdrawn
  split
  · rfl
  · exact suppress_takeArrived ..

theorem foldl_takeWithdrawn {h : FlitHead} {s : State} (htag : h.ftag = s.frame % 16) (ws : List (Nat × Nat)) :
    ws.foldl (State.takeWithdrawn h) s = s.await (ws.filterMap (s.withdrawn h)) := by
  induction ws generalizing s with
  | nil => exact (await_nil s).symm
  | cons w r ih =>
    rw [List.foldl_cons, State.takeWithdrawn, List.filterMap_cons]
    cases s.withdrawn h w with
    | none => exact ih htag
    | some a =>
      have hrest := ih (s := s.await [a]) htag
      simp only [takeArrived_early htag]
      rw [hrest, await_await]
      rfl

theorem signalFlit_waits {h : FlitHead} {s : State} (es : List SignalEntry) (hopen : s.vcOpen h.vc = true) (htag : h.ftag = s.frame % 16) :
    Completes (.signalFlit h es) s (fun t => t.link.arrived =
      s.link.arrived ++ es.map (fun e => ⟨h.src, h.ctx, h.gen, false, e.core, e.ctr, e.inc, e.bytes⟩) ∧ t.cores = s.cores) :=
  ⟨_, congrArg Host.Outcome.next ((if_pos hopen).trans (foldl_takeArrived htag _ es)), rfl, rfl⟩

theorem signalFlit_applies {h : FlitHead} {s : State} {e : SignalEntry} {p : Nat} (hopen : s.vcOpen h.vc = true)
    (hlate : h.ftag ≠ s.frame % 16) (hgen : h.gen = s.gen h.ctx) (hp : s.physOf e.core = some p) :
    Completes (.signalFlit h [e]) s (Counted p h.ctx e.ctr e.inc 0 e.bytes s) := by
  refine ⟨s.countFar p h.ctx e.ctr e.inc 0 e.bytes, congrArg Host.Outcome.next ((if_pos hopen).trans ?_), counted_countFar ..⟩
  rw [List.foldl_cons, List.foldl_nil, takeArrived_late hlate, State.applyArrived, if_pos hgen]
  simp only [hp]
  rfl

theorem vcOpen_foldl_takeArrived (h : FlitHead) {α : Type} (f : α → Arrived) (l : List α) (s : State) (vc : Nat) :
    (l.foldl (fun u e => u.takeArrived h (f e)) s).vcOpen vc = s.vcOpen vc := by
  refine foldl_keeps_value (fun u => u.vcOpen vc) l s fun u e _ => ?_
  simp only [State.vcOpen]
  rw [(keeps_takeArrived (Keeps.refl 0x18042000 u) rfl).get (g := F.LNK_TICK_UNALIGNED) (j := 0) rfl (by decide) rfl]

theorem signalFlit_append {h : FlitHead} {s u : State} (es fs : List SignalEntry) (hrun : exec (.signalFlit h es) s = .next u) :
    exec (.signalFlit h (es ++ fs)) s = exec (.signalFlit h fs) u := by
  have hu : s.heard h _ = u := Host.Outcome.next.inj hrun
  refine congrArg Host.Outcome.next ?_
  subst hu
  unfold State.heard
  cases hopen : s.vcOpen h.vc
  · simp [hopen]
  · simp only [if_true, vcOpen_foldl_takeArrived, hopen, List.foldl_append]

theorem signalFlit_unaligned {h : FlitHead} {s : State} (es : List SignalEntry) (hclosed : s.vcOpen h.vc = false) :
    exec (.signalFlit h es) s = .next s :=
  congrArg Host.Outcome.next (if_neg (by simp [hclosed]))

theorem withdraw_completes {h : FlitHead} {s : State} (ws : List (Nat × Nat)) (hgen : h.gen = s.gen h.ctx) :
    Completes (.withdraw h ws) s (fun t =>
      t.link.suppress = s.link.suppress ++ [⟨h.src, h.ctx, h.ftag, (if h.ftag = s.frame % 16 then s.frame + 1 else s.frame) + 8⟩] ∧
      (h.ftag = s.frame % 16 → t.link.arrived = s.link.arrived ++ ws.filterMap (fun w =>
        (s.regionAt h.ctx w.1).map (fun r => ⟨h.src, h.ctx, h.gen, true, r.core, r.ctr, 0, w.2⟩)) ∧ t.cores = s.cores) ∧
      (∀ w r p, ws = [w] → h.ftag ≠ s.frame % 16 → s.regionAt h.ctx w.1 = some r → s.physOf r.core = some p →
        Counted p h.ctx r.ctr 0 (2 ^ 32 - w.2 % 2 ^ 32) 0 s t)) := by
  refine ⟨_, execWithdraw_current hgen ws, ?_, fun htag => ?_, ?_⟩
  · have hframe : (ws.foldl (State.takeWithdrawn h) s).frame = s.frame :=
      foldl_keeps_value (fun u => u.frame) ws s fun u w _ => (keeps_takeWithdrawn h u w).same .frame rfl
    have hsuppress : (ws.foldl (State.takeWithdrawn h) s).link.suppress = s.link.suppress :=
      foldl_keeps_value (fun u => u.link.suppress) ws s fun u w _ => suppress_takeWithdrawn h u w
    simp only [hframe, hsuppress]
  · rw [foldl_takeWithdrawn htag]
    exact ⟨rfl, rfl⟩
  · rintro w r p rfl hlate hr hp
    have happly : State.takeWithdrawn h s w = s.countFar p h.ctx r.ctr 0 (2 ^ 32 - w.2 % 2 ^ 32) 0 := by
      rw [State.takeWithdrawn, State.withdrawn, hr]
      simp only [Option.map_some]
      rw [takeArrived_late hlate, State.applyArrived, if_pos hgen]
      simp only [hp]
      rfl
    rw [List.foldl_cons, List.foldl_nil, happly]
    exact counted_countFar p h.ctx r.ctr 0 _ 0 s

/-- Settles O20: entries that wait, entries that apply, and withdrawals. -/
theorem signalFlits : Obligations.SignalFlits := by
  intro h s
  exact ⟨signalFlit_waits, fun e p => signalFlit_applies, fun es fs u => signalFlit_append es fs, signalFlit_unaligned, withdraw_completes⟩

end Sys2Proof.Machine
end

section
/-! DMA to another module, and outside the granted regions (R48, R76, R232 to R235, R325). -/
namespace Sys2Proof.Machine

/-! Records that leave, or are dropped and counted. -/

theorem foldl_record_leaves {dest vc kind : Nat} {s : State} {o : Route} (ho : s.leavesOn dest vc false = some o) (ls : List (List Nat)) :
    ls.foldl (fun u l => u.record dest vc kind l) s = { s with sent := s.sent ++ ls.map (fun l => .record o dest vc kind l) } := by
  induction ls generalizing s with
  | nil => rw [List.foldl_nil, List.map_nil, List.append_nil]
  | cons l r ih =>
    have hfirst : s.record dest vc kind l = { s with sent := s.sent ++ [.record o dest vc kind l] } := by
      rw [State.record, State.recordOn, ho]
    rw [List.foldl_cons, hfirst, ih (s := { s with sent := s.sent ++ [.record o dest vc kind l] }) ho, List.map_cons, List.append_assoc]
    rfl

/-- A message toward a port that is not UP is dropped and counted there; without a route nothing is. -/
theorem record_dropped {dest vc kind : Nat} {s : State} (hno : s.leavesOn dest vc false = none) (hopen : s.vcOpen vc = true)
    (hphase : s.phase ≠ 3) (l : List Nat) : s.record dest vc kind l =
      (s.sourceRoute dest false).elim s (fun r => s.bump F.LNK_ERR_DROP_UNROUTE r.port (State.flitCount kind l)) := by
  rw [State.record, State.recordOn, hno]
  dsimp only
  rw [if_neg (by simp [hopen, hphase])]
  cases s.sourceRoute dest false <;> rfl

theorem port_lt_of_routeOf {s : State} {dest : Nat} {alt : Bool} {e : Nat × Nat} (h : s.routeOf dest alt = some e) : e.1 < 32 := by
  unfold State.routeOf at h
  extract_lets w at h
  split at h <;>
  · obtain ⟨-, ⟨⟩⟩ := Option.ite_none_right_eq_some.mp h
    exact Nat.mod_lt _ (by decide)

theorem port_lt_of_sourceRoute {s : State} {dest : Nat} {copy : Bool} {r : Route} (h : s.sourceRoute dest copy = some r) : r.port < 32 := by
  obtain ⟨e, he, rfl⟩ := Option.map_eq_some_iff.mp h
  exact port_lt_of_routeOf he

/-- Two states with the same links: the states of the ports, the routes, the module's alignment and its phase. -/
structure SameRoutes (s t : State) : Prop where
  lnk : ∀ p, t.lnk p = s.lnk p
  route : ∀ d, t.reg (F.LNK_ROUTE_ENTRY.addr d) = s.reg (F.LNK_ROUTE_ENTRY.addr d)
  unaligned : t.get F.LNK_TICK_UNALIGNED 0 = s.get F.LNK_TICK_UNALIGNED 0
  phase : t.phase = s.phase

theorem SameRoutes.sourceRoute {s t : State} (h : SameRoutes s t) (d : Nat) (copy : Bool) : t.sourceRoute d copy = s.sourceRoute d copy := by
  have hroute : ∀ alt, t.routeOf d alt = s.routeOf d alt := fun alt => by rw [State.routeOf, State.routeOf, h.route]
  simp only [State.sourceRoute, State.hasAlternate, hroute, h.lnk]

theorem SameRoutes.vcOpen {s t : State} (h : SameRoutes s t) (vc : Nat) : t.vcOpen vc = s.vcOpen vc := by
  rw [State.vcOpen, State.vcOpen, h.unaligned]

theorem SameRoutes.leavesOn {s t : State} (h : SameRoutes s t) (d vc : Nat) (copy : Bool) : t.leavesOn d vc copy = s.leavesOn d vc copy := by
  simp only [State.leavesOn, h.sourceRoute, h.vcOpen, h.phase, h.lnk]

/-- The counters of dropped flits stand in words of their own. -/
theorem sameRoutes_bump_dropUnroute (s : State) (p n : Nat) : SameRoutes s (s.bump F.LNK_ERR_DROP_UNROUTE p n) := by
  refine ⟨fun q => get_bump_elsewhere s (fun _ => ?_) n, fun d => ?_, get_bump_elsewhere s (fun _ => ?_) n, get_bump_elsewhere s (fun _ => ?_) n⟩
  · simp only [Fld.addr, F.LNK_PORT_STATE, F.LNK_ERR_DROP_UNROUTE]
    omega
  · unfold State.bump State.put
    split
    · next hp =>
      rw [reg_setReg, if_neg]
      simp only [Fld.addr, F.LNK_ROUTE_ENTRY, F.LNK_ERR_DROP_UNROUTE] at hp ⊢
      omega
    · rfl
  · simp only [Fld.addr, F.LNK_TICK_UNALIGNED, F.LNK_ERR_DROP_UNROUTE]
    omega
  · simp only [Fld.addr, F.DEV_STATE_PHASE, F.LNK_ERR_DROP_UNROUTE]
    omega

theorem foldl_record_dropped {dest vc kind : Nat} {s : State} (hno : s.leavesOn dest vc false = none) (hopen : s.vcOpen vc = true)
    (hphase : s.phase ≠ 3) {o : Route} (ho : s.sourceRoute dest false = some o) (ls : List (List Nat)) :
    Advanced F.LNK_ERR_DROP_UNROUTE o.port ((ls.map (State.flitCount kind)).sum) s (ls.foldl (fun u l => u.record dest vc kind l) s) ∧
      (ls.foldl (fun u l => u.record dest vc kind l) s).sent = s.sent := by
  induction ls generalizing s with
  | nil => exact ⟨Advanced.refl .., rfl⟩
  | cons l r ih =>
    have hfirst : s.record dest vc kind l = s.bump F.LNK_ERR_DROP_UNROUTE o.port (State.flitCount kind l) := by
      rw [record_dropped hno hopen hphase, ho]
      rfl
    have hsame := sameRoutes_bump_dropUnroute s o.port (State.flitCount kind l)
    obtain ⟨hcount, hsent⟩ := ih (s := s.bump F.LNK_ERR_DROP_UNROUTE o.port (State.flitCount kind l))
      ((hsame.leavesOn ..).trans hno) ((hsame.vcOpen vc).trans hopen) (hsame.phase ▸ hphase) ((hsame.sourceRoute ..).trans ho)
    rw [List.foldl_cons, hfirst, List.map_cons, List.sum_cons]
    exact ⟨(advanced_bump rfl (port_lt_of_sourceRoute ho) _ s).trans hcount, hsent.trans (State.bump_sent ..)⟩

theorem foldl_record_unrouted {dest vc kind : Nat} {s : State} (hno : s.leavesOn dest vc false = none) (hopen : s.vcOpen vc = true)
    (hphase : s.phase ≠ 3) (ho : s.sourceRoute dest false = none) (ls : List (List Nat)) :
    ls.foldl (fun u l => u.record dest vc kind l) s = s := by
  induction ls with
  | nil => rfl
  | cons l r ih =>
    rw [List.foldl_cons, record_dropped hno hopen hphase, ho]
    exact ih

/-- Records of a module in service on an open VC leave on the route that the source takes, or are dropped and counted there (R325). -/
theorem foldl_record_leaves_or_dropped {dest vc kind : Nat} {s : State} (hopen : s.vcOpen vc = true) (hphase : s.phase = 1)
    (ls : List (List Nat)) :
    (∀ o, s.leavesOn dest vc false = some o → (ls.foldl (fun u l => u.record dest vc kind l) s).sent =
      s.sent ++ ls.map (fun l => .record o dest vc kind l)) ∧
    (s.leavesOn dest vc false = none → (ls.foldl (fun u l => u.record dest vc kind l) s).sent = s.sent ∧
      ∀ o, s.sourceRoute dest false = some o →
        Advanced F.LNK_ERR_DROP_UNROUTE o.port ((ls.map (State.flitCount kind)).sum) s (ls.foldl (fun u l => u.record dest vc kind l) s)) := by
  have hphase' : s.phase ≠ 3 := by
    rw [hphase]
    decide
  refine ⟨fun o ho => by rw [foldl_record_leaves ho], fun hno => ?_⟩
  cases hroute : s.sourceRoute dest false with
  | none =>
    refine ⟨by rw [foldl_record_unrouted hno hopen hphase' hroute], ?_⟩
    rintro o ⟨⟩
  | some o =>
    obtain ⟨hcount, hsent⟩ := foldl_record_dropped (kind := kind) hno hopen hphase' hroute ls
    refine ⟨hsent, ?_⟩
    rintro _ ⟨⟩
    exact hcount

/-! The descriptor. -/

/-- A descriptor's flits, in order (R233, R234). -/
def State.dmaFlits (s : State) (p : Nat) (d : DmaDesc) (op : Nat) : List (List Nat) :=
  ((d.dstRanges op).zip (s.dmaMoved p d op)).map (fun r => [s.active p, d.gen, r.1.1.toNat] ++ r.2.map (fun b => b.toNat))

/-- A trace record is written to the trace, with free values drawn for it (R521). -/
theorem exists_trace (s : State) (p e ev c : Nat) : ∃ x n, s.trace p e ev c = { s with sec := x, freeCtr := n } := by
  unfold State.trace
  split
  · exact ⟨_, _, rfl⟩
  · exact ⟨_, _, rfl⟩

theorem exec_dma {i : Instr} {op p : Nat} {d : DmaDesc} {s : State} (hi : (i, op) ∈ [(.copy p d, 1), (.fill p d, 2), (.transpose p d, 3)])
    (hok : d.ok op = true) (hrun : s.mayRun p 3 = true) (hfree : s.dmaUntouched p d op = true) : exec i s = .next (s.dmaOp p d op) := by
  have hdma : exec i s = s.dma p d op := by
    simp only [List.mem_cons, Prod.mk.injEq, List.not_mem_nil, or_false] at hi
    rcases hi with ⟨rfl, rfl⟩ | ⟨rfl, rfl⟩ | ⟨rfl, rfl⟩ <;> rfl
  rw [hdma, State.dma, if_pos hok, hrun, hfree]
  rfl

theorem phase_of_mayRun {s : State} {p e : Nat} (h : s.mayRun p e = true) : s.phase = 1 := by
  simp only [State.mayRun, State.mayIssue, Bool.and_eq_true, decide_eq_true_eq] at h
  exact h.1.1.1.1

/-- To another module a descriptor runs as its transfer, but for the trace and for the free values drawn. -/
theorem exists_dmaOp_remote {p op : Nat} {d : DmaDesc} {s : State} (hin : s.dmaInside p (s.active p) d op = true) (hkind : d.dstKind = 4) :
    ∃ x n y m, s.dmaOp p d op =
      { ({ s with sec := x, freeCtr := n } : State).dmaRemote (s.active p) d op (s.dmaMoved p d op) with sec := y, freeCtr := m } := by
  obtain ⟨x, n, hfirst⟩ : ∃ x n, (if s.dmaOverlap p d op then s.skipDraws (d.total + d.x) else s).trace p 3 1 (s.active p) =
      { s with sec := x, freeCtr := n } := by
    split
    · exact exists_trace (s.skipDraws _) ..
    · exact exists_trace s ..
  obtain ⟨y, m, hlast⟩ := exists_trace (({ s with sec := x, freeCtr := n } : State).dmaRemote (s.active p) d op (s.dmaMoved p d op))
    p 3 2 (s.active p)
  refine ⟨x, n, y, m, ?_⟩
  unfold State.dmaOp
  simp only [hin, Bool.true_eq_false, if_false, hkind, if_true, hfirst]
  exact hlast

/-- With its VC open, a transfer's flits leave and its bytes and its signal are noted (R48, R399). -/
theorem dmaRemote_open {p op : Nat} {d : DmaDesc} {s : State} (hopen : s.vcOpen d.vc = true) {x : SecSt} {n : Nat} :
    ({ s with sec := x, freeCtr := n } : State).dmaRemote (s.active p) d op (s.dmaMoved p d op) =
      (let u := (s.dmaFlits p d op).foldl (fun u l => u.record d.dstModule d.vc 256 l) { s with sec := x, freeCtr := n }
       { u with fr := { u.fr with
          wrote := u.fr.wrote ++ [⟨d.dstModule, s.active p, d.gen, d.dstAddr, d.total⟩],
          signals := u.fr.signals ++ [⟨d.dstModule, s.active p, d.gen, d.sigCore, d.sigCtr, 1, d.total⟩] } }) := by
  have hopen' : ({ s with sec := x, freeCtr := n } : State).vcOpen d.vc = true := hopen
  rw [State.dmaFlits, List.foldl_map]
  exact if_neg (by simp [hopen'])

theorem keeps_foldl_record (dest vc kind : Nat) (ls : List (List Nat)) (s : State) :
    Keeps 0x400000100 s (ls.foldl (fun u l => u.record dest vc kind l) s) :=
  Keeps.foldl (Keeps.refl _ s) fun u _ => keeps_record (Keeps.refl _ u) rfl

theorem dma_leaves {i : Instr} {op p : Nat} {d : DmaDesc} {s : State} (hexec : exec i s = .next (s.dmaOp p d op)) (hphase : s.phase = 1)
    (hin : s.dmaInside p (s.active p) d op = true) (hkind : d.dstKind = 4) (hopen : s.vcOpen d.vc = true) :
    Completes i s (fun t => (∀ b, t.byte b = s.byte b) ∧
      (∀ o, s.leavesOn d.dstModule d.vc false = some o →
        t.sent = s.sent ++ (s.dmaFlits p d op).map (fun l => .record o d.dstModule d.vc 256 l)) ∧
      (s.leavesOn d.dstModule d.vc false = none → t.sent = s.sent ∧ ∀ o, s.sourceRoute d.dstModule false = some o →
        Advanced F.LNK_ERR_DROP_UNROUTE o.port (((s.dmaFlits p d op).map (State.flitCount 256)).sum) s t) ∧
      t.fr.wrote = s.fr.wrote ++ [⟨d.dstModule, s.active p, d.gen, d.dstAddr, d.total⟩] ∧
      t.fr.signals = s.fr.signals ++ [⟨d.dstModule, s.active p, d.gen, d.sigCore, d.sigCtr, 1, d.total⟩]) := by
  obtain ⟨x, n, y, m, hop⟩ := exists_dmaOp_remote hin hkind
  rw [dmaRemote_open hopen] at hop
  refine ⟨_, hexec.trans (congrArg Host.Outcome.next hop), ?_⟩
  set v : State := { s with sec := x, freeCtr := n }
  have hkept := keeps_foldl_record d.dstModule d.vc 256 (s.dmaFlits p d op) v
  obtain ⟨hleaves, hdropped⟩ := foldl_record_leaves_or_dropped (s := v) (kind := 256) hopen hphase (s.dmaFlits p d op)
  generalize (s.dmaFlits p d op).foldl (fun u l => u.record d.dstModule d.vc 256 l) v = u at *
  have hfr : u.fr = s.fr := hkept.same .fr rfl
  refine ⟨hkept.same .mem rfl, hleaves, hdropped, ?_, ?_⟩
  · dsimp only
    rw [hfr]
  · dsimp only
    rw [hfr]

theorem dma_unaligned {i : Instr} {op p : Nat} {d : DmaDesc} {s : State} (hexec : exec i s = .next (s.dmaOp p d op))
    (hin : s.dmaInside p (s.active p) d op = true) (hkind : d.dstKind = 4) (hclosed : s.vcOpen d.vc = false) :
    Completes i s (fun t => (∀ b, t.byte b = s.byte b) ∧ t.sent = s.sent ∧ t.fr = s.fr) := by
  obtain ⟨x, n, y, m, hop⟩ := exists_dmaOp_remote hin hkind
  have hstays : ({ s with sec := x, freeCtr := n } : State).dmaRemote (s.active p) d op (s.dmaMoved p d op) =
      { s with sec := x, freeCtr := n } := if_pos hclosed
  rw [hstays] at hop
  exact ⟨_, hexec.trans (congrArg Host.Outcome.next hop), fun _ => rfl, rfl, rfl⟩

theorem dma_refused {i : Instr} {op p : Nat} {d : DmaDesc} {s : State} (hexec : exec i s = .next (s.dmaOp p d op)) (hp : p < 192)
    (hout : s.dmaInside p (s.active p) d op = false) :
    Completes i s (fun t => (∀ b, t.byte b = s.byte b) ∧ t.get F.NUM_CORE_EVT_DMA_BOUNDS p = 1 ∧
      ((s.ctx (s.active p)).faultDue = none → (t.ctx (s.active p)).faultDue = some 1)) := by
  have hop : s.dmaOp p d op = s.dmaRefused p (s.active p) := if_pos hout
  refine ⟨_, hexec.trans (congrArg Host.Outcome.next hop), ?_, ?_, fun hnone => ?_⟩
  · exact (keeps_dmaRefused (Keeps.refl 0x2040400 s) rfl).same .mem rfl
  · refine ((keeps_faultCtx (Keeps.refl 0x2000000 _) rfl).get (g := F.NUM_CORE_EVT_DMA_BOUNDS) rfl hp rfl).trans ?_
    rw [get_raise, get_put_same _ rfl hp]
    rfl
  · have hctx : (s.raise F.NUM_CORE_EVT_DMA_BOUNDS p).ctx (s.active p) = s.ctx (s.active p) := by
      rw [State.ctx, State.raise_ctxs]
      rfl
    rw [State.dmaRefused, State.faultCtx, ctx_updCtx_same, hctx, hnone]

/-- Settles O16: the transfer that leaves or is dropped, the one of a module that does not hold the tick, and the one refused. -/
theorem dmaRemoteAndOutside : Obligations.DmaRemoteAndOutside := by
  intro p d s i op hi hok hrun hfree
  have hexec := exec_dma hi hok hrun hfree
  exact ⟨dma_leaves hexec (phase_of_mayRun hrun), dma_unaligned hexec, dma_refused hexec⟩

end Sys2Proof.Machine
end

section
/-! Shadow passes, raised splits and starved debt (R68, R134, R423, R424). -/
namespace Sys2Proof.Machine

/-! Shadow passes. -/

/-- The difference of a shadow pass that is the farthest from zero, with its column. -/
def worstDiff (l : List (Nat × Int)) : Nat × Int :=
  l.foldl (fun (m : Nat × Int) d => if m.2.natAbs < d.2.natAbs then d else m) (0, 0)

/-- A shadow pass that finds a mismatch, with its worst column: a finding about the batt's core, counted, that asks for a fulling pass. -/
def State.shadowMismatch (s : State) (b worst : Nat) : State :=
  ((((s.bump F.FLT_SHADOW_SHADOWS b 1).finding 4 (some (b / 8)) 3 b worst).bump F.FLT_SHADOW_MISMATCH b 1).raise
    F.FLT_SE_EVT_SHADOW 0).updBatt b (fun x => { x with fulNow := true })

/-- A shadow pass that finds no mismatch is counted alone. -/
theorem execShadowPass_match {o : ShadowOp} {s : State} {c l : Nat} {y : Layer} (hlayer : s.battLayer o.batt = some (c, l, y))
    (hcool : s.battHot o.batt = false) (hphase : s.phase = 1) (hmatch : State.shadowBad (s.shadowDiffs o.batt y o) o.lsb = false) :
    exec (.shadowPass o) s = .next (s.bump F.FLT_SHADOW_SHADOWS o.batt 1) := by
  refine congrArg Host.Outcome.next ?_
  rw [hlayer]
  dsimp only
  rw [if_neg (by simp [hcool, hphase]), hmatch]
  rfl

theorem execShadowPass_mismatch {o : ShadowOp} {s : State} {c l : Nat} {y : Layer} (hlayer : s.battLayer o.batt = some (c, l, y))
    (hcool : s.battHot o.batt = false) (hphase : s.phase = 1) (hbad : State.shadowBad (s.shadowDiffs o.batt y o) o.lsb = true) :
    exec (.shadowPass o) s = .next (s.shadowMismatch o.batt (worstDiff (s.shadowDiffs o.batt y o)).1) := by
  refine congrArg Host.Outcome.next ?_
  rw [hlayer]
  dsimp only
  rw [if_neg (by simp [hcool, hphase]), hbad]
  rfl

/-- The finding changes neither the count of shadow passes nor that of mismatches, which share a word, and the event bit stands in another. -/
theorem shadowMismatch_counted {b : Nat} (hb : b < 1536) (s : State) (worst : Nat) :
    Advanced F.FLT_SHADOW_SHADOWS b 1 s (s.shadowMismatch b worst) ∧ Advanced F.FLT_SHADOW_MISMATCH b 1 s (s.shadowMismatch b worst) ∧
      (s.shadowMismatch b worst).get F.FLT_SE_EVT_SHADOW 0 = 1 ∧ ((s.shadowMismatch b worst).batt b).fulNow = true := by
  unfold State.shadowMismatch
  set u := s.bump F.FLT_SHADOW_SHADOWS b 1
  set v := u.finding 4 (some (b / 8)) 3 b worst
  set w := v.bump F.FLT_SHADOW_MISMATCH b 1
  have hfinding : Keeps 0x429000484 u v := keeps_finding (Keeps.refl _ u) rfl
  have hraise : ∀ g : Fld, g.addr b ≠ F.FLT_SE_EVT_SHADOW.addr 0 →
      ((w.raise F.FLT_SE_EVT_SHADOW 0).updBatt b (fun x => { x with fulNow := true })).get g b = w.get g b := fun g hg => by
    rw [get_congr (State.updBatt_regs ..), get_raise, get_put_addr w hg]
  have haddr : F.FLT_SHADOW_SHADOWS.addr b ≠ F.FLT_SE_EVT_SHADOW.addr 0 := by
    simp only [Fld.addr, F.FLT_SHADOW_SHADOWS, F.FLT_SE_EVT_SHADOW]
    omega
  refine ⟨?_, ?_, ?_, by rw [batt_updBatt_same]⟩
  · have hw : w.get F.FLT_SHADOW_SHADOWS b = v.get F.FLT_SHADOW_SHADOWS b := get_put_apart v rfl rfl rfl b b _
    have hu : Advanced F.FLT_SHADOW_SHADOWS b 1 s u := advanced_bump rfl hb 1 s
    exact hu.of_get_eq ((hraise _ haddr).trans (hw.trans (hfinding.get rfl hb rfl)))
  · have hu : u.get F.FLT_SHADOW_MISMATCH b = s.get F.FLT_SHADOW_MISMATCH b := get_put_apart s rfl rfl rfl b b _
    have hw : Advanced F.FLT_SHADOW_MISMATCH b 1 v w := advanced_bump rfl hb 1 v
    exact (hw.congr_left ((hfinding.get rfl hb rfl).trans hu)).of_get_eq (hraise _ haddr)
  · rw [get_congr (State.updBatt_regs ..), get_raise, get_put_same _ rfl (by decide)]
    rfl

theorem shadowPass_completes {s : State} (o : ShadowOp) {c l : Nat} {y : Layer} (hlayer : s.battLayer o.batt = some (c, l, y))
    (hb : o.batt < 1536) (hcool : s.battHot o.batt = false) (hphase : s.phase = 1) :
    Completes (.shadowPass o) s (fun t => Advanced F.FLT_SHADOW_SHADOWS o.batt 1 s t ∧
      (State.shadowBad (s.shadowDiffs o.batt y o) o.lsb = true →
        Advanced F.FLT_SHADOW_MISMATCH o.batt 1 s t ∧ t.get F.FLT_SE_EVT_SHADOW 0 = 1 ∧ (t.batt o.batt).fulNow = true) ∧
      (State.shadowBad (s.shadowDiffs o.batt y o) o.lsb = false → t.batts = s.batts ∧ t.sent = s.sent)) := by
  cases hbad : State.shadowBad (s.shadowDiffs o.batt y o) o.lsb with
  | false =>
    exact ⟨_, execShadowPass_match hlayer hcool hphase hbad, advanced_bump rfl hb 1 s, fun h => absurd h Bool.false_ne_true,
      fun _ => ⟨State.bump_batts .., State.bump_sent ..⟩⟩
  | true =>
    obtain ⟨hcounted, hfound⟩ := shadowMismatch_counted hb s (worstDiff (s.shadowDiffs o.batt y o)).1
    exact ⟨_, execShadowPass_mismatch hlayer hcool hphase hbad, hcounted, fun _ => hfound, fun h => absurd h.symm Bool.false_ne_true⟩

/-! Splits raised. -/

/-- Passes beyond their charge of the last 1,000 frames (R68). -/
def State.lateOvers (s : State) (l : List Nat) : List Nat := l.filter (fun n => decide (s.frame < n + 1000))

/-- A layer after NUM_SPLIT_RAISED. -/
def State.raiseSplit (s : State) (y : LayerSt) : LayerSt := if s.lateOvers y.overs = [] then y else { y with raising := 1, overs := [] }

theorem tget_map_value {α : Type} (d : α) (f : α → α) (hd : f d = d) (t : Tbl α) (k : Nat) :
    tget d (t.map (fun e => (e.1, f e.2))) k = f (tget d t k) := by
  induction t with
  | nil => exact hd.symm
  | cons e r ih =>
    simp only [List.map_cons, tget, ih]
    exact (apply_ite f _ _ _).symm

/-- The layers of a context after NUM_SPLIT_RAISED. -/
def State.raiseSplits (s : State) (c : Nat) : State :=
  s.updCtx c (fun x => { x with layers := x.layers.map (fun e => (e.1, s.raiseSplit e.2)) })

theorem layer_raiseSplits (s : State) (c l : Nat) : (s.raiseSplits c).layer c l = s.raiseSplit (s.layer c l) := by
  rw [State.layer, State.raiseSplits, ctx_updCtx_same]
  exact tget_map_value LayerSt.empty s.raiseSplit rfl _ l

theorem numSplitRaised_completes {s : State} (c : Nat)
    (hover : s.pol 0x18 < ((s.ctx c).layers.map (fun e => (s.lateOvers e.2.overs).length)).foldl (· + ·) 0) :
    Completes (.numSplitRaised c) s (fun t => (∃ d0 d1, Logged 0x0605 6 c d0 d1 s t) ∧ ∀ l,
      (s.lateOvers (s.layer c l).overs ≠ [] → (t.layer c l).raising = 1 ∧ (t.layer c l).overs = []) ∧
      (s.lateOvers (s.layer c l).overs = [] → t.layer c l = s.layer c l)) := by
  refine ⟨(s.raiseSplits c).eventOpen 0x0605 6 c, congrArg Host.Outcome.next (if_pos hover),
    logged_eventOpen (s.raiseSplits c) 0x0605 6 c, fun l => ?_⟩
  have hctxs : ((s.raiseSplits c).eventOpen 0x0605 6 c).ctxs = (s.raiseSplits c).ctxs :=
    (keeps_eventOpen (Keeps.refl 0xC21000084 _) rfl).same .ctxs rfl
  have hlayer : ((s.raiseSplits c).eventOpen 0x0605 6 c).layer c l = s.raiseSplit (s.layer c l) :=
    (layer_congr (congrArg (fun x => tget Ctx.empty x c) hctxs) l).trans (layer_raiseSplits s c l)
  rw [hlayer, State.raiseSplit]
  refine ⟨fun hlate => ?_, fun hnone => if_pos hnone⟩
  rw [if_neg hlate]
  exact ⟨rfl, rfl⟩

/-! Starved debt. -/

/-- The report of a starved row (R134). -/
def State.tellStarved (s : State) (d : DebtRow) : State := (s.raise F.BLK_EVT_STARVED d.batt).eventOpen 0x0607 3 d.batt

theorem keeps_tellStarved (s : State) (d : DebtRow) : Keeps 0xC21041084 s (s.tellStarved d) :=
  keeps_eventOpen ((Keeps.refl _ s).raise rfl rfl rfl) rfl

theorem starved_notMem_eventWords (b : Nat) : F.BLK_EVT_STARVED.addr b ∉ eventWords := by
  simp only [eventWords, Fld.addr, F.BLK_EVT_STARVED, F.FLT_LOG_NEXT, F.ETH_TX_LOST_STREAMS, List.mem_cons, List.not_mem_nil, or_false]
  omega

/-- A report sets the batt's STARVED and clears no other's. -/
theorem get_starved_tellStarved (s : State) (d : DebtRow) {b : Nat} (hb : b < 1536) :
    (s.tellStarved d).get F.BLK_EVT_STARVED b = if b = d.batt then 1 else s.get F.BLK_EVT_STARVED b := by
  rw [State.tellStarved, get_eventOpen (starved_notMem_eventWords b), get_raise]
  split
  · next h =>
    rw [h, get_put_same s rfl (h ▸ hb)]
    rfl
  · next h => exact get_put_index s (by decide) h 1

theorem get_starved_foldl {l : List DebtRow} {b : Nat} (hb : b < 1536) {s : State}
    (h : (∃ d ∈ l, d.batt = b) ∨ s.get F.BLK_EVT_STARVED b = 1) : (l.foldl State.tellStarved s).get F.BLK_EVT_STARVED b = 1 := by
  induction l generalizing s with
  | nil => exact h.resolve_left fun ⟨_, hd, _⟩ => List.not_mem_nil hd
  | cons e r ih =>
    refine ih ?_
    rw [get_starved_tellStarved s e hb]
    by_cases hbatt : b = e.batt
    · exact .inr (if_pos hbatt)
    · rw [if_neg hbatt]
      exact h.imp_left fun ⟨d, hd, hdb⟩ => ⟨d, (List.mem_cons.mp hd).resolve_left fun hde => hbatt (hde ▸ hdb).symm, hdb⟩

theorem keeps_foldl_tellStarved (l : List DebtRow) (s : State) : Keeps 0xC21041084 s (l.foldl State.tellStarved s) :=
  Keeps.foldl (Keeps.refl _ s) fun u d => keeps_tellStarved u d

/-- Rows of a context that have waited more than 10,000 frames and are not marked yet. -/
def State.lateDebt (s : State) (c : Nat) : List DebtRow := (s.ctx c).debt.filter (fun d => !d.starved && decide (d.since + 10000 < s.frame))

/-- A row of debt with its mark. -/
def State.markStarved (s : State) (d : DebtRow) : DebtRow := if d.since + 10000 < s.frame then { d with starved := true } else d

theorem execDebtStarved_eq (s : State) (c : Nat) : exec (.debtStarved c) s = .next
    (let u := (s.lateDebt c).foldl State.tellStarved s
     u.updCtx c (fun x => { x with debt := x.debt.map u.markStarved })) := rfl

theorem debtStarved_completes {s : State} (c : Nat) : Completes (.debtStarved c) s (fun t =>
    (t.ctx c).debt = (s.ctx c).debt.map s.markStarved ∧
    ∀ d ∈ (s.ctx c).debt, d.starved = false → d.since + 10000 < s.frame → d.batt < 1536 → t.get F.BLK_EVT_STARVED d.batt = 1) := by
  refine ⟨_, execDebtStarved_eq s c, ?_, fun d hd hnew hlate hb => ?_⟩
  · have hkept := keeps_foldl_tellStarved (s.lateDebt c) s
    have hctx : ((s.lateDebt c).foldl State.tellStarved s).ctx c = s.ctx c := by
      rw [State.ctx, hkept.same .ctxs rfl]
      rfl
    have hmark : ((s.lateDebt c).foldl State.tellStarved s).markStarved = s.markStarved := by
      funext d
      rw [State.markStarved, State.markStarved, hkept.same .frame rfl]
    dsimp only
    rw [ctx_updCtx_same, hctx, hmark]
  · have hmem : d ∈ s.lateDebt c := List.mem_filter.mpr ⟨hd, by simp [hnew, hlate]⟩
    exact (get_congr (State.updCtx_regs ..) _ _).trans (get_starved_foldl hb (.inl ⟨d, hmem, rfl⟩))

/-- Settles O23: the shadow pass, the raised splits and the starved rows. -/
theorem shadowSplitsAndDebt : Obligations.ShadowSplitsAndDebt := by
  intro s
  exact ⟨fun o c l y => shadowPass_completes o, fun c hover => numSplitRaised_completes c hover, debtStarved_completes⟩

end Sys2Proof.Machine
end

section
/-! Kills of a frame: what they make of sync counters and waits, of the frame and of the count of kills (R47, R376, R396 to R400), and the
resets of engines that follow (R391, R395). -/
namespace Sys2Proof.Machine

/-! Sets of a core after a kill. -/

/-- The set of context c after a kill of its frame: as at the opening tick, with the arrivals since, and no wait (R47, R376, R398). -/
def restoredSet (x : Core) (c : Nat) : SaveArea :=
  (x.arrived.filter (fun e => decide (e.1 / 64 = c))).foldl (fun (a : SaveArea) e => a.add (e.1 % 64) e.2.1 e.2.2.1 e.2.2.2)
    { (tget SaveArea.empty x.opening c) with waits := [] }

/-- A core after the kill of a frame that affects contexts cs. -/
def restoredCore (cs : List Nat) (x : Core) : Core :=
  { x with sets := cs.foldl (fun a c => tset SaveArea.empty a c (restoredSet x c)) x.sets, waits := [] }

theorem core_restoreCore (s : State) (cs : List Nat) (p q : Nat) :
    (s.restoreCore cs p).core q = if q = p then restoredCore cs (s.core p) else s.core q :=
  (core_put ..).trans (core_setCore ..)

/-- Values that a function gives, put into a table key after key: a key that was put has its value, and one that had it keeps it. -/
theorem tget_foldl_tset {α : Type} [DecidableEq α] (d : α) (f : Nat → α) {k : Nat} (l : List Nat) (t : Tbl α)
    (h : k ∈ l ∨ tget d t k = f k) : tget d (l.foldl (fun t j => tset d t j (f j)) t) k = f k := by
  induction l generalizing t with
  | nil => exact h.resolve_left List.not_mem_nil
  | cons j r ih =>
    refine ih _ ?_
    by_cases hj : k = j
    · exact .inr (by rw [tget_tset, if_pos hj, hj])
    · exact h.imp (fun hm => (List.mem_cons.mp hm).resolve_left hj) fun ht => by rw [tget_tset, if_neg hj, ht]

theorem sets_restoredCore {cs : List Nat} {c : Nat} (h : c ∈ cs) (x : Core) :
    tget SaveArea.empty (restoredCore cs x).sets c = restoredSet x c :=
  tget_foldl_tset SaveArea.empty (restoredSet x) cs x.sets (.inl h)

theorem core_foldl_restoreCore_notMem (cs l : List Nat) (s : State) {q : Nat} (h : q ∉ l) :
    (l.foldl (fun u p => u.restoreCore cs p) s).core q = s.core q := by
  refine foldl_keeps_value (fun u => u.core q) l s fun u p hp => ?_
  rw [core_restoreCore, if_neg]
  rintro rfl
  exact h hp

/-- What a restored core shows of the core before. -/
def CoreRestored (cs : List Nat) (x y : Core) : Prop :=
  y.waits = [] ∧ ∀ c ∈ cs, tget SaveArea.empty y.sets c = restoredSet x c

theorem coreRestored_restoredCore (cs : List Nat) (x : Core) : CoreRestored cs x (restoredCore cs x) :=
  ⟨rfl, fun _ h => sets_restoredCore h x⟩

/-- A core of the list is restored at its first mention, and at every later one to the same sets. -/
theorem coreRestored_foldl {cs l : List Nat} {q : Nat} (h : q ∈ l) (s : State) :
    CoreRestored cs (s.core q) ((l.foldl (fun u p => u.restoreCore cs p) s).core q) := by
  induction l generalizing s with
  | nil => cases h
  | cons p r ih =>
    rw [List.foldl_cons]
    by_cases hr : q ∈ r
    · have hrest := ih hr (s.restoreCore cs p)
      rw [core_restoreCore] at hrest
      split at hrest
      · next hq =>
        subst hq
        exact hrest
      · exact hrest
    · have hq : q = p := (List.mem_cons.mp h).resolve_right hr
      rw [core_foldl_restoreCore_notMem cs r _ hr, core_restoreCore, if_pos hq, hq]
      exact coreRestored_restoredCore cs (s.core p)

theorem coreRestored_empty (cs : List Nat) : CoreRestored cs Core.empty Core.empty := ⟨rfl, fun _ _ => rfl⟩

/-- Restoring every listed core restores every core: one that is not listed has nothing in it. -/
theorem coreRestored_all (cs : List Nat) (s : State) (q : Nat) :
    CoreRestored cs (s.core q) (((s.cores.map (fun e => e.1)).foldl (fun u p => u.restoreCore cs p) s).core q) := by
  by_cases h : q ∈ s.cores.map (fun e => e.1)
  · exact coreRestored_foldl h s
  · rw [core_foldl_restoreCore_notMem cs _ s h, State.core, tget_of_notMem _ h]
    exact coreRestored_empty cs

/-! The counters of a restored set: a field of a counter to which an increment adds. -/

section
variable {π : Counter → Nat} {g : Nat × Nat × Nat → Nat}
  (hadd : ∀ x v l d, π (Counter.add x v l d) = (π x + g (v, l, d)) % 2 ^ 32)
include hadd

theorem field_add (a : SaveArea) (e : Nat × Nat × Nat × Nat) (k : Nat) :
    π ((a.add (e.1 % 64) e.2.1 e.2.2.1 e.2.2.2).ctr k) % 2 ^ 32 = (π (a.ctr k) + if e.1 % 64 = k then g e.2 else 0) % 2 ^ 32 := by
  rw [SaveArea.ctr_add]
  by_cases h : e.1 % 64 = k
  · rw [if_pos h.symm, if_pos h, hadd, h, Nat.mod_mod]
  · rw [if_neg fun h' => h h'.symm, if_neg h, Nat.add_zero]

/-- The arrivals of a context add to counter k what those of its counter k bring. -/
theorem field_foldl_add (l : Tbl (Nat × Nat × Nat)) (a : SaveArea) (c : Nat) {k : Nat} (hk : k < 64) :
    π (((l.filter (fun e => decide (e.1 / 64 = c))).foldl (fun (a : SaveArea) e => a.add (e.1 % 64) e.2.1 e.2.2.1 e.2.2.2) a).ctr k) % 2 ^ 32 =
      (π (a.ctr k) + ((l.filter (fun e => decide (e.1 = c * 64 + k))).map (fun e => g e.2)).sum) % 2 ^ 32 := by
  induction l generalizing a with
  | nil => rfl
  | cons e r ih =>
    have hsplit : e.1 = c * 64 + k ↔ e.1 / 64 = c ∧ e.1 % 64 = k := by omega
    rw [List.filter_cons, List.filter_cons]
    by_cases hc : e.1 / 64 = c
    · rw [if_pos (decide_eq_true hc), List.foldl_cons, ih, Nat.add_mod, field_add hadd, ← Nat.add_mod]
      by_cases hek : e.1 % 64 = k
      · rw [if_pos hek, if_pos (decide_eq_true (hsplit.mpr ⟨hc, hek⟩)), List.map_cons, List.sum_cons, Nat.add_assoc]
      · rw [if_neg hek, if_neg (by simp [hsplit, hek]), Nat.add_zero]
    · rw [if_neg (by simp [hc]), if_neg (by simp [hsplit, hc]), ih]

theorem field_restoredSet (x : Core) (c : Nat) {k : Nat} (hk : k < 64) :
    π ((restoredSet x c).ctr k) % 2 ^ 32 = (π ((tget SaveArea.empty x.opening c).ctr k) +
      ((x.arrived.filter (fun e => decide (e.1 = c * 64 + k))).map (fun e => g e.2)).sum) % 2 ^ 32 :=
  field_foldl_add hadd x.arrived _ c hk
end

/-- Every core restored, each counter field has the value that a kill gives it. -/
theorem restored_of_cores {s t : State} (h : ∀ p, CoreRestored s.affected (s.core p) (t.core p)) : Restored s t := by
  refine ⟨fun p c k hc hk => ?_, fun p => (h p).1⟩
  have hset : t.set_ p c = restoredSet (s.core p) c := (h p).2 c hc
  simp only [hset]
  exact ⟨field_restoredSet (π := Counter.value) (g := fun n => n.1) (fun _ _ _ _ => rfl) _ c hk,
    field_restoredSet (π := Counter.landed) (g := fun n => n.2.1) (fun _ _ _ _ => rfl) _ c hk,
    field_restoredSet (π := Counter.promised) (g := fun n => n.2.2) (fun _ _ _ _ => rfl) _ c hk⟩

/-! The kill (R396 to R400). -/

/-- The state of a killed frame before the kill is counted: its cores restored, its signals dropped. -/
def State.stopFrame (s : State) (cause : Nat) : State :=
  let u := (s.cores.map (fun e => e.1)).foldl (fun u p => u.restoreCore s.affected p) s
  { u with fr := { u.fr with killed := some cause, signals := [] } }

theorem kill_alive {s : State} (hphase : s.phase = 1) (halive : s.fr.killed = none) (cause p e u : Nat) :
    s.kill cause p e u = ((s.stopFrame cause).schedTrace 6).countKill cause p e u := by
  unfold State.kill
  rw [if_neg (by simp [hphase, halive])]
  rfl

theorem keeps_foldl_restoreCore (cs l : List Nat) (s : State) : Keeps 0x8000400 s (l.foldl (fun u p => u.restoreCore cs p) s) :=
  Keeps.foldl (Keeps.refl _ s) fun u _ => keeps_restoreCore (Keeps.refl _ u) rfl

theorem get_kills_stopFrame (s : State) (cause : Nat) : (s.stopFrame cause).get F.FLT_COUNTS_KILLS 0 = s.get F.FLT_COUNTS_KILLS 0 :=
  (keeps_foldl_restoreCore _ _ s).get (g := F.FLT_COUNTS_KILLS) (j := 0) rfl (by decide) rfl

theorem flt_stopFrame (s : State) (cause : Nat) : (s.stopFrame cause).flt = s.flt := (keeps_foldl_restoreCore _ _ s).same .flt rfl

theorem failed_stopFrame (s : State) (cause q : Nat) : ((s.stopFrame cause).core q).failed = (s.core q).failed := by
  refine foldl_keeps_value (fun u => (u.core q).failed) _ s fun u p _ => ?_
  rw [core_restoreCore]
  split
  · next hq => rw [hq]; rfl
  · rfl

/-- The EVENT of a kill (R400). -/
def State.tellKill (s : State) (cause p e : Nat) : State :=
  if decide (cause = 2 ∨ cause = 3 ∨ cause = 5) then s.event 0x0501 0 0 cause (p * 2 ^ 8 + e) else s.eventD0 0x0501 0 0 cause

/-- The time of a kill among those of the last second (R404). -/
def State.noteKill (s : State) (u : Nat) : State := { s with flt := { s.flt with kills := s.flt.kills ++ [s.now + u] } }

theorem countKill_eq (s : State) (cause p e u : Nat) : s.countKill cause p e u =
    (let v := ((s.bump F.FLT_COUNTS_KILLS 0 1).tellKill cause p e).noteKill u
     let w := v.rates (v.now + u)
     if 17 ≤ w.flt.kills.length then w.oosNext 1 else w) := rfl

/-- What events, the kills of the last second and a cause of OUT_OF_SERVICE leave alone is as the count leaves it. -/
theorem countKill_eq_bump {β : Type} (g : State → β) (hevent : ∀ u st k i d0 d1, g (State.event u st k i d0 d1) = g u)
    (hdrawn : ∀ u, g (State.drawn u) = g u) (hnote : ∀ u n, g (State.noteKill u n) = g u) (hrates : ∀ u n, g (State.rates u n) = g u)
    (hoos : ∀ u n, g (State.oosNext u n) = g u) (s : State) (cause p e u : Nat) :
    g (s.countKill cause p e u) = g (s.bump F.FLT_COUNTS_KILLS 0 1) := by
  have htell : ∀ v, g (State.tellKill v cause p e) = g v := fun v => by
    unfold State.tellKill
    split
    · exact hevent ..
    · exact (hevent v.drawn ..).trans (hdrawn v)
  rw [countKill_eq]
  dsimp only
  split
  · rw [hoos, hrates, hnote, htell]
  · rw [hrates, hnote, htell]

theorem get_kills_rates (s : State) (u : Nat) : (s.rates u).get F.FLT_COUNTS_KILLS 0 = s.get F.FLT_COUNTS_KILLS 0 :=
  (get_put_addr _ (by decide) _).trans ((get_put_addr _ (by decide) _).trans (get_congr rfl _ _))

theorem advanced_countKill (s : State) (cause p e u : Nat) : Advanced F.FLT_COUNTS_KILLS 0 1 s (s.countKill cause p e u) :=
  (advanced_bump rfl (by decide) 1 s).of_get_eq
    (countKill_eq_bump (fun v => v.get F.FLT_COUNTS_KILLS 0) (get_event (by decide)) (fun _ => rfl) (fun _ _ => rfl) get_kills_rates
      (fun _ _ => rfl) s cause p e u)

theorem resets_event (s : State) (st k i d0 d1 : Nat) : (s.event st k i d0 d1).flt.resets = s.flt.resets := by
  rw [event_eq_logEvent (fun u => u.flt.resets) (fun u _ _ => by rw [(keeps_toMgmt (Keeps.refl 0x401000080 u) rfl).same .flt rfl])
    (fun u _ _ => by rw [(keeps_toHost (Keeps.refl 0x401000080 u) rfl).same .flt rfl])]
  unfold State.logEvent
  split
  · rw [State.put_flt]
  · rw [State.bump_flt]

theorem resets_rates (s : State) (u : Nat) : (s.rates u).flt.resets = s.flt.resets := by
  unfold State.rates
  rw [State.put_flt, State.put_flt]

theorem resets_countKill (s : State) (cause p e u : Nat) : (s.countKill cause p e u).flt.resets = s.flt.resets := by
  rw [countKill_eq_bump (fun v => v.flt.resets) resets_event (fun _ => rfl) (fun _ _ => rfl) resets_rates (fun _ _ => rfl), State.bump_flt]

/-- What counting and tracing a kill leaves of the frame and of the cores. -/
theorem keeps_countKill_schedTrace (s : State) (cause p e u : Nat) : Keeps 0xD21000084 s ((s.schedTrace 6).countKill cause p e u) :=
  keeps_countKill (keeps_schedTrace (Keeps.refl _ s) rfl) rfl

section
variable {s : State} (hphase : s.phase = 1) (halive : s.fr.killed = none) (cause p e u : Nat)
include hphase halive

theorem fr_kill : (s.kill cause p e u).fr = (s.stopFrame cause).fr := by
  rw [kill_alive hphase halive]
  exact (keeps_countKill_schedTrace ..).same .fr rfl

theorem cores_kill : (s.kill cause p e u).cores = (s.stopFrame cause).cores := by
  rw [kill_alive hphase halive]
  exact (keeps_countKill_schedTrace ..).same .cores rfl

theorem coreRestored_kill (q : Nat) : CoreRestored s.affected (s.core q) ((s.kill cause p e u).core q) := by
  rw [State.core, State.core, cores_kill hphase halive]
  exact coreRestored_all s.affected s q

theorem failed_kill (q : Nat) : ((s.kill cause p e u).core q).failed = (s.core q).failed := by
  rw [State.core, cores_kill hphase halive]
  exact failed_stopFrame s cause q

theorem advanced_kill : Advanced F.FLT_COUNTS_KILLS 0 1 s (s.kill cause p e u) := by
  rw [kill_alive hphase halive]
  refine (advanced_countKill ((s.stopFrame cause).schedTrace 6) cause p e u).congr_left ?_
  exact ((keeps_schedTrace (Keeps.refl 0x900000000 _) rfl).get (g := F.FLT_COUNTS_KILLS) (j := 0) rfl (by decide) rfl).trans
    (get_kills_stopFrame s cause)

theorem resets_kill : (s.kill cause p e u).flt.resets = s.flt.resets := by
  rw [kill_alive hphase halive, resets_countKill,
    (keeps_schedTrace (Keeps.refl 0x900000000 (s.stopFrame cause)) rfl).same .flt rfl, flt_stopFrame]

end

theorem now_kill (s : State) (cause p e u : Nat) : (s.kill cause p e u).now = s.now :=
  (keeps_kill (Keeps.refl 0xD29800484 s) rfl).same .now rfl

/-- Settles O29: the kill of a frame whose work runs or waits, and the frame whose work is done. -/
theorem workDeadline : Obligations.WorkDeadline := by
  refine fun running s => ⟨fun hruns hphase halive => ?_, fun hrunning hwaits => ?_⟩
  · refine ⟨s.kill 1 0 0 (s.periodNs - 2000), congrArg Host.Outcome.next (if_pos hruns), ?_, ?_, advanced_kill hphase halive .., ?_⟩
    · rw [fr_kill hphase halive]; rfl
    · rw [fr_kill hphase halive]; rfl
    · exact restored_of_cores fun q => coreRestored_kill hphase halive ..
  · exact congrArg Host.Outcome.next (if_neg (by simp [hrunning, hwaits]))

/-! The reset of an engine (R391, R395). -/

/-- A core with an engine cleared. -/
def Core.clearEngine (x : Core) (e : Nat) : Core :=
  { x with waits := x.waits.filter (fun w => decide (w.1 ≠ waiterOf e)), engines := x.engines ++ [e] }

/-- The state in which the reset of an engine is in progress, before it clears the engine. -/
def State.noteReset (s : State) (p e u : Nat) : State :=
  { s with flt := { s.flt with resets := s.flt.resets.filter (fun r => !resetCovers (1, p, e) r.scope) ++ [⟨1, p, e, s.now + u, 0⟩] } }

theorem beginReset_engine {s : State} {p e : Nat} (hfree : s.flt.resets.any (fun r => resetCovers r.scope (1, p, e)) = false) (u : Nat) :
    s.beginReset 1 p e u false = ((s.noteReset p e u).clearEngine p e).showResets := by
  unfold State.beginReset
  simp only [hfree]
  rfl

theorem keeps_engineReset (s : State) (p e : Nat) : Keeps 0x8000404 s ((s.clearEngine p e).showResets) :=
  keeps_showResets (keeps_clearEngine (Keeps.refl _ s) rfl) rfl

theorem core_engineReset (s : State) (p e q : Nat) :
    ((s.clearEngine p e).showResets).core q = if q = p then (s.core p).clearEngine e else s.core q :=
  (core_put ..).trans ((core_put ..).trans (core_updCore ..))

theorem get_kills_engineReset (s : State) (p e : Nat) :
    ((s.clearEngine p e).showResets).get F.FLT_COUNTS_KILLS 0 = s.get F.FLT_COUNTS_KILLS 0 :=
  (get_put_addr _ (by decide) _).trans
    ((keeps_clearEngine (Keeps.refl 0x8000400 s) rfl).get (g := F.FLT_COUNTS_KILLS) (j := 0) rfl (by decide) rfl)

theorem CoreRestored.clearEngine {cs : List Nat} {x y : Core} (h : CoreRestored cs x y) (e : Nat) : CoreRestored cs x (y.clearEngine e) :=
  ⟨by rw [Core.clearEngine, h.1, List.filter_nil], h.2⟩

/-- What the fault of an engine makes of the frame, the core and the resets in progress. -/
def EngineHit (p e u : Nat) (s : State) (cause : Nat) (t : State) : Prop :=
  t.fr.killed = some cause ∧ t.fr.signals = [] ∧ Advanced F.FLT_COUNTS_KILLS 0 1 s t ∧
    e ∈ (t.core p).engines ∧ Restored s t ∧ ⟨1, p, e, s.now + u, 0⟩ ∈ t.flt.resets

section
variable {p e u : Nat} {s : State} (hphase : s.phase = 1) (halive : s.fr.killed = none)
  (hfree : s.flt.resets.any (fun r => resetCovers r.scope (1, p, e)) = false) (cause : Nat)
include hphase halive hfree

theorem engineFault_eq : s.engineFault cause p e u =
    (((s.kill cause p e u).noteReset p e u).clearEngine p e).showResets := by
  rw [State.engineFault, beginReset_engine]
  rw [resets_kill hphase halive]
  exact hfree

theorem core_engineFault (q : Nat) : (s.engineFault cause p e u).core q =
    if q = p then ((s.kill cause p e u).core p).clearEngine e else (s.kill cause p e u).core q := by
  rw [engineFault_eq hphase halive hfree, core_engineReset]
  rfl

theorem failed_engineFault : ((s.engineFault cause p e u).core p).failed = (s.core p).failed := by
  rw [core_engineFault hphase halive hfree, if_pos rfl]
  exact failed_kill hphase halive cause p e u p

theorem coreRestored_engineFault (q : Nat) : CoreRestored s.affected (s.core q) ((s.engineFault cause p e u).core q) := by
  rw [core_engineFault hphase halive hfree]
  split
  · next hq =>
    subst hq
    exact (coreRestored_kill hphase halive cause q e u q).clearEngine e
  · exact coreRestored_kill hphase halive cause p e u q

theorem fr_engineFault : (s.engineFault cause p e u).fr = (s.stopFrame cause).fr := by
  rw [engineFault_eq hphase halive hfree, (keeps_engineReset _ p e).same .fr rfl]
  exact fr_kill hphase halive cause p e u

theorem engineFault_hits : EngineHit p e u s cause (s.engineFault cause p e u) := by
  refine ⟨?_, ?_, ?_, ?_, restored_of_cores (coreRestored_engineFault hphase halive hfree cause), ?_⟩
  · rw [fr_engineFault hphase halive hfree]; rfl
  · rw [fr_engineFault hphase halive hfree]; rfl
  · rw [engineFault_eq hphase halive hfree]
    exact (advanced_kill hphase halive cause p e u).of_get_eq (get_kills_engineReset ((s.kill cause p e u).noteReset p e u) p e)
  · rw [core_engineFault hphase halive hfree, if_pos rfl]
    exact List.mem_append_right _ (List.mem_singleton_self e)
  · rw [engineFault_eq hphase halive hfree, (keeps_engineReset _ p e).same .flt rfl, ← now_kill s cause p e u]
    exact List.mem_append_right _ (List.mem_singleton_self _)

/-- An error that comes again counts as a failed test besides (R216, R409). -/
theorem failTest_hits : EngineHit p e u s cause ((s.engineFault cause p e u).failTest p) ∧
    (((s.engineFault cause p e u).failTest p).core p).failed = (s.core p).failed ++ [s.now] := by
  obtain ⟨hkilled, hsignals, hkills, hengine, -, hreset⟩ := engineFault_hits (u := u) hphase halive hfree cause
  have hfailed := failed_engineFault (u := u) hphase halive hfree cause
  have hcores := coreRestored_engineFault (u := u) hphase halive hfree cause
  have hnow : (s.engineFault cause p e u).now = s.now := by
    rw [engineFault_eq hphase halive hfree, (keeps_engineReset _ p e).same .now rfl]
    exact now_kill s cause p e u
  generalize s.engineFault cause p e u = v at *
  have hkept := keeps_failTest (Keeps.refl 0x8000400 v) rfl (a1 := p)
  have hcore : ∀ q, (v.failTest p).core q = if q = p then { v.core p with failed := (v.core p).failed ++ [v.now] } else v.core q :=
    fun q => (core_put ..).trans (core_updCore ..)
  refine ⟨⟨?_, ?_, ?_, ?_, restored_of_cores fun q => ?_, ?_⟩, ?_⟩
  · rw [hkept.same .fr rfl, hkilled]
  · rw [hkept.same .fr rfl, hsignals]
  · exact hkills.of_get_eq (hkept.get (g := F.FLT_COUNTS_KILLS) (j := 0) rfl (by decide) rfl)
  · rw [hcore, if_pos rfl]
    exact hengine
  · rw [hcore]
    split
    · next hq =>
      subst hq
      exact hcores q
    · exact hcores q
  · rw [hkept.same .flt rfl]
    exact hreset
  · rw [hcore, if_pos rfl, hfailed, hnow]

end

/-- Settles O31: each watchdog and each error is the fault of its engine. -/
theorem engineFaults : Obligations.EngineFaults := by
  intro p e u s hphase halive hfree
  have hhit := engineFault_hits (u := u) hphase halive hfree
  refine ⟨⟨_, rfl, hhit 2⟩, ?_, ?_, ⟨_, rfl, hhit 3⟩, ⟨_, rfl, failTest_hits hphase halive hfree 3⟩⟩
  · rintro rfl
    exact ⟨_, rfl, hhit 2⟩
  · rintro b rfl
    exact ⟨_, rfl, hhit 2⟩

end Sys2Proof.Machine
end

section
/-! The registers of the units after reset (R115, R556). -/
namespace Sys2Proof.Machine

/-- A row of the batts' block holds the words at its own place in each batt's registers, and no others. -/
theorem RegRow.holds_batt {r : RegRow} (hr : r ∈ rowsBatt) {a b : Nat} (ha : 0x200000 ≤ a ∧ a < 0x200040) (hb : b < 1536) :
    r.holds (a + 0x40 * b) = decide (r.base = a) := by
  have hrows : ∀ r ∈ rowsBatt, r.stride = 0x40 ∧ r.count = 1536 ∧ 0x200000 ≤ r.base ∧ r.base < 0x200040 := by decide
  obtain ⟨hstride, hcount, hlow, hhigh⟩ := hrows r hr
  rw [RegRow.holds, hstride, hcount, ← Bool.decide_and, ← Bool.decide_and, decide_eq_decide]
  omega

theorem rowAt_batt {a b : Nat} (ha : 0x200000 ≤ a ∧ a < 0x200040) (hb : b < 1536) :
    rowAt (a + 0x40 * b) = rowsBatt.find? (fun r => decide (r.base = a)) := by
  have hrows : rowsAt (a + 0x40 * b) = rowsBatt := by
    unfold rowsAt
    iterate 12 rw [if_neg (by omega)]
    rw [if_pos (by omega)]
  rw [rowAt, hrows]
  exact List.find?_congr fun r hr => RegRow.holds_batt hr ha hb

/-- Every batt's registers have the reset words of batt 0. -/
theorem resetWord_batt {a b : Nat} (ha : 0x200000 ≤ a ∧ a < 0x200040) (hb : b < 1536) : resetWord (a + 0x40 * b) = resetWord a := by
  have hrow : rowAt (a + 0x40 * b) = rowAt a := (rowAt_batt ha hb).trans (rowAt_batt ha (by decide : 0 < 1536)).symm
  have hbase : ∀ r, rowAt a = some r → r.base ≠ 0x100010 := fun r hr => by
    rw [show a = a + 0x40 * 0 from rfl, rowAt_batt ha (by decide)] at hr
    have := List.find?_some hr
    simp only [decide_eq_true_eq] at this
    omega
  unfold resetWord
  rw [hrow]
  split
  · rfl
  · next r hr => rw [if_neg (hbase r hr), if_neg (hbase r hr)]

theorem get_reset_batt {f : Fld} {v : Nat} (hbase : 0x200000 ≤ f.base ∧ f.base < 0x200040) (hstride : f.stride = 0x40)
    (hv : f.of (resetWord f.base) = v) {b : Nat} (hb : b < 1536) : State.reset.get f b = v := by
  rw [← hv, ← resetWord_batt hbase hb, ← hstride]
  rfl

/-- Readers see the registers' reset words. -/
theorem seen_reset (f : Fld) (i : Nat) : State.reset.seen f i = State.reset.get f i := rfl

/-- Settles O2: empty tables are canonical, and the words of every batt are those of batt 0. -/
theorem resetRegisters : Obligations.ResetRegisters := by
  refine ⟨⟨rfl, rfl, rfl, rfl, rfl, rfl⟩, rfl, rfl, fun b hb => ?_⟩
  iterate 14 refine ⟨get_reset_batt (by decide) rfl (by decide) hb, ?_⟩
  exact ⟨(seen_reset ..).trans (get_reset_batt (by decide) rfl (by decide) hb), by decide, by decide⟩

end Sys2Proof.Machine
end

section
/-! Forward passes of the batts (R86 to R101, R178 to R186, R246): a pass stage by stage, and what each stage leaves. -/
namespace Sys2Proof.Machine

/-- Two fields stand at different words of one array of register banks. -/
def Fld.otherWord (f g : Fld) : Bool := decide (g.stride = f.stride) && decide (g.base ≠ f.base)

theorem addr_ne_addr {f g : Fld} (h : f.otherWord g = true) (i : Nat) : g.addr i ≠ f.addr i := by
  simp only [Fld.otherWord, Bool.and_eq_true, decide_eq_true_eq] at h
  rw [Fld.addr, Fld.addr, h.1]
  exact fun haddr => h.2 (Nat.add_right_cancel haddr)

/-- An operation that is left out keeps what it would keep. -/
theorem ite_keeps_value {β : Type} (g : State → β) {s t : State} (h : g t = g s) (p : Prop) [Decidable p] : g (if p then t else s) = g s := by
  split
  · exact h
  · rfl

theorem get_ite_keeps {g : Fld} {i : Nat} {s t : State} (h : t.get g i = s.get g i) (p : Prop) [Decidable p] :
    (if p then t else s).get g i = s.get g i := ite_keeps_value (fun u => u.get g i) h p

theorem get_bump_otherWord (s : State) {f g : Fld} (h : f.otherWord g = true) (i n : Nat) :
    (s.bump f i n).get g i = s.get g i := get_put_addr s (addr_ne_addr h i) _

theorem get_raise_otherWord (s : State) {f g : Fld} (h : f.otherWord g = true) (i : Nat) :
    (s.raise f i).get g i = s.get g i := (get_raise ..).trans (get_put_addr s (addr_ne_addr h i) _)

theorem batt_congr {s t : State} (h : t.batts = s.batts) (b : Nat) : t.batt b = s.batt b := congrArg (fun m => tget Batt.empty m b) h

theorem layer_congr_ctxs {s t : State} (h : t.ctxs = s.ctxs) (c l : Nat) : t.layer c l = s.layer c l :=
  layer_congr (congrArg (fun m => tget Ctx.empty m c) h) l

/-! Tiles that climb in a substituted stage. -/

theorem ovf_notMem_eventWords (c : Nat) : F.BAND_OVF_OVF.addr c ∉ eventWords := by
  simp only [eventWords, Fld.addr, F.BAND_OVF_OVF, F.FLT_LOG_NEXT, F.ETH_TX_LOST_STREAMS, List.mem_cons, List.not_mem_nil, or_false]
  omega

theorem passes_escMap (s : State) (c l tile from_ rung : Nat) : ((s.escMap c l tile from_ rung).layer c l).passes = (s.layer c l).passes := by
  rw [State.escMap, layer_updLayer, if_pos rfl]
  split
  · rfl
  · rfl

/-- An escalation notes the climb in the layer's map, counts it, and reports the first of a window. -/
theorem escalate_keeps_value {β : Type} (g : State → β) (c l : Nat) (hmap : ∀ u tile from_ rung, g (State.escMap u c l tile from_ rung) = g u)
    (hbump : ∀ u, g (State.bump u F.NUM_ESC_ESCALATIONS c 1) = g u) (hescalated : ∀ u, g (State.raise u F.NUM_EVT_ESCALATED c) = g u)
    (htop : ∀ u, g (State.raise u F.NUM_EVT_TOP_RUNG c) = g u) (hevent : ∀ u, g (State.eventOpen u 0x0601 6 c) = g u)
    (hsent : ∀ u, g (State.updCtx u c (fun x => { x with escSent := true })) = g u) (s : State) (tile from_ rung : Nat) :
    g (s.escalate c l tile from_ rung) = g s := by
  unfold State.escalate
  extract_lets first u v
  have hu : g u = g s := (hescalated _).trans ((hbump _).trans (hmap ..))
  have hv : g v = g u := ite_keeps_value g (htop u) _
  split
  · exact (hsent _).trans ((hevent v).trans (hv.trans hu))
  · exact hv.trans hu

theorem passes_escalate (s : State) (c l tile from_ rung : Nat) :
    ((s.escalate c l tile from_ rung).layer c l).passes = (s.layer c l).passes := by
  have hctxs : ∀ {u v : State}, v.ctxs = u.ctxs → (v.layer c l).passes = (u.layer c l).passes := fun h =>
    congrArg LayerSt.passes (layer_congr_ctxs h c l)
  refine escalate_keeps_value (fun u => (u.layer c l).passes) c l (fun u => passes_escMap u c l) (fun u => hctxs (State.bump_ctxs ..))
    (fun u => hctxs (State.raise_ctxs ..)) (fun u => hctxs (State.raise_ctxs ..))
    (fun u => hctxs ((keeps_eventOpen (Keeps.refl 0xC21000084 u) rfl).same .ctxs rfl)) (fun u => ?_) s tile from_ rung
  simp only [State.layer, ctx_updCtx_same]

theorem get_ovf_escalate (s : State) (c l tile from_ rung : Nat) :
    (s.escalate c l tile from_ rung).get F.BAND_OVF_OVF c = s.get F.BAND_OVF_OVF c :=
  escalate_keeps_value (fun u => u.get F.BAND_OVF_OVF c) c l (fun _ _ _ _ => get_congr rfl _ _) (fun u => get_bump_otherWord u rfl c 1)
    (fun u => get_raise_otherWord u rfl c) (fun u => get_raise_otherWord u rfl c)
    (fun u => get_eventOpen (ovf_notMem_eventWords c) u ..) (fun _ => get_congr rfl _ _) s tile from_ rung

/-! The stages of a pass. -/

/-- The input of a pass, staged. -/
def State.passStaged (s : State) (b c l : Nat) (y : Layer) (o : BattPass) : Staged :=
  stage (s.layerSeen c l).sx s.freeCtr (s.bandRows b c l) (o.xs.take y.rows)

/-- A substituted stage drives no codes, so it has no candidates (R178, R185). -/
def Staged.inMode (g : Staged) (mode : Nat) : Staged := if mode = 2 then { g with cands := [], clamped := 0 } else g

/-- A pass as it begins: tiles that climb are noted, its charge is settled and its start traced. -/
def State.passBegun (s : State) (b c l : Nat) (y : Layer) (g : Staged) (groups : List (List Nat)) (mode : Nat) (o : BattPass) : State :=
  let u := if mode = 2 then (s.subClimbs c l y o.xs).foldl (fun s e => s.escalate c l e.1 5 e.2) s else s
  ((u.settlePass b c l y g groups mode o).skipDraws 1024).trace (b / 8) (8 + b % 8) 1 c

/-- A pass on the batt counts its row groups. -/
def State.passCounted (s : State) (b : Nat) (y : Layer) (groups : List (List Nat)) (mode : Nat) (o : BattPass) : State :=
  if mode = 0 then (s.countPass b y groups o).updBatt b (fun x => { x with ran := true }) else s

/-- A forward saves its input (R246). -/
def State.passSaved (s : State) (g : Staged) (mode : Nat) (o : BattPass) : State :=
  match o.save with
  | some a => if o.recompute ∨ mode = 2 then s else s.setBytes a (State.savedInput g o.xs)
  | none => s

/-- Clamped candidates count against the context and mark the query's result (R184). -/
def State.passClamped (s : State) (c : Nat) (g : Staged) (o : BattPass) : State :=
  let u := if g.clamped = 0 ∨ o.recompute = true then s else s.bump F.BAND_OVF_OVF c g.clamped
  match o.query with
  | some n => if g.clamped = 0 then u else u.markClamped n
  | none => u

/-- A pass before it saves its input. -/
def State.passDriven (s : State) (b c l : Nat) (y : Layer) (o : BattPass) : State :=
  let g := s.passStaged b c l y o
  let mode := s.stageMode c l b
  let groups := rowGroups y.splitting g.codes
  (s.passBegun b c l y (g.inMode mode) groups mode o).passCounted b y groups mode o

/-- A pass up to its outputs. -/
def State.passRun (s : State) (b c l : Nat) (y : Layer) (o : BattPass) : State :=
  let mode := s.stageMode c l b
  let g := (s.passStaged b c l y o).inMode mode
  let groups := rowGroups y.splitting (s.passStaged b c l y o).codes
  let beyond := decide (mode = 0) && o.query.isSome && decide (s.subpasses c l y < groups.length)
  (((s.passDriven b c l y o).passSaved g mode o).layerPass c l g o beyond).passClamped c g o

/-- The outputs of a pass by logical column. -/
def State.passOuts (s : State) (b c l : Nat) (y : Layer) (o : BattPass) : List (Nat × Bool) :=
  s.stageOuts b c l y (s.layerSeen c l).sx (s.passStaged b c l y o) o

theorem Staged.inMode_of_ne (g : Staged) {mode : Nat} (h : mode ≠ 2) : g.inMode mode = g := if_neg h

theorem Staged.clamped_inMode (g : Staged) (mode : Nat) : (g.inMode mode).clamped = if mode = 2 then 0 else g.clamped :=
  apply_ite Staged.clamped ..

/-- The outputs of a substituted stage do not depend on the codes. -/
theorem stageOuts_inMode (s : State) (b c l : Nat) (y : Layer) (sx : Int) (g : Staged) (o : BattPass) :
    s.stageOuts b c l y sx (g.inMode (s.stageMode c l b)) o = s.stageOuts b c l y sx g o := by
  by_cases h : s.stageMode c l b = 2
  · simp only [State.stageOuts, h]
  · rw [Staged.inMode_of_ne g h]

/-- A pass ends with its outputs and the trace of its end. -/
theorem passOn_eq (s : State) (b c l : Nat) (y : Layer) (o : BattPass) : s.passOn b c l y o =
    ((s.passRun b c l y o).writeOuts b (s.passOuts b c l y o)).trace (b / 8) (8 + b % 8) 2 c := by
  rw [State.passOuts, ← stageOuts_inMode]
  rfl

/-! What the stages leave. -/

theorem keeps_passBegun (s : State) (b c l : Nat) (y : Layer) (g : Staged) (groups : List (List Nat)) (mode : Nat) (o : BattPass) :
    Keeps 0xD23842084 s (s.passBegun b c l y g groups mode o) :=
  keeps_trace (keeps_skipDraws (keeps_settlePass (Keeps.ite (Keeps.foldl (Keeps.refl _ s) fun u _ => keeps_escalate (Keeps.refl _ u) rfl)
    (Keeps.refl _ s)) rfl) rfl) rfl

/-- What neither escalations nor settled charges and traces change is as it was before the pass. -/
theorem passBegun_keeps_value {β : Type} (g : State → β) (c l : Nat)
    (hesc : ∀ u tile from_ rung, g (State.escalate u c l tile from_ rung) = g u)
    (hrest : ∀ u v, Keeps 0x900800000 u v → g v = g u) (s : State) (b : Nat) (y : Layer) (x : Staged) (groups : List (List Nat))
    (mode : Nat) (o : BattPass) : g (s.passBegun b c l y x groups mode o) = g s := by
  unfold State.passBegun
  extract_lets u
  have hu : g u = g s := ite_keeps_value g (foldl_keeps_value g _ s fun v e _ => hesc v e.1 5 e.2) _
  exact (hrest u _ (keeps_trace (keeps_skipDraws (keeps_settlePass (Keeps.refl _ u) rfl) rfl) rfl)).trans hu

theorem keeps_passCounted (s : State) (b : Nat) (y : Layer) (groups : List (List Nat)) (mode : Nat) (o : BattPass) :
    Keeps 0x4041000 s (s.passCounted b y groups mode o) :=
  Keeps.ite (keeps_updBatt (keeps_countPass (Keeps.refl _ s) rfl) rfl) (Keeps.refl _ s)

theorem keeps_passSaved (s : State) (g : Staged) (mode : Nat) (o : BattPass) : Keeps 0x100000 s (s.passSaved g mode o) := by
  unfold State.passSaved
  split
  · exact Keeps.ite (Keeps.refl _ s) ((Keeps.refl _ s).setBytes rfl)
  · exact Keeps.refl _ s

theorem keeps_passClamped (s : State) (c : Nat) (g : Staged) (o : BattPass) : Keeps 0x802000 s (s.passClamped c g o) := by
  unfold State.passClamped
  extract_lets u
  have hu : Keeps 0x802000 s u := Keeps.ite (Keeps.refl _ s) ((Keeps.refl _ s).bump rfl rfl)
  split
  · exact Keeps.ite hu (keeps_markClamped hu rfl)
  · exact hu

/-- Of the counters of a pass, those that share no word with PASSES leave it. -/
theorem advanced_passes_countPass (s : State) {b : Nat} (hb : b < 1536) (y : Layer) (groups : List (List Nat)) (o : BattPass) :
    Advanced F.BATT_PASSES_PASSES b (max 1 groups.length) s (s.countPass b y groups o) := by
  unfold State.countPass
  extract_lets u v w clipped x
  have hu : Advanced F.BATT_PASSES_PASSES b (max 1 groups.length) s u := advanced_bump rfl hb _ s
  have hv : v.get F.BATT_PASSES_PASSES b = u.get F.BATT_PASSES_PASSES b := get_ite_keeps (get_bump_otherWord u rfl b 1) _
  have hw : w.get F.BATT_PASSES_PASSES b = v.get F.BATT_PASSES_PASSES b := get_ite_keeps (get_bump_otherWord v rfl b 1) _
  have hx : x.get F.BATT_PASSES_PASSES b = w.get F.BATT_PASSES_PASSES b :=
    get_ite_keeps ((get_raise_otherWord _ rfl b).trans (get_bump_otherWord w rfl b 1)) _
  exact hu.of_get_eq ((get_ite_keeps (get_raise_otherWord x rfl b) _).trans (hx.trans (hw.trans hv)))

/-! Outputs. -/

/-- Where the batt's output buffer of the present parity begins (R211). -/
def State.outBuffer (s : State) (b : Nat) : Nat :=
  accAddr (b / 8) (0x20000 + b % 8 * 0x1000 + (if (s.batt b).outParity then 1 else 0) * 0x800)

/-- The outputs stand in the buffer in turn, which then turns; clamps count in words of their own. -/
theorem writeOuts_keeps_value {β : Type} (g : State → β) (b : Nat) (hbump : ∀ u n, g (State.bump u F.BATT_FAULTS_BATT_I16_CLAMPS b n) = g u)
    (hraise : ∀ u, g (State.raise u F.BATT_EVT_I16_CLAMP b) = g u) (s : State) (outs : List (Nat × Bool)) :
    g (s.writeOuts b outs) = g ((s.setBytes (s.outBuffer b) (outs.flatMap (fun v => leBytes 2 v.1))).updBatt b
      (fun x => { x with outParity := !x.outParity })) := by
  unfold State.writeOuts
  extract_lets u v n w
  split
  · rfl
  · exact (hraise _).trans (hbump w n)

theorem stored_writeOuts (s : State) (b : Nat) (outs : List (Nat × Bool)) :
    Stored (s.outBuffer b) (outs.flatMap (fun v => leBytes 2 v.1)) s (s.writeOuts b outs) := fun a =>
  (writeOuts_keeps_value (fun u => u.byte a) b (fun _ _ => byte_put ..) (fun _ => byte_congr (State.raise_mem ..) a) s outs).trans
    (byte_setBytes ..)

theorem batt_writeOuts (s : State) (b : Nat) (outs : List (Nat × Bool)) :
    (s.writeOuts b outs).batt b = { s.batt b with outParity := !(s.batt b).outParity } := by
  rw [writeOuts_keeps_value (fun u => u.batt b) b (fun _ _ => batt_put ..) (fun _ => batt_congr (State.raise_batts ..) b),
    batt_updBatt_same, setBytes_eq]
  rfl

theorem get_passes_writeOuts (s : State) (b : Nat) (outs : List (Nat × Bool)) :
    (s.writeOuts b outs).get F.BATT_PASSES_PASSES b = s.get F.BATT_PASSES_PASSES b := by
  rw [writeOuts_keeps_value (fun u => u.get F.BATT_PASSES_PASSES b) b (fun u n => get_bump_otherWord u rfl b n)
    (fun u => get_raise_otherWord u rfl b), setBytes_eq]
  rfl

/-! The pass up to its outputs. -/

theorem Stored.congr {a : Nat} {d : List Byte} {s u t v : State} (h : Stored a d s t) (hs : ∀ b, s.byte b = u.byte b)
    (ht : ∀ b, v.byte b = t.byte b) : Stored a d u v := fun b => by
  rw [ht, h, hs]

theorem stored_passSaved {o : BattPass} {a : Nat} (hsave : o.save = some a) {mode : Nat} (hkeep : ¬(o.recompute ∨ mode = 2))
    (s : State) (g : Staged) : Stored a (State.savedInput g o.xs) s (s.passSaved g mode o) := by
  have heq : s.passSaved g mode o = s.setBytes a (State.savedInput g o.xs) := by
    rw [State.passSaved, hsave]
    exact if_neg hkeep
  rw [heq]
  exact stored_setBytes a _ s

theorem passSaved_eq_self {o : BattPass} {mode : Nat} (h : o.save = none ∨ o.recompute ∨ mode = 2) (s : State) (g : Staged) :
    s.passSaved g mode o = s := by
  unfold State.passSaved
  split
  · next hsave => exact if_pos (h.resolve_left (by simp [hsave]))
  · rfl

theorem advanced_ovf_passClamped {c : Nat} (hc : c < 1024) {o : BattPass} (hfirst : o.recompute = false) (s : State) (g : Staged) :
    Advanced F.BAND_OVF_OVF c g.clamped s (s.passClamped c g o) := by
  unfold State.passClamped
  extract_lets u
  have hu : Advanced F.BAND_OVF_OVF c g.clamped s u := by
    by_cases h : g.clamped = 0
    · rw [show u = s from if_pos (.inl h), h]
      exact Advanced.refl ..
    · rw [show u = s.bump F.BAND_OVF_OVF c g.clamped from if_neg (by simp [h, hfirst])]
      exact advanced_bump rfl hc _ s
  split
  · split
    · exact hu
    · exact hu.of_get_eq (get_congr rfl _ _)
  · exact hu

theorem passes_layerPass (s : State) (c l : Nat) (g : Staged) (o : BattPass) (beyond : Bool) :
    ((s.layerPass c l g o beyond).layer c l).passes = (s.layer c l).passes + 1 := by
  rw [State.layerPass, layer_updLayer, if_pos rfl]

section
variable (s : State) (b c l : Nat) (y : Layer) (o : BattPass)

theorem keeps_passDriven : Keeps 0xD27843084 s (s.passDriven b c l y o) :=
  ((keeps_passBegun ..).mono rfl).step (keeps_passCounted ..) rfl

/-- After it has saved its input a pass counts in its layer and its context. -/
theorem keeps_passRun_passSaved : Keeps 0x2802000
    ((s.passDriven b c l y o).passSaved ((s.passStaged b c l y o).inMode (s.stageMode c l b)) (s.stageMode c l b) o) (s.passRun b c l y o) :=
  (keeps_layerPass (Keeps.refl _ _) rfl).step (keeps_passClamped ..) rfl

/-- A pass up to its outputs, but for what it saves. -/
theorem keeps_passRun_passDriven : Keeps 0x2902000 (s.passDriven b c l y o) (s.passRun b c l y o) :=
  ((keeps_passSaved ..).mono rfl).step (keeps_passRun_passSaved ..) rfl

theorem stored_passRun {a : Nat} (hsave : o.save = some a) (hkeep : ¬(o.recompute ∨ s.stageMode c l b = 2)) :
    Stored a (State.savedInput (s.passStaged b c l y o) o.xs) s (s.passRun b c l y o) := by
  have hmode : s.stageMode c l b ≠ 2 := fun h => hkeep (.inr h)
  have hafter := keeps_passRun_passSaved s b c l y o
  rw [Staged.inMode_of_ne _ hmode] at hafter
  exact (stored_passSaved hsave hkeep _ _).congr ((keeps_passDriven ..).same .mem rfl) (hafter.same .mem rfl)

theorem byte_passRun (h : o.save = none ∨ o.recompute ∨ s.stageMode c l b = 2) (a : Nat) : (s.passRun b c l y o).byte a = s.byte a := by
  have hafter := keeps_passRun_passSaved s b c l y o
  rw [passSaved_eq_self h] at hafter
  exact (hafter.same .mem rfl a).trans ((keeps_passDriven ..).same .mem rfl a)

theorem batt_passRun (d : Nat) : (s.passRun b c l y o).batt d = (s.passDriven b c l y o).batt d :=
  batt_congr ((keeps_passRun_passDriven ..).same .batts rfl) d

theorem batt_passBegun (g : Staged) (groups : List (List Nat)) (mode d : Nat) : (s.passBegun b c l y g groups mode o).batt d = s.batt d :=
  batt_congr ((keeps_passBegun ..).same .batts rfl) d

theorem batt_passCounted (groups : List (List Nat)) (mode : Nat) :
    (s.passCounted b y groups mode o).batt b = if mode = 0 then { s.batt b with ran := true } else s.batt b := by
  unfold State.passCounted
  split
  · rw [batt_updBatt_same, batt_congr ((keeps_countPass (Keeps.refl 0x41000 s) rfl).same .batts rfl)]
  · rfl

theorem outParity_passRun : ((s.passRun b c l y o).batt b).outParity = (s.batt b).outParity := by
  rw [batt_passRun, State.passDriven, batt_passCounted, batt_passBegun]
  split
  · rfl
  · rfl

theorem ran_passRun (hmode : s.stageMode c l b = 0) : ((s.passRun b c l y o).batt b).ran = true := by
  rw [batt_passRun, State.passDriven, batt_passCounted, if_pos hmode]

theorem advanced_passes_passRun (hb : b < 1536) (hmode : s.stageMode c l b = 0) :
    Advanced F.BATT_PASSES_PASSES b (max 1 (rowGroups y.splitting (s.passStaged b c l y o).codes).length) s (s.passRun b c l y o) := by
  refine Advanced.of_get_eq (u := s.passDriven b c l y o) ?_ ((keeps_passRun_passDriven ..).get rfl hb rfl)
  rw [State.passDriven, State.passCounted, if_pos hmode]
  exact ((advanced_passes_countPass _ hb ..).of_get_eq rfl).congr_left ((keeps_passBegun ..).get rfl hb rfl)

theorem get_ovf_passDriven (hc : c < 1024) : (s.passDriven b c l y o).get F.BAND_OVF_OVF c = s.get F.BAND_OVF_OVF c :=
  ((keeps_passCounted ..).get rfl hc rfl).trans
    (passBegun_keeps_value (fun u => u.get F.BAND_OVF_OVF c) c l (fun u => get_ovf_escalate u c l) (fun _ _ h => h.get rfl hc rfl) ..)

theorem advanced_ovf_passRun (hc : c < 1024) (hfirst : o.recompute = false) :
    Advanced F.BAND_OVF_OVF c (if s.stageMode c l b = 2 then 0 else (s.passStaged b c l y o).clamped) s (s.passRun b c l y o) := by
  rw [← Staged.clamped_inMode]
  refine (advanced_ovf_passClamped hc hfirst _ _).congr_left ?_
  exact ((keeps_layerPass (Keeps.refl 0x2000000 _) rfl).get rfl hc rfl).trans
    (((keeps_passSaved ..).get rfl hc rfl).trans (get_ovf_passDriven s b c l y o hc))

theorem passes_passDriven : ((s.passDriven b c l y o).layer c l).passes = (s.layer c l).passes := by
  refine Eq.trans (congrArg LayerSt.passes (layer_congr_ctxs ((keeps_passCounted ..).same .ctxs rfl) c l)) ?_
  exact passBegun_keeps_value (fun u => (u.layer c l).passes) c l (fun u => passes_escalate u c l)
    (fun _ _ h => congrArg LayerSt.passes (layer_congr_ctxs (h.same .ctxs rfl) c l)) ..

theorem passes_passRun : ((s.passRun b c l y o).layer c l).passes = (s.layer c l).passes + 1 := by
  refine Eq.trans (congrArg LayerSt.passes (layer_congr_ctxs ((keeps_passClamped ..).same .ctxs rfl) c l)) ?_
  rw [passes_layerPass, layer_congr_ctxs ((keeps_passSaved ..).same .ctxs rfl)]
  exact congrArg (· + 1) (passes_passDriven s b c l y o)

/-! The whole pass. -/

theorem keeps_passOn_writeOuts : Keeps 0x900000000 ((s.passRun b c l y o).writeOuts b (s.passOuts b c l y o)) (s.passOn b c l y o) := by
  rw [passOn_eq]
  exact keeps_trace (Keeps.refl _ _) rfl

theorem keeps_passOn_passRun : Keeps 0x904141000 (s.passRun b c l y o) (s.passOn b c l y o) :=
  (keeps_writeOuts (Keeps.refl _ _) rfl).step (keeps_passOn_writeOuts ..) rfl

theorem stored_passOn : Stored (s.outBuffer b)
    ((s.passOuts b c l y o).flatMap (fun v => leBytes 2 v.1)) (s.passRun b c l y o) (s.passOn b c l y o) := by
  rw [State.outBuffer, ← outParity_passRun s b c l y o]
  exact Stored.congr (stored_writeOuts _ b _) (fun _ => rfl) ((keeps_passOn_writeOuts ..).same .mem rfl)

theorem batt_passOn : (s.passOn b c l y o).batt b =
    { (s.passRun b c l y o).batt b with outParity := !((s.passRun b c l y o).batt b).outParity } := by
  rw [← batt_writeOuts, batt_congr ((keeps_passOn_writeOuts ..).same .batts rfl)]

theorem outParity_passOn : ((s.passOn b c l y o).batt b).outParity = !(s.batt b).outParity := by
  rw [batt_passOn, outParity_passRun]

theorem ran_passOn (hmode : s.stageMode c l b = 0) : ((s.passOn b c l y o).batt b).ran = true := by
  rw [batt_passOn]
  exact ran_passRun s b c l y o hmode

theorem advanced_passes_passOn (hb : b < 1536) (hmode : s.stageMode c l b = 0) :
    Advanced F.BATT_PASSES_PASSES b (max 1 (rowGroups y.splitting (s.passStaged b c l y o).codes).length) s (s.passOn b c l y o) :=
  (advanced_passes_passRun s b c l y o hb hmode).of_get_eq
    (((keeps_passOn_writeOuts ..).get rfl hb rfl).trans (get_passes_writeOuts ..))

theorem advanced_ovf_passOn (hc : c < 1024) (hfirst : o.recompute = false) :
    Advanced F.BAND_OVF_OVF c (if s.stageMode c l b = 2 then 0 else (s.passStaged b c l y o).clamped) s (s.passOn b c l y o) :=
  (advanced_ovf_passRun s b c l y o hc hfirst).of_get_eq ((keeps_passOn_passRun ..).get rfl hc rfl)

theorem passes_passOn : ((s.passOn b c l y o).layer c l).passes = (s.layer c l).passes + 1 := by
  rw [layer_congr_ctxs ((keeps_passOn_passRun ..).same .ctxs rfl), passes_passRun]

end

theorem execBattPass_runs {o : BattPass} {s : State} {c l : Nat} {y : Layer} (hlayer : s.battLayer o.batt = some (c, l, y))
    (hrun : s.mayRun (o.batt / 8) (8 + o.batt % 8) = true) (hl : l = o.layer) (hserves : s.serves c l o.batt = true)
    (hclass : o.query.isSome ∨ s.stageMode c l o.batt ≠ 1) : exec (.battPass o) s = .next (s.passOn o.batt c l y o) := by
  refine congrArg Host.Outcome.next ?_
  rw [hlayer]
  exact if_pos ⟨hrun, hl, hserves, hclass⟩

/-- Settles O21: the pass up to its outputs, the outputs, and the trace of its end. -/
theorem forwardPass : Obligations.ForwardPass := by
  intro o s c l y hlayer hb hc hrun hl hserves hclass
  refine ⟨_, execBattPass_runs hlayer hrun hl hserves hclass, ⟨s.passRun o.batt c l y o, ?_, stored_passOn s o.batt c l y o⟩,
    outParity_passOn s o.batt c l y o, fun hmode => ⟨advanced_passes_passOn s o.batt c l y o hb hmode, ran_passOn s o.batt c l y o hmode⟩,
    advanced_ovf_passOn s o.batt c l y o hc, passes_passOn s o.batt c l y o⟩
  split
  · next a hsave =>
    split
    · next hskip => exact byte_passRun s o.batt c l y o (.inr hskip)
    · next hkeep => exact stored_passRun s o.batt c l y o hsave hkeep
  · next hsave => exact byte_passRun s o.batt c l y o (.inl hsave)

end Sys2Proof.Machine
end

section
/-! Reference passes, rebuilding and recovery (R102 to R106, R393, R425). -/
namespace Sys2Proof.Machine

/-! κ and the range trim. -/

theorem get_showKappa (s : State) {b : Nat} (hb : b < 1536) : (s.showKappa b).get F.BATT_GAIN_KAPPA b = kappaOf (s.batt b).refSum ∧
    (s.showKappa b).get F.BATT_GAIN_RANGE_TRIM b = trimOf (kappaOf (s.batt b).refSum) ∧
    (s.showKappa b).get F.BATT_GAIN_REF_BLOCK b = s.get F.BATT_GAIN_REF_BLOCK b := by
  have hkappa : kappaOf (s.batt b).refSum < 2 ^ 16 := Nat.lt_of_le_of_lt (Nat.min_le_left ..) (by decide)
  have htrim : trimOf (kappaOf (s.batt b).refSum) < 2 ^ 8 := Nat.lt_of_le_of_lt (Nat.min_le_left ..) (by decide)
  unfold State.showKappa
  extract_lets k
  refine ⟨?_, ?_, ?_⟩
  · rw [get_put_apart _ rfl rfl rfl, get_put_same s rfl hb]
    exact Nat.mod_eq_of_lt hkappa
  · rw [get_put_same _ rfl hb]
    exact Nat.mod_eq_of_lt htrim
  · rw [get_put_apart _ rfl rfl rfl, get_put_apart s rfl rfl rfl]

theorem batt_showKappa (s : State) (b d : Nat) : (s.showKappa b).batt d = s.batt d := (batt_put ..).trans (batt_put ..)

/-! A reading that is discarded. -/

/-- A finding of repeated discards counts in FLT_SHADOW and leaves a batt's other words (R425). -/
theorem get_refRepeat (s : State) {g : Fld} {b : Nat} (hin : g.inBlock = true) (hblock : blockOf g.base = .regsBatt) (hb : b < g.count)
    (hword : F.FLT_SHADOW_REF_REPEAT.otherWord g = true) (k : Nat) : (s.refRepeat b k).get g b = s.get g b := by
  unfold State.refRepeat
  extract_lets u v
  set w := s.finding 5 (some (b / 8)) 3 b k
  have hfinding : Keeps 0x429000484 s w := keeps_finding (Keeps.refl _ s) rfl
  have hraise : Keeps 0x40004 (w.bump F.FLT_SHADOW_REF_REPEAT b 1) u := (Keeps.refl _ _).raise rfl rfl rfl
  have hu : u.get g b = s.get g b := (hraise.get hin hb (by rw [hblock]; rfl)).trans
    ((get_bump_otherWord w hword b 1).trans (hfinding.get hin hb (by rw [hblock]; rfl)))
  split
  · exact hu
  · exact hu

theorem refSum_refRepeat (s : State) (b k : Nat) : ((s.refRepeat b k).batt b).refSum = (s.batt b).refSum := by
  unfold State.refRepeat
  extract_lets u v
  have hu : u.batts = s.batts := by
    rw [State.raise_batts, State.bump_batts, (keeps_finding (Keeps.refl 0x429000484 s) rfl).same .batts rfl]
  have hv : (v.batt b).refSum = (s.batt b).refSum := by
    rw [batt_updBatt_same, batt_congr hu]
  split
  · exact hv
  · exact hv

/-- A discarded reading as it is noted on its batt (R104). -/
def State.refNote (s : State) (b k : Nat) : State :=
  let x := s.batt b
  let win := (x.refWin ++ [s.frame]).filter (fun n => decide (s.frame < n + 256))
  ((s.bumpSat F.BATT_FAULTS_REF_DISCARDS b 1).raise F.BATT_EVT_REF_FAIL b).updBatt b (fun x => { x with
    refRun := if x.refRun.contains k then x.refRun else x.refRun ++ [k], refWin := win })

/-- A discarded reading is noted; repeated discards are a finding besides. -/
theorem refDiscard_keeps_value {β : Type} (g : State → β) (b k : Nat) (h : ∀ u, g (State.refRepeat u b k) = g u) (s : State) :
    g (s.refDiscard b k) = g (s.refNote b k) := ite_keeps_value g (h (s.refNote b k)) _

theorem get_refDiscard (s : State) {g : Fld} {b : Nat} (hin : g.inBlock = true) (hblock : blockOf g.base = .regsBatt) (hb : b < g.count)
    (hword : F.FLT_SHADOW_REF_REPEAT.otherWord g = true) (k : Nat) :
    (s.refDiscard b k).get g b = ((s.bumpSat F.BATT_FAULTS_REF_DISCARDS b 1).raise F.BATT_EVT_REF_FAIL b).get g b :=
  refDiscard_keeps_value (fun u => u.get g b) b k (fun u => get_refRepeat u hin hblock hb hword k) s

/-- The words of κ and of the reference block hold neither the count of discards nor their event. -/
theorem get_refDiscard_gain (s : State) {g : Fld} {b : Nat} (hg : g ∈ [F.BATT_GAIN_KAPPA, F.BATT_GAIN_REF_BLOCK]) (hb : b < 1536) (k : Nat) :
    (s.refDiscard b k).get g b = s.get g b := by
  have hgain : ∀ g ∈ [F.BATT_GAIN_KAPPA, F.BATT_GAIN_REF_BLOCK], g.inBlock = true ∧ blockOf g.base = .regsBatt ∧ g.count = 1536 ∧
    F.FLT_SHADOW_REF_REPEAT.otherWord g = true ∧ F.BATT_EVT_REF_FAIL.otherWord g = true ∧ F.BATT_FAULTS_REF_DISCARDS.otherWord g = true := by
    decide
  obtain ⟨hin, hblock, hcount, hrepeat, hfail, hdiscards⟩ := hgain g hg
  rw [get_refDiscard s hin hblock (hcount ▸ hb) hrepeat, get_raise_otherWord _ hfail]
  exact get_put_addr s (addr_ne_addr hdiscards b) _

theorem get_refFail_refDiscard (s : State) {b : Nat} (hb : b < 1536) (k : Nat) : (s.refDiscard b k).get F.BATT_EVT_REF_FAIL b = 1 := by
  rw [get_refDiscard s rfl rfl hb rfl, get_raise, get_put_same _ rfl hb]
  rfl

theorem get_discards_refDiscard (s : State) {b : Nat} (hb : b < 1536) (k : Nat) :
    (s.refDiscard b k).get F.BATT_FAULTS_REF_DISCARDS b = min 15 (s.get F.BATT_FAULTS_REF_DISCARDS b + 1) := by
  rw [get_refDiscard s rfl rfl hb rfl, get_raise_otherWord _ rfl, State.bumpSat, get_put_same s rfl hb, Nat.min_comm]
  exact Nat.mod_eq_of_lt (Nat.lt_of_le_of_lt (Nat.min_le_left ..) (by decide))

theorem refSum_refDiscard (s : State) (b k : Nat) : ((s.refDiscard b k).batt b).refSum = (s.batt b).refSum := by
  rw [refDiscard_keeps_value (fun u => (u.batt b).refSum) b k (fun u => refSum_refRepeat u b k)]
  unfold State.refNote
  extract_lets x win
  rw [batt_updBatt_same, batt_congr (State.raise_batts ..), batt_congr (State.bumpSat_batts ..)]

/-! One reading. -/

/-- κ_k of a reading at the range trim in force (R103). -/
def State.readRatio (s : State) (o : RefSlot) : Nat × Nat :=
  blockRatio o.p.length (o.p.foldl (· + ·) 0 - o.z.foldl (· + ·) 0) (s.seen F.BATT_GAIN_RANGE_TRIM o.batt)

/-- A reading within the range enters its block's place, and shows κ and the range trim. -/
def State.refTaken (s : State) (o : RefSlot) (k : Nat) : State :=
  ((s.put F.BATT_GAIN_REF_BLOCK o.batt k).updBatt o.batt (fun x => { x with
    refSum := tput x.refSum k (s.readRatio o), refRun := x.refRun.filter (fun j => decide (j ≠ k)) })).showKappa o.batt

theorem refRead_eq (s : State) (o : RefSlot) (k : Nat) : State.refRead k s o =
    if ratioOk (s.readRatio o) then s.refTaken o k else (s.put F.BATT_GAIN_REF_BLOCK o.batt k).refDiscard o.batt k := rfl

theorem refSum_refTaken (s : State) (o : RefSlot) (k : Nat) :
    ((s.refTaken o k).batt o.batt).refSum = tput (s.batt o.batt).refSum k (s.readRatio o) := by
  rw [State.refTaken, batt_showKappa, batt_updBatt_same, batt_put]

theorem get_refTaken (s : State) (o : RefSlot) (hb : o.batt < 1536) (k : Nat) :
    (s.refTaken o k).get F.BATT_GAIN_KAPPA o.batt = kappaOf ((s.refTaken o k).batt o.batt).refSum ∧
    (s.refTaken o k).get F.BATT_GAIN_RANGE_TRIM o.batt = trimOf (kappaOf ((s.refTaken o k).batt o.batt).refSum) ∧
    (s.refTaken o k).get F.BATT_GAIN_REF_BLOCK o.batt = k % 16 := by
  obtain ⟨hkappa, htrim, hblock⟩ := get_showKappa ((s.put F.BATT_GAIN_REF_BLOCK o.batt k).updBatt o.batt (fun x => { x with
    refSum := tput x.refSum k (s.readRatio o), refRun := x.refRun.filter (fun j => decide (j ≠ k)) })) hb
  rw [← batt_showKappa _ o.batt] at hkappa htrim
  exact ⟨hkappa, htrim, hblock.trans (get_put_same s rfl hb k)⟩

theorem execReferencePasses_eq {s : State} (hphase : s.phase = 1) (l : List RefSlot) :
    exec (.referencePasses l) s = .next (l.foldl (State.refRead (s.frame % 16)) s) := congrArg Host.Outcome.next (if_pos hphase)

theorem referencePasses_one {s : State} (o : RefSlot) (hphase : s.phase = 1) (hb : o.batt < 1536) :
    Completes (.referencePasses [o]) s (fun t => t.get F.BATT_GAIN_REF_BLOCK o.batt = s.frame % 16 ∧
      (ratioOk (s.readRatio o) = true →
        (∀ j, tget (1, 1) (t.batt o.batt).refSum j = if j = s.frame % 16 then s.readRatio o else tget (1, 1) (s.batt o.batt).refSum j) ∧
        t.get F.BATT_GAIN_KAPPA o.batt = kappaOf (t.batt o.batt).refSum ∧
        t.get F.BATT_GAIN_RANGE_TRIM o.batt = trimOf (kappaOf (t.batt o.batt).refSum)) ∧
      (ratioOk (s.readRatio o) = false → (t.batt o.batt).refSum = (s.batt o.batt).refSum ∧ t.get F.BATT_EVT_REF_FAIL o.batt = 1 ∧
        t.get F.BATT_GAIN_KAPPA o.batt = s.get F.BATT_GAIN_KAPPA o.batt ∧
        t.get F.BATT_FAULTS_REF_DISCARDS o.batt = min 15 (s.get F.BATT_FAULTS_REF_DISCARDS o.batt + 1))) := by
  refine ⟨State.refRead (s.frame % 16) s o, execReferencePasses_eq hphase [o], ?_⟩
  rw [refRead_eq]
  cases hok : ratioOk (s.readRatio o) with
  | true =>
    rw [if_pos rfl]
    obtain ⟨hkappa, htrim, hblock⟩ := get_refTaken s o hb (s.frame % 16)
    refine ⟨hblock.trans (Nat.mod_mod ..), fun _ => ⟨fun j => ?_, hkappa, htrim⟩, fun h => absurd h.symm Bool.false_ne_true⟩
    rw [refSum_refTaken, tget_tput]
  | false =>
    rw [if_neg Bool.false_ne_true]
    refine ⟨?_, fun h => absurd h Bool.false_ne_true, fun _ => ⟨?_, get_refFail_refDiscard _ hb _, ?_, ?_⟩⟩
    · rw [get_refDiscard_gain _ (.tail _ (.head _)) hb, get_put_same s rfl hb]
      exact Nat.mod_mod ..
    · rw [refSum_refDiscard, batt_put]
    · rw [get_refDiscard_gain _ (.head _) hb, get_put_apart s rfl rfl rfl]
    · rw [get_discards_refDiscard _ hb, get_put_addr s (addr_ne_addr rfl _)]

/-! Several readings. -/

theorem keeps_foldl_refRead (k : Nat) (l : List RefSlot) (s : State) : Keeps 0x42F041484 s (l.foldl (State.refRead k) s) :=
  Keeps.foldl (Keeps.refl _ s) fun u _ => keeps_refRead (Keeps.refl _ u) rfl

theorem referencePasses_append {s u : State} (l m : List RefSlot) (h : exec (.referencePasses l) s = .next u) :
    exec (.referencePasses (l ++ m)) s = exec (.referencePasses m) u := by
  have hkept := keeps_execReferencePasses l s u h
  have hphase : u.phase = s.phase := hkept.get rfl (by decide) rfl
  by_cases hs : s.phase = 1
  · rw [execReferencePasses_eq hs] at h
    rw [execReferencePasses_eq hs, execReferencePasses_eq (hphase.trans hs), List.foldl_append, hkept.same .frame rfl]
    cases h
    rfl
  · have hidle : ∀ (v : State) (n : List RefSlot), v.phase ≠ 1 → exec (.referencePasses n) v = .next v :=
      fun v n hv => congrArg Host.Outcome.next (if_neg hv)
    rw [hidle s l hs] at h
    cases h
    rw [hidle s _ hs, hidle s _ hs]

/-! Rebuilding a core's persistent regions (R393). -/

/-- Byte stores in order. -/
def State.storeAll (s : State) (l : List (Nat × Byte)) : State := l.foldl (fun u e => u.setByte e.1 e.2) s

theorem lastStored_cons (e : Nat × Byte) (l : List (Nat × Byte)) (s : State) (b : Nat) :
    lastStored (e :: l) s b = lastStored l (s.setByte e.1 e.2) b := by
  rw [lastStored, lastStored, List.reverse_cons, List.find?_append]
  cases l.reverse.find? (fun e => decide (e.1 = b)) with
  | some x => rfl
  | none =>
    rw [byte_setByte, Option.none_or, List.find?_singleton]
    by_cases h : e.1 = b
    · simp [h]
    · simp [h, Ne.symm h]

theorem byte_storeAll (s : State) (l : List (Nat × Byte)) (b : Nat) : (s.storeAll l).byte b = lastStored l s b := by
  induction l generalizing s with
  | nil => rfl
  | cons e r ih => rw [lastStored_cons, ← ih]; rfl

theorem byte_storeAll_other (s : State) {l : List (Nat × Byte)} {b : Nat} (h : ∀ e ∈ l, e.1 ≠ b) : (s.storeAll l).byte b = s.byte b :=
  foldl_keeps_value (fun u => u.byte b) l s fun u e he => (byte_setByte u ..).trans (if_neg (h e he).symm)

theorem setSp_eq_storeAll (s : State) (p a n : Nat) (f : Nat → Byte) :
    s.setSp p a ((List.range n).map f) = s.storeAll ((List.range n).map (fun k => (spAddr p (a + k), f k))) := by
  induction n generalizing s a f with
  | zero => rfl
  | succ n ih =>
    rw [List.range_succ_eq_map, List.map_cons, List.map_cons, List.map_map, List.map_map, State.setSp, ih]
    simp only [State.storeAll, List.foldl_cons, Function.comp_def, Nat.succ_eq_add_one, Nat.add_zero, Nat.add_assoc, Nat.add_comm 1]

/-- The stores that rebuild a region from its stack home. -/
def State.homeStores (s : State) (p : Nat) (g : Persist) : List (Nat × Byte) :=
  (List.range g.length).map (fun k => (spAddr p (g.offset + k), s.byte (g.home + k)))

/-- Scratchpad bytes lie above every stack byte, so that rebuilding a region leaves the homes of the others. -/
theorem byte_storeAll_homeStores (s u : State) (p : Nat) (g : Persist) {b : Nat} (hb : b < 2 ^ 41) :
    (u.storeAll (s.homeStores p g)).byte b = u.byte b := by
  refine byte_storeAll_other u fun e he => ?_
  obtain ⟨k, -, rfl⟩ := List.mem_map.mp he
  rw [spAddr]
  omega

theorem foldl_setSp_eq_storeAll (p : Nat) {s u : State} {l : List Persist} (hl : ∀ g ∈ l, g.home + g.length ≤ 2 ^ 41)
    (hu : ∀ b < 2 ^ 41, u.byte b = s.byte b) :
    l.foldl (fun u g => u.setSp p g.offset (u.bytes g.home g.length)) u = u.storeAll (l.flatMap (s.homeStores p)) := by
  induction l generalizing u with
  | nil => rfl
  | cons g r ih =>
    have hfit := hl g (.head _)
    have hstores : u.homeStores p g = s.homeStores p g := List.map_congr_left fun k hk => by
      rw [hu _ (by have := List.mem_range.mp hk; omega)]
    have hfirst : u.setSp p g.offset (u.bytes g.home g.length) = u.storeAll (s.homeStores p g) :=
      (setSp_eq_storeAll ..).trans (congrArg u.storeAll hstores)
    rw [List.foldl_cons, hfirst, ih (fun g hg => hl g (.tail _ hg)) fun b hb => (byte_storeAll_homeStores s u p g hb).trans (hu b hb),
      List.flatMap_cons]
    exact (List.foldl_append ..).symm

/-- The persistent regions of the logical core that a physical core serves. -/
def State.ownRegions (s : State) (p : Nat) : List Persist := s.img.accepted.persist.filter (fun g => decide (s.logicalOf p = some g.core))

theorem rebuildRegions_eq (s : State) (p : Nat) (hl : ∀ g ∈ s.img.accepted.persist, g.home + g.length ≤ 2 ^ 41) :
    s.rebuildRegions p = s.storeAll ((s.ownRegions p).flatMap (s.homeStores p)) := by
  unfold State.rebuildRegions State.ownRegions
  cases s.logicalOf p with
  | none => simp [State.storeAll]
  | some l =>
    simp only [Option.some.injEq, @eq_comm _ l]
    exact foldl_setSp_eq_storeAll p (fun g hg => hl g (List.mem_filter.mp hg).1) fun _ _ => rfl

theorem resetRebuild_completes {s : State} (p : Nat) (rs : List RefReading) (hrebuild : (s.core p).rebuilding = true)
    (hreset : (s.core p).resetting = none) (hl : ∀ g ∈ s.img.accepted.persist, g.home + g.length ≤ 2 ^ 41) :
    Completes (.resetRebuild p rs) s (fun t => (t.core p).rebuilding = false ∧
      ∀ b, t.byte b = lastStored ((s.ownRegions p).flatMap (s.homeStores p)) s b) := by
  refine ⟨((s.rebuildRegions p).refReads (rs.filter (fun r => decide (r.batt / 8 = p)))).updCore p (fun x => { x with rebuilding := false }),
    congrArg Host.Outcome.next (if_pos ⟨hrebuild, hreset⟩), by rw [core_updCore_same], fun b => ?_⟩
  rw [byte_congr (State.updCore_mem ..), (keeps_refReads (Keeps.refl 0x4041000 _) rfl).same .mem rfl b, rebuildRegions_eq s p hl, byte_storeAll]

/-! Recovery of a batt's reference blocks (R425). -/

theorem refRecovery_completes {s : State} {b c l : Nat} {y : Layer} (hlayer : s.battLayer b = some (c, l, y)) (hb : b < 1536)
    (hlost : (s.layer c l).refLost = true) (hblocked : ∀ u ∈ s.unblocked c, u.1 ≠ b) :
    Completes (.refRecoveryComplete b) s (fun t => (t.layer c l).refLost = false ∧ t.get F.BATT_FAULTS_REF_DISCARDS b = 0) := by
  refine ⟨((s.updLayer c l (fun y => { y with refLost := false })).put F.BATT_FAULTS_REF_DISCARDS b 0).updBatt b
    (fun x => { x with refRun := [], refWin := [] }), congrArg Host.Outcome.next ?_, ?_, ?_⟩
  · rw [hlayer]
    exact if_pos ⟨hlost, List.all_eq_true.mpr fun u hu => decide_eq_true (hblocked u hu)⟩
  · rw [layer_congr_ctxs (State.updBatt_ctxs ..), layer_congr_ctxs (State.put_ctxs ..), layer_updLayer, if_pos rfl]
  · rw [get_congr (State.updBatt_regs ..), get_put_same _ rfl hb]
    rfl

/-- Settles O22: a reading in range and one discarded, reading after reading, the rebuilt core and the recovered batt. -/
theorem referencePasses : Obligations.ReferencePasses := by
  intro s
  exact ⟨fun o => referencePasses_one o, fun l m u => referencePasses_append l m, fun p rs => resetRebuild_completes p rs,
    fun b c l y => refRecovery_completes⟩

end Sys2Proof.Machine
end

section
/-! Fulling: a pass from its start to its end (R139 to R141, R145). -/
namespace Sys2Proof.Machine

/-! A pass starts (R141). -/

/-- The pass that starts on a batt: nothing of it is read, marked or re-blocked. -/
def Batt.fulStarted (x : Batt) (start interval : Nat) : Batt :=
  { x with
    fulBusy := true, fulNow := false, fulStart := some start, fulInterval := interval, fulRows := [], fulMarked := [], fulCount := 0 }

theorem fullingIntervalExpiry_starts {s : State} {b u : Nat} (hphase : s.phase = 1) (hserving : s.parked b = false)
    (hidle : (s.batt b).fulBusy = false) (hdue : (s.batt b).fulNow = true ∨ s.fulDue b ≤ s.now + u) :
    Completes (.fullingIntervalExpiry b u) s (fun t => ∃ i, t.batt b = (s.batt b).fulStarted (s.now + u) i) :=
  ⟨_, congrArg Host.Outcome.next (if_pos ⟨hphase, hserving, hidle, hdue⟩), _, batt_updBatt_same ..⟩

/-! A row is read (R139, R140). -/

/-- Marking rows one after another, each once: what is marked afterwards. -/
theorem mem_foldl_mark (l m : List Nat) (r : Nat) :
    r ∈ l.foldl (fun m r => if m.contains r then m else m ++ [r]) m ↔ r ∈ m ∨ r ∈ l := by
  induction l generalizing m with
  | nil => simp
  | cons a l ih =>
    rw [List.foldl_cons, ih]
    split
    · next hold =>
      have := List.contains_iff_mem.mp hold
      grind
    · simp [or_assoc]

/-- The rows that a read of a row finds to mark: the row itself, and with the last row those far from the mean of q_P. -/
def State.marksFound (s : State) (b row : Nat) (own : Bool) (rows : List (Nat × Int)) : List Nat :=
  ((if own then [row] else []) ++ if rows.length = 1024 then State.refMarked rows else []).filter (fun r =>
    !(s.batt b).worn.contains r && !(s.batt b).newWorn.contains r)

theorem mem_marksFound_own {s : State} {b row : Nat} (rows : List (Nat × Int)) (hworn : row ∉ (s.batt b).worn)
    (hnewWorn : row ∉ (s.batt b).newWorn) : row ∈ s.marksFound b row true rows := by
  simp [State.marksFound, hworn, hnewWorn]

theorem marksFound_eq_nil (s : State) (b row : Nat) {rows : List (Nat × Int)} (hmore : rows.length ≠ 1024) :
    s.marksFound b row false rows = [] := by
  simp [State.marksFound, hmore]

/-- The batt after a row's read: the row and its q_P are noted, and what was found is marked. -/
def Batt.fulRead (x : Batt) (rows : List (Nat × Int)) (found : List Nat) : Batt :=
  { x with
    fulRows := rows, fulMarked := found.foldl (fun m r => if m.contains r then m else m ++ [r]) x.fulMarked, busy := true }

theorem fullingRead_completes {s : State} (o : FulRead) (n : Int)
    (hn : (match o.cells.find? (fun p => decide (p.1 = 1056)) with | some p => composite p.2 | none => 0) = n)
    (hissue : s.mayIssue (o.batt / 8) = true) (hopen : (s.batt o.batt).open_ = true) (hran : (s.batt o.batt).ran = false)
    (hserving : s.parked o.batt = false) (hbusy : (s.batt o.batt).fulBusy = true) (hnext : (s.batt o.batt).fulRows.length = o.row)
    (hrow : o.row < 1024) :
    Completes (.fullingRead o) s (fun t => t.batt o.batt = (s.batt o.batt).fulRead ((s.batt o.batt).fulRows ++ [(o.row, n)])
      (s.marksFound o.batt o.row (s.rowMarked o.batt o.row o.cells n) ((s.batt o.batt).fulRows ++ [(o.row, n)]))) := by
  subst hn
  exact ⟨_, congrArg Host.Outcome.next (if_pos ⟨hissue, hopen, hran, hserving, hbusy, hnext, hrow⟩), batt_updBatt_same ..⟩

/-! A pass ends (R141, R145). -/

/-- The next interval lies within FUL_MIN and FUL_MAX (R141). -/
theorem nextInterval_bounds {s : State} (h : s.pol 0x30 ≤ s.pol 0x34) (i n : Nat) :
    s.pol 0x30 * 10 ^ 9 ≤ s.nextInterval i n ∧ s.nextInterval i n ≤ s.pol 0x34 * 10 ^ 9 :=
  ⟨Nat.le_max_left .., Nat.max_le.mpr ⟨Nat.mul_le_mul_right _ h, Nat.min_le_left ..⟩⟩

/-- The registers of a pass that has ended, once each of FUL_STATE's fields is written in its turn. -/
theorem get_fulState (s : State) {b : Nat} (hb : b < 1536) (i n a : Nat) :
    let t := ((s.put F.FUL_STATE_INTERVAL b i).put F.FUL_STATE_LAST_ROWS b n).put F.FUL_STATE_AGE b a
    t.get F.FUL_STATE_INTERVAL b = i % F.FUL_STATE_INTERVAL.size ∧ t.get F.FUL_STATE_LAST_ROWS b = n % F.FUL_STATE_LAST_ROWS.size ∧
      t.get F.FUL_STATE_AGE b = a % F.FUL_STATE_AGE.size := by
  refine ⟨?_, ?_, get_put_same _ rfl hb a⟩
  · rw [get_put_apart _ rfl rfl rfl, get_put_apart _ rfl rfl rfl]
    exact get_put_same s rfl hb i
  · rw [get_put_apart _ rfl rfl rfl]
    exact get_put_same _ rfl hb n

theorem fullingPassEnd_ends {s : State} {b : Nat} (u : Nat) (hb : b < 1536) (hbusy : (s.batt b).fulBusy = true)
    (hread : (s.batt b).fulRows.length = 1024) (hmarked : (s.batt b).fulMarked = []) :
    Completes (.fullingPassEnd b u) s (fun t => (t.batt b).fulBusy = false ∧ (t.batt b).fulEnd = some (s.now + u) ∧
      (t.batt b).fulInterval = s.nextInterval (s.batt b).fulInterval (s.batt b).fulCount ∧
      t.get F.FUL_STATE_INTERVAL b = (t.batt b).fulInterval / 10 ^ 9 % F.FUL_STATE_INTERVAL.size ∧
      t.get F.FUL_STATE_LAST_ROWS b = (s.batt b).fulCount % F.FUL_STATE_LAST_ROWS.size ∧ t.get F.FUL_STATE_AGE b = 0) := by
  refine ⟨_, congrArg Host.Outcome.next (if_pos ⟨hbusy, hread, hmarked⟩), ?_⟩
  simp only [batt_put, batt_updBatt_same, true_and]
  exact get_fulState _ hb _ _ _

/-- Settles O25: a pass that starts, one row's read, and the pass that ends. -/
theorem fulling : Obligations.Fulling := by
  intro s
  refine ⟨?_, ?_, ?_⟩
  · intro b u hphase hserving hidle hdue
    obtain ⟨t, hexec, i, ht⟩ := fullingIntervalExpiry_starts hphase hserving hidle hdue
    exact ⟨t, hexec, by simp [ht, Batt.fulStarted]⟩
  · intro o hissue hopen hran hserving hbusy hnext hrow n
    obtain ⟨t, hexec, ht⟩ := fullingRead_completes o n rfl hissue hopen hran hserving hbusy hnext hrow
    refine ⟨t, hexec, ?_⟩
    beta_reduce
    rw [ht]
    refine ⟨rfl, rfl, fun r hr => (mem_foldl_mark ..).mpr (.inl hr), fun hmark hworn hnewWorn => (mem_foldl_mark ..).mpr (.inr ?_), ?_⟩
    · rw [hmark]
      exact mem_marksFound_own _ hworn hnewWorn
    · intro hmark hlast
      rw [hmark, marksFound_eq_nil _ _ _ (by rw [List.length_append, hnext]; exact fun h => hlast (Nat.succ.inj h))]
      rfl
  · intro b u hb hbusy hread hmarked hpol
    obtain ⟨t, hexec, hend, htime, hinterval, hregs⟩ := fullingPassEnd_ends u hb hbusy hread hmarked
    obtain ⟨hmin, hmax⟩ := nextInterval_bounds hpol (s.batt b).fulInterval (s.batt b).fulCount
    rw [← hinterval] at hmin hmax
    exact ⟨t, hexec, hend, htime, hmin, hmax, hregs⟩

end Sys2Proof.Machine
end

section
/-! A column is retired, and its weights take a spare or stay dark (R145 to R147). -/
namespace Sys2Proof.Machine

/-! A batt's figures (R115, R153). -/

theorem batt_raise (s : State) (f : Fld) (i b : Nat) : (s.raise f i).batt b = s.batt b := batt_congr (State.raise_batts ..) b

theorem batts_showRecord (s : State) (b : Nat) : (s.showRecord b).batts = s.batts := (keeps_showRecord (Keeps.refl 0x1000 s) rfl).same .batts rfl

theorem batt_showRecord (s : State) (b d : Nat) : (s.showRecord b).batt d = s.batt d := batt_congr (batts_showRecord s b) d

/-- A batt's events stand at a word of their own, which its figures leave alone. -/
theorem get_event_showRecord (s : State) {g : Fld} (hbase : g.base = 0x200020) (hstride : g.stride = 0x40) (b : Nat) :
    (s.showRecord b).get g b = s.get g b := by
  have hput : ∀ (u : State) (f : Fld) (v : Nat), f.otherWord g = true → (u.put f b v).get g b = u.get g b :=
    fun u f v h => get_put_addr u (addr_ne_addr h b) v
  have hother : ∀ f : Fld, f.stride = 0x40 → f.base ≠ 0x200020 → f.otherWord g = true := fun f hs hb => by
    simp [Fld.otherWord, hstride, hs, hbase, hb.symm]
  unfold State.showRecord
  rw [hput _ _ _ (hother _ rfl (by decide)), hput _ _ _ (hother _ rfl (by decide)), hput _ _ _ (hother _ rfl (by decide)),
    hput _ _ _ (hother _ rfl (by decide)), hput _ _ _ (hother _ rfl (by decide))]

theorem get_retired_showRecord (s : State) {b : Nat} (hb : b < 1536) :
    (s.showRecord b).get F.BLK_COLS_RETIRED b = (s.batt b).retired.length % F.BLK_COLS_RETIRED.size := by
  unfold State.showRecord
  rw [get_put_addr _ (addr_ne_addr rfl b), get_put_addr _ (addr_ne_addr rfl b), get_put_apart _ rfl rfl rfl]
  exact get_put_same _ rfl hb _

theorem get_wornRows_showRecord (s : State) {b : Nat} (hb : b < 1536) :
    (s.showRecord b).get F.BLK_WEAR_WORN_ROWS b = ((s.batt b).worn.length + (s.batt b).newWorn.length) % F.BLK_WEAR_WORN_ROWS.size := by
  unfold State.showRecord
  rw [get_put_apart _ rfl rfl rfl]
  exact get_put_same _ rfl hb _

/-! The column is retired (R145). -/

def Batt.retire (x : Batt) (p : Nat) : Batt := { x with retired := x.retired ++ [p], recordDue := true }

theorem retired_retire (x : Batt) (p : Nat) : (x.retire p).retired = x.retired ++ [p] := rfl

def State.retireColumn (s : State) (b p : Nat) : State := ((s.updBatt b (fun x => x.retire p)).raise F.BLK_EVT_RETIRED b).showRecord b

theorem batt_retireColumn (s : State) (b p : Nat) : (s.retireColumn b p).batt b = (s.batt b).retire p := by
  unfold State.retireColumn
  rw [batt_showRecord, batt_raise, batt_updBatt_same]

theorem get_retired_retireColumn (s : State) {b : Nat} (hb : b < 1536) (p : Nat) :
    (s.retireColumn b p).get F.BLK_EVT_RETIRED b = 1 ∧
      (s.retireColumn b p).get F.BLK_COLS_RETIRED b = ((s.batt b).retired.length + 1) % F.BLK_COLS_RETIRED.size := by
  refine ⟨?_, ?_⟩
  · unfold State.retireColumn
    rw [get_event_showRecord _ rfl rfl, get_raise, get_put_same _ rfl hb]
    rfl
  · unfold State.retireColumn
    rw [get_retired_showRecord _ hb, batt_raise, batt_updBatt_same, retired_retire, List.length_append,
      List.length_singleton]

theorem weightCol_congr {s t : State} {b : Nat} (hmap : (t.batt b).colMap = (s.batt b).colMap)
    (hfill : (t.batt b).filling = (s.batt b).filling) (p : Nat) : t.weightCol b p = s.weightCol b p := by
  unfold State.weightCol State.logicalCol
  rw [hmap, hfill]

/-- A column holds the same weights as before it was retired. -/
theorem weightCol_retireColumn (s : State) (b p : Nat) : (s.retireColumn b p).weightCol b p = s.weightCol b p :=
  weightCol_congr (by rw [batt_retireColumn]; rfl) (by rw [batt_retireColumn]; rfl) p

/-! Its weights move (R146, R147). -/

/-- A sound spare is being filled for logical column j, or one that is filled waits for the record. -/
def Batt.spared (x : Batt) (j : Nat) : Prop := (∃ f ∈ x.filling, f.col = j ∧ f.spare ∉ x.retired) ∨ ∃ m ∈ x.newMap, m.1 = j

/-- The lowest spare that is not retired, not being filled and not in service. -/
def Batt.freeSpare (x : Batt) : Option Nat :=
  ((List.range 32).map (fun k => 1024 + k)).find? (fun q =>
    !(x.retired.contains q || x.filling.any (fun f => decide (f.spare = q)) || x.colMap.any (fun e => decide (e.2 = q))))

/-- The weights of logical column j take the lowest free spare, or stay dark. -/
def Batt.respare (x : Batt) (j : Nat) : Batt :=
  let rest := x.filling.filter (fun f => decide (f.col ≠ j))
  match x.freeSpare with
  | some q => { x with filling := rest ++ [⟨j, q, []⟩] }
  | none => { x with
      filling := rest, newDark := if x.dark.contains j ∨ x.newDark.contains j then x.newDark else x.newDark ++ [j], recordDue := true }

@[simp] theorem Batt.respare_retired (x : Batt) (j : Nat) : (x.respare j).retired = x.retired := by
  unfold Batt.respare
  split <;> rfl

theorem Batt.respare_of_free {x : Batt} {q : Nat} (h : x.freeSpare = some q) (j : Nat) :
    (x.respare j).filling = x.filling.filter (fun f => decide (f.col ≠ j)) ++ [⟨j, q, []⟩] ∧ (x.respare j).newDark = x.newDark := by
  simp [Batt.respare, h]

theorem Batt.respare_of_none {x : Batt} (h : x.freeSpare = none) (j : Nat) :
    (x.respare j).filling = x.filling.filter (fun f => decide (f.col ≠ j)) ∧ (j ∈ (x.respare j).dark ∨ j ∈ (x.respare j).newDark) := by
  rw [Batt.respare, h]
  refine ⟨rfl, ?_⟩
  simp only [List.contains_iff_mem]
  split
  · assumption
  · exact .inr (List.mem_append_right _ (.head _))

/-- The weights of a column move unless a spare is being filled for them, or is filled, already. -/
theorem unfilled_eq_some_iff {s : State} {b p j : Nat} : s.unfilled b p = some j ↔ s.weightCol b p = some j ∧ ¬(s.batt b).spared j := by
  unfold State.unfilled
  cases s.weightCol b p with
  | none => simp
  | some k =>
    have hspared : ((s.batt b).filling.any (fun f => decide (f.col = k) && !(s.batt b).retired.contains f.spare) ||
        (s.batt b).newMap.any (fun m => decide (m.1 = k))) = true ↔ (s.batt b).spared k := by simp [Batt.spared]
    by_cases h : (s.batt b).spared k
    · dsimp only
      rw [if_pos (hspared.mpr h)]
      exact ⟨nofun, fun ⟨hk, hno⟩ => absurd (Option.some.inj hk ▸ h) hno⟩
    · dsimp only
      rw [if_neg (mt hspared.mp h)]
      exact ⟨fun hk => ⟨hk, Option.some.inj hk ▸ h⟩, And.left⟩

theorem execColumnRetire_eq {s : State} {b p : Nat} (hfaults : 8 ≤ tget 0 (s.batt b).colFaults p) (hnew : p ∉ (s.batt b).retired) :
    exec (.columnRetire b p) s = .next (match (s.retireColumn b p).unfilled b p with
      | none => s.retireColumn b p
      | some j => (s.retireColumn b p).updBatt b (fun x => x.respare j)) := by
  show execColumnRetire b p s = _
  unfold execColumnRetire
  rw [if_neg (Nat.not_lt.mpr hfaults), if_neg (by simpa using hnew)]
  extract_lets u
  rw [show s.retireColumn b p = u from rfl]
  clear_value u
  cases u.unfilled b p with
  | none => rfl
  | some j =>
    refine congrArg Host.Outcome.next ?_
    unfold State.updBatt Batt.respare
    dsimp only
    split
    · next q hfree =>
      rw [show (u.batt b).freeSpare = some q from hfree]
    · next hfree =>
      rw [show (u.batt b).freeSpare = none from hfree]

/-- Settles O27: the column is retired; then its weights stay, take the lowest free spare, or go dark. -/
theorem columnRetire : Obligations.ColumnRetire := by
  intro s b p hb hfaults hnew x free
  obtain ⟨hevent, hcount⟩ := get_retired_retireColumn s hb p
  have hbatt : (s.retireColumn b p).batt b = x.retire p := batt_retireColumn s b p
  have hspared : ∀ j, (x.retire p).spared j ↔
      (∃ f ∈ x.filling, f.col = j ∧ f.spare ≠ p ∧ f.spare ∉ x.retired) ∨ ∃ m ∈ x.newMap, m.1 = j := fun j => by
    simp only [Batt.spared, Batt.retire, List.mem_append, List.mem_singleton, not_or, and_comm, ne_eq]
  have hunfilled : ∀ j, (s.retireColumn b p).unfilled b p = some j ↔ s.weightCol b p = some j ∧ ¬(x.retire p).spared j := fun j => by
    rw [unfilled_eq_some_iff, weightCol_retireColumn, hbatt]
  have hexec := execColumnRetire_eq hfaults hnew
  cases hu : (s.retireColumn b p).unfilled b p with
  | none =>
    rw [hu] at hexec
    refine ⟨_, hexec, by rw [hbatt]; rfl, hevent, hcount, fun _ => by rw [hbatt]; exact ⟨rfl, rfl⟩, fun j hj => ?_⟩
    have hstays : (x.retire p).spared j := by
      by_contra hnone
      rw [(hunfilled j).mpr ⟨hj, hnone⟩] at hu
      cases hu
    exact ⟨fun _ => by rw [hbatt]; exact ⟨rfl, rfl⟩, fun h => absurd ((hspared j).mp hstays) h⟩
  | some k =>
    rw [hu] at hexec
    obtain ⟨hk, hmoves⟩ := (hunfilled k).mp hu
    refine ⟨_, hexec, ?_, ?_, ?_, fun h => by simp [hk] at h, fun j hj => ?_⟩
    · rw [batt_updBatt_same, hbatt, Batt.respare_retired]
      rfl
    · exact hevent
    · exact hcount
    · obtain rfl : k = j := Option.some.inj (hk.symm.trans hj)
      rw [batt_updBatt_same, hbatt]
      exact ⟨fun h => absurd ((hspared k).mpr h) hmoves, fun _ =>
        ⟨fun q hq => Batt.respare_of_free (x := x.retire p) hq k, fun hq => Batt.respare_of_none (x := x.retire p) hq k⟩⟩

end Sys2Proof.Machine
end

section
/-! Wear ceilings, worn rows, the static list they join, filled spares and batt records (R127, R142 to R144, R146, R149). -/
namespace Sys2Proof.Machine

/-! Ceilings (R142). -/

theorem wearCeilingWrite_raises {s : State} {b r : Nat} (hlow : tget 0 (s.batt b).ceiling r ≤ tget 0 (s.batt b).wear r + 1) :
    Completes (.wearCeilingWrite b r) s (fun t =>
      ∀ k, tget 0 (t.batt b).ceiling k = tget 0 (s.batt b).ceiling k + if k = r then 4096 else 0) := by
  refine ⟨_, congrArg Host.Outcome.next (if_pos hlow), fun k => ?_⟩
  rw [batt_updBatt_same]
  dsimp only
  rw [tget_tset]
  split
  · next hk => rw [hk]
  · rfl

/-! A row is worn (R143, R144). -/

/-- The row waits for the batt record and leaves its fulling pass. -/
def Batt.wornOut (x : Batt) (r : Nat) : Batt :=
  { x with newWorn := x.newWorn ++ [r], recordDue := true, fulMarked := x.fulMarked.filter (fun m => decide (m ≠ r)) }

def State.noteWorn (s : State) (b r : Nat) : State := (s.updBatt b (fun x => x.wornOut r)).showRecord b

/-- A batt has WORN set, and its core counts a failed test. -/
def State.reportWorn (s : State) (b : Nat) : State := (s.raise F.BLK_EVT_WORN b).failTest (b / 8)

theorem execRowWorn_eq {s : State} {b r : Nat} (hwear : s.pol 0x2C ≤ tget 0 (s.batt b).wear r) (hworn : r ∉ (s.batt b).worn)
    (hnewWorn : r ∉ (s.batt b).newWorn) :
    exec (.rowWorn b r) s = .next (if 64 ≤ s.listed b then (s.noteWorn b r).reportWorn b else s.noteWorn b r) := by
  have hnew : ¬(tget 0 (s.batt b).wear r < s.pol 0x2C ∨ (s.batt b).worn.contains r ∨ (s.batt b).newWorn.contains r) := by
    simpa [hworn, hnewWorn] using hwear
  exact congrArg Host.Outcome.next ((if_neg hnew).trans (if_congr decide_eq_true_iff rfl rfl))

theorem keeps_noteWorn (s : State) (b r : Nat) : Keeps 0x4001000 s (s.noteWorn b r) :=
  keeps_showRecord ((Keeps.refl _ s).setBatt rfl) rfl

theorem keeps_reportWorn (s : State) (b : Nat) : Keeps 0x8041400 s (s.reportWorn b) :=
  keeps_failTest ((Keeps.refl _ s).raise rfl rfl rfl) rfl

theorem batt_noteWorn (s : State) (b r : Nat) : (s.noteWorn b r).batt b = (s.batt b).wornOut r := by
  unfold State.noteWorn
  rw [batt_showRecord, batt_updBatt_same]

theorem get_wornRows_noteWorn (s : State) {b : Nat} (hb : b < 1536) (r : Nat) : (s.noteWorn b r).get F.BLK_WEAR_WORN_ROWS b =
    ((s.batt b).worn.length + (s.batt b).newWorn.length + 1) % F.BLK_WEAR_WORN_ROWS.size := by
  unfold State.noteWorn
  rw [get_wornRows_showRecord _ hb, batt_updBatt_same]
  unfold Batt.wornOut
  rw [List.length_append, List.length_singleton, ← Nat.add_assoc]

theorem get_worn_noteWorn (s : State) (b r : Nat) : (s.noteWorn b r).get F.BLK_EVT_WORN b = s.get F.BLK_EVT_WORN b :=
  (get_event_showRecord _ rfl rfl b).trans (get_congr (State.updBatt_regs ..) _ b)

theorem get_failTest (s : State) {g : Fld} (hin : g.inBlock = true) (hblock : blockOf g.base = .regsBatt) {i : Nat} (hi : i < g.count) (p : Nat) :
    (s.failTest p).get g i = s.get g i := (keeps_failTest (Keeps.refl 0x8000400 s) rfl).get hin hi (by rw [hblock]; rfl)

theorem failed_failTest (s : State) (p : Nat) : ((s.failTest p).core p).failed = (s.core p).failed ++ [s.now] := by
  rw [State.failTest, State.bumpSat, core_put, core_updCore_same]

theorem get_worn_reportWorn (s : State) {b : Nat} (hb : b < 1536) : (s.reportWorn b).get F.BLK_EVT_WORN b = 1 := by
  rw [State.reportWorn, get_failTest _ rfl rfl hb, get_raise, get_put_same _ rfl hb]
  rfl

theorem get_wornRows_reportWorn (s : State) {b : Nat} (hb : b < 1536) :
    (s.reportWorn b).get F.BLK_WEAR_WORN_ROWS b = s.get F.BLK_WEAR_WORN_ROWS b := by
  rw [State.reportWorn, get_failTest _ rfl rfl hb, get_raise_otherWord s rfl]

theorem core_congr {s t : State} (h : t.cores = s.cores) (p : Nat) : t.core p = s.core p := congrArg (fun m => tget Core.empty m p) h

theorem failed_reportWorn (s : State) (b : Nat) : ((s.reportWorn b).core (b / 8)).failed = (s.core (b / 8)).failed ++ [s.now] := by
  rw [State.reportWorn, failed_failTest, State.raise_now, core_congr (State.raise_cores ..)]

theorem rowWorn_waits {s : State} {b r : Nat} (hb : b < 1536) (hwear : s.pol 0x2C ≤ tget 0 (s.batt b).wear r) (hworn : r ∉ (s.batt b).worn)
    (hnewWorn : r ∉ (s.batt b).newWorn) :
    Completes (.rowWorn b r) s (fun t => t.batt b = (s.batt b).wornOut r ∧
      t.get F.BLK_WEAR_WORN_ROWS b = ((s.batt b).worn.length + (s.batt b).newWorn.length + 1) % F.BLK_WEAR_WORN_ROWS.size ∧ t.ctxs = s.ctxs ∧
      (s.listed b < 64 → (t.core (b / 8)).failed = (s.core (b / 8)).failed ∧ t.get F.BLK_EVT_WORN b = s.get F.BLK_EVT_WORN b) ∧
      (64 ≤ s.listed b → t.get F.BLK_EVT_WORN b = 1 ∧ (t.core (b / 8)).failed = (s.core (b / 8)).failed ++ [s.now])) := by
  have hnote := keeps_noteWorn s b r
  have hcore : (s.noteWorn b r).core (b / 8) = s.core (b / 8) := core_congr (hnote.same .cores rfl) _
  refine ⟨_, execRowWorn_eq hwear hworn hnewWorn, ?_⟩
  by_cases hfull : 64 ≤ s.listed b
  · have hreport := keeps_reportWorn (s.noteWorn b r) b
    rw [if_pos hfull]
    refine ⟨(batt_congr (hreport.same .batts rfl) b).trans (batt_noteWorn s b r),
      (get_wornRows_reportWorn _ hb).trans (get_wornRows_noteWorn s hb r), (hreport.same .ctxs rfl).trans (hnote.same .ctxs rfl),
      fun hroom => absurd hfull (Nat.not_le.mpr hroom), fun _ => ⟨get_worn_reportWorn _ hb, ?_⟩⟩
    rw [failed_reportWorn, hcore, hnote.same .now rfl]
  · rw [if_neg hfull]
    exact ⟨batt_noteWorn s b r, get_wornRows_noteWorn s hb r, hnote.same .ctxs rfl,
      fun _ => ⟨congrArg Core.failed hcore, get_worn_noteWorn s b r⟩, fun h => absurd h hfull⟩

/-! The load owner of a batt, and the layer that it serves. -/

theorem template_congr {s t : State} (h : t.img = s.img) (c : Nat) : t.template c = s.template c := by
  unfold State.template State.ctxEntry
  rw [h]

section
variable {s t : State} (hrole : ∀ p < 192, t.get F.FLT_CORE_ROLE p = s.get F.FLT_CORE_ROLE p)
  (hlogical : ∀ p < 192, t.get F.FLT_CORE_LOGICAL p = s.get F.FLT_CORE_LOGICAL p)
include hrole hlogical

theorem battOf_congr (i : Nat) : t.battOf i = s.battOf i := by
  have hphys : ∀ l, t.physOf l = s.physOf l := fun l =>
    List.find?_congr fun p hp => by rw [hrole p (List.mem_range.mp hp), hlogical p (List.mem_range.mp hp)]
  unfold State.battOf
  rw [hphys]

theorem battLayer_congr {b : Nat} (howner : (t.batt b).owner = (s.batt b).owner) (himg : t.img = s.img) : t.battLayer b = s.battLayer b := by
  unfold State.battLayer
  simp only [howner, template_congr himg, battOf_congr hrole hlogical]
end

/-! A worn row joins the static list (R127, R143, R144, R177). -/

theorem mem_insertBy {α : Type} (le : α → α → Bool) (a : α) (l : List α) : a ∈ insertBy le a l := by
  induction l with
  | nil => exact .head _
  | cons b r ih =>
    unfold insertBy
    split
    · exact .head _
    · exact .tail _ ih

/-- The bytes of a list of places become 0x80, whatever else is written. -/
theorem byte_blankBytes {s : State} {b k : Nat} {l : List Nat} (h : k ∈ l ∨ s.byte (s.imageAt b + k) = 0x80) :
    (s.blankBytes b l).byte (s.imageAt b + k) = 0x80 := by
  induction l generalizing s with
  | nil => exact h.resolve_left List.not_mem_nil
  | cons a r ih =>
    refine ih (s := s.setByte (s.imageAt b + a) 0x80) ?_
    rw [show (s.setByte (s.imageAt b + a) 0x80).imageAt b = s.imageAt b from rfl, byte_setByte]
    by_cases hka : k = a
    · exact .inr (if_pos (by rw [hka]))
    · rw [if_neg fun heq => hka (Nat.add_left_cancel heq)]
      exact h.imp_left fun hmem => (List.mem_cons.mp hmem).resolve_left hka

theorem byte_blankRow (s : State) (b r : Nat) {j : Nat} (hj : j < 1024) : (s.blankRow b r).byte (s.imageAt b + r * 1024 + j) = 0x80 := by
  rw [Nat.add_assoc]
  exact byte_blankBytes (s := s.updBatt b _) (.inl (List.mem_map.mpr ⟨j, List.mem_range.mpr hj, rfl⟩))

theorem keeps_blankRow_refl (s : State) (b r : Nat) : Keeps 0x4100000 s (s.blankRow b r) := keeps_blankRow (Keeps.refl _ s) rfl

theorem owner_blankRow (s : State) (b r : Nat) : ((s.blankRow b r).batt b).owner = (s.batt b).owner := by
  unfold State.blankRow
  rw [batt_congr ((keeps_blankBytes (Keeps.refl 0x100000 _) rfl).same .batts rfl), batt_updBatt_same]

theorem regs_blankRow (s : State) (b r : Nat) : (s.blankRow b r).regs = s.regs :=
  foldl_keeps_value (fun u => u.regs) _ (s.updBatt b _) fun _ _ _ => rfl

theorem battLayer_blankRow (s : State) (b r : Nat) : (s.blankRow b r).battLayer b = s.battLayer b :=
  battLayer_congr (fun p _ => get_congr (regs_blankRow s b r) _ p) (fun p _ => get_congr (regs_blankRow s b r) _ p) (owner_blankRow s b r)
    ((keeps_blankRow_refl s b r).same .img rfl)

/-- The static list once row r has joined it: one of 64 other channels takes no more (R144). -/
def joinedRows (rows : List (Nat × Bool)) (r : Nat) (adapted : Bool) : List (Nat × Bool) :=
  let rest := rows.filter (fun e => decide (e.1 ≠ r))
  if 64 ≤ rest.length then rest
  else insertBy (fun (m n : Nat × Bool) => decide (m.1 ≤ n.1)) (r, adapted && !rows.any (fun e => decide (e.1 = r) && !e.2)) rest

theorem mem_joinedRows {rows : List (Nat × Bool)} {r : Nat} (hroom : (rows.filter (fun e => decide (e.1 ≠ r))).length < 64) (adapted : Bool) :
    r ∈ (joinedRows rows r adapted).map (fun e => e.1) := by
  unfold joinedRows
  rw [if_neg (Nat.not_le.mpr hroom)]
  exact List.mem_map_of_mem (mem_insertBy ..)

/-- The row's debt goes as it joins the static list. -/
def State.leaveDebt (s : State) (c b r : Nat) : State :=
  s.updCtx c (fun x => { x with debt := x.debt.filter (fun e => decide (e.batt ≠ b ∨ e.row ≠ r)) })

theorem updLayer_mem (s : State) (c l : Nat) (f : LayerSt → LayerSt) : (s.updLayer c l f).mem = s.mem := State.updCtx_mem ..

theorem leaveDebt_mem (s : State) (c b r : Nat) : (s.leaveDebt c b r).mem = s.mem := State.updCtx_mem ..

theorem layer_leaveDebt (s : State) (c b r l : Nat) : (s.leaveDebt c b r).layer c l = s.layer c l := by
  unfold State.leaveDebt State.layer
  rw [ctx_updCtx_same]

/-- The part of the state in which a row joins the static list of its layer. -/
theorem exists_joinStatic_eq {s : State} {b c l : Nat} {y : Layer} (h : s.battLayer b = some (c, l, y)) (r : Nat) (adapted : Bool) :
    ∃ n, s.joinStatic b r adapted = (((s.blankRow b r).leaveDebt c b r).updLayer c l (fun z => { z with
      staticRows := joinedRows (s.layer c l).staticRows r adapted })).put F.BAND_BATT_STATIC b n := by
  have hlayer : ((s.blankRow b r).leaveDebt c b r).layer c l = s.layer c l :=
    (layer_leaveDebt ..).trans (layer_congr_ctxs ((keeps_blankRow_refl s b r).same .ctxs rfl) c l)
  unfold State.joinStatic
  extract_lets u
  rw [show u.battLayer b = _ from (battLayer_blankRow s b r).trans h, ← hlayer]
  exact ⟨_, rfl⟩

theorem joinStatic_layer {s : State} {b c l : Nat} {y : Layer} (h : s.battLayer b = some (c, l, y)) (r : Nat) (adapted : Bool) :
    ((s.joinStatic b r adapted).layer c l).staticRows = joinedRows (s.layer c l).staticRows r adapted := by
  obtain ⟨n, hn⟩ := exists_joinStatic_eq h r adapted
  rw [hn, layer_congr_ctxs (State.put_ctxs ..), layer_updLayer, if_pos rfl]

theorem byte_joinStatic {s : State} {b c l : Nat} {y : Layer} (h : s.battLayer b = some (c, l, y)) (r : Nat) (adapted : Bool) {j : Nat}
    (hj : j < 1024) : (s.joinStatic b r adapted).byte (s.imageAt b + r * 1024 + j) = 0x80 := by
  obtain ⟨n, hn⟩ := exists_joinStatic_eq h r adapted
  rw [hn, byte_put, byte_congr (updLayer_mem ..), byte_congr (leaveDebt_mem ..)]
  exact byte_blankRow s b r hj

/-! Filled spares and records (R146, R149). -/

theorem spareFillComplete_waits {s : State} {b j : Nat} {f : Fill} (hfind : (s.batt b).filling.find? (fun f => decide (f.col = j)) = some f)
    (hrows : ∀ r < 1024, r ∈ (s.batt b).worn ∨ ∃ e ∈ f.rows, e.1 = r) (hnew : ∀ m ∈ (s.batt b).newMap, m.1 ≠ j) :
    Completes (.spareFillComplete b j) s (fun t => (t.batt b).newMap = (s.batt b).newMap ++ [(j, f.spare)] ∧ (t.batt b).recordDue = true) := by
  have hall : (List.range 1024).all (fun r => f.rows.any (fun e => decide (e.1 = r)) || (s.batt b).worn.contains r) = true := by
    rw [List.all_eq_true]
    intro r hr
    have := hrows r (List.mem_range.mp hr)
    simpa [or_comm] using this
  have hnone : (s.batt b).newMap.any (fun m => decide (m.1 = j)) = false := by simpa using hnew
  refine ⟨s.updBatt b (fun x => { x with newMap := x.newMap ++ [(j, f.spare)], recordDue := true }), ?_, ?_⟩
  · show execSpareFillComplete b j s = _
    unfold execSpareFillComplete
    rw [hfind]
    exact congrArg Host.Outcome.next (if_pos ⟨hall, hnone⟩)
  · beta_reduce
    rw [batt_updBatt_same]
    exact ⟨rfl, rfl⟩

theorem battRecordWrite_takes {s : State} {b : Nat} (hdue : (s.batt b).recordDue = true) :
    Completes (.battRecordWrite b) s (fun t => (t.batt b).record = s.makeRecord b ∧ (t.batt b).recorded = true ∧
      (t.batt b).loadIn = State.loadDone (s.batt b) ∧ ((s.batt b).newScale = none → (t.batt b).recordDue = false)) := by
  refine ⟨_, congrArg Host.Outcome.next (if_pos hdue), ?_⟩
  dsimp only
  rw [batt_updBatt_same]
  exact ⟨rfl, rfl, rfl, fun hscale => by dsimp only; rw [hscale]; rfl⟩

/-- Settles O26: the ceiling, the worn row, the list it joins, the filled spare and the record. -/
theorem wearAndSpares : Obligations.WearAndSpares := by
  intro s b
  refine ⟨fun r => wearCeilingWrite_raises, ?_, ?_, fun j f => spareFillComplete_waits, battRecordWrite_takes⟩
  · intro r hb hwear hworn hnewWorn
    obtain ⟨t, hexec, hbatt, hrows, hctxs, hroom, hfull⟩ := rowWorn_waits hb hwear hworn hnewWorn
    refine ⟨t, hexec, by rw [hbatt]; rfl, ?_, hrows, by rw [hbatt]; rfl, by rw [hbatt]; rfl,
      fun c l => by rw [layer_congr_ctxs hctxs], hroom, hfull⟩
    rw [hbatt]
    simp [Batt.wornOut]
  · intro r c l y hlayer _ rest
    rw [joinStatic_layer hlayer]
    exact ⟨fun hfull => if_pos hfull, fun hroom => mem_joinedRows hroom false, fun j => byte_joinStatic hlayer r false⟩

end Sys2Proof.Machine
end

section
/-! Blocking a row: what its operations leave in the array, and what waits for the tick (R118 to R129, R137, R142, R146, R167, R495). -/
namespace Sys2Proof.Machine

/-- One operation on a row: the columns it writes, its iterations, and its reference cells outside their windows. -/
abbrev RowRun := List Nat × List (List (Nat × List Int)) × List Nat

/-! The cells of a row (R137). -/

/-- The cells of a column, one after another from a key on. -/
def cellsPut (base : Nat) (l : List Int) (t : Tbl Int) : Tbl Int := l.zipIdx.foldl (fun t v => tset 0 t (base + v.2) v.1) t

/-- The cells of row r as the columns' reads leave them. -/
def cellsRead (r : Nat) (reads : List (Nat × List Int)) (t : Tbl Int) : Tbl Int :=
  reads.foldl (fun t p => cellsPut ((r * 1058 + p.1) * 4) p.2 t) t

theorem tget_foldl_zipIdx (base n : Nat) (l : List Int) (t : Tbl Int) (j : Nat) :
    tget 0 ((l.zipIdx n).foldl (fun t v => tset 0 t (base + v.2) v.1) t) j =
      if base + n ≤ j ∧ j < base + n + l.length then l.getD (j - (base + n)) 0 else tget 0 t j := by
  induction l generalizing n t with
  | nil => rw [if_neg (by simp only [List.length_nil]; omega)]; rfl
  | cons a l ih =>
    rw [List.zipIdx_cons, List.foldl_cons, ih, tget_tset, List.length_cons]
    by_cases hlater : base + (n + 1) ≤ j ∧ j < base + (n + 1) + l.length
    · rw [if_pos hlater, if_pos (by omega), show j - (base + n) = j - (base + (n + 1)) + 1 by omega, List.getD_cons_succ]
    · rw [if_neg hlater]
      by_cases hfirst : j = base + n
      · rw [if_pos hfirst, if_pos (by omega), hfirst, Nat.sub_self, List.getD_cons_zero]
      · rw [if_neg hfirst, if_neg (by omega)]

theorem tget_cellsPut (base : Nat) (l : List Int) (t : Tbl Int) (j : Nat) :
    tget 0 (cellsPut base l t) j = if base ≤ j ∧ j < base + l.length then l.getD (j - base) 0 else tget 0 t j :=
  tget_foldl_zipIdx base 0 l t j

/-- Reads of other columns leave a column's cells. -/
theorem tget_cellsRead_other {r q k : Nat} (hk : k < 4) {reads : List (Nat × List Int)} (hshort : ∀ p ∈ reads, p.2.length ≤ 4)
    (hother : q ∉ reads.map (fun p => p.1)) (t : Tbl Int) :
    tget 0 (cellsRead r reads t) ((r * 1058 + q) * 4 + k) = tget 0 t ((r * 1058 + q) * 4 + k) := by
  induction reads generalizing t with
  | nil => rfl
  | cons p l ih =>
    rw [List.map_cons, List.mem_cons, not_or] at hother
    refine (ih (fun p hp => hshort p (.tail _ hp)) hother.2 _).trans ?_
    have := hshort p (.head _)
    have := hother.1
    rw [tget_cellsPut, if_neg (by omega)]

/-- Of columns read once each, every column's four cells hold what was read. -/
theorem tget_cellsRead {r k : Nat} (hk : k < 4) {reads : List (Nat × List Int)} (hnodup : (reads.map (fun p => p.1)).Nodup)
    (hshort : ∀ p ∈ reads, p.2.length ≤ 4) {e : Nat × List Int} (he : e ∈ reads) (hlen : e.2.length = 4) (t : Tbl Int) :
    tget 0 (cellsRead r reads t) ((r * 1058 + e.1) * 4 + k) = e.2.getD k 0 := by
  obtain ⟨before, after, rfl⟩ := List.append_of_mem he
  rw [List.map_append, List.map_cons, List.nodup_append, List.nodup_cons] at hnodup
  obtain ⟨-, ⟨hafter, -⟩, -⟩ := hnodup
  unfold cellsRead
  rw [List.foldl_append, List.foldl_cons]
  refine (tget_cellsRead_other hk (fun p hp => hshort p (List.mem_append_right _ (.tail _ hp))) hafter _).trans ?_
  rw [tget_cellsPut, if_pos (by omega), Nat.add_sub_cancel_left]

/-! Parts of a batt. -/

/-- A batt apart from what judging its columns changes. -/
def Batt.unjudged (x : Batt) : Batt := { x with colFaults := [], faulted := [], newDark := [], recordDue := false }

/-- A batt apart from what the operations on a row change in the array. -/
def Batt.unworked (x : Batt) : Batt := { x.unjudged with wear := [], cells := [], lastBlock := [], busy := false }

/-- A batt apart from the array and from what opening a load or filling a spare changes. -/
def Batt.unblocked (x : Batt) : Batt := { x.unworked with newScale := none, loaded := [], filling := [] }

theorem unworked_unjudged (x : Batt) : x.unjudged.unworked = x.unworked := rfl

theorem unblocked_unworked (x : Batt) : x.unworked.unblocked = x.unblocked := rfl

theorem unworked_congr {x y : Batt} (h : x.unjudged = y.unjudged) : x.unworked = y.unworked := by
  rw [← unworked_unjudged x, h, unworked_unjudged]

theorem unblocked_congr {x y : Batt} (h : x.unworked = y.unworked) : x.unblocked = y.unblocked := by
  rw [← unblocked_unworked x, h, unblocked_unworked]

/-! The operations on a row (R137, R142). -/

/-- The batt after one operation on row r: its wear if the operation pulsed, and its cells. -/
def Batt.afterRun (r : Nat) (code : Nat → Int) (x : Batt) (a : RowRun) : Batt :=
  { x with
    wear := if opPulsed code a.1 a.2.1 then tset 0 x.wear r (tget 0 x.wear r + 1) else x.wear, cells := cellsRead r (State.lastReads a) x.cells }

theorem batt_runCells (b r : Nat) (code : Nat → Int) (s : State) (a : RowRun) :
    (State.runCells b r code s a).batt b = (s.batt b).afterRun r code a := by
  unfold State.runCells State.setCells State.wearRow Batt.afterRun
  rw [batt_updBatt_same]
  split
  · rw [batt_put, batt_updBatt_same]
    rfl
  · rfl

theorem batt_foldl_runCells (b r : Nat) (code : Nat → Int) (runs : List RowRun) (s : State) :
    (runs.foldl (State.runCells b r code) s).batt b = runs.foldl (Batt.afterRun r code) (s.batt b) := by
  induction runs generalizing s with
  | nil => rfl
  | cons a l ih => rw [List.foldl_cons, List.foldl_cons, ih, batt_runCells]

theorem wear_foldl_afterRun (r : Nat) (code : Nat → Int) (runs : List RowRun) (x : Batt) :
    tget 0 (runs.foldl (Batt.afterRun r code) x).wear r = tget 0 x.wear r + (runs.filter (fun a => opPulsed code a.1 a.2.1)).length := by
  induction runs generalizing x with
  | nil => rfl
  | cons a l ih =>
    rw [List.foldl_cons, ih, List.filter_cons]
    unfold Batt.afterRun
    split
    · rw [tget_tset_same, List.length_cons]
      omega
    · rfl

theorem cells_foldl_afterRun {runs : List RowRun} {a : RowRun} (ha : a ∈ runs.getLast?) (r : Nat) (code : Nat → Int) (x : Batt) :
    ∃ t, (runs.foldl (Batt.afterRun r code) x).cells = cellsRead r (State.lastReads a) t := by
  obtain ⟨l, rfl⟩ := List.getLast?_eq_some_iff.mp ha
  rw [List.foldl_append]
  exact ⟨_, rfl⟩

theorem unworked_foldl_afterRun (r : Nat) (code : Nat → Int) (runs : List RowRun) (x : Batt) :
    (runs.foldl (Batt.afterRun r code) x).unworked = x.unworked := by
  induction runs generalizing x with
  | nil => rfl
  | cons a l ih => exact ih _

/-! Judging (R123, R124, R145), and the time and energy that return to the frame (R59). -/

theorem unjudged_columnFault (s : State) (b r p k : Nat) : ((s.columnFault b r p k).batt b).unjudged = (s.batt b).unjudged := by
  unfold State.columnFault
  split
  · rfl
  · extract_lets step u v
    have hu : (u.batt b).unjudged = (s.batt b).unjudged := by
      rw [show u.batt b = _ from batt_updBatt_same ..]
      rfl
    have hv : (v.batt b).unjudged = (s.batt b).unjudged := (congrArg Batt.unjudged (batt_raise ..)).trans hu
    split
    · exact (congrArg Batt.unjudged (batt_raise ..)).trans hu
    · split
      · exact (congrArg Batt.unjudged (batt_updBatt_same ..)).trans hv
      · exact hv

theorem unjudged_judgeRow (s : State) (b r : Nat) (code : Nat → Int) (a : RowRun) :
    ((s.judgeRow b r code a).batt b).unjudged = (s.batt b).unjudged :=
  foldl_keeps_value (fun u => (u.batt b).unjudged) _ s fun u p _ => unjudged_columnFault u b r p _

/-- The operations of a row run, and the columns of the last judged. -/
def State.columnsJudged (s : State) (o : RowOp) (target : Nat → Int) (runs : List RowRun) : State :=
  let code := s.colCode o.batt target
  let u := runs.foldl (State.runCells o.batt o.row code) s
  match runs.getLast? with
  | some a => u.judgeRow o.batt o.row code a
  | none => u

theorem keeps_columnsJudged (s : State) (o : RowOp) (target : Nat → Int) (runs : List RowRun) :
    Keeps 0x4041000 s (s.columnsJudged o target runs) := by
  unfold State.columnsJudged
  extract_lets code u
  have hu : Keeps 0x4041000 s u := Keeps.foldl (Keeps.refl _ s) fun w _ => keeps_runCells (Keeps.refl _ w) rfl
  split
  · exact keeps_judgeRow hu rfl
  · exact hu

theorem unjudged_columnsJudged (s : State) (o : RowOp) (target : Nat → Int) (runs : List RowRun) :
    ((s.columnsJudged o target runs).batt o.batt).unjudged =
      (runs.foldl (Batt.afterRun o.row (s.colCode o.batt target)) (s.batt o.batt)).unjudged := by
  rw [← batt_foldl_runCells]
  unfold State.columnsJudged
  split
  · exact unjudged_judgeRow ..
  · rfl

/-- The reference cells judged besides, and the frame's charge settled. -/
def State.rowJudged (s : State) (o : RowOp) (target : Nat → Int) (runs : List RowRun) : State :=
  ((s.columnsJudged o target runs).judgeRefs o.batt runs).settleRow o.batt (runs.map (fun a => a.2.1.length))

theorem keeps_settleRow_refl (s : State) (b : Nat) (ks : List Nat) : Keeps 0x800000 s (s.settleRow b ks) := keeps_settleRow (Keeps.refl _ s) rfl

theorem now_rowJudged (s : State) (o : RowOp) (target : Nat → Int) (runs : List RowRun) : (s.rowJudged o target runs).now = s.now :=
  (keeps_settleRow (keeps_judgeRefs ((keeps_columnsJudged s o target runs).mono (L := 0xC841400) rfl) rfl) rfl).same .now rfl

theorem unjudged_rowJudged (s : State) (o : RowOp) (target : Nat → Int) (runs : List RowRun) :
    ((s.rowJudged o target runs).batt o.batt).unjudged =
      (runs.foldl (Batt.afterRun o.row (s.colCode o.batt target)) (s.batt o.batt)).unjudged := by
  have hend : (s.rowJudged o target runs).batts = (s.columnsJudged o target runs).batts :=
    (keeps_settleRow (keeps_judgeRefs (Keeps.refl 0x8841400 _) rfl) rfl).same .batts rfl
  rw [batt_congr hend, unjudged_columnsJudged]

theorem blockCells_eq (s : State) (o : RowOp) (target : Nat → Int) (runs : List RowRun) : s.blockCells o target runs =
    (s.rowJudged o target runs).updBatt o.batt (fun x => { x with lastBlock := tput x.lastBlock o.row (s.now + o.t), busy := true }) := by
  rw [← now_rowJudged s o target runs]
  rfl

theorem keeps_blockCells_refl (s : State) (o : RowOp) (target : Nat → Int) (runs : List RowRun) : Keeps 0xC841400 s (s.blockCells o target runs) :=
  keeps_blockCells (Keeps.refl _ s) rfl

theorem unworked_blockCells (s : State) (o : RowOp) (target : Nat → Int) (runs : List RowRun) :
    ((s.blockCells o target runs).batt o.batt).unworked = (s.batt o.batt).unworked := by
  rw [blockCells_eq, batt_updBatt_same]
  exact (unworked_congr (unjudged_rowJudged s o target runs)).trans (unworked_foldl_afterRun ..)

/-- What the operations on a row leave: wear for each operation with a pulse (R142), the cells of the last verify (R137), the row's last
operation, and no byte of memory. -/
def RowWorked (o : RowOp) (s v : State) (target : Nat → Int) (runs : List RowRun) (t : State) : Prop :=
  tget 0 (t.batt o.batt).wear o.row = tget 0 (s.batt o.batt).wear o.row +
    (runs.filter (fun a => opPulsed (v.colCode o.batt target) a.1 a.2.1)).length ∧
  tget 0 (t.batt o.batt).lastBlock o.row = s.now + o.t ∧ (t.batt o.batt).busy = true ∧ (∀ a, t.byte a = s.byte a) ∧
  (∀ a ∈ runs.getLast?, ((State.lastReads a).map (fun e => e.1)).Nodup → ∀ e ∈ State.lastReads a, e.2.length = 4 →
    (∀ e ∈ State.lastReads a, e.2.length ≤ 4) → ∀ k < 4, tget 0 (t.batt o.batt).cells ((o.row * 1058 + e.1) * 4 + k) = e.2.getD k 0)

theorem rowWorked_blockCells (s : State) (o : RowOp) (target : Nat → Int) (runs : List RowRun) :
    RowWorked o s s target runs (s.blockCells o target runs) := by
  have hbytes := (keeps_blockCells_refl s o target runs).same .mem rfl
  have hjudged := unjudged_rowJudged s o target runs
  have hwear := congrArg Batt.wear hjudged
  have hcells := congrArg Batt.cells hjudged
  unfold RowWorked
  rw [blockCells_eq] at hbytes ⊢
  rw [batt_updBatt_same]
  refine ⟨?_, ?_, rfl, hbytes, fun a ha hnodup e he hlen hshort k hk => ?_⟩
  · exact (congrArg (fun t => tget 0 t o.row) hwear).trans (wear_foldl_afterRun ..)
  · exact (tget_tput ..).trans (if_pos rfl)
  · obtain ⟨t, ht⟩ := cells_foldl_afterRun ha o.row (s.colCode o.batt target) (s.batt o.batt)
    exact (congrArg (fun t => tget 0 t _) (hcells.trans ht)).trans (tget_cellsRead hk hnodup hshort he hlen t)

/-! Opening a load, and staging a row (R125, R126, R129, R146, R167). -/

theorem newScale_openLoad {s : State} {o : RowOp} (hkind : o.kind = 1) (hfirst : o.first = true) (c l : Nat) (y : Layer) :
    ((s.openLoad o c l y).batt o.batt).newScale = some (s.formScales c l y) := by
  unfold State.openLoad
  rw [if_pos ⟨hkind, hfirst⟩, batt_updBatt_same]

theorem keeps_openLoad_refl (s : State) (o : RowOp) (c l : Nat) (y : Layer) : Keeps 0x4000000 s (s.openLoad o c l y) :=
  keeps_openLoad (Keeps.refl _ s) rfl

/-- The load opened and its operations ended: what stands before the row is staged. -/
def State.rowBlocked (s : State) (o : RowOp) (c l : Nat) (y : Layer) (runs : List RowRun) : State :=
  let v := s.openLoad o c l y
  v.blockCells o (v.target o.batt c l y o.row) runs

theorem blockRow_eq {s : State} {o : RowOp} {c l : Nat} {y : Layer} {runs : List RowRun}
    (hruns : (s.openLoad o c l y).rowRuns o.batt ((s.openLoad o c l y).target o.batt c l y o.row) o.tries = some runs)
    (hfits : (s.openLoad o c l y).wearFits o.batt o.row
      ((s.openLoad o c l y).colCode o.batt ((s.openLoad o c l y).target o.batt c l y o.row)) runs = true) :
    s.blockRow o c l y = if o.gen = (s.rowBlocked o c l y runs).gen c then
      (s.rowBlocked o c l y runs).stageRow o ((runs.getLast?.map State.lastReads).getD []) else (s.rowBlocked o c l y runs).staleData c 1 := by
  unfold State.blockRow
  dsimp only
  rw [hruns]
  exact if_pos hfits

/-! The words of contexts and of cores that blocking leaves. -/

theorem Keeps.reg_eq {m : Nat} {s t : State} (h : Keeps m s t) {a : Nat} (ha : m.testBit (blockOf a).code = false) : t.reg a = s.reg a := by
  have hagree := h.same _ ha
  have hlt := blockOf_code_lt a
  generalize hB : blockOf a = B at hagree hlt
  revert hagree hlt
  cases B <;> intro hagree hlt <;> first | exact hagree _ hB | exact absurd hlt (by decide)

/-- The blocks from the contexts' on. -/
theorem blockOf_code_of_ge {a : Nat} (h : 0x300000 ≤ a) : 13 ≤ (blockOf a).code := by
  have hno : 15 ≤ blockNo a := Nat.le_trans (by decide) (blockNo_mono h)
  unfold blockOf
  generalize blockNo a = n at hno
  by_cases hn : n < 18
  · interval_cases n <;> decide
  · rw [List.getD_eq_default _ _ (by simpa [blocks] using hn)]
    decide

theorem gen_of_keeps {s t : State} (h : Keeps 0xC841400 s t) (c : Nat) : t.gen c = s.gen c := by
  have hge := blockOf_code_of_ge (a := F.CTX_STATE_GEN.addr c) (by simp [Fld.addr, F.CTX_STATE_GEN])
  have hlt := blockOf_code_lt (F.CTX_STATE_GEN.addr c)
  unfold State.gen State.get
  rw [h.reg_eq]
  generalize (blockOf (F.CTX_STATE_GEN.addr c)).code = n at hge hlt
  interval_cases n <;> rfl

section
variable {g : Fld} (hin : g.inBlock = true) (hblock : blockOf g.base = .regsCore) (hok : g.ok = true) (hapart : F.FLT_CORE_FAILS.apart g = true)
  {i : Nat} (hi : i < g.count)
include hin hblock hok hapart hi

/-- A core that fails a test keeps its role and number (R411). -/
theorem get_judgeRefs (s : State) (b : Nat) (runs : List RowRun) : (s.judgeRefs b runs).get g i = s.get g i := by
  have hfail : ∀ u : State, (u.failTest (b / 8)).get g i = u.get g i := fun u =>
    (get_put_apart _ rfl hok hapart (b / 8) i _).trans (get_congr (State.updCore_regs ..) g i)
  have hraise : (s.raise F.BLK_EVT_REF_BLOCK_FAIL b).get g i = s.get g i :=
    ((Keeps.refl 0x41000 s).raise rfl rfl rfl).get hin hi (by rw [hblock]; rfl)
  unfold State.judgeRefs
  split
  · exact get_ite_keeps ((hfail _).trans hraise) _
  · rfl

theorem get_blockCells (s : State) (o : RowOp) (target : Nat → Int) (runs : List RowRun) : (s.blockCells o target runs).get g i = s.get g i := by
  rw [blockCells_eq]
  refine (get_congr (State.updBatt_regs ..) g i).trans ?_
  exact ((keeps_settleRow_refl ..).get hin hi (by rw [hblock]; rfl)).trans ((get_judgeRefs hin hblock hok hapart hi _ o.batt runs).trans
    ((keeps_columnsJudged s o target runs).get hin hi (by rw [hblock]; rfl)))
end

/-! The bytes of a row (R125, R127, R146, R177). -/

section
variable {s t : State} {b : Nat} (hbatt : (t.batt b).unblocked = (s.batt b).unblocked)
include hbatt

theorem logicalCol_congr (p : Nat) : t.logicalCol b p = s.logicalCol b p := by
  have hmap : (t.batt b).colMap = (s.batt b).colMap := (congrArg Batt.colMap hbatt :)
  unfold State.logicalCol
  rw [hmap]

variable (hlayer : t.battLayer b = s.battLayer b) (hctxs : t.ctxs = s.ctxs)
include hlayer hctxs

theorem isStatic_congr (r : Nat) : t.isStatic b r = s.isStatic b r := by
  have hworn : (t.batt b).worn = (s.batt b).worn := (congrArg Batt.worn hbatt :)
  unfold State.isStatic
  rw [hworn, hlayer]
  cases s.battLayer b with
  | none => rfl
  | some e => simp only [layer_congr_ctxs hctxs]

theorem rowBytes_congr (r : Nat) (reads : List (Nat × List Int)) : t.rowBytes b r reads = s.rowBytes b r reads := by
  have hdark : (t.batt b).dark = (s.batt b).dark := (congrArg Batt.dark hbatt :)
  unfold State.rowBytes
  simp only [logicalCol_congr hbatt, isStatic_congr hbatt hlayer hctxs, hdark]
end

/-! The row staged (R129, R146). -/

theorem fillRows_leaves (s : State) (b r : Nat) (reads : List (Nat × List Int)) :
    ((s.fillRows b r reads).batt b).unblocked = (s.batt b).unblocked := by
  unfold State.fillRows
  rw [batt_updBatt_same]
  rfl

/-- What waits for the tick once a row is staged: its bytes, its verify records, and the bytes of the spares that are being filled. -/
def RowStaged (o : RowOp) (s : State) (runs : List RowRun) (t : State) : Prop :=
  let last := (runs.getLast?.map State.lastReads).getD []
  (t.batt o.batt).staged = (s.batt o.batt).staged ++ [⟨o.row, s.rowBytes o.batt o.row last, State.verifyOf o.row last, o.kind⟩] ∧
  ∀ f ∈ (t.batt o.batt).filling, ∀ e, last.find? (fun e => decide (e.1 = f.spare)) = some e → (o.row, imageByte e.2) ∈ f.rows

/-- A spare being filled after one row's reads. -/
def Fill.taken (r : Nat) (reads : List (Nat × List Int)) (f : Fill) : Fill :=
  match reads.find? (fun p => decide (p.1 = f.spare)) with
  | some p => { f with rows := (f.rows.filter (fun e => decide (e.1 ≠ r))) ++ [(r, imageByte p.2)] }
  | none => f

theorem Fill.spare_taken (r : Nat) (reads : List (Nat × List Int)) (f : Fill) : (f.taken r reads).spare = f.spare := by
  unfold Fill.taken
  split <;> rfl

theorem Fill.mem_rows_taken {r : Nat} {reads : List (Nat × List Int)} {f : Fill} {e : Nat × List Int}
    (h : reads.find? (fun p => decide (p.1 = f.spare)) = some e) : (r, imageByte e.2) ∈ (f.taken r reads).rows := by
  unfold Fill.taken
  rw [h]
  exact List.mem_append_right _ (.head _)

theorem filling_stageRow (s : State) (o : RowOp) (last : List (Nat × List Int)) :
    ((s.stageRow o last).batt o.batt).filling = (s.batt o.batt).filling.map (Fill.taken o.row last) := by
  unfold State.stageRow State.fillRows
  rw [batt_updBatt_same, batt_updBatt_same]
  rfl

theorem staged_stageRow (s : State) (o : RowOp) (last : List (Nat × List Int)) : ((s.stageRow o last).batt o.batt).staged =
    (s.batt o.batt).staged ++ [⟨o.row, s.rowBytes o.batt o.row last, State.verifyOf o.row last, o.kind⟩] := by
  unfold State.stageRow
  rw [batt_updBatt_same]
  exact congrArg (· ++ _) (congrArg Batt.staged (fillRows_leaves s o.batt o.row last) :)

/-- What stands in the array of a batt: wear, the rows' last operations, whether a row operation came this frame, and the cells. -/
def Batt.array (x : Batt) : Tbl Nat × Tbl Nat × Bool × Tbl Int := (x.wear, x.lastBlock, x.busy, x.cells)

theorem array_stageRow (s : State) (o : RowOp) (last : List (Nat × List Int)) :
    ((s.stageRow o last).batt o.batt).array = (s.batt o.batt).array := by
  unfold State.stageRow State.fillRows
  rw [batt_updBatt_same, batt_updBatt_same]
  rfl

theorem newScale_stageRow (s : State) (o : RowOp) (last : List (Nat × List Int)) :
    ((s.stageRow o last).batt o.batt).newScale = (s.batt o.batt).newScale := by
  unfold State.stageRow State.fillRows
  rw [batt_updBatt_same, batt_updBatt_same]

theorem RowWorked.congr_right {o : RowOp} {s v t u : State} {target : Nat → Int} {runs : List RowRun} (h : RowWorked o s v target runs t)
    (harray : (u.batt o.batt).array = (t.batt o.batt).array) (hmem : ∀ a, u.byte a = t.byte a) : RowWorked o s v target runs u := by
  simp only [Batt.array, Prod.mk.injEq] at harray
  obtain ⟨hwear, hlast, hbusy, hcells⟩ := harray
  unfold RowWorked at h ⊢
  simpa only [hwear, hlast, hbusy, hcells, hmem] using h

/-! The whole operation. -/

/-- State v is s with a load opened on the row's batt, or s itself. -/
def RowOpened (o : RowOp) (s v : State) : Prop :=
  Keeps 0x4000000 s v ∧ (v.batt o.batt).wear = (s.batt o.batt).wear ∧ (v.batt o.batt).unblocked = (s.batt o.batt).unblocked

theorem RowOpened.refl (o : RowOp) (s : State) : RowOpened o s s := ⟨Keeps.refl _ s, rfl, rfl⟩

theorem rowOpened_openLoad (o : RowOp) (s : State) (c l : Nat) (y : Layer) : RowOpened o s (s.openLoad o c l y) := by
  refine ⟨keeps_openLoad_refl s o c l y, ?_⟩
  unfold State.openLoad
  split
  · rw [batt_updBatt_same]
    exact ⟨rfl, rfl⟩
  · exact ⟨rfl, rfl⟩

section
variable {o : RowOp} {s v : State} (h : RowOpened o s v) (target : Nat → Int) (runs : List RowRun)
include h

theorem RowOpened.worked : RowWorked o s v target runs (v.blockCells o target runs) := by
  obtain ⟨hkeeps, hwear, -⟩ := h
  have hnow : v.now = s.now := hkeeps.same .now rfl
  have hmem : ∀ a, v.byte a = s.byte a := hkeeps.same .mem rfl
  have hworked := rowWorked_blockCells v o target runs
  unfold RowWorked at hworked ⊢
  simpa only [hwear, hnow, hmem] using hworked

theorem RowOpened.unblocked_blockCells : ((v.blockCells o target runs).batt o.batt).unblocked = (s.batt o.batt).unblocked :=
  (unblocked_congr (unworked_blockCells v o target runs)).trans h.2.2

theorem RowOpened.gen_blockCells (c : Nat) : (v.blockCells o target runs).gen c = s.gen c :=
  gen_of_keeps ((h.1.mono rfl).trans (keeps_blockCells_refl v o target runs)) c

theorem RowOpened.rowBytes_blockCells (reads : List (Nat × List Int)) :
    (v.blockCells o target runs).rowBytes o.batt o.row reads = s.rowBytes o.batt o.row reads := by
  have hbatt := h.unblocked_blockCells target runs
  have hkeeps := (h.1.mono (L := 0xC841400) rfl).trans (keeps_blockCells_refl v o target runs)
  refine rowBytes_congr hbatt (battLayer_congr (fun p hp => ?_) (fun p hp => ?_) (congrArg Batt.owner hbatt :) (hkeeps.same .img rfl))
    (hkeeps.same .ctxs rfl) o.row reads
  · exact (get_blockCells rfl rfl rfl rfl hp v o target runs).trans (h.1.get rfl hp rfl)
  · exact (get_blockCells rfl rfl rfl rfl hp v o target runs).trans (h.1.get rfl hp rfl)

theorem RowOpened.worked_stageRow (last : List (Nat × List Int)) : RowWorked o s v target runs ((v.blockCells o target runs).stageRow o last) :=
  (h.worked target runs).congr_right (array_stageRow ..) ((keeps_stageRow (Keeps.refl 0x4000000 _) rfl).same .mem rfl)

theorem RowOpened.staged_stageRow :
    RowStaged o s runs ((v.blockCells o target runs).stageRow o ((runs.getLast?.map State.lastReads).getD [])) := by
  have hstaged : ((v.blockCells o target runs).batt o.batt).staged = (s.batt o.batt).staged :=
    (congrArg Batt.staged (h.unblocked_blockCells target runs) :)
  refine ⟨?_, fun f hf e he => ?_⟩
  · rw [Machine.staged_stageRow, hstaged, h.rowBytes_blockCells]
  · rw [filling_stageRow] at hf
    obtain ⟨f, -, rfl⟩ := List.mem_map.mp hf
    rw [Fill.spare_taken] at he
    exact Fill.mem_rows_taken he
end

theorem batts_staleData (s : State) (c n : Nat) : (s.staleData c n).batts = s.batts :=
  (State.raise_batts ..).trans (State.bump_batts ..)

theorem mem_staleData (s : State) (c n : Nat) : (s.staleData c n).mem = s.mem := (State.raise_mem ..).trans (State.bump_mem ..)

/-- What blocking a row of the owner's layer leaves (R118 to R129, R167). -/
theorem blockRow_leaves {o : RowOp} {s : State} {c l : Nat} {y : Layer} {runs : List RowRun}
    (hruns : (s.openLoad o c l y).rowRuns o.batt ((s.openLoad o c l y).target o.batt c l y o.row) o.tries = some runs)
    (hfits : (s.openLoad o c l y).wearFits o.batt o.row
      ((s.openLoad o c l y).colCode o.batt ((s.openLoad o c l y).target o.batt c l y o.row)) runs = true) :
    RowWorked o s (s.openLoad o c l y) ((s.openLoad o c l y).target o.batt c l y o.row) runs (s.blockRow o c l y) ∧
      (o.gen = s.gen c → RowStaged o s runs (s.blockRow o c l y)) ∧
      (o.gen ≠ s.gen c → c < 1024 → ((s.blockRow o c l y).batt o.batt).staged = (s.batt o.batt).staged ∧
        (s.blockRow o c l y).get F.CTX_EVT_STALE c = 1) ∧
      (o.kind = 1 → o.first = true → ((s.blockRow o c l y).batt o.batt).newScale = some (s.formScales c l y)) := by
  have hopen := rowOpened_openLoad o s c l y
  rw [blockRow_eq hruns hfits]
  unfold State.rowBlocked
  extract_lets v
  have hscale : o.kind = 1 → o.first = true →
      ((v.blockCells o (v.target o.batt c l y o.row) runs).batt o.batt).newScale = some (s.formScales c l y) := fun hkind hfirst =>
    (congrArg Batt.newScale (unworked_blockCells ..) :).trans (newScale_openLoad hkind hfirst c l y)
  rw [hopen.gen_blockCells]
  by_cases hgen : o.gen = s.gen c
  · rw [if_pos hgen]
    exact ⟨hopen.worked_stageRow .., fun _ => hopen.staged_stageRow .., fun hstale => absurd hgen hstale,
      fun hkind hfirst => (newScale_stageRow ..).trans (hscale hkind hfirst)⟩
  · have hbatts := batts_staleData (v.blockCells o (v.target o.batt c l y o.row) runs) c 1
    rw [if_neg hgen]
    refine ⟨(hopen.worked ..).congr_right (by rw [batt_congr hbatts]) fun a => byte_congr (mem_staleData ..) a, fun h => absurd h hgen,
      fun _ hc => ⟨?_, get_staleData_stale _ hc 1⟩, fun hkind hfirst => by rw [batt_congr hbatts]; exact hscale hkind hfirst⟩
    rw [batt_congr hbatts]
    exact (congrArg Batt.staged (hopen.unblocked_blockCells ..) :)

theorem execBlocking_row {o : RowOp} {s : State} {c l : Nat} {y : Layer} (hlayer : s.battLayer o.batt = some (c, l, y))
    (hmay : s.mayBlock o = true) (hkind : o.kind < 3) : exec (.blocking o) s = .next (s.blockRow o c l y) := by
  show execBlocking o s = _
  unfold execBlocking
  rw [hlayer]
  exact congrArg Host.Outcome.next (if_pos ⟨hmay, hkind⟩)

theorem execSpareFill_row {o : RowOp} {s : State} {c l : Nat} {y : Layer} (hlayer : s.battLayer o.batt = some (c, l, y))
    (hmay : s.mayBlock o = true) (hkind : o.kind = 3) (hfilling : (s.batt o.batt).filling ≠ []) :
    exec (.spareFill o) s = .next (s.blockRow o c l y) := by
  show execSpareFill o s = _
  unfold execSpareFill
  rw [hlayer]
  exact congrArg Host.Outcome.next (if_pos ⟨hmay, hkind, hfilling⟩)

theorem battLayer_eq_none_of_owner {s : State} {b : Nat} (h : (s.batt b).owner = none) : s.battLayer b = none := by
  unfold State.battLayer
  rw [h]

theorem execBlocking_pattern {o : RowOp} {s : State} {runs : List RowRun} (hdue : s.patternDue o.batt = true) (hmay : s.mayBlock o = true)
    (hkind : o.kind = 1) (hruns : s.rowRuns o.batt (State.patternCode o.row) o.tries = some runs)
    (hfits : s.wearFits o.batt o.row (s.colCode o.batt (State.patternCode o.row)) runs = true) :
    exec (.blocking o) s = .next ((s.blockCells o (State.patternCode o.row) runs).stageRow o ((runs.getLast?.map State.lastReads).getD [])) := by
  have howner : (s.batt o.batt).owner = none := by
    unfold State.patternDue at hdue
    simp only [Bool.and_eq_true, decide_eq_true_eq] at hdue
    exact hdue.1.2
  have hpattern : s.blockPattern o = (s.blockCells o (State.patternCode o.row) runs).stageRow o ((runs.getLast?.map State.lastReads).getD []) := by
    unfold State.blockPattern
    rw [hruns]
    exact if_pos hfits
  rw [← hpattern]
  show execBlocking o s = _
  unfold execBlocking
  rw [battLayer_eq_none_of_owner howner]
  exact congrArg Host.Outcome.next (if_pos ⟨hdue, hmay, hkind⟩)

/-- Settles O24: a row of the owner's layer, whichever command blocks it, and a row with the factory pattern. -/
theorem rowOperations : Obligations.RowOperations := by
  intro o s hmay worked staged
  refine ⟨?_, ?_⟩
  · intro c l y hlayer v target runs hruns hfits result
    have hresult : result (s.blockRow o c l y) := blockRow_leaves hruns hfits
    exact ⟨fun hkind => ⟨_, execBlocking_row hlayer hmay hkind, hresult⟩,
      fun hkind hfilling => ⟨_, execSpareFill_row hlayer hmay hkind hfilling, hresult⟩⟩
  · intro runs hdue hkind hruns hfits
    have hopen := RowOpened.refl o s
    exact ⟨_, execBlocking_pattern hdue hmay hkind hruns hfits, hopen.worked_stageRow .., hopen.staged_stageRow ..⟩

end Sys2Proof.Machine
end

section
/-! Events at a closing tick (R356), the beginning of a step and its hatbox (R240, R266, R282), and carding (R243). -/
namespace Sys2Proof.Machine

/-! Events at a closing tick. -/

theorem get_eventAt {g : Fld} {j : Nat} (hg : g.addr j ∉ eventWords) (s : State) (st k i d0 d1 : Nat) :
    (s.eventAt st k i d0 d1).get g j = s.get g j := get_event hg { s with frame := s.frame + 1 } ..

theorem get_eventAtOpen {g : Fld} {j : Nat} (hg : g.addr j ∉ eventWords) (s : State) (st k i : Nat) :
    (s.eventAtOpen st k i).get g j = s.get g j := get_eventAt hg s.drawn.drawn ..

theorem loggedAt_eventAtOpen (s : State) (st k i : Nat) : ∃ d0 d1, LoggedAt st k i d0 d1 s (s.eventAtOpen st k i) :=
  ⟨s.draw, s.drawn.draw, logged_event { s.drawn.drawn with frame := s.frame + 1 } st k i s.draw s.drawn.draw⟩

/-- What comes before an event logs it where it leaves the log, the frame and PTP time alone. -/
theorem LoggedAt.congr_left {st k i d0 d1 : Nat} {s u t : State} (h : LoggedAt st k i d0 d1 u t) (hflt : u.flt = s.flt)
    (hframe : u.frame = s.frame) (hports : u.ports = s.ports) : LoggedAt st k i d0 d1 s t := by
  unfold LoggedAt Logged at h ⊢
  simpa only [hflt, hframe, hports] using h

theorem LoggedAt.congr_right {st k i d0 d1 : Nat} {s t v : State} (h : LoggedAt st k i d0 d1 s t) (hflt : v.flt = t.flt) :
    LoggedAt st k i d0 d1 s v := by
  unfold LoggedAt Logged at h ⊢
  rwa [hflt]

theorem ctx_congr {s t : State} (h : t.ctxs = s.ctxs) (c : Nat) : t.ctx c = s.ctx c := congrArg (fun m => tget Ctx.empty m c) h

theorem ctx_eventAtOpen (s : State) (st k i c : Nat) : (s.eventAtOpen st k i).ctx c = s.ctx c :=
  ctx_congr ((keeps_eventAtOpen (Keeps.refl 0xC21000084 s) rfl).same .ctxs rfl) c

/-- The words of a context's registers are none of those that an event counts in. -/
theorem ctxWord_notMem_eventWords {g : Fld} (hbase : 0x300000 ≤ g.base) (c : Nat) : g.addr c ∉ eventWords := by
  simp only [eventWords, Fld.addr, F.FLT_LOG_NEXT, F.ETH_TX_LOST_STREAMS, List.mem_cons, List.not_mem_nil, or_false]
  omega

/-! A step begins (R240, R266). -/

/-- The context before the step's record is made: the hatbox's outcome counted and shown. -/
theorem ctx_showBegin_countFit (s : State) (c : Nat) (t : Template) (l : List Sample) (f : Fit) (d : Nat) :
    ((s.countFit c t l f).showBegin c).ctx d = s.ctx d :=
  ctx_congr ((keeps_showBegin (keeps_countFit (Keeps.refl 0xC21062084 s) rfl) rfl).same .ctxs rfl) d

/-- The run that a step begins with. -/
def State.begunRun (s : State) (c : Nat) (t : Template) (f : Fit) : StepRun :=
  StepRun.start (s.stepNo c) f t.hbxPolicy s.frame (BitVec.ofNat 32 (s.seen F.CTX_LR_SCALE_LR_SCALE c))

/-- The samples that a step of the context may take. -/
def State.stepFit (s : State) (c : Nat) (t : Template) : Fit := hbxFit t ((s.ripe c).take t.stepSamples)

def State.stepBegun (s : State) (c : Nat) (t : Template) : State := s.beginStep c t ((s.ripe c).take t.stepSamples)

theorem beginStep_leaves (s : State) (c : Nat) (t : Template) :
    ((s.stepBegun c t).ctx c).intake = (s.ctx c).intake.drop (s.stepFit c t).taken.length ∧
      ((s.stepBegun c t).ctx c).step = some (s.begunRun c t (s.stepFit c t)) ∧
      ((s.stepBegun c t).ctx c).log.length = (s.ctx c).log.length + if (s.stepFit c t).abort then 0 else 1 := by
  unfold State.stepBegun State.beginStep
  dsimp only
  rw [ctx_updCtx_same, ctx_showBegin_countFit]
  refine ⟨rfl, rfl, ?_⟩
  change (if (s.stepFit c t).abort = true then (s.ctx c).log else _ ++ _).length = _
  split
  · rfl
  · exact List.length_append

theorem execStepBegin_eq {s : State} {c : Nat} {t : Template} (htemplate : s.template c = some t) (hphase : s.phase = 1)
    (hserving : s.serving c = true) (hnone : (s.ctx c).step = none) (hreplays : (s.ctx c).replays = []) :
    exec (.stepBegin c) s = .next (if t.multi then
      match (s.ctx c).exch.startAt with
      | some n => if n ≤ s.frame then s.stepBegun c t else s
      | none =>
        if s.stepDue c t = true ∧ (s.ctx c).exch.ready = false then (s.sendRec c 1 0 s.frame 0).updExch c (fun e => { e with ready := true })
        else s
    else if s.stepDue c t then s.stepBegun c t else s) := by
  show execStepBegin c s = _
  unfold execStepBegin
  rw [htemplate]
  refine congrArg Host.Outcome.next ((if_neg (not_not_intro hreplays)).trans ?_)
  unfold State.startStep
  exact if_neg (by simp [hphase, hserving, hnone])

theorem stepBegin_begins {s : State} {c : Nat} {t : Template} (htemplate : s.template c = some t) (hphase : s.phase = 1)
    (hserving : s.serving c = true) (hnone : (s.ctx c).step = none) (hreplays : (s.ctx c).replays = [])
    (hdue : (t.multi = false ∧ s.stepDue c t = true) ∨ (t.multi = true ∧ ∃ n, (s.ctx c).exch.startAt = some n ∧ n ≤ s.frame)) :
    exec (.stepBegin c) s = .next (s.stepBegun c t) := by
  rw [execStepBegin_eq htemplate hphase hserving hnone hreplays]
  obtain ⟨hone, hdue⟩ | ⟨hmulti, n, hstart, hn⟩ := hdue
  · rw [if_neg (by simp [hone]), if_pos hdue]
  · rw [if_pos hmulti, hstart]
    exact congrArg Host.Outcome.next (if_pos hn)

theorem records_sendRec {s : State} {c : Nat} {t : Template} (htemplate : s.template c = some t) (type arg frame nonFinite : Nat) :
    (s.sendRec c type arg frame nonFinite).fr.records.length = s.fr.records.length + 1 := by
  unfold State.sendRec
  rw [htemplate]
  dsimp only
  unfold State.toMembers
  rw [htemplate]
  exact List.length_append

theorem stepBegin_ready {s : State} {c : Nat} {t : Template} (htemplate : s.template c = some t) (hphase : s.phase = 1)
    (hserving : s.serving c = true) (hnone : (s.ctx c).step = none) (hreplays : (s.ctx c).replays = []) (hmulti : t.multi = true)
    (hstart : (s.ctx c).exch.startAt = none) (hdue : s.stepDue c t = true) (hready : (s.ctx c).exch.ready = false) :
    Completes (.stepBegin c) s (fun u => (u.ctx c).exch.ready = true ∧ u.fr.records.length = s.fr.records.length + 1) := by
  refine ⟨(s.sendRec c 1 0 s.frame 0).updExch c (fun e => { e with ready := true }), ?_, ?_, ?_⟩
  · rw [execStepBegin_eq htemplate hphase hserving hnone hreplays, if_pos hmulti, hstart]
    exact congrArg Host.Outcome.next (if_pos ⟨hdue, hready⟩)
  · unfold State.updExch
    rw [ctx_updCtx_same]
  · unfold State.updExch
    rw [State.updCtx_fr]
    exact records_sendRec htemplate ..

/-! Carding (R243). -/

/-- A fold of operations, one after another: the state before each of them. -/
def State.afterOps (p : Nat) (l : List DmaDesc) (s : State) (n : Nat) : State := (l.take n).foldl (fun s d => s.dmaOp p d 1) s

theorem afterOps_succ {p n : Nat} {l : List DmaDesc} {d : DmaDesc} (h : l[n]? = some d) (s : State) :
    State.afterOps p l s (n + 1) = (State.afterOps p l s n).dmaOp p d 1 := by
  unfold State.afterOps
  rw [List.take_add_one, h, List.foldl_append]
  rfl

theorem execCopy_runs {u : State} {p : Nat} {d : DmaDesc} (hok : d.ok 1 = true) (hrun : u.mayRun p 3 = true)
    (huntouched : u.dmaUntouched p d 1 = true) : exec (.copy p d) u = .next (u.dmaOp p d 1) := by
  show u.dma p d 1 = _
  unfold State.dma
  rw [if_pos hok, hrun, huntouched]
  rfl

theorem carding_runs {s : State} {o : CardOp} {t : Template} {k : Card} {a : Shard} {p : Nat} (htemplate : s.template o.ctx = some t)
    (hcard : t.card o.card = some k) (hshard : (t.maps.getD k.src [])[o.shard]? = some a) (hmodule : a.module = s.ownId)
    (hphys : s.physOf a.core = some p) (hrun : s.mayRun p 3 = true) (hactive : s.active p = o.ctx) :
    exec (.carding o) s = .next (s.card p o.ctx k a (t.maps.getD k.dst [])) := by
  show execCarding o s = _
  unfold execCarding
  rw [htemplate]
  dsimp only
  rw [hcard]
  dsimp only
  rw [hshard]
  dsimp only
  rw [hphys]
  exact congrArg Host.Outcome.next (if_pos ⟨hrun, hactive, hmodule⟩)

/-- The descriptors of an entry run as copies, each on the state that those before it leave. -/
theorem carding_copies {s : State} {i : Instr} {p : Nat} {l : List DmaDesc} (hexec : exec i s = .next (l.foldl (fun s d => s.dmaOp p d 1) s)) :
    Completes i s (fun t => ∃ u : Nat → State, u 0 = s ∧ t = u l.length ∧ ∀ n d, l[n]? = some d →
      d.ok 1 = true → (u n).mayRun p 3 = true → (u n).dmaUntouched p d 1 = true → exec (.copy p d) (u n) = .next (u (n + 1))) := by
  refine ⟨_, hexec, State.afterOps p l s, rfl, ?_, fun n d hd hok hrun huntouched => ?_⟩
  · unfold State.afterOps
    rw [List.take_length]
  · rw [afterOps_succ hd]
    exact execCopy_runs hok hrun huntouched

end Sys2Proof.Machine
end

section
/-! UPDATE of a step on one module: its scalars, and the tensors it updates (R260, R261, R445). -/
namespace Sys2Proof.Machine

/-- The step in progress of a context. -/
def State.run (s : State) (c : Nat) : Option StepRun := (s.ctx c).step

theorem run_congr {s t : State} (h : t.ctxs = s.ctxs) (c : Nat) : t.run c = s.run c := congrArg Ctx.step (ctx_congr h c)

@[simp] theorem run_updRun (s : State) (c : Nat) (f : StepRun → StepRun) : (s.updRun c f).run c = (s.run c).map f :=
  congrArg Ctx.step (ctx_updCtx_same ..)

/-! The scalars (R260). -/

/-- What a step's scalars consist of that UPDATE leaves: n_tot, η, β1^t, β2^t and 1 / n_tot. -/
def StepRun.scalars (r : StepRun) : Nat × Word × Word × Word × Word := (r.nTot, r.eta, r.p1, r.p2, r.invN)

/-- The scalars of a step on one module (R260). -/
def State.ownScalars (s : State) (c : Nat) (t : Template) (r : StepRun) : Nat × Word × Word × Word × Word :=
  (r.samples.length, fmul r.lrScale (etaSched t.schedule (s.ctx c).updates), fmul (s.ctx c).p1 t.beta1, fmul (s.ctx c).p2 t.beta2,
    fdiv 0x3F800000 (f32Nat r.samples.length))

theorem ctx_confirmRange (s : State) (c : Nat) (fails : List Nat) (d : Nat) : (s.confirmRange c fails).ctx d = s.ctx d :=
  ctx_congr ((keeps_confirmRange (Keeps.refl 0x429042484 s) rfl).same .ctxs rfl) d

theorem scalars_localScalars {s : State} {c : Nat} {r : StepRun} (hrun : s.run c = some r) (t : Template) (losses : Nat) :
    ((s.localScalars c t r losses).run c).map StepRun.scalars = some (s.ownScalars c t r) := by
  unfold State.localScalars State.formScalars
  dsimp only
  rw [run_updRun, run_updRun, State.run, ctx_confirmRange, ← State.run, hrun]
  rfl

/-! The tensors (R261). -/

theorem run_updateTensor (c : Nat) (t : Template) (r : StepRun) (opM opV : Nat) (s : State) (x : Tensor) :
    (State.updateTensor c t r opM opV s x).run c = (s.run c).map (fun q => { q with updated := q.updated ++ [x.id] }) := by
  unfold State.updateTensor
  extract_lets u v
  have hu : u.run c = s.run c := run_congr ((Keeps.foldl (Keeps.refl 0x102000 s) fun v _ => keeps_updateOne (Keeps.refl _ v) rfl).same .ctxs rfl) c
  have hv : v.run c = u.run c := by
    unfold v
    split
    · rfl
    · exact run_congr ((Keeps.setWords (Keeps.refl 0x100000 u) rfl).same .ctxs rfl) c
  rw [run_updRun, hv, hu]

/-- Tensors updated one after another are noted in their order. -/
theorem run_foldl_updateTensor {c : Nat} {s : State} {q : StepRun} (hrun : s.run c = some q) (t : Template) (r : StepRun) (opM opV : Nat)
    (xs : List Tensor) :
    (xs.foldl (State.updateTensor c t r opM opV) s).run c = some { q with updated := q.updated ++ xs.map (fun x => x.id) } := by
  induction xs generalizing s q with
  | nil => rw [List.map_nil, List.append_nil]; exact hrun
  | cons x l ih =>
    have hx := run_updateTensor c t r opM opV s x
    rw [hrun] at hx
    rw [List.foldl_cons, ih hx, List.map_cons, List.append_assoc]
    rfl

/-- A portion of new masters that a command sends (R288). -/
def State.sendMasters (c : Nat) (t : Template) (s : State) (f : Xfer) : State :=
  match t.tensor f.tensor with
  | some x => if f.kind = 5 ∧ t.multi then s.sendXfer c t f 0 (s.masterBytes c x f) else s
  | none => s

/-- On one module UPDATE sends no portion. -/
theorem foldl_sendMasters_eq {t : Template} (hone : t.multi = false) (c : Nat) (xfers : List Xfer) (s : State) :
    xfers.foldl (State.sendMasters c t) s = s := by
  refine foldl_keeps_value id xfers s fun u f _ => ?_
  unfold State.sendMasters
  split
  · exact if_neg (by simp [hone])
  · rfl

/-- The tensors that a command updates. -/
def State.updateTodo (s : State) (c : Nat) (t : Template) (o : UpdateOp) (r : StepRun) : List Tensor :=
  t.tensors.filter (fun x => o.tensors.contains x.id && !r.updated.contains x.id && !s.awaitsMoments c t x)

/-- With no moments on their way every tensor named is updated once (R461). -/
theorem updateTodo_eq {s : State} {c : Nat} (hadopt : (s.ctx c).exch.adopting = []) (t : Template) (o : UpdateOp) (r : StepRun) :
    s.updateTodo c t o r = t.tensors.filter (fun x => o.tensors.contains x.id && !r.updated.contains x.id) := by
  unfold State.updateTodo State.awaitsMoments
  rw [hadopt]
  simp

/-- The run once a command has updated its tensors: the last of them ends UPDATE. -/
def StepRun.afterUpdate (t : Template) (r : StepRun) (ids : List Nat) : StepRun :=
  { r with
    updated := r.updated ++ ids, stage := if t.tensors.all (fun x => (r.updated ++ ids).contains x.id) ∧ r.stage = 1 then 3 else r.stage }

theorem update_eq_self {s : State} {c : Nat} {r : StepRun} (hrun : s.run c = some r) (hstage : r.stage = 0 ∨ r.stage = 3 ∨ r.held)
    (t : Template) (o : UpdateOp) : s.update c t o = s := by
  unfold State.update
  rw [show (s.ctx c).step = some r from hrun]
  exact if_pos hstage

/-- Every tensor of the context's step is updated. -/
def State.allUpdated (s : State) (c : Nat) (t : Template) : Bool :=
  match s.run c with
  | some q => t.tensors.all (fun x => q.updated.contains x.id)
  | none => false

theorem update_eq {s : State} {c : Nat} {r : StepRun} (hrun : s.run c = some r) (hstage : ¬(r.stage = 0 ∨ r.stage = 3 ∨ r.held))
    (t : Template) (o : UpdateOp) : s.update c t o =
      (let v := o.xfers.foldl (State.sendMasters c t) ((s.updateTodo c t o r).foldl (State.updateTensor c t r o.opM o.opV) s)
      if v.allUpdated c t = true ∧ r.stage = 1 then v.updateDone c t else v) := by
  unfold State.update
  rw [show (s.ctx c).step = some r from hrun]
  exact if_neg hstage

theorem run_updateDone {s : State} {t : Template} (hone : t.multi = false) (c : Nat) :
    (s.updateDone c t).run c = (s.run c).map (fun r => { r with stage := 3 }) := by
  unfold State.updateDone
  rw [if_neg (by simp [hone]), run_updRun]

theorem run_update {s : State} {c : Nat} {r : StepRun} (hrun : s.run c = some r) (hstage : ¬(r.stage = 0 ∨ r.stage = 3 ∨ r.held))
    {t : Template} (hone : t.multi = false) (o : UpdateOp) :
    (s.update c t o).run c = some (r.afterUpdate t ((s.updateTodo c t o r).map (fun x => x.id))) := by
  have hfold := run_foldl_updateTensor hrun t r o.opM o.opV (s.updateTodo c t o r)
  rw [update_eq hrun hstage, foldl_sendMasters_eq hone]
  dsimp only
  generalize (s.updateTodo c t o r).foldl (State.updateTensor c t r o.opM o.opV) s = v at hfold
  have hall : v.allUpdated c t = t.tensors.all (fun x => (r.updated ++ (s.updateTodo c t o r).map (fun x => x.id)).contains x.id) := by
    unfold State.allUpdated
    rw [hfold]
  rw [hall]
  unfold StepRun.afterUpdate
  split
  · rw [run_updateDone hone, hfold]
    rfl
  · exact hfold

theorem scalars_update (s : State) (c : Nat) {t : Template} (hone : t.multi = false) (o : UpdateOp) :
    ((s.update c t o).run c).map StepRun.scalars = (s.run c).map StepRun.scalars := by
  cases hrun : s.run c with
  | none =>
    unfold State.update
    rw [show (s.ctx c).step = none from hrun]
    exact congrArg _ hrun
  | some r =>
    by_cases hstage : r.stage = 0 ∨ r.stage = 3 ∨ r.held
    · rw [update_eq_self hrun hstage, hrun]
    · rw [run_update hrun hstage hone]
      rfl

/-! The command. -/

section
variable {s : State} {o : UpdateOp} {t : Template} {r : StepRun} (htemplate : s.template o.ctx = some t) (hrun : s.run o.ctx = some r)
  (hphase : s.phase = 1) (hgoes : r.abort = false) (hfree : r.held = false)
include htemplate hrun hphase hgoes hfree

theorem execOptimizerUpdate_eq : exec (.optimizerUpdate o) s = .next (if s.pinned o.ctx then s.bump F.CKPT_STATS_STALLS o.ctx 1
    else (if r.stage = 0 ∧ t.multi = false then s.localScalars o.ctx t r o.losses else s).update o.ctx t o) := by
  show execOptimizerUpdate o s = _
  unfold execOptimizerUpdate
  rw [htemplate, show (s.ctx o.ctx).step = some r from hrun]
  exact congrArg Host.Outcome.next (if_neg (by simp [hphase, hgoes, hfree]))

theorem optimizerUpdate_stalls (hc : o.ctx < 1024) (hpinned : s.pinned o.ctx = true) :
    Completes (.optimizerUpdate o) s (Advanced F.CKPT_STATS_STALLS o.ctx 1 s) := by
  refine ⟨_, execOptimizerUpdate_eq htemplate hrun hphase hgoes hfree, ?_⟩
  rw [if_pos hpinned]
  exact advanced_bump rfl hc 1 s

variable (hopen : s.pinned o.ctx = false) (hone : t.multi = false)
include hopen hone

theorem optimizerUpdate_forms (hstage : r.stage = 0) : Completes (.optimizerUpdate o) s (fun u =>
    ∃ q, u.run o.ctx = some q ∧ q.scalars = s.ownScalars o.ctx t r) := by
  refine ⟨_, execOptimizerUpdate_eq htemplate hrun hphase hgoes hfree, ?_⟩
  rw [if_neg (by simp [hopen]), if_pos ⟨hstage, hone⟩]
  exact Option.map_eq_some_iff.mp ((scalars_update _ o.ctx hone o).trans (scalars_localScalars hrun t o.losses))

theorem optimizerUpdate_updates (hstage : r.stage = 1) : Completes (.optimizerUpdate o) s (fun u =>
    u.run o.ctx = some (r.afterUpdate t ((s.updateTodo o.ctx t o r).map (fun x => x.id)))) := by
  refine ⟨_, execOptimizerUpdate_eq htemplate hrun hphase hgoes hfree, ?_⟩
  rw [if_neg (by simp [hopen]), if_neg (by simp [hstage])]
  exact run_update hrun (by simp [hstage, hfree]) hone o
end

end Sys2Proof.Machine
end

section
/-! The commit of a step, and the step that is held instead (R131, R263 to R265, R283). -/
namespace Sys2Proof.Machine

/-! A context's progress: rounds, window, applied updates with their powers of β, slots, and the step in progress. -/

def Ctx.progress (x : Ctx) : Nat × Nat × Nat × Word × Word × Nat × Option StepRun :=
  (x.roundPos, x.window, x.updates, x.p1, x.p2, x.slots, x.step)

def State.progress (s : State) (c : Nat) : Nat × Nat × Nat × Word × Word × Nat × Option StepRun := (s.ctx c).progress

theorem progress_congr {s t : State} (h : t.ctxs = s.ctxs) (c : Nat) : t.progress c = s.progress c := congrArg Ctx.progress (ctx_congr h c)

/-- A change of a context that leaves its progress. -/
theorem progress_updCtx_keeps {f : Ctx → Ctx} (hf : ∀ x : Ctx, (f x).progress = x.progress) (s : State) (d c : Nat) :
    (s.updCtx d f).progress c = s.progress c := by
  unfold State.progress
  rw [ctx_updCtx]
  split
  · next h => rw [hf, h]
  · rfl

theorem progress_updCtx (s : State) (c : Nat) (f : Ctx → Ctx) : (s.updCtx c f).progress c = (f (s.ctx c)).progress :=
  congrArg Ctx.progress (ctx_updCtx_same ..)

theorem progress_updLayer (s : State) (d l : Nat) (f : LayerSt → LayerSt) (c : Nat) : (s.updLayer d l f).progress c = s.progress c :=
  progress_updCtx_keeps (fun _ => by rfl) s d c

theorem progress_showFallback (s : State) (d l : Nat) (y : Layer) (c : Nat) : (s.showFallback d l y).progress c = s.progress c :=
  congrArg Ctx.progress (ctx_showFallback ..)

theorem progress_transfer (s : State) (b d l : Nat) (y : Layer) (r since : Nat) (tail : Bool) (c : Nat) :
    (s.transfer b d l y r since tail).progress c = s.progress c := by
  unfold State.transfer
  exact progress_updCtx_keeps (fun _ => by rfl) _ d c

theorem progress_transferAll (s : State) (d c : Nat) : (s.transferAll d).progress c = s.progress c := by
  refine foldl_keeps_value (fun u => u.progress c) _ s fun u b _ => ?_
  split
  · split
    · exact foldl_keeps_value (fun u => u.progress c) _ u fun v r _ => progress_transfer ..
    · rfl
  · rfl

theorem progress_rescales (s : State) (d : Nat) (t : Template) (c : Nat) : (s.rescales d t).progress c = s.progress c := by
  refine foldl_keeps_value (fun u => u.progress c) _ s fun u p _ => ite_keeps_value (fun u => u.progress c) ?_ _
  rw [progress_showFallback, State.toMatrix, progress_updLayer]

theorem progress_commitLayers (s : State) (d : Nat) (t : Template) (stepping : Bool) (c : Nat) :
    (s.commitLayers d t stepping).progress c = s.progress c := by
  refine foldl_keeps_value (fun u => u.progress c) _ s fun u p _ => ?_
  rw [progress_showFallback, progress_updLayer]

theorem progress_countSkip (s : State) (d : Nat) (r : StepRun) (c : Nat) : (s.countSkip d r).progress c = s.progress c := by
  unfold State.countSkip
  split
  · rfl
  · extract_lets u v
    have hu : u.progress c = s.progress c := progress_congr ((State.put_ctxs ..).trans (State.bump_ctxs ..)) c
    have hv : v.progress c = s.progress c := (progress_updCtx_keeps (fun _ => by rfl) u d c).trans hu
    split
    · exact (progress_congr (State.bump_ctxs ..) c).trans hv
    · exact ((congrArg Ctx.progress (ctx_eventAtOpen ..)).trans (progress_congr (State.raise_ctxs ..) c)).trans hv

theorem progress_closeEntry (s : State) (d : Nat) (r : StepRun) (skipped : Bool) (c : Nat) :
    (s.closeEntry d r skipped).progress c = s.progress c := progress_updCtx_keeps (fun _ => by rfl) s d c

theorem progress_countReplay (s : State) (d : Nat) (t : Template) (r : StepRun) (c : Nat) :
    (s.countReplay d t r).progress c = s.progress c := by
  unfold State.countReplay
  split
  · extract_lets u
    have hu : u.progress c = s.progress c := (progress_updCtx_keeps (fun _ => by rfl) _ d c).trans (progress_congr (State.bump_ctxs ..) c)
    split
    · exact hu
    · exact (progress_congr ((State.raise_ctxs ..).trans (State.bump_ctxs ..)) c).trans hu
  · rfl

theorem progress_takeCkpt (s : State) (d : Nat) (t : Template) (samples : List Sample) (c : Nat) :
    (s.takeCkpt d t samples).progress c = s.progress c := by
  refine progress_updCtx_keeps (fun x => ?_) s d c
  split
  · split <;> rfl
  · rfl

/-! The commit, stage by stage. -/

/-- What the step leaves is applied, or the step counts as skipped (R263, R265). -/
def State.stepTaken (s : State) (c : Nat) (t : Template) (r : StepRun) (skipped : Bool) : State :=
  if skipped then (s.countSkip c r).rescales c t else s.applyUpdate c t r

/-- The number and the loss of the committed step in the registers (R265). -/
def State.stepShown (s : State) (c : Nat) (r : StepRun) : State :=
  ((s.put F.CTX_STEP_LO_STEP_LO c (r.step % 2 ^ 32)).put F.CTX_STEP_HI_STEP_HI c (r.step / 2 ^ 32)).put F.CTX_LOSS_LOSS c r.loss.toNat

/-- The layers' decisions taken, the samples consumed and the round counted (R265). -/
def State.stepCounted (s : State) (c : Nat) (t : Template) (r : StepRun) : State :=
  let u := (s.commitLayers c t true).consume r.samples
  u.updCtx c (fun x => { x with
    roundPos := x.roundPos + 1, dispatched := 0, window := u.frame + 1,
    trained := x.trained + r.samples.length, ckpt := { x.ckpt with fresh := true } })

/-- The log closed and the step over (R450, R460). -/
def State.stepEnded (s : State) (c : Nat) (t : Template) (r : StepRun) (skipped : Bool) : State :=
  let u := ((s.closeEntry c r skipped).countReplay c t r).updCtx c (fun x => { x with step := none, exch := x.exch.next })
  (u.put F.EXCH_STEP_ATTEMPT c 0).takeCkpt c t r.samples

def StepRun.skipped (r : StepRun) : Bool := r.nonFinite || decide (r.nTot = 0)

theorem commitStep_eq (s : State) (c : Nat) (t : Template) (r : StepRun) : s.commitStep c t r =
    (((s.stepTaken c t r r.skipped).stepShown c r).stepCounted c t r).stepEnded c t r r.skipped := rfl

theorem progress_applyUpdate (s : State) (c : Nat) (t : Template) (r : StepRun) :
    (s.applyUpdate c t r).progress c = ((s.ctx c).roundPos, (s.ctx c).window, (s.ctx c).updates + 1, r.p1, r.p2,
      flipSlots (s.ctx c).slots t.slotMask, (s.ctx c).step) := by
  unfold State.applyUpdate
  dsimp only
  rw [progress_rescales, progress_transferAll, progress_congr (State.put_ctxs ..), progress_updCtx, State.swapped, ctx_updCtx_same]
  rfl

theorem progress_skipped (s : State) (c : Nat) (t : Template) (r : StepRun) : (s.stepTaken c t r true).progress c = s.progress c := by
  unfold State.stepTaken
  rw [if_pos rfl, progress_rescales, progress_countSkip]

theorem ctx_stepShown (s : State) (c : Nat) (r : StepRun) (d : Nat) : (s.stepShown c r).ctx d = s.ctx d :=
  ctx_congr ((State.put_ctxs ..).trans ((State.put_ctxs ..).trans (State.put_ctxs ..))) d

theorem progress_consume (s : State) (l : List Sample) (c : Nat) : (s.consume l).progress c = s.progress c :=
  progress_congr ((keeps_consume (Keeps.refl 0x1000000 s) rfl).same .ctxs rfl) c

/-- A round more, and the window opens at the frame that the commit's tick opens. -/
theorem progress_stepCounted (s : State) (c : Nat) (t : Template) (r : StepRun) : (s.stepCounted c t r).progress c =
    ((s.ctx c).roundPos + 1, s.frame + 1, (s.ctx c).updates, (s.ctx c).p1, (s.ctx c).p2, (s.ctx c).slots, (s.ctx c).step) := by
  unfold State.stepCounted
  extract_lets u
  have hu : (u.ctx c).progress = (s.ctx c).progress := (progress_consume ..).trans (progress_commitLayers ..)
  have hframe : u.frame = s.frame := (keeps_consume (keeps_commitLayers (Keeps.refl 0x3001000 s) rfl) rfl).same .frame rfl
  rw [progress_updCtx, hframe]
  simp only [Ctx.progress, Prod.mk.injEq] at hu ⊢
  obtain ⟨hround, -, hrest⟩ := hu
  exact ⟨congrArg (· + 1) hround, trivial, hrest⟩

theorem progress_stepEnded (s : State) (c : Nat) (t : Template) (r : StepRun) (skipped : Bool) :
    (s.stepEnded c t r skipped).progress c =
      ((s.ctx c).roundPos, (s.ctx c).window, (s.ctx c).updates, (s.ctx c).p1, (s.ctx c).p2, (s.ctx c).slots, none) := by
  unfold State.stepEnded
  extract_lets u
  have hlog : (((s.closeEntry c r skipped).countReplay c t r).ctx c).progress = (s.ctx c).progress :=
    (progress_countReplay ..).trans (progress_closeEntry ..)
  rw [progress_takeCkpt, progress_congr (State.put_ctxs ..), show u.progress c = _ from progress_updCtx ..]
  simp only [Ctx.progress, Prod.mk.injEq] at hlog ⊢
  obtain ⟨hround, hwindow, hupdates, hp1, hp2, hslots, -⟩ := hlog
  exact ⟨hround, hwindow, hupdates, hp1, hp2, hslots, trivial⟩

theorem frame_stepTaken (s : State) (c : Nat) (t : Template) (r : StepRun) (skipped : Bool) : (s.stepTaken c t r skipped).frame = s.frame := by
  have hkeeps : Keeps 0xC27043084 s (s.stepTaken c t r skipped) :=
    Keeps.ite (keeps_rescales (keeps_countSkip (Keeps.refl _ s) rfl) rfl) (keeps_applyUpdate (Keeps.refl _ s) rfl)
  exact hkeeps.same .frame rfl

theorem frame_stepShown (s : State) (c : Nat) (r : StepRun) : (s.stepShown c r).frame = s.frame :=
  (State.put_frame ..).trans ((State.put_frame ..).trans (State.put_frame ..))

/-- A commit counts the round and ends the step; the rest of the progress is as the step was taken. -/
theorem progress_commitStep (s : State) (c : Nat) (t : Template) (r : StepRun) :
    let x := (s.stepTaken c t r r.skipped).ctx c
    (s.commitStep c t r).progress c = (x.roundPos + 1, s.frame + 1, x.updates, x.p1, x.p2, x.slots, none) := by
  intro x
  have hcounted := progress_stepCounted ((s.stepTaken c t r r.skipped).stepShown c r) c t r
  rw [ctx_stepShown, frame_stepShown, frame_stepTaken] at hcounted
  simp only [State.progress, Ctx.progress, Prod.mk.injEq] at hcounted
  obtain ⟨hround, hwindow, hupdates, hp1, hp2, hslots, -⟩ := hcounted
  rw [commitStep_eq, progress_stepEnded, hround, hwindow, hupdates, hp1, hp2, hslots]

/-! The registers that a commit writes. -/

theorem get_stepShown_step (s : State) {c : Nat} (hc : c < 1024) (r : StepRun) :
    (s.stepShown c r).get F.CTX_STEP_LO_STEP_LO c = r.step % 2 ^ 32 := by
  unfold State.stepShown
  rw [get_put_addr _ (addr_ne_addr rfl c), get_put_addr _ (addr_ne_addr rfl c), get_put_same s rfl hc]
  exact Nat.mod_mod ..

theorem get_stepShown_loss (s : State) {c : Nat} (hc : c < 1024) (r : StepRun) : (s.stepShown c r).get F.CTX_LOSS_LOSS c = r.loss.toNat := by
  unfold State.stepShown
  rw [get_put_same _ rfl hc]
  exact Nat.mod_eq_of_lt r.loss.isLt

section
variable {g : Fld} (hin : g.inBlock = true) (hblock : blockOf g.base = .regsCtx)
  (hreplay : F.CKPT_REPLAY_RECOMPUTED.otherWord g = true) (hevt : F.CKPT_EVT_DIVERGED.otherWord g = true)
  (hattempt : F.EXCH_STEP_ATTEMPT.otherWord g = true) {c : Nat} (hc : c < g.count)

include hin hblock hc in
theorem get_stepCounted (s : State) (t : Template) (r : StepRun) : (s.stepCounted c t r).get g c = s.get g c := by
  unfold State.stepCounted
  have hkeeps : Keeps 0x3001000 s ((s.commitLayers c t true).consume r.samples) :=
    keeps_consume (keeps_commitLayers (Keeps.refl _ s) rfl) rfl
  exact (get_congr (State.updCtx_regs ..) g c).trans (hkeeps.get hin hc (by rw [hblock]; rfl))

include hreplay hevt in
theorem get_countReplay (s : State) (t : Template) (r : StepRun) : (s.countReplay c t r).get g c = s.get g c := by
  unfold State.countReplay
  split
  · extract_lets u
    have hu : u.get g c = s.get g c := (get_congr (State.updCtx_regs ..) g c).trans (get_bump_otherWord s hreplay c 1)
    split
    · exact hu
    · exact (get_raise_otherWord _ hevt c).trans ((get_bump_otherWord u (f := F.CKPT_REPLAY_DIVERGED) hreplay c 1).trans hu)
  · rfl

include hreplay hevt hattempt in
theorem get_stepEnded (s : State) (t : Template) (r : StepRun) (skipped : Bool) : (s.stepEnded c t r skipped).get g c = s.get g c := by
  unfold State.stepEnded
  extract_lets u
  have hu : u.get g c = s.get g c := (get_congr (State.updCtx_regs ..) g c).trans ((get_countReplay hreplay hevt _ t r).trans
    (get_congr (State.updCtx_regs ..) g c))
  exact (get_congr (State.updCtx_regs ..) g c).trans ((get_put_addr u (addr_ne_addr hattempt c) 0).trans hu)
end

theorem get_commitStep (s : State) {c : Nat} (hc : c < 1024) (t : Template) (r : StepRun) :
    (s.commitStep c t r).get F.CTX_STEP_LO_STEP_LO c = r.step % 2 ^ 32 ∧ (s.commitStep c t r).get F.CTX_LOSS_LOSS c = r.loss.toNat := by
  rw [commitStep_eq, get_stepEnded (by decide) (by decide) (by decide), get_stepEnded (by decide) (by decide) (by decide),
    get_stepCounted rfl rfl hc, get_stepCounted rfl rfl hc]
  exact ⟨get_stepShown_step _ hc r, get_stepShown_loss _ hc r⟩

/-- What a commit leaves, whether the step applies or is skipped. -/
theorem commitStep_commits (s : State) {c : Nat} (hc : c < 1024) (t : Template) (r : StepRun) :
    let u := s.commitStep c t r
    (u.ctx c).step = none ∧ u.get F.CTX_STEP_LO_STEP_LO c = r.step % 2 ^ 32 ∧ u.get F.CTX_LOSS_LOSS c = r.loss.toNat ∧
      (u.ctx c).roundPos = (s.ctx c).roundPos + 1 ∧ (u.ctx c).window = s.frame + 1 ∧
      (r.nonFinite = false → r.nTot ≠ 0 → (u.ctx c).updates = (s.ctx c).updates + 1 ∧ (u.ctx c).p1 = r.p1 ∧ (u.ctx c).p2 = r.p2 ∧
        (u.ctx c).slots = flipSlots (s.ctx c).slots t.slotMask) ∧
      (r.nonFinite = true ∨ r.nTot = 0 → (u.ctx c).updates = (s.ctx c).updates ∧ (u.ctx c).slots = (s.ctx c).slots) := by
  intro u
  have hu := progress_commitStep s c t r
  obtain ⟨hstep, hloss⟩ := get_commitStep s hc t r
  simp only [State.progress, Ctx.progress, Prod.mk.injEq] at hu
  obtain ⟨hround, hwindow, hupdates, hp1, hp2, hslots, hover⟩ := hu
  cases hskip : r.skipped with
  | true =>
    have hskipped : r.nonFinite = true ∨ r.nTot = 0 := by simpa [StepRun.skipped] using hskip
    have hkept := progress_skipped s c t r
    rw [← hskip] at hkept
    simp only [State.progress, Ctx.progress, Prod.mk.injEq] at hkept
    obtain ⟨kround, -, kupdates, -, -, kslots, -⟩ := hkept
    exact ⟨hover, hstep, hloss, by rw [hround, kround], hwindow, fun hfinite hsome => absurd hskipped (by simp [hfinite, hsome]),
      fun _ => ⟨hupdates.trans kupdates, hslots.trans kslots⟩⟩
  | false =>
    have happlies : ¬(r.nonFinite = true ∨ r.nTot = 0) := by simpa [StepRun.skipped] using hskip
    have hnew := progress_applyUpdate s c t r
    rw [show s.applyUpdate c t r = s.stepTaken c t r r.skipped by rw [hskip]; rfl] at hnew
    simp only [State.progress, Ctx.progress, Prod.mk.injEq] at hnew
    obtain ⟨kround, -, kupdates, kp1, kp2, kslots, -⟩ := hnew
    exact ⟨hover, hstep, hloss, by rw [hround, kround], hwindow,
      fun _ _ => ⟨hupdates.trans kupdates, hp1.trans kp1, hp2.trans kp2, hslots.trans kslots⟩, fun hskipped => absurd hskipped happlies⟩

/-! The step held instead (R131). -/

/-- The run of a held step. -/
def StepRun.hold (r : StepRun) (naps : List (Nat × Nat)) : StepRun :=
  { r with held := true, heldOnce := true, naps := naps, updated := [], stage := 1 }

theorem ctx_holdStep (s : State) (c : Nat) (naps : List (Nat × Nat)) :
    (s.holdStep c naps).ctx c = { s.ctx c with step := (s.ctx c).step.map (fun r => r.hold naps) } := by
  unfold State.holdStep State.updRun
  extract_lets first u
  have hu : u.ctx c = { s.ctx c with step := (s.ctx c).step.map (fun r => r.hold naps) } := ctx_updCtx_same ..
  split
  · exact (ctx_eventAtOpen ..).trans ((ctx_congr (State.bump_ctxs ..) c).trans hu)
  · exact hu

/-! The command. -/

section
variable {s : State} {c : Nat} {t : Template} {r : StepRun} (htemplate : s.template c = some t) (hrun : (s.ctx c).step = some r)
  (hphase : s.phase = 1) (halive : s.fr.killed = none) (hgoes : r.abort = false) (hfree : r.held = false) (hstage : r.stage = 3)
  (hlive : s.ctxLive c = 2 ∨ s.ctxLive c = 3)
include htemplate hrun hphase halive hgoes hfree hstage hlive

theorem execStepCommit_eq : exec (.stepCommit c) s = .next (if s.holdsNow c t r = [] then s.commitStep c t r else s.holdStep c (s.holdsNow c t r)) := by
  show execStepCommit c s = _
  unfold execStepCommit
  rw [htemplate, hrun]
  exact congrArg Host.Outcome.next (if_neg (by simpa [hphase, halive, hgoes, hfree, hstage] using or_iff_not_imp_left.mp hlive))

theorem stepCommit_commits (hgo : t.multi = true ∨ r.nonFinite = true ∨ r.nTot = 0 ∨ s.holdBatts c t = []) :
    exec (.stepCommit c) s = .next (s.commitStep c t r) := by
  have hnone : s.holdsNow c t r = [] := by
    unfold State.holdsNow
    split
    · rfl
    · next h =>
      push Not at h
      exact ((hgo.resolve_left h.1).resolve_left h.2.1).resolve_left h.2.2
  rw [execStepCommit_eq htemplate hrun hphase halive hgoes hfree hstage hlive, if_pos hnone]

theorem stepCommit_holds (hone : t.multi = false) (hfinite : r.nonFinite = false) (hsome : r.nTot ≠ 0) (hfull : s.holdBatts c t ≠ []) :
    exec (.stepCommit c) s = .next (s.holdStep c (s.holdBatts c t)) := by
  have hholds : s.holdsNow c t r = s.holdBatts c t := if_neg (by simp [hone, hfinite, hsome])
  rw [execStepCommit_eq htemplate hrun hphase halive hgoes hfree hstage hlive, hholds, if_neg hfull]
end

end Sys2Proof.Machine
end

section
/-! Pauses and retries of a context's steps, and the lists and fallbacks of its layers (R131, R168, R174, R179, R186, R264). -/
namespace Sys2Proof.Machine

/-! The pause at the limit of skipped steps (R264). -/

/-- The context paused by the machine. -/
def State.autoPaused (s : State) (c : Nat) : State := (s.put F.CTX_TRAIN_PAUSE c 1).put F.CTX_TRAIN_AUTO_PAUSED c 1

theorem get_autoPaused (s : State) {c : Nat} (hc : c < 1024) :
    (s.autoPaused c).get F.CTX_TRAIN_PAUSE c = 1 ∧ (s.autoPaused c).get F.CTX_TRAIN_AUTO_PAUSED c = 1 := by
  unfold State.autoPaused
  exact ⟨(get_put_apart _ rfl rfl rfl ..).trans (get_put_same s rfl hc 1), get_put_same _ rfl hc 1⟩

theorem loggedAt_autoPaused (s : State) (c st k i : Nat) : ∃ d0 d1, LoggedAt st k i d0 d1 s ((s.autoPaused c).eventAtOpen st k i) := by
  obtain ⟨d0, d1, hlogged⟩ := loggedAt_eventAtOpen (s.autoPaused c) st k i
  exact ⟨d0, d1, hlogged.congr_left ((State.put_flt ..).trans (State.put_flt ..)) ((State.put_frame ..).trans (State.put_frame ..))
    ((State.put_ports ..).trans (State.put_ports ..))⟩

theorem skipLimitPause_pauses {s : State} {c : Nat} {t : Template} (hc : c < 1024) (htemplate : s.template c = some t)
    (hskips : 0 < (s.ctx c).skips) (hlimit : t.skipLimit ≤ (s.ctx c).skips) :
    Completes (.skipLimitPause c) s (fun v => v.get F.CTX_TRAIN_PAUSE c = 1 ∧ v.get F.CTX_TRAIN_AUTO_PAUSED c = 1 ∧ (v.ctx c).skips = 0 ∧
      ∃ d0 d1, LoggedAt 0x0604 6 c d0 d1 s v) := by
  obtain ⟨hpause, hauto⟩ := get_autoPaused s hc
  obtain ⟨d0, d1, hlogged⟩ := loggedAt_autoPaused s c 0x0604 6 c
  refine ⟨((s.autoPaused c).eventAtOpen 0x0604 6 c).updCtx c (fun x => { x with skips := 0 }), ?_, ?_, ?_, ?_, d0, d1, ?_⟩
  · show execSkipLimitPause c s = _
    unfold execSkipLimitPause
    rw [htemplate]
    exact congrArg Host.Outcome.next (if_pos ⟨hskips, hlimit⟩)
  · exact (get_congr (State.updCtx_regs ..) _ c).trans ((get_eventAtOpen (ctxWord_notMem_eventWords (by decide) c) ..).trans hpause)
  · exact (get_congr (State.updCtx_regs ..) _ c).trans ((get_eventAtOpen (ctxWord_notMem_eventWords (by decide) c) ..).trans hauto)
  · rw [ctx_updCtx_same]
  · exact hlogged.congr_right (State.updCtx_flt ..)

/-! A held step taken up again (R131, R289). -/

/-- The step goes on. -/
def State.released (s : State) (c : Nat) : State := s.updRun c (fun r => { r with held := false })

/-- Across modules the exchange of the attempt is begun anew. -/
def State.resumed (s : State) (c : Nat) : State :=
  (s.released c).updExch c (fun e => { e with
    voted := false, votes := [], resumes := [], resumeAt := none, applied := [], compared := [], digests := [] })

theorem run_released {s : State} {c : Nat} {r : StepRun} (hrun : (s.ctx c).step = some r) :
    ((s.released c).ctx c).step = some { r with held := false } := by
  unfold State.released State.updRun
  rw [ctx_updCtx_same, hrun]
  rfl

section
variable {s : State} {c : Nat} {t : Template} {r : StepRun} (htemplate : s.template c = some t) (hrun : (s.ctx c).step = some r)
  (hheld : r.held = true)
include htemplate hrun hheld

theorem holdRetry_releases (hone : t.multi = false) (hshorter : ∀ b ∈ r.naps, (s.batt b.1).naps.length < b.2) :
    exec (.holdRetry c) s = .next (s.released c) := by
  have hall : r.naps.all (fun b => decide ((s.batt b.1).naps.length < b.2)) = true := by simpa using hshorter
  show execHoldRetry c s = _
  unfold execHoldRetry
  rw [htemplate, hrun]
  dsimp only
  rw [if_neg (by simp [hheld]), if_neg (by simp [hone]), if_pos hall]
  rfl

theorem holdRetry_resumes {n : Nat} (hmulti : t.multi = true) (hresume : (s.ctx c).exch.resumeAt = some n) (hn : n ≤ s.frame + 1) :
    exec (.holdRetry c) s = .next (s.resumed c) := by
  show execHoldRetry c s = _
  unfold execHoldRetry
  rw [htemplate, hrun]
  dsimp only
  rw [if_neg (by simp [hheld]), if_pos hmulti, hresume]
  exact congrArg Host.Outcome.next (if_pos hn)
end

theorem resumed_leaves {s : State} {c : Nat} {r : StepRun} (hrun : (s.ctx c).step = some r) :
    ((s.resumed c).ctx c).step = some { r with held := false } ∧ ((s.resumed c).ctx c).exch.votes = [] ∧
      ((s.resumed c).ctx c).exch.resumeAt = none := by
  unfold State.resumed State.updExch
  rw [ctx_updCtx_same]
  exact ⟨run_released hrun, rfl, rfl⟩

/-! The layers' lists and fallbacks at a commit (R174, R186). -/

theorem atCommit_of_live {s : State} (halive : s.fr.killed = none) (c : Nat) (f : State → State) : s.atCommit c f = f s := by
  unfold State.atCommit
  rw [halive]
  rfl

/-- A layer whose escalated tiles have dropped by a rung where their hold has run out. -/
def LayerSt.dropped (l : LayerSt) : LayerSt := { l with esc := l.esc.filterMap State.dropRung }

theorem escHoldExpiry_drops {s : State} {c : Nat} (hdue : s.commitDue c = true) (halive : s.fr.killed = none) :
    Completes (.escHoldExpiry c) s (fun v => ∀ l, (v.layer c l).esc = (s.layer c l).esc.filterMap State.dropRung) := by
  refine ⟨s.updCtx c (fun x => { x with layers := x.layers.map (fun e => (e.1, e.2.dropped)) }), ?_, fun l => ?_⟩
  · show execEscHoldExpiry c s = _
    unfold execEscHoldExpiry
    rw [if_pos hdue, atCommit_of_live halive]
    rfl
  · have hlayer := tget_map_value LayerSt.empty LayerSt.dropped rfl (s.ctx c).layers l
    unfold State.layer
    rw [ctx_updCtx_same, hlayer]
    rfl

/-- The layer in fallback, shown. -/
def State.inFallback (s : State) (c l : Nat) (y : Layer) (n : Nat) : State :=
  ((s.toMatrix c l (fun z => { z with fallback := n })).showFallback c l y).raise F.NUM_EVT_FALLBACK c

theorem keeps_inFallback (s : State) (c l : Nat) (y : Layer) (n : Nat) : Keeps 0x2043000 s (s.inFallback c l y n) :=
  Keeps.raise (keeps_showFallback (keeps_toMatrix (Keeps.refl _ s) rfl) rfl) rfl rfl rfl

theorem fallback_inFallback (s : State) (c l : Nat) (y : Layer) (n : Nat) : ((s.inFallback c l y n).layer c l).fallback = n := by
  unfold State.inFallback State.toMatrix
  rw [layer_congr_ctxs (State.raise_ctxs ..), layer_congr (ctx_showFallback ..), layer_updLayer, if_pos rfl]

theorem get_inFallback (s : State) {c : Nat} (hc : c < 1024) (l : Nat) (y : Layer) (n : Nat) :
    (s.inFallback c l y n).get F.NUM_EVT_FALLBACK c = 1 := (get_raise ..).trans (get_put_same _ rfl hc 1)

theorem loggedAt_inFallback (s : State) (c l : Nat) (y : Layer) (n st k i : Nat) :
    ∃ d0 d1, LoggedAt st k i d0 d1 s ((s.inFallback c l y n).eventAtOpen st k i) := by
  obtain ⟨d0, d1, hlogged⟩ := loggedAt_eventAtOpen (s.inFallback c l y n) st k i
  exact ⟨d0, d1, hlogged.congr_left ((keeps_inFallback ..).same .flt rfl) ((keeps_inFallback ..).same .frame rfl)
    ((keeps_inFallback ..).same .ports rfl)⟩

section
variable {s : State} {c l : Nat} {t : Template} {y : Layer} (htemplate : s.template c = some t) (hlayer : t.layers[l]? = some y)
  (hdue : s.commitDue c = true) (halive : s.fr.killed = none)
include htemplate hlayer hdue halive

theorem fallbackEntry_enters (hc : c < 1024) (hover : s.seen F.BAND_CFG_OVF_LIMIT 0 < (s.layer c l).overflow)
    (hout : (s.layer c l).fallback = 0) :
    Completes (.fallbackEntry c l) s (fun v => (v.layer c l).fallback = s.seen F.NUM_CFG_FALLBACK_STEPS 0 + 1 ∧
      v.get F.NUM_EVT_FALLBACK c = 1 ∧ ∃ d0 d1, LoggedAt 0x0602 6 c d0 d1 s v) := by
  refine ⟨(s.inFallback c l y (s.seen F.NUM_CFG_FALLBACK_STEPS 0 + 1)).eventAtOpen 0x0602 6 c, ?_, ?_, ?_, loggedAt_inFallback ..⟩
  · show execFallbackEntry c l s = _
    unfold execFallbackEntry
    rw [htemplate]
    dsimp only
    rw [hlayer]
    dsimp only
    rw [if_pos ⟨hdue, hover, hout⟩, atCommit_of_live halive]
    rfl
  · rw [layer_congr (ctx_eventAtOpen ..), fallback_inFallback]
  · exact (get_eventAtOpen (ctxWord_notMem_eventWords (by decide) c) ..).trans (get_inFallback s hc ..)

theorem fallbackEnd_ends (hlast : (s.layer c l).fallback = 1) : Completes (.fallbackEnd c l) s (fun v => (v.layer c l).fallback = 0) := by
  refine ⟨(s.updLayer c l (fun z => { z with fallback := 0 })).showFallback c l y, ?_, ?_⟩
  · show execFallbackEnd c l s = _
    unfold execFallbackEnd
    rw [htemplate]
    dsimp only
    rw [hlayer]
    dsimp only
    rw [if_pos ⟨hdue, hlast⟩, atCommit_of_live halive]
  · beta_reduce
    rw [layer_congr (ctx_showFallback ..), layer_updLayer, if_pos rfl]
end

/-! A row that leaves the static list, and the end of a rescale (R168, R179). -/

section
variable {s : State} {b c l : Nat} {y : Layer} (hlayer : s.battLayer b = some (c, l, y)) (halive : s.fr.killed = none)
include hlayer halive

theorem staticListLeave_leaves {r : Nat} (hleaving : r ∈ (s.layer c l).leaving) (hstaged : ∃ x ∈ (s.batt b).staged, x.row = r) :
    Completes (.staticListLeave b r) s (fun v => (v.layer c l).staticRows = (s.layer c l).staticRows.filter (fun e => decide (e.1 ≠ r)) ∧
      r ∉ (v.layer c l).leaving) := by
  set u := s.updLayer c l (fun z => { z with
    staticRows := z.staticRows.filter (fun e => decide (e.1 ≠ r)), leaving := z.leaving.filter (fun q => decide (q ≠ r)) }) with hu
  refine ⟨u.put F.BAND_BATT_STATIC b (u.layer c l).staticRows.length, ?_, ?_⟩
  · show execStaticListLeave b r s = _
    unfold execStaticListLeave
    rw [hlayer]
    exact congrArg Host.Outcome.next (if_pos ⟨List.contains_iff_mem.mpr hleaving, List.any_eq_true.mpr (by simpa using hstaged), halive⟩)
  · beta_reduce
    rw [layer_congr (ctx_put ..), hu, layer_updLayer, if_pos rfl]
    exact ⟨rfl, fun h => of_decide_eq_true (List.mem_filter.mp h).2 rfl⟩

theorem rescaleComplete_ends (hrescale : (s.layer c l).rescale = true) (hloaded : (s.batt b).loadIn = true)
    (hall : ∀ i ∈ y.batts, (s.batt (s.battOf i)).loadIn = true ∨ (s.batt (s.battOf i)).newScale = none) :
    Completes (.rescaleComplete b) s (fun v => (v.layer c l).rescale = false) := by
  refine ⟨(s.updLayer c l (fun z => { z with rescale := false })).showFallback c l y, ?_, ?_⟩
  · show execRescaleComplete b s = _
    unfold execRescaleComplete
    rw [hlayer]
    exact congrArg Host.Outcome.next (if_pos ⟨hrescale, by simpa using hall, hloaded, halive⟩)
  · beta_reduce
    rw [layer_congr (ctx_showFallback ..), layer_updLayer, if_pos rfl]
end

/-- Settles O53: every step, hold, pause and fallback completes as its rule says, clause by clause. -/
theorem trainingSteps : Obligations.TrainingSteps := by
  unfold Obligations.TrainingSteps
  intro s c t hc htemplate
  refine ⟨fun hphase hserving hnone hreplays => ⟨fun hdue => ?_, fun hmulti hstart hdue hready => ?_⟩, ?_, ?_, ?_,
    skipLimitPause_pauses hc htemplate, ?_, ?_, ?_⟩
  case refine_1 =>
    exact ⟨_, stepBegin_begins htemplate hphase hserving hnone hreplays hdue, beginStep_leaves s c t⟩
  case refine_2 =>
    exact stepBegin_ready htemplate hphase hserving hnone hreplays hmulti hstart hdue hready
  case refine_3 =>
    rintro o k a p rfl hcard hshard hmodule hphys hrun hactive
    exact carding_copies (carding_runs htemplate hcard hshard hmodule hphys hrun hactive)
  case refine_4 =>
    rintro o r rfl hrun hphase hgoes hfree
    refine ⟨optimizerUpdate_stalls htemplate hrun hphase hgoes hfree hc, fun hopen hone => ⟨fun hstage => ?_, fun hstage hadopt => ?_⟩⟩
    · obtain ⟨u, hexec, q, hq, hscalars⟩ := optimizerUpdate_forms htemplate hrun hphase hgoes hfree hopen hone hstage
      simp only [StepRun.scalars, State.ownScalars, Prod.mk.injEq] at hscalars
      exact ⟨u, hexec, q, hq, hscalars⟩
    · obtain ⟨u, hexec, hu⟩ := optimizerUpdate_updates htemplate hrun hphase hgoes hfree hopen hone hstage
      rw [updateTodo_eq hadopt] at hu
      refine ⟨u, hexec, _, hu, rfl, ?_⟩
      simp only [StepRun.afterUpdate, hstage, and_true]
  case refine_5 =>
    intro r hrun hphase halive hgoes hfree hstage hlive
    refine ⟨fun hgo => ⟨_, stepCommit_commits htemplate hrun hphase halive hgoes hfree hstage hlive hgo, commitStep_commits s hc t r⟩,
      fun hone hfinite hsome hfull => ⟨_, stepCommit_holds htemplate hrun hphase halive hgoes hfree hstage hlive hone hfinite hsome hfull,
        r.hold (s.holdBatts c t), ?_, rfl, rfl, rfl, rfl, ?_⟩⟩
    · rw [ctx_holdStep, hrun]
      rfl
    · rw [ctx_holdStep]
  case refine_6 =>
    intro r hrun hheld
    exact ⟨fun hone hshorter => ⟨_, holdRetry_releases htemplate hrun hheld hone hshorter, run_released hrun⟩,
      fun n hmulti hresume hn => ⟨_, holdRetry_resumes htemplate hrun hheld hmulti hresume hn, resumed_leaves hrun⟩⟩
  case refine_7 =>
    intro hdue halive
    exact ⟨escHoldExpiry_drops hdue halive, fun l y hlayer =>
      ⟨fallbackEntry_enters htemplate hlayer hdue halive hc, fallbackEnd_ends htemplate hlayer hdue halive⟩⟩
  case refine_8 =>
    intro b l y hlayer halive
    exact ⟨fun r => staticListLeave_leaves hlayer halive, rescaleComplete_ends hlayer halive⟩

end Sys2Proof.Machine
end

section
/-! TCHK: the check of a narrowed tile, its counts, and the escalation of a tile in trouble (R165, R170 to R174, R188, R226). -/
namespace Sys2Proof.Machine

/-! Escalations. -/

/-- Beside the climb, its count and its event bit, an escalation changes the bit of the top rung, what an EVENT changes, and contexts. -/
theorem get_escalate {g : Fld} {c : Nat} (htop : ∀ u : State, (u.raise F.NUM_EVT_TOP_RUNG c).get g c = u.get g c) (hg : 0x300000 ≤ g.base)
    (s : State) (l tile from_ rung : Nat) : (s.escalate c l tile from_ rung).get g c =
      (((s.escMap c l tile from_ rung).bump F.NUM_ESC_ESCALATIONS c 1).raise F.NUM_EVT_ESCALATED c).get g c := by
  unfold State.escalate
  extract_lets first u v
  have hv : v.get g c = u.get g c := get_ite_keeps (htop u) _
  split
  · exact (get_eventOpen (ctxWord_notMem_eventWords hg c) v ..).trans hv
  · exact hv

theorem get_escalate_otherWord {g : Fld} (hcount : F.NUM_ESC_ESCALATIONS.otherWord g = true) (hevent : F.NUM_EVT_ESCALATED.otherWord g = true)
    (hg : 0x300000 ≤ g.base) (s : State) (c l tile from_ rung : Nat) : (s.escalate c l tile from_ rung).get g c = s.get g c :=
  (get_escalate (fun u => get_raise_otherWord u (f := F.NUM_EVT_TOP_RUNG) hevent c) hg s ..).trans
    ((get_raise_otherWord _ hevent c).trans ((get_bump_otherWord _ hcount c 1).trans (get_congr rfl g c)))

theorem get_escalated_escalate {c : Nat} (hc : c < 1024) (s : State) (l tile from_ rung : Nat) :
    (s.escalate c l tile from_ rung).get F.NUM_EVT_ESCALATED c = 1 := by
  rw [get_escalate (fun u => (get_raise ..).trans (get_put_apart u rfl rfl rfl ..)) (by decide), get_raise]
  exact get_put_same _ rfl hc 1

theorem advanced_escalations_escalate {c : Nat} (hc : c < 1024) (s : State) (l tile from_ rung : Nat) :
    Advanced F.NUM_ESC_ESCALATIONS c 1 s (s.escalate c l tile from_ rung) :=
  ((advanced_bump rfl hc 1 (s.escMap c l tile from_ rung)).congr_left (get_congr rfl _ c)).of_get_eq
    ((get_escalate (fun u => get_raise_otherWord u rfl c) (by decide) s l tile from_ rung).trans (get_raise_otherWord _ rfl c))

/-! The check in two parts: the tile's result, and what trouble brings. -/

/-- A TCHK's mask, and the cleared counter (R226). -/
def State.tileCleared (s : State) (p : Nat) (x : VecInstr) (bad : Bool) : State :=
  (s.setMask p (x.aux / 8 % 8) (if bad then 1 else 0)).store (accAddr p (0x3C000 + 8 * x.tcx)) 8 0

/-- With the context's counts (R188, R226). -/
def State.tileCounted (s : State) (p : Nat) (x : VecInstr) (bad : Bool) : State :=
  ((s.tileCleared p x bad).bump F.NUM_SAT_SAT (s.active p) (s.tileCtr p x.tcx % 2 ^ 15)).bump
    F.NUM_ZERO_ZERO (s.active p) (s.tileCtr p x.tcx / 2 ^ 16 % 2 ^ 15)

/-- With the tile's guards opened or marked (R171): all that a TCHK does but for what trouble brings. -/
def State.tileChecked (s : State) (p : Nat) (x : VecInstr) (bad : Bool) : State := (s.tileCounted p x bad).checked p x.tcx bad

/-- A tile of context c climbs to a rung, if there is one, and is narrowed again or waits (R172 to R174). -/
def State.tileClimbed (s : State) (p c : Nat) (r : TileRef) (rung : Option Nat) : State :=
  match rung with
  | some f => (s.escalate c r.layer r.tile r.fmt f).narrowAgain p r
  | none => s

/-- The tile of a TCHK is in trouble (R170). -/
def State.tileBad (s : State) (p : Nat) (x : VecInstr) (r : TileRef) : Bool :=
  inTrouble (x.aux % 8) r.satMax r.zeroMax (s.tileCtr p x.tcx)

/-- The rung to which a TCHK sends its tile (R170). -/
def State.rungAfterCheck (s : State) (p : Nat) (x : VecInstr) (r : TileRef) : Option Nat :=
  if s.tileBad p x r then nextRung (x.aux % 8) r.fmt else none

section
variable (s : State) (p : Nat) (x : VecInstr)

theorem tchk_eq (r : TileRef) :
    s.tchk p x r = (s.tileChecked p x (s.tileBad p x r)).tileClimbed p (s.active p) r (s.rungAfterCheck p x r) := by
  generalize h : s.rungAfterCheck p x r = rung
  unfold State.rungAfterCheck State.tileBad at h
  simp only [State.tchk, State.tileBad, State.tileChecked, State.tileCounted, State.tileCleared, h]
  cases rung
  · rfl
  · rfl

theorem active_lt : s.active p < 1024 := get_lt ..

/-! The tile's result. -/

theorem core_setMask (n : Nat) (v : BitVec 64) :
    (s.setMask p n v).core p = if n = 0 then s.core p else { s.core p with masks := tset 0 (s.core p).masks n v } := by
  unfold State.setMask
  split
  · rfl
  · exact core_updCore_same ..

theorem maskReg_setMask (n : Nat) (v : BitVec 64) : (s.setMask p n v).maskReg p n = if n = 0 then BitVec.allOnes 64 else v := by
  rw [State.maskReg, core_setMask]
  split
  · rfl
  · exact tget_tset_same ..

theorem maskReg_tileChecked (bad : Bool) : (s.tileChecked p x bad).maskReg p (x.aux / 8 % 8) =
    if x.aux / 8 % 8 = 0 then BitVec.allOnes 64 else if bad then 1 else 0 := by
  have hcounted : (s.tileCounted p x bad).core p = (s.setMask p (x.aux / 8 % 8) (if bad then 1 else 0)).core p :=
    core_congr ((State.bump_cores ..).trans ((State.bump_cores ..).trans (((Keeps.refl 0x100000 _).store rfl).same .cores rfl))) p
  have hmasks : ((s.tileChecked p x bad).core p).masks = ((s.tileCounted p x bad).core p).masks := by
    rw [State.tileChecked, State.checked, core_updCore_same]
  rw [← maskReg_setMask s p, State.maskReg, State.maskReg, hmasks, hcounted]

/-- A store to a tile counter leaves every byte outside its eight (R211). -/
theorem byte_store_tileCtr (n v : Nat) {b : Nat} (h : ∀ j < 8, b ≠ accAddr p (0x3C000 + 8 * n + j)) :
    (s.store (accAddr p (0x3C000 + 8 * n)) 8 v).byte b = s.byte b := by
  refine byte_store _ _ _ _ _ ?_
  by_contra hin
  refine h (b - accAddr p (0x3C000 + 8 * n)) (by omega) ?_
  rw [accAddr_tile _ _ _ (by omega)]
  omega

theorem keeps_tileCleared (bad : Bool) : Keeps 0x8100000 s (s.tileCleared p x bad) := (keeps_setMask (Keeps.refl _ s) rfl).store rfl

theorem byte_tileChecked_tileCleared (bad : Bool) (b : Nat) : (s.tileChecked p x bad).byte b = (s.tileCleared p x bad).byte b :=
  (keeps_checked (((Keeps.refl 0x8002000 (s.tileCleared p x bad)).bump (f := F.NUM_SAT_SAT) rfl rfl).bump (f := F.NUM_ZERO_ZERO) rfl rfl)
    rfl).same .mem rfl b

theorem keeps_tileChecked (bad : Bool) : Keeps 0x8102000 s (s.tileChecked p x bad) :=
  keeps_checked ((((keeps_tileCleared s p x bad).mono rfl).bump (f := F.NUM_SAT_SAT) rfl rfl).bump (f := F.NUM_ZERO_ZERO) rfl rfl) rfl

theorem tileCtr_tileChecked (bad : Bool) : (s.tileChecked p x bad).tileCtr p x.tcx = 0 := by
  rw [State.tileCtr, load_congr (byte_tileChecked_tileCleared s p x bad), State.tileCleared, load_store, Nat.zero_mod]

theorem byte_tileChecked (bad : Bool) {b : Nat} (h : ∀ j < 8, b ≠ accAddr p (0x3C000 + 8 * x.tcx + j)) :
    (s.tileChecked p x bad).byte b = s.byte b := by
  rw [byte_tileChecked_tileCleared, State.tileCleared, byte_store_tileCtr _ _ _ _ h]
  exact (keeps_setMask (Keeps.refl 0x8000000 s) rfl).same .mem rfl b

theorem advanced_sat_tileChecked (bad : Bool) :
    Advanced F.NUM_SAT_SAT (s.active p) (s.tileCtr p x.tcx % 2 ^ 15) s (s.tileChecked p x bad) :=
  ((advanced_bump rfl (active_lt s p) _ (s.tileCleared p x bad)).of_get_eq (get_bump_otherWord _ (f := F.NUM_ZERO_ZERO) rfl ..)).congr_left
    ((keeps_tileCleared s p x bad).get rfl (active_lt s p) rfl)

theorem advanced_zero_tileChecked (bad : Bool) :
    Advanced F.NUM_ZERO_ZERO (s.active p) (s.tileCtr p x.tcx / 2 ^ 16 % 2 ^ 15) s (s.tileChecked p x bad) :=
  (advanced_bump rfl (active_lt s p) _ ((s.tileCleared p x bad).bump F.NUM_SAT_SAT (s.active p) _)).congr_left
    ((get_bump_otherWord _ rfl ..).trans ((keeps_tileCleared s p x bad).get rfl (active_lt s p) rfl))

/-- A field of the context's registers at another word than its counts of saturated and zeroed elements stays. -/
theorem get_tileChecked {g : Fld} (hblock : g.inBlock = true) (hcount : g.count = 1024) (hctx : blockOf g.base = .regsCtx)
    (hsat : F.NUM_SAT_SAT.otherWord g = true) (hzero : F.NUM_ZERO_ZERO.otherWord g = true) (bad : Bool) :
    (s.tileChecked p x bad).get g (s.active p) = s.get g (s.active p) :=
  (get_bump_otherWord _ hzero ..).trans ((get_bump_otherWord (s.tileCleared p x bad) hsat ..).trans
    ((keeps_tileCleared s p x bad).get hblock (hcount ▸ active_lt s p) (hctx ▸ rfl)))

/-- A passed check opens its tile's guards; those of a narrowing that failed stay (R171). -/
theorem guards_tileChecked_passed {g : Guard} (hg : g ∈ ((s.tileChecked p x false).core p).guards) (htile : g.tcx = x.tcx) :
    g.failed = true ∨ g.srcLen = 0 := by
  rw [State.tileChecked, State.checked, core_updCore_same] at hg
  obtain ⟨g', -, rfl⟩ := List.mem_map.mp hg
  split at htile
  · exact .inr (by simp [*])
  · next h => exact absurd htile h
end

/-! What trouble brings. -/

section
variable (s : State) (p c : Nat) (r : TileRef) (rung : Option Nat)

theorem keeps_tileClimbed : Keeps 0xC23842084 s (s.tileClimbed p c r rung) := by
  cases rung with
  | none => exact Keeps.refl _ s
  | some f => exact keeps_narrowAgain (keeps_escalate (Keeps.refl _ s) rfl) rfl

theorem regs_takeMore (unit time energy : Nat) : (s.takeMore unit time energy).regs = s.regs := by
  unfold State.takeMore
  split
  · rfl
  · rfl

theorem regs_narrowAgain : (s.narrowAgain p r).regs = s.regs := by
  unfold State.narrowAgain
  split
  · exact foldl_keeps_value State.regs _ s fun u e _ => regs_takeMore u ..
  · rfl

theorem get_tileClimbed_otherWord {g : Fld} (hcount : F.NUM_ESC_ESCALATIONS.otherWord g = true)
    (hevent : F.NUM_EVT_ESCALATED.otherWord g = true) (hg : 0x300000 ≤ g.base) : (s.tileClimbed p c r rung).get g c = s.get g c := by
  cases rung with
  | none => rfl
  | some f => exact (get_congr (regs_narrowAgain _ p r) g c).trans (get_escalate_otherWord hcount hevent hg s ..)

theorem get_escalated_tileClimbed (hc : c < 1024) (f : Nat) : (s.tileClimbed p c r (some f)).get F.NUM_EVT_ESCALATED c = 1 :=
  (get_congr (regs_narrowAgain _ p r) _ c).trans (get_escalated_escalate hc s ..)

theorem advanced_escalations_tileClimbed (hc : c < 1024) (f : Nat) :
    Advanced F.NUM_ESC_ESCALATIONS c 1 s (s.tileClimbed p c r (some f)) :=
  (advanced_escalations_escalate hc s ..).of_get_eq (get_congr (regs_narrowAgain _ p r) _ c)
end

/-! The check. -/

section
variable (s : State) (p : Nat) (x : VecInstr) (r : TileRef)

theorem core_tchk (q : Nat) : (s.tchk p x r).core q = (s.tileChecked p x (s.tileBad p x r)).core q := by
  rw [tchk_eq]
  exact core_congr ((keeps_tileClimbed ..).same .cores rfl) q

theorem maskReg_tchk : (s.tchk p x r).maskReg p (x.aux / 8 % 8) =
    if x.aux / 8 % 8 = 0 then BitVec.allOnes 64 else if s.tileBad p x r then 1 else 0 := by
  rw [← maskReg_tileChecked s p, State.maskReg, State.maskReg, core_tchk]

theorem byte_tchk (b : Nat) : (s.tchk p x r).byte b = (s.tileChecked p x (s.tileBad p x r)).byte b := by
  rw [tchk_eq]
  exact (keeps_tileClimbed ..).same .mem rfl b

theorem tileCtr_tchk : (s.tchk p x r).tileCtr p x.tcx = 0 :=
  (load_congr (byte_tchk s p x r) ..).trans (tileCtr_tileChecked ..)

theorem advanced_sat_tchk : Advanced F.NUM_SAT_SAT (s.active p) (s.tileCtr p x.tcx % 2 ^ 15) s (s.tchk p x r) := by
  rw [tchk_eq]
  exact (advanced_sat_tileChecked ..).of_get_eq (get_tileClimbed_otherWord _ _ _ _ _ rfl rfl (by decide))

theorem advanced_zero_tchk : Advanced F.NUM_ZERO_ZERO (s.active p) (s.tileCtr p x.tcx / 2 ^ 16 % 2 ^ 15) s (s.tchk p x r) := by
  rw [tchk_eq]
  exact (advanced_zero_tileChecked ..).of_get_eq (get_tileClimbed_otherWord _ _ _ _ _ rfl rfl (by decide))

variable {s p x r}

/-- A tile in trouble that has a rung left climbs to it. -/
theorem tchk_eq_of_rung {f : Nat} (hbad : s.tileBad p x r = true) (hrung : nextRung (x.aux % 8) r.fmt = some f) :
    s.tchk p x r = (s.tileChecked p x true).tileClimbed p (s.active p) r (some f) := by
  rw [tchk_eq, State.rungAfterCheck, hbad, if_pos rfl, hrung]

/-- A tile that passes its check brings nothing further. -/
theorem tchk_eq_of_passed (hgood : s.tileBad p x r = false) : s.tchk p x r = s.tileChecked p x false := by
  rw [tchk_eq, State.rungAfterCheck, hgood]
  rfl
end

/-! Between trace records. -/

theorem regs_trace (s : State) (q e k c : Nat) : (s.trace q e k c).regs = s.regs := by
  obtain ⟨_, _, h⟩ := exists_trace s q e k c
  rw [h]

theorem core_trace (s : State) (q e k c d : Nat) : (s.trace q e k c).core d = s.core d :=
  core_congr ((keeps_trace (Keeps.refl 0x900000000 s) rfl).same .cores rfl) d

theorem sent_trace (s : State) (q e k c : Nat) : (s.trace q e k c).sent = s.sent :=
  (keeps_trace (Keeps.refl 0x900000000 s) rfl).same .sent rfl

theorem get_trace (s : State) (q e k c : Nat) (g : Fld) (i : Nat) : (s.trace q e k c).get g i = s.get g i := get_congr (regs_trace ..) g i

theorem maskReg_trace (s : State) (q e k c d n : Nat) : (s.trace q e k c).maskReg d n = s.maskReg d n := by
  rw [State.maskReg, State.maskReg, core_trace]

theorem tileCtr_trace (s : State) (q e k c d n : Nat) : (s.trace q e k c).tileCtr d n = s.tileCtr d n := load_congr (byte_trace s q e k c) ..

theorem Advanced.between_traces {f : Fld} {i n q e k c q' e' k' c' : Nat} {s t : State} (h : Advanced f i n (s.trace q e k c) t) :
    Advanced f i n s (t.trace q' e' k' c') := (h.congr_left (get_trace ..)).of_get_eq (get_trace ..)

theorem tileBad_trace (s : State) (q e k c d : Nat) (x : VecInstr) (r : TileRef) : (s.trace q e k c).tileBad d x r = s.tileBad d x r := by
  rw [State.tileBad, State.tileBad, tileCtr_trace]

/-- Settles O13: the tile's result whatever it is, then the tile in trouble with a rung left, and the tile that passes. -/
theorem vectorTileCheck : Obligations.VectorTileCheck := by
  unfold Obligations.VectorTileCheck
  intro p x r s _ hlegal hruns
  refine vector_completes s hlegal hruns (eff := fun u => u.tchk p x r) rfl ?_
  have hactive := active_trace s p 1 1 (s.active p) p
  have hctr := tileCtr_trace s p 1 1 (s.active p) p x.tcx
  have hbad := tileBad_trace s p 1 1 (s.active p) p x r
  have hget := get_trace s p 1 1 (s.active p)
  have hsent := sent_trace s p 1 1 (s.active p)
  have hbyte := byte_trace s p 1 1 (s.active p)
  generalize s.trace p 1 1 (s.active p) = u at *
  have hadvanced {f : Fld} {n : Nat} (h : Advanced f (u.active p) n u (u.tchk p x r)) :
      Advanced f (s.active p) n s ((u.tchk p x r).trace p 1 2 (s.active p)) :=
    ((hactive ▸ h).congr_left (hget ..)).of_get_eq (get_trace ..)
  refine ⟨?_, (tileCtr_trace ..).trans (tileCtr_tchk u p x r), fun b hb => ?_, hctr ▸ hadvanced (advanced_sat_tchk u p x r),
    hctr ▸ hadvanced (advanced_zero_tchk u p x r), fun ⟨htrouble, hrung⟩ => ?_, fun hpassed => ?_⟩
  · rw [maskReg_trace, maskReg_tchk, hbad]
    rfl
  · rw [byte_trace, byte_tchk, byte_tileChecked _ _ _ _ hb, hbyte]
  · obtain ⟨f, hf⟩ := Option.isSome_iff_exists.mp hrung
    have hclimb := tchk_eq_of_rung (hbad.trans htrouble) hf
    refine ⟨?_, hadvanced ?_⟩
    · rw [get_trace, hclimb, ← hactive]
      exact get_escalated_tileClimbed _ _ _ _ (active_lt u p) f
    · rw [hclimb]
      refine (advanced_escalations_tileClimbed _ _ _ _ (active_lt u p) f).congr_left ?_
      exact get_tileChecked u p x rfl rfl rfl rfl rfl true
  · have hchecked := tchk_eq_of_passed (hbad.trans hpassed)
    rw [get_trace, sent_trace, core_trace, hchecked, ← hget, ← hsent, ← hactive]
    exact ⟨get_tileChecked u p x rfl rfl rfl rfl rfl false, (keeps_tileChecked u p x false).same .sent rfl,
      fun g => guards_tileChecked_passed u p x⟩

end Sys2Proof.Machine
end

section
/-! CVT and PACK: conversions, narrowings, and the pack group whose rung is not in force (R160 to R162, R171, R174, R223, R224, R226). -/
namespace Sys2Proof.Machine

theorem groupRuns_trace (s : State) (q e k c p : Nat) (g : Option PackTile) (f : Nat) :
    (s.trace q e k c).groupRuns p g f = s.groupRuns p g f := by
  unfold State.trace
  split
  · rfl
  · rfl

/-- Between its trace records a pack group whose rung is in force narrows or converts, and another does nothing (R174, R226). -/
theorem exec_pack {p : Nat} {x : VecInstr} {s : State} (hlegal : x.legal 0x21 = true) (hruns : s.vecRuns p x 0x21 = true)
    (g : Option PackTile) : exec (.pack p ⟨x, g⟩) s =
      .next ((if s.groupRuns p g (x.aux % 16) = false then s.trace p 1 1 (s.active p)
        else if isNarrow (x.aux % 16) then ((s.trace p 1 1 (s.active p)).packNarrow p x).guardTile p x (x.aux % 16)
        else (s.trace p 1 1 (s.active p)).cvtTo p x).trace p 1 2 (s.active p)) := by
  show execPack p ⟨x, g⟩ s = _
  rw [execPack, vector_next s _ hlegal hruns]
  rw [groupRuns_trace]

/-! Conversions. -/

section
variable {s : State} {p : Nat} {x : VecInstr}

/-- A converted lane, under the operation key of the context that runs as the instruction begins (R223, R224). -/
def State.converted (s : State) (p : Nat) (x : VecInstr) (u : State) (v i : Nat) : Nat :=
  cvtCode x.type (x.aux % 16) (u.freeAt x v i) (State.cvtMode x (s.opKeyOf (s.active p) x.op) v i) (u.lane p x.srcA x.type v i)

theorem codesRun_cvtTo : CodesRun p x (elemBits (x.aux % 16)) (s.converted p x) s
    (((s.trace p 1 1 (s.active p)).cvtTo p x).trace p 1 2 (s.active p)) := by
  have h := codes_run s x.elems 1 (s.active p) (s.active p) _ (elemBits_le (x.aux % 16)) (s.converted p x) (p := p) (x := x)
  unfold State.converted at h ⊢
  rw [State.cvtTo, active_trace, opKeyOf_trace]
  exact h

theorem cvt_completes (hlegal : x.legal 0x20 = true) (hruns : s.vecRuns p x 0x20 = true) :
    Completes (.cvt p x) s (CodesRun p x (elemBits (x.aux % 16)) (s.converted p x) s) :=
  vector_completes s hlegal hruns (eff := fun u => u.cvtTo p x) rfl codesRun_cvtTo

theorem pack_wide_completes {g : Option PackTile} (hlegal : x.legal 0x21 = true) (hruns : s.vecRuns p x 0x21 = true)
    (hgroup : s.groupRuns p g (x.aux % 16) = true) (hwide : isNarrow (x.aux % 16) = false) :
    Completes (.pack p ⟨x, g⟩) s (CodesRun p x (elemBits (x.aux % 16)) (s.converted p x) s) := by
  rw [Completes, exec_pack hlegal hruns, hgroup, hwide]
  exact ⟨_, rfl, codesRun_cvtTo⟩
end

/-! A narrowing has one scale byte for each block. -/

theorem scales_length_narrowMx (f rule fr : Nat) (l : List FVal) : (narrowMx f rule fr l).scales.length = 1 := by
  unfold narrowMx
  split
  · rfl
  · dsimp only
    split <;> rfl

theorem scales_length_foldl_join (l : List Narrowed) (a : Narrowed) :
    (l.foldl Narrowed.join a).scales.length = a.scales.length + (l.map (fun w => w.scales.length)).sum := by
  induction l generalizing a with
  | nil => rfl
  | cons w r ih => simp only [List.foldl_cons, ih, Narrowed.join, List.length_append, List.map_cons, List.sum_cons, Nat.add_assoc]

theorem length_groups_le {α : Type} (n k : Nat) (l : List α) : (groups n k l).length ≤ k := by
  induction k generalizing l with
  | zero => exact Nat.le_refl 0
  | succ k ih =>
    rw [groups]
    split
    · exact Nat.zero_le _
    · exact Nat.succ_le_succ (ih _)

theorem scales_length_narrowRow_le {f : Nat} (hmx : isMx f = true) (rule fr : Nat) (scale : Word) (l : List FVal) :
    (narrowRow f rule fr scale l).scales.length ≤ l.length / 32 + 1 := by
  have hgroups := length_groups_le 32 (l.length / 32 + 1) l
  simp only [narrowRow, hmx, if_true, scales_length_foldl_join, List.map_map, Function.comp_def, scales_length_narrowMx, List.map_const',
    List.sum_replicate, List.length_zipIdx]
  simpa [Narrowed.none] using hgroups

/-! A narrowing pack, vector by vector. -/

/-- The narrowing of vector v (R160 to R162, R226). -/
def State.packRow (u : State) (p : Nat) (x : VecInstr) (v : Nat) : Narrowed :=
  narrowRow (x.aux % 16) (x.aux / 16 % 2) (u.freeAt x v 0) (BitVec.ofNat 32 x.srcB) (u.packVals p x v)

/-- Its scale bytes, for a format that keeps them in a plane (R226). -/
def State.packScales (u : State) (p : Nat) (x : VecInstr) (v : Nat) : List Byte :=
  if isMx (x.aux % 16) then (u.packRow p x v).scales.map (fun c => BitVec.ofNat 8 c) else []

/-- The elements of vector v written. -/
def State.packElems (u : State) (p : Nat) (x : VecInstr) (v : Nat) : State :=
  u.putCodes p x.dst (v * (laneCount x.type * elemBits (x.aux % 16) / 8)) (elemBits (x.aux % 16))
    ((List.range (laneCount x.type)).map (fun i => u.masked p x i ((u.packRow p x v).codes.getD i 0)))

/-- Vector v narrowed: its elements, its scale bytes, its counts. -/
def State.packVector (p : Nat) (x : VecInstr) (u : State) (v : Nat) : State :=
  ((u.packElems p x v).vecStore p x.srcB (v * (laneCount x.type / 32)) (u.packScales p x v)).countTile p x.tcx (u.packRow p x v)

/-- The state that the vectors before v leave. -/
def State.packedUpTo (s : State) (p : Nat) (x : VecInstr) (v : Nat) : State :=
  (List.range v).foldl (State.packVector p x) (s.trace p 1 1 (s.active p))

/-- From u to w vector v of a narrowing pack is written: the elements, the scale plane, then the counts of the tile's counter; blocks made from
non-finite sources show in the events of context c (R161, R226). -/
def VectorPacked (p : Nat) (x : VecInstr) (c v : Nat) (u w : State) : Prop :=
  ∃ a b, CodesWritten p x (v * (laneCount x.type * elemBits (x.aux % 16) / 8)) (elemBits (x.aux % 16))
      (fun i => (u.packRow p x v).codes.getD i 0) u a ∧
    BytesWritten p x.srcB (v * (laneCount x.type / 32)) (u.packScales p x v) a b ∧
    w.tileCtr p x.tcx = addTile (b.tileCtr p x.tcx) (u.packRow p x v) ∧
    (∀ k, (∀ j < 8, k ≠ accAddr p (0x3C000 + 8 * x.tcx + j)) → w.byte k = b.byte k) ∧
    (0 < (u.packRow p x v).nan → w.get F.NUM_EVT_NAN c = 1)

theorem map_zipIdx_eq_map_range {α : Type} (f : Nat → Nat → α) (l : List Nat) :
    l.zipIdx.map (fun c => f c.2 c.1) = (List.range l.length).map (fun i => f i (l.getD i 0)) := by
  refine List.ext_getElem (by simp) fun i h _ => ?_
  have hi : i < l.length := by simpa using h
  simp [List.getD_eq_getElem?_getD, List.getElem?_eq_getElem hi]

section
variable (p : Nat) (x : VecInstr)

theorem packRow_codes_length (u : State) (v : Nat) : (u.packRow p x v).codes.length = laneCount x.type := by
  rw [State.packRow, narrowRow_length, State.packVals, List.length_map, List.length_range]

theorem packNarrow_eq (u : State) : u.packNarrow p x = ((List.range x.vectors).foldl (State.packVector p x) u).skipDraws x.elems := by
  unfold State.packNarrow
  refine congrArg (fun f => ((List.range x.vectors).foldl f u).skipDraws x.elems) (funext fun u => funext fun v => ?_)
  have helems : u.putCodes p x.dst (v * (laneCount x.type * elemBits (x.aux % 16) / 8)) (elemBits (x.aux % 16))
      ((u.packRow p x v).codes.zipIdx.map (fun c => u.masked p x c.2 c.1)) = u.packElems p x v := by
    rw [map_zipIdx_eq_map_range (fun i c => u.masked p x i c), packRow_codes_length]
    rfl
  rw [State.packVector, State.packScales, ← helems]
  refine congrArg (fun w : State => w.countTile p x.tcx (u.packRow p x v)) ?_
  split
  · rfl
  · rfl

theorem packScales_length_le (u : State) (v : Nat) : (u.packScales p x v).length ≤ 2 ^ 18 := by
  rw [State.packScales]
  split
  · next hmx =>
    have hscales := scales_length_narrowRow_le hmx (x.aux / 16 % 2) (u.freeAt x v 0) (BitVec.ofNat 32 x.srcB) (u.packVals p x v)
    have hlanes : (u.packVals p x v).length ≤ 128 := by
      rw [State.packVals, List.length_map, List.length_range]
      exact (laneCount_mod x.type 0).2
    rw [List.length_map, State.packRow]
    omega
  · exact Nat.zero_le _

theorem get_nan_countTile (u : State) {c : Nat} (hc : u.active p = c) {w : Narrowed} (hnan : 0 < w.nan) :
    (u.countTile p x.tcx w).get F.NUM_EVT_NAN c = 1 := by
  rw [State.countTile, State.countNan, if_neg (Nat.ne_of_gt hnan), get_raise, hc]
  exact get_put_same _ rfl (hc ▸ active_lt u p) 1

theorem vectorPacked_packVector (hp : p < 192) (u : State) (v : Nat) : VectorPacked p x (u.active p) v u (u.packVector p x v) := by
  refine ⟨u.packElems p x v, _, codesWritten_putCodes u _ _ (elemBits_le _) _, bytesWritten_vecStore _ _ _ _ (packScales_length_le p x u v),
    tileCtr_countTile .., fun k => byte_countTile _ _ _ _ _, get_nan_countTile p x _ ?_⟩
  exact (keeps_vecStore (keeps_putCodes (Keeps.refl 0x100000 u) rfl) rfl).get rfl hp rfl

theorem keeps_packVector (u : State) (v : Nat) : Keeps 0x142000 u (u.packVector p x v) :=
  keeps_countTile (keeps_vecStore (keeps_putCodes (Keeps.refl _ u) rfl) rfl) rfl

theorem keeps_packedUpTo (s : State) (v : Nat) : Keeps 0x900142000 s (s.packedUpTo p x v) :=
  (keeps_trace (Keeps.refl _ s) rfl).foldl fun u w => (keeps_packVector p x u w).mono rfl

theorem packedUpTo_succ (s : State) (v : Nat) : s.packedUpTo p x (v + 1) = (s.packedUpTo p x v).packVector p x v := by
  rw [State.packedUpTo, List.range_succ, List.foldl_concat]
  rfl

theorem pack_narrow_completes {s : State} {g : Option PackTile} (hp : p < 192) (hlegal : x.legal 0x21 = true)
    (hruns : s.vecRuns p x 0x21 = true) (hgroup : s.groupRuns p g (x.aux % 16) = true) (hnarrow : isNarrow (x.aux % 16) = true) :
    Completes (.pack p ⟨x, g⟩) s (fun t => SameBut [.regsCtx, .raised, .mem, .cores, .sec, .freeCtr] s t ∧
      (⟨s.active p, x.tcx, vecKey p x.dst 0, x.elems * elemBits (x.aux % 16) / 8, vecKey p x.srcA 0, x.full, false⟩ : Guard) ∈
        (t.core p).guards ∧
      ∃ u : Nat → State, (∀ v, SameBut [.regsCtx, .raised, .mem, .sec, .freeCtr] s (u v)) ∧ (∀ b, (u 0).byte b = s.byte b) ∧
        (∀ b, t.byte b = (u x.vectors).byte b) ∧ ∀ v < x.vectors, VectorPacked p x (s.active p) v (u v) (u (v + 1))) := by
  rw [Completes, exec_pack hlegal hruns, hgroup, if_neg (by decide), if_pos hnarrow, packNarrow_eq]
  have hactive (v : Nat) : (s.packedUpTo p x v).active p = s.active p := (keeps_packedUpTo p x s v).get rfl hp rfl
  refine ⟨_, rfl, ?_, ?_, s.packedUpTo p x, fun v => ?_, fun b => byte_trace .., fun b => ?_, fun v _ => ?_⟩
  · refine KeepsO.sameBut (m := 0x908142000) (KeepsO.next (keeps_trace (keeps_guardTile (keeps_skipDraws ?_ rfl) rfl) rfl)) rfl rfl
    exact (keeps_packedUpTo p x s x.vectors).mono rfl
  · rw [core_trace, State.guardTile, State.awaitCheck, core_updCore_same]
    exact List.mem_append_right _ (List.mem_singleton.mpr (congrArg (fun c => (⟨c, _, _, _, _, _, _⟩ : Guard)) (hactive x.vectors).symm))
  · exact KeepsO.sameBut (KeepsO.next (keeps_packedUpTo p x s v)) rfl rfl
  · exact (byte_trace ..).trans ((keeps_guardTile (keeps_skipDraws (Keeps.refl 0x808000000 _) rfl) rfl).same .mem rfl b)
  · rw [packedUpTo_succ, ← hactive v]
    exact vectorPacked_packVector p x hp _ v
end

/-! A pack group whose rung is not in force. -/

/-- All but the trace and the free values of its records is as it was. -/
theorem pack_idle_completes {p : Nat} {x : VecInstr} {g : Option PackTile} {s : State} (hlegal : x.legal 0x21 = true)
    (hruns : s.vecRuns p x 0x21 = true) (hidle : s.groupRuns p g (x.aux % 16) = false) :
    Completes (.pack p ⟨x, g⟩) s (fun t => SameBut [.sec, .freeCtr] s t ∧ ∀ b, t.byte b = s.byte b) := by
  rw [Completes, exec_pack hlegal hruns, if_pos hidle]
  refine ⟨_, rfl, ?_, fun b => (byte_trace ..).trans (byte_trace ..)⟩
  exact KeepsO.sameBut (KeepsO.next (keeps_trace (keeps_trace (Keeps.refl 0x900000000 s) rfl) rfl)) rfl rfl

/-- While a debug session traces, each record draws its TIME and its DETAIL (R521). -/
theorem freeCtr_trace {s : State} (hopen : s.get F.DBG_STATE_OPEN 0 = 1) (hfacility : s.get F.DBG_STATE_FACILITIES 0 % 2 = 1) (q e k c : Nat) :
    (s.trace q e k c).freeCtr = s.freeCtr + 2 := by
  rw [State.trace, if_pos ⟨hopen, hfacility⟩]
  rfl

/-- A pack of one vector to BF16, the top rung. -/
def packToTop : VecInstr :=
  { type := 0, mask := 0, mzero := false, bimm := false, count := 1, dst := 0, srcA := 0x100, aux := 1, rnd := 0, tcx := 0, srcB := 0, op := 0 }

/-- A tile that stands at its first rung, E2M1. -/
def tileAtBottom : PackTile := { layer := 0, tile := 0, first := 9 }

/-- The module in service, with a debug session open that traces. -/
def tracing : State := ((State.reset.put F.DEV_STATE_PHASE 0 1).put F.DBG_STATE_FACILITIES 0 1).put F.DBG_STATE_OPEN 0 1

/-- Refutes O10: while a debug session traces, the two records of a pack group whose rung is not in force draw free values, which its clause
does not allow for (`pack_idle_completes` does). The other clauses hold: `cvt_completes`, `pack_wide_completes`, `pack_narrow_completes`. -/
theorem not_vectorConversion : ¬ Obligations.VectorConversion := by
  unfold Obligations.VectorConversion
  intro h
  have hlegal : packToTop.legal 0x21 = true := by decide
  have hruns : tracing.vecRuns 0 packToTop 0x21 = true := by decide
  have hidle : tracing.groupRuns 0 (some tileAtBottom) (packToTop.aux % 16) = false := by decide
  have hopen : tracing.get F.DBG_STATE_OPEN 0 = 1 := by decide
  have hfacility : tracing.get F.DBG_STATE_FACILITIES 0 % 2 = 1 := by decide
  obtain ⟨-, hclause, -⟩ := h 0 packToTop (some tileAtBottom) tracing
  obtain ⟨t, hexec, hsame, -⟩ := hclause ⟨hlegal, hruns⟩ hidle
  have hkept : t.freeCtr = tracing.freeCtr := hsame .freeCtr (by decide)
  rw [exec_pack hlegal hruns, if_pos hidle] at hexec
  cases hexec
  rw [freeCtr_trace ((get_trace ..).trans hopen) (by rw [get_trace, hfacility]), freeCtr_trace hopen hfacility] at hkept
  omega

end Sys2Proof.Machine
end

section
/-! Engine commands and their codes: those that the vector engine gives a meaning, and those that no engine does (R204, R222, R224, R232,
R371). -/
namespace Sys2Proof.Machine

/-- The arithmetic instructions on whole lanes with their operation codes (R224). -/
def arithmeticForms (p : Nat) (x : VecInstr) : List (Nat × Instr) :=
  [(0x01, .add p x), (0x02, .sub p x), (0x03, .mul p x), (0x04, .fma p x), (0x05, .vMin p x), (0x06, .vMax p x), (0x07, .abs p x),
    (0x08, .neg p x)]

/-- The other instructions of the vector engine with theirs. -/
def otherForms (p : Nat) (x : VecInstr) (g : Option PackTile) (r : TileRef) : List (Nat × Instr) :=
  [(0x09, .mov p x), (0x10, .cmp p x), (0x11, .cmps p x), (0x12, .sel p x), (0x13, .selp p x), (0x18, .exp2 p x), (0x19, .log2 p x),
    (0x1A, .rsqrt p x), (0x1B, .rcp p x), (0x20, .cvt p x), (0x21, .pack p ⟨x, g⟩), (0x22, .unpack p x), (0x28, .perm p x),
    (0x29, .shuf p x), (0x30, .rsum p x), (0x31, .rmax p x), (0x32, .rmin p x), (0x33, .topk p x), (0x34, .topkm p x), (0x35, .psum p x),
    (0x38, .tchk p x r), (0x3C, .kset p x), (0x3D, .kop p x)]

theorem exec_arithmeticForm {p op : Nat} {x : VecInstr} {i : Instr} (h : (op, i) ∈ arithmeticForms p x) (s : State) :
    ∃ eff, exec i s = s.vector p x op eff := by
  simp only [arithmeticForms, List.mem_cons, Prod.mk.injEq, List.not_mem_nil, or_false] at h
  rcases h with ⟨rfl, rfl⟩ | ⟨rfl, rfl⟩ | ⟨rfl, rfl⟩ | ⟨rfl, rfl⟩ | ⟨rfl, rfl⟩ | ⟨rfl, rfl⟩ | ⟨rfl, rfl⟩ | ⟨rfl, rfl⟩ <;>
  · unfold exec
    exact ⟨_, rfl⟩

theorem exec_otherForm {p op : Nat} {x : VecInstr} {g : Option PackTile} {r : TileRef} {i : Instr} (h : (op, i) ∈ otherForms p x g r)
    (s : State) : ∃ eff, exec i s = s.vector p x op eff := by
  simp only [otherForms, List.mem_cons, Prod.mk.injEq, List.not_mem_nil, or_false] at h
  rcases h with ⟨rfl, rfl⟩ | ⟨rfl, rfl⟩ | ⟨rfl, rfl⟩ | ⟨rfl, rfl⟩ | ⟨rfl, rfl⟩ | ⟨rfl, rfl⟩ | ⟨rfl, rfl⟩ | ⟨rfl, rfl⟩ | ⟨rfl, rfl⟩ |
    ⟨rfl, rfl⟩ | ⟨rfl, rfl⟩ | ⟨rfl, rfl⟩ | ⟨rfl, rfl⟩ | ⟨rfl, rfl⟩ | ⟨rfl, rfl⟩ | ⟨rfl, rfl⟩ | ⟨rfl, rfl⟩ | ⟨rfl, rfl⟩ | ⟨rfl, rfl⟩ |
    ⟨rfl, rfl⟩ | ⟨rfl, rfl⟩ | ⟨rfl, rfl⟩ | ⟨rfl, rfl⟩ <;>
  · unfold exec
    dsimp only [execPack, execTopkm]
    exact ⟨_, rfl⟩

theorem vector_refused {x : VecInstr} {op : Nat} (hillegal : x.legal op = false) (s : State) (p : Nat) (eff : State → State) :
    s.vector p x op eff = .fault .reservedCode :=
  if_neg (by simp [hillegal])

theorem dma_reserved {d : DmaDesc} {op : Nat} (hbad : d.ok op = false) (s : State) (p : Nat) : s.dma p d op = .fault .reservedCode :=
  if_neg (by simp [hbad])

theorem matrixOperation_reserved {d : MatrixDesc} (hbad : d.ok = false) (s : State) (p : Nat) :
    exec (.matrixOperation p d) s = .fault .reservedCode :=
  if_neg (by simp [hbad])

/-- Settles O17: matrix and DMA descriptors, waits, and the instructions of the vector engine; that a reserved code ends the command is log
entry 76. -/
theorem reservedCodesStop : Obligations.ReservedCodesStop := by
  unfold Obligations.ReservedCodesStop
  intro p s
  refine ⟨fun d hbad => matrixOperation_reserved hbad s p, fun d => ⟨fun hbad => dma_reserved hbad s p, fun hbad => dma_reserved hbad s p,
    fun hbad => dma_reserved hbad s p⟩, fun w k m v b hmode => if_pos hmode, fun x g r op i hform hillegal => ?_⟩
  have hlisted : (op, i) ∈ arithmeticForms p x ++ otherForms p x g r := hform
  obtain ⟨eff, hexec⟩ : ∃ eff, exec i s = s.vector p x op eff :=
    (List.mem_append.mp hlisted).elim (exec_arithmeticForm · s) (exec_otherForm · s)
  rw [hexec, vector_refused hillegal]

end Sys2Proof.Machine
end

section
/-! Instructions that work lane by lane: arithmetic, selection, functions, partial sums and unpacking (R210, R217 to R227). -/
namespace Sys2Proof.Machine

section
variable {s : State} {p op : Nat} {x y : VecInstr} {i : Instr}

/-- An instruction y that runs as the lanes of x, each from the state that its vector finds (SEL runs without its mask). -/
theorem lanes_completes {f : State → State → Nat → Nat → Nat} (h : y.legal op = true ∧ s.vecRuns p y op = true)
    (hexec : exec i s = s.vector p y op (fun u => u.lanes p x (f u))) :
    Completes i s (LaneRun p x (f (s.trace p 1 1 (s.active p))) s) :=
  vector_completes s h.1 h.2 hexec (lanes_run s 0 ..)

/-- An operation on the lanes of operand A; each lane has a free value to draw. -/
theorem unary_completes {f : Nat → Nat → Nat} (h : x.legal op = true ∧ s.vecRuns p x op = true)
    (hexec : exec i s = s.vector p x op (fun u => u.unary p x f)) :
    Completes i s (LaneRun p x (fun u v k => f (u.freeAt x v k) (u.lane p x.srcA x.type v k)) s) :=
  vector_completes s h.1 h.2 hexec (lanes_run s x.elems ..)

theorem binary_completes {f : Nat → Nat → Nat → Nat} (h : x.legal op = true ∧ s.vecRuns p x op = true)
    (hexec : exec i s = s.vector p x op (fun u => u.binary p x f)) :
    Completes i s (LaneRun p x (fun u v k => f (u.freeAt x v k) (u.lane p x.srcA x.type v k) (u.laneB p x v k)) s) :=
  vector_completes s h.1 h.2 hexec (lanes_run s x.elems ..)
end

theorem arithmeticForm_idle {p op : Nat} {x : VecInstr} {i : Instr} {s : State} (hform : (op, i) ∈ arithmeticForms p x)
    (hlegal : x.legal op = true) (hidle : s.vecRuns p x op = false) : exec i s = .next s := by
  obtain ⟨eff, hexec⟩ := exec_arithmeticForm hform s
  exact hexec.trans (vector_idle s eff hlegal hidle)

/-- Settles O7: operations on two operands, FMA, operations on one, and the instruction that the engine does not run. -/
theorem vectorArithmetic : Obligations.VectorArithmetic := by
  unfold Obligations.VectorArithmetic
  intro p x s runs
  refine ⟨fun h => ?add, fun h => ?sub, fun h => ?mul, fun h => ?min, fun h => ?max, fun h => ?fma, fun h => ?abs, fun h => ?neg,
    fun op i => arithmeticForm_idle⟩
  case add => exact binary_completes (f := fun fr a b => laneAdd x.type fr (rndOf x.rnd) a b) h rfl
  case sub => exact binary_completes (f := fun fr a b => laneSub x.type fr (rndOf x.rnd) a b) h rfl
  case mul => exact binary_completes (f := fun fr a b => laneMul x.type fr (rndOf x.rnd) a b) h rfl
  case min => exact binary_completes (f := fun _ a b => laneMin x.type true a b) h rfl
  case max => exact binary_completes (f := fun _ a b => laneMin x.type false a b) h rfl
  case fma =>
    exact lanes_completes (f := fun _ u v i =>
      laneFma x.type (rndOf x.rnd) (u.lane p x.srcA x.type v i) (u.laneB p x v i) (u.lane p x.dst x.type v i)) h rfl
  case abs => exact unary_completes (f := fun fr a => laneAbs x.type fr a) h rfl
  case neg => exact unary_completes (f := fun fr a => laneNeg x.type fr a) h rfl

/-- SEL's mask is read as the instruction begins; a trace record leaves it. -/
theorem sel_completes {p : Nat} {x : VecInstr} {s : State} (h : x.legal 0x12 = true ∧ s.vecRuns p x 0x12 = true) :
    Completes (.sel p x) s (LaneRun p { x with mask := 0 } (fun u v i =>
      if s.maskBit p x.mask x.type i then u.lane p x.srcA x.type v i else u.laneB p x v i) s) := by
  have hrun := lanes_completes (i := .sel p x) (x := { x with mask := 0 }) (f := fun t u v i =>
    if t.maskBit p x.mask x.type i then u.lane p x.srcA x.type v i else u.laneB p x v i) h rfl
  simpa only [maskBit_trace] using hrun

/-- Settles O8: each lane comes from the operand that the instruction names; SELP's mask words lie where log entry 28 places them. -/
theorem vectorSelection : Obligations.VectorSelection := by
  unfold Obligations.VectorSelection
  intro p x s runs
  refine ⟨fun h => ?mov, sel_completes, fun h => ?perm, fun h => ?selp, fun h => ?shuf⟩
  case mov => exact lanes_completes (f := fun _ u v i => if x.bimm then u.laneB p x v i else u.lane p x.srcA x.type v i) h rfl
  case perm => exact lanes_completes (f := fun _ u => u.permuted p x) h rfl
  case selp =>
    exact lanes_completes (f := fun _ u v i =>
      if (BitVec.ofNat 64 (u.vecLoad p x.srcB (8 * v) 8)).getLsbD i then u.lane p x.srcA x.type v i else u.lane p x.dst x.type v i) h rfl
  case shuf => exact lanes_completes (f := fun _ u => u.shuffled p x) h rfl

/-- Settles O9: functions of operand A, then the sum of partials and the unpacked value, each formed from the state before its vector. -/
theorem vectorFunctions : Obligations.VectorFunctions := by
  unfold Obligations.VectorFunctions
  intro p x s runs
  refine ⟨fun h => ?exp2, fun h => ?log2, fun h => ?rsqrt, fun h => ?rcp, fun h => ?psum, fun h => ?unpack⟩
  case exp2 => exact unary_completes (f := fun _ a => (fexp2 (BitVec.ofNat 32 a)).toNat) h rfl
  case log2 => exact unary_completes (f := fun _ a => (flog2 (BitVec.ofNat 32 a)).toNat) h rfl
  case rsqrt => exact unary_completes (f := fun _ a => (frsqrt (BitVec.ofNat 32 a)).toNat) h rfl
  case rcp => exact unary_completes (f := fun _ a => (frcp (BitVec.ofNat 32 a)).toNat) h rfl
  case psum => exact lanes_completes (f := fun _ u => u.psumOf p x) h rfl
  case unpack => exact lanes_completes (f := fun _ u => u.unpacked p x (x.aux % 16)) h rfl

end Sys2Proof.Machine
end

section
/-! Comparisons and mask registers (R219, R224). -/
namespace Sys2Proof.Machine

section
variable (s : State) (p : Nat)

theorem maskReg_zero : s.maskReg p 0 = BitVec.allOnes 64 := if_pos rfl

theorem maskReg_setMask_other {n j : Nat} (hj : j ≠ n) (v : BitVec 64) : (s.setMask p n v).maskReg p j = s.maskReg p j := by
  rw [State.maskReg, State.maskReg, core_setMask]
  by_cases hn : n = 0
  · rw [if_pos hn]
  · rw [if_neg hn, tget_tset_other _ _ _ hj]

/-- A mask write leaves the other cores, and all of its own core but the masks. -/
theorem core_setMask_other {q : Nat} (hq : q ≠ p) (n : Nat) (v : BitVec 64) : (s.setMask p n v).core q = s.core q := by
  unfold State.setMask
  split
  · rfl
  · exact (core_updCore ..).trans (if_neg hq)

theorem core_setMask_masks (n : Nat) (v : BitVec 64) :
    ({ (s.setMask p n v).core p with masks := (s.core p).masks } : Core) = s.core p := by
  rw [core_setMask]
  split
  · rfl
  · rfl

theorem cmpBit_trace (q e k c : Nat) (x : VecInstr) (v i : Nat) (old : Bool) :
    (s.trace q e k c).cmpBit p x v i old = s.cmpBit p x v i old := by
  obtain ⟨_, _, h⟩ := exists_trace s q e k c
  rw [h]
  rfl
end

theorem SameBut.trans {l : List Part} {s u t : State} (h : SameBut l s u) (h' : SameBut l u t) : SameBut l s t :=
  fun part hpart => agree_trans (h part hpart) (h' part hpart)

theorem sameBut_trace (s : State) (q e k c : Nat) : SameBut [.cores, .sec, .freeCtr] s (s.trace q e k c) :=
  KeepsO.sameBut (KeepsO.next (keeps_trace (Keeps.refl 0x900000000 s) rfl)) rfl rfl

/-- Trace records around an instruction change no mask. -/
theorem MasksSet.between_traces {p q e k c q' e' k' c' : Nat} {l : List (Nat × BitVec 64)} {s t : State}
    (h : MasksSet p l (s.trace q e k c) t) : MasksSet p l s (t.trace q' e' k' c') := by
  obtain ⟨hsame, hcores, hrest, hmasks⟩ := h
  simp only [core_trace, maskReg_trace] at hcores hrest hmasks
  refine ⟨SameBut.trans (SameBut.trans (sameBut_trace s q e k c) hsame) (sameBut_trace t q' e' k' c'), fun d hd => ?_, ?_, fun n => ?_⟩
  · rw [core_trace, hcores d hd]
  · rw [core_trace, hrest]
  · rw [maskReg_trace, hmasks]

section
variable (s : State) (p : Nat)

theorem sameBut_setMask (n : Nat) (v : BitVec 64) : SameBut [.cores, .sec, .freeCtr] s (s.setMask p n v) :=
  KeepsO.sameBut (KeepsO.next (keeps_setMask (Keeps.refl 0x8000000 s) rfl)) rfl rfl

/-- One register set. -/
theorem masksSet_setMask (n : Nat) (v : BitVec 64) : MasksSet p [(n, v)] s (s.setMask p n v) := by
  refine ⟨sameBut_setMask s p n v, fun q hq => core_setMask_other s p hq n v, core_setMask_masks s p n v, fun j => ?_⟩
  by_cases hj : j = n
  · rw [hj, maskReg_setMask, tget, if_pos rfl]
  · rw [maskReg_setMask_other s p hj, tget, if_neg (Ne.symm hj), tget]
    split
    · next h0 => rw [h0, maskReg_zero]
    · rfl

/-- A write to k0 is ignored. -/
theorem masksSet_zero (v : BitVec 64) : MasksSet p [(0, v)] s s := masksSet_setMask s p 0 v

/-- Two registers set, one after the other; since they differ, each reads its own word. -/
theorem masksSet_pair {n m : Nat} (hne : n ≠ m) (v w : BitVec 64) : MasksSet p [(n, v), (m, w)] s ((s.setMask p n v).setMask p m w) := by
  obtain ⟨hsame, hcores, hrest, hmasks⟩ := masksSet_setMask s p n v
  obtain ⟨hsame', hcores', hrest', hmasks'⟩ := masksSet_setMask (s.setMask p n v) p m w
  refine ⟨hsame.trans hsame', fun q hq => (hcores' q hq).trans (hcores q hq), ?_, fun j => ?_⟩
  · rw [← hrest, ← hrest']
  · rw [hmasks', hmasks]
    simp only [tget]
    grind
end

/-- CMP's registers with their new words: a pair for BF16 (R219, R224). -/
def State.cmpMasks (s : State) (p : Nat) (x : VecInstr) : List (Nat × BitVec 64) :=
  let k := x.aux / 8 % 8
  (k, bitsOf ((List.range 64).map (fun i => s.cmpBit p x 0 i ((s.maskReg p k).getLsbD i)))) ::
    if x.type = 1 ∧ k ≠ 0 then
      [(k + 1, bitsOf ((List.range 64).map (fun i => s.cmpBit p x 0 (64 + i) ((s.maskReg p (k + 1)).getLsbD i))))] else []

theorem cmpMasks_trace (s : State) (q e k c p : Nat) (x : VecInstr) : (s.trace q e k c).cmpMasks p x = s.cmpMasks p x := by
  simp only [State.cmpMasks, cmpBit_trace, maskReg_trace]

theorem masksSet_cmpTo (s : State) (p : Nat) (x : VecInstr) : MasksSet p (s.cmpMasks p x) s (s.cmpTo p x) := by
  unfold State.cmpTo State.cmpMasks
  extract_lets k lo hi
  by_cases hk : k = 0
  · rw [if_pos hk, if_neg fun h => h.2 hk, hk]
    exact masksSet_zero s p _
  · rw [if_neg hk]
    by_cases htype : x.type = 1
    · rw [if_pos htype, if_pos ⟨htype, hk⟩]
      exact masksSet_pair s p (Nat.succ_ne_self k).symm lo hi
    · rw [if_neg htype, if_neg fun h => htype h.1]
      exact masksSet_setMask s p k lo

/-- KOP's word from its two sources (R224). -/
def kopWord (form : Nat) (a b : BitVec 64) : BitVec 64 :=
  match form with
  | 0 => a &&& b
  | 1 => a ||| b
  | 2 => a ^^^ b
  | _ => a &&& ~~~b

theorem kop_eq (s : State) (p : Nat) (x : VecInstr) :
    s.kop p x = s.setMask p (x.aux % 8) (kopWord (x.aux / 8 % 4) (s.maskReg p (x.srcB % 8)) (s.maskReg p (x.srcB / 8 % 8))) := rfl

section
variable {s : State} {p : Nat} {x : VecInstr}

/-- An instruction that sets mask registers, between its trace records. -/
theorem masks_completes {op : Nat} {i : Instr} {l : List (Nat × BitVec 64)} (eff : State → State)
    (h : x.legal op = true ∧ s.vecRuns p x op = true) (hexec : exec i s = s.vector p x op eff)
    (hset : MasksSet p l (s.trace p 1 1 (s.active p)) (eff (s.trace p 1 1 (s.active p)))) : Completes i s (MasksSet p l s) :=
  vector_completes s h.1 h.2 hexec hset.between_traces

theorem cmp_completes (h : x.legal 0x10 = true ∧ s.vecRuns p x 0x10 = true) : Completes (.cmp p x) s (MasksSet p (s.cmpMasks p x) s) := by
  refine masks_completes (fun u => u.cmpTo p x) h rfl ?_
  rw [← cmpMasks_trace s p 1 1 (s.active p)]
  exact masksSet_cmpTo ..

theorem kset_completes (h : x.legal 0x3C = true ∧ s.vecRuns p x 0x3C = true) :
    Completes (.kset p x) s (MasksSet p [(x.aux % 8, BitVec.ofNat 64 (2 ^ (x.srcB % 128) - 1))] s) :=
  masks_completes (fun u => u.setMask p (x.aux % 8) (BitVec.ofNat 64 (2 ^ (x.srcB % 128) - 1))) h rfl (masksSet_setMask ..)

theorem kop_completes (h : x.legal 0x3D = true ∧ s.vecRuns p x 0x3D = true) : Completes (.kop p x) s (MasksSet p
    [(x.aux % 8, kopWord (x.aux / 8 % 8 % 4) (s.maskReg p (x.srcB % 8)) (s.maskReg p (x.srcB / 8 % 8)))] s) := by
  refine masks_completes (fun u => u.kop p x) h rfl ?_
  rw [Nat.mod_mod_of_dvd _ (by decide), ← maskReg_trace s p 1 1 (s.active p), ← maskReg_trace s p 1 1 (s.active p), kop_eq]
  exact masksSet_setMask ..

/-- CMPS's mask words, one for each vector (R224). -/
theorem cmps_completes (h : x.legal 0x11 = true ∧ s.vecRuns p x 0x11 = true) :
    Completes (.cmps p x) s (RowsWritten p x.dst 8 x.vectors (fun u v => leBytes 8 (bitsOf ((List.range 64).map (fun i =>
      u.cmpBit p x v i ((BitVec.ofNat 64 (u.vecLoad p x.dst (8 * v) 8)).getLsbD i)))).toNat) s) :=
  vector_completes s h.1 h.2 (eff := fun u => u.cmpsTo p x) rfl (rows_run s 1 _ _ _ _ _ _ fun u v => by
    rw [leBytes_length]
    decide)
end

/-- Settles O11: mask registers set, and mask words written; the words of CMPS lie where log entry 28 places them, and ANDNOT is log entry 72. -/
theorem vectorMasks : Obligations.VectorMasks := by
  unfold Obligations.VectorMasks
  intro p x s runs k
  exact ⟨cmp_completes, cmps_completes, kset_completes, kop_completes⟩

end Sys2Proof.Machine
end

section
/-! Reductions and lists of the largest (R224, R228 to R230). -/
namespace Sys2Proof.Machine

/-- The bytes of the list that TOPKM merges from the two lists of vector v (R230). -/
def State.mergedList (u : State) (p : Nat) (x : VecInstr) (v : Nat) : List Byte :=
  let k := x.aux % 16 + 1
  pairBytes (topList k (u.pairsAt p x.srcA (256 * v) k ++ u.pairsAt p x.srcB (256 * v) k))

theorem mergedList_length_le (u : State) (p : Nat) (x : VecInstr) (v : Nat) : (u.mergedList p x v).length ≤ 2 ^ 18 := by
  unfold State.mergedList
  extract_lets k
  have hlist := topList_length k (u.pairsAt p x.srcA (256 * v) k ++ u.pairsAt p x.srcB (256 * v) k)
  have hk : k ≤ 16 := Nat.mod_lt x.aux (by decide)
  rw [pairBytes_length]
  omega

section
variable {s : State} {p : Nat} {x : VecInstr}

/-- An instruction that stores one short list of bytes at its destination; the list is read before the store, after a trace record that leaves
it. -/
theorem stored_completes {op : Nat} {i : Instr} (l : State → List Byte) (h : x.legal op = true ∧ s.vecRuns p x op = true)
    (hexec : exec i s = s.vector p x op (fun u => u.vecStore p x.dst 0 (l u))) (htrace : l (s.trace p 1 1 (s.active p)) = l s)
    (hlength : (l s).length ≤ 2 ^ 18) : Completes i s (BytesWritten p x.dst 0 (l s) s) := by
  refine vector_completes s h.1 h.2 hexec ?_
  rw [htrace]
  exact bytesWritten_traced s _ _ _ _ _ _ hlength

theorem rsum_completes (h : x.legal 0x30 = true ∧ s.vecRuns p x 0x30 = true) :
    Completes (.rsum p x) s (BytesWritten p x.dst 0 (leBytes 4 (s.rsumOf p x).toNat) s) :=
  stored_completes (fun u => leBytes 4 (u.rsumOf p x).toNat) h rfl (by rw [rsumOf_trace]) (by
    rw [leBytes_length]
    decide)

/-- A list of pairs made of the active elements (R229, R230). -/
theorem pairs_complete {op : Nat} {i : Instr} (f : List (Nat × Nat) → List (Nat × Nat)) (h : x.legal op = true ∧ s.vecRuns p x op = true)
    (hexec : exec i s = s.vector p x op (fun u => u.vecStore p x.dst 0 (pairBytes (f (u.activePairs p x)))))
    (hlength : (f (s.activePairs p x)).length ≤ 16) : Completes i s (BytesWritten p x.dst 0 (pairBytes (f (s.activePairs p x))) s) := by
  refine stored_completes (fun u => pairBytes (f (u.activePairs p x))) h hexec (by rw [activePairs_trace]) ?_
  rw [pairBytes_length]
  omega

theorem topkm_completes (h : x.legal 0x34 = true ∧ s.vecRuns p x 0x34 = true) :
    Completes (.topkm p x) s (RowsWritten p x.dst 256 x.vectors (fun u v => u.mergedList p x v) s) := by
  refine vector_completes s h.1 h.2 (eff := fun u =>
    (List.range x.vectors).foldl (fun u v => u.vecStore p x.dst (256 * v) (u.mergedList p x v)) u) rfl ?_
  exact rows_run s 1 _ _ _ _ _ _ fun u v => mergedList_length_le u p x v
end

/-- Settles O12: one value or one list stored at the destination, and TOPKM's list for each vector. -/
theorem vectorReductions : Obligations.VectorReductions := by
  unfold Obligations.VectorReductions
  intro p x s runs k
  have htop : (topList k (s.activePairs p x)).length ≤ 16 := (topList_length ..).trans (Nat.mod_lt x.aux (by decide))
  exact ⟨rsum_completes, fun h => pairs_complete (fun l => [extreme x.type true l]) h rfl (by simp),
    fun h => pairs_complete (fun l => [extreme x.type false l]) h rfl (by simp), fun h => pairs_complete (topList k) h rfl htop,
    topkm_completes⟩

end Sys2Proof.Machine
end

section
/-! DMA within the module (R231 to R234, R369, R389). -/
namespace Sys2Proof.Machine

/-! Where the bytes land. -/

theorem storeAll_eq (s : State) (l : List (Nat × Byte)) : s.storeAll l = { s with mem := (s.storeAll l).mem } := by
  induction l generalizing s with
  | nil => rfl
  | cons e r ih => exact ih (s.setByte e.1 e.2)

theorem endKey_storeAll (s : State) (l : List (Nat × Byte)) (p kind peer a : Nat) :
    (s.storeAll l).endKey p kind peer a = s.endKey p kind peer a := by
  rw [storeAll_eq]
  rfl

theorem storeAll_append (s : State) (l m : List (Nat × Byte)) : s.storeAll (l ++ m) = (s.storeAll l).storeAll m := List.foldl_append ..

/-- The stores of a range's bytes at an endpoint. -/
def State.endStores (s : State) (p kind peer a : Nat) (l : List Byte) : List (Nat × Byte) :=
  l.zipIdx.map (fun e => (s.endKey p kind peer (a + e.2), e.1))

theorem endStores_cons (s : State) (p kind peer a : Nat) (b : Byte) (l : List Byte) :
    s.endStores p kind peer a (b :: l) = (s.endKey p kind peer a, b) :: s.endStores p kind peer (a + 1) l := by
  simp only [State.endStores, List.zipIdx_cons', List.map_cons, List.map_map, Function.comp_def, Prod.map_fst, Prod.map_snd, id_eq, Nat.add_zero,
    Nat.add_assoc, Nat.add_comm 1]

theorem setEnd_eq_storeAll (s : State) (p kind peer a : Nat) (l : List Byte) :
    s.setEnd p kind peer a l = s.storeAll (s.endStores p kind peer a l) := by
  induction l generalizing s a with
  | nil => rfl
  | cons b r ih =>
    rw [State.setEnd, ih, endStores_cons]
    rfl

/-- The stores of a descriptor's ranges, in order (R233). -/
def State.rangeStores (s : State) (p kind peer : Nat) (l : List ((Int × Nat) × List Byte)) : List (Nat × Byte) :=
  l.flatMap (fun r => s.endStores p kind peer r.1.1.toNat r.2)

theorem foldl_setEnd_eq_storeAll (s : State) (p kind peer : Nat) (l : List ((Int × Nat) × List Byte)) :
    l.foldl (fun u r => u.setEnd p kind peer r.1.1.toNat r.2) s = s.storeAll (s.rangeStores p kind peer l) := by
  induction l generalizing s with
  | nil => rfl
  | cons r rest ih =>
    have hkeys : ∀ u, (s.storeAll u).rangeStores p kind peer rest = s.rangeStores p kind peer rest := fun u => by
      simp only [State.rangeStores, State.endStores, endKey_storeAll]
    rw [List.foldl_cons, ih, setEnd_eq_storeAll, hkeys, ← storeAll_append]
    rfl

/-! The descriptor. -/

/-- Inside the module a descriptor runs as its transfer, but for the trace and for the free values drawn. -/
theorem exists_dmaOp_local {p op : Nat} {d : DmaDesc} {s : State} (hin : s.dmaInside p (s.active p) d op = true) (hkind : d.dstKind ≠ 4) :
    ∃ x n y m, s.dmaOp p d op =
      { ({ s with sec := x, freeCtr := n } : State).dmaLocal p (s.active p) d op (s.dmaMoved p d op) with sec := y, freeCtr := m } := by
  obtain ⟨x, n, hfirst⟩ : ∃ x n, (if s.dmaOverlap p d op then s.skipDraws (d.total + d.x) else s).trace p 3 1 (s.active p) =
      { s with sec := x, freeCtr := n } := by
    split
    · exact exists_trace (s.skipDraws _) ..
    · exact exists_trace s ..
  obtain ⟨y, m, hlast⟩ := exists_trace
    (({ s with sec := x, freeCtr := n } : State).dmaLocal p (s.active p) d op (s.dmaMoved p d op)) p 3 2 (s.active p)
  refine ⟨x, n, y, m, ?_⟩
  unfold State.dmaOp
  simp only [hin, Bool.true_eq_false, if_false, hkind, hfirst]
  exact hlast

theorem byte_signalIn (s : State) (c g l k v n b : Nat) : (s.signalIn c g l k v n).byte b = s.byte b :=
  (keeps_signalIn (Keeps.refl 0x8042000 s) rfl).same .mem rfl b

theorem counted_signalIn {s : State} {c l k v n p : Nat} (hp : s.physOf l = some p) {g : Nat} (hg : g = s.gen c) :
    Counted p c k v n n s (s.signalIn c g l k v n) := by
  rw [State.signalIn, if_pos hg, hp]
  exact counted_count ..

/-- Where bytes were stored before, the credit is that of the state without them. -/
theorem counted_storeAll_signalIn {s : State} {c l k v n p : Nat} (hp : s.physOf l = some p) {g : Nat} (hg : g = s.gen c)
    (stores : List (Nat × Byte)) : Counted p c k v n n s ((s.storeAll stores).signalIn c g l k v n) := by
  rw [storeAll_eq]
  exact counted_signalIn (s := { s with mem := (s.storeAll stores).mem }) hp hg

theorem gen_staleData (s : State) (c n : Nat) : (s.staleData c n).gen c = s.gen c :=
  (get_raise_otherWord _ rfl c).trans (get_bump_otherWord s rfl c n)

theorem get_staleSignal_stale (s : State) {c : Nat} (hc : c < 1024) (n : Nat) : (s.staleSignal c n).get F.CTX_EVT_STALE c = 1 := by
  rw [State.staleSignal, get_raise, get_put_same _ rfl hc]
  rfl

section
variable {s : State} {p c op : Nat} {d : DmaDesc} {data : List (List Byte)}

theorem dmaLocal_current (hgen : d.gen = s.gen c) : s.dmaLocal p c d op data =
    (s.storeAll (s.rangeStores p d.dstKind d.peer ((d.dstRanges op).zip data))).signalIn c d.gen d.sigCore d.sigCtr 1 d.total := by
  rw [State.dmaLocal, if_pos hgen, foldl_setEnd_eq_storeAll]

/-- A current descriptor's bytes land in order, and its counter is credited (R234, R369). -/
theorem dmaLocal_lands (hgen : d.gen = s.gen c) :
    (∀ b, (s.dmaLocal p c d op data).byte b = lastStored (s.rangeStores p d.dstKind d.peer ((d.dstRanges op).zip data)) s b) ∧
      ∀ q, s.physOf d.sigCore = some q → Counted q c d.sigCtr 1 d.total d.total s (s.dmaLocal p c d op data) := by
  rw [dmaLocal_current hgen]
  exact ⟨fun b => by rw [byte_signalIn, byte_storeAll], fun q hq => counted_storeAll_signalIn hq hgen _⟩

/-- A stale one moves nothing and shows (R389). -/
theorem dmaLocal_stale (hc : c < 1024) (hgen : d.gen ≠ s.gen c) :
    (∀ b, (s.dmaLocal p c d op data).byte b = s.byte b) ∧ (s.dmaLocal p c d op data).get F.CTX_EVT_STALE c = 1 := by
  rw [State.dmaLocal, if_neg hgen]
  refine ⟨fun b => (byte_signalIn ..).trans ((keeps_staleData (Keeps.refl 0x42000 s) rfl).same .mem rfl b), ?_⟩
  rw [State.signalIn, gen_staleData, if_neg hgen]
  exact get_staleSignal_stale _ hc 1
end

/-- Settles O15: the descriptor of the running generation, and the stale one. -/
theorem dmaMoves : Obligations.DmaMoves := by
  unfold Obligations.DmaMoves
  intro p d s i op hi hok _ hrun hfree hin hkind
  obtain ⟨x, n, y, m, hop⟩ := exists_dmaOp_local hin hkind
  refine ⟨_, (exec_dma hi hok hrun hfree).trans (congrArg Host.Outcome.next hop), fun hgen => ?_, fun hgen => ?_⟩
  · exact dmaLocal_lands (s := { s with sec := x, freeCtr := n }) hgen
  · exact dmaLocal_stale (s := { s with sec := x, freeCtr := n }) (active_lt s p) hgen

end Sys2Proof.Machine
end

section
/-! The owner's commands to a context, and a write of PAUSE (R264, R366, R384, R388). -/
namespace Sys2Proof.Machine

/-! A command register that is written. -/

/-- The state on which a command of the owner acts: its arrival is noted, it is queued, and its answer is held (R70, R366). -/
def State.acknowledging (s : State) (r : Req) (P : PortSt) : State := ({ s with ports := P } : State).queue2.accept 0x0A 2 r 0 0

theorem Acknowledged.of_held {r : Req} {s t : State} {P : PortSt} (hq2 : t.fr.q2 = (s.acknowledging r P).fr.q2)
    (hheld : t.fr.held = (s.acknowledging r P).fr.held) : Acknowledged r s t := ⟨hq2, hheld⟩

theorem Acknowledged.of_fr {r : Req} {s t : State} {P : PortSt} (h : t.fr = (s.acknowledging r P).fr) : Acknowledged r s t :=
  .of_held (congrArg FrameSt.q2 h) (congrArg FrameSt.held h)

/-- The checks of R66, R366 and R571 pass for a write that is taken in. -/
theorem firstFail_commandChecks {s : State} {r : Req} {anyPhase : Bool} (h : TakenOne s r anyPhase) :
    firstFail (s.writeChecks r anyPhase ++ [State.oneEntry r]) = none := by
  obtain ⟨⟨-, hctx, hgen, harg0, harg1, howner, hroom, hphase⟩, hlen⟩ := h
  rw [firstFail_eq_none_iff]
  simp [State.writeChecks, State.zeroArgs, State.oneEntry, State.room2, hctx, hgen, harg0, harg1, howner, hroom, hphase, hlen]

/-- A command that is taken in acts at once, beside its answer. -/
theorem completes_of_commandWrite {s : State} {r : Req} {anyPhase : Bool} (h : TakenOne s r anyPhase) {i : Instr} {effect : State → State}
    (hexec : exec i s = .next (s.commandWrite r anyPhase effect)) {Q : State → Prop} (hQ : ∀ P, Q (effect (s.acknowledging r P))) :
    Completes i s Q := by
  obtain ⟨P, hP⟩ := exists_ports_of_request h.1.1 (fun u => u.writeChecks r anyPhase ++ [State.oneEntry r]) (fun _ => rfl)
    (firstFail_commandChecks h)
  exact ⟨_, hexec.trans (congrArg Host.Outcome.next (hP fun _ u => effect (u.queue2.accept 0x0A 2 r 0 0))), hQ P⟩

/-! PARK, UNPARK and TEARDOWN (R384, R388). -/

/-- The context without an earlier command of the frame, which a later one replaces (R366, R555). -/
def State.recalled (s : State) (c : Nat) : State :=
  if (s.ctx c).cmd.isSome then
    (s.enter c (s.ctxState c)).put F.CTX_STATE_UNPARK_PENDING c (s.seen F.CTX_STATE_UNPARK_PENDING c)
  else s

/-- The context with the code of its new command. -/
def State.commanded (s : State) (c code : Nat) : State := (s.recalled c).updCtx c (fun x => { x with cmd := some code })

/-- Replacing a command changes nothing on which the next one depends. -/
theorem cmdOk_recalled (s : State) (c code : Nat) : (s.recalled c).cmdOk c code = s.cmdOk c code := by
  unfold State.recalled
  split
  · have hstate : ((s.enter c (s.ctxState c)).put F.CTX_STATE_UNPARK_PENDING c (s.seen F.CTX_STATE_UNPARK_PENDING c)).ctxState c =
        s.ctxState c := (seen_put ..).trans (seen_put ..)
    have hdigital : ((s.enter c (s.ctxState c)).put F.CTX_STATE_UNPARK_PENDING c (s.seen F.CTX_STATE_UNPARK_PENDING c)).get
        F.CTX_STATE_DIGITAL_ONLY c = s.get F.CTX_STATE_DIGITAL_ONLY c :=
      (get_put_apart _ rfl rfl rfl ..).trans (get_put_apart s rfl rfl rfl ..)
    unfold State.cmdOk
    rw [hstate, hdigital]
  · rfl

section
variable {s : State} {c code : Nat}

theorem command_park (h : s.cmdOk c 1 = true) : s.command c 1 = (s.commanded c 1).enter c 4 := if_pos ((cmdOk_recalled s c 1).trans h)

theorem command_unpark (h : s.cmdOk c 2 = true) : s.command c 2 = (s.commanded c 2).put F.CTX_STATE_UNPARK_PENDING c 1 :=
  if_pos ((cmdOk_recalled s c 2).trans h)

theorem command_teardown (h : s.cmdOk c 3 = true) : s.command c 3 = (s.commanded c 3).enter c 5 :=
  if_pos ((cmdOk_recalled s c 3).trans h)

theorem command_ignored (h : s.cmdOk c code = false) : s.command c code =
    ((s.recalled c).raise F.CTX_EVT_CMD_IGNORED c).updCtx c (fun x => { x with cmd := none }) :=
  if_neg (Bool.eq_false_iff.mp ((cmdOk_recalled s c code).trans h))

theorem cmd_commanded (s : State) (c code : Nat) : ((s.commanded c code).ctx c).cmd = some code :=
  congrArg Ctx.cmd (ctx_updCtx_same ..)

theorem command_parks (hc : c < 1024) (h : s.cmdOk c 1 = true) :
    (s.command c 1).ctxLive c = 4 ∧ ((s.command c 1).ctx c).cmd = some 1 := by
  rw [command_park h]
  exact ⟨get_put_same _ rfl hc 4, (congrArg Ctx.cmd (ctx_put ..)).trans (cmd_commanded s c 1)⟩

theorem command_unparks (hc : c < 1024) (h : s.cmdOk c 2 = true) :
    (s.command c 2).get F.CTX_STATE_UNPARK_PENDING c = 1 ∧ ((s.command c 2).ctx c).cmd = some 2 := by
  rw [command_unpark h]
  exact ⟨get_put_same _ rfl hc 1, (congrArg Ctx.cmd (ctx_put ..)).trans (cmd_commanded s c 2)⟩

theorem command_tearsDown (hc : c < 1024) (h : s.cmdOk c 3 = true) :
    (s.command c 3).ctxLive c = 5 ∧ ((s.command c 3).ctx c).cmd = some 3 := by
  rw [command_teardown h]
  exact ⟨get_put_same _ rfl hc 5, (congrArg Ctx.cmd (ctx_put ..)).trans (cmd_commanded s c 3)⟩

/-- A command that its context's state does not admit sets CMD_IGNORED (R384). -/
theorem command_shows_ignored (hc : c < 1024) (h : s.cmdOk c code = false) :
    (s.command c code).get F.CTX_EVT_CMD_IGNORED c = 1 ∧ ((s.command c code).ctx c).cmd = none := by
  rw [command_ignored h]
  exact ⟨(get_raise ..).trans (get_put_same _ rfl hc 1), congrArg Ctx.cmd (ctx_updCtx_same ..)⟩

theorem fr_command (s : State) (c code : Nat) : (s.command c code).fr = s.fr :=
  (keeps_command (Keeps.refl 0x2042000 s) rfl).same .fr rfl
end

section
variable {s : State} {r : Req} {c : Nat} (hr : TakenOne s r false) (hc : c < 1024)
include hr hc

theorem park_parks (h : s.cmdOk c 1 = true) :
    Completes (.park r c) s (fun t => t.ctxLive c = 4 ∧ (t.ctx c).cmd = some 1 ∧ Acknowledged r s t) :=
  completes_of_commandWrite hr rfl fun P =>
    have ⟨hlive, hcmd⟩ := command_parks (s := s.acknowledging r P) hc h
    ⟨hlive, hcmd, .of_fr (fr_command ..)⟩

theorem unpark_waits (h : s.cmdOk c 2 = true) :
    Completes (.unpark r c) s (fun t => t.get F.CTX_STATE_UNPARK_PENDING c = 1 ∧ (t.ctx c).cmd = some 2 ∧ Acknowledged r s t) :=
  completes_of_commandWrite hr rfl fun P =>
    have ⟨hpending, hcmd⟩ := command_unparks (s := s.acknowledging r P) hc h
    ⟨hpending, hcmd, .of_fr (fr_command ..)⟩

theorem teardown_drains (h : s.cmdOk c 3 = true) :
    Completes (.teardown r c) s (fun t => t.ctxLive c = 5 ∧ (t.ctx c).cmd = some 3 ∧ Acknowledged r s t) :=
  completes_of_commandWrite hr rfl fun P =>
    have ⟨hlive, hcmd⟩ := command_tearsDown (s := s.acknowledging r P) hc h
    ⟨hlive, hcmd, .of_fr (fr_command ..)⟩

theorem park_ignored (h : s.cmdOk c 1 = false) :
    Completes (.park r c) s (fun t => t.get F.CTX_EVT_CMD_IGNORED c = 1 ∧ (t.ctx c).cmd = none) :=
  completes_of_commandWrite hr rfl fun P => command_shows_ignored (s := s.acknowledging r P) (code := 1) hc h
end

/-! PAUSE (R264). -/

theorem get_pauseTo_pause (s : State) {c : Nat} (hc : c < 1024) (v : Bool) :
    (s.pauseTo c v).get F.CTX_TRAIN_PAUSE c = if v then 1 else 0 := by
  cases v with
  | true => exact get_put_same s rfl hc 1
  | false => exact (get_put_apart _ rfl rfl rfl ..).trans (get_put_same s rfl hc 0)

theorem get_pauseTo_autoPaused (s : State) {c : Nat} (hc : c < 1024) : (s.pauseTo c false).get F.CTX_TRAIN_AUTO_PAUSED c = 0 :=
  get_put_same _ rfl hc 0

theorem pauseWrite_pauses {s : State} {r : Req} {c : Nat} (hr : TakenOne s r false) (hc : c < 1024) (v : Bool) :
    Completes (.pauseWrite r c v) s (fun t => t.get F.CTX_TRAIN_PAUSE c = (if v then 1 else 0) ∧
      (v = false → t.get F.CTX_TRAIN_AUTO_PAUSED c = 0) ∧ Acknowledged r s t) :=
  completes_of_commandWrite hr (effect := fun u => u.pauseTo c v) rfl fun P =>
    ⟨get_pauseTo_pause _ hc v, fun hv => hv ▸ get_pauseTo_autoPaused _ hc,
      .of_fr ((keeps_pauseTo (Keeps.refl 0x2000 (s.acknowledging r P)) rfl).same .fr rfl)⟩

end Sys2Proof.Machine
end

section
/-! Contexts that fault, and restores (R235, R384, R387, R448, R456). -/
namespace Sys2Proof.Machine

/-! Work that is given up. -/

theorem step_abandonStep (s : State) (c : Nat) : ((s.abandonStep c).ctx c).step = none := by
  unfold State.abandonStep
  rw [ctx_updCtx_same]
  split
  · assumption
  · rfl

theorem ckpt_abandonStep (s : State) (c : Nat) : ((s.abandonStep c).ctx c).ckpt = (s.ctx c).ckpt := by
  unfold State.abandonStep
  rw [ctx_updCtx_same]
  split <;> rfl

theorem ctx_eventAtD0 (s : State) (st k i d0 c : Nat) : (s.eventAtD0 st k i d0).ctx c = s.ctx c :=
  ctx_congr ((keeps_eventAtD0 (Keeps.refl 0xC21000084 s) rfl).same .ctxs rfl) c

theorem fr_eventAtD0 (s : State) (st k i d0 : Nat) : (s.eventAtD0 st k i d0).fr = s.fr :=
  (keeps_eventAtD0 (Keeps.refl 0xC21000084 s) rfl).same .fr rfl

theorem get_eventAtD0 {g : Fld} {j : Nat} (hg : g.addr j ∉ eventWords) (s : State) (st k i d0 : Nat) :
    (s.eventAtD0 st k i d0).get g j = s.get g j := get_eventAt hg s.drawn ..

theorem loggedAt_eventAtD0 (s : State) (st k i d0 : Nat) : ∃ d1, LoggedAt st k i d0 d1 s (s.eventAtD0 st k i d0) :=
  ⟨s.draw, logged_event { s.drawn with frame := s.frame + 1 } st k i d0 s.draw⟩

theorem abandonCkpt_of_none {s : State} {c : Nat} (h : (s.ctx c).ckpt.run = none) (cause : Nat) : s.abandonCkpt c cause = s := by
  rw [State.abandonCkpt, h]

/-- The checkpoint of the context no longer runs; nothing else of the context changes (R448). -/
theorem ctx_abandonCkpt (s : State) (c cause : Nat) :
    (s.abandonCkpt c cause).ctx c = { s.ctx c with ckpt := { (s.ctx c).ckpt with run := none } } := by
  cases h : (s.ctx c).ckpt.run with
  | none => rw [abandonCkpt_of_none h, ← h]
  | some run =>
    rw [State.abandonCkpt, h]
    dsimp only
    rw [ctx_eventAtD0, ctx_congr ((State.raise_ctxs ..).trans (State.bump_ctxs ..)), ctx_updCtx_same]

theorem fr_abandonCkpt (s : State) (c cause : Nat) : (s.abandonCkpt c cause).fr = s.fr :=
  (keeps_abandonCkpt (Keeps.refl 0xC23042084 s) rfl).same .fr rfl

theorem get_abandonCkpt {g : Fld} (hbase : 0x300000 ≤ g.base) (hstats : F.CKPT_STATS_ABANDONED.otherWord g = true)
    (hevt : F.CKPT_EVT_FAILED.otherWord g = true) (s : State) (c cause : Nat) : (s.abandonCkpt c cause).get g c = s.get g c := by
  unfold State.abandonCkpt
  split
  · rfl
  · extract_lets u
    rw [get_eventAtD0 (ctxWord_notMem_eventWords hbase c), get_raise_otherWord _ hevt, get_bump_otherWord u hstats]
    rfl

/-! A context enters FAULTED, in three steps (R387). -/

/-- The state, the cause and the frame in the registers. -/
def State.faultShown (s : State) (c cause : Nat) : State :=
  let u := (s.enter c 6).put F.CTX_FAULT_CAUSE c cause
  let v := (u.put F.CTX_FAULT_FRAME c ((u.frame + 1) % 2 ^ 16)).raise F.CTX_EVT_FAULTED c
  (v.put F.CTX_STATE_UNPARK_PENDING c 0).put F.CTX_STATE_MODULE_HELD c 0

/-- A query of the context is to be answered with a refusal. -/
def PlacedQuery.refusedFor (c : Nat) (q : PlacedQuery) : PlacedQuery := if q.ctx = c then { q with refused := true } else q

/-- The context without its fault that was due, and with the failure counted. -/
def Ctx.failedAt (now : Nat) (x : Ctx) : Ctx :=
  { x with faultDue := none, held := false, ckpt := { x.ckpt with fails := x.ckpt.fails ++ [now] } }

def State.queriesRefused (s : State) (c : Nat) : State :=
  { s with fr := { s.fr with
    plans := s.fr.plans.map (fun p => { p with queries := p.queries.map (PlacedQuery.refusedFor c) }),
    flying := s.fr.flying.map (fun f => { f with query := f.query.refusedFor c }) } }

/-- The step, the checkpoint and the unanswered queries of the context end. -/
def State.workEnded (s : State) (c : Nat) : State :=
  let u := ((s.abandonStep c).abandonCkpt c 7).queriesRefused c
  u.updCtx c (Ctx.failedAt u.now)

/-- CTX_FAULTED is sent, and beside it ERR_BOUNDS where a DMA descriptor was out of bounds; that DETAIL0 of the second holds the cause too is
log entry 182. -/
def State.faultReported (s : State) (c cause : Nat) : State :=
  let u := s.eventAtD0 0x0403 6 c cause
  if cause = 1 then u.eventAtD0 0x0503 6 c cause else u

theorem enterFaulted_eq (s : State) (c cause : Nat) :
    s.enterFaulted c cause = ((s.faultShown c cause).workEnded c).faultReported c cause := rfl

theorem ctx_faultShown (s : State) (c cause d : Nat) : (s.faultShown c cause).ctx d = s.ctx d := by
  unfold State.faultShown
  extract_lets u v
  rw [ctx_put, ctx_put, ctx_congr (State.raise_ctxs ..), ctx_put, ctx_put]
  exact ctx_put ..

theorem keeps_faultShown (s : State) (c cause : Nat) : Keeps 0x42000 s (s.faultShown c cause) :=
  Keeps.put (Keeps.put (Keeps.raise (Keeps.put (Keeps.put (keeps_enter (Keeps.refl _ s) rfl) rfl rfl) rfl rfl) rfl rfl rfl) rfl rfl) rfl rfl

theorem ctxLive_faultShown (s : State) {c : Nat} (hc : c < 1024) (cause : Nat) : (s.faultShown c cause).ctxLive c = 6 := by
  unfold State.faultShown State.ctxLive
  extract_lets u v
  rw [get_put_apart _ rfl rfl rfl, get_put_apart _ rfl rfl rfl, get_raise_otherWord _ (by decide), get_put_addr u (addr_ne_addr (by decide) c),
    get_put_addr _ (addr_ne_addr (by decide) c)]
  exact get_put_same s rfl hc 6

theorem get_faultShown_cause (s : State) {c : Nat} (hc : c < 1024) (cause : Nat) :
    (s.faultShown c cause).get F.CTX_FAULT_CAUSE c = cause % F.CTX_FAULT_CAUSE.size := by
  unfold State.faultShown
  extract_lets u v
  rw [get_put_addr _ (addr_ne_addr (by decide) c), get_put_addr v (addr_ne_addr (by decide) c), get_raise_otherWord _ (by decide),
    get_put_apart u rfl rfl rfl]
  exact get_put_same _ rfl hc cause

theorem ctx_workEnded (s : State) (c : Nat) : (s.workEnded c).ctx c =
    Ctx.failedAt (((s.abandonStep c).abandonCkpt c 7).queriesRefused c).now
      { (s.abandonStep c).ctx c with ckpt := { (s.ctx c).ckpt with run := none } } := by
  unfold State.workEnded
  extract_lets u
  have hu : u.ctx c = ((s.abandonStep c).abandonCkpt c 7).ctx c := rfl
  rw [ctx_updCtx_same, hu, ctx_abandonCkpt, ckpt_abandonStep]

/-- Without a checkpoint in progress, ending the work of a context logs nothing. -/
theorem log_workEnded {s : State} {c : Nat} (h : (s.ctx c).ckpt.run = none) :
    (s.workEnded c).flt = s.flt ∧ (s.workEnded c).frame = s.frame ∧ (s.workEnded c).ports = s.ports := by
  unfold State.workEnded
  rw [abandonCkpt_of_none ((congrArg CkptSt.run (ckpt_abandonStep s c)).trans h)]
  exact ⟨rfl, rfl, rfl⟩

theorem held_workEnded (s : State) (c : Nat) : (s.workEnded c).fr.q2 = s.fr.q2 ∧ (s.workEnded c).fr.held = s.fr.held := by
  have hfr : ((s.abandonStep c).abandonCkpt c 7).fr = s.fr := fr_abandonCkpt ..
  rw [← hfr]
  exact ⟨rfl, rfl⟩

/-- What no event changes is as it was before the report. -/
theorem faultReported_keeps {β : Type} (f : State → β) (s : State) {c cause : Nat}
    (h : ∀ u st, f (State.eventAtD0 u st 6 c cause) = f u) : f (s.faultReported c cause) = f s := by
  unfold State.faultReported
  extract_lets u
  exact (ite_keeps_value f (h u 0x0503) _).trans (h s 0x0403)

theorem loggedAt_faultReported (s : State) (c : Nat) {cause : Nat} (h : cause ≠ 1) :
    ∃ d1, LoggedAt 0x0403 6 c cause d1 s (s.faultReported c cause) := by
  rw [State.faultReported, if_neg h]
  exact loggedAt_eventAtD0 ..

theorem loggedAt_faultReported_bounds (s : State) (c : Nat) :
    ∃ u d1 d2, u.frame = s.frame ∧ LoggedAt 0x0403 6 c 1 d1 s u ∧ LoggedAt 0x0503 6 c 1 d2 u (s.faultReported c 1) := by
  obtain ⟨d1, hfault⟩ := loggedAt_eventAtD0 s 0x0403 6 c 1
  obtain ⟨d2, hbounds⟩ := loggedAt_eventAtD0 (s.eventAtD0 0x0403 6 c 1) 0x0503 6 c 1
  exact ⟨s.eventAtD0 0x0403 6 c 1, d1, d2, rfl, hfault, hbounds⟩

/-! What a fault leaves. -/

theorem get_workEnded {g : Fld} (hbase : 0x300000 ≤ g.base) (hstats : F.CKPT_STATS_ABANDONED.otherWord g = true)
    (hevt : F.CKPT_EVT_FAILED.otherWord g = true) (s : State) (c : Nat) : (s.workEnded c).get g c = s.get g c :=
  get_abandonCkpt hbase hstats hevt (s.abandonStep c) c 7

theorem get_enterFaulted {g : Fld} (hbase : 0x300000 ≤ g.base) (hstats : F.CKPT_STATS_ABANDONED.otherWord g = true)
    (hevt : F.CKPT_EVT_FAILED.otherWord g = true) (s : State) (c cause : Nat) :
    (s.enterFaulted c cause).get g c = (s.faultShown c cause).get g c :=
  (faultReported_keeps (fun u => u.get g c) _ fun u _ => get_eventAtD0 (ctxWord_notMem_eventWords hbase c) u ..).trans
    (get_workEnded hbase hstats hevt ..)

theorem enterFaulted_shows (s : State) {c : Nat} (hc : c < 1024) (cause : Nat) :
    (s.enterFaulted c cause).ctxLive c = 6 ∧ (s.enterFaulted c cause).get F.CTX_FAULT_CAUSE c = cause % F.CTX_FAULT_CAUSE.size :=
  ⟨(get_enterFaulted (by decide) (by decide) (by decide) ..).trans (ctxLive_faultShown s hc cause),
    (get_enterFaulted (by decide) (by decide) (by decide) ..).trans (get_faultShown_cause s hc cause)⟩

theorem ctx_enterFaulted (s : State) (c cause : Nat) : (s.enterFaulted c cause).ctx c = ((s.faultShown c cause).workEnded c).ctx c :=
  faultReported_keeps (fun u => u.ctx c) _ fun u _ => ctx_eventAtD0 u ..

theorem enterFaulted_ends (s : State) (c cause : Nat) :
    ((s.enterFaulted c cause).ctx c).step = none ∧ ((s.enterFaulted c cause).ctx c).faultDue = none := by
  rw [ctx_enterFaulted, ctx_workEnded]
  exact ⟨step_abandonStep .., rfl⟩

theorem held_enterFaulted (s : State) (c cause : Nat) :
    (s.enterFaulted c cause).fr.q2 = s.fr.q2 ∧ (s.enterFaulted c cause).fr.held = s.fr.held := by
  have hreport : (s.enterFaulted c cause).fr = ((s.faultShown c cause).workEnded c).fr :=
    faultReported_keeps (fun u => u.fr) _ fun u _ => fr_eventAtD0 u ..
  have hshown : (s.faultShown c cause).fr = s.fr := (keeps_faultShown ..).same .fr rfl
  rw [hreport, ← hshown]
  exact held_workEnded ..

/-- Before the report, the log, the frame and PTP time are as they were. -/
theorem log_before_faultReported {s : State} {c : Nat} (h : (s.ctx c).ckpt.run = none) (cause : Nat) :
    ((s.faultShown c cause).workEnded c).flt = s.flt ∧ ((s.faultShown c cause).workEnded c).frame = s.frame ∧
      ((s.faultShown c cause).workEnded c).ports = s.ports := by
  obtain ⟨hflt, hframe, hports⟩ := log_workEnded (s := s.faultShown c cause) (c := c) (by rwa [ctx_faultShown])
  have hkeeps := keeps_faultShown s c cause
  exact ⟨hflt.trans (hkeeps.same .flt rfl), hframe.trans (hkeeps.same .frame rfl), hports.trans (hkeeps.same .ports rfl)⟩

theorem loggedAt_enterFaulted {s : State} {c cause : Nat} (h : (s.ctx c).ckpt.run = none) (hcause : cause ≠ 1) :
    ∃ d1, LoggedAt 0x0403 6 c cause d1 s (s.enterFaulted c cause) := by
  obtain ⟨hflt, hframe, hports⟩ := log_before_faultReported h cause
  obtain ⟨d1, hlogged⟩ := loggedAt_faultReported ((s.faultShown c cause).workEnded c) c hcause
  exact ⟨d1, hlogged.congr_left hflt hframe hports⟩

theorem loggedAt_enterFaulted_bounds {s : State} {c : Nat} (h : (s.ctx c).ckpt.run = none) :
    ∃ u d1 d2, u.frame = s.frame ∧ LoggedAt 0x0403 6 c 1 d1 s u ∧ LoggedAt 0x0503 6 c 1 d2 u (s.enterFaulted c 1) := by
  obtain ⟨hflt, hframe, hports⟩ := log_before_faultReported h 1
  obtain ⟨u, d1, d2, hu, hfault, hbounds⟩ := loggedAt_faultReported_bounds ((s.faultShown c 1).workEnded c) c
  exact ⟨u, d1, d2, hu.trans hframe, hfault.congr_left hflt hframe hports, hbounds⟩

theorem contextFault_faults {s : State} {c k : Nat} (hc : c < 1024) (hdue : (s.ctx c).faultDue = some k)
    (hlive : s.ctxLive c = 2 ∨ s.ctxLive c = 3 ∨ s.ctxLive c = 4 ∨ (s.ctxLive c = 1 ∧ k = 5)) :
    Completes (.contextFault c) s (fun t => t.ctxLive c = 6 ∧ t.get F.CTX_FAULT_CAUSE c = k % F.CTX_FAULT_CAUSE.size ∧
      (t.ctx c).step = none ∧ (t.ctx c).loading = none ∧ (t.ctx c).faultDue = none ∧
      ((s.ctx c).ckpt.run = none → k ≠ 1 → ∃ d1, LoggedAt 0x0403 6 c k d1 s t) ∧
      ((s.ctx c).ckpt.run = none → k = 1 → ∃ u d1 d2, u.frame = s.frame ∧ LoggedAt 0x0403 6 c 1 d1 s u ∧ LoggedAt 0x0503 6 c 1 d2 u t)) := by
  obtain ⟨hstate, hcause⟩ := enterFaulted_shows s hc k
  obtain ⟨hstep, hnone⟩ := enterFaulted_ends s c k
  refine ⟨(s.enterFaulted c k).updCtx c (fun x => { x with loading := none }), ?_, hstate, hcause, ?_, ?_, ?_,
    fun hrun hk => loggedAt_enterFaulted hrun hk, fun hrun hk => ?_⟩
  · show execContextFault c s = _
    unfold execContextFault
    rw [hdue]
    exact congrArg Host.Outcome.next (if_pos hlive)
  · rwa [ctx_updCtx_same]
  · rw [ctx_updCtx_same]
  · rwa [ctx_updCtx_same]
  · subst hk
    exact loggedAt_enterFaulted_bounds hrun

/-! Restores (R384, R456). -/

section
variable {s : State} {c : Nat} (k : Nat)

theorem restoreCommand_of_faulted (h : s.ctxState c = 6) : s.restoreCommand c k = s.startRestore c k := if_pos h

theorem restoreCommand_of_serving (h : s.ctxState c = 2 ∨ s.ctxState c = 3 ∨ s.ctxState c = 4) :
    s.restoreCommand c k = ((s.abandonCkpt c 3).enterFaulted c 7).updCtx c (fun x => { x with restoreCmd := some k }) :=
  (if_neg (by omega)).trans (if_pos h)

theorem restoreCommand_otherwise (hfaulted : s.ctxState c ≠ 6) (hserving : ¬(s.ctxState c = 2 ∨ s.ctxState c = 3 ∨ s.ctxState c = 4)) :
    s.restoreCommand c k = s.raise F.CTX_EVT_CMD_IGNORED c := (if_neg hfaulted).trans (if_neg hserving)
end

theorem restoreCommand_loads {s : State} {c : Nat} (hc : c < 1024) (k : Nat) (h : s.ctxState c = 6) :
    (s.restoreCommand c k).ctxLive c = 1 ∧ Advanced F.CTX_STATE_GEN c 1 s (s.restoreCommand c k) ∧
      ((s.restoreCommand c k).ctx c).loading = some ⟨none, true, k, 1, s.frame, none, [], [], false, none⟩ := by
  rw [restoreCommand_of_faulted k h]
  refine ⟨ctxLive_enterLoading s hc false, advanced_gen_enterLoading s hc false, ?_⟩
  rw [State.startRestore, ctx_updCtx_same]

/-- A serving or PARKED context is FAULTED first, and its restore waits for the tick (R456). -/
theorem restoreCommand_faults {s : State} {c : Nat} (hc : c < 1024) (k : Nat) (h : s.ctxState c = 2 ∨ s.ctxState c = 3 ∨ s.ctxState c = 4) :
    (s.restoreCommand c k).ctxLive c = 6 ∧ (s.restoreCommand c k).get F.CTX_FAULT_CAUSE c = 7 ∧
      ((s.restoreCommand c k).ctx c).restoreCmd = some k := by
  obtain ⟨hlive, hcause⟩ := enterFaulted_shows (s.abandonCkpt c 3) hc 7
  rw [restoreCommand_of_serving k h]
  exact ⟨hlive, hcause, by rw [ctx_updCtx_same]⟩

theorem held_restoreCommand (s : State) (c k : Nat) :
    (s.restoreCommand c k).fr.q2 = s.fr.q2 ∧ (s.restoreCommand c k).fr.held = s.fr.held := by
  by_cases hfaulted : s.ctxState c = 6
  · have hfr : (s.startRestore c k).fr = s.fr := (keeps_startRestore (Keeps.refl 0x3006000 s) rfl).same .fr rfl
    rw [restoreCommand_of_faulted k hfaulted, hfr]
    exact ⟨rfl, rfl⟩
  · by_cases hserving : s.ctxState c = 2 ∨ s.ctxState c = 3 ∨ s.ctxState c = 4
    · rw [restoreCommand_of_serving k hserving, ← fr_abandonCkpt s c 3]
      exact held_enterFaulted ..
    · rw [restoreCommand_otherwise k hfaulted hserving, State.raise_fr]
      exact ⟨rfl, rfl⟩

/-- RESTORE_LATEST and RESTORE_PREVIOUS differ in their source. -/
theorem restore_restores {s : State} {r : Req} {c k : Nat} (hr : TakenOne s r false) (hc : c < 1024) {i : Instr}
    (hexec : exec i s = .next (s.commandWrite r false (fun u => u.restoreCommand c k))) :
    Completes i s (fun t =>
      (s.ctxState c = 6 → t.ctxLive c = 1 ∧ Advanced F.CTX_STATE_GEN c 1 s t ∧
        (t.ctx c).loading = some ⟨none, true, k, 1, s.frame, none, [], [], false, none⟩) ∧
      (s.ctxState c = 2 ∨ s.ctxState c = 3 ∨ s.ctxState c = 4 → t.ctxLive c = 6 ∧ t.get F.CTX_FAULT_CAUSE c = 7 ∧
        (t.ctx c).restoreCmd = some k) ∧ Acknowledged r s t) :=
  completes_of_commandWrite hr hexec fun P =>
    have ⟨hq2, hheld⟩ := held_restoreCommand (s.acknowledging r P) c k
    ⟨restoreCommand_loads (s := s.acknowledging r P) hc k, restoreCommand_faults (s := s.acknowledging r P) hc k, .of_held hq2 hheld⟩

end Sys2Proof.Machine
end

section
/-! The end of a context: its fence, its release and its zeroed memory; and the end of a park (R384, R386, R388, R520). -/
namespace Sys2Proof.Machine

/-! The fence (R388). -/

theorem teardownFence_fences {s : State} {c n : Nat} (hc : c < 1024) (hfence : (s.ctx c).fence = some n) (hfenced : (s.ctx c).fenced = false)
    (hdraining : s.ctxState c = 5) (hn : n ≤ s.frame + 1) (halive : s.fr.killed = none) (hplan : s.lastPlan c ≤ 1) :
    Completes (.teardownFence c) s (fun t => Advanced F.CTX_STATE_GEN c 1 s t ∧ (t.ctx c).fenced = true ∧
      (t.ctx c).fence = some (s.frame + 1)) := by
  refine ⟨(s.bump F.CTX_STATE_GEN c 1).updCtx c (fun x => { x with fenced := true, fence := some (s.frame + 1) }), ?_,
    advanced_bump (f := F.CTX_STATE_GEN) rfl hc 1 s, ?_, ?_⟩
  · show execTeardownFence c s = _
    unfold execTeardownFence
    rw [hfence]
    exact congrArg Host.Outcome.next (if_pos ⟨hdraining, hfenced, hn, halive, hplan⟩)
  · rw [ctx_updCtx_same]
  · rw [ctx_updCtx_same]

/-! The release (R388). -/

/-- What a released context is: FREE, without a template, its memory to be zeroed, and none of its batts owned. -/
def Freed (c : Nat) (s t : State) : Prop :=
  t.ctxLive c = 0 ∧ (t.ctx c).template = none ∧ (t.ctx c).zeroing = true ∧ ∀ b ∈ s.placement c, (t.batt b).owner = none

/-- The batts of the context's placement lose their load owner. -/
def State.disowned (s : State) (c : Nat) : State :=
  (s.placement c).foldl (fun s b => s.updBatt b (fun x => { x with owner := none })) s

/-- The guards of the context leave every core. -/
def State.unguarded (s : State) (c : Nat) : State :=
  { s with cores := tmap Core.empty (fun _ x => { x with guards := x.guards.filter (fun g => decide (g.ctx ≠ c)) }) s.cores }

/-- What stays of a context: its share of service, what it counts from, and the numbers of its generations and exports. -/
def Ctx.emptied (x : Ctx) : Ctx :=
  { Ctx.empty with vtime := x.vtime, base := x.base, zeroing := true, ckpt := { CkptSt.empty with
    lastGen := x.ckpt.lastGen, nextExportId := x.ckpt.nextExportId, exports := x.ckpt.exports } }

theorem releaseCtx_eq (s : State) (c : Nat) :
    s.releaseCtx c = (((s.disowned c).unguarded c).enter c 0).updCtx c Ctx.emptied := rfl

theorem owner_foldl_disown {l : List Nat} {s : State} {k : Nat} (h : k ∈ l ∨ (s.batt k).owner = none) :
    ((l.foldl (fun s b => s.updBatt b (fun x => { x with owner := none })) s).batt k).owner = none := by
  induction l generalizing s with
  | nil => exact h.resolve_left List.not_mem_nil
  | cons b r ih =>
    refine ih ?_
    rw [batt_updBatt]
    by_cases hk : k = b
    · rw [if_pos hk]
      exact .inr rfl
    · rw [if_neg hk]
      exact h.imp_left fun hmem => (List.mem_cons.mp hmem).resolve_left hk

theorem releaseCtx_frees (s : State) {c : Nat} (hc : c < 1024) : Freed c s (s.releaseCtx c) := by
  rw [releaseCtx_eq]
  refine ⟨get_put_same _ rfl hc 0, ?_, ?_, fun b hb => ?_⟩
  · rw [ctx_updCtx_same]
    rfl
  · rw [ctx_updCtx_same]
    rfl
  · exact (congrArg Batt.owner (batt_put ..)).trans (owner_foldl_disown (.inl hb))

section
variable {s : State} {c : Nat} (hc : c < 1024) (hdraining : s.ctxLive c = 5) (hfenced : (s.ctx c).fenced = true)
include hc hdraining hfenced

theorem contextRelease_frees : Completes (.contextRelease c 0) s (Freed c s) :=
  ⟨_, congrArg Host.Outcome.next (if_pos ⟨hdraining, hfenced, rfl⟩), releaseCtx_frees s hc⟩

/-- At the fence + 2P the release happens regardless, and shows. -/
theorem drainTimeout_frees {n : Nat} (hfence : (s.ctx c).fence = some n) (hn : n + 2 ≤ s.frame + 1) :
    Completes (.drainTimeout c) s (fun t => Freed c s t ∧ t.get F.CTX_EVT_DRAIN_FORCED c = 1) := by
  obtain ⟨hfree, htemplate, hzeroing, howner⟩ := releaseCtx_frees s hc
  have hctx : ((s.releaseCtx c).raise F.CTX_EVT_DRAIN_FORCED c).ctx c = (s.releaseCtx c).ctx c := ctx_congr (State.raise_ctxs ..) c
  refine ⟨(s.releaseCtx c).raise F.CTX_EVT_DRAIN_FORCED c, ?_, ⟨?_, ?_, ?_, fun b hb => ?_⟩, ?_⟩
  · show execDrainTimeout c s = _
    unfold execDrainTimeout
    rw [hfence]
    exact congrArg Host.Outcome.next (if_pos ⟨hdraining, hfenced, hn⟩)
  · exact (get_raise_otherWord _ (by decide) c).trans hfree
  · rwa [hctx]
  · rwa [hctx]
  · rw [batt_congr (State.raise_batts ..), howner b hb]
  · exact (get_raise ..).trans (get_put_same _ rfl hc 1)
end

/-! The memory of a released context (R520). That the ranges are those of the template's regions is log entry 114. -/

/-- Where a region begins in memory; a scratchpad is the one of the physical core that serves. -/
def State.regionStart (s : State) (g : Region) : Option Nat :=
  if g.kind = 4 then (s.physOf g.core).map (fun p => spAddr p g.base) else some g.base

/-- The region grants its context the byte. -/
def State.grants (s : State) (g : Region) (b : Nat) : Prop := ∃ a, s.regionStart g = some a ∧ a ≤ b ∧ b < a + (g.limit - g.base)

theorem zeroRegion_eq (s : State) (g : Region) :
    s.zeroRegion g = match s.regionStart g with | some a => s.zeroBytes a (g.limit - g.base) | none => s := by
  unfold State.zeroRegion State.regionStart
  split
  · cases s.physOf g.core <;> rfl
  · rfl

theorem regionStart_zeroRegion (s : State) (g e : Region) : (s.zeroRegion g).regionStart e = s.regionStart e := by
  rw [zeroRegion_eq]
  split <;> rfl

theorem byte_zeroRegion (s : State) (g : Region) (b : Nat) :
    (s.grants g b → (s.zeroRegion g).byte b = 0) ∧ (¬s.grants g b → (s.zeroRegion g).byte b = s.byte b) := by
  rw [zeroRegion_eq]
  cases hat : s.regionStart g with
  | none => exact ⟨fun ⟨a, ha, _⟩ => absurd (hat.symm.trans ha) nofun, fun _ => rfl⟩
  | some a =>
    have hgrants : s.grants g b ↔ a ≤ b ∧ b < a + (g.limit - g.base) := by simp [State.grants, hat]
    rw [hgrants, byte_zeroBytes]
    exact ⟨fun h => if_pos h, fun h => if_neg h⟩

/-- Regions zeroed one after another: what one of them grants is zero, and every other byte is as before. -/
theorem byte_zeroRegions (l : List Region) (s : State) (b : Nat) :
    ((∃ g ∈ l, s.grants g b) → (l.foldl State.zeroRegion s).byte b = 0) ∧
      (¬(∃ g ∈ l, s.grants g b) → (l.foldl State.zeroRegion s).byte b = s.byte b) := by
  induction l generalizing s with
  | nil => exact ⟨fun ⟨_, hg, _⟩ => absurd hg List.not_mem_nil, fun _ => rfl⟩
  | cons g r ih =>
    have hrest : (∃ e ∈ r, (s.zeroRegion g).grants e b) ↔ ∃ e ∈ r, s.grants e b := by simp only [State.grants, regionStart_zeroRegion]
    obtain ⟨hin, hout⟩ := ih (s.zeroRegion g)
    obtain ⟨hzero, hkept⟩ := byte_zeroRegion s g b
    rw [hrest] at hin hout
    rw [List.foldl_cons]
    by_cases hr : ∃ e ∈ r, s.grants e b
    · exact ⟨fun _ => hin hr, fun hnone => absurd (hr.imp fun _ he => ⟨.tail _ he.1, he.2⟩) hnone⟩
    · rw [hout hr, List.exists_mem_cons_iff, or_iff_left hr]
      exact ⟨hzero, hkept⟩

theorem releasedMemoryZeroed_zeroes {s : State} {c : Nat} {t : Template} (htemplate : s.template c = some t)
    (hzeroing : (s.ctx c).zeroing = true) :
    Completes (.releasedMemoryZeroed c) s (fun u => (u.ctx c).zeroing = false ∧
      ∀ b, ((∃ g ∈ t.regions, s.grants g b) → u.byte b = 0) ∧ (¬(∃ g ∈ t.regions, s.grants g b) → u.byte b = s.byte b)) := by
  refine ⟨(t.regions.foldl State.zeroRegion s).updCtx c (fun x => { x with zeroing := false }), ?_, ?_,
    fun b => byte_zeroRegions t.regions s b⟩
  · show execReleasedMemoryZeroed c s = _
    unfold execReleasedMemoryZeroed
    rw [if_pos hzeroing, htemplate]
  · rw [ctx_updCtx_same]

/-! The end of a park (R384, R386). -/

theorem enterReady_readies (s : State) {c : Nat} (hc : c < 1024) :
    (s.enterReady c).ctxLive c = 2 ∧ (s.enterReady c).get F.CTX_STATE_UNPARK_PENDING c = 0 ∧
      (s.enterReady c).get F.CTX_STATE_MODULE_HELD c = 0 ∧ ((s.enterReady c).ctx c).vtime = s.minVtime := by
  refine ⟨?_, (get_put_apart _ rfl rfl rfl ..).trans (get_put_same _ rfl hc 0), get_put_same _ rfl hc 0, congrArg Ctx.vtime (ctx_updCtx_same ..)⟩
  exact (get_put_apart _ rfl rfl rfl ..).trans ((get_put_apart _ rfl rfl rfl ..).trans (get_put_same s rfl hc 2))

theorem unparkComplete_readies {s : State} {c : Nat} (hc : c < 1024) (hparked : s.ctxLive c = 4) (hblocked : s.unblocked c = [])
    (hends : s.seen F.CTX_STATE_UNPARK_PENDING c = 1 ∨ s.seen F.CTX_STATE_MODULE_HELD c = 1) :
    Completes (.unparkComplete c) s (fun t => t.ctxLive c = 2 ∧ t.get F.CTX_STATE_UNPARK_PENDING c = 0 ∧
      t.get F.CTX_STATE_MODULE_HELD c = 0 ∧ (t.ctx c).vtime = s.minVtime) :=
  ⟨_, congrArg Host.Outcome.next (if_pos ⟨hparked, hblocked, hends⟩), enterReady_readies s hc⟩

/-- Settles O43: each command by the theorem about it. -/
theorem contextCommands : Obligations.ContextCommands := by
  unfold Obligations.ContextCommands
  intro s c hc
  refine ⟨fun r hr => ⟨park_parks hr hc, unpark_waits hr hc, teardown_drains hr hc, park_ignored hr hc, pauseWrite_pauses hr hc, ?_⟩,
    fun n => teardownFence_fences hc, fun hdraining hfenced => ?_, fun tm htemplate hzeroing => ?_, unparkComplete_readies hc,
    fun k => contextFault_faults hc⟩
  case refine_1 =>
    exact ⟨restore_restores hr hc rfl, restore_restores hr hc rfl⟩
  case refine_2 =>
    exact ⟨contextRelease_frees hc hdraining hfenced, fun n => drainTimeout_frees hc hdraining hfenced⟩
  case refine_3 =>
    exact releasedMemoryZeroed_zeroes htemplate hzeroing

end Sys2Proof.Machine
end

section
/-! What the operations of the exchange leave of a context (R48, R131, R280, R289, R298). -/
namespace Sys2Proof.Machine

theorem ctx_updExch (s : State) (c : Nat) (f : ExchSt → ExchSt) : (s.updExch c f).ctx c = { s.ctx c with exch := f (s.ctx c).exch } :=
  ctx_updCtx_same ..

theorem ctx_updRun (s : State) (c : Nat) (f : StepRun → StepRun) : (s.updRun c f).ctx c = { s.ctx c with step := (s.ctx c).step.map f } :=
  ctx_updCtx_same ..

theorem exch_updExch (s : State) (c : Nat) (f : ExchSt → ExchSt) : ((s.updExch c f).ctx c).exch = f (s.ctx c).exch := by
  rw [ctx_updExch]

theorem exch_updRun (s : State) (c : Nat) (f : StepRun → StepRun) : ((s.updRun c f).ctx c).exch = (s.ctx c).exch := by
  rw [ctx_updRun]

theorem step_updExch (s : State) (c : Nat) (f : ExchSt → ExchSt) : ((s.updExch c f).ctx c).step = (s.ctx c).step := by
  rw [ctx_updExch]

theorem ctx_bump (s : State) (f : Fld) (i n c : Nat) : (s.bump f i n).ctx c = s.ctx c := ctx_congr (State.bump_ctxs ..) c

theorem ctx_raise (s : State) (f : Fld) (i c : Nat) : (s.raise f i).ctx c = s.ctx c := ctx_congr (State.raise_ctxs ..) c

theorem ctx_toMembers (s : State) (d kind : Nat) (l : List Nat) (c : Nat) : (s.toMembers d kind l).ctx c = s.ctx c :=
  ctx_congr ((keeps_toMembers (Keeps.refl 0x800000 s) rfl).same .ctxs rfl) c

theorem ctx_sendRec (s : State) (d type arg frame nonFinite c : Nat) : (s.sendRec d type arg frame nonFinite).ctx c = s.ctx c :=
  ctx_congr ((keeps_sendRec (Keeps.refl 0x800000 s) rfl).same .ctxs rfl) c

theorem regs_toMembers (s : State) (d kind : Nat) (l : List Nat) : (s.toMembers d kind l).regs = s.regs := by
  unfold State.toMembers
  split <;> rfl

theorem regs_sendRec (s : State) (d type arg frame nonFinite : Nat) : (s.sendRec d type arg frame nonFinite).regs = s.regs := by
  unfold State.sendRec
  split
  · rfl
  · exact regs_toMembers ..

/-- The votes change the step of a context and nothing else of it. -/
theorem exists_ctx_countVotes (s : State) (c : Nat) (t : Template) : ∃ r, (s.countVotes c t).ctx c = { s.ctx c with step := r } := by
  unfold State.countVotes
  extract_lets v
  split
  · split
    · exact ⟨_, (ctx_holdStep ..).trans (by rw [ctx_raise])⟩
    · exact ⟨_, ctx_updRun ..⟩
  · exact ⟨(s.ctx c).step, rfl⟩

theorem exch_combine (s : State) (c : Nat) (t : Template) : ((s.combine c t).ctx c).exch = (s.ctx c).exch := by
  unfold State.combine
  extract_lets l
  split
  · rfl
  · split
    · exact exch_updRun ..
    · rfl

/-- A command completes with what holds of the state that it answers. -/
theorem completes_of_exec {i : Instr} {s t : State} {P : State → Prop} (hexec : exec i s = .next t) (hP : P t) : Completes i s P :=
  ⟨t, hexec, hP⟩

theorem heard_open {s : State} {h : FlitHead} (hopen : s.vcOpen h.vc = true) (t : State) : s.heard h t = t := if_pos hopen

theorem heard_closed {s : State} {h : FlitHead} (hclosed : s.vcOpen h.vc = false) (t : State) : s.heard h t = s :=
  if_neg (Bool.eq_false_iff.mp hclosed)

end Sys2Proof.Machine
end

section
/-! Records of the exchange as they are taken in (R76, R280 to R282, R287, R289, R298, R301). -/
namespace Sys2Proof.Machine

theorem mem_resumes_resumeFrom (s : State) (c sender f : Nat) : sender ∈ ((s.resumeFrom c sender f).ctx c).exch.resumes := by
  unfold State.resumeFrom
  extract_lets u e
  have hu : sender ∈ (u.ctx c).exch.resumes := by
    unfold u
    rw [exch_updExch]
    dsimp only
    split
    · next hknown => exact List.contains_iff_mem.mp hknown
    · exact List.mem_append_right _ (.head _)
  split
  · rwa [exch_updExch]
  · exact hu

theorem decideRestore_of_none {s : State} {c : Nat} (h : (s.ctx c).loading = none) : s.decideRestore c = s := by
  unfold State.decideRestore
  rw [h]
  split
  · next heq => cases heq
  · rfl

section
variable {s : State} {c : Nat} {t : Template} {o : StepRec} (htemplate : s.template c = some t) (hctx : o.head.ctx = c)
  (hopen : s.vcOpen o.head.vc = true)
include htemplate hctx hopen

theorem withRec_current (hcurrent : s.current c (o.step % 2 ^ 48) o.attempt = true) (body : State → Template → State) :
    s.withRec o body = body s t := by
  subst hctx
  unfold State.withRec
  rw [htemplate]
  exact (heard_open hopen _).trans (if_pos hcurrent)

theorem withRec_stale (hstale : s.current c (o.step % 2 ^ 48) o.attempt = false) (body : State → Template → State) :
    s.withRec o body = s.staleRec c := by
  subst hctx
  unfold State.withRec
  rw [htemplate]
  exact (heard_open hopen _).trans (if_neg (Bool.eq_false_iff.mp hstale))

theorem scalar_noted (hcurrent : s.current c (o.step % 2 ^ 48) o.attempt = true) :
    Completes (.scalar o) s (fun u => (u.ctx c).exch.scalars = (s.ctx c).exch.scalars ++
      [⟨o.sender, BitVec.ofNat 32 o.frame, BitVec.ofNat 32 (o.frame / 2 ^ 32), o.nonFinite⟩]) := by
  refine ⟨_, congrArg Host.Outcome.next (withRec_current htemplate hctx hopen hcurrent _), ?_⟩
  subst hctx
  rw [exch_combine, exch_updExch]

theorem scalar_stale (hc : c < 1024) (hstale : s.current c (o.step % 2 ^ 48) o.attempt = false) :
    Completes (.scalar o) s (fun u => Advanced F.EXCH_STALE_STALE c 1 s u ∧ u.ctxs = s.ctxs) :=
  ⟨_, congrArg Host.Outcome.next (withRec_stale htemplate hctx hopen hstale _), advanced_bump rfl hc 1 s, State.bump_ctxs ..⟩

theorem resume_noted (hcurrent : s.current c (o.step % 2 ^ 48) o.attempt = true) :
    Completes (.resume o) s (fun u => o.sender ∈ (u.ctx c).exch.resumes) := by
  refine ⟨_, congrArg Host.Outcome.next (withRec_current htemplate hctx hopen hcurrent _), ?_⟩
  subst hctx
  exact mem_resumes_resumeFrom ..

theorem vote_noted (hcurrent : s.current c (o.step % 2 ^ 48) o.attempt = true) (hloading : (s.ctx c).loading = none) :
    Completes (.vote o) s (fun u => (u.ctx c).exch.votes = (s.ctx c).exch.votes ++ [(o.sender, o.arg)]) := by
  have htake : s.takeVote o = (s.updExch c (fun e => { e with votes := e.votes ++ [(o.sender, o.arg)] })).countVotes c t := by
    unfold State.takeVote
    rw [hctx, hloading]
    exact withRec_current htemplate hctx hopen hcurrent _
  obtain ⟨r, hr⟩ := exists_ctx_countVotes (s.updExch c (fun e => { e with votes := e.votes ++ [(o.sender, o.arg)] })) c t
  rw [← htake] at hr
  refine completes_of_exec (t := s.takeVote o) ?_ ?_
  · show Host.Outcome.next (s.heard o.head ((s.takeVote o).decideRestore o.head.ctx)) = _
    rw [heard_open hopen, hctx, decideRestore_of_none]
    rw [hr, ctx_updExch]
    exact hloading
  · rw [hr, ctx_updExch]
end

end Sys2Proof.Machine
end

section
/-! READY, STATE and ABANDON, and the attempt after one (R76, R282, R298, R301). -/
namespace Sys2Proof.Machine

/-- A module that does not hold the tick takes no record (R76). -/
theorem unaligned_takes_none {s : State} {o : StepRec} (hclosed : s.vcOpen o.head.vc = false) {i : Instr}
    (hi : i ∈ [Instr.stepReady o, .scalar o, .resume o, .vote o, .stateRecord o, .abandon o]) : Completes i s (fun t => t = s) := by
  have hwith : ∀ body, s.withRec o body = s := fun body => by
    unfold State.withRec
    split
    · rfl
    · exact heard_closed hclosed _
  simp only [List.mem_cons, List.not_mem_nil, or_false] at hi
  rcases hi with rfl | rfl | rfl | rfl | rfl | rfl
  case inr.inl | inr.inr.inl => exact ⟨s, congrArg Host.Outcome.next (hwith _), rfl⟩
  all_goals exact ⟨s, congrArg Host.Outcome.next (heard_closed hclosed _), rfl⟩

section
variable {s : State} {c : Nat} {o : StepRec} (hctx : o.head.ctx = c) (hopen : s.vcOpen o.head.vc = true)
include hctx hopen

theorem stepReady_starts (hnone : (s.ctx c).step = none) (hstep : o.step = s.stepNo c % 2 ^ 48) (hfirst : o.attempt = 0) :
    Completes (.stepReady o) s (fun u =>
      (u.ctx c).exch.startAt = some (match (s.ctx c).exch.startAt with | some n => min n (o.frame + 2) | none => o.frame + 2)) := by
  subst hctx
  refine completes_of_exec (t := s.readyAt o.head.ctx o.frame) ?_ ?_
  · refine congrArg Host.Outcome.next ((heard_open hopen _).trans (if_neg ?_))
    simp [hnone, hstep, hfirst]
  · unfold State.readyAt
    rw [exch_updExch]
    cases (s.ctx o.head.ctx).exch.startAt <;> rfl

theorem stateRecord_noted {r : StepRun} (hrun : (s.ctx c).step = some r) (hstep : r.step % 2 ^ 48 = o.step) :
    Completes (.stateRecord o) s (fun u => (u.ctx c).exch.states = (s.ctx c).exch.states ++ [(o.sender, decide (o.arg = 1))]) := by
  subst hctx
  refine completes_of_exec (t := s.updExch o.head.ctx (fun e => { e with states := e.states ++ [(o.sender, decide (o.arg = 1))] })) ?_ ?_
  · refine congrArg Host.Outcome.next ((heard_open hopen _).trans ?_)
    unfold State.takeState
    dsimp only
    rw [hrun]
    exact if_pos hstep
  · rw [exch_updExch]

theorem execAbandon_live {r : StepRun} (hrun : (s.ctx c).step = some r) (hstep : r.step % 2 ^ 48 = o.step)
    (hattempt : (s.ctx c).exch.attempt = o.attempt) : exec (.abandon o) s = .next (s.applyAbandon c o.frame) := by
  subst hctx
  refine congrArg Host.Outcome.next ((heard_open hopen _).trans ?_)
  unfold State.takeAbandon
  dsimp only
  rw [hrun]
  exact if_pos ⟨decide_eq_true hstep, hattempt⟩
end

section
variable {s : State} {c : Nat} (f : Nat)

theorem applyAbandon_again {n : Nat} (hn : (s.ctx c).exch.rerunAt = some n) :
    s.applyAbandon c f = s.updExch c (fun e => { e with rerunAt := some (min n (f + 2)) }) := by
  unfold State.applyAbandon
  dsimp only
  rw [hn]

/-- An attempt that may be repeated is abandoned: counted, shown and to be re-run (R298). -/
theorem applyAbandon_reruns (hnone : (s.ctx c).exch.rerunAt = none) (hmore : (s.ctx c).exch.attempt < s.seen F.EXCH_STEP_RETRIES c) :
    s.applyAbandon c f =
      ((s.bump F.EXCH_CHK_ABANDONED c 1).raise F.EXCH_EVT_ABANDONED c).updExch c (fun e => { e with rerunAt := some (f + 2) }) := by
  have hseen : ((s.bump F.EXCH_CHK_ABANDONED c 1).raise F.EXCH_EVT_ABANDONED c).seen F.EXCH_STEP_RETRIES c =
      s.seen F.EXCH_STEP_RETRIES c := seen_congr ((State.raise_vis ..).trans (State.bump_vis ..)) ..
  unfold State.applyAbandon
  dsimp only
  rw [hnone]
  exact if_neg (by rw [hseen]; omega)

/-- The last attempt faults the context (R298). -/
theorem applyAbandon_faults (hnone : (s.ctx c).exch.rerunAt = none) (hlast : s.seen F.EXCH_STEP_RETRIES c ≤ (s.ctx c).exch.attempt) :
    s.applyAbandon c f =
      (((s.bump F.EXCH_CHK_ABANDONED c 1).raise F.EXCH_EVT_ABANDONED c).faultCtx c 2).eventAtOpen 0x0507 6 c := by
  have hseen : ((s.bump F.EXCH_CHK_ABANDONED c 1).raise F.EXCH_EVT_ABANDONED c).seen F.EXCH_STEP_RETRIES c =
      s.seen F.EXCH_STEP_RETRIES c := seen_congr ((State.raise_vis ..).trans (State.bump_vis ..)) ..
  unfold State.applyAbandon
  dsimp only
  rw [hnone]
  exact if_pos (by rw [hseen]; exact hlast)

theorem advanced_abandoned_applyAbandon (hc : c < 1024) (hnone : (s.ctx c).exch.rerunAt = none) :
    Advanced F.EXCH_CHK_ABANDONED c 1 s (s.applyAbandon c f) := by
  have hcounted : Advanced F.EXCH_CHK_ABANDONED c 1 s ((s.bump F.EXCH_CHK_ABANDONED c 1).raise F.EXCH_EVT_ABANDONED c) :=
    (advanced_bump rfl hc 1 s).of_get_eq (get_raise_otherWord _ (by decide) c)
  by_cases hmore : (s.ctx c).exch.attempt < s.seen F.EXCH_STEP_RETRIES c
  · rw [applyAbandon_reruns f hnone hmore]
    exact hcounted
  · rw [applyAbandon_faults f hnone (Nat.le_of_not_lt hmore)]
    exact hcounted.of_get_eq (get_eventAtOpen (ctxWord_notMem_eventWords (by decide) c) ..)

theorem faultDue_faultCtx (s : State) (c cause : Nat) (h : (s.ctx c).faultDue = none) : ((s.faultCtx c cause).ctx c).faultDue = some cause := by
  unfold State.faultCtx
  rw [ctx_updCtx_same, h]

theorem applyAbandon_leaves (hc : c < 1024) :
    (∀ n, (s.ctx c).exch.rerunAt = some n → ((s.applyAbandon c f).ctx c).exch.rerunAt = some (min n (f + 2))) ∧
    ((s.ctx c).exch.rerunAt = none → Advanced F.EXCH_CHK_ABANDONED c 1 s (s.applyAbandon c f) ∧
      ((s.ctx c).exch.attempt < s.seen F.EXCH_STEP_RETRIES c → ((s.applyAbandon c f).ctx c).exch.rerunAt = some (f + 2)) ∧
      (s.seen F.EXCH_STEP_RETRIES c ≤ (s.ctx c).exch.attempt → (s.ctx c).faultDue = none → ((s.applyAbandon c f).ctx c).faultDue = some 2)) := by
  refine ⟨fun n hn => ?_, fun hnone => ⟨advanced_abandoned_applyAbandon f hc hnone, fun hmore => ?_, fun hlast hfree => ?_⟩⟩
  · rw [applyAbandon_again f hn, exch_updExch]
  · rw [applyAbandon_reruns f hnone hmore, exch_updExch]
  · rw [applyAbandon_faults f hnone hlast, ctx_eventAtOpen, faultDue_faultCtx]
    rwa [ctx_raise, ctx_bump]
end

/-! The next attempt (R298, R301). -/

theorem rerun_leaves (s : State) {c : Nat} (hc : c < 1024) :
    ((s.rerun c).ctx c).exch.attempt = (s.ctx c).exch.attempt + 1 ∧ ((s.rerun c).ctx c).exch.rerunAt = none ∧
    ((s.rerun c).ctx c).exch.stopped = false ∧ ((s.rerun c).ctx c).exch.stateAt = none ∧ ((s.rerun c).ctx c).exch.scalars = [] ∧
    (s.rerun c).get F.EXCH_STEP_ATTEMPT c = ((s.ctx c).exch.attempt + 1) % F.EXCH_STEP_ATTEMPT.size ∧
    ∀ r, (s.ctx c).step = some r → ∃ q, ((s.rerun c).ctx c).step = some q ∧ q.stage = 0 ∧ q.updated = [] := by
  unfold State.rerun
  extract_lets u
  have hexch : ∀ v f, (((u.put F.EXCH_STEP_ATTEMPT c v).updRun c f).ctx c).exch = (u.ctx c).exch := fun v f => by rw [exch_updRun, ctx_put]
  have hattempt : (u.ctx c).exch.attempt = (s.ctx c).exch.attempt + 1 := by
    unfold u
    rw [exch_updExch]
  rw [hexch]
  refine ⟨hattempt, ?_, ?_, ?_, ?_, ?_, fun r hrun => ?_⟩
  case refine_5 =>
    rw [← hattempt]
    exact get_put_same _ rfl hc _
  case refine_6 =>
    have hu : (u.ctx c).step = some r := (step_updExch ..).trans hrun
    rw [ctx_updRun, ctx_put, hu]
    exact ⟨_, rfl, rfl, rfl⟩
  all_goals
    unfold u
    rw [exch_updExch]

theorem exchRerun_begins {s : State} {c n : Nat} (hdue : (s.ctx c).exch.rerunAt = some n) (hn : n ≤ s.frame + 1) :
    exec (.exchRerun c) s = .next (s.rerun c) := by
  show execExchRerun c s = _
  unfold execExchRerun
  rw [hdue]
  exact congrArg Host.Outcome.next (if_pos hn)

end Sys2Proof.Machine
end

section
/-! Lost members, and the survivors' decision (R300 to R302). -/
namespace Sys2Proof.Machine

theorem ctx_record (s : State) (dest vc kind : Nat) (l : List Nat) (c : Nat) : (s.record dest vc kind l).ctx c = s.ctx c :=
  ctx_congr ((keeps_record (Keeps.refl 0x400000100 s) rfl).same .ctxs rfl) c

/-- A member is reported once (R300). -/
theorem pending_reportLostIn {s : State} {c m : Nat} {t : Template} (htemplate : s.template c = some t) (hmember : m ∈ t.members)
    (hnew : ∀ e ∈ (s.ctx c).exch.lost ++ (s.ctx c).exch.pending, e.1 ≠ m) :
    ((s.reportLostIn c m).ctx c).exch.pending = (s.ctx c).exch.pending ++ [(m, s.frame + 2)] := by
  have hlost : (s.ctx c).exch.lost.any (fun l => decide (l.1 = m)) = false := by
    simpa using fun e he => hnew e (List.mem_append_left _ he)
  have hpending : (s.ctx c).exch.pending.any (fun l => decide (l.1 = m)) = false := by
    simpa using fun e he => hnew e (List.mem_append_right _ he)
  unfold State.reportLostIn
  rw [htemplate]
  dsimp only
  rw [if_pos ⟨List.contains_iff_mem.mpr hmember, hlost, hpending⟩, foldl_keeps_value (fun u => u.ctx c) _ _ fun u _ _ => ctx_record ..,
    ctx_updCtx_same]

theorem memberLate_reports {s : State} {c m due : Nat} {t : Template} (htemplate : s.template c = some t)
    (hrun : (s.ctx c).step.isSome = true) (hlate : due + s.seen F.EXCH_CFG_EXCH_WAIT 0 ≤ s.frame) (hmember : t.members.getD m 0 ∈ t.members)
    (hnew : ∀ e ∈ (s.ctx c).exch.lost ++ (s.ctx c).exch.pending, e.1 ≠ t.members.getD m 0) :
    Completes (.memberLate c m due) s (fun u =>
      (u.ctx c).exch.pending = (s.ctx c).exch.pending ++ [(t.members.getD m 0, s.frame + 2)]) := by
  refine ⟨s.reportLostIn c (t.members.getD m 0), ?_, pending_reportLostIn htemplate hmember hnew⟩
  show execMemberLate c m due s = _
  unfold execMemberLate
  rw [htemplate]
  exact congrArg Host.Outcome.next (if_pos ⟨hrun, hlate⟩)

theorem lossReport_noted {s : State} {h : FlitHead} {c m f : Nat} (hctx : h.ctx = c) (hnew : ∀ e ∈ (s.ctx c).exch.lost, e.1 ≠ m) :
    Completes (.lossReport h m f) s (fun u =>
      (u.ctx c).exch.pending = if (s.ctx c).exch.pending.any (fun e => decide (e.1 = m)) then
          (s.ctx c).exch.pending.map (fun e => if e.1 = m then (e.1, min e.2 f) else e)
        else (s.ctx c).exch.pending ++ [(m, f)]) := by
  subst hctx
  have hlost : ¬((s.ctx h.ctx).exch.lost.any (fun l => decide (l.1 = m)) = true) := fun hany => by
    obtain ⟨e, he, hm⟩ := List.any_eq_true.mp hany
    exact hnew e he (of_decide_eq_true hm)
  exact completes_of_exec (congrArg Host.Outcome.next (if_neg hlost)) (congrArg ExchSt.pending (exch_updExch ..))

/-! Removal (R300 to R302). -/

/-- What the removals of a tick leave as it was while they go on: the losses to come and own number, the members lost so far, and the state of
the context until it is FAULTED. -/
structure Removing (c : Nat) (u v : State) : Prop where
  pending : (v.ctx c).exch.pending = (u.ctx c).exch.pending
  lost : (u.ctx c).exch.lost ⊆ (v.ctx c).exch.lost
  own : v.ownId = u.ownId
  live : v.ctxLive c = u.ctxLive c ∨ v.ctxLive c = 6

theorem Removing.refl (c : Nat) (u : State) : Removing c u u := ⟨rfl, fun _ => id, rfl, .inl rfl⟩

theorem Removing.trans {c : Nat} {u v w : State} (h : Removing c u v) (k : Removing c v w) : Removing c u w where
  pending := k.pending.trans h.pending
  lost := fun _ he => k.lost (h.lost he)
  own := k.own.trans h.own
  live := k.live.elim (fun e => h.live.imp e.trans e.trans) .inr

theorem ownId_of_keeps {m : Nat} {s t : State} (h : Keeps m s t) (hb : m.testBit 8 = false) : t.ownId = s.ownId :=
  h.get (g := F.LNK_ID_MODULE_ID) rfl (by decide) hb

/-- The losses that an exchange knows of. -/
def ExchSt.losses (e : ExchSt) : List (Nat × Nat) × List (Nat × Nat) := (e.lost, e.pending)

theorem losses_abandonStep (s : State) (c : Nat) : ((s.abandonStep c).ctx c).exch.losses = (s.ctx c).exch.losses := by
  unfold State.abandonStep
  rw [ctx_updCtx_same]
  split <;> rfl

theorem losses_enterFaulted (s : State) (c cause : Nat) : ((s.enterFaulted c cause).ctx c).exch.losses = (s.ctx c).exch.losses := by
  rw [ctx_enterFaulted, ctx_workEnded]
  exact (losses_abandonStep ..).trans (by rw [ctx_faultShown])

theorem removing_enterFaulted (s : State) {c : Nat} (hc : c < 1024) (cause : Nat) : Removing c s (s.enterFaulted c cause) where
  pending := congrArg Prod.snd (losses_enterFaulted s c cause)
  lost := by
    have h : ((s.enterFaulted c cause).ctx c).exch.lost = (s.ctx c).exch.lost := congrArg Prod.fst (losses_enterFaulted s c cause)
    rw [h]
    exact List.Subset.refl _
  own := ownId_of_keeps (keeps_enterFaulted (Keeps.refl 0xC23842084 s) rfl) rfl
  live := .inr (enterFaulted_shows s hc cause).1

/-- A removed member is lost, and nothing else changes of the losses (R300). -/
theorem losses_removeMember (s : State) (c : Nat) (t : Template) (m e : Nat) :
    ((s.removeMember c t m e).ctx c).exch.losses = ((s.ctx c).exch.lost ++ [(m, e)], (s.ctx c).exch.pending) := by
  unfold State.removeMember
  extract_lets mine before u1 u2 u3 u4 u5 u6
  have h1 : (u1.ctx c).exch.losses = ((s.ctx c).exch.lost ++ [(m, e)], (s.ctx c).exch.pending) := by
    unfold u1
    rw [ctx_updCtx_same]
    rfl
  have h2 : (u2.ctx c).exch.losses = (u1.ctx c).exch.losses := by
    unfold u2
    split
    · rfl
    · rw [exch_updExch]
      rfl
  have h4 : u4.ctx c = u2.ctx c := by
    unfold u4
    split
    · rw [ctx_put, ctx_put]
      exact ctx_bump ..
    · exact ctx_bump ..
  have h6 : (u6.ctx c).exch.losses = ((s.ctx c).exch.lost ++ [(m, e)], (s.ctx c).exch.pending) := by
    unfold u6 u5
    rw [ctx_eventAtOpen, ctx_raise, ctx_put, h4, h2, h1]
  split
  · rw [exch_updExch, ctx_sendRec]
    exact h6
  · rw [ctx_toMembers]
    exact h6

theorem ctxLive_removeMember (s : State) (c : Nat) (t : Template) (m e : Nat) : (s.removeMember c t m e).ctxLive c = s.ctxLive c := by
  unfold State.removeMember
  extract_lets mine before u1 u2 u3 u4 u5 u6
  have h2 : u2.ctxLive c = s.ctxLive c := by
    unfold u2
    split <;> rfl
  have h3 : u3.ctxLive c = u2.ctxLive c := get_bump_otherWord u2 (by decide) c 1
  have h4 : u4.ctxLive c = u3.ctxLive c :=
    ite_keeps_value (fun u => u.ctxLive c) ((get_put_addr _ (addr_ne_addr (by decide) c) _).trans (get_put_addr u3 (addr_ne_addr (by decide) c) 1)) _
  have h6 : u6.ctxLive c = s.ctxLive c := by
    unfold u6 u5 State.ctxLive
    rw [get_eventAtOpen (ctxWord_notMem_eventWords (by decide) c), get_raise_otherWord _ (by decide), get_put_addr u4 (addr_ne_addr (by decide) c)]
    exact h4.trans (h3.trans h2)
  clear_value u6
  split
  · exact (get_congr (regs_sendRec u6 c 5 0 0 0) F.CTX_STATE_STATE c).trans h6
  · exact (get_congr (regs_toMembers ..) F.CTX_STATE_STATE c).trans h6

theorem removing_removeMember (s : State) (c : Nat) (t : Template) (m e : Nat) : Removing c s (s.removeMember c t m e) where
  pending := congrArg Prod.snd (losses_removeMember s c t m e)
  lost := by
    have h : ((s.removeMember c t m e).ctx c).exch.lost = _ := congrArg Prod.fst (losses_removeMember s c t m e)
    rw [h]
    exact List.subset_append_left ..
  own := ownId_of_keeps (keeps_removeMember (Keeps.refl 0xC23842084 s) rfl) rfl
  live := .inl (ctxLive_removeMember s c t m e)

/-- One removal of a tick: own number faults the copy that serves, another member is taken out. -/
def State.removeDue (c : Nat) (t : Template) (s : State) (e : Nat × Nat) : State :=
  if e.1 = s.ownId then (if 2 ≤ s.ctxLive c ∧ s.ctxLive c ≤ 4 then s.enterFaulted c 3 else s) else s.removeMember c t e.1 e.2

theorem removing_removeDue {c : Nat} (hc : c < 1024) (t : Template) (s : State) (e : Nat × Nat) : Removing c s (s.removeDue c t e) := by
  unfold State.removeDue
  split
  · split
    · exact removing_enterFaulted s hc 3
    · exact .refl ..
  · exact removing_removeMember ..

theorem mem_lost_removeDue {s : State} {e : Nat × Nat} (h : e.1 ≠ s.ownId) (c : Nat) (t : Template) :
    e ∈ ((s.removeDue c t e).ctx c).exch.lost := by
  have hlost : ((s.removeDue c t e).ctx c).exch.lost = (s.ctx c).exch.lost ++ [(e.1, e.2)] := by
    rw [State.removeDue, if_neg h]
    exact congrArg Prod.fst (losses_removeMember s c t e.1 e.2)
  rw [hlost]
  exact List.mem_append_right _ (.head _)

theorem ctxLive_removeDue {s : State} {e : Nat × Nat} {c : Nat} (hc : c < 1024) (h : e.1 = s.ownId)
    (hlive : (2 ≤ s.ctxLive c ∧ s.ctxLive c ≤ 4) ∨ s.ctxLive c = 6) (t : Template) : (s.removeDue c t e).ctxLive c = 6 := by
  rw [State.removeDue, if_pos h]
  split
  · exact (enterFaulted_shows s hc 3).1
  · next hnot => exact hlive.resolve_left hnot

/-- A fold whose steps each stand in a relation that composes passes through the step of every element. -/
theorem exists_foldl_step {α : Type} {R : State → State → Prop} (hrefl : ∀ u, R u u) (htrans : ∀ {u v w}, R u v → R v w → R u w)
    {f : State → α → State} {l : List α} (hstep : ∀ u, ∀ x ∈ l, R u (f u x)) {x : α} (hx : x ∈ l) (s : State) :
    ∃ v, R s v ∧ R (f v x) (l.foldl f s) := by
  have hall : ∀ (m : List α), (∀ u, ∀ y ∈ m, R u (f u y)) → ∀ u, R u (m.foldl f u) := by
    intro m
    induction m with
    | nil => exact fun _ u => hrefl u
    | cons y r ih => exact fun h u => htrans (h u y (.head _)) (ih (fun v z hz => h v z (.tail _ hz)) _)
  obtain ⟨a, b, rfl⟩ := List.append_of_mem hx
  rw [List.foldl_append, List.foldl_cons]
  exact ⟨a.foldl f s, hall a (fun u y hy => hstep u y (List.mem_append_left _ hy)) s,
    hall b (fun u y hy => hstep u y (List.mem_append_right _ (.tail _ hy))) _⟩

/-- The relation holds of the whole fold, too. -/
theorem foldl_step {α : Type} {R : State → State → Prop} (hrefl : ∀ u, R u u) (htrans : ∀ {u v w}, R u v → R v w → R u w)
    {f : State → α → State} (l : List α) (hstep : ∀ u, ∀ x ∈ l, R u (f u x)) (s : State) : R s (l.foldl f s) := by
  induction l generalizing s with
  | nil => exact hrefl s
  | cons x r ih => exact htrans (hstep s x (.head _)) (ih (fun u y hy => hstep u y (.tail _ hy)) _)

theorem memberRemoval_removes {s : State} {c : Nat} {t : Template} (hc : c < 1024) (htemplate : s.template c = some t) :
    Completes (.memberRemoval c) s (fun u =>
      (u.ctx c).exch.pending = (s.ctx c).exch.pending.filter (fun e => decide (s.frame + 1 < e.2)) ∧
      ∀ e ∈ (s.ctx c).exch.pending, e.2 ≤ s.frame + 1 →
        (e.1 ≠ s.ownId → e ∈ (u.ctx c).exch.lost) ∧ (e.1 = s.ownId → 2 ≤ s.ctxLive c → s.ctxLive c ≤ 4 → u.ctxLive c = 6)) := by
  have hexec : exec (.memberRemoval c) s = .next (((s.ctx c).exch.pending.filter (fun l => decide (l.2 ≤ s.frame + 1))).foldl
      (State.removeDue c t) (s.updExch c (fun e => { e with pending := e.pending.filter (fun l => decide (s.frame + 1 < l.2)) }))) := by
    show execMemberRemoval c s = _
    unfold execMemberRemoval
    rw [htemplate]
    rfl
  refine ⟨_, hexec, ?_, fun e he hdue => ?_⟩
  · rw [(foldl_step (Removing.refl c) Removing.trans _ (fun u x _ => removing_removeDue hc t u x) _).pending, exch_updExch]
  · have hmem : e ∈ (s.ctx c).exch.pending.filter (fun l => decide (l.2 ≤ s.frame + 1)) := List.mem_filter.mpr ⟨he, decide_eq_true hdue⟩
    obtain ⟨v, hbefore, hafter⟩ := exists_foldl_step (Removing.refl c) Removing.trans (fun u x _ => removing_removeDue hc t u x) hmem
      (s.updExch c (fun e => { e with pending := e.pending.filter (fun l => decide (s.frame + 1 < l.2)) }))
    have hown : v.ownId = s.ownId := hbefore.own
    have hlive : v.ctxLive c = s.ctxLive c ∨ v.ctxLive c = 6 := hbefore.live
    refine ⟨fun hother => hafter.lost (mem_lost_removeDue (hown ▸ hother) c t), fun hself hlow hhigh => ?_⟩
    have hsix := ctxLive_removeDue hc (hself.trans hown.symm) (hlive.imp (fun h => by rw [h]; exact ⟨hlow, hhigh⟩) id) t
    exact hafter.live.elim (fun h => h.trans hsix) id

/-! The decision of the survivors (R301). -/

/-- The state with the STATE records of the step taken in. -/
def State.statesTaken (s : State) (c : Nat) : State := s.updExch c (fun e => { e with stateAt := none, states := [] })

theorem ctx_statesTaken (s : State) (c : Nat) :
    (s.statesTaken c).ctx c = { s.ctx c with exch := { (s.ctx c).exch with stateAt := none, states := [] } } := ctx_updExch ..

section
variable {s : State} {c n : Nat} {t : Template} {r : StepRun} (htemplate : s.template c = some t) (hat : (s.ctx c).exch.stateAt = some n)
  (hn : n ≤ s.frame + 1) (hrun : (s.ctx c).step = some r)
include htemplate hat hn hrun

theorem execStateDecision_eq : exec (.stateDecision c) s = .next
    (if (s.ctx c).exch.states.any (fun x => x.2) then
      (if (s.ctx c).exch.votes.any (fun v => decide (v = (s.ownCtxIdx t, 0))) then (s.statesTaken c).updRun c (fun r => { r with stage := 3 })
        else s.statesTaken c)
    else if (((s.statesTaken c).applyAbandon c s.frame).ctx c).faultDue.isNone then ((s.statesTaken c).applyAbandon c s.frame).rerun c
    else (s.statesTaken c).applyAbandon c s.frame) := by
  show execStateDecision c s = _
  unfold execStateDecision
  rw [htemplate, hat]
  exact congrArg Host.Outcome.next (if_neg (by rw [hrun]; simp; omega))

theorem stateDecision_commits (hany : (s.ctx c).exch.states.any (fun x => x.2) = true) (hvote : (s.ownCtxIdx t, 0) ∈ (s.ctx c).exch.votes) :
    Completes (.stateDecision c) s (fun u => (u.ctx c).step = some { r with stage := 3 } ∧ (u.ctx c).exch.stateAt = none) := by
  have hown : (s.ctx c).exch.votes.any (fun v => decide (v = (s.ownCtxIdx t, 0))) = true :=
    List.any_eq_true.mpr ⟨_, hvote, decide_eq_true rfl⟩
  refine completes_of_exec (execStateDecision_eq htemplate hat hn hrun) ?_
  rw [if_pos hany, if_pos hown, ctx_updRun, ctx_statesTaken, hrun]
  exact ⟨rfl, rfl⟩

theorem stateDecision_reruns (hc : c < 1024) (hno : (s.ctx c).exch.states.any (fun x => x.2) = false) (hfree : (s.ctx c).faultDue = none)
    (hnone : (s.ctx c).exch.rerunAt = none) (hmore : (s.ctx c).exch.attempt < s.seen F.EXCH_STEP_RETRIES c) :
    Completes (.stateDecision c) s (fun u => (u.ctx c).exch.attempt = (s.ctx c).exch.attempt + 1 ∧ (u.ctx c).exch.stateAt = none) := by
  have habandoned : ((s.statesTaken c).applyAbandon c s.frame).ctx c =
      { (s.statesTaken c).ctx c with exch := { ((s.statesTaken c).ctx c).exch with rerunAt := some (s.frame + 2) } } := by
    rw [applyAbandon_reruns s.frame (by rw [ctx_statesTaken]; exact hnone) (by rw [ctx_statesTaken]; exact hmore), ctx_updExch, ctx_raise, ctx_bump]
  have hstays : (((s.statesTaken c).applyAbandon c s.frame).ctx c).faultDue.isNone = true := by
    rw [habandoned, ctx_statesTaken]
    exact Option.isNone_iff_eq_none.mpr hfree
  obtain ⟨hattempt, -, -, hstate, -⟩ := rerun_leaves ((s.statesTaken c).applyAbandon c s.frame) hc
  refine completes_of_exec (execStateDecision_eq htemplate hat hn hrun) ?_
  rw [if_neg (Bool.eq_false_iff.mp hno), if_pos hstays]
  refine ⟨?_, hstate⟩
  rw [hattempt, habandoned, ctx_statesTaken]
end

/-- Settles O55: each record and each decision by the theorem about it. -/
theorem exchangeRecords : Obligations.ExchangeRecords := by
  unfold Obligations.ExchangeRecords
  intro s c t hc htemplate
  refine ⟨fun o hctx hopen => ⟨stepReady_starts hctx hopen, fun hcurrent => ?_, scalar_stale htemplate hctx hopen hc, fun r hrun hstep => ?_⟩,
    fun o hclosed i hi => ?_, fun n hdue hn => ?_, fun m due => memberLate_reports htemplate, fun h m f => lossReport_noted,
    memberRemoval_removes hc htemplate, fun n r hat hn hrun => ?_⟩
  case refine_1 =>
    exact ⟨scalar_noted htemplate hctx hopen hcurrent, resume_noted htemplate hctx hopen hcurrent, vote_noted htemplate hctx hopen hcurrent⟩
  case refine_2 =>
    exact ⟨stateRecord_noted hctx hopen hrun hstep, fun hattempt =>
      ⟨_, execAbandon_live hctx hopen hrun hstep hattempt, applyAbandon_leaves o.frame hc⟩⟩
  case refine_3 =>
    exact unaligned_takes_none hclosed hi
  case refine_4 =>
    obtain ⟨hattempt, hrerun, hstopped, -, hscalars, hshown, hstep⟩ := rerun_leaves s hc
    exact ⟨_, exchRerun_begins hdue hn, hattempt, hrerun, hstopped, hscalars, hshown, hstep⟩
  case refine_5 =>
    exact ⟨stateDecision_commits htemplate hat hn hrun, stateDecision_reruns htemplate hat hn hrun hc⟩

end Sys2Proof.Machine
end

section
/-! Portions as they leave, and what a send leaves of the state (R48, R279, R284, R296). -/
namespace Sys2Proof.Machine

/-! What a send depends on. -/

/-- What context c sends by: the routes and the VCs that are open, and the fields of a portion's header and of the context's flits. -/
def State.sendView (s : State) (c : Nat) : (Nat → Nat → Bool → Option Route) × (Nat → Bool) × Nat × Nat × Nat × Nat :=
  (s.leavesOn, s.vcOpen, s.ownId, s.gen c, s.stepNo c, (s.ctx c).exch.attempt)

section
variable {s u : State}

theorem leavesOn_congr (hlnk : ∀ p < 32, u.lnk p = s.lnk p)
    (hroute : ∀ d, u.reg (F.LNK_ROUTE_ENTRY.addr d) = s.reg (F.LNK_ROUTE_ENTRY.addr d))
    (hopen : u.vcOpen = s.vcOpen) (hphase : u.phase = s.phase) : u.leavesOn = s.leavesOn := by
  have hentry : u.routeOf = s.routeOf := funext fun d => funext fun alt => by rw [State.routeOf, State.routeOf, hroute]
  have hsource : u.sourceRoute = s.sourceRoute := by
    funext d copy
    unfold State.sourceRoute State.hasAlternate
    rw [hentry]
    cases hanchor : s.routeOf d false <;> cases hstandby : s.routeOf d true
    · rfl
    · simp only [hlnk _ (port_lt_of_routeOf hstandby)]
    · simp only [hlnk _ (port_lt_of_routeOf hanchor)]
    · simp only [hlnk _ (port_lt_of_routeOf hanchor), hlnk _ (port_lt_of_routeOf hstandby)]
  funext d vc copy
  unfold State.leavesOn
  rw [hopen, hphase, hsource]
  split
  · rfl
  · split
    · next r hr => rw [hlnk r.port (port_lt_of_sourceRoute hr)]
    · rfl

theorem vcOpen_congr (h : u.get F.LNK_TICK_UNALIGNED 0 = s.get F.LNK_TICK_UNALIGNED 0) : u.vcOpen = s.vcOpen :=
  funext fun vc => by rw [State.vcOpen, State.vcOpen, h]

theorem stepNo_congr {c : Nat} (hctx : u.ctx c = s.ctx c) (hlo : u.get F.CTX_STEP_LO_STEP_LO c = s.get F.CTX_STEP_LO_STEP_LO c)
    (hhi : u.get F.CTX_STEP_HI_STEP_HI c = s.get F.CTX_STEP_HI_STEP_HI c) : u.stepNo c = s.stepNo c := by
  rw [State.stepNo, State.stepNo, hctx, hlo, hhi]

/-- A state in which every register word that a send reads is the same, and the context, sends alike. -/
theorem sendView_congr {c : Nat} (hctx : u.ctx c = s.ctx c) (hlnk : ∀ p < 32, u.lnk p = s.lnk p)
    (hroute : ∀ d, u.reg (F.LNK_ROUTE_ENTRY.addr d) = s.reg (F.LNK_ROUTE_ENTRY.addr d))
    (hget : ∀ g ∈ [F.LNK_TICK_UNALIGNED, F.DEV_STATE_PHASE, F.LNK_ID_MODULE_ID], u.get g 0 = s.get g 0)
    (hown : ∀ g ∈ [F.CTX_STATE_GEN, F.CTX_STEP_LO_STEP_LO, F.CTX_STEP_HI_STEP_HI], u.get g c = s.get g c) :
    u.sendView c = s.sendView c := by
  have hopen : u.vcOpen = s.vcOpen := vcOpen_congr (hget _ (by simp))
  have hleaves : u.leavesOn = s.leavesOn := leavesOn_congr hlnk hroute hopen (hget F.DEV_STATE_PHASE (by simp))
  have hid : u.ownId = s.ownId := hget F.LNK_ID_MODULE_ID (by simp)
  have hgen : u.gen c = s.gen c := hown F.CTX_STATE_GEN (by simp)
  have hstep : u.stepNo c = s.stepNo c := stepNo_congr hctx (hown _ (by simp)) (hown _ (by simp))
  rw [State.sendView, State.sendView, hopen, hleaves, hid, hgen, hstep, hctx]
end

/-- A field of the exchange's words of a context. -/
def Fld.exchWord (f : Fld) : Bool :=
  decide (f.stride = 0x100) && decide (f.count = 1024) && decide (0x300020 ≤ f.base) && decide (f.base < 0x300100)

theorem addr_ne_of_exchWord {f : Fld} (hf : f.exchWord = true) {i a : Nat} (hi : i < f.count)
    (ha : a < 0x300020 ∨ 0x340100 ≤ a ∨ ∃ k < 0x20, ∃ j, a = 0x300000 + k + 0x100 * j) : a ≠ f.addr i := by
  simp only [Fld.exchWord, Bool.and_eq_true, decide_eq_true_eq] at hf
  obtain ⟨⟨⟨hstride, hcount⟩, hlow⟩, hhigh⟩ := hf
  rw [Fld.addr, hstride]
  rw [hcount] at hi
  rcases ha with ha | ha | ⟨k, hk, j, rfl⟩ <;> omega

theorem sendView_put_exchWord {f : Fld} (hf : f.exchWord = true) (s : State) (c i v : Nat) :
    (s.put f i v).sendView c = s.sendView c := by
  have hne : ∀ g j, (g.addr j < 0x300020 ∨ 0x340100 ≤ g.addr j ∨ ∃ k < 0x20, ∃ n, g.addr j = 0x300000 + k + 0x100 * n) →
      (s.put f i v).get g j = s.get g j := fun g j ha => get_put_elsewhere s (fun hi => addr_ne_of_exchWord hf hi ha) v
  refine sendView_congr (ctx_put ..) (fun p hp => hne F.LNK_PORT_STATE p (.inl ?_)) (fun d => ?_) (fun g hg => hne g 0 (.inl ?_))
    (fun g hg => hne g c (.inr (.inr ?_)))
  · simp only [Fld.addr, F.LNK_PORT_STATE]
    omega
  · unfold State.put
    split
    · next hi =>
      refine (reg_setReg ..).trans (if_neg (addr_ne_of_exchWord hf hi (.inr (.inl ?_))))
      simp only [Fld.addr, F.LNK_ROUTE_ENTRY]
      omega
    · rfl
  · simp only [List.mem_cons, List.not_mem_nil, or_false] at hg
    rcases hg with rfl | rfl | rfl <;> decide
  · simp only [List.mem_cons, List.not_mem_nil, or_false] at hg
    rcases hg with rfl | rfl | rfl
    · exact ⟨0, by decide, c, rfl⟩
    · exact ⟨0x14, by decide, c, rfl⟩
    · exact ⟨0x18, by decide, c, rfl⟩

theorem sendView_raise_exchWord {f : Fld} (hf : f.exchWord = true) (s : State) (c i : Nat) : (s.raise f i).sendView c = s.sendView c := by
  unfold State.raise
  split
  · exact sendView_put_exchWord hf s c i 1
  · rfl

theorem sendView_countHeads (s : State) (c : Nat) (l : List Nat) : (s.countHeads c l).sendView c = s.sendView c :=
  sendView_put_exchWord (by decide) ..

theorem sendView_setBytes (s : State) (a : Nat) (l : List Byte) (c : Nat) : (s.setBytes a l).sendView c = s.sendView c := by
  rw [setBytes_eq]
  rfl

theorem sendView_updRun {f : StepRun → StepRun} (hf : ∀ r, (f r).step = r.step) (s : State) (c : Nat) :
    (s.updRun c f).sendView c = s.sendView c := by
  have hstep : (s.updRun c f).stepNo c = s.stepNo c := by
    unfold State.stepNo
    rw [ctx_updRun]
    cases (s.ctx c).step with
    | none => rfl
    | some r => exact hf r
  have hattempt : ((s.updRun c f).ctx c).exch.attempt = (s.ctx c).exch.attempt := congrArg ExchSt.attempt (exch_updRun ..)
  unfold State.sendView
  rw [hstep, hattempt]
  rfl

theorem sendView_recordOn (s : State) (copy : Bool) (dest vc kind : Nat) (l : List Nat) (c : Nat) :
    (s.recordOn copy dest vc kind l).sendView c = s.sendView c := by
  unfold State.recordOn
  split
  · rfl
  · split
    · rfl
    · split
      · next r hr =>
        have hsame := sameRoutes_bump_dropUnroute s r.port (State.flitCount kind l)
        refine sendView_congr (ctx_bump ..) (fun p _ => hsame.lnk p) hsame.route (fun g hg => get_bump_elsewhere s (fun hi => ?_) _)
          (fun g hg => get_bump_elsewhere s (fun hi => ?_) _)
        all_goals
          simp only [List.mem_cons, List.not_mem_nil, or_false] at hg
          simp only [F.LNK_ERR_DROP_UNROUTE] at hi
          rcases hg with rfl | rfl | rfl <;> simp only [Fld.addr, F.LNK_ERR_DROP_UNROUTE, F.LNK_TICK_UNALIGNED, F.DEV_STATE_PHASE,
            F.LNK_ID_MODULE_ID, F.CTX_STATE_GEN, F.CTX_STEP_LO_STEP_LO, F.CTX_STEP_HI_STEP_HI] <;> omega
      · rfl

/-! What has been sent stays sent. -/

/-- What left or waits for the commit window in u does so in v too. -/
structure Adds (u v : State) : Prop where
  sent : u.sent <+: v.sent
  wrote : u.fr.wrote <+: v.fr.wrote
  signals : u.fr.signals <+: v.fr.signals

theorem Adds.refl (u : State) : Adds u u := ⟨List.prefix_rfl, List.prefix_rfl, List.prefix_rfl⟩

theorem Adds.trans {u v w : State} (h : Adds u v) (k : Adds v w) : Adds u w :=
  ⟨h.sent.trans k.sent, h.wrote.trans k.wrote, h.signals.trans k.signals⟩

theorem adds_of_keeps {m : Nat} {u v : State} (h : Keeps m u v) (hm : m.testBit 23 = false) : Adds u v := by
  have hfr : v.fr = u.fr := h.same .fr hm
  exact ⟨h.sent, hfr ▸ List.prefix_rfl, hfr ▸ List.prefix_rfl⟩

theorem adds_toMembers (s : State) (c kind : Nat) (l : List Nat) : Adds s (s.toMembers c kind l) := by
  unfold State.toMembers
  split <;> exact ⟨List.prefix_rfl, List.prefix_rfl, List.prefix_rfl⟩

theorem adds_sendRec (s : State) (c type arg frame nonFinite : Nat) : Adds s (s.sendRec c type arg frame nonFinite) := by
  unfold State.sendRec
  split
  · exact .refl s
  · exact adds_toMembers ..

theorem adds_recordOn (s : State) (copy : Bool) (dest vc kind : Nat) (l : List Nat) : Adds s (s.recordOn copy dest vc kind l) :=
  adds_of_keeps (keeps_recordOn (Keeps.refl 0x400000100 s) rfl) rfl

theorem adds_sendPortion (s : State) (copy : Bool) (c : Nat) (t : Template) (f : Xfer) (n : Nat) (d : List Byte) :
    Adds s (s.sendPortion copy c t f n d) := by
  unfold State.sendPortion
  extract_lets m b u
  split
  · exact .refl s
  · have hu : Adds s u := adds_recordOn ..
    exact ⟨hu.sent, hu.wrote.trans (List.prefix_append ..), hu.signals.trans (List.prefix_append ..)⟩

/-! A portion. -/

theorem Portion.congr_left {copy : Bool} {c : Nat} {t : Template} {f : Xfer} {n : Nat} {d : List Byte} {s u v : State}
    (h : Portion copy c t f n d u v) (hview : u.sendView c = s.sendView c) : Portion copy c t f n d s v := by
  obtain ⟨hleaves, -, hown, hgen, hstep, hattempt⟩ : u.leavesOn = s.leavesOn ∧ u.vcOpen = s.vcOpen ∧ u.ownId = s.ownId ∧ u.gen c = s.gen c ∧
      u.stepNo c = s.stepNo c ∧ (u.ctx c).exch.attempt = (s.ctx c).exch.attempt := by
    simpa only [State.sendView, Prod.mk.injEq] using hview
  have hhead : u.xferHeader c t f n = s.xferHeader c t f n := by
    unfold State.xferHeader State.ownIdx
    rw [hstep, hattempt, hown]
  unfold Portion Leaves at h ⊢
  rwa [hleaves, hhead, hgen] at h

theorem Portion.mono {copy : Bool} {c : Nat} {t : Template} {f : Xfer} {n : Nat} {d : List Byte} {s v w : State}
    (h : Portion copy c t f n d s v) (hadds : Adds v w) : Portion copy c t f n d s w := by
  obtain ⟨hleaves, hwrote, hsignal⟩ := h
  exact ⟨fun r hr => hadds.sent.subset (hleaves r hr), hadds.wrote.subset hwrote, hadds.signals.subset hsignal⟩

theorem portion_sendPortion {s : State} (hopen : s.vcOpen 2 = true) (copy : Bool) (c : Nat) (t : Template) (f : Xfer) (n : Nat) (d : List Byte) :
    Portion copy c t f n d s (s.sendPortion copy c t f n d) := by
  unfold State.sendPortion
  extract_lets m b u
  rw [if_neg (by rw [hopen]; decide)]
  have hgen : u.gen c = s.gen c := congrArg (fun v => v.2.2.2.1) (sendView_recordOn s copy m 2 256 _ c)
  refine ⟨fun r hr => ?_, ?_, ?_⟩
  · have hu : u.sent = s.sent ++ [Wire.record r m 2 256 ([c, s.gen c, f.addr] ++ b.map (fun v => v.toNat))] := by
      show (s.recordOn copy m 2 256 _).sent = _
      unfold State.recordOn
      rw [hr]
    show _ ∈ u.sent
    rw [hu]
    exact List.mem_append_right _ (.head _)
  · show _ ∈ u.fr.wrote ++ _
    rw [hgen]
    exact List.mem_append_right _ (.head _)
  · show _ ∈ u.fr.signals ++ _
    rw [hgen]
    exact List.mem_append_right _ (.head _)

/-! Runs of sends. -/

/-- From u to v context c has only sent, as far as g and its sends can tell. -/
structure SendsOnly {β : Type} (g : State → β) (c : Nat) (u v : State) : Prop where
  view : v.sendView c = u.sendView c
  adds : Adds u v
  kept : g v = g u

section
variable {β : Type} {g : State → β} {c : Nat}

theorem SendsOnly.refl (u : State) : SendsOnly g c u u := ⟨rfl, .refl u, rfl⟩

theorem SendsOnly.trans {u v w : State} (h : SendsOnly g c u v) (k : SendsOnly g c v w) : SendsOnly g c u w :=
  ⟨k.view.trans h.view, h.adds.trans k.adds, k.kept.trans h.kept⟩

theorem SendsOnly.vcOpen {u v : State} (h : SendsOnly g c u v) {vc : Nat} (hopen : u.vcOpen vc = true) : v.vcOpen vc = true :=
  (congrFun (congrArg (fun x => x.2.1) h.view) vc).trans hopen

/-- In a run of sends the portion of each element leaves as it does alone. -/
theorem portion_foldl {F : State → Xfer → State} {l : List Xfer} {copy : Bool} {t : Template} {f : Xfer} {n : Nat} {d : List Byte} {s : State}
    (hF : ∀ u, ∀ x ∈ l, SendsOnly g c u (F u x)) (hf : f ∈ l) (hone : ∀ v, SendsOnly g c s v → Portion copy c t f n d v (F v f)) :
    Portion copy c t f n d s (l.foldl F s) := by
  obtain ⟨v, hbefore, hafter⟩ := exists_foldl_step SendsOnly.refl SendsOnly.trans hF hf s
  exact ((hone v hbefore).congr_left hbefore.view).mono hafter.adds

theorem SendsOnly.foldl {F : State → Xfer → State} {l : List Xfer} (hF : ∀ u, ∀ x ∈ l, SendsOnly g c u (F u x)) (s : State) :
    SendsOnly g c s (l.foldl F s) := foldl_step SendsOnly.refl SendsOnly.trans l hF s
end

/-- Memory and contexts. -/
def State.data (s : State) : (Nat → Byte) × Tbl Ctx := (s.byte, s.ctxs)

theorem data_of_keeps {m : Nat} {u v : State} (h : Keeps m u v) (hmem : m.testBit 20 = false) (hctxs : m.testBit 25 = false) :
    v.data = u.data := congrArg₂ Prod.mk (funext (h.same .mem hmem)) (h.same .ctxs hctxs)

theorem byte_of_data {u v : State} (h : v.data = u.data) : v.byte = u.byte := congrArg Prod.fst h

theorem ctx_of_data {u v : State} (h : v.data = u.data) (c : Nat) : v.ctx c = u.ctx c := ctx_congr (congrArg Prod.snd h) c

theorem bytes_congr {u v : State} (h : v.byte = u.byte) (a n : Nat) : v.bytes a n = u.bytes a n := by rw [State.bytes, State.bytes, h]

theorem sendsOnly_sendPortion (u : State) (copy : Bool) (c : Nat) (t : Template) (f : Xfer) (n : Nat) (d : List Byte) :
    SendsOnly State.data c u (u.sendPortion copy c t f n d) where
  view := by
    unfold State.sendPortion
    extract_lets m b v
    split
    · rfl
    · exact sendView_recordOn u copy m 2 256 _ c
  adds := adds_sendPortion ..
  kept := data_of_keeps (keeps_sendPortion (Keeps.refl 0x400800100 u) rfl) rfl rfl

/-! The lists of portions. -/

section
variable {s : State} (hopen : s.vcOpen 2 = true) {c : Nat} {t : Template} {l : List Xfer} {f : Xfer} (hf : f ∈ l)

theorem sendsOnly_sendKind (s : State) (c : Nat) (t : Template) (k w : Nat) (l : List Xfer) (n : Nat) (at_ : Xfer → Nat) :
    SendsOnly State.data c s (s.sendKind c t k w l n at_) := SendsOnly.foldl (fun u _ _ => sendsOnly_sendPortion u ..) s

include hopen hf in
theorem portion_sendKind {k : Nat} (hk : f.kind = k) (w n : Nat) (at_ : Xfer → Nat) :
    Portion false c t f n (s.bytes (at_ f) (w * f.count)) s (s.sendKind c t k w l n at_) := by
  refine portion_foldl (g := State.data) (fun u _ _ => sendsOnly_sendPortion u ..) (List.mem_filter.mpr ⟨hf, decide_eq_true hk⟩) fun v hv => ?_
  rw [← bytes_congr (byte_of_data hv.kept)]
  exact portion_sendPortion (hv.vcOpen hopen) ..

/-- Bytes of an element of a copy. -/
def copyWidth (t : Template) (f : Xfer) : Nat := match t.tensor f.tensor with | some x => if x.bf16 ∧ x.rank ≠ 0 then 2 else 4 | none => 4

theorem copyWidth_of_tensor {t : Template} {f : Xfer} {x : Tensor} (hx : t.tensor f.tensor = some x) :
    copyWidth t f = if x.bf16 ∧ x.rank ≠ 0 then 2 else 4 := by rw [copyWidth, hx]

/-- Without an alternate route a copy takes the primary one, which is shown (R296). -/
def State.sharePath (s : State) (c m : Nat) : State := if s.hasAlternate m then s else s.raise F.EXCH_EVT_SHARED_PATH c

theorem sendsOnly_sharePath (u : State) (c m : Nat) : SendsOnly State.data c u (u.sharePath c m) := by
  unfold State.sharePath
  split
  · exact .refl u
  · exact ⟨sendView_raise_exchWord (by decide) .., adds_of_keeps (Keeps.raise (Keeps.refl 0x42000 u) rfl rfl rfl) rfl,
      data_of_keeps (Keeps.raise (Keeps.refl 0x42000 u) rfl rfl rfl) rfl rfl⟩

/-- A check copy as it is sent. -/
def State.sendCopy (s : State) (c : Nat) (t : Template) (f : Xfer) : State :=
  let u := s.sharePath c (t.group.getD f.member 0)
  u.sendPortion true c t f 0 (u.bytes f.src (copyWidth t f * f.count))

theorem sendCopies_eq (s : State) (c : Nat) (t : Template) (l : List Xfer) :
    s.sendCopies c t l = (l.filter (fun f => decide (f.kind = 6))).foldl (fun u f => u.sendCopy c t f) s := rfl

theorem sendsOnly_sendCopy (u : State) (c : Nat) (t : Template) (f : Xfer) : SendsOnly State.data c u (u.sendCopy c t f) :=
  (sendsOnly_sharePath u c _).trans (sendsOnly_sendPortion ..)

theorem sendsOnly_sendCopies (s : State) (c : Nat) (t : Template) (l : List Xfer) : SendsOnly State.data c s (s.sendCopies c t l) := by
  rw [sendCopies_eq]
  exact SendsOnly.foldl (fun u f _ => sendsOnly_sendCopy u c t f) s

include hopen hf in
theorem portion_sendCopies (hk : f.kind = 6) :
    Portion true c t f 0 (s.bytes f.src (copyWidth t f * f.count)) s (s.sendCopies c t l) := by
  rw [sendCopies_eq]
  refine portion_foldl (fun u f _ => sendsOnly_sendCopy u c t f) (List.mem_filter.mpr ⟨hf, decide_eq_true hk⟩) fun v hv => ?_
  have hshare := sendsOnly_sharePath v c (t.group.getD f.member 0)
  rw [← bytes_congr (byte_of_data (hv.trans hshare).kept)]
  exact (portion_sendPortion (hshare.vcOpen (hv.vcOpen hopen)) ..).congr_left hshare.view
end

end Sys2Proof.Machine
end

section
/-! Words and factors in memory, and parts read from it (R277, R293). -/
namespace Sys2Proof.Machine

/-! A list of equal blocks. -/

section
variable {α : Type} {f : α → List Byte} {w : Nat} (hf : ∀ v, (f v).length = w)

include hf in
theorem length_flatMap_blocks (l : List α) : (l.flatMap f).length = w * l.length := by
  rw [List.length_flatMap, List.map_congr_left (fun v _ => hf v), List.map_const', List.sum_replicate, smul_eq_mul, Nat.mul_comm]

include hf in
theorem take_drop_flatMap {l : List α} {e : Nat} {v : α} (he : l[e]? = some v) : ((l.flatMap f).drop (w * e)).take w = f v := by
  induction l generalizing e with
  | nil => simp at he
  | cons u r ih =>
    rw [List.flatMap_cons]
    cases e with
    | zero =>
      obtain rfl : u = v := by simpa using he
      rw [Nat.mul_zero, List.drop_zero, List.take_left' (hf u)]
    | succ e =>
      have hdrop : w * (e + 1) = (f u).length + w * e := by rw [hf, Nat.mul_succ, Nat.add_comm]
      rw [hdrop, List.drop_append, List.drop_of_length_le (Nat.le_add_right ..), List.nil_append, Nat.add_sub_cancel_left]
      exact ih (by simpa using he)

theorem bytes_setBytes_within (s : State) (a : Nat) {k n : Nat} {l : List Byte} (h : k + n ≤ l.length) :
    (s.setBytes a l).bytes (a + k) n = (l.drop k).take n := by
  refine List.ext_getElem ?_ fun i hi hj => ?_
  · simp only [State.bytes, List.length_map, List.length_range, List.length_take, List.length_drop]
    omega
  · have hin : i < n := by simpa [State.bytes] using hi
    simp only [State.bytes, List.getElem_map, List.getElem_range, byte_setBytes, List.getElem_take, List.getElem_drop]
    rw [if_pos ⟨by omega, by omega⟩, show a + k + i - a = k + i by omega, List.getD_eq_getElem _ _ (by omega)]

theorem bytes_setBytes (s : State) (a : Nat) (l : List Byte) : (s.setBytes a l).bytes a l.length = l :=
  (bytes_setBytes_within s a (k := 0) (by omega)).trans (by rw [List.drop_zero, List.take_length])

include hf in
theorem bytes_setBytes_flatMap (s : State) (a : Nat) {l : List α} {e : Nat} {v : α} (he : l[e]? = some v) :
    (s.setBytes a (l.flatMap f)).bytes (a + w * e) w = f v := by
  have hlt : e + 1 ≤ l.length := (List.getElem?_eq_some_iff.mp he).1
  have hwithin : w * e + w ≤ (l.flatMap f).length := by
    rw [length_flatMap_blocks hf]
    exact Nat.mul_succ w e ▸ Nat.mul_le_mul_left w hlt
  exact (bytes_setBytes_within s a hwithin).trans (take_drop_flatMap hf he)
end

/-! Words. -/

theorem ofNat_toNat_mod (v : Word) : BitVec.ofNat 32 (v.toNat % 256 ^ 4) = v := by
  rw [Nat.mod_eq_of_lt (show v.toNat < 256 ^ 4 from v.isLt), BitVec.ofNat_toNat, BitVec.setWidth_eq]

theorem ofNat_leNat_leBytes (v : Word) : BitVec.ofNat 32 (leNat (leBytes 4 v.toNat)) = v := by rw [leNat_leBytes, ofNat_toNat_mod]

theorem setBytes_append (s : State) (a : Nat) (l r : List Byte) : s.setBytes a (l ++ r) = (s.setBytes a l).setBytes (a + l.length) r := by
  induction l generalizing s a with
  | nil => rfl
  | cons b l ih => rw [List.cons_append, State.setBytes, ih, State.setBytes, List.length_cons, Nat.add_right_comm, Nat.add_assoc]

theorem setWords_eq_setBytes (s : State) (a : Nat) (l : List Word) :
    s.setWords a l = s.setBytes a (l.flatMap (fun v => leBytes 4 v.toNat)) := by
  induction l generalizing s a with
  | nil => rfl
  | cons v r ih => rw [List.flatMap_cons, setBytes_append, leBytes_length, State.setWords, ih, State.setWord, State.store]

theorem word_setWords (s : State) (a : Nat) {l : List Word} {e : Nat} {v : Word} (he : l[e]? = some v) : (s.setWords a l).word (a + 4 * e) = v := by
  rw [setWords_eq_setBytes, State.word, State.load, bytes_setBytes_flatMap (fun _ => leBytes_length ..) s a he, ofNat_leNat_leBytes]

theorem words_setWords (s : State) (a : Nat) (l : List Word) : (s.setWords a l).words a l.length = l := by
  refine List.ext_getElem (by simp [State.words]) fun i hi hj => ?_
  simp only [State.words, List.getElem_map, List.getElem_range]
  exact word_setWords s a (List.getElem?_eq_getElem hj)

theorem word_congr {u v : State} (h : v.byte = u.byte) (a : Nat) : v.word a = u.word a := by rw [State.word, State.word, State.load, State.load, bytes_congr h]

theorem words_congr {u v : State} (h : v.byte = u.byte) (a n : Nat) : v.words a n = u.words a n :=
  List.map_congr_left fun _ _ => word_congr h _

theorem word_setWord (s : State) (a e i : Nat) (v : Word) : (s.setWord (a + 4 * e) v).word (a + 4 * i) = if i = e then v else s.word (a + 4 * i) := by
  split
  · next h =>
    rw [h, State.word, State.setWord, load_store, ofNat_toNat_mod]
  · next h =>
    have hbytes : (s.setWord (a + 4 * e) v).bytes (a + 4 * i) 4 = s.bytes (a + 4 * i) 4 := by
      refine List.map_congr_left fun k hk => byte_store _ _ _ _ _ (by
        have := List.mem_range.mp hk
        omega)
    rw [State.word, State.load, hbytes, State.word, State.load]

/-! Words stored at the elements of a list of pairs. -/

/-- Store the words of a list of elements and words in a tensor's field at a. -/
def State.setElems (s : State) (a : Nat) (l : List (Nat × Word)) : State := l.foldl (fun u p => u.setWord (a + 4 * p.1) p.2) s

theorem word_setElems_of_notMem {l : List (Nat × Word)} {e : Nat} (he : e ∉ l.map Prod.fst) (s : State) (a : Nat) :
    (s.setElems a l).word (a + 4 * e) = s.word (a + 4 * e) := by
  induction l generalizing s with
  | nil => rfl
  | cons p r ih =>
    obtain ⟨hhead, htail⟩ : e ≠ p.1 ∧ e ∉ r.map Prod.fst := by simpa only [List.map_cons, List.mem_cons, not_or] using he
    exact (ih htail _).trans ((word_setWord ..).trans (if_neg hhead))

theorem word_setElems {l : List (Nat × Word)} (hl : (l.map Prod.fst).Nodup) {e : Nat} {v : Word} (hmem : (e, v) ∈ l) (s : State) (a : Nat) :
    (s.setElems a l).word (a + 4 * e) = v := by
  induction l generalizing s with
  | nil => cases hmem
  | cons p r ih =>
    obtain ⟨hfresh, hr⟩ := List.nodup_cons.mp (List.map_cons ▸ hl)
    rcases List.mem_cons.mp hmem with rfl | hmem
    · exact (word_setElems_of_notMem hfresh _ a).trans ((word_setWord ..).trans (if_pos rfl))
    · exact ih hr hmem _

theorem setElems_eq (s : State) (a : Nat) (l : List (Nat × Word)) : s.setElems a l = { s with mem := (s.setElems a l).mem } := by
  induction l generalizing s with
  | nil => rfl
  | cons p r ih =>
    have hword : s.setWord (a + 4 * p.1) p.2 = { s with mem := (s.setWord (a + 4 * p.1) p.2).mem } := setBytes_eq ..
    show (s.setWord (a + 4 * p.1) p.2).setElems a r = { s with mem := ((s.setWord (a + 4 * p.1) p.2).setElems a r).mem }
    rw [ih]
    generalize (State.setElems _ a r).mem = m
    rw [hword]

theorem nodup_elems (x : Tensor) {rows : List Nat} (h : rows.Nodup) : (x.elems rows).Nodup := by
  refine List.nodup_flatMap.mpr ⟨fun r _ => ?_, h.imp_of_mem fun {p q} _ _ hpq e hp hq => ?_⟩
  · exact List.nodup_range.map fun i j hij => Nat.add_left_cancel hij
  · obtain ⟨i, hi, rfl⟩ := List.mem_map.mp hp
    obtain ⟨j, hj, heq⟩ := List.mem_map.mp hq
    have hi := List.mem_range.mp hi
    have hj := List.mem_range.mp hj
    have hrow : ∀ r k, k < x.cols → (r * x.cols + k) / x.cols = r := fun r k hk => by
      rw [Nat.mul_comm, Nat.mul_add_div (by omega), Nat.div_eq_of_lt hk, Nat.add_zero]
    exact hpq ((hrow p i hi).symm.trans (heq ▸ hrow q j hj))

theorem nodup_ownRows (s : State) (c : Nat) (t : Template) (x : Tensor) : (s.ownRows c t x).Nodup := List.nodup_range.filter _

theorem length_of_allSums {l : List (Option Word)} {r : List Word} (h : State.allSums l = some r) : r.length = l.length := by
  induction l generalizing r with
  | nil =>
    cases h
    rfl
  | cons o l ih =>
    cases o with
    | none => cases h
    | some v =>
      obtain ⟨q, hq, rfl⟩ := Option.map_eq_some_iff.mp h
      rw [List.length_cons, List.length_cons, ih hq]

/-! Factors. -/

/-- Bytes of an element of a factor of x (R293). -/
def Tensor.factorWidth (x : Tensor) : Nat := if x.bf16 then 2 else 4

/-- The bytes of a word in the factor format. -/
def factorBlock (bf : Bool) (v : Word) : List Byte := if bf then leBytes 2 (bf16 v) else leBytes 4 v.toNat

theorem length_factorBlock (x : Tensor) (v : Word) : (factorBlock x.bf16 v).length = x.factorWidth := by
  unfold factorBlock Tensor.factorWidth
  cases x.bf16 <;> exact leBytes_length ..

theorem factorBytes_eq (bf : Bool) (l : List Word) : State.factorBytes bf l = l.flatMap (factorBlock bf) := rfl

theorem length_factorBytes (x : Tensor) (l : List Word) : (State.factorBytes x.bf16 l).length = x.factorWidth * l.length :=
  length_flatMap_blocks (length_factorBlock x) l

theorem length_pPartial (s : State) (c : Nat) (x : Tensor) (first count : Nat) : (s.pPartial c x first count).length = x.factorWidth * count := by
  rw [State.pPartial, length_factorBytes, List.length_map, List.length_range]

theorem factor_setBytes (s : State) (x : Tensor) (a : Nat) {l : List Word} {e : Nat} {v : Word} (he : l[e]? = some v) :
    (s.setBytes a (State.factorBytes x.bf16 l)).factor x a e = if x.bf16 then bfRound v else v := by
  have hblock := bytes_setBytes_flatMap (length_factorBlock x) s a he
  rw [← factorBytes_eq, Tensor.factorWidth] at hblock
  unfold State.factor
  cases hx : x.bf16
  · rw [hx] at hblock
    exact (congrArg (fun b => BitVec.ofNat 32 (leNat b)) hblock).trans (ofNat_leNat_leBytes v)
  · rw [hx] at hblock
    have hround : ofBf16 (leNat (leBytes 2 (bf16 v))) = bfRound v := by
      rw [leNat_leBytes, bfRound, ofBf16, ofBf16, show (256 : Nat) ^ 2 = 2 ^ 16 from rfl, Nat.mod_mod]
    exact (congrArg (fun b => ofBf16 (leNat b)) hblock).trans hround

theorem factor_congr {u v : State} (h : v.byte = u.byte) (x : Tensor) (a i : Nat) : v.factor x a i = u.factor x a i := by
  rw [State.factor, State.factor, word_congr h, State.load, State.load, bytes_congr h]

theorem partAt_congr {u v : State} {c : Nat} (h : v.ctx c = u.ctx c) (x : Tensor) : v.partAt c x = u.partAt c x := by
  rw [State.partAt, State.partAt, h]

theorem pPartial_congr {u v : State} (h : v.data = u.data) (c : Nat) (x : Tensor) (first count : Nat) :
    v.pPartial c x first count = u.pPartial c x first count := by
  have hword : v.word = u.word := funext (word_congr (byte_of_data h))
  have hresid : v.withResid c x = u.withResid c x := funext fun e => by
    rw [State.withResid, State.withResid, hword, partAt_congr (ctx_of_data h c), ctx_of_data h c]
  rw [State.pPartial, State.pPartial, hresid, hword, ctx_of_data h c]

end Sys2Proof.Machine
end

section
/-! What the count of discarded headers leaves of the exchange (R281), and the work of a sum or a chunk while the exchange works. -/
namespace Sys2Proof.Machine

section
variable (s : State) (c : Nat) (l : List Nat)

theorem countHeads_eq : s.countHeads c l = { s with regs := (s.countHeads c l).regs } := by
  unfold State.countHeads State.bump State.put
  split <;> rfl

@[simp] theorem byte_countHeads : (s.countHeads c l).byte = s.byte := by
  rw [countHeads_eq]
  rfl

@[simp] theorem load_countHeads : (s.countHeads c l).load = s.load := by
  rw [countHeads_eq]
  rfl

@[simp] theorem word_countHeads : (s.countHeads c l).word = s.word := by
  rw [countHeads_eq]
  rfl

@[simp] theorem words_countHeads : (s.countHeads c l).words = s.words := by
  rw [countHeads_eq]
  rfl

@[simp] theorem factor_countHeads : (s.countHeads c l).factor = s.factor := by
  rw [countHeads_eq]
  rfl

@[simp] theorem ctx_countHeads : (s.countHeads c l).ctx = s.ctx := by
  rw [countHeads_eq]
  rfl

@[simp] theorem partAt_countHeads : (s.countHeads c l).partAt = s.partAt := by
  rw [countHeads_eq]
  rfl

@[simp] theorem heads_countHeads : (s.countHeads c l).heads = s.heads := by
  rw [countHeads_eq]
  rfl

@[simp] theorem aliveGroup_countHeads : (s.countHeads c l).aliveGroup = s.aliveGroup := by
  rw [countHeads_eq]
  rfl

@[simp] theorem ownerOf_countHeads : (s.countHeads c l).ownerOf = s.ownerOf := by
  rw [countHeads_eq]
  rfl

@[simp] theorem primaryOf_countHeads : (s.countHeads c l).primaryOf = s.primaryOf := by
  rw [countHeads_eq]
  rfl

@[simp] theorem checkersOf_countHeads : (s.countHeads c l).checkersOf = s.checkersOf := by
  rw [countHeads_eq]
  rfl

@[simp] theorem resultWords_countHeads : (s.countHeads c l).resultWords = s.resultWords := by
  rw [countHeads_eq]
  rfl

@[simp] theorem ownSum_countHeads : (s.countHeads c l).ownSum = s.ownSum := by
  rw [countHeads_eq]
  rfl

@[simp] theorem ownIdx_countHeads : (s.countHeads c l).ownIdx = s.ownIdx := by
  have hown : (s.countHeads c l).ownId = s.ownId := congrArg (fun v => v.2.2.1) (sendView_countHeads s c l)
  funext t
  rw [State.ownIdx, State.ownIdx, hown]

@[simp] theorem ownRows_countHeads : (s.countHeads c l).ownRows = s.ownRows := by
  funext d t x
  simp only [State.ownRows, State.rowsOf, ownerOf_countHeads, ownIdx_countHeads]

@[simp] theorem sumAt_countHeads : (s.countHeads c l).sumAt = s.sumAt := by
  have hpart : (s.countHeads c l).partOf = s.partOf := by
    rw [countHeads_eq]
    rfl
  funext d t hs k tensor w own e
  simp only [State.sumAt, aliveGroup_countHeads, ownIdx_countHeads, hpart]

@[simp] theorem countOf_countHeads : (s.countHeads c l).countOf = s.countOf := by
  funext d t hs k tensor
  simp only [State.countOf, aliveGroup_countHeads, ownIdx_countHeads, ctx_countHeads]

@[simp] theorem chunkDrawn_countHeads (k : Nat) : (s.countHeads c l).chunkDrawn c k = s.chunkDrawn c k := by
  have hstep : (s.countHeads c l).stepNo c = s.stepNo c := congrArg (fun v => v.2.2.2.2.1) (sendView_countHeads s c l)
  have hpol : (s.countHeads c l).pol 0x50 = s.pol 0x50 := by
    rw [countHeads_eq]
    rfl
  rw [State.chunkDrawn, State.chunkDrawn, hstep, hpol, ctx_countHeads]

@[simp] theorem vcOpen_countHeads : (s.countHeads c l).vcOpen = s.vcOpen := congrArg (fun v => v.2.1) (sendView_countHeads s c l)
end

/-! Work while the exchange works. -/

section
variable {s : State} {c : Nat} {t : Template} (h : Exchanging s c t) {x : Tensor}
include h

theorem Exchanging.vcOpen : s.vcOpen 2 = true := h.2.2.2

theorem Exchanging.idle_false : ¬ (s.exchanging c = false ∨ t.multi = false) := by
  obtain ⟨-, hmulti, hexch, -⟩ := h
  rw [hmulti, hexch]
  decide

theorem Exchanging.step : ∃ r, (s.ctx c).step = some r := by
  obtain ⟨-, -, hexch, -⟩ := h
  unfold State.exchanging at hexch
  cases hr : (s.ctx c).step with
  | some r => exact ⟨r, rfl⟩
  | none => simp [hr] at hexch

theorem Exchanging.stopped : (s.ctx c).exch.stopped = false := by
  obtain ⟨-, -, hexch, -⟩ := h
  simp only [State.exchanging, Bool.and_eq_true, Bool.not_eq_true'] at hexch
  exact hexch.2

theorem sumWork_eq {o : SumOp} (ho : o.ctx = c) (hx : t.tensor o.tensor = some x) (body : State → Template → Tensor → State) :
    s.sumWork o body = (body (s.countHeads c o.srcs) t x).sendCopies c t o.xfers := by
  subst ho
  unfold State.sumWork
  simp only [h.1, hx]
  exact if_neg h.idle_false

theorem chunkWork_eq {o : ChunkOp} (ho : o.ctx = c) (hx : t.tensor o.tensor = some x) (body : State → Template → Tensor → State) :
    s.chunkWork o body = body (s.countHeads c o.srcs) t x := by
  subst ho
  unfold State.chunkWork
  simp only [h.1, hx]
  exact if_neg h.idle_false
end

end Sys2Proof.Machine
end

section
/-! Sums as they are noted and reported (R285 to R287). -/
namespace Sys2Proof.Machine

/-- From u to v context c has reported: what was sent stays sent, and its sums and their samples stay as noted. -/
structure Reports (c : Nat) (u v : State) : Prop where
  adds : Adds u v
  summed : (v.ctx c).exch.summed = (u.ctx c).exch.summed
  nTot : (v.ctx c).step.map StepRun.nTot = (u.ctx c).step.map StepRun.nTot

section
variable {c : Nat}

theorem Reports.refl (u : State) : Reports c u u := ⟨.refl u, rfl, rfl⟩

theorem Reports.trans {u v w : State} (h : Reports c u v) (k : Reports c v w) : Reports c u w :=
  ⟨h.adds.trans k.adds, k.summed.trans h.summed, k.nTot.trans h.nTot⟩

theorem reports_of_ctx {u v : State} (hadds : Adds u v) (hctx : v.ctx c = u.ctx c) : Reports c u v := ⟨hadds, by rw [hctx], by rw [hctx]⟩

theorem reports_updExch {f : ExchSt → ExchSt} (hf : ∀ e, (f e).summed = e.summed) (u : State) : Reports c u (u.updExch c f) :=
  ⟨⟨List.prefix_rfl, List.prefix_rfl, List.prefix_rfl⟩, (congrArg ExchSt.summed (exch_updExch ..)).trans (hf _), by rw [step_updExch]⟩

theorem reports_updRun {u : State} {f : StepRun → StepRun} (hf : ∀ r, (u.ctx c).step = some r → (f r).nTot = r.nTot) :
    Reports c u (u.updRun c f) where
  adds := ⟨List.prefix_rfl, List.prefix_rfl, List.prefix_rfl⟩
  summed := congrArg ExchSt.summed (exch_updRun ..)
  nTot := by
    rw [ctx_updRun]
    cases hr : (u.ctx c).step with
    | none => rfl
    | some r => exact congrArg some (hf r hr)

theorem reports_sendRec (u : State) (type arg frame nonFinite : Nat) : Reports c u (u.sendRec c type arg frame nonFinite) :=
  reports_of_ctx (adds_sendRec ..) (ctx_sendRec ..)

theorem reports_sendAbandon (u : State) : Reports c u (u.sendAbandon c) := by
  unfold State.sendAbandon
  split
  · exact .refl u
  · refine (reports_sendRec u ..).trans (reports_updExch ?_ _)
    exact fun _ => rfl

theorem reports_confirmRange (u : State) (fails : List Nat) : Reports c u (u.confirmRange c fails) :=
  have h : Keeps 0x429042484 u (u.confirmRange c fails) := keeps_confirmRange (Keeps.refl _ u) rfl
  reports_of_ctx (adds_of_keeps h rfl) (ctx_congr (h.same .ctxs rfl) c)

theorem reports_combine (u : State) (t : Template) : Reports c u (u.combine c t) := by
  unfold State.combine
  extract_lets l
  split
  · exact .refl u
  · next r hr =>
    split
    · refine reports_updRun fun q hq => ?_
      obtain rfl : r = q := Option.some.inj (hr.symm.trans hq)
      rfl
    · exact .refl u

theorem reports_sendScalar (u : State) (t : Template) (losses : Option Nat) : Reports c u (u.sendScalar c t losses) := by
  unfold State.sendScalar
  split
  · exact .refl u
  · extract_lets invN amax fails v skip loss bad g w z
    split
    · refine (reports_updRun ?_).trans (reports_sendAbandon _)
      exact fun _ _ => rfl
    · have hv : Reports c u v := reports_confirmRange u fails
      have hw : Reports c v w := reports_updRun fun _ _ => rfl
      have hz : Reports c w z := reports_sendRec ..
      refine hv.trans (hw.trans (hz.trans ((reports_updExch ?_ z).trans (reports_combine _ t))))
      exact fun _ => rfl

theorem reports_sendCopies (u : State) (t : Template) (l : List Xfer) : Reports c u (u.sendCopies c t l) :=
  have h : SendsOnly State.data c u (u.sendCopies c t l) := sendsOnly_sendCopies ..
  reports_of_ctx h.adds (ctx_of_data h.kept c)

theorem byte_sendScalar (u : State) (t : Template) (losses : Option Nat) : (u.sendScalar c t losses).byte = u.byte :=
  funext ((keeps_sendScalar (Keeps.refl 0x42B842484 u) rfl).same .mem rfl)
end

/-! A sum as it is noted. -/

/-- From u to v the sum of a tensor of context c with n samples has been noted. -/
structure SumNoted (c tensor n : Nat) (u v : State) : Prop where
  adds : Adds u v
  byte : v.byte = u.byte
  summed : (v.ctx c).exch.summed = (u.ctx c).exch.summed ++ [tensor]
  step : ∃ q, (v.ctx c).step = some q ∧ q.nTot = n

theorem SumNoted.then {c tensor n : Nat} {u v w : State} (h : SumNoted c tensor n u v) (k : Reports c v w) (hbyte : w.byte = v.byte) :
    SumNoted c tensor n u w where
  adds := h.adds.trans k.adds
  byte := hbyte.trans h.byte
  summed := k.summed.trans h.summed
  step := by
    obtain ⟨q, hq, hn⟩ := h.step
    have hmap := k.nTot
    rw [hq] at hmap
    obtain ⟨p, hp, hpn⟩ := Option.map_eq_some_iff.mp hmap
    exact ⟨p, hp, hpn.trans hn⟩

theorem sumNoted_formedSum {u : State} {o : SumOp} {r : StepRun} (hr : (u.ctx o.ctx).step = some r) (t : Template) (n : Nat) :
    SumNoted o.ctx o.tensor n u (u.formedSum o t n) := by
  unfold State.formedSum
  extract_lets v
  have hexch : (v.ctx o.ctx).exch.summed = (u.ctx o.ctx).exch.summed ++ [o.tensor] :=
    (congrArg ExchSt.summed (exch_updRun ..)).trans (congrArg ExchSt.summed (exch_updExch ..))
  have hv : SumNoted o.ctx o.tensor n u v :=
    ⟨⟨List.prefix_rfl, List.prefix_rfl, List.prefix_rfl⟩, rfl, hexch, { r with nTot := n }, by rw [ctx_updRun, step_updExch, hr]; rfl, rfl⟩
  split
  · exact hv.then (reports_sendScalar ..) (byte_sendScalar ..)
  · exact hv

/-- With its check copies sent the sum stays as noted. -/
theorem sumNoted_sendCopies {u : State} {o : SumOp} {r : StepRun} (hr : (u.ctx o.ctx).step = some r) (t : Template) (n : Nat) (l : List Xfer) :
    SumNoted o.ctx o.tensor n u ((u.formedSum o t n).sendCopies o.ctx t l) :=
  (sumNoted_formedSum hr t n).then (reports_sendCopies ..) (byte_of_data (sendsOnly_sendCopies ..).kept)

end Sys2Proof.Machine
end

section
/-! The portions of a scatter (R284, R292, R296). -/
namespace Sys2Proof.Machine

theorem sendsOnly_setBytes (u : State) (a : Nat) (l : List Byte) (c : Nat) : SendsOnly (fun _ => ()) c u (u.setBytes a l) where
  view := sendView_setBytes ..
  adds := by
    rw [setBytes_eq]
    exact ⟨List.prefix_rfl, List.prefix_rfl, List.prefix_rfl⟩
  kept := rfl

theorem SendsOnly.unit {β : Type} {g : State → β} {c : Nat} {u v : State} (h : SendsOnly g c u v) : SendsOnly (fun _ => ()) c u v :=
  ⟨h.view, h.adds, rfl⟩

theorem SendsOnly.ownIdx {β : Type} {g : State → β} {c : Nat} {u v : State} (h : SendsOnly g c u v) (t : Template) : v.ownIdx t = u.ownIdx t := by
  have hown : v.ownId = u.ownId := congrArg (fun x => x.2.2.1) h.view
  rw [State.ownIdx, State.ownIdx, hown]

/-- The dense partial of a portion as it is sent (R284). -/
def State.scatterDense (s : State) (c : Nat) (t : Template) (n : Nat) (f : Xfer) : State :=
  match t.tensor f.tensor with
  | some x => s.sendPortion false c t f n (s.bytes (s.partAt c x + 4 * f.first) (4 * f.count))
  | none => s

/-- The P partial of a portion, computed in the state `m`, as it is stored and sent (R292). -/
def State.scatterP (m s : State) (c : Nat) (t : Template) (n : Nat) (f : Xfer) : State :=
  match t.tensor f.tensor with
  | some x =>
    let p := m.pPartial c x f.first f.count
    let u := s.setBytes (f.src + (if x.bf16 then 2 else 4) * f.first) p
    if f.member = u.ownIdx t then u else u.sendPortion false c t f n p
  | none => s

/-- The dense partials of a list as they are sent. -/
def State.scatterDenses (s : State) (c : Nat) (t : Template) (n : Nat) (l : List Xfer) : State :=
  (l.filter (fun f => decide (f.kind = 0))).foldl (fun u f => u.scatterDense c t n f) s

/-- The P partials of a list as they are stored and sent. -/
def State.scatterPs (s : State) (c : Nat) (t : Template) (n : Nat) (l : List Xfer) : State :=
  (l.filter (fun f => decide (f.kind = 1))).foldl (fun u f => s.scatterP u c t n f) s

theorem exec_exchScatter {s : State} {c : Nat} {t : Template} {r : StepRun} (h : Exchanging s c t) (hr : (s.ctx c).step = some r) (l : List Xfer) :
    exec (.exchScatter c l) s =
      .next (((s.scatterDenses c t r.samples.length l).scatterPs c t r.samples.length l).sendCopies c t l) := by
  show execExchScatter c l s = _
  unfold execExchScatter
  simp only [h.1, hr]
  rw [if_neg h.idle_false]
  rfl

section
variable {c : Nat} {t : Template} {n : Nat}

theorem sendsOnly_scatterDense (u : State) (f : Xfer) : SendsOnly State.data c u (u.scatterDense c t n f) := by
  unfold State.scatterDense
  split
  · exact sendsOnly_sendPortion ..
  · exact .refl u

theorem sendsOnly_scatterDenses (u : State) (l : List Xfer) : SendsOnly State.data c u (u.scatterDenses c t n l) :=
  SendsOnly.foldl (fun v f _ => sendsOnly_scatterDense v f) u

theorem sendsOnly_scatterP (m u : State) (f : Xfer) : SendsOnly (fun _ => ()) c u (m.scatterP u c t n f) := by
  unfold State.scatterP
  split
  · next x hx =>
    extract_lets p v
    have hv : SendsOnly (fun _ => ()) c u v := sendsOnly_setBytes ..
    split
    · exact hv
    · exact hv.trans (sendsOnly_sendPortion ..).unit
  · exact .refl u

theorem sendsOnly_scatterPs (u : State) (l : List Xfer) : SendsOnly (fun _ => ()) c u (u.scatterPs c t n l) :=
  SendsOnly.foldl (fun v f _ => sendsOnly_scatterP u v f) u

variable {s : State} {l : List Xfer} {f : Xfer} {x : Tensor} (hf : f ∈ l) (hx : t.tensor f.tensor = some x)

theorem scatterP_of_tensor (hx : t.tensor f.tensor = some x) (m u : State) : m.scatterP u c t n f =
    let p := m.pPartial c x f.first f.count
    let v := u.setBytes (f.src + (if x.bf16 then 2 else 4) * f.first) p
    if f.member = v.ownIdx t then v else v.sendPortion false c t f n p := by
  unfold State.scatterP
  simp only [hx]

include hf hx in
theorem portion_scatterDenses (hopen : s.vcOpen 2 = true) (hk : f.kind = 0) :
    Portion false c t f n (s.bytes (s.partAt c x + 4 * f.first) (4 * f.count)) s (s.scatterDenses c t n l) := by
  refine portion_foldl (g := State.data) (fun u y _ => sendsOnly_scatterDense u y) (List.mem_filter.mpr ⟨hf, decide_eq_true hk⟩) fun v hv => ?_
  unfold State.scatterDense
  simp only [hx]
  rw [← bytes_congr (byte_of_data hv.kept), ← partAt_congr (ctx_of_data hv.kept c)]
  exact portion_sendPortion (hv.vcOpen hopen) ..

include hf hx in
theorem portion_scatterPs (hopen : s.vcOpen 2 = true) (hk : f.kind = 1) (hmember : f.member ≠ s.ownIdx t) :
    Portion false c t f n (s.pPartial c x f.first f.count) s (s.scatterPs c t n l) := by
  refine portion_foldl (g := fun _ => ()) (fun u y _ => sendsOnly_scatterP s u y) (List.mem_filter.mpr ⟨hf, decide_eq_true hk⟩) fun v hv => ?_
  rw [scatterP_of_tensor hx]
  extract_lets p w
  have hw : SendsOnly (fun _ => ()) c v w := sendsOnly_setBytes ..
  rw [if_neg (by rwa [(hv.trans hw).ownIdx t])]
  exact (portion_sendPortion ((hv.trans hw).vcOpen hopen) ..).congr_left hw.view

include hx in
theorem bytes_scatterPs_singleton (hk : f.kind = 1) :
    (s.scatterPs c t n [f]).bytes (f.src + x.factorWidth * f.first) (x.factorWidth * f.count) = s.pPartial c x f.first f.count := by
  have hone : s.scatterPs c t n [f] = s.scatterP s c t n f := by
    unfold State.scatterPs
    rw [List.filter_singleton, decide_eq_true hk]
    rfl
  rw [hone, scatterP_of_tensor hx]
  extract_lets p v
  have hlength : p.length = x.factorWidth * f.count := length_pPartial ..
  have hv : v.bytes (f.src + x.factorWidth * f.first) (x.factorWidth * f.count) = p := hlength ▸ bytes_setBytes ..
  split
  · exact hv
  · exact (bytes_congr (byte_of_data (sendsOnly_sendPortion v ..).kept) ..).trans hv
end

/-- The portions and the stored partial of a scatter. -/
theorem exchScatter_sends {s : State} {c : Nat} {t : Template} {r : StepRun} (h : Exchanging s c t) (hr : (s.ctx c).step = some r) (l : List Xfer) :
    Completes (.exchScatter c l) s (fun z => ∀ f ∈ l, ∀ x, t.tensor f.tensor = some x →
      (f.kind = 0 → Portion false c t f r.samples.length (s.bytes (s.partAt c x + 4 * f.first) (4 * f.count)) s z) ∧
      (f.kind = 1 → (f.member ≠ s.ownIdx t → Portion false c t f r.samples.length (s.pPartial c x f.first f.count) s z) ∧
        (l = [f] → z.bytes (f.src + (if x.bf16 then 2 else 4) * f.first) ((if x.bf16 then 2 else 4) * f.count) = s.pPartial c x f.first f.count)) ∧
      (f.kind = 6 → Portion true c t f 0 (z.bytes f.src ((if x.bf16 ∧ x.rank ≠ 0 then 2 else 4) * f.count)) s z)) := by
  refine completes_of_exec (exec_exchScatter h hr l) fun f hf x hx => ?_
  generalize hu : s.scatterDenses c t r.samples.length l = u
  generalize hv : u.scatterPs c t r.samples.length l = v
  have hsu : SendsOnly State.data c s u := hu ▸ sendsOnly_scatterDenses ..
  have huv : SendsOnly (fun _ => ()) c u v := hv ▸ sendsOnly_scatterPs ..
  have hvz : SendsOnly State.data c v (v.sendCopies c t l) := sendsOnly_sendCopies ..
  have hpart : u.pPartial c x f.first f.count = s.pPartial c x f.first f.count := pPartial_congr hsu.kept ..
  refine ⟨fun hk => ?_, fun hk => ⟨fun hmember => ?_, fun hone => ?_⟩, fun hk => ?_⟩
  · exact (hu ▸ portion_scatterDenses hf hx h.vcOpen hk : Portion false c t f _ _ s u).mono (huv.adds.trans hvz.adds)
  · have hsent : Portion false c t f r.samples.length (u.pPartial c x f.first f.count) u v :=
      hv ▸ portion_scatterPs hf hx (hsu.vcOpen h.vcOpen) hk (by rwa [hsu.ownIdx t])
    rw [← hpart]
    exact (hsent.congr_left hsu.view).mono hvz.adds
  · subst hone
    rw [← hpart, bytes_congr (byte_of_data hvz.kept), ← hv]
    exact bytes_scatterPs_singleton hx hk
  · rw [bytes_congr (byte_of_data hvz.kept), ← copyWidth_of_tensor hx]
    exact (portion_sendCopies ((hsu.unit.trans huv).vcOpen h.vcOpen) hf hk).congr_left (hsu.unit.trans huv).view

end Sys2Proof.Machine
end

section
/-! The sums of the exchange (R285, R286, R292). -/
namespace Sys2Proof.Machine

section
variable {s : State} {o : SumOp} {t : Template} {x : Tensor} (h : Exchanging s o.ctx t) (hx : t.tensor o.tensor = some x)

theorem exec_sum (i : Instr) (body : State → Template → Tensor → State) (hexec : exec i s = .next (s.sumWork o body))
    (h : Exchanging s o.ctx t) (hx : t.tensor o.tensor = some x) :
    exec i s = .next ((body (s.countHeads o.ctx o.srcs) t x).sendCopies o.ctx t o.xfers) := by
  rw [hexec, sumWork_eq h rfl hx]

theorem ownerSum_eq {l : List Word}
    (hl : State.allSums ((x.elems (s.ownRows o.ctx t x)).map
      (s.sumAt o.ctx t (s.heads o.ctx o.srcs) 0 x.id 4 (fun e => s.word (s.partAt o.ctx x + 4 * e)))) = some l) :
    (s.countHeads o.ctx o.srcs).ownerSum o t x =
      ((s.countHeads o.ctx o.srcs).setElems x.sum ((x.elems (s.ownRows o.ctx t x)).zip l)).formedSum o t
        (s.countOf o.ctx t (s.heads o.ctx o.srcs) 0 x.id) := by
  unfold State.ownerSum
  simp only [heads_countHeads, ownRows_countHeads, sumAt_countHeads, countOf_countHeads, word_countHeads, partAt_countHeads, hl]
  rfl

include h hx in
theorem ownerSum_sums {l : List Word}
    (hl : State.allSums ((x.elems (s.ownRows o.ctx t x)).map
      (s.sumAt o.ctx t (s.heads o.ctx o.srcs) 0 x.id 4 (fun e => s.word (s.partAt o.ctx x + 4 * e)))) = some l) :
    Completes (.ownerSum o) s (fun z => ((z.ctx o.ctx).exch.summed = (s.ctx o.ctx).exch.summed ++ [o.tensor] ∧
        ∃ q, (z.ctx o.ctx).step = some q ∧ q.nTot = s.countOf o.ctx t (s.heads o.ctx o.srcs) 0 x.id) ∧
      ∀ (k e : Nat) (v : Word), (x.elems (s.ownRows o.ctx t x))[k]? = some e → l[k]? = some v → z.word (x.sum + 4 * e) = v) := by
  refine completes_of_exec (exec_sum (.ownerSum o) _ rfl h hx) ?_
  rw [ownerSum_eq hl]
  generalize hv : (s.countHeads o.ctx o.srcs).setElems x.sum ((x.elems (s.ownRows o.ctx t x)).zip l) = v
  have hctx : v.ctx = s.ctx := by
    rw [← hv, setElems_eq]
    exact ctx_countHeads s o.ctx o.srcs
  obtain ⟨r, hr⟩ := h.step
  have hnoted := sumNoted_sendCopies (u := v) (o := o) (by rw [hctx, hr]) t (s.countOf o.ctx t (s.heads o.ctx o.srcs) 0 x.id) o.xfers
  refine ⟨⟨by rw [hnoted.summed, hctx], hnoted.step⟩, fun k e w hk hw => ?_⟩
  have hlength : (x.elems (s.ownRows o.ctx t x)).length = l.length := by rw [length_of_allSums hl, List.length_map]
  have hmem : (e, w) ∈ (x.elems (s.ownRows o.ctx t x)).zip l :=
    List.mem_of_getElem? (i := k) (List.getElem?_zip_eq_some.mpr ⟨hk, hw⟩)
  rw [word_congr hnoted.byte, ← hv]
  refine word_setElems ?_ hmem _ _
  rw [List.map_fst_zip hlength.le]
  exact nodup_elems x (nodup_ownRows ..)

/-- Portions sent as they lie in the memory at the end. -/
theorem portion_of_sendKind {s v z : State} {c k w n : Nat} {l : List Xfer} {at_ : Xfer → Nat} {f : Xfer} (hview : v.sendView c = s.sendView c)
    (hopen : s.vcOpen 2 = true) (hadds : Adds (v.sendKind c t k w l n at_) z) (hbyte : z.byte = v.byte) (hf : f ∈ l) (hk : f.kind = k) :
    Portion false c t f n (z.bytes (at_ f) (w * f.count)) s z := by
  have hv : v.vcOpen 2 = true := (congrFun (congrArg (fun y => y.2.1) hview) 2).trans hopen
  rw [bytes_congr hbyte]
  exact ((portion_sendKind hv hf hk w n at_).congr_left hview).mono hadds

/-! The P sum. -/

/-- The orthonormalised P sum in the order of its elements. -/
def Tensor.pHat (x : Tensor) (l : List Word) : List Word :=
  (List.range (x.rows * x.rank)).map (fun e => ((orthonormalise (columns l x.rank)).getD (e % x.rank) []).getD (e / x.rank) 0)

/-- The state in which the P sum lies as formed, before it is sent. -/
def State.pSummed (s : State) (o : SumOp) (t : Template) (x : Tensor) (l : List Word) : State :=
  ((s.countHeads o.ctx o.srcs).setBytes x.phat (State.factorBytes x.bf16 (x.pHat l))).updRun o.ctx
    (fun r => { r with nTot := s.countOf o.ctx t (s.heads o.ctx o.srcs) 1 x.id })

theorem countOf_setBytes (s : State) (a : Nat) (l : List Byte) : (s.setBytes a l).countOf = s.countOf := by
  rw [setBytes_eq]
  rfl

theorem pSum_eq {l : List Word}
    (hl : State.allSums ((List.range (x.rows * x.rank)).map
      (s.sumAt o.ctx t (s.heads o.ctx o.srcs) 1 x.id (if x.bf16 then 2 else 4) (fun e => s.factor x o.own e))) = some l) :
    (s.countHeads o.ctx o.srcs).pSum o t x = (s.pSummed o t x l).sendKind o.ctx t 2 (if x.bf16 then 2 else 4) o.xfers 0
      (fun f => x.phat + (if x.bf16 then 2 else 4) * f.first) := by
  unfold State.pSum
  simp only [heads_countHeads, sumAt_countHeads, factor_countHeads, countOf_setBytes, countOf_countHeads, hl]
  rfl

theorem sendView_pSummed (l : List Word) : (s.pSummed o t x l).sendView o.ctx = s.sendView o.ctx := by
  unfold State.pSummed
  rw [sendView_updRun, sendView_setBytes, sendView_countHeads]
  exact fun _ => rfl

include h hx in
theorem thinPSum_sums {l : List Word} (hrank : x.rank ≠ 0) (howner : s.ownerOf o.ctx t x 0 = s.ownIdx t)
    (hl : State.allSums ((List.range (x.rows * x.rank)).map
      (s.sumAt o.ctx t (s.heads o.ctx o.srcs) 1 x.id (if x.bf16 then 2 else 4) (fun e => s.factor x o.own e))) = some l) :
    Completes (.thinPSum o) s (fun z =>
      (∃ q, (z.ctx o.ctx).step = some q ∧ q.nTot = s.countOf o.ctx t (s.heads o.ctx o.srcs) 1 x.id) ∧
      (∀ e < x.rows * x.rank, z.factor x x.phat e =
        (fun v => if x.bf16 then bfRound v else v) (((orthonormalise (columns l x.rank)).getD (e % x.rank) []).getD (e / x.rank) 0)) ∧
      ∀ f ∈ o.xfers, f.kind = 2 → Portion false o.ctx t f 0
        (z.bytes (x.phat + (if x.bf16 then 2 else 4) * f.first) ((if x.bf16 then 2 else 4) * f.count)) s z) := by
  refine completes_of_exec (exec_sum (.thinPSum o) _ rfl h hx) ?_
  simp only [ownerOf_countHeads, ownIdx_countHeads]
  rw [if_pos ⟨hrank, howner⟩, pSum_eq hl]
  generalize hv : (s.pSummed o t x l).sendKind o.ctx t 2 (if x.bf16 then 2 else 4) o.xfers 0
    (fun f => x.phat + (if x.bf16 then 2 else 4) * f.first) = v
  have hkind : SendsOnly State.data o.ctx (s.pSummed o t x l) v := hv ▸ sendsOnly_sendKind ..
  have hcopies := sendsOnly_sendCopies v o.ctx t o.xfers
  have hdata := (hkind.trans hcopies).kept
  obtain ⟨r, hr⟩ := h.step
  refine ⟨⟨{ r with nTot := s.countOf o.ctx t (s.heads o.ctx o.srcs) 1 x.id }, ?_, rfl⟩, fun e he => ?_, fun f hf hk => ?_⟩
  · have hbefore : ((s.countHeads o.ctx o.srcs).setBytes x.phat (State.factorBytes x.bf16 (x.pHat l))).ctx o.ctx = s.ctx o.ctx := by
      rw [setBytes_eq]
      exact congrFun (ctx_countHeads s o.ctx o.srcs) o.ctx
    rw [ctx_of_data hdata, State.pSummed, ctx_updRun, hbefore, hr]
    rfl
  · rw [factor_congr (byte_of_data hdata)]
    refine (factor_setBytes (s.countHeads o.ctx o.srcs) x x.phat (l := x.pHat l) (e := e) ?_ :)
    rw [Tensor.pHat, List.getElem?_map, List.getElem?_range he]
    rfl
  · exact portion_of_sendKind (at_ := fun f => x.phat + (if x.bf16 then 2 else 4) * f.first) (sendView_pSummed l) h.vcOpen
      (hv ▸ hcopies.adds) (byte_of_data hdata) hf hk

/-! The Q partial and the Q sum. -/

theorem qPartial_eq (u : State) (o : SumOp) (t : Template) (x : Tensor) : ∃ v : State, v.sendView o.ctx = u.sendView o.ctx ∧
    u.qPartial o t x = v.sendKind o.ctx t 3 (if x.bf16 then 2 else 4) o.xfers 0 (fun f => o.own + (if x.bf16 then 2 else 4) * f.first) :=
  ⟨_, by rw [setWords_eq_setBytes, sendView_setBytes, sendView_setBytes], rfl⟩

include h hx in
theorem thinQPartial_sends (hrank : x.rank ≠ 0) : Completes (.thinQPartial o) s (fun z => ∀ f ∈ o.xfers, f.kind = 3 →
    Portion false o.ctx t f 0 (z.bytes (o.own + (if x.bf16 then 2 else 4) * f.first) ((if x.bf16 then 2 else 4) * f.count)) s z) := by
  refine completes_of_exec (exec_sum (.thinQPartial o) _ rfl h hx) fun f hf hk => ?_
  rw [if_pos hrank]
  obtain ⟨v, hview, hv⟩ := qPartial_eq (s.countHeads o.ctx o.srcs) o t x
  generalize hu : (s.countHeads o.ctx o.srcs).qPartial o t x = u at hv
  have hkind : SendsOnly State.data o.ctx v u := hv ▸ sendsOnly_sendKind ..
  have hcopies := sendsOnly_sendCopies u o.ctx t o.xfers
  exact portion_of_sendKind (at_ := fun f => o.own + (if x.bf16 then 2 else 4) * f.first) (hview.trans (sendView_countHeads ..)) h.vcOpen
    (hv ▸ hcopies.adds) (byte_of_data (hkind.trans hcopies).kept) hf hk

/-- The state in which the Q sum lies as formed, before it is sent. -/
def State.qSummed (s : State) (o : SumOp) (x : Tensor) (l : List Word) : State :=
  (s.countHeads o.ctx o.srcs).setBytes x.qsum (State.factorBytes x.bf16 l)

theorem qSum_eq {l : List Word} (n : Nat)
    (hl : State.allSums ((List.range (x.cols * x.rank)).map
      (s.sumAt o.ctx t (s.heads o.ctx o.srcs) 3 x.id (if x.bf16 then 2 else 4) (fun e => s.factor x o.own e))) = some l) :
    (s.countHeads o.ctx o.srcs).qSum o t x n = ((s.qSummed o x l).sendKind o.ctx t 4 (if x.bf16 then 2 else 4) o.xfers 0
      (fun f => x.qsum + (if x.bf16 then 2 else 4) * f.first)).formedSum o t n := by
  unfold State.qSum
  simp only [heads_countHeads, sumAt_countHeads, factor_countHeads, hl]
  rfl

theorem ctx_qSummed (s : State) (o : SumOp) (x : Tensor) (l : List Word) : (s.qSummed o x l).ctx = s.ctx := by
  unfold State.qSummed
  rw [setBytes_eq]
  exact ctx_countHeads s o.ctx o.srcs

include h hx in
theorem thinQSum_sums {l : List Word} {r : StepRun} (hrank : x.rank ≠ 0) (howner : s.ownerOf o.ctx t x 0 = s.ownIdx t)
    (hr : (s.ctx o.ctx).step = some r)
    (hl : State.allSums ((List.range (x.cols * x.rank)).map
      (s.sumAt o.ctx t (s.heads o.ctx o.srcs) 3 x.id (if x.bf16 then 2 else 4) (fun e => s.factor x o.own e))) = some l) :
    Completes (.thinQSum o) s (fun z => ((z.ctx o.ctx).exch.summed = (s.ctx o.ctx).exch.summed ++ [o.tensor] ∧
        ∃ q, (z.ctx o.ctx).step = some q ∧ q.nTot = r.nTot) ∧
      z.bytes x.qsum (State.factorBytes x.bf16 l).length = State.factorBytes x.bf16 l ∧
      ∀ f ∈ o.xfers, f.kind = 4 → Portion false o.ctx t f 0
        (z.bytes (x.qsum + (if x.bf16 then 2 else 4) * f.first) ((if x.bf16 then 2 else 4) * f.count)) s z) := by
  refine completes_of_exec (exec_sum (.thinQSum o) _ rfl h hx) ?_
  simp only [ownerOf_countHeads, ownIdx_countHeads, ctx_countHeads, hr]
  rw [if_pos ⟨hrank, howner⟩, qSum_eq _ hl]
  generalize hv : (s.qSummed o x l).sendKind o.ctx t 4 (if x.bf16 then 2 else 4) o.xfers 0
    (fun f => x.qsum + (if x.bf16 then 2 else 4) * f.first) = v
  have hkind : SendsOnly State.data o.ctx (s.qSummed o x l) v := hv ▸ sendsOnly_sendKind ..
  have hctx : v.ctx o.ctx = s.ctx o.ctx := (ctx_of_data hkind.kept o.ctx).trans (congrFun (ctx_qSummed ..) o.ctx)
  have hnoted := sumNoted_sendCopies (u := v) (o := o) (by rw [hctx, hr]) t r.nTot o.xfers
  have hbyte := hnoted.byte.trans (byte_of_data hkind.kept)
  refine ⟨⟨by rw [hnoted.summed, hctx], hnoted.step⟩, ?_, fun f hf hk => ?_⟩
  · rw [bytes_congr hbyte]
    exact bytes_setBytes ..
  · exact portion_of_sendKind (at_ := fun f => x.qsum + (if x.bf16 then 2 else 4) * f.first)
      ((sendView_setBytes ..).trans (sendView_countHeads ..)) h.vcOpen (hv ▸ hnoted.adds) hbyte hf hk
end

end Sys2Proof.Machine
end

section
/-! Gathered masters (R288, R430). -/
namespace Sys2Proof.Machine

theorem applied_compareOwner (s : State) (c : Nat) (t : Template) (m : Nat) :
    ((s.compareOwner c t m).ctx c).exch.applied = (s.ctx c).exch.applied := by
  unfold State.compareOwner
  extract_lets e
  split
  · rfl
  · split
    · rfl
    next wd was u _ d _ _ =>
      extract_lets check v
      have hu : (u.ctx c).exch.applied = (s.ctx c).exch.applied := by
        unfold u
        rw [exch_updExch]
      have hv : (v.ctx c).exch.applied = (u.ctx c).exch.applied :=
        congrArg (fun x => x.exch.applied) (ctx_congr ((keeps_sendDigest (Keeps.refl 0x800000 u) rfl).same .ctxs rfl) c)
      have hdispute : ((v.dispute c v.frame).ctx c).exch.applied = (v.ctx c).exch.applied := by
        unfold State.dispute
        rw [exch_updExch]
        dsimp only
        rw [ctx_bump]
      split
      · exact hu
      · rw [exch_updExch]
        exact hdispute.trans (hv.trans hu)

theorem applied_tryVote (s : State) (c : Nat) (t : Template) : ((s.tryVote c t).ctx c).exch.applied = (s.ctx c).exch.applied := by
  unfold State.tryVote
  split
  · rfl
  · extract_lets e others
    split
    next u _ =>
      obtain ⟨r, hr⟩ := exists_ctx_countVotes u c t
      rw [hr]
      refine (congrArg ExchSt.applied (exch_updExch ..)).trans ?_
      rw [ctx_sendRec]
    · rfl

/-- Store the masters of a list of received portions in the free slots. -/
def State.applyMasters (s : State) (c : Nat) (t : Template) (l : List (Nat × XferHead)) : State :=
  l.foldl (fun u h => match t.tensor h.2.tensor with
    | some x => u.setWords ((u.ctx c).slot x.master true + 4 * h.2.first) (u.words (h.1 + 64) h.2.elements)
    | none => u) s

/-- Note an owner whose last masters have come: its rows are digested and compared, and the vote may go out (R289, R430). -/
def State.noteOwner (s : State) (o : GatherOp) (t : Template) : State :=
  if o.last ∧ (s.ctx o.ctx).exch.applied.contains o.owner = false then
    let d := s.ownerDigest o.ctx t o.owner true
    let u := s.updExch o.ctx (fun e => { e with applied := e.applied ++ [o.owner], adNew := tput e.adNew o.owner d })
    (u.compareOwner o.ctx t o.owner).tryVote o.ctx t
  else s

theorem exec_mastersApply {s : State} {o : GatherOp} {t : Template} (h : Exchanging s o.ctx t) :
    exec (.mastersApply o) s = .next (((s.countHeads o.ctx o.srcs).applyMasters o.ctx t
      ((s.heads o.ctx o.srcs).filter (fun h => decide (h.2.kind = 5 ∧ h.2.sender = o.owner)))).noteOwner o t) := by
  show execMastersApply o s = _
  unfold execMastersApply
  simp only [h.1]
  rw [if_neg h.idle_false]
  rfl

theorem ctx_setWords (s : State) (a : Nat) (l : List Word) : (s.setWords a l).ctx = s.ctx := by
  rw [setWords_eq_setBytes, setBytes_eq]
  rfl

theorem ctx_applyMasters (s : State) (c : Nat) (t : Template) (l : List (Nat × XferHead)) : (s.applyMasters c t l).ctx = s.ctx := by
  refine foldl_step (R := fun u v => v.ctx = u.ctx) (fun _ => rfl) (fun h k => k.trans h) l (fun u h _ => ?_) s
  split
  · exact ctx_setWords ..
  · rfl

theorem byte_noteOwner (s : State) (o : GatherOp) (t : Template) : (s.noteOwner o t).byte = s.byte := by
  unfold State.noteOwner
  split
  · extract_lets d u
    have hcompare := keeps_compareOwner (Keeps.refl 0x2802000 u) rfl (a1 := o.ctx) (a2 := t) (a3 := o.owner)
    have hvote := keeps_tryVote (Keeps.refl 0xC23842084 (u.compareOwner o.ctx t o.owner)) rfl (a1 := o.ctx) (a2 := t)
    exact (funext (hvote.same .mem rfl)).trans (funext (hcompare.same .mem rfl))
  · rfl

theorem applied_noteOwner {s : State} {o : GatherOp} (hlast : o.last = true) (hnew : o.owner ∉ (s.ctx o.ctx).exch.applied) (t : Template) :
    ((s.noteOwner o t).ctx o.ctx).exch.applied = (s.ctx o.ctx).exch.applied ++ [o.owner] := by
  unfold State.noteOwner
  rw [if_pos ⟨hlast, Bool.eq_false_iff.mpr (hnew ∘ List.contains_iff_mem.mp)⟩]
  extract_lets d u
  rw [applied_tryVote, applied_compareOwner, exch_updExch]

section
variable {s : State} {o : GatherOp} {t : Template} (h : Exchanging s o.ctx t)
include h

theorem mastersApply_lands {a : Nat} {p : XferHead} {x : Tensor}
    (hone : (s.heads o.ctx o.srcs).filter (fun h => decide (h.2.kind = 5 ∧ h.2.sender = o.owner)) = [(a, p)])
    (hx : t.tensor p.tensor = some x) : Completes (.mastersApply o) s (fun z =>
      z.words ((s.ctx o.ctx).slot x.master true + 4 * p.first) p.elements = s.words (a + 64) p.elements) := by
  refine completes_of_exec (exec_mastersApply h) ?_
  rw [hone, words_congr (byte_noteOwner ..)]
  have hland : (s.countHeads o.ctx o.srcs).applyMasters o.ctx t [(a, p)] =
      (s.countHeads o.ctx o.srcs).setWords ((s.ctx o.ctx).slot x.master true + 4 * p.first) (s.words (a + 64) p.elements) := by
    simp only [State.applyMasters, List.foldl_cons, List.foldl_nil, hx, ctx_countHeads, words_countHeads]
  have hlength : (s.words (a + 64) p.elements).length = p.elements := by rw [State.words, List.length_map, List.length_range]
  rw [hland]
  have hwords := words_setWords (s.countHeads o.ctx o.srcs) ((s.ctx o.ctx).slot x.master true + 4 * p.first) (s.words (a + 64) p.elements)
  rwa [hlength] at hwords

theorem mastersApply_notes (hlast : o.last = true) (hnew : o.owner ∉ (s.ctx o.ctx).exch.applied) :
    Completes (.mastersApply o) s (fun z => (z.ctx o.ctx).exch.applied = (s.ctx o.ctx).exch.applied ++ [o.owner]) := by
  refine completes_of_exec (exec_mastersApply h) ?_
  have hctx := (ctx_applyMasters (s.countHeads o.ctx o.srcs) o.ctx t
    ((s.heads o.ctx o.srcs).filter (fun h => decide (h.2.kind = 5 ∧ h.2.sender = o.owner)))).trans (ctx_countHeads s o.ctx o.srcs)
  rw [applied_noteOwner hlast (by rwa [hctx]), hctx]
end

end Sys2Proof.Machine
end

section
/-! The dual-path check (R295 to R297). -/
namespace Sys2Proof.Machine

section
variable {s : State} {o : ChunkOp} {t : Template} (h : Exchanging s o.ctx t) {x : Tensor} (hx : t.tensor o.tensor = some x)

theorem exec_chunk (i : Instr) (body : State → Template → Tensor → State) (hexec : exec i s = .next (s.chunkWork o body))
    (h : Exchanging s o.ctx t) (hx : t.tensor o.tensor = some x) : exec i s = .next (body (s.countHeads o.ctx o.srcs) t x) := by
  rw [hexec, chunkWork_eq h rfl hx]

/-- Bytes of an element of the checked sum (R293). -/
def chunkWidth (o : ChunkOp) (x : Tensor) : Nat := if o.sum ≠ 0 ∧ x.bf16 then 2 else 4

/-- The own part of an element of the chunk. -/
def State.chunkOwn (s : State) (o : ChunkOp) (x : Tensor) (e : Nat) : Word :=
  if chunkWidth o x = 2 then ofBf16 (s.load (o.own + 2 * (e - o.first)) 2) else s.word (o.own + 4 * (e - o.first))

/-- The sums of the elements of the chunk, none while one is missing. -/
def State.chunkSums (s : State) (o : ChunkOp) (t : Template) (x : Tensor) : Option (List Word) :=
  State.allSums ((List.range o.count).map
    (fun i => s.sumAt o.ctx t (s.heads o.ctx o.srcs) 6 x.id (chunkWidth o x) (s.chunkOwn o x) (o.first + i)))

theorem chunkSums_countHeads (c : Nat) (l : List Nat) : (s.countHeads c l).chunkSums o t x = s.chunkSums o t x := by
  have hown : (s.countHeads c l).chunkOwn o x = s.chunkOwn o x := by
    funext e
    rw [State.chunkOwn, State.chunkOwn, load_countHeads, word_countHeads]
  simp only [State.chunkSums, heads_countHeads, sumAt_countHeads, hown]

theorem sumCopies_eq (u : State) {l : List Word} (hl : u.chunkSums o t x = some l) (copy : Bool) : u.sumCopies copy o t x =
    (o.xfers.filter (fun f => decide (f.kind = 7))).foldl
      (fun v f => v.sendPortion copy o.ctx t f 0 (l.flatMap (fun v => leBytes 4 v.toNat))) u := by
  unfold State.sumCopies
  extract_lets hs w own
  have hsums : State.allSums ((List.range o.count).map (fun i => u.sumAt o.ctx t hs 6 x.id w own (o.first + i))) = some l := hl
  rw [hsums]

theorem portion_sumCopies (hopen : s.vcOpen 2 = true) {l : List Word} (hl : s.chunkSums o t x = some l) (copy : Bool) {f : Xfer} (hf : f ∈ o.xfers)
    (hk : f.kind = 7) :
    Portion copy o.ctx t f 0 (l.flatMap (fun v => leBytes 4 v.toNat)) s ((s.countHeads o.ctx o.srcs).sumCopies copy o t x) := by
  rw [sumCopies_eq _ ((chunkSums_countHeads ..).trans hl)]
  refine (portion_foldl (g := State.data) (fun u y _ => sendsOnly_sendPortion u ..) (List.mem_filter.mpr ⟨hf, decide_eq_true hk⟩)
    fun v hv => ?_).congr_left (sendView_countHeads ..)
  exact portion_sendPortion (hv.vcOpen (by rw [vcOpen_countHeads, hopen])) ..

include h hx

theorem checkCopySum_sends {l : List Word} (hl : s.chunkSums o t x = some l)
    (hchecker : (s.checkersOf o.ctx t (s.primaryOf o.ctx t x o) o.chunk).1 = s.ownIdx t)
    (hdrawn : s.chunkDrawn o.ctx o.chunk = true ∨ 0 < (s.ctx o.ctx).exch.attempt) :
    Completes (.checkCopySum o) s (fun z => ∀ f ∈ o.xfers, f.kind = 7 →
      Portion true o.ctx t f 0 (l.flatMap (fun v => leBytes 4 v.toNat)) s z) := by
  refine completes_of_exec (exec_chunk (.checkCopySum o) _ rfl h hx) fun f hf hk => ?_
  simp only [checkersOf_countHeads, primaryOf_countHeads, ownIdx_countHeads, chunkDrawn_countHeads, ctx_countHeads]
  rw [if_pos ⟨hchecker, hdrawn⟩]
  exact portion_sumCopies h.vcOpen hl true hf hk

theorem refereeSum_sends {l : List Word} (hl : s.chunkSums o t x = some l)
    (hreferee : (s.checkersOf o.ctx t (s.primaryOf o.ctx t x o) o.chunk).2 = s.ownIdx t) :
    Completes (.refereeSum o) s (fun z => ∀ f ∈ o.xfers, f.kind = 7 →
      Portion false o.ctx t f 0 (l.flatMap (fun v => leBytes 4 v.toNat)) s z) := by
  refine completes_of_exec (exec_chunk (.refereeSum o) _ rfl h hx) fun f hf hk => ?_
  simp only [checkersOf_countHeads, primaryOf_countHeads, ownIdx_countHeads]
  rw [if_pos hreferee]
  exact portion_sumCopies h.vcOpen hl false hf hk
end

/-! The comparison at the primary. -/

/-- A comparison that disagrees: it is counted and shown, and the chunk goes to the referee (R297). -/
def State.toReferee (s : State) (o : ChunkOp) : State :=
  let u := ((s.bump F.EXCH_CHK_MISMATCH o.ctx 1).raise F.EXCH_EVT_MISMATCH o.ctx).eventOpen 0x0505 6 o.ctx
  (u.sendRec o.ctx 7 o.chunk 0 0).updExch o.ctx (fun e => { e with refereed := e.refereed ++ [o.chunk] })

/-- The state in which a comparison has been counted. -/
def State.checkCounted (s : State) (o : ChunkOp) : State := (s.countHeads o.ctx o.srcs).bump F.EXCH_CHK_CHECKED o.ctx 1

section
variable {s : State} {o : ChunkOp} {t : Template}

theorem exec_checkCompare (h : Exchanging s o.ctx t) {x : Tensor} (hx : t.tensor o.tensor = some x) {l : List Word}
    (hl : s.resultWords o (o.srcs.headD 0) = some l) (hprimary : s.primaryOf o.ctx t x o = s.ownIdx t) :
    exec (.checkCompare o) s = .next (if l = s.ownSum o then s.checkCounted o else (s.checkCounted o).toReferee o) := by
  rw [exec_chunk (.checkCompare o) _ rfl h hx]
  have hown : ((s.countHeads o.ctx o.srcs).bump F.EXCH_CHK_CHECKED o.ctx 1).ownSum o = (s.countHeads o.ctx o.srcs).ownSum o := by
    unfold State.ownSum
    exact words_congr (funext fun b => byte_put (s.countHeads o.ctx o.srcs) ..) ..
  simp only [resultWords_countHeads, hl, primaryOf_countHeads, ownIdx_countHeads, hown, ownSum_countHeads]
  rw [if_neg (not_not.mpr hprimary)]
  rfl

theorem advanced_checkCounted (hc : o.ctx < 1024) : Advanced F.EXCH_CHK_CHECKED o.ctx 1 s (s.checkCounted o) :=
  (advanced_bump rfl hc 1 _).congr_left (get_bump_otherWord s (by decide) ..)

theorem ctx_checkCounted (s : State) (o : ChunkOp) (c : Nat) : (s.checkCounted o).ctx c = s.ctx c :=
  (ctx_bump ..).trans (congrFun (ctx_countHeads ..) c)

theorem get_toReferee {g : Fld} (hg : 0x300000 ≤ g.base) (s : State) (o : ChunkOp) :
    (s.toReferee o).get g o.ctx = ((s.bump F.EXCH_CHK_MISMATCH o.ctx 1).raise F.EXCH_EVT_MISMATCH o.ctx).get g o.ctx := by
  unfold State.toReferee
  extract_lets u
  have hu : u.get g o.ctx = _ := get_eventOpen (ctxWord_notMem_eventWords hg o.ctx) ..
  clear_value u
  rw [← hu]
  exact get_congr (regs_sendRec u ..) g o.ctx

theorem toReferee_leaves (hc : o.ctx < 1024) :
    (s.toReferee o).get F.EXCH_CHK_CHECKED o.ctx = s.get F.EXCH_CHK_CHECKED o.ctx ∧
    Advanced F.EXCH_CHK_MISMATCH o.ctx 1 s (s.toReferee o) ∧ (s.toReferee o).get F.EXCH_EVT_MISMATCH o.ctx = 1 ∧
    ((s.toReferee o).ctx o.ctx).exch.refereed = (s.ctx o.ctx).exch.refereed ++ [o.chunk] := by
  refine ⟨?_, ?_, ?_, ?_⟩
  · rw [get_toReferee (by decide), get_raise_otherWord _ (by decide)]
    exact get_put_apart s rfl rfl rfl ..
  · exact (advanced_bump rfl hc 1 s).of_get_eq ((get_toReferee (by decide) ..).trans (get_raise_otherWord _ (by decide) _))
  · rw [get_toReferee (by decide), get_raise]
    exact get_put_same _ rfl hc 1
  · unfold State.toReferee
    extract_lets u
    have hu : u.ctx o.ctx = s.ctx o.ctx :=
      (ctx_congr ((keeps_eventOpen (Keeps.refl 0xC21000084 _) rfl).same .ctxs rfl) _).trans ((ctx_raise ..).trans (ctx_bump ..))
    rw [exch_updExch, ctx_sendRec, hu]

theorem checkCompare_compares (hc : o.ctx < 1024) (h : Exchanging s o.ctx t) {x : Tensor} (hx : t.tensor o.tensor = some x) {l : List Word}
    (hl : s.resultWords o (o.srcs.headD 0) = some l) (hprimary : s.primaryOf o.ctx t x o = s.ownIdx t) :
    Completes (.checkCompare o) s (fun z => Advanced F.EXCH_CHK_CHECKED o.ctx 1 s z ∧
      (l = s.ownSum o → (z.ctx o.ctx).exch = (s.ctx o.ctx).exch) ∧
      (l ≠ s.ownSum o → Advanced F.EXCH_CHK_MISMATCH o.ctx 1 s z ∧ z.get F.EXCH_EVT_MISMATCH o.ctx = 1 ∧
        (z.ctx o.ctx).exch.refereed = (s.ctx o.ctx).exch.refereed ++ [o.chunk])) := by
  refine completes_of_exec (exec_checkCompare h hx hl hprimary) ?_
  by_cases hsame : l = s.ownSum o
  · rw [if_pos hsame]
    exact ⟨advanced_checkCounted hc, fun _ => by rw [ctx_checkCounted], fun hdiff => absurd hsame hdiff⟩
  · rw [if_neg hsame]
    obtain ⟨hchecked, hmismatch, hevent, hrefereed⟩ := toReferee_leaves (s := s.checkCounted o) hc
    have hbefore : (s.checkCounted o).get F.EXCH_CHK_MISMATCH o.ctx = s.get F.EXCH_CHK_MISMATCH o.ctx :=
      (get_put_apart _ rfl rfl rfl ..).trans (get_bump_otherWord s (by decide) ..)
    exact ⟨(advanced_checkCounted hc).of_get_eq hchecked, fun hsum => absurd hsum hsame,
      fun _ => ⟨hmismatch.congr_left hbefore, hevent, by rw [hrefereed, ctx_checkCounted]⟩⟩
end

/-! The referee's decision. -/

theorem stopped_sendAbandon (s : State) (c : Nat) : ((s.sendAbandon c).ctx c).exch.stopped = true := by
  unfold State.sendAbandon
  split
  · next h => exact h
  · rw [exch_updExch]

theorem refereed_sendAbandon (s : State) (c : Nat) : ((s.sendAbandon c).ctx c).exch.refereed = (s.ctx c).exch.refereed := by
  unfold State.sendAbandon
  split
  · rfl
  · rw [exch_updExch, ctx_sendRec]

theorem ctx_observeCores (s : State) (o : ChunkOp) (c : Nat) : (s.observeCores o).ctx c = s.ctx c :=
  ctx_congr ((keeps_observeCores (Keeps.refl 0x429000484 s) rfl).same .ctxs rfl) c

/-- The chunk is taken from those at the referee. -/
def State.decided (s : State) (o : ChunkOp) : State :=
  s.updExch o.ctx (fun e => { e with refereed := e.refereed.filter (fun k => decide (k ≠ o.chunk)) })

section
variable (s : State) (o : ChunkOp) (check ref : List Word)

theorem decideChunk_eq : s.decideChunk o check ref = if ref = s.ownSum o then s.decided o else if ref = check then
    if o.sum = 0 then ((s.decided o).observeCores o).setWords o.own ref else ((s.decided o).observeCores o).sendAbandon o.ctx
    else ((s.decided o).observeCores o).sendAbandon o.ctx := rfl

theorem refereed_decideChunk : ((s.decideChunk o check ref).ctx o.ctx).exch.refereed = ((s.decided o).ctx o.ctx).exch.refereed := by
  have hobserve : (((s.decided o).observeCores o).ctx o.ctx).exch.refereed = ((s.decided o).ctx o.ctx).exch.refereed := by rw [ctx_observeCores]
  have habandon := (refereed_sendAbandon ((s.decided o).observeCores o) o.ctx).trans hobserve
  rw [decideChunk_eq]
  split
  · rfl
  · split
    · split
      · rw [ctx_setWords]
        exact hobserve
      · exact habandon
    · exact habandon

theorem notMem_refereed_decideChunk : o.chunk ∉ ((s.decideChunk o check ref).ctx o.ctx).exch.refereed := by
  rw [refereed_decideChunk, State.decided, exch_updExch]
  simp
end

theorem resultWords_length {s : State} {o : ChunkOp} {a : Nat} {l : List Word} (h : s.resultWords o a = some l) : l.length = o.count := by
  unfold State.resultWords at h
  split at h
  · split at h
    · cases h
      rw [State.words, List.length_map, List.length_range]
    · cases h
  · cases h

theorem exec_refereeDecision {s : State} {o : ChunkOp} {t : Template} {x : Tensor} {check ref : List Word} (h : Exchanging s o.ctx t)
    (hx : t.tensor o.tensor = some x) (hcheck : s.resultWords o (o.srcs.headD 0) = some check)
    (href : s.resultWords o (o.srcs.getD 1 0) = some ref) (hrefereed : o.chunk ∈ (s.ctx o.ctx).exch.refereed) :
    exec (.refereeDecision o) s = .next ((s.countHeads o.ctx o.srcs).decideChunk o check ref) := by
  rw [exec_chunk (.refereeDecision o) _ rfl h hx]
  simp only [resultWords_countHeads, hcheck, href, ctx_countHeads]
  rw [if_pos (List.contains_iff_mem.mpr hrefereed)]

theorem refereeDecision_decides {s : State} {o : ChunkOp} {t : Template} {x : Tensor} {check ref : List Word} (h : Exchanging s o.ctx t)
    (hx : t.tensor o.tensor = some x) (hcheck : s.resultWords o (o.srcs.headD 0) = some check)
    (href : s.resultWords o (o.srcs.getD 1 0) = some ref) (hrefereed : o.chunk ∈ (s.ctx o.ctx).exch.refereed) :
    Completes (.refereeDecision o) s (fun z => o.chunk ∉ (z.ctx o.ctx).exch.refereed ∧
      (ref = s.ownSum o → ∀ b, z.byte b = s.byte b) ∧
      (ref ≠ s.ownSum o → ref = check → o.sum = 0 → z.ownSum o = ref) ∧
      (ref ≠ s.ownSum o → ref ≠ check ∨ o.sum ≠ 0 → (z.ctx o.ctx).exch.stopped = true)) := by
  refine completes_of_exec (exec_refereeDecision h hx hcheck href hrefereed) ⟨notMem_refereed_decideChunk (s.countHeads o.ctx o.srcs) o check ref, ?_⟩
  rw [decideChunk_eq, ownSum_countHeads]
  by_cases hsame : ref = s.ownSum o
  · rw [if_pos hsame]
    exact ⟨fun _ => congrFun (byte_countHeads s o.ctx o.srcs), fun hdiff => absurd hsame hdiff, fun hdiff => absurd hsame hdiff⟩
  rw [if_neg hsame]
  refine ⟨fun heq => absurd heq hsame, fun _ hagree hsum => ?_, fun _ hother => ?_⟩
  · rw [if_pos hagree, if_pos hsum, State.ownSum, ← resultWords_length href]
    exact words_setWords ..
  · by_cases hagree : ref = check
    · rw [if_pos hagree, if_neg (hother.resolve_left (not_not.mpr hagree))]
      exact stopped_sendAbandon ..
    · rw [if_neg hagree]
      exact stopped_sendAbandon ..

/-! The parts that go to the referee. -/

/-- The own part of a copy as it is sent to the referee (R297). -/
def State.sendPart (s : State) (c : Nat) (t : Template) (f : Xfer) : State :=
  s.sendPortion false c t f 0 (s.bytes f.src (copyWidth t f * f.count))

theorem takeRereduce_eq {s : State} {c : Nat} {t : Template} {o : StepRec} (htemplate : s.template c = some t) (hctx : o.head.ctx = c)
    (hopen : s.vcOpen o.head.vc = true) (hcurrent : s.current c (o.step % 2 ^ 48) o.attempt = true) (l : List Xfer) :
    s.takeRereduce o l = (l.filter (fun f => decide (f.kind = 6 ∧ f.chunk = o.arg))).foldl (fun u f => u.sendPart c t f) s := by
  unfold State.takeRereduce
  rw [withRec_current htemplate hctx hopen hcurrent]
  subst hctx
  rfl

theorem rereduce_sends {s : State} {c : Nat} {t : Template} {o : StepRec} (h : Exchanging s c t) (hctx : o.head.ctx = c)
    (hopen : s.vcOpen o.head.vc = true) (hcurrent : s.current c (o.step % 2 ^ 48) o.attempt = true) (l : List Xfer) :
    Completes (.rereduce o l) s (fun z => ∀ f ∈ l, f.kind = 6 → f.chunk = o.arg → ∀ x, t.tensor f.tensor = some x →
      Portion false c t f 0 (s.bytes f.src ((if x.bf16 ∧ x.rank ≠ 0 then 2 else 4) * f.count)) s z) := by
  have hexec : exec (.rereduce o l) s = .next (s.takeRereduce o l) := rfl
  refine completes_of_exec hexec fun f hf hk hchunk x hx => ?_
  rw [takeRereduce_eq h.1 hctx hopen hcurrent, ← copyWidth_of_tensor hx]
  refine portion_foldl (g := State.data) (fun u y _ => sendsOnly_sendPortion u ..)
    (List.mem_filter.mpr ⟨hf, decide_eq_true ⟨hk, hchunk⟩⟩) fun v hv => ?_
  rw [State.sendPart, bytes_congr (byte_of_data hv.kept)]
  exact portion_sendPortion (hv.vcOpen h.vcOpen) ..

/-- Settles O54: each kind of work by the theorem about it. -/
theorem exchangeWork : Obligations.ExchangeWork := by
  unfold Obligations.ExchangeWork
  intro s c t hc h
  refine ⟨fun l r hr => exchScatter_sends h hr l, fun o x hctx hx => ?_, fun o hctx => ?_, fun o x hctx hx => ?_,
    fun o l hctx hopen hcurrent => rereduce_sends h hctx hopen hcurrent l⟩
  · subst hctx
    exact ⟨fun l hl => ownerSum_sums h hx hl, fun l hrank howner hl => thinPSum_sums h hx hrank howner hl,
      fun hrank => thinQPartial_sends h hx hrank, fun l r hrank howner hr hl => thinQSum_sums h hx hrank howner hr hl⟩
  · subst hctx
    exact ⟨fun a p x hone hx => mastersApply_lands h hone hx, mastersApply_notes h⟩
  · subst hctx
    exact ⟨fun l hl => ⟨checkCopySum_sends h hx hl, refereeSum_sends h hx hl⟩, fun l hl hprimary => checkCompare_compares hc h hx hl hprimary,
      fun check ref hcheck href hrefereed => refereeDecision_decides h hx hcheck href hrefereed⟩

end Sys2Proof.Machine
end

section
/-! A restore on a module that does not hold the tick (R48, R76, R457). -/
namespace Sys2Proof.Machine

/-- Without a part in VC 2 a module sends no portion, and no signal or byte of one waits for the commit window (R76). -/
theorem sendPortion_of_closed {s : State} (hclosed : s.vcOpen 2 = false) (copy : Bool) (c : Nat) (t : Template) (f : Xfer) (n : Nat)
    (data : List Byte) : s.sendPortion copy c t f n data = s := if_pos hclosed

/-- Such a module sends no masters of a restore either. -/
theorem gatherRestored_of_closed {s : State} (hclosed : s.vcOpen 2 = false) (t : Template) {o : RestoreOp} (hnone : o.gathered = [])
    (hmore : o.last = false) : s.gatherRestored t o = s := by
  unfold State.gatherRestored
  extract_lets c u v
  have hu : u = s := by
    refine List.foldl_fixed' (fun f => ?_) _
    split
    · exact sendPortion_of_closed hclosed _ _ _ _ _ _
    · rfl
  have hv : v = s := by
    unfold v
    rw [hnone]
    exact hu
  rw [hmore]
  exact hv

/-- Masters of two rows of two, of which each of two modules owns one. -/
def gatheredTensor : Tensor where
  id := 0
  layer := 0
  weights := true
  rows := 2
  cols := 2
  index := 0
  lambda := 0
  rank := 0
  bf16 := false
  owners := [(0, 0), (1, 1)]
  slices := []
  part := ⟨0, 0x1000, 0x1100, 16⟩
  sum := 0x1200
  phat := 0
  qsum := 0
  master := ⟨1, 0x1300, 0x1400, 16⟩
  m := ⟨2, 0x1500, 0x1600, 16⟩
  v := ⟨3, 0x1700, 0x1800, 16⟩
  resid := ⟨4, 0, 0, 0⟩
  qp := ⟨5, 0, 0, 0⟩

/-- A template of two modules with that tensor. -/
def gatheringTemplate : Template where
  index := 0
  digitalOnly := true
  masterBwd := true
  clip := false
  bf16Moments := false
  hbxPolicy := 0
  adamw := true
  skipLimit := 4
  stepSamples := 1
  stepWait := 10
  weight := 1
  mbSamples := 1
  hbxSize := 0
  logSize := 64
  intakeSlots := 4
  queryBuf := 0
  lMax := 0
  exportPeriod := 100
  exportSession := 0
  noiseGain := 0
  package := false
  spillModule := 0
  spillBase := 0
  spillSize := 0
  seedKey := 0
  cores := []
  batts := []
  inBytes := 4
  outBytes := 4
  targetBytes := 4
  ioStack := 0
  crossings := 0
  crossFlits := 0
  allotment := 0
  layers := []
  dropList := []
  schedule := []
  beta1 := 0
  beta2 := 0
  omb1 := 0
  omb2 := 0
  eps := 0
  mu := 0
  clipNorm := 0
  members := [0, 1]
  ownIndex := 0
  exchFmt := 0
  regions := []
  intakeBase := 0
  logBase := 0
  group := [0, 1]
  tensors := [gatheredTensor]
  cards := []
  maps := []
  phases := []
  losses := []
  epsR := 0

/-- A restore whose masters are awaited (stage 4 of R457). -/
def gatheringLoad : LoadRun :=
  { request := none, restore := true, source := 1, stage := 4, begun := 0, set_ := none, members := [(0, 0), (1, 0)], votes := [], init2 := false,
    pkg := none }

/-- The module in service without the tick, context 0 LOADING with that restore. -/
def gatheringUnaligned : State :=
  let s : State := { State.reset with img := { ImageSt.empty with
    accepted := { Image.empty with modules := 2, contexts := [(0, ⟨some 0, 1⟩)], templates := [gatheringTemplate] } } }
  (((s.put F.DEV_STATE_PHASE 0 1).put F.LNK_TICK_UNALIGNED 0 1).put F.CTX_STATE_STATE 0 1).updCtx 0 (fun x => { x with loading := some gatheringLoad })

/-- The own master row, for the other module. -/
def masterRow : Xfer := { kind := 5, tensor := 0, first := 0, count := 2, member := 1, addr := 0x2000, core := 0, ctr := 0, src := 0, chunk := 0 }

/-- Work of the restore that sends it. -/
def sendMasterRow : RestoreOp :=
  { ctx := 0, given := none, found := true, digests := true, model := false, xfers := [masterRow], gathered := [], last := false }

theorem exec_sendMasterRow : exec (.restore sendMasterRow) gatheringUnaligned = .next gatheringUnaligned := by
  have hclosed : gatheringUnaligned.vcOpen 2 = false := by decide
  have hgather : exec (.restore sendMasterRow) gatheringUnaligned =
      .next (gatheringUnaligned.gatherRestored gatheringTemplate sendMasterRow) := rfl
  rw [hgather, gatherRestored_of_closed hclosed gatheringTemplate rfl rfl]

/-- Refutes O58: its clause on stage 4 has the portions of masters leave from every module, and one that does not hold the tick sends none on
VC 2 (R76). -/
theorem not_restores : ¬ Obligations.Restores := by
  unfold Obligations.Restores
  intro h
  obtain ⟨hload, -⟩ := h gatheringUnaligned 0 gatheringTemplate (by decide) rfl
  obtain ⟨hrestore, -⟩ := hload gatheringLoad rfl
  obtain ⟨-, -, -, hgather⟩ := hrestore sendMasterRow rfl (by decide) rfl
  obtain ⟨t, hexec, hportions, -⟩ := hgather rfl
  cases exec_sendMasterRow.symm.trans hexec
  obtain ⟨-, hwrote, -⟩ := hportions masterRow (.head _) rfl gatheredTensor rfl
  exact List.not_mem_nil hwrote

end Sys2Proof.Machine
end

section
/-! Link ports that leave UP (R306, R318, R325, R329, R330, R332). -/
namespace Sys2Proof.Machine

/-! What reports leave of the ports' registers and records. -/

/-- A field of the ports' bank, at a word other than that of the dropped flits (R345). -/
def Fld.ofPort (g : Fld) : Bool := decide (g.stride = 0x20) && decide (0x9100 ≤ g.base) && decide (g.base < 0x9120) && decide (g.base ≠ 0x910C)

section
variable {g : Fld} (hg : g.ofPort = true) (j : Nat)
include hg

theorem ofPort_notMem_eventWords : g.addr j ∉ eventWords := by
  simp only [Fld.ofPort, Bool.and_eq_true, decide_eq_true_eq] at hg
  simp only [eventWords, Fld.addr, F.FLT_LOG_NEXT, F.ETH_TX_LOST_STREAMS, List.mem_cons, List.not_mem_nil, or_false]
  omega

theorem ofPort_ne_dropUnroute (q : Nat) : g.addr j ≠ F.LNK_ERR_DROP_UNROUTE.addr q := by
  simp only [Fld.ofPort, Bool.and_eq_true, decide_eq_true_eq] at hg
  obtain ⟨⟨⟨hstride, hlow⟩, hhigh⟩, hword⟩ := hg
  simp only [Fld.addr, hstride, F.LNK_ERR_DROP_UNROUTE]
  omega

theorem get_eventOpen_ofPort (s : State) (st k i : Nat) : (s.eventOpen st k i).get g j = s.get g j :=
  get_eventOpen (ofPort_notMem_eventWords hg j) ..

theorem get_record_ofPort (s : State) (dest vc kind : Nat) (l : List Nat) : (s.record dest vc kind l).get g j = s.get g j := by
  unfold State.record State.recordOn
  split
  · rfl
  · split
    · rfl
    · split
      · exact get_bump_elsewhere s (fun _ => ofPort_ne_dropUnroute hg j _) _
      · rfl

theorem get_reportLost_ofPort (s : State) (x : Nat) : (s.reportLost x).get g j = s.get g j := by
  refine foldl_keeps_value (fun u => u.get g j) _ s fun u c _ => ?_
  unfold State.reportLostIn
  extract_lets members e
  refine ite_keeps_value (fun u => u.get g j) ?_ _
  exact foldl_keeps_value (fun u => u.get g j) _ _ fun v m _ => get_record_ofPort hg j v ..
end

theorem link_eventOpen (s : State) (st k i : Nat) : (s.eventOpen st k i).link = s.link :=
  (keeps_eventOpen (Keeps.refl 0xC21000084 s) rfl).same .link rfl

theorem link_reportLost (s : State) (x : Nat) : (s.reportLost x).link = s.link :=
  (keeps_reportLost (Keeps.refl 0x402000100 s) rfl).same .link rfl

theorem linkPort_congr {s t : State} (h : t.link = s.link) (p : Nat) : t.linkPort p = s.linkPort p :=
  congrArg (fun m : LinkSt => tget Link.empty m.ports p) h

theorem linkPort_put (s : State) (f : Fld) (i v p : Nat) : (s.put f i v).linkPort p = s.linkPort p := linkPort_congr (State.put_link ..) p

theorem linkPort_raise (s : State) (f : Fld) (i p : Nat) : (s.raise f i).linkPort p = s.linkPort p := linkPort_congr (State.raise_link ..) p

/-! Out of UP (R325, R330). -/

/-- A port taken out of UP, before that is reported: DOWN set, keys erased, buffers emptied. -/
def State.cutPort (s : State) (p target u : Nat) : State :=
  (((s.raise F.LNK_EVT_DOWN p).put F.LNK_CTRL_RETRAIN p 0).updLink p
    (fun l => { Link.empty with failures := l.failures, timer := ((s.raise F.LNK_EVT_DOWN p).put F.LNK_CTRL_RETRAIN p 0).now + u })).put
    F.LNK_PORT_STATE p target

theorem leaveUp_eq (s : State) (p target u : Nat) : s.leaveUp p target u =
    (let v := (s.cutPort p target u).eventOpen 0x0701 4 p
     if (v.portsTo (s.get F.LNK_PORT_PEER_ID p)).all (fun q => decide (v.lnk q ≠ 6)) then v.reportLost (s.get F.LNK_PORT_PEER_ID p) else v) := rfl

/-- What leaving UP makes of a port's registers is done before the reports. -/
theorem get_leaveUp {g : Fld} (hg : g.ofPort = true) (s : State) (p target u j : Nat) :
    (s.leaveUp p target u).get g j = (s.cutPort p target u).get g j := by
  rw [leaveUp_eq]
  exact (get_ite_keeps (get_reportLost_ofPort hg j ..) _).trans (get_eventOpen_ofPort hg j ..)

theorem linkPort_leaveUp (s : State) (p target u q : Nat) : (s.leaveUp p target u).linkPort q = (s.cutPort p target u).linkPort q := by
  rw [leaveUp_eq]
  exact (ite_keeps_value (fun v => v.linkPort q) (linkPort_congr (link_reportLost ..) q) _).trans (linkPort_congr (link_eventOpen ..) q)

/-- Leaving UP sets DOWN, and no other bit of the port's events. -/
theorem get_cutPort_evt {g : Fld} (hbase : g.base = 0x9118) (hstride : g.stride = 0x20) (s : State) (p target u j : Nat) :
    (s.cutPort p target u).get g j = (s.put F.LNK_EVT_DOWN p 1).get g j := by
  unfold State.cutPort
  rw [get_put_addr, get_congr (State.updLink_regs ..), get_put_addr, get_raise]
  · simp only [Fld.addr, hbase, hstride, F.LNK_CTRL_RETRAIN]
    omega
  · simp only [Fld.addr, hbase, hstride, F.LNK_PORT_STATE]
    omega

theorem lnk_cutPort (s : State) {p : Nat} (hp : p < 32) {target : Nat} (ht : target < 16) (u q : Nat) :
    (s.cutPort p target u).lnk q = if q = p then target else s.lnk q := by
  unfold State.lnk State.cutPort
  split
  · next h =>
    rw [h, get_put_same _ rfl hp]
    exact Nat.mod_eq_of_lt ht
  · next h =>
    rw [get_put_index _ (by decide) h, get_congr (State.updLink_regs ..), get_put_addr, get_raise, get_put_addr]
    · simp only [Fld.addr, F.LNK_PORT_STATE, F.LNK_EVT_DOWN]
      omega
    · simp only [Fld.addr, F.LNK_PORT_STATE, F.LNK_CTRL_RETRAIN]
      omega

theorem linkPort_cutPort (s : State) (p target u q : Nat) : (s.cutPort p target u).linkPort q =
    if q = p then { Link.empty with failures := (s.linkPort p).failures, timer := s.now + u } else s.linkPort q := by
  unfold State.cutPort
  rw [linkPort_put, linkPort_updLink]
  simp only [linkPort_put, linkPort_raise, State.put_now, State.raise_now]

/-- The port has left UP for a state: its keys are erased, and DOWN is set. -/
def LeftUp (p state : Nat) (t : State) : Prop :=
  t.lnk p = state ∧ (t.linkPort p).tx = none ∧ (t.linkPort p).rx = none ∧ (t.linkPort p).secret = 0 ∧ t.get F.LNK_EVT_DOWN p = 1

theorem lnk_leaveUp (s : State) {p : Nat} (hp : p < 32) {target : Nat} (ht : target < 16) (u q : Nat) :
    (s.leaveUp p target u).lnk q = if q = p then target else s.lnk q :=
  (get_leaveUp rfl s p target u q).trans (lnk_cutPort s hp ht u q)

section
variable (s : State) {p : Nat} (hp : p < 32) {target : Nat} (ht : target < 16) (u : Nat)
include hp ht

theorem leaveUp_leaves : LeftUp p target (s.leaveUp p target u) := by
  have hlink : (s.leaveUp p target u).linkPort p = { Link.empty with failures := (s.linkPort p).failures, timer := s.now + u } := by
    rw [linkPort_leaveUp, linkPort_cutPort, if_pos rfl]
  refine ⟨by rw [lnk_leaveUp s hp ht, if_pos rfl], by rw [hlink]; rfl, by rw [hlink]; rfl, by rw [hlink]; rfl, ?_⟩
  rw [get_leaveUp rfl, get_cutPort_evt rfl rfl]
  exact get_put_same s rfl hp 1

/-- Too many resends show beside DOWN (R318). -/
theorem raise_leaveUp_leaves : LeftUp p target ((s.raise F.LNK_EVT_RESEND_LIMIT p).leaveUp p target u) ∧
    ((s.raise F.LNK_EVT_RESEND_LIMIT p).leaveUp p target u).get F.LNK_EVT_RESEND_LIMIT p = 1 := by
  refine ⟨leaveUp_leaves _ hp ht u, ?_⟩
  rw [get_leaveUp rfl, get_cutPort_evt rfl rfl, get_put_apart _ rfl rfl rfl, get_raise]
  exact get_put_same s rfl hp 1
end

/-! Causes at one port. -/

section
variable {s : State} {p : Nat} (hp : p < 32) (hup : s.lnk p = 6)
include hp hup

theorem sealLoss_leaves {u : Nat} (hlate : (s.linkPort p).lastBlock + 10 ^ 4 ≤ s.now + u) : Completes (.sealLoss p u) s (LeftUp p 1) :=
  ⟨_, congrArg Host.Outcome.next (if_pos ⟨hup, hlate⟩), leaveUp_leaves s hp (by decide) u⟩

theorem berExcess_leaves : Completes (.berExcess p) s (LeftUp p 1) :=
  ⟨_, congrArg Host.Outcome.next (if_pos hup), leaveUp_leaves s hp (by decide) 0⟩

theorem resendLimit_leaves {u : Nat} (hmany : 8 < ((s.linkPort p).resends.filter (fun x => decide (s.now + u < x + 10 ^ 6))).length) :
    Completes (.resendLimit p u) s (fun t => LeftUp p 1 t ∧ t.get F.LNK_EVT_RESEND_LIMIT p = 1) :=
  ⟨_, congrArg Host.Outcome.next (if_pos ⟨hup, hmany⟩), raise_leaveUp_leaves s hp (by decide) u⟩

theorem rekeyTimeout_leaves {u b : Nat} (hstart : (s.linkPort p).rekeyStart = some b) (hlate : b + 5 * 10 ^ 6 ≤ s.now + u)
    (hopen : (s.linkPort p).rekeyFinGot = none ∨ (s.linkPort p).rekeyFinSent = none) : Completes (.rekeyTimeout p u) s (LeftUp p 1) :=
  ⟨_, congrArg Host.Outcome.next (if_pos ⟨hup, hopen, by rw [hstart, Option.any_some]; exact decide_eq_true hlate⟩),
    leaveUp_leaves s hp (by decide) u⟩

theorem lightLost_leaves : Completes (.lightLost p) s (LeftUp p 0) :=
  ⟨_, congrArg Host.Outcome.next ((if_neg (by rw [hup]; decide)).trans (if_pos hup)), leaveUp_leaves s hp (by decide) 0⟩
end

theorem lightLost_darkens {s : State} {p : Nat} (hp : p < 32) (hfenced : s.lnk p ≠ 9) (hup : s.lnk p ≠ 6) :
    Completes (.lightLost p) s (fun t => t.lnk p = 0) :=
  ⟨_, congrArg Host.Outcome.next ((if_neg hfenced).trans (if_neg hup)), get_put_same s rfl hp 0⟩

theorem lightLost_fenced {s : State} {p : Nat} (h : s.lnk p = 9) : Completes (.lightLost p) s (fun t => t.lnk p = 9) :=
  ⟨s, congrArg Host.Outcome.next (if_pos h), h⟩

/-! A low laser: fibre k feeds ports 8k to 8k + 7 (R305, R306). -/

/-- What a low laser makes of one port of its fibre. -/
def State.loseLaser (s : State) (q : Nat) : State :=
  let u := s.raise F.LNK_EVT_LASER_LOW q
  if u.lnk q = 9 then u else if u.lnk q = 6 then u.leaveUp q 0 0 else u.put F.LNK_PORT_STATE q 0

theorem exec_laserLow (s : State) (k : Nat) : exec (.laserLow k) s =
    .next ((((List.range 8).map (fun i => 8 * k + i)).foldl State.loseLaser s).eventOpen 0x0702 0 0) := rfl

/-- What a low laser may change of a port. -/
def State.portView (s : State) (p : Nat) : Nat × Link × Nat × Nat :=
  (s.lnk p, s.linkPort p, s.get F.LNK_EVT_LASER_LOW p, s.get F.LNK_EVT_DOWN p)

theorem portView_eq {s t : State} {p : Nat} (hlnk : t.lnk p = s.lnk p) (hlink : t.linkPort p = s.linkPort p)
    (hlow : t.get F.LNK_EVT_LASER_LOW p = s.get F.LNK_EVT_LASER_LOW p) (hdown : t.get F.LNK_EVT_DOWN p = s.get F.LNK_EVT_DOWN p) :
    t.portView p = s.portView p := by
  rw [State.portView, hlnk, hlink, hlow, hdown]
  rfl

theorem lnk_raiseLaser (s : State) (p q : Nat) : (s.raise F.LNK_EVT_LASER_LOW q).lnk p = s.lnk p := by
  refine (get_raise ..).trans (get_put_addr s ?_ 1)
  simp only [Fld.addr, F.LNK_PORT_STATE, F.LNK_EVT_LASER_LOW]
  omega

/-- A port is not touched by what a low laser makes of another. -/
theorem portView_loseLaser_other {p q : Nat} (hq : q < 32) (h : p ≠ q) (s : State) : (s.loseLaser q).portView p = s.portView p := by
  have hevt : ∀ {g : Fld} (u : State), g.base = 0x9118 → g.stride = 0x20 → (u.put F.LNK_PORT_STATE q 0).get g p = u.get g p := by
    intro g u hbase hstride
    refine get_put_addr u ?_ 0
    simp only [Fld.addr, hbase, hstride, F.LNK_PORT_STATE]
    omega
  have hother : ∀ {f g : Fld} (u : State), f.base = 0x9118 → f.stride = 0x20 → g.base = 0x9118 → g.stride = 0x20 →
      (u.put f q 1).get g p = u.get g p := by
    intro f g u hf hfs hg hgs
    refine get_put_addr u ?_ 1
    simp only [Fld.addr, hf, hfs, hg, hgs]
    omega
  have hraise : (s.raise F.LNK_EVT_LASER_LOW q).portView p = s.portView p :=
    portView_eq (lnk_raiseLaser s p q) (linkPort_raise ..) ((get_raise ..).trans (hother s rfl rfl rfl rfl))
      ((get_raise ..).trans (hother s rfl rfl rfl rfl))
  refine Eq.trans ?_ hraise
  unfold State.loseLaser
  generalize s.raise F.LNK_EVT_LASER_LOW q = u
  dsimp only
  split
  · rfl
  · split
    · refine portView_eq ?_ ?_ ?_ ?_
      · rw [lnk_leaveUp u hq (by decide), if_neg h]
      · rw [linkPort_leaveUp, linkPort_cutPort, if_neg h]
      · rw [get_leaveUp rfl, get_cutPort_evt rfl rfl, hother u rfl rfl rfl rfl]
      · rw [get_leaveUp rfl, get_cutPort_evt rfl rfl, hother u rfl rfl rfl rfl]
    · exact portView_eq (get_put_index u (by decide) h 0) (linkPort_put ..) (hevt u rfl rfl) (hevt u rfl rfl)

/-- The port has lost its laser: it is DARK unless it was FENCED, and left UP if it was there. -/
def LostLaser (p was : Nat) (t : State) : Prop :=
  t.get F.LNK_EVT_LASER_LOW p = 1 ∧ (was = 6 → LeftUp p 0 t) ∧ t.lnk p = if was = 9 then 9 else 0

theorem LostLaser.congr {p was : Nat} {s t : State} (h : LostLaser p was s) (hview : t.portView p = s.portView p) : LostLaser p was t := by
  simp only [State.portView, Prod.mk.injEq] at hview
  obtain ⟨hlnk, hlink, hlow, hdown⟩ := hview
  unfold LostLaser LeftUp at h ⊢
  rwa [hlnk, hlink, hlow, hdown]

theorem loseLaser_loses {p : Nat} (hp : p < 32) (s : State) : LostLaser p (s.lnk p) (s.loseLaser p) := by
  have hlow : (s.raise F.LNK_EVT_LASER_LOW p).get F.LNK_EVT_LASER_LOW p = 1 := (get_raise ..).trans (get_put_same s rfl hp 1)
  have hlnk := lnk_raiseLaser s p p
  unfold State.loseLaser
  generalize s.raise F.LNK_EVT_LASER_LOW p = u at hlow hlnk
  dsimp only
  rw [← hlnk]
  split
  · next h => exact ⟨hlow, fun hup => absurd (h.symm.trans hup) (by decide), by rw [if_pos h, h]⟩
  · next h =>
    split
    · have hleft := leaveUp_leaves u hp (target := 0) (by decide) 0
      refine ⟨?_, fun _ => hleft, by rw [if_neg h, hleft.1]⟩
      rw [get_leaveUp rfl, get_cutPort_evt rfl rfl, get_put_apart _ rfl rfl rfl, hlow]
    · next hup =>
      refine ⟨(get_put_addr u ?_ 0).trans hlow, fun h6 => absurd h6 hup, by rw [if_neg h]; exact get_put_same u rfl hp 0⟩
      simp only [Fld.addr, F.LNK_PORT_STATE, F.LNK_EVT_LASER_LOW]
      omega

/-- Every port of the fibre loses its laser, each once. -/
theorem loseLasers_lose {l : List Nat} (hl : l.Nodup) (hports : ∀ q ∈ l, q < 32) {p : Nat} (hp : p ∈ l) (s : State) :
    LostLaser p (s.lnk p) (l.foldl State.loseLaser s) := by
  obtain ⟨before, after, rfl⟩ := List.append_of_mem hp
  rw [List.nodup_append, List.nodup_cons] at hl
  obtain ⟨-, ⟨hafter, -⟩, hbefore⟩ := hl
  have hothers : ∀ (m : List Nat) (u : State), (∀ q ∈ m, q < 32) → p ∉ m → (m.foldl State.loseLaser u).portView p = u.portView p :=
    fun m u hm hne => foldl_keeps_value (fun v => v.portView p) m u fun v q hq =>
      portView_loseLaser_other (hm q hq) (ne_of_mem_of_not_mem hq hne).symm v
  rw [List.foldl_append, List.foldl_cons]
  have hfirst := hothers before s (fun q hq => hports q (List.mem_append_left _ hq)) fun h => hbefore p h p (.head _) rfl
  have hlnk : (before.foldl State.loseLaser s).lnk p = s.lnk p := congrArg Prod.fst hfirst
  rw [← hlnk]
  exact (loseLaser_loses (hports p hp) _).congr
    (hothers after _ (fun q hq => hports q (List.mem_append_right _ (.tail _ hq))) hafter)

theorem laserLow_loses {p : Nat} (hp : p < 32) (s : State) : Completes (.laserLow (p / 8)) s (LostLaser p (s.lnk p)) := by
  refine ⟨_, exec_laserLow s (p / 8),
    LostLaser.congr (loseLasers_lose (l := (List.range 8).map (fun i => 8 * (p / 8) + i)) ?_ ?_ ?_ s) ?_⟩
  · exact List.nodup_range.map fun i j h => Nat.add_left_cancel h
  · intro q hq
    obtain ⟨i, hi, rfl⟩ := List.mem_map.mp hq
    have := List.mem_range.mp hi
    omega
  · exact List.mem_map.mpr ⟨p % 8, List.mem_range.mpr (Nat.mod_lt _ (by decide)), Nat.div_add_mod p 8⟩
  · exact portView_eq (get_eventOpen_ofPort rfl ..) (linkPort_congr (link_eventOpen ..) p) (get_eventOpen_ofPort rfl ..)
      (get_eventOpen_ofPort rfl ..)

/-- Settles O50: each cause by the theorem about it. -/
theorem linkLoss : Obligations.LinkLoss := by
  unfold Obligations.LinkLoss
  intro s p hp
  refine ⟨fun hup => ⟨fun u => sealLoss_leaves hp hup, berExcess_leaves hp hup, lightLost_leaves hp hup, fun u => resendLimit_leaves hp hup,
    fun u b => rekeyTimeout_leaves hp hup⟩, lightLost_darkens hp, lightLost_fenced, laserLow_loses hp s⟩

end Sys2Proof.Machine
end

section
/-! Traffic and keys of a port that is UP (R310, R311, R314, R317, R318, R327 to R329, R332). -/
namespace Sys2Proof.Machine

theorem linkPort_sent (s : State) (l : List Wire) (p : Nat) : ({ s with sent := l } : State).linkPort p = s.linkPort p := rfl

theorem linkPort_discover_updLink (s : State) (p kind : Nat) (f : Link → Link) (l : List Nat) :
    ((s.updLink p f).discover p kind l).linkPort p = f (s.linkPort p) := linkPort_updLink_same s p f

theorem linkPort_bump (s : State) (f : Fld) (i n p : Nat) : (s.bump f i n).linkPort p = s.linkPort p := linkPort_put ..

/-! Queued flits that leave (R314, R315). -/

/-- Between two records of a port flits have left on credits: beyond queue and credits the port is as it was. -/
def Link.Drained (l m : Link) : Prop := ∃ q c, m = { l with queue := q, credits := c }

theorem Link.Drained.trans {k l m : Link} (h : k.Drained l) (h' : l.Drained m) : k.Drained m := by
  obtain ⟨_, _, rfl⟩ := h
  obtain ⟨q, c, rfl⟩ := h'
  exact ⟨q, c, rfl⟩

theorem linkPort_drain (s : State) (p n : Nat) : (s.linkPort p).Drained ((s.drain p n).linkPort p) := by
  induction n generalizing s with
  | zero => exact ⟨_, _, rfl⟩
  | succ n ih =>
    unfold State.drain
    extract_lets q
    split
    · exact ⟨_, _, rfl⟩
    · refine Link.Drained.trans ?_ (ih _)
      exact ⟨_, _, (linkPort_sent ..).trans (linkPort_updLink_same ..)⟩

/-! A seal block (R310, R314, R317). -/

/-- Each key's value in a table changed in turn, none twice. -/
theorem tget_foldl_change {α : Type} [DecidableEq α] (d : α) (f : Nat → α → α) {l : List Nat} (hl : l.Nodup) (t : Tbl α) (k : Nat) :
    tget d (l.foldl (fun c j => tset d c j (f j (tget d c j))) t) k = if k ∈ l then f k (tget d t k) else tget d t k := by
  induction l generalizing t with
  | nil => rfl
  | cons j r ih =>
    obtain ⟨hj, hr⟩ := List.nodup_cons.mp hl
    rw [List.foldl_cons, ih hr, tget_tset]
    by_cases hk : k = j
    · subst hk
      rw [if_neg hj, if_pos rfl, if_pos (.head _)]
    · simp only [List.mem_cons, hk, false_or, if_false]

/-- The credits of a port after those that a seal block returns: no pool exceeds its size (R313, R314). -/
def State.credited (s : State) (o : SealGroup) (c : Tbl Nat) : Tbl Nat :=
  (List.range 16).foldl (fun c k => tset 0 c k (min (s.poolSize k) (tget 0 c k + o.credits.getD k 0))) c

theorem tget_credited (s : State) (o : SealGroup) (c : Tbl Nat) {k : Nat} (hk : k < 16) :
    tget 0 (s.credited o c) k = min (s.poolSize k) (tget 0 c k + o.credits.getD k 0) :=
  (tget_foldl_change 0 (fun k n => min (s.poolSize k) (n + o.credits.getD k 0)) List.nodup_range c k).trans
    (if_pos (List.mem_range.mpr hk))

/-- A port's record with the fields of a verified seal block (R310). -/
def State.sealed (s : State) (o : SealGroup) (l : Link) : Link :=
  { l with
    lastBlock := s.now + o.t, rxSeq := o.seq, firstSeal := true, peerState := o.state, peerUnaligned := o.unaligned, peerDepth := o.depth,
    acked := if o.nak then l.acked else o.ack, credits := s.credited o l.credits }

theorem sealFields_eq (s : State) (o : SealGroup) : s.sealFields o =
    (let u := s.updLink o.port (s.sealed o)
     let v := u.drain o.port (u.linkPort o.port).queue.length
     if o.state = 2 ∨ o.state = 3 then v.reportLost (v.get F.LNK_PORT_PEER_ID o.port) else v) := rfl

theorem linkPort_sealFields (s : State) (o : SealGroup) :
    (s.sealed o (s.linkPort o.port)).Drained ((s.sealFields o).linkPort o.port) ∧
      ((s.linkPort o.port).queue = [] → (s.sealFields o).linkPort o.port = s.sealed o (s.linkPort o.port)) := by
  rw [sealFields_eq]
  extract_lets u v
  have hu : u.linkPort o.port = s.sealed o (s.linkPort o.port) := linkPort_updLink_same ..
  have hreport : (if o.state = 2 ∨ o.state = 3 then v.reportLost (v.get F.LNK_PORT_PEER_ID o.port) else v).linkPort o.port = v.linkPort o.port :=
    ite_keeps_value (fun w => w.linkPort o.port) (linkPort_congr (link_reportLost ..) _) _
  rw [hreport]
  refine ⟨hu ▸ linkPort_drain u .., fun hempty => ?_⟩
  have hqueue : (u.linkPort o.port).queue = [] := hu ▸ hempty
  have hv : v = u := by
    unfold v
    rw [hqueue]
    rfl
  rw [hv, hu]

/-- A bad group is asked for again and counted; what has been accepted stays. -/
theorem badGroup_asks {s : State} {o : SealGroup} (f : Fld) (hf : f.ok = true) (hcount : o.port < f.count)
    (hword : Fld.otherWord F.LNK_FEC_CORR_CORR f = true)
    (hexec : execSealGroupReceive o s = .next (((s.bump F.LNK_FEC_CORR_CORR o.port o.corrected).bump f o.port 1).updLink o.port
      (fun l => { l with nak := true }))) :
    Completes (.sealGroupReceive o) s (fun t => (t.linkPort o.port).nak = true ∧ Advanced f o.port 1 s t ∧
      (t.linkPort o.port).rxGroup = (s.linkPort o.port).rxGroup) := by
  refine ⟨_, hexec, ?_, (advanced_bump hf hcount 1 _).congr_left (get_bump_otherWord s hword ..), ?_⟩
  · rw [linkPort_updLink_same]
  · rw [linkPort_updLink_same, linkPort_bump, linkPort_bump]

theorem sealGroupReceive_uncorrectable {s : State} {o : SealGroup} (hp : o.port < 32) (hup : s.lnk o.port = 6) (hunc : o.uncorrectable = true) :
    Completes (.sealGroupReceive o) s (fun t => (t.linkPort o.port).nak = true ∧ Advanced F.LNK_FEC_UNC_UNCORR o.port 1 s t ∧
      (t.linkPort o.port).rxGroup = (s.linkPort o.port).rxGroup) :=
  badGroup_asks F.LNK_FEC_UNC_UNCORR rfl hp rfl (by simp [execSealGroupReceive, hup, hunc])

theorem sealGroupReceive_badTag {s : State} {o : SealGroup} (hp : o.port < 32) (hup : s.lnk o.port = 6) (hcorr : o.uncorrectable = false)
    (htag : o.tagOk = false) :
    Completes (.sealGroupReceive o) s (fun t => (t.linkPort o.port).nak = true ∧ Advanced F.LNK_ERR_TAG_FAILS o.port 1 s t ∧
      (t.linkPort o.port).rxGroup = (s.linkPort o.port).rxGroup) :=
  badGroup_asks F.LNK_ERR_TAG_FAILS rfl hp rfl (by simp [execSealGroupReceive, hup, hcorr, htag])

/-- A port's record once a verified block's group, if it is the next one, is accepted (R317). -/
def Link.accepting (l : Link) (o : SealGroup) : Link :=
  if o.group = (l.rxGroup + 1) % 2 ^ 32 then { l with rxGroup := o.group, nak := false } else l

theorem Link.accepting_keeps (l : Link) (o : SealGroup) : (l.accepting o).lastBlock = l.lastBlock ∧ (l.accepting o).rxSeq = l.rxSeq ∧
    (l.accepting o).peerState = l.peerState ∧ (l.accepting o).acked = l.acked ∧ (l.accepting o).credits = l.credits := by
  unfold Link.accepting
  split
  · exact ⟨rfl, rfl, rfl, rfl, rfl⟩
  · exact ⟨rfl, rfl, rfl, rfl, rfl⟩

section
variable {s : State} {o : SealGroup} (hup : s.lnk o.port = 6) (hcorr : o.uncorrectable = false) (htag : o.tagOk = true) (hflits : o.flits = [])
include hup hcorr htag hflits

theorem exec_goodGroup : ∃ t, exec (.sealGroupReceive o) s = .next t ∧
    t.linkPort o.port = (((s.bump F.LNK_FEC_CORR_CORR o.port o.corrected).sealFields o).linkPort o.port).accepting o := by
  have hexec : execSealGroupReceive o s = .next (let v := (s.bump F.LNK_FEC_CORR_CORR o.port o.corrected).sealFields o
      if o.group = ((v.linkPort o.port).rxGroup + 1) % 2 ^ 32 then v.updLink o.port (fun l => { l with rxGroup := o.group, nak := false })
      else v) := by
    simp [execSealGroupReceive, hup, hcorr, htag, hflits]
  refine ⟨_, hexec, ?_⟩
  unfold Link.accepting
  extract_lets v
  split
  · rw [linkPort_updLink_same]
  · rfl

/-- A verified block without flits acknowledges, credits, and takes its group if that is the next one (R310, R314, R317). -/
theorem sealGroupReceive_good : Completes (.sealGroupReceive o) s (fun t =>
    (t.linkPort o.port).lastBlock = s.now + o.t ∧ (t.linkPort o.port).rxSeq = o.seq ∧ (t.linkPort o.port).peerState = o.state ∧
    (o.nak = false → (t.linkPort o.port).acked = o.ack) ∧
    (o.group = ((s.linkPort o.port).rxGroup + 1) % 2 ^ 32 → (t.linkPort o.port).rxGroup = o.group ∧ (t.linkPort o.port).nak = false) ∧
    ((s.linkPort o.port).queue = [] → ∀ k < 16, t.creditOf o.port k = min (s.poolSize k) (s.creditOf o.port k + o.credits.getD k 0))) := by
  obtain ⟨t, hexec, ht⟩ := exec_goodGroup hup hcorr htag hflits
  have hlink := linkPort_bump s F.LNK_FEC_CORR_CORR o.port o.corrected o.port
  have hnow : (s.bump F.LNK_FEC_CORR_CORR o.port o.corrected).now = s.now := State.put_now ..
  have himg : (s.bump F.LNK_FEC_CORR_CORR o.port o.corrected).img = s.img := State.put_img ..
  generalize s.bump F.LNK_FEC_CORR_CORR o.port o.corrected = u at hlink hnow himg ht
  obtain ⟨⟨q, c, hdrained⟩, hempty⟩ := linkPort_sealFields u o
  rw [hlink] at hdrained hempty
  obtain ⟨hblock, hseq, hstate, hacked, hcredits⟩ := ((u.sealFields o).linkPort o.port).accepting_keeps o
  rw [← ht] at hblock hseq hstate hacked hcredits
  refine ⟨t, hexec, ?_, ?_, ?_, fun hnak => ?_, fun hnext => ?_, fun hq k hk => ?_⟩
  · rw [hblock, hdrained, ← hnow]
    rfl
  · rw [hseq, hdrained]
    rfl
  · rw [hstate, hdrained]
    rfl
  · rw [hacked, hdrained]
    exact if_neg (by rw [hnak]; decide)
  · have hgroup : o.group = (((u.sealFields o).linkPort o.port).rxGroup + 1) % 2 ^ 32 := by
      rw [hdrained]
      exact hnext
    rw [ht, Link.accepting, if_pos hgroup]
    exact ⟨rfl, rfl⟩
  · have hpool : u.poolSize k = s.poolSize k := by simp only [State.poolSize, State.vcShare, State.pol, himg]
    rw [State.creditOf, hcredits, hempty hq, ← hpool]
    exact tget_credited u o _ hk
end

/-- The 5 ms of the exchange that began at b are not over. -/
theorem rekeyRuns {s : State} {p b u : Nat} (hstart : (s.linkPort p).rekeyStart = some b) (hsoon : s.now + u < b + 5 * 10 ^ 6) :
    (s.linkPort p).rekeyStart.any (fun b => decide (s.now + u < b + 5 * 10 ^ 6)) = true := by
  rw [hstart, Option.any_some]
  exact decide_eq_true hsoon

section
variable {s : State} {p : Nat} (hup : s.lnk p = 6)
include hup

/-! A NAK (R317, R318). -/

theorem nak_resends (hp : p < 32) {g n : Nat} (u : Nat) (hback : (n + 2 ^ 16 - g % 2 ^ 16) % 2 ^ 16 < 32) :
    Completes (.nak p g n u) s (fun t => (t.linkPort p).txGroup = n ∧
      (t.linkPort p).txSeq = (s.linkPort p).txSeq + (n + 2 ^ 16 - g % 2 ^ 16) % 2 ^ 16 + 1 ∧ Advanced F.LNK_FEC_UNC_RESENDS p 1 s t) := by
  refine ⟨_, congrArg Host.Outcome.next ((if_neg (not_not_intro hup)).trans (if_pos hback)), ?_, ?_, advanced_bump rfl hp 1 s⟩
  · rw [linkPort_updLink_same]
  · rw [linkPort_updLink_same, linkPort_bump]

theorem nak_leaves (hp : p < 32) {g n : Nat} (u : Nat) (hback : 32 ≤ (n + 2 ^ 16 - g % 2 ^ 16) % 2 ^ 16) :
    Completes (.nak p g n u) s (fun t => t.lnk p = 1 ∧ t.get F.LNK_EVT_RESEND_LIMIT p = 1) :=
  have ⟨hleft, hlimit⟩ := raise_leaveUp_leaves s hp (target := 1) (by decide) u
  ⟨_, congrArg Host.Outcome.next ((if_neg (not_not_intro hup)).trans (if_neg (Nat.not_lt.mpr hback))), hleft.1, hlimit⟩

/-! A fresh key exchange (R329). -/

theorem rekeyTrigger_starts {a b u : Nat} (hlower : s.isLower p = true) (hidle : (s.linkPort p).rekeyStart = none)
    (hdue : 2 ^ 34 - 2 ^ 20 ≤ a ∨ 2 ^ 34 - 2 ^ 20 ≤ b ∨ (s.linkPort p).lastExchange + dayNs ≤ s.now + u) :
    Completes (.rekeyTrigger p a b u) s (fun t => (t.linkPort p).rekeyStart = some (s.now + u) ∧
      t.sent = s.sent ++ [.flit p 7 4 [5, s.ownId, s.ownKey]]) :=
  ⟨_, congrArg Host.Outcome.next (if_pos ⟨hup, hlower, hidle, hdue⟩), congrArg Link.rekeyStart (linkPort_discover_updLink ..), rfl⟩

theorem rekeyFin_names {n q b u : Nat} (hsecret : (s.linkPort p).newSecret ≠ 0) (hstart : (s.linkPort p).rekeyStart = some b)
    (hsoon : s.now + u < b + 5 * 10 ^ 6) :
    Completes (.rekeyFin p (State.finOf (s.linkPort p).newSecret (s.get F.LNK_PORT_PEER_ID p)) n q u) s (fun t =>
      (t.linkPort p).rekeyFinGot = some q ∧ ((s.linkPort p).rekeyFinSent = none → (t.linkPort p).rekeyFinSent = some (n + 4096) ∧
        t.sent = s.sent ++ [.flit p 7 4 [7, s.ownId, State.finOf (s.linkPort p).newSecret s.ownId, n + 4096]])) := by
  refine ⟨_, congrArg Host.Outcome.next (if_pos ⟨hup, hsecret, rfl, rekeyRuns hstart hsoon⟩), ?_⟩
  extract_lets v
  have hv : v.linkPort p = { s.linkPort p with rekeyFinGot := some q } := linkPort_updLink_same ..
  split
  · have ht : ((v.updLink p (fun l => { l with rekeyFinSent := some (n + 4096) })).discover p 7
        [v.ownId, State.finOf (v.linkPort p).newSecret v.ownId, n + 4096]).linkPort p =
        { v.linkPort p with rekeyFinSent := some (n + 4096) } := linkPort_discover_updLink ..
    refine ⟨by rw [ht, hv], fun _ => ⟨by rw [ht], ?_⟩⟩
    show s.sent ++ _ = _
    rw [hv]
    rfl
  · next hsent => exact ⟨by rw [hv], fun hnone => absurd (by rw [hv]; exact hnone) hsent⟩

/-- At the switch SEQ of its own REKEY_FIN the port sends with the new key; the exchange ends once the peer has switched too. -/
theorem keySwitch_sends (hp : p < 32) {n : Nat} (hsecret : (s.linkPort p).newSecret ≠ 0) (hat : (s.linkPort p).rekeyFinSent = some n) :
    Completes (.keySwitch p true n) s (fun t => (t.linkPort p).txSeq = 0 ∧
      (t.linkPort p).tx = some (s.txKey p (s.linkPort p).newSecret) ∧ t.get F.LNK_KEY_EPOCH p = 0 ∧
      ((s.linkPort p).rekeyFinGot = none → (t.linkPort p).newSecret = 0 ∧ Advanced F.LNK_KEY_EXCHANGES p 1 s t)) := by
  have hruns : ¬(s.lnk p ≠ 6 ∨ (s.linkPort p).newSecret = 0) := not_or_intro (not_not_intro hup) hsecret
  refine ⟨_, congrArg Host.Outcome.next ((if_neg hruns).trans (if_pos ⟨rfl, hat⟩)), ?_⟩
  extract_lets v
  have hv : v.linkPort p = { s.linkPort p with tx := some (s.txKey p (s.linkPort p).newSecret), txSeq := 0, rekeyFinSent := none } :=
    (linkPort_put ..).trans (linkPort_updLink_same ..)
  have hepoch : v.get F.LNK_KEY_EPOCH p = 0 := get_put_same _ rfl hp 0
  have hcount : v.get F.LNK_KEY_EXCHANGES p = s.get F.LNK_KEY_EXCHANGES p :=
    (get_put_apart _ rfl rfl rfl ..).trans (get_congr (State.updLink_regs ..) _ _)
  split
  · have ht : ((v.updLink p (fun l => { l with newSecret := 0, rekeyStart := none, lastExchange := v.now })).bump
        F.LNK_KEY_EXCHANGES p 1).linkPort p = { v.linkPort p with newSecret := 0, rekeyStart := none, lastExchange := v.now } :=
      (linkPort_bump ..).trans (linkPort_updLink_same ..)
    refine ⟨by rw [ht, hv], by rw [ht, hv], (get_put_apart _ rfl rfl rfl ..).trans hepoch, fun _ => ⟨by rw [ht], ?_⟩⟩
    exact (advanced_bump rfl hp 1 (v.updLink p _)).congr_left hcount
  · next hgot => exact ⟨by rw [hv], by rw [hv], hepoch, fun hnone => absurd hnone hgot⟩

theorem keySwitch_receives {n : Nat} (hsecret : (s.linkPort p).newSecret ≠ 0) (hat : (s.linkPort p).rekeyFinGot = some n) :
    Completes (.keySwitch p false n) s (fun t => (t.linkPort p).rxSeq = 0 ∧
      (t.linkPort p).rx = some (s.rxKey p (s.linkPort p).newSecret)) := by
  have hruns : ¬(s.lnk p ≠ 6 ∨ (s.linkPort p).newSecret = 0) := not_or_intro (not_not_intro hup) hsecret
  refine ⟨_, congrArg Host.Outcome.next ((if_neg hruns).trans ((if_neg fun h => Bool.false_ne_true h.1).trans (if_pos ⟨rfl, hat⟩))), ?_⟩
  beta_reduce
  extract_lets v
  have hv : v.linkPort p = { s.linkPort p with rx := some (s.rxKey p (s.linkPort p).newSecret), rxSeq := 0, rekeyFinGot := none } :=
    linkPort_updLink_same ..
  split
  · rw [linkPort_bump, linkPort_updLink_same, hv]
    exact ⟨rfl, rfl⟩
  · rw [hv]
    exact ⟨rfl, rfl⟩

/-! Ratchets (R328). -/

theorem keyRatchet_sends (hp : p < 32) {k : DirKey} {n : Nat} (hepoch : n / 2 ^ 26 = k.epoch + 1) (hkey : (s.linkPort p).tx = some k) :
    Completes (.keyRatchet p true n) s (fun t => (t.linkPort p).tx = some (ratchet k) ∧
      t.get F.LNK_KEY_EPOCH p = (k.epoch + 1) % F.LNK_KEY_EPOCH.size) := by
  refine ⟨(s.updLink p (fun l => { l with tx := some (ratchet k), txSeq := n })).put F.LNK_KEY_EPOCH p (k.epoch + 1), ?_, ?_,
    get_put_same _ rfl hp _⟩
  · show execKeyRatchet p true n s = _
    simp only [execKeyRatchet, hkey, hup, hepoch, if_true, and_self]
  · rw [linkPort_put, linkPort_updLink_same]

theorem keyRatchet_receives {k : DirKey} {n : Nat} (hepoch : n / 2 ^ 26 = k.epoch + 1) (hkey : (s.linkPort p).rx = some k) :
    Completes (.keyRatchet p false n) s (fun t => (t.linkPort p).rx = some (ratchet k)) := by
  refine ⟨s.updLink p (fun l => { l with rx := some (ratchet k), rxSeq := n }), ?_, ?_⟩
  · show execKeyRatchet p false n s = _
    simp only [execKeyRatchet, hkey, hup, hepoch, if_true, and_self, Bool.false_eq_true, if_false]
  · beta_reduce
    rw [linkPort_updLink_same]
end

section
variable {s : State} {o : KexMsg} (hup : s.lnk o.port = 6) (hknown : s.peerKnown o.port o.idPk = true) (hsig : o.sigOk = true)
include hup hknown hsig

theorem rekey1_answers (u : Nat) (hhigher : s.isLower o.port = false) :
    Completes (.rekey1 o u) s (fun t => (t.linkPort o.port).newSecret = o.secret ∧ (t.linkPort o.port).rekeyStart = some (s.now + u) ∧
      t.sent = s.sent ++ [.flit o.port 7 4 [6, s.ownId, s.ownKey]]) :=
  ⟨_, congrArg Host.Outcome.next (if_pos ⟨hup, hhigher, hknown, hsig⟩), congrArg Link.newSecret (linkPort_discover_updLink ..),
    congrArg Link.rekeyStart (linkPort_discover_updLink ..), rfl⟩

theorem rekey2_names {n b u : Nat} (hlower : s.isLower o.port = true) (hstart : (s.linkPort o.port).rekeyStart = some b)
    (hsoon : s.now + u < b + 5 * 10 ^ 6) :
    Completes (.rekey2 o n u) s (fun t => (t.linkPort o.port).newSecret = o.secret ∧ (t.linkPort o.port).rekeyFinSent = some (n + 4096) ∧
      t.sent = s.sent ++ [.flit o.port 7 4 [7, s.ownId, State.finOf o.secret s.ownId, n + 4096]]) :=
  ⟨_, congrArg Host.Outcome.next (if_pos ⟨hup, hlower, hknown, hsig, rekeyRuns hstart hsoon⟩),
    congrArg Link.newSecret (linkPort_discover_updLink ..), congrArg Link.rekeyFinSent (linkPort_discover_updLink ..), rfl⟩
end

/-! MACsec keys of the Ethernet ports (R551). -/

/-- Registers cleared one after another. -/
theorem reg_foldl_clear {l : List Nat} {addr : Nat → Nat} {s : State} {a : Nat} (h : (∃ k ∈ l, addr k = a) ∨ s.reg a = 0) :
    (l.foldl (fun u k => u.setReg (addr k) 0) s).reg a = 0 := by
  induction l generalizing s with
  | nil => exact h.resolve_left fun ⟨_, hk, _⟩ => List.not_mem_nil hk
  | cons j r ih =>
    refine ih ?_
    rw [reg_setReg]
    by_cases ha : a = addr j
    · exact .inr (if_pos ha)
    · rw [if_neg ha]
      exact h.imp_left fun ⟨k, hk, hka⟩ => ⟨k, (List.mem_cons.mp hk).resolve_left fun hkj => ha (hkj ▸ hka).symm, hka⟩

/-- The staged words of an association, cleared. -/
def State.unstaged (s : State) (p a : Nat) : State := (List.range 12).foldl (fun u k => u.setReg (State.stagedAddr p a k) 0) s

theorem reg_unstaged (s : State) (p a : Nat) {k : Nat} (hk : k < 12) : (s.unstaged p a).reg (State.stagedAddr p a k) = 0 :=
  reg_foldl_clear (.inl ⟨k, List.mem_range.mpr hk, rfl⟩)

/-- The staged words lie beyond the word of the port. -/
theorem macsecOn_unstaged (s : State) (p a : Nat) : (s.unstaged p a).get F.ETH_PORT_MACSEC_ON p = s.get F.ETH_PORT_MACSEC_ON p := by
  refine foldl_keeps_value (fun u => u.get F.ETH_PORT_MACSEC_ON p) _ s fun u k _ => ?_
  rw [State.get, reg_setReg, if_neg]
  · rfl
  · simp only [Fld.addr, F.ETH_PORT_MACSEC_ON, State.stagedAddr]
    omega

/-- The association that a port's staged words give (R551). -/
def State.staged (s : State) (p a : Nat) : Assoc :=
  let w : Nat → Word := fun k => s.reg (State.stagedAddr p a k)
  ⟨(List.range 8).map w, w 8, [w 9, w 10, w 11], 1, 1⟩

theorem installAssoc_eq (s : State) (p a : Nat) : s.installAssoc p a =
    (let u := s.unstaged p a
     if u.get F.ETH_PORT_MACSEC_ON p = 1 then
       { u with ports := { u.ports with assocs := tset Assoc.empty u.ports.assocs (2 * p + a) (s.staged p a) } }
     else u) := rfl

theorem installAssoc_installs {s : State} {p : Nat} (a : Nat) (hon : s.get F.ETH_PORT_MACSEC_ON p = 1) :
    tget Assoc.empty (s.installAssoc p a).ports.assocs (2 * p + a) = s.staged p a ∧
      ∀ k < 12, (s.installAssoc p a).reg (State.stagedAddr p a k) = 0 := by
  have hport := (macsecOn_unstaged s p a).trans hon
  have hclear : ∀ k < 12, (s.unstaged p a).reg (State.stagedAddr p a k) = 0 := fun k hk => reg_unstaged s p a hk
  rw [installAssoc_eq]
  generalize s.unstaged p a = u at hport hclear
  dsimp only
  rw [if_pos hport]
  exact ⟨by rw [tget_tset_same], hclear⟩

theorem install_first (s : State) {p : Nat} (hp : p < 2) : s.install_ p 1 = s.installAssoc p 0 := by
  have hport : p % 2 = p := Nat.mod_eq_of_lt hp
  unfold State.install_
  rw [if_pos rfl, hport]
  exact if_neg (by decide)

theorem install_installs {s : State} {r : Req} {e : Nat} (he : e < 2) (hr : TakenOne s r false) (hon : s.get F.ETH_PORT_MACSEC_ON e = 1) :
    Completes (.install r e 1) s (fun t => (tget Assoc.empty t.ports.assocs (2 * e)).key =
      (List.range 8).map (fun k => s.reg (State.stagedAddr e 0 k)) ∧ (∀ k < 12, t.reg (State.stagedAddr e 0 k) = 0) ∧ Acknowledged r s t) :=
  completes_of_commandWrite hr (effect := fun u => u.install_ e 1) rfl fun P => by
    rw [install_first _ he]
    obtain ⟨hinstalled, hclear⟩ := installAssoc_installs 0 (s := s.acknowledging r P) hon
    rw [Nat.add_zero] at hinstalled
    have hkeeps := keeps_installAssoc (Keeps.refl 0x1000080 (s.acknowledging r P)) rfl he (show 0 < 2 by decide)
    exact ⟨by rw [hinstalled]; rfl, hclear, .of_fr (hkeeps.same .fr rfl)⟩

theorem txAnSwitch_switches {s : State} {r : Req} {e : Nat} (he : e < 2) (hr : TakenOne s r false) (an : Nat) :
    Completes (.txAnSwitch r e an) s (fun t => t.get F.ETH_SA_CTRL_TX_AN e = an % F.ETH_SA_CTRL_TX_AN.size ∧ Acknowledged r s t) :=
  completes_of_commandWrite hr (effect := fun u => u.put F.ETH_SA_CTRL_TX_AN e an) rfl fun _ =>
    ⟨get_put_same _ rfl he an, .of_fr (State.put_fr ..)⟩

/-- Settles O51: seal blocks, NAKs, the fresh exchange, ratchets and MACsec keys by the theorems about them. -/
theorem linkTrafficAndKeys : Obligations.LinkTrafficAndKeys := by
  unfold Obligations.LinkTrafficAndKeys
  intro s p hp hup
  refine ⟨?_, fun g n u => nak_resends hup hp u, fun g n u => nak_leaves hup hp u, fun a b u => rekeyTrigger_starts hup, ?_,
    fun n q b u => rekeyFin_names hup, fun n hsecret => ⟨keySwitch_sends hup hp hsecret, keySwitch_receives hup hsecret⟩,
    fun k n hepoch => ⟨keyRatchet_sends hup hp hepoch, keyRatchet_receives hup hepoch⟩,
    fun r e he hr hon => ⟨install_installs he hr hon, txAnSwitch_switches he hr⟩⟩
  · rintro o rfl
    exact ⟨sealGroupReceive_uncorrectable hp hup, sealGroupReceive_badTag hp hup, sealGroupReceive_good hup⟩
  · rintro o u rfl hknown hsig
    exact ⟨rekey1_answers hup hknown hsig u, fun n b => rekey2_names hup hknown hsig⟩

end Sys2Proof.Machine
end

section
/-! The system's tick: joining, readiness, the anchor, θ and unaligned modules (R320, R338 to R343). -/
namespace Sys2Proof.Machine

/-! Alignment (R340). -/

theorem get_setUnaligned (s : State) (v : Nat) : (s.setUnaligned v).get F.LNK_TICK_UNALIGNED 0 = v % 2 ∧
    (s.setUnaligned v).get F.DEV_STATE_UNALIGNED 0 = v % 2 :=
  ⟨(get_put_addr _ (by decide) v).trans (get_put_same s rfl (by decide) v), get_put_same _ rfl (by decide) v⟩

theorem link_setUnaligned (s : State) (v : Nat) : (s.setUnaligned v).link = s.link := (State.put_link ..).trans (State.put_link ..)

theorem tickUnaligned_notMem_eventWords : F.LNK_TICK_UNALIGNED.addr 0 ∉ eventWords := by decide

theorem devState_notMem_eventWords : F.DEV_STATE_PHASE.addr 0 ∉ eventWords := by decide

theorem tickUnaligned_unaligns {s : State} {u : Nat} (haligned : s.get F.LNK_TICK_UNALIGNED 0 = 0) (hsource : s.isSource = false)
    (hcause : 128 < s.link.theta.natAbs ∨ ∃ b, s.link.noParentSince = some b ∧ b + 50 * 10 ^ 6 ≤ s.now + u) :
    Completes (.tickUnaligned u) s (fun t => t.get F.LNK_TICK_UNALIGNED 0 = 1 ∧ t.get F.DEV_STATE_UNALIGNED 0 = 1) := by
  have hdue : 128 < s.link.theta.natAbs ∨ s.link.noParentSince.any (fun b => decide (b + 50 * 10 ^ 6 ≤ s.now + u)) = true :=
    hcause.imp_right fun ⟨b, hsince, hlate⟩ => by
      rw [hsince, Option.any_some]
      exact decide_eq_true hlate
  obtain ⟨htick, hdev⟩ := get_setUnaligned s 1
  exact ⟨_, congrArg Host.Outcome.next (if_pos ⟨haligned, hsource, hdue⟩), (get_eventOpen tickUnaligned_notMem_eventWords ..).trans htick,
    (get_eventOpen (g := F.DEV_STATE_UNALIGNED) devState_notMem_eventWords ..).trans hdev⟩

/-! The parent (R339). -/

theorem followParent_of_some {s : State} {k p : Nat} (h : s.parentChoice = some (k, p)) : s.followParent =
    (let u := ((s.put F.LNK_TICK_TREE 0 k).put F.LNK_TICK_PARENT_PORT 0 p).put F.LNK_TICK_DEPTH 0 ((s.linkPort p).peerDepth + 1)
     { u with link := { u.link with noParentSince := none } }) := by
  rw [State.followParent, h]

theorem followParent_of_none {s : State} (h : s.parentChoice = none) (hsource : s.isSource = false) : s.followParent =
    { s with link := { s.link with noParentSince := some (s.link.noParentSince.getD s.now) } } := by
  rw [State.followParent, h]
  dsimp only
  rw [hsource, if_neg Bool.false_ne_true]
  cases s.link.noParentSince <;> rfl

/-- Following a parent changes since when there is none, and nothing else of the links. -/
theorem link_followParent (s : State) : ∃ n, s.followParent.link = { s.link with noParentSince := n } := by
  unfold State.followParent
  split
  · exact ⟨none, by simp only [State.put_link]⟩
  · split
    · exact ⟨_, rfl⟩
    · exact ⟨_, rfl⟩

theorem get_unaligned_followParent (s : State) : s.followParent.get F.LNK_TICK_UNALIGNED 0 = s.get F.LNK_TICK_UNALIGNED 0 := by
  cases hparent : s.parentChoice with
  | some c =>
    rw [followParent_of_some hparent]
    exact (get_put_apart _ rfl rfl rfl ..).trans ((get_put_apart _ rfl rfl rfl ..).trans (get_put_apart s rfl rfl rfl ..))
  | none =>
    unfold State.followParent
    rw [hparent]
    dsimp only
    split
    · rfl
    · rfl

theorem parentSwitch_follows {s : State} (hsource : s.isSource = false) :
    Completes .parentSwitch s (fun t => (∀ k p, s.parentChoice = some (k, p) →
        t.link.noParentSince = none ∧ t.get F.LNK_TICK_PARENT_PORT 0 = p % F.LNK_TICK_PARENT_PORT.size ∧
        t.get F.LNK_TICK_TREE 0 = k % F.LNK_TICK_TREE.size) ∧
      (s.parentChoice = none → t.link.noParentSince.isSome = true ∧ t.regs = s.regs)) := by
  refine ⟨s.followParent, congrArg Host.Outcome.next (if_neg (by rw [hsource]; exact Bool.false_ne_true)), fun k p hparent => ?_,
    fun hnone => ?_⟩
  · rw [followParent_of_some hparent]
    exact ⟨rfl, (get_put_apart _ rfl rfl rfl ..).trans (get_put_same _ rfl (by decide) p),
      (get_put_apart _ rfl rfl rfl ..).trans ((get_put_apart _ rfl rfl rfl ..).trans (get_put_same s rfl (by decide) k))⟩
  · rw [followParent_of_none hnone hsource]
    exact ⟨rfl, rfl⟩

/-! θ (R338). -/

/-- The slew against a mean offset m, in 1/16 ns a frame: at most 100 ppm of P either way. -/
def State.slewAgainst (s : State) (m : Int) : Int := max (-(s.periodNs * 16 / 10000)) (min (s.periodNs * 16 / 10000) (-m))

theorem slewAgainst_bounded (s : State) (m : Int) :
    -((s.periodNs : Int) * 16 / 10000) ≤ s.slewAgainst m ∧ s.slewAgainst m ≤ (s.periodNs : Int) * 16 / 10000 := by
  have hlim : (0 : Int) ≤ (s.periodNs : Int) * 16 / 10000 := by positivity
  unfold State.slewAgainst
  exact ⟨le_max_left .., max_le (by omega) (min_le_left ..)⟩

theorem thetaUpdate_slews {s : State} {l : List Int} (hlen : l.length = 1024) (hsource : s.isSource = false) :
    Completes (.thetaUpdate l) s (fun t => t.link.theta = (l.foldl (· + ·) 0) / 1024 ∧
      -((s.periodNs : Int) * 16 / 10000) ≤ t.link.slew ∧ t.link.slew ≤ (s.periodNs : Int) * 16 / 10000) := by
  have hexec : exec (.thetaUpdate l) s = .next (let m := (l.foldl (· + ·) 0) / 1024
      (({ s with link := { s.link with theta := m, slew := s.slewAgainst m } } : State).put F.LNK_TICK_OFS_THETA 0
        (m % 2 ^ 32).toNat).followParent) := congrArg Host.Outcome.next (if_pos ⟨hlen, hsource⟩)
  refine ⟨_, hexec, ?_⟩
  extract_lets m
  obtain ⟨n, hlink⟩ := link_followParent
    (({ s with link := { s.link with theta := m, slew := s.slewAgainst m } } : State).put F.LNK_TICK_OFS_THETA 0 (m % 2 ^ 32).toNat)
  rw [hlink, State.put_link]
  exact ⟨rfl, slewAgainst_bounded s m⟩

/-! Joining and rejoining (R340, R342). -/

theorem join_joins {s : State} {o : JoinMsg} {k : Nat} (hparent : s.parentChoice = some (k, o.port)) (hphase : s.phase = 0) :
    Completes (.join o) s (fun t => t.frame = o.frame ∧ t.link.theta = o.theta ∧
      t.get F.LNK_TICK_DEPTH 0 = (o.depth + 1) % F.LNK_TICK_DEPTH.size ∧ t.get F.LNK_TICK_UNALIGNED 0 = 0) := by
  have hport : ¬s.parentChoice.map (fun x => x.2) ≠ some o.port := by
    rw [hparent]
    exact not_not_intro rfl
  refine ⟨_, congrArg Host.Outcome.next ((if_neg hport).trans (if_pos hphase)), ?_, ?_, ?_, (get_setUnaligned _ 0).1⟩
  · exact (State.put_frame ..).trans ((State.put_frame ..).trans (State.put_frame ..))
  · rw [link_setUnaligned, State.put_link]
  · exact (get_put_addr _ (by decide) 0).trans ((get_put_apart _ rfl rfl rfl ..).trans (get_put_same _ rfl (by decide) _))

/-- An unaligned module that rejoins: its parent followed, with the offset that it measured. -/
def State.measured (s : State) (th : Int) : State := { s.followParent with link := { s.followParent.link with theta := th } }

theorem rejoin_eq {s : State} (h : s.get F.LNK_TICK_UNALIGNED 0 = 1) (hparent : s.parentChoice.isSome = true) (th : Int) (n : Nat) :
    s.rejoin th n = (let u := s.measured th
      if th.natAbs ≤ 128 then u.setUnaligned 0
      else if th.natAbs ≤ 1600000 then u
      else { u with link := { u.link with bridging := some (n, 0,
        ((u.periodNs : Int) / 2 + ((u.periodNs : Int) / 2 - th / 16) % (u.periodNs : Int)).toNat) } }) := if_pos ⟨h, hparent⟩

theorem tickRejoin_rejoins {s : State} (h : s.get F.LNK_TICK_UNALIGNED 0 = 1) (hparent : s.parentChoice.isSome = true) (th : Int) (n : Nat) :
    Completes (.tickRejoin th n) s (fun t => t.link.theta = th ∧
      t.get F.LNK_TICK_UNALIGNED 0 = (if th.natAbs ≤ 128 then 0 else 1) ∧
      (1600000 < th.natAbs → ∃ len, t.link.bridging = some (n, 0, len)) ∧
      (th.natAbs ≤ 1600000 → t.link.bridging = s.link.bridging)) := by
  have htheta : (s.measured th).link.theta = th := rfl
  have hunaligned : (s.measured th).get F.LNK_TICK_UNALIGNED 0 = 1 := (get_unaligned_followParent s).trans h
  have hbridging : (s.measured th).link.bridging = s.link.bridging := by
    obtain ⟨since, hlink⟩ := link_followParent s
    show s.followParent.link.bridging = _
    rw [hlink]
  refine ⟨_, congrArg Host.Outcome.next (rejoin_eq h hparent th n), ?_⟩
  generalize s.measured th = u at htheta hunaligned hbridging
  dsimp only
  split
  · rw [link_setUnaligned]
    exact ⟨htheta, (get_setUnaligned u 0).1, fun hfar => by omega, fun _ => hbridging⟩
  · split
    · exact ⟨htheta, hunaligned, fun hfar => by omega, fun _ => hbridging⟩
    · next hfar => exact ⟨htheta, hunaligned, fun _ => ⟨_, rfl⟩, fun hnear => absurd hnear hfar⟩

/-! Readiness (R343). -/

theorem readyTotal_congr {s t : State} (hphase : t.phase = s.phase)
    (hunaligned : t.get F.LNK_TICK_UNALIGNED 0 = s.get F.LNK_TICK_UNALIGNED 0) (hcounts : t.link.childCounts = s.link.childCounts) :
    t.readyTotal = s.readyTotal := by
  rw [State.readyTotal, State.readyTotal, hphase, hunaligned, hcounts]

/-- The anchor's report of readiness leaves the counts, and a full count has been reported. -/
theorem systemReady_reports (s : State) : s.systemReady.link.childCounts = s.link.childCounts ∧
    s.systemReady.readyTotal = s.readyTotal ∧
    (s.ownId = s.img.accepted.anchor → s.readyTotal = s.img.accepted.modules → s.systemReady.link.readySent = true) := by
  unfold State.systemReady
  split
  · have hlink := link_eventOpen { s with link := { s.link with readySent := true } } 0x0708 0 0
    refine ⟨by rw [hlink], readyTotal_congr ?_ ?_ (by rw [hlink]), fun _ _ => by rw [hlink]⟩
    · exact get_eventOpen (g := F.DEV_STATE_PHASE) devState_notMem_eventWords ..
    · exact get_eventOpen tickUnaligned_notMem_eventWords ..
  · next hnot =>
    refine ⟨rfl, rfl, fun hanchor htotal => ?_⟩
    rw [not_and, not_and] at hnot
    exact Bool.eq_true_of_not_eq_false (hnot hanchor htotal)

theorem readyCount_counts {s : State} {m : Nat} (hchild : s.img.accepted.children.contains m = true) (n : Nat) :
    Completes (.readyCount m n) s (fun t => tget 0 t.link.childCounts m = n ∧
      (s.ownId = s.img.accepted.anchor → t.readyTotal = s.img.accepted.modules → t.link.readySent = true)) := by
  obtain ⟨hcounts, htotal, hsent⟩ := systemReady_reports { s with link := { s.link with childCounts := tset 0 s.link.childCounts m n } }
  refine ⟨_, congrArg Host.Outcome.next (if_pos hchild), ?_, fun hanchor hfull => hsent hanchor (htotal ▸ hfull)⟩
  rw [hcounts]
  exact tget_tset_same ..

theorem sysWaitExpiry_reports {s : State} (hanchor : s.ownId = s.img.accepted.anchor) (hfew : s.readyTotal < s.img.accepted.modules)
    (hfirst : s.link.partialSent = false) (hlate : s.link.bootAt + s.pol 0x90 * 10 ^ 6 ≤ s.now) :
    Completes .sysWaitExpiry s (fun t => t.link.partialSent = true ∧ ∃ d1, Logged 0x0709 0 0 s.readyTotal d1 s t) := by
  refine ⟨_, congrArg Host.Outcome.next (if_pos ⟨hanchor, hfew, hfirst, hlate⟩), ?_, s.draw,
    logged_event ({ s with link := { s.link with partialSent := true } } : State).drawn 0x0709 0 0 s.readyTotal s.draw⟩
  rw [(keeps_eventD0 (Keeps.refl 0xC21000084 _) rfl).same .link rfl]

/-! The anchor's move (R341). -/

/-- A message that is sent, or dropped and counted, changes no route. -/
theorem sameRoutes_record (s : State) (dest vc kind : Nat) (l : List Nat) : SameRoutes s (s.record dest vc kind l) := by
  have hrefl : SameRoutes s s := ⟨fun _ => rfl, fun _ => rfl, rfl, rfl⟩
  unfold State.record State.recordOn
  split
  · exact ⟨fun _ => rfl, fun _ => rfl, rfl, rfl⟩
  · split
    · exact hrefl
    · split
      · exact sameRoutes_bump_dropUnroute ..
      · exact hrefl

theorem record_leaves (s : State) (dest vc kind : Nat) (l : List Nat) : Leaves false dest vc kind l s (s.record dest vc kind l) := by
  intro r hr
  rw [State.record, State.recordOn, hr]
  exact List.mem_append_right _ (.head _)

/-- One message to each of a list of modules leaves to every one of them. -/
theorem foldl_record_leavesTo {dests : List Nat} {m : Nat} (hm : m ∈ dests) (s : State) (vc kind : Nat) (l : List Nat) :
    Leaves false m vc kind l s (dests.foldl (fun u d => u.record d vc kind l) s) := by
  induction dests generalizing s with
  | nil => cases hm
  | cons d r ih =>
    intro route hroute
    rw [List.foldl_cons]
    have hsent : (s.record d vc kind l).sent <+: (r.foldl (fun u d => u.record d vc kind l) (s.record d vc kind l)).sent :=
      (Keeps.foldl (Keeps.refl 0x400000100 _) fun u d => keeps_record (Keeps.refl _ u) rfl).sent
    cases hm with
    | head => exact hsent.subset (record_leaves s m vc kind l route hroute)
    | tail _ hr => exact ih hr (s.record d vc kind l) route (((sameRoutes_record s d vc kind l).leavesOn ..).trans hroute)

theorem anchorLost_moves {s : State} (hrole : s.get F.LNK_ID_ROLE 0 = 2) (hmoved : s.link.anchorMoved = false)
    (hmove : s.link.anchorMoveAt = none) :
    Completes .anchorLost s (fun t => t.link.anchorMoveAt = some (s.frame + 2) ∧
      ∀ m < s.img.accepted.modules, m ≠ s.ownId → Leaves false m 7 6 [s.frame + 2] s t) := by
  refine ⟨_, congrArg Host.Outcome.next (if_pos ⟨hrole, hmoved, hmove⟩), ?_, fun m hm hother => ?_⟩
  · rw [(Keeps.foldl (Keeps.refl 0x400000100 _) fun u d => keeps_record (Keeps.refl _ u) rfl).same .link rfl]
  · have hdest : m ∈ (List.range s.img.accepted.modules).filter (fun m => decide (m ≠ s.ownId)) :=
      List.mem_filter.mpr ⟨List.mem_range.mpr hm, decide_eq_true hother⟩
    exact foldl_record_leavesTo hdest { s with link := { s.link with anchorMoveAt := some (s.frame + 2) } } 7 6 [s.frame + 2]

theorem anchorMove_notes {s : State} (hmoved : s.link.anchorMoved = false) (n : Nat) :
    Completes (.anchorMove n) s (fun t => t.link.anchorMoveAt = some n) :=
  ⟨_, congrArg Host.Outcome.next (if_neg (by rw [hmoved]; exact Bool.false_ne_true)), rfl⟩

theorem mgmtRelay_relays (s : State) (m : Nat) (l : List Nat) :
    Completes (.mgmtRelay m l) s (fun t => t.link.relay = s.link.relay ++ [m :: l]) := ⟨_, rfl, rfl⟩

/-- Settles O52: each command by the theorem about it; the rounding of the mean is log entry 96. -/
theorem systemTick : Obligations.SystemTick := by
  unfold Obligations.SystemTick
  intro s
  exact ⟨fun o k => join_joins, fun m n hchild => readyCount_counts hchild n, sysWaitExpiry_reports, mgmtRelay_relays s,
    fun n hmoved => anchorMove_notes hmoved n, anchorLost_moves, fun l => thetaUpdate_slews, parentSwitch_follows,
    fun u => tickUnaligned_unaligns, fun th n h hparent => tickRejoin_rejoins h hparent th n⟩

end Sys2Proof.Machine
end

section
/-! Writes of the owner entry by entry, and those of host sessions' registers (R361, R366, R554, R555). -/
namespace Sys2Proof.Machine

/-! A write that is taken in. -/

/-- What is wrong with an entry: by the rules of every register, then by those of its own (R366, R554). -/
def State.writeFault (s : State) (bad : State → WriteEntry → Option (Nat × Nat)) (e : WriteEntry) : Option (Nat × Nat) :=
  match s.entryFault e with
  | some v => some (v, 0)
  | none => bad s e

theorem sameBut_acknowledging (s : State) (r : Req) (P : PortSt) : SameBut answerParts s (s.acknowledging r P) := by
  have hkeeps : Keeps (maskList answerParts) s { s with ports := P, fr := (s.acknowledging r P).fr } := .upd (Keeps.refl _ s)
  exact fun p hp => hkeeps.same p (testBit_maskList hp)

theorem applied_foldl (s : State) (r : Req) (l : List WriteEntry) (apply : WriteEntry → State → State) (P : PortSt) :
    Applied r l apply s (l.foldl (fun u e => apply e u) (s.acknowledging r P)) :=
  ⟨s.acknowledging r P, sameBut_acknowledging s r P, ⟨rfl, rfl⟩, rfl⟩

section
variable {s : State} {r : Req} {l : List WriteEntry} (hr : Taken s r true) (hsome : 1 ≤ l.length) (hmost : l.length ≤ 512)
  (hlen : r.len = 12 * l.length)
include hr hsome hmost hlen

/-- A write whose message passes its checks is rejected for its first bad entry, or acknowledged and applied entry by entry. -/
theorem exists_ports_of_writeRequest {bad : State → WriteEntry → Option (Nat × Nat)} (hbad : ∀ P, bad { s with ports := P } = bad s) :
    ∃ P, ∀ apply, s.writeRequest r l bad apply = (State.firstBad (s.writeFault bad) 0 l).elim
      (l.foldl (fun u e => apply e u) (s.acknowledging r P)) (fun v => ({ s with ports := P } : State).reject 0x0A r v) := by
  obtain ⟨hreceived, hctx, hgen, harg0, harg1, howner, hroom, hphase⟩ := hr
  obtain ⟨P, hP⟩ := exists_ports_of_request hreceived (fun u => u.writeChecks r true ++
    [(decide (1 ≤ l.length) && decide (l.length ≤ 512) && decide (r.len = 12 * l.length), verdict rejLen)]) (fun _ => rfl) (by
      rw [firstFail_eq_none_iff]
      simp [State.writeChecks, State.zeroArgs, State.room2, hctx, hgen, harg0, harg1, howner, hroom, hsome, hmost, hlen])
  have hfault : State.writeFault { s with ports := P } bad = s.writeFault bad := by
    funext e
    rw [State.writeFault, State.writeFault, hbad]
    rfl
  refine ⟨P, fun apply => (hP _).trans ?_⟩
  rw [← hfault]
  show (match State.firstBad (State.writeFault { s with ports := P } bad) 0 l with | some v => _ | none => _) = _
  cases State.firstBad (State.writeFault { s with ports := P } bad) 0 l with
  | none => rfl
  | some v => rfl

theorem mgmtWrite_applied (h : State.firstBad (s.writeFault State.mgmtFault) 0 l = none) :
    ∃ P, exec (.mgmtWrite r l) s = .next (l.foldl (fun u e => State.applyMgmt r e u) (s.acknowledging r P)) := by
  obtain ⟨P, hP⟩ := exists_ports_of_writeRequest hr hsome hmost hlen (bad := State.mgmtFault) fun _ => rfl
  exact ⟨P, congrArg Host.Outcome.next ((hP _).trans (by rw [h]; rfl))⟩

theorem mgmtWrite_refused {v : Verdict} (h : State.firstBad (s.writeFault State.mgmtFault) 0 l = some v) :
    Completes (.mgmtWrite r l) s (fun t => Sends (answer 0x0A r v 0) s t ∧ (∀ a, blockOf a ≠ .regsEth → t.reg a = s.reg a) ∧
      t.ctxs = s.ctxs ∧ t.fr = s.fr) := by
  obtain ⟨P, hP⟩ := exists_ports_of_writeRequest hr hsome hmost hlen (bad := State.mgmtFault) fun _ => rfl
  have hkeeps : Keeps 0x400000080 { s with ports := P } (({ s with ports := P } : State).reject 0x0A r v) := keeps_reject (Keeps.refl _ _) rfl
  refine ⟨_, congrArg Host.Outcome.next ((hP _).trans (by rw [h]; rfl)), sends_send { s with ports := P } _, fun a ha => ?_,
    hkeeps.same .ctxs rfl, hkeeps.same .fr rfl⟩
  have hblocks : ∀ k < 17, k ≠ Part.regsEth.code → Nat.testBit 0x400000080 k = false := by decide
  exact hkeeps.reg_eq (hblocks _ (blockOf_code_lt a) fun hcode => ha (code_inj hcode))

/-- A write of host sessions' registers alone meets no rule but those of every register (R361). -/
theorem hsessCfgWrite_applied (haddr : ∀ e ∈ l, 0x400000 ≤ e.addr ∧ e.addr < 0x420000)
    (h : State.firstBad (s.writeFault fun _ _ => none) 0 l = none) :
    ∃ P, exec (.hsessCfgWrite r l) s = .next (l.foldl (fun u e => State.applyHsess e u) (s.acknowledging r P)) := by
  obtain ⟨P, hP⟩ := exists_ports_of_writeRequest hr hsome hmost hlen (bad := fun _ _ => none) fun _ => rfl
  have hall : l.all (fun e => decide (0x400000 ≤ e.addr) && decide (e.addr < 0x420000)) = true := by
    simpa only [List.all_eq_true, Bool.and_eq_true, decide_eq_true_eq] using haddr
  exact ⟨P, congrArg Host.Outcome.next ((if_pos hall).trans ((hP _).trans (by rw [h]; rfl)))⟩
end

/-- A write that touches CTX restarts the session's sample numbers at the tick (R361). -/
theorem restart_applyHsess {e : WriteEntry} (hword : e.addr % 0x20 = 0) (hctx : e.mask / 2 ^ 16 % 2 ^ 10 ≠ 0) (s : State) :
    ((State.applyHsess e s).host ((e.addr - 0x400000) / 0x20)).restart = true := by
  unfold State.applyHsess
  extract_lets u i
  rw [if_pos ⟨hword, hctx⟩]
  exact congrArg HostSess.restart (tget_tset_same ..)

/-! An entry on a word whose fields are all written (R366, R554). -/

/-- The accesses whose bits take the value of a write (R10, R554). -/
def Acc.takesValue (a : Acc) : Bool := decide (a = .rw ∨ a = .ow ∨ a = .rwl ∨ a = .wo)

theorem maskedIn_zero (w : Word) (v : Nat) : maskedIn w v 0 = w := by
  rw [maskedIn, show BitVec.ofNat 32 0 = 0#32 from rfl, BitVec.and_zero, BitVec.or_zero, BitVec.not_zero, BitVec.and_allOnes]

theorem reg_applyEntry_same (s : State) {e : WriteEntry} {row : RegRow} (h : rowAt e.addr = some row) :
    (s.applyEntry e).reg e.addr = maskedIn (s.reg e.addr) e.value (maskOf row e.mask Acc.takesValue) := by
  unfold State.applyEntry
  rw [h]
  show (ite _ _ _ : State).reg e.addr = _
  have hclear : ∀ u : State, (u.clearAtTick e.addr (BitVec.ofNat 32 e.value &&& BitVec.ofNat 32 (maskOf row e.mask fun a => decide (a = .w1c)))).reg
      e.addr = u.reg e.addr := fun _ => rfl
  rw [apply_ite (fun u : State => u.reg e.addr), hclear, ite_self]
  show (ite (maskOf row e.mask Acc.takesValue = 0) _ _ : State).reg e.addr = _
  split
  case isTrue hzero => rw [hzero, maskedIn_zero]
  case isFalse => rw [reg_setReg, if_pos rfl]; rfl

/-- A row of the contexts' block holds the words at its own place in each context's registers, and no others. -/
theorem RegRow.holds_ctx {r : RegRow} (hr : r ∈ rowsCtx) {a c : Nat} (ha : 0x300000 ≤ a ∧ a < 0x300100) (hc : c < 1024) :
    r.holds (a + 0x100 * c) = decide (r.base = a) := by
  have hrows : ∀ r ∈ rowsCtx, r.stride = 0x100 ∧ r.count = 1024 ∧ 0x300000 ≤ r.base ∧ r.base < 0x300100 := by decide
  obtain ⟨hstride, hcount, hlow, hhigh⟩ := hrows r hr
  rw [RegRow.holds, hstride, hcount, ← Bool.decide_and, ← Bool.decide_and, decide_eq_decide]
  omega

theorem rowAt_ctx {a c : Nat} (ha : 0x300000 ≤ a ∧ a < 0x300100) (hc : c < 1024) :
    rowAt (a + 0x100 * c) = rowsCtx.find? (fun r => decide (r.base = a)) := by
  have hrows : rowsAt (a + 0x100 * c) = rowsCtx := by
    unfold rowsAt
    iterate 13 rw [if_neg (by omega)]
    rw [if_pos (by omega)]
  rw [rowAt, hrows]
  exact List.find?_congr fun r hr => RegRow.holds_ctx hr ha hc

theorem maskOf_whole (base stride count reset : Nat) {a : Acc} {p : Acc → Bool} (hp : p a = true) {m : Nat} (hm : m < 2 ^ 32) :
    maskOf ⟨base, stride, count, [⟨31, 0, a, reset⟩]⟩ m p = m := by
  simpa [maskOf, hp] using hm

theorem applyMgmt_ctx {e : WriteEntry} (hlow : 0x300000 ≤ e.addr) (hhigh : e.addr < 0x340000) (r : Req) (s : State) :
    State.applyMgmt r e s = s.applyCtxEntry ((e.addr - 0x300000) / 0x100) e := by
  unfold State.applyMgmt
  exact (if_neg (by omega)).trans (if_pos ⟨hlow, hhigh⟩)

theorem applyCtxEntry_plain (s : State) {c : Nat} {e : WriteEntry} (hcmd : e.addr ≠ F.CTX_CTRL_CMD.addr c)
    (hpause : e.addr ≠ F.CTX_TRAIN_PAUSE.addr c) (hrestore : e.addr ≠ F.CKPT_RESTORE_SOURCE.addr c) : s.applyCtxEntry c e = s.applyEntry e := by
  unfold State.applyCtxEntry
  rw [if_neg hcmd, if_neg hpause, if_neg hrestore]

/-- A context's LR_SCALE is no command register: an entry on it writes its word (R264, R555). -/
theorem applyMgmt_lrScale {c : Nat} (hc : c < 1024) (r : Req) (v m : Nat) (s : State) :
    State.applyMgmt r ⟨F.CTX_LR_SCALE_LR_SCALE.addr c, v, m⟩ s = s.applyEntry ⟨F.CTX_LR_SCALE_LR_SCALE.addr c, v, m⟩ := by
  have haddr : F.CTX_LR_SCALE_LR_SCALE.addr c = 0x300020 + 0x100 * c := rfl
  have hctx : (F.CTX_LR_SCALE_LR_SCALE.addr c - 0x300000) / 0x100 = c := by omega
  have happly : State.applyMgmt r ⟨F.CTX_LR_SCALE_LR_SCALE.addr c, v, m⟩ s = s.applyCtxEntry c ⟨F.CTX_LR_SCALE_LR_SCALE.addr c, v, m⟩ :=
    (applyMgmt_ctx (e := ⟨F.CTX_LR_SCALE_LR_SCALE.addr c, v, m⟩) (by simp only; omega) (by simp only; omega) r s).trans (by simp only [hctx])
  refine happly.trans (applyCtxEntry_plain s ?_ ?_ ?_)
  all_goals
    simp only [Fld.addr, F.CTX_LR_SCALE_LR_SCALE, F.CTX_CTRL_CMD, F.CTX_TRAIN_PAUSE, F.CKPT_RESTORE_SOURCE]
    omega

theorem reg_applyMgmt_lrScale {c m : Nat} (hc : c < 1024) (hm : m < 2 ^ 32) (r : Req) (v : Nat) (s : State) :
    (State.applyMgmt r ⟨F.CTX_LR_SCALE_LR_SCALE.addr c, v, m⟩ s).reg (F.CTX_LR_SCALE_LR_SCALE.addr c) =
      maskedIn (s.reg (F.CTX_LR_SCALE_LR_SCALE.addr c)) v m := by
  have hrow : rowAt (F.CTX_LR_SCALE_LR_SCALE.addr c) = some ⟨0x300020, 0x100, 1024, [⟨31, 0, .ow, 0x3F800000⟩]⟩ :=
    (rowAt_ctx (a := 0x300020) (by decide) hc).trans (by decide)
  rw [applyMgmt_lrScale hc, reg_applyEntry_same (e := ⟨F.CTX_LR_SCALE_LR_SCALE.addr c, v, m⟩) s hrow, maskOf_whole _ _ _ _ rfl hm]

/-- Settles O41: a write is applied entry by entry, or refused with every register but those of the ports as it was. -/
theorem managementWrites : Obligations.ManagementWrites := by
  unfold Obligations.ManagementWrites
  intro s r l hr hsome hmost hlen
  refine ⟨fun h => ?_, fun v h => mgmtWrite_refused hr hsome hmost hlen h, fun haddr h => ?_⟩
  · obtain ⟨P, hP⟩ := mgmtWrite_applied hr hsome hmost hlen h
    refine ⟨⟨_, hP, applied_foldl s r l _ P⟩, ?_⟩
    rintro c v m hc rfl hm
    exact ⟨_, hP, reg_applyMgmt_lrScale hc hm r v (s.acknowledging r P)⟩
  · have hfault : s.writeFault (fun _ _ => none) = fun e => (s.entryFault e).map (fun v => (v, 0)) := by
      funext e
      rw [State.writeFault]
      cases s.entryFault e <;> rfl
    obtain ⟨P, hP⟩ := hsessCfgWrite_applied hr hsome hmost hlen haddr (hfault ▸ h)
    refine ⟨⟨_, hP, applied_foldl s r l _ P⟩, ?_⟩
    rintro e rfl hword hctx
    exact ⟨_, hP, restart_applyHsess hword hctx (s.acknowledging r P)⟩

end Sys2Proof.Machine
end

section
/-! Claims, the owner's requests, the lease and idle sessions (R362 to R365). -/
namespace Sys2Proof.Machine

/-! A message as it arrives at its session. -/

/-- What the arrival of a message leaves of the ports: the waiting claims and requests, and each session's nonce (R362, R367). -/
structure NotesArrival (s : State) (P : PortSt) : Prop where
  claims : P.claims = s.ports.claims
  requests : P.requests = s.ports.requests
  nonce : ∀ i, (tget MgmtSess.empty P.mgmt i).nonce = (s.mgmt i).nonce

theorem notesArrival_arrive (s : State) (type : Nat) (r : Req) : NotesArrival s (s.arrive type r).ports := by
  unfold State.arrive
  split
  · refine ⟨rfl, rfl, fun i => (congrArg MgmtSess.nonce (tget_tset ..)).trans ?_⟩
    split
    case isTrue h => rw [h]; rfl
    case isFalse => rfl
  · split <;> exact ⟨rfl, rfl, fun _ => rfl⟩

theorem arrive_eq (s : State) (type : Nat) (r : Req) : s.arrive type r = { s with ports := (s.arrive type r).ports } := by
  unfold State.arrive
  split
  · rfl
  · split <;> rfl

/-- A message that is taken in runs its request on the state in which its arrival is noted. -/
theorem exists_arrival {s : State} {type : Nat} {r : Req} (h : Received s type r) :
    ∃ P, NotesArrival s P ∧ ∀ body, s.withRequest type r body = body { s with ports := P } := by
  obtain ⟨hquiet, hok⟩ := h
  refine ⟨_, notesArrival_arrive s type r, fun body => ?_⟩
  rw [State.withRequest, hquiet, hok, if_neg Bool.false_ne_true, if_pos rfl, ← arrive_eq]

/-! Claims (R363, R365, R510). -/

/-- A claim as it waits: one whose proof does not parse has failed already. -/
def State.claimOf (s : State) (own : Bool) (r : Req) (nonce cred : Nat) : Claim :=
  ⟨own, r, nonce, s.frame, s.now + r.t, cred, if proofParses cred r.len then none else some ⟨false, false, 0⟩⟩

section
variable {s : State} {own : Bool} {r : Req} {cred : Nat} (hctx : r.ctx = 0) (hgen : r.gen = 0) (harg0 : r.arg0 = if own = true then 1 else 0)
  (hmin : 72 ≤ r.len) (hmax : r.len ≤ 32768) (hroom : s.fr.q2 < 64) (nonce : Nat)
include hctx hgen harg0 hmin hmax hroom

/-- A claim without a session waits if its proof parses. -/
theorem claim_unbound (hsession : r.session = 0xFFFF) (hparses : proofParses cred r.len = true) :
    s.claim own r nonce cred = s.queue2.setClaims (s.ports.claims ++ [s.claimOf own r nonce cred]) := by
  simp [State.claim, State.claimOf, State.room2, hctx, hgen, harg0, hmin, hmax, hroom, hsession, hparses]

/-- A claim of an open session waits; a proof that does not parse is counted. -/
theorem claim_bound (hmgmt : isMgmt r.session = true) (hr : Received s 0x0B r) : ∃ P, s.claim own r nonce cred =
    State.setClaims (if proofParses cred r.len then State.queue2 { s with ports := P }
      else (State.queue2 { s with ports := P }).bump F.SEC_STAT_CRED_REFUSED 0 1) (s.ports.claims ++ [s.claimOf own r nonce cred]) := by
  obtain ⟨P, hP, hbody⟩ := exists_arrival hr
  have hsession : r.session ≠ 0xFFFF := by
    rintro h
    rw [h] at hmgmt
    exact absurd hmgmt (by decide)
  refine ⟨P, ?_⟩
  rw [State.claim, if_neg hsession, hbody, (firstFail_eq_none_iff _).mpr (by simp [State.room2, hctx, hgen, harg0, hmgmt, hmin, hmax, hroom]),
    ← hP.claims]
  rfl

theorem claim_waits (h : (r.session = 0xFFFF ∧ proofParses cred r.len = true) ∨ (isMgmt r.session = true ∧ Received s 0x0B r)) :
    (s.claim own r nonce cred).fr.q2 = s.fr.q2 + 1 ∧
      (s.claim own r nonce cred).ports.claims = s.ports.claims ++ [s.claimOf own r nonce cred] := by
  obtain ⟨hsession, hparses⟩ | ⟨hmgmt, hr⟩ := h
  · rw [claim_unbound hctx hgen harg0 hmin hmax hroom nonce hsession hparses]
    exact ⟨rfl, rfl⟩
  · obtain ⟨P, hP⟩ := claim_bound hctx hgen harg0 hmin hmax hroom nonce hmgmt hr (cred := cred)
    rw [hP]
    refine ⟨?_, rfl⟩
    show (ite _ _ _ : State).fr.q2 = _
    split
    · rfl
    · rw [State.bump_fr]
      rfl
end

theorem execClaimProofVerified_eq {s : State} {n tag nonce : Nat} {c : Claim} {x : Credential}
    (hfind : s.ports.claims.find? (fun c => decide (c.req.session = n ∧ c.req.tag = tag ∧ c.nonce = nonce ∧ c.verdict = none)) = some c)
    (hread : Credential.read c.cred = some x) (root sig : Bool) : exec (.claimProofVerified n tag nonce ⟨root, sig⟩) s = .next (s.proved c
      ⟨root && sig && s.credentialStands false x && s.claimTimely c && (!c.own || decide (x.role = 1)), decide (x.role = 1), x.serial⟩) := by
  show execClaimProofVerified n tag nonce ⟨root, sig⟩ s = _
  simp only [execClaimProofVerified, hfind, State.verdictOf, hread]

/-- A proof that stands uses its nonce up, and its claim counts. -/
theorem proved_good (s : State) (c : Claim) {v : ProofVerdict} (h : v.good = true) :
    (s.proved c v).ports.nonces = s.ports.nonces ++ [c.nonce] ∧
      (s.proved c v).ports.claims = s.ports.claims.map (fun y => if y = c then { y with verdict := some v } else y) := by
  simp [State.proved, State.setClaims, h]

/-- A failed proof without a session is counted, and its claim discarded. -/
theorem proved_bad (s : State) {c : Claim} {v : ProofVerdict} (h : v.good = false) (hsession : c.req.session = 0xFFFF) :
    (s.proved c v).ports.claims = s.ports.claims.erase c ∧ Advanced F.SEC_STAT_CRED_REFUSED 0 1 s (s.proved c v) := by
  have hproved : s.proved c v = (s.bump F.SEC_STAT_CRED_REFUSED 0 1).setClaims (s.ports.claims.erase c) := by
    simp [State.proved, h, hsession]
  rw [hproved]
  exact ⟨rfl, advanced_bump rfl (by decide) 1 s⟩

/-! Requests of the owner and of observers (R364, R365). -/

theorem renew_renews {s : State} {r : Req} {nonce : Nat} (hr : Received s 0x0B r) (hctx : r.ctx = 0) (hgen : r.gen = 0) (harg0 : r.arg0 = 2)
    (howner : s.isOwner r = true) (hlen : r.len = 8) (hroom : s.fr.q2 < 64) (hnonce : (s.mgmt (r.session - 0xFFF0)).nonce = nonce) :
    Completes (.renew r nonce) s (fun t => t.ports.lease = s.now + r.t ∧
      t.fr.held = s.fr.held ++ [⟨2, 0, answer 0x0B r ⟨stOk, 0, 1⟩ r.session⟩]) := by
  obtain ⟨P, hP, hbody⟩ := exists_arrival hr
  have hnonce' : (({ s with ports := P } : State).mgmt (r.session - 0xFFF0)).nonce = nonce := (hP.nonce _).trans hnonce
  have howner' : ({ s with ports := P } : State).isOwner r = true := howner
  have hexec : exec (.renew r nonce) s =
      .next (((State.queue2 { s with ports := P }).setLease (s.now + r.t)).accept 0x0B 2 r 1 r.session) := by
    refine congrArg Host.Outcome.next ((hbody _).trans ?_)
    dsimp only
    rw [(firstFail_eq_none_iff _).mpr (by simp [State.room2, hctx, hgen, harg0, howner', hlen, hroom, hnonce'])]
    rfl
  exact ⟨_, hexec, rfl, rfl⟩

/-- A request that waits for its turn at the tick: its checks pass, and it is queued. -/
theorem completes_of_ownRequest {s : State} {type k : Nat} {r : Req} {i : Instr} (hr : Received s type r) (checks : State → List (Bool × Verdict))
    (hexec : exec i s = .next (s.withRequest type r fun u => u.decide_ type r (firstFail (checks u)) fun u =>
      { u.queue2 with ports := { u.ports with requests := u.ports.requests ++ [⟨k, r⟩] } }))
    (hports : ∀ P, checks { s with ports := P } = checks s) (hpass : firstFail (checks s) = none) :
    Completes i s (fun t => t.ports.requests = s.ports.requests ++ [⟨k, r⟩] ∧ t.fr.q2 = s.fr.q2 + 1) := by
  obtain ⟨P, hP, hbody⟩ := exists_arrival hr
  refine ⟨_, hexec.trans (congrArg Host.Outcome.next (hbody _)), ?_⟩
  rw [hports, hpass, ← hP.requests]
  exact ⟨rfl, rfl⟩

section
variable {s : State} {r : Req} (hctx : r.ctx = 0) (hgen : r.gen = 0) (harg1 : r.arg1 = 0) (hlen : r.len = 0) (hroom : s.fr.q2 < 64)
include hctx hgen harg1 hlen hroom

/-- The checks of a request without a payload, whose ARG0 takes k bits, pass (R70, R571). -/
theorem firstFail_ownChecks {k : Nat} (harg0 : r.arg0 < 2 ^ k) {right : Bool} (hright : right = true) :
    firstFail [(State.zeroArgs r k, verdict rejFormat), (right, verdict rejOwner), (s.room2, budget 7), (decide (r.len = 0), verdict rejLen)] =
      none := by
  rw [firstFail_eq_none_iff]
  simp [State.zeroArgs, State.room2, hctx, hgen, harg0, harg1, hlen, hroom, hright]

theorem release_waits (hr : Received s 0x0C r) (harg0 : r.arg0 = 0) (howner : s.isOwner r = true) :
    Completes (.release r) s (fun t => t.ports.requests = s.ports.requests ++ [⟨0, r⟩] ∧ t.fr.q2 = s.fr.q2 + 1) :=
  completes_of_ownRequest hr (fun u => [(State.zeroArgs r 0, verdict rejFormat), (u.isOwner r, verdict rejOwner), (u.room2, budget 7),
    (decide (r.len = 0), verdict rejLen)]) rfl (fun _ => rfl) (firstFail_ownChecks (k := 0) hctx hgen harg1 hlen hroom (by omega) howner)

theorem releaseClose_waits (hr : Received s 0x0C r) (harg0 : r.arg0 < 2) (hmgmt : isMgmt r.session = true) :
    Completes (.releaseClose r) s (fun t => t.ports.requests = s.ports.requests ++ [⟨1, r⟩] ∧ t.fr.q2 = s.fr.q2 + 1) :=
  completes_of_ownRequest hr (fun u => [(State.zeroArgs r 1, verdict rejFormat), (isMgmt r.session, verdict rejOwner), (u.room2, budget 7),
    (decide (r.len = 0), verdict rejLen)]) rfl (fun _ => rfl) (firstFail_ownChecks hctx hgen harg1 hlen hroom harg0 hmgmt)

theorem handover_waits (hr : Received s 0x0D r) (harg0 : r.arg0 < 2 ^ 16) (howner : s.isOwner r = true) :
    Completes (.handover r) s (fun t => t.ports.requests = s.ports.requests ++ [⟨2, r⟩] ∧ t.fr.q2 = s.fr.q2 + 1) :=
  completes_of_ownRequest hr (fun u => [(State.zeroArgs r 16, verdict rejFormat), (u.isOwner r, verdict rejOwner), (u.room2, budget 7),
    (decide (r.len = 0), verdict rejLen)]) rfl (fun _ => rfl) (firstFail_ownChecks hctx hgen harg1 hlen hroom harg0 howner)
end

/-! A session's state changes, and its EVENT (R362, R364, R365). -/

theorem sessState_notMem_eventWords {i : Nat} (hi : i < 8) : F.OWN_SESS_STATE.addr i ∉ eventWords := by
  simp only [eventWords, Fld.addr, F.OWN_SESS_STATE, F.FLT_LOG_NEXT, F.ETH_TX_LOST_STREAMS, List.mem_cons, List.not_mem_nil, or_false]
  omega

theorem get_ownChanged_state (s : State) (i : Nat) {j : Nat} (hj : j < 8) :
    (s.ownChanged i).get F.OWN_SESS_STATE j = s.get F.OWN_SESS_STATE j :=
  get_event (sessState_notMem_eventWords hj) s.drawn ..

theorem ownerNum_ownChanged (s : State) (i : Nat) : (s.ownChanged i).ownerNum = s.ownerNum := by
  have howner : (s.ownChanged i).ownerIdx = s.ownerIdx :=
    List.find?_congr fun j hj => by rw [get_ownChanged_state s i (List.mem_range.mp hj)]
  rw [State.ownerNum, State.ownerNum, howner]

/-- OWN_CHANGED is logged with the owner that it leaves, whatever changed before it that is neither the log, the frame nor PTP time. -/
theorem logged_ownChanged {s u : State} (hflt : u.flt = s.flt) (hframe : u.frame = s.frame) (hsec : u.ports.ptpSec = s.ports.ptpSec)
    (hns : u.ports.ptpNs = s.ports.ptpNs) (i : Nat) :
    ∃ d1, Logged 0x0307 7 (0xFFF0 + i) (u.ownChanged i).ownerNum d1 s (u.ownChanged i) := by
  have hlogged : Logged 0x0307 7 (0xFFF0 + i) u.ownerNum u.draw u.drawn (u.ownChanged i) := logged_event u.drawn _ _ _ _ _
  refine ⟨u.draw, ?_⟩
  rw [ownerNum_ownChanged]
  unfold Logged at hlogged ⊢
  simpa only [show u.drawn.flt = s.flt from hflt, show u.drawn.frame = s.frame from hframe,
    show u.drawn.ports.ptpSec = s.ports.ptpSec from hsec, show u.drawn.ports.ptpNs = s.ports.ptpNs from hns] using hlogged

theorem mgmt_toHost (s : State) (i j : Nat) (m : OutMsg) : (State.toHost i m s).mgmt j = s.mgmt j := by
  rw [State.mgmt, State.toHost, State.send_ports]
  rfl

/-- An EVENT leaves the record of a closed session as it is: it goes to the open ones alone (R357). -/
theorem mgmt_event_of_closed {s : State} {j : Nat} (hj : j < 8) (h : s.get F.OWN_SESS_STATE j = 0) (st k i d0 d1 : Nat) :
    (s.event st k i d0 d1).mgmt j = s.mgmt j := by
  have hlog : (s.logEvent st k i d0 d1).mgmt j = s.mgmt j :=
    congrArg (fun P : PortSt => tget MgmtSess.empty P.mgmt j) ((keeps_logEvent (Keeps.refl 0x20000004 s) rfl).same .ports rfl)
  have hclosed : ∀ n ∈ (s.logEvent st k i d0 d1).openMgmt, j ≠ n := by
    rintro n hn rfl
    obtain ⟨-, hopen⟩ := List.mem_filter.mp hn
    rw [get_logEvent (sessState_notMem_eventWords hj), h] at hopen
    exact absurd hopen (by decide)
  unfold State.event
  extract_lets c n m u v
  have hv : v.mgmt j = s.mgmt j :=
    (foldl_keeps_value (fun w => w.mgmt j) _ u fun w n hn => mgmt_toMgmt_other w (hclosed n hn) m).trans hlog
  split
  · exact (foldl_keeps_value (fun w => w.mgmt j) _ v fun w n _ => mgmt_toHost w n j m).trans hv
  · exact hv

theorem get_setSess (s : State) {i st : Nat} (hi : i < 8) (hst : st < 4) : (s.setSess i st).get F.OWN_SESS_STATE i = st :=
  (get_ownChanged_state _ i hi).trans ((get_put_same s rfl hi st).trans (Nat.mod_eq_of_lt hst))

theorem leaseExpiry_lapses {s : State} {i : Nat} (howner : s.ownerIdx = some i) (hlease : s.ports.lease + 5 * 10 ^ 9 ≤ s.now) :
    Completes .leaseExpiry s (fun t => t.get F.OWN_SESS_STATE i = 1 ∧ ∃ d1, Logged 0x0307 7 (0xFFF0 + i) t.ownerNum d1 s t) := by
  have hi : i < 8 := List.mem_range.mp (List.mem_of_find?_eq_some howner)
  have hstep : s.leaseStep = s.setSess i 1 := by
    rw [State.leaseStep, howner]
    exact if_pos hlease
  exact ⟨_, congrArg Host.Outcome.next hstep, get_setSess s hi (by decide),
    logged_ownChanged (State.put_flt ..) (State.put_frame ..) (by rw [State.put_ports]) (by rw [State.put_ports]) i⟩

/-- A session with its registers and its record empty, before the EVENT that reports it. -/
def State.emptied (s : State) (i : Nat) : State :=
  ((s.put F.OWN_SESS_STATE i 0).put F.OWN_SESS_OWNER_ROLE i 0).updMgmt i (fun _ => MgmtSess.empty)

theorem get_emptied (s : State) {i : Nat} (hi : i < 8) : (s.emptied i).get F.OWN_SESS_STATE i = 0 :=
  (get_put_apart (s.put F.OWN_SESS_STATE i 0) rfl rfl rfl ..).trans (get_put_same s rfl hi 0)

theorem exists_ports_emptied (s : State) (i : Nat) : ∃ m, (s.emptied i).ports = { s.ports with mgmt := m } := by
  unfold State.emptied State.updMgmt
  simp only [State.put_ports]
  exact ⟨_, rfl⟩

theorem closeSess_closes (s : State) {i : Nat} (hi : i < 8) :
    (s.closeSess i).get F.OWN_SESS_STATE i = 0 ∧ (s.closeSess i).mgmt i = MgmtSess.empty ∧
      ∃ d1, Logged 0x0307 7 (0xFFF0 + i) (s.closeSess i).ownerNum d1 s (s.closeSess i) := by
  have hmgmt : (s.emptied i).mgmt i = MgmtSess.empty :=
    tget_tset_same MgmtSess.empty ((s.put F.OWN_SESS_STATE i 0).put F.OWN_SESS_OWNER_ROLE i 0).ports.mgmt i MgmtSess.empty
  obtain ⟨m, hports⟩ := exists_ports_emptied s i
  refine ⟨(get_ownChanged_state _ i hi).trans (get_emptied s hi),
    (mgmt_event_of_closed (s := (s.emptied i).drawn) hi (get_emptied s hi) ..).trans hmgmt,
    logged_ownChanged (u := s.emptied i) ?_ ?_ (by rw [hports]) (by rw [hports]) i⟩
  · exact (State.put_flt ..).trans (State.put_flt ..)
  · exact (State.put_frame ..).trans (State.put_frame ..)

theorem sessionIdleClose_closes {s : State} {i : Nat} (hi : i < 8) (hopen : s.get F.OWN_SESS_STATE i ≠ 0)
    (hidle : (s.mgmt i).lastMsg + 30 * 10 ^ 9 ≤ s.now) :
    Completes (.sessionIdleClose (0xFFF0 + i)) s (fun t => t.get F.OWN_SESS_STATE i = 0 ∧ t.mgmt i = MgmtSess.empty ∧
      ∃ d1, Logged 0x0307 7 (0xFFF0 + i) t.ownerNum d1 s t) := by
  have hmgmt : isMgmt (0xFFF0 + i) = true := by
    simp only [isMgmt, Bool.and_eq_true, decide_eq_true_eq]
    omega
  have hstep : s.idleStep (0xFFF0 + i - 0xFFF0) = s.closeSess i := by
    rw [Nat.add_sub_cancel_left]
    exact if_pos ⟨hopen, hidle⟩
  exact ⟨_, congrArg Host.Outcome.next ((if_pos hmgmt).trans hstep), closeSess_closes s hi⟩

/-- Settles O42: claims, requests, the lease and idle sessions by the theorems about them. -/
theorem ownership : Obligations.Ownership := by
  unfold Obligations.Ownership
  intro s r
  refine ⟨fun own nonce cred hctx hgen harg0 hmin hmax hroom h => ?_, fun nonce hr hctx hgen harg0 howner hlen hroom hnonce =>
    renew_renews hr hctx hgen harg0 howner hlen hroom hnonce, fun n tag nonce root sig c x hfind hread => ?_, ?_,
    fun i => leaseExpiry_lapses, fun i => sessionIdleClose_closes⟩
  · have hexec : exec (if own then .claimOwn r nonce cred else .claimObserve r nonce cred) s = .next (s.claim own r nonce cred) := by
      cases own <;> rfl
    exact ⟨_, hexec, claim_waits hctx hgen harg0 hmin hmax hroom nonce h⟩
  · have hfound := List.find?_some hfind
    simp only [decide_eq_true_eq] at hfound
    obtain ⟨hsession, -, hnonce, -⟩ := hfound
    have hexec := execClaimProofVerified_eq hfind hread root sig
    exact ⟨fun hstands => ⟨_, hexec.trans (by rw [hstands]), hnonce ▸ proved_good s c rfl⟩,
      fun hfails hn => ⟨_, hexec, proved_bad s hfails (hsession.trans hn)⟩⟩
  · exact fun hroom hctx hgen harg1 hlen => ⟨release_waits hctx hgen harg1 hlen hroom, releaseClose_waits hctx hgen harg1 hlen hroom,
      handover_waits hctx hgen harg1 hlen hroom⟩

end Sys2Proof.Machine
end

section
/-! The owner's writes of one entry: resets, calibration, security, image, debug and port commands (R366, R405, R406, R496, R501, R503,
R512, R513, R522, R524, R542, R551). -/
namespace Sys2Proof.Machine

/-- A command with further checks of its own acts at once, beside its answer, when they pass. -/
theorem completes_of_commandWriteIf {s : State} {r : Req} {anyPhase : Bool} (h : TakenOne s r anyPhase) {i : Instr} {extra : List (Bool × Verdict)}
    {effect : State → State} (hexec : exec i s = .next (s.commandWriteIf r anyPhase extra effect)) (hextra : ∀ e ∈ extra, e.1 = true)
    {Q : State → Prop} (hQ : ∀ P, Q (effect (s.acknowledging r P))) : Completes i s Q := by
  obtain ⟨P, hP⟩ := exists_ports_of_request h.1.1 (fun u => u.writeChecks r anyPhase ++ State.oneEntry r :: extra) (fun _ => rfl) (by
    have hcommand := (firstFail_eq_none_iff _).mp (firstFail_commandChecks h)
    rw [firstFail_eq_none_iff]
    intro e he
    rcases List.mem_append.mp he with hbase | hbase
    · exact hcommand e (List.mem_append_left _ hbase)
    · rcases List.mem_cons.mp hbase with rfl | hmore
      · exact hcommand _ (List.mem_append_right _ (.head _))
      · exact hextra e hmore)
  exact ⟨_, hexec.trans (congrArg Host.Outcome.next (hP fun _ u => effect (u.queue2.accept 0x0A 2 r 0 0))), hQ P⟩

theorem get_acknowledging (s : State) (r : Req) (P : PortSt) (f : Fld) (i : Nat) : (s.acknowledging r P).get f i = s.get f i :=
  get_congr rfl f i

/-! Recalibration (R493, R496). -/

theorem calStart_runs {s : State} (hfree : s.get F.CAL_STATUS_BUSY 0 = 0) (session scope unit : Nat) (pattern : Bool) :
    (s.calStart session scope unit pattern).cal.run = some ⟨scope, unit, session⟩ ∧
      (s.calStart session scope unit pattern).get F.CAL_STATUS_BUSY 0 = 1 := by
  unfold State.calStart
  extract_lets u cal v w x
  have hbusy : u.get F.CAL_STATUS_BUSY 0 = 0 := by
    iterate 3 refine (get_put_addr _ (by decide) _).trans ?_
    exact hfree
  have hw : w.cal.run = some ⟨scope, unit, session⟩ ∧ w.get F.CAL_STATUS_BUSY 0 = 1 := by
    refine ⟨?_, (get_put_apart _ rfl rfl rfl ..).trans (get_put_same v rfl (by decide) 1)⟩
    rw [State.put_cal, State.put_cal]
  have hx : x.cal.run = w.cal.run ∧ x.get F.CAL_STATUS_BUSY 0 = w.get F.CAL_STATUS_BUSY 0 := by
    refine ⟨by rw [State.put_cal], get_put_elsewhere w (fun hunit => ?_) 0⟩
    simp only [Fld.addr, F.CAL_STATUS_BUSY, F.CAL_BATT_REFUSED_COLS]
    omega
  rw [if_neg (by rw [hbusy]; decide)]
  split
  · exact ⟨hx.1.trans hw.1, (get_congr rfl ..).trans (hx.2.trans hw.2)⟩
  · exact hw

theorem completes_of_calGo {s : State} {r : Req} (hr : TakenOne s r true) (hwritable : s.calWritable = true)
    (hfree : s.get F.CAL_STATUS_BUSY 0 = 0) {i : Instr} {scope unit : Nat} {pattern : Bool}
    (hexec : exec i s = .next (s.calGo r scope unit pattern)) :
    Completes i s (fun t => (t.cal.run = some ⟨scope, unit, r.session⟩ ∧ t.get F.CAL_STATUS_BUSY 0 = 1) ∧ Acknowledged r s t) := by
  -- The state is named before its fields are read: the kernel would evaluate a field of the effect applied to it.
  obtain ⟨t, ht, P, rfl⟩ := completes_of_commandWriteIf hr hexec (by simpa using hwritable)
    (Q := fun t => ∃ P, t = (s.acknowledging r P).calStart r.session scope unit pattern) fun P => ⟨P, rfl⟩
  exact ⟨_, ht, calStart_runs ((get_acknowledging s r P _ 0).trans hfree) ..,
    .of_fr ((keeps_calStart (Keeps.refl 0x84041010 _) rfl).same .fr rfl)⟩

/-! Security commands (R501, R503, R512, R513). -/

theorem askQuote_begins {s : State} {t : Nat} (hfree : s.get F.SEC_STAT_QUOTE_BUSY 0 = 0)
    (hlast : ∀ u, s.sec.lastQuote = some u → u + 10 ^ 8 ≤ t) :
    (s.askQuote t).sec.quoteBusy = some t ∧ (s.askQuote t).get F.SEC_STAT_QUOTE_BUSY 0 = 1 := by
  unfold State.askQuote
  extract_lets soon n
  have hsoon : soon = false := by
    unfold soon
    split
    case h_1 u hu => exact decide_eq_false (Nat.not_lt.mpr (hlast u hu))
    case h_2 => rfl
  rw [if_neg (by simp [hfree, hsoon])]
  exact ⟨by rw [State.put_sec], get_put_same _ rfl (by decide) 1⟩

theorem blow_svnCommit (s : State) : s.svnCommit.sec.blow = s.sec.blow ++ (if s.svnFused < s.get F.SEC_BOOT_SVN_FW 0 then
    [⟨768 + s.svnFused, 2 ^ (s.get F.SEC_BOOT_SVN_FW 0 - s.svnFused) - 1, 0, false⟩] else []) := by
  unfold State.svnCommit
  extract_lets n
  split
  · rfl
  · exact (List.append_nil _).symm

theorem fr_svnCommit (s : State) : s.svnCommit.fr = s.fr := by
  unfold State.svnCommit
  extract_lets n
  split <;> rfl

/-- The larger of the two epochs stands. -/
theorem get_raiseEpoch (s : State) (v m : Nat) : (s.raiseEpoch v m).get F.SEC_CRED_EPOCH_EPOCH 0 =
    max (s.get F.SEC_CRED_EPOCH_EPOCH 0) (maskedIn (BitVec.ofNat 32 (s.get F.SEC_CRED_EPOCH_EPOCH 0)) v m).toNat :=
  (get_put_same s rfl (by decide) _).trans (Nat.mod_eq_of_lt (Nat.max_lt.mpr ⟨get_lt s _ _, BitVec.isLt _⟩))

/-- With its key in the same entry a security command acts (R554). -/
theorem secWrite_confirmed (s : State) (r : Req) (extra : List (Bool × Verdict)) (effect : State → State) :
    s.secWrite r 0x5A extra effect = s.commandWriteIf r true extra effect := by
  simp only [State.secWrite, if_true]

theorem lockedWrite_confirmed (s : State) (touched : Bool) (r : Req) (extra : List (Bool × Verdict)) (effect : State → State) :
    s.lockedWrite touched r 0x5A extra effect =
      s.commandWriteIf r true ((!(touched && decide (s.get F.SEC_FUSE_LOCK 0 = 1)), verdict rejOwner) :: extra) effect := by
  simp only [State.lockedWrite, if_true]

section
variable {s : State} {r : Req} (hr : TakenOne s r true)
include hr

theorem completes_of_secWrite {i : Instr} {effect : State → State} (hexec : exec i s = .next (s.secWrite r 0x5A [] effect))
    {Q : State → Prop} (hQ : ∀ P, Q (effect (s.acknowledging r P))) : Completes i s Q :=
  completes_of_commandWriteIf hr (hexec.trans (congrArg Host.Outcome.next (secWrite_confirmed ..))) (by simp) hQ

/-- A command on a field that LOCK protects acts while LOCK is not blown, or where it touches no such field (R10, R554). -/
theorem completes_of_lockedWrite {i : Instr} {touched : Bool} {extra : List (Bool × Verdict)} {effect : State → State}
    (hexec : exec i s = .next (s.lockedWrite touched r 0x5A extra effect)) (hlock : s.get F.SEC_FUSE_LOCK 0 = 0 ∨ touched = false)
    (hextra : ∀ e ∈ extra, e.1 = true) {Q : State → Prop} (hQ : ∀ P, Q (effect (s.acknowledging r P))) : Completes i s Q := by
  refine completes_of_commandWriteIf hr (hexec.trans (congrArg Host.Outcome.next (lockedWrite_confirmed ..))) (fun e he => ?_) hQ
  rcases List.mem_cons.mp he with rfl | hmore
  · rcases hlock with hlock | hlock <;> simp [hlock]
  · exact hextra e hmore

theorem quoteGo_begins (hfree : s.get F.SEC_STAT_QUOTE_BUSY 0 = 0) (hlast : ∀ u, s.sec.lastQuote = some u → u + 10 ^ 8 ≤ s.now + r.t) :
    Completes (.quoteGo r 0x5A) s (fun t => (t.sec.quoteBusy = some (s.now + r.t) ∧ t.get F.SEC_STAT_QUOTE_BUSY 0 = 1) ∧ Acknowledged r s t) :=
  completes_of_secWrite hr (effect := fun u => u.askQuote (u.now + r.t)) rfl fun P =>
    ⟨askQuote_begins ((get_acknowledging s r P ..).trans hfree) hlast, .of_fr ((keeps_askQuote (Keeps.refl 0x100000020 _) rfl).same .fr rfl)⟩

theorem svnCommit_blows : Completes (.svnCommit r 0x5A) s (fun t => t.sec.blow = s.sec.blow ++
    (if s.svnFused < s.get F.SEC_BOOT_SVN_FW 0 then [⟨768 + s.svnFused, 2 ^ (s.get F.SEC_BOOT_SVN_FW 0 - s.svnFused) - 1, 0, false⟩] else []) ∧
      Acknowledged r s t) :=
  completes_of_secWrite hr (effect := State.svnCommit) rfl fun P =>
    ⟨blow_svnCommit (s.acknowledging r P), .of_fr (fr_svnCommit _)⟩

theorem lock_blows (hunlocked : s.get F.SEC_FUSE_LOCK 0 = 0) (howner : s.ownerSet = true) :
    Completes (.lock r 0x5A) s (fun t => t.sec.blow = s.sec.blow ++ [⟨836, 1, 1, false⟩] ∧ Acknowledged r s t) :=
  completes_of_lockedWrite hr (effect := fun u => u.askBlow 836 1 1) rfl (.inl hunlocked) (by simpa using howner) fun _ => ⟨rfl, .of_fr rfl⟩

theorem dbgDisable_blows {m : Nat} (h : s.get F.SEC_FUSE_LOCK 0 = 0 ∨ m % 16 = 0) :
    Completes (.dbgDisable r 0x5A m) s (fun t => t.sec.blow = s.sec.blow ++ [⟨832, m % 16, 2, false⟩] ∧ Acknowledged r s t) :=
  completes_of_lockedWrite hr (effect := fun u => u.askBlow 832 (m % 16) 2) rfl (h.imp_right fun hzero => by simp [hzero]) (by simp)
    fun _ => ⟨rfl, .of_fr rfl⟩

theorem secCredEpochWrite_raises (v m : Nat) : Completes (.secCredEpochWrite r v m) s (fun t => t.get F.SEC_CRED_EPOCH_EPOCH 0 =
    max (s.get F.SEC_CRED_EPOCH_EPOCH 0) (maskedIn (BitVec.ofNat 32 (s.get F.SEC_CRED_EPOCH_EPOCH 0)) v m).toNat ∧ Acknowledged r s t) :=
  completes_of_commandWrite hr (effect := fun u => u.raiseEpoch v m) rfl fun P =>
    ⟨get_raiseEpoch (s.acknowledging r P) v m, .of_fr (State.put_fr ..)⟩

/-! Device reset and OUT_OF_SERVICE (R405, R406). -/

theorem fltReset_asks (hallowed : s.resetAllowed = true) :
    Completes (.fltReset r) s (fun t => t.flt.ownerReset = true ∧ Acknowledged r s t) :=
  completes_of_commandWriteIf hr (effect := State.askReset) rfl (by simpa using hallowed) fun _ => ⟨rfl, .of_fr rfl⟩

theorem fltOos_asks (hnone : s.flt.oosDue = none) : Completes (.fltOos r) s (fun t => t.flt.oosDue = some 5 ∧ Acknowledged r s t) :=
  completes_of_commandWrite hr (effect := fun u => u.oosNext 5) rfl fun P =>
    ⟨by simp only [State.oosNext, show (s.acknowledging r P).flt.oosDue = none from hnone], .of_fr rfl⟩
end

/-! Image slots (R542). -/

theorem slot_updSlot_same (s : State) (k : Nat) (f : SlotSt → SlotSt) : (s.updSlot k f).slot k = f (s.slot k) := by
  unfold State.updSlot State.slot
  split <;> rfl

theorem slot_congr {s t : State} (h : t.img = s.img) (k : Nat) : t.slot k = s.slot k := by
  rw [State.slot, State.slot, h]

theorem img_putSealed (s : State) (k v : Nat) : (s.putSealed k v).img = s.img := by
  unfold State.putSealed
  split <;> exact State.put_img ..

theorem eraseSlot_erases (s : State) (k : Nat) : ((s.eraseSlot k).slot k).erasing = true ∧
    ((s.eraseSlot k).slot k).words = (s.slot k).unsealed ∧ (s.eraseSlot k).imgBusy = true := by
  have himg : (s.eraseSlot k).img = (s.updSlot k (fun x => { x with words := x.unsealed, erasing := true })).img :=
    (State.put_img ..).trans ((State.put_img ..).trans (img_putSealed ..))
  have hslot := (slot_congr himg k).trans (slot_updSlot_same s k _)
  exact ⟨by rw [hslot], by rw [hslot],
    decide_eq_true ((get_put_apart _ rfl rfl rfl ..).trans (get_put_same _ rfl (by decide) 1))⟩

theorem sealSlot_seals {s : State} {k : Nat} (h : (s.slot k).sealable = true) :
    ((s.sealSlot k).slot k).sealing = true ∧ (s.sealSlot k).imgBusy = true := by
  have hseal : s.sealSlot k = (s.updSlot k (fun x => { x with sealing := true })).put F.IMG_STAT_BUSY 0 1 := if_pos h
  rw [hseal]
  exact ⟨by rw [slot_congr (State.put_img ..), slot_updSlot_same], decide_eq_true (get_put_same _ rfl (by decide) 1)⟩

section
variable {s : State} {r : Req} (hr : TakenOne s r true) (hidle : s.imgBusy = false)
include hr hidle

/-- An image command with its key acts on the state in which SLOT is written (R542). -/
theorem completes_of_imgWrite {i : Instr} {slot : Nat} {effect : State → State} (hexec : exec i s = .next (s.imgWrite r 0xA5 slot effect))
    {Q : State → Prop} (hQ : ∀ P, Q (effect ((s.acknowledging r P).put F.IMG_CTRL_SLOT 0 slot))) : Completes i s Q :=
  completes_of_commandWriteIf hr (extra := [(!s.imgBusy, budget 7)]) (effect := fun u => effect (u.put F.IMG_CTRL_SLOT 0 slot))
    (hexec.trans (by simp only [State.imgWrite, if_true])) (by simpa using hidle) hQ

theorem imgErase_erases (k : Nat) : Completes (.imgErase r 0xA5 k) s (fun t =>
    ((t.slot k).erasing = true ∧ (t.slot k).words = (s.slot k).unsealed ∧ t.imgBusy = true) ∧ Acknowledged r s t) :=
  completes_of_imgWrite hr hidle rfl fun P => by
    have hslot : ((s.acknowledging r P).put F.IMG_CTRL_SLOT 0 k).slot k = s.slot k := slot_congr (State.put_img ..) k
    exact ⟨hslot ▸ eraseSlot_erases _ k, .of_fr (((keeps_eraseSlot (Keeps.refl 0x200000200 _) rfl).same .fr rfl).trans (State.put_fr ..))⟩

theorem imgSeal_seals {k : Nat} (h : (s.slot k).sealable = true) : Completes (.imgSeal r 0xA5 k) s (fun t =>
    ((t.slot k).sealing = true ∧ t.imgBusy = true) ∧ Acknowledged r s t) :=
  completes_of_imgWrite hr hidle rfl fun P => by
    have hslot : ((s.acknowledging r P).put F.IMG_CTRL_SLOT 0 k).slot k = s.slot k := slot_congr (State.put_img ..) k
    exact ⟨sealSlot_seals (hslot ▸ h), .of_fr (((keeps_sealSlot (Keeps.refl 0x200040200 _) rfl).same .fr rfl).trans (State.put_fr ..))⟩

theorem imgRestart_asks : Completes (.imgRestart r 0xA5) s (fun t => t.img.restart = true ∧ Acknowledged r s t) :=
  completes_of_imgWrite hr hidle rfl fun _ => ⟨rfl, .of_fr (State.put_fr ..)⟩
end

/-! Debug sessions (R522, R524). -/

theorem openDebug_opens {s : State} (hnone : s.sec.dbgOpen = none) (i fac purpose : Nat) :
    (s.openDebug i fac purpose).sec.dbgOpen = some i ∧ (s.openDebug i fac purpose).get F.DBG_STATE_OPEN 0 = 1 := by
  unfold State.openDebug
  rw [if_neg (by simp [hnone])]
  refine ⟨by simp only [State.put_sec], ?_⟩
  iterate 2 refine (get_put_apart _ rfl rfl rfl ..).trans ?_
  exact get_put_same _ rfl (by decide) 1

theorem debugClose_closes {s : State} (hopen : s.sec.dbgOpen.isSome = true) (cause : Nat) :
    (s.debugClose cause).sec.dbgOpen = none ∧ (s.debugClose cause).get F.DBG_STATE_OPEN 0 = 0 := by
  obtain ⟨i, hi⟩ := Option.isSome_iff_exists.mp hopen
  unfold State.debugClose
  rw [hi]
  exact ⟨by simp only [State.put_sec], (get_put_apart _ rfl rfl rfl ..).trans (get_put_same _ rfl (by decide) 0)⟩

/-! MACsec keys (R551). -/

theorem install_of_two_pow (s : State) {p a : Nat} (hp : p < 2) (ha : a < 2) : s.install_ p (2 ^ a) = s.installAssoc p a := by
  obtain rfl | rfl : a = 0 ∨ a = 1 := by omega
  · exact install_first s hp
  · unfold State.install_
    rw [Nat.mod_eq_of_lt hp, if_pos (by decide), if_neg (by decide)]

section
variable {s : State} {r : Req} (hr : TakenOne s r false)
include hr

theorem dbgOpen_opens {fac : Nat} (hallowed : s.debugAllowed fac ≠ 0) (hnone : s.sec.dbgOpen = none) (purpose : Nat) :
    Completes (.dbgOpen r fac purpose) s (fun t =>
      (t.sec.dbgOpen = some (r.session - 0xFFF0) ∧ t.get F.DBG_STATE_OPEN 0 = 1) ∧ Acknowledged r s t) :=
  completes_of_commandWriteIf hr (effect := fun u => u.openDebug (r.session - 0xFFF0) fac purpose) rfl (by simpa using hallowed) fun P =>
    ⟨openDebug_opens (s := s.acknowledging r P) hnone .., .of_fr ((keeps_openDebug (Keeps.refl 0xD210000A4 _) rfl).same .fr rfl)⟩

theorem dbgClose_closes (hopen : s.sec.dbgOpen.isSome = true) :
    Completes (.dbgClose r) s (fun t => (t.sec.dbgOpen = none ∧ t.get F.DBG_STATE_OPEN 0 = 0) ∧ Acknowledged r s t) :=
  completes_of_commandWrite hr (effect := fun u => u.debugClose 1) rfl fun P =>
    ⟨debugClose_closes (s := s.acknowledging r P) hopen 1, .of_fr ((keeps_debugClose (Keeps.refl 0xD210000A4 _) rfl).same .fr rfl)⟩

theorem retrain_asks {p : Nat} (hp : p < 32) :
    Completes (.retrain r p) s (fun t => t.get F.LNK_CTRL_RETRAIN p = 1 ∧ Acknowledged r s t) :=
  completes_of_commandWrite hr (effect := fun u => u.retrain p) rfl fun _ => ⟨get_put_same _ rfl hp 1, .of_fr (State.put_fr ..)⟩

theorem unfence_asks {p : Nat} (hp : p < 32) :
    Completes (.unfence r p) s (fun t => t.get F.LNK_CTRL_UNFENCE p = 1 ∧ Acknowledged r s t) :=
  completes_of_commandWrite hr (effect := fun u => u.unfence p) rfl fun _ => ⟨get_put_same _ rfl hp 1, .of_fr (State.put_fr ..)⟩

theorem install_installs_each {e a : Nat} (he : e < 2) (ha : a < 2) (hon : s.get F.ETH_PORT_MACSEC_ON e = 1) :
    Completes (.install r e (2 ^ a)) s (fun t => ((tget Assoc.empty t.ports.assocs (2 * e + a)).key =
      (List.range 8).map (fun k => s.reg (State.stagedAddr e a k)) ∧ ∀ k < 12, t.reg (State.stagedAddr e a k) = 0) ∧ Acknowledged r s t) :=
  completes_of_commandWrite hr (effect := fun u => u.install_ e (2 ^ a)) rfl fun P => by
    rw [install_of_two_pow _ he ha]
    obtain ⟨hinstalled, hclear⟩ := installAssoc_installs a (s := s.acknowledging r P) hon
    have hkeeps := keeps_installAssoc (Keeps.refl 0x1000080 (s.acknowledging r P)) rfl he ha
    exact ⟨⟨by rw [hinstalled]; rfl, hclear⟩, .of_fr (hkeeps.same .fr rfl)⟩
end

/-- Settles O47: each command by the theorem about it. -/
theorem ownerCommandsComplete : Obligations.OwnerCommandsComplete := by
  unfold Obligations.OwnerCommandsComplete
  intro s r hquiet hsession howner hctx hgen harg0 harg1 hlen hroom
  have htaken : ∀ {anyPhase : Bool}, anyPhase = true ∨ s.phase ≤ 1 → TakenOne s r anyPhase := fun hphase =>
    ⟨⟨⟨hquiet, hsession⟩, hctx, hgen, harg0, harg1, howner, hroom, hphase⟩, hlen⟩
  have hr : TakenOne s r true := htaken (.inl rfl)
  refine ⟨fltReset_asks hr, fltOos_asks hr, fun hwritable hfree => ?_, quoteGo_begins hr, svnCommit_blows hr, lock_blows hr,
    fun m => dbgDisable_blows hr, secCredEpochWrite_raises hr,
    fun hidle k => ⟨imgErase_erases hr hidle k, imgSeal_seals hr hidle, imgRestart_asks hr hidle⟩, fun hphase => ?_⟩
  · exact ⟨fun b p => completes_of_calGo hr hwritable hfree rfl, completes_of_calGo hr hwritable hfree rfl,
      completes_of_calGo hr hwritable hfree rfl, completes_of_calGo hr hwritable hfree rfl, fun p => completes_of_calGo hr hwritable hfree rfl,
      fun p => completes_of_calGo hr hwritable hfree rfl⟩
  · have hin : TakenOne s r false := htaken (.inr hphase)
    refine ⟨fun fac purpose hallowed hnone => dbgOpen_opens hin hallowed hnone purpose, dbgClose_closes hin,
      fun p hp => ⟨retrain_asks hin hp, unfence_asks hin hp⟩, fun e he a ha => install_installs_each hin he ha, fun e he an han => ?_⟩
    obtain ⟨t, hexec, htx, hack⟩ := txAnSwitch_switches he hin an
    exact ⟨t, hexec, htx.trans (Nat.mod_eq_of_lt han), hack⟩

end Sys2Proof.Machine
end

section
/-! The step as a whole: the queue, and the canonical form of memory and tables. -/
namespace Sys2Proof.Machine

theorem step_of_nil {s : State} (h : s.pending = []) : step s = .next s := by unfold step; rw [h]

theorem step_of_cons {c : Instr} {rest : List Instr} {s : State} (h : s.pending = c :: rest) : step s = exec c { s with pending := rest } := by
  unfold step; rw [h]

/-- Settles O1: the two cases of the queue. -/
theorem stepTakesFront : Obligations.StepTakesFront :=
  ⟨fun _ _ => step_of_cons rfl, fun _ h => step_of_nil h⟩

theorem canonical_exec {i : Instr} {s t : State} (hs : s.canonical) (h : exec i s = .next t) : t.canonical := (keeps_exec i s t h).canonical hs

/-- Settles O3: a step idles, or it runs the command at the front of the queue, and the queue is no part of the canonical form. -/
theorem canonicalKept : Obligations.CanonicalKept := by
  intro s t hs h
  rcases hqueue : s.pending with _ | ⟨c, rest⟩
  · rw [step_of_nil hqueue] at h
    cases h
    exact hs
  · rw [step_of_cons hqueue] at h
    exact canonical_exec (s := { s with pending := rest }) hs h

end Sys2Proof.Machine
end

section
/-! SIGNAL, WAIT, WAIT_RELEASE and CONTEXT_SWITCH (R368 to R373, R377 to R379, R389). -/
namespace Sys2Proof.Machine

theorem set_congr {s t : State} {p : Nat} (h : (t.core p).sets = (s.core p).sets) (c : Nat) : t.set_ p c = s.set_ p c := by
  rw [State.set_, State.set_, h]

theorem core_showWaits (s : State) (p q : Nat) : (s.showWaits p).core q = s.core q := core_put ..

/-! Signals (R371, R389). -/

theorem execSignal_alive {o : SignalOp} {s : State} (halive : s.fr.killed = none) :
    exec (.signal o) s = .next (s.signalIn o.ctx o.gen o.core o.ctr o.inc o.bytes) := congrArg Host.Outcome.next (if_pos halive)

theorem signalIn_current {s : State} {c g l p : Nat} (hgen : g = s.gen c) (hp : s.physOf l = some p) (k v b : Nat) :
    s.signalIn c g l k v b = s.count p c k v b b := by
  rw [State.signalIn, if_pos hgen, hp]

theorem signalIn_stale {s : State} {c g : Nat} (hgen : g ≠ s.gen c) (l k v b : Nat) : s.signalIn c g l k v b = s.staleSignal c 1 := if_neg hgen

theorem cores_staleSignal (s : State) (c n : Nat) : (s.staleSignal c n).cores = s.cores :=
  (keeps_staleSignal (Keeps.refl 0x42000 s) rfl).same .cores rfl

theorem signal_counts {o : SignalOp} {s : State} (halive : s.fr.killed = none) (hgen : o.gen = s.gen o.ctx) {p : Nat}
    (hp : s.physOf o.core = some p) : Completes (.signal o) s (Counted p o.ctx o.ctr o.inc o.bytes o.bytes s) :=
  ⟨_, execSignal_alive halive, by rw [signalIn_current hgen hp]; exact counted_count ..⟩

theorem signal_stale {o : SignalOp} {s : State} (halive : s.fr.killed = none) (hgen : o.gen ≠ s.gen o.ctx) (hc : o.ctx < 1024) :
    Completes (.signal o) s (fun t => t.cores = s.cores ∧ t.get F.CTX_EVT_STALE o.ctx = 1) :=
  ⟨_, execSignal_alive halive, by rw [signalIn_stale hgen]; exact ⟨cores_staleSignal .., get_staleSignal_stale s hc 1⟩⟩

/-! Waits (R371 to R373). -/

/-- The waits of a core replaced, as its registers and the trace then show it. -/
def State.rearm (s : State) (p : Nat) (l : List (Nat × Wait)) (engine ev : Nat) : State :=
  ((s.updCore p (fun x => { x with waits := l })).showWaits p).trace p engine ev (s.active p)

theorem core_rearm (s : State) (p : Nat) (l : List (Nat × Wait)) (engine ev q : Nat) :
    (s.rearm p l engine ev).core q = if q = p then { s.core p with waits := l } else s.core q :=
  (core_trace ..).trans ((core_showWaits ..).trans (core_updCore ..))

/-- Waits change and counters do not. -/
theorem rearmed_of_rearm (s : State) (p : Nat) (l : List (Nat × Wait)) (engine ev : Nat) :
    ((s.rearm p l engine ev).core p).waits = l ∧ ∀ q c, (s.rearm p l engine ev).set_ q c = s.set_ q c := by
  refine ⟨by rw [core_rearm, if_pos rfl], fun q => set_congr ?_⟩
  rw [core_rearm]
  split
  · next hq => rw [hq]
  · rfl

theorem wait_arms {s : State} {p w k m v b : Nat} (hissue : s.mayIssue p = true) (hw : w < 12) (hm : m < 3)
    (hfree : ∀ e ∈ (s.core p).waits, e.1 ≠ w) :
    Completes (.wait p w k m v b) s (fun t => (t.core p).waits = (s.core p).waits ++ [(w, ⟨k, m, v, b⟩)] ∧ ∀ q c, t.set_ q c = s.set_ q c) := by
  have hnone : (s.core p).waits.any (fun e => decide (e.1 = w)) = false := by simpa using fun a b h => hfree (a, b) h
  refine ⟨s.rearm p _ (waiterCode w) 3, ?_, rearmed_of_rearm ..⟩
  exact (if_neg (Nat.not_le.mpr hm)).trans (congrArg Host.Outcome.next (if_pos ⟨hissue, hw, hnone⟩))

section
variable {s : State} {p w : Nat} {e : Nat × Wait} (hfind : (s.core p).waits.find? (fun x => decide (x.1 = w)) = some e)
include hfind

theorem execWaitRelease_found : exec (.waitRelease p w) s =
    .next (if s.waitMet p e.2 then s.rearm p ((s.core p).waits.filter (fun x => decide (x.1 ≠ w))) (waiterCode w) 4 else s) := by
  refine congrArg Host.Outcome.next ?_
  rw [hfind]
  rfl

theorem waitRelease_met (hmet : s.waitMet p e.2 = true) :
    Completes (.waitRelease p w) s (fun t =>
      (t.core p).waits = (s.core p).waits.filter (fun x => decide (x.1 ≠ w)) ∧ ∀ q c, t.set_ q c = s.set_ q c) :=
  ⟨_, execWaitRelease_found hfind, by rw [if_pos hmet]; exact rearmed_of_rearm ..⟩

theorem waitRelease_unmet (hmet : s.waitMet p e.2 = false) : exec (.waitRelease p w) s = .next s := by
  rw [execWaitRelease_found hfind, if_neg (by simp [hmet])]
end

/-! The switch (R377, R379). -/

/-- A core after a switch from context a to context c: the outgoing waits saved, the incoming ones armed. -/
def Core.switched (x : Core) (a c : Nat) : Core :=
  let out := tget SaveArea.empty x.sets a
  let inc := tget SaveArea.empty x.sets c
  { x with
    sets := tset SaveArea.empty (tset SaveArea.empty x.sets a { out with waits := x.waits }) c { inc with waits := [] }
    saved := if x.cached.contains c then x.saved else tset SaveArea.empty x.saved c inc
    waits := inc.waits
    cached := (c :: (a :: x.cached.filter (fun d => decide (d ≠ a))).filter (fun d => decide (d ≠ c))).take 8 }

/-- The cores after a switch of core p to context c, update by update. -/
def State.switchCore (s : State) (p c : Nat) : State :=
  let x := s.core p
  let u := s.putSet p (s.active p) { (s.set_ p (s.active p)) with waits := x.waits }
  let inc := u.set_ p c
  let v := if x.cached.contains c then u else u.updCore p (fun y => { y with saved := tset SaveArea.empty y.saved c inc })
  (v.putSet p c { inc with waits := [] }).updCore p (fun y => { y with
    waits := inc.waits
    cached := (c :: (s.active p :: x.cached.filter (fun d => decide (d ≠ s.active p))).filter (fun d => decide (d ≠ c))).take 8 })

theorem core_switchCore {s : State} {p c : Nat} (hother : s.active p ≠ c) (q : Nat) :
    (s.switchCore p c).core q = if q = p then (s.core p).switched (s.active p) c else s.core q := by
  have hinc : (s.putSet p (s.active p) { (s.set_ p (s.active p)) with waits := (s.core p).waits }).set_ p c = s.set_ p c := by
    rw [set_putSet, if_neg fun h => hother h.2.symm]
  unfold State.switchCore
  dsimp only
  rw [hinc, core_updCore]
  split
  · next hq =>
    subst hq
    simp only [State.putSet, core_updCore_same, Core.switched]
    split <;> simp only [core_updCore_same] <;> rfl
  · next hq =>
    rw [State.putSet, core_updCore, if_neg hq]
    split
    · rw [State.putSet, core_updCore, if_neg hq]
    · rw [core_updCore, if_neg hq, State.putSet, core_updCore, if_neg hq]

theorem regs_switchCore (s : State) (p c : Nat) : (s.switchCore p c).regs = s.regs := by
  unfold State.switchCore
  dsimp only
  split <;> rfl

/-- What a switch makes of the waits of its core, and that no counter changes. -/
theorem switchCore_switches {s : State} {p c : Nat} (hother : s.active p ≠ c) :
    ((s.switchCore p c).set_ p (s.active p)).waits = (s.core p).waits ∧ ((s.switchCore p c).core p).waits = (s.set_ p c).waits ∧
      ∀ q e k, ((s.switchCore p c).set_ q e).ctr k = (s.set_ q e).ctr k := by
  have hcore := core_switchCore hother
  have hset : ∀ e, (s.switchCore p c).set_ p e = if e = c then { s.set_ p c with waits := [] }
      else if e = s.active p then { s.set_ p e with waits := (s.core p).waits } else s.set_ p e := fun e => by
    rw [State.set_, hcore, if_pos rfl, Core.switched]
    dsimp only
    rw [tget_tset, tget_tset]
    split
    · rfl
    · split
      · next he => rw [he]; rfl
      · rfl
  refine ⟨by rw [hset, if_neg hother, if_pos rfl], by rw [hcore, if_pos rfl]; rfl, fun q e k => ?_⟩
  by_cases hq : q = p
  · rw [hq, hset]
    split
    · next he => rw [he]; rfl
    · split <;> rfl
  · rw [State.set_, hcore, if_neg hq]
    rfl

/-- The registers of a switch: the active context, how many sets are cached, switches and misses, and the waiters. -/
def State.showSwitch (s : State) (p c n : Nat) (hit : Bool) : State :=
  let u := ((s.put F.SYNC_CORE_ACTIVE_CTX p c).put F.SYNC_CORE_CACHED p n).bump F.SYNC_SWITCH_SWITCHES p 1
  ((if hit then u else u.bump F.SYNC_SWITCH_MISSES p 1).showWaits p).trace p 0 5 c

theorem core_showSwitch (s : State) (p c n : Nat) (hit : Bool) (q : Nat) : (s.showSwitch p c n hit).core q = s.core q := by
  refine (core_trace ..).trans ((core_showWaits ..).trans ?_)
  split
  · exact (core_put ..).trans ((core_put ..).trans (core_put ..))
  · exact (core_put ..).trans ((core_put ..).trans ((core_put ..).trans (core_put ..)))

/-- What the waiters shown, a miss and the trace leave of a field apart from them. -/
theorem get_showSwitch {g : Fld} (hg : g.ok = true) (hmiss : F.SYNC_SWITCH_MISSES.apart g = true ∨ F.SYNC_SWITCH_MISSES.otherWord g = true)
    (hwait : F.SYNC_CORE_WAITING.apart g = true ∨ F.SYNC_CORE_WAITING.otherWord g = true) (s : State) (p c n : Nat) (hit : Bool) :
    (s.showSwitch p c n hit).get g p =
      (((s.put F.SYNC_CORE_ACTIVE_CTX p c).put F.SYNC_CORE_CACHED p n).bump F.SYNC_SWITCH_SWITCHES p 1).get g p := by
  have hput : ∀ {f : Fld}, f.ok = true → f.apart g = true ∨ f.otherWord g = true → ∀ (u : State) x, (u.put f p x).get g p = u.get g p :=
    fun hf h u x => h.elim (fun h => get_put_apart u hf hg h ..) (fun h => get_put_addr u (addr_ne_addr h p) x)
  refine (get_trace ..).trans ((hput rfl hwait _ _).trans ?_)
  split
  · rfl
  · exact hput rfl hmiss _ _

theorem active_showSwitch {p c : Nat} (hp : p < 192) (hc : c < 1024) (s : State) (n : Nat) (hit : Bool) :
    (s.showSwitch p c n hit).active p = c := by
  rw [State.active, get_showSwitch rfl (.inr rfl) (.inl rfl), get_bump_otherWord _ rfl, get_put_apart _ rfl rfl rfl, get_put_same _ rfl hp]
  exact Nat.mod_eq_of_lt hc

theorem advanced_showSwitch {p : Nat} (hp : p < 192) (c : Nat) (s : State) (n : Nat) (hit : Bool) :
    Advanced F.SYNC_SWITCH_SWITCHES p 1 s (s.showSwitch p c n hit) := by
  refine ((advanced_bump rfl hp 1 _).congr_left ?_).of_get_eq (get_showSwitch rfl (.inl rfl) (.inr rfl) s p c n hit)
  exact (get_put_addr _ (addr_ne_addr rfl p) _).trans (get_put_addr _ (addr_ne_addr rfl p) _)

/-- A switch to another context, on a core that takes work. -/
theorem execContextSwitch_other {s : State} {p c : Nat} (hissue : s.mayIssue p = true) (hother : s.active p ≠ c) :
    exec (.contextSwitch p c) s = .next ((s.switchCore p c).showSwitch p c
      ((c :: (s.active p :: (s.core p).cached.filter (fun d => decide (d ≠ s.active p))).filter (fun d => decide (d ≠ c))).take 8).length
      ((s.core p).cached.contains c)) :=
  congrArg Host.Outcome.next (if_neg (by simp [hissue, hother]))

theorem contextSwitch_switches {s : State} {p c : Nat} (hp : p < 192) (hc : c < 1024) (hissue : s.mayIssue p = true)
    (hother : s.active p ≠ c) :
    Completes (.contextSwitch p c) s (fun t => t.active p = c ∧ (t.set_ p (s.active p)).waits = (s.core p).waits ∧
      (t.core p).waits = (s.set_ p c).waits ∧ (∀ q e k, (t.set_ q e).ctr k = (s.set_ q e).ctr k) ∧
      Advanced F.SYNC_SWITCH_SWITCHES p 1 s t) := by
  obtain ⟨hout, hin, hctr⟩ := switchCore_switches hother
  refine ⟨_, execContextSwitch_other hissue hother, active_showSwitch hp hc .., ?_, ?_, fun q e k => ?_,
    (advanced_showSwitch hp c ..).congr_left (get_congr (regs_switchCore ..) ..)⟩
  · rw [set_congr (congrArg Core.sets (core_showSwitch ..)), hout]
  · rw [core_showSwitch, hin]
  · rw [set_congr (congrArg Core.sets (core_showSwitch ..)), hctr]

/-- Settles O18: signals of the running and of another generation, waits that are armed and released, and the switch. -/
theorem syncUnit : Obligations.SyncUnit := fun _ =>
  ⟨fun _ halive => ⟨fun hgen _ => signal_counts halive hgen, signal_stale halive⟩, fun _ _ _ _ _ _ => wait_arms,
    fun _ _ _ hfind => ⟨waitRelease_met hfind, waitRelease_unmet hfind⟩, fun _ _ => contextSwitch_switches⟩

end Sys2Proof.Machine
end

section
/-! What an aborted calibration run and the sliding windows leave (R404, R494), and what a reset clears (R391, R402). -/
namespace Sys2Proof.Machine

/-- A fold reaches what one of its steps makes and every step keeps. -/
theorem foldl_reaches {α : Type} {P : State → Prop} {f : State → α → State} {l : List α} {x : α} (hx : x ∈ l) (hmake : ∀ u, P (f u x))
    (hkeep : ∀ u y, P u → P (f u y)) (s : State) : P (l.foldl f s) := by
  have hrest : ∀ (l : List α) (u : State), P u → P (l.foldl f u) := fun l => by
    induction l with
    | nil => exact fun _ h => h
    | cons y r ih => exact fun u h => ih _ (hkeep u y h)
  induction l generalizing s with
  | nil => cases hx
  | cons y r ih =>
    rcases List.mem_cons.mp hx with rfl | hr
    · exact hrest r _ (hmake s)
    · exact ih hr _

/-! An aborted calibration run (R494). -/

/-- An item refused, before its EVENT. -/
def State.countRefusal (s : State) (run : CalRun) (kind : Nat) : State :=
  let s := (s.bump F.CAL_STATUS_REFUSED 0 1).raise F.CAL_EVT_REFUSED 0
  if run.scope = 0 ∧ kind ≤ 2 then s.bumpSat F.CAL_BATT_REFUSED_COLS run.unit 1 else s

/-- A request ended, before its EVENT. -/
def State.endRun (s : State) : State :=
  let s : State := { s with cal := { s.cal with run := none } }
  ((s.put F.CAL_STATUS_BUSY 0 0).put F.CAL_STATUS_RUN 0 0).bump F.CAL_STATUS_ACCEPTED 0 1

theorem keeps_countRefusal (s : State) (run : CalRun) (kind : Nat) : Keeps 0x80041010 s (s.countRefusal run kind) := by
  have hcounted : Keeps 0x80041010 s ((s.bump F.CAL_STATUS_REFUSED 0 1).raise F.CAL_EVT_REFUSED 0) :=
    ((Keeps.refl _ s).bump rfl rfl).raise rfl rfl rfl
  exact Keeps.ite (hcounted.bumpSat rfl rfl) hcounted

theorem keeps_endRun (s : State) : Keeps 0x80041010 s s.endRun :=
  (((Keeps.upd (Keeps.refl _ s)).put rfl rfl).put rfl rfl).bump rfl rfl

theorem calRefuse_eq (s : State) (run : CalRun) (kind col reason : Nat) : s.calRefuse run kind col reason =
    (s.countRefusal run kind).event 0x0608 (calEventUnit run.scope run.unit).1 (calEventUnit run.scope run.unit).2
      (Config.calItemCode kind % 2 ^ 8 * 2 ^ 8 + reason) col := rfl

theorem calEnd_eq (s : State) (accepted refused : Nat) : s.calEnd accepted refused = s.endRun.event 0x0609 0 0 accepted refused := rfl

/-- What neither events nor the registers of calibration change, an aborted run leaves as it was. -/
theorem calAbort_keeps_value {β : Type} (g : State → β) (hevent : ∀ u st k i d0 d1, g (State.event u st k i d0 d1) = g u)
    (hcal : ∀ u v, Keeps 0x80041010 u v → g v = g u) (s : State) (hit : Nat → Nat → Bool) : g (s.calAbort hit) = g s := by
  unfold State.calAbort
  split
  · rfl
  · next run _ =>
    split
    · dsimp only
      rw [calEnd_eq, hevent, hcal _ _ (keeps_endRun _)]
      refine foldl_keeps_value g _ s fun u i _ => ?_
      rw [calRefuse_eq, hevent, hcal _ _ (keeps_countRefusal u run i.1)]
    · rfl

theorem calAbort_of_run_none {s : State} (h : s.cal.run = none) (hit : Nat → Nat → Bool) : s.calAbort hit = s := by
  rw [State.calAbort, h]

theorem resets_calAbort (s : State) (hit : Nat → Nat → Bool) : (s.calAbort hit).flt.resets = s.flt.resets :=
  calAbort_keeps_value (fun u => u.flt.resets) resets_event (fun _ _ h => by rw [h.same .flt rfl]) s hit

theorem get_calAbort {g : Fld} {j : Nat} (hin : g.inBlock = true) (hj : j < g.count) (hblock : Nat.testBit 0x80041010 (blockOf g.base).code = false)
    (hevent : g.addr j ∉ eventWords) (s : State) (hit : Nat → Nat → Bool) : (s.calAbort hit).get g j = s.get g j :=
  calAbort_keeps_value (fun u => u.get g j) (get_event hevent) (fun _ _ h => h.get hin hj hblock) s hit

/-! Windows (R404). -/

theorem get_rates {g : Fld} {j : Nat} (h : g.addr j ≠ F.FLT_RATES_KILLS_1S.addr 0) (s : State) (t : Nat) : (s.rates t).get g j = s.get g j :=
  (get_put_addr _ (f := F.FLT_RATES_DEV_10MIN) h _).trans ((get_put_addr _ h _).trans (get_congr rfl _ _))

theorem get_showResets {g : Fld} {j : Nat} (h : g.addr j ≠ F.FLT_STATE_RESETTING.addr 0) (s : State) : s.showResets.get g j = s.get g j :=
  get_put_addr _ h _

/-! What a reset clears (R391). -/

theorem byte_clearCore (level : Nat) (s : State) (p b : Nat) : (s.clearCore level p).byte b =
    if accAddr p 0 ≤ b ∧ b < accAddr p 0 + 2 ^ 18 then 0 else if spAddr p 0 ≤ b ∧ b < spAddr p 0 + 2 ^ 22 then 0 else s.byte b := by
  rw [State.clearCore, byte_zeroBytes, byte_zeroBytes, State.showWaits, byte_put]
  rfl

/-- Bytes that read zero still do, and those of the core's scratchpad do from now on. -/
theorem byte_clearCore_eq_zero {level : Nat} {s : State} {p b : Nat} (h : s.byte b = 0 ∨ spAddr p 0 ≤ b ∧ b < spAddr p 0 + 2 ^ 22) :
    (s.clearCore level p).byte b = 0 := by
  rw [byte_clearCore]
  split
  · rfl
  · split
    · rfl
    · next hno => exact h.resolve_right hno

theorem byte_clearBattRegs (s : State) (d b : Nat) : (s.clearBattRegs d).byte b = s.byte b :=
  (keeps_clearBattRegs (Keeps.refl 0x4001000 s) rfl).same .mem rfl b

theorem core_clearBattRegs (s : State) (d p : Nat) : (s.clearBattRegs d).core p = s.core p :=
  core_congr ((keeps_clearBattRegs (Keeps.refl 0x4001000 s) rfl).same .cores rfl) p

theorem mem_dieCores {d p : Nat} (hp : p / 48 = d) : p ∈ (List.range 48).map (fun i => 48 * d + i) :=
  List.mem_map.mpr ⟨p % 48, List.mem_range.mpr (by omega), by omega⟩

theorem byte_clearDie_eq_zero {level d p a : Nat} (hp : p / 48 = d) (s : State) : (s.clearDie level d).byte (spAddr p a) = 0 := by
  have hin : spAddr p 0 ≤ spAddr p a ∧ spAddr p a < spAddr p 0 + 2 ^ 22 := by simp only [spAddr]; omega
  refine (byte_clearBattRegs ..).trans (foldl_reaches (P := fun u => u.byte (spAddr p a) = 0) (mem_dieCores hp) (fun u => ?_) (fun u q h => ?_) s)
  · exact byte_clearCore_eq_zero (.inr hin)
  · exact byte_clearCore_eq_zero (.inl h)

theorem byte_clearDie_of_zero {level d b : Nat} {s : State} (h : s.byte b = 0) : (s.clearDie level d).byte b = 0 := by
  have hkept : ∀ (l : List Nat) (u : State), u.byte b = 0 → (l.foldl (State.clearCore level) u).byte b = 0 := fun l => by
    induction l with
    | nil => exact fun _ h => h
    | cons q r ih => exact fun u h => ih _ (byte_clearCore_eq_zero (.inl h))
  exact (byte_clearBattRegs ..).trans (hkept _ s h)

/-- Every plan lost and the monitor's cycle begun again, as a device reset leaves a cleared device. -/
def State.resetModule (s : State) : State :=
  ({ s.losePlans with pwr := { s.losePlans.pwr with cycleDone := false } } : State).put F.DEV_STATE_PHASE 0 3

theorem clearDevice_eq (s : State) : s.clearDevice = ((List.range 4).foldl (State.clearDie 4) s).resetModule := rfl

theorem byte_resetModule (s : State) (b : Nat) : s.resetModule.byte b = s.byte b := byte_put ..

theorem byte_clearDevice {p a : Nat} (hp : p < 192) (s : State) : s.clearDevice.byte (spAddr p a) = 0 := by
  rw [clearDevice_eq, byte_resetModule]
  refine foldl_reaches (P := fun u => u.byte (spAddr p a) = 0) (x := p / 48) (List.mem_range.mpr (by omega)) (fun u => ?_) (fun u d h => ?_) s
  · exact byte_clearDie_eq_zero rfl u
  · exact byte_clearDie_of_zero h

theorem phase_clearDevice (s : State) : s.clearDevice.phase = 3 := by
  rw [clearDevice_eq]
  exact get_put_same _ rfl (by decide) 3

theorem fr_clearDevice (s : State) : s.clearDevice.fr.plans = [] ∧ s.clearDevice.fr.flying = [] := by
  rw [clearDevice_eq, State.resetModule, State.put_fr]
  exact ⟨rfl, rfl⟩

end Sys2Proof.Machine
end

section
/-! Device resets (R391, R395, R402). -/
namespace Sys2Proof.Machine

/-- A reset noted as in progress; those inside it are absorbed (R392). -/
def State.noteRun (s : State) (level unit engine t : Nat) : State :=
  { s with flt := { s.flt with
    resets := s.flt.resets.filter (fun r => !resetCovers (level, unit, engine) r.scope) ++ [⟨level, unit, engine, s.now + t, 0⟩] } }

/-- A device reset counted against the limit of four in 10 minutes, unless the owner asked for it (R405). -/
def State.countDevice (s : State) (t : Nat) (owner : Bool) : State :=
  if owner then s
  else
    let s : State := { s with flt := { s.flt with devResets := s.flt.devResets ++ [s.now + t] } }
    let s := s.rates (s.now + t)
    if 4 ≤ s.flt.devResets.length then s.oosNext 2 else s

/-- The cleared device with its reset counted in FLT_COUNTS and its calibration run aborted. -/
def State.abortOnDevice (s : State) : State :=
  (s.clearDevice.bump F.FLT_COUNTS_DEVICE 0 1).calAbort (fun scope _ => decide (scope = 0 ∨ scope = 4))

theorem beginDevice_eq (s : State) (t : Nat) (owner : Bool) : s.beginDevice t owner = s.abortOnDevice.countDevice t owner := by
  unfold State.beginDevice State.countDevice State.abortOnDevice
  rfl

theorem keeps_countDevice (s : State) (t : Nat) (owner : Bool) : Keeps 0x4A1041094 s (s.countDevice t owner) := by
  unfold State.countDevice
  dsimp only
  refine Keeps.ite (Keeps.refl _ s) (Keeps.ite (keeps_oosNext ?_ rfl) ?_)
  · exact keeps_rates (Keeps.upd (Keeps.refl _ s)) rfl
  · exact keeps_rates (Keeps.upd (Keeps.refl _ s)) rfl

theorem countDevice_keeps_value {β : Type} (g : State → β) (hnote : ∀ (u : State) l, g { u with flt := { u.flt with devResets := l } } = g u)
    (hrates : ∀ u n, g (State.rates u n) = g u) (hoos : ∀ u n, g (State.oosNext u n) = g u) (s : State) (t : Nat) (owner : Bool) :
    g (s.countDevice t owner) = g s := by
  unfold State.countDevice
  dsimp only
  split
  · rfl
  · split
    · rw [hoos, hrates, hnote]
    · rw [hrates, hnote]

/-- What a device reset counts after it has cleared the device. -/
theorem keeps_beginDevice_clearDevice (s : State) (t : Nat) (owner : Bool) : Keeps 0x4A1041094 s.clearDevice (s.beginDevice t owner) := by
  rw [beginDevice_eq]
  exact (keeps_calAbort ((Keeps.refl _ _).bump rfl rfl) rfl).trans (keeps_countDevice ..)

theorem flt_clearDevice (s : State) : s.clearDevice.flt = s.flt := (keeps_clearDevice (Keeps.refl 0x4E943401 s) rfl).same .flt rfl

theorem resets_beginDevice (s : State) (t : Nat) (owner : Bool) : (s.beginDevice t owner).flt.resets = s.flt.resets := by
  rw [beginDevice_eq, countDevice_keeps_value (fun u => u.flt.resets) (fun _ _ => rfl) resets_rates (fun _ _ => rfl), State.abortOnDevice,
    resets_calAbort, State.bump_flt, flt_clearDevice]

theorem get_counts_beginDevice {g : Fld} (hin : g.inBlock = true) (hblock : blockOf g.base = .regsFlt) (hcount : 0 < g.count)
    (hword : g.addr 0 = F.FLT_COUNTS_DEVICE.addr 0) (s : State) (t : Nat) (owner : Bool) :
    (s.beginDevice t owner).get g 0 = (s.clearDevice.bump F.FLT_COUNTS_DEVICE 0 1).get g 0 := by
  have hevent : g.addr 0 ∉ eventWords := by rw [hword]; decide
  have hrate : g.addr 0 ≠ F.FLT_RATES_KILLS_1S.addr 0 := by rw [hword]; decide
  rw [beginDevice_eq, countDevice_keeps_value (fun u => u.get g 0) (fun _ _ => rfl) (get_rates hrate) (fun _ _ => rfl)]
  exact get_calAbort hin hcount (by rw [hblock]; rfl) hevent ..

theorem get_clearDevice {g : Fld} {j : Nat} (hin : g.inBlock = true) (hj : j < g.count) (hblock : blockOf g.base = .regsFlt) (s : State) :
    s.clearDevice.get g j = s.get g j := (keeps_clearDevice (Keeps.refl 0x4E943401 s) rfl).get hin hj (by rw [hblock]; rfl)

theorem advanced_device_beginDevice (s : State) (t : Nat) (owner : Bool) : Advanced F.FLT_COUNTS_DEVICE 0 1 s (s.beginDevice t owner) :=
  ((advanced_bump rfl (by decide) 1 _).congr_left (get_clearDevice rfl (by decide) rfl s)).of_get_eq
    (get_counts_beginDevice rfl rfl (by decide) rfl s t owner)

theorem get_kills_beginDevice (s : State) (t : Nat) (owner : Bool) :
    (s.beginDevice t owner).get F.FLT_COUNTS_KILLS 0 = s.get F.FLT_COUNTS_KILLS 0 :=
  (get_counts_beginDevice (g := F.FLT_COUNTS_KILLS) rfl rfl (by decide) rfl s t owner).trans
    ((get_put_apart _ (f := F.FLT_COUNTS_DEVICE) rfl rfl rfl ..).trans (get_clearDevice rfl (by decide) rfl s))

/-- A device reset begins: what it shows at once. -/
def DeviceBegun (u : Nat) (s t : State) : Prop :=
  t.phase = 3 ∧ t.fr.plans = [] ∧ t.fr.flying = [] ∧ t.flt.resets = [⟨4, 0, 0, s.now + u, 0⟩] ∧
    Advanced F.FLT_COUNTS_DEVICE 0 1 s t ∧ ∀ p < 192, ∀ a < 2 ^ 22, t.byte (spAddr p a) = 0

theorem beginReset_device {s : State} (hfree : s.flt.resets.any (fun r => resetCovers r.scope (4, 0, 0)) = false) (u : Nat) (owner : Bool) :
    s.beginReset 4 0 0 u owner = ((s.noteRun 4 0 0 u).beginDevice u owner).showResets := by
  unfold State.beginReset State.noteRun
  simp only [hfree, Bool.false_eq_true, if_false, Nat.reduceEqDiff]

section
variable {s : State} (hfree : s.flt.resets.any (fun r => resetCovers r.scope (4, 0, 0)) = false)
include hfree

theorem deviceBegun_beginReset (u : Nat) (owner : Bool) : DeviceBegun u s (s.beginReset 4 0 0 u owner) := by
  rw [beginReset_device hfree]
  have hkeeps : Keeps 0x4A1041094 (s.noteRun 4 0 0 u).clearDevice ((s.noteRun 4 0 0 u).beginDevice u owner).showResets :=
    keeps_showResets (keeps_beginDevice_clearDevice ..) rfl
  obtain ⟨hplans, hflying⟩ := fr_clearDevice (s.noteRun 4 0 0 u)
  refine ⟨?_, ?_, ?_, ?_, ?_, fun p hp a _ => ?_⟩
  · exact (hkeeps.get (g := F.DEV_STATE_PHASE) rfl (by decide) rfl).trans (phase_clearDevice _)
  · rw [hkeeps.same .fr rfl, hplans]
  · rw [hkeeps.same .fr rfl, hflying]
  · rw [State.showResets, State.put_flt, resets_beginDevice]
    simp [State.noteRun, resetCovers]
  · exact (advanced_device_beginDevice (s.noteRun 4 0 0 u) u owner).of_get_eq (get_showResets (by decide) _)
  · exact (hkeeps.same .mem rfl _).trans (byte_clearDevice hp _)

theorem get_kills_beginReset (u : Nat) (owner : Bool) :
    (s.beginReset 4 0 0 u owner).get F.FLT_COUNTS_KILLS 0 = s.get F.FLT_COUNTS_KILLS 0 := by
  rw [beginReset_device hfree]
  exact (get_showResets (by decide) _).trans (get_kills_beginDevice (s.noteRun 4 0 0 u) u owner)

end

/-! The plan's watchdog kills both frames (R395). -/

theorem phase_countKill (s : State) (cause p e u : Nat) : (s.countKill cause p e u).phase = s.phase :=
  (keeps_countKill (Keeps.refl 0xC21000084 s) rfl).get (g := F.DEV_STATE_PHASE) rfl (by decide) rfl

theorem fr_countKill (s : State) (cause p e u : Nat) : (s.countKill cause p e u).fr = s.fr :=
  (keeps_countKill (Keeps.refl 0xC21000084 s) rfl).same .fr rfl

theorem now_countKill (s : State) (cause p e u : Nat) : (s.countKill cause p e u).now = s.now :=
  (keeps_countKill (Keeps.refl 0xC21000084 s) rfl).same .now rfl

theorem kill_killed {s : State} (h : s.fr.killed ≠ none) (cause p e u : Nat) : s.kill cause p e u = s :=
  if_pos (.inl (Option.isSome_iff_ne_none.mpr h))

/-- Both frames of the plan killed. -/
def State.killBoth (s : State) (u : Nat) : State := (s.countKill 4 0 0 u).kill 4 0 0 u

/-- Both kills are counted, and a frame killed before counts once. -/
theorem killBoth_counts {s : State} (hphase : s.phase = 1) (u : Nat) :
    Advanced F.FLT_COUNTS_KILLS 0 (if s.fr.killed = none then 2 else 1) s (s.killBoth u) ∧ (s.killBoth u).flt.resets = s.flt.resets := by
  have hfirst := advanced_countKill s 4 0 0 u
  have hresets := resets_countKill s 4 0 0 u
  by_cases halive : s.fr.killed = none
  · have hphase' := (phase_countKill s 4 0 0 u).trans hphase
    have halive' : (s.countKill 4 0 0 u).fr.killed = none := by rw [fr_countKill, halive]
    rw [if_pos halive]
    exact ⟨hfirst.trans (advanced_kill hphase' halive' ..), (resets_kill hphase' halive' ..).trans hresets⟩
  · rw [if_neg halive, State.killBoth, kill_killed (by rwa [fr_countKill])]
    exact ⟨hfirst, hresets⟩

theorem get_device_countKill (s : State) (cause p e u : Nat) :
    (s.countKill cause p e u).get F.FLT_COUNTS_DEVICE 0 = s.get F.FLT_COUNTS_DEVICE 0 :=
  (countKill_eq_bump (fun v => v.get F.FLT_COUNTS_DEVICE 0) (get_event (by decide)) (fun _ => rfl) (fun _ _ => rfl) (get_rates (by decide))
    (fun _ _ => rfl) s cause p e u).trans (get_put_apart _ rfl rfl rfl ..)

theorem get_device_kill (s : State) (cause p e u : Nat) : (s.kill cause p e u).get F.FLT_COUNTS_DEVICE 0 = s.get F.FLT_COUNTS_DEVICE 0 := by
  by_cases h : s.fr.killed.isSome ∨ s.phase ≠ 1
  · rw [State.kill, if_pos h]
  · obtain ⟨hkilled, hphase⟩ := not_or.mp h
    rw [kill_alive (not_not.mp hphase) (by simpa using hkilled)]
    refine (get_device_countKill ..).trans ?_
    exact ((keeps_schedTrace (Keeps.refl 0x900000000 _) rfl).get (g := F.FLT_COUNTS_DEVICE) (j := 0) rfl (by decide) rfl).trans
      ((keeps_foldl_restoreCore _ _ s).get (g := F.FLT_COUNTS_DEVICE) (j := 0) rfl (by decide) rfl)

theorem planWatchdog_begins {s : State} (hfree : s.flt.resets.any (fun r => resetCovers r.scope (4, 0, 0)) = false) (hphase : s.phase = 1)
    (u : Nat) : Completes (.planWatchdog u) s (fun t =>
      DeviceBegun u s t ∧ Advanced F.FLT_COUNTS_KILLS 0 (if s.fr.killed = none then 2 else 1) s t) := by
  obtain ⟨hkills, hresets⟩ := killBoth_counts hphase u
  have hfree' : (s.killBoth u).flt.resets.any (fun r => resetCovers r.scope (4, 0, 0)) = false := by rw [hresets]; exact hfree
  have hnow : (s.killBoth u).now = s.now := (now_kill ..).trans (now_countKill ..)
  obtain ⟨hphase', hplans, hflying, hnoted, hdevice, hzero⟩ := deviceBegun_beginReset hfree' u false
  refine ⟨_, congrArg Host.Outcome.next (if_pos hphase), ⟨hphase', hplans, hflying, hnow ▸ hnoted, hdevice.congr_left ?_, hzero⟩,
    hkills.of_get_eq (get_kills_beginReset hfree' u false)⟩
  exact (get_device_kill ..).trans (get_device_countKill ..)

/-- Settles O33: the device reset that each of the three begins, and the management processor's watchdog. -/
theorem deviceResets : Obligations.DeviceResets := by
  intro u s hfree
  have hbegun := deviceBegun_beginReset hfree u false
  exact ⟨⟨_, rfl, hbegun⟩, fun cp hcp => ⟨_, congrArg Host.Outcome.next (if_pos hcp), hbegun⟩,
    fun hphase => planWatchdog_begins hfree hphase u, ⟨_, rfl, rfl, rfl⟩⟩

end Sys2Proof.Machine
end

section
/-! Resets at every level: those asked for, those that take too long, and those that end (R391 to R393, R403, R409). -/
namespace Sys2Proof.Machine

/-! Resets that begin (R391, R392). -/

/-- The core resets among those that a die reset absorbs count as their cores' failed tests (R409). -/
def State.failAbsorbed (s : State) (gone : List ResetRun) : State :=
  (gone.filter (fun r => decide (r.level = 2))).foldl (fun s r => s.failTest r.unit) s

theorem flt_failAbsorbed (s : State) (gone : List ResetRun) : (s.failAbsorbed gone).flt = s.flt :=
  foldl_keeps_value (fun u => u.flt) _ s fun u r _ => (keeps_failTest (Keeps.refl 0x8000400 u) rfl (a1 := r.unit)).same .flt rfl

/-- The resets in progress once a reset of a scope has begun: those inside it are absorbed. -/
def State.resetsWith (s : State) (me : Nat × Nat × Nat) (u : Nat) : List ResetRun :=
  s.flt.resets.filter (fun r => !resetCovers me r.scope) ++ [⟨me.1, me.2.1, me.2.2, s.now + u, 0⟩]

/-- A reset that a wider one absorbs is no longer in progress. -/
theorem notMem_resetsWith {me : Nat × Nat × Nat} {r : ResetRun} (hin : resetCovers me r.scope = true) (hlevel : r.level ≠ me.1) (s : State)
    (u : Nat) : r ∉ s.resetsWith me u := by
  rw [State.resetsWith, List.mem_append, List.mem_singleton, List.mem_filter, hin]
  rintro (⟨-, h⟩ | rfl)
  · cases h
  · exact hlevel rfl

section
variable {s : State}

theorem beginReset_covered {level unit engine : Nat} (h : s.flt.resets.any (fun r => resetCovers r.scope (level, unit, engine)) = true) (t : Nat)
    (owner : Bool) : s.beginReset level unit engine t owner = s := by
  unfold State.beginReset
  exact if_pos h

theorem resets_engineReset {p e : Nat} (hfree : s.flt.resets.any (fun r => resetCovers r.scope (1, p, e)) = false) (u : Nat) :
    (s.beginReset 1 p e u false).flt.resets = s.resetsWith (1, p, e) u := by
  rw [beginReset_engine hfree, (keeps_engineReset _ p e).same .flt rfl]
  rfl

section
variable {p : Nat} (hfree : s.flt.resets.any (fun r => resetCovers r.scope (2, p, 0)) = false) (u : Nat) (owner : Bool)
include hfree

theorem beginReset_core : s.beginReset 2 p 0 u owner =
    (((s.noteRun 2 p 0 u).clearCore 2 p).bump F.FLT_COUNTS_CORE 0 1).showResets := by
  unfold State.beginReset State.noteRun
  simp only [hfree, Bool.false_eq_true, if_false, Nat.reduceEqDiff]

theorem resets_coreReset : (s.beginReset 2 p 0 u owner).flt.resets = s.resetsWith (2, p, 0) u := by
  rw [beginReset_core hfree, State.showResets, State.put_flt, State.bump_flt, (keeps_clearCore (Keeps.refl 0x8100400 _) rfl).same .flt rfl]
  rfl
end

section
variable {d : Nat} (hfree : s.flt.resets.any (fun r => resetCovers r.scope (3, d, 0)) = false) (u : Nat) (owner : Bool)
include hfree

theorem beginReset_die : s.beginReset 3 d 0 u owner =
    (((((s.noteRun 3 d 0 u).failAbsorbed (s.flt.resets.filter (fun r => resetCovers (3, d, 0) r.scope))).clearDie 3 d).bump
      F.FLT_COUNTS_DIE 0 1).calAbort (State.calOnDie d)).showResets := by
  unfold State.beginReset State.noteRun State.failAbsorbed
  simp only [hfree, Bool.false_eq_true, if_false, if_true]

theorem resets_dieReset : (s.beginReset 3 d 0 u owner).flt.resets = s.resetsWith (3, d, 0) u := by
  rw [beginReset_die hfree, State.showResets, State.put_flt, resets_calAbort, State.bump_flt,
    (keeps_clearDie (Keeps.refl 0xC101400 _) rfl).same .flt rfl, flt_failAbsorbed]
  rfl

theorem cores_dieReset (p : Nat) : (s.beginReset 3 d 0 u owner).core p = (((s.noteRun 3 d 0 u).failAbsorbed
    (s.flt.resets.filter (fun r => resetCovers (3, d, 0) r.scope))).clearDie 3 d).core p := by
  rw [beginReset_die hfree, State.showResets, core_put, core_congr ((keeps_calAbort (Keeps.refl 0x4A1041094 _) rfl).same .cores rfl),
    State.bump, core_put]
end

theorem resets_deviceReset (hfree : s.flt.resets.any (fun r => resetCovers r.scope (4, 0, 0)) = false) (u : Nat) (owner : Bool) :
    (s.beginReset 4 0 0 u owner).flt.resets = s.resetsWith (4, 0, 0) u := by
  rw [beginReset_device hfree, State.showResets, State.put_flt, resets_beginDevice]
  rfl
end

/-! The level that a core in reset shows (R391). -/

theorem resetting_clearCore (level : Nat) (s : State) (p q : Nat) :
    ((s.clearCore level p).core q).resetting = if q = p then some level else (s.core q).resetting := by
  refine Eq.trans (congrArg Core.resetting ((core_put ..).trans (core_setCore ..))) ?_
  split <;> rfl

theorem resetting_clearDie {level d p : Nat} (hp : p / 48 = d) (s : State) : ((s.clearDie level d).core p).resetting = some level := by
  refine (congrArg Core.resetting (core_clearBattRegs ..)).trans
    (foldl_reaches (P := fun u => (u.core p).resetting = some level) (mem_dieCores hp) (fun u => ?_) (fun u q h => ?_) s)
  · rw [resetting_clearCore, if_pos rfl]
  · rw [resetting_clearCore]
    split
    · rfl
    · exact h

theorem resetting_coreReset {s : State} {p : Nat} (hfree : s.flt.resets.any (fun r => resetCovers r.scope (2, p, 0)) = false) (u : Nat)
    (owner : Bool) : ((s.beginReset 2 p 0 u owner).core p).resetting = some 2 := by
  rw [beginReset_core hfree, State.showResets, core_put, State.bump, core_put, resetting_clearCore, if_pos rfl]

theorem resetting_dieReset {s : State} {d p : Nat} (hfree : s.flt.resets.any (fun r => resetCovers r.scope (3, d, 0)) = false) (u : Nat)
    (owner : Bool) (hp : p / 48 = d) : ((s.beginReset 3 d 0 u owner).core p).resetting = some 3 := by
  rw [cores_dieReset hfree, resetting_clearDie hp]

/-! Resets asked for (R392). -/

/-- A reset asked for begins, or is ignored inside one in progress. -/
theorem completes_of_beginReset {c : Instr} {s : State} {me : Nat × Nat × Nat} {u : Nat}
    (hc : exec c s = .next (s.beginReset me.1 me.2.1 me.2.2 u false))
    (hresets : s.flt.resets.any (fun r => resetCovers r.scope me) = false →
      (s.beginReset me.1 me.2.1 me.2.2 u false).flt.resets = s.resetsWith me u) :
    (s.flt.resets.any (fun r => resetCovers r.scope me) = false → Completes c s (fun t => t.flt.resets = s.resetsWith me u)) ∧
    (¬ s.flt.resets.any (fun r => resetCovers r.scope me) = false → exec c s = .next s) :=
  ⟨fun hfree => ⟨_, hc, hresets hfree⟩, fun h => by rw [hc, beginReset_covered (by simpa using h)]⟩

/-! Resets that take too long (R392). -/

/-- The reset found in progress at a scope has it. -/
theorem scope_of_find {l : List ResetRun} {me : Nat × Nat × Nat} {r : ResetRun} (h : l.find? (fun r => decide (r.scope = me)) = some r) :
    r.scope = me := by simpa using List.find?_some h

/-- The reset found at a scope is absorbed by a wider one that covers it. -/
theorem notMem_resetsWith_of_find {s : State} {me wide : Nat × Nat × Nat} {r : ResetRun}
    (h : s.flt.resets.find? (fun r => decide (r.scope = me)) = some r) (hin : resetCovers wide me = true) (hlevel : me.1 ≠ wide.1) (u : Nat) :
    r ∉ s.resetsWith wide u := by
  have hscope := scope_of_find h
  refine notMem_resetsWith (hscope ▸ hin) (fun h => hlevel ?_) s u
  rw [← hscope]
  exact h

section
variable {unit e u : Nat} {s : State} {r : ResetRun}

theorem engineTimeout_widens (hfind : s.flt.resets.find? (fun r => decide (r.scope = (1, unit, e))) = some r)
    (hlate : r.start + resetTime 1 ≤ s.now + u) (hfree : s.flt.resets.any (fun r => resetCovers r.scope (2, unit, 0)) = false) :
    Completes (.resetTimeout 1 unit e u) s (fun t => t.flt.resets = s.resetsWith (2, unit, 0) u ∧ r ∉ t.flt.resets ∧
      (t.core unit).resetting = some 2) := by
  refine ⟨s.beginReset 2 unit 0 u false, congrArg Host.Outcome.next ?_, resets_coreReset hfree u false, ?_, resetting_coreReset hfree u false⟩
  · rw [hfind]
    exact if_neg (Nat.not_lt.mpr hlate)
  · rw [resets_coreReset hfree]
    exact notMem_resetsWith_of_find hfind (by simp [resetCovers]) (by decide : 1 ≠ 2) u

theorem coreTimeout_widens (hfind : s.flt.resets.find? (fun r => decide (r.scope = (2, unit, e))) = some r)
    (hlate : r.start + resetTime 2 ≤ s.now + u) (hfree : s.flt.resets.any (fun r => resetCovers r.scope (3, unit / 48, 0)) = false) :
    Completes (.resetTimeout 2 unit e u) s (fun t => t.flt.resets = s.resetsWith (3, unit / 48, 0) u ∧ r ∉ t.flt.resets ∧
      ∀ i < 48, (t.core (48 * (unit / 48) + i)).resetting = some 3) := by
  refine ⟨s.beginReset 3 (unit / 48) 0 u false, congrArg Host.Outcome.next ?_, resets_dieReset hfree u false, ?_,
    fun i hi => resetting_dieReset hfree u false (by omega)⟩
  · rw [hfind]
    exact if_neg (Nat.not_lt.mpr hlate)
  · rw [resets_dieReset hfree]
    exact notMem_resetsWith_of_find hfind (by simp [resetCovers]) (by decide : 2 ≠ 3) u

theorem dieTimeout_widens (hfind : s.flt.resets.find? (fun r => decide (r.scope = (3, unit, e))) = some r)
    (hlate : r.start + resetTime 3 ≤ s.now + u) (hfree : s.flt.resets.any (fun r => resetCovers r.scope (4, 0, 0)) = false) :
    Completes (.resetTimeout 3 unit e u) s (fun t => t.flt.resets = s.resetsWith (4, 0, 0) u ∧ r ∉ t.flt.resets ∧ t.phase = 3) := by
  obtain ⟨hphase, -⟩ := deviceBegun_beginReset hfree u false
  refine ⟨s.beginReset 4 0 0 u false, congrArg Host.Outcome.next ?_, resets_deviceReset hfree u false, ?_, hphase⟩
  · rw [hfind]
    exact if_neg (Nat.not_lt.mpr hlate)
  · rw [resets_deviceReset hfree]
    exact notMem_resetsWith_of_find hfind rfl (by decide : 3 ≠ 4) u

/-- A device reset that is late has cause 4. -/
theorem deviceTimeout_stops (hfind : s.flt.resets.find? (fun r => decide (r.scope = (4, unit, e))) = some r)
    (hlate : r.start + resetTime 4 ≤ s.now + u) (hdue : s.flt.oosDue = none) :
    Completes (.resetTimeout 4 unit e u) s (fun t => t.flt.oosDue = some 4) := by
  refine ⟨(s.dropReset (4, unit, e)).oosNext 4, congrArg Host.Outcome.next ?_, ?_⟩
  · rw [hfind]
    exact if_neg (Nat.not_lt.mpr hlate)
  · rw [State.oosNext, State.dropReset, State.showResets, State.put_flt]
    dsimp only
    rw [hdue]
end

/-! Resets that end (R393, R403, R409). -/

/-- What an EVENT at the closing tick logs depends on the log's buffer alone, besides the frame and PTP time. -/
theorem loggedAt_eventAt_of_log {s u : State} (hbuf : u.flt.logBuf = s.flt.logBuf) (hseq : u.flt.logSeq = s.flt.logSeq)
    (hframe : u.frame = s.frame) (hports : u.ports = s.ports) (st kind i d0 d1 : Nat) :
    LoggedAt st kind i d0 d1 s (u.eventAt st kind i d0 d1) := by
  have h := logged_event { u with frame := u.frame + 1 } st kind i d0 d1
  unfold LoggedAt Logged at *
  simpa only [State.eventAt, hbuf, hseq, hframe, hports] using h

theorem core_eventAt (s : State) (st kind i d0 d1 p : Nat) : (s.eventAt st kind i d0 d1).core p = s.core p :=
  core_congr ((keeps_eventAt (Keeps.refl 0x421000084 s) rfl).same .cores rfl) p

theorem core_dropReset (s : State) (me : Nat × Nat × Nat) (p : Nat) : (s.dropReset me).core p = s.core p :=
  core_congr ((keeps_dropReset (Keeps.refl 0x20000004 s) rfl).same .cores rfl) p

theorem now_dropReset (s : State) (me : Nat × Nat × Nat) : (s.dropReset me).now = s.now :=
  (keeps_dropReset (Keeps.refl 0x20000004 s) rfl).same .now rfl

theorem flt_dropReset (s : State) (me : Nat × Nat × Nat) :
    (s.dropReset me).flt = { s.flt with resets := s.flt.resets.filter (fun r => decide (r.scope ≠ me)) } := by
  rw [State.dropReset, State.showResets, State.put_flt]

/-- What changes only the cores after a reset was dropped reports as the state before does. -/
theorem loggedAt_dropReset {s v : State} {me : Nat × Nat × Nat} (h : Keeps 0x8000400 (s.dropReset me) v) (st kind i d0 d1 : Nat) :
    LoggedAt st kind i d0 d1 s (v.eventAt st kind i d0 d1) := by
  have hdropped := keeps_dropReset (Keeps.refl 0x20000004 s) rfl (a1 := me)
  refine loggedAt_eventAt_of_log ?_ ?_ ((h.same .frame rfl).trans (hdropped.same .frame rfl))
    ((h.same .ports rfl).trans (hdropped.same .ports rfl)) st kind i d0 d1
  · rw [h.same .flt rfl, flt_dropReset]
  · rw [h.same .flt rfl, flt_dropReset]

/-- A core whose reset has ended, to be rebuilt. -/
def Core.up (x : Core) : Core := { x with resetting := none, rebuilding := true }

/-- Every core of a die out of its reset, to be rebuilt. -/
def State.upDie (s : State) (d : Nat) : State := ((List.range 48).map (fun i => 48 * d + i)).foldl (fun s p => s.updCore p Core.up) s

theorem keeps_upDie (s : State) (d : Nat) : Keeps 0x8000400 s (s.upDie d) := Keeps.foldl (Keeps.refl _ s) fun v _ => (Keeps.refl _ v).setCore rfl

section
variable {unit e : Nat} {s : State} {r : ResetRun}

theorem engineReset_completes (hfind : s.flt.resets.find? (fun r => decide (r.scope = (1, unit, e))) = some r) :
    Completes (.resetComplete 1 unit e) s (fun t => e ∉ (t.core unit).engines ∧ LoggedAt 0x0504 2 unit 1 r.frames s t) := by
  refine ⟨((s.dropReset (1, unit, e)).updCore unit (fun x => { x with engines := x.engines.filter (fun f => decide (f ≠ e)) })).eventAt
    0x0504 2 unit 1 r.frames, congrArg Host.Outcome.next (by rw [hfind]; rfl), ?_, loggedAt_dropReset ((Keeps.refl _ _).setCore rfl) _ _ _ _ _⟩
  rw [core_eventAt, core_updCore_same]
  simp

theorem coreReset_completes (hfind : s.flt.resets.find? (fun r => decide (r.scope = (2, unit, e))) = some r) :
    Completes (.resetComplete 2 unit e) s (fun t => (t.core unit).resetting = none ∧ (t.core unit).rebuilding = true ∧
      (t.core unit).failed = (s.core unit).failed ++ [s.now] ∧ LoggedAt 0x0504 2 unit 2 r.frames s t) := by
  have hcore : (((s.dropReset (2, unit, e)).updCore unit Core.up).failTest unit).core unit =
      { (s.core unit).up with failed := (s.core unit).failed ++ [s.now] } := by
    rw [State.failTest, State.bumpSat, core_put, core_updCore_same, core_updCore_same, core_dropReset]
    exact congrArg (fun n => { (s.core unit).up with failed := (s.core unit).failed ++ [n] }) (now_dropReset s (2, unit, e))
  refine ⟨(((s.dropReset (2, unit, e)).updCore unit Core.up).failTest unit).eventAt 0x0504 2 unit 2 r.frames,
    congrArg Host.Outcome.next (by rw [hfind]; rfl), ?_, ?_, ?_, loggedAt_dropReset (keeps_failTest ((Keeps.refl _ _).setCore rfl) rfl) _ _ _ _ _⟩
  · rw [core_eventAt, hcore]; rfl
  · rw [core_eventAt, hcore]; rfl
  · rw [core_eventAt, hcore]

theorem dieReset_completes (hfind : s.flt.resets.find? (fun r => decide (r.scope = (3, unit, e))) = some r) :
    Completes (.resetComplete 3 unit e) s (fun t => (∀ i < 48, (t.core (48 * unit + i)).resetting = none ∧
      (t.core (48 * unit + i)).rebuilding = true) ∧ LoggedAt 0x0504 1 unit 3 r.frames s t) := by
  refine ⟨((s.dropReset (3, unit, e)).upDie unit).eventAt 0x0504 1 unit 3 r.frames, congrArg Host.Outcome.next (by rw [hfind]; rfl),
    fun i hi => ?_, loggedAt_dropReset (keeps_upDie ..) _ _ _ _ _⟩
  rw [core_eventAt]
  refine foldl_reaches (P := fun u => (u.core (48 * unit + i)).resetting = none ∧ (u.core (48 * unit + i)).rebuilding = true)
    (mem_dieCores (show (48 * unit + i) / 48 = unit by omega)) (fun u => ?_) (fun u q h => ?_) _
  · rw [core_updCore_same]
    exact ⟨rfl, rfl⟩
  · rw [core_updCore]
    split
    · exact ⟨rfl, rfl⟩
    · exact h
end

/-- Settles O34: resets asked for, resets that take too long, and resets that end, level by level. -/
theorem resetsEnd : Obligations.ResetsEnd := by
  intro k unit e u s
  refine ⟨completes_of_beginReset (me := (1, unit, e)) rfl fun h => resets_engineReset h u,
    completes_of_beginReset (me := (2, unit, 0)) rfl fun h => resets_coreReset h u false,
    completes_of_beginReset (me := (3, unit, 0)) rfl fun h => resets_dieReset h u false,
    completes_of_beginReset (me := (4, 0, 0)) rfl fun h => resets_deviceReset h u false, fun r hfind => ⟨fun hlate => ⟨?_, ?_, ?_, ?_⟩, ?_, ?_, ?_⟩⟩
  · rintro rfl
    exact engineTimeout_widens hfind hlate
  · rintro rfl
    exact coreTimeout_widens hfind hlate
  · rintro rfl
    exact dieTimeout_widens hfind hlate
  · rintro rfl
    exact deviceTimeout_stops hfind hlate
  · rintro rfl
    exact engineReset_completes hfind
  · rintro rfl
    exact coreReset_completes hfind
  · rintro rfl
    exact dieReset_completes hfind

end Sys2Proof.Machine
end

section
/-! Cores that are fenced, spares that take their place, and the contexts that return (R409 to R413). -/
namespace Sys2Proof.Machine

/-! What an EVENT's record depends on. -/

/-- What the record of an EVENT is formed from (R356, R408). -/
def State.logView (s : State) : List LogRec × Nat × Nat × PortSt := (s.flt.logBuf, s.flt.logSeq, s.frame, s.ports)

theorem logView_of_keeps {m : Nat} {s t : State} (h : Keeps m s t) (hflt : m.testBit 29 = false) (hframe : m.testBit 22 = false)
    (hports : m.testBit 24 = false) : t.logView = s.logView := by
  rw [State.logView, State.logView, show t.flt = s.flt from h.same .flt hflt, show t.frame = s.frame from h.same .frame hframe,
    show t.ports = s.ports from h.same .ports hports]

theorem logView_put (s : State) (f : Fld) (i v : Nat) : (s.put f i v).logView = s.logView := by
  rw [State.logView, State.put_flt, State.put_frame, State.put_ports, State.logView]

theorem loggedAt_eventAt {s u : State} (h : u.logView = s.logView) (st kind i d0 d1 : Nat) : LoggedAt st kind i d0 d1 s (u.eventAt st kind i d0 d1) := by
  simp only [State.logView, Prod.mk.injEq] at h
  obtain ⟨hbuf, hseq, hframe, hports⟩ := h
  exact loggedAt_eventAt_of_log hbuf hseq hframe hports st kind i d0 d1

/-- What an EVENT logs of a state it logs of every state with the same view of the log. -/
theorem LoggedAt.of_logView {st kind i d0 d1 : Nat} {s u t : State} (h : LoggedAt st kind i d0 d1 u t) (hview : u.logView = s.logView) :
    LoggedAt st kind i d0 d1 s t := by
  simp only [State.logView, Prod.mk.injEq] at hview
  obtain ⟨hbuf, hseq, hframe, hports⟩ := hview
  unfold LoggedAt Logged at *
  simpa only [hbuf, hseq, hframe, hports] using h

theorem get_oosNext (s : State) (cause : Nat) (g : Fld) (i : Nat) : (s.oosNext cause).get g i = s.get g i := rfl

theorem LoggedAt.oosNext {st kind i d0 d1 : Nat} {s t : State} (h : LoggedAt st kind i d0 d1 s t) (cause : Nat) :
    LoggedAt st kind i d0 d1 s (t.oosNext cause) := h

/-! Roles of cores (R411, R414). -/

section
variable {s : State} {p role l : Nat}

theorem get_role_setRole (hp : p < 192) : (s.setRole p role l).get F.FLT_CORE_ROLE p = role % 4 := by
  rw [State.setRole, get_put_apart _ rfl rfl rfl]
  exact get_put_same _ rfl hp role

theorem get_logical_setRole (hp : p < 192) : (s.setRole p role l).get F.FLT_CORE_LOGICAL p = l % 2 ^ 8 := get_put_same _ rfl hp l

/-- The registers of another core keep their role and logical core. -/
theorem get_setRole_other {g : Fld} {q : Nat} (hq : g.addr q ≠ F.FLT_CORE_ROLE.addr p) : (s.setRole p role l).get g q = s.get g q := by
  have hword : F.FLT_CORE_LOGICAL.addr p = F.FLT_CORE_ROLE.addr p := by simp only [Fld.addr, F.FLT_CORE_LOGICAL, F.FLT_CORE_ROLE]
  rw [State.setRole, get_put_addr _ (hword ▸ hq), get_put_addr _ hq]
  exact get_congr rfl ..

theorem logView_setRole : (s.setRole p role l).logView = s.logView := by
  rw [State.setRole, logView_put, logView_put]
  rfl

theorem role_of_logicalOf (h : s.logicalOf p = some l) : s.get F.FLT_CORE_ROLE p = 0 ∧ l = s.get F.FLT_CORE_LOGICAL p := by
  unfold State.logicalOf at h
  split at h
  · next hrole => exact ⟨hrole, (Option.some.inj h).symm⟩
  · cases h

theorem logicalOf_lt (h : s.logicalOf p = some l) : l < 2 ^ 8 := by
  obtain ⟨-, rfl⟩ := role_of_logicalOf h
  exact get_lt ..

/-- A spare of one of the four dies is a physical core with role 1. -/
theorem spare_of_mem {d q : Nat} (hd : d < 4) (h : q ∈ s.spares d) : q < 192 ∧ s.get F.FLT_CORE_ROLE q = 1 := by
  obtain ⟨hmem, hrole⟩ := List.mem_filter.mp h
  obtain ⟨i, hi, rfl⟩ := List.mem_map.mp hmem
  have := List.mem_range.mp hi
  simp only [Bool.and_eq_true, decide_eq_true_eq] at hrole
  exact ⟨by omega, hrole.1⟩

theorem spare_of_chooseSpare {q : Nat} (hp : p < 192) (h : s.chooseSpare p = some q) : q < 192 ∧ s.get F.FLT_CORE_ROLE q = 1 := by
  unfold State.chooseSpare at h
  split at h
  · next r _ hown =>
    cases h
    exact spare_of_mem (d := p / 48) (by omega) (hown ▸ List.mem_cons_self)
  · refine spare_of_mem ?_ (List.mem_of_mem_head? h)
    refine List.foldlRecOn (motive := fun b => b < 4) _ _ (by decide : 0 < 4) fun b hb d hd => ?_
    have := List.mem_range.mp hd
    split <;> omega

theorem ne_of_chooseSpare {q : Nat} (hp : p < 192) (hl : s.logicalOf p = some l) (h : s.chooseSpare p = some q) : p ≠ q := by
  rintro rfl
  have hrole := (role_of_logicalOf hl).1
  rw [(spare_of_chooseSpare hp h).2] at hrole
  cases hrole
end

/-! A core gives way (R411 to R413). -/

/-- The batts of a core without a load owner. -/
def State.loseBatts (s : State) (p : Nat) : State := (List.range 8).foldl (fun s b => s.updBatt (8 * p + b) (fun x => { x with owner := none })) s

theorem keeps_loseBatts (s : State) (p : Nat) : Keeps 0x4000000 s (s.loseBatts p) := Keeps.foldl (Keeps.refl _ s) fun v _ => (Keeps.refl _ v).setBatt rfl

theorem regs_loseBatts (s : State) (p : Nat) : (s.loseBatts p).regs = s.regs := foldl_keeps_value (fun u => u.regs) _ s fun _ _ _ => rfl

theorem chooseSpare_congr {s t : State} (hregs : t.regs = s.regs) (hcores : t.cores = s.cores) (p : Nat) : t.chooseSpare p = s.chooseSpare p := by
  have hspares : t.spares = s.spares := funext fun d => List.filter_congr fun q _ => by rw [get_congr hregs, core_congr hcores]
  rw [State.chooseSpare, State.chooseSpare, hspares]

/-- The core without its batts and its role. -/
def State.removed (s : State) (p role : Nat) : State := (s.loseBatts p).setRole p role 0xFF

/-- The spare q in the place of core p: roles, its contexts held by the module, its sync counters taken over, its batts and their rows. -/
def State.replaced (s : State) (p role l q : Nat) : State :=
  let areas := (s.clearCore 2 p).core p
  let s := (s.contextsOn p).foldl (fun s c => s.moduleHold c) ((s.removed p role).setRole q 0 l)
  let s := s.updCore q (fun x => { x with sets := areas.sets, opening := areas.sets, rebuilding := true, testing := true })
  let s := s.liveContexts.foldl (fun s c => ((s.ctx c).batts.filter (fun b => decide (homeLogical (b / 8) = l))).foldl
    (fun s b => s.updBatt (8 * q + b % 8) (fun x => { x with owner := some c, recordDue := true })) s) s
  s.liveContexts.foldl (fun s c =>
    let moved := if s.ctxLive c = 4 ∧ (s.ctx c).held then (s.placement c).filter (fun b => decide (b / 8 = q)) else []
    s.updCtx c (fun x => { x with unsound := x.unsound.filter (fun u => decide (u.1 / 8 ≠ p)) ++ State.allRows moved })) s

/-- Core p lost: the contexts on it fault. -/
def State.lost (s : State) (p role l : Nat) : State :=
  (s.liveContexts.filter (fun c => s.onCore c p || (s.ctx c).cores.contains l)).foldl (fun s c => s.faultCtx c 4) (s.removed p role)

/-- The module has one core less, and leaves service below its least number (R413). -/
def State.countLost (s : State) (p : Nat) : State :=
  let n := s.get F.FLT_STATE_IN_SERVICE 0 - 1
  let s := (s.put F.FLT_STATE_IN_SERVICE 0 n).eventAtD0 0x0504 2 p 6
  if n < s.get F.FLT_STATE_MIN_CORES 0 then s.oosNext 3 else s

section
variable {s : State} {p l : Nat} (role : Nat) (hl : s.logicalOf p = some l)
include hl

theorem migrate_spare {q : Nat} (hq : s.chooseSpare p = some q) : s.migrate p role = (s.replaced p role l q).eventAt 0x0504 2 p 5 q := by
  have hspare : (s.loseBatts p).chooseSpare p = some q :=
    (chooseSpare_congr (regs_loseBatts s p) ((keeps_loseBatts s p).same .cores rfl) p).trans hq
  unfold State.loseBatts at hspare
  unfold State.migrate
  rw [hl]
  dsimp only
  rw [hspare]
  rfl

theorem migrate_lost (hq : s.chooseSpare p = none) : s.migrate p role = (s.lost p role l).countLost p := by
  have hspare : (s.loseBatts p).chooseSpare p = none :=
    (chooseSpare_congr (regs_loseBatts s p) ((keeps_loseBatts s p).same .cores rfl) p).trans hq
  unfold State.loseBatts at hspare
  unfold State.migrate
  rw [hl]
  dsimp only
  rw [hspare]
  rfl
end


/-! The spare in the core's place. -/

section
variable (s : State) (p role l q : Nat)

/-- What follows once the contexts are held: the spare's sets, and then its batts and their rows. -/
theorem exists_replaced : ∃ v w : State, Keeps 0x2802000 ((s.removed p role).setRole q 0 l) v ∧ (w.core q).rebuilding = true ∧
    (w.core q).testing = true ∧ Keeps 0x8000000 v w ∧ Keeps 0x6000000 w (s.replaced p role l q) := by
  refine ⟨_, _, Keeps.foldl (Keeps.refl _ _) fun u c => keeps_moduleHold (Keeps.refl _ u) rfl, ?_, ?_, (Keeps.refl _ _).setCore rfl,
    Keeps.foldl (Keeps.foldl (Keeps.refl _ _) fun u c => Keeps.foldl (Keeps.refl _ u) fun u b => (Keeps.refl _ u).setBatt rfl)
      fun u c => (Keeps.refl _ u).setCtx rfl⟩
  · rw [core_setCore, if_pos rfl]
  · rw [core_setCore, if_pos rfl]

end

/-- The fields of a core's role lie each in their own core's word. -/
theorem addr_role_ne {p q : Nat} (h : q ≠ p) : F.FLT_CORE_ROLE.addr q ≠ F.FLT_CORE_ROLE.addr p ∧
    F.FLT_CORE_LOGICAL.addr q ≠ F.FLT_CORE_ROLE.addr p := by
  simp only [Fld.addr, F.FLT_CORE_LOGICAL, F.FLT_CORE_ROLE]
  omega

theorem get_role_removed {s : State} {p : Nat} (hp : p < 192) (role : Nat) : (s.removed p role).get F.FLT_CORE_ROLE p = role % 4 :=
  get_role_setRole hp

theorem logView_removed (s : State) (p role : Nat) : (s.removed p role).logView = s.logView :=
  logView_setRole.trans (logView_of_keeps (keeps_loseBatts s p) rfl rfl rfl)

section
variable {s : State} {p q l : Nat} (hp : p < 192) (hq : q < 192) (hne : p ≠ q) (hl : l < 2 ^ 8) (role : Nat)
include hp hq hne hl

theorem replaced_takes : (s.replaced p role l q).get F.FLT_CORE_ROLE p = role % 4 ∧ (s.replaced p role l q).get F.FLT_CORE_ROLE q = 0 ∧
    (s.replaced p role l q).get F.FLT_CORE_LOGICAL q = l ∧ ((s.replaced p role l q).core q).testing = true ∧
    ((s.replaced p role l q).core q).rebuilding = true ∧ (s.replaced p role l q).logView = s.logView := by
  obtain ⟨v, w, hheld, hrebuild, htest, hsets, hbatts⟩ := exists_replaced s p role l q
  have hkeeps : Keeps 0xE802000 ((s.removed p role).setRole q 0 l) (s.replaced p role l q) :=
    ((hheld.mono rfl).trans (hsets.mono rfl)).trans (hbatts.mono rfl)
  have hcore : (s.replaced p role l q).core q = w.core q := core_congr (hbatts.same .cores rfl) q
  refine ⟨?_, ?_, ?_, by rw [hcore, htest], by rw [hcore, hrebuild], ?_⟩
  · rw [hkeeps.get (g := F.FLT_CORE_ROLE) rfl hp rfl, get_setRole_other (addr_role_ne hne).1, get_role_removed hp]
  · rw [hkeeps.get (g := F.FLT_CORE_ROLE) rfl hq rfl, get_role_setRole hq]
  · rw [hkeeps.get (g := F.FLT_CORE_LOGICAL) rfl hq rfl, get_logical_setRole hq, Nat.mod_eq_of_lt hl]
  · rw [logView_of_keeps hkeeps rfl rfl rfl, logView_setRole, logView_removed]
end

/-- The words of a core's role are none of those that an event counts in. -/
theorem role_notMem_eventWords (p : Nat) : F.FLT_CORE_ROLE.addr p ∉ eventWords ∧ F.FLT_CORE_LOGICAL.addr p ∉ eventWords := by
  simp only [eventWords, Fld.addr, F.FLT_CORE_ROLE, F.FLT_CORE_LOGICAL, F.FLT_LOG_NEXT, F.ETH_TX_LOST_STREAMS, List.mem_cons, List.not_mem_nil,
    or_false]
  omega

/-- A core that gives way to the spare q. -/
theorem migrate_spare_takes {s : State} {p q l : Nat} (hp : p < 192) (hl : s.logicalOf p = some l) (hq : s.chooseSpare p = some q) (role : Nat) :
    (s.migrate p role).get F.FLT_CORE_ROLE p = role % 4 ∧ (s.migrate p role).get F.FLT_CORE_ROLE q = 0 ∧
      (s.migrate p role).get F.FLT_CORE_LOGICAL q = l ∧ ((s.migrate p role).core q).testing = true ∧
      ((s.migrate p role).core q).rebuilding = true ∧ LoggedAt 0x0504 2 p 5 q s (s.migrate p role) := by
  obtain ⟨hrole, hspare, hlogical, htest, hrebuild, hview⟩ :=
    replaced_takes (s := s) hp (spare_of_chooseSpare hp hq).1 (ne_of_chooseSpare hp hl hq) (logicalOf_lt hl) role
  rw [migrate_spare role hl hq, get_eventAt (role_notMem_eventWords p).1, get_eventAt (role_notMem_eventWords q).1,
    get_eventAt (role_notMem_eventWords q).2, core_eventAt]
  exact ⟨hrole, hspare, hlogical, htest, hrebuild, loggedAt_eventAt hview _ _ _ _ _⟩

/-! The core lost. -/

section
variable {s : State} {p : Nat} (hp : p < 192) (role l : Nat)
include hp

theorem lost_loses : (s.lost p role l).get F.FLT_CORE_ROLE p = role % 4 ∧
    (s.lost p role l).get F.FLT_STATE_IN_SERVICE 0 = s.get F.FLT_STATE_IN_SERVICE 0 ∧ (s.lost p role l).logView = s.logView := by
  have hkeeps : Keeps 0x2000000 (s.removed p role) (s.lost p role l) :=
    Keeps.foldl (Keeps.refl _ _) fun u c => keeps_faultCtx (Keeps.refl _ u) rfl
  have hremoved : Keeps 0x24000400 s (s.removed p role) := keeps_setRole ((keeps_loseBatts s p).mono rfl) rfl
  refine ⟨?_, ?_, ?_⟩
  · rw [hkeeps.get rfl hp rfl, get_role_removed hp]
  · rw [hkeeps.get rfl (by decide) rfl, hremoved.get rfl (by decide) rfl]
  · rw [logView_of_keeps hkeeps rfl rfl rfl, logView_removed]

omit hp in
theorem countLost_counts (s : State) (p : Nat) :
    (s.countLost p).get F.FLT_STATE_IN_SERVICE 0 = s.get F.FLT_STATE_IN_SERVICE 0 - 1 ∧
      (s.countLost p).get F.FLT_CORE_ROLE p = s.get F.FLT_CORE_ROLE p ∧ ∃ d, LoggedAt 0x0504 2 p 6 d s (s.countLost p) := by
  obtain ⟨d, hlogged⟩ := loggedAt_eventAtD0 (s.put F.FLT_STATE_IN_SERVICE 0 (s.get F.FLT_STATE_IN_SERVICE 0 - 1)) 0x0504 2 p 6
  replace hlogged := hlogged.of_logView (logView_put s ..)
  have hin : ((s.put F.FLT_STATE_IN_SERVICE 0 (s.get F.FLT_STATE_IN_SERVICE 0 - 1)).eventAtD0 0x0504 2 p 6).get F.FLT_STATE_IN_SERVICE 0 =
      s.get F.FLT_STATE_IN_SERVICE 0 - 1 := by
    rw [get_eventAtD0 (by decide), get_put_same _ rfl (by decide)]
    exact Nat.mod_eq_of_lt (Nat.lt_of_le_of_lt (Nat.sub_le ..) (get_lt s F.FLT_STATE_IN_SERVICE 0))
  have hrole : ((s.put F.FLT_STATE_IN_SERVICE 0 (s.get F.FLT_STATE_IN_SERVICE 0 - 1)).eventAtD0 0x0504 2 p 6).get F.FLT_CORE_ROLE p =
      s.get F.FLT_CORE_ROLE p := by
    rw [get_eventAtD0 (role_notMem_eventWords p).1, get_put_addr]
    simp only [Fld.addr, F.FLT_CORE_ROLE, F.FLT_STATE_IN_SERVICE]
    omega
  unfold State.countLost
  dsimp only
  split
  · exact ⟨(get_oosNext ..).trans hin, (get_oosNext ..).trans hrole, d, hlogged.oosNext 3⟩
  · exact ⟨hin, hrole, d, hlogged⟩

variable {role l}

theorem migrate_lost_loses (hl : s.logicalOf p = some l) (hq : s.chooseSpare p = none) :
    (s.migrate p role).get F.FLT_CORE_ROLE p = role % 4 ∧
      (s.migrate p role).get F.FLT_STATE_IN_SERVICE 0 = s.get F.FLT_STATE_IN_SERVICE 0 - 1 ∧
      ∃ d, LoggedAt 0x0504 2 p 6 d s (s.migrate p role) := by
  obtain ⟨hrole, hin, hview⟩ := lost_loses (s := s) hp role l
  obtain ⟨hin', hrole', d, hlogged⟩ := countLost_counts (s.lost p role l) p
  rw [migrate_lost role hl hq]
  exact ⟨hrole'.trans hrole, hin'.trans (by rw [hin]), d, hlogged.of_logView hview⟩

/-- A core that gives way has the role given, whether a spare takes its place or none does. -/
theorem get_role_migrate (s : State) (role : Nat) : (s.migrate p role).get F.FLT_CORE_ROLE p = role % 4 := by
  cases hl : s.logicalOf p with
  | none =>
    rw [State.migrate, hl]
    exact get_role_setRole hp
  | some l =>
    cases hq : s.chooseSpare p with
    | none => exact (migrate_lost_loses hp hl hq).1
    | some q => exact (migrate_spare_takes hp hl hq role).1
end

/-! The three commands (R410, R412). -/

/-- Whether a calibration run uses core p or a batt of it (R494). -/
def calOnCore (p scope unit : Nat) : Bool := (decide (scope = 0) && decide (unit / 8 = p)) || (decide (scope = 4) && decide (unit = p))

section
variable {s : State} {p l : Nat} (hp : p < 192) (hdue : (List.range 192).filter (fun p => s.fenceDue p) = [p]) (hl : s.logicalOf p = some l)
include hdue

theorem execCoreFence_one : exec .coreFence s = .next ((s.migrate p 2).calAbort (calOnCore p)) := by
  refine congrArg Host.Outcome.next ?_
  rw [hdue]
  rfl

include hp hl

theorem coreFence_spare {q : Nat} (hq : s.chooseSpare p = some q) :
    Completes .coreFence s (fun t => t.get F.FLT_CORE_ROLE p = 2 ∧ t.get F.FLT_CORE_ROLE q = 0 ∧ t.get F.FLT_CORE_LOGICAL q = l ∧
      (t.core q).testing = true ∧ (t.core q).rebuilding = true ∧ (s.cal.run = none → LoggedAt 0x0504 2 p 5 q s t)) := by
  have hq192 := (spare_of_chooseSpare hp hq).1
  obtain ⟨hrole, hspare, hlogical, htest, hrebuild, hlogged⟩ := migrate_spare_takes hp hl hq 2
  have habort := keeps_calAbort (Keeps.refl 0x4A1041094 (s.migrate p 2)) rfl (a1 := calOnCore p)
  refine ⟨_, execCoreFence_one hdue, ?_, ?_, ?_, ?_, ?_, fun hrun => ?_⟩
  · rw [habort.get rfl hp rfl, hrole]
  · rw [habort.get rfl hq192 rfl, hspare]
  · rw [habort.get rfl hq192 rfl, hlogical]
  · rw [core_congr (habort.same .cores rfl), htest]
  · rw [core_congr (habort.same .cores rfl), hrebuild]
  · rwa [calAbort_of_run_none]
    rw [(keeps_migrate (Keeps.refl 0xC2F902484 s) rfl).same .cal rfl, hrun]

theorem coreFence_lost (hq : s.chooseSpare p = none) :
    Completes .coreFence s (fun t => t.get F.FLT_CORE_ROLE p = 2 ∧
      t.get F.FLT_STATE_IN_SERVICE 0 = s.get F.FLT_STATE_IN_SERVICE 0 - 1 ∧ (s.cal.run = none → ∃ d, LoggedAt 0x0504 2 p 6 d s t)) := by
  obtain ⟨hrole, hin, hlogged⟩ := migrate_lost_loses (role := 2) hp hl hq
  have habort := keeps_calAbort (Keeps.refl 0x4A1041094 (s.migrate p 2)) rfl (a1 := calOnCore p)
  refine ⟨_, execCoreFence_one hdue, ?_, ?_, fun hrun => ?_⟩
  · rw [habort.get rfl hp rfl, hrole]
  · rw [get_calAbort rfl (by decide) rfl (by decide), hin]
  · rwa [calAbort_of_run_none]
    rw [(keeps_migrate (Keeps.refl 0xC2F902484 s) rfl).same .cal rfl, hrun]
end

section
variable {s : State} {p : Nat} (htest : (s.core p).testing = true)
include htest

theorem execSpareTest_testing (pass : Bool) : exec (.spareTest p pass) s = .next (
    if pass then s.updCore p (fun x => { x with testing := false }) else (s.updCore p (fun x => { x with testing := false })).migrate p 3) :=
  congrArg Host.Outcome.next (if_neg (by simp [htest]))

theorem spareTest_passes : Completes (.spareTest p true) s (fun t => (t.core p).testing = false ∧ t.regs = s.regs) := by
  refine ⟨_, execSpareTest_testing htest true, ?_, rfl⟩
  rw [if_pos rfl, core_updCore_same]

theorem spareTest_fails (hp : p < 192) : Completes (.spareTest p false) s (fun t => t.get F.FLT_CORE_ROLE p = 3) :=
  ⟨_, execSpareTest_testing htest false, get_role_migrate hp _ 3⟩
end

theorem spareReblockComplete_readies {s : State} {c : Nat} (hc : c < 1024) (hparked : s.ctxLive c = 4)
    (hheld : s.get F.CTX_STATE_MODULE_HELD c = 1) (hblocked : s.unblocked c = [])
    (hcores : ∀ p ∈ (s.ctx c).cores.filterMap (fun l => s.physOf l), (s.core p).testing = false ∧ (s.core p).rebuilding = false) :
    Completes (.spareReblockComplete c) s (fun t => t.ctxLive c = 2 ∧ t.get F.CTX_STATE_MODULE_HELD c = 0 ∧ (t.ctx c).vtime = s.minVtime) := by
  obtain ⟨hready, -, hheld', hvtime⟩ := enterReady_readies s hc
  refine ⟨s.enterReady c, congrArg Host.Outcome.next (if_pos ⟨hparked, hheld, hblocked, ?_⟩), hready, hheld', hvtime⟩
  exact List.all_eq_true.mpr fun p hp => by simp [hcores p hp]

/-- Settles O36: the core that a spare replaces and the one lost, the spare's test, and the context that returns. -/
theorem coreFenceAndSpares : Obligations.CoreFenceAndSpares := fun _ =>
  ⟨fun _ _ hp hdue hl => ⟨fun _ => coreFence_spare hp hdue hl, coreFence_lost hp hdue hl⟩, fun _ => spareTest_passes,
    fun _ hp htest _ => spareTest_fails htest hp, fun _ => spareReblockComplete_readies⟩

end Sys2Proof.Machine
end

section
/-! The event log in flash, failed tests of a day, and the windows of kills and device resets (R404, R408, R409). -/
namespace Sys2Proof.Machine

/-! The log (R408). -/

theorem find?_tput {α : Type} (t : Tbl α) (k : Nat) (v : α) : (tput t k v).find? (fun x => decide (x.1 = k)) = some (k, v) := by
  induction t with
  | nil => simp [tput]
  | cons e r ih =>
    rw [tput]
    split
    · next hlt => rw [List.find?_cons_of_neg (by simpa using Nat.ne_of_lt hlt), ih]
    · split
      · simp
      · simp

theorem eventLogWrite_writes {s : State} {e : LogRec} {l : List LogRec} (h : s.flt.logBuf = e :: l) :
    Completes .eventLogWrite s (fun t => t.flt.logBuf = l ∧
      t.flt.log.find? (fun x => decide (x.1 = e.seq % 4194304)) = some (e.seq % 4194304, e)) :=
  ⟨{ s with flt := { s.flt with logBuf := l, log := tput s.flt.log (e.seq % 4194304) e } }, congrArg Host.Outcome.next (by rw [h]), rfl,
    find?_tput ..⟩

/-! Failed tests of a day (R409). -/

/-- The failed tests of a core that are less than a day old at time n. -/
def lastDay (n : Nat) (l : List Nat) : List Nat := l.filter (fun x => decide (n < x + dayNs))

/-- The failed tests of core p that count at a time t from now. -/
def State.expireTests (t : Nat) (s : State) (p : Nat) : State :=
  let l := lastDay (s.now + t) (s.core p).failed
  (s.updCore p (fun x => { x with failed := l })).put F.FLT_CORE_FAILS p (min 15 l.length)

theorem execFailedTestExpiry_eq (u : Nat) (s : State) :
    exec (.failedTestExpiry u) s = .next ((s.cores.map (fun e => e.1)).foldl (State.expireTests u) s) := rfl

section
variable (u : Nat) (s : State)

theorem now_expireTests (p : Nat) : (s.expireTests u p).now = s.now := State.put_now ..

theorem failed_expireTests (p q : Nat) : ((State.expireTests u s p).core q).failed =
    if q = p then lastDay (s.now + u) (s.core q).failed else (s.core q).failed := by
  rw [State.expireTests, core_put, core_updCore]
  split
  · next h => rw [h]
  · rfl

theorem lastDay_lastDay (n : Nat) (l : List Nat) : lastDay n (lastDay n l) = lastDay n l := by
  simp [lastDay, List.filter_filter]

theorem failed_foldl_expireTests (l : List Nat) (q : Nat) : ((l.foldl (State.expireTests u) s).core q).failed =
    if q ∈ l then lastDay (s.now + u) (s.core q).failed else (s.core q).failed := by
  induction l generalizing s with
  | nil => rfl
  | cons p r ih =>
    rw [List.foldl_cons, ih, failed_expireTests, now_expireTests]
    by_cases hp : q = p
    · rw [if_pos hp, if_pos (List.mem_cons.mpr (.inl hp)), lastDay_lastDay, ite_self]
    · simp only [List.mem_cons, hp, if_false, false_or]

/-- A core's register shows how many of its failed tests count, 15 at most. -/
theorem fails_expireTests {p : Nat} (hp : p < 192) :
    (State.expireTests u s p).get F.FLT_CORE_FAILS p = min 15 ((State.expireTests u s p).core p).failed.length := by
  rw [failed_expireTests, if_pos rfl]
  exact (get_put_same _ rfl hp _).trans (Nat.mod_eq_of_lt (Nat.lt_of_le_of_lt (Nat.min_le_left ..) (by decide)))

theorem fails_expireTests_other {p q : Nat} (h : q ≠ p) : (State.expireTests u s p).get F.FLT_CORE_FAILS q = s.get F.FLT_CORE_FAILS q :=
  (get_put_index _ (by decide) h _).trans (get_congr rfl ..)
end

theorem failedTestExpiry_expires (u : Nat) (s : State) : Completes (.failedTestExpiry u) s (fun t => ∀ p,
    (t.core p).failed = (s.core p).failed.filter (fun x => decide (s.now + u < x + dayNs)) ∧
    (p < 192 → s.cores.any (fun e => decide (e.1 = p)) = true → t.get F.FLT_CORE_FAILS p = min 15 (t.core p).failed.length)) := by
  refine ⟨_, execFailedTestExpiry_eq u s, fun p => ⟨?_, fun hp hlisted => ?_⟩⟩
  · rw [failed_foldl_expireTests]
    split
    · rfl
    · next h => rw [State.core, tget_of_notMem _ h]; rfl
  · obtain ⟨e, he, hep⟩ := List.any_eq_true.mp hlisted
    refine foldl_reaches (P := fun v => v.get F.FLT_CORE_FAILS p = min 15 (v.core p).failed.length)
      (List.mem_map.mpr ⟨e, he, of_decide_eq_true hep⟩) (fun v => fails_expireTests u v hp) (fun v q h => ?_) s
    by_cases hq : p = q
    · rw [← hq]
      exact fails_expireTests u v hp
    · rw [fails_expireTests_other u v hq, failed_expireTests, if_neg hq]
      exact h

/-! The windows (R404). -/

theorem slidingWindowExpiry_expires (u : Nat) (s : State) : Completes (.slidingWindowExpiry u) s (fun t =>
    t.flt.kills = s.flt.kills.filter (fun x => decide (s.now + u < x + 10 ^ 9)) ∧
    t.flt.devResets = s.flt.devResets.filter (fun x => decide (s.now + u < x + 600 * 10 ^ 9)) ∧
    t.get F.FLT_RATES_KILLS_1S 0 = t.flt.kills.length % F.FLT_RATES_KILLS_1S.size ∧
    t.get F.FLT_RATES_DEV_10MIN 0 = t.flt.devResets.length % F.FLT_RATES_DEV_10MIN.size) := by
  refine ⟨s.rates (s.now + u), rfl, ?_⟩
  have hflt : (s.rates (s.now + u)).flt = { s.flt with
      kills := s.flt.kills.filter (fun x => decide (s.now + u < x + 10 ^ 9))
      devResets := s.flt.devResets.filter (fun x => decide (s.now + u < x + 600 * 10 ^ 9)) } := by
    rw [State.rates, State.put_flt, State.put_flt]
  dsimp only
  rw [hflt]
  refine ⟨rfl, rfl, ?_, get_put_same _ rfl (by decide) _⟩
  rw [State.rates, get_put_apart _ rfl rfl rfl]
  exact get_put_same _ rfl (by decide) _

/-- Settles O37: the record that goes to flash, the failed tests of a day, and the windows. -/
theorem logsAndWindows : Obligations.LogsAndWindows := fun s =>
  ⟨fun _ _ => eventLogWrite_writes, fun u => failedTestExpiry_expires u s, fun u => slidingWindowExpiry_expires u s⟩

end Sys2Proof.Machine
end


section
/-! The slots' commands (R526 to R530, R542, R545): what a slot reads with its seal, the ends of ERASE and SEAL, and the programming
window. -/
namespace Sys2Proof.Machine

/-! Little-endian numbers. -/

theorem leNum_range_bytes (n v : Nat) : leNum ((List.range n).map (fun i => v / 256 ^ i % 256)) = v % 256 ^ n := by
  induction n generalizing v with
  | zero => simp [leNum, Nat.mod_one]
  | succ n ih =>
    have htail : ((fun i => v / 256 ^ i % 256) ∘ Nat.succ) = fun i => v / 256 / 256 ^ i % 256 := by
      funext i
      simp only [Function.comp, Nat.pow_succ', Nat.div_div_eq_div_mul]
    rw [List.range_succ_eq_map, List.map_cons, List.map_map, htail, leNum, ih, Nat.pow_succ', Nat.mod_mul]
    simp

theorem leNum_lt (l : List Nat) : leNum l < 256 ^ l.length := by
  induction l with
  | nil => exact Nat.one_pos
  | cons b l ih =>
    rw [leNum, List.length_cons, Nat.pow_succ]
    omega

/-- A byte of a number, read from the 32-bit word that it lies in. -/
theorem byteOf_word (v i : Nat) : byteOf (v / 2 ^ (32 * (i / 4)) % 2 ^ 32) (i % 4) = v / 256 ^ i % 256 := by
  have hpow : 256 ^ i = 2 ^ (32 * (i / 4)) * 2 ^ (8 * (i % 4)) := by
    rw [← Nat.pow_add, show (256 : Nat) = 2 ^ 8 by decide, ← Nat.pow_mul]
    congr 1
    omega
  rw [byteOf, hpow, ← Nat.div_div_eq_div_mul]
  generalize v / 2 ^ (32 * (i / 4)) = w
  obtain h | h | h | h : i % 4 = 0 ∨ i % 4 = 1 ∨ i % 4 = 2 ∨ i % 4 = 3 := by omega
  all_goals
    rw [h]
    omega

/-! A slot with its seal (R528, R530, R542). -/

/-- Sections that fit begin no later than the image's end. -/
theorem le_of_sections {x : SlotSt} {len n i low : Nat} (h : x.sections len (n + 1) i low = true) : low ≤ len := by
  simp only [SlotSt.sections, Bool.and_eq_true, decide_eq_true_eq] at h
  obtain ⟨⟨⟨hlow, -⟩, hend⟩, -⟩ := h
  omega

/-- A slot whose checks pass has its header and its directory inside the image, which is a multiple of 64 bytes below the slot's last 64. -/
theorem head_le_imageLen {x : SlotSt} (h : x.sealable = true) :
    8 ≤ x.entries ∧ 0x40 + 32 * x.entries ≤ x.imageLen ∧ x.imageLen % 64 = 0 ∧ x.imageLen ≤ slotBytes - 64 := by
  simp only [SlotSt.sealable, Bool.and_eq_true, decide_eq_true_eq] at h
  obtain ⟨⟨⟨-, hcount⟩, hlen⟩, hsections⟩ := h
  refine ⟨hcount.1, ?_, hlen⟩
  obtain ⟨n, hn⟩ : ∃ n, x.entries = n + 1 := ⟨x.entries - 1, by omega⟩
  rw [hn] at hsections ⊢
  exact le_of_sections hsections

/-- Below IMAGE_LEN a slot reads the same with its seal. -/
theorem word_withSeal_of_lt {x y : SlotSt} (hwords : y.words = x.withSeal) {o : Nat} (ho : o < x.imageLen) : y.word o = x.word o := by
  have hkept : x.unsealed.find? (fun e => decide (e.1 = o)) = x.words.find? (fun e => decide (e.1 = o)) := by
    rw [SlotSt.unsealed, List.find?_filter]
    refine List.find?_congr fun e _ => ?_
    by_cases he : e.1 = o <;> simp [he, ho]
  have hseal : ((List.range 16).map (fun k => (x.imageLen + 4 * k, BitVec.ofNat 32 (x.sealNum / 2 ^ (32 * k))))).find?
      (fun e => decide (e.1 = o)) = none := by
    rw [List.find?_eq_none]
    intro e he
    obtain ⟨k, -, rfl⟩ := List.mem_map.mp he
    simp only [decide_eq_true_eq]
    omega
  unfold SlotSt.word
  rw [hwords, SlotSt.withSeal, List.find?_append, hkept, hseal, Option.or_none]

theorem word_seal {x y : SlotSt} (hwords : y.words = x.withSeal) {k : Nat} (hk : k < 16) :
    y.word (x.imageLen + 4 * k) = x.sealNum / 2 ^ (32 * k) % 2 ^ 32 := by
  have hkept : x.unsealed.find? (fun e => decide (e.1 = x.imageLen + 4 * k)) = none := by
    rw [SlotSt.unsealed, List.find?_eq_none]
    intro e he
    have hfilter := (List.mem_filter.mp he).2
    simp only [Bool.or_eq_true, decide_eq_true_eq] at hfilter ⊢
    omega
  have hplace : (List.range 16).find? (fun j => decide (x.imageLen + 4 * j = x.imageLen + 4 * k)) = some k := by
    rw [List.find?_range_eq_some]
    exact ⟨by simp, List.mem_range.mpr hk, fun j hj => by simp only [Bool.not_eq_true', decide_eq_false_iff_not]; omega⟩
  unfold SlotSt.word
  rw [hwords, SlotSt.withSeal, List.find?_append, hkept, Option.none_or, List.find?_map]
  simp only [Function.comp_def, hplace, Option.map_some, BitVec.toNat_ofNat]

theorem SlotSt.bytes_eq {x y : SlotSt} {o n : Nat} (h : ∀ w < o + n, y.word w = x.word w) : y.bytes o n = x.bytes o n := by
  refine List.map_congr_left fun i hi => ?_
  have hi := List.mem_range.mp hi
  rw [h _ (by omega)]

theorem quad_withSeal {x y : SlotSt} (hwords : y.words = x.withSeal) {o : Nat} (ho : o + 4 < x.imageLen) : y.quad o = x.quad o := by
  rw [SlotSt.quad, SlotSt.quad, word_withSeal_of_lt hwords (by omega), word_withSeal_of_lt hwords ho]

/-- The seal takes no more than its 64 bytes. -/
theorem sealNum_lt {x : SlotSt} (h : x.imageLen ≤ slotBytes - 64) : x.sealNum < 256 ^ 64 := by
  have hhash : x.headHash < 256 ^ 32 :=
    (leNum_lt _).trans_le (Nat.pow_le_pow_right (by decide) (List.length_take_le ..))
  simp only [slotBytes] at h
  rw [SlotSt.sealNum]
  omega

section
variable {x y : SlotSt} (hsealable : x.sealable = true) (hwords : y.words = x.withSeal)
include hsealable hwords

theorem entries_withSeal : y.entries = x.entries := by
  obtain ⟨hcount, hhead, -⟩ := head_le_imageLen hsealable
  rw [SlotSt.entries, SlotSt.entries, word_withSeal_of_lt hwords (by omega)]

theorem imageLen_withSeal : y.imageLen = x.imageLen := by
  obtain ⟨hcount, hhead, -⟩ := head_le_imageLen hsealable
  exact quad_withSeal hwords (by omega)

theorem sections_withSeal (len n i low : Nat) (hi : i + n = x.entries) : y.sections len n i low = x.sections len n i low := by
  obtain ⟨hcount, hhead, -⟩ := head_le_imageLen hsealable
  induction n generalizing i low with
  | zero => rfl
  | succ n ih =>
    have hoffset : y.quad (0x40 + 32 * i + 4) = x.quad (0x40 + 32 * i + 4) := quad_withSeal hwords (by omega)
    have hlength : y.quad (0x40 + 32 * i + 12) = x.quad (0x40 + 32 * i + 12) := quad_withSeal hwords (by omega)
    simp only [SlotSt.sections, hoffset, hlength, ih _ _ (show i + 1 + n = x.entries by omega)]

theorem sealNum_withSeal : y.sealNum = x.sealNum := by
  obtain ⟨hcount, hhead, -⟩ := head_le_imageLen hsealable
  have hbytes : y.bytes 0 (0x40 + 32 * x.entries) = x.bytes 0 (0x40 + 32 * x.entries) :=
    SlotSt.bytes_eq fun w hw => word_withSeal_of_lt hwords (by omega)
  rw [SlotSt.sealNum, SlotSt.sealNum, SlotSt.headHash, SlotSt.headHash, imageLen_withSeal hsealable hwords,
    entries_withSeal hsealable hwords, hbytes]

theorem sealable_withSeal : y.sealable = true := by
  obtain ⟨hcount, hhead, -⟩ := head_le_imageLen hsealable
  have hword : ∀ o < 64, y.word o = x.word o := fun o ho => word_withSeal_of_lt hwords (by omega)
  have hsame : y.sealable = x.sealable := by
    simp only [SlotSt.sealable, hword 0 (by decide), hword 4 (by decide), hword 8 (by decide), entries_withSeal hsealable hwords,
      imageLen_withSeal hsealable hwords, sections_withSeal hsealable hwords _ x.entries 0 _ (Nat.zero_add _)]
  exact hsame.trans hsealable

/-- The 64 bytes at IMAGE_LEN are the seal's. -/
theorem bytes_seal : y.bytes x.imageLen 64 = (List.range 64).map (fun i => x.sealNum / 256 ^ i % 256) := by
  obtain ⟨-, -, haligned, -⟩ := head_le_imageLen hsealable
  refine List.map_congr_left fun i hi => ?_
  have hi := List.mem_range.mp hi
  rw [show (x.imageLen + i) / 4 * 4 = x.imageLen + 4 * (i / 4) by omega, show (x.imageLen + i) % 4 = i % 4 by omega,
    word_seal hwords (by omega), byteOf_word]

theorem isSealed_withSeal : y.isSealed = true := by
  have hlow := (head_le_imageLen hsealable).2.2.2
  rw [SlotSt.isSealed, sealable_withSeal hsealable hwords, imageLen_withSeal hsealable hwords, bytes_seal hsealable hwords,
    leNum_range_bytes, Nat.mod_eq_of_lt (sealNum_lt hlow), sealNum_withSeal hsealable hwords, decide_eq_true rfl, Bool.and_true]
end

/-! ERASE and SEAL, begun and complete (R542). -/

section
variable {s : State} {r : Req} (hr : TakenOne s r true) (hidle : s.imgBusy = false)
include hr hidle

theorem imgErase_clearsPlaces (k : Nat) : Completes (.imgErase r 0xA5 k) s (fun t =>
    (t.slot k).erasing = true ∧ (t.slot k).words = (s.slot k).unsealed ∧ t.imgBusy = true ∧ t.get F.IMG_STAT_PROGRAMMED 0 = 0 ∧
      Acknowledged r s t) :=
  completes_of_imgWrite hr hidle rfl fun P => by
    have hslot : ((s.acknowledging r P).put F.IMG_CTRL_SLOT 0 k).slot k = s.slot k := slot_congr (State.put_img ..) k
    obtain ⟨herasing, hwords, hbusy⟩ := eraseSlot_erases ((s.acknowledging r P).put F.IMG_CTRL_SLOT 0 k) k
    exact ⟨herasing, hwords.trans (congrArg SlotSt.unsealed hslot), hbusy, get_put_same _ rfl (by decide) 0,
      .of_fr (((keeps_eraseSlot (Keeps.refl 0x200000200 _) rfl).same .fr rfl).trans (State.put_fr ..))⟩

theorem imgSeal_fails {k : Nat} (h : (s.slot k).sealable = false) : Completes (.imgSeal r 0xA5 k) s (fun t =>
    t.get F.IMG_STAT_SEAL_FAIL 0 = 1 ∧ t.img = s.img ∧ Acknowledged r s t) :=
  completes_of_imgWrite hr hidle rfl fun P => by
    have hslot : ((s.acknowledging r P).put F.IMG_CTRL_SLOT 0 k).slot k = s.slot k := slot_congr (State.put_img ..) k
    have hfail : ((s.acknowledging r P).put F.IMG_CTRL_SLOT 0 k).sealSlot k =
        ((s.acknowledging r P).put F.IMG_CTRL_SLOT 0 k).raise F.IMG_STAT_SEAL_FAIL 0 := if_neg (by rw [hslot, h]; exact Bool.false_ne_true)
    rw [hfail]
    exact ⟨(get_raise ..).trans (get_put_same _ rfl (by decide) 1), (State.raise_img ..).trans (State.put_img ..),
      .of_fr ((State.raise_fr ..).trans (State.put_fr ..))⟩

/-- Without its key an image command writes SLOT and does nothing else (R554). -/
theorem imgErase_withoutKey {m : Nat} (hm : m ≠ 0xA5) (k : Nat) :
    Completes (.imgErase r m k) s (fun t => t.img = s.img ∧ Acknowledged r s t) := by
  have hexec : exec (.imgErase r m k) s = .next (s.imgWrite r m k (fun u => u.eraseSlot k)) := rfl
  have hwrite : s.imgWrite r m k (fun u => u.eraseSlot k) =
      s.commandWriteIf r true [(!s.imgBusy, budget 7)] (fun u => u.put F.IMG_CTRL_SLOT 0 k) := by
    simp only [State.imgWrite, if_neg hm]
  exact completes_of_commandWriteIf hr (hexec.trans (congrArg Host.Outcome.next hwrite)) (by simpa using hidle)
    fun _ => ⟨State.put_img .., .of_fr (State.put_fr ..)⟩
end

theorem imgEraseComplete_empties {s : State} {k : Nat} (h : (s.slot k).erasing = true) :
    Completes (.imgEraseComplete k) s (fun t => t.slot k = SlotSt.empty ∧ t.imgBusy = false) := by
  refine ⟨_, congrArg Host.Outcome.next (if_pos h), (slot_congr (State.put_img ..) k).trans (slot_updSlot_same ..), ?_⟩
  exact decide_eq_false (by rw [get_put_same _ rfl (by decide) 0]; decide)

theorem get_putSealed_same (s : State) (k v : Nat) :
    (s.putSealed k v).get (if k = 0 then F.IMG_STAT_SEALED_A else F.IMG_STAT_SEALED_B) 0 = v % 2 := by
  unfold State.putSealed
  split
  · exact get_put_same _ rfl (by decide) v
  · exact get_put_same _ rfl (by decide) v

theorem imgSealComplete_seals {s : State} {k : Nat} (h : (s.slot k).sealing = true) :
    Completes (.imgSealComplete k) s (fun t => (t.slot k).words = (s.slot k).withSeal ∧
      ((s.slot k).sealable = true → (t.slot k).isSealed = true) ∧ (t.slot k).sealing = false ∧ t.imgBusy = false ∧
      t.get (if k = 0 then F.IMG_STAT_SEALED_A else F.IMG_STAT_SEALED_B) 0 = 1) := by
  refine ⟨_, congrArg Host.Outcome.next (if_pos h), ?_⟩
  dsimp only
  have hslot := (slot_congr ((State.put_img (i := 0) (f := F.IMG_STAT_BUSY) (v := 0) ..).trans
    (img_putSealed (s.updSlot k (fun x => { x with sealing := false, words := x.withSeal })) k 1)) k).trans (slot_updSlot_same s k _)
  rw [hslot]
  refine ⟨rfl, fun hsealable => isSealed_withSeal hsealable rfl, rfl, decide_eq_false (by rw [get_put_same _ rfl (by decide) 0]; decide), ?_⟩
  refine Eq.trans ?_ (get_putSealed_same (s.updSlot k (fun x => { x with sealing := false, words := x.withSeal })) k 1)
  split <;> exact get_put_apart _ rfl rfl rfl ..

/-! The programming window (R542). -/

/-- The window's place: its offset and its slot. -/
def State.winPlace (s : State) : Nat × Nat := (s.get F.IMG_OFS_OFFSET 0, s.get F.IMG_CTRL_SLOT 0)

theorem regs_updSlot (s : State) (k : Nat) (f : SlotSt → SlotSt) : (s.updSlot k f).regs = s.regs := by
  unfold State.updSlot
  split <;> rfl

theorem winPlace_program (e : WriteEntry) (s : State) : (State.program e s).winPlace = s.winPlace := by
  unfold State.program
  extract_lets o w k u
  have hu : ∀ f : Fld, u.get f 0 = s.get f 0 := fun f => get_congr (regs_updSlot ..) f 0
  split
  · rfl
  · exact Prod.ext ((get_put_addr _ (by decide) _).trans (hu _)) ((get_put_addr _ (by decide) _).trans (hu _))

/-- The words of the slot that the window programs. -/
def State.winWords (s : State) : List (Nat × Word) := (s.slot (s.get F.IMG_CTRL_SLOT 0)).words

/-- An entry programs its word at its place, behind the words that stand there; without a mask it programs nothing. -/
theorem winWords_program (e : WriteEntry) (s : State) : (State.program e s).winWords = s.winWords ++
    (if e.mask % 2 ^ 32 = 0 then [] else [(s.winOffset e.addr, maskedIn (BitVec.ofNat 32 s.draw) e.value e.mask)]) := by
  have hctrl : (State.program e s).get F.IMG_CTRL_SLOT 0 = s.get F.IMG_CTRL_SLOT 0 := congrArg Prod.snd (winPlace_program e s)
  unfold State.winWords
  rw [hctrl]
  unfold State.program
  extract_lets o w k u
  split
  · exact (List.append_nil _).symm
  · rw [slot_congr (State.put_img ..), slot_updSlot_same]
    rfl

theorem winPlace_foldl (l : List WriteEntry) (s : State) : (l.foldl (fun u e => State.program e u) s).winPlace = s.winPlace :=
  foldl_keeps_value State.winPlace l s fun u e _ => winPlace_program e u

theorem subset_winWords_foldl (l : List WriteEntry) (s : State) : s.winWords ⊆ (l.foldl (fun u e => State.program e u) s).winWords := by
  induction l generalizing s with
  | nil => exact List.Subset.refl _
  | cons e l ih => exact fun w hw => ih _ (by rw [winWords_program]; exact List.mem_append_left _ hw)

/-- Every entry with a mask leaves a word at its place: its own value where the mask covers it whole. -/
theorem programmed_foldl (l : List WriteEntry) (s : State) {e : WriteEntry} (he : e ∈ l) (hmask : e.mask % 2 ^ 32 ≠ 0) :
    ∃ w, (s.winOffset e.addr, w) ∈ (l.foldl (fun u e => State.program e u) s).winWords ∧
      (e.mask = 2 ^ 32 - 1 → w = BitVec.ofNat 32 e.value) := by
  induction l generalizing s with
  | nil => cases he
  | cons d l ih =>
    rcases List.mem_cons.mp he with rfl | he
    · refine ⟨maskedIn (BitVec.ofNat 32 s.draw) e.value e.mask, subset_winWords_foldl l _ ?_, fun hwhole => ?_⟩
      · rw [winWords_program, if_neg hmask]
        exact List.mem_append_right _ (.head _)
      · rw [hwhole, maskedIn, show BitVec.ofNat 32 (2 ^ 32 - 1) = BitVec.allOnes 32 from rfl, BitVec.not_allOnes, BitVec.and_zero,
          BitVec.zero_or, BitVec.and_allOnes]
    · have hofs : (State.program d s).winOffset e.addr = s.winOffset e.addr :=
        congrArg (· + (e.addr - 0xB000)) (congrArg Prod.fst (winPlace_program d s))
      exact hofs ▸ ih (State.program d s) he

/-- A write of the window whose entries pass is applied entry by entry. -/
theorem imgWinWrite_programs {s : State} {r : Req} {l : List WriteEntry} (hr : Taken s r true) (hsome : 1 ≤ l.length) (hmost : l.length ≤ 512)
    (hlen : r.len = 12 * l.length) (haddr : ∀ e ∈ l, 0xB000 ≤ e.addr ∧ e.addr < 0xC000)
    (h : State.firstBad (s.writeFault State.winFault) 0 l = none) :
    Completes (.imgWinWrite r l) s (fun t => Applied r l State.program s t ∧ ∀ e ∈ l, e.mask % 2 ^ 32 ≠ 0 →
      ∃ w, (s.winOffset e.addr, w) ∈ (t.slot (s.get F.IMG_CTRL_SLOT 0)).words ∧ (e.mask = 2 ^ 32 - 1 → w = BitVec.ofNat 32 e.value)) := by
  obtain ⟨P, hP⟩ := exists_ports_of_writeRequest hr hsome hmost hlen (bad := State.winFault) fun _ => rfl
  have hall : l.all (fun e => decide (0xB000 ≤ e.addr) && decide (e.addr < 0xC000)) = true := by
    simpa only [List.all_eq_true, Bool.and_eq_true, decide_eq_true_eq] using haddr
  refine ⟨_, congrArg Host.Outcome.next ((if_pos hall).trans ((hP _).trans (by rw [h]; rfl))), applied_foldl s r l _ P, fun e he hmask => ?_⟩
  have hctrl : (l.foldl (fun u e => State.program e u) (s.acknowledging r P)).get F.IMG_CTRL_SLOT 0 = s.get F.IMG_CTRL_SLOT 0 :=
    congrArg Prod.snd (winPlace_foldl l (s.acknowledging r P))
  obtain ⟨w, hw, hwhole⟩ := programmed_foldl l (s.acknowledging r P) he hmask
  unfold State.winWords at hw
  rw [hctrl] at hw
  exact ⟨w, hw, hwhole⟩

/-- Settles O46: each command by the theorem about it; a slot that SEAL closed is sealed since its seal stands behind the bytes it covers. -/
theorem imageSlots : Obligations.ImageSlots := by
  unfold Obligations.ImageSlots
  intro s
  refine ⟨fun r k hr hidle => ⟨imgErase_clearsPlaces hr hidle k, fun hsealable => ?_, imgSeal_fails hr hidle, imgRestart_asks hr hidle,
      fun m hm => imgErase_withoutKey hr hidle hm k⟩, fun k => imgEraseComplete_empties, fun k => imgSealComplete_seals,
    fun r l hr hsome hmost hlen haddr h => imgWinWrite_programs hr hsome hmost hlen haddr ?_⟩
  · obtain ⟨t, hexec, ⟨hsealing, hbusy⟩, hack⟩ := imgSeal_seals hr hidle hsealable
    exact ⟨t, hexec, hsealing, hbusy, hack⟩
  · exact h

end Sys2Proof.Machine
end


section
/-! The security commands beside their acknowledgement: fuses that read back, quotes, identity indices and the debug log
(R500 to R506, R512, R513, R522 to R524). -/
namespace Sys2Proof.Machine

/-! What the arrival of a message leaves of the debug records' stamp (R362, R523). -/

/-- Ports that show the PTP time and the sessions' serials of a state: all that a debug record reads of them. -/
def PortSt.stampsAs (P : PortSt) (s : State) : Prop :=
  P.ptpSec = s.ports.ptpSec ∧ P.ptpNs = s.ports.ptpNs ∧ ∀ i, (tget MgmtSess.empty P.mgmt i).serial = (s.mgmt i).serial

theorem PortSt.stampsAs.of_eq {s t : State} (h : t.ports = s.ports) : t.ports.stampsAs s := by
  rw [h]
  exact ⟨rfl, rfl, fun _ => rfl⟩

theorem stampsAs_updMgmt {s u : State} (hu : u.ports.stampsAs s) {i : Nat} {f : MgmtSess → MgmtSess} (hf : ∀ x, (f x).serial = x.serial) :
    (u.updMgmt i f).ports.stampsAs s := by
  obtain ⟨hsec, hns, hserial⟩ := hu
  refine ⟨hsec, hns, fun j => ?_⟩
  rw [State.updMgmt, tget_tset]
  split
  · next h => exact (hf _).trans (h ▸ hserial i)
  · exact hserial j

theorem exists_ports_of_arrive (s : State) (type : Nat) (r : Req) : ∃ P, s.arrive type r = { s with ports := P } ∧ P.stampsAs s := by
  have hdrop : (s.dropReasm r.session type r.tag).ports.stampsAs s := ⟨rfl, rfl, fun _ => rfl⟩
  unfold State.arrive
  split
  · exact ⟨_, rfl, stampsAs_updMgmt (f := fun x => { x with lastMsg := s.now + r.t, lastPort := r.port }) hdrop fun _ => rfl⟩
  · split
    · exact ⟨_, rfl, hdrop⟩
    · exact ⟨_, rfl, hdrop⟩

/-- As completes_of_commandWriteIf, for an effect that reads the ports' stamps. -/
theorem completes_of_commandWriteIf_stamped {s : State} {r : Req} {anyPhase : Bool} (h : TakenOne s r anyPhase) {i : Instr}
    {extra : List (Bool × Verdict)} {effect : State → State} (hexec : exec i s = .next (s.commandWriteIf r anyPhase extra effect))
    (hextra : ∀ e ∈ extra, e.1 = true) {Q : State → Prop} (hQ : ∀ P, P.stampsAs s → Q (effect (s.acknowledging r P))) : Completes i s Q := by
  have hcommand := (firstFail_eq_none_iff _).mp (firstFail_commandChecks h)
  obtain ⟨⟨⟨hquiet, hok⟩, -⟩, -⟩ := h
  obtain ⟨P, hP, hstamps⟩ := exists_ports_of_arrive s 0x0A r
  have hchecks : firstFail (s.writeChecks r anyPhase ++ State.oneEntry r :: extra) = none := by
    rw [firstFail_eq_none_iff]
    intro e he
    rcases List.mem_append.mp he with hbase | hbase
    · exact hcommand e (List.mem_append_left _ hbase)
    · rcases List.mem_cons.mp hbase with rfl | hmore
      · exact hcommand _ (List.mem_append_right _ (.head _))
      · exact hextra e hmore
  refine ⟨_, hexec.trans (congrArg Host.Outcome.next ?_), hQ P hstamps⟩
  unfold State.commandWriteIf
  rw [State.withRequest, hquiet, hok, if_neg Bool.false_ne_true, if_pos rfl, hP]
  show State.decide_ _ _ _ (firstFail (s.writeChecks r anyPhase ++ State.oneEntry r :: extra)) _ = _
  rw [hchecks]
  rfl

/-! Fuses (R500, R501, R503). -/

theorem fuse_congr {s t : State} (h : t.sec = s.sec) (k : Nat) : t.fuse k = s.fuse k := by
  rw [State.fuse, State.fuse, h]

theorem fuse_blowFuse (s : State) (j k : Nat) : (s.blowFuse j).fuse k = (decide (k = j) || s.fuse k) := by
  unfold State.fuse State.blowFuse
  rw [tget_tset]
  by_cases h : k = j <;> simp [h]

/-- Bits that blow stay blown beside those that were. -/
theorem fuse_foldl_blowFuse (l : List Nat) (lo : Nat) (s : State) (k : Nat) :
    (l.foldl (fun s i => s.blowFuse (lo + i)) s).fuse k = (s.fuse k || l.any (fun i => decide (k = lo + i))) := by
  induction l generalizing s with
  | nil => exact (Bool.or_false _).symm
  | cons i l ih => rw [List.foldl_cons, ih, fuse_blowFuse, List.any_cons, Bool.or_comm (decide _), Bool.or_assoc]

theorem blow_foldl_blowFuse (l : List Nat) (lo : Nat) (s : State) :
    (l.foldl (fun s i => s.blowFuse (lo + i)) s).sec.blow = s.sec.blow :=
  foldl_keeps_value (fun u => u.sec.blow) l s fun _ _ _ => rfl

theorem sec_fuseRegs (s : State) : s.fuseRegs.sec = s.sec := (keeps_fuseRegs (Keeps.refl 0x20 s) rfl).same .sec rfl

/-- The bits of a blow that are to be blown and that read back so. -/
def FuseBlow.hit (b : FuseBlow) (back : List Nat) : List Nat :=
  (List.range 64).filter (fun i => decide (b.bits / 2 ^ i % 2 = 1) && back.contains (b.lo + i))

theorem any_hit (b : FuseBlow) (back : List Nat) (k : Nat) : (b.hit back).any (fun i => decide (k = b.lo + i)) =
    (decide (b.lo ≤ k ∧ k < b.lo + 64) && decide (b.bits / 2 ^ (k - b.lo) % 2 = 1) && back.contains k) := by
  rw [Bool.eq_iff_iff]
  simp only [FuseBlow.hit, List.any_eq_true, List.mem_filter, List.mem_range, Bool.and_eq_true, decide_eq_true_eq]
  constructor
  · rintro ⟨i, ⟨hi, hbit, hback⟩, rfl⟩
    exact ⟨⟨⟨by omega, by omega⟩, by rwa [Nat.add_sub_cancel_left]⟩, hback⟩
  · rintro ⟨⟨⟨hlow, hhigh⟩, hbit⟩, hback⟩
    exact ⟨k - b.lo, ⟨by omega, hbit, by rwa [Nat.add_sub_cancel' hlow]⟩, by omega⟩

/-- The first blow has ended: the bits that read back are blown and shown. -/
def State.blown (s : State) (b : FuseBlow) (l : List FuseBlow) (back : List Nat) : State :=
  ((b.hit back).foldl (fun u i => u.blowFuse (b.lo + i)) ({ s with sec := { s.sec with blow := l } } : State)).fuseRegs

theorem blow_blown (s : State) (b : FuseBlow) (l : List FuseBlow) (back : List Nat) : (s.blown b l back).sec.blow = l := by
  unfold State.blown
  rw [sec_fuseRegs, blow_foldl_blowFuse]

theorem fuse_blown (s : State) (b : FuseBlow) (l : List FuseBlow) (back : List Nat) (k : Nat) : (s.blown b l back).fuse k =
    (s.fuse k || (decide (b.lo ≤ k ∧ k < b.lo + 64) && decide (b.bits / 2 ^ (k - b.lo) % 2 = 1) && back.contains k)) := by
  unfold State.blown
  rw [fuse_congr (sec_fuseRegs _), fuse_foldl_blowFuse, any_hit]
  rfl

theorem fuseBlowComplete_blows {s : State} {b : FuseBlow} {l : List FuseBlow} (hblow : s.sec.blow = b :: l) (hstarted : b.started = true)
    (back : List Nat) : Completes (.fuseBlowComplete back) s (fun t => t.sec.blow = l ∧
      ∀ k, t.fuse k = (s.fuse k || (decide (b.lo ≤ k ∧ k < b.lo + 64) && decide (b.bits / 2 ^ (k - b.lo) % 2 = 1) && back.contains k))) := by
  have hexec : exec (.fuseBlowComplete back) s = .next (if b.kind = 0 ∧ b.hit back ≠ [] then
      ((s.blown b l back).raise F.SEC_EVT_SVN_COMMITTED 0).eventOpen 0x030B 0 0 else s.blown b l back) := by
    show execFuseBlowComplete back s = _
    simp only [execFuseBlowComplete, hblow, hstarted, Bool.true_eq_false, if_false]
    rfl
  refine ⟨_, hexec, ?_⟩
  have hsec : (if b.kind = 0 ∧ b.hit back ≠ [] then
      ((s.blown b l back).raise F.SEC_EVT_SVN_COMMITTED 0).eventOpen 0x030B 0 0 else s.blown b l back).sec = (s.blown b l back).sec := by
    generalize s.blown b l back = u
    split
    · exact ((keeps_eventOpen (Keeps.refl 0xC21000084 _) rfl).same .sec rfl).trans (State.raise_sec ..)
    · rfl
  refine ⟨(congrArg SecSt.blow hsec).trans (blow_blown ..), fun k => ?_⟩
  rw [fuse_congr hsec, fuse_blown]

/-! Quotes and identity indices (R505, R506, R513). -/

/-! Quotes and identity indices (R505, R506, R513). -/

theorem askQuote_nonce {s : State} {t : Nat} (hfree : s.get F.SEC_STAT_QUOTE_BUSY 0 = 0)
    (hlast : ∀ u, s.sec.lastQuote = some u → u + 10 ^ 8 ≤ t) :
    (s.askQuote t).sec.quoteNonce = (List.range 4).map (fun k => s.reg (F.SEC_QUOTE_NONCE_NONCE.addr k)) := by
  unfold State.askQuote
  extract_lets soon n
  have hsoon : soon = false := by
    unfold soon
    split
    case h_1 u hu => exact decide_eq_false (Nat.not_lt.mpr (hlast u hu))
    case h_2 => rfl
  rw [if_neg (by simp [hfree, hsoon]), State.put_sec]

section
variable {s : State} {r : Req} (hr : TakenOne s r true)
include hr

theorem quoteGo_formsQuote (hfree : s.get F.SEC_STAT_QUOTE_BUSY 0 = 0) (hlast : ∀ u, s.sec.lastQuote = some u → u + 10 ^ 8 ≤ s.now + r.t) :
    Completes (.quoteGo r 0x5A) s (fun t => t.sec.quoteBusy = some (s.now + r.t) ∧ t.get F.SEC_STAT_QUOTE_BUSY 0 = 1 ∧
      t.sec.quoteNonce = (List.range 4).map (fun k => s.reg (F.SEC_QUOTE_NONCE_NONCE.addr k)) ∧ Acknowledged r s t) :=
  completes_of_secWrite hr (effect := fun u => u.askQuote (u.now + r.t)) rfl fun P => by
    obtain ⟨hbusy, hshown⟩ := askQuote_begins (s := s.acknowledging r P) hfree hlast
    exact ⟨hbusy, hshown, askQuote_nonce (s := s.acknowledging r P) hfree hlast,
      .of_fr ((keeps_askQuote (Keeps.refl 0x100000020 _) rfl).same .fr rfl)⟩

/-- Without its key a security command does nothing (R554). -/
theorem completes_of_secWrite_withoutKey {k : Nat} (hk : k ≠ 0x5A) {i : Instr} {effect : State → State}
    (hexec : exec i s = .next (s.secWrite r k [] effect)) : Completes i s (fun t => t.sec = s.sec) := by
  have hwrite : s.secWrite r k [] effect = s.commandWriteIf r true [] (fun u => u) := by
    simp only [State.secWrite, if_neg hk]
  exact completes_of_commandWriteIf hr (hexec.trans (congrArg Host.Outcome.next hwrite)) (by simp) fun _ => rfl
end

/-- A quote stands: its request has ended, and it is counted and shown (R513). -/
def State.quoteEnded (s : State) : State :=
  ((({ s with sec := { s.sec with quoteBusy := none, signed := none } } : State).put F.SEC_STAT_QUOTE_BUSY 0 0).bump F.SEC_STAT_QUOTES 0 1).raise
    F.SEC_EVT_QUOTE_DONE 0

theorem sec_quoteEnded (s : State) : s.quoteEnded.sec = { s.sec with quoteBusy := none, signed := none } := by
  rw [State.quoteEnded, State.raise_sec, State.bump_sec, State.put_sec]

theorem get_quoteEnded (s : State) : s.quoteEnded.get F.SEC_STAT_QUOTE_BUSY 0 = 0 ∧ Advanced F.SEC_STAT_QUOTES 0 1 s s.quoteEnded ∧
    s.quoteEnded.get F.SEC_EVT_QUOTE_DONE 0 = 1 := by
  unfold State.quoteEnded
  have hregs : ({ s with sec := { s.sec with quoteBusy := none, signed := none } } : State).regs = s.regs := rfl
  generalize ({ s with sec := { s.sec with quoteBusy := none, signed := none } } : State) = v at hregs ⊢
  refine ⟨?_, ?_, (get_raise ..).trans (get_put_same _ rfl (by decide) 1)⟩
  · exact (get_raise ..).trans ((get_put_addr _ (by decide) _).trans ((get_put_apart _ rfl rfl rfl ..).trans (get_put_same _ rfl (by decide) 0)))
  · have hcount := (advanced_bump (f := F.SEC_STAT_QUOTES) rfl (i := 0) (by decide) 1 (v.put F.SEC_STAT_QUOTE_BUSY 0 0)).congr_left
      ((get_put_apart _ rfl rfl rfl ..).trans (get_congr hregs ..))
    exact hcount.of_get_eq ((get_raise ..).trans (get_put_addr _ (by decide) _))

theorem quotes_formQuote (s : State) (k : Nat) : tget 0 (s.formQuote 1 1 k s.sec.quoteNonce).sec.quotes 0x20001 ≠ 0 := by
  unfold State.formQuote
  rw [tget_tput, if_pos rfl]
  exact Nat.succ_ne_zero _

theorem regs_formQuote (s : State) (slot kind index : Nat) (nonce : List Word) : (s.formQuote slot kind index nonce).regs = s.regs := by
  unfold State.formQuote
  rfl

theorem execQuoteReady_of_signed {s : State} {u k : Nat} (hbusy : s.sec.quoteBusy = some u) (hsigned : s.sec.signed = some k) :
    execQuoteReady s = .next (s.formQuote 1 1 k s.sec.quoteNonce).quoteEnded := by
  unfold execQuoteReady State.quoteEnded
  simp only [hbusy, hsigned]

theorem quoteReady_forms {s : State} {u k : Nat} (hbusy : s.sec.quoteBusy = some u) (hsigned : s.sec.signed = some k) :
    Completes .quoteReady s (fun t => t.sec.quoteBusy = none ∧ t.sec.signed = none ∧ t.get F.SEC_STAT_QUOTE_BUSY 0 = 0 ∧
      Advanced F.SEC_STAT_QUOTES 0 1 s t ∧ t.get F.SEC_EVT_QUOTE_DONE 0 = 1 ∧ tget 0 t.sec.quotes 0x20001 ≠ 0) := by
  have hquote := quotes_formQuote s k
  have hregs := regs_formQuote s 1 1 k s.sec.quoteNonce
  refine ⟨_, execQuoteReady_of_signed hbusy hsigned, ?_⟩
  generalize s.formQuote 1 1 k s.sec.quoteNonce = v at hquote hregs ⊢
  obtain ⟨hidle, hcount, hdone⟩ := get_quoteEnded v
  refine ⟨by rw [sec_quoteEnded], by rw [sec_quoteEnded], hidle, hcount.congr_left (get_congr hregs ..), hdone, ?_⟩
  rwa [sec_quoteEnded]

theorem sec_sign (s : State) : s.sign.sec = { s.sec with nextIndex := s.sec.nextIndex + 1, signed := some s.sec.nextIndex } :=
  (keeps_sigRegs (Keeps.refl 0x20 _) rfl).same .sec rfl

theorem signingRequest_signs {s : State} (hleft : s.sec.nextIndex < s.sec.limit) :
    Completes (.signingRequest false) s (fun t => t.sec.nextIndex = s.sec.nextIndex + 1) ∧
      (s.sec.quoteBusy.isSome = true → s.sec.signed = none → Completes (.signingRequest true) s (fun t =>
        t.sec.nextIndex = s.sec.nextIndex + 1 ∧ t.sec.signed = some s.sec.nextIndex)) := by
  constructor
  · refine ⟨_, congrArg Host.Outcome.next ((if_pos hleft).trans (if_neg Bool.false_ne_true)), ?_⟩
    exact congrArg SecSt.nextIndex (sec_sign s)
  · intro hbusy hsigned
    refine ⟨_, congrArg Host.Outcome.next ((if_pos hleft).trans ((if_pos rfl).trans (if_pos ⟨hbusy, hsigned⟩))), ?_⟩
    exact ⟨congrArg SecSt.nextIndex (sec_sign s), congrArg SecSt.signed (sec_sign s)⟩

/-! Debug sessions (R500, R522 to R524). -/

/-- A debug record is the chain's: beside it and its count, only messages and the log change. -/
theorem sec_debugRecord (s : State) (kind fac purpose session cause : Nat) :
    (s.debugRecord kind fac purpose session cause).sec = (s.chainRecord (s.debugBytes kind fac purpose session cause)).sec := by
  unfold State.debugRecord
  extract_lets u v m w
  refine (foldl_keeps_value (fun u => u.sec) _ _ fun x i _ => (keeps_toHost (Keeps.refl 0x401000080 x) rfl).same .sec rfl).trans ?_
  exact ((keeps_eventAtD0 (Keeps.refl 0xC21000084 v) rfl).same .sec rfl).trans (State.put_sec ..)

theorem dbgChain_chainRecord (s : State) (b : List Nat) : (s.chainRecord b).sec.dbgChain = s.chained b := by
  rw [State.chainRecord]

theorem debugBytes_congr {s t : State} (hports : t.ports.stampsAs s) (hframe : t.frame = s.frame) (kind fac purpose session cause : Nat) :
    t.debugBytes kind fac purpose session cause = s.debugBytes kind fac purpose session cause := by
  obtain ⟨hsec, hns, hserial⟩ := hports
  unfold State.debugBytes
  rw [hsec, hns, hframe, State.mgmt, hserial]

theorem chained_congr {s t : State} (h : t.sec = s.sec) (b : List Nat) : t.chained b = s.chained b := by
  rw [State.chained, State.chained, h]

theorem debugAllowed_congr {s t : State} (h : t.sec = s.sec) (fac : Nat) : t.debugAllowed fac = s.debugAllowed fac := by
  simp only [State.debugAllowed, fuse_congr h]

/-- Only three facilities are left of a request (R522). -/
theorem debugAllowed_lt (s : State) (fac : Nat) : s.debugAllowed fac < 8 := by
  unfold State.debugAllowed
  split
  · decide
  · simp only [List.range_succ_eq_map, List.range_zero, List.map_cons, List.map_nil, List.foldl_cons, List.foldl_nil]
    split <;> split <;> split <;> decide

/-- What a session that opens leaves of the debug registers and the chain. -/
structure DebugOpened (s : State) (i fac purpose : Nat) (t : State) : Prop where
  isOpen : t.sec.dbgOpen = some i
  shown : t.get F.DBG_STATE_OPEN 0 = 1
  facilities : t.get F.DBG_STATE_FACILITIES 0 = s.debugAllowed fac
  count : t.sec.dbgCount = s.sec.dbgCount + 1
  chain : t.sec.dbgChain = s.chained (s.debugBytes 1 (s.debugAllowed fac) purpose i 0)

theorem openDebug_records {s : State} (hnone : s.sec.dbgOpen = none) (i fac purpose : Nat) : DebugOpened s i fac purpose (s.openDebug i fac purpose) := by
  obtain ⟨hopen, hshown⟩ := openDebug_opens hnone i fac purpose
  revert hopen hshown
  unfold State.openDebug
  rw [if_neg (by simp [hnone])]
  extract_lets f u v x w
  intro hopen hshown
  have husec : u.sec = s.sec := (State.put_sec ..).trans (State.put_sec ..)
  have hbytes : u.debugBytes 1 f purpose i 0 = s.debugBytes 1 f purpose i 0 :=
    debugBytes_congr (.of_eq ((State.put_ports ..).trans (State.put_ports ..))) ((State.put_frame ..).trans (State.put_frame ..)) 1 _ _ _ _
  have hcount : w.sec.dbgCount = s.sec.dbgCount + 1 :=
    (congrArg SecSt.dbgCount (sec_debugRecord u 1 f purpose i 0)).trans (congrArg (·.dbgCount + 1) husec)
  have hchain : w.sec.dbgChain = s.chained (s.debugBytes 1 f purpose i 0) := calc
    w.sec.dbgChain = v.sec.dbgChain := rfl
    _ = (u.chainRecord (u.debugBytes 1 f purpose i 0)).sec.dbgChain := congrArg SecSt.dbgChain (sec_debugRecord u 1 f purpose i 0)
    _ = u.chained (u.debugBytes 1 f purpose i 0) := dbgChain_chainRecord ..
    _ = s.chained (s.debugBytes 1 f purpose i 0) := by rw [chained_congr husec, hbytes]
  clear_value w
  refine ⟨hopen, hshown, ?_, by simpa only [State.put_sec] using hcount, by simpa only [State.put_sec] using hchain⟩
  refine (get_put_apart _ rfl rfl rfl ..).trans ((get_put_same _ rfl (by decide) _).trans (Nat.mod_eq_of_lt ?_))
  exact (debugAllowed_lt s fac).trans (by decide)

theorem DebugOpened.of_acknowledging {s t : State} {r : Req} {P : PortSt} {i fac purpose : Nat} (hP : P.stampsAs s)
    (h : DebugOpened (s.acknowledging r P) i fac purpose t) : DebugOpened s i fac purpose t := by
  obtain ⟨hopen, hshown, hfac, hcount, hchain⟩ := h
  have hsec : (s.acknowledging r P).sec = s.sec := rfl
  have hbytes : (s.acknowledging r P).debugBytes 1 (s.debugAllowed fac) purpose i 0 = s.debugBytes 1 (s.debugAllowed fac) purpose i 0 :=
    debugBytes_congr (t := s.acknowledging r P) hP rfl 1 _ _ _ _
  rw [debugAllowed_congr hsec] at hfac hchain
  rw [hbytes, chained_congr hsec] at hchain
  exact ⟨hopen, hshown, hfac, hcount, hchain⟩

theorem debugClose_records {s : State} {i : Nat} (hopen : s.sec.dbgOpen = some i) (cause : Nat) :
    (s.debugClose cause).get F.DBG_STATE_FACILITIES 0 = 0 ∧ (s.debugClose cause).sec.dbgCount = s.sec.dbgCount + 1 := by
  unfold State.debugClose
  rw [hopen]
  dsimp only
  refine ⟨get_put_same _ rfl (by decide) 0, ?_⟩
  rw [State.put_sec, State.put_sec]
  exact congrArg SecSt.dbgCount (sec_debugRecord s 2 _ _ i cause)

section
variable {s : State} {r : Req} (hr : TakenOne s r false)
include hr

theorem dbgOpen_records {fac : Nat} (hallowed : s.debugAllowed fac ≠ 0) (hnone : s.sec.dbgOpen = none) (purpose : Nat) :
    Completes (.dbgOpen r fac purpose) s (fun t => DebugOpened s (r.session - 0xFFF0) fac purpose t ∧ Acknowledged r s t) :=
  completes_of_commandWriteIf_stamped hr (effect := fun u => u.openDebug (r.session - 0xFFF0) fac purpose) rfl (by simpa using hallowed)
    fun P hP => ⟨.of_acknowledging hP (openDebug_records (s := s.acknowledging r P) hnone ..),
      .of_fr ((keeps_openDebug (Keeps.refl 0xD210000A4 _) rfl).same .fr rfl)⟩

theorem dbgClose_records {i : Nat} (hopen : s.sec.dbgOpen = some i) : Completes (.dbgClose r) s (fun t => t.sec.dbgOpen = none ∧
    t.get F.DBG_STATE_OPEN 0 = 0 ∧ t.get F.DBG_STATE_FACILITIES 0 = 0 ∧ t.sec.dbgCount = s.sec.dbgCount + 1 ∧ Acknowledged r s t) :=
  completes_of_commandWrite hr (effect := fun u => u.debugClose 1) rfl fun P => by
    obtain ⟨hclosed, hshown⟩ := debugClose_closes (s := s.acknowledging r P) (Option.isSome_iff_exists.mpr ⟨i, hopen⟩) 1
    obtain ⟨hfac, hcount⟩ := debugClose_records (s := s.acknowledging r P) hopen 1
    exact ⟨hclosed, hshown, hfac, hcount, .of_fr ((keeps_debugClose (Keeps.refl 0xD210000A4 _) rfl).same .fr rfl)⟩
end

/-- Settles O45: each command by the theorem about it. -/
theorem securityCommands : Obligations.SecurityCommands := by
  unfold Obligations.SecurityCommands
  intro s
  refine ⟨fun r hr => ⟨quoteGo_formsQuote hr, fun hbehind => ?_, fun hunlocked howner => lock_blows hr hunlocked howner,
      fun m h => dbgDisable_blows hr h, fun v m => ?_, fun k hk => ⟨completes_of_secWrite_withoutKey hr hk rfl,
        completes_of_secWrite_withoutKey hr hk rfl⟩⟩,
    fun b l back hblow hstarted => fuseBlowComplete_blows hblow hstarted back, fun u k => quoteReady_forms,
    fun hfew => ⟨_, congrArg Host.Outcome.next (if_pos hfew), rfl, rfl⟩, signingRequest_signs,
    fun q hnone => ⟨s, congrArg Host.Outcome.next (if_neg (Nat.not_lt.mpr hnone)), rfl⟩,
    fun r fac purpose hr hallowed hnone => ?_, fun r i hr hopen => dbgClose_records hr hopen⟩
  · obtain ⟨t, hexec, hblow, hack⟩ := svnCommit_blows hr
    exact ⟨t, hexec, hack, hblow.trans (by rw [if_pos hbehind])⟩
  · obtain ⟨t, hexec, hepoch, hack⟩ := secCredEpochWrite_raises hr v m
    exact ⟨t, hexec, hack, hepoch⟩
  · obtain ⟨t, hexec, ⟨hopen, hshown, hfac, hcount, hchain⟩, hack⟩ := dbgOpen_records hr hallowed hnone purpose
    exact ⟨t, hexec, hopen, hshown, hfac, hcount, hchain, hack⟩

end Sys2Proof.Machine
end


section
/-! The energy loop and the monitor converter (R463, R469, R471, R477, R481 to R483, R485). -/
namespace Sys2Proof.Machine

/-! EVENTs that a command reports at once. -/

theorem Logged.of_logView {st kind i d0 d1 : Nat} {s u t : State} (h : Logged st kind i d0 d1 u t) (hview : u.logView = s.logView) :
    Logged st kind i d0 d1 s t := by
  simp only [State.logView, Prod.mk.injEq] at hview
  obtain ⟨hbuf, hseq, hframe, hports⟩ := hview
  unfold Logged at *
  simpa only [hbuf, hseq, hframe, hports] using h

theorem logView_raise (s : State) (f : Fld) (i : Nat) : (s.raise f i).logView = s.logView := by
  rw [State.logView, State.raise_flt, State.raise_frame, State.raise_ports, State.logView]

theorem logView_bump (s : State) (f : Fld) (i n : Nat) : (s.bump f i n).logView = s.logView := logView_put ..

/-! The reserve (R471). -/

theorem get_setReserve {s : State} {r : Nat} (hr : r < 2 ^ 8) (t : Nat) : (s.setReserve r t).get F.PWR_BUDGET_RESERVE 0 = r :=
  (get_put_same _ rfl (by decide) r).trans (Nat.mod_eq_of_lt hr)

theorem pwr_setReserve (s : State) (r t : Nat) : (s.setReserve r t).pwr = { s.pwr with reserve := r, reserveAt := t } := State.put_pwr ..

theorem logView_setReserve (s : State) (r t : Nat) : (s.setReserve r t).logView = s.logView := logView_put ..

theorem overdraw_raises (s : State) {mw : Nat} (hmw : 606000 < mw) (u : Nat) : Completes (.overdraw mw u) s (fun t =>
    t.pwr.reserve = min 200 (s.pwr.reserve + 10) ∧ t.pwr.reserveAt = s.now + u ∧
      t.get F.PWR_BUDGET_RESERVE 0 = min 200 (s.pwr.reserve + 10) ∧ Advanced F.PWR_BUDGET_OVERDRAWS 0 1 s t ∧
      t.get F.PWR_EVT_OVERDRAW 0 = 1 ∧ ∃ d0 d1, Logged 0x050D 0 0 d0 d1 s t) := by
  refine ⟨_, congrArg Host.Outcome.next (if_pos hmw), ?_⟩
  dsimp only
  have hreserve : (s.setReserve (min 200 (s.pwr.reserve + 10)) (s.now + u)).get F.PWR_BUDGET_RESERVE 0 = min 200 (s.pwr.reserve + 10) :=
    get_setReserve (by omega) _
  have hpwr := pwr_setReserve s (min 200 (s.pwr.reserve + 10)) (s.now + u)
  have hview := logView_setReserve s (min 200 (s.pwr.reserve + 10)) (s.now + u)
  have hdraws : (s.setReserve (min 200 (s.pwr.reserve + 10)) (s.now + u)).get F.PWR_BUDGET_OVERDRAWS 0 = s.get F.PWR_BUDGET_OVERDRAWS 0 :=
    get_put_apart _ rfl rfl rfl ..
  generalize s.setReserve (min 200 (s.pwr.reserve + 10)) (s.now + u) = v at hreserve hpwr hview hdraws ⊢
  have hafter : ∀ g : Fld, g.addr 0 ∉ eventWords → (((v.bump F.PWR_BUDGET_OVERDRAWS 0 1).raise F.PWR_EVT_OVERDRAW 0).eventOpen 0x050D 0 0).get g 0 =
      ((v.bump F.PWR_BUDGET_OVERDRAWS 0 1).raise F.PWR_EVT_OVERDRAW 0).get g 0 := fun g hg => get_eventOpen hg ..
  have hpwr' : (((v.bump F.PWR_BUDGET_OVERDRAWS 0 1).raise F.PWR_EVT_OVERDRAW 0).eventOpen 0x050D 0 0).pwr = v.pwr :=
    ((keeps_eventOpen (Keeps.refl 0xC21000084 _) rfl).same .pwr rfl).trans ((State.raise_pwr ..).trans (State.bump_pwr ..))
  refine ⟨by rw [hpwr', hpwr], by rw [hpwr', hpwr], ?_, ?_, ?_, ?_⟩
  · refine (hafter _ (by decide)).trans ((get_raise_otherWord _ (by decide) 0).trans ((get_put_apart _ rfl rfl rfl ..).trans hreserve))
  · refine ((advanced_bump rfl (by decide) 1 v).congr_left hdraws).of_get_eq ?_
    exact (hafter _ (by decide)).trans (get_raise_otherWord _ (by decide) 0)
  · exact (hafter _ (by decide)).trans ((get_raise ..).trans (get_put_same _ rfl (by decide) 1))
  · obtain ⟨d0, d1, hlogged⟩ := logged_eventOpen ((v.bump F.PWR_BUDGET_OVERDRAWS 0 1).raise F.PWR_EVT_OVERDRAW 0) 0x050D 0 0
    exact ⟨d0, d1, hlogged.of_logView ((logView_raise ..).trans ((logView_bump ..).trans hview))⟩

theorem reserveDecay_lowers {s : State} {u : Nat} (habove : s.imageReserve < s.pwr.reserve) (hpast : s.pwr.reserveAt + 10 ^ 10 ≤ s.now + u) :
    Completes (.reserveDecay u) s (fun t => t.pwr.reserve = max s.imageReserve (s.pwr.reserve - 10) ∧
      t.pwr.reserveAt = s.pwr.reserveAt + 10 ^ 10) :=
  ⟨_, congrArg Host.Outcome.next (if_pos ⟨habove, hpast⟩), by rw [pwr_setReserve], by rw [pwr_setReserve]⟩

theorem currentLimitReached_shows {s : State} (h : s.pwr.converting = true) :
    Completes .currentLimitReached s (fun t => t.get F.PWR_EVT_CURRENT 0 = 1) :=
  ⟨_, congrArg Host.Outcome.next (if_pos h), (get_raise ..).trans (get_put_same _ rfl (by decide) 1)⟩

/-! Results (R481). -/

/-- A word below the monitor's results keeps them. -/
theorem get_put_below {s : State} {f g : Fld} {i j : Nat} (h : i < f.count → f.addr i < g.addr j) (v : Nat) :
    (s.put f i v).get g j = s.get g j :=
  get_put_elsewhere s (fun hi => Nat.ne_of_gt (h hi)) v

/-- What a word that is neither a result nor the input's keeps when a result is shown. -/
theorem get_report_elsewhere {g : Fld} {j : Nat} (hin : g.addr j ≠ F.PWR_IN_VIN.addr 0) {ch : Nat}
    (hresult : ch < 128 → g.addr j ≠ F.MON_RESULT_VALUE.addr ch) (s : State) (v : Int) : (s.report ch v).get g j = s.get g j := by
  have hshown : ∀ w : State, ((w.put F.MON_RESULT_VALUE ch (v % 2 ^ 24).toNat).put F.MON_RESULT_AGE ch 0).get g j = w.get g j := fun w =>
    (get_put_elsewhere _ hresult _).trans (get_put_elsewhere _ hresult _)
  unfold State.report
  extract_lets u p w
  have hw : w.get g j = s.get g j := hshown s
  split
  · exact (get_put_addr (f := F.PWR_IN_VIN) _ hin _).trans hw
  · split
    · exact (get_put_addr (f := F.PWR_IN_IIN) _ hin _).trans hw
    · exact hw

theorem pwr_report (s : State) (ch : Nat) (v : Int) : (s.report ch v).pwr = { s.pwr with resultAt := tput s.pwr.resultAt ch s.now } := by
  unfold State.report
  extract_lets u p w
  have hpwr : u.pwr = s.pwr := by simp only [u, State.put_pwr]
  have hnow : u.now = s.now := by simp only [u, State.put_now]
  clear_value u
  have hw : w.pwr = { s.pwr with resultAt := tput s.pwr.resultAt ch s.now } := by simp only [w, p, hpwr, hnow]
  split
  · exact (State.put_pwr ..).trans hw
  · split
    · exact (State.put_pwr ..).trans hw
    · exact hw

theorem report_shows {ch : Nat} (hch : ch < 128) (s : State) (v : Int) : (s.report ch v).monResult ch = State.signed24 (v % 2 ^ 24).toNat ∧
    (s.report ch v).get F.MON_RESULT_AGE ch = 0 := by
  have hbelow : ∀ f : Fld, f.base = 0x3000 → f.stride = 4 → f.count = 1 → ∀ g : Fld, g.base = 0x3200 → g.stride = 4 → ∀ w : State, ∀ n,
      (w.put f 0 n).get g ch = w.get g ch := by
    intro f hbase hstride hcount g hgbase hgstride w n
    refine get_put_below (fun _ => ?_) n
    rw [Fld.addr, Fld.addr, hbase, hgbase]
    omega
  have hkept : ∀ g : Fld, g.base = 0x3200 → g.stride = 4 → (s.report ch v).get g ch =
      ((s.put F.MON_RESULT_VALUE ch (v % 2 ^ 24).toNat).put F.MON_RESULT_AGE ch 0).get g ch := by
    intro g hbase hstride
    unfold State.report
    extract_lets u p w
    split
    · exact hbelow _ rfl rfl rfl g hbase hstride w _
    · split
      · exact hbelow _ rfl rfl rfl g hbase hstride w _
      · rfl
  constructor
  · rw [State.monResult, hkept _ rfl rfl]
    refine congrArg State.signed24 ?_
    refine (get_put_apart _ rfl rfl rfl ..).trans ((get_put_same _ rfl hch _).trans (Nat.mod_eq_of_lt ?_))
    show (v % 2 ^ 24).toNat < 2 ^ 24
    omega
  · rw [hkept _ rfl rfl]
    exact get_put_same _ rfl hch 0

/-! Conversions (R481, R482). -/

theorem monitorConversion_of_urgent {s : State} (hconverting : s.pwr.converting = true) (hlength : s.get F.MON_CFG_LENGTH 0 ≠ 0) {ch : Nat}
    (hch : ch < 128) (hnext : s.urgentNext = some ch) (v : Int) : Completes (.monitorConversion v) s (fun t =>
      t.pwr.urgent = s.pwr.urgent.drop 1 ∧ t.monResult ch = State.signed24 (v % 2 ^ 24).toNat ∧ t.get F.MON_RESULT_AGE ch = 0 ∧
        t.pwr.conversions = s.pwr.conversions) := by
  have hexec : exec (.monitorConversion v) s =
      .next (({ s with pwr := { s.pwr with urgent := s.pwr.urgent.drop 1 } } : State).report ch v) := by
    show execMonitorConversion v s = _
    rw [execMonitorConversion, if_neg (by simp [hconverting, hlength]), hnext]
  obtain ⟨hresult, hage⟩ := report_shows hch ({ s with pwr := { s.pwr with urgent := s.pwr.urgent.drop 1 } } : State) v
  exact ⟨_, hexec, by rw [pwr_report], hresult, hage, by rw [pwr_report]⟩

/-- A channel's bit of LIMIT (R481). -/
def limitBit (ch : Nat) : Fld := ⟨F.MON_LIMIT_CROSSED.base, 4, 4, ch % 32, ch % 32⟩

theorem limitBit_ok (ch : Nat) : (limitBit ch).ok = true := by
  simp [Fld.ok, limitBit, Nat.mod_lt]

theorem getLsbD_of_get {s : State} {ch : Nat} (h : s.get (limitBit ch) (ch / 32) = 1) :
    (s.reg (F.MON_LIMIT_CROSSED.addr (ch / 32))).getLsbD (ch % 32) = true := by
  have hbit : (s.reg (F.MON_LIMIT_CROSSED.addr (ch / 32))).toNat / 2 ^ (ch % 32) % 2 ^ (ch % 32 + 1 - ch % 32) = 1 := h
  rw [Nat.add_sub_cancel_left, Nat.pow_one] at hbit
  rw [BitVec.getLsbD, Nat.testBit_eq_decide_div_mod_eq, hbit]
  rfl

theorem limitBit_notMem_eventWords {ch : Nat} (hch : ch < 128) : (limitBit ch).addr (ch / 32) ∉ eventWords := by
  simp only [eventWords, Fld.addr, limitBit, F.MON_LIMIT_CROSSED, F.FLT_LOG_NEXT, F.ETH_TX_LOST_STREAMS, List.mem_cons, List.not_mem_nil, or_false]
  omega

theorem get_raise_limitBit {ch : Nat} (hch : ch < 128) (s : State) : (s.raise (limitBit ch) (ch / 32)).get (limitBit ch) (ch / 32) = 1 := by
  have hplace : ch / 32 < (limitBit ch).count := (by omega : ch / 32 < 4)
  rw [get_raise, get_put_same s (limitBit_ok ch) hplace]
  show 1 % 2 ^ (ch % 32 + 1 - ch % 32) = 1
  rw [Nat.add_sub_cancel_left]
  rfl

/-- A value outside its entry's limits sets its channel's bit, and is reported unless its channel already was (R481). -/
theorem checkLimit_crosses {s : State} {e : Nat} {v : Int} (h : v < State.signed24 (e / 2 ^ 64) ∨ State.signed24 (e / 2 ^ 88) < v) :
    ((s.checkLimit e v).reg (F.MON_LIMIT_CROSSED.addr (e % 2 ^ 7 / 32))).getLsbD (e % 2 ^ 7 % 32) = true ∧
      (1 ≤ e / 2 ^ 36 % 2 ^ 4 → e % 2 ^ 7 ∉ s.pwr.announced → e % 2 ^ 7 ∈ (s.checkLimit e v).pwr.announced ∧
        Logged 0x0512 0 0 (e % 2 ^ 7) (v % 2 ^ 64).toNat s (s.checkLimit e v)) := by
  have hch : e % 2 ^ 7 < 128 := by omega
  unfold State.checkLimit
  extract_lets ch f u
  rw [if_pos h]
  change ch < 128 at hch
  have hraised : u.get (limitBit ch) (ch / 32) = 1 := get_raise_limitBit hch s
  have hpwr : u.pwr = s.pwr := by simp only [u, State.raise_pwr]
  have hview : u.logView = s.logView := logView_raise s f (ch / 32)
  clear_value u
  by_cases hnew : 1 ≤ e / 2 ^ 36 % 2 ^ 4 ∧ ch ∉ s.pwr.announced
  · rw [if_pos ⟨hnew.1, by rw [hpwr]; simpa using hnew.2⟩]
    refine ⟨getLsbD_of_get ((get_event (limitBit_notMem_eventWords hch) _ _ _ _ _ _).trans hraised), fun _ _ => ⟨?_, ?_⟩⟩
    · rw [show (State.event _ _ _ _ _ _).pwr = _ from (keeps_event (Keeps.refl 0xC21000084 _) rfl).same .pwr rfl]
      exact .head _
    · exact (logged_event ({ u with pwr := { u.pwr with announced := ch :: u.pwr.announced } } : State) 0x0512 0 0 ch
        (v % 2 ^ 64).toNat).of_logView hview
  · rw [if_neg (by rw [hpwr]; simpa using hnew)]
    exact ⟨getLsbD_of_get hraised, fun hreports hquiet => absurd ⟨hreports, hquiet⟩ hnew⟩

theorem pwr_checkLimit_conversions (s : State) (e : Nat) (v : Int) : (s.checkLimit e v).pwr.conversions = s.pwr.conversions := by
  unfold State.checkLimit
  extract_lets ch f u
  have hpwr : u.pwr = s.pwr := by simp only [u, State.raise_pwr]
  clear_value u
  have hconversions : u.pwr.conversions = s.pwr.conversions := by rw [hpwr]
  split
  · split
    · rw [show (State.event _ _ _ _ _ _).pwr = _ from (keeps_event (Keeps.refl 0xC21000084 _) rfl).same .pwr rfl]
      exact hconversions
    · exact hconversions
  · rfl

theorem monitorConversion_of_entry {s : State} (hconverting : s.pwr.converting = true) (hlength : s.get F.MON_CFG_LENGTH 0 ≠ 0)
    (hnext : s.urgentNext = none) (hrepeat : s.pwr.conversions.length < s.monEntry s.monPos / 2 ^ 8 % 2 ^ 8) (v : Int) :
    exec (.monitorConversion v) s =
      .next (({ s with pwr := { s.pwr with conversions := s.pwr.conversions ++ [v] } } : State).checkLimit (s.monEntry s.monPos) v) := by
  show execMonitorConversion v s = _
  rw [execMonitorConversion, if_neg (by simp [hconverting, hlength]), hnext]
  exact congrArg Host.Outcome.next (if_pos hrepeat)

/-! The end of an entry (R480, R481, R485). -/

/-- A word that no temperature stands in. -/
theorem get_unitHot {g : Fld} {j : Nat} (hg : ∀ u < 5, g.addr j ≠ F.PWR_THERM_TEMP.addr u) (s : State) (u : Nat) :
    (s.unitHot u).get g j = s.get g j := by
  unfold State.unitHot
  split
  · rfl
  · split
    · exact (get_put_elsewhere _ (fun hu => hg u hu) _).trans (get_congr rfl ..)
    · exact get_congr rfl ..

theorem pwr_unitHot (s : State) (u : Nat) : ∃ h, (s.unitHot u).pwr = { s.pwr with hot := h } := by
  unfold State.unitHot
  split
  · exact ⟨_, rfl⟩
  · split
    · exact ⟨_, State.put_pwr ..⟩
    · exact ⟨_, rfl⟩

/-- What the next entry finds of the converter, beside its results (R480, R482). -/
def PowerSt.entryView (p : PowerSt) : List Int × Nat × Bool := (p.conversions, p.aborts, p.cycleDone)

theorem entryView_unitHot (s : State) (u : Nat) : (s.unitHot u).pwr.entryView = s.pwr.entryView := by
  obtain ⟨h, hpwr⟩ := pwr_unitHot s u
  rw [hpwr]
  rfl

/-- The converter at the next entry: nothing converted, nothing aborted, nobody waiting. -/
def State.entryBegun (s : State) : State := { s with pwr := { s.pwr with conversions := [], aborts := 0, waiting := false } }

/-- A cycle is complete, before its temperatures are taken (R480, R485). -/
def State.cycleEnded (s : State) (t : Nat) : State :=
  let w := ((s.put F.MON_CFG_POSITION 0 0).put F.MON_CFG_CYCLE 0 ((s.now + t - s.pwr.cycleStart) / 1000)).bump F.MON_COUNTS_CYCLES 0 1
  { w with pwr := { w.pwr with cycleDone := true, cycleStart := s.now + t } }

theorem nextEntry_of_more {s : State} (h : s.monPos + 1 < s.get F.MON_CFG_LENGTH 0) (t : Nat) :
    s.nextEntry t = s.entryBegun.put F.MON_CFG_POSITION 0 (s.monPos + 1) := if_pos h

theorem nextEntry_of_last {s : State} (h : s.get F.MON_CFG_LENGTH 0 ≤ s.monPos + 1) (t : Nat) :
    s.nextEntry t = (List.range 17).foldl (fun u k => u.unitHot k) (s.entryBegun.cycleEnded t) := by
  unfold State.nextEntry State.cycleEnded
  simp only [State.bump_now, State.put_now]
  exact if_neg (Nat.not_lt.mpr h)

theorem get_cycleEnded (s : State) (t : Nat) (g : Fld) (j : Nat) : (s.cycleEnded t).get g j =
    (((s.put F.MON_CFG_POSITION 0 0).put F.MON_CFG_CYCLE 0 ((s.now + t - s.pwr.cycleStart) / 1000)).bump F.MON_COUNTS_CYCLES 0 1).get g j :=
  get_congr rfl ..

theorem entryView_cycleEnded (s : State) (t : Nat) : (s.cycleEnded t).pwr.entryView = (s.pwr.conversions, s.pwr.aborts, true) := by
  unfold State.cycleEnded PowerSt.entryView
  simp only [State.bump_pwr, State.put_pwr]

/-- What the last entry of a cycle leaves of a word that no temperature stands in. -/
theorem get_nextEntry_of_last {s : State} (h : s.get F.MON_CFG_LENGTH 0 ≤ s.monPos + 1) (t : Nat) {g : Fld} {j : Nat}
    (hg : ∀ u < 5, g.addr j ≠ F.PWR_THERM_TEMP.addr u) : (s.nextEntry t).get g j = (s.entryBegun.cycleEnded t).get g j := by
  rw [nextEntry_of_last h]
  exact foldl_keeps_value (fun u => u.get g j) _ _ fun u k _ => get_unitHot hg u k

theorem notTherm_of_le {g : Fld} {j : Nat} (h : 0x3040 ≤ g.addr j) : ∀ u < 5, g.addr j ≠ F.PWR_THERM_TEMP.addr u := by
  intro u hu
  simp only [Fld.addr, F.PWR_THERM_TEMP] at h ⊢
  omega

theorem entryView_nextEntry_of_last {s : State} (h : s.get F.MON_CFG_LENGTH 0 ≤ s.monPos + 1) (t : Nat) :
    (s.nextEntry t).pwr.entryView = ([], 0, true) := by
  rw [nextEntry_of_last h]
  refine (foldl_keeps_value (fun u => u.pwr.entryView) _ _ fun u k _ => entryView_unitHot u k).trans ?_
  exact (entryView_cycleEnded ..).trans rfl

theorem nextEntry_clears (s : State) (t : Nat) : (s.nextEntry t).pwr.conversions = [] ∧ (s.nextEntry t).pwr.aborts = 0 := by
  by_cases h : s.monPos + 1 < s.get F.MON_CFG_LENGTH 0
  · rw [nextEntry_of_more h, State.put_pwr]
    exact ⟨rfl, rfl⟩
  · have hview := entryView_nextEntry_of_last (Nat.not_lt.mp h) t
    simp only [PowerSt.entryView, Prod.mk.injEq] at hview
    exact ⟨hview.1, hview.2.1⟩

/-- The results stay when the next entry begins. -/
theorem monResult_nextEntry (s : State) (t ch : Nat) : (s.nextEntry t).monResult ch = s.monResult ch := by
  have haddr : 0x3200 ≤ F.MON_RESULT_VALUE.addr ch := Nat.le_add_right ..
  have hbelow : ∀ (f : Fld) (w : State) (v : Nat), f.addr 0 < 0x3200 → (w.put f 0 v).get F.MON_RESULT_VALUE ch = w.get F.MON_RESULT_VALUE ch :=
    fun f w v hf => get_put_below (fun _ => Nat.lt_of_lt_of_le hf haddr) v
  refine congrArg State.signed24 ?_
  by_cases h : s.monPos + 1 < s.get F.MON_CFG_LENGTH 0
  · rw [nextEntry_of_more h, hbelow _ _ _ (by decide)]
    exact get_congr rfl ..
  · rw [get_nextEntry_of_last (Nat.not_lt.mp h) t (notTherm_of_le (Nat.le_trans (by decide) haddr)), get_cycleEnded, State.bump,
      hbelow _ _ _ (by decide), hbelow _ _ _ (by decide), hbelow _ _ _ (by decide)]
    exact get_congr rfl ..

/-- After the last entry the converter stands at the first, and the cycle is counted (R480, R485). -/
theorem nextEntry_endsCycle {s : State} (h : s.get F.MON_CFG_LENGTH 0 ≤ s.monPos + 1) (t : Nat) :
    (s.nextEntry t).monPos = 0 ∧ (s.nextEntry t).pwr.cycleDone = true ∧ Advanced F.MON_COUNTS_CYCLES 0 1 s (s.nextEntry t) := by
  refine ⟨?_, ?_, ?_⟩
  · rw [State.monPos, get_nextEntry_of_last h t (notTherm_of_le (by decide)), get_cycleEnded]
    exact (get_put_addr _ (by decide) _).trans ((get_put_apart _ rfl rfl rfl ..).trans (get_put_same _ rfl (by decide) 0))
  · have hview := entryView_nextEntry_of_last h t
    simp only [PowerSt.entryView, Prod.mk.injEq] at hview
    exact hview.2.2
  · have hcount := advanced_bump (f := F.MON_COUNTS_CYCLES) rfl (i := 0) (by decide) 1
      ((s.entryBegun.put F.MON_CFG_POSITION 0 0).put F.MON_CFG_CYCLE 0 ((s.entryBegun.now + t - s.entryBegun.pwr.cycleStart) / 1000))
    refine (hcount.congr_left ?_).of_get_eq ((get_nextEntry_of_last h t (notTherm_of_le (by decide))).trans (get_cycleEnded ..))
    exact (get_put_addr _ (by decide) _).trans ((get_put_addr _ (by decide) _).trans (get_congr rfl ..))

theorem nextEntry_goesOn {s : State} (h : s.monPos + 1 < s.get F.MON_CFG_LENGTH 0) (t : Nat) :
    (s.nextEntry t).monPos = (s.monPos + 1) % F.MON_CFG_POSITION.size := by
  rw [nextEntry_of_more h]
  exact get_put_same _ rfl (by decide) _

theorem get_readPower {g : Fld} {j : Nat} (hg : g.addr j ≠ F.PWR_MEAS_P_IN.addr 0) (s : State) (t : Nat) :
    (s.readPower t).get g j = s.get g j := by
  unfold State.readPower
  exact (get_put_addr _ hg _).trans (get_congr rfl ..)

/-- The mean of an entry is its channel's result; the input's current also reads the power (R481, R485). -/
def State.entryReported (s : State) (ch : Nat) (v : Int) (t : Nat) : State :=
  if ch = 1 then (s.report ch v).readPower t else s.report ch v

theorem get_entryReported {g : Fld} {j : Nat} (hg : g.addr j ≠ F.PWR_MEAS_P_IN.addr 0) (s : State) (ch : Nat) (v : Int) (t : Nat) :
    (s.entryReported ch v t).get g j = (s.report ch v).get g j := by
  unfold State.entryReported
  split
  · exact get_readPower hg ..
  · rfl

theorem get_entryReported_config {g : Fld} (hin : g.addr 0 ≠ F.PWR_IN_VIN.addr 0) (hmeas : g.addr 0 ≠ F.PWR_MEAS_P_IN.addr 0)
    (hbelow : g.addr 0 < 0x3200) (s : State) (ch : Nat) (v : Int) (t : Nat) : (s.entryReported ch v t).get g 0 = s.get g 0 :=
  (get_entryReported hmeas ..).trans (get_report_elsewhere hin (fun _ => Nat.ne_of_lt (Nat.lt_of_lt_of_le hbelow (Nat.le_add_right ..))) s v)

theorem monitorEntryComplete_reports {s : State} (hconverting : s.pwr.converting = true) (hsome : s.pwr.conversions ≠ [])
    (hall : s.pwr.conversions.length = s.monEntry s.monPos / 2 ^ 8 % 2 ^ 8) (hnext : s.urgentNext = none) (u : Nat) :
    Completes (.monitorEntryComplete u) s (fun t =>
      t.monResult (s.monEntry s.monPos % 2 ^ 7) =
        State.signed24 (divEven (s.pwr.conversions.foldl (· + ·) 0) s.pwr.conversions.length % 2 ^ 24).toNat ∧
      t.pwr.conversions = [] ∧ t.pwr.aborts = 0 ∧
      (s.monPos + 1 < s.get F.MON_CFG_LENGTH 0 → t.monPos = (s.monPos + 1) % F.MON_CFG_POSITION.size) ∧
      (s.get F.MON_CFG_LENGTH 0 ≤ s.monPos + 1 → t.monPos = 0 ∧ t.pwr.cycleDone = true ∧ Advanced F.MON_COUNTS_CYCLES 0 1 s t)) := by
  have hch : s.monEntry s.monPos % 2 ^ 7 < 128 := Nat.mod_lt _ (by decide)
  have hexec : exec (.monitorEntryComplete u) s = .next ((s.entryReported (s.monEntry s.monPos % 2 ^ 7)
      (divEven (s.pwr.conversions.foldl (· + ·) 0) s.pwr.conversions.length) u).nextEntry u) := by
    refine congrArg Host.Outcome.next (if_neg ?_)
    simp only [hconverting, hnext, Bool.true_eq_false, false_or, Option.isSome_none, Bool.false_eq_true, or_false, not_or, not_not]
    exact ⟨fun hnil => hsome (List.eq_nil_of_length_eq_zero hnil), hall⟩
  refine ⟨_, hexec, ?_⟩
  generalize s.monEntry s.monPos % 2 ^ 7 = ch at hch ⊢
  generalize divEven (s.pwr.conversions.foldl (· + ·) 0) s.pwr.conversions.length = v
  have hresult : (s.entryReported ch v u).monResult ch = State.signed24 (v % 2 ^ 24).toNat := by
    refine Eq.trans (congrArg State.signed24 (get_entryReported ?_ s ch v u)) (report_shows hch s v).1
    simp only [Fld.addr, F.MON_RESULT_VALUE, F.PWR_MEAS_P_IN]
    omega
  have hconfig : ∀ g : Fld, g.addr 0 ≠ F.PWR_IN_VIN.addr 0 → g.addr 0 ≠ F.PWR_MEAS_P_IN.addr 0 → g.addr 0 < 0x3200 →
      (s.entryReported ch v u).get g 0 = s.get g 0 := fun g hin hmeas hbelow => get_entryReported_config hin hmeas hbelow s ch v u
  generalize s.entryReported ch v u = w at hresult hconfig ⊢
  have hpos : w.monPos = s.monPos := hconfig F.MON_CFG_POSITION (by decide) (by decide) (by decide)
  have hlength : w.get F.MON_CFG_LENGTH 0 = s.get F.MON_CFG_LENGTH 0 := hconfig _ (by decide) (by decide) (by decide)
  obtain ⟨hconversions, haborts⟩ := nextEntry_clears w u
  refine ⟨(monResult_nextEntry w u ch).trans hresult, hconversions, haborts, fun hmore => ?_, fun hlast => ?_⟩
  · exact (nextEntry_goesOn (by rwa [hpos, hlength]) u).trans (by rw [hpos])
  · obtain ⟨hfirst, hdone, hcount⟩ := nextEntry_endsCycle (s := w) (by rwa [hpos, hlength]) u
    exact ⟨hfirst, hdone, hcount.congr_left (hconfig _ (by decide) (by decide) (by decide))⟩

/-! Urgent requests and the energy of a frame (R469, R482, R483). -/

theorem urgentRequest_joins {s : State} {ch : Nat} (h : ch ∈ s.pwr.urgent) : Completes (.urgentRequest ch) s (fun t => t = s) :=
  ⟨s, congrArg Host.Outcome.next (if_pos (List.contains_iff_mem.mpr h)), rfl⟩

section
variable {s : State} {ch : Nat} (hnew : ch ∉ s.pwr.urgent)
include hnew

theorem urgentRequest_refused (hfull : 4 ≤ s.pwr.urgent.length) :
    Completes (.urgentRequest ch) s (fun t => Advanced F.MON_COUNTS_REFUSED 0 1 s t ∧ t.pwr = s.pwr) :=
  ⟨_, congrArg Host.Outcome.next ((if_neg (by simpa using hnew)).trans (if_pos hfull)), advanced_bump rfl (by decide) 1 s, State.bump_pwr ..⟩

/-- The converter with one more urgent request. -/
def State.asked (s : State) (ch : Nat) : State := { s with pwr := { s.pwr with urgent := s.pwr.urgent ++ [ch] } }

theorem urgentRequest_queues (hroom : s.pwr.urgent.length < 4) : exec (.urgentRequest ch) s = .next
    (if decide (s.pwr.urgent = []) = false then s.asked ch
    else if 4 ≤ s.pwr.aborts then { s.asked ch with pwr := { (s.asked ch).pwr with waiting := true } }
    else ({ s.asked ch with pwr := { (s.asked ch).pwr with aborts := s.pwr.aborts + 1, conversions := [] } } : State).bump
      F.MON_COUNTS_ABORTS 0 1) :=
  congrArg Host.Outcome.next ((if_neg (by simpa using hnew)).trans (if_neg (Nat.not_le.mpr hroom)))

theorem urgentRequest_aborts (hroom : s.pwr.urgent.length < 4) : Completes (.urgentRequest ch) s (fun t =>
    t.pwr.urgent = s.pwr.urgent ++ [ch] ∧
      (s.pwr.urgent = [] → s.pwr.aborts < 4 → t.pwr.conversions = [] ∧ t.pwr.aborts = s.pwr.aborts + 1 ∧ Advanced F.MON_COUNTS_ABORTS 0 1 s t) ∧
      (s.pwr.urgent = [] → 4 ≤ s.pwr.aborts → t.pwr.waiting = true ∧ t.pwr.conversions = s.pwr.conversions)) := by
  refine ⟨_, urgentRequest_queues hnew hroom, ?_⟩
  by_cases hfirst : s.pwr.urgent = []
  · rw [if_neg (by simp [hfirst])]
    by_cases haborts : 4 ≤ s.pwr.aborts
    · rw [if_pos haborts]
      exact ⟨rfl, fun _ hfew => absurd hfew (Nat.not_lt.mpr haborts), fun _ _ => ⟨rfl, rfl⟩⟩
    · rw [if_neg haborts]
      refine ⟨by rw [State.bump_pwr]; rfl, fun _ _ => ⟨by rw [State.bump_pwr], by rw [State.bump_pwr], ?_⟩, fun _ hmany => absurd hmany haborts⟩
      exact (advanced_bump rfl (by decide) 1 _).congr_left (get_congr rfl ..)
  · rw [if_pos (by simp [hfirst])]
    exact ⟨rfl, fun hnone => absurd hnone hfirst, fun hnone => absurd hnone hfirst⟩
end

theorem frameEnergyCheck_deducts {s : State} {n : Nat} :
    let start := s.now - (s.frame - n) * s.periodNs
    let l := (s.pwr.readings.filter (fun e => decide (start ≤ e.1) && decide (e.1 < start + s.periodNs))).map (fun e => e.2)
    n ≤ s.frame → l ≠ [] → n ∉ s.pwr.checked → Completes (.frameEnergyCheck n) s (fun t => n ∈ t.pwr.checked ∧
      t.pwr.deduct = s.pwr.deduct + (30 * (l.foldl (· + ·) 0) * s.periodNs / l.length - s.envelope)) := by
  intro start l hpast hsome hnew
  have hcontains : s.pwr.checked.contains n = false := by simpa using hnew
  exact ⟨_, congrArg Host.Outcome.next (if_pos ⟨hpast, hsome, hcontains⟩), .head _, rfl⟩

/-! The thermal shutdown (R475). -/

theorem oosDue_eventOpen (s : State) (st k i : Nat) : (s.eventOpen st k i).flt.oosDue = s.flt.oosDue := by
  have hlog : ∀ (u : State) (d0 d1 : Nat), (u.logEvent st k i d0 d1).flt.oosDue = u.flt.oosDue := by
    intro u d0 d1
    unfold State.logEvent
    split
    · rw [State.put_flt]
    · rw [State.bump_flt]
  exact (event_eq_logEvent (fun u => u.flt.oosDue) (fun u _ _ => congrArg FaultSt.oosDue ((keeps_toMgmt (Keeps.refl 0x401000080 u) rfl).same .flt rfl))
    (fun u _ _ => congrArg FaultSt.oosDue ((keeps_toHost (Keeps.refl 0x401000080 u) rfl).same .flt rfl)) s.drawn.drawn st k i _ _).trans (hlog ..)

/-- Stacks and plans without power: every plan and every byte is lost. -/
def State.unpowered (s : State) : State := { s.losePlans with mem := [], pwr := { s.losePlans.pwr with tripped := true } }

theorem flt_unpowered (s : State) : s.unpowered.flt = s.flt := (keeps_losePlans (Keeps.refl 0xE842000 s) rfl).same .flt rfl

theorem unpowered_lost (s : State) : s.unpowered.pwr.tripped = true ∧ (∀ a, s.unpowered.byte a = 0) ∧ s.unpowered.fr.plans = [] :=
  ⟨rfl, fun _ => rfl, rfl⟩

theorem flt_clearDies (s : State) : ((List.range 4).foldl (State.clearDie 4) s).flt = s.flt :=
  foldl_keeps_value (fun u => u.flt) _ s fun u _ _ => (keeps_clearDie (Keeps.refl 0xC101400 u) rfl).same .flt rfl

theorem execThermalShutdown_eq (s : State) (ch : Nat) (v : Int) : execThermalShutdown ch v s =
    .next (if s.pwr.converting = true ∧ 10 ≤ ch ∧ ch ≤ 85 ∧ (if ch < 74 then 1840 else 1680) ≤ v ∧ s.pwr.tripped = false then
      ((((List.range 4).foldl (State.clearDie 4) s).unpowered.raise F.PWR_EVT_SHUTDOWN 0).eventOpen 0x0510 0 0).oosNext 6 else s) := by
  unfold execThermalShutdown
  rfl

/-- The shutdown as it is shown and reported (R475). -/
def State.shutDownShown (s : State) : State := ((s.raise F.PWR_EVT_SHUTDOWN 0).eventOpen 0x0510 0 0).oosNext 6

theorem get_shutDownShown (s : State) : s.shutDownShown.get F.PWR_EVT_SHUTDOWN 0 = 1 :=
  (get_oosNext ..).trans ((get_eventOpen (by decide) ..).trans ((get_raise ..).trans (get_put_same _ rfl (by decide) 1)))

theorem keeps_shutDownShown (s : State) : Keeps 0xC2104008C s s.shutDownShown :=
  keeps_oosNext (keeps_eventOpen (.raise (Keeps.refl 0xC2104008C s) rfl rfl rfl) rfl) rfl

theorem oosDue_shutDownShown {s : State} (h : s.flt.oosDue = none) : s.shutDownShown.flt.oosDue = some 6 := by
  have hdue := oosDue_eventOpen (s.raise F.PWR_EVT_SHUTDOWN 0) 0x0510 0 0
  rw [State.raise_flt, h] at hdue
  unfold State.shutDownShown State.oosNext
  rw [hdue]

theorem thermalShutdown_trips {s : State} {ch : Nat} {v : Int} (hconverting : s.pwr.converting = true) (hlow : 10 ≤ ch) (hhigh : ch ≤ 85)
    (hhot : (if ch < 74 then 1840 else 1680) ≤ v) (hfirst : s.pwr.tripped = false) : Completes (.thermalShutdown ch v) s (fun t =>
      t.pwr.tripped = true ∧ (∀ a, t.byte a = 0) ∧ t.fr.plans = [] ∧ t.get F.PWR_EVT_SHUTDOWN 0 = 1 ∧
        (s.flt.oosDue = none → t.flt.oosDue = some 6)) := by
  have hexec : exec (.thermalShutdown ch v) s = .next ((List.range 4).foldl (State.clearDie 4) s).unpowered.shutDownShown := by
    show execThermalShutdown ch v s = _
    rw [execThermalShutdown_eq, if_pos ⟨hconverting, hlow, hhigh, hhot, hfirst⟩, State.shutDownShown]
  have hflt := (flt_unpowered _).trans (flt_clearDies s)
  obtain ⟨hpwr, hmem, hplans⟩ := unpowered_lost ((List.range 4).foldl (State.clearDie 4) s)
  have hkeeps := keeps_shutDownShown ((List.range 4).foldl (State.clearDie 4) s).unpowered
  refine ⟨_, hexec, ?_, fun a => (hkeeps.same .mem rfl a).trans (hmem a), ?_, get_shutDownShown _, fun hnone => ?_⟩
  · exact (congrArg PowerSt.tripped (hkeeps.same .pwr rfl)).trans hpwr
  · exact (congrArg FrameSt.plans (hkeeps.same .fr rfl)).trans hplans
  · exact oosDue_shutDownShown ((congrArg FaultSt.oosDue hflt).trans hnone)

/-- Settles O59: each command by the theorem about it; that every byte reads 0 after a shutdown is the reset of memory (log entries 5, 155). -/
theorem powerAndMonitor : Obligations.PowerAndMonitor := by
  unfold Obligations.PowerAndMonitor
  intro s
  refine ⟨fun mw u hmw => overdraw_raises s hmw u, fun u habove hpast => reserveDecay_lowers habove hpast, currentLimitReached_shows,
    fun hconverting hlength => ⟨fun ch v hch hnext => monitorConversion_of_urgent hconverting hlength hch hnext v, fun v hnext hrepeat => ?_⟩,
    fun u hconverting hsome hall hnext => monitorEntryComplete_reports hconverting hsome hall hnext u,
    fun ch => ⟨urgentRequest_joins, urgentRequest_refused, urgentRequest_aborts⟩, fun n => frameEnergyCheck_deducts,
    fun ch v hconverting hlow hhigh hhot hfirst => thermalShutdown_trips hconverting hlow hhigh hhot hfirst, ⟨_, rfl, rfl, rfl⟩⟩
  refine ⟨_, monitorConversion_of_entry hconverting hlength hnext hrepeat v, (pwr_checkLimit_conversions ..).trans rfl, fun houtside => ?_⟩
  obtain ⟨hbit, hreport⟩ := checkLimit_crosses (s := { s with pwr := { s.pwr with conversions := s.pwr.conversions ++ [v] } }) houtside
  exact ⟨hbit, hreport⟩

end Sys2Proof.Machine
end


section
/-! Weight digests (R429 to R432): what is taken in, what is formed, and the decision. -/
namespace Sys2Proof.Machine

/-! What votes, comparisons and disputes leave of the digests. -/

/-- The digests that an exchange has taken in. -/
def ExchSt.taken (e : ExchSt) : List Dig × List (Nat × Nat) × Nat := (e.digests, e.full, e.fullStep)

theorem taken_dispute (s : State) (c f : Nat) : ((s.dispute c f).ctx c).exch.taken = (s.ctx c).exch.taken := by
  unfold State.dispute
  rw [exch_updExch, ctx_bump]
  rfl

theorem taken_tryVote (s : State) (c : Nat) (t : Template) : ((s.tryVote c t).ctx c).exch.taken = (s.ctx c).exch.taken := by
  unfold State.tryVote
  split
  · rfl
  · extract_lets e others
    split
    next u _ =>
      obtain ⟨r, hr⟩ := exists_ctx_countVotes u c t
      rw [hr]
      refine (congrArg ExchSt.taken (exch_updExch ..)).trans ?_
      rw [ctx_sendRec]
      rfl
    · rfl

theorem taken_compareOwner (s : State) (c : Nat) (t : Template) (m : Nat) :
    ((s.compareOwner c t m).ctx c).exch.taken = (s.ctx c).exch.taken := by
  unfold State.compareOwner
  extract_lets e
  split
  · rfl
  · split
    · rfl
    next wd was u _ d _ _ =>
      extract_lets check v
      have hu : (u.ctx c).exch.taken = (s.ctx c).exch.taken := by
        unfold u
        rw [exch_updExch]
        rfl
      have hv : (v.ctx c).exch.taken = (u.ctx c).exch.taken :=
        congrArg (fun x => x.exch.taken) (ctx_congr ((keeps_sendDigest (Keeps.refl 0x800000 u) rfl).same .ctxs rfl) c)
      split
      · exact hu
      · rw [exch_updExch]
        exact (taken_dispute v c v.frame).trans (hv.trans hu)

/-- A dispute has a decision due (R430, R432). -/
theorem digestAt_dispute (s : State) (c f : Nat) : ((s.dispute c f).ctx c).exch.digestAt.isSome = true := by
  unfold State.dispute
  rw [exch_updExch]
  dsimp only
  split <;> rfl

/-! Digests taken in and formed (R429 to R431). -/

/-- A member's digest of the last committed step stands beside the others of that step (R431). -/
theorem takeFull_takes (s : State) (c : Nat) (t : Template) (m d : Nat) : (m, d) ∈ ((s.takeFull c t m d).ctx c).exch.full ∧
    ((s.takeFull c t m d).ctx c).exch.fullStep = s.stepNo c - 1 := by
  have htaken : ∃ l, ((s.takeFull c t m d).ctx c).exch.taken = ((s.ctx c).exch.digests, l ++ [(m, d)], s.stepNo c - 1) := by
    unfold State.takeFull
    extract_lets step u e v
    have hu : ∃ l, (u.ctx c).exch.taken = ((s.ctx c).exch.digests, l ++ [(m, d)], s.stepNo c - 1) := by
      unfold u
      rw [exch_updExch]
      exact ⟨if (s.ctx c).exch.fullStep = step then (s.ctx c).exch.full.filter (fun x => decide (x.1 ≠ m)) else [], rfl⟩
    have hv : (v.ctx c).exch.taken = (u.ctx c).exch.taken := by
      unfold v
      rw [ctx_bump]
    split
    · split
      · rw [taken_tryVote, hv]
        exact hu
      · rw [taken_dispute, hv]
        exact hu
    · exact hu
  obtain ⟨l, hl⟩ := htaken
  simp only [ExchSt.taken, Prod.mk.injEq] at hl
  obtain ⟨-, hfull, hstep⟩ := hl
  exact ⟨by rw [hfull]; simp, hstep⟩

section
variable {s : State} {c : Nat} {tm : Template} (htemplate : s.template c = some tm)
include htemplate

theorem exec_digest_heard {o : DigestMsg} (hc : o.head.ctx = c) (hopen : s.vcOpen o.head.vc = true) : exec (.digest o) s = .next
    (if o.scope = 1 ∧ s.fullDue c = true ∧ o.step = (s.stepNo c - 1) % 2 ^ 48 then s.takeFull c tm o.sender o.d1
    else if s.current c o.step o.attempt = false then s.staleRec c
    else
      let u := s.updExch c (fun e => { e with digests := e.digests ++ [⟨o.scope, o.sender, o.subject, o.d1, o.d2⟩] })
      if o.scope = 0 then (u.compareOwner c tm o.sender).tryVote c tm
      else if o.scope = 2 then
        (u.dispute c (frameOfTag u.frame o.head.ftag)).updExch c (fun e => { e with disputes := e.disputes ++ [(o.sender, o.subject)] })
      else u) := by
  subst hc
  refine congrArg Host.Outcome.next ((if_pos hopen).trans ?_)
  unfold State.takeDigest
  simp only [htemplate]

theorem digest_taken {o : DigestMsg} (hc : o.head.ctx = c) (hopen : s.vcOpen o.head.vc = true) (hscope : o.scope ≠ 1)
    (hcurrent : s.current c o.step o.attempt = true) : Completes (.digest o) s (fun t =>
      (t.ctx c).exch.digests = (s.ctx c).exch.digests ++ [⟨o.scope, o.sender, o.subject, o.d1, o.d2⟩] ∧
      (o.scope = 2 → (o.sender, o.subject) ∈ (t.ctx c).exch.disputes ∧ (t.ctx c).exch.digestAt.isSome = true)) := by
  refine ⟨_, exec_digest_heard htemplate hc hopen, ?_⟩
  rw [if_neg fun h => hscope h.1, if_neg (by rw [hcurrent]; decide)]
  extract_lets u
  have hu : (u.ctx c).exch.digests = (s.ctx c).exch.digests ++ [⟨o.scope, o.sender, o.subject, o.d1, o.d2⟩] := by
    unfold u
    rw [exch_updExch]
  have hdigests : ∀ v : State, (v.ctx c).exch.taken = (u.ctx c).exch.taken →
      (v.ctx c).exch.digests = (s.ctx c).exch.digests ++ [⟨o.scope, o.sender, o.subject, o.d1, o.d2⟩] :=
    fun v hv => Eq.trans (congrArg Prod.fst hv : (v.ctx c).exch.digests = (u.ctx c).exch.digests) hu
  clear_value u
  by_cases howner : o.scope = 0
  · rw [if_pos howner]
    exact ⟨hdigests _ ((taken_tryVote ..).trans (taken_compareOwner ..)), fun h => absurd (howner.symm.trans h) (by decide)⟩
  · rw [if_neg howner]
    by_cases hdispute : o.scope = 2
    · rw [if_pos hdispute]
      dsimp only
      rw [exch_updExch]
      refine ⟨hdigests _ (taken_dispute ..), fun _ => ⟨?_, digestAt_dispute ..⟩⟩
      exact List.mem_append_right _ (.head _)
    · rw [if_neg hdispute]
      exact ⟨hu, fun h => absurd h hdispute⟩

theorem digest_full {o : DigestMsg} (hc : o.head.ctx = c) (hopen : s.vcOpen o.head.vc = true) (hscope : o.scope = 1)
    (hdue : s.fullDue c = true) (hstep : o.step = (s.stepNo c - 1) % 2 ^ 48) : Completes (.digest o) s (fun t =>
      (o.sender, o.d1) ∈ (t.ctx c).exch.full ∧ (t.ctx c).exch.fullStep = s.stepNo c - 1) :=
  ⟨_, (exec_digest_heard htemplate hc hopen).trans (congrArg Host.Outcome.next (if_pos ⟨hscope, hdue, hstep⟩)), takeFull_takes ..⟩

theorem fullDigest_forms (hc : c < 1024) (hmulti : tm.multi = true) (hdue : s.fullDue c = true) (hnew : (s.ctx c).exch.fullStep ≠ s.stepNo c - 1) :
    Completes (.fullDigest c) s (fun t => (s.ownIdx tm, s.fullDigest c tm (s.stepNo c - 1)) ∈ (t.ctx c).exch.full ∧
      (t.ctx c).exch.fullStep = s.stepNo c - 1) := by
  have hexec : exec (.fullDigest c) s = .next ((s.sendDigest c tm (s.stepNo c - 1) 1 0 (s.fullDigest c tm (s.stepNo c - 1)) 0 0).takeFull c tm
      (s.ownIdx tm) (s.fullDigest c tm (s.stepNo c - 1))) := by
    show execFullDigest c s = _
    unfold execFullDigest
    simp only [htemplate]
    exact congrArg Host.Outcome.next (if_neg (by simp [hmulti, hdue, hnew]))
  have hkeeps := keeps_sendDigest (Keeps.refl 0x800000 s) rfl (a1 := c) (a2 := tm) (a3 := s.stepNo c - 1) (a4 := 1) (a5 := 0)
    (a6 := s.fullDigest c tm (s.stepNo c - 1)) (a7 := 0) (a8 := 0)
  have hstep := stepNo_congr (ctx_congr (hkeeps.same .ctxs rfl) c) (hkeeps.get (g := F.CTX_STEP_LO_STEP_LO) rfl hc rfl)
    (hkeeps.get (g := F.CTX_STEP_HI_STEP_HI) rfl hc rfl)
  generalize s.sendDigest c tm (s.stepNo c - 1) 1 0 (s.fullDigest c tm (s.stepNo c - 1)) 0 0 = v at hexec hstep
  exact ⟨_, hexec, hstep ▸ takeFull_takes v ..⟩

end

/-! The decision (R432). -/

/-- The exchange tries once more; a disagreement of whole sets is taken in anew. -/
def State.digestRetry (s : State) (c : Nat) (whole : Bool) : State :=
  let u := s.updExch c (fun e => { e with tries := e.tries + 1 })
  if whole then u.updExch c (fun e => { e with full := [] }) else u

/-- What a decision makes of the state before it is taken off the exchange. -/
def State.digestOutcome (s : State) (c : Nat) (t : Template) : State :=
  if decide (2 * (s.oddSet c t).length < (s.aliveGroup c t).length) then
    (if (s.ctx c).exch.tries = 0 then (s.digestRetry c (decide ((s.ctx c).exch.disputes = []))).sendAbandon c
    else s.expel c t (s.oddSet c t))
  else if (s.ctx c).exch.tries = 0 then
    let u := ((s.digestRetry c (decide ((s.ctx c).exch.disputes = []))).bump F.FLT_DIGEST_HELD c 1).raise F.FLT_SE_EVT_DIGEST_HELD 0
    if decide ((s.ctx c).exch.disputes = []) then u else u.sendAbandon c
  else (s.finding 7 none 6 c 0x1FFFF).faultCtx c 6

theorem digestDecide_eq (s : State) (c : Nat) (t : Template) : s.digestDecide c t =
    (s.digestOutcome c t).updExch c (fun e => { e with digestAt := none, disputes := [] }) := rfl

theorem tries_digestRetry (s : State) (c : Nat) (whole : Bool) :
    ((s.digestRetry c whole).ctx c).exch.tries = (s.ctx c).exch.tries + 1 := by
  unfold State.digestRetry
  extract_lets u
  have hu : (u.ctx c).exch.tries = (s.ctx c).exch.tries + 1 := by
    unfold u
    rw [exch_updExch]
  split
  · rw [exch_updExch]
    exact hu
  · exact hu

theorem tries_sendAbandon (s : State) (c : Nat) : ((s.sendAbandon c).ctx c).exch.tries = (s.ctx c).exch.tries := by
  unfold State.sendAbandon
  split
  · rfl
  · rw [exch_updExch, ctx_sendRec]

theorem tries_digestOutcome {s : State} {c : Nat} {t : Template} (hfirst : (s.ctx c).exch.tries = 0) :
    ((s.digestOutcome c t).ctx c).exch.tries = 1 := by
  have hretry : ∀ whole, ((s.digestRetry c whole).ctx c).exch.tries = 1 := fun whole => (tries_digestRetry ..).trans (by rw [hfirst])
  unfold State.digestOutcome
  rw [if_pos hfirst, if_pos hfirst]
  split
  · exact (tries_sendAbandon ..).trans (hretry _)
  · extract_lets u
    have hu : (u.ctx c).exch.tries = 1 := by
      unfold u
      rw [ctx_raise, ctx_bump]
      exact hretry _
    split
    · exact hu
    · exact (tries_sendAbandon ..).trans hu

theorem get_expelled_reportLostIn {c : Nat} (hc : c < 1024) (s : State) (x : Nat) :
    (s.reportLostIn c x).get F.FLT_DIGEST_EXPELLED c = s.get F.FLT_DIGEST_EXPELLED c :=
  (keeps_reportLostIn (Keeps.refl 0x402000100 s) rfl).get (g := F.FLT_DIGEST_EXPELLED) rfl hc rfl

/-- Every member of the set counts as expelled (R432). -/
theorem advanced_expel {c : Nat} (hc : c < 1024) (t : Template) (l : List Nat) (s : State) :
    Advanced F.FLT_DIGEST_EXPELLED c l.length s (s.expel c t l) := by
  unfold State.expel
  induction l generalizing s with
  | nil => exact (Nat.mod_eq_of_lt (get_lt s F.FLT_DIGEST_EXPELLED c)).symm
  | cons i l ih =>
    rw [List.foldl_cons, List.length_cons, Nat.add_comm]
    refine Advanced.trans (u := ((((s.reportLostIn c (t.group.getD i 0)).bump F.FLT_DIGEST_EXPELLED c 1).raise F.FLT_SE_EVT_EXPELLED 0).finding
      7 none 6 c i)) ?_ (ih _)
    have hcount := (advanced_bump (f := F.FLT_DIGEST_EXPELLED) rfl (i := c) hc 1 (s.reportLostIn c (t.group.getD i 0))).congr_left
      (get_expelled_reportLostIn hc ..)
    refine hcount.of_get_eq ((get_event (ctxWord_notMem_eventWords (by decide) c) ..).trans ((get_raise ..).trans (get_put_addr _ ?_ _)))
    simp only [Fld.addr, F.FLT_DIGEST_EXPELLED, F.FLT_SE_EVT_EXPELLED]
    omega

theorem ctx_finding (s : State) (kind : Nat) (core : Option Nat) (u i d c : Nat) : (s.finding kind core u i d).ctx c = s.ctx c :=
  ctx_congr ((keeps_finding (Keeps.refl 0x429000484 s) rfl).same .ctxs rfl) c

theorem get_updExch (s : State) (c : Nat) (f : ExchSt → ExchSt) (g : Fld) (i : Nat) : (s.updExch c f).get g i = s.get g i := get_congr rfl g i

theorem faultDue_updExch (s : State) (c : Nat) (f : ExchSt → ExchSt) : ((s.updExch c f).ctx c).faultDue = (s.ctx c).faultDue := by
  rw [State.updExch, ctx_updCtx, if_pos rfl]

theorem digestDecision_decides {s : State} {c : Nat} {tm : Template} (hc : c < 1024) (htemplate : s.template c = some tm) {n : Nat}
    (hat : (s.ctx c).exch.digestAt = some n) (hdue : n ≤ s.frame + 1) : Completes (.digestDecision c) s (fun t =>
      (t.ctx c).exch.digestAt = none ∧ (t.ctx c).exch.disputes = [] ∧ ((s.ctx c).exch.tries = 0 → (t.ctx c).exch.tries = 1) ∧
      ((s.ctx c).exch.tries ≠ 0 → 2 * (s.oddSet c tm).length < (s.aliveGroup c tm).length →
        Advanced F.FLT_DIGEST_EXPELLED c (s.oddSet c tm).length s t) ∧
      ((s.ctx c).exch.tries ≠ 0 → (s.aliveGroup c tm).length ≤ 2 * (s.oddSet c tm).length → (s.ctx c).faultDue = none →
        (t.ctx c).faultDue = some 6)) := by
  have hexec : exec (.digestDecision c) s = .next ((s.digestOutcome c tm).updExch c (fun e => { e with digestAt := none, disputes := [] })) := by
    show execDigestDecision c s = _
    unfold execDigestDecision
    simp only [htemplate, hat, if_pos hdue, digestDecide_eq]
  refine ⟨_, hexec, ?_⟩
  dsimp only
  rw [exch_updExch]
  refine ⟨rfl, rfl, fun hfirst => tries_digestOutcome hfirst, fun hagain hminority => ?_, fun hagain hsplit hnone => ?_⟩
  · have hexpel : s.digestOutcome c tm = s.expel c tm (s.oddSet c tm) := (if_pos (decide_eq_true hminority)).trans (if_neg hagain)
    rw [hexpel]
    exact (advanced_expel hc tm (s.oddSet c tm) s).of_get_eq (get_updExch ..)
  · have hfault : s.digestOutcome c tm = (s.finding 7 none 6 c 0x1FFFF).faultCtx c 6 :=
      (if_neg (by simpa using hsplit)).trans (if_neg hagain)
    rw [hfault, faultDue_updExch]
    exact faultDue_faultCtx _ c 6 (by rw [ctx_finding]; exact hnone)

end Sys2Proof.Machine
end


section
/-! Findings, duplicates, observation and margin frames (R417, R418, R420 to R422, R433 to R435). -/
namespace Sys2Proof.Machine

/-! A finding that names a core (R417). -/

/-- A core that a finding names, before it is reported: its failed test is counted, and it goes under observation. -/
def State.named (s : State) (p : Nat) : State := ((s.failTest p).observe p).bump F.FLT_OBS_FINDINGS p 1

theorem finding_named (s : State) (kind p unit index d : Nat) :
    s.finding kind (some p) unit index d = (s.named p).event 0x0508 unit index kind d := rfl

theorem now_failTest (s : State) (p : Nat) : (s.failTest p).now = s.now := (keeps_failTest (Keeps.refl 0x8000400 s) rfl).same .now rfl

theorem obsUntil_named (s : State) (p : Nat) : ((s.named p).core p).obsUntil = some (s.now + dayNs) := by
  unfold State.named State.observe
  rw [State.bump, core_put, core_put, core_updCore_same, now_failTest]

theorem keeps_named (s : State) (p : Nat) : Keeps 0x8000400 s (s.named p) :=
  .bump (keeps_observe (keeps_failTest (Keeps.refl _ s) rfl) rfl) rfl rfl

/-- A word of a core beside its state and its findings. -/
theorem get_named {g : Fld} (hstate : F.FLT_CORE_FAILS.otherWord g = true) (hobserved : F.FLT_CORE_OBSERVED.otherWord g = true) (s : State)
    (p : Nat) : (s.failTest p |>.observe p).get g p = s.get g p := by
  unfold State.observe State.failTest
  refine (get_put_addr _ (addr_ne_addr hobserved p) _).trans ((get_congr rfl g p).trans ?_)
  exact (get_put_addr _ (addr_ne_addr hstate p) _).trans (get_congr rfl g p)

theorem get_named_apart {g : Fld} (hstate : F.FLT_CORE_FAILS.otherWord g = true) (hobserved : F.FLT_CORE_OBSERVED.otherWord g = true)
    (hfinds : F.FLT_OBS_FINDINGS.otherWord g = true) (s : State) (p : Nat) : (s.named p).get g p = s.get g p :=
  (get_bump_otherWord _ hfinds p 1).trans (get_named hstate hobserved s p)

theorem advanced_named {p : Nat} (hp : p < 192) (s : State) : Advanced F.FLT_OBS_FINDINGS p 1 s (s.named p) :=
  (advanced_bump rfl hp 1 _).congr_left (get_named (by decide) (by decide) s p)

/-- A core's word, which no EVENT changes. -/
theorem coreWord_notMem_eventWords {g : Fld} (hbase : 0x100000 ≤ g.base) (p : Nat) : g.addr p ∉ eventWords := by
  simp only [eventWords, Fld.addr, F.FLT_LOG_NEXT, F.ETH_TX_LOST_STREAMS, List.mem_cons, List.not_mem_nil, or_false]
  omega

/-- The referee that a duplicate waits for and the margin frame that runs: what no EVENT changes. -/
def FaultSt.checks (f : FaultSt) : Option Dup × Option (Nat × Bool) := (f.referee, f.marginRun)

theorem checks_event (s : State) (st k i d0 d1 : Nat) : (s.event st k i d0 d1).flt.checks = s.flt.checks := by
  rw [event_eq_logEvent (fun u => u.flt.checks) (fun u _ _ => by rw [(keeps_toMgmt (Keeps.refl 0x401000080 u) rfl).same .flt rfl])
    (fun u _ _ => by rw [(keeps_toHost (Keeps.refl 0x401000080 u) rfl).same .flt rfl])]
  unfold State.logEvent
  split
  · rw [State.put_flt]
    rfl
  · rw [State.bump_flt]

/-- A core named by a finding: one more finding, observed for a day, and what else was due is due. -/
theorem finding_names {p : Nat} (hp : p < 192) (s : State) (kind unit index d : Nat) :
    Advanced F.FLT_OBS_FINDINGS p 1 s (s.finding kind (some p) unit index d) ∧
      ((s.finding kind (some p) unit index d).core p).obsUntil = some (s.now + dayNs) ∧
      (s.finding kind (some p) unit index d).flt.checks = s.flt.checks := by
  rw [finding_named]
  refine ⟨(advanced_named hp s).of_get_eq (get_event (coreWord_notMem_eventWords (by decide) p) ..), ?_, ?_⟩
  · rw [core_congr ((keeps_event (Keeps.refl 0x421000084 (s.named p)) rfl).same .cores rfl) p]
    exact obsUntil_named s p
  · rw [checks_event, show (s.named p).flt = s.flt from (keeps_named s p).same .flt rfl]

/-! Duplicates (R420 to R422). -/

theorem exec_duplicateCompare {s : State} {o : DupOp} (hdies : o.core / 48 ≠ o.other / 48) (hpicked : s.picked o.core o.item = true) :
    exec (.duplicateCompare o) s = .next
      (if o.ran = false then (s.unpick o.core o.item).bump F.FLT_DUP_SKIPPED o.core 1
      else if o.orig = o.dup then (s.unpick o.core o.item).bump F.FLT_DUP_DUPLICATED o.core 1
      else ((s.unpick o.core o.item).bump F.FLT_DUP_DUPLICATED o.core 1).dupMismatch o) :=
  congrArg Host.Outcome.next (if_neg (by simp [hdies, hpicked]))

/-- Taking a pick out changes the frame's plans alone. -/
theorem exists_plans_unpick (s : State) (core item : Nat) : ∃ l, s.unpick core item = { s with fr := { s.fr with plans := l } } := by
  unfold State.unpick
  split
  · exact ⟨_, rfl⟩
  · exact ⟨s.fr.plans, rfl⟩

theorem picked_unpick (s : State) (core item : Nat) : (s.unpick core item).picked core item = false := by
  unfold State.unpick
  split
  next p r _ =>
    unfold State.picked
    rw [Bool.eq_false_iff]
    simp
  next h => simp only [State.picked, h]

theorem picked_congr {s t : State} (h : t.fr = s.fr) (core item : Nat) : t.picked core item = s.picked core item := by
  rw [State.picked, State.picked, h]

theorem killed_kill {s : State} (hphase : s.phase = 1) (halive : s.fr.killed = none) (cause p e u : Nat) :
    (s.kill cause p e u).fr.killed = some cause := by
  rw [fr_kill hphase halive]
  rfl

/-- A mismatch waits for its referee, and the frame dies (R422). -/
theorem dupMismatch_kills (s : State) (o : DupOp) :
    (s.dupMismatch o).flt.referee = some ⟨o.core, o.item, o.other, o.orig, o.dup, o.engine⟩ ∧
      (s.phase = 1 → s.fr.killed = none → (s.dupMismatch o).fr.killed = some 5) := by
  refine ⟨rfl, fun hphase halive => ?_⟩
  have hword : ∀ i, F.DEV_STATE_PHASE.addr 0 ≠ F.FLT_DUP_MISMATCH.addr i := by
    intro i
    simp only [Fld.addr, F.DEV_STATE_PHASE, F.FLT_DUP_MISMATCH]
    omega
  refine killed_kill (Eq.trans ?_ hphase) ?_ 5 o.core o.engine o.t
  · exact (get_raise ..).trans ((get_put_addr _ (by decide) _).trans (get_put_addr _ (hword _) _))
  · rw [State.raise_fr, State.bump_fr]
    exact halive

theorem duplicateCompare_compares {s : State} {o : DupOp} (hcore : o.core < 192) (hdies : o.core / 48 ≠ o.other / 48)
    (hpicked : s.picked o.core o.item = true) :
    (o.ran = false → Completes (.duplicateCompare o) s (fun t => Advanced F.FLT_DUP_SKIPPED o.core 1 s t ∧ t.picked o.core o.item = false)) ∧
    (o.ran = true → o.orig = o.dup → Completes (.duplicateCompare o) s (fun t => Advanced F.FLT_DUP_DUPLICATED o.core 1 s t ∧
      t.flt = s.flt)) ∧
    (o.ran = true → o.orig ≠ o.dup → Completes (.duplicateCompare o) s (fun t =>
      t.flt.referee = some ⟨o.core, o.item, o.other, o.orig, o.dup, o.engine⟩ ∧ (s.phase = 1 → s.fr.killed = none → t.fr.killed = some 5))) := by
  have hexec := exec_duplicateCompare hdies hpicked
  have hunpicked := picked_unpick s o.core o.item
  obtain ⟨l, hl⟩ := exists_plans_unpick s o.core o.item
  have hregs : (s.unpick o.core o.item).regs = s.regs := by rw [hl]
  have hflt : (s.unpick o.core o.item).flt = s.flt := by rw [hl]
  have hkilled : (s.unpick o.core o.item).fr.killed = s.fr.killed := by rw [hl]
  generalize s.unpick o.core o.item = u at *
  refine ⟨fun hskip => ?_, fun hran hsame => ?_, fun hran hdiff => ?_⟩
  · rw [if_pos hskip] at hexec
    exact ⟨_, hexec, (advanced_bump rfl hcore 1 u).congr_left (get_congr hregs ..), (picked_congr (State.bump_fr ..) ..).trans hunpicked⟩
  · rw [if_neg (by simp [hran]), if_pos hsame] at hexec
    exact ⟨_, hexec, (advanced_bump rfl hcore 1 u).congr_left (get_congr hregs ..), (State.bump_flt ..).trans hflt⟩
  · rw [if_neg (by simp [hran]), if_neg hdiff] at hexec
    obtain ⟨hreferee, hkill⟩ := dupMismatch_kills (u.bump F.FLT_DUP_DUPLICATED o.core 1) o
    refine ⟨_, hexec, hreferee, fun hphase halive => hkill ?_ (by rw [State.bump_fr, hkilled, halive])⟩
    refine (get_put_addr _ ?_ _).trans ((get_congr hregs ..).trans hphase)
    simp only [Fld.addr, F.DEV_STATE_PHASE, F.FLT_DUP_DUPLICATED]
    omega

/-- The state whose referee has decided. -/
def State.refereed (s : State) : State := { s with flt := { s.flt with referee := none } }

theorem exec_duplicateReferee {s : State} {o : DupOp} {d : Dup} (hreferee : s.flt.referee = some d) (hcore : o.core = d.core)
    (hitem : o.item = d.item) (hfirst : o.other / 48 ≠ d.core / 48) (hsecond : o.other / 48 ≠ d.other / 48) (hsame : o.orig = o.dup) :
    exec (.duplicateReferee o) s = .next (if o.orig = d.second then s.refereed.dupFinding d.core
      else if o.orig = d.first then s.refereed.dupFinding d.other
      else (s.refereed.dupFinding d.core).dupFinding d.other) := by
  show execDuplicateReferee o s = _
  unfold execDuplicateReferee
  simp only [hreferee]
  rw [if_neg (by simp [hcore, hitem, hfirst, hsecond]), if_neg (by simp [hsame])]
  rfl

/-- The core that the referee finds at fault is named (R417, R422). -/
theorem dupFinding_refereed {p : Nat} (hp : p < 192) (s : State) : (s.refereed.dupFinding p).flt.referee = none ∧
    Advanced F.FLT_OBS_FINDINGS p 1 s (s.refereed.dupFinding p) ∧ ((s.refereed.dupFinding p).core p).obsUntil = some (s.now + dayNs) := by
  obtain ⟨hcount, hobserved, hchecks⟩ := finding_names hp s.refereed 1 2 p s.refereed.frame
  exact ⟨congrArg Prod.fst hchecks, hcount.congr_left (get_congr rfl ..), hobserved⟩

/-! Observation (R417, R418). -/

theorem observationExpiry_ends {s : State} {p u n : Nat} (hp : p < 192) (huntil : (s.core p).obsUntil = some n) (hpast : n ≤ s.now + u) :
    Completes (.observationExpiry p u) s (fun t => (t.core p).obsUntil = none ∧ t.get F.FLT_CORE_OBSERVED p = 0 ∧
      t.get F.FLT_OBS_OBS_LEFT p = 0) := by
  have hexec : exec (.observationExpiry p u) s = .next
      (((s.updCore p (fun x => { x with obsUntil := none })).put F.FLT_CORE_OBSERVED p 0).put F.FLT_OBS_OBS_LEFT p 0) := by
    show execObservationExpiry p u s = _
    unfold execObservationExpiry
    simp only [huntil, if_pos hpast]
  refine ⟨_, hexec, ?_, ?_, get_put_same _ rfl hp 0⟩
  · rw [core_put, core_put, core_updCore_same]
  · exact (get_put_addr _ (addr_ne_addr (by decide) p) _).trans (get_put_same _ rfl hp 0)

/-! Margin frames (R433 to R435). -/

section
variable {s : State} {p : Nat} (hphase : s.phase = 1) (hframe : (s.frame + 1) % max 1 (s.pol 0x68) = 0) (hfree : s.flt.marginCore = none)
include hphase hframe hfree

theorem marginFrame_names (hnext : ((List.range 192).filter (fun p => decide (s.get F.FLT_CORE_ROLE p = 0))).find?
    (fun q => decide (s.flt.marginNext ≤ q)) = some p) :
    Completes (.marginFrame p) s (fun t => t.flt.marginCore = some p ∧ t.flt.marginNext = p + 1) :=
  ⟨_, congrArg Host.Outcome.next ((if_neg (by simp [hphase, hframe, hfree])).trans (if_pos hnext)), rfl, rfl⟩

/-- An observed core is named again beside the round's next one (R433). -/
theorem marginFrame_revisits (hother : ((List.range 192).filter (fun p => decide (s.get F.FLT_CORE_ROLE p = 0))).find?
    (fun q => decide (s.flt.marginNext ≤ q)) ≠ some p) (hdue : p ∈ (List.range 192).filter (fun p => decide (s.get F.FLT_CORE_ROLE p = 0)))
    (hobserved : s.get F.FLT_CORE_OBSERVED p = 1) (hfew : tget 0 s.flt.marginVisits p < 8) :
    Completes (.marginFrame p) s (fun t => t.flt.marginCore = some p ∧ t.flt.marginNext = s.flt.marginNext) :=
  ⟨_, congrArg Host.Outcome.next ((if_neg (by simp [hphase, hframe, hfree])).trans ((if_neg hother).trans
    (if_pos ⟨List.contains_iff_mem.mpr hdue, hobserved, hfew⟩))), rfl, rfl⟩
end

/-- The margin frame's test has run on its core, which is visited once more (R435). -/
def State.tested (s : State) (p : Nat) : State :=
  ({ s with flt := { s.flt with marginRun := some (p, true) } } : State).bump F.FLT_MARGIN_VISITS p 1

/-- A test that failed is counted and shown, before its core is named. -/
def State.testFailed (s : State) (p n : Nat) : State :=
  ((s.bump F.FLT_MARGIN_FAILS p 1).put F.FLT_MARGIN_LAST_TEST p n).raise F.FLT_SE_EVT_MARGIN 0

section
variable {s : State} {p : Nat} (hphase : s.phase = 1) (hrun : s.flt.marginRun = some (p, false))
include hphase hrun

theorem exec_knownAnswerTest_passed : exec (.knownAnswerTest p none) s = .next (s.tested p) :=
  congrArg Host.Outcome.next (if_neg (by simp [hphase, hrun]))

theorem exec_knownAnswerTest_failed (n : Nat) :
    ∃ d, exec (.knownAnswerTest p (some n)) s = .next (((s.tested p).testFailed p n).finding 3 (some p) 2 p d) :=
  ⟨_, congrArg Host.Outcome.next (if_neg (by simp [hphase, hrun]))⟩
end

theorem flt_testFailed (s : State) (p n : Nat) : (s.testFailed p n).flt = s.flt ∧ (s.testFailed p n).now = s.now := by
  unfold State.testFailed
  simp only [State.raise_flt, State.put_flt, State.bump_flt, State.raise_now, State.put_now, State.bump_now, and_self]

/-- Of the margin words a finding changes nothing. -/
theorem get_finding_margin (s : State) (p : Nat) {g : Fld} (hg : g.base = F.FLT_MARGIN_FAILS.base) (hstride : g.stride = F.FLT_MARGIN_FAILS.stride) (kind unit index d : Nat) :
    (s.finding kind (some p) unit index d).get g p = s.get g p := by
  have hother : ∀ f : Fld, f.stride = 0x20 → f.base ≠ F.FLT_MARGIN_FAILS.base → f.otherWord g = true := by
    intro f hf hbase
    rw [Fld.otherWord, hg, hstride, hf, Bool.and_eq_true]
    exact ⟨rfl, decide_eq_true fun h => hbase h.symm⟩
  rw [finding_named]
  refine (get_event (coreWord_notMem_eventWords (by rw [hg]; decide) p) ..).trans ?_
  exact get_named_apart (hother _ rfl (by decide)) (hother _ rfl (by decide)) (hother _ rfl (by decide)) s p

section
variable {s : State} {p : Nat} (hp : p < 192)
include hp

theorem tested_counts : (s.tested p).flt.marginRun = some (p, true) ∧ Advanced F.FLT_MARGIN_VISITS p 1 s (s.tested p) ∧
    (s.tested p).get F.FLT_MARGIN_FAILS p = s.get F.FLT_MARGIN_FAILS p ∧ (s.tested p).now = s.now :=
  ⟨by rw [State.tested, State.bump_flt], (advanced_bump rfl hp 1 _).congr_left (get_congr rfl ..),
    (get_put_apart _ rfl rfl rfl ..).trans (get_congr rfl ..), State.bump_now ..⟩

theorem testFailed_counts (n : Nat) : Advanced F.FLT_MARGIN_FAILS p 1 s (s.testFailed p n) ∧
    (s.testFailed p n).get F.FLT_MARGIN_LAST_TEST p = n % F.FLT_MARGIN_LAST_TEST.size ∧
    (s.testFailed p n).get F.FLT_MARGIN_VISITS p = s.get F.FLT_MARGIN_VISITS p := by
  have hword : ∀ g : Fld, 0x100000 ≤ g.base → (s.testFailed p n).get g p =
      ((s.bump F.FLT_MARGIN_FAILS p 1).put F.FLT_MARGIN_LAST_TEST p n).get g p := by
    intro g hg
    refine (get_raise ..).trans (get_put_addr _ ?_ _)
    simp only [Fld.addr, F.FLT_SE_EVT_MARGIN]
    omega
  refine ⟨(advanced_bump rfl hp 1 s).of_get_eq ((hword _ (by decide)).trans (get_put_apart _ rfl rfl rfl ..)),
    (hword _ (by decide)).trans (get_put_same _ rfl hp n), (hword _ (by decide)).trans ?_⟩
  exact (get_put_apart _ rfl rfl rfl ..).trans (get_put_apart _ rfl rfl rfl ..)

theorem knownAnswerTest_counts (hphase : s.phase = 1) (hrun : s.flt.marginRun = some (p, false)) :
    Completes (.knownAnswerTest p none) s (fun t => t.flt.marginRun = some (p, true) ∧ Advanced F.FLT_MARGIN_VISITS p 1 s t ∧
      Advanced F.FLT_MARGIN_FAILS p 0 s t) ∧
    ∀ n, Completes (.knownAnswerTest p (some n)) s (fun t => t.flt.marginRun = some (p, true) ∧ Advanced F.FLT_MARGIN_VISITS p 1 s t ∧
      Advanced F.FLT_MARGIN_FAILS p 1 s t ∧ t.get F.FLT_MARGIN_LAST_TEST p = n % F.FLT_MARGIN_LAST_TEST.size ∧
      (t.core p).obsUntil = some (s.now + dayNs)) := by
  obtain ⟨hdone, hvisits, hfails, hnow⟩ := tested_counts (s := s) hp
  refine ⟨⟨_, exec_knownAnswerTest_passed hphase hrun, hdone, hvisits, ?_⟩, fun n => ?_⟩
  · exact hfails.trans (Nat.mod_eq_of_lt (get_lt s F.FLT_MARGIN_FAILS p)).symm
  · obtain ⟨d, hexec⟩ := exec_knownAnswerTest_failed hphase hrun n
    refine ⟨_, hexec, ?_⟩
    clear hexec
    generalize s.tested p = u at hdone hvisits hfails hnow ⊢
    obtain ⟨hcount, hlast, hkept⟩ := testFailed_counts (s := u) hp n
    obtain ⟨hflt, hsame⟩ := flt_testFailed u p n
    generalize u.testFailed p n = v at hcount hlast hkept hflt hsame ⊢
    obtain ⟨-, hobserved, hchecks⟩ := finding_names hp v 3 2 p d
    have hword : ∀ g : Fld, g.base = F.FLT_MARGIN_FAILS.base → g.stride = F.FLT_MARGIN_FAILS.stride →
        (v.finding 3 (some p) 2 p d).get g p = v.get g p := fun g hg hstride => get_finding_margin v p hg hstride 3 2 p d
    refine ⟨?_, hvisits.of_get_eq ((hword F.FLT_MARGIN_VISITS rfl rfl).trans hkept),
      (hcount.congr_left hfails).of_get_eq (hword _ rfl rfl), (hword F.FLT_MARGIN_LAST_TEST rfl rfl).trans hlast, ?_⟩
    · rw [← hdone, ← hflt]
      exact congrArg Prod.snd hchecks
    · rw [hobserved, hsame, hnow]
end

/-- Settles O56: each command by the theorem about it; an observed core is named at any of its places in the round (log entry 125), and a
margin frame is a multiple of MARGIN_EVERY (log entry 130). -/
theorem silentErrors : Obligations.SilentErrors := by
  unfold Obligations.SilentErrors
  intro s
  refine ⟨fun c tm hc htemplate => ⟨fun o hctx hopen hscope hcurrent => digest_taken htemplate hctx hopen hscope hcurrent,
      fun o hctx hopen hscope hdue hstep => digest_full htemplate hctx hopen hscope hdue hstep, fullDigest_forms htemplate hc,
      fun n hat hdue => digestDecision_decides hc htemplate hat hdue⟩,
    fun o hcore hdies hpicked => duplicateCompare_compares hcore hdies hpicked,
    fun o d hreferee hcore hother heq hitem hfirst hsecond hsame => ⟨fun hfault => ?_, fun hfault hdiff => ?_⟩,
    fun p u n => observationExpiry_ends, fun p hphase hframe hfree => ⟨marginFrame_names hphase hframe hfree, marginFrame_revisits hphase hframe hfree⟩,
    fun p hp hphase hrun => knownAnswerTest_counts hp hphase hrun⟩
  · have hexec := exec_duplicateReferee hreferee heq hitem hfirst hsecond hsame
    rw [if_pos hfault] at hexec
    exact ⟨_, hexec, dupFinding_refereed hcore s⟩
  · have hexec := exec_duplicateReferee hreferee heq hitem hfirst hsecond hsame
    rw [if_neg fun h => hdiff (hfault.symm.trans h), if_pos hfault] at hexec
    exact ⟨_, hexec, dupFinding_refereed hother s⟩

end Sys2Proof.Machine
end


section
/-! Loss of power (R464): a batt comes back as its record was last written (R149), which its column map and scales need not be. -/
namespace Sys2Proof.Machine

theorem batts_logEvent (s : State) (st k i d0 d1 : Nat) : (s.logEvent st k i d0 d1).batts = s.batts :=
  (keeps_logEvent (Keeps.refl 0x20000004 s) rfl).same .batts rfl

/-- A stop leaves of each batt what its cells and its record hold (R149, R464). -/
theorem batts_powerLoss {s : State} (h : s.pwr.converting = true) (cause : Nat) :
    (s.powerLoss cause).batts = tmap Batt.empty (fun _ b => State.coldBatt b) s.batts := by
  unfold State.powerLoss
  rw [if_pos h, ← batts_logEvent s 0x0511 0 0 cause 0]
  rfl

/-- The reset state with conversion on, but for batt 0: its column map has a column that its record does not hold. -/
def unrecordedMap : State :=
  { State.reset with
    pwr := { State.reset.pwr with converting := true }, batts := [(0, { Batt.empty with colMap := [(0, 1)] })] }

theorem canonical_unrecordedMap : unrecordedMap.canonical := by
  unfold State.canonical
  decide

/-- Refutes O60: the canonical form does not tie a batt's column map to its record, and a stop leaves the record's: of a batt that maps column 0
to column 1 without a record of it, the map is lost at ENABLE_OPEN, where the statement has it stay. -/
theorem not_startsAndStops : ¬ Obligations.StartsAndStops := by
  unfold Obligations.StartsAndStops
  intro h
  obtain ⟨hstops, -⟩ := h unrecordedMap
  obtain ⟨⟨t, hexec, hstopped, -⟩, -⟩ := hstops canonical_unrecordedMap rfl
  obtain ⟨-, -, -, hbatts, -⟩ := hstopped
  obtain ⟨-, -, hmap, -⟩ := hbatts 0
  have hbefore : (unrecordedMap.batt 0).colMap = [(0, 1)] := rfl
  have hafter : (t.batt 0).colMap = [] := by
    have ht : t.batts = (unrecordedMap.powerLoss 1).batts := by
      cases hexec
      rfl
    rw [State.batt, ht, batts_powerLoss rfl]
    rfl
  rw [hafter, hbefore] at hmap
  exact absurd hmap (by decide)

end Sys2Proof.Machine
end


section
/-! Checkpoints: naming and completion (R444, R446, R449, R451, R462). -/
namespace Sys2Proof.Machine

/-! The checkpoint state of a context. -/

theorem regs_updCtx (s : State) (c : Nat) (f : Ctx → Ctx) : (s.updCtx c f).regs = s.regs := rfl

section
variable (s : State) (c : Nat) (f : CkptSt → CkptSt)

theorem ckpt_updCkpt : ((s.updCkpt c f).ctx c).ckpt = f (s.ctx c).ckpt := by
  rw [State.updCkpt, ctx_updCtx_same]

theorem get_updCkpt (g : Fld) (i : Nat) : (s.updCkpt c f).get g i = s.get g i := get_congr rfl g i

theorem logView_updCkpt : (s.updCkpt c f).logView = s.logView := rfl

theorem fr_updCkpt : (s.updCkpt c f).fr = s.fr := rfl
end

/-- The checkpoint in progress and the two generations that stand. -/
def CkptSt.generations (k : CkptSt) : Option CkptRun × Option Generation × Option Generation := (k.run, k.latest, k.previous)

/-! Completion (R446, R449, R451, R462). -/

theorem ckpt_trimLog (s : State) (c : Nat) (k : CkptRun) : ((s.trimLog c k).ctx c).ckpt = (s.ctx c).ckpt := by
  unfold State.trimLog
  extract_lets used keep
  rw [ctx_updCtx_same]

theorem get_trimLog (s : State) (c : Nat) (k : CkptRun) (g : Fld) (i : Nat) : (s.trimLog c k).get g i = s.get g i := by
  unfold State.trimLog
  exact get_congr (regs_updCtx ..) g i

theorem generations_setCost (k : CkptSt) (n : Nat) : ({ k with lastC := n } : CkptSt).generations = k.generations := rfl

theorem generations_setTau (k : CkptSt) (n : Nat) : ({ k with tau := n } : CkptSt).generations = k.generations := rfl

theorem generations_showInterval (s : State) (c : Nat) (t : Template) (cost : Nat) :
    ((s.showInterval c t cost).ctx c).ckpt.generations = (s.ctx c).ckpt.generations := by
  unfold State.showInterval
  extract_lets u tau v
  have hu : (u.ctx c).ckpt.generations = (s.ctx c).ckpt.generations := by
    unfold u
    rw [ctx_put, ckpt_updCkpt, generations_setCost]
  clear_value u
  split
  · rw [ctx_put, ctx_put]
    unfold v
    rw [ctx_put, ckpt_updCkpt, generations_setTau]
    exact hu
  · exact hu

/-- The interval's words hold nothing else. -/
theorem get_showInterval {g : Fld} (htime : F.CKPT_TIME_LAST_C.otherWord g = true) (hmtbf : F.CKPT_MTBF_M.otherWord g = true) (s : State)
    (c : Nat) (t : Template) (cost : Nat) : (s.showInterval c t cost).get g c = s.get g c := by
  have htau : g.addr c ≠ F.CKPT_TIME_TAU.addr c := addr_ne_addr (f := F.CKPT_TIME_LAST_C) htime c
  have hfails : g.addr c ≠ F.CKPT_MTBF_FAILS.addr c := addr_ne_addr (f := F.CKPT_MTBF_M) hmtbf c
  unfold State.showInterval
  extract_lets u tau v
  have hu : u.get g c = s.get g c := (get_put_addr _ (addr_ne_addr htime c) _).trans (get_updCkpt ..)
  split
  · refine (get_put_addr _ hfails _).trans ((get_put_addr _ (addr_ne_addr hmtbf c) _).trans ?_)
    exact (get_put_addr _ htau _).trans ((get_updCkpt ..).trans hu)
  · exact hu

/-- What a checkpoint that completes at the tick leaves of a context, and its report. -/
structure CkptCompleted (c : Nat) (k : CkptRun) (s t : State) : Prop where
  run : (t.ctx c).ckpt.run = none
  latest : (t.ctx c).ckpt.latest = k.snap
  previous : (t.ctx c).ckpt.previous = (s.ctx c).ckpt.latest
  gen : t.get F.CKPT_GEN_GEN c = k.gen % 2 ^ 32
  step : t.get F.CKPT_STEP_LO_STEP c = k.step % 2 ^ 32
  shown : t.get F.CKPT_EVT_DONE c = 1
  logged : LoggedAt 0x0509 6 c k.gen k.step s t

/-- The generations and the registers of a completed checkpoint, before the log and the interval follow. -/
def State.ckptStands (s : State) (c : Nat) (k : CkptRun) : State :=
  let u := s.updCkpt c (fun y => { y with
    run := none, previous := y.latest, latest := k.snap, fresh := decide (k.step + 1 < s.stepNo c) })
  ((u.put F.CKPT_GEN_GEN c k.gen).put F.CKPT_STEP_LO_STEP c (k.step % 2 ^ 32)).put F.CKPT_STEP_HI_STEP c (k.step / 2 ^ 32)

theorem completeCkpt_eq (s : State) (c : Nat) (t : Template) (k : CkptRun) (a : Nat) : s.completeCkpt c t k a =
    ((((s.ckptStands c k).trimLog c k).showInterval c t ((s.ckptStands c k).tickTime - a)).raise F.CKPT_EVT_DONE c).eventAt 0x0509 6 c
      k.gen k.step := rfl

section
variable {c : Nat} (hc : c < 1024) (s : State) (k : CkptRun)
include hc

theorem get_ckptStands : (s.ckptStands c k).get F.CKPT_GEN_GEN c = k.gen % 2 ^ 32 ∧
    (s.ckptStands c k).get F.CKPT_STEP_LO_STEP c = k.step % 2 ^ 32 := by
  unfold State.ckptStands
  extract_lets u
  refine ⟨(get_put_addr _ (addr_ne_addr (by decide) c) _).trans ((get_put_addr _ (addr_ne_addr (by decide) c) _).trans (get_put_same u rfl hc _)), ?_⟩
  exact (get_put_addr _ (addr_ne_addr (by decide) c) _).trans ((get_put_same _ rfl hc _).trans (Nat.mod_mod ..))

theorem completeCkpt_completes (t : Template) (a : Nat) : CkptCompleted c k s (s.completeCkpt c t k a) := by
  rw [completeCkpt_eq]
  have hstands : ((s.ckptStands c k).ctx c).ckpt.generations = (none, k.snap, (s.ctx c).ckpt.latest) := by
    unfold State.ckptStands
    rw [ctx_put, ctx_put, ctx_put, ckpt_updCkpt]
    rfl
  have hview : (s.ckptStands c k).logView = s.logView := by
    unfold State.ckptStands
    rw [logView_put, logView_put, logView_put, logView_updCkpt]
  obtain ⟨hgen, hstep⟩ := get_ckptStands hc s k
  generalize s.ckptStands c k = u at hstands hview hgen hstep ⊢
  have hlater := generations_showInterval (u.trimLog c k) c t (u.tickTime - a)
  have hview' := logView_of_keeps (keeps_showInterval (keeps_trimLog (Keeps.refl 0x2002000 u) rfl) rfl (a1 := c) (a2 := t) (a3 := u.tickTime - a)) rfl rfl rfl
    (s := u) (t := (u.trimLog c k).showInterval c t (u.tickTime - a))
  have hget : ∀ g : Fld, F.CKPT_TIME_LAST_C.otherWord g = true → F.CKPT_MTBF_M.otherWord g = true →
      ((u.trimLog c k).showInterval c t (u.tickTime - a)).get g c = u.get g c := fun g htime hmtbf =>
    (get_showInterval htime hmtbf ..).trans (get_trimLog ..)
  rw [ckpt_trimLog, hstands] at hlater
  generalize (u.trimLog c k).showInterval c t (u.tickTime - a) = v at hlater hview' hget ⊢
  simp only [CkptSt.generations, Prod.mk.injEq] at hlater
  obtain ⟨hrun, hlatest, hprevious⟩ := hlater
  have hctx : (((v.raise F.CKPT_EVT_DONE c).eventAt 0x0509 6 c k.gen k.step).ctx c) = v.ctx c :=
    (ctx_congr ((keeps_eventAt (Keeps.refl 0x421000084 _) rfl).same .ctxs rfl) c).trans (ctx_congr (State.raise_ctxs ..) c)
  have hword : ∀ g : Fld, 0x300000 ≤ g.base → F.CKPT_EVT_DONE.otherWord g = true → F.CKPT_TIME_LAST_C.otherWord g = true →
      F.CKPT_MTBF_M.otherWord g = true → ((v.raise F.CKPT_EVT_DONE c).eventAt 0x0509 6 c k.gen k.step).get g c = u.get g c :=
    fun g hbase hevt htime hmtbf => (get_eventAt (ctxWord_notMem_eventWords hbase c) ..).trans ((get_raise_otherWord _ hevt c).trans (hget g htime hmtbf))
  refine ⟨by rw [hctx, hrun], by rw [hctx, hlatest], by rw [hctx, hprevious], (hword _ (by decide) (by decide) (by decide) (by decide)).trans hgen,
    (hword _ (by decide) (by decide) (by decide) (by decide)).trans hstep, ?_, ?_⟩
  · exact (get_eventAt (ctxWord_notMem_eventWords (by decide) c) ..).trans ((get_raise ..).trans (get_put_same _ rfl hc 1))
  · exact loggedAt_eventAt ((logView_raise ..).trans (hview'.trans hview)) 0x0509 6 c k.gen k.step
end

/-- A checkpoint completes from a state that shows and logs what another did. -/
theorem CkptCompleted.congr_left {c : Nat} {k : CkptRun} {s u t : State} (h : CkptCompleted c k u t)
    (hlatest : (u.ctx c).ckpt.latest = (s.ctx c).ckpt.latest) (hview : u.logView = s.logView) : CkptCompleted c k s t :=
  { h with previous := h.previous.trans hlatest, logged := h.logged.of_logView hview }

/-- Completion with the DONE records that have come since. -/
theorem CkptCompleted.of_done {c : Nat} {k k' : CkptRun} {s t : State} (h : CkptCompleted c k' s t) (hsnap : k'.snap = k.snap)
    (hgen : k'.gen = k.gen) (hstep : k'.step = k.step) : CkptCompleted c k s t := by
  obtain ⟨hrun, hlatest, hprevious, hshown, hlow, hevt, hlogged⟩ := h
  rw [hgen] at hshown hlogged
  rw [hstep] at hlow hlogged
  exact ⟨hrun, hlatest.trans hsnap, hprevious, hshown, hlow, hevt, hlogged⟩

theorem tryComplete_of_missing {s : State} {c : Nat} {k : CkptRun} (hrun : (s.ctx c).ckpt.run = some k) (t : Template)
    (h : k.taken = none ∨ k.members.all (fun m => k.membersDone.contains m) = false) : s.tryComplete c t = s := by
  unfold State.tryComplete
  simp only [hrun]
  rcases h with h | h
  · simp only [h]
  · split
    · rfl
    · rw [h]
      exact if_neg Bool.false_ne_true

theorem tryComplete_completes {s : State} {c : Nat} (hc : c < 1024) {k : CkptRun} (hrun : (s.ctx c).ckpt.run = some k) (t : Template)
    (htaken : k.taken ≠ none) (hall : k.members.all (fun m => k.membersDone.contains m) = true) : CkptCompleted c k s (s.tryComplete c t) := by
  obtain ⟨a, ha⟩ := Option.ne_none_iff_exists'.mp htaken
  have hcomplete : s.tryComplete c t = s.completeCkpt c t k a := by
    unfold State.tryComplete
    simp only [hrun, ha, hall, if_true]
  rw [hcomplete]
  exact completeCkpt_completes hc s k t a

/-! Naming a checkpoint (R444). -/

/-- A checkpoint that is to be taken at the commit of step n. -/
structure CkptNamed (c : Nat) (tm : Template) (n g : Nat) (s t : State) : Prop where
  run : (t.ctx c).ckpt.run = some ⟨n, g, s.takers c tm, none, 0, [], [], [], none⟩
  lastStart : (t.ctx c).ckpt.lastStart = some s.tickTime
  lastGen : (t.ctx c).ckpt.lastGen = max (s.ctx c).ckpt.lastGen g

theorem nameCkpt_names (s : State) (c : Nat) (tm : Template) (n g : Nat) : CkptNamed c tm n g s (s.nameCkpt c tm n g) := by
  unfold State.nameCkpt
  constructor <;> rw [ckpt_updCkpt]

theorem CkptNamed.of_ctx {c n g : Nat} {tm : Template} {s u t : State} (h : CkptNamed c tm n g s u) (hctx : t.ctx c = u.ctx c) :
    CkptNamed c tm n g s t := by
  obtain ⟨hrun, hstart, hgen⟩ := h
  exact ⟨hctx ▸ hrun, hctx ▸ hstart, hctx ▸ hgen⟩

theorem length_records_toMembers {s : State} {c : Nat} {tm : Template} (h : s.template c = some tm) (kind : Nat) (l : List Nat) :
    (s.toMembers c kind l).fr.records.length = s.fr.records.length + 1 := by
  unfold State.toMembers
  simp only [h, List.length_append, List.length_cons, List.length_nil]

section
variable {s : State} {c : Nat} {tm : Template} (htemplate : s.template c = some tm)
include htemplate

theorem ckptStart_names (halive : s.fr.killed = none) (hwindow : (s.ctx c).window = s.frame + 1) (hleads : s.leads c tm = true)
    (hdue : s.ckptDue c tm = true) : Completes (.ckptStart c) s (fun t =>
      CkptNamed c tm (s.stepNo c + 1) ((s.ctx c).ckpt.lastGen + 1) s t ∧
      t.fr.records.length = s.fr.records.length + if tm.multi then 1 else 0) := by
  have hexec : exec (.ckptStart c) s = .next (if tm.multi then (s.nameCkpt c tm (s.stepNo c + 1) ((s.ctx c).ckpt.lastGen + 1)).toMembers c 1
      (State.recBytes (s.stepNo c + 1) 0 8 ((s.nameCkpt c tm (s.stepNo c + 1) ((s.ctx c).ckpt.lastGen + 1)).ownCtxIdx tm)
        (((s.ctx c).ckpt.lastGen + 1) % 2 ^ 32) 0 0) else s.nameCkpt c tm (s.stepNo c + 1) ((s.ctx c).ckpt.lastGen + 1)) := by
    show execCkptStart c s = _
    unfold execCkptStart
    simp only [htemplate]
    exact congrArg Host.Outcome.next (if_pos ⟨halive, hwindow, hleads, hdue⟩)
  have hnamed := nameCkpt_names s c tm (s.stepNo c + 1) ((s.ctx c).ckpt.lastGen + 1)
  have hkeeps := keeps_nameCkpt (Keeps.refl 0x2000000 s) rfl (a1 := c) (a2 := tm) (a3 := s.stepNo c + 1) (a4 := (s.ctx c).ckpt.lastGen + 1)
  have htemplate' := (template_congr (hkeeps.same .img rfl) c).trans htemplate
  have hfr : (s.nameCkpt c tm (s.stepNo c + 1) ((s.ctx c).ckpt.lastGen + 1)).fr = s.fr := hkeeps.same .fr rfl
  refine ⟨_, hexec, ?_⟩
  clear hexec hkeeps
  generalize s.nameCkpt c tm (s.stepNo c + 1) ((s.ctx c).ckpt.lastGen + 1) = u at hnamed htemplate' hfr ⊢
  by_cases hmulti : tm.multi = true
  · rw [if_pos hmulti, if_pos hmulti]
    exact ⟨hnamed.of_ctx (ctx_toMembers ..), by rw [length_records_toMembers htemplate', hfr]⟩
  · rw [if_neg hmulti, if_neg hmulti]
    exact ⟨hnamed, by rw [hfr]; rfl⟩

theorem exec_ckpt {o : StepRec} (hctx : o.head.ctx = c) (hopen : s.vcOpen o.head.vc = true) : exec (.ckpt o) s = .next
    (if (s.ctx c).ckpt.run.isSome ∨ o.step < s.stepNo c then s.staleRec c
    else if s.holders c = [] then s else s.nameCkpt c tm o.step o.arg) := by
  subst hctx
  refine congrArg Host.Outcome.next ((if_pos hopen).trans ?_)
  unfold State.takeCkptRec
  simp only [htemplate]

theorem ckpt_names {o : StepRec} (hc : c < 1024) (hctx : o.head.ctx = c) (hopen : s.vcOpen o.head.vc = true) :
    ((s.ctx c).ckpt.run = none → s.stepNo c ≤ o.step → s.holders c ≠ [] → Completes (.ckpt o) s (CkptNamed c tm o.step o.arg s)) ∧
      ((s.ctx c).ckpt.run = none → s.stepNo c ≤ o.step → s.holders c = [] → Completes (.ckpt o) s (fun t => t = s)) ∧
      ((s.ctx c).ckpt.run ≠ none ∨ o.step < s.stepNo c → Completes (.ckpt o) s (Advanced F.EXCH_STALE_STALE c 1 s)) := by
  have hexec := exec_ckpt htemplate hctx hopen
  refine ⟨fun hnone hstep hheld => ⟨_, hexec, ?_⟩, fun hnone hstep hheld => ⟨_, hexec, ?_⟩, fun hstale => ⟨_, hexec, ?_⟩⟩
  · rw [if_neg (by simp [hnone, hstep]), if_neg hheld]
    exact nameCkpt_names ..
  · rw [if_neg (by simp [hnone, hstep]), if_pos hheld]
  · rw [if_pos (hstale.imp_left fun hsome => Option.isSome_iff_ne_none.mpr hsome)]
    exact advanced_bump rfl hc 1 s
end

end Sys2Proof.Machine
end


section
/-! DONE records of holders and of members, and the module that holds its own checkpoints (R446, R447). -/
namespace Sys2Proof.Machine

/-! A checkpoint with the DONE of a holder or of a member (R446). -/

def CkptRun.holderDone (k : CkptRun) (h : Nat) : CkptRun :=
  { k with holdersDone := if k.holdersDone.contains h then k.holdersDone else k.holdersDone ++ [h] }

def CkptRun.memberDone (k : CkptRun) (m : Nat) : CkptRun :=
  { k with membersDone := if k.membersDone.contains m then k.membersDone else k.membersDone ++ [m] }

theorem holderDone_new {k : CkptRun} {h : Nat} (hnew : h ∉ k.holdersDone) : k.holderDone h = { k with holdersDone := k.holdersDone ++ [h] } := by
  rw [CkptRun.holderDone, if_neg (by simpa using hnew)]

theorem memberDone_new {k : CkptRun} {m : Nat} (hnew : m ∉ k.membersDone) : k.memberDone m = { k with membersDone := k.membersDone ++ [m] } := by
  rw [CkptRun.memberDone, if_neg (by simpa using hnew)]

theorem mem_holderDone (k : CkptRun) (h : Nat) : h ∈ (k.holderDone h).holdersDone := by
  unfold CkptRun.holderDone
  dsimp only
  split
  · next hmem => exact List.contains_iff_mem.mp hmem
  · exact List.mem_append_right _ (.head _)

theorem all_memberDone {k : CkptRun} {m : Nat} (h : ∀ i ∈ k.members, i = m ∨ i ∈ k.membersDone) :
    (k.memberDone m).members.all (fun i => (k.memberDone m).membersDone.contains i) = true := by
  rw [List.all_eq_true]
  intro i hi
  rw [List.contains_iff_mem]
  unfold CkptRun.memberDone
  dsimp only
  split
  · next hm => exact (h i hi).elim (fun heq => heq ▸ List.contains_iff_mem.mp hm) id
  · exact (h i hi).elim (fun heq => by simp [heq]) fun hdone => List.mem_append_left _ hdone

/-- The context with its checkpoint in progress as k. -/
def State.running (s : State) (c : Nat) (k : CkptRun) : State := s.updCkpt c (fun y => { y with run := some k })

section
variable (s : State) (c : Nat) (k : CkptRun)

theorem ckpt_running : ((s.running c k).ctx c).ckpt = { (s.ctx c).ckpt with run := some k } := ckpt_updCkpt ..

theorem running_running (k' : CkptRun) : ((s.running c k).running c k').ctx c = (s.running c k').ctx c := by
  rw [State.running, State.running, State.running, State.updCkpt, State.updCkpt, State.updCkpt, ctx_updCtx_same, ctx_updCtx_same, ctx_updCtx_same]

theorem holders_running : (s.running c k).holders c = s.holders c := by
  have hown : (s.running c k).ownId = s.ownId := get_updCkpt ..
  have himg : (s.running c k).img = s.img := rfl
  unfold State.holders
  rw [ckpt_running, hown, himg]
end

/-- The last DONE of a member completes the checkpoint. -/
theorem memberDone_completes {s u : State} {c : Nat} (hc : c < 1024) {k : CkptRun} (t : Template) (htaken : k.taken ≠ none) {m : Nat}
    (h : ∀ i ∈ k.members, i = m ∨ i ∈ k.membersDone) (hrun : (u.ctx c).ckpt.run = some (k.memberDone m))
    (hlatest : (u.ctx c).ckpt.latest = (s.ctx c).ckpt.latest) (hview : u.logView = s.logView) : CkptCompleted c k s (u.tryComplete c t) :=
  ((tryComplete_completes hc hrun t htaken (all_memberDone h)).of_done (k := k) rfl rfl rfl).congr_left hlatest hview

theorem holderHas_eq {s : State} {c : Nat} {k : CkptRun} (hrun : (s.ctx c).ckpt.run = some k) (t : Template) (h : Nat) :
    s.holderHas c t h = (if ((s.running c (k.holderDone h)).holders c).all (fun i => (k.holderDone h).holdersDone.contains i) ∧
        (k.holderDone h).membersDone.contains (s.takerIdx t) = false then
      let u := (s.running c (k.holderDone h)).running c { k.holderDone h with membersDone := (k.holderDone h).membersDone ++ [s.takerIdx t] }
      (if t.multi then u.toMembers c 1 (State.recBytes k.step 0 9 (u.ownCtxIdx t) 0 0 0) else u).tryComplete c t
    else s.running c (k.holderDone h)) := by
  unfold State.holderHas
  simp only [hrun]
  rfl

/-- The DONE that the module sends of its own, once every holder has its set, is the last one missing. -/
theorem holderHas_completes {s : State} {c : Nat} (hc : c < 1024) {k : CkptRun} (hrun : (s.ctx c).ckpt.run = some k) (t : Template)
    (htaken : k.taken ≠ none) {h : Nat} (hholders : ∀ i ∈ s.holders c, i = h) (hme : s.takerIdx t ∉ k.membersDone)
    (hall : ∀ i ∈ k.members, i = s.takerIdx t ∨ i ∈ k.membersDone) : CkptCompleted c k s (s.holderHas c t h) := by
  have hheld : ((s.running c (k.holderDone h)).holders c).all (fun i => (k.holderDone h).holdersDone.contains i) = true := by
    rw [holders_running, List.all_eq_true]
    intro i hi
    rw [hholders i hi, List.contains_iff_mem]
    exact mem_holderDone k h
  have hnew : (k.holderDone h).membersDone.contains (s.takerIdx t) = false :=
    (by simpa using hme : k.membersDone.contains (s.takerIdx t) = false)
  rw [holderHas_eq hrun, if_pos ⟨hheld, hnew⟩]
  extract_lets x u
  have hu : (u.ctx c).ckpt = { (s.ctx c).ckpt with run := some ((k.holderDone h).memberDone (s.takerIdx t)) } := by
    rw [memberDone_new (k := k.holderDone h) hme]
    exact (congrArg Ctx.ckpt (running_running ..)).trans (ckpt_running ..)
  have hview : u.logView = s.logView := rfl
  clear_value u
  have hsent : ((if t.multi then u.toMembers c 1 (State.recBytes k.step 0 9 (u.ownCtxIdx t) 0 0 0) else u).ctx c).ckpt = (u.ctx c).ckpt ∧
      (if t.multi then u.toMembers c 1 (State.recBytes k.step 0 9 (u.ownCtxIdx t) 0 0 0) else u).logView = u.logView := by
    split
    · exact ⟨congrArg Ctx.ckpt (ctx_toMembers ..), logView_of_keeps (keeps_toMembers (Keeps.refl 0x800000 u) rfl) rfl rfl rfl⟩
    · exact ⟨rfl, rfl⟩
  obtain ⟨hckpt, hlog⟩ := hsent
  exact (memberDone_completes (k := k.holderDone h) hc t htaken hall (by rw [hckpt, hu]) (by rw [hckpt, hu]) (hlog.trans hview)).of_done
    rfl rfl rfl

section
variable {s : State} {c : Nat} {tm : Template} (htemplate : s.template c = some tm) {k : CkptRun} (hrun : (s.ctx c).ckpt.run = some k)
  {o : StepRec} (hctx : o.head.ctx = c) (hopen : s.vcOpen o.head.vc = true)
include htemplate hrun hctx hopen

theorem exec_done : exec (.done o) s = .next
    (if k.step % 2 ^ 48 ≠ o.step then s.staleRec c
    else if o.holder then (if (s.holders c).contains o.sender ∧ k.taken.isSome then s.holderHas c tm o.sender else s)
    else (s.running c (k.memberDone o.sender)).tryComplete c tm) := by
  subst hctx
  refine congrArg Host.Outcome.next ((if_pos hopen).trans ?_)
  unfold State.takeDone
  simp only [htemplate, hrun]
  rfl

theorem done_ofHolder (hstep : k.step % 2 ^ 48 = o.step) (hholder : o.holder = true) (hheld : o.sender ∈ s.holders c) (htaken : k.taken ≠ none)
    (hnew : o.sender ∉ k.holdersDone) (hmore : ∃ h ∈ s.holders c, h ≠ o.sender ∧ h ∉ k.holdersDone) :
    Completes (.done o) s (fun t => (t.ctx c).ckpt.run = some { k with holdersDone := k.holdersDone ++ [o.sender] }) := by
  have hmissing : ((s.running c (k.holderDone o.sender)).holders c).all (fun i => (k.holderDone o.sender).holdersDone.contains i) ≠ true := by
    obtain ⟨h, hmem, hother, hopen'⟩ := hmore
    rw [holders_running, holderDone_new hnew]
    intro hall
    have hdone := List.contains_iff_mem.mp (List.all_eq_true.mp hall h hmem)
    exact (List.mem_append.mp hdone).elim hopen' fun hlast => hother (List.mem_singleton.mp hlast)
  have hexec := exec_done htemplate hrun hctx hopen
  rw [if_neg (not_not.mpr hstep), if_pos hholder, if_pos ⟨List.contains_iff_mem.mpr hheld, Option.isSome_iff_ne_none.mpr htaken⟩,
    holderHas_eq hrun, if_neg fun h => hmissing h.1] at hexec
  refine ⟨_, hexec, ?_⟩
  dsimp only
  rw [ckpt_running, holderDone_new hnew]

theorem done_ofMember (hstep : k.step % 2 ^ 48 = o.step) (hholder : o.holder = false) (htaken : k.taken = none) (hnew : o.sender ∉ k.membersDone) :
    Completes (.done o) s (fun t => (t.ctx c).ckpt.run = some { k with membersDone := k.membersDone ++ [o.sender] }) := by
  have hexec := exec_done htemplate hrun hctx hopen
  rw [if_neg (not_not.mpr hstep), if_neg (by simp [hholder]),
    tryComplete_of_missing (k := k.memberDone o.sender) (by rw [ckpt_running]) tm (.inl htaken)] at hexec
  refine ⟨_, hexec, ?_⟩
  dsimp only
  rw [ckpt_running, memberDone_new hnew]

theorem done_ofLastMember (hc : c < 1024) (hstep : k.step % 2 ^ 48 = o.step) (hholder : o.holder = false) (htaken : k.taken ≠ none)
    (hall : ∀ m ∈ k.members, m = o.sender ∨ m ∈ k.membersDone) : Completes (.done o) s (CkptCompleted c k s) := by
  have hexec := exec_done htemplate hrun hctx hopen
  rw [if_neg (not_not.mpr hstep), if_neg (by simp [hholder])] at hexec
  exact ⟨_, hexec, memberDone_completes hc tm htaken hall (by rw [ckpt_running]) (by rw [ckpt_running]) (logView_updCkpt ..)⟩

theorem done_stale (hc : c < 1024) (hstep : k.step % 2 ^ 48 ≠ o.step) : Completes (.done o) s (Advanced F.EXCH_STALE_STALE c 1 s) := by
  have hexec := exec_done htemplate hrun hctx hopen
  rw [if_pos hstep] at hexec
  exact ⟨_, hexec, advanced_bump rfl hc 1 s⟩
end

/-! Holders (R446, R447). -/

theorem holderDone_records {s : State} {o : HolderOp} (hother : o.source ≠ s.ownId)
    (hholds : (tget (⟨0, [], 0, 0⟩ : TopoEntry) s.img.accepted.topo o.source).holder0 = s.ownId ∨
      s.img.accepted.holders = 2 ∧ (tget (⟨0, [], 0, 0⟩ : TopoEntry) s.img.accepted.topo o.source).holder1 = s.ownId)
    (hpromised : 0 < o.promised) (hlanded : o.promised ≤ o.landed) : Completes (.holderDone o) s (fun t => t.fr.records = s.fr.records ++
      [⟨o.ctx, s.gen o.ctx, 1, [o.source], State.recBytes o.step 0 9 (s.ownId + 2 ^ 17) 0 0 0⟩]) :=
  ⟨_, congrArg Host.Outcome.next (if_pos ⟨hother, hholds, hpromised, hlanded⟩), rfl⟩

/-- A system of one module holds its own checkpoints (R441). -/
theorem eq_ownId_of_mem_holders {s : State} {c h : Nat} (hone : s.img.accepted.modules ≤ 1) (hmem : h ∈ s.holders c) : h = s.ownId := by
  unfold State.holders at hmem
  extract_lets g t l at hmem
  have hl : l = [s.ownId] := if_pos hone
  rw [hl] at hmem
  exact List.mem_singleton.mp (List.mem_filter.mp hmem).1

theorem selfHoldCopyDone_completes {s : State} {c : Nat} (hc : c < 1024) {tm : Template} (htemplate : s.template c = some tm) {k : CkptRun}
    (hrun : (s.ctx c).ckpt.run = some k) (htaken : k.taken ≠ none) (halive : s.fr.killed = none) (hone : s.img.accepted.modules ≤ 1)
    (hme : s.takerIdx tm ∉ k.membersDone) (hall : ∀ m ∈ k.members, m = s.takerIdx tm ∨ m ∈ k.membersDone) :
    Completes (.selfHoldCopyDone c) s (CkptCompleted c k s) := by
  have hexec : exec (.selfHoldCopyDone c) s = .next (s.holderHas c tm s.ownId) := by
    show execSelfHoldCopyDone c s = _
    unfold execSelfHoldCopyDone
    simp only [htemplate, hrun]
    exact congrArg Host.Outcome.next (if_pos ⟨halive, hone, Option.isSome_iff_ne_none.mpr htaken⟩)
  exact ⟨_, hexec, holderHas_completes hc hrun tm htaken (fun i hi => eq_ownId_of_mem_holders hone hi) hme hall⟩

end Sys2Proof.Machine
end


section
/-! Checkpoints that are abandoned, probes, exports and completed loads (R384, R448, R453, R455, R459). -/
namespace Sys2Proof.Machine

/-! Abandonment (R448). -/

/-- What a checkpoint that is abandoned at the tick leaves of a context, and its report. -/
structure CkptAbandoned (c cause : Nat) (s t : State) : Prop where
  run : (t.ctx c).ckpt.run = none
  latest : (t.ctx c).ckpt.latest = (s.ctx c).ckpt.latest
  counted : Advanced F.CKPT_STATS_ABANDONED c 1 s t
  shown : t.get F.CKPT_EVT_FAILED c = 1
  logged : ∃ d, LoggedAt 0x050A 6 c cause d s t

section
variable {c : Nat} (hc : c < 1024) {s : State} {k : CkptRun} (hrun : (s.ctx c).ckpt.run = some k)
include hc hrun

theorem abandonCkpt_abandons (cause : Nat) : CkptAbandoned c cause s (s.abandonCkpt c cause) := by
  have hctx := ctx_abandonCkpt s c cause
  refine ⟨by rw [hctx], by rw [hctx], ?_, ?_, ?_⟩
  all_goals
    unfold State.abandonCkpt
    simp only [hrun]
    have hregs := regs_updCtx s c (fun x => { x with ckpt := { x.ckpt with run := none } })
    have hview : (s.updCtx c (fun x => { x with ckpt := { x.ckpt with run := none } })).logView = s.logView := rfl
    generalize s.updCtx c (fun x => { x with ckpt := { x.ckpt with run := none } }) = u at hregs hview ⊢
  · refine ((advanced_bump (f := F.CKPT_STATS_ABANDONED) rfl hc 1 u).congr_left (get_congr hregs ..)).of_get_eq ?_
    exact (get_eventAtD0 (ctxWord_notMem_eventWords (by decide) c) ..).trans (get_raise_otherWord _ (by decide) c)
  · exact (get_eventAtD0 (ctxWord_notMem_eventWords (by decide) c) ..).trans ((get_raise ..).trans (get_put_same _ rfl hc 1))
  · obtain ⟨d, hlogged⟩ := loggedAt_eventAtD0 ((u.bump F.CKPT_STATS_ABANDONED c 1).raise F.CKPT_EVT_FAILED c) 0x050A 6 c cause
    exact ⟨d, hlogged.of_logView ((logView_raise ..).trans ((logView_bump ..).trans hview))⟩

theorem ckptLimitExpiry_abandons (htaken : k.taken ≠ none) (hpast : k.tFrame + s.pol 0x84 ≤ s.frame + 1) :
    Completes (.ckptLimitExpiry c) s (CkptAbandoned c 4 s) := by
  refine ⟨s.abandonCkpt c 4, ?_, abandonCkpt_abandons hc hrun 4⟩
  show execCkptLimitExpiry c s = _
  unfold execCkptLimitExpiry
  simp only [hrun]
  exact congrArg Host.Outcome.next (if_pos ⟨Option.isSome_iff_ne_none.mpr htaken, hpast⟩)
end

/-- The context without a holder, and without its checkpoint if that still waited for the holder. -/
def State.holderLost (s : State) (c m : Nat) : State := s.updCkpt c (fun k => { k with lostHolders := k.lostHolders ++ [m] })

theorem notMem_holders {s : State} {c m : Nat} (h : m ∈ (s.ctx c).ckpt.lostHolders) : m ∉ s.holders c := by
  intro hmem
  unfold State.holders at hmem
  have hkept := (List.mem_filter.mp hmem).2
  rw [List.contains_iff_mem.mpr h] at hkept
  exact Bool.false_ne_true hkept

section
variable {s : State} {c : Nat} (hc : c < 1024) {tm : Template} (htemplate : s.template c = some tm) {k : CkptRun}
  (hrun : (s.ctx c).ckpt.run = some k)
include htemplate hrun

section
variable {m : Nat} (hheld : m ∈ s.holders c) (hother : m ≠ s.ownId)
include hheld hother

theorem exec_ckptAbandon_holder : exec (.ckptAbandon c 1 m) s = .next
    (if k.holdersDone.contains m then s.holderLost c m else (s.holderLost c m).abandonCkpt c 1) := by
  show execCkptAbandon c 1 m s = _
  unfold execCkptAbandon
  simp only [htemplate, hrun]
  exact congrArg Host.Outcome.next (if_pos ⟨List.contains_iff_mem.mpr hheld, hother⟩)

include hc in
/-- The loss of a holder that has not the whole set ends the checkpoint. -/
theorem ckptAbandon_ofHolder (hmissing : m ∉ k.holdersDone) :
    Completes (.ckptAbandon c 1 m) s (fun t => CkptAbandoned c 1 s t ∧ m ∉ t.holders c) := by
  have hexec := exec_ckptAbandon_holder htemplate hrun hheld hother
  rw [if_neg (by simpa using hmissing)] at hexec
  have hckpt : ((s.holderLost c m).ctx c).ckpt = { (s.ctx c).ckpt with lostHolders := (s.ctx c).ckpt.lostHolders ++ [m] } := ckpt_updCkpt ..
  have hregs : (s.holderLost c m).regs = s.regs := rfl
  have hview : (s.holderLost c m).logView = s.logView := rfl
  generalize s.holderLost c m = u at hexec hckpt hregs hview
  obtain ⟨hnone, hlatest, hcount, hshown, d, hlogged⟩ := abandonCkpt_abandons hc (s := u) (k := k) (by rw [hckpt]; exact hrun) 1
  refine ⟨_, hexec, ⟨hnone, hlatest.trans (by rw [hckpt]), hcount.congr_left (get_congr hregs ..), hshown, d, hlogged.of_logView hview⟩, ?_⟩
  refine notMem_holders ?_
  rw [ctx_abandonCkpt, hckpt]
  exact List.mem_append_right _ (.head _)

/-- A holder that has the whole set may go. -/
theorem ckptAbandon_ofDoneHolder (hdone : m ∈ k.holdersDone) :
    Completes (.ckptAbandon c 1 m) s (fun t => (t.ctx c).ckpt.run = some k ∧ m ∉ t.holders c) := by
  have hexec := exec_ckptAbandon_holder htemplate hrun hheld hother
  rw [if_pos (List.contains_iff_mem.mpr hdone)] at hexec
  have hckpt : ((s.holderLost c m).ctx c).ckpt = { (s.ctx c).ckpt with lostHolders := (s.ctx c).ckpt.lostHolders ++ [m] } := ckpt_updCkpt ..
  refine ⟨_, hexec, by rw [hckpt]; exact hrun, notMem_holders ?_⟩
  rw [hckpt]
  exact List.mem_append_right _ (.head _)
end

include hc

theorem ckptAbandon_ofMember (m : Nat) {i : Nat} (hmember : i ∈ k.members) (hlost : s.isLost c (tm.members.getD i 0) = true) :
    Completes (.ckptAbandon c 2 m) s (CkptAbandoned c 2 s) := by
  refine ⟨s.abandonCkpt c 2, ?_, abandonCkpt_abandons hc hrun 2⟩
  show execCkptAbandon c 2 m s = _
  unfold execCkptAbandon
  simp only [htemplate, hrun]
  exact congrArg Host.Outcome.next (if_pos (List.any_eq_true.mpr ⟨i, hmember, hlost⟩))

theorem ckptAbandon_ofRestore (m : Nat) (hlive : s.ctxLive c = 5 ∨ s.ctxLive c = 1) :
    Completes (.ckptAbandon c 3 m) s (CkptAbandoned c 3 s) := by
  refine ⟨s.abandonCkpt c 3, ?_, abandonCkpt_abandons hc hrun 3⟩
  show execCkptAbandon c 3 m s = _
  unfold execCkptAbandon
  simp only [htemplate]
  exact congrArg Host.Outcome.next (if_pos hlive)

theorem ckptAbandon_ofFault (m : Nat) (hlive : s.ctxLive c = 6) : Completes (.ckptAbandon c 7 m) s (CkptAbandoned c 7 s) := by
  refine ⟨s.abandonCkpt c 7, ?_, abandonCkpt_abandons hc hrun 7⟩
  show execCkptAbandon c 7 m s = _
  unfold execCkptAbandon
  simp only [htemplate]
  exact congrArg Host.Outcome.next (if_pos hlive)
end

/-! The probe (R459). -/

theorem sameBut_updCtx (s : State) (c : Nat) (f : Ctx → Ctx) : SameBut [.ctxs] s (s.updCtx c f) := by
  have hkeeps : Keeps (maskList [.ctxs]) s (s.updCtx c f) := keeps_updCtx (Keeps.refl _ s) rfl
  exact fun p hp => hkeeps.same p (testBit_maskList hp)

theorem probe_notes {s : State} {c : Nat} {k : CkptRun} (hrun : (s.ctx c).ckpt.run = some k) {g : Generation} (hsnap : k.snap = some g)
    (hsamples : g.samples ≠ []) (v : Word) : Completes (.probe c v) s (fun t =>
      (t.ctx c).ckpt.run = some { k with snap := some { g with probe := some v } } ∧ SameBut [.ctxs] s t) := by
  refine ⟨_, rfl, ?_, sameBut_updCtx s c _⟩
  rw [ckpt_updCkpt, hrun]
  simp only [hsnap, Option.map_some, if_neg hsamples]

/-! Exports (R453, R455). -/

theorem exportDue_setExports (s : State) (c d : Nat) (l : List ExportRun) : ((s.setExports c l).ctx d).exportDue = (s.ctx d).exportDue := by
  rw [State.setExports, ctx_updCtx]
  split
  case isTrue h => rw [h]
  case isFalse => rfl

/-- What is started stands last among its context's exports, and the next one's time is as it was. -/
theorem startExport_ends (s : State) (c size session port tag : Nat) :
    ((s.startExport c size session port tag).ctx c).exportDue = (s.ctx c).exportDue ∧
      ∃ l set_ key, (s.startExport c size session port tag).exports c =
        l ++ [⟨(s.ctx c).ckpt.nextExportId, s.gen c, 0, set_, key, size, 0, session, port, tag, 0, true, false⟩] := by
  have hnext := makeRoom_keeps (fun u => (u.ctx c).ckpt.nextExportId) (fun u d l => ctx_setExports_nextExportId u d c l) s size
  have hdue := makeRoom_keeps (fun u => (u.ctx c).exportDue) (fun u d l => exportDue_setExports u d c l) s size
  have hgen : (s.makeRoom size).gen c = s.gen c := get_congr (makeRoom_keeps (fun u => u.regs) (fun _ _ _ => rfl) s size) ..
  rw [← hnext, ← hdue, ← hgen, State.exports]
  unfold State.startExport
  generalize s.makeRoom size = m
  rw [ctx_updCtx_same]
  exact ⟨rfl, (m.ctx c).ckpt.exports, m.draw % 2 ^ 128, m.drawn.draw % 2 ^ 256, rfl⟩

section
variable {s : State} {c : Nat} {tm : Template} (htemplate : s.template c = some tm)
  (hstate : (2 ≤ s.ctxState c ∧ s.ctxState c ≤ 4) ∨ s.ctxState c = 6) (hphase : s.phase = 1)
  (hpast : max (s.ctx c).exportDue ((s.ctx c).ckpt.sinceReady.getD 0) + tm.exportPeriod * State.second ≤ s.now)
include htemplate hstate hphase hpast

theorem exec_exportScheduled (n : Nat) : exec (.exportScheduled c n) s = .next
    (let u := s.updCtx c (fun x => { x with exportDue := s.now })
    if u.exportUsed + n ≤ u.exportArea then u.startExport c n tm.exportSession (u.hostPort tm.exportSession) 0
    else ((u.bump F.CKPT_STATS_EXPORTS_SKIPPED c 1).raise F.CKPT_EVT_FAILED c).eventD0 0x050A 6 c 5) := by
  show execExportScheduled c n s = _
  unfold execExportScheduled
  simp only [htemplate]
  exact congrArg Host.Outcome.next (if_pos ⟨hstate, hphase, hpast⟩)

theorem exportScheduled_starts {n : Nat} (hfits : (s.updCtx c (fun x => { x with exportDue := s.now })).exportUsed + n ≤ s.exportArea) :
    Completes (.exportScheduled c n) s (fun t => (t.ctx c).exportDue = s.now ∧ ∃ l set_ key, t.exports c = l ++
      [⟨(s.ctx c).ckpt.nextExportId, s.gen c, 0, set_, key, n, 0, tm.exportSession, s.hostPort tm.exportSession, 0, 0, true, false⟩]) := by
  refine ⟨_, (exec_exportScheduled htemplate hstate hphase hpast n).trans (congrArg Host.Outcome.next (if_pos hfits)), ?_⟩
  obtain ⟨hdue, l, set_, key, hexports⟩ := startExport_ends (s.updCtx c (fun x => { x with exportDue := s.now })) c n tm.exportSession
    (s.hostPort tm.exportSession) 0
  rw [ctx_updCtx_same] at hdue hexports
  exact ⟨hdue, l, set_, key, hexports⟩

theorem exportScheduled_skips (hc : c < 1024) {n : Nat}
    (hfull : s.exportArea < (s.updCtx c (fun x => { x with exportDue := s.now })).exportUsed + n) :
    Completes (.exportScheduled c n) s (fun t => t.exports c = s.exports c ∧ Advanced F.CKPT_STATS_EXPORTS_SKIPPED c 1 s t ∧
      t.get F.CKPT_EVT_FAILED c = 1 ∧ ∃ d, Logged 0x050A 6 c 5 d s t) := by
  refine ⟨_, (exec_exportScheduled htemplate hstate hphase hpast n).trans (congrArg Host.Outcome.next (if_neg (Nat.not_le.mpr hfull))), ?_⟩
  have hregs := regs_updCtx s c (fun x => { x with exportDue := s.now })
  have hexports : (s.updCtx c (fun x => { x with exportDue := s.now })).exports c = s.exports c := by
    rw [State.exports, ctx_updCtx_same]
    rfl
  have hview : (s.updCtx c (fun x => { x with exportDue := s.now })).logView = s.logView := rfl
  dsimp only
  generalize s.updCtx c (fun x => { x with exportDue := s.now }) = u at hregs hexports hview ⊢
  have hevent : ∀ g : Fld, 0x300000 ≤ g.base → (((u.bump F.CKPT_STATS_EXPORTS_SKIPPED c 1).raise F.CKPT_EVT_FAILED c).eventD0 0x050A 6 c 5).get g c =
      ((u.bump F.CKPT_STATS_EXPORTS_SKIPPED c 1).raise F.CKPT_EVT_FAILED c).get g c :=
    fun g hbase => get_event (ctxWord_notMem_eventWords hbase c) ..
  refine ⟨?_, ?_, (hevent _ (by decide)).trans ((get_raise ..).trans (get_put_same _ rfl hc 1)),
    ((u.bump F.CKPT_STATS_EXPORTS_SKIPPED c 1).raise F.CKPT_EVT_FAILED c).draw, ?_⟩
  · refine Eq.trans ?_ hexports
    rw [State.exports, ctx_congr ((keeps_eventD0 (Keeps.refl 0xC21000084 _) rfl).same .ctxs rfl), ctx_congr (State.raise_ctxs ..),
      ctx_congr (State.bump_ctxs ..), State.exports]
  · exact ((advanced_bump rfl hc 1 u).congr_left (get_congr hregs ..)).of_get_eq ((hevent _ (by decide)).trans (get_raise_otherWord _ (by decide) c))
  · exact (logged_event ((u.bump F.CKPT_STATS_EXPORTS_SKIPPED c 1).raise F.CKPT_EVT_FAILED c).drawn 0x050A 6 c 5 _).of_logView
      ((logView_raise ..).trans ((logView_bump ..).trans hview))
end

theorem exportHoldExpiry_displaces (s : State) (c i : Nat) : Completes (.exportHoldExpiry c i) s (fun t => SameBut [.ctxs] s t ∧
    ∀ x ∈ s.exports c,
      (x.id = i → x.busy = false → x.lastSent + s.pol 0x8C * State.second ≤ s.now → { x with displaceable := true } ∈ t.exports c) ∧
      (x.id ≠ i ∨ x.busy = true ∨ s.now < x.lastSent + s.pol 0x8C * State.second → x ∈ t.exports c)) := by
  refine ⟨_, rfl, sameBut_updCtx s c _, fun x hx => ?_⟩
  rw [State.exports, State.setExports, ctx_updCtx_same]
  refine ⟨fun hid hidle hpast => List.mem_map.mpr ⟨x, hx, if_pos ⟨hid, hidle, hpast⟩⟩, fun hkept => List.mem_map.mpr ⟨x, hx, if_neg ?_⟩⟩
  rintro ⟨hid, hidle, hpast⟩
  rcases hkept with hother | hbusy | hlater
  · exact hother hid
  · exact Bool.false_ne_true (hidle.symm.trans hbusy)
  · exact absurd hpast (Nat.not_le.mpr hlater)

/-! A completed load (R384). -/

theorem minVtime_congr {s t : State} (hctxs : t.ctxs = s.ctxs) (hvis : t.vis = s.vis) : t.minVtime = s.minVtime := by
  have hserving : ∀ c, t.serving c = s.serving c := fun c => by
    rw [State.serving, State.serving, State.ctxState, State.ctxState, seen_congr hvis]
  simp only [State.minVtime, hctxs, hserving]

/-- The context is READY, and its load has ended. -/
def State.loadEnded (s : State) (c : Nat) : State :=
  (s.enterReady c).updCtx c (fun x => { x with
    loading := none, trained := 0, ckpt := { x.ckpt with sinceReady := some (x.ckpt.sinceReady.getD s.tickTime), lastStart := none } })

theorem loadEnded_readies (s : State) {c : Nat} (hc : c < 1024) : (s.loadEnded c).ctxLive c = 2 ∧ ((s.loadEnded c).ctx c).loading = none ∧
    ((s.loadEnded c).ctx c).vtime = s.minVtime ∧ (s.loadEnded c).fr = s.fr ∧ (s.loadEnded c).gen c = s.gen c := by
  obtain ⟨hlive, -, -, hvtime⟩ := enterReady_readies s hc
  have hfr : (s.enterReady c).fr = s.fr := (keeps_enterReady (Keeps.refl 0x2002000 s) rfl).same .fr rfl
  have hgen : (s.enterReady c).gen c = s.gen c :=
    (get_put_apart _ rfl rfl rfl ..).trans ((get_put_apart _ rfl rfl rfl ..).trans (get_put_apart _ rfl rfl rfl ..))
  unfold State.loadEnded
  generalize s.enterReady c = u at hlive hvtime hfr hgen ⊢
  refine ⟨hlive, by rw [ctx_updCtx_same], by rw [ctx_updCtx_same]; exact hvtime, hfr, hgen⟩

section
variable (s : State) (c : Nat) (l : LoadRun) (st : Nat)

theorem ctxs_answerLoad : (s.answerLoad c l st).ctxs = s.ctxs := by
  unfold State.answerLoad
  split <;> rfl

theorem regs_answerLoad : (s.answerLoad c l st).regs = s.regs := by
  unfold State.answerLoad
  split <;> rfl

theorem held_answerLoad {r : Req} (h : l.request = some r) :
    (s.answerLoad c l st).fr.held = s.fr.held ++ [⟨1, 0, { answer 6 r (verdict st) 0 with gen := s.gen c }⟩] := by
  unfold State.answerLoad
  rw [h]
  rfl
end

section
variable {s : State} {c : Nat} (hc : c < 1024) {tm : Template} (htemplate : s.template c = some tm)
include hc htemplate

theorem loadComplete_readies {l : LoadRun} (hloading : (s.ctx c).loading = some l) (hlive : s.ctxLive c = 1) (hload : l.restore = false)
    (hstage : l.stage = 5) (hblocked : s.unblocked c = []) (hgood : s.packageBad c tm = false) :
    Completes (.loadComplete c) s (fun t => t.ctxLive c = 2 ∧ (t.ctx c).loading = none ∧ (t.ctx c).vtime = s.minVtime ∧
      ∀ r, l.request = some r → t.fr.held = s.fr.held ++ [⟨1, 0, { answer 6 r (verdict stOk) 0 with gen := s.gen c }⟩]) := by
  have hexec : exec (.loadComplete c) s = .next (((s.fillQp c tm).loadEnded c).answerLoad c l stOk) := by
    show execLoadComplete c s = _
    unfold execLoadComplete
    simp only [hloading, htemplate, hgood]
    exact congrArg Host.Outcome.next ((if_pos ⟨hlive, hload, hstage, hblocked⟩).trans (if_neg Bool.false_ne_true))
  have hfill : Keeps 0x100000 s (s.fillQp c tm) := keeps_fillQp (Keeps.refl 0x100000 s) rfl
  have hmin := minVtime_congr (hfill.same .ctxs rfl) (hfill.same .vis rfl)
  have hfr := hfill.same .fr rfl
  have hgen : (s.fillQp c tm).gen c = s.gen c := hfill.get rfl hc rfl
  obtain ⟨hready, hended, hvtime, hheld, hgen'⟩ := loadEnded_readies (s.fillQp c tm) hc
  refine ⟨_, hexec, ?_⟩
  generalize (s.fillQp c tm).loadEnded c = u at hready hended hvtime hheld hgen' ⊢
  refine ⟨(get_congr (regs_answerLoad u c l stOk) ..).trans hready, ?_, ?_, fun r hr => ?_⟩
  · rw [ctx_congr (ctxs_answerLoad u c l stOk)]
    exact hended
  · rw [ctx_congr (ctxs_answerLoad u c l stOk)]
    exact hvtime.trans hmin
  · rw [held_answerLoad u c l stOk hr, hheld, hgen', hgen, hfr]
end

theorem completes_mono {i : Instr} {s : State} {P Q : State → Prop} (h : Completes i s P) (himp : ∀ {t}, P t → Q t) : Completes i s Q :=
  h.imp fun _ ⟨hexec, hP⟩ => ⟨hexec, himp hP⟩

/-- Settles O57: each command by the theorem about it; that a generation is numbered from lastGen on is log entry 134. -/
theorem checkpoints : Obligations.Checkpoints := by
  unfold Obligations.Checkpoints
  intro s c tm hc htemplate run named complete abandoned
  have hnamed : ∀ {n g t}, CkptNamed c tm n g s t → named n g t := fun h => ⟨h.run, h.lastStart, h.lastGen⟩
  have hcomplete : ∀ {k t}, CkptCompleted c k s t → complete k t :=
    fun h => ⟨h.run, h.latest, h.previous, h.gen, h.step, h.shown, h.logged⟩
  have habandoned : ∀ {cause t}, CkptAbandoned c cause s t → abandoned cause t := fun h => ⟨h.run, h.latest, h.counted, h.shown, h.logged⟩
  refine ⟨fun l => loadComplete_readies hc htemplate, fun halive hwindow hleads hdue => ?_, fun o hctx hopen => ⟨fun hnone hstep hheld => ?_,
    (ckpt_names htemplate hc hctx hopen).2.1, (ckpt_names htemplate hc hctx hopen).2.2, fun k hrun hstep => ⟨?_, ?_, ?_⟩,
    fun k hrun => done_stale htemplate hrun hctx hopen hc⟩, fun o => holderDone_records, fun k hrun htaken halive hone hme hall => ?_,
    fun k hrun => ⟨fun m hheld hother hmissing => ?_, fun m => ckptAbandon_ofDoneHolder htemplate hrun, fun m i hmember hlost => ?_,
      fun m hlive => ?_, fun m hlive => ?_, fun htaken hpast => ?_, fun g v hsnap hsamples => probe_notes hrun hsnap hsamples v⟩,
    fun n hstate hphase hpast => ⟨exportScheduled_starts htemplate hstate hphase hpast, exportScheduled_skips htemplate hstate hphase hpast hc⟩,
    exportHoldExpiry_displaces s c⟩
  case refine_1 =>
    exact completes_mono (ckptStart_names htemplate halive hwindow hleads hdue) fun ⟨hn, hsent⟩ => ⟨hnamed hn, hsent⟩
  case refine_2 => exact completes_mono ((ckpt_names htemplate hc hctx hopen).1 hnone hstep hheld) hnamed
  case refine_3 => exact done_ofHolder htemplate hrun hctx hopen hstep
  case refine_4 => exact done_ofMember htemplate hrun hctx hopen hstep
  case refine_5 =>
    exact fun hholder htaken hall => completes_mono (done_ofLastMember htemplate hrun hctx hopen hc hstep hholder htaken hall) hcomplete
  case refine_6 => exact completes_mono (selfHoldCopyDone_completes hc htemplate hrun htaken halive hone hme hall) hcomplete
  case refine_7 =>
    exact completes_mono (ckptAbandon_ofHolder hc htemplate hrun hheld hother hmissing) fun ⟨ha, hgone⟩ => ⟨habandoned ha, hgone⟩
  case refine_8 => exact completes_mono (ckptAbandon_ofMember hc htemplate hrun m hmember hlost) habandoned
  case refine_9 => exact completes_mono (ckptAbandon_ofRestore hc htemplate hrun m hlive) habandoned
  case refine_10 => exact completes_mono (ckptAbandon_ofFault hc htemplate hrun m hlive) habandoned
  case refine_11 => exact completes_mono (ckptLimitExpiry_abandons hc hrun htaken hpast) habandoned

end Sys2Proof.Machine
end
